-- ==== Sys2Proof/Word.lean ====
section
/-! DEFINITION. The word types and the shape of a sparse map; their operations stand in `Machine/Data.lean`. -/

namespace Sys2Proof

/-- A byte of memory, of a register or of a packet. -/
abbrev Byte := BitVec 8

/-- A 64-bit register, sync object, seal or bus word. -/
abbrev Word := BitVec 64

/-- A 16-bit status code (R3); the codes stand in `Machine/Codes.lean`. -/
abbrev Status := Nat

/-- A sparse map by number in one canonical form: keys strictly rising, no entry equal to what an unlisted key
reads as (`SMap.get`, `SMap.put` and `SMap.wf` in `Machine/Data.lean`). -/
abbrev SMap (α : Type) := List (Nat × α)

/-- A set of numbers, strictly rising. -/
abbrev NSet := List Nat

end Sys2Proof
end

