-- ==== Sys2Proof/Syntax.lean ====
section
/-! DEFINITION. The commands the block takes: one constructor per row of the opcode table, with the operands the row's
event brings from outside. Numbers that name a unit are bounded by their type, so that every command names one. -/

namespace Sys2Proof

abbrev SiteNo := Fin 16
abbrev PosNo := Fin 32
abbrev SliceNo := Fin 4096
abbrev ClassNo := Fin 4
abbrev PartNo := Fin 32
abbrev StackNo := Fin 8
abbrev ChanNo := Fin 32
abbrev PortNo := Fin 4

/-- The element formats of a memory-side add, in the order of R183. -/
inductive AddFormat where
  | int32 | int64 | fp32 | bf16
deriving DecidableEq, Repr

/-- What a memory request does; the bytes of a write or add are taken up to its length, missing ones as zero. -/
inductive MemKind where
  | read
  | write (data : List Byte)
  | add (fmt : AddFormat) (data : List Byte)
deriving DecidableEq, Repr

/-- Who presents a memory request. -/
inductive Requester where
  | xfer (pos : PosNo)
  | vec (pos : PosNo)
  | red (pos : PosNo)
  | cmd (pos : PosNo)
  | siteCore (site : SiteNo) (core : Fin 64)
  | site (site : SiteNo)
  | denob
  | manager
  | host (fn : Fin 33)
  | reach (port : PortNo)
  | security
  | boot
deriving DecidableEq, Repr

/-- A fault pair (R321): whose monitor it is. -/
inductive FaultPair where
  | denob
  | collector
  | clock
  | axovonak
  | supply (rail : Fin 16)
  | thermal (sensor : Fin 68)
deriving DecidableEq, Repr

/-- A memory request as it reaches a memory: `len1` is its length minus 1. -/
structure MemCmd where
  requester : Requester
  slice : Option SliceNo
  ensign : Fin 8
  port : Fin 102
  tag : BitVec 14
  addr : BitVec 48
  len1 : Fin 256
  kind : MemKind
deriving DecidableEq, Repr

/-- How far a one-time-programmable commit under way had programmed its rows when power fell. -/
structure OtpProgress where
  uds : BitVec 384
  udsValid : BitVec 32
  state : BitVec 32
  complete : BitVec 32
deriving DecidableEq, Repr

/-- How a stack's training and zero fill end: trained at the second attempt at the latest or not, the height and maker it
reports (height 0: it never answered), and the physical channels that failed. -/
structure StackResult where
  trained : Bool
  height : Fin 4
  vendor : BitVec 8
  failed : BitVec 32
deriving DecidableEq, Repr

/-- The boot tests of Table BUP-4 without an event of their own: Denob's lockstep BIST failed, how many of the collector's
controllers failed, the failed device-global units by source, and the failed directory ways by set and way. -/
structure BootTests where
  denob : Bool
  collector : Fin 3
  fatal : List (Fin 4096)
  dirWays : List (Fin 131072 × Fin 16)
deriving DecidableEq, Repr

/-- An access through IEEE 1149.1 or IEEE 1687 (R363). -/
inductive DebugOp where
  | mandatory
  | instrument (n : BitVec 16)
  | regRead (off : BitVec 28) (wide : Bool)
  | regWrite (off : BitVec 28) (wide : Bool) (v : Word)
  | memRead (addr : BitVec 48) (len1 : Fin 256) (slice : Option SliceNo)
  | memWrite (addr : BitVec 48) (data : List Byte) (slice : Option SliceNo)
  | halt (pos : PosNo) (on : Bool)
deriving DecidableEq, Repr

/-- A packet that a unit presents at its Halyard tap (Table HAL-2): KIND 0 read, 1 write, 2 add, 3 sync operation,
4 response, 5 snoop or forward, 6 pennant. -/
structure HyCmd where
  dst : Fin 105
  src : Fin 105
  ensign : Fin 8
  kind : Fin 7
  tag : BitVec 12
  len1 : Fin 256
  slice : SliceNo
  gen : BitVec 16
  addr : BitVec 48
  status : BitVec 16
deriving DecidableEq, Repr

/-- What a packet meets in transit: corrected beats, or an uncorrectable error in its header or data, found at a router on
link 0–3 or tap 4–5. -/
inductive HyUpset where
  | clean
  | corrected (beats : BitVec 8)
  | uncorrectable (header : Bool) (router : Fin 32) (link : Fin 6)
deriving DecidableEq, Repr

/-- An error a memory device shows from now on: the shelf word or the physical granule (stack, channel, line), how many
bits are inverted or which error the stack reports (1 corrected, 2 uncorrected), and for how many reads. -/
structure ShelfUpset where
  word : Fin 67108864
  bits : Fin 3
deriving DecidableEq, Repr

structure StackError where
  stack : StackNo
  chan : ChanNo
  line : Fin 8388608
  kind : Fin 3
  times : Fin 4
deriving DecidableEq, Repr

/-- A ring that the hub produces and whose head a consumer writes (R58). -/
inductive HeadRing where
  | completion (slice : SliceNo)
  | token (slice : SliceNo)
  | hot
  | faultLog
deriving DecidableEq, Repr

/-- Who sends an operation to a sync object's home. -/
structure SyncFrom where
  requester : Requester
  slice : Option SliceNo
  ensign : Fin 8
  tag : BitVec 14
deriving DecidableEq, Repr

/-- A stacked-link frame as it arrives (Table SIT-4): its lane group, fields, PAYLOAD and CRC. -/
structure SiteFrame where
  group : Fin 4
  seq : BitVec 12
  ack : BitVec 12
  ackValid : Bool
  payload : List Byte
  crc : BitVec 16
deriving DecidableEq, Repr

/-- The fields of a protocol packet's header (Table SWP-1) but its opcode and UNITS; PARAM holds STATUS in responses. -/
structure PacketHdr where
  tag : BitVec 12
  len : BitVec 8
  core : Fin 64
  ctx : BitVec 12
  attr : BitVec 8
  addr : BitVec 48
  param : BitVec 16
deriving DecidableEq, Repr

/-- What a directory read shows in one way of the line's set (R219). -/
structure DirUpset where
  way : Fin 16
  uncorrectable : Bool
deriving DecidableEq, Repr

/-- A Page Request Group Response's code. -/
inductive PrgCode where
  | success | invalid | failure
deriving DecidableEq, Repr

/-- A TLB entry whose parity fails from then on (R228): in the L2 set `index`, or in the L1 of position `index`, 32 for
Denob's. -/
structure TlbUpset where
  l2 : Bool
  index : Fin 1024
  way : Fin 64
deriving DecidableEq, Repr

/-- A reach frame as it arrives (R308): its fields, PAYLOAD and CRC, and the lane of a codeword that FEC cannot correct. -/
structure ReachFrame where
  seq : BitVec 16
  ack : BitVec 16
  reqCr : BitVec 12
  rspCr : BitVec 12
  payload : List Byte
  crc : BitVec 32
  fec : Option (Fin 8)
deriving DecidableEq, Repr

/-- KIND of a reach packet (R312). -/
inductive ReachKind where
  | read | write | syncOp | syncWait | notice | response
deriving DecidableEq, Repr

/-- The other fields of a reach packet's header (R312) ; its data gives UNITS. -/
structure ReachHdr where
  dst : BitVec 24
  src : BitVec 24
  slice : SliceNo
  ensign : Fin 8
  tag : BitVec 14
  len : BitVec 8
  route : BitVec 60
  hop : Fin 31
  hops : Fin 31
  relays : Fin 16
  ret : BitVec 60
  addr : BitVec 48
  status : BitVec 16
deriving DecidableEq, Repr

/-- How an inbound packet comes under IDE (R305): the stream it matches, T set, whether its integrity check passes, and whether
the stream's associations cover it. -/
structure IdeTlp where
  stream : Option (Fin 8)
  tee : Bool
  good : Bool
  covered : Bool
deriving DecidableEq, Repr

/-- What an inbound request asks for: `len1` is a read's length minus 1; a write may come with EP set. -/
inductive BarOp where
  | read (len1 : Fin 4096)
  | write (data : List Byte) (poisoned : Bool)
  | atomic
deriving DecidableEq, Repr

/-- What the hub's receive test of a site's link found: the groups that passed (R163), and by module the code of the rate
at which it trained, in two bits, 0 for none (R157). -/
structure GroupTest where
  passed : BitVec 8
  rates : BitVec 8
deriving DecidableEq, Repr

/-- A site whose proposal is late, and the receive test of its link. -/
structure ReconTest where
  site : SiteNo
  test : GroupTest
deriving DecidableEq, Repr

/-- WIDTH_ACK as a site sends it: the TAG it answers, and the last SEQ it received in order. -/
structure WidthAckMsg where
  tag : BitVec 8
  lastGood : BitVec 12
deriving DecidableEq, Repr

/-- A sideband message from a site: its 16 bytes. -/
structure SidebandMsg where
  site : SiteNo
  msg : BitVec 128
deriving DecidableEq, Repr

/-- A reach port whose training ended, and the lanes that failed in it. -/
structure PortTest where
  port : PortNo
  failed : BitVec 8
deriving DecidableEq, Repr

/-- A host request to a BAR: function, tag, offset in the BAR. -/
structure BarReq where
  fn : Fin 33
  tag : BitVec 14
  off : BitVec 48
  op : BarOp
  ide : IdeTlp
deriving DecidableEq, Repr

/-- A TDISP message to a VF's TDI (R306). -/
inductive TdispMsg where
  | lock (stream : Fin 8)
  | start
  | stop
deriving DecidableEq, Repr

/-- An SPDM request, by what it asks of the responder (R361); MEASUREMENTS by block, 0xFF for all. -/
inductive SpdmReq where
  | version
  | capabilities
  | algorithms
  | digests
  | certificate (off len : BitVec 16)
  | challenge (nonce : BitVec 256)
  | measurements (index : BitVec 8) (signed : Bool)
  | keyExchange
  | endSession
  | ideKey (stream : Fin 8)
deriving DecidableEq, Repr

/-- A configuration request to the dword at `dword` × 4: a write's data and byte enables. -/
inductive CfgOp where
  | read
  | write (data : BitVec 32) (enables : Fin 16)
deriving DecidableEq, Repr
/-- The commands of the block: one constructor per row of the opcode table. -/
inductive Instr where
  /-- REGISTER_WRITE: R4. -/
  | registerWrite (off : BitVec 28) (wide : Bool) (v : Word) (boot : Bool)
  /-- BOOT_SEAL: R23. -/
  | bootSeal
  /-- SHELF_REQUEST: R26. -/
  | shelfRequest (bank : Fin 512) (arrive : Option MemCmd) (upset : Option ShelfUpset)
  /-- SHELF_ECC_WRITEBACK: R29. -/
  | shelfEccWriteback (bank : Fin 512)
  /-- BANK_COPY_DONE: R33. -/
  | bankCopyDone (bank : Fin 512)
  /-- SHELF_FILL: R35. -/
  | shelfFill (count : BitVec 18)
  /-- SHELF_FILL_DONE: R35. -/
  | shelfFillDone
  /-- SHELF_SCRUB: R29. -/
  | shelfScrub (bank : Fin 512)
  /-- HBM_READ: R50. -/
  | hbmRead (req : MemCmd) (err : Option StackError)
  /-- HBM_WRITE: R43. -/
  | hbmWrite (req : MemCmd)
  /-- STRIPE_GATHER_TIMEOUT: R43. -/
  | stripeGatherTimeout (stripe : BitVec 29)
  /-- STRIPE_LOCK_GRANT: R44. -/
  | stripeLockGrant (stripe : BitVec 29)
  /-- REORDER_QUEUE_ISSUE: R45. -/
  | reorderQueueIssue (pc : Fin 512)
  /-- HBM_REFRESH: R47. -/
  | hbmRefresh (pc : Fin 512) (bank : Fin 16)
  /-- STACK_TEMPERATURE: R47. -/
  | stackTemperature (stack : StackNo) (celsius : BitVec 8)
  /-- HBM_RETRAIN: R47. -/
  | hbmRetrain (pc : Fin 512)
  /-- HBM_RETRAIN_END: R47. -/
  | hbmRetrainEnd (pc : Fin 512) (passed : Bool)
  /-- REBUILD_STEP: R52. -/
  | rebuildStep (stack : StackNo) (chan : ChanNo)
  /-- HBM_PATROL_SCRUB: R54. -/
  | hbmPatrolScrub
  /-- DOORBELL: R58. -/
  | doorbell (slice : SliceNo) (cls : ClassNo) (v : BitVec 32)
  /-- CONSUMER_HEAD_WRITE: R58. -/
  | consumerHeadWrite (ring : HeadRing) (v : BitVec 32)
  /-- COMMAND_FETCH: R59. -/
  | commandFetch (slice : SliceNo) (cls : ClassNo)
  /-- HEAD_WRITEBACK: R59. -/
  | headWriteback (slice : SliceNo) (cls : ClassNo)
  /-- XFER: R86. -/
  | xfer (slice : SliceNo) (cls : ClassNo)
  /-- VEXEC: R134. -/
  | vexec (slice : SliceNo) (cls : ClassNo)
  /-- REDUCE: R145. -/
  | reduce (slice : SliceNo) (cls : ClassNo)
  /-- COLLECT: R147. -/
  | collect (slice : SliceNo) (cls : ClassNo)
  /-- DISPATCH: R188. -/
  | dispatch (slice : SliceNo) (cls : ClassNo)
  /-- SIGNAL: R70. -/
  | signal (slice : SliceNo) (cls : ClassNo)
  /-- WAIT: R71. -/
  | wait (slice : SliceNo) (cls : ClassNo)
  /-- MARK: R73. -/
  | mark (slice : SliceNo) (cls : ClassNo)
  /-- FENCE: R72. -/
  | fence (slice : SliceNo) (cls : ClassNo)
  /-- CALL: R68. -/
  | call (slice : SliceNo) (cls : ClassNo)
  /-- RETURN: R68. -/
  | returnList (slice : SliceNo) (cls : ClassNo)
  /-- JUMP: R69. -/
  | jump (slice : SliceNo) (cls : ClassNo)
  /-- HANDLE: R80. -/
  | handle (slice : SliceNo) (cls : ClassNo)
  /-- UNLISTED_OPCODE: R66. -/
  | unlistedOpcode (slice : SliceNo) (cls : ClassNo)
  /-- COMMAND_COMPLETE: R64. -/
  | commandComplete (slice : SliceNo) (cls : ClassNo) (nth : Fin 32)
  /-- CRING_ENTRY_POST: R82. -/
  | cringEntryPost (slice : SliceNo)
  /-- CRING_IRQ_TIMER: R83. -/
  | cringIrqTimer (slice : SliceNo)
  /-- QUEUE_ENABLE: R85. -/
  | queueEnable (slice : SliceNo) (cls : ClassNo)
  /-- QUEUE_DISABLE: R85. -/
  | queueDisable (slice : SliceNo) (cls : ClassNo)
  /-- QUEUE_PAUSE: R85. -/
  | queuePause (slice : SliceNo) (cls : ClassNo)
  /-- QUEUE_RESUME: R85. -/
  | queueResume (slice : SliceNo) (cls : ClassNo)
  /-- QUEUE_RETRY: R84. -/
  | queueRetry (slice : SliceNo) (cls : ClassNo)
  /-- QUEUE_SKIP: R84. -/
  | queueSkip (slice : SliceNo) (cls : ClassNo)
  /-- SYNC_SIGNAL: R75. -/
  | syncSignal (obj : Fin 131072) (amount : BitVec 32) (sender : SyncFrom)
  /-- SYNC_RESET: R75. -/
  | syncReset (obj : Fin 131072) (sender : SyncFrom)
  /-- SYNC_READ: R75. -/
  | syncRead (obj : Fin 131072) (sender : SyncFrom)
  /-- SYNC_WAIT_REGISTER: R75. -/
  | syncWaitRegister (obj : Fin 131072) (target : Word) (site : SiteNo) (tag : BitVec 12) (timeoutUs : BitVec 16)
  /-- WAIT_RELEASE: R78. -/
  | waitRelease (home : PosNo)
  /-- WAIT_TIMEOUT: R71. -/
  | waitTimeout (slice : SliceNo) (cls : ClassNo)
  /-- WAIT_POLL: R78. -/
  | waitPoll (home : PosNo) (nth : Nat)
  /-- FENCE_COMPLETE: R72. -/
  | fenceComplete (slice : SliceNo) (cls : ClassNo)
  /-- MARK_COMMIT: R73. -/
  | markCommit (slice : SliceNo)
  /-- XFER_SLOT_START: R86. -/
  | xferSlotStart (pos : PosNo)
  /-- XFER_DESC_READ: R87. -/
  | xferDescRead (pos : PosNo) (slot : Fin 8)
  /-- XFER_CURSOR_READ: R109. -/
  | xferCursorRead (pos : PosNo) (slot : Fin 8)
  /-- XFER_BLOCK_PREPARED: R101. -/
  | xferBlockPrepared (pos : PosNo) (slot : Fin 8) (ahead : Fin 16) (parity : Option TlbUpset)
  /-- XFER_BLOCK_DELIVERED: R102. -/
  | xferBlockDelivered (pos : PosNo) (slot : Fin 8)
  /-- VEXEC_IMAGE_LOADED: R134. -/
  | vexecImageLoaded (pos : PosNo)
  /-- VECTOR_ACCESS_COMPLETE: R127. -/
  | vectorAccessComplete (pos : PosNo)
  /-- VEXEC_TIMEOUT: R138. -/
  | vexecTimeout (pos : PosNo)
  /-- FORBIDDEN_INSTRUCTION: R117. -/
  | forbiddenInstruction (pos : PosNo)
  /-- NOP: R117. -/
  | nop (pos : PosNo)
  /-- END: R137. -/
  | endKernel (pos : PosNo)
  /-- JMP: R138. -/
  | jmp (pos : PosNo)
  /-- DBNZ: R138. -/
  | dbnz (pos : PosNo)
  /-- SETVL: R114. -/
  | setvl (pos : PosNo)
  /-- SLI: R118. -/
  | sli (pos : PosNo)
  /-- SLIH: R118. -/
  | slih (pos : PosNo)
  /-- SADD: R118. -/
  | sadd (pos : PosNo)
  /-- SSUB: R118. -/
  | ssub (pos : PosNo)
  /-- SMUL: R118. -/
  | smul (pos : PosNo)
  /-- SARG: R134. -/
  | sarg (pos : PosNo)
  /-- RDFLG: R123. -/
  | rdflg (pos : PosNo)
  /-- SETSEED: R122. -/
  | setseed (pos : PosNo)
  /-- VLD: R124. -/
  | vld (pos : PosNo)
  /-- VLDS: R124. -/
  | vlds (pos : PosNo)
  /-- VLDX: R124. -/
  | vldx (pos : PosNo)
  /-- VST: R126. -/
  | vst (pos : PosNo)
  /-- VSTS: R126. -/
  | vsts (pos : PosNo)
  /-- VSTX: R127. -/
  | vstx (pos : PosNo)
  /-- VSTXA: R126. -/
  | vstxa (pos : PosNo)
  /-- VSEAL: R128. -/
  | vseal (pos : PosNo)
  /-- VCHK: R129. -/
  | vchk (pos : PosNo)
  /-- ADD: R119. -/
  | add (pos : PosNo)
  /-- SUB: R119. -/
  | sub (pos : PosNo)
  /-- MUL: R119. -/
  | mul (pos : PosNo)
  /-- FMA: R119. -/
  | fma (pos : PosNo)
  /-- FNMA: R119. -/
  | fnma (pos : PosNo)
  /-- MIN: R120. -/
  | min (pos : PosNo)
  /-- MAX: R120. -/
  | max (pos : PosNo)
  /-- ABS: R119. -/
  | abs (pos : PosNo)
  /-- EXP2: R121. -/
  | exp2 (pos : PosNo)
  /-- LOG2: R121. -/
  | log2 (pos : PosNo)
  /-- RCP: R121. -/
  | rcp (pos : PosNo)
  /-- RSQRT: R121. -/
  | rsqrt (pos : PosNo)
  /-- SHL: R119. -/
  | shl (pos : PosNo)
  /-- SHR: R119. -/
  | shr (pos : PosNo)
  /-- SRA: R119. -/
  | sra (pos : PosNo)
  /-- CVT: R122. -/
  | cvt (pos : PosNo)
  /-- CMP_EQ: R120. -/
  | cmpEq (pos : PosNo)
  /-- CMP_NE: R120. -/
  | cmpNe (pos : PosNo)
  /-- CMP_LT: R120. -/
  | cmpLt (pos : PosNo)
  /-- CMP_LE: R120. -/
  | cmpLe (pos : PosNo)
  /-- CMP_GT: R120. -/
  | cmpGt (pos : PosNo)
  /-- CMP_GE: R120. -/
  | cmpGe (pos : PosNo)
  /-- CMP_UN: R120. -/
  | cmpUn (pos : PosNo)
  /-- SEL: R115. -/
  | sel (pos : PosNo)
  /-- MAND: R115. -/
  | mand (pos : PosNo)
  /-- MOR: R115. -/
  | mor (pos : PosNo)
  /-- MXOR: R115. -/
  | mxor (pos : PosNo)
  /-- MNOT: R115. -/
  | mnot (pos : PosNo)
  /-- MPOPC: R115. -/
  | mpopc (pos : PosNo)
  /-- MFIRST: R115. -/
  | mfirst (pos : PosNo)
  /-- MSET: R115. -/
  | mset (pos : PosNo)
  /-- NEG: R119. -/
  | neg (pos : PosNo)
  /-- MOV: R115. -/
  | mov (pos : PosNo)
  /-- PERM: R131. -/
  | perm (pos : PosNo)
  /-- BCASTL: R131. -/
  | bcastl (pos : PosNo)
  /-- SLIDEUP: R132. -/
  | slideup (pos : PosNo)
  /-- SLIDEDN: R132. -/
  | slidedn (pos : PosNo)
  /-- COMPRESS: R130. -/
  | compress (pos : PosNo)
  /-- EXPAND: R130. -/
  | expand (pos : PosNo)
  /-- BCASTX: R113. -/
  | bcastx (pos : PosNo)
  /-- XFROMV: R131. -/
  | xfromv (pos : PosNo)
  /-- RCLR: R140. -/
  | rclr (pos : PosNo)
  /-- RNORM: R141. -/
  | rnorm (pos : PosNo)
  /-- RSUM: R142. -/
  | rsum (pos : PosNo)
  /-- RTOPK: R143. -/
  | rtopk (pos : PosNo)
  /-- RMERGE: R144. -/
  | rmerge (pos : PosNo)
  /-- RGETN: R140. -/
  | rgetn (pos : PosNo)
  /-- RGETS: R140. -/
  | rgets (pos : PosNo)
  /-- RGETQ: R140. -/
  | rgetq (pos : PosNo)
  /-- RGETK: R140. -/
  | rgetk (pos : PosNo)
  /-- RFACT: R140. -/
  | rfact (pos : PosNo)
  /-- RSETN: R140. -/
  | rsetn (pos : PosNo)
  /-- REDUCE_CHUNK: R146. -/
  | reduceChunk (pos : PosNo)
  /-- COLLECT_WAIT_SATISFIED: R148. -/
  | collectWaitSatisfied (pos : PosNo) (nth : Fin 32)
  /-- COLLECT_TIMEOUT: R149. -/
  | collectTimeout (pos : PosNo) (nth : Fin 32)
  /-- SITE_TRAINED: R156. -/
  | siteTrained (site : SiteNo) (rates : BitVec 8) (repaired : BitVec 16) (failed : BitVec 8)
  /-- SITE_TRAIN_TIMEOUT: R156. -/
  | siteTrainTimeout (site : SiteNo)
  /-- DATA_FRAME: R159. -/
  | dataFrame (site : SiteNo) (frame : SiteFrame) (kind3 : Bool)
  /-- IDLE_FRAME: R160. -/
  | idleFrame (site : SiteNo) (frame : SiteFrame)
  /-- NAK_FRAME: R160. -/
  | nakFrame (site : SiteNo) (frame : SiteFrame)
  /-- ACK_TIMER: R160. -/
  | ackTimer (site : SiteNo)
  /-- NAK_RESEND: R160. -/
  | nakResend (site : SiteNo)
  /-- MODULE_RETURN_TIMEOUT: R161. -/
  | moduleReturnTimeout (site : SiteNo) (md : Fin 4)
  /-- LINK_HELLO: R171. -/
  | linkHello (site : SiteNo)
  /-- HEARTBEAT: R168. -/
  | heartbeat (site : SiteNo)
  /-- WIDTH_PROPOSE: R163. -/
  | widthPropose (site : SiteNo) (set : BitVec 8) (attempt : Fin 4) (test : GroupTest)
  /-- WIDTH_AGREE: R163. -/
  | widthAgree (site : SiteNo) (set : BitVec 8) (attempt : Fin 4)
  /-- WIDTH_ACK: R162. -/
  | widthAck (site : SiteNo) (ack : WidthAckMsg)
  /-- RESET_NOTE: R169. -/
  | resetNote (site : SiteNo)
  /-- ERR_NOTE: R167. -/
  | errNote (site : SiteNo) (kind who : BitVec 8) (addr : BitVec 32)
  /-- CORE_FAIL: R333. -/
  | coreFail (site : SiteNo) (phys : Fin 64)
  /-- PROTO_NOTE: R174. -/
  | protoNote (site : SiteNo) (opcode : BitVec 8) (tag : BitVec 12)
  /-- SIDEBAND_INVALID: R167. -/
  | sidebandInvalid (msg : SidebandMsg)
  /-- HEARTBEAT_SEND: R168. -/
  | heartbeatSend (site : SiteNo)
  /-- HEARTBEAT_TIMEOUT: R169. -/
  | heartbeatTimeout (site : SiteNo)
  /-- SIDEBAND_RESEND: R168. -/
  | sidebandResend (site : SiteNo)
  /-- RECON_TIMEOUT: R163. -/
  | reconTimeout (test : ReconTest)
  /-- CLOCK_LOSS: R169. -/
  | clockLoss (site : SiteNo) (groups : BitVec 8)
  /-- SITE_RESET: R166. -/
  | siteReset (site : SiteNo)
  /-- SITE_RESET_RELEASE: R166. -/
  | siteResetRelease (site : SiteNo)
  /-- SITE_RETRAIN: R171. -/
  | siteRetrain (site : SiteNo)
  /-- CLK_HOLD: R166. -/
  | clkHold (site : SiteNo) (on : Bool)
  /-- RD: R182. -/
  | rd (site : SiteNo) (h : PacketHdr)
  /-- WR: R182. -/
  | wr (site : SiteNo) (h : PacketHdr) (data : List Byte)
  /-- WR_BLOCK: R184. -/
  | wrBlock (site : SiteNo) (h : PacketHdr) (data : List Byte)
  /-- SWP_ADD: R183. -/
  | swpAdd (site : SiteNo) (h : PacketHdr) (data : List Byte)
  /-- RD_BLOCK: R185. -/
  | rdBlock (site : SiteNo) (h : PacketHdr)
  /-- SYNC_WAIT: R186. -/
  | syncWait (site : SiteNo) (h : PacketHdr) (target : Word)
  /-- SITE_WAIT_TIMEOUT: R186. -/
  | siteWaitTimeout (site : SiteNo) (tag : BitVec 12)
  /-- BURGEE: R180. -/
  | burgee (site : SiteNo) (data : List Byte)
  /-- ENROL_TIMEOUT: R179. -/
  | enrolTimeout (site : SiteNo)
  /-- RD_DATA: R192. -/
  | rdData (site : SiteNo) (h : PacketHdr) (data : List Byte)
  /-- RESP: R192. -/
  | resp (site : SiteNo) (h : PacketHdr)
  /-- DONE: R189. -/
  | done (site : SiteNo) (h : PacketHdr) (count : Word)
  /-- CREDIT: R176. -/
  | credit (site : SiteNo) (reqH reqD snpH : BitVec 8)
  /-- UNLISTED_PACKET: R174. -/
  | unlistedPacket (site : SiteNo) (op : BitVec 8) (units : Fin 512) (h : PacketHdr)
  /-- DISPATCH_TIMEOUT: R190. -/
  | dispatchTimeout (site : SiteNo) (tag : BitVec 12)
  /-- CANCEL_TIMEOUT: R190. -/
  | cancelTimeout (site : SiteNo) (tag : BitVec 12)
  /-- WINDOW_REQ_TIMEOUT: R192. -/
  | windowReqTimeout (site : SiteNo) (tag : BitVec 12)
  /-- C_RD_S: R204. -/
  | cRdS (site : SiteNo) (h : PacketHdr) (dirErr : Option DirUpset)
  /-- C_RD_O: R204. -/
  | cRdO (site : SiteNo) (h : PacketHdr) (dirErr : Option DirUpset)
  /-- C_UPG: R204. -/
  | cUpg (site : SiteNo) (h : PacketHdr) (dirErr : Option DirUpset)
  /-- C_WB: R207. -/
  | cWb (site : SiteNo) (h : PacketHdr) (data : List Byte)
  /-- C_EVICT: R204. -/
  | cEvict (site : SiteNo) (h : PacketHdr)
  /-- SNP_ACK: R206. -/
  | snpAck (site : SiteNo) (h : PacketHdr)
  /-- SNP_DATA: R205. -/
  | snpData (site : SiteNo) (h : PacketHdr) (data : List Byte)
  /-- SNOOP_TIMEOUT: R213. -/
  | snoopTimeout (site : SiteNo) (tag : BitVec 12)
  /-- HOLD_WINDOW_END: R209. -/
  | holdWindowEnd (line : BitVec 42)
  /-- RESERVATION_EXPIRY: R210. -/
  | reservationExpiry (line : BitVec 42)
  /-- RECLAIM_STEP: R215. -/
  | reclaimStep
  /-- ATS_COMPLETION: R229. -/
  | atsCompletion (tag : Fin 512) (status : Fin 3) (pa : Word) (log2 : Fin 64) (r w u g : Bool)
  /-- ATS_TIMEOUT: R229. -/
  | atsTimeout (tag : Fin 512)
  /-- PRG_SEND: R233. -/
  | prgSend
  /-- PRG_RESPONSE: R233. -/
  | prgResponse (fn : Fin 33) (idx : Fin 512) (code : PrgCode)
  /-- PRG_TIMEOUT: R233. -/
  | prgTimeout (fn : Fin 33) (idx : Fin 512)
  /-- INVALIDATE_REQUEST: R237. -/
  | invalidateRequest (fn : Fin 33) (itag : Fin 32) (pasid : Option (BitVec 20)) (glob : Bool) (va : Word) (log2 : Fin 65)
  /-- INVALIDATION_COMPLETE: R238. -/
  | invalidationComplete (fn : Fin 33) (itag : Fin 32)
  /-- ACC_DECAY: R241. -/
  | accDecay
  /-- ACC_CLEAR: R241. -/
  | accClear
  /-- TLB_FLUSH: R226. -/
  | tlbFlush
  /-- CRING_WRITE_RETRY: R236. -/
  | cringWriteRetry (slice : SliceNo)
  /-- REQUEST_RING_DOORBELL: R246. -/
  | requestRingDoorbell (slice : SliceNo) (v : BitVec 32)
  /-- REQUEST_SUBMIT: R247. -/
  | requestSubmit (slice : SliceNo)
  /-- REQUEST_CANCEL: R247. -/
  | requestCancel (slice : SliceNo)
  /-- STEP_BOUNDARY: R250. -/
  | stepBoundary (part : PartNo)
  /-- SAMPLE_TOKEN: R253. -/
  | sampleToken (part : PartNo) (slice : SliceNo) (reqId : BitVec 32) (cands : List (BitVec 32 × BitVec 32))
  /-- TOKEN_RING_ROOM: R248. -/
  | tokenRingRoom (slice : SliceNo)
  /-- TOKEN_IRQ_TIMER: R248. -/
  | tokenIrqTimer (slice : SliceNo)
  /-- PLAN_LOAD: R245. -/
  | planLoad (part : PartNo) (index : Fin 16)
  /-- PLAN_UNLOAD: R245. -/
  | planUnload (part : PartNo) (index : Fin 16)
  /-- FW_ACTIVATE: R257. -/
  | fwActivate
  /-- FW_SELF_CHECK_TIMEOUT: R257. -/
  | fwSelfCheckTimeout
  /-- DENOB_RESTART_DONE: R256. -/
  | denobRestartDone
  /-- SERVE_ENABLE: R258. -/
  | serveEnable (slice : SliceNo)
  /-- SERVE_DISABLE: R258. -/
  | serveDisable (slice : SliceNo)
  /-- OPEN: R261. -/
  | openSlice (slice : SliceNo)
  /-- RESET: R267. -/
  | resetSlice (slice : SliceNo)
  /-- SLICE_RESET_COMPLETE: R267. -/
  | sliceResetComplete (slice : SliceNo)
  /-- FREEZE: R269. -/
  | freeze (slice : SliceNo)
  /-- FREEZE_DRAIN_COMPLETE: R269. -/
  | freezeDrainComplete (slice : SliceNo)
  /-- FREEZE_WAIT_TIMEOUT: R269. -/
  | freezeWaitTimeout (slice : SliceNo)
  /-- THAW: R269. -/
  | thaw (slice : SliceNo)
  /-- RELEASE: R268. -/
  | release (slice : SliceNo)
  /-- RELEASE_DONE: R268. -/
  | releaseDone (slice : SliceNo)
  /-- SAVE: R270. -/
  | save (slice : SliceNo)
  /-- SAVE_DONE: R270. -/
  | saveDone (slice : SliceNo)
  /-- RESTORE: R271. -/
  | restore (slice : SliceNo)
  /-- RESTORE_DONE: R271. -/
  | restoreDone (slice : SliceNo)
  /-- PARTITION_RESET: R260. -/
  | partitionReset (part : PartNo)
  /-- PARTITION_RESET_DONE: R260. -/
  | partitionResetDone (part : PartNo)
  /-- REFORM: R272. -/
  | reform
  /-- REFORM_DONE: R272. -/
  | reformDone
  /-- MBX_MESSAGE_SEND: R266. -/
  | mbxMessageSend (slice : SliceNo) (m0 : Word)
  /-- MBX_ACK: R266. -/
  | mbxAck (slice : SliceNo)
  /-- MBX_SEND: R266. -/
  | mbxSend (slice : SliceNo)
  /-- MBX_IN_CLEAR: R266. -/
  | mbxInClear (slice : SliceNo)
  /-- HALYARD_INJECT: R280. -/
  | halyardInject (present : Option HyCmd) (upset : HyUpset)
  /-- DOMAIN_WAKE: R281. -/
  | domainWake (domain : Fin 212)
  /-- WAKE_TIMEOUT: R281. -/
  | wakeTimeout (domain : Fin 212)
  /-- IDLE_GATE: R392. -/
  | idleGate (domain : Fin 212)
  /-- HY_REQ_TIMEOUT: R282. -/
  | hyReqTimeout (port : Fin 105) (tag : BitVec 12)
  /-- SNAP: R285. -/
  | snap
  /-- BAR0_ACCESS: R292. -/
  | bar0Access (req : BarReq)
  /-- BAR2_ACCESS: R294. -/
  | bar2Access (req : BarReq)
  /-- BAR4_ACCESS: R295. -/
  | bar4Access (req : BarReq)
  /-- BUS_MASTER_ENABLE_CLEAR: R302. -/
  | busMasterEnableClear (fn : Fin 33)
  /-- BUS_MASTER_ENABLE_SET: R302. -/
  | busMasterEnableSet (fn : Fin 33)
  /-- MEMORY_SPACE_ENABLE_CLEAR: R302. -/
  | memorySpaceEnableClear (vfs : Bool)
  /-- D3HOT_ENTRY: R302. -/
  | d3hotEntry
  /-- D3HOT_EXIT: R302. -/
  | d3hotExit
  /-- VF_FLR: R302. -/
  | vfFlr (vf : PartNo)
  /-- PF_FLR: R302. -/
  | pfFlr
  /-- HOT_RESET: R289. -/
  | hotReset
  /-- DL_DOWN: R289. -/
  | dlDown
  /-- PCIE_LINK_CHANGE: R289. -/
  | pcieLinkChange (speed : Fin 6) (width : Fin 3) (flit : Bool)
  /-- VF_ENABLE_CLEAR: R293. -/
  | vfEnableClear (numVfs : Option (Fin 33))
  /-- HOST_COMPLETION: R300. -/
  | hostCompletion (tag : BitVec 14) (fn : Fin 33) (status : Fin 4) (ep : Bool) (data : List Byte) (ide : IdeTlp)
  /-- COMPLETION_TIMEOUT: R301. -/
  | completionTimeout (slot : Fin 4096)
  /-- MSIX_UNMASK: R303. -/
  | msixUnmask (fn : Fin 33) (vec : Fin 2048)
  /-- TDISP_MESSAGE: R306. -/
  | tdispMessage (vf : PartNo) (msg : TdispMsg)
  /-- SPDM_REQUEST: R361. -/
  | spdmRequest (req : SpdmReq)
  /-- REACH_TRAINED: R307. -/
  | reachTrained (test : PortTest)
  /-- REACH_TRAIN_TIMEOUT: R307. -/
  | reachTrainTimeout (port : PortNo)
  /-- HELLO: R309. -/
  | hello (port : PortNo) (dev : BitVec 24) (nbPort : PortNo)
  /-- REACH_DATA_FRAME: R308. -/
  | reachDataFrame (port : PortNo) (frame : ReachFrame)
  /-- REACH_IDLE_FRAME: R308. -/
  | reachIdleFrame (port : PortNo) (frame : ReachFrame)
  /-- REACH_NAK_FRAME: R308. -/
  | reachNakFrame (port : PortNo) (frame : ReachFrame)
  /-- REACH_NAK_RESEND: R308. -/
  | reachNakResend (port : PortNo)
  /-- REACH_WIDTH_CHANGE: R310. -/
  | reachWidthChange (port : PortNo) (set : Fin 4) (last : BitVec 16)
  /-- REACH_WIDTH_ACK: R310. -/
  | reachWidthAck (port : PortNo) (last : BitVec 16)
  /-- LINK_DOWN: R309. -/
  | linkDown (port : PortNo)
  /-- REACH_LOCK_LOSS: R309. -/
  | reachLockLoss (port : PortNo)
  /-- REACH_FRAME_TIMEOUT: R309. -/
  | reachFrameTimeout (port : PortNo)
  /-- SER_WINDOW_EXPIRY: R310. -/
  | serWindowExpiry (port : PortNo) (corrected : List (BitVec 32))
  /-- REACH_FORWARD: R313. -/
  | reachForward (port : PortNo) (kind : ReachKind) (h : ReachHdr) (data : List Byte)
  /-- REACH_REQUEST: R316. -/
  | reachRequest (port : PortNo) (kind : ReachKind) (h : ReachHdr) (data : List Byte)
  /-- REACH_RESPONSE: R314. -/
  | reachResponse (port : PortNo) (h : ReachHdr) (data : List Byte)
  /-- WAIT_NOTICE: R316. -/
  | waitNotice (port : PortNo) (h : ReachHdr)
  /-- REACH_TIMEOUT: R317. -/
  | reachTimeout (tag : BitVec 14)
  /-- PRESENCE_CHANGE: R319. -/
  | presenceChange (port : PortNo) (present : Bool)
  /-- ATTENTION_BUTTON: R319. -/
  | attentionButton (port : PortNo)
  /-- PWR_OFF: R319. -/
  | pwrOff (port : PortNo) (off : Bool)
  /-- SLOT_INDICATOR: R319. -/
  | slotIndicator (port : PortNo) (attn pwr : Fin 4)
  /-- PENNANT: R322. -/
  | pennant (source : Fin 4096) (kind : BitVec 8) (aux : BitVec 12) (count : BitVec 16) (addr : BitVec 48) (noSlice : Bool)
  /-- FAULT_PAIR_ASSERT: R321. -/
  | faultPairAssert (pair : FaultPair) (first second : Bool)
  /-- RECORD_HANDLE: R326. -/
  | recordHandle (home : Option (List (Fin 4096)))
  /-- COLLECTOR_RESTART_DONE: R325. -/
  | collectorRestartDone
  /-- RECOVERY_START: R342. -/
  | recoveryStart (part : PartNo)
  /-- BUCKET_LEAK: R327. -/
  | bucketLeak (source : Fin 4096)
  /-- CORE_HANG: R331. -/
  | coreHang (pos : PosNo)
  /-- UNFENCE_TIMEOUT: R333. -/
  | unfenceTimeout (site : SiteNo) (phys : Fin 64)
  /-- FC_ACK: R328. -/
  | fcAck (index : Fin 8192)
  /-- FC_ACK_ALL: R328. -/
  | fcAckAll
  /-- UNIT_RESTORE: R335. -/
  | unitRestore (source : Fin 4096)
  /-- RESTORE_TEST_DONE: R335. -/
  | restoreTestDone (passed : Bool)
  /-- INJECT: R348. -/
  | inject (source : Fin 4096) (kind : BitVec 8) (aux : BitVec 12) (count : BitVec 16) (mode1 : Bool)
  /-- WAVE_REFRESH: R329. -/
  | waveRefresh
  /-- WAVE_RESUME: R329. -/
  | waveResume
  /-- FATAL_AUTO_RESET: R345. -/
  | fatalAutoReset
  /-- ROUTER_POLL: R324. -/
  | routerPoll (answered : BitVec 32)
  /-- SLOT_GENERATE: R353. -/
  | slotGenerate (slot : Fin 4096)
  /-- SLOT_IMPORT: R355. -/
  | slotImport (slot : Fin 4096)
  /-- SLOT_CLEAR: R354. -/
  | slotClear (slot : Fin 4096)
  /-- PKG_INSTALL: R356. -/
  | pkgInstall
  /-- INSTALL_UNIT: R357. -/
  | installUnit (nth : Fin 4)
  /-- PKG_INSTALL_DONE: R357. -/
  | pkgInstallDone (nth : Fin 4)
  /-- FW_STAGE: R359. -/
  | fwStage
  /-- FW_STAGE_DONE: R359. -/
  | fwStageDone
  /-- LC_TRANSITION: R364. -/
  | lcTransition (target : Fin 4)
  /-- LC_COMMIT_DONE: R365. -/
  | lcCommitDone
  /-- DEBUG_GRANT: R367. -/
  | debugGrant (bytes : List Byte)
  /-- DEBUG_REVOKE: R367. -/
  | debugRevoke
  /-- DEBUG_ACCESS: R363. -/
  | debugAccess (op : DebugOp)
  /-- POWER_GOOD: R368. -/
  | powerGood
  /-- PWRGOOD_FALL: R409. -/
  | pwrgoodFall (progress : OtpProgress)
  /-- PREAMBLE_DONE: R368. -/
  | preambleDone
  /-- PERST_ASSERT: R385. -/
  | perstAssert
  /-- PERST_RELEASE: R369. -/
  | perstRelease
  /-- ROOT_PLL_LOCK: R390. -/
  | rootPllLock
  /-- CORE_WAVE: R371. -/
  | coreWave (wave : Fin 4)
  /-- CORE_BIST_DONE: R380. -/
  | coreBistDone (core : Fin 36) (passed : Bool)
  /-- ENROL_WAVE: R372. -/
  | enrolWave (wave : Fin 4)
  /-- SHELF_BIST_DONE: R380. -/
  | shelfBistDone (failed : List (Fin 544))
  /-- STACK_TRAINING_DONE: R382. -/
  | stackTrainingDone (stack : StackNo) (result : StackResult)
  /-- RECONCILIATION: R389. -/
  | reconciliation (tests : BootTests)
  /-- WARM_RESET: R386. -/
  | warmReset
  /-- WARM_RESET_DRAINED: R386. -/
  | warmResetDrained
  /-- COLD_RESET: R385. -/
  | coldReset
  /-- CORE_RESET: R387. -/
  | coreReset (pos : PosNo)
  /-- CORE_RESET_DONE: R387. -/
  | coreResetDone (pos : PosNo)
  /-- DEFECT_CLEAR: R384. -/
  | defectClear
  /-- BUDGET_PERIOD: R395. -/
  | budgetPeriod (hubW : BitVec 12)
  /-- GRANT_MISSED: R396. -/
  | grantMissed (site : SiteNo)
  /-- BUDGET_ACK: R396. -/
  | budgetAck (site : SiteNo) (seq : BitVec 16) (power : BitVec 12)
  /-- TEMP_REPORT: R399. -/
  | tempReport (site : SiteNo) (temp : BitVec 8)
  /-- DIP_EXPIRY: R398. -/
  | dipExpiry (site : SiteNo)
  /-- MANUAL_DIP: R398. -/
  | manualDip (sites : BitVec 16) (pct : BitVec 7) (us : BitVec 16)
  /-- SENSOR_UPDATE: R401. -/
  | sensorUpdate (sensor : Fin 68) (raw : BitVec 12)
  /-- HALFMAST_RELEASE: R399. -/
  | halfmastRelease (site : SiteNo)
  /-- LAT_ISOLATE_TIMEOUT: R400. -/
  | latIsolateTimeout (site : SiteNo)
  /-- I3C_OFFSET_WRITE: R410. -/
  | i3cOffsetWrite (bytes : List Byte)
  /-- I3C_READ: R410. -/
  | i3cRead (wide : Bool)
  /-- STACK_STOPS_ANSWERING: R391. -/
  | stackStopsAnswering (stack : StackNo) (pllLost : Bool)
  /-- ADAPTER_CRC_ERROR: R161. -/
  | adapterCrcError (site : SiteNo) (md : Fin 4) (retries : Fin 256)
  /-- MODULE_ACTIVE_STATE_CHANGE: R161. -/
  | moduleActiveStateChange (site : SiteNo) (md : Fin 4) (active : Bool) (repaired : Fin 16) (half : Option (Fin 2))
  /-- WAVE_REFRESH_LAPSE: R329. -/
  | waveRefreshLapse
  /-- CONFIG_REQUEST: R290. -/
  | configRequest (fn : Fin 33) (dword : Fin 1024) (op : CfgOp) (tag : BitVec 14)
deriving DecidableEq, Repr

end Sys2Proof
end

