-- ==== Sys2Proof/Config.lean ====
section
/-! DEFINITION. What the spec leaves to an implementation or leaves open: every constant here is opaque, so that a claim
holds whatever its value. -/

namespace Sys2Proof

/-- R121 bounds the finite results of EXP2, LOG2, RCP and RSQRT and does not fix them: the candidate result for the
operation, the exponent and fraction widths of the format, and the input bits. -/
opaque Config.transcendental : (op e m input : Nat) → Nat

/-- A value the spec leaves open, fresh for each `n` (State holds the counter). -/
opaque Config.freeValue : Nat → Word

/-- A byte the spec leaves open, fresh for each `n`. -/
opaque Config.freeByte : Nat → Byte

/-- AES-256-XTS of one 64-byte line under a key and a tweak (R48): a permutation of the line. -/
opaque Config.xts : (key tweak : Nat) → Equiv.Perm (BitVec 512)

/-- AES-256-CMAC of a granule's tweak-bound ciphertext, truncated to 64 bits (R48). -/
opaque Config.cmac : (key tweak : Nat) → List Byte → Word

/-- How much of Denob's data memory serving plans may take (R245). -/
opaque Config.planMemory : Nat

/-- A word of a command that a plan's templates give: as it is, or a place that Denob fills in for the step: a byte of the
plan's base weights, of one of the request's own KV pages (counted in its list), or of its adapter slot (R244, R251). -/
inductive HoistWord where
  | lit (v : Nat)
  | weights (off : Nat)
  | kv (page off : Nat)
  | adapter (off : Nat)
deriving DecidableEq, Repr

/-- A command of a template: the request it works for, counted among those of the step, or none; and its words. -/
structure HoistCmd where
  req : Option Nat
  words : List HoistWord
deriving DecidableEq, Repr

/-- The commands that a plan's templates give for a layer (0xFF: sampling) and a queue, for the work of a step; the spec
gives templates no format (Table SRV-1). -/
opaque Config.hoists : (templates : List Byte) → (layer cls : Nat) → (work : List Nat) → List HoistCmd

/-- The sync objects that a plan's marks snapshot, as W3 of MARK. -/
opaque Config.markSnapshot : (templates : List Byte) → Nat

/-- Where Denob keeps the descriptor of the XFER that fills an adapter slot (R252; the spec gives no place): 64-byte aligned
below 2^48 once scaled. -/
opaque Config.adapterDesc : (part slot : Nat) → BitVec 42

/-! Axovonak's algorithms (17): the spec names them and the model leaves them uninterpreted. -/

/-- SHA-384. -/
opaque Config.sha384 : List Byte → BitVec 384

/-- ECDSA P-384: whether a signature over a message verifies under a public key. -/
opaque Config.ecdsaVerify : (pub msg sig : List Byte) → Bool

/-- The SHA-384 of the Binding public key that a UDS gives (R350). -/
opaque Config.bindingDigest : (uds : BitVec 384) → BitVec 384

/-- Key Wrap's unwrapping under the device's Binding key (R355): label 0 is "WZ-SLOT", 1 is "WZ-PKG"; none where its
integrity check fails. -/
opaque Config.unwrap : (uds : BitVec 384) → (label : Nat) → (eph context wrapped : List Byte) → Option (BitVec 768)

/-- AES-256-XTS of one 4 KiB unit under a key and a tweak (R357, R270): a permutation of the unit. -/
opaque Config.xtsUnit : (key tweak : Nat) → Equiv.Perm (BitVec 32768)

/-- AES-256-CMAC under a migration key, as the 8 bytes of R270. -/
opaque Config.cmacUnit : (key : Nat) → List Byte → Word

/-- What a firmware image says of itself (R359; the spec gives its format no layout): component, version and length, from
its first 4,096 bytes. -/
opaque Config.fwHeader : List Byte → Option (Nat × Fin 64 × Nat)

/-- Whether a firmware image's signature and digest hold (R359). -/
opaque Config.fwVerify : List Byte → Bool

/-- The digest of Axovonak's ROM, and of the fuse map with MH_REV (Table SEC-4, blocks 1 and 8). -/
opaque Config.romDigest : BitVec 384
opaque Config.fuseDigest : BitVec 384

/-- A byte of the certificate chain of slot 0, which SPI NOR holds in a place the spec does not give (R361). -/
opaque Config.certByte : Nat → Byte

/-- The buffers of a reach port for REQ and RSP, in units, which it grants as credits when it comes UP (R308 gives no
size). -/
opaque Config.reachBuffers : BitVec 12 × BitVec 12

/-- Payload unit 0 of a CTRL frame (R308, which gives it no layout): of message 0 HELLO, 1 WIDTH_CHANGE, 2 WIDTH_ACK or
3 LINK_DOWN, with its value. -/
opaque Config.ctrlUnit : (message value : Nat) → BitVec 128

end Sys2Proof
end

