-- ==== Sys2Proof/Machine/Codes.lean ====
section
/-! DEFINITION. The 16-bit status codes of every chapter (R3, Table SCP-3) and the pennant kinds of Table FLT-3. -/

namespace Sys2Proof.Machine

def Code.SUCCESS : Status := 0
def Code.UNSPECIFIED_ERROR : Status := 0x0001
def Code.ADDR_UNMAPPED : Status := 0x0101
def Code.BAD_SPACE_TAG : Status := 0x0102
def Code.ADDR_NONCANONICAL : Status := 0x0103
def Code.REG_SPACE_DENIED : Status := 0x0104
def Code.SHELF_UNCORRECTABLE : Status := 0x0201
def Code.SHELF_GROUP_STRUCK : Status := 0x0202
def Code.MEM_POISON : Status := 0x0203
def Code.HBM_UNCORRECTABLE : Status := 0x0204
def Code.HBM_MAC_FAIL : Status := 0x0205
def Code.HBM_NO_BACKING : Status := 0x0206
def Code.HOIST_BAD_OPCODE : Status := 0x0301
def Code.HOIST_WRONG_QUEUE : Status := 0x0302
def Code.HOIST_BAD_CONTROL : Status := 0x0303
def Code.HOIST_CALL_DEPTH : Status := 0x0304
def Code.HOIST_LIST_OVERRUN : Status := 0x0305
def Code.HOIST_FETCH_FAULT : Status := 0x0306
def Code.HOIST_BAD_FIELD : Status := 0x0307
def Code.HOIST_MARK_MISMATCH : Status := 0x0308
def Code.SYNC_BAD_OP : Status := 0x0309
def Code.SYNC_WAIT_TIMEOUT : Status := 0x030A
def Code.SYNC_PEER_LOST : Status := 0x030B
def Code.HANDLE_UNKNOWN : Status := 0x030C
def Code.HANDLE_LIMIT : Status := 0x030D
def Code.XFER_BAD_DESC : Status := 0x0401
def Code.XFER_DESC_FAULT : Status := 0x0402
def Code.XFER_BAD_CONVERSION : Status := 0x0403
def Code.XFER_FAULT_UNRESOLVED : Status := 0x0404
def Code.XFER_SEAL_MISMATCH : Status := 0x0405
def Code.XFER_SEAL_EPOCH : Status := 0x0406
def Code.XFER_SEAL_ABSENT : Status := 0x0407
def Code.XFER_INDEX_RANGE : Status := 0x0408
def Code.XFER_CURSOR_MISMATCH : Status := 0x0409
def Code.VEXEC_BAD_IMAGE : Status := 0x0501
def Code.VEXEC_IMAGE_FAULT : Status := 0x0502
def Code.VEXEC_PC_RANGE : Status := 0x0503
def Code.VEXEC_BAD_INSTR : Status := 0x0504
def Code.VEXEC_SPACE_DENIED : Status := 0x0505
def Code.VEXEC_MX_ALIGN : Status := 0x0506
def Code.VEXEC_BAD_BLOCK : Status := 0x0507
def Code.VEXEC_SEAL_MISMATCH : Status := 0x0508
def Code.VEXEC_SEAL_EPOCH : Status := 0x0509
def Code.VEXEC_SEAL_ABSENT : Status := 0x050A
def Code.VEXEC_TIMEOUT : Status := 0x050B
def Code.REDUCE_FAULT_UNRESOLVED : Status := 0x0601
def Code.COLLECT_BAD_GROUP : Status := 0x0602
def Code.COLLECT_MEMBER_LOST : Status := 0x0603
def Code.COLLECT_TIMEOUT : Status := 0x0604
def Code.SITE_LOST : Status := 0x0701
def Code.SITE_NOT_ENROLLED : Status := 0x0702
def Code.SWP_BAD_PACKET : Status := 0x0801
def Code.SWP_BAD_CONTEXT : Status := 0x0802
def Code.SWP_CANCELLED : Status := 0x0803
def Code.SWP_DISPATCH_TIMEOUT : Status := 0x0804
def Code.SWP_NO_SUCH_CORE : Status := 0x0805
def Code.SWP_SITE_DENIED : Status := 0x0806
def Code.SWP_SEAL_REJECT : Status := 0x0807
def Code.SWP_RESP_TIMEOUT : Status := 0x0808
def Code.SWP_WORK_FAILED : Status := 0x0809
def Code.SWP_BURGEE_BAD : Status := 0x080A
def Code.SWP_BURGEE_MISMATCH : Status := 0x080B
def Code.SWP_NOT_ADDABLE : Status := 0x080C
def Code.SWP_OWN_WINDOW : Status := 0x080D
def Code.SWP_ENROL_TIMEOUT : Status := 0x080E
def Code.SWP_WINDOW_ERROR : Status := 0x080F
def Code.COH_NOT_COHERENT : Status := 0x0901
def Code.COH_PROTOCOL : Status := 0x0902
def Code.XLT_ATS_DISABLED : Status := 0x0A01
def Code.XLT_ATS_FAILED : Status := 0x0A02
def Code.XLT_PAGE_FAILED : Status := 0x0A03
def Code.XLT_ATOMIC_DENIED : Status := 0x0A04
def Code.DN_BAD_REQUEST : Status := 0x0B01
def Code.DN_DUP_REQUEST : Status := 0x0B02
def Code.DN_PROMPT_FAULT : Status := 0x0B03
def Code.DN_RING_FAULT : Status := 0x0B04
def Code.DN_ADAPTER_MISSING : Status := 0x0B05
def Code.DN_ADAPTER_BAD : Status := 0x0B06
def Code.DN_KV_EXHAUSTED : Status := 0x0B07
def Code.DN_PLAN_BAD : Status := 0x0B08
def Code.DN_PLAN_BUSY : Status := 0x0B09
def Code.DN_SAMPLE_INVALID : Status := 0x0B0A
def Code.DN_SERVICE_FAILED : Status := 0x0B0B
def Code.DN_FW_FALLBACK : Status := 0x0B0C
def Code.FW_PARTITION_DENIED : Status := 0x0C01
def Code.FW_SLICE_DENIED : Status := 0x0C02
def Code.FW_RIGHT_DENIED : Status := 0x0C03
def Code.TEN_BAD_STATE : Status := 0x0C04
def Code.TEN_BAD_ARG : Status := 0x0C05
def Code.TEN_PASID_IN_USE : Status := 0x0C06
def Code.TEN_QUOTA : Status := 0x0C07
def Code.TEN_FREEZE_REFUSED : Status := 0x0C08
def Code.TEN_HANDLES_LIVE : Status := 0x0C09
def Code.TEN_ABORTED : Status := 0x0C0A
def Code.TEN_IMAGE_BAD : Status := 0x0C0B
def Code.TEN_RESTORE_CONFLICT : Status := 0x0C0C
def Code.TEN_REFORM_BUSY : Status := 0x0C0D
def Code.TEN_SLICE_RESET : Status := 0x0C0E
def Code.HY_TIMEOUT : Status := 0x0D01
def Code.HY_PACKET_POISON : Status := 0x0D02
def Code.HY_WAKE_FAILED : Status := 0x0D03
def Code.HOST_ACCESS_REVOKED : Status := 0x0E01
def Code.HOST_CPL_TIMEOUT : Status := 0x0E02
def Code.HOST_CPL_UR : Status := 0x0E03
def Code.HOST_CPL_CA : Status := 0x0E04
def Code.HOST_CPL_POISON : Status := 0x0E05
def Code.HOST_ATOMIC_DISABLED : Status := 0x0E06
def Code.RCH_PATH_LOST : Status := 0x0F01
def Code.RCH_NOT_ADMITTED : Status := 0x0F02
def Code.RCH_NO_ROUTE : Status := 0x0F03
def Code.RCH_TIMEOUT : Status := 0x0F04
def Code.FLT_REPLAY_IMPOSSIBLE : Status := 0x1001
def Code.FLT_UNIT_LOST : Status := 0x1002
def Code.FLT_PARTITION_DOWN : Status := 0x1003
def Code.FLT_RESTORE_REFUSED : Status := 0x1004
def Code.FLT_RESTORE_FAILED : Status := 0x1005
def Code.SEC_BAD_CMD : Status := 0x1101
def Code.SEC_BUSY : Status := 0x1102
def Code.SEC_SLOT_STATE : Status := 0x1103
def Code.SEC_NO_IDENTITY : Status := 0x1104
def Code.SEC_SIG_BAD : Status := 0x1105
def Code.SEC_OWNER_DENIED : Status := 0x1106
def Code.SEC_UNWRAP_FAIL : Status := 0x1107
def Code.SEC_PKG_FORMAT : Status := 0x1108
def Code.SEC_PKG_TARGET : Status := 0x1109
def Code.SEC_PKG_NOT_BOUND : Status := 0x110A
def Code.SEC_PKG_DIGEST : Status := 0x110B
def Code.SEC_RANGE_BUSY : Status := 0x110C
def Code.SEC_INSTALL_ABORTED : Status := 0x110D
def Code.SEC_KEY_EMPTY : Status := 0x110E
def Code.SEC_KEYS_ZEROISED : Status := 0x110F
def Code.SEC_FW_BAD : Status := 0x1110
def Code.SEC_FW_ROLLBACK : Status := 0x1111
def Code.SEC_DEBUG_DENIED : Status := 0x1112
def Code.LC_BAD_TRANSITION : Status := 0x1113
def Code.LC_TOKEN_BAD : Status := 0x1114
def Code.LC_LOCKED : Status := 0x1115
def Code.LC_BUSY : Status := 0x1116
def Code.BUP_IMAGE_ABSENT : Status := 0x1201
def Code.BUP_IMAGE_FORMAT : Status := 0x1202
def Code.BUP_IMAGE_SIG : Status := 0x1203
def Code.BUP_IMAGE_STRUCT : Status := 0x1204
def Code.BUP_MIN_UNMET : Status := 0x1205
def Code.BUP_HBM_FAILED : Status := 0x1206
def Code.BUP_CORE_IN_USE : Status := 0x1207
def Code.BUP_JOURNAL_FULL : Status := 0x1208
def Code.BUP_RESET_ABORTED : Status := 0x1209

def Kind.SHELF_CE : Nat := 0x01
def Kind.SHELF_UE : Nat := 0x02
def Kind.HBM_REPEATED : Nat := 0x08
def Kind.HBM_RECONSTRUCTED : Nat := 0x09
def Kind.HBM_UNRECOVERED : Nat := 0x0A
def Kind.HBM_CHANNEL_FAIL : Nat := 0x0B
def Kind.HBM_STACK_FAIL : Nat := 0x0C
def Kind.SYNC_SATURATED : Nat := 0x10
def Kind.DIR_UE : Nat := 0x11
def Kind.COH_PROTOCOL : Nat := 0x12
def Kind.COH_SNP_TIMEOUT : Nat := 0x13
def Kind.COH_LINE_LOST : Nat := 0x14
def Kind.IMAGE_CHECK : Nat := 0x15
def Kind.LANE_EVENT : Nat := 0x20
def Kind.LANE_FAIL : Nat := 0x21
def Kind.SITE_LOST : Nat := 0x22
def Kind.SWP_BREACH : Nat := 0x23
def Kind.SITE_NOTE : Nat := 0x24
def Kind.SITE_CORE_FAIL : Nat := 0x25
def Kind.SITE_CORE_UNRESPONSIVE : Nat := 0x26
def Kind.SEAL_REJECT : Nat := 0x27
def Kind.ENROL_FAIL : Nat := 0x28
def Kind.SEAL_CRC : Nat := 0x29
def Kind.SEAL_OTHER : Nat := 0x2A
def Kind.WIDTH_PINNED : Nat := 0x2B
def Kind.HY_UNCORRECTABLE : Nat := 0x30
def Kind.HY_WAKE_FAIL : Nat := 0x31
def Kind.ADDR_UNMAPPED : Nat := 0x32
def Kind.REG_SPACE_DENIED : Nat := 0x33
def Kind.FIREWALL_DENIED : Nat := 0x34
def Kind.ATS_FAILED : Nat := 0x35
def Kind.CRING_STALL : Nat := 0x36
def Kind.CORE_SRAM_CE : Nat := 0x40
def Kind.CORE_SRAM_UE : Nat := 0x41
def Kind.CORE_HANG : Nat := 0x42
def Kind.DENOB_LOCKSTEP : Nat := 0x48
def Kind.COLLECTOR_LOCKSTEP : Nat := 0x49
def Kind.REACH_LANE : Nat := 0x50
def Kind.REACH_DOWN : Nat := 0x51
def Kind.REACH_ISOLATED : Nat := 0x52
def Kind.REACH_NOT_ADMITTED : Nat := 0x53
def Kind.SUPPLY : Nat := 0x58
def Kind.CLOCK : Nat := 0x59
def Kind.THERMAL_TRIP : Nat := 0x5A
def Kind.AXOVONAK_ALARM : Nat := 0x5B
def Kind.SPINE_SILENT : Nat := 0x5C
def Kind.DEGRADED : Nat := 0x60
def Kind.UNSPECIFIED : Nat := 0x70
def Kind.EP_INTERNAL : Nat := 0x71

/-- Table FLT-3 as the reset values of FC_REACT: kind, ACTION, BUCKET, ACK, IRQ, FIXED; an unlisted kind is LOG with ACK. -/
def Kind.reactTable : List (Nat × Nat × Nat × Nat × Nat × Nat) := [
  (0x01, 1, 1, 0, 0, 0),
  (0x02, 1, 1, 0, 0, 0),
  (0x08, 1, 1, 0, 0, 0),
  (0x09, 1, 1, 0, 0, 0),
  (0x0A, 1, 1, 0, 0, 0),
  (0x0B, 1, 2, 0, 0, 0),
  (0x0C, 1, 2, 1, 0, 0),
  (0x10, 0, 0, 0, 0, 0),
  (0x11, 4, 2, 1, 0, 1),
  (0x12, 0, 0, 0, 0, 0),
  (0x13, 1, 1, 0, 0, 0),
  (0x14, 0, 0, 1, 1, 0),
  (0x15, 0, 0, 1, 1, 1),
  (0x20, 1, 1, 0, 0, 0),
  (0x21, 1, 2, 0, 0, 0),
  (0x22, 0, 0, 1, 1, 1),
  (0x23, 0, 0, 0, 0, 0),
  (0x24, 0, 0, 0, 0, 0),
  (0x25, 1, 2, 0, 0, 0),
  (0x26, 1, 2, 0, 0, 0),
  (0x27, 2, 1, 0, 0, 0),
  (0x28, 0, 0, 1, 0, 0),
  (0x29, 2, 1, 0, 0, 0),
  (0x2A, 0, 0, 0, 0, 0),
  (0x2B, 0, 0, 1, 0, 0),
  (0x30, 1, 1, 0, 0, 0),
  (0x31, 1, 1, 0, 0, 0),
  (0x32, 0, 0, 0, 0, 0),
  (0x33, 0, 0, 0, 0, 0),
  (0x34, 0, 0, 0, 0, 0),
  (0x35, 0, 0, 0, 0, 0),
  (0x36, 0, 0, 0, 1, 0),
  (0x40, 1, 1, 0, 0, 0),
  (0x41, 1, 2, 0, 0, 0),
  (0x42, 1, 2, 0, 0, 0),
  (0x48, 5, 1, 0, 0, 1),
  (0x49, 5, 1, 0, 0, 1),
  (0x50, 1, 1, 0, 0, 0),
  (0x51, 0, 0, 0, 1, 0),
  (0x52, 0, 0, 1, 0, 0),
  (0x53, 0, 0, 0, 0, 0),
  (0x58, 1, 2, 0, 0, 1),
  (0x59, 1, 2, 0, 0, 1),
  (0x5A, 6, 2, 1, 0, 1),
  (0x5B, 6, 2, 1, 0, 1),
  (0x5C, 1, 2, 0, 0, 1),
  (0x60, 0, 0, 1, 1, 1),
  (0x70, 0, 0, 1, 0, 0),
  (0x71, 0, 0, 0, 0, 0)]

end Sys2Proof.Machine
end

