-- ==== Sys2Proof/Machine/Data.lean ====
section
/-! DEFINITION. Operations on plain data: sparse maps, number sets, bit fields of naturals, little-endian bytes, and the
two cyclic redundancy checks the spec names. -/

namespace Sys2Proof.Machine

/-! ### Sparse maps -/

/-- What a map holds at `k`; an unlisted key reads as `d k`. -/
def SMap.get {α : Type} (d : Nat → α) : SMap α → Nat → α
  | [], k => d k
  | (k', v) :: m, k => if k = k' then v else SMap.get d m k

/-- Remove the entry at `k`. -/
def SMap.drop {α : Type} : SMap α → Nat → SMap α
  | [], _ => []
  | (k', v) :: m, k => if k = k' then SMap.drop m k else (k', v) :: SMap.drop m k

/-- List `v` at `k`, in the keys' order. -/
def SMap.place {α : Type} : SMap α → Nat → α → SMap α
  | [], k, v => [(k, v)]
  | (k', v') :: m, k, v =>
    if k = k' then (k, v) :: m else if k < k' then (k, v) :: (k', v') :: m else (k', v') :: SMap.place m k v

/-- Write `v` at `k`, keeping the canonical form. -/
def SMap.put {α : Type} [DecidableEq α] (d : Nat → α) (m : SMap α) (k : Nat) (v : α) : SMap α :=
  if v = d k then SMap.drop m k else SMap.place m k v

/-- Keys strictly rising above `b`, and no entry equal to the default. -/
def SMap.wfFrom {α : Type} [DecidableEq α] (d : Nat → α) : Nat → SMap α → Bool
  | _, [] => true
  | b, (k, v) :: m => decide (b ≤ k) && decide (v ≠ d k) && SMap.wfFrom d (k + 1) m

/-- The canonical form. -/
def SMap.wf {α : Type} [DecidableEq α] (d : Nat → α) (m : SMap α) : Bool := SMap.wfFrom d 0 m

/-- Remove the entries whose key satisfies `p`. -/
def SMap.dropWhere {α : Type} (p : Nat → Bool) (m : SMap α) : SMap α := m.filter fun e => !p e.1

/-- Change the entry at `k`. -/
def SMap.modify {α : Type} [DecidableEq α] (d : Nat → α) (m : SMap α) (k : Nat) (f : α → α) : SMap α :=
  SMap.put d m k (f (SMap.get d m k))

/-! ### Number sets -/

def NSet.insert (k : Nat) : NSet → NSet
  | [] => [k]
  | x :: s => if k < x then k :: x :: s else if k = x then x :: s else x :: NSet.insert k s

def NSet.erase (s : NSet) (k : Nat) : NSet := s.filter (· != k)

def NSet.has (s : NSet) (k : Nat) : Bool := s.contains k

/-! ### Bit fields of naturals -/

/-- Bits `[lo + w - 1 : lo]` of `n`. -/
def bits (n lo w : Nat) : Nat := (n >>> lo) % 2 ^ w

/-- Bit `i` of `n`. -/
def bit (n i : Nat) : Bool := n.testBit i

/-- `n` with bits `[lo + w - 1 : lo]` replaced by the low bits of `v`. -/
def setBits (n lo w v : Nat) : Nat := n - (bits n lo w <<< lo) + ((v % 2 ^ w) <<< lo)

/-- A Boolean as a bit. -/
def b01 (b : Bool) : Nat := if b then 1 else 0

/-- The two's-complement value of the low `w` bits of `n`. -/
def signed (n w : Nat) : Int := if n % 2 ^ w < 2 ^ (w - 1) then (n % 2 ^ w : Nat) else (n % 2 ^ w : Nat) - (2 ^ w : Nat)

/-- The low `w` bits of an integer. -/
def toBits (i : Int) (w : Nat) : Nat := (i % (2 ^ w : Nat)).toNat

/-- The lowest set bit of `n` among bits `0 … w-1`. -/
def lowBit? (n w : Nat) : Option Nat := (List.range w).find? fun i => n.testBit i

/-- How many of bits `0 … w-1` of `n` are set. -/
def popCount (n w : Nat) : Nat := ((List.range w).filter fun i => n.testBit i).length

/-- The numbers of the set bits among `0 … w-1`. -/
def bitList (n w : Nat) : List Nat := (List.range w).filter fun i => n.testBit i

/-- Addition that stops at `2^w - 1`. -/
def satAdd (w a b : Nat) : Nat := min (a + b) (2 ^ w - 1)

/-- Division rounding up. -/
def ceilDiv (a b : Nat) : Nat := (a + b - 1) / b

/-- The least `k` with `n ≤ 2^k`, searched to `fuel`. -/
def log2Up (n : Nat) : Nat := if n ≤ 1 then 0 else Nat.log2 (n - 1) + 1

/-! ### Little-endian bytes -/

/-- The number a little-endian list of bytes spells. -/
def leNat : List Byte → Nat
  | [] => 0
  | b :: bs => b.toNat + 256 * leNat bs

/-- The `len` low bytes of `n`, lowest first. -/
def natLE : (len : Nat) → (n : Nat) → List Byte
  | 0, _ => []
  | len + 1, n => BitVec.ofNat 8 n :: natLE len (n / 256)

/-- `len` bytes of a list from offset `o`, zero past its end. -/
def sliceBytes (bs : List Byte) (o len : Nat) : List Byte :=
  let t := (bs.drop o).take len
  t ++ List.replicate (len - t.length) 0

/-- `len` bytes from offset `o` as a number. -/
def leAt (bs : List Byte) (o len : Nat) : Nat := leNat (sliceBytes bs o len)

def zeros (n : Nat) : List Byte := List.replicate n 0

/-- Byte by byte exclusive or. -/
def xorBytes (a b : List Byte) : List Byte := List.zipWith (· ^^^ ·) a b

/-- Replace bytes of `bs` from offset `o` by `ds`. -/
def overlay (bs : List Byte) (o : Nat) (ds : List Byte) : List Byte :=
  bs.take o ++ ds ++ bs.drop (o + ds.length)

/-! ### Cyclic redundancy checks -/

/-- `k` steps of the reflected CRC-32C register. -/
def crc32cBits : Nat → Nat → Nat
  | 0, c => c
  | k + 1, c => crc32cBits k (if c % 2 = 1 then (c >>> 1) ^^^ 0x82F63B78 else c >>> 1)

/-- CRC-32C (Castagnoli) over bytes: initial value and final exclusive or all ones. -/
def crc32c (bs : List Byte) : Nat :=
  (bs.foldl (fun c b => crc32cBits 8 (c ^^^ b.toNat)) 0xFFFFFFFF) ^^^ 0xFFFFFFFF

/-- `k` steps of the CRC-16 register of polynomial 0x8BB7, most significant bit first (R159). -/
def crc16Bits : Nat → Nat → Nat
  | 0, c => c
  | k + 1, c => crc16Bits k (if c.testBit 15 then ((c <<< 1) % 65536) ^^^ 0x8BB7 else (c <<< 1) % 65536)

/-- CRC-16, polynomial 0x8BB7, initial value 0xFFFF (R159). -/
def crc16 (bs : List Byte) : Nat :=
  bs.foldl (fun c b => crc16Bits 8 (c ^^^ (b.toNat <<< 8))) 0xFFFF

/-- The first number in `[0, n)` with `p`. -/
def findIdx (n : Nat) (p : Nat → Bool) : Option Nat := (List.range n).find? p

/-- Replace the element at `i`. -/
def setAt {α : Type} (l : List α) (i : Nat) (a : α) : List α := l.set i a

end Sys2Proof.Machine
end

