-- ==== Sys2Proof/Machine/RegMap.lean ====
section
/-! DEFINITION. The register space of the hub as 21_signals_and_index.md (R411) and the register tables of every
chapter give it: a handle for each field (register-space offset, lowest bit, width), and the table of registers with
their field types and limits that `Regs.lean` reads and writes by (R4–R9). -/

namespace Sys2Proof.Machine

/-- A handle on one register field: the offset of its register in register space, its lowest bit, its width. -/
structure Fld where
  off : Nat
  lo : Nat
  w : Nat
deriving DecidableEq, Repr

/-- The field types of Table SCP-4. -/
inductive FieldType where
  | rw | ro | rc | w1c | w1s | wo | rwl | fo
deriving DecidableEq, Repr

/-- What R9 does to a written value: nothing, a clamp to a range, or keep the old value unless listed. -/
inductive Limit where
  | free
  | range (lo hi : Nat)
  | listed (vs : List Nat)
deriving DecidableEq, Repr

/-- One row of a field table; bits that no row names are reserved (R6). -/
structure FieldSpec where
  lo : Nat
  w : Nat
  ty : FieldType
  lim : Limit
deriving DecidableEq, Repr

/-- One register heading: its offset, up to two strides (`n1` frames of `s1`, `n2` registers of `s2`), its width,
its cold-reset value and its fields. -/
structure RegSpec where
  base : Nat
  n1 : Nat
  s1 : Nat
  n2 : Nat
  s2 : Nat
  wide : Bool
  rst : Nat
  flds : List FieldSpec
deriving DecidableEq, Repr

def Reg.MH_ID.PART : Fld := ⟨0x0, 0, 16⟩
def Reg.MH_ID.VENDOR : Fld := ⟨0x0, 16, 16⟩
def Reg.MH_REV.STEPPING : Fld := ⟨0x4, 0, 8⟩
def Reg.MH_REV.FUSE_MAP_VER : Fld := ⟨0x4, 8, 8⟩
def Reg.MH_SERIAL.SERIAL : Fld := ⟨0x8, 0, 64⟩
def Reg.MH_STATUS.READY : Fld := ⟨0x10, 0, 1⟩
def Reg.MH_STATUS.IMAGE_VALID : Fld := ⟨0x10, 1, 1⟩
def Reg.MH_STATUS.BOOT_SEALED : Fld := ⟨0x10, 2, 1⟩
def Reg.MH_STATUS.FAULT_UNCLEARED : Fld := ⟨0x10, 3, 1⟩
def Reg.MH_STATUS.DEGRADED : Fld := ⟨0x10, 4, 1⟩
def Reg.MH_STATUS.DEVICE_FATAL : Fld := ⟨0x10, 5, 1⟩
def Reg.MH_STATUS.PENDING_UPDATE : Fld := ⟨0x10, 6, 1⟩
def Reg.MH_STATUS.TUNE_CLAMP : Fld := ⟨0x10, 7, 1⟩
def Reg.MH_STATUS.RESET_CAUSE : Fld := ⟨0x10, 16, 3⟩
def Reg.MH_BOOT_SEAL.SEAL : Fld := ⟨0x18, 0, 1⟩
def Reg.MH_SITE_PRESENT.PRESENT : Fld := ⟨0x20, 0, 16⟩
def Reg.MH_SITE_PRESENT.ENROLLED : Fld := ⟨0x20, 16, 16⟩
def Reg.MH_IMAGE.IMAGE_ID : Fld := ⟨0x28, 0, 32⟩
def Reg.MH_IMAGE.IMAGE_VER : Fld := ⟨0x28, 32, 16⟩
def Reg.MH_IMAGE.LAYOUT : Fld := ⟨0x28, 48, 3⟩
def Reg.SH_CFG.SCRUB_EN : Fld := ⟨0x6000000, 0, 1⟩
def Reg.SH_SCRUB_RATE.INTERVAL : Fld := ⟨0x6000008, 0, 16⟩
def Reg.SH_GROUP_STATE.STRUCK : Fld := ⟨0x6000010, 0, 32⟩
def Reg.SH_SPARE_FREE.FREE : Fld := ⟨0x6000018, 0, 32⟩
def Reg.SH_ECC_CE_COUNT.COUNT : Fld := ⟨0x6000020, 0, 32⟩
def Reg.SH_ECC_UE_COUNT.COUNT : Fld := ⟨0x6000024, 0, 32⟩
def Reg.SH_ECC_LOG.ADDR : Fld := ⟨0x6000028, 0, 29⟩
def Reg.SH_ECC_LOG.PBANK : Fld := ⟨0x6000028, 29, 10⟩
def Reg.SH_ECC_LOG.SYNDROME : Fld := ⟨0x6000028, 39, 8⟩
def Reg.SH_ECC_LOG.UE : Fld := ⟨0x6000028, 47, 1⟩
def Reg.SH_ECC_LOG.VALID : Fld := ⟨0x6000028, 48, 1⟩
def Reg.SH_ECC_LOG.OVERFLOW : Fld := ⟨0x6000028, 49, 1⟩
def Reg.SH_FILL_BASE.BLOCK : Fld := ⟨0x6000030, 0, 17⟩
def Reg.SH_FILL_CTRL.COUNT : Fld := ⟨0x6000034, 0, 18⟩
def Reg.SH_FILL_CTRL.GO : Fld := ⟨0x6000034, 30, 1⟩
def Reg.SH_FILL_CTRL.BUSY : Fld := ⟨0x6000034, 31, 1⟩
def Reg.SH_BANK_MAP.PBANK (n : Nat) : Fld := ⟨0x6001000 + 0x4 * n, 0, 10⟩
def Reg.SH_BANK_MAP.REMAPPED (n : Nat) : Fld := ⟨0x6001000 + 0x4 * n, 16, 1⟩
def Reg.SH_BANK_MAP.FAR (n : Nat) : Fld := ⟨0x6001000 + 0x4 * n, 17, 1⟩
def Reg.SH_BANK_MAP.COPYING (n : Nat) : Fld := ⟨0x6001000 + 0x4 * n, 18, 1⟩
def Reg.HM_STACK_INFO.PRESENT (stack : Nat) : Fld := ⟨0x5000000 + 0x100000 * stack, 0, 1⟩
def Reg.HM_STACK_INFO.TRAINED (stack : Nat) : Fld := ⟨0x5000000 + 0x100000 * stack, 1, 1⟩
def Reg.HM_STACK_INFO.HEIGHT (stack : Nat) : Fld := ⟨0x5000000 + 0x100000 * stack, 2, 2⟩
def Reg.HM_STACK_INFO.RATE (stack : Nat) : Fld := ⟨0x5000000 + 0x100000 * stack, 4, 2⟩
def Reg.HM_STACK_INFO.STACK_VENDOR (stack : Nat) : Fld := ⟨0x5000000 + 0x100000 * stack, 8, 8⟩
def Reg.HM_STATUS.RETIRED (stack : Nat) : Fld := ⟨0x5000008 + 0x100000 * stack, 0, 6⟩
def Reg.HM_STATUS.REBUILD_ACTIVE (stack : Nat) : Fld := ⟨0x5000008 + 0x100000 * stack, 6, 1⟩
def Reg.HM_STATUS.SPARE_EXHAUSTED (stack : Nat) : Fld := ⟨0x5000008 + 0x100000 * stack, 7, 1⟩
def Reg.HM_SPARE.FREE (stack : Nat) : Fld := ⟨0x5000080 + 0x100000 * stack, 0, 32⟩
def Reg.HM_RQ_CFG.AGE_LIMIT (stack : Nat) : Fld := ⟨0x5000100 + 0x100000 * stack, 0, 14⟩
def Reg.HM_RQ_CFG.WR_HIGH (stack : Nat) : Fld := ⟨0x5000100 + 0x100000 * stack, 16, 6⟩
def Reg.HM_RQ_CFG.WR_LOW (stack : Nat) : Fld := ⟨0x5000100 + 0x100000 * stack, 24, 6⟩
def Reg.HM_RETRAIN.INTERVAL (stack : Nat) : Fld := ⟨0x5000108 + 0x100000 * stack, 0, 16⟩
def Reg.HM_TEMP.TEMP (stack : Nat) : Fld := ⟨0x5000110 + 0x100000 * stack, 0, 8⟩
def Reg.HM_TEMP.REFRESH_2X (stack : Nat) : Fld := ⟨0x5000110 + 0x100000 * stack, 8, 1⟩
def Reg.HM_ERR_CE.COUNT (stack : Nat) : Fld := ⟨0x5000200 + 0x100000 * stack, 0, 32⟩
def Reg.HM_ERR_UE.COUNT (stack : Nat) : Fld := ⟨0x5000204 + 0x100000 * stack, 0, 32⟩
def Reg.HM_ERR_MAC.COUNT (stack : Nat) : Fld := ⟨0x5000208 + 0x100000 * stack, 0, 32⟩
def Reg.HM_ERR_LOG.PCH (stack : Nat) : Fld := ⟨0x5000210 + 0x100000 * stack, 0, 5⟩
def Reg.HM_ERR_LOG.PC (stack : Nat) : Fld := ⟨0x5000210 + 0x100000 * stack, 5, 1⟩
def Reg.HM_ERR_LOG.LP (stack : Nat) : Fld := ⟨0x5000210 + 0x100000 * stack, 6, 22⟩
def Reg.HM_ERR_LOG.KIND (stack : Nat) : Fld := ⟨0x5000210 + 0x100000 * stack, 28, 2⟩
def Reg.HM_ERR_LOG.RECOVERED (stack : Nat) : Fld := ⟨0x5000210 + 0x100000 * stack, 30, 1⟩
def Reg.HM_ERR_LOG.VALID (stack : Nat) : Fld := ⟨0x5000210 + 0x100000 * stack, 31, 1⟩
def Reg.HM_ERR_LOG.OVERFLOW (stack : Nat) : Fld := ⟨0x5000210 + 0x100000 * stack, 32, 1⟩
def Reg.HM_REBUILD.CURSOR (stack : Nat) : Fld := ⟨0x5000300 + 0x100000 * stack, 0, 23⟩
def Reg.HM_REBUILD.CHANNEL (stack : Nat) : Fld := ⟨0x5000300 + 0x100000 * stack, 23, 5⟩
def Reg.HM_REBUILD.ACTIVE (stack : Nat) : Fld := ⟨0x5000300 + 0x100000 * stack, 28, 1⟩
def Reg.HM_REBUILD.SRC_STACK (stack : Nat) : Fld := ⟨0x5000300 + 0x100000 * stack, 29, 3⟩
def Reg.HM_REBUILD.RATE (stack : Nat) : Fld := ⟨0x5000300 + 0x100000 * stack, 32, 8⟩
def Reg.HM_REBUILD2.CURSOR (stack : Nat) : Fld := ⟨0x5000308 + 0x100000 * stack, 0, 23⟩
def Reg.HM_REBUILD2.CHANNEL (stack : Nat) : Fld := ⟨0x5000308 + 0x100000 * stack, 23, 5⟩
def Reg.HM_REBUILD2.ACTIVE (stack : Nat) : Fld := ⟨0x5000308 + 0x100000 * stack, 28, 1⟩
def Reg.HM_REBUILD2.SRC_STACK (stack : Nat) : Fld := ⟨0x5000308 + 0x100000 * stack, 29, 3⟩
def Reg.HM_REBUILD2.RATE (stack : Nat) : Fld := ⟨0x5000308 + 0x100000 * stack, 32, 8⟩
def Reg.HM_FE_CFG.SPARES : Fld := ⟨0x5080000, 0, 2⟩
def Reg.HM_FE_CFG.RATE : Fld := ⟨0x5080000, 2, 2⟩
def Reg.HM_FE_CFG.HEIGHT : Fld := ⟨0x5080000, 4, 2⟩
def Reg.HM_FE_SPACE.LINE_SPACE_MIB : Fld := ⟨0x5080008, 0, 20⟩
def Reg.HM_FE_SPACE.DLA_CAP_MIB : Fld := ⟨0x5080008, 20, 20⟩
def Reg.HM_FE_SCRUB.INTERVAL : Fld := ⟨0x5080010, 0, 16⟩
def Reg.HM_FE_SCRUB.EN : Fld := ⟨0x5080010, 31, 1⟩
def Reg.HM_REGION00.DLA_BASE (n : Nat) : Fld := ⟨0x5081000 + 0x20 * n, 0, 18⟩
def Reg.HM_REGION00.DLA_SIZE (n : Nat) : Fld := ⟨0x5081000 + 0x20 * n, 18, 18⟩
def Reg.HM_REGION00.VALID (n : Nat) : Fld := ⟨0x5081000 + 0x20 * n, 36, 1⟩
def Reg.HM_REGION00.PROTECTED (n : Nat) : Fld := ⟨0x5081000 + 0x20 * n, 37, 1⟩
def Reg.HM_REGION00.KEY_MODE (n : Nat) : Fld := ⟨0x5081000 + 0x20 * n, 38, 1⟩
def Reg.HM_REGION00.KEY_SLOT (n : Nat) : Fld := ⟨0x5081000 + 0x20 * n, 39, 12⟩
def Reg.HM_REGION08.DATA_X_BASE (n : Nat) : Fld := ⟨0x5081008 + 0x20 * n, 0, 31⟩
def Reg.HM_REGION10.SEAL_X_BASE (n : Nat) : Fld := ⟨0x5081010 + 0x20 * n, 0, 31⟩
def Reg.SL_Q_BASE.BASE (sl q : Nat) : Fld := ⟨0xd000100 + 0x1000 * sl + 0x40 * q, 0, 64⟩
def Reg.SL_Q_CFG.LOG2_SIZE (sl q : Nat) : Fld := ⟨0xd000108 + 0x1000 * sl + 0x40 * q, 0, 4⟩
def Reg.SL_Q_CFG.HOME (sl q : Nat) : Fld := ⟨0xd000108 + 0x1000 * sl + 0x40 * q, 4, 5⟩
def Reg.SL_Q_CFG.DEF_ENSIGN (sl q : Nat) : Fld := ⟨0xd000108 + 0x1000 * sl + 0x40 * q, 9, 3⟩
def Reg.SL_Q_CFG.FETCH_AHEAD (sl q : Nat) : Fld := ⟨0xd000108 + 0x1000 * sl + 0x40 * q, 12, 1⟩
def Reg.SL_Q_CFG.ENSIGN_MASK (sl q : Nat) : Fld := ⟨0xd000108 + 0x1000 * sl + 0x40 * q, 13, 8⟩
def Reg.SL_Q_CTRL.ENABLE (sl q : Nat) : Fld := ⟨0xd00010c + 0x1000 * sl + 0x40 * q, 0, 1⟩
def Reg.SL_Q_CTRL.PAUSE (sl q : Nat) : Fld := ⟨0xd00010c + 0x1000 * sl + 0x40 * q, 1, 1⟩
def Reg.SL_Q_CTRL.RETRY (sl q : Nat) : Fld := ⟨0xd00010c + 0x1000 * sl + 0x40 * q, 2, 1⟩
def Reg.SL_Q_CTRL.SKIP (sl q : Nat) : Fld := ⟨0xd00010c + 0x1000 * sl + 0x40 * q, 3, 1⟩
def Reg.SL_Q_HEAD.INDEX (sl q : Nat) : Fld := ⟨0xd000110 + 0x1000 * sl + 0x40 * q, 0, 17⟩
def Reg.SL_Q_TAIL.INDEX (sl q : Nat) : Fld := ⟨0xd000114 + 0x1000 * sl + 0x40 * q, 0, 17⟩
def Reg.SL_Q_DOORBELL.INDEX (sl q : Nat) : Fld := ⟨0xd000118 + 0x1000 * sl + 0x40 * q, 0, 17⟩
def Reg.SL_Q_STATUS.STATE (sl q : Nat) : Fld := ⟨0xd00011c + 0x1000 * sl + 0x40 * q, 0, 2⟩
def Reg.SL_Q_STATUS.DB_REJECT (sl q : Nat) : Fld := ⟨0xd00011c + 0x1000 * sl + 0x40 * q, 2, 1⟩
def Reg.SL_Q_STATUS.ENSIGN_CLAMP (sl q : Nat) : Fld := ⟨0xd00011c + 0x1000 * sl + 0x40 * q, 3, 1⟩
def Reg.SL_Q_STATUS.INFLIGHT (sl q : Nat) : Fld := ⟨0xd00011c + 0x1000 * sl + 0x40 * q, 4, 6⟩
def Reg.SL_Q_STATUS.DEPTH (sl q : Nat) : Fld := ⟨0xd00011c + 0x1000 * sl + 0x40 * q, 10, 4⟩
def Reg.SL_Q_STATUS.ERR_STATUS (sl q : Nat) : Fld := ⟨0xd00011c + 0x1000 * sl + 0x40 * q, 16, 16⟩
def Reg.SL_Q_ERR.INDEX (sl q : Nat) : Fld := ⟨0xd000120 + 0x1000 * sl + 0x40 * q, 0, 17⟩
def Reg.SL_Q_ERR.LIST_INDEX (sl q : Nat) : Fld := ⟨0xd000120 + 0x1000 * sl + 0x40 * q, 32, 16⟩
def Reg.SL_Q_ERR.DEPTH (sl q : Nat) : Fld := ⟨0xd000120 + 0x1000 * sl + 0x40 * q, 48, 4⟩
def Reg.SL_Q_HEAD_WB.PTR (sl q : Nat) : Fld := ⟨0xd000128 + 0x1000 * sl + 0x40 * q, 0, 64⟩
def Reg.SL_CRING_BASE.BASE (sl : Nat) : Fld := ⟨0xd000200 + 0x1000 * sl, 0, 64⟩
def Reg.SL_CRING_CFG.LOG2_SIZE (sl : Nat) : Fld := ⟨0xd000208 + 0x1000 * sl, 0, 4⟩
def Reg.SL_CRING_CFG.IRQ_EN (sl : Nat) : Fld := ⟨0xd000208 + 0x1000 * sl, 4, 1⟩
def Reg.SL_CRING_CFG.VECTOR (sl : Nat) : Fld := ⟨0xd000208 + 0x1000 * sl, 8, 8⟩
def Reg.SL_CRING_CFG.COALESCE_CNT (sl : Nat) : Fld := ⟨0xd000208 + 0x1000 * sl, 16, 8⟩
def Reg.SL_CRING_CFG.COALESCE_US (sl : Nat) : Fld := ⟨0xd000208 + 0x1000 * sl, 24, 8⟩
def Reg.SL_CRING_HEAD.INDEX (sl : Nat) : Fld := ⟨0xd000210 + 0x1000 * sl, 0, 17⟩
def Reg.SL_CRING_TAIL.INDEX (sl : Nat) : Fld := ⟨0xd000214 + 0x1000 * sl, 0, 17⟩
def Reg.SL_CRING_STATUS.FULL (sl : Nat) : Fld := ⟨0xd000218 + 0x1000 * sl, 0, 1⟩
def Reg.SL_CRING_STATUS.STALE (sl : Nat) : Fld := ⟨0xd000218 + 0x1000 * sl, 16, 16⟩
def Reg.SL_MARK_CFG.QMASK (sl : Nat) : Fld := ⟨0xd000240 + 0x1000 * sl, 0, 4⟩
def Reg.SL_MARK_STATUS.LAST_MARK (sl : Nat) : Fld := ⟨0xd000248 + 0x1000 * sl, 0, 32⟩
def Reg.SL_MARK_STATUS.EPOCH (sl : Nat) : Fld := ⟨0xd000248 + 0x1000 * sl, 32, 12⟩
def Reg.SL_MARK_STATUS.VALID (sl : Nat) : Fld := ⟨0xd000248 + 0x1000 * sl, 44, 1⟩
def Reg.SL_HANDLE_STATUS.NEXT_SEQ (sl : Nat) : Fld := ⟨0xd000250 + 0x1000 * sl, 0, 16⟩
def Reg.SL_HANDLE_STATUS.LIVE (sl : Nat) : Fld := ⟨0xd000250 + 0x1000 * sl, 16, 9⟩
def Reg.SL_HANDLE_STATUS.GEN_LO (sl : Nat) : Fld := ⟨0xd000250 + 0x1000 * sl, 28, 4⟩
def Reg.XF_CFG.MAX_SLOTS (pos : Nat) : Fld := ⟨0x2010000 + 0x100000 * pos, 0, 4⟩
def Reg.XF_CFG.WINDOW (pos : Nat) : Fld := ⟨0x2010000 + 0x100000 * pos, 8, 5⟩
def Reg.XF_STATUS.ACTIVE (pos : Nat) : Fld := ⟨0x2010008 + 0x100000 * pos, 0, 8⟩
def Reg.XF_STATUS.FAULT_WAIT (pos : Nat) : Fld := ⟨0x2010008 + 0x100000 * pos, 8, 8⟩
def Reg.XF_SLOT_STATE.SLICE (pos n : Nat) : Fld := ⟨0x2010100 + 0x100000 * pos + 0x10 * n, 0, 12⟩
def Reg.XF_SLOT_STATE.STATE (pos n : Nat) : Fld := ⟨0x2010100 + 0x100000 * pos + 0x10 * n, 12, 2⟩
def Reg.XF_SLOT_STATE.DELIVERED (pos n : Nat) : Fld := ⟨0x2010100 + 0x100000 * pos + 0x10 * n, 16, 40⟩
def Reg.XF_SLOT_FAULT.PTR (pos n : Nat) : Fld := ⟨0x2010108 + 0x100000 * pos + 0x10 * n, 0, 64⟩
def Reg.XF_RD_BYTES.COUNT (pos : Nat) : Fld := ⟨0x2010200 + 0x100000 * pos, 0, 64⟩
def Reg.XF_WR_BYTES.COUNT (pos : Nat) : Fld := ⟨0x2010208 + 0x100000 * pos, 0, 64⟩
def Reg.XF_SEAL_GEN.COUNT (pos : Nat) : Fld := ⟨0x2010210 + 0x100000 * pos, 0, 32⟩
def Reg.XF_SEAL_CHK.COUNT (pos : Nat) : Fld := ⟨0x2010214 + 0x100000 * pos, 0, 32⟩
def Reg.XF_SEAL_FAIL.COUNT (pos : Nat) : Fld := ⟨0x2010218 + 0x100000 * pos, 0, 32⟩
def Reg.XF_PAGE_FAULTS.COUNT (pos : Nat) : Fld := ⟨0x201021c + 0x100000 * pos, 0, 32⟩
def Reg.XF_ERR_LOG.STATUS (pos : Nat) : Fld := ⟨0x2010240 + 0x100000 * pos, 0, 16⟩
def Reg.XF_ERR_LOG.SLICE (pos : Nat) : Fld := ⟨0x2010240 + 0x100000 * pos, 16, 12⟩
def Reg.XF_ERR_LOG.PRODUCER (pos : Nat) : Fld := ⟨0x2010240 + 0x100000 * pos, 28, 12⟩
def Reg.XF_ERR_LOG.SLOT (pos : Nat) : Fld := ⟨0x2010240 + 0x100000 * pos, 40, 3⟩
def Reg.XF_ERR_LOG.VALID (pos : Nat) : Fld := ⟨0x2010240 + 0x100000 * pos, 43, 1⟩
def Reg.XF_ERR_LOG.OVERFLOW (pos : Nat) : Fld := ⟨0x2010240 + 0x100000 * pos, 44, 1⟩
def Reg.XF_ERR_ADDR.PTR (pos : Nat) : Fld := ⟨0x2010248 + 0x100000 * pos, 0, 64⟩
def Reg.VE_CFG.MAX_CYCLES_LOG2 (pos : Nat) : Fld := ⟨0x2020000 + 0x100000 * pos, 0, 6⟩
def Reg.VE_STATUS.BUSY (pos : Nat) : Fld := ⟨0x2020008 + 0x100000 * pos, 0, 1⟩
def Reg.VE_STATUS.LOADING (pos : Nat) : Fld := ⟨0x2020008 + 0x100000 * pos, 1, 1⟩
def Reg.VE_STATUS.SLICE (pos : Nat) : Fld := ⟨0x2020008 + 0x100000 * pos, 16, 12⟩
def Reg.VE_STATUS.PC (pos : Nat) : Fld := ⟨0x2020008 + 0x100000 * pos, 32, 14⟩
def Reg.VE_RESIDENT.PTR (pos : Nat) : Fld := ⟨0x2020010 + 0x100000 * pos, 0, 64⟩
def Reg.VE_FLAGS.FLAGS (pos : Nat) : Fld := ⟨0x2020018 + 0x100000 * pos, 0, 7⟩
def Reg.VE_RETIRED.COUNT (pos : Nat) : Fld := ⟨0x2020020 + 0x100000 * pos, 0, 64⟩
def Reg.VE_BUSY_CYCLES.COUNT (pos : Nat) : Fld := ⟨0x2020028 + 0x100000 * pos, 0, 64⟩
def Reg.VE_IMAGE_LOADS.COUNT (pos : Nat) : Fld := ⟨0x2020030 + 0x100000 * pos, 0, 32⟩
def Reg.VE_ERR_LOG.STATUS (pos : Nat) : Fld := ⟨0x2020040 + 0x100000 * pos, 0, 16⟩
def Reg.VE_ERR_LOG.SLICE (pos : Nat) : Fld := ⟨0x2020040 + 0x100000 * pos, 16, 12⟩
def Reg.VE_ERR_LOG.PC (pos : Nat) : Fld := ⟨0x2020040 + 0x100000 * pos, 28, 14⟩
def Reg.VE_ERR_LOG.VALID (pos : Nat) : Fld := ⟨0x2020040 + 0x100000 * pos, 42, 1⟩
def Reg.VE_ERR_LOG.OVERFLOW (pos : Nat) : Fld := ⟨0x2020040 + 0x100000 * pos, 43, 1⟩
def Reg.VE_ERR_ADDR.PTR (pos : Nat) : Fld := ⟨0x2020048 + 0x100000 * pos, 0, 64⟩
def Reg.RD_CFG.COLLECT_TIMEOUT_MS (pos : Nat) : Fld := ⟨0x2030000 + 0x100000 * pos, 0, 16⟩
def Reg.RD_STATUS.REDUCE_BUSY (pos : Nat) : Fld := ⟨0x2030008 + 0x100000 * pos, 0, 1⟩
def Reg.RD_STATUS.COLLECT_BUSY (pos : Nat) : Fld := ⟨0x2030008 + 0x100000 * pos, 1, 1⟩
def Reg.RD_STATUS.SLICE (pos : Nat) : Fld := ⟨0x2030008 + 0x100000 * pos, 16, 12⟩
def Reg.RD_STATUS.ROWS (pos : Nat) : Fld := ⟨0x2030008 + 0x100000 * pos, 32, 32⟩
def Reg.RD_ROWS.COUNT (pos : Nat) : Fld := ⟨0x2030010 + 0x100000 * pos, 0, 64⟩
def Reg.RD_COLLECTS.COUNT (pos : Nat) : Fld := ⟨0x2030018 + 0x100000 * pos, 0, 64⟩
def Reg.RD_ERR_LOG.STATUS (pos : Nat) : Fld := ⟨0x2030040 + 0x100000 * pos, 0, 16⟩
def Reg.RD_ERR_LOG.SLICE (pos : Nat) : Fld := ⟨0x2030040 + 0x100000 * pos, 16, 12⟩
def Reg.RD_ERR_LOG.MEMBER (pos : Nat) : Fld := ⟨0x2030040 + 0x100000 * pos, 28, 8⟩
def Reg.RD_ERR_LOG.COLLECT (pos : Nat) : Fld := ⟨0x2030040 + 0x100000 * pos, 36, 1⟩
def Reg.RD_ERR_LOG.VALID (pos : Nat) : Fld := ⟨0x2030040 + 0x100000 * pos, 37, 1⟩
def Reg.RD_ERR_LOG.OVERFLOW (pos : Nat) : Fld := ⟨0x2030040 + 0x100000 * pos, 38, 1⟩
def Reg.RD_ERR_ADDR.PTR (pos : Nat) : Fld := ⟨0x2030048 + 0x100000 * pos, 0, 64⟩
def Reg.ST_CFG.EN (site : Nat) : Fld := ⟨0x4000000 + 0x100000 * site, 0, 1⟩
def Reg.ST_CFG.AUTO_RETRAIN (site : Nat) : Fld := ⟨0x4000000 + 0x100000 * site, 1, 1⟩
def Reg.ST_CFG.MAX_RATE (site : Nat) : Fld := ⟨0x4000000 + 0x100000 * site, 2, 2⟩
def Reg.ST_CFG.MIN_RATE (site : Nat) : Fld := ⟨0x4000000 + 0x100000 * site, 4, 2⟩
def Reg.ST_CTRL.SITE_RESET (site : Nat) : Fld := ⟨0x4000008 + 0x100000 * site, 0, 1⟩
def Reg.ST_CTRL.RETRAIN (site : Nat) : Fld := ⟨0x4000008 + 0x100000 * site, 1, 1⟩
def Reg.ST_CTRL.CLK_HOLD (site : Nat) : Fld := ⟨0x4000008 + 0x100000 * site, 2, 1⟩
def Reg.ST_STATUS.STATE (site : Nat) : Fld := ⟨0x4000010 + 0x100000 * site, 0, 4⟩
def Reg.ST_STATUS.WIDTH_SET (site : Nat) : Fld := ⟨0x4000010 + 0x100000 * site, 8, 8⟩
def Reg.ST_STATUS.RATE (site : Nat) : Fld := ⟨0x4000010 + 0x100000 * site, 16, 2⟩
def Reg.ST_STATUS.PINNED (site : Nat) : Fld := ⟨0x4000010 + 0x100000 * site, 18, 1⟩
def Reg.ST_STATUS.RECON_FAILS (site : Nat) : Fld := ⟨0x4000010 + 0x100000 * site, 19, 2⟩
def Reg.ST_LANE_STATE.RETIRED (site : Nat) : Fld := ⟨0x4000018 + 0x100000 * site, 0, 8⟩
def Reg.ST_LANE_STATE.REPAIRED (site : Nat) : Fld := ⟨0x4000018 + 0x100000 * site, 16, 16⟩
def Reg.ST_LOSS_LOG.CAUSE (site : Nat) : Fld := ⟨0x4000020 + 0x100000 * site, 0, 4⟩
def Reg.ST_LOSS_LOG.VALID (site : Nat) : Fld := ⟨0x4000020 + 0x100000 * site, 4, 1⟩
def Reg.ST_LOSS_LOG.OVERFLOW (site : Nat) : Fld := ⟨0x4000020 + 0x100000 * site, 5, 1⟩
def Reg.ST_LOSS_LOG.LOST_REQ (site : Nat) : Fld := ⟨0x4000020 + 0x100000 * site, 16, 16⟩
def Reg.ST_LOSS_LOG.LOSSES (site : Nat) : Fld := ⟨0x4000020 + 0x100000 * site, 32, 16⟩
def Reg.ST_CRC_ERR.COUNT (site : Nat) : Fld := ⟨0x4000028 + 0x100000 * site, 0, 32⟩
def Reg.ST_REPLAY.COUNT (site : Nat) : Fld := ⟨0x400002c + 0x100000 * site, 0, 32⟩
def Reg.ST_SB_ERR.COUNT (site : Nat) : Fld := ⟨0x4000030 + 0x100000 * site, 0, 32⟩
def Reg.ST_GROUP_ERR.COUNT (site : Nat) : Fld := ⟨0x4000040 + 0x100000 * site, 0, 64⟩
def Reg.ST_SWP_CFG.SITE_ENSIGN (site : Nat) : Fld := ⟨0x4000100 + 0x100000 * site, 0, 3⟩
def Reg.ST_SWP_CFG.REQ_TIMEOUT (site : Nat) : Fld := ⟨0x4000100 + 0x100000 * site, 8, 8⟩
def Reg.ST_SWP_CFG.CANCEL_TIMEOUT_MS (site : Nat) : Fld := ⟨0x4000100 + 0x100000 * site, 16, 8⟩
def Reg.ST_SWP_CFG.ACTIVE_CORES (site : Nat) : Fld := ⟨0x4000100 + 0x100000 * site, 24, 7⟩
def Reg.ST_SWP_ENROL.LAST_STATUS (site : Nat) : Fld := ⟨0x4000108 + 0x100000 * site, 0, 16⟩
def Reg.ST_SWP_ENROL.ATTEMPTS (site : Nat) : Fld := ⟨0x4000108 + 0x100000 * site, 16, 8⟩
def Reg.ST_SWP_ALLOW.MAKER (site : Nat) : Fld := ⟨0x4000110 + 0x100000 * site, 0, 16⟩
def Reg.ST_SWP_ALLOW.DEVICE (site : Nat) : Fld := ⟨0x4000110 + 0x100000 * site, 16, 16⟩
def Reg.ST_SWP_ALLOW.CHECK (site : Nat) : Fld := ⟨0x4000110 + 0x100000 * site, 32, 1⟩
def Reg.ST_SWP_PKT_RX.COUNT (site : Nat) : Fld := ⟨0x4000180 + 0x100000 * site, 0, 64⟩
def Reg.ST_SWP_PKT_TX.COUNT (site : Nat) : Fld := ⟨0x4000188 + 0x100000 * site, 0, 64⟩
def Reg.ST_SWP_LATE_RSP.COUNT (site : Nat) : Fld := ⟨0x4000190 + 0x100000 * site, 0, 32⟩
def Reg.ST_SWP_PROTO_ERR.COUNT (site : Nat) : Fld := ⟨0x4000194 + 0x100000 * site, 0, 32⟩
def Reg.ST_SWP_ERR_LOG.OPCODE (site : Nat) : Fld := ⟨0x40001a0 + 0x100000 * site, 0, 8⟩
def Reg.ST_SWP_ERR_LOG.TAG (site : Nat) : Fld := ⟨0x40001a0 + 0x100000 * site, 8, 12⟩
def Reg.ST_SWP_ERR_LOG.STATUS (site : Nat) : Fld := ⟨0x40001a0 + 0x100000 * site, 20, 16⟩
def Reg.ST_SWP_ERR_LOG.CORE (site : Nat) : Fld := ⟨0x40001a0 + 0x100000 * site, 36, 6⟩
def Reg.ST_SWP_ERR_LOG.VALID (site : Nat) : Fld := ⟨0x40001a0 + 0x100000 * site, 42, 1⟩
def Reg.ST_SWP_ERR_LOG.OVERFLOW (site : Nat) : Fld := ⟨0x40001a0 + 0x100000 * site, 43, 1⟩
def Reg.ST_SWP_BURGEE.DATA (site n : Nat) : Fld := ⟨0x4000200 + 0x100000 * site + 0x8 * n, 0, 64⟩
def Reg.CO_CFG.HOLD_CYC : Fld := ⟨0x8000000, 0, 10⟩
def Reg.CO_CFG.RESERVE_CYC : Fld := ⟨0x8000000, 10, 10⟩
def Reg.CO_CFG.NACK_HINT : Fld := ⟨0x8000000, 20, 8⟩
def Reg.CO_CFG2.SNP_TIMEOUT_US : Fld := ⟨0x8000004, 0, 16⟩
def Reg.CO_HOLD_BOUNDS.MIN : Fld := ⟨0x8000008, 0, 10⟩
def Reg.CO_HOLD_BOUNDS.MAX : Fld := ⟨0x8000008, 16, 10⟩
def Reg.CO_STATUS.TRACKERS : Fld := ⟨0x8000010, 0, 10⟩
def Reg.CO_STATUS.RECLAIM_ACTIVE : Fld := ⟨0x8000010, 10, 1⟩
def Reg.CO_STATUS.WINDOWS_VALID : Fld := ⟨0x8000010, 11, 1⟩
def Reg.CO_STATUS.RECLAIM_PENDING : Fld := ⟨0x8000010, 16, 16⟩
def Reg.CO_DIR_ECC.CE : Fld := ⟨0x8000020, 0, 16⟩
def Reg.CO_DIR_ECC.FENCED : Fld := ⟨0x8000020, 16, 16⟩
def Reg.CO_RECLAIM_LOG.POISONED : Fld := ⟨0x8000028, 0, 32⟩
def Reg.CO_RECLAIM_LOG.RECOVERED : Fld := ⟨0x8000028, 32, 32⟩
def Reg.CO_LOOKUPS.COUNT : Fld := ⟨0x8000040, 0, 64⟩
def Reg.CO_SNOOPS.COUNT : Fld := ⟨0x8000048, 0, 64⟩
def Reg.CO_NACKS.COUNT : Fld := ⟨0x8000050, 0, 32⟩
def Reg.CO_VICTIMS.COUNT : Fld := ⟨0x8000054, 0, 32⟩
def Reg.CO_BUNTING.COUNT : Fld := ⟨0x8000058, 0, 32⟩
def Reg.CO_SNP_TIMEOUTS.COUNT : Fld := ⟨0x800005c, 0, 32⟩
def Reg.CO_WIN00.BASE (n : Nat) : Fld := ⟨0x8000100 + 0x10 * n, 0, 27⟩
def Reg.CO_WIN00.SIZE (n : Nat) : Fld := ⟨0x8000100 + 0x10 * n, 27, 27⟩
def Reg.CO_WIN00.VALID (n : Nat) : Fld := ⟨0x8000100 + 0x10 * n, 54, 1⟩
def Reg.CO_WIN00.GRANT_E (n : Nat) : Fld := ⟨0x8000100 + 0x10 * n, 55, 1⟩
def Reg.CO_WIN00.PARTITION (n : Nat) : Fld := ⟨0x8000100 + 0x10 * n, 56, 5⟩
def Reg.CO_WIN08.SITES (n : Nat) : Fld := ⟨0x8000108 + 0x10 * n, 0, 16⟩
def Reg.CO_ERR_LOG.KIND : Fld := ⟨0x8000300, 0, 4⟩
def Reg.CO_ERR_LOG.AGENT : Fld := ⟨0x8000300, 4, 10⟩
def Reg.CO_ERR_LOG.VALID : Fld := ⟨0x8000300, 14, 1⟩
def Reg.CO_ERR_LOG.OVERFLOW : Fld := ⟨0x8000300, 15, 1⟩
def Reg.CO_ERR_ADDR.DLA : Fld := ⟨0x8000308, 0, 48⟩
def Reg.XL_CFG.ACC_EN : Fld := ⟨0xf000000, 0, 1⟩
def Reg.XL_CFG.ACC_CLEAR : Fld := ⟨0xf000000, 1, 1⟩
def Reg.XL_CFG.TLB_FLUSH : Fld := ⟨0xf000000, 2, 1⟩
def Reg.XL_ATS_CFG.MAX_OUTSTANDING : Fld := ⟨0xf000008, 0, 9⟩
def Reg.XL_PRI_CFG.TIMEOUT_MS : Fld := ⟨0xf000010, 0, 16⟩
def Reg.XL_PRI_CFG.GROUP_PAGES : Fld := ⟨0xf000010, 16, 6⟩
def Reg.XL_STATUS.ATS_OUT : Fld := ⟨0xf000018, 0, 9⟩
def Reg.XL_STATUS.PRG_OUT : Fld := ⟨0xf000018, 10, 15⟩
def Reg.XL_STATUS.INV_OUT : Fld := ⟨0xf000018, 25, 11⟩
def Reg.XL_L1_HIT.COUNT : Fld := ⟨0xf000040, 0, 64⟩
def Reg.XL_L2_HIT.COUNT : Fld := ⟨0xf000048, 0, 64⟩
def Reg.XL_ATS_REQ.COUNT : Fld := ⟨0xf000050, 0, 64⟩
def Reg.XL_PRG_SENT.COUNT : Fld := ⟨0xf000058, 0, 32⟩
def Reg.XL_PRG_LATE.COUNT : Fld := ⟨0xf00005c, 0, 32⟩
def Reg.XL_INV_RCVD.COUNT : Fld := ⟨0xf000060, 0, 32⟩
def Reg.XL_PAR_ERR.COUNT : Fld := ⟨0xf000064, 0, 32⟩
def Reg.XL_FAULT_LOG.CAUSE : Fld := ⟨0xf000100, 0, 4⟩
def Reg.XL_FAULT_LOG.UNIT : Fld := ⟨0xf000100, 4, 4⟩
def Reg.XL_FAULT_LOG.POS : Fld := ⟨0xf000100, 8, 5⟩
def Reg.XL_FAULT_LOG.SLICE : Fld := ⟨0xf000100, 13, 12⟩
def Reg.XL_FAULT_LOG.ACCESS : Fld := ⟨0xf000100, 25, 2⟩
def Reg.XL_FAULT_LOG.VALID : Fld := ⟨0xf000100, 27, 1⟩
def Reg.XL_FAULT_LOG.OVERFLOW : Fld := ⟨0xf000100, 28, 1⟩
def Reg.XL_FAULT_ADDR.PTR : Fld := ⟨0xf000108, 0, 64⟩
def Reg.XL_ACC_CFG.THRESHOLD : Fld := ⟨0xf000200, 0, 16⟩
def Reg.XL_ACC_CFG.DECAY_MS : Fld := ⟨0xf000200, 16, 16⟩
def Reg.XL_HOT_BASE.BASE : Fld := ⟨0xf000208, 0, 64⟩
def Reg.XL_HOT_CFG.LOG2_SIZE : Fld := ⟨0xf000210, 0, 4⟩
def Reg.XL_HOT_CFG.EN : Fld := ⟨0xf000210, 4, 1⟩
def Reg.XL_HOT_HEAD.INDEX : Fld := ⟨0xf000214, 0, 17⟩
def Reg.XL_HOT_TAIL.INDEX : Fld := ⟨0xf000218, 0, 17⟩
def Reg.XL_HOT_DROP.COUNT : Fld := ⟨0xf00021c, 0, 32⟩
def Reg.XL_SLICE_ATTR00.ATOM_BASE (n : Nat) : Fld := ⟨0xf010000 + 0x10 * n, 0, 45⟩
def Reg.XL_SLICE_ATTR00.ATOM_EN (n : Nat) : Fld := ⟨0xf010000 + 0x10 * n, 63, 1⟩
def Reg.XL_SLICE_ATTR08.ATOM_LIMIT (n : Nat) : Fld := ⟨0xf010008 + 0x10 * n, 0, 45⟩
def Reg.DN_STATUS.RUNNING : Fld := ⟨0xe000000, 0, 1⟩
def Reg.DN_STATUS.FAILED : Fld := ⟨0xe000000, 1, 1⟩
def Reg.DN_STATUS.BANK : Fld := ⟨0xe000000, 2, 1⟩
def Reg.DN_STATUS.BANK_FAILED : Fld := ⟨0xe000000, 3, 1⟩
def Reg.DN_STATUS.LAST_FW_STATUS : Fld := ⟨0xe000000, 16, 16⟩
def Reg.DN_STATUS.CANCEL_MISS : Fld := ⟨0xe000000, 32, 16⟩
def Reg.DN_STATUS.RESTARTS : Fld := ⟨0xe000000, 48, 16⟩
def Reg.DN_FW_CTRL.ACTIVATE : Fld := ⟨0xe000008, 0, 1⟩
def Reg.DN_PLAN_PTR.PTR : Fld := ⟨0xe000010, 0, 64⟩
def Reg.DN_PLAN_CTRL.PARTITION : Fld := ⟨0xe000018, 0, 5⟩
def Reg.DN_PLAN_CTRL.INDEX : Fld := ⟨0xe000018, 5, 4⟩
def Reg.DN_PLAN_CTRL.GO : Fld := ⟨0xe000018, 9, 1⟩
def Reg.DN_PLAN_CTRL.UNLOAD : Fld := ⟨0xe000018, 10, 1⟩
def Reg.DN_PLAN_CTRL.BUSY : Fld := ⟨0xe000018, 11, 1⟩
def Reg.DN_PLAN_CTRL.STATUS : Fld := ⟨0xe000018, 32, 16⟩
def Reg.DN_PART_CFG00.KV_BASE (p : Nat) : Fld := ⟨0xe001000 + 0x20 * p, 0, 48⟩
def Reg.DN_PART_CFG08.KV_PAGES (p : Nat) : Fld := ⟨0xe001008 + 0x20 * p, 0, 24⟩
def Reg.DN_PART_CFG08.SERVE_SLICE (p : Nat) : Fld := ⟨0xe001008 + 0x20 * p, 24, 12⟩
def Reg.DN_PART_CFG08.MAX_BATCH (p : Nat) : Fld := ⟨0xe001008 + 0x20 * p, 36, 9⟩
def Reg.DN_PART_CFG08.PREFILL_CHUNK (p : Nat) : Fld := ⟨0xe001008 + 0x20 * p, 45, 16⟩
def Reg.DN_PART_CFG10.SLOT_BASE (p : Nat) : Fld := ⟨0xe001010 + 0x20 * p, 0, 29⟩
def Reg.DN_PART_CFG10.ADAPTER_SLOTS (p : Nat) : Fld := ⟨0xe001010 + 0x20 * p, 29, 12⟩
def Reg.DN_PART_CFG10.ADAPTER_SLOT_BYTES (p : Nat) : Fld := ⟨0xe001010 + 0x20 * p, 41, 22⟩
def Reg.DN_PART_STATUS.ACTIVE (p : Nat) : Fld := ⟨0xe002000 + 0x10 * p, 0, 9⟩
def Reg.DN_PART_STATUS.FREE_PAGES (p : Nat) : Fld := ⟨0xe002000 + 0x10 * p, 32, 24⟩
def Reg.DN_PART_STATUS.PREEMPTS (p : Nat) : Fld := ⟨0xe002000 + 0x10 * p, 56, 8⟩
def Reg.DN_SLICE00.REQ_BASE (n : Nat) : Fld := ⟨0xe010000 + 0x40 * n, 0, 64⟩
def Reg.DN_SLICE08.TOK_BASE (n : Nat) : Fld := ⟨0xe010008 + 0x40 * n, 0, 64⟩
def Reg.DN_SLICE10.ADAPTER_TABLE (n : Nat) : Fld := ⟨0xe010010 + 0x40 * n, 0, 64⟩
def Reg.DN_SLICE18.REQ_LOG2 (n : Nat) : Fld := ⟨0xe010018 + 0x40 * n, 0, 4⟩
def Reg.DN_SLICE18.TOK_LOG2 (n : Nat) : Fld := ⟨0xe010018 + 0x40 * n, 4, 4⟩
def Reg.DN_SLICE18.EN (n : Nat) : Fld := ⟨0xe010018 + 0x40 * n, 8, 1⟩
def Reg.DN_SLICE18.IRQ_EN (n : Nat) : Fld := ⟨0xe010018 + 0x40 * n, 9, 1⟩
def Reg.DN_SLICE18.VECTOR (n : Nat) : Fld := ⟨0xe010018 + 0x40 * n, 10, 7⟩
def Reg.DN_SLICE18.COALESCE_CNT (n : Nat) : Fld := ⟨0xe010018 + 0x40 * n, 17, 8⟩
def Reg.DN_SLICE1C.ADAPTER_COUNT (n : Nat) : Fld := ⟨0xe01001c + 0x40 * n, 0, 16⟩
def Reg.DN_SLICE1C.COALESCE_US (n : Nat) : Fld := ⟨0xe01001c + 0x40 * n, 16, 8⟩
def Reg.DN_SLICE20.STATE (n : Nat) : Fld := ⟨0xe010020 + 0x40 * n, 0, 2⟩
def Reg.DN_SLICE20.ERR_STATUS (n : Nat) : Fld := ⟨0xe010020 + 0x40 * n, 16, 16⟩
def Reg.DN_SLICE20.ACTIVE (n : Nat) : Fld := ⟨0xe010020 + 0x40 * n, 32, 9⟩
def Reg.DN_SLICE28.REQ_HEAD (n : Nat) : Fld := ⟨0xe010028 + 0x40 * n, 0, 17⟩
def Reg.DN_SLICE28.REQ_TAIL (n : Nat) : Fld := ⟨0xe010028 + 0x40 * n, 32, 17⟩
def Reg.DN_SLICE30.TOK_HEAD (n : Nat) : Fld := ⟨0xe010030 + 0x40 * n, 0, 17⟩
def Reg.DN_SLICE30.TOK_TAIL (n : Nat) : Fld := ⟨0xe010030 + 0x40 * n, 32, 17⟩
def Reg.DN_SLICE38.TOK_CNT_PTR (n : Nat) : Fld := ⟨0xe010038 + 0x40 * n, 0, 64⟩
def Reg.SL_CFG.PASID (sl : Nat) : Fld := ⟨0xd000000 + 0x1000 * sl, 0, 20⟩
def Reg.SL_CFG.PARTITION (sl : Nat) : Fld := ⟨0xd000000 + 0x1000 * sl, 20, 5⟩
def Reg.SL_CFG.FREEZE_WAIT_MS (sl : Nat) : Fld := ⟨0xd000000 + 0x1000 * sl, 32, 8⟩
def Reg.SL_STATUS.STATE (sl : Nat) : Fld := ⟨0xd000008 + 0x1000 * sl, 0, 3⟩
def Reg.SL_STATUS.GENERATION (sl : Nat) : Fld := ⟨0xd000008 + 0x1000 * sl, 16, 16⟩
def Reg.SL_FREEZE_STATUS.STATUS (sl : Nat) : Fld := ⟨0xd00000c + 0x1000 * sl, 0, 16⟩
def Reg.SL_FREEZE_STATUS.RUNNING (sl : Nat) : Fld := ⟨0xd00000c + 0x1000 * sl, 16, 1⟩
def Reg.SL_FREEZE_STATUS.VALID (sl : Nat) : Fld := ⟨0xd00000c + 0x1000 * sl, 17, 1⟩
def Reg.SL_QUOTA.ACTIVE_REQ (sl : Nat) : Fld := ⟨0xd000010 + 0x1000 * sl, 0, 9⟩
def Reg.SL_QUOTA.HANDLES (sl : Nat) : Fld := ⟨0xd000010 + 0x1000 * sl, 9, 9⟩
def Reg.SL_QUOTA.XFER_SLOTS (sl : Nat) : Fld := ⟨0xd000010 + 0x1000 * sl, 18, 4⟩
def Reg.SL_FW_WIN00.BASE (sl k : Nat) : Fld := ⟨0xd000040 + 0x1000 * sl + 0x10 * k, 12, 36⟩
def Reg.SL_FW_WIN08.SIZE (sl k : Nat) : Fld := ⟨0xd000048 + 0x1000 * sl + 0x10 * k, 0, 36⟩
def Reg.SL_FW_WIN08.R (sl k : Nat) : Fld := ⟨0xd000048 + 0x1000 * sl + 0x10 * k, 36, 1⟩
def Reg.SL_FW_WIN08.W (sl k : Nat) : Fld := ⟨0xd000048 + 0x1000 * sl + 0x10 * k, 37, 1⟩
def Reg.SL_FW_WIN08.A (sl k : Nat) : Fld := ⟨0xd000048 + 0x1000 * sl + 0x10 * k, 38, 1⟩
def Reg.SL_FW_WIN08.VALID (sl k : Nat) : Fld := ⟨0xd000048 + 0x1000 * sl + 0x10 * k, 39, 1⟩
def Reg.SL_MBX_IN.WORD (sl i : Nat) : Fld := ⟨0xd000300 + 0x1000 * sl + 0x8 * i, 0, 64⟩
def Reg.SL_MBX_OUT.WORD (sl i : Nat) : Fld := ⟨0xd000340 + 0x1000 * sl + 0x8 * i, 0, 64⟩
def Reg.SL_MBX_CTRL.IN_FULL (sl : Nat) : Fld := ⟨0xd000380 + 0x1000 * sl, 0, 1⟩
def Reg.SL_MBX_CTRL.ACK (sl : Nat) : Fld := ⟨0xd000380 + 0x1000 * sl, 1, 1⟩
def Reg.SL_MBX_CTRL.SEND (sl : Nat) : Fld := ⟨0xd000380 + 0x1000 * sl, 2, 1⟩
def Reg.SL_MBX_CTRL.SEND_DROP (sl : Nat) : Fld := ⟨0xd000380 + 0x1000 * sl, 3, 1⟩
def Reg.SL_MBX_CTRL.PF_VECTOR (sl : Nat) : Fld := ⟨0xd000380 + 0x1000 * sl, 4, 11⟩
def Reg.SL_MBX_CTRL.VF_VECTOR (sl : Nat) : Fld := ⟨0xd000380 + 0x1000 * sl, 16, 7⟩
def Reg.SL_MGR_OP.OP : Fld := ⟨0xd000800, 0, 4⟩
def Reg.SL_MGR_OP.TARGET : Fld := ⟨0xd000800, 16, 12⟩
def Reg.SL_MGR_OP.GO : Fld := ⟨0xd000800, 31, 1⟩
def Reg.SL_MGR_ARG0.PTR : Fld := ⟨0xd000808, 0, 64⟩
def Reg.SL_MGR_ARG1.KEY_SLOT : Fld := ⟨0xd000810, 0, 12⟩
def Reg.SL_MGR_ARG1.OVERWRITE : Fld := ⟨0xd000810, 12, 1⟩
def Reg.SL_MGR_ARG1.PARTITION : Fld := ⟨0xd000810, 13, 5⟩
def Reg.SL_MGR_ARG1.LAYOUT : Fld := ⟨0xd000810, 18, 3⟩
def Reg.SL_MGR_ARG1.LENGTH : Fld := ⟨0xd000810, 24, 40⟩
def Reg.SL_MGR_RESULT.STATUS : Fld := ⟨0xd000818, 0, 16⟩
def Reg.SL_MGR_RESULT.HANDLE : Fld := ⟨0xd000818, 32, 32⟩
def Reg.SL_PART_STATUS.OPEN_SLICES (p : Nat) : Fld := ⟨0xd000900 + 0x8 * p, 0, 12⟩
def Reg.SL_PART_STATUS.RESETTING (p : Nat) : Fld := ⟨0xd000900 + 0x8 * p, 12, 1⟩
def Reg.SL_PART_STATUS.REFORMING (p : Nat) : Fld := ⟨0xd000900 + 0x8 * p, 13, 1⟩
def Reg.SL_PART_STATUS.ACTIVE_REQ_SUM (p : Nat) : Fld := ⟨0xd000900 + 0x8 * p, 16, 13⟩
def Reg.HY_CFG.REQ_TIMEOUT_US : Fld := ⟨0x7000000, 0, 16⟩
def Reg.HY_STATUS.WAKING : Fld := ⟨0x7000008, 0, 8⟩
def Reg.HY_STATUS.SPINE_FAULT : Fld := ⟨0x7000008, 8, 1⟩
def Reg.HY_ECC_CE.COUNT : Fld := ⟨0x7000010, 0, 32⟩
def Reg.HY_ECC_UE.COUNT : Fld := ⟨0x7000014, 0, 32⟩
def Reg.HY_TIMEOUTS.COUNT : Fld := ⟨0x7000018, 0, 32⟩
def Reg.HY_LATE_RSP.COUNT : Fld := ⟨0x700001c, 0, 32⟩
def Reg.HY_WAKES.COUNT : Fld := ⟨0x7000020, 0, 32⟩
def Reg.HY_ERR_LOG.ROUTER : Fld := ⟨0x7000040, 0, 5⟩
def Reg.HY_ERR_LOG.LINK : Fld := ⟨0x7000040, 5, 3⟩
def Reg.HY_ERR_LOG.PORT : Fld := ⟨0x7000040, 8, 7⟩
def Reg.HY_ERR_LOG.KIND : Fld := ⟨0x7000040, 15, 3⟩
def Reg.HY_ERR_LOG.VALID : Fld := ⟨0x7000040, 18, 1⟩
def Reg.HY_ERR_LOG.OVERFLOW : Fld := ⟨0x7000040, 19, 1⟩
def Reg.HY_STAT_CTRL.SNAP : Fld := ⟨0x7000100, 0, 1⟩
def Reg.HY_ENS.PERMIT (port : Nat) : Fld := ⟨0x7010000 + 0x80 * port, 0, 8⟩
def Reg.HY_ENS.DEF_ENSIGN (port : Nat) : Fld := ⟨0x7010000 + 0x80 * port, 8, 3⟩
def Reg.HY_REG.RATE (port e : Nat) : Fld := ⟨0x7010028 + 0x80 * port + 0x8 * (e - 1), 0, 12⟩
def Reg.HY_REG.RATE_MAX (port e : Nat) : Fld := ⟨0x7010028 + 0x80 * port + 0x8 * (e - 1), 12, 12⟩
def Reg.HY_REG.BURST (port e : Nat) : Fld := ⟨0x7010028 + 0x80 * port + 0x8 * (e - 1), 24, 8⟩
def Reg.HY_REG.TOKENS (port e : Nat) : Fld := ⟨0x7010028 + 0x80 * port + 0x8 * (e - 1), 32, 24⟩
def Reg.HY_STAT_REQS.COUNT (port : Nat) : Fld := ⟨0x7010060 + 0x80 * port, 0, 32⟩
def Reg.HY_STAT_REMAP.COUNT (port : Nat) : Fld := ⟨0x7010064 + 0x80 * port, 0, 32⟩
def Reg.HY_STAT_BYTES.COUNT (port : Nat) : Fld := ⟨0x7010068 + 0x80 * port, 0, 64⟩
def Reg.HY_STAT_LAT_SUM.COUNT (port : Nat) : Fld := ⟨0x7010070 + 0x80 * port, 0, 64⟩
def Reg.HY_STAT_LAT_MAX.CYCLES (port : Nat) : Fld := ⟨0x7010078 + 0x80 * port, 0, 32⟩
def Reg.EP_CFG.DB_STRIDE : Fld := ⟨0x1000000, 0, 1⟩
def Reg.EP_CFG.PF_BAR4_LOG2 : Fld := ⟨0x1000000, 8, 6⟩
def Reg.EP_CFG.VF_BAR4_LOG2 : Fld := ⟨0x1000000, 16, 6⟩
def Reg.EP_CFG.DB_ENSIGN : Fld := ⟨0x1000000, 24, 3⟩
def Reg.EP_SUBSYS.SUBSYS_VENDOR : Fld := ⟨0x1000004, 0, 16⟩
def Reg.EP_SUBSYS.SUBSYS_ID : Fld := ⟨0x1000004, 16, 16⟩
def Reg.EP_LINK.SPEED : Fld := ⟨0x1000010, 0, 4⟩
def Reg.EP_LINK.WIDTH : Fld := ⟨0x1000010, 4, 5⟩
def Reg.EP_LINK.FLIT : Fld := ⟨0x1000010, 9, 1⟩
def Reg.EP_LINK.DL_UP : Fld := ⟨0x1000010, 10, 1⟩
def Reg.EP_LINK.RETRAINS : Fld := ⟨0x1000010, 16, 8⟩
def Reg.EP_TAG_STATUS.OUTSTANDING : Fld := ⟨0x1000018, 0, 13⟩
def Reg.EP_TAG_STATUS.QUARANTINED : Fld := ⟨0x1000018, 16, 13⟩
def Reg.EP_LATE_CPL.COUNT : Fld := ⟨0x1000020, 0, 32⟩
def Reg.EP_CPL_TIMEOUT.COUNT : Fld := ⟨0x1000024, 0, 32⟩
def Reg.EP_IN_UR.COUNT : Fld := ⟨0x1000028, 0, 32⟩
def Reg.EP_IN_CA.COUNT : Fld := ⟨0x100002c, 0, 32⟩
def Reg.EP_IN_POISON.COUNT : Fld := ⟨0x1000030, 0, 32⟩
def Reg.EP_ERR_LOG.STATUS : Fld := ⟨0x1000040, 0, 16⟩
def Reg.EP_ERR_LOG.FUNC : Fld := ⟨0x1000040, 16, 6⟩
def Reg.EP_ERR_LOG.KIND : Fld := ⟨0x1000040, 22, 4⟩
def Reg.EP_ERR_LOG.VALID : Fld := ⟨0x1000040, 26, 1⟩
def Reg.EP_ERR_LOG.OVERFLOW : Fld := ⟨0x1000040, 27, 1⟩
def Reg.EP_ERR_ADDR.ADDR : Fld := ⟨0x1000048, 0, 64⟩
def Reg.EP_FN_STATUS.BME (n : Nat) : Fld := ⟨0x1000100 + 0x8 * n, 0, 1⟩
def Reg.EP_FN_STATUS.MSE (n : Nat) : Fld := ⟨0x1000100 + 0x8 * n, 1, 1⟩
def Reg.EP_FN_STATUS.RESETTING (n : Nat) : Fld := ⟨0x1000100 + 0x8 * n, 2, 1⟩
def Reg.EP_FN_STATUS.D3HOT (n : Nat) : Fld := ⟨0x1000100 + 0x8 * n, 3, 1⟩
def Reg.EP_FN_STATUS.TDI_STATE (n : Nat) : Fld := ⟨0x1000100 + 0x8 * n, 4, 2⟩
def Reg.EP_FN_STATUS.FLR_COUNT (n : Nat) : Fld := ⟨0x1000100 + 0x8 * n, 16, 16⟩
def Reg.EP_WIN_PF00.BAR_OFF (w : Nat) : Fld := ⟨0x1020000 + 0x20 * w, 0, 28⟩
def Reg.EP_WIN_PF08.DLA_BASE (w : Nat) : Fld := ⟨0x1020008 + 0x20 * w, 0, 36⟩
def Reg.EP_WIN_PF10.SIZE (w : Nat) : Fld := ⟨0x1020010 + 0x20 * w, 0, 28⟩
def Reg.EP_WIN_PF10.SLICE (w : Nat) : Fld := ⟨0x1020010 + 0x20 * w, 28, 12⟩
def Reg.EP_WIN_PF10.ENSIGN (w : Nat) : Fld := ⟨0x1020010 + 0x20 * w, 40, 3⟩
def Reg.EP_WIN_PF10.R (w : Nat) : Fld := ⟨0x1020010 + 0x20 * w, 43, 1⟩
def Reg.EP_WIN_PF10.W (w : Nat) : Fld := ⟨0x1020010 + 0x20 * w, 44, 1⟩
def Reg.EP_WIN_PF10.VALID (w : Nat) : Fld := ⟨0x1020010 + 0x20 * w, 45, 1⟩
def Reg.EP_WIN_VF00.BAR_OFF (v w : Nat) : Fld := ⟨0x1030000 + 0x200 * (v - 1) + 0x20 * w, 0, 28⟩
def Reg.EP_WIN_VF08.DLA_BASE (v w : Nat) : Fld := ⟨0x1030008 + 0x200 * (v - 1) + 0x20 * w, 0, 36⟩
def Reg.EP_WIN_VF10.SIZE (v w : Nat) : Fld := ⟨0x1030010 + 0x200 * (v - 1) + 0x20 * w, 0, 28⟩
def Reg.EP_WIN_VF10.SLICE (v w : Nat) : Fld := ⟨0x1030010 + 0x200 * (v - 1) + 0x20 * w, 28, 12⟩
def Reg.EP_WIN_VF10.ENSIGN (v w : Nat) : Fld := ⟨0x1030010 + 0x200 * (v - 1) + 0x20 * w, 40, 3⟩
def Reg.EP_WIN_VF10.R (v w : Nat) : Fld := ⟨0x1030010 + 0x200 * (v - 1) + 0x20 * w, 43, 1⟩
def Reg.EP_WIN_VF10.W (v w : Nat) : Fld := ⟨0x1030010 + 0x200 * (v - 1) + 0x20 * w, 44, 1⟩
def Reg.EP_WIN_VF10.VALID (v w : Nat) : Fld := ⟨0x1030010 + 0x200 * (v - 1) + 0x20 * w, 45, 1⟩
def Reg.RCH_CFG.EN (port : Nat) : Fld := ⟨0xc000000 + 0x100000 * port, 0, 1⟩
def Reg.RCH_CFG.SER_LIMIT (port : Nat) : Fld := ⟨0xc000000 + 0x100000 * port, 8, 16⟩
def Reg.RCH_STATUS.STATE (port : Nat) : Fld := ⟨0xc000008 + 0x100000 * port, 0, 3⟩
def Reg.RCH_STATUS.HALVES (port : Nat) : Fld := ⟨0xc000008 + 0x100000 * port, 3, 2⟩
def Reg.RCH_STATUS.WIDTH_CHANGE (port : Nat) : Fld := ⟨0xc000008 + 0x100000 * port, 5, 1⟩
def Reg.RCH_STATUS.OUTSTANDING (port : Nat) : Fld := ⟨0xc000008 + 0x100000 * port, 6, 12⟩
def Reg.RCH_STATUS.NEIGHBOUR (port : Nat) : Fld := ⟨0xc000008 + 0x100000 * port, 32, 24⟩
def Reg.RCH_STATUS.NB_PORT (port : Nat) : Fld := ⟨0xc000008 + 0x100000 * port, 56, 2⟩
def Reg.RCH_SLOT_CAP.ATTN_BTN (port : Nat) : Fld := ⟨0xc000100 + 0x100000 * port, 0, 1⟩
def Reg.RCH_SLOT_CAP.PWR_CTRL (port : Nat) : Fld := ⟨0xc000100 + 0x100000 * port, 1, 1⟩
def Reg.RCH_SLOT_CAP.ATTN_IND (port : Nat) : Fld := ⟨0xc000100 + 0x100000 * port, 2, 1⟩
def Reg.RCH_SLOT_CAP.PWR_IND_P (port : Nat) : Fld := ⟨0xc000100 + 0x100000 * port, 3, 1⟩
def Reg.RCH_SLOT_CAP.HP_CAPABLE (port : Nat) : Fld := ⟨0xc000100 + 0x100000 * port, 4, 1⟩
def Reg.RCH_SLOT_CAP.HP_SURPRISE (port : Nat) : Fld := ⟨0xc000100 + 0x100000 * port, 5, 1⟩
def Reg.RCH_SLOT_CTRL.ABP_EN (port : Nat) : Fld := ⟨0xc000104 + 0x100000 * port, 0, 1⟩
def Reg.RCH_SLOT_CTRL.PDC_EN (port : Nat) : Fld := ⟨0xc000104 + 0x100000 * port, 1, 1⟩
def Reg.RCH_SLOT_CTRL.CC_EN (port : Nat) : Fld := ⟨0xc000104 + 0x100000 * port, 2, 1⟩
def Reg.RCH_SLOT_CTRL.HP_INT_EN (port : Nat) : Fld := ⟨0xc000104 + 0x100000 * port, 3, 1⟩
def Reg.RCH_SLOT_CTRL.DLLSC_EN (port : Nat) : Fld := ⟨0xc000104 + 0x100000 * port, 4, 1⟩
def Reg.RCH_SLOT_CTRL.ATTN_IND (port : Nat) : Fld := ⟨0xc000104 + 0x100000 * port, 6, 2⟩
def Reg.RCH_SLOT_CTRL.PWR_IND (port : Nat) : Fld := ⟨0xc000104 + 0x100000 * port, 8, 2⟩
def Reg.RCH_SLOT_CTRL.PWR_OFF (port : Nat) : Fld := ⟨0xc000104 + 0x100000 * port, 10, 1⟩
def Reg.RCH_SLOT_CTRL.VECTOR (port : Nat) : Fld := ⟨0xc000104 + 0x100000 * port, 16, 11⟩
def Reg.RCH_SLOT_STATUS.ABP (port : Nat) : Fld := ⟨0xc000108 + 0x100000 * port, 0, 1⟩
def Reg.RCH_SLOT_STATUS.PDC (port : Nat) : Fld := ⟨0xc000108 + 0x100000 * port, 1, 1⟩
def Reg.RCH_SLOT_STATUS.CC (port : Nat) : Fld := ⟨0xc000108 + 0x100000 * port, 2, 1⟩
def Reg.RCH_SLOT_STATUS.DLLSC (port : Nat) : Fld := ⟨0xc000108 + 0x100000 * port, 3, 1⟩
def Reg.RCH_SLOT_STATUS.PRESENT (port : Nat) : Fld := ⟨0xc000108 + 0x100000 * port, 4, 1⟩
def Reg.RCH_SLOT_STATUS.LINK_ACTIVE (port : Nat) : Fld := ⟨0xc000108 + 0x100000 * port, 5, 1⟩
def Reg.RCH_FEC_CORR.COUNT (port : Nat) : Fld := ⟨0xc000200 + 0x100000 * port, 0, 32⟩
def Reg.RCH_FEC_UNCORR.COUNT (port : Nat) : Fld := ⟨0xc000204 + 0x100000 * port, 0, 32⟩
def Reg.RCH_NAKS.COUNT (port : Nat) : Fld := ⟨0xc000208 + 0x100000 * port, 0, 32⟩
def Reg.RCH_FWD_DROP.COUNT (port : Nat) : Fld := ⟨0xc00020c + 0x100000 * port, 0, 32⟩
def Reg.RCH_ERR_LOG.KIND (port : Nat) : Fld := ⟨0xc000240 + 0x100000 * port, 0, 4⟩
def Reg.RCH_ERR_LOG.VALID (port : Nat) : Fld := ⟨0xc000240 + 0x100000 * port, 4, 1⟩
def Reg.RCH_ERR_LOG.OVERFLOW (port : Nat) : Fld := ⟨0xc000240 + 0x100000 * port, 5, 1⟩
def Reg.RCH_ERR_LOG.DEV (port : Nat) : Fld := ⟨0xc000240 + 0x100000 * port, 32, 24⟩
def Reg.RCH_DEV.DEV_ID : Fld := ⟨0xc800000, 0, 24⟩
def Reg.RCH_DEV.RELAY_EN : Fld := ⟨0xc800000, 24, 1⟩
def Reg.RCH_DEV.REQ_TIMEOUT_US : Fld := ⟨0xc800000, 32, 16⟩
def Reg.RCH_PEER00.DEV_ID (n : Nat) : Fld := ⟨0xc810000 + 0x20 * n, 0, 24⟩
def Reg.RCH_PEER00.REMOTE_SLICE (n : Nat) : Fld := ⟨0xc810000 + 0x20 * n, 24, 12⟩
def Reg.RCH_PEER00.PARTITION (n : Nat) : Fld := ⟨0xc810000 + 0x20 * n, 36, 5⟩
def Reg.RCH_PEER00.VALID (n : Nat) : Fld := ⟨0xc810000 + 0x20 * n, 41, 1⟩
def Reg.RCH_PEER00.ALT_VALID (n : Nat) : Fld := ⟨0xc810000 + 0x20 * n, 42, 1⟩
def Reg.RCH_PEER00.ON_ALT (n : Nat) : Fld := ⟨0xc810000 + 0x20 * n, 43, 1⟩
def Reg.RCH_PEER00.PRI_HOPS (n : Nat) : Fld := ⟨0xc810000 + 0x20 * n, 44, 5⟩
def Reg.RCH_PEER00.ALT_HOPS (n : Nat) : Fld := ⟨0xc810000 + 0x20 * n, 49, 5⟩
def Reg.RCH_PEER08.PRI_ROUTE (n : Nat) : Fld := ⟨0xc810008 + 0x20 * n, 0, 60⟩
def Reg.RCH_PEER10.ALT_ROUTE (n : Nat) : Fld := ⟨0xc810010 + 0x20 * n, 0, 60⟩
def Reg.RCH_ADMIT.SRC_DEV (i : Nat) : Fld := ⟨0xc840000 + 0x10 * i, 0, 24⟩
def Reg.RCH_ADMIT.SLICE (i : Nat) : Fld := ⟨0xc840000 + 0x10 * i, 24, 12⟩
def Reg.RCH_ADMIT.VALID (i : Nat) : Fld := ⟨0xc840000 + 0x10 * i, 36, 1⟩
def Reg.RCH_RELAY00.DEV_ID (i : Nat) : Fld := ⟨0xc850000 + 0x10 * i, 0, 24⟩
def Reg.RCH_RELAY00.HOPS (i : Nat) : Fld := ⟨0xc850000 + 0x10 * i, 24, 5⟩
def Reg.RCH_RELAY00.VALID (i : Nat) : Fld := ⟨0xc850000 + 0x10 * i, 29, 1⟩
def Reg.RCH_RELAY08.ROUTE (i : Nat) : Fld := ⟨0xc850008 + 0x10 * i, 0, 60⟩
def Reg.FC_CFG.DATA_REPLAY : Fld := ⟨0x9000000, 0, 1⟩
def Reg.FC_CFG.FATAL_AUTO_RESET : Fld := ⟨0x9000000, 1, 1⟩
def Reg.FC_CFG.CORE_WDOG_MS : Fld := ⟨0x9000000, 8, 8⟩
def Reg.FC_STATUS.RECOVERING : Fld := ⟨0x9000008, 0, 1⟩
def Reg.FC_STATUS.UNCLEARED : Fld := ⟨0x9000008, 1, 1⟩
def Reg.FC_STATUS.SINGLE : Fld := ⟨0x9000008, 2, 1⟩
def Reg.FC_STATUS.WAVE_MODE : Fld := ⟨0x9000008, 3, 3⟩
def Reg.FC_STATUS.PARTS_RECOVERING : Fld := ⟨0x9000008, 16, 6⟩
def Reg.FC_LOG_HEAD.INDEX : Fld := ⟨0x9000010, 0, 13⟩
def Reg.FC_LOG_TAIL.INDEX : Fld := ⟨0x9000014, 0, 13⟩
def Reg.FC_LOG_CFG.IRQ_EN : Fld := ⟨0x9000018, 0, 1⟩
def Reg.FC_LOG_CFG.VECTOR : Fld := ⟨0x9000018, 1, 11⟩
def Reg.FC_ACK.INDEX : Fld := ⟨0x9000020, 0, 13⟩
def Reg.FC_ACK.ALL : Fld := ⟨0x9000020, 31, 1⟩
def Reg.FC_LOG_LOST.COUNT : Fld := ⟨0x9000024, 0, 32⟩
def Reg.FC_RECORDS.COUNT : Fld := ⟨0x9000028, 0, 64⟩
def Reg.FC_INJECT00.SOURCE : Fld := ⟨0x9000100, 0, 12⟩
def Reg.FC_INJECT00.KIND : Fld := ⟨0x9000100, 12, 8⟩
def Reg.FC_INJECT00.AUX : Fld := ⟨0x9000100, 20, 12⟩
def Reg.FC_INJECT00.COUNT : Fld := ⟨0x9000100, 32, 16⟩
def Reg.FC_INJECT00.MODE : Fld := ⟨0x9000100, 48, 1⟩
def Reg.FC_INJECT00.GO : Fld := ⟨0x9000100, 63, 1⟩
def Reg.FC_INJECT08.ADDR : Fld := ⟨0x9000108, 0, 48⟩
def Reg.FC_INJECT_STATUS.DENIED : Fld := ⟨0x9000110, 0, 1⟩
def Reg.FC_INJECT_STATUS.BUSY : Fld := ⟨0x9000110, 1, 1⟩
def Reg.FC_BUCKET_BOUNDS.THR_MIN : Fld := ⟨0x9000200, 0, 6⟩
def Reg.FC_BUCKET_BOUNDS.THR_MAX : Fld := ⟨0x9000200, 8, 6⟩
def Reg.FC_BUCKET_BOUNDS.WIN_MIN_MS : Fld := ⟨0x9000200, 32, 16⟩
def Reg.FC_BUCKET_BOUNDS.WIN_MAX_MS : Fld := ⟨0x9000200, 48, 16⟩
def Reg.FC_RESTORE.SOURCE : Fld := ⟨0x9000300, 0, 12⟩
def Reg.FC_RESTORE.GO : Fld := ⟨0x9000300, 12, 1⟩
def Reg.FC_RESTORE.BUSY : Fld := ⟨0x9000300, 13, 1⟩
def Reg.FC_RESTORE.STATUS : Fld := ⟨0x9000300, 32, 16⟩
def Reg.FC_PART_STATE.DEGRADED (p : Nat) : Fld := ⟨0x9000400 + 0x8 * p, 0, 1⟩
def Reg.FC_PART_STATE.DOWN (p : Nat) : Fld := ⟨0x9000400 + 0x8 * p, 1, 1⟩
def Reg.FC_PART_STATE.RECOVERING (p : Nat) : Fld := ⟨0x9000400 + 0x8 * p, 2, 1⟩
def Reg.FC_PART_STATE.POSITIONS_LOST (p : Nat) : Fld := ⟨0x9000400 + 0x8 * p, 8, 6⟩
def Reg.FC_PART_STATE.SITE_CORES_LOST (p : Nat) : Fld := ⟨0x9000400 + 0x8 * p, 16, 10⟩
def Reg.FC_PART_STATE.CHANNELS_LOST (p : Nat) : Fld := ⟨0x9000400 + 0x8 * p, 26, 9⟩
def Reg.FC_PART_STATE.GROUPS_STRUCK (p : Nat) : Fld := ⟨0x9000400 + 0x8 * p, 35, 6⟩
def Reg.FC_REACT.ACTION (k : Nat) : Fld := ⟨0x9001000 + 0x4 * k, 0, 3⟩
def Reg.FC_REACT.BUCKET (k : Nat) : Fld := ⟨0x9001000 + 0x4 * k, 3, 2⟩
def Reg.FC_REACT.ACK (k : Nat) : Fld := ⟨0x9001000 + 0x4 * k, 5, 1⟩
def Reg.FC_REACT.IRQ (k : Nat) : Fld := ⟨0x9001000 + 0x4 * k, 6, 1⟩
def Reg.FC_REACT.FIXED (k : Nat) : Fld := ⟨0x9001000 + 0x4 * k, 7, 1⟩
def Reg.FC_BUCKET.THRESHOLD (n : Nat) : Fld := ⟨0x9020000 + 0x4 * n, 0, 6⟩
def Reg.FC_BUCKET.LEVEL (n : Nat) : Fld := ⟨0x9020000 + 0x4 * n, 6, 6⟩
def Reg.FC_BUCKET.STRUCK (n : Nat) : Fld := ⟨0x9020000 + 0x4 * n, 12, 1⟩
def Reg.FC_BUCKET.WINDOW_MS (n : Nat) : Fld := ⟨0x9020000 + 0x4 * n, 16, 16⟩
def Reg.FC_LOG00.PENNANT (i : Nat) : Fld := ⟨0x9040000 + 0x20 * i, 0, 64⟩
def Reg.FC_LOG08.PENNANT (i : Nat) : Fld := ⟨0x9040008 + 0x20 * i, 0, 64⟩
def Reg.FC_LOG10.TIME (i : Nat) : Fld := ⟨0x9040010 + 0x20 * i, 0, 64⟩
def Reg.FC_LOG18.REPLACEMENT (i : Nat) : Fld := ⟨0x9040018 + 0x20 * i, 0, 12⟩
def Reg.FC_LOG18.PARTITION (i : Nat) : Fld := ⟨0x9040018 + 0x20 * i, 12, 5⟩
def Reg.FC_LOG18.PERMANENT (i : Nat) : Fld := ⟨0x9040018 + 0x20 * i, 17, 1⟩
def Reg.FC_LOG18.ACK_NEEDED (i : Nat) : Fld := ⟨0x9040018 + 0x20 * i, 18, 1⟩
def Reg.FC_LOG18.ACKED (i : Nat) : Fld := ⟨0x9040018 + 0x20 * i, 19, 1⟩
def Reg.FC_LOG18.DONE (i : Nat) : Fld := ⟨0x9040018 + 0x20 * i, 20, 1⟩
def Reg.FC_LOG18.ACTION (i : Nat) : Fld := ⟨0x9040018 + 0x20 * i, 21, 3⟩
def Reg.FC_LOG18.RESULT (i : Nat) : Fld := ⟨0x9040018 + 0x20 * i, 32, 16⟩
def Reg.FC_LOG18.DURATION_MS (i : Nat) : Fld := ⟨0x9040018 + 0x20 * i, 48, 16⟩
def Reg.SEC_STATUS.READY : Fld := ⟨0xa000000, 0, 1⟩
def Reg.SEC_STATUS.INSTALLS : Fld := ⟨0xa000000, 1, 3⟩
def Reg.SEC_STATUS.SPDM_SESSION : Fld := ⟨0xa000000, 4, 1⟩
def Reg.SEC_CMD.OP : Fld := ⟨0xa000010, 0, 4⟩
def Reg.SEC_CMD.SLOT : Fld := ⟨0xa000010, 4, 12⟩
def Reg.SEC_CMD.BUSY : Fld := ⟨0xa000010, 30, 1⟩
def Reg.SEC_CMD.GO : Fld := ⟨0xa000010, 31, 1⟩
def Reg.SEC_CMD_ARG0.PTR : Fld := ⟨0xa000018, 0, 64⟩
def Reg.SEC_CMD_ARG1.DST : Fld := ⟨0xa000020, 0, 48⟩
def Reg.SEC_CMD_ARG2.LENGTH : Fld := ⟨0xa000028, 0, 28⟩
def Reg.SEC_CMD_ARG2.SLICE : Fld := ⟨0xa000028, 28, 12⟩
def Reg.SEC_CMD_RESULT.STATUS : Fld := ⟨0xa000040, 0, 16⟩
def Reg.SEC_CMD_RESULT.HANDLE : Fld := ⟨0xa000040, 32, 32⟩
def Reg.SEC_FW_STATUS.AX_MIN_SVN : Fld := ⟨0xa000080, 0, 6⟩
def Reg.SEC_FW_STATUS.DN_MIN_SVN : Fld := ⟨0xa000080, 6, 6⟩
def Reg.SEC_FW_STATUS.AX_SVN : Fld := ⟨0xa000080, 12, 6⟩
def Reg.SEC_FW_STATUS.DN_SVN : Fld := ⟨0xa000080, 18, 6⟩
def Reg.SEC_FW_STATUS.STAGED : Fld := ⟨0xa000080, 24, 2⟩
def Reg.SEC_FW_STATUS.AX_FALLBACK : Fld := ⟨0xa000080, 26, 1⟩
def Reg.SEC_FW_STATUS.COMMIT_SVN : Fld := ⟨0xa000080, 27, 1⟩
def Reg.SEC_OWNER00.DIGEST (k : Nat) : Fld := ⟨0xa001000 + 0x40 * k, 0, 64⟩
def Reg.SEC_OWNER08.DIGEST (k : Nat) : Fld := ⟨0xa001008 + 0x40 * k, 0, 64⟩
def Reg.SEC_OWNER10.DIGEST (k : Nat) : Fld := ⟨0xa001010 + 0x40 * k, 0, 64⟩
def Reg.SEC_OWNER18.DIGEST (k : Nat) : Fld := ⟨0xa001018 + 0x40 * k, 0, 64⟩
def Reg.SEC_OWNER20.DIGEST (k : Nat) : Fld := ⟨0xa001020 + 0x40 * k, 0, 64⟩
def Reg.SEC_OWNER28.DIGEST (k : Nat) : Fld := ⟨0xa001028 + 0x40 * k, 0, 64⟩
def Reg.SEC_OWNER30.PARTITIONS (k : Nat) : Fld := ⟨0xa001030 + 0x40 * k, 0, 32⟩
def Reg.SEC_OWNER30.PKG (k : Nat) : Fld := ⟨0xa001030 + 0x40 * k, 32, 1⟩
def Reg.SEC_OWNER30.IMPORT (k : Nat) : Fld := ⟨0xa001030 + 0x40 * k, 33, 1⟩
def Reg.SEC_OWNER30.DEBUG (k : Nat) : Fld := ⟨0xa001030 + 0x40 * k, 34, 1⟩
def Reg.SEC_OWNER30.VALID (k : Nat) : Fld := ⟨0xa001030 + 0x40 * k, 35, 1⟩
def Reg.SEC_SLOT_OWNER.PARTITION (s : Nat) : Fld := ⟨0xa020000 + 0x4 * s, 0, 5⟩
def Reg.SEC_SLOT_OWNER.OWNED (s : Nat) : Fld := ⟨0xa020000 + 0x4 * s, 5, 1⟩
def Reg.SEC_SLOT_OWNER.STATE (s : Nat) : Fld := ⟨0xa020000 + 0x4 * s, 6, 2⟩
def Reg.SEC_DEBUG.LEVEL : Fld := ⟨0xa030000, 0, 2⟩
def Reg.SEC_DEBUG.REVOKE : Fld := ⟨0xa030000, 2, 1⟩
def Reg.SEC_DEBUG.LAST_STATUS : Fld := ⟨0xa030000, 16, 16⟩
def Reg.LC_STATUS.STATE : Fld := ⟨0xa008000, 0, 2⟩
def Reg.LC_STATUS.NEXT : Fld := ⟨0xa008000, 2, 2⟩
def Reg.LC_STATUS.COMMITTING : Fld := ⟨0xa008000, 4, 1⟩
def Reg.LC_STATUS.ROLLED_FORWARD : Fld := ⟨0xa008000, 5, 1⟩
def Reg.LC_STATUS.CORRUPT : Fld := ⟨0xa008000, 6, 1⟩
def Reg.LC_STATUS.LOCKED : Fld := ⟨0xa008000, 7, 1⟩
def Reg.LC_STATUS.FAILS : Fld := ⟨0xa008000, 8, 4⟩
def Reg.LC_TOKEN.WORD (i : Nat) : Fld := ⟨0xa008010 + 0x4 * i, 0, 32⟩
def Reg.LC_CMD.TARGET : Fld := ⟨0xa008040, 0, 2⟩
def Reg.LC_CMD.GO : Fld := ⟨0xa008040, 31, 1⟩
def Reg.LC_RESULT.STATUS : Fld := ⟨0xa008048, 0, 16⟩
def Reg.LC_ROW.VALUE (r : Nat) : Fld := ⟨0xa008080 + 0x4 * r, 0, 32⟩
def Reg.MH_BOOT_STATUS.PHASE : Fld := ⟨0x100, 0, 4⟩
def Reg.MH_BOOT_STATUS.UNDRAINED : Fld := ⟨0x100, 4, 1⟩
def Reg.MH_BOOT_STATUS.IMAGE_SLOT : Fld := ⟨0x100, 5, 1⟩
def Reg.MH_BOOT_STATUS.IMAGE_STATUS : Fld := ⟨0x100, 16, 16⟩
def Reg.MH_BOOT_STATUS.BOOT_COUNT : Fld := ⟨0x100, 32, 32⟩
def Reg.MH_BOOT_TIME.READY_MS : Fld := ⟨0x108, 0, 16⟩
def Reg.MH_BOOT_TIME.HBM_MS : Fld := ⟨0x108, 16, 16⟩
def Reg.MH_RESET_CTRL.WARM : Fld := ⟨0x110, 0, 1⟩
def Reg.MH_RESET_CTRL.COLD : Fld := ⟨0x110, 1, 1⟩
def Reg.MH_RESET_CTRL.KEY : Fld := ⟨0x110, 16, 16⟩
def Reg.MH_IMAGE_KEY.DIGEST (i : Nat) : Fld := ⟨0x120 + 0x8 * i, 0, 64⟩
def Reg.MH_DEFECT_CTRL.COUNT : Fld := ⟨0x180, 0, 9⟩
def Reg.MH_DEFECT_CTRL.OVERFLOW : Fld := ⟨0x180, 9, 1⟩
def Reg.MH_DEFECT_CTRL.CLEAR : Fld := ⟨0x180, 10, 1⟩
def Reg.MH_PART_FORM.FORMED (p : Nat) : Fld := ⟨0x200 + 0x8 * p, 0, 1⟩
def Reg.MH_PART_FORM.IN_LAYOUT (p : Nat) : Fld := ⟨0x200 + 0x8 * p, 1, 1⟩
def Reg.MH_PART_FORM.STATUS (p : Nat) : Fld := ⟨0x200 + 0x8 * p, 16, 16⟩
def Reg.MH_PART_FORM.POSITIONS (p : Nat) : Fld := ⟨0x200 + 0x8 * p, 32, 6⟩
def Reg.MH_PART_FORM.SITES (p : Nat) : Fld := ⟨0x200 + 0x8 * p, 38, 5⟩
def Reg.MH_PART_FORM.GROUPS (p : Nat) : Fld := ⟨0x200 + 0x8 * p, 43, 6⟩
def Reg.MH_JOURNAL00.HANDLE (j : Nat) : Fld := ⟨0x1000 + 0x20 * j, 0, 32⟩
def Reg.MH_JOURNAL00.KIND (j : Nat) : Fld := ⟨0x1000 + 0x20 * j, 32, 3⟩
def Reg.MH_JOURNAL00.STATE (j : Nat) : Fld := ⟨0x1000 + 0x20 * j, 35, 3⟩
def Reg.MH_JOURNAL00.PHASE (j : Nat) : Fld := ⟨0x1000 + 0x20 * j, 38, 4⟩
def Reg.MH_JOURNAL00.STATUS (j : Nat) : Fld := ⟨0x1000 + 0x20 * j, 48, 16⟩
def Reg.MH_JOURNAL08.TARGET (j : Nat) : Fld := ⟨0x1008 + 0x20 * j, 0, 64⟩
def Reg.MH_JOURNAL10.PROGRESS (j : Nat) : Fld := ⟨0x1010 + 0x20 * j, 0, 64⟩
def Reg.MH_JOURNAL18.TIME (j : Nat) : Fld := ⟨0x1018 + 0x20 * j, 0, 64⟩
def Reg.MH_DEFECT00.SOURCE (i : Nat) : Fld := ⟨0x2000 + 0x10 * i, 0, 12⟩
def Reg.MH_DEFECT00.KIND (i : Nat) : Fld := ⟨0x2000 + 0x10 * i, 12, 2⟩
def Reg.MH_DEFECT00.PERMANENT (i : Nat) : Fld := ⟨0x2000 + 0x10 * i, 14, 1⟩
def Reg.MH_DEFECT00.VALID (i : Nat) : Fld := ⟨0x2000 + 0x10 * i, 15, 1⟩
def Reg.MH_DEFECT00.FAILS (i : Nat) : Fld := ⟨0x2000 + 0x10 * i, 16, 8⟩
def Reg.MH_DEFECT00.FIRST_BOOT (i : Nat) : Fld := ⟨0x2000 + 0x10 * i, 32, 32⟩
def Reg.MH_DEFECT08.LAST_BOOT (i : Nat) : Fld := ⟨0x2008 + 0x10 * i, 0, 32⟩
def Reg.HC_CTRL.CORE_RESET (pos : Nat) : Fld := ⟨0x2000000 + 0x100000 * pos, 0, 1⟩
def Reg.HC_STATUS.RESETTING (pos : Nat) : Fld := ⟨0x2000008 + 0x100000 * pos, 0, 1⟩
def Reg.HC_STATUS.LAST_STATUS (pos : Nat) : Fld := ⟨0x2000008 + 0x100000 * pos, 16, 16⟩
def Reg.PW_CFG.HUB_W : Fld := ⟨0xb000000, 0, 10⟩
def Reg.PW_CFG.PKG_W : Fld := ⟨0xb000000, 16, 12⟩
def Reg.PW_STATUS.HUB_MEAS : Fld := ⟨0xb000008, 0, 12⟩
def Reg.PW_STATUS.THROTTLE : Fld := ⟨0xb000008, 12, 4⟩
def Reg.PW_STATUS.OVERCOMMIT : Fld := ⟨0xb000008, 16, 1⟩
def Reg.PW_STATUS.CAL_CLAMP : Fld := ⟨0xb000008, 17, 1⟩
def Reg.PW_STATUS.DIP_AUTO : Fld := ⟨0xb000008, 18, 1⟩
def Reg.PW_DIP_CFG.AUTO_PCT : Fld := ⟨0xb000010, 0, 7⟩
def Reg.PW_DIP_CFG.AUTO_EN : Fld := ⟨0xb000010, 7, 1⟩
def Reg.PW_DIP_CFG.AUTO_US : Fld := ⟨0xb000010, 16, 16⟩
def Reg.PW_DIP.SITES : Fld := ⟨0xb000018, 0, 16⟩
def Reg.PW_DIP.PCT : Fld := ⟨0xb000018, 16, 7⟩
def Reg.PW_DIP.DURATION_US : Fld := ⟨0xb000018, 32, 16⟩
def Reg.PW_HM_BOUNDS.MIN_C : Fld := ⟨0xb000020, 0, 8⟩
def Reg.PW_HM_BOUNDS.MAX_C : Fld := ⟨0xb000020, 8, 8⟩
def Reg.PW_GATE_CFG.EN : Fld := ⟨0xb000028, 0, 1⟩
def Reg.PW_GATE_CFG.IDLE_US : Fld := ⟨0xb000028, 16, 16⟩
def Reg.PW_GATED.GATED (i : Nat) : Fld := ⟨0xb000040 + 0x8 * i, 0, 64⟩
def Reg.PW_SITE_CFG.WEIGHT (s : Nat) : Fld := ⟨0xb000100 + 0x10 * s, 0, 8⟩
def Reg.PW_SITE_CFG.HM_C (s : Nat) : Fld := ⟨0xb000100 + 0x10 * s, 8, 8⟩
def Reg.PW_SITE_CFG.LAT_ISOLATE_US (s : Nat) : Fld := ⟨0xb000100 + 0x10 * s, 16, 16⟩
def Reg.PW_SITE_STATUS.GRANT (s : Nat) : Fld := ⟨0xb000108 + 0x10 * s, 0, 12⟩
def Reg.PW_SITE_STATUS.REPORTED (s : Nat) : Fld := ⟨0xb000108 + 0x10 * s, 12, 12⟩
def Reg.PW_SITE_STATUS.SITE_TEMP (s : Nat) : Fld := ⟨0xb000108 + 0x10 * s, 24, 8⟩
def Reg.PW_SITE_STATUS.HALFMAST (s : Nat) : Fld := ⟨0xb000108 + 0x10 * s, 32, 1⟩
def Reg.PW_SITE_STATUS.HM_CAUSE (s : Nat) : Fld := ⟨0xb000108 + 0x10 * s, 33, 4⟩
def Reg.PW_SITE_STATUS.MISSED (s : Nat) : Fld := ⟨0xb000108 + 0x10 * s, 37, 2⟩
def Reg.PW_SITE_STATUS.DIPPED (s : Nat) : Fld := ⟨0xb000108 + 0x10 * s, 39, 1⟩
def Reg.PW_SITE_STATUS.BENEATH_C (s : Nat) : Fld := ⟨0xb000108 + 0x10 * s, 40, 8⟩
def Reg.CK_STATUS.ROOT_LOCK : Fld := ⟨0xb001000, 0, 1⟩
def Reg.CK_STATUS.PCIE_LOCK : Fld := ⟨0xb001000, 1, 1⟩
def Reg.CK_STATUS.HBM_LOCK : Fld := ⟨0xb001000, 2, 8⟩
def Reg.CK_STATUS.REACH_LOCK : Fld := ⟨0xb001000, 10, 4⟩
def Reg.CK_CAL.FACTORY (i : Nat) : Fld := ⟨0xb001100 + 0x4 * i, 0, 12⟩
def Reg.CK_CAL.DELTA (i : Nat) : Fld := ⟨0xb001100 + 0x4 * i, 12, 12⟩
def Reg.CK_CAL.BOUND (i : Nat) : Fld := ⟨0xb001100 + 0x4 * i, 24, 8⟩
def Reg.TH_CFG.HUB_THROTTLE_C : Fld := ⟨0xb002000, 0, 8⟩
def Reg.TH_CFG.TRIP_C : Fld := ⟨0xb002000, 8, 8⟩
def Reg.TH_SENSOR.TEMP (n : Nat) : Fld := ⟨0xb002100 + 0x4 * n, 0, 12⟩
def Reg.SEC_DEBUG_NONCE.WORD (i : Nat) : Fld := ⟨0xa030020 + 0x8 * i, 0, 64⟩
def Reg.SEC_DEBUG_GRANT.WORD (i : Nat) : Fld := ⟨0xa030100 + 0x4 * i, 0, 32⟩
/-- `MH_CORE_MAP0–3`: the byte of core position `pos` (01, MH_CORE_MAP). -/
def Reg.MH_CORE_MAP.PHYS (pos : Nat) : Fld := ⟨0x40 + 8 * (pos / 8), 8 * (pos % 8), 6⟩
def Reg.MH_CORE_MAP.VALID (pos : Nat) : Fld := ⟨0x40 + 8 * (pos / 8), 8 * (pos % 8) + 7, 1⟩
/-- `MH_CORE_STATE_LO/HI`: the two bits of physical core `c`. -/
def Reg.MH_CORE_STATE.STATE (c : Nat) : Fld :=
  if c < 32 then ⟨0x60, 2 * c, 2⟩ else ⟨0x68, 2 * (c - 32), 2⟩
/-- `HM_CHMAP0–7`: the entry of logical channel `k` of a stack. -/
def Reg.HM_CHMAP.PCH (stack k : Nat) : Fld := ⟨0x5000040 + 0x100000 * stack + 8 * (k / 4), 16 * (k % 4), 5⟩
def Reg.HM_CHMAP.PSTACK (stack k : Nat) : Fld := ⟨0x5000040 + 0x100000 * stack + 8 * (k / 4), 16 * (k % 4) + 5, 3⟩
def Reg.HM_CHMAP.STATE (stack k : Nat) : Fld := ⟨0x5000040 + 0x100000 * stack + 8 * (k / 4), 16 * (k % 4) + 8, 2⟩
/-- `ST_SWP_CORE_MAP0–7`: the byte of logical site core `c`. -/
def Reg.ST_SWP_CORE_MAP.PHYS (site c : Nat) : Fld := ⟨0x4000140 + 0x100000 * site + 8 * (c / 8), 8 * (c % 8), 6⟩
def Reg.ST_SWP_CORE_MAP.VALID (site c : Nat) : Fld := ⟨0x4000140 + 0x100000 * site + 8 * (c / 8), 8 * (c % 8) + 7, 1⟩
/-- The byte of ensign `e` in `HY_ENS_WEIGHT`, `HY_CEIL_MAX` and `HY_CEIL`. -/
def Reg.HY_ENS_WEIGHT.W (e : Nat) : Fld := ⟨0x7000080, 8 * e, 8⟩
def Reg.HY_CEIL_MAX.CEIL (port e : Nat) : Fld := ⟨0x7010008 + 0x80 * port, 8 * e, 8⟩
def Reg.HY_CEIL.CEIL (port e : Nat) : Fld := ⟨0x7010010 + 0x80 * port, 8 * e, 8⟩

/-- Registers of prefix MH_. -/
def Reg.specsMH : List RegSpec := [
  ⟨0x0, 1, 0x10000000000, 1, 0x10000000000, false, 0x1fa71680, [⟨0, 16, .fo, .free⟩, ⟨16, 16, .fo, .free⟩]⟩,
  ⟨0x4, 1, 0x10000000000, 1, 0x10000000000, false, 0x0, [⟨0, 8, .fo, .free⟩, ⟨8, 8, .fo, .free⟩]⟩,
  ⟨0x8, 1, 0x10000000000, 1, 0x10000000000, true, 0x0, [⟨0, 64, .fo, .free⟩]⟩,
  ⟨0x10, 1, 0x10000000000, 1, 0x10000000000, false, 0x10000, [⟨0, 1, .ro, .free⟩, ⟨1, 1, .ro, .free⟩, ⟨2, 1, .ro, .free⟩, ⟨3, 1, .ro, .free⟩, ⟨4, 1, .ro, .free⟩, ⟨5, 1, .ro, .free⟩, ⟨6, 1, .ro, .free⟩, ⟨7, 1, .w1c, .free⟩, ⟨16, 3, .ro, .free⟩]⟩,
  ⟨0x18, 1, 0x10000000000, 1, 0x10000000000, false, 0x0, [⟨0, 1, .w1s, .free⟩]⟩,
  ⟨0x20, 1, 0x10000000000, 1, 0x10000000000, false, 0x0, [⟨0, 16, .ro, .free⟩, ⟨16, 16, .ro, .free⟩]⟩,
  ⟨0x28, 1, 0x10000000000, 1, 0x10000000000, true, 0x0, [⟨0, 32, .ro, .free⟩, ⟨32, 16, .ro, .free⟩, ⟨48, 3, .ro, .free⟩]⟩,
  ⟨0x40, 1, 0x10000000000, 4, 0x8, true, 0x0, [⟨0, 6, .ro, .free⟩, ⟨7, 1, .ro, .free⟩, ⟨8, 6, .ro, .free⟩, ⟨15, 1, .ro, .free⟩, ⟨16, 6, .ro, .free⟩, ⟨23, 1, .ro, .free⟩, ⟨24, 6, .ro, .free⟩, ⟨31, 1, .ro, .free⟩, ⟨32, 6, .ro, .free⟩, ⟨39, 1, .ro, .free⟩, ⟨40, 6, .ro, .free⟩, ⟨47, 1, .ro, .free⟩, ⟨48, 6, .ro, .free⟩, ⟨55, 1, .ro, .free⟩, ⟨56, 6, .ro, .free⟩, ⟨63, 1, .ro, .free⟩]⟩,
  ⟨0x60, 1, 0x10000000000, 1, 0x10000000000, true, 0x0, [⟨0, 64, .ro, .free⟩]⟩,
  ⟨0x68, 1, 0x10000000000, 1, 0x10000000000, false, 0x0, [⟨0, 8, .ro, .free⟩]⟩,
  ⟨0x100, 1, 0x10000000000, 1, 0x10000000000, true, 0x0, [⟨0, 4, .ro, .free⟩, ⟨4, 1, .ro, .free⟩, ⟨5, 1, .ro, .free⟩, ⟨16, 16, .ro, .free⟩, ⟨32, 32, .ro, .free⟩]⟩,
  ⟨0x108, 1, 0x10000000000, 1, 0x10000000000, false, 0x0, [⟨0, 16, .ro, .free⟩, ⟨16, 16, .ro, .free⟩]⟩,
  ⟨0x110, 1, 0x10000000000, 1, 0x10000000000, false, 0x0, [⟨0, 1, .wo, .free⟩, ⟨1, 1, .wo, .free⟩, ⟨16, 16, .wo, .free⟩]⟩,
  ⟨0x120, 1, 0x10000000000, 6, 0x8, true, 0x0, [⟨0, 64, .fo, .free⟩]⟩,
  ⟨0x180, 1, 0x10000000000, 1, 0x10000000000, false, 0x0, [⟨0, 9, .ro, .free⟩, ⟨9, 1, .ro, .free⟩, ⟨10, 1, .wo, .free⟩]⟩,
  ⟨0x200, 1, 0x10000000000, 32, 0x8, true, 0x0, [⟨0, 1, .ro, .free⟩, ⟨1, 1, .ro, .free⟩, ⟨16, 16, .ro, .free⟩, ⟨32, 6, .ro, .free⟩, ⟨38, 5, .ro, .free⟩, ⟨43, 6, .ro, .free⟩]⟩,
  ⟨0x1000, 1, 0x10000000000, 64, 0x20, true, 0x0, [⟨0, 32, .ro, .free⟩, ⟨32, 3, .ro, .free⟩, ⟨35, 3, .ro, .free⟩, ⟨38, 4, .ro, .free⟩, ⟨48, 16, .ro, .free⟩]⟩,
  ⟨0x1008, 1, 0x10000000000, 64, 0x20, true, 0x0, [⟨0, 64, .ro, .free⟩]⟩,
  ⟨0x1010, 1, 0x10000000000, 64, 0x20, true, 0x0, [⟨0, 64, .ro, .free⟩]⟩,
  ⟨0x1018, 1, 0x10000000000, 64, 0x20, true, 0x0, [⟨0, 64, .ro, .free⟩]⟩]

/-- Registers of prefix MH_. -/
def Reg.specsMH1 : List RegSpec := [
  ⟨0x2000, 1, 0x10000000000, 256, 0x10, true, 0x0, [⟨0, 12, .ro, .free⟩, ⟨12, 2, .ro, .free⟩, ⟨14, 1, .ro, .free⟩, ⟨15, 1, .ro, .free⟩, ⟨16, 8, .ro, .free⟩, ⟨32, 32, .ro, .free⟩]⟩,
  ⟨0x2008, 1, 0x10000000000, 256, 0x10, true, 0x0, [⟨0, 32, .ro, .free⟩]⟩]

/-- Registers of prefix SH_. -/
def Reg.specsSH : List RegSpec := [
  ⟨0x6000000, 1, 0x10000000000, 1, 0x10000000000, false, 0x1, [⟨0, 1, .rw, .free⟩]⟩,
  ⟨0x6000008, 1, 0x10000000000, 1, 0x10000000000, false, 0x400, [⟨0, 16, .rw, .range 1 65535⟩]⟩,
  ⟨0x6000010, 1, 0x10000000000, 1, 0x10000000000, true, 0x0, [⟨0, 32, .ro, .free⟩]⟩,
  ⟨0x6000018, 1, 0x10000000000, 1, 0x10000000000, true, 0x0, [⟨0, 32, .ro, .free⟩]⟩,
  ⟨0x6000020, 1, 0x10000000000, 1, 0x10000000000, false, 0x0, [⟨0, 32, .rc, .free⟩]⟩,
  ⟨0x6000024, 1, 0x10000000000, 1, 0x10000000000, false, 0x0, [⟨0, 32, .rc, .free⟩]⟩,
  ⟨0x6000028, 1, 0x10000000000, 1, 0x10000000000, true, 0x0, [⟨0, 29, .ro, .free⟩, ⟨29, 10, .ro, .free⟩, ⟨39, 8, .ro, .free⟩, ⟨47, 1, .ro, .free⟩, ⟨48, 1, .w1c, .free⟩, ⟨49, 1, .w1c, .free⟩]⟩,
  ⟨0x6000030, 1, 0x10000000000, 1, 0x10000000000, false, 0x0, [⟨0, 17, .rw, .free⟩]⟩,
  ⟨0x6000034, 1, 0x10000000000, 1, 0x10000000000, false, 0x0, [⟨0, 18, .rw, .free⟩, ⟨30, 1, .wo, .free⟩, ⟨31, 1, .ro, .free⟩]⟩,
  ⟨0x6001000, 1, 0x10000000000, 512, 0x4, false, 0x0, [⟨0, 10, .ro, .free⟩, ⟨16, 1, .ro, .free⟩, ⟨17, 1, .ro, .free⟩, ⟨18, 1, .ro, .free⟩]⟩]

/-- Registers of prefix HM_. -/
def Reg.specsHM : List RegSpec := [
  ⟨0x5000000, 1, 0x10000000000, 8, 0x100000, false, 0x0, [⟨0, 1, .ro, .free⟩, ⟨1, 1, .ro, .free⟩, ⟨2, 2, .ro, .free⟩, ⟨4, 2, .ro, .free⟩, ⟨8, 8, .ro, .free⟩]⟩,
  ⟨0x5000008, 1, 0x10000000000, 8, 0x100000, false, 0x0, [⟨0, 6, .ro, .free⟩, ⟨6, 1, .ro, .free⟩, ⟨7, 1, .ro, .free⟩]⟩,
  ⟨0x5000040, 8, 0x100000, 8, 0x8, true, 0x0, [⟨0, 5, .ro, .free⟩, ⟨5, 3, .ro, .free⟩, ⟨8, 2, .ro, .free⟩, ⟨16, 5, .ro, .free⟩, ⟨21, 3, .ro, .free⟩, ⟨24, 2, .ro, .free⟩, ⟨32, 5, .ro, .free⟩, ⟨37, 3, .ro, .free⟩, ⟨40, 2, .ro, .free⟩, ⟨48, 5, .ro, .free⟩, ⟨53, 3, .ro, .free⟩, ⟨56, 2, .ro, .free⟩]⟩,
  ⟨0x5000080, 1, 0x10000000000, 8, 0x100000, false, 0x0, [⟨0, 32, .ro, .free⟩]⟩,
  ⟨0x5000100, 1, 0x10000000000, 8, 0x100000, false, 0x8180800, [⟨0, 14, .rw, .range 256 8192⟩, ⟨16, 6, .rw, .range 8 48⟩, ⟨24, 6, .rw, .free⟩]⟩,
  ⟨0x5000108, 1, 0x10000000000, 8, 0x100000, false, 0x40, [⟨0, 16, .rw, .range 1 65535⟩]⟩,
  ⟨0x5000110, 1, 0x10000000000, 8, 0x100000, false, 0x0, [⟨0, 8, .ro, .free⟩, ⟨8, 1, .ro, .free⟩]⟩,
  ⟨0x5000200, 1, 0x10000000000, 8, 0x100000, false, 0x0, [⟨0, 32, .rc, .free⟩]⟩,
  ⟨0x5000204, 1, 0x10000000000, 8, 0x100000, false, 0x0, [⟨0, 32, .rc, .free⟩]⟩,
  ⟨0x5000208, 1, 0x10000000000, 8, 0x100000, false, 0x0, [⟨0, 32, .rc, .free⟩]⟩,
  ⟨0x5000210, 1, 0x10000000000, 8, 0x100000, true, 0x0, [⟨0, 5, .ro, .free⟩, ⟨5, 1, .ro, .free⟩, ⟨6, 22, .ro, .free⟩, ⟨28, 2, .ro, .free⟩, ⟨30, 1, .ro, .free⟩, ⟨31, 1, .w1c, .free⟩, ⟨32, 1, .w1c, .free⟩]⟩,
  ⟨0x5000300, 1, 0x10000000000, 8, 0x100000, true, 0x800000000, [⟨0, 23, .ro, .free⟩, ⟨23, 5, .ro, .free⟩, ⟨28, 1, .ro, .free⟩, ⟨29, 3, .ro, .free⟩, ⟨32, 8, .rw, .range 1 255⟩]⟩,
  ⟨0x5000308, 1, 0x10000000000, 8, 0x100000, true, 0x800000000, [⟨0, 23, .ro, .free⟩, ⟨23, 5, .ro, .free⟩, ⟨28, 1, .ro, .free⟩, ⟨29, 3, .ro, .free⟩, ⟨32, 8, .rw, .range 1 255⟩]⟩,
  ⟨0x5080000, 1, 0x10000000000, 1, 0x10000000000, false, 0x0, [⟨0, 2, .rwl, .listed [0, 1, 2]⟩, ⟨2, 2, .rwl, .listed [0, 1, 2]⟩, ⟨4, 2, .rwl, .free⟩]⟩,
  ⟨0x5080008, 1, 0x10000000000, 1, 0x10000000000, true, 0x0, [⟨0, 20, .ro, .free⟩, ⟨20, 20, .rwl, .free⟩]⟩,
  ⟨0x5080010, 1, 0x10000000000, 1, 0x10000000000, false, 0x80000100, [⟨0, 16, .rw, .range 1 65535⟩, ⟨31, 1, .rw, .free⟩]⟩,
  ⟨0x5081000, 1, 0x10000000000, 64, 0x20, true, 0x0, [⟨0, 18, .rwl, .free⟩, ⟨18, 18, .rwl, .free⟩, ⟨36, 1, .rwl, .free⟩, ⟨37, 1, .rwl, .free⟩, ⟨38, 1, .rwl, .free⟩, ⟨39, 12, .rwl, .free⟩]⟩,
  ⟨0x5081008, 1, 0x10000000000, 64, 0x20, true, 0x0, [⟨0, 31, .rwl, .free⟩]⟩,
  ⟨0x5081010, 1, 0x10000000000, 64, 0x20, true, 0x0, [⟨0, 31, .rwl, .free⟩]⟩]

/-- Registers of prefix SL_. -/
def Reg.specsSL : List RegSpec := [
  ⟨0xd000100, 4096, 0x1000, 4, 0x40, true, 0x0, [⟨0, 64, .rw, .free⟩]⟩,
  ⟨0xd000108, 4096, 0x1000, 4, 0x40, false, 0x1004, [⟨0, 4, .rw, .range 4 16⟩, ⟨4, 5, .rw, .free⟩, ⟨9, 3, .rw, .range 1 7⟩, ⟨12, 1, .rw, .free⟩, ⟨13, 8, .rw, .free⟩]⟩,
  ⟨0xd00010c, 4096, 0x1000, 4, 0x40, false, 0x0, [⟨0, 1, .rw, .free⟩, ⟨1, 1, .rw, .free⟩, ⟨2, 1, .wo, .free⟩, ⟨3, 1, .wo, .free⟩]⟩,
  ⟨0xd000110, 4096, 0x1000, 4, 0x40, false, 0x0, [⟨0, 17, .ro, .free⟩]⟩,
  ⟨0xd000114, 4096, 0x1000, 4, 0x40, false, 0x0, [⟨0, 17, .ro, .free⟩]⟩,
  ⟨0xd000118, 4096, 0x1000, 4, 0x40, false, 0x0, [⟨0, 17, .wo, .free⟩]⟩,
  ⟨0xd00011c, 4096, 0x1000, 4, 0x40, false, 0x0, [⟨0, 2, .ro, .free⟩, ⟨2, 1, .w1c, .free⟩, ⟨3, 1, .w1c, .free⟩, ⟨4, 6, .ro, .free⟩, ⟨10, 4, .ro, .free⟩, ⟨16, 16, .ro, .free⟩]⟩,
  ⟨0xd000120, 4096, 0x1000, 4, 0x40, true, 0x0, [⟨0, 17, .ro, .free⟩, ⟨32, 16, .ro, .free⟩, ⟨48, 4, .ro, .free⟩]⟩,
  ⟨0xd000128, 4096, 0x1000, 4, 0x40, true, 0x0, [⟨0, 64, .rw, .free⟩]⟩,
  ⟨0xd000200, 1, 0x10000000000, 4096, 0x1000, true, 0x0, [⟨0, 64, .rw, .free⟩]⟩,
  ⟨0xd000208, 1, 0x10000000000, 4096, 0x1000, false, 0x1010006, [⟨0, 4, .rw, .range 6 16⟩, ⟨4, 1, .rw, .free⟩, ⟨8, 8, .rw, .range 0 127⟩, ⟨16, 8, .rw, .range 1 255⟩, ⟨24, 8, .rw, .free⟩]⟩,
  ⟨0xd000210, 1, 0x10000000000, 4096, 0x1000, false, 0x0, [⟨0, 17, .rw, .free⟩]⟩,
  ⟨0xd000214, 1, 0x10000000000, 4096, 0x1000, false, 0x0, [⟨0, 17, .ro, .free⟩]⟩,
  ⟨0xd000218, 1, 0x10000000000, 4096, 0x1000, false, 0x0, [⟨0, 1, .ro, .free⟩, ⟨16, 16, .rc, .free⟩]⟩,
  ⟨0xd000240, 1, 0x10000000000, 4096, 0x1000, false, 0xf, [⟨0, 4, .rw, .free⟩]⟩,
  ⟨0xd000248, 1, 0x10000000000, 4096, 0x1000, true, 0x0, [⟨0, 32, .ro, .free⟩, ⟨32, 12, .ro, .free⟩, ⟨44, 1, .ro, .free⟩]⟩,
  ⟨0xd000250, 1, 0x10000000000, 4096, 0x1000, false, 0x0, [⟨0, 16, .ro, .free⟩, ⟨16, 9, .ro, .free⟩, ⟨28, 4, .ro, .free⟩]⟩,
  ⟨0xd000000, 1, 0x10000000000, 4096, 0x1000, true, 0xa00000000, [⟨0, 20, .rw, .free⟩, ⟨20, 5, .rw, .free⟩, ⟨32, 8, .rw, .free⟩]⟩,
  ⟨0xd000008, 1, 0x10000000000, 4096, 0x1000, false, 0x0, [⟨0, 3, .ro, .free⟩, ⟨16, 16, .ro, .free⟩]⟩,
  ⟨0xd00000c, 1, 0x10000000000, 4096, 0x1000, false, 0x0, [⟨0, 16, .ro, .free⟩, ⟨16, 1, .ro, .free⟩, ⟨17, 1, .ro, .free⟩]⟩]

/-- Registers of prefix SL_. -/
def Reg.specsSL1 : List RegSpec := [
  ⟨0xd000010, 1, 0x10000000000, 4096, 0x1000, false, 0x0, [⟨0, 9, .rw, .range 0 256⟩, ⟨9, 9, .rw, .range 1 256⟩, ⟨18, 4, .rw, .range 1 8⟩]⟩,
  ⟨0xd000040, 4096, 0x1000, 8, 0x10, true, 0x0, [⟨12, 36, .rw, .free⟩]⟩,
  ⟨0xd000048, 4096, 0x1000, 8, 0x10, true, 0x0, [⟨0, 36, .rw, .free⟩, ⟨36, 1, .rw, .free⟩, ⟨37, 1, .rw, .free⟩, ⟨38, 1, .rw, .free⟩, ⟨39, 1, .rw, .free⟩]⟩,
  ⟨0xd000300, 4096, 0x1000, 8, 0x8, true, 0x0, [⟨0, 64, .ro, .free⟩]⟩,
  ⟨0xd000340, 4096, 0x1000, 8, 0x8, true, 0x0, [⟨0, 64, .rw, .free⟩]⟩,
  ⟨0xd000380, 1, 0x10000000000, 4096, 0x1000, false, 0x0, [⟨0, 1, .ro, .free⟩, ⟨1, 1, .wo, .free⟩, ⟨2, 1, .wo, .free⟩, ⟨3, 1, .w1c, .free⟩, ⟨4, 11, .rw, .free⟩, ⟨16, 7, .rw, .free⟩]⟩,
  ⟨0xd000800, 1, 0x10000000000, 1, 0x10000000000, false, 0x0, [⟨0, 4, .rw, .listed [1, 2, 3, 4, 5, 6, 7, 8, 9]⟩, ⟨16, 12, .rw, .free⟩, ⟨31, 1, .wo, .free⟩]⟩,
  ⟨0xd000808, 1, 0x10000000000, 1, 0x10000000000, true, 0x0, [⟨0, 64, .rw, .free⟩]⟩,
  ⟨0xd000810, 1, 0x10000000000, 1, 0x10000000000, true, 0x0, [⟨0, 12, .rw, .free⟩, ⟨12, 1, .rw, .free⟩, ⟨13, 5, .rw, .free⟩, ⟨18, 3, .rw, .free⟩, ⟨24, 40, .rw, .free⟩]⟩,
  ⟨0xd000818, 1, 0x10000000000, 1, 0x10000000000, true, 0x0, [⟨0, 16, .ro, .free⟩, ⟨32, 32, .ro, .free⟩]⟩,
  ⟨0xd000900, 1, 0x10000000000, 32, 0x8, true, 0x0, [⟨0, 12, .ro, .free⟩, ⟨12, 1, .ro, .free⟩, ⟨13, 1, .ro, .free⟩, ⟨16, 13, .ro, .free⟩]⟩]

/-- Registers of prefix XF_. -/
def Reg.specsXF : List RegSpec := [
  ⟨0x2010000, 1, 0x10000000000, 32, 0x100000, false, 0x1008, [⟨0, 4, .rw, .range 1 8⟩, ⟨8, 5, .rw, .range 1 16⟩]⟩,
  ⟨0x2010008, 1, 0x10000000000, 32, 0x100000, false, 0x0, [⟨0, 8, .ro, .free⟩, ⟨8, 8, .ro, .free⟩]⟩,
  ⟨0x2010100, 32, 0x100000, 8, 0x10, true, 0x0, [⟨0, 12, .ro, .free⟩, ⟨12, 2, .ro, .free⟩, ⟨16, 40, .ro, .free⟩]⟩,
  ⟨0x2010108, 32, 0x100000, 8, 0x10, true, 0x0, [⟨0, 64, .ro, .free⟩]⟩,
  ⟨0x2010200, 1, 0x10000000000, 32, 0x100000, true, 0x0, [⟨0, 64, .rc, .free⟩]⟩,
  ⟨0x2010208, 1, 0x10000000000, 32, 0x100000, true, 0x0, [⟨0, 64, .rc, .free⟩]⟩,
  ⟨0x2010210, 1, 0x10000000000, 32, 0x100000, false, 0x0, [⟨0, 32, .rc, .free⟩]⟩,
  ⟨0x2010214, 1, 0x10000000000, 32, 0x100000, false, 0x0, [⟨0, 32, .rc, .free⟩]⟩,
  ⟨0x2010218, 1, 0x10000000000, 32, 0x100000, false, 0x0, [⟨0, 32, .rc, .free⟩]⟩,
  ⟨0x201021c, 1, 0x10000000000, 32, 0x100000, false, 0x0, [⟨0, 32, .rc, .free⟩]⟩,
  ⟨0x2010240, 1, 0x10000000000, 32, 0x100000, true, 0x0, [⟨0, 16, .ro, .free⟩, ⟨16, 12, .ro, .free⟩, ⟨28, 12, .ro, .free⟩, ⟨40, 3, .ro, .free⟩, ⟨43, 1, .w1c, .free⟩, ⟨44, 1, .w1c, .free⟩]⟩,
  ⟨0x2010248, 1, 0x10000000000, 32, 0x100000, true, 0x0, [⟨0, 64, .ro, .free⟩]⟩]

/-- Registers of prefix VE_. -/
def Reg.specsVE : List RegSpec := [
  ⟨0x2020000, 1, 0x10000000000, 32, 0x100000, false, 0x1c, [⟨0, 6, .rw, .range 16 40⟩]⟩,
  ⟨0x2020008, 1, 0x10000000000, 32, 0x100000, true, 0x0, [⟨0, 1, .ro, .free⟩, ⟨1, 1, .ro, .free⟩, ⟨16, 12, .ro, .free⟩, ⟨32, 14, .ro, .free⟩]⟩,
  ⟨0x2020010, 1, 0x10000000000, 32, 0x100000, true, 0x0, [⟨0, 64, .ro, .free⟩]⟩,
  ⟨0x2020018, 1, 0x10000000000, 32, 0x100000, false, 0x0, [⟨0, 7, .ro, .free⟩]⟩,
  ⟨0x2020020, 1, 0x10000000000, 32, 0x100000, true, 0x0, [⟨0, 64, .rc, .free⟩]⟩,
  ⟨0x2020028, 1, 0x10000000000, 32, 0x100000, true, 0x0, [⟨0, 64, .rc, .free⟩]⟩,
  ⟨0x2020030, 1, 0x10000000000, 32, 0x100000, false, 0x0, [⟨0, 32, .rc, .free⟩]⟩,
  ⟨0x2020040, 1, 0x10000000000, 32, 0x100000, true, 0x0, [⟨0, 16, .ro, .free⟩, ⟨16, 12, .ro, .free⟩, ⟨28, 14, .ro, .free⟩, ⟨42, 1, .w1c, .free⟩, ⟨43, 1, .w1c, .free⟩]⟩,
  ⟨0x2020048, 1, 0x10000000000, 32, 0x100000, true, 0x0, [⟨0, 64, .ro, .free⟩]⟩]

/-- Registers of prefix RD_. -/
def Reg.specsRD : List RegSpec := [
  ⟨0x2030000, 1, 0x10000000000, 32, 0x100000, false, 0x3e8, [⟨0, 16, .rw, .range 1 65535⟩]⟩,
  ⟨0x2030008, 1, 0x10000000000, 32, 0x100000, true, 0x0, [⟨0, 1, .ro, .free⟩, ⟨1, 1, .ro, .free⟩, ⟨16, 12, .ro, .free⟩, ⟨32, 32, .ro, .free⟩]⟩,
  ⟨0x2030010, 1, 0x10000000000, 32, 0x100000, true, 0x0, [⟨0, 64, .rc, .free⟩]⟩,
  ⟨0x2030018, 1, 0x10000000000, 32, 0x100000, true, 0x0, [⟨0, 64, .rc, .free⟩]⟩,
  ⟨0x2030040, 1, 0x10000000000, 32, 0x100000, true, 0x0, [⟨0, 16, .ro, .free⟩, ⟨16, 12, .ro, .free⟩, ⟨28, 8, .ro, .free⟩, ⟨36, 1, .ro, .free⟩, ⟨37, 1, .w1c, .free⟩, ⟨38, 1, .w1c, .free⟩]⟩,
  ⟨0x2030048, 1, 0x10000000000, 32, 0x100000, true, 0x0, [⟨0, 64, .ro, .free⟩]⟩]

/-- Registers of prefix ST_. -/
def Reg.specsST : List RegSpec := [
  ⟨0x4000000, 1, 0x10000000000, 16, 0x100000, false, 0x1e, [⟨0, 1, .rwl, .free⟩, ⟨1, 1, .rw, .free⟩, ⟨2, 2, .rwl, .listed [1, 2, 3]⟩, ⟨4, 2, .rwl, .listed [1, 2, 3]⟩]⟩,
  ⟨0x4000008, 1, 0x10000000000, 16, 0x100000, false, 0x0, [⟨0, 1, .wo, .free⟩, ⟨1, 1, .wo, .free⟩, ⟨2, 1, .rw, .free⟩]⟩,
  ⟨0x4000010, 1, 0x10000000000, 16, 0x100000, false, 0x0, [⟨0, 4, .ro, .free⟩, ⟨8, 8, .ro, .free⟩, ⟨16, 2, .ro, .free⟩, ⟨18, 1, .ro, .free⟩, ⟨19, 2, .ro, .free⟩]⟩,
  ⟨0x4000018, 1, 0x10000000000, 16, 0x100000, false, 0x0, [⟨0, 8, .ro, .free⟩, ⟨16, 16, .ro, .free⟩]⟩,
  ⟨0x4000020, 1, 0x10000000000, 16, 0x100000, true, 0x0, [⟨0, 4, .ro, .free⟩, ⟨4, 1, .w1c, .free⟩, ⟨5, 1, .w1c, .free⟩, ⟨16, 16, .ro, .free⟩, ⟨32, 16, .ro, .free⟩]⟩,
  ⟨0x4000028, 1, 0x10000000000, 16, 0x100000, false, 0x0, [⟨0, 32, .rc, .free⟩]⟩,
  ⟨0x400002c, 1, 0x10000000000, 16, 0x100000, false, 0x0, [⟨0, 32, .rc, .free⟩]⟩,
  ⟨0x4000030, 1, 0x10000000000, 16, 0x100000, false, 0x0, [⟨0, 32, .rc, .free⟩]⟩,
  ⟨0x4000040, 1, 0x10000000000, 16, 0x100000, true, 0x0, [⟨0, 64, .rc, .free⟩]⟩,
  ⟨0x4000100, 1, 0x10000000000, 16, 0x100000, false, 0x10a07, [⟨0, 3, .rw, .range 1 7⟩, ⟨8, 8, .rw, .range 1 255⟩, ⟨16, 8, .rw, .range 1 255⟩, ⟨24, 7, .rwl, .range 0 64⟩]⟩,
  ⟨0x4000108, 1, 0x10000000000, 16, 0x100000, false, 0x0, [⟨0, 16, .ro, .free⟩, ⟨16, 8, .ro, .free⟩]⟩,
  ⟨0x4000110, 1, 0x10000000000, 16, 0x100000, true, 0x0, [⟨0, 16, .rwl, .free⟩, ⟨16, 16, .rwl, .free⟩, ⟨32, 1, .rwl, .free⟩]⟩,
  ⟨0x4000140, 16, 0x100000, 8, 0x8, true, 0x0, [⟨0, 6, .ro, .free⟩, ⟨7, 1, .ro, .free⟩, ⟨8, 6, .ro, .free⟩, ⟨15, 1, .ro, .free⟩, ⟨16, 6, .ro, .free⟩, ⟨23, 1, .ro, .free⟩, ⟨24, 6, .ro, .free⟩, ⟨31, 1, .ro, .free⟩, ⟨32, 6, .ro, .free⟩, ⟨39, 1, .ro, .free⟩, ⟨40, 6, .ro, .free⟩, ⟨47, 1, .ro, .free⟩, ⟨48, 6, .ro, .free⟩, ⟨55, 1, .ro, .free⟩, ⟨56, 6, .ro, .free⟩, ⟨63, 1, .ro, .free⟩]⟩,
  ⟨0x4000180, 1, 0x10000000000, 16, 0x100000, true, 0x0, [⟨0, 64, .rc, .free⟩]⟩,
  ⟨0x4000188, 1, 0x10000000000, 16, 0x100000, true, 0x0, [⟨0, 64, .rc, .free⟩]⟩,
  ⟨0x4000190, 1, 0x10000000000, 16, 0x100000, false, 0x0, [⟨0, 32, .rc, .free⟩]⟩,
  ⟨0x4000194, 1, 0x10000000000, 16, 0x100000, false, 0x0, [⟨0, 32, .rc, .free⟩]⟩,
  ⟨0x40001a0, 1, 0x10000000000, 16, 0x100000, true, 0x0, [⟨0, 8, .ro, .free⟩, ⟨8, 12, .ro, .free⟩, ⟨20, 16, .ro, .free⟩, ⟨36, 6, .ro, .free⟩, ⟨42, 1, .w1c, .free⟩, ⟨43, 1, .w1c, .free⟩]⟩,
  ⟨0x4000200, 16, 0x100000, 32, 0x8, true, 0x0, [⟨0, 64, .ro, .free⟩]⟩]

/-- Registers of prefix CO_. -/
def Reg.specsCO : List RegSpec := [
  ⟨0x8000000, 1, 0x10000000000, 1, 0x10000000000, false, 0xac80a0, [⟨0, 10, .rw, .free⟩, ⟨10, 10, .rw, .free⟩, ⟨20, 8, .rw, .range 1 255⟩]⟩,
  ⟨0x8000004, 1, 0x10000000000, 1, 0x10000000000, false, 0x14, [⟨0, 16, .rw, .range 4 65535⟩]⟩,
  ⟨0x8000008, 1, 0x10000000000, 1, 0x10000000000, false, 0x3ff0000, [⟨0, 10, .rwl, .free⟩, ⟨16, 10, .rwl, .free⟩]⟩,
  ⟨0x8000010, 1, 0x10000000000, 1, 0x10000000000, false, 0x0, [⟨0, 10, .ro, .free⟩, ⟨10, 1, .ro, .free⟩, ⟨11, 1, .ro, .free⟩, ⟨16, 16, .ro, .free⟩]⟩,
  ⟨0x8000020, 1, 0x10000000000, 1, 0x10000000000, false, 0x0, [⟨0, 16, .rc, .free⟩, ⟨16, 16, .ro, .free⟩]⟩,
  ⟨0x8000028, 1, 0x10000000000, 1, 0x10000000000, true, 0x0, [⟨0, 32, .ro, .free⟩, ⟨32, 32, .ro, .free⟩]⟩,
  ⟨0x8000040, 1, 0x10000000000, 1, 0x10000000000, true, 0x0, [⟨0, 64, .rc, .free⟩]⟩,
  ⟨0x8000048, 1, 0x10000000000, 1, 0x10000000000, true, 0x0, [⟨0, 64, .rc, .free⟩]⟩,
  ⟨0x8000050, 1, 0x10000000000, 1, 0x10000000000, false, 0x0, [⟨0, 32, .rc, .free⟩]⟩,
  ⟨0x8000054, 1, 0x10000000000, 1, 0x10000000000, false, 0x0, [⟨0, 32, .rc, .free⟩]⟩,
  ⟨0x8000058, 1, 0x10000000000, 1, 0x10000000000, false, 0x0, [⟨0, 32, .rc, .free⟩]⟩,
  ⟨0x800005c, 1, 0x10000000000, 1, 0x10000000000, false, 0x0, [⟨0, 32, .rc, .free⟩]⟩,
  ⟨0x8000100, 1, 0x10000000000, 16, 0x10, true, 0x0, [⟨0, 27, .rwl, .free⟩, ⟨27, 27, .rwl, .range 1 134217727⟩, ⟨54, 1, .rwl, .free⟩, ⟨55, 1, .rwl, .free⟩, ⟨56, 5, .rwl, .free⟩]⟩,
  ⟨0x8000108, 1, 0x10000000000, 16, 0x10, true, 0x0, [⟨0, 16, .rwl, .free⟩]⟩,
  ⟨0x8000300, 1, 0x10000000000, 1, 0x10000000000, true, 0x0, [⟨0, 4, .ro, .free⟩, ⟨4, 10, .ro, .free⟩, ⟨14, 1, .w1c, .free⟩, ⟨15, 1, .w1c, .free⟩]⟩,
  ⟨0x8000308, 1, 0x10000000000, 1, 0x10000000000, true, 0x0, [⟨0, 48, .ro, .free⟩]⟩]

/-- Registers of prefix XL_. -/
def Reg.specsXL : List RegSpec := [
  ⟨0xf000000, 1, 0x10000000000, 1, 0x10000000000, false, 0x1, [⟨0, 1, .rw, .free⟩, ⟨1, 1, .wo, .free⟩, ⟨2, 1, .wo, .free⟩]⟩,
  ⟨0xf000008, 1, 0x10000000000, 1, 0x10000000000, false, 0x40, [⟨0, 9, .rw, .range 1 256⟩]⟩,
  ⟨0xf000010, 1, 0x10000000000, 1, 0x10000000000, false, 0x2003e8, [⟨0, 16, .rw, .range 1 65535⟩, ⟨16, 6, .rw, .range 1 32⟩]⟩,
  ⟨0xf000018, 1, 0x10000000000, 1, 0x10000000000, true, 0x0, [⟨0, 9, .ro, .free⟩, ⟨10, 15, .ro, .free⟩, ⟨25, 11, .ro, .free⟩]⟩,
  ⟨0xf000040, 1, 0x10000000000, 1, 0x10000000000, true, 0x0, [⟨0, 64, .rc, .free⟩]⟩,
  ⟨0xf000048, 1, 0x10000000000, 1, 0x10000000000, true, 0x0, [⟨0, 64, .rc, .free⟩]⟩,
  ⟨0xf000050, 1, 0x10000000000, 1, 0x10000000000, true, 0x0, [⟨0, 64, .rc, .free⟩]⟩,
  ⟨0xf000058, 1, 0x10000000000, 1, 0x10000000000, false, 0x0, [⟨0, 32, .rc, .free⟩]⟩,
  ⟨0xf00005c, 1, 0x10000000000, 1, 0x10000000000, false, 0x0, [⟨0, 32, .rc, .free⟩]⟩,
  ⟨0xf000060, 1, 0x10000000000, 1, 0x10000000000, false, 0x0, [⟨0, 32, .rc, .free⟩]⟩,
  ⟨0xf000064, 1, 0x10000000000, 1, 0x10000000000, false, 0x0, [⟨0, 32, .rc, .free⟩]⟩,
  ⟨0xf000100, 1, 0x10000000000, 1, 0x10000000000, true, 0x0, [⟨0, 4, .ro, .free⟩, ⟨4, 4, .ro, .free⟩, ⟨8, 5, .ro, .free⟩, ⟨13, 12, .ro, .free⟩, ⟨25, 2, .ro, .free⟩, ⟨27, 1, .w1c, .free⟩, ⟨28, 1, .w1c, .free⟩]⟩,
  ⟨0xf000108, 1, 0x10000000000, 1, 0x10000000000, true, 0x0, [⟨0, 64, .ro, .free⟩]⟩,
  ⟨0xf000200, 1, 0x10000000000, 1, 0x10000000000, false, 0x644000, [⟨0, 16, .rw, .range 1 65535⟩, ⟨16, 16, .rw, .range 1 65535⟩]⟩,
  ⟨0xf000208, 1, 0x10000000000, 1, 0x10000000000, true, 0x0, [⟨0, 64, .rw, .free⟩]⟩,
  ⟨0xf000210, 1, 0x10000000000, 1, 0x10000000000, false, 0x6, [⟨0, 4, .rw, .range 6 16⟩, ⟨4, 1, .rw, .free⟩]⟩,
  ⟨0xf000214, 1, 0x10000000000, 1, 0x10000000000, false, 0x0, [⟨0, 17, .rw, .free⟩]⟩,
  ⟨0xf000218, 1, 0x10000000000, 1, 0x10000000000, false, 0x0, [⟨0, 17, .ro, .free⟩]⟩,
  ⟨0xf00021c, 1, 0x10000000000, 1, 0x10000000000, false, 0x0, [⟨0, 32, .rc, .free⟩]⟩,
  ⟨0xf010000, 1, 0x10000000000, 4096, 0x10, true, 0x0, [⟨0, 45, .rw, .free⟩, ⟨63, 1, .rw, .free⟩]⟩]

/-- Registers of prefix XL_. -/
def Reg.specsXL1 : List RegSpec := [
  ⟨0xf010008, 1, 0x10000000000, 4096, 0x10, true, 0x0, [⟨0, 45, .rw, .free⟩]⟩]

/-- Registers of prefix DN_. -/
def Reg.specsDN : List RegSpec := [
  ⟨0xe000000, 1, 0x10000000000, 1, 0x10000000000, true, 0x0, [⟨0, 1, .ro, .free⟩, ⟨1, 1, .ro, .free⟩, ⟨2, 1, .ro, .free⟩, ⟨3, 1, .ro, .free⟩, ⟨16, 16, .ro, .free⟩, ⟨32, 16, .rc, .free⟩, ⟨48, 16, .ro, .free⟩]⟩,
  ⟨0xe000008, 1, 0x10000000000, 1, 0x10000000000, false, 0x0, [⟨0, 1, .wo, .free⟩]⟩,
  ⟨0xe000010, 1, 0x10000000000, 1, 0x10000000000, true, 0x0, [⟨0, 64, .rw, .free⟩]⟩,
  ⟨0xe000018, 1, 0x10000000000, 1, 0x10000000000, true, 0x0, [⟨0, 5, .rw, .free⟩, ⟨5, 4, .rw, .free⟩, ⟨9, 1, .wo, .free⟩, ⟨10, 1, .wo, .free⟩, ⟨11, 1, .ro, .free⟩, ⟨32, 16, .ro, .free⟩]⟩,
  ⟨0xe001000, 1, 0x10000000000, 32, 0x20, true, 0x0, [⟨0, 48, .rw, .free⟩]⟩,
  ⟨0xe001008, 1, 0x10000000000, 32, 0x20, true, 0x0, [⟨0, 24, .rw, .free⟩, ⟨24, 12, .rw, .free⟩, ⟨36, 9, .rw, .range 0 256⟩, ⟨45, 16, .rw, .range 1 65535⟩]⟩,
  ⟨0xe001010, 1, 0x10000000000, 32, 0x20, true, 0x0, [⟨0, 29, .rw, .free⟩, ⟨29, 12, .rw, .range 0 4095⟩, ⟨41, 22, .rw, .free⟩]⟩,
  ⟨0xe002000, 1, 0x10000000000, 32, 0x10, true, 0x0, [⟨0, 9, .ro, .free⟩, ⟨32, 24, .ro, .free⟩, ⟨56, 8, .rc, .free⟩]⟩,
  ⟨0xe010000, 1, 0x10000000000, 4096, 0x40, true, 0x0, [⟨0, 64, .rw, .free⟩]⟩,
  ⟨0xe010008, 1, 0x10000000000, 4096, 0x40, true, 0x0, [⟨0, 64, .rw, .free⟩]⟩,
  ⟨0xe010010, 1, 0x10000000000, 4096, 0x40, true, 0x0, [⟨0, 64, .rw, .free⟩]⟩,
  ⟨0xe010018, 1, 0x10000000000, 4096, 0x40, false, 0x0, [⟨0, 4, .rw, .range 4 16⟩, ⟨4, 4, .rw, .range 6 16⟩, ⟨8, 1, .rw, .free⟩, ⟨9, 1, .rw, .free⟩, ⟨10, 7, .rw, .free⟩, ⟨17, 8, .rw, .range 1 255⟩]⟩,
  ⟨0xe01001c, 1, 0x10000000000, 4096, 0x40, false, 0x0, [⟨0, 16, .rw, .free⟩, ⟨16, 8, .rw, .free⟩]⟩,
  ⟨0xe010020, 1, 0x10000000000, 4096, 0x40, true, 0x0, [⟨0, 2, .ro, .free⟩, ⟨16, 16, .ro, .free⟩, ⟨32, 9, .ro, .free⟩]⟩,
  ⟨0xe010028, 1, 0x10000000000, 4096, 0x40, true, 0x0, [⟨0, 17, .ro, .free⟩, ⟨32, 17, .ro, .free⟩]⟩,
  ⟨0xe010030, 1, 0x10000000000, 4096, 0x40, true, 0x0, [⟨0, 17, .ro, .free⟩, ⟨32, 17, .ro, .free⟩]⟩,
  ⟨0xe010038, 1, 0x10000000000, 4096, 0x40, true, 0x0, [⟨0, 64, .rw, .free⟩]⟩]

/-- Registers of prefix HY_. -/
def Reg.specsHY : List RegSpec := [
  ⟨0x7000000, 1, 0x10000000000, 1, 0x10000000000, false, 0x3e8, [⟨0, 16, .rw, .range 1 65535⟩]⟩,
  ⟨0x7000008, 1, 0x10000000000, 1, 0x10000000000, false, 0x0, [⟨0, 8, .ro, .free⟩, ⟨8, 1, .ro, .free⟩]⟩,
  ⟨0x7000010, 1, 0x10000000000, 1, 0x10000000000, false, 0x0, [⟨0, 32, .rc, .free⟩]⟩,
  ⟨0x7000014, 1, 0x10000000000, 1, 0x10000000000, false, 0x0, [⟨0, 32, .rc, .free⟩]⟩,
  ⟨0x7000018, 1, 0x10000000000, 1, 0x10000000000, false, 0x0, [⟨0, 32, .rc, .free⟩]⟩,
  ⟨0x700001c, 1, 0x10000000000, 1, 0x10000000000, false, 0x0, [⟨0, 32, .rc, .free⟩]⟩,
  ⟨0x7000020, 1, 0x10000000000, 1, 0x10000000000, false, 0x0, [⟨0, 32, .rc, .free⟩]⟩,
  ⟨0x7000040, 1, 0x10000000000, 1, 0x10000000000, true, 0x0, [⟨0, 5, .ro, .free⟩, ⟨5, 3, .ro, .free⟩, ⟨8, 7, .ro, .free⟩, ⟨15, 3, .ro, .free⟩, ⟨18, 1, .w1c, .free⟩, ⟨19, 1, .w1c, .free⟩]⟩,
  ⟨0x7000080, 1, 0x10000000000, 1, 0x10000000000, true, 0x101010101010100, [⟨8, 8, .rwl, .range 1 255⟩, ⟨16, 8, .rwl, .range 1 255⟩, ⟨24, 8, .rwl, .range 1 255⟩, ⟨32, 8, .rwl, .range 1 255⟩, ⟨40, 8, .rwl, .range 1 255⟩, ⟨48, 8, .rwl, .range 1 255⟩, ⟨56, 8, .rwl, .range 1 255⟩]⟩,
  ⟨0x7000100, 1, 0x10000000000, 1, 0x10000000000, false, 0x0, [⟨0, 1, .wo, .free⟩]⟩,
  ⟨0x7010000, 1, 0x10000000000, 105, 0x80, false, 0x0, [⟨0, 8, .rwl, .free⟩, ⟨8, 3, .rwl, .free⟩]⟩,
  ⟨0x7010008, 1, 0x10000000000, 105, 0x80, true, 0x0, [⟨8, 8, .rwl, .free⟩, ⟨16, 8, .rwl, .free⟩, ⟨24, 8, .rwl, .free⟩, ⟨32, 8, .rwl, .free⟩, ⟨40, 8, .rwl, .free⟩, ⟨48, 8, .rwl, .free⟩, ⟨56, 8, .rwl, .free⟩]⟩,
  ⟨0x7010010, 1, 0x10000000000, 105, 0x80, true, 0x0, [⟨8, 8, .rw, .free⟩, ⟨16, 8, .rw, .free⟩, ⟨24, 8, .rw, .free⟩, ⟨32, 8, .rw, .free⟩, ⟨40, 8, .rw, .free⟩, ⟨48, 8, .rw, .free⟩, ⟨56, 8, .rw, .free⟩]⟩,
  ⟨0x7010028, 105, 0x80, 7, 0x8, true, 0x0, [⟨0, 12, .rw, .free⟩, ⟨12, 12, .rwl, .free⟩, ⟨24, 8, .rw, .range 1 255⟩, ⟨32, 24, .ro, .free⟩]⟩,
  ⟨0x7010060, 1, 0x10000000000, 105, 0x80, false, 0x0, [⟨0, 32, .ro, .free⟩]⟩,
  ⟨0x7010064, 1, 0x10000000000, 105, 0x80, false, 0x0, [⟨0, 32, .ro, .free⟩]⟩,
  ⟨0x7010068, 1, 0x10000000000, 105, 0x80, true, 0x0, [⟨0, 64, .ro, .free⟩]⟩,
  ⟨0x7010070, 1, 0x10000000000, 105, 0x80, true, 0x0, [⟨0, 64, .ro, .free⟩]⟩,
  ⟨0x7010078, 1, 0x10000000000, 105, 0x80, false, 0x0, [⟨0, 32, .ro, .free⟩]⟩]

/-- Registers of prefix EP_. -/
def Reg.specsEP : List RegSpec := [
  ⟨0x1000000, 1, 0x10000000000, 1, 0x10000000000, false, 0x1202400, [⟨0, 1, .rwl, .free⟩, ⟨8, 6, .rwl, .range 30 40⟩, ⟨16, 6, .rwl, .range 24 36⟩, ⟨24, 3, .rw, .range 1 7⟩]⟩,
  ⟨0x1000004, 1, 0x10000000000, 1, 0x10000000000, false, 0x1fa7, [⟨0, 16, .rwl, .free⟩, ⟨16, 16, .rwl, .free⟩]⟩,
  ⟨0x1000010, 1, 0x10000000000, 1, 0x10000000000, false, 0x0, [⟨0, 4, .ro, .free⟩, ⟨4, 5, .ro, .free⟩, ⟨9, 1, .ro, .free⟩, ⟨10, 1, .ro, .free⟩, ⟨16, 8, .ro, .free⟩]⟩,
  ⟨0x1000018, 1, 0x10000000000, 1, 0x10000000000, false, 0x0, [⟨0, 13, .ro, .free⟩, ⟨16, 13, .ro, .free⟩]⟩,
  ⟨0x1000020, 1, 0x10000000000, 1, 0x10000000000, false, 0x0, [⟨0, 32, .rc, .free⟩]⟩,
  ⟨0x1000024, 1, 0x10000000000, 1, 0x10000000000, false, 0x0, [⟨0, 32, .rc, .free⟩]⟩,
  ⟨0x1000028, 1, 0x10000000000, 1, 0x10000000000, false, 0x0, [⟨0, 32, .rc, .free⟩]⟩,
  ⟨0x100002c, 1, 0x10000000000, 1, 0x10000000000, false, 0x0, [⟨0, 32, .rc, .free⟩]⟩,
  ⟨0x1000030, 1, 0x10000000000, 1, 0x10000000000, false, 0x0, [⟨0, 32, .rc, .free⟩]⟩,
  ⟨0x1000040, 1, 0x10000000000, 1, 0x10000000000, true, 0x0, [⟨0, 16, .ro, .free⟩, ⟨16, 6, .ro, .free⟩, ⟨22, 4, .ro, .free⟩, ⟨26, 1, .w1c, .free⟩, ⟨27, 1, .w1c, .free⟩]⟩,
  ⟨0x1000048, 1, 0x10000000000, 1, 0x10000000000, true, 0x0, [⟨0, 64, .ro, .free⟩]⟩,
  ⟨0x1000100, 1, 0x10000000000, 33, 0x8, false, 0x0, [⟨0, 1, .ro, .free⟩, ⟨1, 1, .ro, .free⟩, ⟨2, 1, .ro, .free⟩, ⟨3, 1, .ro, .free⟩, ⟨4, 2, .ro, .free⟩, ⟨16, 16, .ro, .free⟩]⟩,
  ⟨0x1020000, 1, 0x10000000000, 256, 0x20, true, 0x0, [⟨0, 28, .rw, .free⟩]⟩,
  ⟨0x1020008, 1, 0x10000000000, 256, 0x20, true, 0x0, [⟨0, 36, .rw, .free⟩]⟩,
  ⟨0x1020010, 1, 0x10000000000, 256, 0x20, true, 0x10000000000, [⟨0, 28, .rw, .range 1 268435455⟩, ⟨28, 12, .rw, .free⟩, ⟨40, 3, .rw, .range 1 7⟩, ⟨43, 1, .rw, .free⟩, ⟨44, 1, .rw, .free⟩, ⟨45, 1, .rw, .free⟩]⟩,
  ⟨0x1020018, 1, 0x10000000000, 256, 0x20, true, 0x0, []⟩,
  ⟨0x1030000, 32, 0x200, 16, 0x20, true, 0x0, [⟨0, 28, .rw, .free⟩]⟩,
  ⟨0x1030008, 32, 0x200, 16, 0x20, true, 0x0, [⟨0, 36, .rw, .free⟩]⟩,
  ⟨0x1030010, 32, 0x200, 16, 0x20, true, 0x10000000000, [⟨0, 28, .rw, .range 1 268435455⟩, ⟨28, 12, .rw, .free⟩, ⟨40, 3, .rw, .range 1 7⟩, ⟨43, 1, .rw, .free⟩, ⟨44, 1, .rw, .free⟩, ⟨45, 1, .rw, .free⟩]⟩,
  ⟨0x1030018, 32, 0x200, 16, 0x20, true, 0x0, []⟩]

/-- Registers of prefix RCH_. -/
def Reg.specsRCH : List RegSpec := [
  ⟨0xc000000, 1, 0x10000000000, 4, 0x100000, false, 0x3e800, [⟨0, 1, .rwl, .free⟩, ⟨8, 16, .rw, .range 1 65535⟩]⟩,
  ⟨0xc000008, 1, 0x10000000000, 4, 0x100000, true, 0x0, [⟨0, 3, .ro, .free⟩, ⟨3, 2, .ro, .free⟩, ⟨5, 1, .ro, .free⟩, ⟨6, 12, .ro, .free⟩, ⟨32, 24, .ro, .free⟩, ⟨56, 2, .ro, .free⟩]⟩,
  ⟨0xc000100, 1, 0x10000000000, 4, 0x100000, false, 0x3f, [⟨0, 1, .rwl, .free⟩, ⟨1, 1, .rwl, .free⟩, ⟨2, 1, .rwl, .free⟩, ⟨3, 1, .rwl, .free⟩, ⟨4, 1, .rwl, .free⟩, ⟨5, 1, .rwl, .free⟩]⟩,
  ⟨0xc000104, 1, 0x10000000000, 4, 0x100000, false, 0x7c0, [⟨0, 1, .rw, .free⟩, ⟨1, 1, .rw, .free⟩, ⟨2, 1, .rw, .free⟩, ⟨3, 1, .rw, .free⟩, ⟨4, 1, .rw, .free⟩, ⟨6, 2, .rw, .listed [1, 2, 3]⟩, ⟨8, 2, .rw, .listed [1, 2, 3]⟩, ⟨10, 1, .rw, .free⟩, ⟨16, 11, .rw, .range 0 2047⟩]⟩,
  ⟨0xc000108, 1, 0x10000000000, 4, 0x100000, false, 0x0, [⟨0, 1, .w1c, .free⟩, ⟨1, 1, .w1c, .free⟩, ⟨2, 1, .w1c, .free⟩, ⟨3, 1, .w1c, .free⟩, ⟨4, 1, .ro, .free⟩, ⟨5, 1, .ro, .free⟩]⟩,
  ⟨0xc000200, 1, 0x10000000000, 4, 0x100000, false, 0x0, [⟨0, 32, .rc, .free⟩]⟩,
  ⟨0xc000204, 1, 0x10000000000, 4, 0x100000, false, 0x0, [⟨0, 32, .rc, .free⟩]⟩,
  ⟨0xc000208, 1, 0x10000000000, 4, 0x100000, false, 0x0, [⟨0, 32, .rc, .free⟩]⟩,
  ⟨0xc00020c, 1, 0x10000000000, 4, 0x100000, false, 0x0, [⟨0, 32, .rc, .free⟩]⟩,
  ⟨0xc000240, 1, 0x10000000000, 4, 0x100000, true, 0x0, [⟨0, 4, .ro, .free⟩, ⟨4, 1, .w1c, .free⟩, ⟨5, 1, .w1c, .free⟩, ⟨32, 24, .ro, .free⟩]⟩,
  ⟨0xc800000, 1, 0x10000000000, 1, 0x10000000000, true, 0x7d000000000, [⟨0, 24, .rwl, .free⟩, ⟨24, 1, .rwl, .free⟩, ⟨32, 16, .rw, .range 1 65535⟩]⟩,
  ⟨0xc810000, 1, 0x10000000000, 4095, 0x20, true, 0x0, [⟨0, 24, .rw, .free⟩, ⟨24, 12, .rw, .free⟩, ⟨36, 5, .rw, .free⟩, ⟨41, 1, .rw, .free⟩, ⟨42, 1, .rw, .free⟩, ⟨43, 1, .ro, .free⟩, ⟨44, 5, .rw, .range 1 30⟩, ⟨49, 5, .rw, .range 1 30⟩]⟩,
  ⟨0xc810008, 1, 0x10000000000, 4095, 0x20, true, 0x0, [⟨0, 60, .rw, .free⟩]⟩,
  ⟨0xc810010, 1, 0x10000000000, 4095, 0x20, true, 0x0, [⟨0, 60, .rw, .free⟩]⟩,
  ⟨0xc840000, 1, 0x10000000000, 256, 0x10, true, 0x0, [⟨0, 24, .rw, .free⟩, ⟨24, 12, .rw, .free⟩, ⟨36, 1, .rw, .free⟩]⟩,
  ⟨0xc850000, 1, 0x10000000000, 256, 0x10, true, 0x0, [⟨0, 24, .rw, .free⟩, ⟨24, 5, .rw, .range 1 30⟩, ⟨29, 1, .rw, .free⟩]⟩,
  ⟨0xc850008, 1, 0x10000000000, 256, 0x10, true, 0x0, [⟨0, 60, .rw, .free⟩]⟩]

/-- Registers of prefix FC_. -/
def Reg.specsFC : List RegSpec := [
  ⟨0x9000000, 1, 0x10000000000, 1, 0x10000000000, false, 0x203, [⟨0, 1, .rw, .free⟩, ⟨1, 1, .rw, .free⟩, ⟨8, 8, .rw, .range 1 255⟩]⟩,
  ⟨0x9000008, 1, 0x10000000000, 1, 0x10000000000, false, 0x0, [⟨0, 1, .ro, .free⟩, ⟨1, 1, .ro, .free⟩, ⟨2, 1, .ro, .free⟩, ⟨3, 3, .ro, .free⟩, ⟨16, 6, .ro, .free⟩]⟩,
  ⟨0x9000010, 1, 0x10000000000, 1, 0x10000000000, false, 0x0, [⟨0, 13, .rw, .free⟩]⟩,
  ⟨0x9000014, 1, 0x10000000000, 1, 0x10000000000, false, 0x0, [⟨0, 13, .ro, .free⟩]⟩,
  ⟨0x9000018, 1, 0x10000000000, 1, 0x10000000000, false, 0x0, [⟨0, 1, .rw, .free⟩, ⟨1, 11, .rw, .free⟩]⟩,
  ⟨0x9000020, 1, 0x10000000000, 1, 0x10000000000, false, 0x0, [⟨0, 13, .wo, .free⟩, ⟨31, 1, .wo, .free⟩]⟩,
  ⟨0x9000024, 1, 0x10000000000, 1, 0x10000000000, false, 0x0, [⟨0, 32, .rc, .free⟩]⟩,
  ⟨0x9000028, 1, 0x10000000000, 1, 0x10000000000, true, 0x0, [⟨0, 64, .rc, .free⟩]⟩,
  ⟨0x9000100, 1, 0x10000000000, 1, 0x10000000000, true, 0x0, [⟨0, 12, .rw, .free⟩, ⟨12, 8, .rw, .free⟩, ⟨20, 12, .rw, .free⟩, ⟨32, 16, .rw, .free⟩, ⟨48, 1, .rw, .free⟩, ⟨63, 1, .wo, .free⟩]⟩,
  ⟨0x9000108, 1, 0x10000000000, 1, 0x10000000000, true, 0x0, [⟨0, 48, .rw, .free⟩]⟩,
  ⟨0x9000110, 1, 0x10000000000, 1, 0x10000000000, false, 0x0, [⟨0, 1, .w1c, .free⟩, ⟨1, 1, .ro, .free⟩]⟩,
  ⟨0x9000200, 1, 0x10000000000, 1, 0x10000000000, true, 0xffff000100002001, [⟨0, 6, .rwl, .free⟩, ⟨8, 6, .rwl, .free⟩, ⟨32, 16, .rwl, .free⟩, ⟨48, 16, .rwl, .free⟩]⟩,
  ⟨0x9000300, 1, 0x10000000000, 1, 0x10000000000, true, 0x0, [⟨0, 12, .rw, .free⟩, ⟨12, 1, .wo, .free⟩, ⟨13, 1, .ro, .free⟩, ⟨32, 16, .ro, .free⟩]⟩,
  ⟨0x9000400, 1, 0x10000000000, 32, 0x8, true, 0x0, [⟨0, 1, .ro, .free⟩, ⟨1, 1, .ro, .free⟩, ⟨2, 1, .ro, .free⟩, ⟨8, 6, .ro, .free⟩, ⟨16, 10, .ro, .free⟩, ⟨26, 9, .ro, .free⟩, ⟨35, 6, .ro, .free⟩]⟩,
  ⟨0x9001000, 1, 0x10000000000, 256, 0x4, false, 0x0, [⟨0, 3, .rwl, .listed [0, 1, 2, 3, 4, 5, 6]⟩, ⟨3, 2, .rwl, .listed [0, 1, 2]⟩, ⟨5, 1, .rwl, .free⟩, ⟨6, 1, .rwl, .free⟩, ⟨7, 1, .ro, .free⟩]⟩,
  ⟨0x9020000, 1, 0x10000000000, 4096, 0x4, false, 0x27100008, [⟨0, 6, .rw, .free⟩, ⟨6, 6, .ro, .free⟩, ⟨12, 1, .ro, .free⟩, ⟨16, 16, .rw, .free⟩]⟩,
  ⟨0x9040000, 1, 0x10000000000, 4096, 0x20, true, 0x0, [⟨0, 64, .ro, .free⟩]⟩,
  ⟨0x9040008, 1, 0x10000000000, 4096, 0x20, true, 0x0, [⟨0, 64, .ro, .free⟩]⟩,
  ⟨0x9040010, 1, 0x10000000000, 4096, 0x20, true, 0x0, [⟨0, 64, .ro, .free⟩]⟩,
  ⟨0x9040018, 1, 0x10000000000, 4096, 0x20, true, 0x0, [⟨0, 12, .ro, .free⟩, ⟨12, 5, .ro, .free⟩, ⟨17, 1, .ro, .free⟩, ⟨18, 1, .ro, .free⟩, ⟨19, 1, .ro, .free⟩, ⟨20, 1, .ro, .free⟩, ⟨21, 3, .ro, .free⟩, ⟨32, 16, .ro, .free⟩, ⟨48, 16, .ro, .free⟩]⟩]

/-- Registers of prefix SEC_. -/
def Reg.specsSEC : List RegSpec := [
  ⟨0xa000000, 1, 0x10000000000, 1, 0x10000000000, false, 0x0, [⟨0, 1, .ro, .free⟩, ⟨1, 3, .ro, .free⟩, ⟨4, 1, .ro, .free⟩]⟩,
  ⟨0xa000010, 1, 0x10000000000, 1, 0x10000000000, false, 0x0, [⟨0, 4, .rw, .listed [1, 2, 3, 4, 5]⟩, ⟨4, 12, .rw, .free⟩, ⟨30, 1, .ro, .free⟩, ⟨31, 1, .wo, .free⟩]⟩,
  ⟨0xa000018, 1, 0x10000000000, 1, 0x10000000000, true, 0x0, [⟨0, 64, .rw, .free⟩]⟩,
  ⟨0xa000020, 1, 0x10000000000, 1, 0x10000000000, true, 0x0, [⟨0, 48, .rw, .free⟩]⟩,
  ⟨0xa000028, 1, 0x10000000000, 1, 0x10000000000, true, 0x0, [⟨0, 28, .rw, .free⟩, ⟨28, 12, .rw, .free⟩]⟩,
  ⟨0xa000040, 1, 0x10000000000, 1, 0x10000000000, true, 0x0, [⟨0, 16, .ro, .free⟩, ⟨32, 32, .ro, .free⟩]⟩,
  ⟨0xa000080, 1, 0x10000000000, 1, 0x10000000000, true, 0x0, [⟨0, 6, .fo, .free⟩, ⟨6, 6, .fo, .free⟩, ⟨12, 6, .ro, .free⟩, ⟨18, 6, .ro, .free⟩, ⟨24, 2, .ro, .free⟩, ⟨26, 1, .ro, .free⟩, ⟨27, 1, .rwl, .free⟩]⟩,
  ⟨0xa001000, 1, 0x10000000000, 16, 0x40, true, 0x0, [⟨0, 64, .rwl, .free⟩]⟩,
  ⟨0xa001008, 1, 0x10000000000, 16, 0x40, true, 0x0, [⟨0, 64, .rwl, .free⟩]⟩,
  ⟨0xa001010, 1, 0x10000000000, 16, 0x40, true, 0x0, [⟨0, 64, .rwl, .free⟩]⟩,
  ⟨0xa001018, 1, 0x10000000000, 16, 0x40, true, 0x0, [⟨0, 64, .rwl, .free⟩]⟩,
  ⟨0xa001020, 1, 0x10000000000, 16, 0x40, true, 0x0, [⟨0, 64, .rwl, .free⟩]⟩,
  ⟨0xa001028, 1, 0x10000000000, 16, 0x40, true, 0x0, [⟨0, 64, .rwl, .free⟩]⟩,
  ⟨0xa001030, 1, 0x10000000000, 16, 0x40, true, 0x0, [⟨0, 32, .rwl, .free⟩, ⟨32, 1, .rwl, .free⟩, ⟨33, 1, .rwl, .free⟩, ⟨34, 1, .rwl, .free⟩, ⟨35, 1, .rwl, .free⟩]⟩,
  ⟨0xa020000, 1, 0x10000000000, 4096, 0x4, false, 0x0, [⟨0, 5, .rwl, .free⟩, ⟨5, 1, .rwl, .free⟩, ⟨6, 2, .ro, .free⟩]⟩,
  ⟨0xa030000, 1, 0x10000000000, 1, 0x10000000000, false, 0x0, [⟨0, 2, .ro, .free⟩, ⟨2, 1, .wo, .free⟩, ⟨16, 16, .ro, .free⟩]⟩,
  ⟨0xa030020, 1, 0x10000000000, 4, 0x8, true, 0x0, [⟨0, 64, .ro, .free⟩]⟩,
  ⟨0xa030100, 1, 0x10000000000, 64, 0x4, false, 0x0, [⟨0, 32, .wo, .free⟩]⟩]

/-- Registers of prefix LC_. -/
def Reg.specsLC : List RegSpec := [
  ⟨0xa008000, 1, 0x10000000000, 1, 0x10000000000, false, 0x0, [⟨0, 2, .ro, .free⟩, ⟨2, 2, .ro, .free⟩, ⟨4, 1, .ro, .free⟩, ⟨5, 1, .ro, .free⟩, ⟨6, 1, .ro, .free⟩, ⟨7, 1, .ro, .free⟩, ⟨8, 4, .ro, .free⟩]⟩,
  ⟨0xa008010, 1, 0x10000000000, 8, 0x4, false, 0x0, [⟨0, 32, .wo, .free⟩]⟩,
  ⟨0xa008040, 1, 0x10000000000, 1, 0x10000000000, false, 0x0, [⟨0, 2, .rw, .free⟩, ⟨31, 1, .wo, .free⟩]⟩,
  ⟨0xa008048, 1, 0x10000000000, 1, 0x10000000000, false, 0x0, [⟨0, 16, .ro, .free⟩]⟩,
  ⟨0xa008080, 1, 0x10000000000, 9, 0x4, false, 0x0, [⟨0, 32, .fo, .free⟩]⟩]

/-- Registers of prefix HC_. -/
def Reg.specsHC : List RegSpec := [
  ⟨0x2000000, 1, 0x10000000000, 32, 0x100000, false, 0x0, [⟨0, 1, .wo, .free⟩]⟩,
  ⟨0x2000008, 1, 0x10000000000, 32, 0x100000, false, 0x0, [⟨0, 1, .ro, .free⟩, ⟨16, 16, .ro, .free⟩]⟩]

/-- Registers of prefix PW_. -/
def Reg.specsPW : List RegSpec := [
  ⟨0xb000000, 1, 0x10000000000, 1, 0x10000000000, false, 0xfff01e0, [⟨0, 10, .rwl, .range 280 520⟩, ⟨16, 12, .rwl, .free⟩]⟩,
  ⟨0xb000008, 1, 0x10000000000, 1, 0x10000000000, false, 0x0, [⟨0, 12, .ro, .free⟩, ⟨12, 4, .ro, .free⟩, ⟨16, 1, .ro, .free⟩, ⟨17, 1, .w1c, .free⟩, ⟨18, 1, .ro, .free⟩]⟩,
  ⟨0xb000010, 1, 0x10000000000, 1, 0x10000000000, false, 0x1f400d0, [⟨0, 7, .rw, .range 40 100⟩, ⟨7, 1, .rw, .free⟩, ⟨16, 16, .rw, .range 1 65535⟩]⟩,
  ⟨0xb000018, 1, 0x10000000000, 1, 0x10000000000, true, 0x0, [⟨0, 16, .wo, .free⟩, ⟨16, 7, .wo, .free⟩, ⟨32, 16, .wo, .free⟩]⟩,
  ⟨0xb000020, 1, 0x10000000000, 1, 0x10000000000, false, 0x6946, [⟨0, 8, .rwl, .free⟩, ⟨8, 8, .rwl, .free⟩]⟩,
  ⟨0xb000028, 1, 0x10000000000, 1, 0x10000000000, false, 0x320001, [⟨0, 1, .rw, .free⟩, ⟨16, 16, .rw, .range 1 65535⟩]⟩,
  ⟨0xb000040, 1, 0x10000000000, 4, 0x8, true, 0x0, [⟨0, 64, .ro, .free⟩]⟩,
  ⟨0xb000100, 1, 0x10000000000, 16, 0x10, false, 0x3e85f01, [⟨0, 8, .rw, .range 1 255⟩, ⟨8, 8, .rw, .free⟩, ⟨16, 16, .rw, .range 1 65535⟩]⟩,
  ⟨0xb000108, 1, 0x10000000000, 16, 0x10, true, 0x0, [⟨0, 12, .ro, .free⟩, ⟨12, 12, .ro, .free⟩, ⟨24, 8, .ro, .free⟩, ⟨32, 1, .ro, .free⟩, ⟨33, 4, .ro, .free⟩, ⟨37, 2, .ro, .free⟩, ⟨39, 1, .ro, .free⟩, ⟨40, 8, .ro, .free⟩]⟩]

/-- Registers of prefix CK_. -/
def Reg.specsCK : List RegSpec := [
  ⟨0xb001000, 1, 0x10000000000, 1, 0x10000000000, false, 0x0, [⟨0, 1, .ro, .free⟩, ⟨1, 1, .ro, .free⟩, ⟨2, 8, .ro, .free⟩, ⟨10, 4, .ro, .free⟩]⟩,
  ⟨0xb001100, 1, 0x10000000000, 256, 0x4, false, 0x0, [⟨0, 12, .fo, .free⟩, ⟨12, 12, .rwl, .free⟩, ⟨24, 8, .fo, .free⟩]⟩]

/-- Registers of prefix TH_. -/
def Reg.specsTH : List RegSpec := [
  ⟨0xb002000, 1, 0x10000000000, 1, 0x10000000000, false, 0x7364, [⟨0, 8, .rw, .free⟩, ⟨8, 8, .fo, .free⟩]⟩,
  ⟨0xb002100, 1, 0x10000000000, 68, 0x4, false, 0x0, [⟨0, 12, .ro, .free⟩]⟩]

/-- Every register the manual defines (Table IDX-2). -/
def Reg.specs : List RegSpec :=
  Reg.specsMH ++
  Reg.specsMH1 ++
  Reg.specsSH ++
  Reg.specsHM ++
  Reg.specsSL ++
  Reg.specsSL1 ++
  Reg.specsXF ++
  Reg.specsVE ++
  Reg.specsRD ++
  Reg.specsST ++
  Reg.specsCO ++
  Reg.specsXL ++
  Reg.specsXL1 ++
  Reg.specsDN ++
  Reg.specsHY ++
  Reg.specsEP ++
  Reg.specsRCH ++
  Reg.specsFC ++
  Reg.specsSEC ++
  Reg.specsLC ++
  Reg.specsHC ++
  Reg.specsPW ++
  Reg.specsCK ++
  Reg.specsTH

end Sys2Proof.Machine
end

