-- ==== Sys2Proof/Machine/Regs.lean ====
section
/-! DEFINITION. Reading and writing the register space by field type, width and alignment (R4–R9), over the registers'
stored values alone. -/

namespace Sys2Proof.Machine

/-- The registers, by register-space offset of their first byte; an unlisted one holds its reset value. -/
abbrev RegFile := SMap Word

/-- Whether `off` is the first byte of a register of this heading. -/
def RegSpec.at (r : RegSpec) (off : Nat) : Bool :=
  if off < r.base then false
  else
    let d := off - r.base
    let i := d / r.s1
    let e := d % r.s1
    decide (i < r.n1) && decide (e % r.s2 = 0) && decide (e / r.s2 < r.n2)

/-- The register that starts at `off`, if any (R7, R411). -/
def Reg.find (off : Nat) : Option RegSpec := Reg.specs.find? fun r => r.at off

/-- The reset value of FC_REACT for kind `k`: Table FLT-3, and LOG with ACK for a kind it does not list. -/
def Reg.reactReset (k : Nat) : Nat :=
  match Kind.reactTable.find? fun t => t.1 = k with
  | some (_, act, bucket, ack, irq, fixed) => act + 8 * bucket + 32 * ack + 64 * irq + 128 * fixed
  | none => 32

/-- The cold-reset value of the register at `off`: its heading's, FC_REACT's per Table FLT-3, and for fuse values the
ones assumption 3 names. -/
def Reg.resetValue (off : Nat) : Word :=
  if 0x9001000 ≤ off ∧ off < 0x9001400 then BitVec.ofNat 64 (Reg.reactReset ((off - 0x9001000) / 4))
  else if 0x6001000 ≤ off ∧ off < 0x6001800 then
    let n := (off - 0x6001000) / 4
    BitVec.ofNat 64 (17 * (n / 16) + n % 16)
  else match Reg.find off with
    | some r => BitVec.ofNat 64 r.rst
    | none => 0

/-- The whole register at `off`. -/
def RegFile.word (rf : RegFile) (off : Nat) : Nat := (SMap.get Reg.resetValue rf off).toNat

def RegFile.setWord (rf : RegFile) (off n : Nat) : RegFile := SMap.put Reg.resetValue rf off (BitVec.ofNat 64 n)

/-- A field's value. -/
def RegFile.rd (rf : RegFile) (f : Fld) : Nat := bits (rf.word f.off) f.lo f.w

/-- The register file with a field replaced. -/
def RegFile.wr (rf : RegFile) (f : Fld) (n : Nat) : RegFile := rf.setWord f.off (setBits (rf.word f.off) f.lo f.w n)

/-- The parts of registers an access reaches (R8): register offset, its lowest bit reached, the access's lowest bit. -/
def Reg.parts32 (off shift : Nat) : List (Nat × Nat × Nat) :=
  match Reg.find off with
  | some _ => [(off, 0, shift)]
  | none =>
    if off % 8 = 4 then
      match Reg.find (off - 4) with
      | some r => if r.wide then [(off - 4, 32, shift)] else []
      | none => []
    else []

/-- R8: the parts of an access of `size` bytes; none where it is narrower than 32 bits or misaligned. -/
def Reg.parts (off size : Nat) : List (Nat × Nat × Nat × Nat) :=
  if size = 4 ∧ off % 4 = 0 then (Reg.parts32 off 0).map fun (o, l, s) => (o, l, s, 32)
  else if size = 8 ∧ off % 8 = 0 then
    match Reg.find off with
    | some r =>
      if r.wide then [(off, 0, 0, 64)]
      else (Reg.parts32 off 0 ++ Reg.parts32 (off + 4) 32).map fun (o, l, s) => (o, l, s, 32)
    | none => (Reg.parts32 (off + 4) 32).map fun (o, l, s) => (o, l, s, 32)
  else []

/-- What a read of bits `[lo + w - 1 : lo]` returns: WO and reserved bits read zero (R4, R6). -/
def RegSpec.readable (r : RegSpec) (v lo w : Nat) : Nat :=
  let seen := r.flds.foldl (fun acc f => match f.ty with
    | .wo => acc
    | _ => acc ||| (bits v f.lo f.w <<< f.lo)) 0
  bits seen lo w

/-- The register after a read of those bits: an RC field clears only when every bit of it is read (R8). -/
def RegSpec.afterRead (r : RegSpec) (v lo w : Nat) : Nat :=
  r.flds.foldl (fun acc f => match f.ty with
    | .rc => if lo ≤ f.lo ∧ f.lo + f.w ≤ lo + w then setBits acc f.lo f.w 0 else acc
    | _ => acc) v

/-- R9's effect on a field's resulting value. -/
def Limit.apply (l : Limit) (old new : Nat) : Nat :=
  match l with
  | .free => new
  | .range lo hi => max lo (min new hi)
  | .listed vs => if vs.contains new then new else old

/-- One field after a write of `v` to register bits `[lo + w - 1 : lo]` (R4, R5, R8, R9); `unsealed` opens RWL. -/
def FieldSpec.write (f : FieldSpec) (unsealed : Bool) (reg v lo w : Nat) : Nat :=
  let old := bits reg f.lo f.w
  -- the written bits of the field, at their places in the register
  let mask := (2 ^ w - 1) <<< lo
  let fm := (2 ^ f.w - 1) <<< f.lo
  let hit := mask &&& fm
  if hit = 0 then old
  else
    let written := (v <<< lo) &&& hit
    let keep := (reg &&& fm) - ((reg &&& fm) &&& hit)
    let rw := f.lim.apply old ((keep + written) >>> f.lo)
    match f.ty with
    | .rw => rw
    | .rwl => if unsealed then rw else old
    | .w1c => bits (reg - (reg &&& written)) f.lo f.w
    | .w1s => bits (reg ||| written) f.lo f.w
    | .ro | .rc | .wo | .fo => old

/-- The whole register after the write. -/
def RegSpec.write (r : RegSpec) (unsealed : Bool) (reg v lo w : Nat) : Nat :=
  r.flds.foldl (fun acc f => setBits acc f.lo f.w (f.write unsealed reg v lo w)) reg

/-- A read access (R4, R7, R8): the value, and the registers with what the read clears when `clears`. -/
def RegFile.read (rf : RegFile) (off size : Nat) (clears : Bool) : RegFile × Nat :=
  (Reg.parts off size).foldl (fun (acc : RegFile × Nat) (p : Nat × Nat × Nat × Nat) =>
    match p with
    | (o, lo, sh, w) =>
      match Reg.find o with
      | some r =>
        let v := acc.1.word o
        (if clears then acc.1.setWord o (r.afterRead v lo w) else acc.1, acc.2 + (r.readable v lo w <<< sh))
      | none => acc) (rf, 0)

/-- A write access (R4–R9): each register reached takes its written fields. -/
def RegFile.write (rf : RegFile) (unsealed : Bool) (off size v : Nat) : RegFile :=
  (Reg.parts off size).foldl (fun acc p =>
    match p with
    | (o, lo, sh, w) =>
      match Reg.find o with
      | some r => acc.setWord o (r.write unsealed (acc.word o) (bits v sh w) lo w)
      | none => acc) rf

/-- The register with its RWL fields alone written, as before the seal. -/
def RegSpec.writeRwl (r : RegSpec) (reg v lo w : Nat) : Nat :=
  r.flds.foldl (fun acc f => match f.ty with
    | .rwl => setBits acc f.lo f.w (f.write true reg v lo w)
    | _ => acc) reg

/-- A write of RWL fields alone, of `v`, or of the reset values where there is none. -/
def RegFile.writeRwl (rf : RegFile) (off size : Nat) (v : Option Nat) : RegFile :=
  (Reg.parts off size).foldl (fun acc p =>
    match p with
    | (o, lo, sh, w) =>
      match Reg.find o, v with
      | some r, some v => acc.setWord o (r.writeRwl (acc.word o) (bits v sh w) lo w)
      | some r, none => acc.setWord o (r.writeRwl (acc.word o) (Reg.resetValue o).toNat 0 64)
      | none, _ => acc) rf

/-- The bits of field `f` that an access writes, and what it writes there; `none` where it reaches no bit of it. -/
def Reg.written (f : Fld) (off size v : Nat) : Option Nat :=
  ((Reg.parts off size).find? fun p => decide (p.1 = f.off) && decide (p.2.1 ≤ f.lo)
      && decide (f.lo < p.2.1 + p.2.2.2)).map fun p =>
    bits (bits v p.2.2.1 p.2.2.2 <<< p.2.1) f.lo f.w

end Sys2Proof.Machine
end

