-- ==== Sys2Proof/Machine/StateBoot.lean ====
section
/-! DEFINITION. Bring-up's state as plain data (18): SPI NOR, the image in use, the sequencer, tests and resets. -/

namespace Sys2Proof.Machine

/-- Which device reset runs, if any (Table BUP-5). -/
inductive ResetKind where
  | cold | warm
deriving DecidableEq, Repr

/-- SPI NOR contents that outlive every reset. -/
structure Nor where
  bytes : SMap Byte
  /-- the Field-defect log's words, as MH_DEFECT shows them -/
  defects : SMap Word
  /-- boots at which a source's boot test failed, at most the last three (R384) -/
  testBoots : SMap (List Nat)
  bootCount : Nat
  /-- the bank of Denob firmware that runs -/
  activeBank : Nat
deriving DecidableEq, Repr

/-- What the fuse map marks bad (R380), by source number of Table FLT-2, and by register what its FO fields hold. -/
structure FuseMap where
  bad : NSet
  regs : SMap Word
deriving DecidableEq, Repr

structure BootState where
  nor : Nor
  fuses : FuseMap
  /-- image slot in use -/
  slot : Option Nat
  /-- power is good; PERST_L is asserted -/
  power : Bool
  perst : Bool
  /-- a reset's preamble runs, and whether its work is done -/
  preamble : Bool
  preambleRan : Bool
  /-- when the main sequence started -/
  mainAt : Option Nat
  resetKind : ResetKind
  /-- RESET_CAUSE of the reset under way, and whether PERST_L started it -/
  cause : Nat
  pllLocked : Bool
  /-- core waves started; cores whose BIST runs -/
  coreWaves : Nat
  coresTesting : NSet
  enrolWaves : Nat
  shelfDone : Bool
  stacksDone : NSet
  stacksFailed : NSet
  reconciled : Bool
  /-- a warm reset's step 1 has run, and its queues drain (R386) -/
  draining : Bool
  /-- the layout in force at the last boot seal or completed re-form, and its IMAGE_ID (R379) -/
  lastLayout : Option (Nat × Nat)
  /-- positions under hub-core reset (R387), and positions that debug has halted (R363) -/
  coreResets : NSet
  halted : NSet
  /-- the cycle of the last device reset (Table HST-7, R242) -/
  resetAt : Nat
deriving DecidableEq, Repr

def Nor.blank : Nor := ⟨[], [], [], 0, 0⟩
def FuseMap.none : FuseMap := ⟨[], []⟩

/-- Power is good, PERST_L is asserted, and the preamble of the cold reset runs. -/
def BootState.reset : BootState :=
  ⟨Nor.blank, FuseMap.none, none, true, true, true, false, none, .cold, 1, false, 0, [], 0, false, [], [], false, false,
    none, [], [], 0⟩

end Sys2Proof.Machine
end

