-- ==== Sys2Proof/Machine/Flags.lean ====
section
/-! DEFINITION. Numbers and numeric flags: the formats of Tables VEC-2 and XFR-3, rounding, the arithmetic of R119–R121,
the conversions of R96–R99, the memory-side adds of R151, and the sticky flags of Table VEC-6. -/

namespace Sys2Proof.Machine

/-! ### Sticky flags (Table VEC-6) -/

def Flag.NX : Nat := 1
def Flag.UF : Nat := 2
def Flag.OF : Nat := 4
def Flag.DZ : Nat := 8
def Flag.NV : Nat := 16
def Flag.PERM_OOB : Nat := 32
def Flag.SSAT : Nat := 64

/-- A flag bit that holds when `c` does. -/
def flagIf (c : Bool) (f : Nat) : Nat := if c then f else 0

/-! ### Floating-point formats -/

/-- A binary format: exponent and fraction widths, and whether its top exponent is IEEE's (infinities and NaNs),
E4M3's (one NaN, no infinity) or plain finite (the OCP elements of MXFP6 and MXFP4). -/
inductive Special where
  | ieee | e4m3 | none
deriving DecidableEq, Repr

structure FFmt where
  e : Nat
  m : Nat
  sp : Special
deriving DecidableEq, Repr

def FFmt.fp32 : FFmt := ⟨8, 23, .ieee⟩
def FFmt.bf16 : FFmt := ⟨8, 7, .ieee⟩
def FFmt.fp16 : FFmt := ⟨5, 10, .ieee⟩
def FFmt.e4m3 : FFmt := ⟨4, 3, .e4m3⟩
def FFmt.e5m2 : FFmt := ⟨5, 2, .ieee⟩
def FFmt.e3m2 : FFmt := ⟨3, 2, .none⟩
def FFmt.e2m3 : FFmt := ⟨2, 3, .none⟩
def FFmt.e2m1 : FFmt := ⟨2, 1, .none⟩

def FFmt.width (f : FFmt) : Nat := 1 + f.e + f.m
def FFmt.bias (f : FFmt) : Int := (2 ^ (f.e - 1) : Nat) - 1
/-- The exponent of the smallest normal. -/
def FFmt.emin (f : FFmt) : Int := 1 - f.bias
/-- The exponent of the last place of subnormals. -/
def FFmt.qmin (f : FFmt) : Int := f.emin - f.m
def FFmt.signBit (f : FFmt) : Nat := 2 ^ (f.e + f.m)
/-- The magnitude bits of infinity in an IEEE format. -/
def FFmt.infBits (f : FFmt) : Nat := (2 ^ f.e - 1) * 2 ^ f.m
/-- The magnitude bits of the largest finite number. -/
def FFmt.maxBits (f : FFmt) : Nat :=
  match f.sp with
  | .ieee => f.infBits - 1
  | .e4m3 => 2 ^ (f.e + f.m) - 2
  | .none => 2 ^ (f.e + f.m) - 1
/-- The quiet NaN of R97 and R119 (positive). -/
def FFmt.qnan (f : FFmt) : Nat :=
  match f.sp with
  | .ieee => f.infBits + 2 ^ (f.m - 1)
  | .e4m3 => 2 ^ (f.e + f.m) - 1
  | .none => 0

/-- An exact value: `(-1)^neg · mag · 2^exp`, an infinity, or a NaN (with its sign and whether it signals). -/
inductive Val where
  | nan (neg sig : Bool)
  | inf (neg : Bool)
  | fin (neg : Bool) (mag : Nat) (exp : Int)
deriving DecidableEq, Repr

/-- The value bits of a format spell. -/
def FFmt.decode (f : FFmt) (n : Nat) : Val :=
  let neg := n.testBit (f.e + f.m)
  let mg := n % 2 ^ (f.e + f.m)
  let fr := mg % 2 ^ f.m
  let ex := mg / 2 ^ f.m
  if f.sp = .ieee && decide (f.infBits ≤ mg) then
    (if fr = 0 then .inf neg else .nan neg (!fr.testBit (f.m - 1)))
  else if f.sp = .e4m3 && decide (mg = 2 ^ (f.e + f.m) - 1) then .nan neg false
  else if ex = 0 then .fin neg fr f.qmin
  else .fin neg (2 ^ f.m + fr) (f.qmin + (ex - 1 : Nat))

/-- How a discarded fraction is rounded: to nearest even, toward zero, or stochastically with the 16 bits `r` of R99. -/
inductive Rounding where
  | nearest
  | truncate
  | stochastic (r : Nat)
deriving DecidableEq, Repr

/-- `mag · 2^exp` in units of `2^q`, rounded; and whether it was inexact. -/
def roundAt (rm : Rounding) (mag : Nat) (exp q : Int) : Nat × Bool :=
  if q ≤ exp then (mag <<< (exp - q).toNat, false)
  else
    let s := (q - exp).toNat
    let k := mag >>> s
    let rem := mag % 2 ^ s
    let up := match rm with
      | .nearest => decide (2 ^ s < 2 * rem) || (decide (2 * rem = 2 ^ s) && decide (k % 2 = 1))
      | .truncate => false
      | .stochastic r => decide (65536 ≤ (rem * 65536) >>> s + r)
    (k + b01 up, decide (rem ≠ 0))

/-- The exponent of the leading bit of `mag · 2^exp`. -/
def leadExp (mag : Nat) (exp : Int) : Int := exp + Nat.log2 mag

/-- A value rounded into a format: magnitude bits, flags NX, UF, OF, and whether it lies beyond the largest finite. -/
structure Rounded where
  bits : Nat
  nx : Bool
  tiny : Bool
  ovf : Bool
deriving DecidableEq, Repr

/-- Round a nonzero magnitude into `f`, once; `bits` runs past the top where the format overflows. -/
def FFmt.round (f : FFmt) (rm : Rounding) (mag : Nat) (exp : Int) : Rounded :=
  if mag = 0 then ⟨0, false, false, false⟩
  else
    let le := leadExp mag exp
    let q := max le f.emin - f.m
    let (k, nx) := roundAt rm mag exp q
    let b := (q - f.qmin).toNat * 2 ^ f.m + k
    -- tininess is judged after rounding (Table VEC-6, UF): with an unbounded exponent the result stays below 2^emin
    let carry := decide ((roundAt rm mag exp (le - f.m)).1 = 2 ^ (f.m + 1))
    let tiny := decide (le < f.emin) && !(decide (le = f.emin - 1) && carry)
    ⟨b, nx, tiny, decide (f.maxBits < b)⟩

/-- Arithmetic rounding (R119): nearest even, overflow to infinity, flags NX, UF and OF. -/
def FFmt.ofExact (f : FFmt) (neg : Bool) (mag : Nat) (exp : Int) : Nat × Nat :=
  let r := f.round .nearest mag exp
  let s := if neg then f.signBit else 0
  if r.ovf then (s + f.infBits, Flag.OF ||| Flag.NX)
  else (s + r.bits, flagIf r.nx Flag.NX ||| flagIf (r.nx && r.tiny) Flag.UF)

def FFmt.zero (f : FFmt) (neg : Bool) : Nat := if neg then f.signBit else 0
def FFmt.infinity (f : FFmt) (neg : Bool) : Nat := (if neg then f.signBit else 0) + f.infBits

/-- The signed integer `±mag` at the common exponent. -/
def sgn (neg : Bool) (mag : Nat) : Int := if neg then -(mag : Int) else mag

/-- The exact sum of two finite values as a signed mantissa and an exponent. -/
def exactSum (n1 : Bool) (m1 : Nat) (e1 : Int) (n2 : Bool) (m2 : Nat) (e2 : Int) : Int × Int :=
  let e := min e1 e2
  (sgn n1 (m1 <<< (e1 - e).toNat) + sgn n2 (m2 <<< (e2 - e).toNat), e)

def Val.isSig : Val → Bool
  | .nan _ s => s
  | _ => false

def Val.isNan : Val → Bool
  | .nan _ _ => true
  | _ => false

/-- The sum of two values rounded into `f`, with flags (R119, IEEE 754). -/
def addVal (f : FFmt) (a b : Val) : Nat × Nat :=
  let sig := flagIf (a.isSig || b.isSig) Flag.NV
  match a, b with
  | .nan _ _, _ => (f.qnan, sig)
  | _, .nan _ _ => (f.qnan, sig)
  | .inf n1, .inf n2 => if n1 = n2 then (f.infinity n1, 0) else (f.qnan, Flag.NV)
  | .inf n1, _ => (f.infinity n1, 0)
  | _, .inf n2 => (f.infinity n2, 0)
  | .fin n1 m1 e1, .fin n2 m2 e2 =>
    let (t, e) := exactSum n1 m1 e1 n2 m2 e2
    if t = 0 then (f.zero (n1 && n2 && decide (m1 = 0) && decide (m2 = 0)), 0)
    else f.ofExact (decide (t < 0)) t.natAbs e

/-- The exact product of two values; `none` for infinity times zero. -/
def mulVal (a b : Val) : Option Val :=
  match a, b with
  | .nan n s, _ => some (.nan n s)
  | _, .nan n s => some (.nan n s)
  | .inf n1, .inf n2 => some (.inf (n1 != n2))
  | .inf n1, .fin n2 m _ => if m = 0 then none else some (.inf (n1 != n2))
  | .fin n1 m _, .inf n2 => if m = 0 then none else some (.inf (n1 != n2))
  | .fin n1 m1 e1, .fin n2 m2 e2 => some (.fin (n1 != n2) (m1 * m2) (e1 + e2))

def Val.neg : Val → Val
  | .nan n s => .nan n s
  | .inf n => .inf (!n)
  | .fin n m e => .fin (!n) m e

/-- ADD, SUB, MUL, FMA and FNMA of R119. -/
def FFmt.add (f : FFmt) (a b : Nat) : Nat × Nat := addVal f (f.decode a) (f.decode b)
def FFmt.sub (f : FFmt) (a b : Nat) : Nat × Nat := addVal f (f.decode a) (f.decode b).neg

def FFmt.mul (f : FFmt) (a b : Nat) : Nat × Nat :=
  let va := f.decode a
  let vb := f.decode b
  let sig := flagIf (va.isSig || vb.isSig) Flag.NV
  match mulVal va vb with
  | none => (f.qnan, Flag.NV)
  | some (.nan _ _) => (f.qnan, sig)
  | some (.inf n) => (f.infinity n, 0)
  | some (.fin n m e) => if m = 0 then (f.zero n, 0) else f.ofExact n m e

/-- `±(a·b) + c`, rounded once. Zero times infinity sets NV whatever `c` is, also a quiet NaN, where IEEE 754 leaves it open
(DESIGN CHOICE, assumption 64). -/
def FFmt.fma (f : FFmt) (negProd : Bool) (a b c : Nat) : Nat × Nat :=
  let va := f.decode a
  let vb := f.decode b
  let vc := f.decode c
  let sig := flagIf (va.isSig || vb.isSig || vc.isSig) Flag.NV
  match mulVal va vb with
  | none => (f.qnan, Flag.NV)
  | some p =>
    let (r, fl) := addVal f (if negProd then p.neg else p) vc
    (r, fl ||| sig)

/-- The order of two values that are not NaN: `-0` below `+0` when `zeroSigns`. -/
def Val.lt (zeroSigns : Bool) (a b : Val) : Bool :=
  match a, b with
  | .nan _ _, _ => false
  | _, .nan _ _ => false
  | .inf n1, .inf n2 => n1 && !n2
  | .inf n1, .fin _ _ _ => n1
  | .fin _ _ _, .inf n2 => !n2
  | .fin n1 m1 e1, .fin n2 m2 e2 =>
    let (t, _) := exactSum n1 m1 e1 (!n2) m2 e2
    decide (t < 0) || (zeroSigns && decide (m1 = 0) && decide (m2 = 0) && n1 && !n2)

/-- Equality of two values that are not NaN (both zeros are equal). -/
def Val.eqv (a b : Val) : Bool := !a.isNan && !b.isNan && !(a.lt false b) && !(b.lt false a)

/-- MIN and MAX of R120. -/
def FFmt.minmax (f : FFmt) (isMax : Bool) (a b : Nat) : Nat × Nat :=
  let va := f.decode a
  let vb := f.decode b
  let sig := flagIf (va.isSig || vb.isSig) Flag.NV
  if va.isNan && vb.isNan then (f.qnan, sig)
  else if va.isNan then (b, sig)
  else if vb.isNan then (a, sig)
  else
    let less := va.lt true vb
    (if less != isMax then a else b, 0)

/-- The seven comparisons, opcodes 0x30–0x36. -/
inductive CmpOp where
  | eq | ne | lt | le | gt | ge | un
deriving DecidableEq, Repr

/-- Comparisons of R120: EQ, NE and UN are quiet; the ordered ones set NV on any NaN. -/
def FFmt.cmp (f : FFmt) (op : CmpOp) (a b : Nat) : Bool × Nat :=
  let va := f.decode a
  let vb := f.decode b
  let un := va.isNan || vb.isNan
  let sig := va.isSig || vb.isSig
  let r := match op with
    | .eq => va.eqv vb
    | .ne => !(va.eqv vb)
    | .lt => va.lt false vb
    | .le => va.lt false vb || va.eqv vb
    | .gt => vb.lt false va
    | .ge => vb.lt false va || va.eqv vb
    | .un => un
  let ordered := match op with
    | .eq | .ne | .un => false
    | _ => true
  (r, flagIf (sig || (ordered && un)) Flag.NV)

/-- Comparisons of signed integers of width `w`; UN is false. -/
def intCmp (op : CmpOp) (w a b : Nat) : Bool :=
  let x := signed a w
  let y := signed b w
  match op with
  | .eq => decide (x = y)
  | .ne => decide (x ≠ y)
  | .lt => decide (x < y)
  | .le => decide (x ≤ y)
  | .gt => decide (y < x)
  | .ge => decide (y ≤ x)
  | .un => false

/-! ### EXP2, LOG2, RCP and RSQRT (R121)

A finite result that R121 does not call exact is bounded, not fixed: the model takes the number that
`Config.transcendental` gives for the operation, format and input where it keeps the bound, and the correctly rounded
result otherwise. -/

/-- The four operations, numbered as `Config.transcendental` takes them. -/
inductive TransOp where
  | exp2 | log2 | rcp | rsqrt
deriving DecidableEq, Repr

def TransOp.code : TransOp → Nat
  | .exp2 => 0
  | .log2 => 1
  | .rcp => 2
  | .rsqrt => 3

/-- Integer square root, `k` result bits, from the top. -/
def isqrtFrom : (k n r : Nat) → Nat
  | 0, _, r => r
  | k + 1, n, r => isqrtFrom k n (if (r + 2 ^ k) * (r + 2 ^ k) ≤ n then r + 2 ^ k else r)

/-- The square root of `n`, rounded down. -/
def isqrt (n : Nat) : Nat := isqrtFrom (Nat.log2 n / 2 + 1) n 0

/-- Fixed-point fraction bits of the reference results. -/
def refBits : Nat := 192

/-- Product of the factors `2^(2^-i)` that the top `k` bits of a fraction select, in `refBits` fixed point. -/
def exp2Frac : (k frac root acc : Nat) → Nat
  | 0, _, _, acc => acc
  | k + 1, frac, root, acc =>
    let root' := isqrt (root <<< refBits)
    let acc' := if (2 * frac) / 2 ^ refBits = 1 then (acc * root') >>> refBits else acc
    exp2Frac k ((2 * frac) % 2 ^ refBits) root' acc'

/-- Base-2 logarithm bits of a mantissa in `[1, 2)`, by repeated squaring. -/
def log2Frac : (k x acc : Nat) → Nat
  | 0, _, acc => acc
  | k + 1, x, acc =>
    let y := (x * x) >>> refBits
    if 2 ^ (refBits + 1) ≤ y then log2Frac k (y / 2) (2 * acc + 1) else log2Frac k y (2 * acc)

/-- A close magnitude `mag · 2^exp` (with sign) of the exact finite result; its error lies far below the bounds of R121. -/
def transRef (op : TransOp) (neg : Bool) (mag : Nat) (exp : Int) : Bool × Nat × Int :=
  match op with
  | .exp2 =>
    -- x = i + frac, with frac in [0, 1) in refBits fixed point
    let fx : Nat := if 0 ≤ exp + refBits then mag <<< (exp + refBits).toNat else mag >>> (-(exp + refBits)).toNat
    let x : Int := sgn neg fx
    let i := x / (2 ^ refBits : Nat)
    let fr := (x % (2 ^ refBits : Nat)).toNat
    (false, exp2Frac 128 fr (2 ^ (refBits + 1)) (2 ^ refBits), i - refBits)
  | .log2 =>
    let k := Nat.log2 mag
    let man := if k ≤ refBits then mag <<< (refBits - k) else mag >>> (k - refBits)
    let fr := log2Frac 128 man 0
    let t : Int := (exp + k) * (2 ^ 128 : Nat) + fr
    (decide (t < 0), t.natAbs, -128)
  | .rcp => (neg, 2 ^ (2 * refBits + Nat.log2 mag) / mag, -(exp + (2 * refBits + Nat.log2 mag : Nat)))
  | .rsqrt =>
    -- mag · 2^exp = m' · 2^(2h)
    let (m', h) : Nat × Int := if exp % 2 = 0 then (mag, exp / 2) else (2 * mag, (exp - 1) / 2)
    let k := 2 * (refBits + Nat.log2 m')
    (false, isqrt (2 ^ (2 * k) / m'), -(h + k))

/-- Whether the result is one R121 calls exact; EXP2 of an integer is where the format represents it (`transFits`). -/
def transExact (op : TransOp) (neg : Bool) (mag : Nat) (exp : Int) : Bool :=
  let pow2 := decide (mag = 2 ^ Nat.log2 mag)
  match op with
  | .exp2 => decide (0 ≤ exp) || decide (mag % 2 ^ (-exp).toNat = 0)
  | .log2 => pow2
  | .rcp => pow2
  | .rsqrt => !neg && pow2 && decide ((exp + Nat.log2 mag) % 2 = 0)

/-- The exact result of an input `transExact` accepts, as sign, magnitude and exponent. -/
def transExactVal (op : TransOp) (neg : Bool) (mag : Nat) (exp : Int) : Bool × Nat × Int :=
  let le := leadExp mag exp
  match op with
  | .exp2 => (false, 1, sgn neg (if 0 ≤ exp then mag <<< exp.toNat else mag >>> (-exp).toNat))
  | .log2 => (decide (le < 0), le.natAbs, 0)
  | .rcp => (neg, 1, -le)
  | .rsqrt => (false, 1, -(le / 2))

/-- Whether the exact result of an input `transExact` accepts is representable (R121), or overflows. -/
def transFits (f : FFmt) (op : TransOp) (neg : Bool) (mag : Nat) (exp : Int) : Bool :=
  match op with
  | .exp2 => decide (f.qmin ≤ (transExactVal op neg mag exp).2.2)
  | _ => true

/-- Whether the finite candidate lies within `k` ulp of the close value, ulp taken at the candidate's exponent. -/
def withinUlp (f : FFmt) (k cand : Nat) (neg : Bool) (mag : Nat) (exp : Int) : Bool :=
  match f.decode cand with
  | .fin n m q =>
    let (d, e) := exactSum n m q (!neg) mag exp
    -- |d| · 2^e ≤ (k + 2^-64) · 2^q
    let bound := k * 2 ^ 64 + 1
    let s := q - 64 - e
    decide (cand < 2 * f.signBit) &&
      (if 0 ≤ s then decide (d.natAbs ≤ bound <<< s.toNat) else decide (d.natAbs <<< (-s).toNat ≤ bound))
  | _ => false

/-- The finite, inexact result: the free candidate where it keeps the bound of R121, which for EXP2 is not negative. UF is for
a result that is delivered tiny (R123). -/
def transFree (f : FFmt) (op : TransOp) (a : Nat) (neg : Bool) (mag : Nat) (exp : Int) : Nat × Nat :=
  let (n, m, e) := transRef op neg mag exp
  let k := if f.m = 23 then 4 else 2
  let r := f.ofExact n m e
  if (f.round .nearest m e).ovf then (f.infinity n, Flag.OF ||| Flag.NX)
  else
    let cand := Config.transcendental op.code f.e f.m a
    let out := if withinUlp f k cand n m e && (op != .exp2 || decide (cand < f.signBit)) then cand else r.1
    (out, Flag.NX ||| flagIf (decide (out % f.signBit < 2 ^ f.m)) Flag.UF)

/-- R121 and Table VEC-5. -/
def FFmt.trans (f : FFmt) (op : TransOp) (a : Nat) : Nat × Nat :=
  match f.decode a with
  | .nan _ sig => (f.qnan, flagIf sig Flag.NV)
  | .inf neg =>
    match op with
    | .exp2 => (if neg then f.zero false else f.infinity false, 0)
    | .log2 => if neg then (f.qnan, Flag.NV) else (f.infinity false, 0)
    | .rcp => (f.zero neg, 0)
    | .rsqrt => if neg then (f.qnan, Flag.NV) else (f.zero false, 0)
  | .fin neg mag exp =>
    if mag = 0 then
      match op with
      | .exp2 => ((f.ofExact false 1 0).1, 0)
      | .log2 => (f.infinity true, Flag.DZ)
      | .rcp => (f.infinity neg, Flag.DZ)
      | .rsqrt => (f.infinity neg, Flag.DZ)
    else if neg && (op = .log2 || op = .rsqrt) then (f.qnan, Flag.NV)
    else if op = .exp2 && decide (f.e < leadExp mag exp) then
      -- |x| ≥ 2^(e+1) lies beyond every exponent of the format
      (if neg then (Config.transcendental op.code f.e f.m a % (if f.m = 23 then 5 else 3), Flag.UF ||| Flag.NX)
       else (f.infinity false, Flag.OF ||| Flag.NX))
    else if transExact op neg mag exp && transFits f op neg mag exp then
      let (n, m, e) := transExactVal op neg mag exp
      if m = 0 then (f.zero false, 0) else f.ofExact n m e
    else transFree f op a neg mag exp

/-! ### Element formats of memory (Table XFR-3) -/

/-- The format codes of Table XFR-3. -/
inductive EFmt where
  | raw | fp32 | bf16 | fp16 | e4m3 | e5m2 | int32 | int16 | int8
  | mxE4m3 | mxE5m2 | mxE3m2 | mxE2m3 | mxE2m1 | mxInt8
deriving DecidableEq, Repr

def EFmt.ofCode : Nat → Option EFmt
  | 0 => some .raw | 1 => some .fp32 | 2 => some .bf16 | 3 => some .fp16 | 4 => some .e4m3 | 5 => some .e5m2
  | 6 => some .int32 | 7 => some .int16 | 8 => some .int8 | 9 => some .mxE4m3 | 10 => some .mxE5m2
  | 11 => some .mxE3m2 | 12 => some .mxE2m3 | 13 => some .mxE2m1 | 14 => some .mxInt8
  | _ => none

def EFmt.isMx : EFmt → Bool
  | .mxE4m3 | .mxE5m2 | .mxE3m2 | .mxE2m3 | .mxE2m1 | .mxInt8 => true
  | _ => false

/-- Bits of one element; RAW's size comes from its descriptor. -/
def EFmt.bits : EFmt → Nat
  | .raw => 8
  | .fp32 | .int32 => 32
  | .bf16 | .fp16 | .int16 => 16
  | .e4m3 | .e5m2 | .int8 | .mxE4m3 | .mxE5m2 | .mxInt8 => 8
  | .mxE3m2 | .mxE2m3 => 6
  | .mxE2m1 => 4

/-- The floating-point layout of a format, if it has one. -/
def EFmt.float? : EFmt → Option FFmt
  | .fp32 => some .fp32
  | .bf16 => some .bf16
  | .fp16 => some .fp16
  | .e4m3 | .mxE4m3 => some .e4m3
  | .e5m2 | .mxE5m2 => some .e5m2
  | .mxE3m2 => some .e3m2
  | .mxE2m3 => some .e2m3
  | .mxE2m1 => some .e2m1
  | _ => none

/-- The exact value of an element (R96). -/
def EFmt.value (f : EFmt) (n : Nat) : Val :=
  match f.float? with
  | some g => g.decode n
  | none =>
    let i := signed n f.bits
    .fin (decide (i < 0)) i.natAbs (if f = .mxInt8 then -6 else 0)

/-- The exact value of an MX element under its shared scale byte; the NaN of scale 0xFF, whose sign R96 does not give, is
positive (DESIGN CHOICE, assumption 62). -/
def mxValue (f : EFmt) (scale n : Nat) : Val :=
  if scale = 0xFF then .nan false false
  else match f.value n with
    | .fin neg m e => .fin neg m (e + (scale : Int) - 127)
    | v => v

/-- A conversion's result bits, and whether R97 sets SAT for the element. -/
structure Conv where
  bits : Nat
  sat : Bool
deriving DecidableEq, Repr

/-- R96 and R97 into a floating-point format; `clampAll` saturates finite overflow and (but for E5M2) infinities. A finite value
just beyond the largest magnitude that rounds back to it is not counted as saturated (DESIGN CHOICE, assumption 62). -/
def toFloat (g : FFmt) (clampAll : Bool) (rm : Rounding) (v : Val) : Conv :=
  let s (neg : Bool) : Nat := if neg then g.signBit else 0
  match v with
  | .nan neg _ => ⟨s neg + g.qnan, true⟩
  | .inf neg =>
    if clampAll && decide (g.sp ≠ .ieee) then ⟨s neg + g.maxBits, true⟩ else ⟨s neg + g.infBits, false⟩
  | .fin neg m e =>
    let r := g.round rm m e
    if r.ovf then (if clampAll then ⟨s neg + g.maxBits, true⟩ else ⟨s neg + g.infBits, false⟩)
    else ⟨s neg + r.bits, false⟩

/-- R96 and R97 into a signed integer of width `w`: saturates, NaN gives 0. -/
def toInt (w : Nat) (rm : Rounding) (v : Val) : Conv :=
  let hi : Int := (2 ^ (w - 1) : Nat) - 1
  let lo : Int := -((2 ^ (w - 1) : Nat) : Int)
  match v with
  | .nan _ _ => ⟨0, true⟩
  | .inf neg => ⟨toBits (if neg then lo else hi) w, true⟩
  | .fin neg m e =>
    let k := sgn neg (roundAt rm m e 0).1
    if hi < k then ⟨toBits hi w, true⟩
    else if k < lo then ⟨toBits lo w, true⟩
    else ⟨toBits k w, false⟩

/-- Convert an exact value into a non-MX format other than RAW (Table XFR-5). -/
def convertTo (f : EFmt) (rm : Rounding) (v : Val) : Conv :=
  match f with
  | .fp32 => toFloat .fp32 false rm v
  | .bf16 => toFloat .bf16 false rm v
  | .fp16 => toFloat .fp16 false rm v
  | .e4m3 => toFloat .e4m3 true rm v
  | .e5m2 => toFloat .e5m2 true rm v
  | .int32 => toInt 32 rm v
  | .int16 => toInt 16 rm v
  | .int8 => toInt 8 rm v
  | _ => ⟨0, false⟩

/-- Convert element bits between non-MX formats: equal formats copy bit for bit (R96). -/
def convertBits (src dst : EFmt) (rm : Rounding) (n : Nat) : Conv :=
  if src = dst then ⟨n % 2 ^ src.bits, false⟩ else convertTo dst rm (src.value n)

/-- Whether R96 allows the pair (RAW only with RAW). -/
def pairAllowed (src dst : EFmt) : Bool := decide ((src = .raw) = (dst = .raw))

/-- The 16 bits `r` of R99 for stream index `n`. -/
def stochBits (seed n : Nat) : Nat := crc32c (natLE 4 seed ++ natLE 8 n) % 65536

/-- ROUND or RND as a rounding rule for stream index `n`. -/
def roundingOf (stoch : Bool) (seed n : Nat) : Rounding :=
  if stoch then .stochastic (stochBits seed n) else .nearest

/-- `emax` of R98. -/
def mxEmax : EFmt → Int
  | .mxE4m3 => 8
  | .mxE5m2 => 15
  | .mxE3m2 => 4
  | .mxE2m3 => 2
  | .mxE2m1 => 2
  | _ => 0

/-- The exponent `floor (log2 A)` of the largest magnitude among values, `none` when all are zero. -/
def largestExp (vs : List Val) : Option Int :=
  vs.foldl (fun acc v => match v with
    | .fin _ m e => if m = 0 then acc else
        (match acc with
         | none => some (leadExp m e)
         | some a => some (max a (leadExp m e)))
    | _ => acc) none

/-- R98: the scale byte and the elements of one MX block; the rounding rule of element `i` is `rm i`. In a block whose scale is
0xFF the NaN elements set SAT and infinities do not (DESIGN CHOICE, assumption 62). -/
def mxBlock (f : EFmt) (rm : Nat → Rounding) (vs : List Val) : Nat × List Conv :=
  let special := vs.any fun v => match v with
    | .fin _ _ _ => false
    | _ => true
  if special then (0xFF, vs.map fun v => ⟨0, v.isNan⟩)
  else
    let x : Int := match largestExp vs with
      | none => -127
      | some a => max (-127) (min 127 (a - mxEmax f))
    ((x + 127).toNat, vs.mapIdx fun i v =>
      let scaled : Val := match v with
        | .fin n m e => .fin n m (e - x)
        | w => w
      match f.float? with
      | some g => toFloat g true (rm i) scaled
      | none =>
        let up : Val := match scaled with
          | .fin n m e => .fin n m (e + 6)
          | w => w
        toInt 8 (rm i) up)

/-! ### Memory-side adds (R28, R151) -/

/-- The element formats a memory-side add accepts. -/
inductive AddFmt where
  | int32 | int64 | fp32 | bf16
deriving DecidableEq, Repr

/-- A number for each add format. -/
def AddFmt.code : AddFmt → Nat
  | .int32 => 0
  | .int64 => 1
  | .fp32 => 2
  | .bf16 => 3

/-- Bytes of an add's element. -/
def AddFmt.bytes : AddFmt → Nat
  | .int32 | .fp32 => 4
  | .int64 => 8
  | .bf16 => 2

/-- One element's add: integers wrap, floats round once to nearest even, any NaN gives the canonical one. -/
def AddFmt.add (f : AddFmt) (a b : Nat) : Nat :=
  match f with
  | .int32 => (a + b) % 2 ^ 32
  | .int64 => (a + b) % 2 ^ 64
  | .fp32 => (FFmt.fp32.add a b).1
  | .bf16 => (FFmt.bf16.add a b).1

/-- Add element by element over equally long byte lists. -/
def addBytes (f : AddFmt) : (fuel : Nat) → List Byte → List Byte → List Byte
  | 0, _, _ => []
  | k + 1, a, b =>
    if a.length < f.bytes then a
    else natLE f.bytes (f.add (leNat (a.take f.bytes)) (leNat (b.take f.bytes)))
      ++ addBytes f k (a.drop f.bytes) (b.drop f.bytes)

end Sys2Proof.Machine
end

