-- ==== Sys2Proof/Machine/StateMem.lean ====
section
/-! DEFINITION. The state of the shelf and of HBM as plain data (02), and what every memory request carries. -/

namespace Sys2Proof.Machine

/-- Who makes a request (R17, R263, R322). -/
inductive Agent where
  | xfer (pos : Nat)
  | vec (pos : Nat)
  | red (pos : Nat)
  | collect (pos : Nat)
  | cmd (pos : Nat)
  | siteCore (site core : Nat)
  | siteWhole (site : Nat)
  | denob
  | manager
  | host (fn : Nat)
  | reach (port : Nat)
  | security
  | boot
  | coherence
deriving DecidableEq, Repr

/-- A requester: the agent, its slice if it carries one, and the ensign and Halyard port of its requests. -/
structure Who where
  agent : Agent
  slice : Option Nat
  ensign : Nat
  port : Nat
deriving DecidableEq, Repr

/-- What a memory request does. -/
inductive MemOp where
  | read
  | write (data : List Byte)
  | add (fmt : AddFmt) (data : List Byte)
deriving DecidableEq, Repr

/-- One request within one aligned 256-byte chunk. -/
structure MemReq where
  who : Who
  addr : Nat
  len : Nat
  op : MemOp
  tag : Nat
deriving DecidableEq, Repr

/-- A request in a shelf bank's queue: how far it has gone and what it has met (R26, R30). -/
structure BankReq where
  req : MemReq
  done : Nat
  data : List Byte
  status : Status
deriving DecidableEq, Repr

/-- A bank copy of R33. -/
structure BankCopy where
  lbank : Nat
  old : Nat
  spare : Nat
  cursor : Nat
deriving DecidableEq, Repr

/-- A running fill (02, SH_FILL_CTRL). -/
structure Fill where
  block : Nat
  count : Nat
deriving DecidableEq, Repr

/-- A shelf bank's correction pennant of R29: when its last one goes out, and the corrections that it carries. -/
structure CeHold where
  last : Option Nat
  held : Nat
deriving DecidableEq, Repr

structure ShelfState where
  bytes : SMap Byte
  poison : NSet
  /-- inverted bits found by the next access of a word: 1 correctable, more uncorrectable -/
  upset : SMap Nat
  seals : SMap Word
  bankQ : SMap (List BankReq)
  writeBack : List Nat
  ceHold : SMap CeHold
  copies : List BankCopy
  struckBanks : NSet
  /-- by group: its free, good spare banks -/
  spares : SMap (List Nat)
  /-- banks struck only because their group was struck (R34), as (bank, group) -/
  held : List (Nat × Nat)
  fill : Option Fill
  scrubBeat : SMap Nat
deriving DecidableEq, Repr

/-- The error the stack reports on the next `times` reads of a granule: 1 corrected, 2 uncorrected. -/
structure HbmErr where
  kind : Nat
  times : Nat
deriving DecidableEq, Repr

/-- One stripe at the front end (R43, R44): whole-granule writes held while the stripe gathers, since when, and the requests
that wait for its lock. -/
structure Stripe where
  held : List MemReq
  since : Nat
  waiters : List MemReq
deriving DecidableEq, Repr

def Stripe.idle : Stripe := ⟨[], 0, []⟩

/-- A completion owed to a requester: its request, and the status and data that complete it. -/
structure Owed where
  req : MemReq
  status : Status
  data : List Byte
deriving DecidableEq, Repr

/-- A DRAM access: the granule's line-space address, and the stripe whose lock it holds until it is queued (R44). -/
structure Dram where
  x : Nat
  isWrite : Bool
  stripe : Option Nat
deriving DecidableEq, Repr

/-- A DRAM access in a reorder queue (R45): its granule line, and the completions that wait for it: a read's until it is
issued, a write's until it is within the queue's 64 entries, as does the stripe's lock (R44, R46). -/
structure RqEntry where
  line : Nat
  isWrite : Bool
  ensign : Nat
  queued : Nat
  owed : List Owed
  stripe : Option Nat
deriving DecidableEq, Repr

/-- One pseudo-channel: its queue (the first 64 entries; later ones wait at the front end), its write drain, its open
rows by bank, banks under refresh, and its training hold. -/
structure PseudoChannel where
  q : List RqEntry
  draining : Bool
  openRow : SMap Nat
  refreshing : NSet
  training : Bool
  holdTime : Nat
deriving DecidableEq, Repr

def PseudoChannel.idle : PseudoChannel := ⟨[], false, [], [], false, 0⟩

/-- A rebuild (R52): the logical channel, its spare, and the register that shows it. -/
structure Rebuild where
  srcStack : Nat
  k : Nat
  pstack : Nat
  pch : Nat
  cursor : Nat
  running : Bool
  second : Bool
  rate : Nat
  /-- its entry of the ticket journal (R388) -/
  journal : Nat
  /-- it went on after a warm reset (R389), and the cursor below which unprotected lines then keep the spare's contents -/
  resumed : Bool
  keepBelow : Nat
deriving DecidableEq, Repr

structure HbmState where
  /-- stored ciphertext by physical byte: ((stack · 32 + channel) · 2^23 + line) · 256 + byte -/
  bytes : SMap Byte
  /-- stored tag by physical granule -/
  tags : SMap Word
  err : SMap HbmErr
  stripes : SMap Stripe
  pcs : SMap PseudoChannel
  rebuilds : List Rebuild
  /-- granules of channels under rebuild that a whole-granule write has reached (R52) -/
  rewritten : NSet
  /-- octets of stripes that lost two members, whose parity does not match their granules (R53) -/
  lost : NSet
  /-- the DRAM accesses of the access being performed; empty between steps -/
  dram : List Dram
  /-- the region check of R38 failed -/
  disabled : Bool
  struckCh : NSet
  scrubLine : SMap Nat
  selfRefresh : Bool
deriving DecidableEq, Repr

def ShelfState.reset : ShelfState := ⟨[], [], [], [], [], [], [], [], [], [], [], none, []⟩
def HbmState.reset : HbmState := ⟨[], [], [], [], [], [], [], [], [], false, [], [], false⟩

end Sys2Proof.Machine
end

