-- ==== Sys2Proof/Machine/StateExt.lean ====
section
/-! DEFINITION. The model's record of what an engine's step waits for outside the hub: reads and writes of site windows,
host memory and reach peers that are in flight or answered, directory transactions, and translations. An engine's row that
meets one that is not there yet changes nothing else and is sent again later (DESIGN CHOICE, assumption 5). -/

namespace Sys2Proof.Machine

/-- What an external access reaches. -/
inductive ExtTarget where
  | window (site off : Nat)
  | host (fn pasid va : Nat)
  /-- memory, the seal of a block, an object's signal or reset, or a wait (with a key of its waiter), through entry `n` of
  RCH_PEER -/
  | peer (n addr : Nat)
  | peerSeal (n addr : Nat)
  | peerSync (n addr : Nat)
  | peerWait (n addr target key : Nat)
deriving DecidableEq, Repr

/-- An access outside the hub; `nth` counts the equal ones that its step made before it. -/
structure ExtNeed where
  who : Who
  target : ExtTarget
  len : Nat
  op : MemOp
  nth : Nat
deriving DecidableEq, Repr

/-- An answered one. -/
structure ExtDone where
  need : ExtNeed
  status : Status
  data : List Byte
deriving DecidableEq, Repr

/-- The translating units of Table XLT-1. -/
inductive XUnit where
  | cmd | xfer | red | denob
deriving DecidableEq, Repr

/-- A translation that a step needs: the page of `va` under a slice, for read or write, whether a page request may be
made for it (Table XLT-1), whether an AtomicOp needs it (R231), and the transfer slot it is for (`ExtState.lane`). -/
structure PageNeed where
  unit : XUnit
  pos : Nat
  slice : Nat
  va : Nat
  write : Bool
  pri : Bool
  atomic : Bool
  lane : Nat
deriving DecidableEq, Repr

/-- The page under which a host read was translated: its first address, its size (log2) and its G bit (R238). -/
structure PageUse where
  va : Nat
  log2 : Nat
  g : Bool
deriving DecidableEq, Repr

/-- What a step must wait for. -/
inductive Need where
  | ext (n : ExtNeed)
  | line (line : Nat) (write : Bool)
  | page (p : PageNeed)
  /-- the end of a position's move (R331) -/
  | frame (pos : Nat)
  /-- a stripe's lock (R44) -/
  | stripe (m : Nat)
  /-- the end of a refresh or a training hold in a pseudo-channel (R47) -/
  | dram (pc : Nat)
deriving DecidableEq, Repr

structure ExtState where
  /-- what the step in progress has found missing; empty between steps -/
  need : List Need
  /-- answers the step in progress has taken; empty between steps -/
  used : List ExtNeed
  sent : List ExtNeed
  done : List ExtDone
  /-- the transfer slot that the step in progress works for, 1 + 8 × position + slot; 0 for none, as between steps -/
  lane : Nat
deriving DecidableEq, Repr

def ExtState.reset : ExtState := ⟨[], [], [], [], 0⟩

end Sys2Proof.Machine
end

