-- ==== Sys2Proof/Machine/StateCoh.lean ====
section
/-! DEFINITION. The coherence home's state as plain data (09): the directory, its open transactions, and reclaim. -/

namespace Sys2Proof.Machine

/-- Directory states of Table COH-5. -/
inductive DirState where
  | shr | own | fsh
deriving DecidableEq, Repr

/-- A directory entry in use (Table COH-5); `line` stands for its set and TAG, `ptrs` for PV and PTR0–PTR3, `alloc` for the
order of allocation (R212). -/
structure DirEntry where
  way : Nat
  line : Nat
  state : DirState
  bunt : Bool
  ptrs : List (Option Nat)
  alloc : Nat
deriving DecidableEq, Repr

/-- The coherent requests of R193. -/
inductive CReq where
  | rdS | rdO | upg | wb | evict
deriving DecidableEq, Repr

/-- A coherent request as its packet brings it. -/
structure CMsg where
  op : CReq
  agent : Nat
  tag : Nat
  line : Nat
deriving DecidableEq, Repr

/-- Snoop opcodes. -/
inductive SnpOp where
  | inv | shr | fwd
deriving DecidableEq, Repr

/-- A snoop not yet answered: its agent, and since when; `wbPending` once answered WB_PENDING. -/
structure SnpOut where
  op : SnpOp
  agent : Nat
  sent : Nat
  wbPending : Bool
deriving DecidableEq, Repr

/-- What a transaction serves. -/
inductive TxnKind where
  | request (m : CMsg)
  /-- a request whose way is still being evicted (R212) -/
  | queued (m : CMsg)
  | uncached (write : Bool)
  | evict (next : Option CMsg)
  /-- R216: the sharers still to be asked for any copy -/
  | recover (rest : List Nat)
deriving DecidableEq, Repr

/-- An open transaction and its tracker (R208). -/
structure Txn where
  line : Nat
  kind : TxnKind
  snoops : List SnpOut
  /-- agents that answered NOCOPY -/
  gone : List Nat
  data : Option (List Byte)
  dirty : Bool
  /-- agents whose C_WB came before their answer to the snoop (R207) -/
  wbFrom : List Nat
  /-- the owner or forwarder failed to answer with the line's data; the other holders are being invalidated -/
  lost : Option Nat
  purging : Bool
  /-- until when the hold window runs, once answered (R209) -/
  hold : Option Nat
  nacked : Option Nat
  /-- a C_WB that served as a snoop's data, answered when the transaction's change has been made (R207) -/
  wb : Option CMsg
  /-- its requester is dead and its tracker free; the snoops of live agents are still awaited (R215) -/
  discarded : Bool
deriving DecidableEq, Repr

/-- A reservation of R210. -/
structure Reservation where
  line : Nat
  agent : Nat
  until' : Nat
deriving DecidableEq, Repr

structure CohState where
  /-- by set -/
  dir : SMap (List DirEntry)
  /-- fenced ways, set × 16 + way -/
  fenced : NSet
  allocs : Nat
  txns : List Txn
  reserved : List Reservation
  /-- the next set of the reclaim scan -/
  scan : Option Nat
  /-- lines whose uncached accesses wait in the home (R211) -/
  waiting : List (Nat × Bool)
deriving DecidableEq, Repr

def CohState.reset : CohState := ⟨[], [], 0, [], [], none, []⟩

end Sys2Proof.Machine
end

