-- ==== Sys2Proof/Machine/StateDenob.lean ====
section
/-! DEFINITION. Denob's data memory as plain data (11): plans, requests, token entries that wait, adapter slots, and the step
each partition runs. -/

namespace Sys2Proof.Machine

/-- A loaded plan (Table SRV-1). -/
structure Plan where
  layers : Nat
  vocab : Nat
  eos : Nat
  maxContext : Nat
  pageTokens : Nat
  maxBatch : Nat
  tokenBytes : Nat
  weights : Nat
  templates : List Byte
deriving DecidableEq, Repr

/-- A token entry (Table SRV-3). -/
structure TokEntry where
  id : Nat
  token : Nat
  seq : Nat
  status : Nat
  kind : Nat
  reason : Nat
deriving DecidableEq, Repr

/-- A request: its entry (Table SRV-2), what admission read, and how far it is. -/
structure DnReq where
  slice : Nat
  id : Nat
  plan : Nat
  adapter : Nat
  promptPtr : Nat
  promptLen : Nat
  maxNew : Nat
  temperature : Nat
  topP : Nat
  topK : Nat
  seed : Nat
  stopPtr : Nat
  stopCount : Nat
  prompt : List Nat
  stops : List (List Nat)
  /-- tokens chosen so far, EOS apart -/
  chosen : List Nat
  /-- context tokens whose KV positions are written, and how many the running step feeds -/
  ctx : Nat
  feed : Nat
  /-- the running step has sampled its token -/
  sampled : Bool
  pages : List Nat
  slot : Option Nat
  /-- its adapter's record, as read at admission: DLA and size (R252) -/
  record : Option (Nat × Nat)
  /-- the token that the running step's final mark is to post -/
  due : Option TokEntry
  /-- its END entry, posted when it retires -/
  ended : Option TokEntry
  cancelled : Bool
  /-- tokens posted before a restore: they are chosen again and not posted again (R270) -/
  skip : Nat
deriving DecidableEq, Repr

/-- What Denob keeps per slice: its pending list, entries that wait for the token ring, the interrupt's coalescing, and the
host counter's entries (R248, R249). -/
structure DnSlice where
  pending : List DnReq
  entries : List TokEntry
  posted : Nat
  firstAt : Option Nat
  uncounted : Nat
  counting : Option Nat
  /-- a token-ring write failed: the slice's requests are parked (R258) -/
  tokStall : Bool
deriving DecidableEq, Repr

def DnSlice.reset : DnSlice := ⟨[], [], 0, none, 0, none, false⟩

/-- An adapter slot in use (R252): what it holds, when it was used last, the ring index of the XFER that still fills it, and
that XFER's status once it has completed. -/
structure AdSlot where
  dla : Nat
  size : Nat
  used : Nat
  copying : Option Nat
  copied : Option Status
deriving DecidableEq, Repr

structure DnPart where
  plans : SMap (Option Plan)
  /-- loads and unloads that take effect at the next step boundary -/
  changes : List (Nat × Option Plan)
  /-- the batch, in the order of admission -/
  active : List DnReq
  lastSlice : Nat
  step : Nat
  /-- a step runs; its plan; its final mark has committed -/
  running : Bool
  plan : Nat
  committed : Bool
  /-- commands of the step not yet in their rings: class and words -/
  toWrite : List (Nat × List Nat)
  slots : SMap (Option AdSlot)
  clock : Nat
  /-- the three words of DN_PART_CFG as they last took effect -/
  conf : Nat × Nat × Nat
deriving DecidableEq, Repr

def DnPart.reset : DnPart := ⟨[], [], [], 0, 0, false, 0, false, [], [], 0, (0, 0, 0)⟩

structure DnState where
  parts : SMap DnPart
  slices : SMap DnSlice
  /-- firmware restarts (R256); an activation waits for step boundaries (R257); the bank was switched and its self-check is
  awaited -/
  restarting : Bool
  activating : Bool
  switched : Bool
  /-- the partition and plan slot of the load that runs (R245) -/
  loading : Option (Nat × Nat)
deriving DecidableEq, Repr

def DnState.reset : DnState := ⟨[], [], false, false, false, none⟩

end Sys2Proof.Machine
end

