-- ==== Sys2Proof/Machine/StateEp.lean ====
section
/-! DEFINITION. The host endpoint's state as plain data (14). -/

namespace Sys2Proof.Machine

/-- A request slot's use (R300, R301). -/
structure HostSlot where
  fn : Nat
  gen : Nat
  need : ExtNeed
  addr : Nat
  length : Nat
  received : Nat
  data : List Byte
  since : Nat
  /-- the Completion Timeout Value in force when it was sent, in CLK_CORE cycles (R301) -/
  limit : Nat
  /-- the page that translated it, if one did -/
  page : Option PageUse
  /-- its data is not taken: an invalidation made its block prepare again (R239) -/
  stale : Bool
deriving DecidableEq, Repr

/-- A non-posted request that waits for a slot. -/
structure HostWait where
  need : ExtNeed
  pasid : Nat
  translated : Bool
  addr : Nat
  page : Option PageUse
deriving DecidableEq, Repr

/-- A quarantined slot generation: bytes still owed, and whether a timeout put it there (R300). -/
structure Quarantine where
  slot : Nat
  gen : Nat
  fn : Nat
  owed : Nat
  byTimeout : Bool
deriving DecidableEq, Repr

structure EpState where
  /-- configuration space by function × 4096 + byte offset of the dword; an unlisted one holds its default -/
  cfg : SMap Nat
  slots : SMap (Option HostSlot)
  slotGen : SMap Nat
  quarantine : List Quarantine
  /-- non-posted requests that wait for a slot -/
  waiting : List HostWait
  /-- head writebacks that wait for Bus Master Enable, by 4 × slice + class (R302) -/
  wbWaits : NSet
  /-- MSI-X tables: by function × 2048 + vector, the entry's address, data and mask -/
  msixAddr : SMap Word
  msixData : SMap Word
  msixUnmasked : NSet
  msixPending : NSet
  /-- sampled EP_CFG and EP_SUBSYS (R291) -/
  sampled : Option (Nat × Nat)
  /-- by VF: RESET_SEEN and the reset count of its status page (Table EPT-5) -/
  resetSeen : NSet
  resetCount : SMap Nat
  /-- functions under a Function Level Reset, with the partition resets each waits for -/
  flr : List Nat
  /-- the link has trained since the device reset -/
  linkUp : Bool
  /-- IDE streams that are Insecure, and streams bound to a TDI -/
  insecure : NSet
  tdiStream : SMap Nat
  /-- AER status by function, as the set of error bits logged, and the headers that wait there -/
  aer : SMap Nat
  aerHeaders : SMap Nat
deriving DecidableEq, Repr

def EpState.reset : EpState :=
  ⟨[], [], [], [], [], [], [], [], [], [], none, [], [], [], false, [], [], [], []⟩

end Sys2Proof.Machine
end

