-- ==== Sys2Proof/Machine/StateFault.lean ====
section
/-! DEFINITION. The fault collector's state as plain data (16): its input queue, the records it handles, its buckets, and
the recoveries that run. -/

namespace Sys2Proof.Machine

/-- A record on its way to the collector (Table FLT-1), with the time it is sent. -/
structure Record where
  source : Nat
  kind : Nat
  aux : Nat
  count : Nat
  addr : Nat
  pair : Bool
  injected : Bool
  noSlice : Bool
  sent : Nat
deriving DecidableEq, Repr

/-- What a record's action still runs: a partition's reset, a channel's rebuild, a logical bank's copy, its recoveries, or a
restart. -/
inductive FWait where
  | part (p : Nat)
  | rebuild (stack k : Nat)
  | copy (lb : Nat)
  | recovery
  | denob
  | collector
deriving DecidableEq, Repr

/-- A handled record that is not yet cleared (R328): its number, its log index if it was logged, and what its action waits
for. -/
structure OpenRecord where
  id : Nat
  index : Option Nat
  needsAck : Bool
  acked : Bool
  done : Bool
  waits : List FWait
  handledAt : Nat
deriving DecidableEq, Repr

/-- The work of one recovery (R342): a strike of a hub core that holds a position or of a site core, a site loss, a data
replay, a Denob restart. A core's sync home that raised the fault brings the objects that cannot be read (R332). -/
inductive RecoveryKind where
  | core (phys pos : Nat) (home : Option (List Nat))
  | siteCore (site phys : Nat)
  | site (site : Nat)
  | dataReplay (slice : Nat)
  | denob
deriving DecidableEq, Repr

/-- How far a recovery is: another runs in its partition; CANCELs are unanswered; the unfence of a logical site core's new
core is. -/
inductive RecoveryPhase where
  | waiting | cancelling
  | unfencing (logical : Nat)
deriving DecidableEq, Repr

/-- A recovery: its partition (32 where it has none), the slices it stopped with their generations, and the record it
serves. -/
structure Recovery where
  kind : RecoveryKind
  part : Nat
  slices : List (Nat × Nat)
  record : Option Nat
  phase : RecoveryPhase
  since : Nat
deriving DecidableEq, Repr

/-- The level of the WAVE pin (R329). -/
inductive Wave where
  | low | high | toggling
deriving DecidableEq, Repr

/-- A site core's unfence under R333: the logical and physical core, and when it was sent. -/
structure Unfence where
  site : Nat
  logical : Nat
  phys : Nat
  since : Nat
deriving DecidableEq, Repr

structure FaultState where
  inQ : List Record
  /-- by source × 256 + kind: the earliest time of the source's next pennant of that kind (R322) -/
  nextAt : SMap Nat
  opened : List OpenRecord
  /-- the number of the next record handled -/
  nextRecord : Nat
  /-- by source: the events in its bucket, as when they leave it and how many (R327) -/
  buckets : SMap (List (Nat × Nat))
  /-- by pair number: what the last samples showed, 0 normal, 1 asserted, 2 one equal sample, 3 broken -/
  pairs : SMap Nat
  pollMiss : SMap Nat
  recoveries : List Recovery
  unfences : List Unfence
  /-- the collector restarts, since a time (R325) -/
  restarting : Option Nat
  /-- the running restore of R335: its source -/
  restore : Option Nat
  /-- slices that have had their one data replay since their last committed mark (R339) -/
  dataReplayed : NSet
  /-- a record became uncleared, and WAVE has not resumed since (R329) -/
  waveStopped : Bool
  wave : Wave
  waveLapsed : Bool
  fatalAt : Option Nat
  /-- the root clock failed (R345) -/
  rootFailed : Bool
  /-- by source: frames whose CRC the injection of R348 still corrupts -/
  corruptFrames : SMap Nat
  /-- pairs that an injection holds equal, until a time -/
  injectPair : Option (Nat × Nat)
deriving DecidableEq, Repr

def FaultState.reset : FaultState :=
  ⟨[], [], [], 0, [], [], [], [], [], none, none, [], false, .high, false, none, false, [], none⟩

end Sys2Proof.Machine
end

