-- ==== Sys2Proof/Machine/StatePower.lean ====
section
/-! DEFINITION. What the power manager remembers beside its registers, and the pins it drives, as plain data (19, 21). -/

namespace Sys2Proof.Machine

/-- One site's budget (R395–R400): SEQ of its last grant, whether that grant is unanswered, whether its first
grant since enrolment was sent, consecutive grants answered, the last grant answered, a lateral site's fixed limit since a
time, since when the silicon beneath it is cool, and its running dip (automatic or not) with its end. -/
structure SitePower where
  seq : Nat
  unanswered : Bool
  started : Bool
  answered : Nat
  lastAnswered : Nat
  isolatedSince : Option Nat
  coolSince : Option Nat
  dip : Option (Bool × Nat)
deriving DecidableEq, Repr

def SitePower.reset : SitePower := ⟨0, false, false, 0, 0, none, none, none⟩

/-- THERMTRIP_L is driven low (R409), the periods in a row in which the package exceeded PKG_W (R398), and the I3C target's
offset (R410). -/
structure PwState where
  thermTrip : Bool
  excess : Nat
  /-- duty steps lost to power and to heat (R393) -/
  lostPower : Nat
  lostHeat : Nat
  i3cOffset : Nat
deriving DecidableEq, Repr

def PwState.reset : PwState := ⟨false, 0, 0, 0, 0⟩

end Sys2Proof.Machine
end

