-- ==== Sys2Proof/Machine/StateSite.lean ====
section
/-! DEFINITION. One site's link and protocol state as plain data (07, 08). -/

namespace Sys2Proof.Machine

/-- A protocol packet (Table SWP-1) with its data bytes. -/
structure Packet where
  op : Nat
  units : Nat
  tag : Nat
  len : Nat
  core : Nat
  ctx : Nat
  attr : Nat
  addr : Nat
  param : Nat
  data : List Byte
deriving DecidableEq, Repr

/-- What a tag of the hub's own requests is in use for (R177). -/
inductive TagUse where
  | window (need : ExtNeed)
  | dispatch
  | cancel (ctx phys : Nat)
  | fence (phys : Nat) (unfence : Bool)
  | snoop (line agent : Nat)
deriving DecidableEq, Repr

/-- A request of the hub that no free tag has been found for. -/
structure HubReq where
  use : TagUse
  packet : Packet
deriving DecidableEq, Repr

/-- A tag in use: since when, and whether its request has timed out and its answer will be late. -/
structure HubTag where
  use : TagUse
  since : Nat
  timedOut : Bool
deriving DecidableEq, Repr

/-- A live dispatch (R178, R188–R190). -/
structure Dispatch where
  slice : Nat
  gen : Nat
  epoch : Nat
  ensign : Nat
  /-- the physical core it was dispatched to; none when ANY was set -/
  core : Option Nat
  pos : Nat
  /-- the command it completes: queue 4 × slice + class, and command id -/
  queue : Nat
  id : Nat
  since : Nat
  limitUs : Nat
  /-- its DISPATCH has been sent: the CTX is live (R178) -/
  sent : Bool
  cancelled : Bool
  /-- a cancelled dispatch has been answered by its DONE -/
  completed : Bool
deriving DecidableEq, Repr

/-- How far enrolment has gone: nothing running, or the n-th ENROL_REQ sent at a time. -/
inductive Enrol where
  | idle
  | asked (sends since : Nat)
deriving DecidableEq, Repr

/-- Credits in hand: what the hub may still send, and what the site may. -/
structure Credits where
  hubReqH : Nat
  hubReqD : Nat
  hubSnpH : Nat
  siteReqH : Nat
  siteReqD : Nat
  siteCreqH : Nat
  siteCreqD : Nat
deriving DecidableEq, Repr

def Credits.none : Credits := ⟨0, 0, 0, 0, 0, 0, 0⟩

/-- A frame held for resending, or received (R159). -/
structure Frame where
  seq : Nat
  payload : List Byte
deriving DecidableEq, Repr

/-- A sideband message that expects a reply (R168): its opcode, the reply's, its tag and data, and how often it was
sent. -/
structure SbWait where
  op : Nat
  reply : Nat
  tag : Nat
  data0 : Nat
  data1 : Nat
  sends : Nat
  since : Nat
deriving DecidableEq, Repr

/-- A width reconciliation (R163, R164): the attempt, what each side proposed and agreed, the groups that failed training,
and the previous attempt's proposals. -/
structure Recon where
  attempt : Nat
  hubSet : Option Nat
  siteSet : Option Nat
  hubAgree : Option Nat
  siteAgree : Option Nat
  failed : Nat
  lastHub : Nat
  lastSite : Nat
  since : Nat
deriving DecidableEq, Repr

/-- The link of a site: its frames, sideband and training. -/
structure LinkState where
  txSeq : Nat
  held : List Frame
  /-- protocol bytes that wait for a frame or a Flit -/
  txWait : List Byte
  /-- a lateral link's next Flit, and by module the Flits that wait for it (R161) -/
  flitNext : Nat
  flitWait : SMap (List (List Byte))
  /-- received bytes of a packet that is not whole yet (R172) -/
  rxBytes : List Byte
  rxNext : Nat
  rxAny : Bool
  /-- a NAK is out since this time (R160 rule 3) -/
  nakAt : Option Nat
  framesSinceAck : Nat
  ackAt : Nat
  /-- consecutive failed sends of the frame now expected -/
  sendFails : Nat
  /-- the held frame that the site's NAKs last asked for, and how many in a row have -/
  nakSeq : Nat
  nakCount : Nat
  /-- by group: when its last error event was entered (R160 rule 5), by module for lateral sites -/
  eventAt : SMap Nat
  moduleDown : SMap Nat
  hello : Bool
  /-- when LINK_HELLO was last sent -/
  helloAt : Nat
  heartbeatAt : Nat
  hbSentAt : Nat
  hbSeq : Nat
  waits : List SbWait
  sbTag : Nat
  /-- a width change in progress: the new set -/
  widthChange : Option Nat
  recon : Option Recon
  pinned : Option Nat
  /-- groups that passed the receive test of the training in progress -/
  passed : Nat
  /-- the lowest rate of the modules proposed (R157) -/
  rate : Nat
  /-- SRST_L: asserted, and since when training runs -/
  srstLow : Bool
  srstAt : Nat
  trainAt : Option Nat
  /-- held as EN 0 after the 20 ms limit (R156) -/
  absent : Bool
  clocksRun : Bool
deriving DecidableEq, Repr

def LinkState.reset : LinkState :=
  ⟨0, [], [], 0, [], [], 0, false, none, 0, 0, 0, 0, 0, [], [], false, 0, 0, 0, 0, [], 0, none, none, none, 0, 0, true, 0,
    none, false, false⟩

/-- A request of the site that was received whole and waits for something outside, with the dispatch of its context; whether
its site has been lost since (R169). -/
structure Begun where
  packet : Packet
  disp : Option Dispatch
  lost : Bool
deriving DecidableEq, Repr

structure SiteState where
  link : LinkState
  credits : Credits
  /-- hub tags in use -/
  tags : SMap (Option HubTag)
  /-- request tags of the site in use -/
  siteTags : NSet
  begun : List Begun
  /-- live dispatch contexts by TAG -/
  disp : SMap (Option Dispatch)
  enrol : Enrol
  /-- packets that wait for credits, in order -/
  txq : List Packet
  /-- requests that wait for a tag, in order (R177) -/
  owed : List HubReq
  fencedCores : NSet
  power : SitePower
deriving DecidableEq, Repr

def SiteState.reset : SiteState :=
  ⟨LinkState.reset, Credits.none, [], [], [], [], .idle, [], [], [], SitePower.reset⟩

end Sys2Proof.Machine
end

