-- ==== Sys2Proof/Machine/StateReach.lean ====
section
/-! DEFINITION. The reach ports' state as plain data (15). -/

namespace Sys2Proof.Machine

/-- A reach packet's header fields with its data (R312). -/
structure RPacket where
  dst : Nat
  src : Nat
  slice : Nat
  kind : Nat
  ensign : Nat
  tag : Nat
  len : Nat
  units : Nat
  route : Nat
  hop : Nat
  hops : Nat
  relays : Nat
  ret : Nat
  addr : Nat
  status : Nat
  data : List Byte
deriving DecidableEq, Repr

/-- A request of this device that has no response yet (R317, R318). -/
structure ReachReq where
  tag : Nat
  port : Nat
  entry : Nat
  onAlt : Bool
  need : ExtNeed
  since : Nat
  /-- timed out: its response will be late -/
  late : Bool
  /-- a wait that its peer has registered: its notice is to come -/
  registered : Bool
deriving DecidableEq, Repr

/-- One port's link. -/
structure ReachPort where
  txSeq : Nat
  held : List Frame
  rxNext : Nat
  nakAt : Option Nat
  framesSinceAck : Nat
  ackAt : Nat
  /-- training ended and HELLO was sent -/
  trained : Bool
  /-- the port may train, since a time -/
  trainAt : Option Nat
  /-- halves retired (R310) -/
  retired : Nat
  widthChange : Option Nat
  /-- credits in hand for REQ and RSP, and those still to be returned, in units -/
  reqCr : Nat
  rspCr : Nat
  owedReq : Nat
  owedRsp : Nat
  txq : List RPacket
  /-- packet bytes that wait for a frame -/
  txWait : List Byte
  /-- received bytes of a packet that is not whole yet (R172, R308) -/
  rxBytes : List Byte
  /-- the ensigns whose turns they are on REQ and RSP (R313, R277) -/
  turnReq : Nat × Nat
  turnRsp : Nat × Nat
  /-- the neighbour was taken away while the port was powered (R320) -/
  removed : Bool
deriving DecidableEq, Repr

def ReachPort.reset : ReachPort :=
  ⟨0, [], 0, none, 0, 0, false, none, 0, none, 0, 0, 0, 0, [], [], [], (0, 0), (0, 0), false⟩

structure ReachState where
  ports : SMap ReachPort
  reqs : List ReachReq
  nextTag : Nat
  /-- peer entries whose primary, or both paths, are lost (R318) -/
  priLost : NSet
  failed : NSet
  /-- entries rewritten by the manager, to take effect once drained -/
  rewrites : NSet
deriving DecidableEq, Repr

def ReachState.reset : ReachState := ⟨[], [], 0, [], [], []⟩

end Sys2Proof.Machine
end

