-- ==== Sys2Proof/Machine/StateHoist.lean ====
section
/-! DEFINITION. Sync objects, the queues of each slice, its handles, marks and completion ring, and its tenancy state as
plain data (03, 12). -/

namespace Sys2Proof.Machine

/-! ### Sync objects (R75–R78) -/

/-- Who waits for an object. -/
inductive Waiter where
  /-- a WAIT of queue 4 × slice + class, by command id -/
  | queue (q id : Nat)
  /-- a COLLECT member's step -/
  | collect (pos q id : Nat)
  /-- a site's SYNC_WAIT: its tag, core and context -/
  | site (site tag core ctx : Nat)
  /-- a reach peer's wait: the port its request came by, and the request -/
  | peer (port : Nat) (req : RPacket)
deriving DecidableEq, Repr

/-- A pending wait at its home; one without a table entry polls (R78). -/
structure SyncWait where
  obj : Nat
  target : Nat
  who : Waiter
  since : Nat
  limitUs : Nat
  polls : Bool
  satisfied : Bool
deriving DecidableEq, Repr

structure SyncState where
  vals : SMap Word
  /-- by home position -/
  waits : SMap (List SyncWait)
  /-- homes that failed with no spare (R332) -/
  lostHomes : NSet
deriving DecidableEq, Repr

/-! ### Queues (03) -/

/-- A fetched command: its eight words, its ring index (or its ring-level CALL's), its list index and depth. -/
structure FCmd where
  words : List Nat
  ring : Nat
  listIdx : Nat
  depth : Nat
deriving DecidableEq, Repr

/-- A running command list: where it lies, the next entry to fetch, the ring index of its ring-level CALL, and the
caller's commands fetched beyond the CALL. -/
structure ListFrame where
  ptr : Nat
  len : Nat
  next : Nat
  ring : Nat
  after : List FCmd
deriving DecidableEq, Repr

/-- An issued command that is not complete. -/
structure CmdRec where
  id : Nat
  cmd : FCmd
  epoch : Nat
  ensign : Nat
  /-- what its engine reported: status and count -/
  result : Option (Nat × Nat)
  /-- its completion signal has been performed -/
  signalled : Bool
  /-- its entry waits in the completion ring -/
  posting : Bool
deriving DecidableEq, Repr

/-- What holds a queue's issue (R60). -/
inductive QBlock where
  | wait (id : Nat)
  | fence (id scope : Nat)
  | mark (id : Nat)
  | handle (id seq : Nat)
deriving DecidableEq, Repr

/-- Why a queue is in ERROR (R84). -/
inductive QFail where
  /-- a failed command, to be issued again or passed over -/
  | cmd (c : FCmd)
  | fetch
  | overrun
  /-- the start checks of R56, or the partition went down -/
  | none
deriving DecidableEq, Repr

/-- A write toward the host not yet flushed: function, PASID, address (R72). -/
structure HostDirty where
  fn : Nat
  pasid : Nat
  addr : Nat
deriving DecidableEq, Repr

structure QueueState where
  fetched : List FCmd
  stack : List ListFrame
  inflight : List CmdRec
  nextId : Nat
  block : Option QBlock
  fail : Option QFail
  /-- ENABLE was cleared and commands still run (R85) -/
  stopping : Bool
  /-- a recovery holds issue (R337) -/
  held : Bool
  hostDirty : Option HostDirty
  wbAt : Nat
  idleWb : Bool
  lastIssue : Nat
  /-- commands issued since the last commit, in order, with CALL lists in place (R336) -/
  log : List FCmd
  /-- commands of the log that a replay has still to issue again, before the fetched ones (R337) -/
  replay : List FCmd
  /-- the stack at the last committed mark -/
  markStack : List ListFrame
  /-- while a replay runs: the stack to go on with after it -/
  resume : Option (List ListFrame)
deriving DecidableEq, Repr

def QueueState.reset : QueueState :=
  ⟨[], [], [], 0, none, none, false, false, none, 0, false, 0, [], [], [], none⟩

/-! ### Slices (03, 12) -/

/-- A completion entry (Table HST-7) and the command it completes. -/
structure CEntry where
  kind : Nat
  handle : Nat
  status : Nat
  user : Nat
  cls : Nat
  index : Nat
  count : Nat
  time : Nat
  owner : Option (Nat × Nat)
  ensign : Nat
deriving DecidableEq, Repr

/-- A signal arranged by a HANDLE of queue `cls`: its object, its amount, and its command's effective ensign. -/
structure HandleSignal where
  cls : Nat
  ptr : Nat
  amt : Nat
  ensign : Nat
deriving DecidableEq, Repr

/-- A live handle (R79, R80): its sequence, the signals arranged at its completion, and its outcome once finished. -/
structure Handle where
  seq : Nat
  signals : List HandleSignal
  done : Option Nat
deriving DecidableEq, Repr

/-- A long operation that acts on a slice (R270, R271): its buffer, LENGTH in units and migration key slot, the sequence of
its handle of slice 0, and its journal entry. -/
structure SliceOp where
  restore : Bool
  buf : Nat
  units : Nat
  keySlot : Nat
  seq : Nat
  journal : Nat
deriving DecidableEq, Repr

/-- A running freeze: when it started (R269). -/
structure Freeze where
  since : Nat
deriving DecidableEq, Repr

structure SliceState where
  handles : List Handle
  /-- completion entries that wait, oldest first (R82) -/
  entries : List CEntry
  /-- entries posted since the last interrupt, and when the first was (R83) -/
  posted : Nat
  firstAt : Option Nat
  /-- a stalled completion-ring write: since when, and whether translation stalled it (R236) -/
  stall : Option (Nat × Bool)
  /-- queues that have reached a mark: class, MARK_NO -/
  reached : List (Nat × Nat)
  qmaskNext : Option Nat
  /-- the last committed mark's snapshot -/
  snapshot : List (Nat × Nat)
  unreplayable : Bool
  mbxOut : List Nat
  outBusy : Bool
  dropped : Bool
  mbxIn : List Nat
  inValid : Bool
  freeze : Option Freeze
  /-- a release that runs, or waits for a reset to end: its OVERWRITE -/
  releasing : Option Bool
  op : Option SliceOp
deriving DecidableEq, Repr

def SliceState.reset : SliceState :=
  ⟨[], [], 0, none, none, [], none, [], false, [], false, false, [], false, none, none, none⟩

/-! ### Partitions (R260, R272) -/

/-- A partition reset that runs: whether a Function Level Reset of its function started it. -/
structure PartReset where
  part : Nat
  flr : Bool
  since : Nat
deriving DecidableEq, Repr

/-- A re-form that runs: its layout, the partitions it changes, its handle of slice 0 and its journal entry. -/
structure Reform where
  layout : Nat
  changed : List Nat
  seq : Nat
  journal : Nat
deriving DecidableEq, Repr

structure TenState where
  resets : List PartReset
  reform : Option Reform
  /-- writes to tuning registers that wait for the re-form: offset, bytes, value (R22) -/
  deferred : List (Nat × Nat × Nat)
deriving DecidableEq, Repr

def TenState.reset : TenState := ⟨[], none, []⟩

end Sys2Proof.Machine
end

