-- ==== Sys2Proof/Machine/StateHy.lean ====
section
/-! DEFINITION. The Halyard network's state as plain data (13): packets at their taps, requests outstanding, buckets and
live statistics. -/

namespace Sys2Proof.Machine

/-- A packet's header (Table HAL-2) and its unit's presentation time. -/
structure HyPacket where
  dst : Nat
  src : Nat
  ensign : Nat
  kind : Nat
  tag : Nat
  len : Nat
  slice : Nat
  gen : Nat
  poison : Bool
  addr : Nat
  status : Nat
  presented : Nat
deriving DecidableEq, Repr

/-- An injected request without its response, and when it was injected. -/
structure HyOpen where
  pkt : HyPacket
  injected : Nat
deriving DecidableEq, Repr

/-- A port's live counters of R285. -/
structure HyLive where
  reqs : Nat
  remap : Nat
  bytes : Nat
  latSum : Nat
  latMax : Nat
deriving DecidableEq, Repr

def HyLive.zero : HyLive := ⟨0, 0, 0, 0, 0⟩

structure HyState where
  /-- requests that a ceiling or regulator holds at their taps, oldest first -/
  waiting : List HyPacket
  /-- the ensign whose turn it is in the weighted round robin, and the requests it may still send (R277) -/
  turn : Nat × Nat
  outstanding : List HyOpen
  /-- packets held at the last router before a gated tap, in order -/
  heldPkts : List HyPacket
  /-- domains being woken -/
  waking : NSet
  /-- by register offset of its HY_REG: the quarter-bytes of a bucket beyond its whole bytes -/
  quarter : SMap Nat
  /-- by port -/
  live : SMap HyLive
  /-- packets delivered to their units and completions given to requesters by the network, oldest first; the model's own
  record -/
  delivered : List HyPacket
  ended : List (Nat × Nat × Nat)
deriving DecidableEq, Repr

def HyState.reset : HyState := ⟨[], (0, 0), [], [], [], [], [], [], []⟩

end Sys2Proof.Machine
end

