-- ==== Sys2Proof/Machine/StateOut.lean ====
section
/-! DEFINITION. What the hub sends out, oldest first in State's list of outputs, and the key stores. -/

namespace Sys2Proof.Machine

/-- An output of the hub. -/
inductive Out where
  /-- a memory's answer to a queued request: requester, tag, status, read data -/
  | memResp (who : Who) (tag : Nat) (status : Status) (data : List Byte)
  /-- a protocol packet to a site -/
  | packet (site : Nat) (p : Packet)
  /-- a stacked-link frame: site, lane group, its 256 bytes -/
  | frame (site group : Nat) (wire : List Byte)
  /-- a lateral Flit's payload: site, module -/
  | flit (site md : Nat) (payload : List Byte)
  /-- payload handed to the protocol layer in SEQ order; a packet that its units make up -/
  | payload (site : Nat) (bytes : List Byte)
  | received (site : Nat) (p : Packet)
  /-- a sideband message to a site: its 16 bytes -/
  | sideband (site : Nat) (wire : List Byte)
  /-- a host memory request: function, slot tag (none for a posted write), PASID, translated, address, length, data (empty
  for a read), Relaxed Ordering -/
  | host (fn : Nat) (tag : Option Nat) (pasid : Nat) (translated : Bool) (addr len : Nat) (data : List Byte) (ro : Bool)
  /-- an MSI-X message: function, vector -/
  | msix (fn vec : Nat)
  /-- a completion of an inbound request: function, tag, 0 SC, 1 UR, 2 CA, 3 RRS, whether EP is set, data -/
  | completion (fn tag status : Nat) (ep : Bool) (data : List Byte)
  /-- an ATS request: tag, function, PASID, virtual address as sent, No Write -/
  | ats (tag fn pasid va : Nat) (noWrite : Bool)
  /-- a page request: function, group index, PASID, virtual address, write, Last -/
  | pageReq (fn idx pasid va : Nat) (write last : Bool)
  /-- an Invalidation Completion, a Stop Marker -/
  | invDone (fn itag : Nat)
  | stopMarker (fn pasid : Nat)
  /-- a reach frame: port, its 640 bytes; payload handed up in SEQ order; a packet that its units make up; a reach packet
  sent on its port -/
  | rframe (port : Nat) (wire : List Byte)
  | rpayload (port : Nat) (bytes : List Byte)
  | rreceived (port : Nat) (p : RPacket)
  | reach (port : Nat) (p : RPacket)
  /-- a CTRL message on a reach port, before the frame that carries it: 0 HELLO, 1 WIDTH_CHANGE, 2 WIDTH_ACK, 3 LINK_DOWN,
  with a value -/
  | rctrl (port kind value : Nat)
  /-- an AER error logged and reported: function, the error's number in Table EPT-9's order -/
  | aer (fn err : Nat)
  /-- the answer of an access through debug: whether it was allowed, and what it read -/
  | debug (ok : Bool) (data : List Byte)
  /-- the SPDM responder's answer: the request's number in the order of SpdmReq (10 for TDISP), whether it succeeded, whether
  it is signed, and its contents -/
  | spdm (req : Nat) (ok signed : Bool) (data : List Byte)
  /-- the I3C target's answer: whether it did not acknowledge, and what it returned -/
  | i3c (nack : Bool) (data : List Byte)
  /-- a VF's request sent on its TDI's IDE stream with T set (R306) -/
  | tee (stream : Nat) (o : Out)
deriving DecidableEq, Repr

/-- The slice keys and the key slots; an empty one is none (R49, 17). -/
structure Keys where
  slice : SMap (Option Nat)
  slot : SMap (Option Nat)
deriving DecidableEq, Repr

def Keys.reset : Keys := ⟨[], []⟩

end Sys2Proof.Machine
end

