-- ==== Sys2Proof/Machine/VecState.lean ====
section
/-! DEFINITION. The state of one vector engine and its reduction unit as plain data (R112, Table VEC-1; 06,
Accumulators). -/

namespace Sys2Proof.Machine

/-- One accumulator a0–a3 (06, Accumulators): FP32 values as bits, SUM and SUMSQ as FP32 bits or INT64. -/
structure Acc where
  isInt : Bool
  k : Nat
  m : Nat
  mPrev : Nat
  s : Nat
  sum : Nat
  sumsq : Nat
  top : List (Nat × Nat)
deriving DecidableEq, Repr

/-- An accumulator as step 5 of R134 leaves it: class FP, no top-k entries, every field zero. -/
def Acc.cleared : Acc := ⟨false, 0, 0, 0, 0, 0, 0, []⟩

/-- An issued command as its engine holds it. -/
structure Job where
  slice : Nat
  gen : Nat
  epoch : Nat
  queue : Nat
  id : Nat
  ensign : Nat
  words : List Nat
deriving DecidableEq, Repr

def Job.w (j : Job) (i : Nat) : Nat := j.words.getD i 0

/-- What a running VEXEC carries besides the kernel-visible state. -/
structure VRun where
  job : Job
  /-- steps 1 to 5 of R134 run -/
  loading : Bool
  start : Nat
  limitLog2 : Nat
  instrCount : Nat
  retired : Nat
  /-- the access of the instruction at PC has not completed (R127) -/
  stalled : Bool
  /-- the kernel ends when the store it has issued completes (R139) -/
  ends : Bool
deriving DecidableEq, Repr

/-- The image a position keeps resident (R135). -/
structure Resident where
  ptr : Nat
  header : List Byte
  slice : Nat
  gen : Nat
  instrCount : Nat
deriving DecidableEq, Repr

/-- Table VEC-1, the accumulators, the resident image and the running kernel of one position. -/
structure VecState where
  v : SMap (BitVec 8192)
  m : SMap (BitVec 1024)
  x : SMap Word
  vl : Nat
  vew : Nat
  flags : Nat
  seed : Nat
  pc : Nat
  imem : SMap Word
  amem : SMap Word
  acc : SMap Acc
  resident : Option Resident
  run : Option VRun
deriving DecidableEq, Repr

def VecState.idle : VecState := ⟨[], [], [], 256, 32, 0, 0, 0, [], [], [], none, none⟩

end Sys2Proof.Machine
end

