-- ==== Sys2Proof/Machine/StatePos.lean ====
section
/-! DEFINITION. The engines of one core position as plain data: the transfer engine's slots (04), the vector engine and
reduction unit (05, 06), and the combiner of COLLECT (06). -/

namespace Sys2Proof.Machine

/-! ### Transfer engine -/

/-- How far a slot is: its descriptor or cursor is still to be read, blocks move, or its end is reported. -/
inductive XPhase where
  | desc | cursor | run | ending
deriving DecidableEq, Repr

/-- What ends a transfer early: its code, the tagged pointer concerned, and the stored PRODUCER of a failed seal. -/
structure XFault where
  status : Nat
  ptr : Nat
  producer : Nat
deriving DecidableEq, Repr

/-- A byte that the transfer has written where it also reads: what lay there before it, and what it wrote last (R93). -/
structure OwnByte where
  before : Byte
  after : Byte
deriving DecidableEq, Repr

/-- One write of a block, in stream order: pointer, bytes; and whether it is a scale byte. -/
structure XWrite where
  ptr : Nat
  data : List Byte
  scale : Bool
deriving DecidableEq, Repr

/-- A block that has begun writing (R101, R107): what it writes, whether its seal has SAT, and the seal of the whole source
block it copies, if it does (R105). -/
structure XBegun where
  writes : List XWrite
  sat : Bool
  copyOf : Option Nat
deriving DecidableEq, Repr

/-- A slot's transfer (R86–R110). -/
structure XSlot where
  job : Job
  phase : XPhase
  window : Nat
  desc : List Byte
  /-- the delivered-count D -/
  next : Nat
  /-- performed blocks at or above D -/
  performed : NSet
  /-- the last address each performed block wrote in host memory -/
  hostLast : SMap (Option Nat)
  /-- staged source beats, most recently used first (Table XFR-11) -/
  staged : List (Nat × List Byte)
  /-- the last 64 blocks verified, with their seals (R106) -/
  verified : List (Nat × Nat)
  own : SMap (Option OwnByte)
  /-- the blocks that have begun writing and are not yet performed -/
  begun : SMap (Option XBegun)
  /-- the page request it waits on: the tagged pointer of the address, and the block (R107) -/
  fault : Option (Nat × Nat)
  /-- the lowest block that failed, and how (R110) -/
  failed : Option (Nat × XFault)
deriving DecidableEq, Repr

/-! ### Reduction unit -/

/-- A running REDUCE (R145, R146). -/
structure RedRun where
  job : Job
  row : Nat
  col : Nat
  acc : Acc
  flags : Nat
deriving DecidableEq, Repr

/-! ### COLLECT -/

/-- A member of a group table (Table RED-4). -/
structure Member where
  peer : Nat
  pos : Nat
  sync : Nat
  stage : Nat
  dst : Nat
deriving DecidableEq, Repr

/-- What a running COLLECT waits for: its group table, its children's partials, its parent's result, the other members'
data; or its end is reported. -/
inductive CPhase where
  | table | children | parent | ending
deriving DecidableEq, Repr

/-- A running COLLECT (R147–R149). -/
structure CollRun where
  job : Job
  limitMs : Nat
  self : Nat
  base : Nat
  members : List Member
  phase : CPhase
  since : Nat
deriving DecidableEq, Repr

/-- The record of R340: a COLLECT's slice, GROUP_PTR and BASE, and the writes and signals it has performed, by step. -/
structure CollRec where
  slice : Nat
  group : Nat
  base : Nat
  done : List Nat
deriving DecidableEq, Repr

/-- The engines of a position. -/
structure PosState where
  slots : SMap (Option XSlot)
  /-- queues whose XFER is held at issue, earliest first (R86) -/
  held : List Nat
  vec : VecState
  /-- VEXECs and REDUCEs issued and not yet taken, and the queue served last (Table HST-2) -/
  unitQ : List Job
  lastQ : Nat
  red : Option RedRun
  colls : List CollRun
  records : List CollRec
deriving DecidableEq, Repr

def PosState.idle : PosState := ⟨[], [], VecState.idle, [], 0, none, [], []⟩

end Sys2Proof.Machine
end

