-- ==== Sys2Proof/Machine/StateSec.lean ====
section
/-! DEFINITION. Axovonak's state as plain data (17): the one-time-programmable rows of the life cycle, installs and firmware
stages that run, staged firmware, and what debug and SPDM keep. -/

namespace Sys2Proof.Machine

/-! ### OTP (R365) -/

/-- The three rows of a transition. -/
structure LcRows where
  started : BitVec 32
  state : BitVec 32
  complete : BitVec 32
deriving DecidableEq, Repr

def LcRows.blank : LcRows := ⟨0, 0, 0⟩

/-- Which of the device's transitions. -/
inductive LcStep where
  | first | second | third
deriving DecidableEq, Repr

/-- What Axovonak's one-time-programmable array holds of the device's life: a bit that is set stays set. -/
structure Otp where
  k0 : LcRows
  k1 : LcRows
  k2 : LcRows
  uds : BitVec 384
  udsValid : BitVec 32
  /-- token digests of BLANK → TEST, TEST → PRODUCTION, TEST → END_OF_LIFE and PRODUCTION → END_OF_LIFE, once programmed -/
  digests : List (Option (BitVec 384))
  /-- minimum versions of Axovonak's and Denob's firmware (R360) -/
  axMin : Fin 64
  dnMin : Fin 64
deriving DecidableEq, Repr

/-- A part as it leaves the fab. -/
def Otp.blank : Otp := ⟨LcRows.blank, LcRows.blank, LcRows.blank, 0, 0, [none, none, none, none], 0, 0⟩

def Otp.rows (o : Otp) : LcStep → LcRows
  | .first => o.k0
  | .second => o.k1
  | .third => o.k2

def Otp.setRows (o : Otp) (k : LcStep) (r : LcRows) : Otp :=
  match k with
  | .first => { o with k0 := r }
  | .second => { o with k1 := r }
  | .third => { o with k2 := r }

/-! ### Axovonak -/

/-- A firmware image's version and digest. -/
structure Firmware where
  svn : Fin 64
  digest : Nat
deriving DecidableEq, Repr

def Firmware.none : Firmware := ⟨0, 0⟩

/-- A running install (R357). -/
structure Install where
  /-- sequence of its handle of slice 0, and its journal entry -/
  seq : Nat
  journal : Nat
  src : Nat
  dst : Nat
  /-- LENGTH, in units -/
  length : Nat
  /-- the target region's KEY_MODE 1 slot, or the slice under KEY_MODE 0 -/
  slot : Option Nat
  slice : Nat
  /-- once step 5 has begun: U, the content key, CONTENT_DIGEST, and what has been decrypted -/
  units : Option Nat
  key : Nat
  digest : Nat
  plain : List Byte
  next : Nat
deriving DecidableEq, Repr

/-- A running firmware stage (R359). -/
structure Stage where
  seq : Nat
  journal : Nat
  src : Nat
deriving DecidableEq, Repr

structure SecState where
  installs : List Install
  stage : Option Stage
  axRun : Firmware
  dnRun : Firmware
  /-- what Denob ran before its last bank switch -/
  dnOld : Firmware
  axStaged : Option Firmware
  dnStaged : Option Firmware
  /-- a commit runs: its transition and target (R365) -/
  commit : Option (LcStep × Fin 4)
  /-- what has been written to LC_TOKEN and SEC_DEBUG_GRANT, by word -/
  token : SMap Word
  grant : SMap Word
  sessions : Nat
deriving DecidableEq, Repr

def SecState.reset : SecState :=
  ⟨[], none, Firmware.none, Firmware.none, Firmware.none, none, none, none, [], [], 0⟩

end Sys2Proof.Machine
end

