-- ==== Sys2Proof/Machine/StateXlat.lean ====
section
/-! DEFINITION. The translation unit's state as plain data (10): TLBs, ATS requests, page requests, invalidations, and the
access counters. -/

namespace Sys2Proof.Machine

/-- A TLB entry (R224); `bad` when its parity does not fit it. -/
structure TlbEntry where
  fn : Nat
  pasid : Nat
  /-- page size, log2: 12, 16, 21 or 30 (R225) -/
  log2 : Nat
  vpage : Nat
  pa : Nat
  r : Bool
  w : Bool
  u : Bool
  g : Bool
  bad : Bool
deriving DecidableEq, Repr

/-- An ATS request in flight (R227, R229): the units that wait for it, whether it was sent again, whether its result
is discarded and the request repeated (R239), and whether its result is discarded for good (R240). -/
structure AtsReq where
  tag : Nat
  fn : Nat
  pasid : Nat
  va : Nat
  write : Bool
  units : List PageNeed
  again : Bool
  stale : Bool
  dropped : Bool
  since : Nat
deriving DecidableEq, Repr

/-- A page request group (R232, R233): the pages it names, with write access or without; those of its unit of work that the
next group asks for; the accesses that wait for it; and whether its response is no longer wanted. -/
structure Prg where
  fn : Nat
  idx : Option Nat
  slice : Nat
  gen : Nat
  pasid : Nat
  pages : List (Nat × Bool)
  more : List (Nat × Bool)
  units : List PageNeed
  since : Nat
  late : Bool
deriving DecidableEq, Repr

/-- A page that a unit found missing or short of a right, to be requested (R232); `asked` once its group was answered. -/
structure PageLack where
  fn : Nat
  pasid : Nat
  va : Nat
  write : Bool
  atomic : Bool
  asked : Bool
deriving DecidableEq, Repr

/-- A translation that failed, until the access that waited for it takes the failure (R223). -/
structure XFail where
  need : PageNeed
  fn : Nat
  pasid : Nat
  status : Status
  cause : Nat
deriving DecidableEq, Repr

/-- An Invalidate Request not yet completed (R237, R238): its range is 2^log2 bytes at `va`; `glob` is its Global Invalidate
bit. -/
structure InvReq where
  fn : Nat
  itag : Nat
  pasid : Option Nat
  glob : Bool
  va : Nat
  log2 : Nat
  since : Nat
deriving DecidableEq, Repr

/-- An access counter (R241). -/
structure AccCounter where
  slice : Nat
  region : Nat
  count : Nat
  flagged : Bool
deriving DecidableEq, Repr

structure XlatState where
  /-- by position, 32 for Denob; the most recently used first -/
  l1 : SMap (List TlbEntry)
  /-- by set -/
  l2 : SMap (List TlbEntry)
  ats : List AtsReq
  lacks : List PageLack
  groups : List Prg
  fails : List XFail
  /-- functions whose page requests stopped on a Response Failure -/
  stopped : NSet
  invs : List InvReq
  acc : SMap (List AccCounter)
  decayAt : Nat
  /-- (function, PASID) whose Stop Marker waits for its page requests (R240) -/
  stopMarkers : List (Nat × Nat)
  /-- by function: the earliest time of its next XLT_ATS_FAILED pennant (R234) -/
  atsFailed : SMap Nat
deriving DecidableEq, Repr

def XlatState.reset : XlatState := ⟨[], [], [], [], [], [], [], [], [], 0, [], []⟩

end Sys2Proof.Machine
end

