-- ==== Sys2Proof/Machine/State.lean ====
section
/-! DEFINITION. The state of the block as plain data: everything the spec gives the hub, the queue of commands that wait,
and the reasons a step may stop. -/

namespace Sys2Proof.Machine

/-- A register access that waits (R16, R331) or travels (assumption 58): whether the boot path makes it, its offset, bytes and
value; for a read through BAR0, its request. -/
structure RegWait where
  boot : Bool
  off : Nat
  size : Nat
  v : Nat
  read : Option BarReq
deriving DecidableEq, Repr

/-- Everything the spec gives the hub but its one-time-programmable fuses. -/
structure Block where
  /-- every register of the register space (Table ARC-6 and the chapters' register tables) -/
  regs : RegFile
  /-- register accesses that wait, oldest first -/
  regDue : List RegWait
  /-- CLK_CORE cycles since the last cold reset; the model's own clock -/
  now : Nat
  /-- how many open values have been taken; the model's own field -/
  free : Nat
  shelf : ShelfState
  hbm : HbmState
  fc : FaultState
  keys : Keys
  ext : ExtState
  coh : CohState
  xlat : XlatState
  sites : SMap SiteState
  sync : SyncState
  /-- by 4 × slice + class -/
  queues : SMap QueueState
  slices : SMap SliceState
  ten : TenState
  /-- by core position -/
  pos : SMap PosState
  dn : DnState
  sec : SecState
  boot : BootState
  ep : EpState
  reach : ReachState
  pw : PwState
  hy : HyState
  /-- what the hub has sent, oldest first; the model's own record -/
  out : List Out
deriving DecidableEq, Repr

structure State where
  blk : Block
  /-- the one-time-programmable rows -/
  fuse : Otp
  /-- commands that wait, first in, first out -/
  pending : List Instr
deriving DecidableEq, Repr

/-- Reasons for a fault. No meaning of this model raises one: the spec gives every command of the table an effect. -/
inductive Fault where
  /-- raised by nothing -/
  | unreachable
deriving DecidableEq, Repr

/-- Reasons for a refusal. -/
inductive Refusal where
  /-- an arm of `exec` whose command has no meaning yet; safe, since the machine stops there -/
  | notModelled (mnemonic : String)
deriving DecidableEq, Repr

def Block.reset : Block where
  regs := []
  regDue := []
  now := 0
  free := 0
  shelf := ShelfState.reset
  hbm := HbmState.reset
  fc := FaultState.reset
  keys := Keys.reset
  ext := ExtState.reset
  coh := CohState.reset
  xlat := XlatState.reset
  sites := []
  sync := ⟨[], [], []⟩
  queues := []
  slices := []
  ten := TenState.reset
  pos := []
  dn := DnState.reset
  sec := SecState.reset
  boot := BootState.reset
  ep := EpState.reset
  reach := ReachState.reset
  pw := PwState.reset
  hy := HyState.reset
  out := []

/-- The machine right after a cold reset: every register at its reset value, memory with nothing listed. -/
def State.reset : State := ⟨Block.reset, Otp.blank, []⟩

/-- Change the block and nothing else. -/
def State.upd (s : State) (f : Block → Block) : State := { s with blk := f s.blk }

end Sys2Proof.Machine
end

