-- ==== Sys2Proof/Machine/Ops.lean ====
section
/-! DEFINITION. The operations every family shares: register fields, counters, error logs, outputs, values the spec
leaves open, and pennants. -/

namespace Sys2Proof.Machine

/-! ### Registers -/

def Block.rd (b : Block) (f : Fld) : Nat := b.regs.rd f
def Block.wr (b : Block) (f : Fld) (n : Nat) : Block := { b with regs := b.regs.wr f n }
def Block.word (b : Block) (off : Nat) : Nat := b.regs.word off
def Block.setWord (b : Block) (off n : Nat) : Block := { b with regs := b.regs.setWord off n }

/-- A field as a Boolean. -/
def Block.is (b : Block) (f : Fld) : Bool := b.rd f != 0

/-- Add to a counter that saturates at its width. -/
def Block.count (b : Block) (f : Fld) (n : Nat) : Block := b.wr f (satAdd f.w (b.rd f) n)

/-- Capture an error log: the first error sets VALID and the fields given, a later one sets OVERFLOW. -/
def Block.capture (b : Block) (valid overflow : Fld) (flds : List (Fld × Nat)) : Block :=
  if b.is valid then b.wr overflow 1
  else (flds.foldl (fun acc f => acc.wr f.1 f.2) b).wr valid 1

/-! ### Outputs and open values -/

def Block.emit (b : Block) (o : Out) : Block := { b with out := b.out ++ [o] }

/-- A function's request as it goes out: on its stream with T set while its TDI is in RUN (R306). -/
def Block.onStream (b : Block) (fn : Nat) (o : Out) : Out :=
  if fn ≠ 0 ∧ b.rd (Reg.EP_FN_STATUS.TDI_STATE fn) = 2 then .tee (SMap.get (fun _ => 0) b.ep.tdiStream fn - 1) o else o
def Block.emitFrom (b : Block) (fn : Nat) (o : Out) : Block := b.emit (b.onStream fn o)

/-- A fresh 64-bit open value. -/
def Block.fresh (b : Block) : Block × Nat := ({ b with free := b.free + 1 }, (Config.freeValue b.free).toNat)

/-- `n` fresh open bytes. -/
def Block.freshBytes (b : Block) (n : Nat) : Block × List Byte :=
  ({ b with free := b.free + n }, (List.range n).map fun i => Config.freeByte (b.free + i))

/-! ### Time: `now` counts CLK_CORE cycles of 1.6 GHz -/

def usToCycles (n : Nat) : Nat := n * 1600
def msToCycles (n : Nat) : Nat := n * 1600000
def nsOf (cycles : Nat) : Nat := cycles * 5 / 8

/-- Nanoseconds since the last device reset. -/
def Block.resetNs (b : Block) : Nat := nsOf (b.now - b.boot.resetAt)

/-! ### Pennants (R322, R324) -/

/-- A record after every queued one sent no later. -/
def Record.enqueue (r : Record) : List Record → List Record
  | [] => [r]
  | q :: qs => if r.sent < q.sent then r :: q :: qs else q :: Record.enqueue r qs

/-- Whether a queued pennant carries an event of its source and kind at `now`: it is not sent yet, or in this microsecond. -/
def Record.joins (now : Nat) (r q : Record) : Bool :=
  decide (q.source = r.source) && decide (q.kind = r.kind) && !q.pair && !q.injected && decide (now < q.sent + usToCycles 1)

/-- One event of a source and kind: a pennant still queued, of the same microsecond or not yet sent, carries it; else a new
one is sent now, or a microsecond after the last (R14, R322). -/
def FaultState.pennant (fc : FaultState) (now : Nat) (r : Record) : FaultState :=
  let key := r.source * 256 + r.kind
  if fc.inQ.any (r.joins now) then
    { fc with inQ := fc.inQ.map fun q => if r.joins now q then { q with count := min (q.count + r.count) 65535 } else q }
  else
    let at' := max now (SMap.get (fun _ => 0) fc.nextAt key)
    { fc with
      inQ := Record.enqueue { r with sent := at' } fc.inQ
      nextAt := SMap.put (fun _ => 0) fc.nextAt key (at' + usToCycles 1) }

/-- Raise `count` events of `kind` against `source`. -/
def Block.pennantN (b : Block) (source kind aux count addr : Nat) (noSlice : Bool) : Block :=
  { b with fc := b.fc.pennant b.now ⟨source, kind, aux % 4096, min count 65535, addr % 2 ^ 48, false, false, noSlice, b.now⟩ }

def Block.pennant (b : Block) (source kind aux addr : Nat) : Block := b.pennantN source kind aux 1 addr false

/-! ### Status codes from outside (R3) -/

/-- Whether a status code's upper byte is listed against a chapter of Table SCP-3. -/
def Status.listed (st : Status) : Bool := decide (st / 256 ≤ 0x13)

/-- UNSPECIFIED_ERROR is always accompanied by a pennant. -/
def Block.unspecified (b : Block) (source : Nat) (st : Status) : Block :=
  if st = Code.UNSPECIFIED_ERROR then b.pennant source Kind.UNSPECIFIED 0 0 else b

/-- A status that another device reports, as it is returned: one whose upper byte is not listed is UNSPECIFIED_ERROR. -/
def Status.foreign (st : Status) : Status := if Status.listed st then st else Code.UNSPECIFIED_ERROR

/-- Source numbers of Table FLT-2. -/
def Src.bank (p : Nat) : Nat := 0x040 + p
def Src.stack (n : Nat) : Nat := 0x270 + n
def Src.channel (stack ch : Nat) : Nat := 0x280 + 32 * stack + ch
def Src.laneGroup (site g : Nat) : Nat := 0x380 + 8 * site + g
def Src.siteCore (site phys : Nat) : Nat := 0x400 + 64 * site + phys
def Src.site (s : Nat) : Nat := 0x800 + s
def Src.reachLane (p l : Nat) : Nat := 0x810 + 8 * p + l
def Src.reachPort (p : Nat) : Nat := 0x830 + p
def Src.router (r : Nat) : Nat := 0x840 + r
def Src.tap (n : Nat) : Nat := 0x860 + n
def Src.denob : Nat := 0x900
def Src.axovonak : Nat := 0x901
def Src.security : Nat := 0x902
def Src.rootClock : Nat := 0x903
def Src.coherence : Nat := 0x904
def Src.translation : Nat := 0x905
def Src.endpoint : Nat := 0x906
def Src.lifeCycle : Nat := 0x907
def Src.power : Nat := 0x908
def Src.collector : Nat := 0x909
def Src.sequencer : Nat := 0x90A
def Src.rail (r : Nat) : Nat := 0x910 + r
def Src.sensor (n : Nat) : Nat := 0x920 + n

end Sys2Proof.Machine
end

