-- ==== Sys2Proof/Machine/JournalOps.lean ====
section
/-! DEFINITION. The ticket journal (R388) and the Field-defect log (R384). -/

namespace Sys2Proof.Machine

def Journal.FREE : Nat := 0
def Journal.RUNNING : Nat := 1
def Journal.DONE : Nat := 2
def Journal.ROLLED_BACK : Nat := 3
def Journal.ROLLED_FORWARD : Nat := 4
def Journal.ABORTED : Nat := 5

/-- Kinds of journal entries. -/
def Journal.INSTALL : Nat := 1
def Journal.REFORM : Nat := 2
def Journal.SAVE : Nat := 3
def Journal.RESTORE : Nat := 4
def Journal.REBUILD : Nat := 5
def Journal.STAGE : Nat := 6
def Journal.ACTIVATE : Nat := 7

def Block.journalState (b : Block) (j : Nat) : Nat := b.rd (Reg.MH_JOURNAL00.STATE j)

def Block.journalTime (b : Block) (j : Nat) : Block := b.wr (Reg.MH_JOURNAL18.TIME j) (nsOf b.now)

/-- The entry that an operation other than a rebuild takes: the lowest FREE one, else the finished one changed longest
ago. -/
def Block.journalFree (b : Block) : Option Nat :=
  match findIdx 48 fun j => decide (b.journalState j = Journal.FREE) with
  | some j => some j
  | none =>
    (List.range 48).foldl (fun m j =>
      if b.journalState j = Journal.RUNNING then m
      else match m with
        | none => some j
        | some k => if b.rd (Reg.MH_JOURNAL18.TIME j) < b.rd (Reg.MH_JOURNAL18.TIME k) then some j else m) none

/-- Make entry `j` RUNNING. -/
def Block.journalStart (b : Block) (j kind handle target : Nat) : Block :=
  let b := b.setWord (Reg.MH_JOURNAL00.STATE j).off 0
  let b := b.wr (Reg.MH_JOURNAL00.HANDLE j) handle
  let b := b.wr (Reg.MH_JOURNAL00.KIND j) kind
  let b := b.wr (Reg.MH_JOURNAL00.STATE j) Journal.RUNNING
  let b := b.wr (Reg.MH_JOURNAL08.TARGET j) target
  (b.wr (Reg.MH_JOURNAL10.PROGRESS j) 0).journalTime j

def Block.journalPhase (b : Block) (j phase progress : Nat) : Block :=
  ((b.wr (Reg.MH_JOURNAL00.PHASE j) phase).wr (Reg.MH_JOURNAL10.PROGRESS j) progress).journalTime j

def Block.journalEnd (b : Block) (j state status : Nat) : Block :=
  ((b.wr (Reg.MH_JOURNAL00.STATE j) state).wr (Reg.MH_JOURNAL00.STATUS j) status).journalTime j

/-- A rebuild's entry: the lowest of 48–63 that is not RUNNING. -/
def Block.journalRebuild (b : Block) (target : Nat) : Block × Nat :=
  let j := 48 + (findIdx 16 fun i => decide (b.journalState (48 + i) ≠ Journal.RUNNING)).getD 0
  (b.journalStart j Journal.REBUILD 0 target, j)

/-! ### The Field-defect log (R384) -/

def Defect.valid (b : Block) (i : Nat) : Bool := b.is (Reg.MH_DEFECT00.VALID i)

/-- The entry of a source. -/
def Block.defectOf (b : Block) (src : Nat) : Option Nat :=
  findIdx 256 fun i => Defect.valid b i && decide (b.rd (Reg.MH_DEFECT00.SOURCE i) = src)

def Block.defectPermanent (b : Block) (src : Nat) : Bool :=
  match b.defectOf src with
  | some i => b.is (Reg.MH_DEFECT00.PERMANENT i)
  | none => false

/-- The entry a new source takes: one not in use, else the one not PERMANENT whose last event is oldest. -/
def Block.defectSlot (b : Block) : Option Nat :=
  match findIdx 256 fun i => !Defect.valid b i with
  | some i => some i
  | none =>
    (List.range 256).foldl (fun m i =>
      if b.is (Reg.MH_DEFECT00.PERMANENT i) then m
      else match m with
        | none => some i
        | some k => if b.rd (Reg.MH_DEFECT08.LAST_BOOT i) < b.rd (Reg.MH_DEFECT08.LAST_BOOT k) then some i else m) none

/-- Copy the log to SPI NOR, where it outlives every reset. -/
def Block.defectSave (b : Block) : Block :=
  let es := (List.range 512).filterMap fun i =>
    let w := b.word (0x2000 + 8 * i)
    if w = 0 then none else some (i, BitVec.ofNat 64 w)
  { b with boot := { b.boot with nor := { b.boot.nor with defects := es } } }

/-- Boot tests failed at three distinct boots set PERMANENT. -/
def Block.defectBoots (b : Block) (src i : Nat) : Block :=
  let boots := SMap.get (fun _ => []) b.boot.nor.testBoots src
  let now := b.rd Reg.MH_BOOT_STATUS.BOOT_COUNT
  let boots := if boots.contains now then boots else boots ++ [now]
  let b := { b with boot := { b.boot with nor := { b.boot.nor with
    testBoots := SMap.put (fun _ => []) b.boot.nor.testBoots src boots } } }
  if 3 ≤ boots.length then b.wr (Reg.MH_DEFECT00.PERMANENT i) 1 else b

/-- Enter an event: 1 boot test, 2 strike in service, 3 restore test. -/
def Block.defect (b : Block) (src kind : Nat) : Block :=
  let boot := b.rd Reg.MH_BOOT_STATUS.BOOT_COUNT
  let old := b.defectOf src
  match old.or b.defectSlot with
  | none => b.wr Reg.MH_DEFECT_CTRL.OVERFLOW 1
  | some i =>
    let b := if old.isSome then b
      else
        let was := b.rd (Reg.MH_DEFECT00.SOURCE i)
        let b := { b with boot := { b.boot with nor := { b.boot.nor with
          testBoots := b.boot.nor.testBoots.filter fun e => e.1 ≠ src ∧ (e.1 ≠ was ∨ !Defect.valid b i) } } }
        let b := b.setWord (Reg.MH_DEFECT00.SOURCE i).off 0
        let b := b.wr (Reg.MH_DEFECT00.SOURCE i) src
        let b := b.wr (Reg.MH_DEFECT00.VALID i) 1
        b.wr (Reg.MH_DEFECT00.FIRST_BOOT i) boot
    let b := b.wr (Reg.MH_DEFECT00.KIND i) kind
    let b := b.count (Reg.MH_DEFECT00.FAILS i) 1
    let b := b.wr (Reg.MH_DEFECT08.LAST_BOOT i) boot
    let b := if kind = 1 then b.defectBoots src i else b
    let n := ((List.range 256).filter fun i => Defect.valid b i).length
    (b.wr Reg.MH_DEFECT_CTRL.COUNT n).defectSave

/-- A fuse-good unit fails its boot test: fenced as struck, and in the Field-defect log. -/
def Block.bootFail (b : Block) (src : Nat) : Block := (b.wr (Reg.FC_BUCKET.STRUCK src) 1).defect src 1

/-- Lanes fail their training: before READY that is their boot test (R380, R384). -/
def Block.bootLanes (b : Block) (srcs : List Nat) : Block :=
  if b.is Reg.MH_STATUS.READY then b else srcs.foldl (fun b s => b.bootFail s) b

end Sys2Proof.Machine
end

