-- ==== Sys2Proof/Machine/FaultLog.lean ====
section
/-! DEFINITION. What is uncleared and running at the fault collector, and the WAVE pin that shows it (R328, R329). -/

namespace Sys2Proof.Machine

def WaveMode.STARTUP : Nat := 0
def WaveMode.SERVICE : Nat := 1
def WaveMode.RECOVERY : Nat := 2
def WaveMode.TEST : Nat := 3
def WaveMode.FATAL : Nat := 4

/-- A strike, replay or restart runs. -/
def Block.recoveryRuns (b : Block) : Bool := !b.fc.recoveries.isEmpty || b.dn.restarting || b.fc.restarting.isSome

/-- The mode in force (Table FLT-4); where more than one is, the later of FATAL, TEST, RECOVERY, STARTUP gives way. -/
def Block.waveMode (b : Block) : Nat :=
  if b.is Reg.MH_STATUS.DEVICE_FATAL then WaveMode.FATAL
  else if b.is Reg.FC_INJECT_STATUS.BUSY then WaveMode.TEST
  else if b.recoveryRuns then WaveMode.RECOVERY
  else if b.is Reg.MH_STATUS.READY then WaveMode.SERVICE
  else WaveMode.STARTUP

/-- The level of WAVE (R329, R325). -/
def Block.waveLevel (b : Block) (mode : Nat) (uncleared : Bool) : Wave :=
  if b.fc.waveLapsed || b.fc.restarting.isSome || decide (mode = WaveMode.FATAL) then .low
  else if mode = WaveMode.SERVICE then (if b.fc.waveStopped then .low else .toggling)
  else if uncleared then .low
  else .high

/-- Show the collector's state: MH_STATUS.FAULT_UNCLEARED, FC_STATUS, each partition's RECOVERING, and WAVE. -/
def Block.fcStatus (b : Block) : Block :=
  let un := !b.fc.opened.isEmpty
  let b := { b with fc := { b.fc with waveStopped := b.fc.waveStopped || un } }
  let mode := b.waveMode
  let b := (b.wr Reg.MH_STATUS.FAULT_UNCLEARED (b01 un)).wr Reg.FC_STATUS.UNCLEARED (b01 un)
  let b := (b.wr Reg.FC_STATUS.RECOVERING (b01 b.recoveryRuns)).wr Reg.FC_STATUS.WAVE_MODE mode
  let ps := (List.range 32).filter fun p => b.fc.recoveries.any fun r => r.part = p
  let b := b.wr Reg.FC_STATUS.PARTS_RECOVERING ps.length
  let b := (List.range 32).foldl (fun b p => b.wr (Reg.FC_PART_STATE.RECOVERING p) (b01 (ps.contains p))) b
  { b with fc := { b.fc with wave := b.waveLevel mode un } }

/-- Whether an action still runs that record `id` waits for. -/
def Block.actionRuns (b : Block) (id : Nat) : FWait → Bool
  | .part p => b.ten.resets.any fun r => r.part = p
  | .rebuild s k => b.hbm.rebuilds.any fun r => decide (r.srcStack = s) && decide (r.k = k)
  | .copy lb => b.shelf.copies.any fun c => c.lbank = lb
  | .recovery => b.fc.recoveries.any fun r => r.record = some id
  | .denob => b.dn.restarting
  | .collector => b.fc.restarting.isSome

/-- The action of a record has finished: its log entry shows DONE and the time since handling. -/
def Block.recordDone (b : Block) (r : OpenRecord) : Block :=
  match r.index with
  | none => b
  | some i =>
    (b.wr (Reg.FC_LOG18.DONE (i % 4096)) 1).wr (Reg.FC_LOG18.DURATION_MS (i % 4096)) (min ((b.now - r.handledAt) / msToCycles 1) 65535)

def OpenRecord.cleared (r : OpenRecord) : Bool := r.done && (!r.needsAck || r.acked)

/-- End the records whose actions have finished, and drop the cleared ones (R328). -/
def Block.recordsSettle (b : Block) : Block :=
  let ends (r : OpenRecord) : Bool := !r.done && !(r.waits.any (b.actionRuns r.id))
  let b := (b.fc.opened.filter ends).foldl (fun b r => b.recordDone r) b
  let opened := b.fc.opened.map fun r => if ends r then { r with done := true } else r
  ({ b with fc := { b.fc with opened := opened.filter fun r => !r.cleared } } : Block).fcStatus

end Sys2Proof.Machine
end

