-- ==== Sys2Proof/Machine/ShelfOps.lean ====
section
/-! DEFINITION. The shelf (02, R24–R35): placement, requests of one bank with ECC, poison and adds, seals, fills and bank
spares. Addresses here are shelf DLAs 0 … 2^29 − 1. -/

namespace Sys2Proof.Machine

/-! ### Byte maps -/

def zeroByte : Nat → Byte := fun _ => 0

/-- `len` bytes from `a`. -/
def SMap.getBytes (m : SMap Byte) (a len : Nat) : List Byte := (List.range len).map fun i => SMap.get zeroByte m (a + i)

/-- Store bytes from `a`. -/
def SMap.putBytes (m : SMap Byte) (a : Nat) : List Byte → SMap Byte
  | [] => m
  | b :: bs => SMap.putBytes (SMap.put zeroByte m a b) (a + 1) bs

/-! ### Placement (R24) -/

def Shelf.group (a : Nat) : Nat := bits a 24 5
def Shelf.bank (a : Nat) : Nat := bits a 8 4 ^^^ bits a 12 4 ^^^ bits a 16 4 ^^^ bits a 20 4
def Shelf.row (a : Nat) : Nat := bits a 12 12
def Shelf.lbank (a : Nat) : Nat := 16 * Shelf.group a + Shelf.bank a

/-- The beat of a bank at `a`, in the ascending order of the copy of R33. -/
def Shelf.beat (a : Nat) : Nat := 4 * Shelf.row a + bits a 6 2

/-- The DLA of byte `byte` of row `row` of logical bank `lb`: the inverse of R24. -/
def Shelf.addr (lb row byte : Nat) : Nat :=
  let x := (lb % 16) ^^^ bits row 0 4 ^^^ bits row 4 4 ^^^ bits row 8 4
  (lb / 16) * 2 ^ 24 + row * 4096 + x * 256 + byte

/-- The DLA of beat `beat` of logical bank `lb`. -/
def Shelf.beatAddr (lb beat : Nat) : Nat := Shelf.addr lb (beat / 4) (64 * (beat % 4))

/-- The home group of core position `g` and the near set of site `s` (R25). -/
def Shelf.homeBase (g : Nat) : Nat := g * 2 ^ 24
def Shelf.nearBase (s : Nat) : Nat := s * 2 ^ 25

/-- The bank whose beat at `a` serves a request now: the spare below the copy cursor (R33). -/
def Block.shelfPhys (b : Block) (a : Nat) : Nat :=
  match b.shelf.copies.find? fun c => c.lbank = Shelf.lbank a with
  | some c => if Shelf.beat a < c.cursor then c.spare else c.old
  | none => b.rd (Reg.SH_BANK_MAP.PBANK (Shelf.lbank a))

def Block.groupStruck (b : Block) (g : Nat) : Bool := (b.rd Reg.SH_GROUP_STATE.STRUCK).testBit g

/-! ### Words -/

/-- How access `op` of bytes `[lo, hi)` meets the 8-byte word at `wa`: whether it must read the word. -/
def MemOp.reads (op : MemOp) (lo hi wa : Nat) : Bool :=
  match op with
  | .write _ => decide (wa < lo) || decide (hi < wa + 8)
  | _ => true

/-- The words a request touches. -/
def wordsOf (addr len : Nat) : List Nat :=
  (List.range ((addr + len + 7) / 8 - addr / 8)).map fun i => 8 * (addr / 8 + i)

/-- A bank's correction enters its pennant: the one that has not gone out, else one now, or a millisecond after the last
(R29). -/
def Block.cePennant (b : Block) (pb wa : Nat) : Block :=
  let h := SMap.get (fun _ => CeHold.mk none 0) b.shelf.ceHold pb
  let r : Record := ⟨Src.bank pb, Kind.SHELF_CE, 0, 1, wa, false, false, false, b.now⟩
  let joins := b.fc.inQ.any (r.joins b.now)
  let due := match h.last with
    | none => b.now
    | some t => max b.now (t + msToCycles 1)
  let fc := if joins then b.fc else { b.fc with
    nextAt := SMap.put (fun _ => 0) b.fc.nextAt (Src.bank pb * 256 + Kind.SHELF_CE) due }
  let h' : CeHold := if joins then { h with held := h.held + 1 } else ⟨some due, 1⟩
  { b with
    fc := fc.pennant b.now r
    shelf := { b.shelf with ceHold := SMap.put (fun _ => CeHold.mk none 0) b.shelf.ceHold pb h' } }

/-- R29: a word corrected on access is counted, logged, and written back later unless this access rewrites it. -/
def Block.shelfCorrect (b : Block) (wa : Nat) (rewrites : Bool) : Block :=
  let pb := b.shelfPhys wa
  let b := b.count Reg.SH_ECC_CE_COUNT.COUNT 1
  let (b, syn) := b.fresh
  let b := b.capture Reg.SH_ECC_LOG.VALID Reg.SH_ECC_LOG.OVERFLOW
    [(Reg.SH_ECC_LOG.ADDR, wa), (Reg.SH_ECC_LOG.PBANK, pb), (Reg.SH_ECC_LOG.SYNDROME, syn), (Reg.SH_ECC_LOG.UE, 0)]
  let b := b.cePennant pb wa
  { b with shelf := { b.shelf with
      upset := if rewrites then SMap.put (fun _ => 0) b.shelf.upset wa 0 else b.shelf.upset
      writeBack := if rewrites || b.shelf.writeBack.contains wa then b.shelf.writeBack else b.shelf.writeBack ++ [wa] } }

/-- R30: a word found uncorrectable takes the poison pattern and raises a pennant. -/
def Block.shelfPoisonFound (b : Block) (wa : Nat) : Block :=
  let pb := b.shelfPhys wa
  let b := b.count Reg.SH_ECC_UE_COUNT.COUNT 1
  let (b, syn) := b.fresh
  let b := b.capture Reg.SH_ECC_LOG.VALID Reg.SH_ECC_LOG.OVERFLOW
    [(Reg.SH_ECC_LOG.ADDR, wa), (Reg.SH_ECC_LOG.PBANK, pb), (Reg.SH_ECC_LOG.SYNDROME, syn), (Reg.SH_ECC_LOG.UE, 1)]
  let b := b.pennant (Src.bank pb) Kind.SHELF_UE 0 wa
  { b with shelf := { b.shelf with
      upset := SMap.put (fun _ => 0) b.shelf.upset wa 0
      poison := NSet.insert wa b.shelf.poison } }

/-- One word that must be read: corrected, found uncorrectable, already poisoned, or good. A request that checks a word
again at a later beat (`again`) does not correct it twice. -/
def Block.shelfCheckWord (b : Block) (rewrites again : Bool) (st : Status) (wa : Nat) : Block × Status :=
  let n := SMap.get (fun _ => 0) b.shelf.upset wa
  if NSet.has b.shelf.poison wa then (b, if st = Code.SUCCESS then Code.MEM_POISON else st)
  else if n = 0 then (b, st)
  else if n = 1 ∧ again ∧ wa ∈ b.shelf.writeBack then (b, st)
  else if n = 1 then (b.shelfCorrect wa rewrites, st)
  else (b.shelfPoisonFound wa, Code.SHELF_UNCORRECTABLE)

/-- Every word of `[lo, hi)` that `op` must read, with the request's status so far. -/
def Block.shelfCheck (b : Block) (op : MemOp) (again : Bool) (lo hi : Nat) (st : Status) : Block × Status :=
  ((wordsOf lo (hi - lo)).filter fun wa => op.reads lo hi wa).foldl
    (fun (acc : Block × Status) wa => acc.1.shelfCheckWord (op != .read) again acc.2 wa) (b, st)

/-- Store bytes: whole words lose their poison and upsets; the blocks touched lose their seals (R30, R31). -/
def Block.shelfStore (b : Block) (a : Nat) (data : List Byte) : Block :=
  let whole := (wordsOf a data.length).filter fun wa => decide (a ≤ wa) && decide (wa + 8 ≤ a + data.length)
  { b with shelf := { b.shelf with
      bytes := SMap.putBytes b.shelf.bytes a data
      poison := b.shelf.poison.filter fun wa => !whole.contains wa
      upset := b.shelf.upset.filter fun e => !whole.contains e.1
      seals := SMap.dropWhere (fun k => decide (a / 4096 ≤ k) && decide (k ≤ (a + data.length - 1) / 4096)) b.shelf.seals } }

/-- The part of a request's bytes that falls in `[lo, hi)`. -/
def MemReq.partData (r : MemReq) (d : List Byte) (lo hi : Nat) : List Byte := (d.drop (lo - r.addr)).take (hi - lo)

/-- One beat of a request at its bank (R26, R28, R30). The whole request is checked before its first beat, so that one
that meets a bad word changes nothing; a word that goes bad between beats ends the rest. -/
def Block.shelfBeat (b : Block) (q : BankReq) : Block × BankReq :=
  let r := q.req
  let lo := max r.addr (64 * (r.addr / 64 + q.done))
  let hi := min (r.addr + r.len) (64 * (r.addr / 64 + q.done) + 64)
  if b.groupStruck (Shelf.group r.addr) then (b, { q with done := 5, status := Code.SHELF_GROUP_STRUCK })
  else
    let (b, st) := if q.done = 0 then b.shelfCheck r.op false r.addr (r.addr + r.len) q.status
      else b.shelfCheck r.op true lo hi q.status
    let last : Bool := decide (r.addr + r.len ≤ hi)
    let next := if last then 5 else q.done + 1
    if st ≠ Code.SUCCESS then (b, { q with done := next, status := st, data := [] })
    else
      match r.op with
      | .read => (b, { q with done := next, data := q.data ++ SMap.getBytes b.shelf.bytes lo (hi - lo) })
      | .write d => (b.shelfStore lo (r.partData d lo hi), { q with done := next })
      | .add f d =>
        -- the sums of the whole request are formed at its first beat: an element may lie across two
        let sum := if q.done = 0 then addBytes f 128 (SMap.getBytes b.shelf.bytes r.addr r.len) d else q.data
        (b.shelfStore lo (r.partData sum lo hi), { q with done := next, data := sum })

/-- What a finished request answers: zero bytes for a read that failed (R30). -/
def BankReq.answer (q : BankReq) : Status × List Byte :=
  match q.req.op with
  | .read => (q.status, if q.status = Code.SUCCESS then q.data else zeros q.req.len)
  | _ => (q.status, [])

/-! ### The banks' queues (R26, R27) -/

def Block.bankQueue (b : Block) (lb : Nat) : List BankReq := SMap.get (fun _ => []) b.shelf.bankQ lb
def Block.setBankQueue (b : Block) (lb : Nat) (q : List BankReq) : Block :=
  { b with shelf := { b.shelf with bankQ := SMap.put (fun _ => []) b.shelf.bankQ lb q } }

/-- Whether two requests meet in a beat (R27). -/
def MemReq.meets (a c : MemReq) : Bool :=
  decide (a.addr / 64 ≤ (c.addr + c.len - 1) / 64) && decide (c.addr / 64 ≤ (a.addr + a.len - 1) / 64)

/-- The request a bank serves next: one begun, else ensign 0, else the oldest, among its 16, none ahead of an earlier one
to the same beat. -/
def Bank.choose (q : List BankReq) : Option Nat :=
  let es := q.take 16
  let n := es.length
  let ready := (List.range n).filter fun i => match es[i]? with
    | none => false
    | some r => !((es.take i).any fun e => e.req.meets r.req)
  let is' (p : BankReq → Bool) (i : Nat) : Bool := match es[i]? with
    | some r => p r
    | none => false
  (ready.find? (is' fun r => decide (0 < r.done))).or
    ((ready.find? (is' fun r => decide (r.req.who.ensign = 0))).or ready.head?)

/-- One beat of a bank's next request (R26); a finished one is answered. -/
def Block.bankServe (b : Block) (lb : Nat) : Block :=
  let q := b.bankQueue lb
  match Bank.choose q with
  | none => b
  | some i =>
    match q[i]? with
    | none => b
    | some r =>
      match b.shelfBeat r with
      | (b, r') =>
        if 5 ≤ r'.done then
          (b.setBankQueue lb (q.eraseIdx i)).emit (.memResp r'.req.who r'.req.tag r'.answer.1 r'.answer.2)
        else b.setBankQueue lb (q.set i r')

/-- Serve bank `lb` until no request in its queue meets a beat of `[lo, lo + len)`. -/
def Block.bankClear : Nat → Block → Nat → Nat → Nat → Block
  | 0, b, _, _, _ => b
  | k + 1, b, lb, lo, len => if (b.bankQueue lb).any (fun q => q.req.meets { q.req with addr := lo, len := len }) then
      Block.bankClear k (b.bankServe lb) lb lo len
    else b

/-- What reached the queues' beats of `[lo, lo + len)` before this access is performed before it (R27). -/
def Block.shelfClear (b : Block) (lo len : Nat) : Block :=
  b.shelf.bankQ.foldl (fun b e => Block.bankClear (5 * e.2.length) b e.1 lo len) b

/-- All beats of one request one after another, as an engine's own access is performed. -/
def Block.shelfRun : Nat → Block → BankReq → Block × BankReq
  | 0, b, q => (b, q)
  | k + 1, b, q => if 5 ≤ q.done then (b, q) else
    let r := b.shelfBeat q
    Block.shelfRun k r.1 r.2

def Block.shelfAccess (b : Block) (r : MemReq) : Block × Status × List Byte :=
  let (b, q) := Block.shelfRun 5 (b.shelfClear r.addr r.len) ⟨r, 0, [], Code.SUCCESS⟩
  (b, q.answer)

/-- A write of one whole 4 KiB block with its seal (R31). -/
def Block.shelfWriteBlock (b : Block) (a : Nat) (data : List Byte) (sl : Nat) : Block × Status :=
  if b.groupStruck (Shelf.group a) then (b, Code.SHELF_GROUP_STRUCK)
  else
    let b := (b.shelfClear a 4096).shelfStore a data
    ({ b with shelf := { b.shelf with seals := SMap.put (fun _ => 0) b.shelf.seals (a / 4096) (BitVec.ofNat 64 sl) } },
      Code.SUCCESS)

/-- The seal of shelf block `k`; zero where it has none. -/
def Block.shelfSeal (b : Block) (k : Nat) : Nat := (SMap.get (fun _ => 0) b.shelf.seals k).toNat

/-- Poison the words of `[a, a + len)`, as coherence does for a lost line (R30). -/
def Block.shelfPoisonRange (b : Block) (a len : Nat) : Block :=
  let b := b.shelfClear a len
  { b with shelf := { b.shelf with
      poison := (wordsOf a len).foldl (fun s wa => NSet.insert wa s) b.shelf.poison
      upset := b.shelf.upset.filter fun e => !(wordsOf a len).contains e.1 } }

/-- Zero-fill `[lo, hi)`: every word zero with valid check bits, no poison, no seals (R35, SH_FILL_CTRL). -/
def Block.shelfZero (b : Block) (lo hi : Nat) : Block :=
  let inside (k : Nat) : Bool := decide (lo ≤ k) && decide (k < hi)
  let b := if hi ≤ lo then b else b.shelfClear lo (hi - lo)
  { b with shelf := { b.shelf with
      bytes := SMap.dropWhere inside b.shelf.bytes
      poison := b.shelf.poison.filter fun k => !inside k
      upset := SMap.dropWhere inside b.shelf.upset
      writeBack := b.shelf.writeBack.filter fun k => !inside k
      seals := SMap.dropWhere (fun k => inside (4096 * k)) b.shelf.seals } }

/-! ### Bank placement and spares (R32–R34) -/

/-- The free, good spares of group `g`: its 17th bank while unused, or a bank that a restore returned (R34, Table FLT-6). -/
def Block.freeSpares (b : Block) (g : Nat) : List Nat := SMap.get (fun _ => []) b.shelf.spares g

/-- Change them; SH_SPARE_FREE shows whether the group has one. -/
def Block.setFreeSpares (b : Block) (g : Nat) (l : List Nat) : Block :=
  let b := { b with shelf := { b.shelf with spares := SMap.put (fun _ => []) b.shelf.spares g l } }
  b.wr Reg.SH_SPARE_FREE.FREE (setBits (b.rd Reg.SH_SPARE_FREE.FREE) g 1 (b01 !l.isEmpty))

def Block.addSpare (b : Block) (pb : Nat) : Block :=
  let g := pb / 17
  b.setFreeSpares g (NSet.insert pb (b.freeSpares g))

def Block.dropSpare (b : Block) (pb : Nat) : Block :=
  let g := pb / 17
  b.setFreeSpares g ((b.freeSpares g).filter fun x => x ≠ pb)

/-- The free spares for a bank of group `g` in R32's order; `groupPart` gives the partition that holds a group. -/
def Block.spareOrder (b : Block) (groupPart : Nat → Option Nat) (g : Nat) : List Nat :=
  let all := List.range 32
  let own := groupPart g
  ([g, g ^^^ 1] ++ all.filter (fun x => own.isSome && decide (groupPart x = own))
    ++ all.filter (fun x => decide (groupPart x = none))).flatMap b.freeSpares

/-- SH_BANK_MAP of logical bank `lb` names physical bank `pb`. -/
def Block.setBankMap (b : Block) (lb pb : Nat) : Block :=
  let b := b.wr (Reg.SH_BANK_MAP.PBANK lb) pb
  let b := b.wr (Reg.SH_BANK_MAP.REMAPPED lb) (b01 (pb ≠ 17 * (lb / 16) + lb % 16))
  let b := b.wr (Reg.SH_BANK_MAP.FAR lb) (b01 (pb / 17 ≠ lb / 16))
  b.wr (Reg.SH_BANK_MAP.COPYING lb) 0

/-- The logical bank that physical bank `pb` serves or is being copied from, if any. -/
def Block.bankServed (b : Block) (pb : Nat) : Option Nat :=
  findIdx 512 fun lb => decide (b.rd (Reg.SH_BANK_MAP.PBANK lb) = pb)
    || b.shelf.copies.any fun c => decide (c.lbank = lb) && decide (c.spare = pb)

/-- R34: the group is struck with every bank that holds one of its logical banks, a spare that one is being copied to among
them; those not struck for a fault of their own are held with it, and its copies end. -/
def Block.strikeGroup (b : Block) (g : Nat) : Block :=
  let dropped := b.shelf.copies.filter fun c => c.lbank / 16 = g
  let banks := (List.range 16).map (fun i => b.rd (Reg.SH_BANK_MAP.PBANK (16 * g + i))) ++ dropped.map fun c => c.spare
  let b := b.wr Reg.SH_GROUP_STATE.STRUCK (setBits (b.rd Reg.SH_GROUP_STATE.STRUCK) g 1 1)
  let b := dropped.foldl (fun b c => b.wr (Reg.SH_BANK_MAP.COPYING c.lbank) 0) b
  { b with shelf := { b.shelf with
      struckBanks := banks.foldl (fun s p => NSet.insert p s) b.shelf.struckBanks
      held := b.shelf.held ++ (banks.filter fun p => !NSet.has b.shelf.struckBanks p).map fun p => (p, g)
      copies := b.shelf.copies.filter fun c => c.lbank / 16 ≠ g } }

/-- The outcome of a bank's strike (R32–R34): the spare taken, or the group struck. A bank of a struck group has a fault of
its own from then on. -/
def Block.strikeBank (b : Block) (groupPart : Nat → Option Nat) (pb : Nat) : Block × Option Nat :=
  let b := { b with shelf := { b.shelf with struckBanks := NSet.insert pb b.shelf.struckBanks } }
  match b.bankServed pb with
  | none => (b.dropSpare pb, none)
  | some lb => if b.groupStruck (lb / 16) then
      ({ b with shelf := { b.shelf with held := b.shelf.held.filter fun h => h.1 ≠ pb } }, none)
    else
    -- a spare struck during its copy gives way to the next one (R342); the old bank still holds the data
    let old := match b.shelf.copies.find? fun c => c.lbank = lb with
      | some c => c.old
      | none => pb
    match b.spareOrder groupPart (lb / 16) with
    | [] => (b.strikeGroup (lb / 16), none)
    | sp :: _ =>
      let b := b.dropSpare sp
      let b := b.wr (Reg.SH_BANK_MAP.COPYING lb) 1
      ({ b with shelf := { b.shelf with
          copies := b.shelf.copies.filter (fun c => c.lbank ≠ lb) ++ [⟨lb, old, sp, 0⟩] } }, some sp)

/-- Place logical bank `lb` on a good bank of its own, on the spare that serves it, or on the next spare; none with no bank
(R32, R34). -/
def Block.placeBank (b : Block) (groupPart : Nat → Option Nat) (lb : Nat) : Option Block :=
  let home := 17 * (lb / 16) + lb % 16
  let good (pb : Nat) : Bool := !NSet.has b.shelf.struckBanks pb && (decide (b.bankServed pb = none) || decide (b.bankServed pb = some lb))
  let cur := b.rd (Reg.SH_BANK_MAP.PBANK lb)
  if good home then
    let b := b.dropSpare home
    some ((if cur ≠ home && good cur then b.addSpare cur else b).setBankMap lb home)
  else if good cur then some ((b.dropSpare cur).setBankMap lb cur)
  else match b.spareOrder groupPart (lb / 16) with
    | [] => none
    | sp :: _ => some ((b.dropSpare sp).setBankMap lb sp)

/-- R34: place group `g` again with the banks held with it; none if a logical bank finds no bank. A bank that then serves
nothing is a spare again. -/
def Block.placeGroup (b : Block) (groupPart : Nat → Option Nat) (g : Nat) : Option Block :=
  let back := (b.shelf.held.filter fun h => h.2 = g).map fun h => h.1
  let b := { b with shelf := { b.shelf with
    struckBanks := b.shelf.struckBanks.filter fun p => !(b.shelf.held.contains (p, g))
    held := b.shelf.held.filter fun h => h.2 ≠ g } }
  (List.range 16).foldl (fun (acc : Option Block) i => match acc with
    | none => none
    | some b => b.placeBank groupPart (16 * g + i)) (some b) |>.map fun b =>
    back.foldl (fun b p => if (b.bankServed p).isNone then b.addSpare p else b) b

end Sys2Proof.Machine
end

