-- ==== Sys2Proof/Machine/HbmOps.lean ====
section
/-! DEFINITION. HBM (02, R36–R54): placement, encryption and tags, stripes, reads with the ladder of R50, writes, seals,
channel strikes and rebuilds. -/

namespace Sys2Proof.Machine

/-! ### Placement (R36–R42) -/

/-- The data channels of each stack, Nd = 32 − S. -/
def Block.hbmNd (b : Block) : Nat := 32 - b.rd Reg.HM_FE_CFG.SPARES

/-- The height in force in dies of 4: HM_FE_CFG.HEIGHT, or the lowest the present stacks report (R36). -/
def Block.hbmHeight (b : Block) : Nat :=
  if b.rd Reg.HM_FE_CFG.HEIGHT ≠ 0 then b.rd Reg.HM_FE_CFG.HEIGHT
  else ((List.range 8).filter fun n => b.is (Reg.HM_STACK_INFO.PRESENT n)).foldl
    (fun m n => min m (b.rd (Reg.HM_STACK_INFO.HEIGHT n))) 3

/-- H, the stack height in dies: encodings 1, 2, 3 are 8, 12, 16. -/
def Block.hbmH (b : Block) : Nat := 4 * (b.hbmHeight + 1)

/-- Granule lines of one channel: 31/32 of the channel (R37); a 16-high channel is 2 GiB. -/
def Block.hbmLines (b : Block) : Nat := 2 ^ 23 / 32 * 31 * b.hbmH / 16

/-- Where one granule is placed. -/
structure Place where
  stack : Nat
  k : Nat
  line : Nat
deriving DecidableEq, Repr

/-- R40's h(m). -/
def Hbm.h (m : Nat) : Nat := bits m 0 3 ^^^ bits m 3 3

/-- R40: the stack, logical channel and line of line-space address `x`. -/
def Hbm.place (nd x : Nat) : Place :=
  let g := (x / 256) % 8
  let m := x / 256 / 8
  ⟨g ^^^ Hbm.h m, m % nd, m / nd⟩

/-- R40's DRAM coordinates of line `l`: pseudo-channel, bank of 16, row. -/
def Hbm.pc (l : Nat) : Nat := bits l 0 1 ^^^ bits l 5 1
def Hbm.dramBank (l : Nat) : Nat :=
  let lp := l / 2
  4 * (bits lp 0 2 ^^^ bits lp 8 2) + (bits lp 2 2 ^^^ bits lp 10 2)
def Hbm.dramRow (l : Nat) : Nat := l / 2 / 64

/-- Where a tag is stored within its pseudo-channel. -/
structure TagPlace where
  bank : Nat
  row : Nat
  slot : Nat
deriving DecidableEq, Repr

/-- The first row of the tag area under height `h` in dies (R41). -/
def Hbm.tagRow (h : Nat) : Nat := 63488 * h / 16

/-- R41: the place of the 64-bit tag of the granule at line `l`. -/
def Hbm.tagPlace (h l : Nat) : TagPlace :=
  let lp := l / 2
  let u := lp / 128
  ⟨bits u 0 4, Hbm.tagRow h + u / 16, bits lp 0 7⟩

/-- R39: line-space address of offset `d` in an area based at `xb` (256-byte units). -/
def Hbm.lineX (prot : Bool) (xb d : Nat) : Nat :=
  if !prot then xb * 256 + d
  else
    let t := d / 1792
    let j := d % 1792 / 256
    let m := xb / 8 + t
    let sp := m % 8
    let s := if j < sp then j else j + 1
    m * 2048 + (s ^^^ Hbm.h m) * 256 + d % 256

/-- R39: the line-space address of the parity granule of octet `m`. -/
def Hbm.parityX (m : Nat) : Nat := m * 2048 + ((m % 8) ^^^ Hbm.h m) * 256

/-- A region of the table. -/
structure Region where
  n : Nat
  base : Nat
  size : Nat
  prot : Bool
  keyMode : Nat
  keySlot : Nat
  dataX : Nat
  sealX : Nat
deriving DecidableEq, Repr

def Block.region (b : Block) (n : Nat) : Region :=
  { n
    base := b.rd (Reg.HM_REGION00.DLA_BASE n) * 2 ^ 21
    size := b.rd (Reg.HM_REGION00.DLA_SIZE n) * 2 ^ 21
    prot := b.is (Reg.HM_REGION00.PROTECTED n)
    keyMode := b.rd (Reg.HM_REGION00.KEY_MODE n)
    keySlot := b.rd (Reg.HM_REGION00.KEY_SLOT n)
    dataX := b.rd (Reg.HM_REGION08.DATA_X_BASE n)
    sealX := b.rd (Reg.HM_REGION10.SEAL_X_BASE n) }

def Block.regionNums (b : Block) : List Nat := (List.range 64).filter fun n => b.is (Reg.HM_REGION00.VALID n)

/-- The region that holds HBM offset `o`. -/
def Block.regionAt (b : Block) (o : Nat) : Option Region :=
  (b.regionNums.map b.region).find? fun r => decide (r.base ≤ o) && decide (o < r.base + r.size)

/-- Data and seal footprints (R42), in bytes from the line-space base. -/
def Region.dataFoot (r : Region) : Nat := if r.prot then ceilDiv r.size 1792 * 2048 else r.size
def Region.sealFoot (r : Region) : Nat := if r.prot then ceilDiv r.size 917504 * 2048 else r.size / 512

/-- Configured capacity in bytes; bit 20 of DLA_CAP_MIB is ignored. -/
def Block.hbmCap (b : Block) : Nat := b.rd Reg.HM_FE_SPACE.DLA_CAP_MIB / 2 * 2 * 2 ^ 20

/-- Line space in bytes, and where the hub reserve starts (R37). -/
def Block.lineSpace (b : Block) : Nat := b.rd Reg.HM_FE_SPACE.LINE_SPACE_MIB * 2 ^ 20
def Block.reserveX (b : Block) : Nat := b.lineSpace - 2 ^ 29

/-! ### Stored granules -/

/-- The physical granule number of line `l` of physical channel `ch` of stack `st`. -/
def Hbm.gran (st ch l : Nat) : Nat := (st * 32 + ch) * 2 ^ 23 + l

def Block.chState (b : Block) (p : Place) : Nat := b.rd (Reg.HM_CHMAP.STATE p.stack p.k)
def Block.chPhys (b : Block) (p : Place) : Nat :=
  Hbm.gran (b.rd (Reg.HM_CHMAP.PSTACK p.stack p.k)) (b.rd (Reg.HM_CHMAP.PCH p.stack p.k)) p.line

/-- The rebuild of logical channel `k` of `stack`. -/
def Block.rebuildOf (b : Block) (stack k : Nat) : Option Rebuild :=
  b.hbm.rebuilds.find? fun r => decide (r.srcStack = stack) && decide (r.k = k)

/-- Whether a read of this granule is served from its channel (R52, R53). -/
def Block.readable (b : Block) (p : Place) : Bool :=
  match b.chState p with
  | 1 => true
  | 2 => match b.rebuildOf p.stack p.k with
    | some r => decide (p.line < r.cursor)
    | none => false
  | _ => false

/-- Whether a write of this granule reaches a channel: IN_SERVICE, or the spare at any line. -/
def Block.writable (b : Block) (p : Place) : Bool := decide (b.chState p = 1) || decide (b.chState p = 2)

/-- A granule as stored: ciphertext and tag. -/
structure Gran where
  ct : List Byte
  tag : Nat
deriving DecidableEq, Repr

def Hbm.tagPoison : Nat := 2 ^ 64 - 1

def Block.granStored (b : Block) (p : Place) : Gran :=
  ⟨SMap.getBytes b.hbm.bytes (b.chPhys p * 256) 256, (SMap.get (fun _ => 0) b.hbm.tags (b.chPhys p)).toNat⟩

def Block.granPut (b : Block) (p : Place) (g : Gran) : Block :=
  { b with hbm := { b.hbm with
      bytes := SMap.putBytes b.hbm.bytes (b.chPhys p * 256) g.ct
      tags := SMap.put (fun _ => 0) b.hbm.tags (b.chPhys p) (BitVec.ofNat 64 g.tag)
      rewritten := if b.chState p = 2 then NSet.insert (b.chPhys p) b.hbm.rewritten else b.hbm.rewritten } }

def Gran.xor (a c : Gran) : Gran := ⟨xorBytes a.ct c.ct, a.tag ^^^ c.tag⟩
def Gran.zero : Gran := ⟨zeros 256, 0⟩

/-- The eight members of octet `m`, in stack order, each with its place. -/
def Block.stripePlaces (b : Block) (m : Nat) : List Place :=
  (List.range 8).map fun g => Hbm.place b.hbmNd (m * 2048 + g * 256)

/-- The granule of `p` rebuilt from the other seven members of its stripe; none where one of them is missing, or the stripe
lost two (R53). -/
def Block.rebuilt (b : Block) (m : Nat) (p : Place) : Option Gran :=
  let others := (b.stripePlaces m).filter fun q => q ≠ p
  if others.all b.readable && !NSet.has b.hbm.lost m then some ((others.map b.granStored).foldl Gran.xor Gran.zero) else none

/-! ### The DRAM accesses of an access -/

def Block.dramNote (b : Block) (d : Dram) : Block := { b with hbm := { b.hbm with dram := b.hbm.dram ++ [d] } }

/-- Note a read, unless the access has just read the granule. -/
def Block.noteRead (b : Block) (x : Nat) (stripe : Option Nat) : Block :=
  match b.hbm.dram.reverse.find? fun d => d.x = x with
  | some d => if d.isWrite then b.dramNote ⟨x, false, stripe⟩ else b
  | none => b.dramNote ⟨x, false, stripe⟩

def Block.noteWrite (b : Block) (x : Nat) (stripe : Option Nat) : Block := b.dramNote ⟨x, true, stripe⟩

/-- Note the reads of the other seven members of octet `m`, under its lock. -/
def Block.noteOthers (b : Block) (m : Nat) (p : Place) : Block :=
  (((List.range 8).map fun g => m * 2048 + g * 256).filter fun x => Hbm.place b.hbmNd x ≠ p).foldl
    (fun b x => b.noteRead x (some m)) b

def Block.dramDrop (b : Block) : Block := { b with hbm := { b.hbm with dram := [] } }

/-! ### Encryption and tags (R48) -/

def Hbm.line512 (bs : List Byte) : BitVec 512 := BitVec.ofNat 512 (leNat bs)

/-- Encrypt 256 bytes at `x`, line by line. -/
def Hbm.encrypt (key x : Nat) (pt : List Byte) : List Byte :=
  (List.range 4).flatMap fun i =>
    natLE 64 (Config.xts key (x / 64 + i) (Hbm.line512 (sliceBytes pt (64 * i) 64))).toNat

def Hbm.decrypt (key x : Nat) (ct : List Byte) : List Byte :=
  (List.range 4).flatMap fun i =>
    natLE 64 ((Config.xts key (x / 64 + i)).symm (Hbm.line512 (sliceBytes ct (64 * i) 64))).toNat

/-- The tag of a granule's ciphertext. -/
def Hbm.tagOf (key x : Nat) (ct : List Byte) : Nat :=
  let t := (Config.cmac key (x / 64) ct).toNat
  if t = 0 ∨ t = Hbm.tagPoison then 1 else t

def Hbm.sealed (key x : Nat) (pt : List Byte) : Gran :=
  let ct := Hbm.encrypt key x pt
  ⟨ct, Hbm.tagOf key x ct⟩

/-- The key of a request in a region (R49); none where the request has no key. -/
def Block.regionKey (b : Block) (r : Region) (slice : Option Nat) : Option Nat :=
  if r.keyMode = 1 then SMap.get (fun _ => none) b.keys.slot r.keySlot
  else match slice with
    | some s => SMap.get (fun _ => none) b.keys.slice s
    | none => none

/-! ### Errors (R50) -/

/-- Take one read's stack error of the granule: 0 none, 1 corrected, 2 uncorrected. -/
def Block.takeStackErr (b : Block) (p : Place) : Block × Nat :=
  let g := b.chPhys p
  let e := SMap.get (fun _ => HbmErr.mk 0 0) b.hbm.err g
  if e.times = 0 then (b, 0)
  else
    let e' : HbmErr := if e.times = 1 then ⟨0, 0⟩ else { e with times := e.times - 1 }
    ({ b with hbm := { b.hbm with err := SMap.put (fun _ => HbmErr.mk 0 0) b.hbm.err g e' } }, e.kind)

/-- HM_ERR_LOG of the physical stack that holds `p`. -/
def Block.hbmLog (b : Block) (p : Place) (kind : Nat) (recovered : Bool) : Block :=
  let st := b.rd (Reg.HM_CHMAP.PSTACK p.stack p.k)
  b.capture (Reg.HM_ERR_LOG.VALID st) (Reg.HM_ERR_LOG.OVERFLOW st)
    [(Reg.HM_ERR_LOG.PCH st, b.rd (Reg.HM_CHMAP.PCH p.stack p.k)), (Reg.HM_ERR_LOG.PC st, Hbm.pc p.line),
     (Reg.HM_ERR_LOG.LP st, p.line / 2), (Reg.HM_ERR_LOG.KIND st, kind), (Reg.HM_ERR_LOG.RECOVERED st, b01 recovered)]

def Block.hbmCount (b : Block) (p : Place) (which : Nat) : Block :=
  let st := b.rd (Reg.HM_CHMAP.PSTACK p.stack p.k)
  b.count (if which = 0 then Reg.HM_ERR_CE.COUNT st else if which = 1 then Reg.HM_ERR_UE.COUNT st
    else Reg.HM_ERR_MAC.COUNT st) 1

/-- The one pennant of a read that reached step 2, for the step at which it ends. -/
def Block.hbmPennant (b : Block) (p : Place) (kind x : Nat) : Block :=
  b.pennant (Src.channel (b.rd (Reg.HM_CHMAP.PSTACK p.stack p.k)) (b.rd (Reg.HM_CHMAP.PCH p.stack p.k))) kind 0 x

/-- What one attempt at a present granule finds: its stack error, and whether its tag matches. A key of none checks the
stack error alone (R54). -/
def Block.attempt (b : Block) (p : Place) (x : Nat) (key : Option Nat) : Block × Nat × Bool :=
  let (b, e) := (b.dramNote ⟨x, false, none⟩).takeStackErr p
  let g := b.granStored p
  let ok : Bool := match key with
    | none => true
    | some k => decide (g.tag = 0) || decide (g.tag = Hbm.tagPoison) || decide (g.tag = Hbm.tagOf k x g.ct)
  (if e = 1 then b.hbmCount p 0 else if e = 2 then b.hbmCount p 1 else b, e, ok)

/-- The plaintext of a stored granule: zero where never written, none where poisoned (R49). -/
def Gran.plain (g : Gran) (key x : Nat) : Option (List Byte) :=
  if g.tag = Hbm.tagPoison then none
  else if g.tag = 0 then some (zeros 256)
  else some (Hbm.decrypt key x g.ct)

/-- R50 with R52 and R53 for the granule at `x` (a multiple of 256): the stored granule, or a status. `key` none reads
ciphertext and tag alone. HM_ERR_MAC counts a read's tag mismatch once. -/
def Block.granRead (b : Block) (prot : Bool) (keyMode : Nat) (key : Option Nat) (x : Nat) : Block × Except Status Gran :=
  let p := Hbm.place b.hbmNd x
  let m := x / 2048
  let tagOk (g : Gran) : Bool := match key with
    | none => true
    | some k => decide (g.tag = 0) || decide (g.tag = Hbm.tagPoison) || decide (g.tag = Hbm.tagOf k x g.ct)
  let poisonOr (g : Gran) : Except Status Gran := if g.tag = Hbm.tagPoison then .error Code.MEM_POISON else .ok g
  if !b.readable p then
    if !prot then (b, .error Code.MEM_POISON)
    else match b.rebuilt m p with
      | none => (b, .error Code.MEM_POISON)
      | some g =>
        let b := b.noteOthers m p
        if tagOk g then (b, poisonOr g)
        else if keyMode = 0 then (b.hbmCount p 2, .error Code.HBM_MAC_FAIL)
        else (((b.hbmCount p 2).hbmLog p 2 false).hbmPennant p Kind.HBM_UNRECOVERED x, .error Code.HBM_MAC_FAIL)
  else
    let (b, e1, ok1) := b.attempt p x key
    if e1 ≠ 2 ∧ ok1 then (if e1 = 1 then b.hbmLog p 0 false else b, poisonOr (b.granStored p))
    else
      let kind1 := if e1 = 2 then 1 else 2
      let (b, e2, ok2) := b.attempt p x key
      let b := if (e1 ≠ 2 ∧ !ok1) ∨ (e2 ≠ 2 ∧ !ok2) then b.hbmCount p 2 else b
      if e2 ≠ 2 ∧ ok2 then ((b.hbmLog p kind1 true).hbmPennant p Kind.HBM_REPEATED x, poisonOr (b.granStored p))
      else
        let stored := b.granStored p
        let reb := if prot then b.rebuilt m p else none
        let b := if reb.isSome then b.noteOthers m p else b
        let good : Option Gran := match reb with
          | some g => if tagOk g && (decide (e2 = 2) || decide (g ≠ stored)) then some g else none
          | none => none
        match good with
        | some g =>
          ((((b.granPut p g).noteWrite x (some m)).hbmLog p kind1 true).hbmPennant p Kind.HBM_RECONSTRUCTED x, poisonOr g)
        | none =>
          let clean : Bool := decide (e1 = 0) && decide (e2 = 0)
          let same : Bool := !prot || decide (reb = some stored)
          if keyMode = 0 ∧ clean ∧ same then (b, .error Code.HBM_MAC_FAIL)
          else ((b.hbmLog p (if e2 = 2 then 1 else 2) false).hbmPennant p Kind.HBM_UNRECOVERED x,
            .error (if e2 = 2 then Code.HBM_UNCORRECTABLE else Code.HBM_MAC_FAIL))

/-! ### Writes (R43, R49, R51–R53) -/

def Block.setLost (b : Block) (m : Nat) (v : Bool) : Block :=
  { b with hbm := { b.hbm with lost := if v then NSet.insert m b.hbm.lost else NSet.erase b.hbm.lost m } }

/-- A stripe's member takes a granule where its channel or spare takes writes. -/
def Block.memberPut (b : Block) (m x : Nat) (g : Gran) : Block :=
  let p := Hbm.place b.hbmNd x
  if b.writable p then (b.granPut p g).noteWrite x (some m) else b

/-- Replace the granule at `x` by `new`, with the parity of a protected stripe: from the old granule where the stripe
gives one. A stripe that lost two members takes its parity anew once all its members can be read again (assumption 60). -/
def Block.granReplace (b : Block) (prot : Bool) (x : Nat) (new : Gran) : Block × Status :=
  let p := Hbm.place b.hbmNd x
  let m := x / 2048
  if !prot then
    if b.writable p then ((b.granPut p new).noteWrite x none, Code.SUCCESS) else (b, Code.HBM_NO_BACKING)
  else
    let xp := Hbm.parityX m
    let pp := Hbm.place b.hbmNd xp
    let old (b : Block) (q : Place) : Option Gran := if b.readable q then some (b.granStored q) else b.rebuilt m q
    let note (b : Block) (x : Nat) (q : Place) : Block := if b.readable q then b.noteRead x (some m) else b.noteOthers m q
    if NSet.has b.hbm.lost m && (b.stripePlaces m).all b.readable then
      let b := (b.noteOthers m pp).memberPut m x new
      let par := (((b.stripePlaces m).filter fun q => q ≠ pp).map b.granStored).foldl Gran.xor Gran.zero
      ((b.memberPut m xp par).setLost m false, Code.SUCCESS)
    else match old b p with
    | none =>
      -- the stripe is lost: the spare takes the granule and the stripe keeps no parity for it
      if b.writable p then ((b.memberPut m x new).setLost m true, Code.SUCCESS) else (b, Code.MEM_POISON)
    | some o =>
      let par := old b pp
      let b := note b x p
      let b := if par.isSome then note b xp pp else b
      let b := b.memberPut m x new
      ((match par with
        | some g => b.memberPut m xp (g.xor (o.xor new))
        | none => b), Code.SUCCESS)

/-- Write a whole stripe without reading (R43): its seven data granules, by line-space address, and their parity. -/
def Block.stripePut (b : Block) (m : Nat) (grans : List (Nat × Gran)) : Block :=
  let b := grans.foldl (fun b g => b.memberPut m g.1 g.2) b
  (b.memberPut m (Hbm.parityX m) ((grans.map fun g => g.2).foldl Gran.xor Gran.zero)).setLost m false

/-- How a granule of a stripe so written completes: one that no channel takes is kept by the parity alone, and is lost with
a second such member, as by `granReplace`. -/
def Block.stripeStatus (b : Block) (m x : Nat) : Status :=
  let p := Hbm.place b.hbmNd x
  if b.writable p || ((b.stripePlaces m).filter fun q => q ≠ p).all b.writable then Code.SUCCESS else Code.MEM_POISON

/-- A write of bytes `[x, x + n)` within one granule, or an add, under `key`. -/
def Block.granWrite (b : Block) (prot : Bool) (keyMode key x n : Nat) (f : List Byte → List Byte) (whole : Bool) :
    Block × Status :=
  let xg := x / 256 * 256
  if whole && decide (n = 256) then b.granReplace prot xg (Hbm.sealed key xg (f (zeros 256)))
  else
    let p := Hbm.place b.hbmNd xg
    if !prot ∧ b.chState p = 3 then (b, Code.HBM_NO_BACKING)
    else match b.granRead prot keyMode (some key) xg with
      | (b, .error st) => (b, st)
      | (b, .ok g) =>
        match g.plain key xg with
        | none => (b, Code.MEM_POISON)
        | some pt =>
          let part := sliceBytes pt (x % 256) n
          b.granReplace prot xg (Hbm.sealed key xg (overlay pt (x % 256) (f part)))

/-- Poison the granule at `x` on ciphertext and tags alone (R49). -/
def Block.granPoison (b : Block) (prot : Bool) (x : Nat) : Block :=
  let p := Hbm.place b.hbmNd x
  let old := if b.readable p then b.granStored p else (b.rebuilt (x / 2048) p).getD Gran.zero
  (b.granReplace prot x { old with tag := Hbm.tagPoison }).1

/-- Give a granule the tag of one never written; `wipe` its stored bytes too (R49, R268). -/
def Block.granClear (b : Block) (prot wipe : Bool) (x : Nat) : Block :=
  let p := Hbm.place b.hbmNd x
  let old := if b.readable p then some (b.granStored p) else if prot then b.rebuilt (x / 2048) p else none
  let ct := if wipe then zeros 256 else match old with
    | some g => g.ct
    | none => zeros 256
  (b.granReplace prot x ⟨ct, 0⟩).1

/-! ### Accesses by HBM offset -/

/-- A seal slot access: the offset of block `i`'s slot in the region's seal area is 8 · i (R42). -/
def Region.sealSlotX (r : Region) (i : Nat) : Nat := Hbm.lineX r.prot r.sealX (8 * i)

/-- The seal of the block that holds region offset `d`. -/
def Block.hbmSeal (b : Block) (r : Region) (key d : Nat) : Block × Except Status Nat :=
  let x := r.sealSlotX (d / 4096)
  match b.granRead r.prot r.keyMode (some key) (x / 256 * 256) with
  | (b, .error st) => (b, .error st)
  | (b, .ok g) => match g.plain key (x / 256 * 256) with
    | none => (b, .error Code.MEM_POISON)
    | some pt => (b, .ok (leAt pt (x % 256) 8))

/-- Write the seals of consecutive blocks from block `i` of a region: the seals of 32 that share a granule need no read
(R43). -/
def Block.hbmSetSeals (b : Block) (r : Region) (key i : Nat) (sls : List Nat) : Block × Status :=
  let n := sls.length
  (List.range (ceilDiv (i + n) 32 - i / 32)).foldl (fun (acc : Block × Status) j =>
    let lo := max i (32 * (i / 32 + j))
    let hi := min (i + n) (32 * (i / 32 + j) + 32)
    let q := acc.1.granWrite r.prot r.keyMode key (r.sealSlotX lo) (8 * (hi - lo))
      (fun _ => ((sls.drop (lo - i)).take (hi - lo)).flatMap (natLE 8)) true
    (q.1, if acc.2 = Code.SUCCESS then q.2 else acc.2)) (b, Code.SUCCESS)

def Block.hbmSetSeal (b : Block) (r : Region) (key d sl : Nat) : Block × Status := b.hbmSetSeals r key (d / 4096) [sl]

/-- One request of at most 256 bytes within one granule, at HBM offset `o` (R43, R49, R50). A write or add that does not
carry a seal stores "no seal" for its block (R42). -/
def Block.hbmAccess (b : Block) (slice : Option Nat) (o len : Nat) (op : MemOp) : Block × Status × List Byte :=
  let zero := match op with
    | .read => zeros len
    | _ => []
  if b.hbm.disabled then (b, Code.ADDR_UNMAPPED, zero)
  else match b.regionAt o with
    | none => (b, Code.ADDR_UNMAPPED, zero)
    | some r =>
      match b.regionKey r slice with
      | none => (b, Code.SEC_KEY_EMPTY, zero)
      | some key =>
        let d := o - r.base
        let x := Hbm.lineX r.prot r.dataX d
        let noSeal (q : Block × Status) : Block × Status × List Byte :=
          if q.2 ≠ Code.SUCCESS then (q.1, q.2, [])
          else
            let s := q.1.hbmSetSeal r key d 0
            (s.1, s.2, [])
        match op with
        | .read =>
          match b.granRead r.prot r.keyMode (some key) (x / 256 * 256) with
          | (b, .error st) => (b, st, zero)
          | (b, .ok g) => match g.plain key (x / 256 * 256) with
            | none => (b, Code.MEM_POISON, zero)
            | some pt => (b, Code.SUCCESS, sliceBytes pt (x % 256) len)
        | .write data => noSeal (b.granWrite r.prot r.keyMode key x len (fun _ => data) true)
        | .add f data => noSeal (b.granWrite r.prot r.keyMode key x len (fun old => addBytes f 256 old data) false)

/-- A write of a whole 4 KiB block with its seal at HBM offset `o`: the stripes that it covers, its other granules, then its
seal slot (R43). -/
def Block.hbmWriteBlock (b : Block) (slice : Option Nat) (o : Nat) (data : List Byte) (sl : Nat) : Block × Status :=
  if b.hbm.disabled then (b, Code.ADDR_UNMAPPED)
  else match b.regionAt o with
    | none => (b, Code.ADDR_UNMAPPED)
    | some r => match b.regionKey r slice with
      | none => (b, Code.SEC_KEY_EMPTY)
      | some key =>
        let gs := (List.range 16).map fun i => (Hbm.lineX r.prot r.dataX (o - r.base + 256 * i), sliceBytes data (256 * i) 256)
        let (b, st) := (gs.map fun g => g.1 / 2048).dedup.foldl (fun (acc : Block × Status) m =>
          let mine := gs.filter fun g => g.1 / 2048 = m
          let w : Block × Status := if r.prot && decide (mine.length = 7) then
              (acc.1.stripePut m (mine.map fun g => (g.1, Hbm.sealed key g.1 g.2)),
                ((mine.map fun g => acc.1.stripeStatus m g.1).find? fun s => s ≠ Code.SUCCESS).getD Code.SUCCESS)
            else mine.foldl (fun (acc : Block × Status) g =>
              let w := acc.1.granWrite r.prot r.keyMode key g.1 256 (fun _ => g.2) true
              (w.1, if acc.2 = Code.SUCCESS then w.2 else acc.2)) (acc.1, Code.SUCCESS)
          (w.1, if acc.2 = Code.SUCCESS then w.2 else acc.2)) (b, Code.SUCCESS)
        if st ≠ Code.SUCCESS then (b, st) else b.hbmSetSeal r key (o - r.base) sl

/-- The seal of the block at HBM offset `o`, as a reader of it sees it. -/
def Block.hbmSealAt (b : Block) (slice : Option Nat) (o : Nat) : Block × Except Status Nat :=
  match b.regionAt o with
  | none => (b, .error Code.ADDR_UNMAPPED)
  | some r => match b.regionKey r slice with
    | none => (b, .error Code.SEC_KEY_EMPTY)
    | some key => b.hbmSeal r key (o - r.base)

/-- Poison the granule that holds HBM offset `o` (R49). -/
def Block.hbmPoisonAt (b : Block) (o : Nat) : Block :=
  match b.regionAt o with
  | none => b
  | some r => b.granPoison r.prot (Hbm.lineX r.prot r.dataX (o - r.base) / 256 * 256)

/-- Clear tags in the regions that `sel` picks, so that HBM offsets `[lo, hi)` and the seal granules wholly theirs read as
never written. -/
def Block.hbmClearRange (b : Block) (sel : Region → Bool) (wipe : Bool) (lo hi : Nat) : Block :=
  -- only granules that hold something need clearing
  let cand := (b.hbm.tags.map fun e => e.1) ++ if wipe then (b.hbm.bytes.map fun e => e.1 / 256).dedup else []
  b.regionNums.foldl (fun b n =>
    let r := b.region n
    let l := max lo r.base
    let h := min hi (r.base + r.size)
    if h ≤ l ∨ !sel r then b
    else
      let xs := (List.range (ceilDiv (h - l) 256)).filterMap fun i =>
        let x := Hbm.lineX r.prot r.dataX (l - r.base + 256 * i) / 256 * 256
        if cand.contains (b.chPhys (Hbm.place b.hbmNd x)) then some x else none
      let s0 := ceilDiv (l - r.base) 131072
      let ss := (List.range (ceilDiv (h - r.base) 131072 - s0)).filterMap fun i =>
        let x := r.sealSlotX (32 * (s0 + i)) / 256 * 256
        let whole : Bool := decide (131072 * (s0 + i + 1) ≤ h - r.base) || decide (h = r.base + r.size)
        if whole && cand.contains (b.chPhys (Hbm.place b.hbmNd x)) then some x else none
      ((xs ++ ss).foldl (fun b x => b.granClear r.prot wipe x) b).dramDrop) b

/-! ### The seal-time check (R38) -/

/-- Whether a region breaks a rule of its own against the others: its base alignment, its footprints. -/
def Block.regionBreach (b : Block) (n : Nat) : Bool :=
  let r := b.region n
  let spans (q : Region) : List (Nat × Nat) :=
    [(q.dataX * 256, q.dataX * 256 + q.dataFoot), (q.sealX * 256, q.sealX * 256 + q.sealFoot)]
  let meets (a c : Nat × Nat) : Bool := decide (a.1 < c.2) && decide (c.1 < a.2)
  let reserve := (b.reserveX, b.lineSpace)
  (r.prot && (decide (r.dataX % 8 ≠ 0) || decide (r.sealX % 8 ≠ 0)))
    || (spans r).any (fun a => decide (b.reserveX < a.2) || meets a reserve)
    || (match spans r with
        | [a, c] => meets a c
        | _ => false)
    || b.regionNums.any fun k => decide (k < n) && (spans (b.region k)).any fun a => (spans r).any fun c => meets a c

/-- Whether the valid regions tile offsets 0 to the capacity exactly. -/
def Block.regionsTile (b : Block) : Bool :=
  let rs := b.regionNums.map b.region
  let total := rs.foldl (fun t r => t + r.size) 0
  decide (total = b.hbmCap)
    && rs.all (fun r => decide (r.base + r.size ≤ b.hbmCap))
    && rs.all (fun r => rs.all fun q => decide (q.n = r.n) || decide (q.base + q.size ≤ r.base)
        || decide (r.base + r.size ≤ q.base))

/-- R38: none where the table passes, else the pennant's AUX. -/
def Block.regionCheck (b : Block) : Option Nat :=
  match b.regionNums.find? b.regionBreach with
  | some n => some n
  | none => if b.regionsTile then none else some 0x0FF

/-! ### Channel strikes and rebuilds (R51–R53) -/

/-- The free spare R51 takes for a logical channel of `stack`: (stack, channel). -/
def Block.channelSpare (b : Block) (stack : Nat) : Option (Nat × Nat) :=
  match lowBit? (b.rd (Reg.HM_SPARE.FREE stack)) 32 with
  | some c => some (stack, c)
  | none =>
    let n (s : Nat) : Nat := popCount (b.rd (Reg.HM_SPARE.FREE s)) 32
    let best := (List.range 8).foldl (fun m s => if n m < n s then s else m) 0
    (lowBit? (b.rd (Reg.HM_SPARE.FREE best)) 32).map fun c => (best, c)

/-- Recompute HM_STATUS of each stack from the spares and rebuilds. -/
def Block.hbmStatus (b : Block) : Block :=
  (List.range 8).foldl (fun b s =>
    let b := b.wr (Reg.HM_STATUS.SPARE_EXHAUSTED s) (b01 (b.rd (Reg.HM_SPARE.FREE s) = 0))
    b.wr (Reg.HM_STATUS.REBUILD_ACTIVE s) (b01 (b.hbm.rebuilds.any fun r => r.running && decide (r.pstack = s)))) b

/-- Show a rebuild in its register (HM_REBUILD, HM_REBUILD2). -/
def Block.showRebuild (b : Block) (r : Rebuild) (active : Bool) : Block :=
  if r.second then
    let b := b.wr (Reg.HM_REBUILD2.CURSOR r.pstack) r.cursor
    let b := b.wr (Reg.HM_REBUILD2.CHANNEL r.pstack) r.k
    let b := b.wr (Reg.HM_REBUILD2.SRC_STACK r.pstack) r.srcStack
    b.wr (Reg.HM_REBUILD2.ACTIVE r.pstack) (b01 active)
  else
    let b := b.wr (Reg.HM_REBUILD.CURSOR r.pstack) r.cursor
    let b := b.wr (Reg.HM_REBUILD.CHANNEL r.pstack) r.k
    let b := b.wr (Reg.HM_REBUILD.SRC_STACK r.pstack) r.srcStack
    b.wr (Reg.HM_REBUILD.ACTIVE r.pstack) (b01 active)

/-- Start the rebuilds that may run: those sharing a k run one after another in strike order (R52). -/
def Block.startRebuilds (b : Block) : Block :=
  let go := b.hbm.rebuilds.foldl (fun (acc : Block × List Rebuild) r =>
    let (b, done) := acc
    if r.running then (b, done ++ [r])
    else if b.hbm.rebuilds.any (fun q => q.running && decide (q.k = r.k)) || done.any (fun q => q.running && decide (q.k = r.k))
    then (b, done ++ [r])
    else
      let shown (q : Rebuild) : Bool := q.running && decide (q.pstack = r.pstack) && !q.second
      let second : Bool := b.hbm.rebuilds.any shown || done.any shown
      let rate := if second then b.rd (Reg.HM_REBUILD2.RATE r.pstack) else b.rd (Reg.HM_REBUILD.RATE r.pstack)
      let r := { r with running := true, second, rate }
      (b.showRebuild r true, done ++ [r])) (b, [])
  ({ go.1 with hbm := { go.1.hbm with rebuilds := go.2 } }).hbmStatus

/-- Give logical channel (stack, k) the spare R51 chooses, or make it LOST; answer the spare taken. -/
def Block.channelToSpare (b : Block) (stack k : Nat) : Block × Option (Nat × Nat) :=
  -- a rebuild in progress onto a failed spare ends; the next starts at zero and keeps its journal entry
  let old := b.rebuildOf stack k
  let b := match old with
    | some r => b.showRebuild r false
    | none => b
  let b := { b with hbm := { b.hbm with
    rebuilds := b.hbm.rebuilds.filter fun r => !(decide (r.srcStack = stack) && decide (r.k = k)) } }
  match b.channelSpare stack with
  | none =>
    let b := match old with
      | some r => b.journalEnd r.journal Journal.ABORTED 0
      | none => b
    ((b.wr (Reg.HM_CHMAP.STATE stack k) 3).startRebuilds, none)
  | some (ps, pc) =>
    let (b, j) := match old with
      | some r => (b.journalPhase r.journal 1 0, r.journal)
      | none => b.journalRebuild (Src.channel stack k)
    let b := b.wr (Reg.HM_SPARE.FREE ps) (setBits (b.rd (Reg.HM_SPARE.FREE ps)) pc 1 0)
    let b := b.wr (Reg.HM_CHMAP.PCH stack k) pc
    let b := b.wr (Reg.HM_CHMAP.PSTACK stack k) ps
    let b := b.wr (Reg.HM_CHMAP.STATE stack k) 2
    -- what the spare's granules held before is not the channel's: nothing of it has been rewritten yet
    let lo := Hbm.gran ps pc 0
    let b := { b with hbm := { b.hbm with
      rewritten := b.hbm.rewritten.filter fun g => !(decide (lo ≤ g) && decide (g < lo + 2 ^ 23))
      rebuilds := b.hbm.rebuilds ++ [(⟨stack, k, ps, pc, 0, false, false, 0, j, false, 0⟩ : Rebuild)] } }
    (b.startRebuilds, some (ps, pc))

/-- The logical channel that physical channel (ps, ch) carries. -/
def Block.channelServed (b : Block) (ps ch : Nat) : Option (Nat × Nat) :=
  ((List.range 8).flatMap fun s => (List.range b.hbmNd).map fun k => (s, k)).find? fun q =>
    decide (b.rd (Reg.HM_CHMAP.PSTACK q.1 q.2) = ps) && decide (b.rd (Reg.HM_CHMAP.PCH q.1 q.2) = ch)
      && (decide (b.rd (Reg.HM_CHMAP.STATE q.1 q.2) = 1) || decide (b.rd (Reg.HM_CHMAP.STATE q.1 q.2) = 2))

/-- R51: strike physical channel `ch` of stack `ps`; its training is abandoned (R47). -/
def Block.strikeChannel (b : Block) (ps ch : Nat) : Block × Option (Nat × Nat) :=
  let b := b.wr (Reg.HM_STATUS.RETIRED ps) (satAdd 6 (b.rd (Reg.HM_STATUS.RETIRED ps)) 1)
  let b := b.wr (Reg.HM_SPARE.FREE ps) (setBits (b.rd (Reg.HM_SPARE.FREE ps)) ch 1 0)
  let b := { b with hbm := { b.hbm with
    struckCh := NSet.insert (32 * ps + ch) b.hbm.struckCh
    pcs := b.hbm.pcs.map fun (e : Nat × PseudoChannel) => if e.1 / 2 = 32 * ps + ch then (e.1, { e.2 with training := false }) else e } }
  match b.channelServed ps ch with
  | none => (b.hbmStatus, none)
  | some (s, k) => b.channelToSpare s k

/-- Whether line-space address `x` is striped: the hub reserve, and the areas of protected regions. -/
def Block.striped (b : Block) (x : Nat) : Bool :=
  decide (b.reserveX ≤ x) || (b.regionNums.map b.region).any fun q =>
    q.prot && (decide (q.dataX * 256 ≤ x) && decide (x < q.dataX * 256 + q.dataFoot)
      || decide (q.sealX * 256 ≤ x) && decide (x < q.sealX * 256 + q.sealFoot))

/-- The line-space address of line `l` of logical channel `k` of `stack`: the inverse of R40. -/
def Hbm.lineAt (nd stack k l : Nat) : Nat := (l * nd + k) * 2048 + (stack ^^^ Hbm.h (l * nd + k)) * 256

/-- One line of a rebuild (R52, R53): reconstructed for a protected line, poisoned for an unprotected one or a lost stripe,
unless a whole-granule write has reached it. -/
def Block.rebuildLine (b : Block) (r : Rebuild) : Block :=
  let m := r.cursor * b.hbmNd + r.k
  let x := Hbm.lineAt b.hbmNd r.srcStack r.k r.cursor
  let p : Place := ⟨r.srcStack, r.k, r.cursor⟩
  let prot := b.striped x
  if NSet.has b.hbm.rewritten (b.chPhys p) || (!prot && decide (r.cursor < r.keepBelow)) then b
  else
    let poison : Gran := ⟨zeros 256, Hbm.tagPoison⟩
    if !prot then (b.granPut p poison).noteWrite x none
    else match b.rebuilt m p with
      | some g => ((b.noteOthers m p).granPut p g).noteWrite x (some m)
      | none => ((b.granPut p poison).noteWrite x (some m)).setLost m true

end Sys2Proof.Machine
end

