-- ==== Sys2Proof/Machine/HbmQueue.lean ====
section
/-! DEFINITION. The HBM front end's gathering of stripes and its locks (R43, R44), and the reorder queues (R45–R47). Data
moves when the front end performs an access; a queue's entries order the DRAM accesses and the write completions. -/

namespace Sys2Proof.Machine

/-! ### Reorder queues -/

def Block.pc (b : Block) (k : Nat) : PseudoChannel := SMap.get (fun _ => PseudoChannel.idle) b.hbm.pcs k
def Block.setPc (b : Block) (k : Nat) (v : PseudoChannel) : Block :=
  { b with hbm := { b.hbm with pcs := SMap.put (fun _ => PseudoChannel.idle) b.hbm.pcs k v } }

/-- The pseudo-channel, 2 × (32 × stack + channel) + pc, that carries the granule at line-space address `x`, and its line. -/
def Block.pcOf (b : Block) (x : Nat) : Nat × Nat :=
  let p := Hbm.place b.hbmNd x
  (2 * (32 * b.rd (Reg.HM_CHMAP.PSTACK p.stack p.k) + b.rd (Reg.HM_CHMAP.PCH p.stack p.k)) + Hbm.pc p.line, p.line)

/-- Whether the bank of a granule is under refresh, or its pseudo-channel in a training hold (R47). -/
def Block.dramHeld (b : Block) (x : Nat) : Bool :=
  let (k, line) := b.pcOf x
  (b.pc k).training || NSet.has (b.pc k).refreshing (Hbm.dramBank line)

/-- Queue one DRAM access with the completions that wait for it; a read that finds a queued write to its line needs none
(R45 rule 2), unless its bank is held. -/
def Block.enqueue (b : Block) (d : Dram) (ensign : Nat) (owed : List Owed) : Block :=
  let (k, line) := b.pcOf d.x
  let c := b.pc k
  if !d.isWrite && !b.dramHeld d.x && c.q.any fun e => e.isWrite && decide (e.line = line) then b
  else
    let room : Bool := decide (c.q.length < 64)
    b.setPc k { c with q := c.q ++
      [(⟨line, d.isWrite, ensign, b.now, if d.isWrite && room then [] else owed, if room then none else d.stripe⟩ : RqEntry)] }

/-- Whether a completion still waits for some access. -/
def Block.stillOwed (b : Block) (o : Owed) : Bool := b.hbm.pcs.any fun e => e.2.q.any fun q => q.owed.contains o

/-- Answer the requests of `os` that wait for nothing more. -/
def Block.release (b : Block) (os : List Owed) : Block :=
  os.dedup.foldl (fun b o => if b.stillOwed o then b else b.emit (.memResp o.req.who o.req.tag o.status o.data)) b

/-- A read waits for its reads; so does a write that fails; one that succeeds waits for its writes (R46). -/
def Owed.waitsFor (o : Owed) (d : Dram) : Bool :=
  if o.req.op = .read ∨ o.status ≠ Code.SUCCESS then !d.isWrite else d.isWrite

/-- Queue the DRAM accesses of the access just performed, and answer the requests of `os` that wait for none of them;
`part` tells which accesses serve which request. -/
def Block.dramQueue (b : Block) (ensign : Dram → Nat) (part : Owed → Dram → Bool) (os : List Owed) : Block :=
  (b.hbm.dram.foldl (fun b d => b.enqueue d (ensign d) (os.filter fun o => o.waitsFor d && part o d)) b.dramDrop).release os

/-- The same where all of them serve one request, or none. -/
def Block.dramPost (b : Block) (ensign : Nat) (os : List Owed) : Block := b.dramQueue (fun _ => ensign) (fun _ _ => true) os

/-! ### Stripes -/

def Block.stripe (b : Block) (m : Nat) : Stripe := SMap.get (fun _ => Stripe.idle) b.hbm.stripes m
def Block.setStripe (b : Block) (m : Nat) (v : Stripe) : Block :=
  { b with hbm := { b.hbm with stripes := SMap.put (fun _ => Stripe.idle) b.hbm.stripes m v } }

/-- Whether a stripe's lock is held because accesses under it still wait for their queues. -/
def Block.stripeBusy (b : Block) (m : Nat) : Bool :=
  b.hbm.pcs.any fun e => (e.2.q.drop 64).any fun q => decide (q.stripe = some m)

/-- Where a request's granule lies: its region and line-space address. -/
def Block.hbmWhere (b : Block) (o : Nat) : Option (Region × Nat) :=
  (b.regionAt o).map fun r => (r, Hbm.lineX r.prot r.dataX (o - r.base))

/-- Perform a request whose HBM offset is `o`: data, parity and seal at once, and its DRAM accesses queued. -/
def Block.hbmPerform (b : Block) (o : Nat) (r : MemReq) : Block :=
  let q := b.hbmAccess r.who.slice o r.len r.op
  q.1.dramPost r.who.ensign [⟨r, q.2.1, q.2.2⟩]

/-- Perform the writes a stripe holds by read-modify-write, in arrival order (R43). -/
def Block.flushStripe (b : Block) (m : Nat) : Block :=
  let s := b.stripe m
  s.held.foldl (fun b r => b.hbmPerform (r.addr - 0x8000000000) r) (b.setStripe m { s with held := [] })

/-- Flush every gathering stripe that HBM offsets `[o, o + len)` touch, before another access to them. -/
def Block.flushFor (b : Block) (o len : Nat) : Block :=
  ((List.range (ceilDiv (o % 256 + len) 256)).map fun i => o / 256 * 256 + 256 * i).foldl (fun b a =>
    match b.hbmWhere a with
    | some (_, x) => if (b.stripe (x / 2048)).held.isEmpty then b else b.flushStripe (x / 2048)
    | none => b) b

/-- Write a gathered stripe without reading: its seven granules and their parity (R43). Each request completes once its own
granule, the parity and its block's seal are queued; the parity and the seals go at the lowest ensign number of the seven
(assumption 60). -/
def Block.stripeWrite (b : Block) (m : Nat) : Block :=
  let s := b.stripe m
  let b := b.setStripe m { s with held := [] }
  let ws := s.held.filterMap fun q => match b.hbmWhere (q.addr - 0x8000000000), q.op with
    | some (g, x), .write d => some (q, x, Hbm.sealed ((b.regionKey g q.who.slice).getD 0) x d)
    | _, _ => none
  let grans := (ws.map fun w => w.2.1).dedup.filterMap fun x =>
    (ws.filter fun w => w.2.1 = x).getLast?.map fun w => (x, w.2.2)
  let b := b.stripePut m grans
  -- each block the stripe touches keeps no seal (R31, R42)
  let seals := (s.held.map fun q => ((q.addr - 0x8000000000) / 4096, q.who.slice)).dedup.foldl
    (fun (acc : Block × List (Nat × Status)) k => match acc.1.hbmWhere (k.1 * 4096) with
      | some (g, _) => match acc.1.regionKey g k.2 with
        | some key =>
          let q := acc.1.hbmSetSeal g key (k.1 * 4096 - g.base) 0
          (q.1, acc.2 ++ [(k.1, q.2)])
        | none => acc
      | none => acc) (b, [])
  let status (q : MemReq) (x : Nat) : Status :=
    if b.stripeStatus m x ≠ Code.SUCCESS then b.stripeStatus m x
    else ((seals.2.find? fun e => e.1 = (q.addr - 0x8000000000) / 4096).map fun e => e.2).getD Code.SUCCESS
  let low := s.held.foldl (fun n q => min n q.who.ensign) 7
  seals.1.dramQueue
    (fun d => match ws.find? fun w => w.2.1 = d.x with
      | some w => w.1.who.ensign
      | none => low)
    (fun o d => decide (d.x / 2048 ≠ m) || decide (d.x = Hbm.parityX m) || ws.any fun w => decide (w.1 = o.req) && decide (w.2.1 = d.x))
    (ws.map fun w => ⟨w.1, status w.1 w.2.1, []⟩)

/-- How many of a stripe's data granules the held writes cover. -/
def Block.gathered (b : Block) (m : Nat) : Nat :=
  (((b.stripe m).held.map fun q => q.addr / 256).dedup).length

/-- Whether a request that takes the lock of stripe `m` must wait: accesses under the lock still wait for their queues, or an
earlier request waits and the lock was not granted to this one (R44). -/
def Block.lockWaits (b : Block) (grant : Option Nat) (m : Nat) : Bool :=
  b.stripeBusy m || (decide (grant ≠ some m) && !(b.stripe m).waiters.isEmpty)

def Block.lockWait (b : Block) (m : Nat) (r : MemReq) : Block :=
  b.setStripe m { b.stripe m with waiters := (b.stripe m).waiters ++ [r] }

/-- A read of a granule whose write its stripe holds takes its data from that write (R43); one under another key meets a key
mismatch (R50). -/
def Block.heldRead (b : Block) (g : Region) (x key a len : Nat) : Option (Block × Status × List Byte) :=
  match ((b.stripe (x / 2048)).held.filter fun q => q.addr / 256 = a / 256).getLast? with
  | none => none
  | some q =>
    if b.regionKey g q.who.slice = some key then
      some (b, Code.SUCCESS, match q.op with
        | .write d => sliceBytes d (a % 256) len
        | _ => zeros len)
    else some (b.hbmCount (Hbm.place b.hbmNd x) 2, Code.HBM_MAC_FAIL, zeros len)

/-- The same of `len` bytes at HBM offset `o`, as a slice reads them. -/
def Block.heldAt (b : Block) (slice : Option Nat) (o len : Nat) : Option (Block × Status × List Byte) :=
  if b.hbm.disabled then none
  else match b.hbmWhere o with
    | none => none
    | some (g, x) => match b.regionKey g slice with
      | none => none
      | some key => b.heldRead g x key (0x8000000000 + o) len

/-- Serve a request that passed its checks (R43, R44, R50); `grant` is the stripe whose lock it has just been given. -/
def Block.hbmServe (b : Block) (grant : Option Nat) (o : Nat) (r : MemReq) : Block :=
  match b.hbmWhere o with
  | none => b.hbmPerform o r
  | some (g, x) => match b.regionKey g r.who.slice with
    | none => b.hbmPerform o r
    | some key =>
      let m := x / 2048
      if !g.prot ∨ b.hbm.disabled then b.hbmPerform o r
      else match r.op with
        | .read => match b.heldRead g x key r.addr r.len with
          | some q => q.1.emit (.memResp r.who r.tag q.2.1 q.2.2)
          | none =>
            -- a degraded read takes the lock
            if !b.readable (Hbm.place b.hbmNd x) && (b.lockWaits grant m || !(b.stripe m).held.isEmpty) then b.lockWait m r
            else b.hbmPerform o r
        | op =>
          let whole : Bool := decide (r.len = 256) && (match op with
            | .write _ => true
            | _ => false)
          let s := b.stripe m
          if whole && !s.held.isEmpty && s.held.all fun q => decide (q.who.port = r.who.port) then
            let b := b.setStripe m { s with held := s.held ++ [r] }
            if b.gathered m = 7 then b.stripeWrite m else b
          else
            let b := b.flushStripe m
            let ms := g.sealSlotX ((o - g.base) / 4096) / 2048
            if b.lockWaits grant m then b.lockWait m r
            else if whole then b.setStripe m { b.stripe m with held := [r], since := b.now }
            else if ms ≠ m ∧ b.lockWaits grant ms then b.lockWait ms r
            else b.hbmPerform o r

/-- Grant a freed lock to the first waiter (R44). -/
def Block.stripeGrant (b : Block) (m : Nat) : Block :=
  let s := b.stripe m
  match s.waiters with
  | [] => b
  | r :: rest =>
    if b.stripeBusy m ∨ !s.held.isEmpty then b
    else (b.setStripe m { s with waiters := rest }).hbmServe (some m) (r.addr - 0x8000000000) r

/-! ### Choosing the next DRAM access (R45) -/

/-- The index of the entry a pseudo-channel issues next. -/
def PseudoChannel.choose (c : PseudoChannel) (now age : Nat) : Option Nat :=
  let es := c.q.take 64
  let n := es.length
  let at' (i : Nat) : RqEntry := es.getD i ⟨0, false, 1, 0, [], none⟩
  -- rule 1: an earlier access to the same line goes first; a bank under refresh waits (R47)
  let ready := (List.range n).filter fun i =>
    !((List.range i).any fun j => decide ((at' j).line = (at' i).line))
      && !NSet.has c.refreshing (Hbm.dramBank (at' i).line)
  let hit (i : Nat) : Bool :=
    decide (SMap.get (fun _ => 0) c.openRow (Hbm.dramBank (at' i).line) = Hbm.dramRow (at' i).line + 1)
  let firstOf (p : Nat → Bool) : Option Nat := ready.find? p
  let open' (p : Nat → Bool) : Option Nat := (firstOf fun i => p i && hit i).or (firstOf p)
  (open' fun i => decide ((at' i).ensign = 0)).or
    ((firstOf fun i => decide ((at' i).queued + age ≤ now)).or
      (if c.draining then (open' fun i => (at' i).isWrite).or (open' fun _ => true)
       else open' fun _ => true))

/-- Whether a pseudo-channel drains writes now: from WR_HIGH queued until WR_LOW remain (R45 rule 4). -/
def PseudoChannel.drains (c : PseudoChannel) (low high : Nat) : Bool :=
  let writes := ((c.q.take 64).filter fun e => e.isWrite).length
  if c.draining then decide (low < writes) else decide (high ≤ writes)

/-- Issue an access: it leaves the queue, its row stays open, a read is answered, and a waiting entry that moves into the
queue completes its write (R45, R46). -/
def Block.issueDram (b : Block) (k : Nat) : Block :=
  let st := k / 64
  let c := { b.pc k with draining := (b.pc k).drains (b.rd (Reg.HM_RQ_CFG.WR_LOW st)) (b.rd (Reg.HM_RQ_CFG.WR_HIGH st)) }
  if c.training then b
  else
    match c.choose b.now (b.rd (Reg.HM_RQ_CFG.AGE_LIMIT st)) with
    | none => b
    | some i =>
      match c.q[i]? with
      | none => b
      | some e =>
        let q := c.q.eraseIdx i
        -- the entry that is now the queue's 64th
        let q' := match q[63]? with
          | some x => q.set 63 { x with owed := if x.isWrite then [] else x.owed, stripe := none }
          | none => q
        let moved := match q[63]? with
          | some x => if x.isWrite then x.owed else []
          | none => []
        (b.setPc k { c with
          q := q', openRow := SMap.put (fun _ => 0) c.openRow (Hbm.dramBank e.line) (Hbm.dramRow e.line + 1) }).release
          ((if e.isWrite then [] else e.owed) ++ moved)

/-- Issue up to `n` accesses of a pseudo-channel, or until only the queue's 64 are left. -/
def Block.dramServe : Nat → Block → Nat → Bool → Block
  | 0, b, _, _ => b
  | n + 1, b, k, all => if all || decide (64 < (b.pc k).q.length) then Block.dramServe n (b.issueDram k) k all else b

/-- Queue the DRAM accesses of an engine's access, and let the queues move on until its reads are issued and its writes are
within the queues (R45, R46). -/
def Block.dramRun (b : Block) (ensign : Nat) : Block :=
  b.hbm.dram.foldl (fun b d =>
    let k := (b.pcOf d.x).1
    Block.dramServe (b.pc k).q.length b k (!d.isWrite)) (b.dramPost ensign [])

/-! ### Accesses queued at a channel that is struck (R51) -/

/-- Drop a completion from every entry that holds it. -/
def Block.unowe (b : Block) (os : List Owed) : Block :=
  { b with hbm := { b.hbm with pcs := b.hbm.pcs.map fun e =>
    (e.1, { e.2 with q := e.2.q.map fun q => { q with owed := q.owed.filter fun o => !os.contains o } }) } }

/-- R51: strike a physical channel. Reads queued at it are performed again under the channel's new entry. Writes queued at it
go on at the spare with what they wrote; with no spare a protected one stands in its stripe's parity, and an unprotected one
that has not completed has no backing. -/
def Block.strikeQueued (b : Block) (ps ch : Nat) : Block × Option (Nat × Nat) :=
  let k0 := 2 * (32 * ps + ch)
  match b.channelServed ps ch with
  | none => b.strikeChannel ps ch
  | some (s, k) =>
    let q := (b.pc k0).q ++ (b.pc (k0 + 1)).q
    let wrote := (q.filter fun e => e.isWrite).map fun e => (e, b.granStored ⟨s, k, e.line⟩)
    let reads := ((q.filter fun e => !e.isWrite).flatMap fun e => e.owed).dedup
    let clear (b : Block) (j : Nat) : Block := b.setPc j { b.pc j with q := [] }
    let (b, sp) := ((clear (clear b k0) (k0 + 1)).unowe reads).strikeChannel ps ch
    let b := wrote.foldl (fun b w =>
      let p : Place := ⟨s, k, w.1.line⟩
      let x := Hbm.lineAt b.hbmNd s k w.1.line
      if b.writable p then (b.granPut p w.2).enqueue ⟨x, true, w.1.stripe⟩ w.1.ensign w.1.owed
      else if b.striped x then b.release w.1.owed
      else (b.unowe w.1.owed).release (w.1.owed.map fun o => { o with status := Code.HBM_NO_BACKING })) b
    (reads.foldl (fun b o => b.hbmPerform (o.req.addr - 0x8000000000) o.req) b, sp)

end Sys2Proof.Machine
end

