-- ==== Sys2Proof/Machine/Partition.lean ====
section
/-! DEFINITION. Partitions as the image's record in force gives them (Table BUP-3), slices, and the firewall (R259–R264). -/

namespace Sys2Proof.Machine

/-! ### The image's partition records -/

/-- A byte of SPI NOR; one never programmed reads 0xFF. -/
def Nor.byte (n : Nor) (a : Nat) : Byte := SMap.get (fun _ => 0xFF) n.bytes a
def Nor.le (n : Nor) (a len : Nat) : Nat := leNat ((List.range len).map fun i => n.byte (a + i))

/-- Image slot A or B in SPI NOR. -/
def Image.slotBase (slot : Nat) : Nat := if slot = 0 then 0x400000 else 0x800000

/-- A partition record. -/
structure PartRec where
  positions : Nat
  sites : Nat
  spareCores : Nat
  groups : Nat
  regions : Nat
  syncFirst : Nat
  syncCount : Nat
  minPositions : Nat
  minSites : Nat
  minGroups : Nat
  openSlices : Nat
  activeReq : Nat
deriving DecidableEq, Repr

def PartRec.empty : PartRec := ⟨0, 0, 0, 0, 0, 0, 0, 0, 0, 0, 0, 0⟩

/-- Record `p` of layout `l` in the image of `slot` (Table BUP-3). -/
def Nor.partRec (n : Nor) (slot l p : Nat) : PartRec :=
  let a := Image.slotBase slot + 0x100 + 2048 * l + 64 * p
  { positions := n.le a 4
    sites := n.le (a + 4) 2
    spareCores := n.le (a + 6) 1 % 16
    groups := n.le (a + 8) 4
    regions := n.le (a + 0x10) 8
    syncFirst := n.le (a + 0x18) 2 % 512
    syncCount := n.le (a + 0x1A) 2 % 1024
    minPositions := n.le (a + 0x1C) 1 % 64
    minSites := n.le (a + 0x1D) 1 % 32
    minGroups := n.le (a + 0x1E) 1 % 64
    openSlices := n.le (a + 0x20) 2 % 4096
    activeReq := n.le (a + 0x22) 2 % 8192 }

/-- Partition `p` under layout `l` of the image in use. -/
def Block.partIn (b : Block) (l p : Nat) : PartRec :=
  match b.boot.slot with
  | some s => b.boot.nor.partRec s l p
  | none => PartRec.empty

/-- The layout in force. -/
def Block.layout (b : Block) : Nat := b.rd Reg.MH_IMAGE.LAYOUT

def Block.part (b : Block) (p : Nat) : PartRec := b.partIn b.layout p

def Block.formed (b : Block) (p : Nat) : Bool := b.is (Reg.MH_PART_FORM.FORMED p)

/-- R259: an empty partition names no position, or was not formed. -/
def Block.partEmpty (b : Block) (p : Nat) : Bool := decide ((b.part p).positions = 0) || !b.formed p

/-- The partition of the layout in force that a test of its record picks. -/
def Block.partWhere (b : Block) (f : PartRec → Bool) : Option Nat := findIdx 32 fun p => f (b.part p)

def Block.siteHolder (b : Block) (s : Nat) : Option Nat := b.partWhere fun r => r.sites.testBit s
def Block.groupHolder (b : Block) (g : Nat) : Option Nat := b.partWhere fun r => r.groups.testBit g
def Block.posHolder (b : Block) (k : Nat) : Option Nat := b.partWhere fun r => r.positions.testBit k
def Block.regionHolder (b : Block) (n : Nat) : Option Nat := b.partWhere fun r => r.regions.testBit n

/-! ### Cores and positions (R16, R381) -/

/-- The physical core that holds position `pos`, if one does. -/
def Block.coreOf (b : Block) (pos : Nat) : Option Nat :=
  if b.is (Reg.MH_CORE_MAP.VALID pos) then some (b.rd (Reg.MH_CORE_MAP.PHYS pos)) else none

/-- The position that a physical core holds. -/
def Block.posOf (b : Block) (core : Nat) : Option Nat := findIdx 32 fun p => decide (b.coreOf p = some core)

/-- The pennant source of position `pos`: its physical core. -/
def Block.srcPos (b : Block) (pos : Nat) : Nat := b.rd (Reg.MH_CORE_MAP.PHYS pos)

/-! ### Slices -/

def Slice.FREE : Nat := 0
def Slice.OPEN : Nat := 1
def Slice.RESETTING : Nat := 2
def Slice.FREEZING : Nat := 3
def Slice.FROZEN : Nat := 4
def Slice.RELEASING : Nat := 5
def Slice.RESTORING : Nat := 6

def Block.sliceState (b : Block) (s : Nat) : Nat := b.rd (Reg.SL_STATUS.STATE s)
def Block.gen (b : Block) (s : Nat) : Nat := b.rd (Reg.SL_STATUS.GENERATION s)
def Block.epoch (b : Block) (s : Nat) : Nat := b.rd (Reg.SL_MARK_STATUS.EPOCH s)
def Block.slicePart (b : Block) (s : Nat) : Nat := b.rd (Reg.SL_CFG.PARTITION s)
def Block.pasid (b : Block) (s : Nat) : Nat := b.rd (Reg.SL_CFG.PASID s)

/-- The PCIe function of a slice: the PF for slice 0, VF p + 1 for a slice of partition p (R259). -/
def Block.fnOf (b : Block) (s : Nat) : Nat := if s = 0 then 0 else b.slicePart s + 1

def Block.slice (b : Block) (s : Nat) : SliceState := SMap.get (fun _ => SliceState.reset) b.slices s
def Block.setSlice (b : Block) (s : Nat) (v : SliceState) : Block :=
  { b with slices := SMap.put (fun _ => SliceState.reset) b.slices s v }

def Block.queue (b : Block) (q : Nat) : QueueState := SMap.get (fun _ => QueueState.reset) b.queues q
def Block.setQueue (b : Block) (q : Nat) (v : QueueState) : Block :=
  { b with queues := SMap.put (fun _ => QueueState.reset) b.queues q v }

def Block.site (b : Block) (s : Nat) : SiteState := SMap.get (fun _ => SiteState.reset) b.sites s
def Block.setSite (b : Block) (s : Nat) (v : SiteState) : Block :=
  { b with sites := SMap.put (fun _ => SiteState.reset) b.sites s v }

def Block.posState (b : Block) (p : Nat) : PosState := SMap.get (fun _ => PosState.idle) b.pos p
def Block.setPos (b : Block) (p : Nat) (v : PosState) : Block :=
  { b with pos := SMap.put (fun _ => PosState.idle) b.pos p v }
def Block.modPos (b : Block) (p : Nat) (f : PosState → PosState) : Block := b.setPos p (f (b.posState p))


def Block.enrolled (b : Block) (s : Nat) : Bool := (b.rd Reg.MH_SITE_PRESENT.ENROLLED).testBit s

/-- Whether slice `s` may name position `k`: its partition holds it; for slice 0, any position with a core (R56, R65). -/
def Block.holdsPos (b : Block) (s k : Nat) : Bool :=
  if s = 0 then (b.coreOf k).isSome else (b.part (b.slicePart s)).positions.testBit k && (b.coreOf k).isSome

/-- Whether slice `s`'s partition is down (R344). -/
def Block.sliceDown (b : Block) (s : Nat) : Bool := decide (s ≠ 0) && b.is (Reg.FC_PART_STATE.DOWN (b.slicePart s))

/-- Whether slice `s`'s partition holds site `k`; slice 0 may name any. -/
def Block.holdsSite (b : Block) (s k : Nat) : Bool := decide (s = 0) || (b.part (b.slicePart s)).sites.testBit k

/-! ### The DLA map (Table ARC-3, R13) -/

inductive Range where
  | shelf | sync | regs
  | hbm (off : Nat)
  | window (site off : Nat)
  | unmapped
deriving DecidableEq, Repr

def Dla.syncBase : Nat := 0x40000000
def Dla.regBase : Nat := 0x100000000
def Dla.hbmBase : Nat := 0x8000000000
def Dla.windowBase : Nat := 0x10000000000

/-- The window size of site `s` as its burgee declares it, in bytes. -/
def Block.windowSize (b : Block) (s : Nat) : Nat := bits (b.rd (Reg.ST_SWP_BURGEE.DATA s 4)) 32 32 * 2 ^ 20

/-- The site and offset that a DLA names in the site windows' space. -/
def Dla.window (a : Nat) : Option (Nat × Nat) :=
  if Dla.windowBase ≤ a ∧ a < Dla.windowBase + 2 ^ 40 then
    some ((a - Dla.windowBase) / 2 ^ 36, (a - Dla.windowBase) % 2 ^ 36)
  else none

/-- The range of the map a DLA lies in. -/
def Block.range (b : Block) (a : Nat) : Range :=
  if a < 2 ^ 29 then .shelf
  else if Dla.syncBase ≤ a ∧ a < Dla.syncBase + 2 ^ 20 then .sync
  else if Dla.regBase ≤ a ∧ a < Dla.regBase + 2 ^ 28 then .regs
  else if Dla.hbmBase ≤ a ∧ a < Dla.hbmBase + 2 ^ 39 then
    let o := a - Dla.hbmBase
    if o < b.hbmCap && !b.hbm.disabled then .hbm o else .unmapped
  else match Dla.window a with
    | some (s, o) => if b.enrolled s && decide (o < b.windowSize s) then .window s o else .unmapped
    | none => .unmapped

/-! ### The firewall (R263) -/

/-- The right an access needs. -/
inductive Right where
  | r | w | a
deriving DecidableEq, Repr

def MemOp.right : MemOp → Right
  | .read => .r
  | .write _ => .w
  | .add _ _ => .a

/-- Whether partition `p` holds the resource at a DLA. -/
def Block.partHolds (b : Block) (p a : Nat) : Bool :=
  let r := b.part p
  match b.range a with
  | .shelf => r.groups.testBit (Shelf.group a)
  | .sync =>
    let k := (a - Dla.syncBase) / 8 / 256
    decide (r.syncFirst ≤ k) && decide (k < r.syncFirst + r.syncCount)
  | .hbm o => match b.regionAt o with
    | some g => r.regions.testBit g.n
    | none => false
  | .window s _ => r.sites.testBit s
  | _ => false

/-- The windows of slice `s` that cover the page of `a`. -/
def Block.winsAt (b : Block) (s a : Nat) : List Nat :=
  (List.range 8).filter fun k =>
    let base := b.rd (Reg.SL_FW_WIN00.BASE s k)
    b.is (Reg.SL_FW_WIN08.VALID s k) && decide (base ≤ a / 4096)
      && decide (a / 4096 < base + b.rd (Reg.SL_FW_WIN08.SIZE s k))

/-- R263: none where the request passes, else its code. `slice` none is the site context with its site's partition. -/
def Block.firewall (b : Block) (slice : Option Nat) (part : Option Nat) (a : Nat) (rt : Right) : Option Status :=
  let stage1 : Bool := match part with
    | some p => b.partHolds p a
    | none => false
  match slice with
  | none => if stage1 then none else some Code.FW_PARTITION_DENIED
  | some s =>
    if s ≠ 0 ∧ !stage1 then some Code.FW_PARTITION_DENIED
    else
      let ws := b.winsAt s a
      if ws.isEmpty then some Code.FW_SLICE_DENIED
      else if ws.any fun k => match rt with
          | .r => b.is (Reg.SL_FW_WIN08.R s k)
          | .w => b.is (Reg.SL_FW_WIN08.W s k)
          | .a => b.is (Reg.SL_FW_WIN08.A s k) then none
      else some Code.FW_RIGHT_DENIED

/-- The partition a request is checked under. -/
def Block.reqPart (b : Block) (w : Who) : Option Nat :=
  match w.slice with
  | some s => some (b.slicePart s)
  | none => match w.agent with
    | .siteWhole s => b.siteHolder s
    | .siteCore s _ => b.siteHolder s
    | _ => none

/-! ### Naming a requester (R322) -/

/-- The SOURCE of a pennant that names a requester. -/
def Block.sourceOf (b : Block) (w : Who) : Nat :=
  match w.agent with
  | .xfer p | .vec p | .red p | .collect p | .cmd p => b.srcPos p
  | .siteCore s c => Src.siteCore s c
  | .siteWhole s => Src.site s
  | .denob => Src.denob
  | .manager | .host _ => Src.endpoint
  | .reach p => Src.reachPort p
  | .security => Src.security
  | .boot => Src.sequencer
  | .coherence => Src.coherence

/-- A pennant that names the requester of a refused request (R14, R17, R263). -/
def Block.refuse (b : Block) (w : Who) (kind a : Nat) : Block :=
  b.pennantN (b.sourceOf w) kind (w.slice.getD 0) 1 a w.slice.isNone

end Sys2Proof.Machine
end

