-- ==== Sys2Proof/Machine/Access.lean ====
section
/-! DEFINITION. Sync objects (R75–R78) and the one path every request to a DLA takes: the map (R13), the register space
(R17), the firewall (R263), coherence (R211), then the memory. -/

namespace Sys2Proof.Machine

/-! ### Sync objects -/

def Sync.homeOf (obj : Nat) : Nat := obj / 4096
def Sync.dla (obj : Nat) : Nat := Dla.syncBase + 8 * obj

def Block.syncVal (b : Block) (obj : Nat) : Nat := (SMap.get (fun _ => 0) b.sync.vals obj).toNat

def Block.setSync (b : Block) (obj v : Nat) : Block :=
  { b with sync := { b.sync with vals := SMap.put (fun _ => 0) b.sync.vals obj (BitVec.ofNat 64 v) } }

def Block.waitsAt (b : Block) (home : Nat) : List SyncWait := SMap.get (fun _ => []) b.sync.waits home
def Block.setWaits (b : Block) (home : Nat) (ws : List SyncWait) : Block :=
  { b with sync := { b.sync with waits := SMap.put (fun _ => []) b.sync.waits home ws } }

/-- Mark the table's waits of `obj` that its value now satisfies. -/
def Block.satisfy (b : Block) (obj : Nat) : Block :=
  let v := b.syncVal obj
  let h := Sync.homeOf obj
  b.setWaits h ((b.waitsAt h).map fun w =>
    if w.obj = obj ∧ !w.polls ∧ w.target ≤ v then { w with satisfied := true } else w)

/-- SIGNAL (R75, R76): `src` is the signaller's source number, or its reach port of arrival. -/
def Block.syncSignal (b : Block) (obj amt src : Nat) : Block × Status :=
  let h := Sync.homeOf obj
  if NSet.has b.sync.lostHomes h then (b, Code.FLT_UNIT_LOST)
  else
    let v := b.syncVal obj + amt
    let b := if 2 ^ 64 ≤ v then b.pennant (b.srcPos h) Kind.SYNC_SATURATED src (Sync.dla obj) else b
    ((b.setSync obj (min v (2 ^ 64 - 1))).satisfy obj, Code.SUCCESS)

/-- RESET (R75): pending waits continue against the new value. -/
def Block.syncReset (b : Block) (obj : Nat) : Block × Status :=
  if NSet.has b.sync.lostHomes (Sync.homeOf obj) then (b, Code.FLT_UNIT_LOST) else (b.setSync obj 0, Code.SUCCESS)

/-- Register a wait at its object's home (R75, R78): in the table while it has room, else polling. -/
def Block.syncWait (b : Block) (obj target : Nat) (who : Waiter) (limitUs : Nat) : Block × Status :=
  let h := Sync.homeOf obj
  if NSet.has b.sync.lostHomes h then (b, Code.FLT_UNIT_LOST)
  else
    let ws := b.waitsAt h
    let polls : Bool := decide (2048 ≤ (ws.filter fun w => !w.polls).length)
    let sat : Bool := !polls && decide (target ≤ b.syncVal obj)
    (b.setWaits h (ws ++ [⟨obj, target, who, b.now, limitUs, polls, sat⟩]), Code.SUCCESS)

/-- Remove the waits of a waiter. -/
def Block.dropWaits (b : Block) (p : Waiter → Bool) : Block :=
  { b with sync := { b.sync with waits := b.sync.waits.filterMap fun e =>
    let ws := e.2.filter fun w => !p w.who
    if ws.isEmpty then none else some (e.1, ws) } }

/-- An access to the sync range (R77). -/
def Block.syncAccess (b : Block) (src a len : Nat) (op : MemOp) : Block × Status × List Byte :=
  let obj := (a - Dla.syncBase) / 8
  let bad : Block × Status × List Byte := (b, Code.SYNC_BAD_OP, match op with
    | .read => zeros len
    | _ => [])
  if len ≠ 8 ∨ a % 8 ≠ 0 then bad
  else match op with
    | .read =>
      if NSet.has b.sync.lostHomes (Sync.homeOf obj) then (b, Code.FLT_UNIT_LOST, zeros 8)
      else (b, Code.SUCCESS, natLE 8 (b.syncVal obj))
    | .write d =>
      let v := leNat d
      if v.testBit 63 then
        let r := b.syncReset obj
        (r.1, r.2, [])
      else if 1 ≤ v ∧ v < 2 ^ 32 then
        let r := b.syncSignal obj v src
        (r.1, r.2, [])
      else bad
    | .add _ _ => bad

/-! ### What a step finds missing outside -/

/-- Note that the step must wait; only the first batch of a step counts. -/
def Block.want (b : Block) (n : Need) : Block :=
  if b.ext.need.contains n then b else { b with ext := { b.ext with need := b.ext.need ++ [n] } }

def Block.waiting (b : Block) : Bool := !b.ext.need.isEmpty

/-- Whether two accesses differ at most in their place among a step's equal ones. -/
def ExtNeed.like (n m : ExtNeed) : Bool := decide ({ m with nth := n.nth } = n)

/-- The access as its step makes it now: counted among the equal ones before it. -/
def Block.extNth (b : Block) (n : ExtNeed) : ExtNeed :=
  { n with nth := (b.ext.used.filter n.like).length + (b.ext.need.filter fun x => match x with
    | .ext m => n.like m
    | _ => false).length }

/-- An access outside the hub, made once for each time its step makes it: its answer if it has come, else a need. -/
def Block.external (b : Block) (n : ExtNeed) : Block × Status × List Byte :=
  let n := b.extNth n
  match b.ext.done.find? fun d => d.need = n with
  | some d => ({ b with ext := { b.ext with used := n :: b.ext.used } }, d.status, d.data)
  | none => (b.want (.ext n), Code.SUCCESS, match n.op with
    | .read => zeros n.len
    | _ => [])

/-! ### Coherent windows, as a request meets them (R197, R211) -/

/-- The valid window that holds a DLA. -/
def Block.cohWin (b : Block) (a : Nat) : Option Nat :=
  if !b.is Reg.CO_STATUS.WINDOWS_VALID then none
  else findIdx 16 fun n =>
    let base := b.rd (Reg.CO_WIN00.BASE n)
    b.is (Reg.CO_WIN00.VALID n) && decide (base ≤ a / 2 ^ 21) && decide (a / 2 ^ 21 < base + b.rd (Reg.CO_WIN00.SIZE n))

def Dir.set (line : Nat) : Nat := (line % 2 ^ 17) ^^^ (line / 2 ^ 17 % 2 ^ 17)

/-- The directory entry of a line. -/
def Block.dirEntry (b : Block) (line : Nat) : Option DirEntry :=
  (SMap.get (fun _ => []) b.coh.dir (Dir.set line)).find? fun e => e.line = line

def Block.txnOf (b : Block) (line : Nat) : Option Txn := b.coh.txns.find? fun t => t.line = line

/-- Whether an uncached access to a line must wait for the home (R211). -/
def Block.lineHeld (b : Block) (line : Nat) (write : Bool) : Bool :=
  (b.txnOf line).isSome || match b.dirEntry line with
    | none => false
    | some e => write || decide (e.state ≠ .shr)

/-- The lines a request touches that make it wait. -/
def Block.cohNeeds (b : Block) (a len : Nat) (write : Bool) : List Nat :=
  if (b.cohWin a).isNone then []
  else ((List.range ((a + len + 63) / 64 - a / 64)).map fun i => a / 64 + i).filter fun l => b.lineHeld l write

/-- Count the directory lookups of an uncached access. -/
def Block.cohLookups (b : Block) (a len : Nat) : Block :=
  if (b.cohWin a).isNone then b else b.count Reg.CO_LOOKUPS.COUNT ((a + len + 63) / 64 - a / 64)

/-! ### The request path -/

/-- Zero bytes for a read that fails. -/
def failWith (b : Block) (st : Status) (len : Nat) (op : MemOp) : Block × Status × List Byte :=
  (b, st, match op with
    | .read => zeros len
    | _ => [])

/-- The agents that may reach the register space (R17). -/
def Agent.mayReg : Agent → Bool
  | .manager | .denob | .security | .boot => true
  | _ => false

/-- END_OF_LIFE, and HBM from the start of its commit (R363, R365). -/
def Block.zeroised (b : Block) (a : Nat) : Bool :=
  b.rd Reg.LC_STATUS.STATE = 3 || (decide (b.rd Reg.LC_STATUS.NEXT = 3)
    && (match b.range a with
      | .hbm _ => true
      | _ => false))

/-- R13, R17 and R15 for one request: none where it may go on. -/
def Block.checkReq (b : Block) (w : Who) (a : Nat) (rt : Right) : Block × Option Status :=
  match b.range a with
  | .unmapped => (b.refuse w Kind.ADDR_UNMAPPED a, some Code.ADDR_UNMAPPED)
  | .regs => if w.agent.mayReg then (b, none) else (b.refuse w Kind.REG_SPACE_DENIED a, some Code.REG_SPACE_DENIED)
  | _ => if b.zeroised a then (b, some Code.SEC_KEYS_ZEROISED) else match b.firewall w.slice (b.reqPart w) a rt with
    | some st => (b.refuse w Kind.FIREWALL_DENIED a, some st)
    | none => (b, none)

/-! ### Reads of the register space (R4, R7, R8) -/

/-- The PF's MSI-X table as it reads. -/
def Block.msixEntryRead (b : Block) (fn o : Nat) : Nat :=
  let k := fn * 2048 + o / 16
  match o % 16 / 4 with
  | 0 => (SMap.get (fun _ => 0) b.ep.msixAddr k).toNat % 2 ^ 32
  | 1 => (SMap.get (fun _ => 0) b.ep.msixAddr k).toNat / 2 ^ 32
  | 2 => (SMap.get (fun _ => 0) b.ep.msixData k).toNat
  | _ => b01 (!NSet.has b.ep.msixUnmasked k)

/-- Pending bits of 32 vectors. -/
def Block.pbaWord (b : Block) (fn o : Nat) : Nat :=
  ((List.range 32).map fun i => b01 (NSet.has b.ep.msixPending (fn * 2048 + 8 * o + i)) * 2 ^ i).sum

/-- A table or array of 32-bit words as an access of `size` bytes reads it. -/
def readWords (w : Nat → Nat) (o size : Nat) : Nat :=
  if size = 4 ∧ o % 4 = 0 then w o else if size = 8 ∧ o % 8 = 0 then w o + w (o + 4) * 2 ^ 32 else 0

/-- Whether power is removed from a domain of Table PWR-2: a core, group or stack that is fenced or struck, a site with EN 0
or held as one, a reach port whose slot is off (R156, R319, R330, R380, R392). -/
def Block.powerOff (b : Block) (d : Nat) : Bool :=
  let out (src : Nat) : Bool := NSet.has b.boot.fuses.bad src || b.is (Reg.FC_BUCKET.STRUCK src)
  let site (s : Nat) : Bool := !b.is (Reg.ST_CFG.EN s) || (b.site s).link.absent
  if d < 108 then out (d / 3)
  else if d < 140 then (b.rd Reg.SH_GROUP_STATE.STRUCK).testBit (d - 108)
  else if d < 156 then out (Src.stack ((d - 140) % 8))
  else if d < 168 then site (d - 156)
  else if d < 184 then site (12 + (d - 168) / 4)
  else if d < 192 then b.is (Reg.RCH_SLOT_CAP.PWR_CTRL ((d - 184) / 2)) && b.is (Reg.RCH_SLOT_CTRL.PWR_OFF ((d - 184) / 2))
  else if d = 208 then out Src.denob
  else false

/-- Whether a domain is gated or powered off (R392). -/
def Block.gated (b : Block) (d : Nat) : Bool := (b.rd (Reg.PW_GATED.GATED (d / 64))).testBit (d % 64) || b.powerOff d

/-- 32 domains of PW_GATED as they read. -/
def Block.gatedWord (b : Block) (o : Nat) : Nat :=
  ((List.range 32).map fun i => b01 (decide (8 * o + i < 212) && b.gated (8 * o + i)) * 2 ^ i).sum

/-- A read of the register space: its value, and what reading clears. -/
def Block.regGet (b : Block) (off size : Nat) (clears : Bool) : Block × Nat :=
  if 0x1008000 ≤ off ∧ off < 0x1010000 then (b, readWords (b.msixEntryRead 0) (off - 0x1008000) size)
  else if 0x1010000 ≤ off ∧ off < 0x1010100 then (b, readWords (b.pbaWord 0) (off - 0x1010000) size)
  else if 0xb000040 ≤ off ∧ off < 0xb000060 then (b, readWords b.gatedWord (off - 0xb000040) size)
  else
    let r := RegFile.read b.regs off size clears
    ({ b with regs := r.1 }, r.2)

/-- Whether accesses to the frame that holds `off` wait: its position moves (R331), or earlier ones wait still. -/
def Block.frameHeld (b : Block) (off : Nat) : Bool :=
  let p := (off - 0x2000000) / 0x100000
  decide (0x2000000 ≤ off) && decide (off < 0x4000000) && ((b.fc.recoveries.any fun r => match r.kind with
      | .core _ pos _ => decide (pos = p) && decide (r.phase ≠ .waiting)
      | _ => false)
    || b.regDue.any fun w => decide (0x2000000 ≤ w.off) && decide ((w.off - 0x2000000) / 0x100000 = p))

/-- A register access joins those that wait. -/
def Block.regWait (b : Block) (w : RegWait) : Block := { b with regDue := b.regDue ++ [w] }

/-- An engine's access to HBM, its stripes' locks and its DRAM banks free: it waits for them otherwise (R44, R47, assumption
60). -/
def Block.hbmEngine (b : Block) (w : Who) (locks : List Nat) (len : Nat) (op : MemOp)
    (act : Block → Block × Status × List Byte) : Block × Status × List Byte :=
  match locks.find? fun m => b.lockWaits none m || !(b.stripe m).held.isEmpty with
  | some m => failWith (b.want (.stripe m)) Code.SUCCESS len op
  | none =>
    let q := act b
    match q.1.hbm.dram.find? fun d => b.dramHeld d.x with
    | some d => failWith (b.want (.dram (b.pcOf d.x).1)) Code.SUCCESS len op
    | none => (q.1.dramRun w.ensign, q.2)

/-- The stripes that a write of HBM offsets `[o, o + len)` locks: its granules' and its seal's. -/
def Block.writeLocks (b : Block) (o len : Nat) : List Nat :=
  ((List.range (ceilDiv (o % 256 + len) 256)).flatMap fun i => match b.hbmWhere (o / 256 * 256 + 256 * i) with
    | some (g, x) => if g.prot then [x / 2048, g.sealSlotX ((o - g.base) / 4096) / 2048] else []
    | none => []).dedup

/-- An engine's request of at most 256 bytes at HBM offset `o` (R43–R47). -/
def Block.hbmRequest (b : Block) (w : Who) (o len : Nat) (op : MemOp) : Block × Status × List Byte :=
  let go (b : Block) : Block × Status × List Byte := b.hbmAccess w.slice o len op
  match op, b.hbmWhere o with
  | .read, some (g, x) =>
    match b.heldAt w.slice o len with
    | some q => q
    | none => b.hbmEngine w (if g.prot && !b.readable (Hbm.place b.hbmNd x) then [x / 2048] else []) len op go
  | _, _ => (b.flushFor o len).hbmEngine w (b.writeLocks o len) len op go

/-- The memory part of a request that passed its checks. A register write is performed in a later cycle, with all it starts
(assumption 58). -/
def Block.perform (b : Block) (w : Who) (a len : Nat) (op : MemOp) : Block × Status × List Byte :=
  let ls := b.cohNeeds a len (op != .read)
  if !ls.isEmpty then failWith (ls.foldl (fun b l => b.want (.line l (op != .read))) b) Code.SUCCESS len op
  else
    let b := b.cohLookups a len
    match b.range a with
    | .shelf => b.shelfAccess ⟨w, a, len, op, 0⟩
    | .sync => b.syncAccess (b.sourceOf w) a len op
    | .hbm o => b.hbmRequest w o len op
    | .window s o => b.external ⟨w, .window s o, len, op, 0⟩
    | .regs =>
      match op with
      | .read =>
        if b.frameHeld (a - Dla.regBase) then
          failWith (b.want (.frame ((a - Dla.regBase - 0x2000000) / 0x100000))) Code.SUCCESS len op
        else
          let r := b.regGet (a - Dla.regBase) len true
          (r.1, Code.SUCCESS, natLE len r.2)
      | .write d =>
        (b.regWait ⟨decide (w.agent = .boot), a - Dla.regBase, len, leNat d, none⟩, Code.SUCCESS, [])
      | .add _ _ => failWith b Code.REG_SPACE_DENIED len op
    | .unmapped => failWith b Code.ADDR_UNMAPPED len op

/-- A window request that has been sent and answered, whatever has become of its site since (R169, R170). -/
def Block.windowDone (b : Block) (w : Who) (a len : Nat) (op : MemOp) : Option ExtNeed :=
  match Dla.window a with
  | none => none
  | some (s, o) =>
    let n := b.extNth ⟨w, .window s o, len, op, 0⟩
    if b.ext.done.any fun d => d.need = n then some n else none

/-- One request within one aligned 256-byte chunk of the DLA space. -/
def Block.dla (b : Block) (w : Who) (a len : Nat) (op : MemOp) : Block × Status × List Byte :=
  match b.windowDone w a len op with
  | some n => b.external n
  | none => match b.checkReq w a op.right with
    | (b, some st) => failWith b st len op
    | (b, none) => b.perform w a len op

/-- The aligned-chunk pieces of an access, as (address, length, offset) (R13). -/
def chunks : (fuel : Nat) → (a len off : Nat) → List (Nat × Nat × Nat)
  | 0, _, _, _ => []
  | k + 1, a, len, off =>
    if len = 0 then []
    else
      let n := min len (256 - a % 256)
      (a, n, off) :: chunks k (a + n) (len - n) (off + n)

def chunksOf (a len : Nat) : List (Nat × Nat × Nat) := chunks (len / 256 + 2) a len 0

/-- A read of any length, request by request in ascending order, ending at the first that fails. -/
def Block.dlaRead (b : Block) (w : Who) (a len : Nat) : Block × Status × List Byte :=
  let r := (chunksOf a len).foldl (fun (acc : Block × Status × List Byte) c =>
    if acc.2.1 ≠ Code.SUCCESS then acc
    else
      let q := acc.1.dla w c.1 c.2.1 .read
      (q.1, q.2.1, acc.2.2 ++ q.2.2)) (b, Code.SUCCESS, [])
  if r.2.1 = Code.SUCCESS then r else (r.1, r.2.1, zeros len)

/-- A write of any length, likewise. -/
def Block.dlaWrite (b : Block) (w : Who) (a : Nat) (data : List Byte) : Block × Status :=
  (chunksOf a data.length).foldl (fun (acc : Block × Status) c =>
    if acc.2 ≠ Code.SUCCESS then acc
    else
      let q := acc.1.dla w c.1 c.2.1 (.write (sliceBytes data c.2.2 c.2.1))
      (q.1, q.2.1)) (b, Code.SUCCESS)

/-- A memory-side add of one element. One that lies across two chunks is two requests (R13), each checked before either is
performed; their bytes are read, added and written back (R28). -/
def Block.dlaAdd (b : Block) (w : Who) (f : AddFmt) (a : Nat) (data : List Byte) : Block × Status :=
  let cs := chunksOf a data.length
  if cs.length ≤ 1 then
    let r := b.dla w a data.length (.add f data)
    (r.1, r.2.1)
  else
    let chk := cs.foldl (fun (acc : Block × Option Status) c => match acc.2 with
      | some _ => acc
      | none => acc.1.checkReq w c.1 .a) (b, none)
    match chk with
    | (b, some st) => (b, st)
    | (b, none) =>
      let got := cs.foldl (fun (acc : Block × Status × List Byte) c =>
        if acc.2.1 ≠ Code.SUCCESS then acc
        else
          let q := acc.1.perform w c.1 c.2.1 .read
          (q.1, q.2.1, acc.2.2 ++ q.2.2)) (b, Code.SUCCESS, [])
      if got.2.1 ≠ Code.SUCCESS then (got.1, got.2.1)
      else
        let sum := addBytes f 1 got.2.2 data
        cs.foldl (fun (acc : Block × Status) c =>
          if acc.2 ≠ Code.SUCCESS then acc
          else
            let q := acc.1.perform w c.1 c.2.1 (.write (sliceBytes sum c.2.2 c.2.1))
            (q.1, q.2.1)) (got.1, Code.SUCCESS)

/-! ### Whole 4 KiB blocks with their seals (R31, R42) -/

/-- Whether a block may carry a seal: it lies in the shelf or HBM. -/
def Block.sealable (b : Block) (a : Nat) : Bool :=
  match b.range a with
  | .shelf => true
  | .hbm _ => true
  | _ => false

/-- Write one aligned 4 KiB block with its seal, its checks passed. -/
def Block.placeBlock (b : Block) (w : Who) (a : Nat) (data : List Byte) (sl : Nat) : Block × Status :=
  let ls := b.cohNeeds a 4096 true
  if !ls.isEmpty then (ls.foldl (fun b l => b.want (.line l true)) b, Code.SUCCESS)
  else
    let b := b.cohLookups a 4096
    match b.range a with
    | .shelf => b.shelfWriteBlock a data sl
    | .hbm o =>
      let q := (b.flushFor o 4096).hbmEngine w (b.writeLocks o 4096) 0 .read fun b =>
        let r := b.hbmWriteBlock w.slice o data sl
        (r.1, r.2, [])
      (q.1, q.2.1)
    | _ => (b, Code.ADDR_UNMAPPED)

/-- A write of one aligned 4 KiB block with its seal: each of its requests is checked first. -/
def Block.dlaWriteBlock (b : Block) (w : Who) (a : Nat) (data : List Byte) (sl : Nat) : Block × Status :=
  let chk := (List.range 16).foldl (fun (acc : Block × Option Status) i =>
    match acc.2 with
    | some _ => acc
    | none => acc.1.checkReq w (a + 256 * i) .w) (b, none)
  match chk with
  | (b, some st) => (b, st)
  | (b, none) => b.placeBlock w a data sl

/-- The seal of the block at `a`; zero where it has none. The block's own read has been checked. -/
def Block.dlaSeal (b : Block) (w : Who) (a : Nat) : Block × Status × Nat :=
  match b.range a with
  | .shelf => (b, Code.SUCCESS, b.shelfSeal (a / 4096))
  | .hbm o =>
    let q := b.hbmEngine w [] 8 .read fun b => match b.hbmSealAt w.slice o with
      | (b, .ok v) => (b, Code.SUCCESS, natLE 8 v)
      | (b, .error st) => (b, st, zeros 8)
    (q.1, q.2.1, leNat q.2.2)
  | _ => (b, Code.SUCCESS, 0)

/-- A block and its seal. -/
def Block.dlaReadBlock (b : Block) (w : Who) (a : Nat) : Block × Status × List Byte × Nat :=
  let r := b.dlaRead w a 4096
  if r.2.1 ≠ Code.SUCCESS then (r.1, r.2.1, r.2.2, 0)
  else
    let s := r.1.dlaSeal w a
    (s.1, s.2.1, r.2.2, s.2.2)

/-! ### Seals (Tables XFR-6 to XFR-8) -/

/-- A generated seal of a block's bytes. -/
def Seal.make (data : List Byte) (producer epoch fmt : Nat) (sat : Bool) : Nat :=
  crc32c data + producer % 4096 * 2 ^ 32 + epoch % 4096 * 2 ^ 44 + fmt % 16 * 2 ^ 56 + b01 sat * 2 ^ 62 + 2 ^ 63

def Seal.crc (s : Nat) : Nat := bits s 0 32
def Seal.producer (s : Nat) : Nat := bits s 32 12
def Seal.epochOf (s : Nat) : Nat := bits s 44 12
def Seal.fmt (s : Nat) : Nat := bits s 56 4
def Seal.present (s : Nat) : Bool := bit s 63
def Seal.carried (s : Nat) : Bool := bit s 61

end Sys2Proof.Machine
end

