-- ==== Sys2Proof/Machine/HyOps.lean ====
section
/-! DEFINITION. Halyard's operations (13): the ensign table, ceilings, regulators, sleeping domains and the response that
ends a request. -/

namespace Sys2Proof.Machine

/-! ### Ports, taps and domains -/

/-- The routers of a port's taps (Table HAL-1). -/
def Hy.routers (p : Nat) : List Nat :=
  if p < 32 then [p]
  else if p < 68 then
    let c := p - 32
    [if c < 12 then c
     else if c < 18 then [24, 25, 28, 29, 5, 6].getD (c - 12) 0
     else if c < 30 then c - 6
     else [26, 27, 30, 31, 17, 18].getD (c - 30) 0]
  else if p < 80 then [2 * (p - 68), 2 * (p - 68) + 1]
  else if p < 84 then [24 + 2 * (p - 80) - (p - 80) % 2, 26 + 2 * (p - 80) - (p - 80) % 2]
  else if p < 92 then [[0, 2], [2, 4], [6, 8], [8, 10], [13, 15], [15, 17], [19, 21], [21, 23]].getD (p - 84) []
  else if p < 98 then [[26, 5, 18, 6, 17, 24].getD (p - 92) 0]
  else if p < 102 then [25 + 2 * (p - 98)]
  else [[30, 11, 28].getD (p - 102) 0]

/-- R274: which of a port's taps a packet between two ports uses there. -/
def Hy.tapOf (port other : Nat) : Nat := (port + other) % (Hy.routers port).length
def Hy.routerOf (port other : Nat) : Nat := (Hy.routers port).getD (Hy.tapOf port other) 0

/-- The column and row of a router. -/
def Hy.coord (r : Nat) : Nat × Nat :=
  if r < 12 then (1 + r / 2, r % 2)
  else if r < 24 then (1 + (r - 12) / 2, 2 + r % 2)
  else if r < 28 then (0, r - 24)
  else (7, r - 28)

/-- The places from `a` to `c`, both among them. -/
def Hy.line (a c : Nat) : List Nat :=
  if a ≤ c then (List.range (c - a + 1)).map fun i => a + i else (List.range (a - c + 1)).map fun i => a - i

/-- The routers that a packet passes between two taps' routers: first along x, then along y (R275). -/
def Hy.route (a c : Nat) : List Nat :=
  let x := Hy.coord a
  let y := Hy.coord c
  let places := (Hy.line x.1 y.1).map (fun i => (i, x.2)) ++ ((Hy.line x.2 y.2).drop 1).map fun j => (y.1, j)
  places.filterMap fun q => findIdx 32 fun r => decide (Hy.coord r = q)

/-- The routers on the fixed route from one port to another (R274, R275). -/
def Hy.path (src dst : Nat) : List Nat := Hy.route (Hy.routerOf src dst) (Hy.routerOf dst src)

/-- The power domains that must be awake for a packet to reach a port (Table PWR-2). -/
def Hy.domains (port addr : Nat) : List Nat :=
  if port < 32 then [108 + port]
  else if port < 68 then [3 * (port - 32)]
  else if port < 80 then [156 + (port - 68)]
  else if port < 84 then (List.range 4).map fun m => 168 + 4 * (port - 80) + m
  else if port < 92 then [140 + (port - 84)]
  else if port = 92 then [194]
  else if port = 93 then [208]
  else if port = 94 then [209]
  else if port = 96 then [196 + addr / 64 % 8]
  else if port = 97 then [210]
  else if 98 ≤ port ∧ port < 102 then [184 + 2 * (port - 98), 185 + 2 * (port - 98)]
  else if port = 104 then [211]
  else []

def Hy.alwaysOn (d : Nat) : Bool := decide (204 ≤ d) && decide (d ≤ 207)

def Block.setGated (b : Block) (d : Nat) (on : Bool) : Block :=
  b.wr (⟨(Reg.PW_GATED.GATED (d / 64)).off, d % 64, 1⟩) (b01 on)

def Block.modHy (b : Block) (f : HyState → HyState) : Block := { b with hy := f b.hy }

/-! ### The ensign table, ceilings and regulators (R278–R280) -/

/-- R278: the ensign a request is carried at, and whether it was remapped. -/
def Block.hyEnsign (b : Block) (port e : Nat) : Nat × Bool :=
  let permit := b.rd (Reg.HY_ENS.PERMIT port)
  if permit = 0 ∨ permit.testBit e then (e, false)
  else
    let d := b.rd (Reg.HY_ENS.DEF_ENSIGN port)
    (if permit.testBit d then d else (lowBit? permit 8).getD 0, true)

/-- R279: the ceiling in force for a port and ensign; none where none is. -/
def Block.hyCeil (b : Block) (port e : Nat) : Option Nat :=
  let permit := b.rd (Reg.HY_ENS.PERMIT port)
  if e = 0 ∨ !permit.testBit e then none else some (max 1 (b.rd (Reg.HY_CEIL.CEIL port e)))

def Block.hyOut (b : Block) (port e : Nat) : Nat :=
  (b.hy.outstanding.filter fun o => decide (o.pkt.src = port) && decide (o.pkt.ensign = e)).length

def Block.hyRate (b : Block) (port e : Nat) : Nat :=
  let r := b.rd (Reg.HY_REG.RATE port e)
  if r = 0 then b.rd (Reg.HY_REG.RATE_MAX port e) else r

/-- BURST in bytes; 0 is taken as 255 units. -/
def Block.hyBurst (b : Block) (port e : Nat) : Nat :=
  let n := b.rd (Reg.HY_REG.BURST port e)
  256 * (if n = 0 then 255 else n)

def Block.hyRegulated (b : Block) (port e : Nat) : Bool := decide (e ≠ 0) && b.is (Reg.HY_REG.RATE_MAX port e)
def Block.hyTokens (b : Block) (port e : Nat) : Int := signed (b.rd (Reg.HY_REG.TOKENS port e)) 24
def Block.setTokens (b : Block) (port e : Nat) (n : Int) : Block := b.wr (Reg.HY_REG.TOKENS port e) (toBits n 24)

/-- One cycle's gain of a bucket (R280), quarter-bytes kept. -/
def Block.hyGain (b : Block) (port e : Nat) : Block :=
  if !b.hyRegulated port e then b
  else
    let off := (Reg.HY_REG.RATE port e).off
    let q := SMap.get (fun _ => 0) b.hy.quarter off + b.hyRate port e
    let t := b.hyTokens port e + (q / 4 : Nat)
    let full : Bool := decide ((b.hyBurst port e : Int) ≤ t)
    let b := b.setTokens port e (if full then b.hyBurst port e else t)
    b.modHy fun h => { h with quarter := SMap.put (fun _ => 0) h.quarter off (if full then 0 else q % 4) }

/-- Every bucket's gain in one cycle: only a register that holds something can have RATE_MAX above 0. -/
def Block.tickTokens (b : Block) : Block :=
  (b.regs.filter fun r => decide (0x7010000 ≤ r.1) && decide (r.1 < 0x7014000) && decide (0x28 ≤ r.1 % 0x80)
    && decide (r.1 % 0x80 < 0x60)).foldl (fun b r => b.hyGain ((r.1 - 0x7010000) / 0x80) (r.1 % 0x80 / 8 - 4)) b

/-- R279, R280: whether a request may be injected now. -/
def Block.hyEligible (b : Block) (p : HyPacket) : Bool :=
  (match b.hyCeil p.src p.ensign with
    | none => true
    | some c => decide (b.hyOut p.src p.ensign < c))
  && (!b.hyRegulated p.src p.ensign || decide (0 ≤ b.hyTokens p.src p.ensign))

/-! ### Statistics and errors -/

def Block.hyLive (b : Block) (port : Nat) (f : HyLive → HyLive) : Block :=
  b.modHy fun h => { h with live := SMap.modify (fun _ => HyLive.zero) h.live port f }

def Hy.DATA : Nat := 1
def Hy.HEADER : Nat := 2
def Hy.TIMEOUT : Nat := 3
def Hy.WAKE : Nat := 4

def Block.hyErrLog (b : Block) (router link port kind : Nat) : Block :=
  b.capture Reg.HY_ERR_LOG.VALID Reg.HY_ERR_LOG.OVERFLOW
    [(Reg.HY_ERR_LOG.ROUTER, router), (Reg.HY_ERR_LOG.LINK, link), (Reg.HY_ERR_LOG.PORT, port), (Reg.HY_ERR_LOG.KIND, kind)]

/-! ### Delivery and responses -/

def HyPacket.isReq (p : HyPacket) : Bool := decide (p.kind < 4)

/-- A request ends at its requester with a status; its latency counts where a response came. -/
def Block.hyEnd (b : Block) (o : HyOpen) (st : Status) (answered : Bool) : Block :=
  let b := b.modHy fun h => { h with
    outstanding := h.outstanding.erase o
    ended := h.ended ++ [(o.pkt.src, o.pkt.tag, st)] }
  if answered then
    let lat := b.now - o.pkt.presented
    b.hyLive o.pkt.src fun l => { l with latSum := satAdd 64 l.latSum lat, latMax := max l.latMax (min lat (2 ^ 32 - 1)) }
  else b

/-- The outstanding request of a port and tag. -/
def Block.hyFind (b : Block) (port tag : Nat) : Option HyOpen :=
  b.hy.outstanding.find? fun o => decide (o.pkt.src = port) && decide (o.pkt.tag = tag)

/-- A packet reaches its unit: a response ends its request or is late (R282); a poisoned request is answered and makes no
access (R283). -/
def Block.hyDeliver (b : Block) (p : HyPacket) : Block :=
  if p.kind = 4 then
    match b.hyFind p.dst p.tag with
    | none => b.count Reg.HY_LATE_RSP.COUNT 1
    | some o =>
      (b.modHy fun h => { h with delivered := h.delivered ++ [p] }).hyEnd o
        (if p.poison then Code.HY_PACKET_POISON else p.status) true
  else if p.isReq && p.poison then
    match b.hyFind p.src p.tag with
    | none => b
    | some o => b.hyEnd o Code.HY_PACKET_POISON true
  else b.modHy fun h => { h with delivered := h.delivered ++ [p] }

/-- The packet's way through the mesh: held before a gated tap, and behind a packet of its channel held there (R281). -/
def Block.hySend (b : Block) (p : HyPacket) : Block :=
  let ds := (Hy.domains p.dst p.addr).filter b.gated
  let vc (q : HyPacket) : Nat := if q.isReq then 0 else q.kind - 3
  if ds.isEmpty && !b.hy.heldPkts.any (fun q => decide (q.dst = p.dst) && decide (vc q = vc p)) then b.hyDeliver p
  else
    let b := b.modHy fun h => { h with
      heldPkts := h.heldPkts ++ [p]
      waking := ds.foldl (fun w d => NSet.insert d w) h.waking }
    b.wr Reg.HY_STATUS.WAKING b.hy.waking.length

/-- Inject a request: its bytes leave the bucket, and it is outstanding (R279, R280, R285). -/
def Block.hyInject (b : Block) (p : HyPacket) : Block :=
  let b := if b.hyRegulated p.src p.ensign then b.setTokens p.src p.ensign (b.hyTokens p.src p.ensign - p.len) else b
  let b := b.modHy fun h => { h with outstanding := h.outstanding ++ [⟨p, b.now⟩] }
  b.hyLive p.src fun l => { l with reqs := satAdd 32 l.reqs 1, bytes := satAdd 64 l.bytes p.len }

/-- Whether a waiting request may go: no ceiling, regulator or older request of its ensign and port holds it. -/
def Block.hyReady (b : Block) (p : HyPacket) : Bool :=
  b.hyEligible p && (match b.hy.waiting.find? fun q => decide (q.src = p.src) && decide (q.ensign = p.ensign) with
    | some q => decide (q = p)
    | none => true)

/-- Weighted round robin of R277: what `ready` offers of ensign 0, or else of the ensigns 1–7, the one whose turn it is
first. -/
def Wrr.next {α : Type} (turn : Nat × Nat) (ready : Nat → Option α) : Option α :=
  let first := if turn.2 = 0 then turn.1 % 7 else turn.1 - 1
  match ready 0 with
  | some p => some p
  | none => (List.range 7).findSome? fun i => ready ((first + i) % 7 + 1)

/-- The round robin once a packet of ensign `e` has gone: an ensign keeps its turn for as many packets as its weight. -/
def Wrr.took (turn : Nat × Nat) (weight e : Nat) : Nat × Nat :=
  if e = 0 then turn else if turn.1 = e ∧ 0 < turn.2 then (e, turn.2 - 1) else (e, max 1 weight - 1)

/-- The waiting request that goes next (R277): ensign 0 ahead of the others, these in weighted round robin, and within an
ensign the oldest. -/
def Block.hyNext (b : Block) : Option HyPacket :=
  let ready := b.hy.waiting.filter b.hyReady
  Wrr.next b.hy.turn fun e => ready.find? fun p => p.ensign = e

/-- The round robin after a request of an ensign has gone. -/
def Block.hyTurn (b : Block) (e : Nat) : Block :=
  b.modHy fun h => { h with turn := Wrr.took h.turn (b.rd (Reg.HY_ENS_WEIGHT.W e)) e }

/-- Deliver held packets in order while their taps are awake. -/
def Block.hyRelease (b : Block) : Block :=
  let ps := b.hy.heldPkts
  ps.foldl (fun b p => b.hySend p) (b.modHy fun h => { h with heldPkts := [] })

end Sys2Proof.Machine
end

