-- ==== Sys2Proof/Machine/SiteOps.lean ====
section
/-! DEFINITION. What the hub sends to a site: packets under credits and tags (R172–R178), stacked-link frames
(R158–R160), sideband messages (R167, R168), and the widths of R154 and R155. -/

namespace Sys2Proof.Machine

/-! ### Link states of ST_STATUS.STATE -/

def Link.OFF : Nat := 0
def Link.TRAINING : Nat := 1
def Link.RECONCILING : Nat := 2
def Link.TRAINED : Nat := 3
def Link.ENROLLED : Nat := 4
def Link.WIDTH_CHANGE : Nat := 5
def Link.LOST : Nat := 6
def Link.RESETTING : Nat := 7

def Site.stacked (s : Nat) : Bool := decide (s < 12)

def Block.linkState (b : Block) (s : Nat) : Nat := b.rd (Reg.ST_STATUS.STATE s)
def Block.modLink (b : Block) (s : Nat) (f : LinkState → LinkState) : Block :=
  let st := b.site s
  b.setSite s { st with link := f st.link }

/-- Whether traffic may pass: TRAINED, ENROLLED, or in a width change. -/
def Block.linkUp (b : Block) (s : Nat) : Bool :=
  decide (b.linkState s = Link.TRAINED) || decide (b.linkState s = Link.ENROLLED)
    || decide (b.linkState s = Link.WIDTH_CHANGE)

/-! ### Widths (R154, R155) -/

/-- R155: the active set within usable groups `g`; 0 where it yields none. -/
def Site.activeSet (s g : Nat) : Nat :=
  if Site.stacked s then
    if g % 16 = 15 then 15
    else if g % 4 = 3 then 3
    else if g / 4 % 4 = 3 then 12
    else match lowBit? g 4 with
      | some i => 2 ^ i
      | none => 0
  else g % 256

/-- The groups of site `s` that are not retired. -/
def Block.unretired (b : Block) (s : Nat) : Nat :=
  let all := if Site.stacked s then 15 else 255
  all - (b.rd (Reg.ST_LANE_STATE.RETIRED s) &&& all)

/-! ### Packets as bytes -/

/-- The header of Table SWP-1; of CREDIT that of Table SWP-3, its fields TAG to ATTR holding REQ_H, REQ_D, SNP_H, CREQ_H and
CREQ_D. -/
def Packet.header (p : Packet) : Nat :=
  if p.op = 0x7F then
    p.op + p.units % 512 * 2 ^ 8 + p.tag % 256 * 2 ^ 24 + p.len % 256 * 2 ^ 32 + p.core % 256 * 2 ^ 40 + p.ctx % 256 * 2 ^ 48
      + p.attr % 256 * 2 ^ 56
  else p.op % 256 + p.units % 512 * 2 ^ 8 + p.tag % 4096 * 2 ^ 17 + p.len % 256 * 2 ^ 29 + p.core % 64 * 2 ^ 37
    + p.ctx % 4096 * 2 ^ 43 + p.attr % 256 * 2 ^ 55 + p.addr % 2 ^ 48 * 2 ^ 64 + p.param % 65536 * 2 ^ 112

/-- The packet as its 16-byte units. -/
def Packet.bytes (p : Packet) : List Byte := natLE 16 p.header ++ sliceBytes p.data 0 (16 * p.units)

/-- A header read back from its 16 bytes. -/
def Packet.ofHeader (h : Nat) (data : List Byte) : Packet :=
  if bits h 0 8 = 0x7F then
    ⟨0x7F, bits h 8 9, bits h 24 8, bits h 32 8, bits h 40 8, bits h 48 8, bits h 56 8, 0, 0, data⟩
  else
    ⟨bits h 0 8, bits h 8 9, bits h 17 12, bits h 29 8, bits h 37 6, bits h 43 12, bits h 55 8, bits h 64 48, bits h 112 16,
      data⟩

/-- The whole packets at the front of a stream, and what is left of it: a header unit and its UNITS data units, whatever the
opcode (R172, R174). -/
def Packet.split : (fuel : Nat) → List Byte → List Packet × List Byte
  | 0, d => ([], d)
  | k + 1, d =>
    let h := leNat (d.take 16)
    let n := 16 * (bits h 8 9 + 1)
    if d.length < max 16 n then ([], d)
    else
      let r := Packet.split k (d.drop n)
      (Packet.ofHeader h ((d.take n).drop 16) :: r.1, r.2)

/-- The channels of R175. -/
inductive Chan where
  | req | creq | snp | rsp | free
deriving DecidableEq, Repr

def Packet.chan (p : Packet) : Chan :=
  if p.op = 0x00 ∨ p.op = 0x7F ∨ (0x28 ≤ p.op ∧ p.op ≤ 0x2A) then .free
  else if p.op < 0x28 then .req
  else if p.op < 0x38 then .creq
  else if p.op < 0x40 then .snp
  else .rsp

/-- Data credits a packet consumes (R176). -/
def Packet.dataCredits (p : Packet) : Nat := ceilDiv p.units 4

/-! ### Frames (R158–R160) -/

/-- The lane group that carries DATA frame `n` (R159). -/
def Block.frameGroup (b : Block) (s n : Nat) : Nat :=
  let gs := bitList (b.rd (Reg.ST_STATUS.WIDTH_SET s)) 8
  gs.getD (n % max 1 gs.length) 0

/-- Bytes 0–253 of a frame (Table SIT-4), its reserved bits zero. -/
def Frame.body (kind seq ack : Nat) (ackValid : Bool) (payload : List Byte) : List Byte :=
  sliceBytes payload 0 240 ++ natLE 8 (seq % 4096 + ack % 4096 * 2 ^ 12 + b01 ackValid * 2 ^ 24 + kind % 4 * 2 ^ 25) ++ zeros 6

/-- Bytes followed by their CRC (R158). -/
def withCrc16 (bs : List Byte) : List Byte := bs ++ natLE 2 (crc16 bs)

/-- A frame goes out with the link's ACK, which returns what has been received. -/
def Block.putFrame (b : Block) (s group kind seq : Nat) (payload : List Byte) : Block :=
  let l := (b.site s).link
  (b.emit (.frame s group (withCrc16 (Frame.body kind seq (l.rxNext + 4095) l.rxAny payload)))).modLink s fun l => { l with
    framesSinceAck := 0, ackAt := b.now }

/-- Send what waits for frames, while fewer than 1,024 are held and no width change runs. -/
def Block.sendFrames : Nat → Block → Nat → Block
  | 0, b, _ => b
  | k + 1, b, s =>
    let l := (b.site s).link
    if l.txWait.isEmpty ∨ 1024 ≤ l.held.length ∨ l.widthChange.isSome then b
    else
      let pl := sliceBytes l.txWait 0 240
      Block.sendFrames k ((b.putFrame s (b.frameGroup s l.txSeq) 0 l.txSeq pl).modLink s fun l => { l with
        txWait := l.txWait.drop 240, txSeq := (l.txSeq + 1) % 4096, held := l.held ++ [⟨l.txSeq, pl⟩] }) s

/-! ### Lateral Flits (R161, R172) -/

/-- The active modules: those with a half in WIDTH_SET. -/
def Block.modules (b : Block) (s : Nat) : List Nat :=
  (List.range 4).filter fun m => bits (b.rd (Reg.ST_STATUS.WIDTH_SET s)) (2 * m) 2 ≠ 0

def LinkState.isDown (l : LinkState) (m : Nat) : Bool := SMap.get (fun _ => 0) l.moduleDown m ≠ 0

/-- A Flit of four units on the next active module in turn (DESIGN CHOICE, assumption 66); it waits while that module is
being retrained. -/
def Block.putFlit (b : Block) (s : Nat) (payload : List Byte) : Block :=
  let l := (b.site s).link
  let ms := b.modules s
  let m := ms.getD (l.flitNext % max 1 ms.length) 0
  let b := b.modLink s fun l => { l with flitNext := l.flitNext + 1 }
  let due := SMap.get (fun _ => []) l.flitWait m ++ [payload]
  if l.isDown m then b.modLink s fun l => { l with flitWait := SMap.put (fun _ => []) l.flitWait m due }
  else b.emit (.flit s m payload)

/-- Send what waits for Flits. -/
def Block.sendFlits : Nat → Block → Nat → Block
  | 0, b, _ => b
  | k + 1, b, s =>
    let l := (b.site s).link
    if l.txWait.isEmpty then b
    else Block.sendFlits k ((b.modLink s fun l => { l with txWait := l.txWait.drop 64 }).putFlit s (sliceBytes l.txWait 0 64)) s

/-- The Flits that wait for a module go out on `send`: on itself once it has returned, on the others once it is off. -/
def Block.releaseFlits (b : Block) (s m : Nat) (send : Block → List Byte → Block) : Block :=
  let fs := SMap.get (fun _ => []) (b.site s).link.flitWait m
  fs.foldl send (b.modLink s fun l => { l with flitWait := SMap.put (fun _ => []) l.flitWait m [] })

/-- Put a packet on the link. A DISPATCH's context is live from here (R178). -/
def Block.putPacket (b : Block) (s : Nat) (p : Packet) : Block :=
  let b := b.emit (.packet s p)
  let b := if p.op = 0 then b else b.count (Reg.ST_SWP_PKT_TX.COUNT s) 1
  let b := if p.op ≠ 0x20 then b else match SMap.get (fun _ => none) (b.site s).disp p.tag with
    | some d =>
      let st := b.site s
      b.setSite s { st with disp := SMap.put (fun _ => none) st.disp p.tag (some { d with sent := true, since := b.now }) }
    | none => b
  let b := b.modLink s fun l => { l with txWait := l.txWait ++ p.bytes }
  if Site.stacked s then Block.sendFrames 32 b s else Block.sendFlits 80 b s

/-- Whether the hub holds the credits of a packet. -/
def Credits.allow (c : Credits) (p : Packet) : Bool :=
  match p.chan with
  | .req => decide (1 ≤ c.hubReqH) && decide (p.dataCredits ≤ c.hubReqD)
  | .snp => decide (1 ≤ c.hubSnpH)
  | _ => true

def Credits.spend (c : Credits) (p : Packet) : Credits :=
  match p.chan with
  | .req => { c with hubReqH := c.hubReqH - 1, hubReqD := c.hubReqD - p.dataCredits }
  | .snp => { c with hubSnpH := c.hubSnpH - 1 }
  | _ => c

/-- Send a packet, in its channel's order, once its credits are in hand (R175, R176); nothing to a site whose link is
down (R169). -/
def Block.send (b : Block) (s : Nat) (p : Packet) : Block :=
  let st := b.site s
  let behind := st.txq.any fun q => q.chan = p.chan
  if !b.linkUp s then b
  else if !behind && st.credits.allow p then
    (b.setSite s { st with credits := st.credits.spend p }).putPacket s p
  else b.setSite s { st with txq := st.txq ++ [p] }

/-- Send every waiting packet whose turn and credits have come. -/
def Block.sendWaiting (b : Block) (s : Nat) : Block :=
  let q := (b.site s).txq
  q.foldl (fun b p => b.send s p) (b.setSite s { b.site s with txq := [] })

/-- An answer or request of the hub with no data. -/
def Packet.short (op tag core attr param : Nat) : Packet := ⟨op, 0, tag, 0, core, 0, attr, 0, param, []⟩

/-- Return the credits a received packet consumed, once its buffers free (R176). -/
def Block.giveCredits (b : Block) (s : Nat) (p : Packet) : Block :=
  let st := b.site s
  let c := st.credits
  let d := p.dataCredits
  match p.chan with
  | .req =>
    (b.setSite s { st with credits := { c with siteReqH := c.siteReqH + 1, siteReqD := c.siteReqD + d } }).putPacket s
      ⟨0x7F, 0, 1, d, 0, 0, 0, 0, 0, []⟩
  | .creq =>
    (b.setSite s { st with credits := { c with siteCreqH := c.siteCreqH + 1, siteCreqD := c.siteCreqD + d } }).putPacket s
      ⟨0x7F, 0, 0, 0, 0, 1, d, 0, 0, []⟩
  | _ => b

/-! ### Tags of the hub's requests (R177, R178) -/

/-- The lowest free tag below `n`. -/
def Block.freeTag (b : Block) (s n : Nat) : Option Nat :=
  findIdx n fun t => decide (SMap.get (fun _ => none) (b.site s).tags t = none)

def Block.setTag (b : Block) (s t : Nat) (u : Option HubTag) : Block :=
  let st := b.site s
  b.setSite s { st with tags := SMap.put (fun _ => none) st.tags t u }

def Block.tag (b : Block) (s t : Nat) : Option HubTag := SMap.get (fun _ => none) (b.site s).tags t

/-- Send a request of the hub under the lowest free tag, in the order of asking; with none free it waits for one. -/
def Block.hubRequest (b : Block) (s : Nat) (u : TagUse) (p : Packet) : Block :=
  let st := b.site s
  match st.owed, b.freeTag s 4096 with
  | [], some t => (b.setTag s t (some ⟨u, b.now, false⟩)).send s { p with tag := t }
  | _, _ => b.setSite s { st with owed := st.owed ++ [⟨u, p⟩] }

/-- A tag is free again: the oldest request that waits for one takes it. -/
def Block.freeTagOf (b : Block) (s t : Nat) : Block :=
  let b := b.setTag s t none
  let st := b.site s
  match st.owed, b.freeTag s 4096 with
  | r :: rs, some t =>
    ((b.setSite s { st with owed := rs }).setTag s t (some ⟨r.use, b.now, false⟩)).send s { r.packet with tag := t }
  | _, _ => b

/-- Answer a site's request with RESP, freeing its tag (R177, R182). -/
def Block.siteResp (b : Block) (s tag st : Nat) : Block :=
  let v := b.site s
  (b.setSite s { v with siteTags := NSet.erase v.siteTags tag }).send s (Packet.short 0x41 tag 0 0 st)

/-! ### Sideband (R167, R168) -/

/-- The reply for which a sideband message is sent again: WIDTH_CHANGE's; the budget messages are not (R396). -/
def Sideband.reply (op : Nat) : Option Nat := if op = 0x06 then some 0x07 else none

/-- The 16 bytes of a message (Table SIT-6). -/
def Sideband.wire (op tag d0 d1 : Nat) : List Byte :=
  withCrc16 (natLE 4 (op % 256 + tag % 256 * 256) ++ natLE 4 d0 ++ natLE 4 d1 ++ zeros 2)

/-- Whether 16 bytes, as a number, are a message that the hub takes: its CRC is right, and Table SIT-8 or 08 lists its
opcode (R167). -/
def Sideband.valid (m : Nat) : Bool :=
  decide (crc16 (natLE 14 m) = bits m 112 16)
    && (let op := bits m 0 8; decide (1 ≤ op ∧ op ≤ 9) || decide (0x10 ≤ op ∧ op ≤ 0x13) || decide (op = 0x20 ∨ op = 0x21))

/-- Send a sideband message; one that expects a reply is kept until it comes. -/
def Block.sideband (b : Block) (s op d0 d1 : Nat) : Block :=
  let l := (b.site s).link
  let t := l.sbTag
  let b := b.emit (.sideband s (Sideband.wire op t d0 d1))
  b.modLink s fun l => { l with
    sbTag := (l.sbTag + 1) % 256
    waits := match Sideband.reply op with
      | some r => l.waits.filter (fun w => w.op ≠ op) ++ [⟨op, r, t, d0, d1, 1, b.now⟩]
      | none => l.waits }

/-- The caching agents site `s` declares in its burgee. -/
def Block.agentsOf (b : Block) (s : Nat) : Nat := bits (b.rd (Reg.ST_SWP_BURGEE.DATA s 4)) 0 7

/-- The burgee's ANY_OK and DISPATCH_TIMEOUT_US. -/
def Block.anyOk (b : Block) (s : Nat) : Bool := bit (b.rd (Reg.ST_SWP_BURGEE.DATA s 4)) 8
def Block.dispatchLimit (b : Block) (s : Nat) : Nat := bits (b.rd (Reg.ST_SWP_BURGEE.DATA s 5)) 0 32

end Sys2Proof.Machine
end

