-- ==== Sys2Proof/Machine/CohOps.lean ====
section
/-! DEFINITION. The coherence home (09): snoops and their answers, the transitions of Table COH-6, hold windows and
reservations, evictions, lost lines and reclaim. -/

namespace Sys2Proof.Machine

/-! ### The directory -/

def Block.dirPut (b : Block) (e : DirEntry) : Block :=
  let k := Dir.set e.line
  let es := SMap.get (fun _ => []) b.coh.dir k
  { b with coh := { b.coh with dir := SMap.put (fun _ => []) b.coh.dir k (es.filter (fun x => x.way ≠ e.way) ++ [e]) } }

def Block.dirDrop (b : Block) (line : Nat) : Block :=
  let k := Dir.set line
  let es := SMap.get (fun _ => []) b.coh.dir k
  { b with coh := { b.coh with dir := SMap.put (fun _ => []) b.coh.dir k (es.filter fun x => x.line ≠ line) } }

/-- The lowest way of a set that is neither in use nor fenced. -/
def Block.freeWay (b : Block) (line : Nat) : Option Nat :=
  let k := Dir.set line
  let es := SMap.get (fun _ => []) b.coh.dir k
  findIdx 16 fun w => !(es.any fun e => e.way = w) && !NSet.has b.coh.fenced (16 * k + w)

def DirEntry.recorded (e : DirEntry) (r : Nat) : Bool := e.ptrs.contains (some r)
def DirEntry.head (e : DirEntry) : Nat := ((e.ptrs.getD 0 none)).getD 0

/-- The recorded sharers: every pointer in SHR, PTR1–PTR3 in FSH. -/
def DirEntry.sharers (e : DirEntry) : List Nat :=
  match e.state with
  | .shr => e.ptrs.filterMap id
  | .fsh => (e.ptrs.drop 1).filterMap id
  | .own => []

def ptrs4 (l : List (Option Nat)) : List (Option Nat) := (l ++ List.replicate 4 none).take 4

/-- Record a holder; with no pointer free the entry bunts (R203). -/
def DirEntry.addHolder (e : DirEntry) (r : Nat) : DirEntry :=
  if e.recorded r then e
  else
    let lo := if e.state = .shr then 0 else 1
    match (List.range 4).find? fun i => decide (lo ≤ i) && decide (e.ptrs.getD i none = none) with
    | some i => if e.bunt && decide (e.state = .fsh) then e else { e with ptrs := (ptrs4 e.ptrs).set i (some r) }
    | none => { e with bunt := true }

def DirEntry.dropHolder (e : DirEntry) (r : Nat) : DirEntry :=
  { e with ptrs := e.ptrs.map fun p => if p = some r then none else p }

/-- The agents of every enrolled site in the window's SITES, as bunting addresses them (R203). -/
def Block.buntAgents (b : Block) (line : Nat) : List Nat :=
  match b.cohWin (line * 64) with
  | none => []
  | some n => ((List.range 16).filter fun s => (b.rd (Reg.CO_WIN08.SITES n)).testBit s && b.enrolled s).flatMap fun s =>
      (List.range (b.agentsOf s)).map fun a => 64 * s + a

/-- Whom snoops to the sharers go to. -/
def Block.sharerTargets (b : Block) (e : DirEntry) (r : Option Nat) : List Nat :=
  let base := if e.bunt then
      (b.buntAgents e.line).filter fun a => !(decide (e.state = .fsh) && decide (a = e.head))
    else e.sharers
  base.filter fun a => decide (some a ≠ r)

/-- Every holder of an entry. -/
def Block.holders (b : Block) (e : DirEntry) : List Nat :=
  match e.state with
  | .own => [e.head]
  | .shr => b.sharerTargets e none
  | .fsh => e.head :: b.sharerTargets e none

/-! ### Memory as the home reaches it (R205, R214) -/

def Coh.who : Who := ⟨.coherence, none, 1, 0⟩

/-- The home's access to a line in HBM: performed at once, its DRAM accesses queued (assumption 60). -/
def Coh.hbm (b : Block) (o : Nat) (op : MemOp) : Block × Status × List Byte :=
  match op, b.heldAt none o 64 with
  | .read, some q => q
  | _, _ =>
    let r := (match op with
      | .read => b
      | _ => b.flushFor o 64).hbmAccess none o 64 op
    (r.1.dramPost Coh.who.ensign [], r.2)

def Block.lineRead (b : Block) (line : Nat) : Block × Status × List Byte :=
  match b.range (line * 64) with
  | .shelf => b.shelfAccess ⟨Coh.who, line * 64, 64, .read, 0⟩
  | .hbm o => Coh.hbm b o .read
  | _ => failWith b Code.ADDR_UNMAPPED 64 .read

def Block.lineWrite (b : Block) (line : Nat) (data : List Byte) : Block × Status :=
  match b.range (line * 64) with
  | .shelf =>
    let r := b.shelfAccess ⟨Coh.who, line * 64, 64, .write data, 0⟩
    (r.1, r.2.1)
  | .hbm o =>
    let r := Coh.hbm b o (.write data)
    (r.1, r.2.1)
  | _ => (b, Code.ADDR_UNMAPPED)

/-- Poison the memory copy of a line (R217): its eight words, or its whole granule. -/
def Block.linePoison (b : Block) (line : Nat) : Block :=
  match b.range (line * 64) with
  | .shelf => b.shelfPoisonRange (line * 64) 64
  | .hbm o => (b.hbmPoisonAt o).dramPost Coh.who.ensign []
  | _ => b

def Block.cohLog (b : Block) (kind agent line : Nat) : Block :=
  if b.is Reg.CO_ERR_LOG.VALID then b.wr Reg.CO_ERR_LOG.OVERFLOW 1
  else
    let b := b.wr Reg.CO_ERR_LOG.KIND kind
    let b := b.wr Reg.CO_ERR_LOG.AGENT agent
    let b := b.wr Reg.CO_ERR_ADDR.DLA (line * 64)
    b.wr Reg.CO_ERR_LOG.VALID 1

/-- R217: a line is lost with `agent`; its entry goes. -/
def Block.lineLost (b : Block) (line agent : Nat) : Block :=
  let b := (b.linePoison line).dirDrop line
  let b := b.count Reg.CO_RECLAIM_LOG.POISONED 1
  let b := b.cohLog 3 agent line
  b.pennant Src.coherence Kind.COH_LINE_LOST agent (line * 64)

/-! ### Transactions -/

def Block.setTxn (b : Block) (t : Txn) : Block :=
  { b with coh := { b.coh with txns := b.coh.txns.map fun x => if x.line = t.line then t else x } }

/-- Trackers in use (R208). -/
def Block.tracked (b : Block) : Nat := (b.coh.txns.filter fun t => !t.discarded).length

def Block.noTracker (b : Block) : Bool := decide (512 ≤ b.tracked)

def Block.trackers (b : Block) : Block := b.wr Reg.CO_STATUS.TRACKERS b.tracked

/-- Whether an agent's site is dead and still being reclaimed. -/
def Block.deadAgent (b : Block) (a : Nat) : Bool := (b.rd Reg.CO_STATUS.RECLAIM_PENDING).testBit (a / 64)

/-- The dead agents that an entry names. -/
def Block.deadIn (b : Block) (e : DirEntry) : List Nat := (e.ptrs.filterMap id).filter b.deadAgent

def Block.namesDead (b : Block) (e : DirEntry) : Bool := !(b.deadIn e).isEmpty

/-- Send a snoop of `line` to `agent`; an agent of a site that is not enrolled answers nothing and is skipped. -/
def Block.snoop (b : Block) (line agent : Nat) (op : SnpOp) (attr : Nat) : Block × Option SnpOut :=
  let s := agent / 64
  if !b.enrolled s then (b, none)
  else
    let code := match op with
      | .inv => 0x38
      | .shr => 0x39
      | .fwd => 0x3A
    let b := b.count Reg.CO_SNOOPS.COUNT 1
    (b.hubRequest s (.snoop line agent) ⟨code, 0, 0, 0, agent % 64, 0, attr, line * 64, 0, []⟩, some ⟨op, agent, b.now, false⟩)

/-- Open a transaction with its snoops, each as (agent, opcode, ATTR); that of a request whose way has come takes its place. -/
def Block.openTxn (b : Block) (line : Nat) (kind : TxnKind) (snps : List (Nat × SnpOp × Nat)) : Block :=
  let t : Txn := ⟨line, kind, [], [], none, false, [], none, false, none, (b.txnOf line).bind fun t => t.nacked, none, false⟩
  let b := { b with coh := { b.coh with txns := b.coh.txns.filter (fun t => t.line ≠ line) ++ [t] } }
  let r := snps.foldl (fun (acc : Block × List SnpOut) s =>
    let q := acc.1.snoop line s.1 s.2.1 s.2.2
    match q.2 with
    | some o => (q.1, acc.2 ++ [o])
    | none => (q.1, acc.2)) (b, [])
  (r.1.setTxn { t with snoops := r.2 }).trackers

/-- Free the tracker of a line. -/
def Block.dropTxn (b : Block) (line : Nat) : Block :=
  ({ b with coh := { b.coh with txns := b.coh.txns.filter fun t => t.line ≠ line } }).trackers

/-- Add the agent's request packet's answer and free its tag. -/
def Block.answerAgent (b : Block) (m : CMsg) (op attr status : Nat) (data : List Byte) : Block :=
  let s := m.agent / 64
  let st := b.site s
  let b := b.setSite s { st with siteTags := NSet.erase st.siteTags m.tag }
  if b.enrolled s then b.send s ⟨op, data.length / 16, m.tag, 0, m.agent % 64, 0, attr, 0, status, data⟩ else b

/-- Answer a C_WB; one into a poisoned granule is reported (R217). -/
def Block.wbAnswer (b : Block) (m : CMsg) (st : Status) : Block :=
  let b := if st = Code.MEM_POISON then b.pennant Src.coherence Kind.COH_PROTOCOL m.agent (m.line * 64) else b
  b.answerAgent m 0x5B 0 st []

/-- Answer the C_WB that served a transaction's snoop. -/
def Block.ackWb (b : Block) (t : Txn) (st : Status) : Block :=
  match t.wb with
  | none => b
  | some m => b.wbAnswer m st

/-- The uncached access that has waited longest for `line`, closed now: what needs no snoop goes on when its row is sent
again, any other takes a transaction once a tracker is free and the entry names no dead agent (R211, R215). -/
def Block.startUncached (b : Block) (line : Nat) : Block :=
  match b.coh.waiting.find? fun w => w.1 = line with
  | none => b
  | some w =>
    let next : Block := { b with coh := { b.coh with waiting := b.coh.waiting.erase w } }
    match b.dirEntry line with
    | none => next
    | some e =>
      if !w.2 && decide (e.state = .shr) then next
      else if b.noTracker || b.namesDead e then b
      else if w.2 then next.openTxn line (.uncached true) ((b.holders e).map fun a => (a, .inv, 0))
      else next.openTxn line (.uncached false) [(e.head, .shr, 0)]

/-- Close a line's transaction (R209, R210). -/
def Block.closeTxn (b : Block) (t : Txn) : Block :=
  let b := b.dropTxn t.line
  let cyc := b.rd Reg.CO_CFG.RESERVE_CYC
  let b := match t.nacked with
    | some a => if cyc = 0 then b
      else { b with coh := { b.coh with reserved := b.coh.reserved ++ [(⟨t.line, a, b.now + cyc⟩ : Reservation)] } }
    | none => b
  b.startUncached t.line

/-- Answer sent: hold the line open for HOLD_CYC, or close it (R209). -/
def Block.holdTxn (b : Block) (t : Txn) : Block :=
  let c := b.rd Reg.CO_CFG.HOLD_CYC
  if c = 0 then b.closeTxn t else b.setTxn { t with snoops := [], hold := some (b.now + c) }

/-- A fresh entry for a line that has a way. -/
def Block.newEntry (b : Block) (line : Nat) (st : DirState) (r : Nat) : Block :=
  match b.dirEntry line with
  | some e => b.dirPut { e with state := st, bunt := false, ptrs := [some r, none, none, none] }
  | none => match b.freeWay line with
    | some w =>
      let b := b.dirPut ⟨w, line, st, false, [some r, none, none, none], b.coh.allocs⟩
      { b with coh := { b.coh with allocs := b.coh.allocs + 1 } }
    | none => b

/-- Add a holder, counting a new bunt. -/
def Block.addHolder (b : Block) (e : DirEntry) (r : Nat) : Block :=
  let e' := e.addHolder r
  let b := if e'.bunt && !e.bunt then b.count Reg.CO_BUNTING.COUNT 1 else b
  b.dirPut e'

/-- Answer from memory and take the entry `next` makes (R214: a failed read changes no entry). -/
def Block.grantMem (b : Block) (t : Txn) (m : CMsg) (attr : Nat) (next : Block → Block) : Block :=
  match b.lineRead m.line with
  | (b, st, d) =>
    if st ≠ Code.SUCCESS then (b.answerAgent m 0x59 0 st []).holdTxn t
    else ((next b).answerAgent m 0x58 attr 0 d).holdTxn t

/-- The INV rows of Table COH-6. -/
def Block.grantInv (b : Block) (t : Txn) (m : CMsg) : Block :=
  match m.op with
  | .rdS =>
    let e : Bool := match b.cohWin (m.line * 64) with
      | some n => b.is (Reg.CO_WIN00.GRANT_E n)
      | none => false
    b.grantMem t m (bif e then 2 else 1) fun b => b.newEntry m.line (bif e then DirState.own else DirState.shr) m.agent
  | _ => b.grantMem t m 3 fun b => b.newEntry m.line .own m.agent

/-- What a coherent request's row of Table COH-6 asks for in the entry's state: the snoops. -/
def Block.rowSnoops (b : Block) (e : DirEntry) (m : CMsg) : List (Nat × SnpOp × Nat) :=
  let r := m.agent
  let inv (l : List Nat) : List (Nat × SnpOp × Nat) := l.map fun a => (a, .inv, 0)
  let upg : Bool := decide (m.op = .upg) && !e.bunt
  match e.state with
  | .shr => match m.op with
    | .rdS => []
    | _ => inv (b.sharerTargets e (some r))
  | .own =>
    if r = e.head then []
    else match m.op with
      | .rdS => [(e.head, .fwd, 0)]
      | _ => [(e.head, .fwd, 1)]
  | .fsh => match m.op with
    | .rdS => [(e.head, .fwd, 0)]
    | _ =>
      if upg && decide (r = e.head) then inv (b.sharerTargets e (some r))
      else if upg && e.sharers.contains r then inv (e.head :: b.sharerTargets e (some r))
      else (e.head, .fwd, 1) :: inv (b.sharerTargets e (some r))

/-- Write a transaction's dirty data to memory. -/
def Block.writeDirty (b : Block) (t : Txn) : Block × Status :=
  match t.data with
  | some d => if t.dirty then b.lineWrite t.line d else (b, Code.SUCCESS)
  | none => (b, Code.SUCCESS)

/-- A request whose site is gone ends without an answer; what its snoops took from live agents goes to memory (R215). -/
def Block.dropRequest (b : Block) (t : Txn) (m : CMsg) : Block :=
  match b.dirEntry m.line with
  | none => b.closeTxn t
  | some e =>
    let e := t.gone.foldl (fun e a => if e.state = .own then e else e.dropHolder a) e
    match e.state, m.op with
    | .shr, .rdS => b.closeTxn t
    | .own, .rdS =>
      if t.wb.isSome then
        let r := b.writeDirty t
        ((r.1.dirDrop m.line).closeTxn t).ackWb t r.2
      else (if t.dirty then b.dirPut { e with state := .fsh } else if t.data.isSome then b.dirPut { e with state := .shr }
        else b.dirDrop m.line).closeTxn t
    | .fsh, .rdS =>
      if t.wb.isSome then
        let r := b.writeDirty t
        ((r.1.dirPut { e with state := .shr, ptrs := none :: e.ptrs.drop 1 }).closeTxn t).ackWb t r.2
      else b.closeTxn t
    | _, _ =>
      let r := b.writeDirty t
      ((if t.snoops.isEmpty && t.data.isNone && t.gone.isEmpty then r.1 else r.1.dirDrop m.line).closeTxn t).ackWb t r.2

/-- Finish a request once its snoops are answered: the answer and next state of its row, with R206. -/
def Block.finishRequest (b : Block) (t : Txn) (m : CMsg) : Block :=
  let r := m.agent
  let grantData (attr : Nat) (b : Block) : Block := (b.answerAgent m 0x58 attr 0 (t.data.getD (zeros 64))).holdTxn t
  match b.dirEntry m.line with
  | none => b.grantInv t m
  | some e =>
    let e := t.gone.foldl (fun e a => if e.state = .own then e else e.dropHolder a) e
    let upg : Bool := decide (m.op = .upg) && !e.bunt
    match e.state with
      | .shr => match m.op with
        | .rdS => b.grantMem t m 1 fun b => b.addHolder e r
        | _ =>
          if upg && e.recorded r then
            ((b.newEntry m.line .own r).answerAgent m 0x59 3 0 []).holdTxn t
          else b.grantMem t m 3 fun b => b.newEntry m.line .own r
      | .own =>
        if r = e.head then
          match m.op with
          | .upg => (b.answerAgent m 0x59 3 0 []).holdTxn t
          | .rdS => b.grantMem t m 2 id
          | _ => b.grantMem t m 3 id
        else match t.data with
          | none => b.grantInv t m
          | some _ => match m.op with
            | .rdS =>
              let e' : DirEntry := { e with
                state := if t.dirty then .fsh else .shr, ptrs := [some e.head, some r, none, none] }
              grantData 1 (b.dirPut e')
            | _ => grantData 3 (b.newEntry m.line .own r)
      | .fsh => match m.op with
        | .rdS => grantData 1 (b.addHolder e r)
        | _ =>
          if upg && e.recorded r then ((b.newEntry m.line .own r).answerAgent m 0x59 3 0 []).holdTxn t
          else grantData 3 (b.newEntry m.line .own r)

/-- Finish an uncached access's transaction (R211). -/
def Block.finishUncached (b : Block) (t : Txn) (write : Bool) : Block :=
  let r := b.writeDirty t
  let b := r.1
  (if write then (b.dirDrop t.line).closeTxn t
  else match b.dirEntry t.line with
    | none => b.closeTxn t
    | some e =>
      let e' := t.gone.foldl DirEntry.dropHolder { e with state := .shr }
      (if e'.ptrs.all Option.isNone && !e'.bunt then b.dirDrop t.line else b.dirPut e').closeTxn t).ackWb t r.2

/-- A reservation ends when its agent's request is accepted (R210). -/
def Block.unreserve (b : Block) (m : CMsg) : Block :=
  { b with coh := { b.coh with
    reserved := b.coh.reserved.filter fun x => !(decide (x.line = m.line) && decide (x.agent = m.agent)) } }

/-- Accept a request whose line is closed and in a usable set: snoop, or finish at once (Table COH-6). An owner or forwarder
that cannot be asked has lost the line (R217). -/
def Block.startRequest (b : Block) (m : CMsg) : Block :=
  let b := b.unreserve m
  let e := b.dirEntry m.line
  let snps := match e with
    | none => []
    | some e => b.rowSnoops e m
  let b := b.openTxn m.line (.request m) snps
  match b.txnOf m.line with
  | none => b
  | some t =>
    let unasked := snps.any (fun s => decide (s.2.1 = .fwd)) && !(t.snoops.any fun x => decide (x.op = .fwd))
    if unasked then b.setTxn { t with lost := e.map DirEntry.head }
    else if t.snoops.isEmpty then b.finishRequest t m else b

/-- Add NACK's answer, with the first agent turned away recorded (R208, R210). -/
def Block.nack (b : Block) (m : CMsg) (hint : Nat) : Block :=
  let b := b.count Reg.CO_NACKS.COUNT 1
  let b := match b.txnOf m.line with
    | some t => if t.nacked.isNone then b.setTxn { t with nacked := some m.agent } else b
    | none => b
  b.answerAgent m 0x5A 0 hint []

/-- The request that an eviction was for goes on, unless its agent has died since. -/
def Block.startQueued (b : Block) (next : Option CMsg) : Block :=
  match next with
  | none => b
  | some m => match b.txnOf m.line with
    | none => b
    | some t =>
      if t.kind ≠ .queued m then b
      else if (b.freeWay m.line).isNone then (b.dropTxn m.line).nack m (b.rd Reg.CO_CFG.NACK_HINT)
      else b.startRequest m

/-- A lost line's transaction ends (R217). -/
def Block.endLost (b : Block) (t : Txn) (a : Nat) : Block :=
  let b := b.lineLost t.line a
  match t.kind with
  | .request m => (b.answerAgent m 0x59 0 Code.MEM_POISON []).holdTxn t
  | .evict next => (b.closeTxn t).startQueued next
  | _ => b.closeTxn t

/-- Move a transaction on when its snoops have all been answered. -/
def Block.advance (b : Block) (t : Txn) : Block :=
  if !t.snoops.isEmpty ∨ t.hold.isSome then b.setTxn t
  else match t.lost with
    | some a =>
      if !t.purging then
        -- R217: SNP_INV to every other holder first
        let others := match b.dirEntry t.line with
          | some e => (b.holders e).filter fun x => decide (x ≠ a) && !t.gone.contains x
          | none => []
        let r := others.foldl (fun (acc : Block × List SnpOut) x =>
          let q := acc.1.snoop t.line x .inv 0
          match q.2 with
          | some o => (q.1, acc.2 ++ [o])
          | none => (q.1, acc.2)) (b, [])
        let t' := { t with purging := true, snoops := r.2 }
        if r.2.isEmpty then r.1.endLost t' a else r.1.setTxn t'
      else b.endLost t a
    | none => match t.kind with
      | .queued _ => b
      | .request m => if b.enrolled (m.agent / 64) then (b.finishRequest t m).ackWb t Code.SUCCESS else b.dropRequest t m
      | .uncached w => b.finishUncached t w
      | .evict next =>
        let r := b.writeDirty t
        (((r.1.dirDrop t.line).count Reg.CO_VICTIMS.COUNT 1).closeTxn t).ackWb t r.2 |>.startQueued next
      | .recover rest =>
        match t.data with
        | some d =>
          -- R216: the first copy makes memory current
          let b := (b.lineWrite t.line d).1
          let b := b.count Reg.CO_RECLAIM_LOG.RECOVERED 1
          match b.dirEntry t.line with
          | none => b.closeTxn t
          | some e =>
            let e' := t.gone.foldl DirEntry.dropHolder { e with state := .shr, ptrs := none :: e.ptrs.drop 1 }
            (b.dirPut e').closeTxn t
        | none => match rest with
          | [] =>
            let a := match b.dirEntry t.line with
              | some e => e.head
              | none => 0
            (b.lineLost t.line a).closeTxn t
          | x :: xs =>
            let q := b.snoop t.line x .fwd 2
            match q.2 with
            | some o => q.1.setTxn { t with kind := .recover xs, snoops := [o] }
            | none => q.1.setTxn { t with kind := .recover xs }

/-- Run `advance` while a recovery skips agents that cannot be asked. -/
def Block.advanceAll : Nat → Block → Nat → Block
  | 0, b, _ => b
  | k + 1, b, line =>
    match b.txnOf line with
    | none => b
    | some t =>
      let still : Bool := match t.kind with
        | .queued _ => true
        | _ => false
      if !t.snoops.isEmpty ∨ t.hold.isSome ∨ still then b
      else Block.advanceAll k (b.advance t) line

/-! ### Requests (R198, R208, R212) -/

/-- The victim of R212: the oldest way neither open nor reserved. -/
def Block.victim (b : Block) (line : Nat) : Option DirEntry :=
  let es := (SMap.get (fun _ => []) b.coh.dir (Dir.set line)).filter fun e =>
    (b.txnOf e.line).isNone && !(b.coh.reserved.any fun r => r.line = e.line)
  es.foldl (fun best e => match best with
    | none => some e
    | some v => if e.alloc < v.alloc then some e else best) none

/-- Evict an entry (R212), with the request its way is for, which has its own tracker. -/
def Block.evictEntry (b : Block) (e : DirEntry) (next : Option CMsg) : Block :=
  let b := match next with
    | some m => (b.unreserve m).openTxn m.line (.queued m) []
    | none => b
  Block.advanceAll 3 (b.openTxn e.line (.evict next) ((b.holders e).map fun a => (a, .inv, 0))) e.line

/-- Reclaim one entry that names dead agents (R215, R216); a recovery waits for a tracker. -/
def Block.reclaimEntry (b : Block) (e : DirEntry) : Block :=
  let dead := b.deadIn e
  if dead.isEmpty then b
  else match e.state with
    | .own => b.lineLost e.line e.head
    | .shr =>
      let e' := dead.foldl DirEntry.dropHolder e
      if e'.ptrs.all Option.isNone && !e'.bunt then b.dirDrop e.line else b.dirPut e'
    | .fsh =>
      let keep := (dead.filter fun a => a ≠ e.head).foldl DirEntry.dropHolder e
      if !dead.contains e.head then b.dirPut keep
      else if b.noTracker then b
      else
        let ask := if e.bunt then (b.buntAgents e.line) else keep.sharers
        Block.advanceAll 1100 ((b.dirPut keep).openTxn e.line (.recover ask) []) e.line

/-- Reclaim the entry of a closed line, if it names dead agents, before anything else meets it (R215). -/
def Block.reclaimLine (b : Block) (line : Nat) : Block :=
  if (b.txnOf line).isSome then b
  else match b.dirEntry line with
    | some e => b.reclaimEntry e
    | none => b

/-- Start the uncached accesses that wait for a line. -/
def Block.lineStart (b : Block) (line : Nat) : Block :=
  let b := b.reclaimLine line
  if (b.txnOf line).isSome then b else Block.advanceAll 3 (b.startUncached line) line

/-- Evict closed lines as far as trackers allow (R218). -/
def Block.evictLines (b : Block) (lines : List Nat) : Block :=
  lines.foldl (fun b l =>
    let b := b.reclaimLine l
    if (b.txnOf l).isSome || b.noTracker then b
    else match b.dirEntry l with
      | some e => b.evictEntry e none
      | none => b) b

/-- R198's checks: none where the request is served, else its status. -/
def Block.cohCheck (b : Block) (m : CMsg) : Option Status :=
  let s := m.agent / 64
  match b.cohWin (m.line * 64) with
  | none => some Code.COH_NOT_COHERENT
  | some n =>
    let p := b.rd (Reg.CO_WIN00.PARTITION n)
    if !(b.rd (Reg.CO_WIN08.SITES n)).testBit s || !(b.part p).sites.testBit s then some Code.COH_NOT_COHERENT
    else b.firewall none (some p) (m.line * 64) .r

/-- R198: a request that fails its checks is answered with its status, logged, and a firewall's denial reported (R263). -/
def Block.cohGate (b : Block) (m : CMsg) (run : Block → Block) : Block :=
  match b.cohCheck m with
  | none => run b
  | some st =>
    let b := if st = Code.COH_NOT_COHERENT then b
      else b.refuse ⟨.siteWhole (m.agent / 64), none, 0, 0⟩ Kind.FIREWALL_DENIED (m.line * 64)
    (b.cohLog 5 m.agent m.line).answerAgent m 0x59 0 st []

/-- The reservation that keeps another agent from a line, in units of 10 ns still to go (R210). -/
def Block.reservedFor (b : Block) (m : CMsg) : Option Nat :=
  (b.coh.reserved.find? fun r => decide (r.line = m.line) && decide (r.agent ≠ m.agent)).map fun r =>
    ceilDiv ((r.until' - b.now) * 5) 80

/-- Serve a request in a way of its set, evicting the oldest that may go; an entry that names dead agents is reclaimed
first. -/
def Block.makeRoom : Nat → Block → CMsg → Block
  | 0, b, m => b.nack m (b.rd Reg.CO_CFG.NACK_HINT)
  | k + 1, b, m =>
    if (b.dirEntry m.line).isSome ∨ (b.freeWay m.line).isSome then Block.advanceAll 3 (b.startRequest m) m.line
    else match b.victim m.line with
      | none => b.nack m (b.rd Reg.CO_CFG.NACK_HINT)
      | some e =>
        if b.namesDead e && !(decide (e.state = .fsh) && b.noTracker) then Block.makeRoom k (b.reclaimEntry e) m
        else if 511 ≤ b.tracked then b.nack m (b.rd Reg.CO_CFG.NACK_HINT)
        else b.evictEntry e (some m)

/-- A request of R193 at the home: C_RD_S, C_RD_O or C_UPG; `read` is what the directory's read of its set shows. -/
def Block.cohRequest (b : Block) (m : CMsg) (read : Block → Block) : Block :=
  b.cohGate m fun b =>
    let hint := b.rd Reg.CO_CFG.NACK_HINT
    if (b.txnOf m.line).isSome then b.nack m hint
    else match b.reservedFor m with
      | some left => b.nack m left
      | none =>
        if b.noTracker then b.nack m hint
        else
          let b := (read (b.count Reg.CO_LOOKUPS.COUNT 1)).reclaimLine m.line
          if (b.txnOf m.line).isSome then b.nack m hint else Block.makeRoom 33 b m

/-- C_WB (R204, R207): never NACKed. One that meets a snoop to its owner or forwarder serves as that snoop's SNP_DATA, and is
answered with the transaction's change. -/
def Block.cohWriteback (b : Block) (m : CMsg) (data : List Byte) : Block :=
  let proto (b : Block) : Block :=
    let b := (b.cohLog 1 m.agent m.line).pennant Src.coherence Kind.COH_PROTOCOL m.agent (m.line * 64)
    b.answerAgent m 0x5B 0 Code.COH_PROTOCOL []
  b.cohGate m fun b =>
    let b := b.unreserve m
    match b.dirEntry m.line with
    | none => proto b
    | some e =>
      if e.state = .shr ∨ m.agent ≠ e.head then proto b
      else match (b.txnOf m.line).bind fun t => (t.snoops.find? fun x => x.agent = m.agent).map fun x => (t, x.wbPending) with
        | some (t, pending) =>
          Block.advanceAll 3 (b.setTxn { t with
            data := some data, dirty := true, wb := some m
            wbFrom := if pending then t.wbFrom else m.agent :: t.wbFrom
            snoops := if pending then t.snoops.filter fun x => x.agent ≠ m.agent else t.snoops }) m.line
        | none => match b.lineWrite m.line data with
          | (b, st) =>
            let e' : DirEntry := { e with state := .shr, ptrs := none :: e.ptrs.drop 1 }
            (if decide (e.state = .own) || (e'.ptrs.all Option.isNone && !e'.bunt) then b.dirDrop m.line
              else b.dirPut e').wbAnswer m st

/-- C_EVICT (R204, R208). During the hold window of its own grant it is served at once (R209). -/
def Block.cohEvict (b : Block) (m : CMsg) : Block :=
  let hint := b.rd Reg.CO_CFG.NACK_HINT
  let serve (b : Block) : Block :=
    (match b.dirEntry m.line with
      | none => b
      | some e => match e.state with
        | .own => if m.agent = e.head then b.dirDrop m.line else b
        | .shr =>
          if e.recorded m.agent then
            let e' := e.dropHolder m.agent
            if e'.ptrs.all Option.isNone && !e'.bunt then b.dirDrop m.line else b.dirPut e'
          else b
        | .fsh => if e.sharers.contains m.agent then b.dirPut (e.dropHolder m.agent) else b).answerAgent m 0x5B 0 0 []
  b.cohGate m fun b =>
    match b.txnOf m.line with
    | some t =>
      if t.hold.isSome && (match t.kind with
        | .request q => decide (q.agent = m.agent)
        | _ => false) then serve b else b.nack m hint
    | none => match b.reservedFor m with
      | some left => b.nack m left
      | none => if b.noTracker then b.nack m hint else serve (b.unreserve m)

/-! ### Snoop answers (R206, R207, R213) -/

/-- One snoop is answered with no data: the agent holds no copy, or held a clean one. -/
def Block.snoopAnswered (b : Block) (line agent : Nat) (noCopy timedOut : Bool) : Block :=
  match b.txnOf line with
  | none => b
  | some t => match t.snoops.find? fun x => x.agent = agent with
    | none => b
    | some x =>
      let t' := { t with snoops := t.snoops.filter fun y => y.agent ≠ agent }
      if t.wbFrom.contains agent then Block.advanceAll 3 (b.setTxn t') line
      else
        let e := b.dirEntry line
        let isF : Bool := match e with
          | some e => decide (e.state = .fsh) && decide (e.head = agent)
          | none => false
        let isO : Bool := match e with
          | some e => decide (e.state = .own) && decide (e.head = agent)
          | none => false
        -- a recovery's sharer, or a purge, has no data to lose
        let recovering : Bool := t.purging || (match t.kind with
          | .recover _ => true
          | _ => false)
        let loses := !recovering && ((isF && (noCopy || timedOut)) || (isO && timedOut))
        let t' := { t' with
          gone := if noCopy || timedOut then agent :: t'.gone else t'.gone
          lost := if loses then some agent else t'.lost }
        let _ := x
        Block.advanceAll 1100 (b.setTxn t') line

/-- SNP_DATA for a line (R205). -/
def Block.snoopData (b : Block) (line agent : Nat) (dirty : Bool) (data : List Byte) : Block :=
  match b.txnOf line with
  | none => b
  | some t =>
    if !(t.snoops.any fun x => x.agent = agent) then b
    else
      let t' := { t with
        snoops := t.snoops.filter fun y => y.agent ≠ agent
        data := some data, dirty := dirty }
      Block.advanceAll 3 (b.setTxn t') line

/-! ### A dead site's agents (R215) -/

/-- Step 1 of R215 for one transaction: a dead agent's request is discarded and its tracker freed; the snoops it has out to
live agents still settle the line. -/
def Block.discardRequest (b : Block) (t : Txn) (s : Nat) : Block :=
  match t.kind with
  | .request m =>
    if m.agent / 64 ≠ s then b
    else if t.hold.isSome then b.closeTxn t
    else (b.setTxn { t with discarded := true }).trackers
  | .queued m => if m.agent / 64 ≠ s then b else (b.dropTxn t.line).startUncached t.line
  | _ => b

/-- Steps 1 and 2 of R215: requests of dead agents are discarded, snoops to them count as answered late; step 3 starts. -/
def Block.agentsDead (b : Block) (s : Nat) : Block :=
  let b := b.wr Reg.CO_STATUS.RECLAIM_PENDING (setBits (b.rd Reg.CO_STATUS.RECLAIM_PENDING) s 1 1)
  let b := b.wr Reg.CO_STATUS.RECLAIM_ACTIVE 1
  let b := { b with coh := { b.coh with
    scan := some 0
    reserved := b.coh.reserved.filter fun r => r.agent / 64 ≠ s } }
  let lines := b.coh.txns.map fun t => t.line
  lines.foldl (fun b line =>
    match b.txnOf line with
    | none => b
    | some t =>
      let b := b.discardRequest t s
      let b := (t.snoops.filter fun x => x.agent / 64 = s).foldl (fun b x => b.snoopAnswered line x.agent false true) b
      Block.advanceAll 3 b line) b

end Sys2Proof.Machine
end

