-- ==== Sys2Proof/Machine/EpOps.lean ====
section
/-! DEFINITION. The host endpoint as the hub's own units use it (14): configuration space, MSI-X messages, host requests
and their slots. -/

namespace Sys2Proof.Machine

/-! ### Configuration space (R286–R288, R293) -/

/-- The offsets of the capabilities a function carries, in order, with their identifiers (Table EPT-2; identifiers and
layouts are the base specification's, PRESUMED, assumption 12). -/
def Cfg.extCaps (pf : Bool) : List (Nat × Nat) :=
  if pf then [(0x100, 0x0001), (0x160, 0x0003), (0x170, 0x000E), (0x180, 0x0010), (0x1C0, 0x000F), (0x1D0, 0x001B),
    (0x1E0, 0x0013), (0x200, 0x002E), (0x220, 0x0030), (0x480, 0x0025), (0x490, 0x0019), (0x4E0, 0x0026), (0x520, 0x0027),
    (0x570, 0x002A), (0x5C0, 0x0031)]
  else [(0x100, 0x0001), (0x170, 0x000E), (0x1C0, 0x000F)]

/-- The header dword of the extended capability at `off`. -/
def Cfg.extHeader (pf : Bool) (off : Nat) : Option Nat :=
  let l := Cfg.extCaps pf
  match (List.range l.length).find? fun i => (l.getD i (0, 0)).1 = off with
  | none => none
  | some i => some ((l.getD i (0, 0)).2 + 1 * 2 ^ 16 + (l.getD (i + 1) (0, 0)).1 * 2 ^ 20)

/-- What a dword of function `fn` reads where nothing has been written: header and capability values. -/
def Cfg.fixed (rev serial subsys : Nat) (fn off : Nat) : Nat :=
  let pf : Bool := decide (fn = 0)
  match Cfg.extHeader pf off with
  | some h => h
  | none =>
    if off = 0x00 then (if pf then 0x46801FA7 else 0xFFFFFFFF)
    else if off = 0x04 then 0x00100000
    else if off = 0x08 then 0x12000000 + rev
    else if off = 0x10 then (if pf then 0x4 else 0)
    else if off = 0x18 then (if pf then 0x4 else 0)
    else if off = 0x20 then (if pf then 0xC else 0)
    else if off = 0x2C then subsys
    else if off = 0x34 then (if pf then 0x40 else 0x50)
    else if off = 0x40 then (if pf then 0x00035001 else 0)
    else if off = 0x44 then (if pf then 0x8 else 0)
    else if off = 0x50 then 0x11 + 0x60 * 2 ^ 8 + (if pf then 2047 else 127) * 2 ^ 16
    else if off = 0x54 then (if pf then 0x01008000 else 0x802)
    else if off = 0x58 then (if pf then 0x01010000 else 0x102)
    else if off = 0x60 then 0x80020010
    else if off = 0x64 then 2 + 2 ^ 5 + 2 ^ 15 + 2 ^ 28 + 2 ^ 30
    else if off = 0x68 then 0x2810
    else if off = 0x6C then 6 + 16 * 2 ^ 4
    else if off = 0x84 then 0xF
    else if off = 0x10C then 0x00462010
    else if off = 0x114 then 0x00004000
    else if off = 0x118 then 2 ^ 9 + 2 ^ 12
    else if off = 0x164 then (if pf then serial % 2 ^ 32 else 0)
    else if off = 0x168 then (if pf then serial / 2 ^ 32 else 0)
    else if off = 0x18C then (if pf then 32 + 32 * 2 ^ 16 else 0)
    else if off = 0x194 then (if pf then 1 + 1 * 2 ^ 16 else 0)
    else if off = 0x198 then (if pf then 0x4681 * 2 ^ 16 else 0)
    else if off = 0x19C then (if pf then 0x11 else 0)
    else if off = 0x1A0 then (if pf then 0x1 else 0)
    else if off = 0x1AC then (if pf then 0x4 else 0)
    else if off = 0x1B4 then (if pf then 0xC else 0)
    else if off = 0x1C4 then 0x60 + 0 * 2 ^ 16
    else if off = 0x1D4 then (if pf then 20 * 2 ^ 8 else 0)
    else if off = 0x1E8 then (if pf then 512 else 0)
    else if off = 0x224 then (if pf then 2 + 2 ^ 6 + 7 * 2 ^ 16 + 2 ^ 24 else 0)
    else if off = 0x484 then (if pf then 1 else 0)
    else 0

/-- The bits of a dword that a configuration write changes; `samp` is the sampled EP_CFG, which sizes the BARs. -/
def Cfg.writable (samp fn off : Nat) : Nat :=
  let pf : Bool := decide (fn = 0)
  let low (n : Nat) : Nat := if 32 ≤ n then 0 else 2 ^ 32 - 2 ^ n
  let high (n : Nat) : Nat := if 32 ≤ n then 2 ^ 32 - 2 ^ (n - 32) else 2 ^ 32 - 1
  let db := if bit samp 0 then 28 else 24
  if off = 0x04 then (if pf then 0x146 else 0x4)
  else if off = 0x0C ∨ off = 0x3C then (if pf then 0xFF else 0)
  else if off = 0x50 then 0xC0000000
  else if off = 0x68 then (if pf then 0x70FF else 0xF)
  else if off = 0x108 ∨ off = 0x10C then 0x707FF030
  else if off = 0x114 then 0xF1C1
  else if off = 0x1C4 then 0x801F0000
  else if !pf then 0
  else if off = 0x10 then low 28
  else if off = 0x14 then high 28
  else if off = 0x18 ∨ off = 0x1AC then low db
  else if off = 0x1C ∨ off = 0x1B0 then high db
  else if off = 0x20 then low (bits samp 8 6)
  else if off = 0x24 then high (bits samp 8 6)
  else if off = 0x1B4 then low (bits samp 16 6)
  else if off = 0x1B8 then high (bits samp 16 6)
  else if off = 0x44 then 0x3
  else if off = 0x88 then 0x4F
  else if off = 0x188 then 0x9
  else if off = 0x190 then 0xFFFF
  else if off = 0x1A0 then 0x11
  else if off = 0x1D4 then 2 ^ 16
  else if off = 0x1E4 then 0x1
  else if off = 0x1EC then 0xFFFFFFFF
  else 0

def Block.cfgDefault (b : Block) (k : Nat) : Nat :=
  let s := b.ep.sampled.getD (0, 0)
  Cfg.fixed (b.rd Reg.MH_REV.STEPPING) (b.rd Reg.MH_SERIAL.SERIAL) s.2 (k / 4096) (k % 4096)

/-- A configuration dword. -/
def Block.cfg (b : Block) (fn off : Nat) : Nat := SMap.get b.cfgDefault b.ep.cfg (fn * 4096 + off)
def Block.setCfg (b : Block) (fn off v : Nat) : Block :=
  { b with ep := { b.ep with cfg := SMap.put b.cfgDefault b.ep.cfg (fn * 4096 + off) v } }

def Block.bme (b : Block) (fn : Nat) : Bool := b.is (Reg.EP_FN_STATUS.BME fn)
def Block.atsEnabled (b : Block) (fn : Nat) : Bool := bit (b.cfg fn 0x1C4) 31 && bit (b.cfg 0 0x1D4) 16
/-- The smallest translation unit, log2 bytes. -/
def Block.stu (b : Block) (fn : Nat) : Nat := 12 + bits (b.cfg fn 0x1C4) 16 5
def Block.priEnabled (b : Block) : Bool := bit (b.cfg 0 0x1E4) 0
def Block.priAllocation (b : Block) : Nat := b.cfg 0 0x1EC
def Block.maxPayload (b : Block) : Nat := 128 * 2 ^ min 2 (bits (b.cfg 0 0x68) 5 3)
def Block.maxRead (b : Block) : Nat := 128 * 2 ^ min 5 (bits (b.cfg 0 0x68) 12 3)
def Block.relaxed (b : Block) : Bool := bit (b.cfg 0 0x68) 4
def Block.atomicEnabled (b : Block) : Bool := bit (b.cfg 0 0x88) 6

/-- The Completion Timeout in CLK_CORE cycles (Table EPT-7). -/
def Block.cplTimeout (b : Block) : Nat :=
  match bits (b.cfg 0 0x88) 0 4 with
  | 1 => usToCycles 80
  | 2 => msToCycles 8
  | 5 => msToCycles 40
  | 6 => msToCycles 160
  | 9 => msToCycles 700
  | 10 => msToCycles 2800
  | 13 => msToCycles 10000
  | 14 => msToCycles 50000
  | _ => msToCycles 50

/-- Whether R302 or R306 revokes function `fn`'s requests. -/
def Block.revoked (b : Block) (fn : Nat) : Bool :=
  !b.bme fn || b.is (Reg.EP_FN_STATUS.D3HOT 0) && decide (fn = 0) || b.is (Reg.EP_FN_STATUS.RESETTING fn)
    || decide (b.rd (Reg.EP_FN_STATUS.TDI_STATE fn) = 3)

/-! ### MSI-X (R303) -/

def Block.msixAllowed (b : Block) (fn vec : Nat) : Bool :=
  bit (b.cfg fn 0x50) 31 && !bit (b.cfg fn 0x50) 30 && NSet.has b.ep.msixUnmasked (fn * 2048 + vec) && !b.revoked fn

/-- Send a vector's message, or set its pending bit. -/
def Block.msix (b : Block) (fn vec : Nat) : Block :=
  if b.msixAllowed fn vec then
    ({ b with ep := { b.ep with msixPending := NSet.erase b.ep.msixPending (fn * 2048 + vec) } }).emitFrom fn (.msix fn vec)
  else { b with ep := { b.ep with msixPending := NSet.insert (fn * 2048 + vec) b.ep.msixPending } }

/-- Send every pending message of `fn` that is now allowed. -/
def Block.msixFlush (b : Block) (fn : Nat) : Block :=
  (b.ep.msixPending.filter fun k => k / 2048 = fn).foldl (fun b k =>
    if b.msixAllowed fn (k % 2048) then b.msix fn (k % 2048) else b) b

/-- RESET_SEEN of a VF, with its vector 0 (Table EPT-5). -/
def Block.resetSeen (b : Block) (fn : Nat) : Block :=
  ({ b with ep := { b.ep with
      resetSeen := NSet.insert fn b.ep.resetSeen
      resetCount := SMap.modify (fun _ => 0) b.ep.resetCount fn fun n => satAdd 16 n 1 } }).msix fn 0

/-! ### Error reporting (R297, R304) -/

def Block.epLog (b : Block) (kind fn status addr : Nat) : Block :=
  if b.is Reg.EP_ERR_LOG.VALID then b.wr Reg.EP_ERR_LOG.OVERFLOW 1
  else
    let b := b.wr Reg.EP_ERR_LOG.STATUS status
    let b := b.wr Reg.EP_ERR_LOG.FUNC fn
    let b := b.wr Reg.EP_ERR_LOG.KIND kind
    let b := b.wr Reg.EP_ERR_ADDR.ADDR addr
    b.wr Reg.EP_ERR_LOG.VALID 1

/-- The errors of Table EPT-9 that the hub itself detects, numbered in the table's order. -/
def Aer.correctedInternal : Nat := 1
def Aer.headerOverflow : Nat := 2
def Aer.advisory : Nat := 3
def Aer.poisoned : Nat := 6
def Aer.cplTimeout : Nat := 7
def Aer.completerAbort : Nat := 8
def Aer.unsupported : Nat := 9
def Aer.unexpected : Nat := 10
def Aer.ideCheck : Nat := 11
def Aer.misroutedIde : Nat := 12
def Aer.uncorrectedInternal : Nat := 13

/-- The bit of an error in the Uncorrectable or Correctable Error Status register (the base specification's places, PRESUMED,
assumption 12): true for the uncorrectable one. -/
def Aer.bit (err : Nat) : Bool × Nat :=
  if err = Aer.correctedInternal then (false, 14)
  else if err = Aer.headerOverflow then (false, 15)
  else if err = Aer.advisory then (false, 13)
  else (true, [12, 14, 15, 20, 16, 28, 29, 22].getD (err - 6) 22)

/-- Errors logged with a header. -/
def Aer.headed (err : Nat) : Bool := decide (Aer.poisoned ≤ err) && decide (err ≤ Aer.misroutedIde)

/-- The AER Uncorrectable (0x104) or Correctable (0x110) Error Status register of a function. -/
def Block.aerStatus (b : Block) (fn : Nat) (unc : Bool) : Nat :=
  let e := SMap.get (fun _ => 0) b.ep.aer fn
  (((bitList e 14).filter fun i => (Aer.bit i).1 == unc).map fun i => 2 ^ (Aer.bit i).2).sum

def Block.aerMasked (b : Block) (fn err : Nat) : Bool :=
  let p := Aer.bit err
  (b.cfg fn (if p.1 then 0x108 else 0x114)).testBit p.2

def Block.aerLog (b : Block) (fn err : Nat) : Block :=
  { b with ep := { b.ep with aer := SMap.modify (fun _ => 0) b.ep.aer fn fun n => setBits n err 1 1 } }

/-- Log one error; report it unless it is masked. -/
def Block.aerOne (b : Block) (fn err : Nat) : Block :=
  let b := b.aerLog fn err
  if b.aerMasked fn err then b else b.emit (.aer fn err)

/-- Keep an error's header if four do not wait (R304). -/
def Block.aerHeader (b : Block) (fn err : Nat) : Block :=
  if !Aer.headed err then b
  else if SMap.get (fun _ => 0) b.ep.aerHeaders fn < 4 then
    { b with ep := { b.ep with aerHeaders := SMap.modify (fun _ => 0) b.ep.aerHeaders fn fun n => n + 1 } }
  else b.aerOne fn Aer.headerOverflow

/-- Log and report an error, with its header (R304). -/
def Block.aer (b : Block) (fn err : Nat) : Block := (b.aerOne fn err).aerHeader fn err

/-- An error that the base specification makes advisory while its severity is non-fatal: logged, and reported as Advisory
Non-Fatal (Table EPT-9). -/
def Block.aerAdvisory (b : Block) (fn err : Nat) : Block :=
  if (b.cfg fn 0x10C).testBit (Aer.bit err).2 then b.aer fn err
  else if b.aerMasked fn err then b.aerLog fn err
  else ((b.aerLog fn err).aerHeader fn err).aerOne fn Aer.advisory

/-! ### Slots (R300) -/

def Block.slot (b : Block) (t : Nat) : Option HostSlot := SMap.get (fun _ => none) b.ep.slots t

/-- The generation a slot would next use: the first of its four not quarantined. -/
def Block.slotGen (b : Block) (t : Nat) : Option Nat :=
  let g := SMap.get (fun _ => 0) b.ep.slotGen t
  ((List.range 4).map fun i => (g + i) % 4).find? fun g =>
    !(b.ep.quarantine.any fun q => decide (q.slot = t) && decide (q.gen = g))

/-- The lowest slot free and not wholly quarantined. -/
def Block.freeSlot (b : Block) : Option (Nat × Nat) :=
  (List.range 4096).findSome? fun t =>
    match b.slot t with
    | some _ => none
    | none => (b.slotGen t).map fun g => (t, g)

def Block.tagStatus (b : Block) : Block :=
  (b.wr Reg.EP_TAG_STATUS.OUTSTANDING b.ep.slots.length).wr Reg.EP_TAG_STATUS.QUARANTINED b.ep.quarantine.length

/-- Send a non-posted read of `len` bytes at `pa`, or keep it waiting for a slot. -/
def Block.hostReadOut (b : Block) (n : ExtNeed) (fn pasid : Nat) (translated : Bool) (pa : Nat) (page : Option PageUse) : Block :=
  match b.freeSlot with
  | none => { b with ep := { b.ep with waiting := b.ep.waiting ++ [⟨n, pasid, translated, pa, page⟩] } }
  | some (t, g) =>
    let b := { b with ep := { b.ep with
      slots := SMap.put (fun _ => none) b.ep.slots t (some ⟨fn, g, n, pa, n.len, 0, [], b.now, b.cplTimeout, page, false⟩)
      slotGen := SMap.put (fun _ => 0) b.ep.slotGen t g } }
    -- an AtomicOp carries its operand
    let data := match n.op with
      | .add _ d => d
      | _ => []
    (b.tagStatus).emitFrom fn (.host fn (some (g * 4096 + t)) pasid translated pa n.len data false)

/-- Send the requests that waited while slots are free. -/
def Block.hostSendWaiting : Nat → Block → Block
  | 0, b => b
  | k + 1, b =>
    match b.ep.waiting with
    | [] => b
    | w :: rest =>
      if b.freeSlot.isNone then b
      else
        let fn := match w.need.target with
          | .host fn _ _ => fn
          | _ => b.fnOf (w.need.who.slice.getD 0)
        Block.hostSendWaiting k
          (({ b with ep := { b.ep with waiting := rest } } : Block).hostReadOut w.need fn w.pasid w.translated w.addr w.page)

/-- Posted writes, split by Max_Payload_Size and at 4 KiB (R299). -/
def Block.hostWriteOut : Nat → Block → (fn pasid : Nat) → Bool → (pa : Nat) → List Byte → Bool → Block
  | 0, b, _, _, _, _, _, _ => b
  | k + 1, b, fn, pasid, tr, pa, data, ro =>
    if data.isEmpty then b
    else
      let n := min (min b.maxPayload data.length) (4096 - pa % 4096)
      let b := b.emitFrom fn (.host fn none pasid tr pa n (data.take n) ro)
      Block.hostWriteOut k b fn pasid tr (pa + n) (data.drop n) ro

/-- Answer an external access. -/
def Block.extDone (b : Block) (n : ExtNeed) (st : Status) (data : List Byte) : Block :=
  { b with ext := { b.ext with
      sent := b.ext.sent.filter fun x => x ≠ n
      done := if b.ext.sent.contains n then b.ext.done ++ [⟨n, st, data⟩] else b.ext.done } }

/-- A slot's unit takes its answer, unless it is not wanted any more (R239). -/
def Block.slotDone (b : Block) (s : HostSlot) (st : Status) (data : List Byte) : Block :=
  if s.stale then b else b.extDone s.need st data

/-- Abandon a slot's request (R300, R301): its generation is quarantined, and its unit takes `st`. -/
def Block.abandonSlot (b : Block) (t : Nat) (st : Status) (byTimeout : Bool) : Block :=
  match b.slot t with
  | none => b
  | some s =>
    let q : Quarantine := ⟨t, s.gen, s.fn, s.length - s.received, byTimeout⟩
    let b := { b with ep := { b.ep with
      slots := SMap.put (fun _ => none) b.ep.slots t none
      slotGen := SMap.put (fun _ => 0) b.ep.slotGen t ((s.gen + 1) % 4)
      quarantine := b.ep.quarantine ++ [q] } }
    (b.tagStatus).slotDone s st []

/-- R302: revoke a function's requests. -/
def Block.revoke (b : Block) (fn : Nat) : Block :=
  let ts := (b.ep.slots.filter fun e => match e.2 with
    | some s => decide (s.fn = fn)
    | none => false).map fun e => e.1
  let b := ts.foldl (fun b t => b.abandonSlot t Code.HOST_ACCESS_REVOKED false) b
  let ws := b.ep.waiting.filter fun w => b.fnOf (w.need.who.slice.getD 0) = fn
  let b := ws.foldl (fun b w => b.extDone w.need Code.HOST_ACCESS_REVOKED []) b
  { b with ep := { b.ep with waiting := b.ep.waiting.filter fun w => b.fnOf (w.need.who.slice.getD 0) ≠ fn } }

end Sys2Proof.Machine
end

