-- ==== Sys2Proof/Machine/Operands.lean ====
section
/-! DEFINITION. Operand forms: pointers and their space tags (Table ARC-5, R18), the vector instruction word
(Table VEC-3), which combinations R117 forbids, and how a kernel's registers are read and written (R113–R116). -/

namespace Sys2Proof.Machine

/-! ### Pointers (Table ARC-5, R18) -/

/-- The space tag, bits [63:60]. -/
def Ptr.tag (p : Nat) : Nat := bits p 60 4

/-- Bits of the address part: 48 for tags 0 and 2, 57 for tag 1. -/
def Ptr.addrBits (tag : Nat) : Nat := if tag = 1 then 57 else 48

/-- The address part of a pointer. -/
def Ptr.addr (p : Nat) : Nat := p % 2 ^ Ptr.addrBits (Ptr.tag p)

/-- The peer index of a tag-2 pointer. -/
def Ptr.peer (p : Nat) : Nat := bits p 48 12

/-- R18: the code a pointer itself fails with, if any. -/
def Ptr.check (p : Nat) : Option Status :=
  match Ptr.tag p with
  | 0 => if bits p 48 12 = 0 then none else some 0x0103
  | 1 => if bits p 57 3 = 0 then none else some 0x0103
  | 2 => none
  | _ => some 0x0102

/-- R18: the pointer `off` bytes from `p`, keeping its tag; `none` where the address part leaves the tag's space. -/
def Ptr.add (p : Nat) (off : Int) : Option Nat :=
  let a : Int := (Ptr.addr p : Int) + off
  if a < 0 then none
  else if (2 ^ Ptr.addrBits (Ptr.tag p) : Nat) ≤ a then none
  else some (p - Ptr.addr p + a.toNat)

/-! ### The vector instruction word (Table VEC-3) -/

/-- A fetched instruction with its fields. -/
structure VInstr where
  op : Nat
  ty : Nat
  vd : Nat
  va : Nat
  vb : Nat
  msk : Nat
  men : Bool
  z : Bool
  imm : Bool
  rnd : Bool
  acc : Nat
  ext : Nat
deriving DecidableEq, Repr

def VInstr.ofWord (w : Nat) : VInstr where
  op := bits w 0 7
  ty := bits w 7 3
  vd := bits w 10 5
  va := bits w 15 5
  vb := bits w 20 5
  msk := bits w 25 3
  men := bit w 28
  z := bit w 29
  imm := bit w 30
  rnd := bit w 31
  acc := bits w 30 2
  ext := bits w 32 32

def VInstr.md (i : VInstr) : Nat := i.vd % 8
def VInstr.xd (i : VInstr) : Nat := i.vd % 16
def VInstr.ma (i : VInstr) : Nat := i.va % 8
def VInstr.xa (i : VInstr) : Nat := i.va % 16
def VInstr.mb (i : VInstr) : Nat := i.vb % 8
def VInstr.xb (i : VInstr) : Nat := i.vb % 16

/-- Register element types of Table VEC-2, as the memory formats they equal. -/
def vtype (t : Nat) : Option EFmt :=
  match t with
  | 0 => some .fp32
  | 1 => some .bf16
  | 2 => some .fp16
  | 3 => some .int32
  | 4 => some .int16
  | 5 => some .int8
  | _ => none

def vtypeW (t : Nat) : Nat := match t with
  | 0 | 3 => 32
  | 1 | 2 | 4 => 16
  | _ => 8

def isFP (t : Nat) : Bool := decide (t < 3)
def isINT (t : Nat) : Bool := decide (3 ≤ t) && decide (t < 6)

/-- Elements of width `w` in a vector register. -/
def lanes (w : Nat) : Nat := 8192 / w

/-- The iteration count N of R115. -/
def VecState.count (s : VecState) (w : Nat) : Nat := ceilDiv (s.vl * s.vew) w

/-! ### Reading and writing kernel registers -/

def VecState.vreg (s : VecState) (r : Nat) : Nat := (SMap.get (fun _ => 0) s.v r).toNat
def VecState.mreg (s : VecState) (r : Nat) : Nat := (SMap.get (fun _ => 0) s.m r).toNat

/-- x0 reads zero (Table VEC-1). -/
def VecState.xreg (s : VecState) (r : Nat) : Nat := if r = 0 then 0 else (SMap.get (fun _ => 0) s.x r).toNat

def VecState.setV (s : VecState) (r n : Nat) : VecState :=
  { s with v := SMap.put (fun _ => 0) s.v r (BitVec.ofNat 8192 n) }
def VecState.setM (s : VecState) (r n : Nat) : VecState :=
  { s with m := SMap.put (fun _ => 0) s.m r (BitVec.ofNat 1024 n) }

/-- Writes to x0 have no effect. -/
def VecState.setX (s : VecState) (r n : Nat) : VecState :=
  if r = 0 then s else { s with x := SMap.put (fun _ => 0) s.x r (BitVec.ofNat 64 n) }

/-- Element `i` of width `w` of vector register `r` (R113). -/
def VecState.elem (s : VecState) (r w i : Nat) : Nat := bits (s.vreg r) (w * i) w

def VecState.getAcc (s : VecState) (a : Nat) : Acc := SMap.get (fun _ => Acc.cleared) s.acc a
def VecState.setAcc (s : VecState) (a : Nat) (v : Acc) : VecState :=
  { s with acc := SMap.put (fun _ => Acc.cleared) s.acc a v }

def VecState.orFlags (s : VecState) (f : Nat) : VecState := { s with flags := s.flags ||| f }

/-- Whether element `e` is active (R115). -/
def VecState.active (s : VecState) (i : VInstr) (n e : Nat) : Bool :=
  decide (e < n) && (!i.men || (s.mreg i.msk).testBit e)

/-- R115 for a vector destination: element `e` below `n` takes `f e` where active; inactive ones keep or zero. Sources are
read from `s`, before any destination element is written (R116). -/
def VecState.writeElems (s : VecState) (i : VInstr) (vd w n : Nat) (f : Nat → Nat) : VecState :=
  let old := s.vreg vd
  let new := (List.range n).foldl (fun acc e =>
    if s.active i n e then setBits acc (w * e) w (f e)
    else if i.z then setBits acc (w * e) w 0 else acc) old
  s.setV vd new

/-- R115 for a mask destination, bit by bit. -/
def VecState.writeMask (s : VecState) (i : VInstr) (md n : Nat) (f : Nat → Bool) : VecState :=
  let old := s.mreg md
  let new := (List.range n).foldl (fun acc e =>
    if s.active i n e then setBits acc e 1 (b01 (f e))
    else if i.z then setBits acc e 1 0 else acc) old
  s.setM md new

/-- The flags of every active element together (R123). -/
def VecState.flagsOf (s : VecState) (i : VInstr) (n : Nat) (f : Nat → Nat) : Nat :=
  (List.range n).foldl (fun acc e => if s.active i n e then acc ||| f e else acc) 0

/-- The second operand of element `e`: register vb, or EXT broadcast (R118). -/
def VecState.opB (s : VecState) (i : VInstr) (w e : Nat) : Nat :=
  if i.imm then i.ext % 2 ^ w else s.elem i.vb w e

/-- EXT sign-extended to 64 bits (R118). -/
def VInstr.ext64 (i : VInstr) : Nat := toBits (signed i.ext 32) 64

/-- The second operand of a scalar operation. -/
def VecState.scalarB (s : VecState) (i : VInstr) : Nat := if i.imm then i.ext64 else s.xreg i.xb

/-! ### Memory operands of R124 -/

/-- OFF, signed. -/
def VInstr.off (i : VInstr) : Int := signed (bits i.ext 0 24) 24
/-- MFMT. -/
def VInstr.mfmt (i : VInstr) : Nat := bits i.ext 24 4
/-- The stride register of VLDS and VSTS. -/
def VInstr.strideX (i : VInstr) : Nat := bits i.ext 28 4

/-- The memory element index m of iteration `e` (R124): contiguous, strided by xb, or indexed by VB. -/
def VecState.memIndex (s : VecState) (i : VInstr) (e : Nat) : Int :=
  match i.op with
  | 0x10 | 0x14 => i.off + e
  | 0x11 | 0x15 => i.off + e * signed (s.xreg i.strideX) 64
  | _ => i.off + (s.elem i.vb 32 e : Nat)

/-! ### What R117 forbids -/

/-- CVT's ratio of widths: widening `(true, r)`, narrowing or equal `(false, r)`. -/
def cvtRatio (src dst : Nat) : Bool × Nat :=
  if vtypeW src < vtypeW dst then (true, vtypeW dst / vtypeW src) else (false, vtypeW src / vtypeW dst)

/-- The TYPE rule and the other combinations of each listed opcode; false for an unlisted one (R117, R122, R125, R126,
R140). Between types of one width R122 gives CVT no r that P could reach, and P is ignored (DESIGN CHOICE, assumption 64). -/
def VecState.legal (s : VecState) (i : VInstr) : Bool :=
  let any := decide (i.ty < 6)
  let fp := isFP i.ty
  let int := isINT i.ty
  let t32 := decide (i.ty = 0) || decide (i.ty = 3)
  let n := s.count (vtypeW i.ty)
  let mem (mxOk : Bool) : Bool :=
    match EFmt.ofCode i.mfmt with
    | none => false
    | some .raw => false
    | some f => !f.isMx || (mxOk && decide (i.xa ≠ 15))
  let a := s.getAcc i.acc
  let classOk := if a.isInt then int else fp
  match i.op with
  | 0x00 | 0x01 | 0x02 | 0x03 => true
  | 0x04 => any
  | 0x05 | 0x06 | 0x07 | 0x08 | 0x09 | 0x0A | 0x0B | 0x0C => true
  | 0x10 | 0x14 => any && mem true
  | 0x11 | 0x15 => any && mem false
  | 0x12 => t32 && mem true && decide (n ≤ 256)
  | 0x16 => t32 && mem false && decide (n ≤ 256)
  | 0x17 => t32 && mem false && decide (n ≤ 256) && decide (i.mfmt = if i.ty = 0 then 1 else 6)
  | 0x18 | 0x19 => true
  | 0x20 | 0x21 | 0x22 => any
  | 0x23 | 0x24 => fp
  | 0x25 | 0x26 | 0x27 => any
  | 0x28 | 0x29 | 0x2A | 0x2B => fp
  | 0x2C | 0x2D | 0x2E => int
  | 0x2F =>
    let src := bits i.ext 0 3
    any && decide (src < 6) &&
      (decide (vtypeW src = vtypeW i.ty) || decide (bits i.ext 3 2 < (cvtRatio src i.ty).2))
  | 0x30 | 0x31 | 0x32 | 0x33 | 0x34 | 0x35 | 0x36 | 0x37 => any
  | 0x38 | 0x39 | 0x3A | 0x3B => true
  | 0x3C | 0x3D | 0x3E | 0x3F | 0x40 | 0x41 | 0x42 | 0x43 | 0x44 | 0x45 | 0x46 | 0x47 | 0x48 => any
  | 0x60 => any && decide (1 ≤ bits i.ext 0 7) && decide (bits i.ext 0 7 ≤ 64)
  | 0x61 => fp && !a.isInt
  | 0x62 | 0x63 => any && classOk
  | 0x64 => decide (a.isInt = (s.getAcc (bits i.ext 0 2)).isInt)
  | 0x68 => true
  | 0x69 | 0x6A => decide (i.xd ≠ 0)
  | 0x6B => decide (i.vd ≤ 30)
  | 0x6C | 0x6D => true
  | _ => false

end Sys2Proof.Machine
end

