-- ==== Sys2Proof/Machine/XlatOps.lean ====
section
/-! DEFINITION. Translation (10): lookups, ATS requests, page requests, faults and access counters; and host memory as an
engine reads and writes it. -/

namespace Sys2Proof.Machine

/-! ### TLBs (R224–R226) -/

def TlbEntry.covers (e : TlbEntry) (fn pasid va : Nat) : Bool :=
  decide (e.fn = fn) && decide (e.pasid = pasid) && decide (e.vpage = va / 2 ^ e.log2)

/-- Whether the rights R and W suffice for an access (R231): a read needs R, a write W, an AtomicOp both. -/
def PageNeed.allowed (p : PageNeed) (r w : Bool) : Bool := (r || (p.write && !p.atomic)) && (w || !(p.write || p.atomic))

def TlbEntry.grants (e : TlbEntry) (p : PageNeed) : Bool := p.allowed e.r e.w

/-- VA[56:0] sign-extended to 64 bits (R221). -/
def Xlat.sent (va : Nat) : Nat := toBits (signed va 57) 64

/-- A need of the step in progress. -/
def Block.pageNeed (b : Block) (unit : XUnit) (pos slice va : Nat) (write pri : Bool) : PageNeed :=
  ⟨unit, pos, slice, va, write, pri, false, b.ext.lane⟩

def Tlb.set (va log2 pasid : Nat) : Nat := (va / 2 ^ log2 % 1024) ^^^ (pasid % 1024)

/-- The host physical address of `va` under an entry. -/
def TlbEntry.addr (e : TlbEntry) (va : Nat) : Nat := e.pa + va % 2 ^ e.log2

/-- Whether two entries are of one page. -/
def TlbEntry.same (x e : TlbEntry) : Bool :=
  decide (x.fn = e.fn) && decide (x.pasid = e.pasid) && decide (x.log2 = e.log2) && decide (x.vpage = e.vpage)

/-- Put an entry first, replacing any of the same page, least recently used last. -/
def Tlb.insert (cap : Nat) (e : TlbEntry) (l : List TlbEntry) : List TlbEntry := (e :: l.filter fun x => !x.same e).take cap

def Block.l1 (b : Block) (pos : Nat) : List TlbEntry := SMap.get (fun _ => []) b.xlat.l1 pos
def Block.setL1 (b : Block) (pos : Nat) (l : List TlbEntry) : Block :=
  { b with xlat := { b.xlat with l1 := SMap.put (fun _ => []) b.xlat.l1 pos l } }
def Block.l2set (b : Block) (k : Nat) : List TlbEntry := SMap.get (fun _ => []) b.xlat.l2 k
def Block.setL2 (b : Block) (k : Nat) (l : List TlbEntry) : Block :=
  { b with xlat := { b.xlat with l2 := SMap.put (fun _ => []) b.xlat.l2 k l } }

/-- The L1 a unit uses: its position's, or Denob's. -/
def PageNeed.l1 (p : PageNeed) : Nat := if p.unit = .denob then 32 else p.pos

/-- The page sizes stored (R225), log2. -/
def Tlb.sizes : List Nat := [12, 16, 21, 30]

/-- Whether an entry answers an access. -/
def TlbEntry.serves (e : TlbEntry) (p : PageNeed) (fn pasid : Nat) : Bool := e.covers fn pasid p.va && e.grants p && !e.bad

/-- An L1 hit with the right the access needs. -/
def Block.l1find (b : Block) (p : PageNeed) (fn pasid : Nat) : Option TlbEntry := (b.l1 p.l1).find? fun e => e.serves p fn pasid

/-- An L2 hit with the right the access needs: all four page sizes are probed. -/
def Block.l2find (b : Block) (p : PageNeed) (fn pasid : Nat) : Option TlbEntry :=
  Tlb.sizes.findSome? fun lg => (b.l2set (Tlb.set p.va lg pasid)).find? fun e => decide (e.log2 = lg) && e.serves p fn pasid

/-- R228: the entries that a lookup meets in the L1, and after a miss there in the L2, and whose parity fails go, and are
counted. -/
def Block.tlbScrub (b : Block) (p : PageNeed) (fn pasid : Nat) : Block :=
  let bad (e : TlbEntry) : Bool := e.bad && e.covers fn pasid p.va
  let drop (b : Block) (l : List TlbEntry) (put : Block → List TlbEntry → Block) : Block :=
    if l.any bad then (put b (l.filter fun e => !bad e)).count Reg.XL_PAR_ERR.COUNT (l.filter bad).length else b
  let b := drop b (b.l1 p.l1) fun b l => b.setL1 p.l1 l
  if (b.l1find p fn pasid).isSome then b
  else (Tlb.sizes.map fun lg => Tlb.set p.va lg pasid).eraseDups.foldl (fun b k => drop b (b.l2set k) fun b l => b.setL2 k l) b

/-- A lookup, moving what it hits to the front and counting it. -/
def Block.tlbLookup (b : Block) (p : PageNeed) (fn pasid : Nat) : Block × Option TlbEntry :=
  let b := b.tlbScrub p fn pasid
  match b.l1find p fn pasid with
  | some e => ((b.setL1 p.l1 (Tlb.insert 64 e (b.l1 p.l1))).count Reg.XL_L1_HIT.COUNT 1, some e)
  | none => match b.l2find p fn pasid with
    | some e =>
      let k := Tlb.set p.va e.log2 pasid
      let b := b.setL2 k (Tlb.insert 8 e (b.l2set k))
      ((b.setL1 p.l1 (Tlb.insert 64 e (b.l1 p.l1))).count Reg.XL_L2_HIT.COUNT 1, some e)
    | none => (b, none)

/-! ### Failures (R223, XL_FAULT_LOG) -/

def XUnit.code : XUnit → Nat
  | .cmd => 1
  | .xfer => 2
  | .red => 3
  | .denob => 4

def Block.xlatFault (b : Block) (p : PageNeed) (cause access : Nat) : Block :=
  if b.is Reg.XL_FAULT_LOG.VALID then b.wr Reg.XL_FAULT_LOG.OVERFLOW 1
  else
    let b := b.wr Reg.XL_FAULT_LOG.CAUSE cause
    let b := b.wr Reg.XL_FAULT_LOG.UNIT p.unit.code
    let b := b.wr Reg.XL_FAULT_LOG.POS (if p.unit = .denob then 0 else p.pos)
    let b := b.wr Reg.XL_FAULT_LOG.SLICE p.slice
    let b := b.wr Reg.XL_FAULT_LOG.ACCESS access
    let b := b.wr Reg.XL_FAULT_ADDR.PTR (2 ^ 60 + p.va)
    b.wr Reg.XL_FAULT_LOG.VALID 1

/-- What a translation gives: an entry, a failure with its code, or nothing yet. -/
inductive TRes where
  | ok (e : TlbEntry)
  | fail (st : Status)
  | wait
deriving DecidableEq, Repr

/-- Whether two addresses lie in one page of the function's smallest translation unit. -/
def samePage (stu a c : Nat) : Bool := decide (a / 2 ^ stu = c / 2 ^ stu)

def PageLack.covers (l : PageLack) (stu fn pasid : Nat) (p : PageNeed) : Bool :=
  decide (l.fn = fn) && decide (l.pasid = pasid) && samePage stu l.va p.va && (l.write == p.write) && (l.atomic == p.atomic)

/-- XL_FAULT_LOG.ACCESS. -/
def PageNeed.access (p : PageNeed) : Nat := if p.atomic then 3 else if p.write then 2 else 1

/-- What of its failures an access leaves behind when it ends with the one it takes: those of a transfer's other blocks. -/
def PageNeed.outlives (p q : PageNeed) : Bool :=
  if p.unit = .xfer then decide (q ≠ p) else !(decide (q.unit = p.unit) && decide (q.pos = p.pos) && decide (q.slice = p.slice))

/-- R226, R230, R233 for one page. An access that may not make a page request fails on a page it lacks; its cause is
recorded as 0x6, for a page request that is not possible (R223; DEDUCED, assumption 63). -/
def Block.translate (b : Block) (p : PageNeed) : Block × TRes :=
  let fn := b.fnOf p.slice
  let pasid := b.pasid p.slice
  let acc := p.access
  if !b.atsEnabled fn then (b.xlatFault p 1 acc, .fail Code.XLT_ATS_DISABLED)
  else
    let stu := b.stu fn
    match b.tlbLookup p fn pasid with
    | (b, some e) => (b, .ok e)
    | (b, none) =>
      match b.xlat.fails.find? fun f => decide (f.fn = fn) && decide (f.pasid = pasid) && decide (f.need = p) with
      | some f =>
        let b := { b with xlat := { b.xlat with fails := b.xlat.fails.filter fun x => p.outlives x.need } }
        (b.xlatFault p f.cause acc, .fail f.status)
      | none =>
        if !p.pri && b.xlat.lacks.any fun l => l.covers stu fn pasid p then
          let b := { b with xlat := { b.xlat with lacks := b.xlat.lacks.filter fun l => !l.covers stu fn pasid p } }
          (b.xlatFault p 6 acc, .fail Code.XLT_PAGE_FAILED)
        else (b.want (.page p), .wait)

/-! ### Access counters and the hot ring (R241, R242) -/

def Acc.set (slice va : Nat) : Nat := (va / 2 ^ 21 % 1024) ^^^ (slice % 1024)

/-- Post a hot record, or count it dropped. -/
def Block.hotRecord (b : Block) (c : AccCounter) : Block :=
  let n := b.rd Reg.XL_HOT_CFG.LOG2_SIZE
  let base := b.rd Reg.XL_HOT_BASE.BASE
  let t := b.rd Reg.XL_HOT_TAIL.INDEX
  let h := b.rd Reg.XL_HOT_HEAD.INDEX
  let full : Bool := decide ((t + 2 ^ (n + 1) - h) % 2 ^ (n + 1) = 2 ^ n)
  let baseOk : Bool := decide (Ptr.tag base = 0) && (Ptr.check base).isNone && decide (base % 4096 = 0) && b.sealable base
    && b.sealable (base + 16 * 2 ^ n - 1)
  if full || !baseOk then b.count Reg.XL_HOT_DROP.COUNT 1
  else
    let a := base + 16 * (t % 2 ^ n)
    let phase := t / 2 ^ n % 2
    let w : Who := ⟨.denob, none, 1, 0⟩
    let h1 := c.count + ((b.now - b.boot.resetAt) / 1600 % 2 ^ 48) * 2 ^ 16
    let h0 := c.slice + c.region * 2 ^ 12 + phase * 2 ^ 63
    -- the hub's own write: H1, then H0 in a separate write after it (R81)
    let b := (b.perform w (a + 8) 8 (.write (natLE 8 h1))).1
    let b := (b.perform w a 8 (.write (natLE 8 h0))).1
    b.wr Reg.XL_HOT_TAIL.INDEX ((t + 1) % 2 ^ (n + 1))

/-- Count one tag-1 request (R241). -/
def Block.countHost (b : Block) (slice va bytes : Nat) : Block :=
  if !b.is Reg.XL_CFG.ACC_EN then b
  else
    let k := Acc.set slice va
    let region := va / 2 ^ 21 % 2 ^ 36
    let l := SMap.get (fun _ => []) b.xlat.acc k
    let inc := ceilDiv bytes 256
    let thr := b.rd Reg.XL_ACC_CFG.THRESHOLD
    let old := l.find? fun c => decide (c.slice = slice) && decide (c.region = region)
    let c : AccCounter := match old with
      | some c => { c with count := satAdd 16 c.count inc }
      | none => ⟨slice, region, min inc 65535, false⟩
    let hot : Bool := decide (thr ≤ c.count) && !c.flagged && b.is Reg.XL_HOT_CFG.EN
    let c' := { c with flagged := c.flagged || hot }
    -- a region with no entry replaces the way with the lowest count, the lowest way first
    let l' := match old with
      | some o => l.map fun x => if x = o then c' else x
      | none =>
        if l.length < 4 then l ++ [c']
        else
          let m := l.foldl (fun m x => min m x.count) 65535
          match (List.range 4).find? fun i => (l.getD i c').count = m with
          | some i => l.set i c'
          | none => l
    let b := { b with xlat := { b.xlat with acc := SMap.put (fun _ => []) b.xlat.acc k l' } }
    if hot then b.hotRecord c' else b

/-! ### Host memory as an engine uses it -/

/-- Pieces of a host access that stay within `n` bytes and within 4 KiB pages, as (address, length, offset). -/
def hostPieces : (fuel : Nat) → (n a len off : Nat) → List (Nat × Nat × Nat)
  | 0, _, _, _, _ => []
  | k + 1, n, a, len, off =>
    if len = 0 then []
    else
      let m := min (min n len) (4096 - a % 4096)
      (a, m, off) :: hostPieces k n (a + m) (len - m) (off + m)

/-- The pages of `[va, va + len)`, 4 KiB each. -/
def pagesOf (va len : Nat) : List Nat := (List.range ((va + len + 4095) / 4096 - va / 4096)).map fun i => (va / 4096 + i) * 4096

/-- Translate every page of a unit of work; all that are missing are asked for together (R232). -/
def Block.translateAll (b : Block) (unit : XUnit) (pos slice : Nat) (pri : Bool) (va len : Nat) (write : Bool) :
    Block × Option Status :=
  (pagesOf va len).foldl (fun (acc : Block × Option Status) page =>
    match acc.2 with
    | some _ => acc
    | none =>
      match acc.1.translate (acc.1.pageNeed unit pos slice (max page va) write pri) with
      | (b, .fail st) => (b, some st)
      | (b, _) => (b, none)) (b, none)

/-- A read of host memory under a slice, on the function and with the PASID given; `counted` by R241, or made by the hub to
flush writes. -/
def Block.hostReadAs (b : Block) (fn pasid : Nat) (w : Who) (unit : XUnit) (pos slice : Nat) (pri counted : Bool) (va len : Nat) :
    Block × Status × List Byte :=
  match b.translateAll unit pos slice pri va len false with
  | (b, some st) => (b, st, zeros len)
  | (b, none) =>
    if b.waiting then (b, Code.SUCCESS, zeros len)
    else if b.revoked fn then (b, Code.HOST_ACCESS_REVOKED, zeros len)
    else
      (hostPieces (len / 128 + 2) b.maxRead va len 0).foldl (fun (acc : Block × Status × List Byte) c =>
        if acc.2.1 ≠ Code.SUCCESS then acc
        else
          let q := acc.1.external ⟨w, .host fn pasid c.1, c.2.1, .read, 0⟩
          (if counted then q.1.countHost slice c.1 c.2.1 else q.1, q.2.1, acc.2.2 ++ sliceBytes q.2.2 0 c.2.1))
        (b, Code.SUCCESS, [])

/-- A read of host memory under a slice (tag 1). -/
def Block.hostRead (b : Block) (w : Who) (unit : XUnit) (pos slice : Nat) (pri : Bool) (va len : Nat) :
    Block × Status × List Byte := b.hostReadAs (b.fnOf slice) (b.pasid slice) w unit pos slice pri true va len

/-- Posted writes to host memory; `ro` may set Relaxed Ordering (R299). -/
def Block.hostWrite (b : Block) (unit : XUnit) (pos slice : Nat) (pri : Bool) (va : Nat) (data : List Byte) (ro : Bool) :
    Block × Status :=
  let fn := b.fnOf slice
  match b.translateAll unit pos slice pri va data.length true with
  | (b, some st) => (b, st)
  | (b, none) =>
    if b.waiting then (b, Code.SUCCESS)
    else if b.revoked fn then (b, Code.HOST_ACCESS_REVOKED)
    else
      ((hostPieces (data.length / 128 + 2) b.maxPayload va data.length 0).foldl (fun (b : Block) c =>
        match b.translate (b.pageNeed unit pos slice c.1 true pri) with
        | (b, .ok e) =>
          let pa := if e.u then Xlat.sent c.1 else e.addr c.1
          let b := Block.hostWriteOut 2 b fn (b.pasid slice) (!e.u) pa (sliceBytes data c.2.2 c.2.1) (ro && b.relaxed)
          b.countHost slice c.1 c.2.1
        | (b, _) => b) b, Code.SUCCESS)

/-! ### Any pointer (Table ARC-5) -/

/-- The RCH_PEER entry that a peer index names for a slice (R315). -/
def Block.peerEntry (b : Block) (slice idx : Nat) : Option Nat :=
  if idx < 4095 ∧ b.is (Reg.RCH_PEER00.VALID idx) ∧ b.rd (Reg.RCH_PEER00.PARTITION idx) = b.slicePart slice ∧ slice ≠ 0
  then some idx else none

def XUnit.ofAgent : Agent → XUnit
  | .xfer _ => .xfer
  | .red _ => .red
  | .denob => .denob
  | _ => .cmd

def Agent.pos : Agent → Nat
  | .xfer p | .vec p | .red p | .collect p | .cmd p => p
  | _ => 0

/-- Read `len` bytes at a pointer whose checks of R18 have passed. -/
def Block.ptrRead (b : Block) (w : Who) (p len : Nat) : Block × Status × List Byte :=
  let slice := w.slice.getD 0
  match Ptr.tag p with
  | 0 => b.dlaRead w (Ptr.addr p) len
  | 1 => b.hostRead w (XUnit.ofAgent w.agent) w.agent.pos slice true (Ptr.addr p) len
  | _ => match b.peerEntry slice (Ptr.peer p) with
    | none => (b, Code.ADDR_UNMAPPED, zeros len)
    | some n =>
      (chunksOf (Ptr.addr p) len).foldl (fun (acc : Block × Status × List Byte) c =>
        if acc.2.1 ≠ Code.SUCCESS then acc
        else
          let q := acc.1.external ⟨w, .peer n c.1, c.2.1, .read, 0⟩
          (q.1, q.2.1, acc.2.2 ++ sliceBytes q.2.2 0 c.2.1)) (b, Code.SUCCESS, [])

/-- Write bytes at a pointer; `pri` whether a page request may be made. -/
def Block.ptrWrite (b : Block) (w : Who) (pri ro : Bool) (p : Nat) (data : List Byte) : Block × Status :=
  let slice := w.slice.getD 0
  match Ptr.tag p with
  | 0 => b.dlaWrite w (Ptr.addr p) data
  | 1 => b.hostWrite (XUnit.ofAgent w.agent) w.agent.pos slice pri (Ptr.addr p) data ro
  | _ => match b.peerEntry slice (Ptr.peer p) with
    | none => (b, Code.ADDR_UNMAPPED)
    | some n =>
      (chunksOf (Ptr.addr p) data.length).foldl (fun (acc : Block × Status) c =>
        if acc.2 ≠ Code.SUCCESS then acc
        else
          let q := acc.1.external ⟨w, .peer n c.1, c.2.1, .write (sliceBytes data c.2.2 c.2.1), 0⟩
          (q.1, q.2.1)) (b, Code.SUCCESS)

/-- A code that says a peer's sync operation could not be performed for its path or the peer (R78, R317). -/
def Status.peerLost (st : Status) : Bool := decide (0x0F01 ≤ st) && decide (st ≤ 0x0F04)

/-- Signal a sync object named by a pointer (R64, R70, R75); `src` the signaller. -/
def Block.ptrSignal (b : Block) (w : Who) (p amt : Nat) : Block × Status :=
  match Ptr.tag p with
  | 0 =>
    let r := b.dla w (Ptr.addr p) 8 (.write (natLE 8 amt))
    (r.1, r.2.1)
  | _ => match b.peerEntry (w.slice.getD 0) (Ptr.peer p) with
    | none => (b, Code.ADDR_UNMAPPED)
    | some n =>
      let r := b.external ⟨w, .peerSync n (Ptr.addr p), 8, .write (natLE 8 amt), 0⟩
      (r.1, if Status.peerLost r.2.1 then Code.SYNC_PEER_LOST else r.2.1)

/-- Whether a tag-0 pointer names an aligned sync object. -/
def Ptr.isSync (p : Nat) : Bool :=
  decide (Ptr.tag p = 0) && decide (p % 8 = 0) && decide (Dla.syncBase ≤ p) && decide (p < Dla.syncBase + 2 ^ 20)

def Ptr.obj (p : Nat) : Nat := (Ptr.addr p - Dla.syncBase) / 8

end Sys2Proof.Machine
end

