-- ==== Sys2Proof/Machine/ReachOps.lean ====
section
/-! DEFINITION. Sending on the reach ports (15): packets and frames, and the path a peer entry's requests take. -/

namespace Sys2Proof.Machine

def Rch.DOWN : Nat := 0
def Rch.TRAINING : Nat := 1
def Rch.UP : Nat := 2
def Rch.ISOLATED : Nat := 3

def Block.rport (b : Block) (p : Nat) : ReachPort := SMap.get (fun _ => ReachPort.reset) b.reach.ports p
def Block.setRPort (b : Block) (p : Nat) (v : ReachPort) : Block :=
  { b with reach := { b.reach with ports := SMap.put (fun _ => ReachPort.reset) b.reach.ports p v } }
def Block.rchUp (b : Block) (p : Nat) : Bool := decide (b.rd (Reg.RCH_STATUS.STATE p) = Rch.UP)

/-- The 48-byte header of R312. -/
def RPacket.header (p : RPacket) : Nat :=
  p.dst % 2 ^ 24 + p.src % 2 ^ 24 * 2 ^ 24 + p.slice % 4096 * 2 ^ 48 + p.kind % 16 * 2 ^ 60 + p.ensign % 8 * 2 ^ 64
    + p.tag % 2 ^ 14 * 2 ^ 67 + p.len % 256 * 2 ^ 81 + p.units % 512 * 2 ^ 89 + p.route % 2 ^ 60 * 2 ^ 98
    + p.hop % 32 * 2 ^ 158 + p.hops % 32 * 2 ^ 163 + p.relays % 16 * 2 ^ 168 + p.ret % 2 ^ 60 * 2 ^ 172
    + p.addr % 2 ^ 48 * 2 ^ 232 + p.status % 65536 * 2 ^ 280

def RPacket.bytes (p : RPacket) : List Byte := natLE 48 p.header ++ sliceBytes p.data 0 (16 * p.units)

/-- Requests travel on REQ; responses and wait notices on RSP. -/
def RPacket.isReq (p : RPacket) : Bool := decide (p.kind < 5)
def RPacket.credits (p : RPacket) : Nat := 3 + p.units

/-- Egress port of hop `h`. -/
def RPacket.egress (p : RPacket) (h : Nat) : Nat := bits p.route (2 * h) 2

/-- A header read back from its 48 bytes. -/
def RPacket.ofHeader (h : Nat) (data : List Byte) : RPacket where
  dst := bits h 0 24
  src := bits h 24 24
  slice := bits h 48 12
  kind := bits h 60 4
  ensign := bits h 64 3
  tag := bits h 67 14
  len := bits h 81 8
  units := bits h 89 9
  route := bits h 98 60
  hop := bits h 158 5
  hops := bits h 163 5
  relays := bits h 168 4
  ret := bits h 172 60
  addr := bits h 232 48
  status := bits h 280 16
  data := data

/-- The whole packets at the front of a stream, and what is left of it (R312). A unit of zeros where a header may begin, whose
KIND is none of R312's, is a frame's padding (DEDUCED, assumption 70). -/
def RPacket.split : (fuel : Nat) → List Byte → List RPacket × List Byte
  | 0, d => ([], d)
  | k + 1, d =>
    if d.length < 16 then ([], d)
    else if leNat (d.take 16) = 0 then RPacket.split k (d.drop 16)
    else
      let n := 48 + 16 * bits (leNat (d.take 48)) 89 9
      if d.length < n then ([], d)
      else
        let r := RPacket.split k (d.drop n)
        (RPacket.ofHeader (leNat (d.take 48)) ((d.take n).drop 48) :: r.1, r.2)

/-- Bytes 0–635 of a frame (R308), its reserved bits zero. -/
def RFrame.body (kind seq ack reqCr rspCr : Nat) (payload : List Byte) : List Byte :=
  sliceBytes payload 0 624 ++ natLE 12
    (seq % 65536 + ack % 65536 * 2 ^ 16 + kind % 4 * 2 ^ 32 + reqCr % 4096 * 2 ^ 34 + rspCr % 4096 * 2 ^ 46)

/-- A frame's 640 bytes. -/
def RFrame.wire (kind seq ack reqCr rspCr : Nat) (payload : List Byte) : List Byte :=
  let bs := RFrame.body kind seq ack reqCr rspCr payload
  bs ++ natLE 4 (crc32c bs)

/-- The last SEQ received in order. -/
def ReachPort.lastGood (l : ReachPort) : Nat := (l.rxNext + 65535) % 65536

/-- Put a frame on a port, with its ACK and the credits that are owed (R308). -/
def Block.rchPut (b : Block) (p kind seq : Nat) (payload : List Byte) : Block :=
  let l := b.rport p
  let q := min l.owedReq 4095
  let r := min l.owedRsp 4095
  let b := b.emit (.rframe p (RFrame.wire kind seq l.lastGood q r payload))
  b.setRPort p { l with owedReq := l.owedReq - q, owedRsp := l.owedRsp - r, framesSinceAck := 0, ackAt := b.now }

/-- A frame without DATA: 1 IDLE, 2 NAK; its payload is undefined, as R160 has it for a NAK. -/
def Block.rchBare (b : Block) (p kind : Nat) : Block :=
  let r := b.freshBytes 624
  r.1.rchPut p kind 0 r.2

/-- A CTRL frame with a message in payload unit 0 (R308). -/
def Block.rchCtrl (b : Block) (p message value : Nat) : Block :=
  (b.emit (.rctrl p message value)).rchPut p 3 0 (natLE 16 (Config.ctrlUnit message value).toNat)

/-- Send what waits for frames, while fewer than 256 are held (R308). -/
def Block.rchFrames : Nat → Block → Nat → Block
  | 0, b, _ => b
  | k + 1, b, p =>
    let l := b.rport p
    if l.txWait.isEmpty ∨ 256 ≤ l.held.length ∨ l.widthChange.isSome then b
    else
      let pl := sliceBytes l.txWait 0 624
      let b := b.rchPut p 0 l.txSeq pl
      Block.rchFrames k (b.setRPort p { b.rport p with
        txWait := l.txWait.drop 624, txSeq := (l.txSeq + 1) % 65536, held := l.held ++ [(⟨l.txSeq, pl⟩ : Frame)] }) p

/-- The next waiting packet of a channel (R313): ensign 0 first, the others in the weighted round robin of R277, and none past
an earlier one of its source, destination and route (R314). -/
def RPacket.next (turn : Nat × Nat) (q : List RPacket) : Option RPacket :=
  let same (a c : RPacket) : Bool := decide (a.src = c.src) && decide (a.dst = c.dst) && decide (a.route = c.route)
  let oldest (e : Nat) : Option RPacket := (findIdx q.length fun i => match q[i]? with
    | some k => decide (k.ensign = e) && !((q.take i).any fun j => same j k)
    | none => false).bind fun i => q[i]?
  Wrr.next turn oldest

/-- Send a channel's packets while its credits are in hand. -/
def Block.rchPump : Nat → Block → Nat → Bool → Block
  | 0, b, _, _ => b
  | n + 1, b, p, req =>
    let l := b.rport p
    let turn := if req then l.turnReq else l.turnRsp
    match RPacket.next turn (l.txq.filter fun k => k.isReq == req) with
    | none => b
    | some k =>
      let have' := if req then l.reqCr else l.rspCr
      if have' < k.credits then b
      else
        let turn := Wrr.took turn (b.rd (Reg.HY_ENS_WEIGHT.W k.ensign)) k.ensign
        let l := if req then { l with reqCr := l.reqCr - k.credits, turnReq := turn }
          else { l with rspCr := l.rspCr - k.credits, turnRsp := turn }
        let b := b.setRPort p { l with txq := l.txq.erase k, txWait := l.txWait ++ k.bytes }
        Block.rchPump n (Block.rchFrames 8 (b.emit (.reach p k)) p) p req

/-- Send what waits on a port, as far as credits allow. -/
def Block.rchSendWaiting (b : Block) (p : Nat) : Block :=
  let b := Block.rchPump ((b.rport p).txq.length + 1) b p false
  Block.rchPump ((b.rport p).txq.length + 1) b p true

/-- Send a packet on a port (R308, R313). -/
def Block.rchSend (b : Block) (p : Nat) (k : RPacket) : Block :=
  let l := b.rport p
  (b.setRPort p { l with txq := l.txq ++ [k] }).rchSendWaiting p

/-- RCH_ERR_LOG of a port. -/
def Block.rchLog (b : Block) (p kind dev : Nat) : Block :=
  b.capture (Reg.RCH_ERR_LOG.VALID p) (Reg.RCH_ERR_LOG.OVERFLOW p)
    [(Reg.RCH_ERR_LOG.KIND p, kind), (Reg.RCH_ERR_LOG.DEV p, dev)]

/-- R314: an answer to a request back to its source, on the reverse of its path or through a relay entry; dropped and
counted where no path is up, and dropped towards a neighbour that is gone (R320). `port` is where the request came in; a device on the way answers by the hops passed. -/
def Block.rchReply (b : Block) (port : Nat) (r : RPacket) (kind st : Nat) (data : List Byte) : Block :=
  let back := (List.range r.hop).foldl (fun n h => n + bits r.ret (2 * (r.hop - 1 - h)) 2 * 2 ^ (2 * h)) 0
  let path : Option (Nat × Nat) :=
    if r.relays = 0 then some (back, r.hop)
    else if !b.is Reg.RCH_DEV.RELAY_EN then none
    else (findIdx 256 fun i => b.is (Reg.RCH_RELAY00.VALID i) && decide (b.rd (Reg.RCH_RELAY00.DEV_ID i) = r.src)).map
      fun i => (b.rd (Reg.RCH_RELAY08.ROUTE i), b.rd (Reg.RCH_RELAY00.HOPS i))
  match path with
  | none => b.count (Reg.RCH_FWD_DROP.COUNT port) 1
  | some (route, hops) =>
    let out := bits route 0 2
    if (b.rport out).removed then b
    else if !b.rchUp out then b.count (Reg.RCH_FWD_DROP.COUNT out) 1
    else b.rchSend out
      { dst := r.src, src := b.rd Reg.RCH_DEV.DEV_ID, slice := r.slice, kind, ensign := r.ensign, tag := r.tag
        len := data.length - 1, units := ceilDiv data.length 16, route, hop := 1, hops, relays := 0, ret := 0, addr := 0
        status := st, data }

/-! ### Requests of this device (R315, R317, R318) -/

/-- Requests of an entry that have neither completed nor timed out. -/
def Block.rchOpen (b : Block) (entry : Nat) : List ReachReq :=
  b.reach.reqs.filter fun r => decide (r.entry = entry) && !r.late && !r.registered

def Block.rchCount (b : Block) (p : Nat) : Block :=
  b.wr (Reg.RCH_STATUS.OUTSTANDING p) (b.reach.reqs.filter fun r => decide (r.port = p) && !r.late && !r.registered).length

/-- The first-hop port of an entry's primary or alternate route. -/
def Block.entryPort (b : Block) (n : Nat) (alt : Bool) : Nat :=
  bits (b.rd (if alt then Reg.RCH_PEER10.ALT_ROUTE n else Reg.RCH_PEER08.PRI_ROUTE n)) 0 2

/-- A path of an entry is lost (R318). -/
def Block.pathLost (b : Block) (n : Nat) (alt : Bool) : Block :=
  let b := b.rchLog (b.entryPort n alt) 4 (b.rd (Reg.RCH_PEER00.DEV_ID n))
  if alt then { b with reach := { b.reach with failed := NSet.insert n b.reach.failed } }
  else { b with reach := { b.reach with priLost := NSet.insert n b.reach.priLost } }

/-- An access answered without being sent. -/
def Block.extRefuse (b : Block) (n : ExtNeed) (st : Status) : Block :=
  { b with ext := { b.ext with done := b.ext.done ++ [(⟨n, st, []⟩ : ExtDone)] } }

def Block.extSent (b : Block) (n : ExtNeed) : Block := { b with ext := { b.ext with sent := b.ext.sent ++ [n] } }

/-- The kind, address, STATUS and data of the packet of a need: reads and writes of memory, signals and resets as R77 writes
them, and waits with their target. R312 gives sync operations and waits no operand field, and seals and memory-side adds no
kind: they travel as data, with STATUS 1 for the seal of the block at ADDR and 2 + f for an add in format f (DESIGN CHOICE,
assumption 14). -/
def ExtNeed.rkind (n : ExtNeed) : Nat × Nat × Nat × List Byte :=
  let data := match n.op with
    | .write d => d
    | .add _ d => d
    | .read => []
  let rw := if n.op = .read then 1 else 2
  match n.target with
  | .peerSync _ a => (3, a, 0, data)
  | .peerWait _ a t _ => (4, a, 0, natLE 8 t)
  | .peer _ a => (rw, a, (match n.op with
    | .add f _ => 2 + f.code
    | _ => 0), data)
  | .peerSeal _ a => (rw, a, 1, data)
  | _ => (1, 0, 0, [])

/-- A tag of R312 that no request of this device uses. -/
def Block.rchTag (b : Block) : Nat :=
  let free (t : Nat) : Bool := !(b.reach.reqs.any fun r => r.tag = t)
  match ((List.range 16384).map fun i => (b.reach.nextTag + i) % 16384).find? free with
  | some t => t
  | none => match b.reach.reqs.find? fun r => r.late with
    | some r => r.tag
    | none => 0

/-- Send a need through entry `e` on its primary or alternate route. -/
def Block.rchRequest (b : Block) (n : ExtNeed) (e : Nat) (alt : Bool) : Block :=
  let p := b.entryPort e alt
  let b := { b with reach := { b.reach with
    reqs := b.reach.reqs.filter fun r => !r.registered || b.ext.sent.contains r.need } }
  let t := b.rchTag
  let (kind, a, st, data) := n.rkind
  let pk : RPacket :=
    { dst := b.rd (Reg.RCH_PEER00.DEV_ID e), src := b.rd Reg.RCH_DEV.DEV_ID, slice := b.rd (Reg.RCH_PEER00.REMOTE_SLICE e)
      kind, ensign := n.who.ensign, tag := t, len := n.len - 1, units := ceilDiv data.length 16
      route := b.rd (if alt then Reg.RCH_PEER10.ALT_ROUTE e else Reg.RCH_PEER08.PRI_ROUTE e), hop := 1
      hops := b.rd (if alt then Reg.RCH_PEER00.ALT_HOPS e else Reg.RCH_PEER00.PRI_HOPS e)
      relays := 0, ret := 0, addr := a, status := st, data }
  let b := { b with reach := { b.reach with
    reqs := (b.reach.reqs.filter fun (r : ReachReq) => r.tag ≠ t) ++ [(⟨t, p, e, alt, n, b.now, false, false⟩ : ReachReq)], nextTag := (t + 1) % 16384 } }
  ((b.extSent n).rchCount p).rchSend p pk

/-- Choose the path of a new request (R318): it goes out, waits for the primary's requests to drain, or fails. -/
def Block.rchIssue (b : Block) (n : ExtNeed) (e : Nat) : Block :=
  let drained := (b.rchOpen e).isEmpty
  if NSet.has b.reach.rewrites e && !drained then b
  else
    let b := if NSet.has b.reach.rewrites e then
        { b with reach := { b.reach with
          rewrites := NSet.erase b.reach.rewrites e, priLost := NSet.erase b.reach.priLost e
          failed := NSet.erase b.reach.failed e } }
      else b
    if NSet.has b.reach.failed e then b.extRefuse n Code.RCH_PATH_LOST
    else
      let alt := b.is (Reg.RCH_PEER00.ON_ALT e)
      let b := if !b.rchUp (b.entryPort e alt) && !(!alt && NSet.has b.reach.priLost e) then b.pathLost e alt else b
      if alt then
        if NSet.has b.reach.failed e then b.extRefuse n Code.RCH_PATH_LOST else b.rchRequest n e true
      else if !NSet.has b.reach.priLost e then b.rchRequest n e false
      else if !drained then b
      else if b.is (Reg.RCH_PEER00.ALT_VALID e) && b.rchUp (b.entryPort e true) then
        (b.wr (Reg.RCH_PEER00.ON_ALT e) 1).rchRequest n e true
      else if b.is (Reg.RCH_PEER00.ALT_VALID e) then
        ((b.wr (Reg.RCH_PEER00.ON_ALT e) 1).pathLost e true).extRefuse n Code.RCH_PATH_LOST
      else b.extRefuse n Code.RCH_PATH_LOST

end Sys2Proof.Machine
end

