-- ==== Sys2Proof/Machine/Settle.lean ====
section
/-! DEFINITION. How a step that needs something from outside waits for it (assumption 5): the step runs; if it met an access,
a directory transaction or a translation that is not there yet, nothing of it stands but the requests for what it needs,
and the same row, sent again once they are answered, finishes it. -/

namespace Sys2Proof.Machine

/-- Whether a miss shares a request in flight (R227): one of the same page, for whichever access it was sent. -/
def AtsReq.covers (r : AtsReq) (stu fn pasid : Nat) (p : PageNeed) : Bool :=
  !r.dropped && decide (r.fn = fn) && decide (r.pasid = pasid) && samePage stu r.va p.va

/-- Whether a group names, or leaves to the next, the page of a need with the right it lacks (R232). -/
def Prg.names (pages : List (Nat × Bool)) (stu : Nat) (p : PageNeed) : Bool :=
  pages.any fun q => samePage stu q.1 p.va && (q.2 || !(p.write || p.atomic))

/-- Whether an access waits for a group that is still awaited. -/
def Prg.awaits (g : Prg) (stu fn pasid : Nat) (p : PageNeed) : Bool :=
  !g.late && decide (g.fn = fn) && decide (g.pasid = pasid) && (Prg.names g.pages stu p || Prg.names g.more stu p)

def Block.xlStatus (b : Block) : Block :=
  let b := b.wr Reg.XL_STATUS.ATS_OUT b.xlat.ats.length
  let b := b.wr Reg.XL_STATUS.PRG_OUT (b.xlat.groups.filter fun g => g.idx.isSome).length
  b.wr Reg.XL_STATUS.INV_OUT b.xlat.invs.length

/-- Put an ATS request on the link (R229). -/
def Block.atsEmit (b : Block) (r : AtsReq) : Block :=
  let stu := b.stu r.fn
  let b := b.count Reg.XL_ATS_REQ.COUNT 1
  b.emitFrom r.fn (.ats r.tag r.fn r.pasid (Xlat.sent (r.va / 2 ^ stu * 2 ^ stu)) (!r.write))

/-- Join an ATS request in flight, or send one if there is room (R227). -/
def Block.atsAsk (b : Block) (p : PageNeed) : Block :=
  let fn := b.fnOf p.slice
  let pasid := b.pasid p.slice
  let stu := b.stu fn
  if (b.xlat.ats.any fun r => r.covers stu fn pasid p) then
    let join (r : AtsReq) : AtsReq :=
      if r.covers stu fn pasid p && !r.units.contains p then { r with units := r.units ++ [p] } else r
    { b with xlat := { b.xlat with ats := b.xlat.ats.map join } }
  else if b.rd Reg.XL_ATS_CFG.MAX_OUTSTANDING ≤ b.xlat.ats.length then b
  else
    let tag := ((List.range 512).find? fun t => !(b.xlat.ats.any fun r => r.tag = t)).getD 0
    let r : AtsReq := ⟨tag, fn, pasid, p.va, p.write, [p], false, false, false, b.now⟩
    (({ b with xlat := { b.xlat with ats := b.xlat.ats ++ [r] } } : Block).atsEmit r).xlStatus

/-- Pages asked for and not answered, over every function (R233). -/
def Block.pagesOut (b : Block) : Nat :=
  ((b.xlat.groups.filter fun g => g.idx.isSome).map fun g => g.pages.length).sum

/-- Send a waiting group if an index and the allocation allow (R233). -/
def Block.prgSend (b : Block) (g : Prg) : Block :=
  let used := (b.xlat.groups.filter fun x => x.fn = g.fn).filterMap fun x => x.idx
  if b.priAllocation < b.pagesOut + g.pages.length then b
  else match findIdx 512 fun i => !used.contains i with
    | none => b
    | some i =>
      let b := { b with xlat := { b.xlat with groups := b.xlat.groups.map fun x =>
        if x = g then { g with idx := some i, since := b.now } else x } }
      let n := g.pages.length
      let b := (List.range n).foldl (fun b k =>
        match g.pages[k]? with
        | some (va, w) => b.emitFrom g.fn (.pageReq g.fn i g.pasid (Xlat.sent va) w (decide (k + 1 = n)))
        | none => b) b
      (b.count Reg.XL_PRG_SENT.COUNT 1).xlStatus

/-- Fail a translation for the access that waits for it. -/
def Block.xlFail (b : Block) (fn pasid : Nat) (p : PageNeed) (st cause : Nat) : Block :=
  let f : XFail := ⟨p, fn, pasid, st, cause⟩
  { b with xlat := { b.xlat with
      lacks := b.xlat.lacks.filter fun l => !l.covers (b.stu fn) fn pasid p
      fails := if b.xlat.fails.contains f then b.xlat.fails else b.xlat.fails ++ [f] } }

/-- The page requests of needs: each page once, with write access where one of them needs it (R232). -/
def Prg.pagesOf (stu : Nat) (ps : List PageNeed) : List (Nat × Bool) :=
  let base (p : PageNeed) : Nat := p.va / 2 ^ stu * 2 ^ stu
  (ps.map base).eraseDups.map fun a => (a, ps.any fun p => decide (base p = a) && (p.write || p.atomic))

/-- Join the groups that name a need's page. -/
def Block.prgJoin (b : Block) (stu fn pasid : Nat) (p : PageNeed) : Block :=
  let join (g : Prg) : Prg := if g.awaits stu fn pasid p && !g.units.contains p then { g with units := g.units ++ [p] } else g
  { b with xlat := { b.xlat with groups := b.xlat.groups.map join } }

/-- The pages of a step's needs that want a page request, in one group of GROUP_PAGES at most; what is beyond waits for the
next (R232). A need whose page a group names already waits for that one. -/
def Block.prgAsk (b : Block) (ps : List PageNeed) : Block :=
  let wants := ps.filter fun p =>
    let fn := b.fnOf p.slice
    p.pri && b.xlat.lacks.any fun l => l.covers (b.stu fn) fn (b.pasid p.slice) p && !l.asked
  match wants with
  | [] => b
  | p :: _ =>
    let fn := b.fnOf p.slice
    let pasid := b.pasid p.slice
    let stu := b.stu fn
    if !b.priEnabled || NSet.has b.xlat.stopped fn then
      wants.foldl (fun b q => b.xlFail fn pasid q Code.XLT_PAGE_FAILED 6) b
    else
      let named (q : PageNeed) : Bool := b.xlat.groups.any fun g => g.awaits stu fn pasid q
      let new := wants.filter fun q => !named q
      let b := (wants.filter named).foldl (fun b q => b.prgJoin stu fn pasid q) b
      if new.isEmpty then b
      else
        let pages := Prg.pagesOf stu new
        let n := b.rd Reg.XL_PRI_CFG.GROUP_PAGES
        let g : Prg := ⟨fn, none, p.slice, b.gen p.slice, pasid, pages.take n, pages.drop n, new, b.now, false⟩
        ({ b with xlat := { b.xlat with groups := b.xlat.groups ++ [g] } } : Block).prgSend g

/-- Send the request of one access outside the hub. -/
def Block.extIssue (b : Block) (n : ExtNeed) : Block :=
  if b.ext.sent.contains n then b
  else match n.target with
    | .window s off =>
      (b.extSent n).hubRequest s (.window n) (match n.op with
        | .write d => ⟨0x02, ceilDiv d.length 16, 0, n.len - 1, 0, 0xFFF, 0, off, 0, d⟩
        | _ => ⟨0x01, 0, 0, n.len - 1, 0, 0xFFF, 0, off, 0, []⟩)
    | .host fn pasid va =>
      let sl := n.who.slice.getD 0
      let p := b.pageNeed (XUnit.ofAgent n.who.agent) n.who.agent.pos sl va false true
      match (b.l1find p fn pasid).or (b.l2find p fn pasid) with
      | none => b
      | some e =>
        (b.extSent n).hostReadOut n fn pasid (!e.u) (if e.u then Xlat.sent va else e.addr va)
          (some ⟨e.vpage * 2 ^ e.log2, e.log2, e.g⟩)
    | .peer e _ | .peerSeal e _ | .peerSync e _ | .peerWait e _ _ _ => b.rchIssue n e

/-- Bring a directory transaction that an access waits for to its turn (R211). -/
def Block.lineIssue (b : Block) (line : Nat) (write : Bool) : Block :=
  let b := if b.coh.waiting.contains (line, write) then b
    else { b with coh := { b.coh with waiting := b.coh.waiting ++ [(line, write)] } }
  b.lineStart line

/-- Ask for what a step needs. -/
def Block.issue (b : Block) (ns : List Need) : Block :=
  let b := ns.foldl (fun b n => match n with
    | .ext e => b.extIssue e
    | .line l w => b.lineIssue l w
    | .frame _ | .stripe _ | .dram _ => b
    | .page p =>
      let fn := b.fnOf p.slice
      let b := b.tlbScrub p fn (b.pasid p.slice)
      if (b.xlat.lacks.any fun l => l.covers (b.stu fn) fn (b.pasid p.slice) p && !l.asked) then b else b.atsAsk p) b
  b.prgAsk (ns.filterMap fun n => match n with
    | .page p => some p
    | _ => none)

/-- Run a step that may have to wait. -/
def Block.settle (b : Block) (f : Block → Block) : Block :=
  let b' := f b
  if b'.waiting then b.issue b'.ext.need
  else { b' with ext := { b'.ext with
      used := [], done := b'.ext.done.filter fun d => !b'.ext.used.contains d.need } }

/-- Run a step for a transfer slot: its translations are known by the slot. -/
def Block.inLane (b : Block) (lane : Nat) (f : Block → Block) : Block :=
  let b := f { b with ext := { b.ext with lane := lane } }
  { b with ext := { b.ext with lane := 0 } }

/-- Forget the accesses that `gone` picks: what translation finds for them is nobody's (R107). -/
def Block.xlatForget (b : Block) (gone : PageNeed → Bool) : Block :=
  { b with xlat := { b.xlat with
      ats := b.xlat.ats.map fun r => { r with units := r.units.filter fun p => !gone p }
      groups := b.xlat.groups.map fun g => { g with units := g.units.filter fun p => !gone p }
      fails := b.xlat.fails.filter fun f => !gone f.need } }

/-- Forget what a slice's ended work had outside (R267, R302). -/
def Block.extDrop (b : Block) (p : ExtNeed → Bool) : Block :=
  { b with ext := { b.ext with
      done := b.ext.done.filter fun d => !p d.need
      sent := b.ext.sent.filter fun n => !p n } }

end Sys2Proof.Machine
end

