-- ==== Sys2Proof/Machine/Inputs.lean ====
section
/-! DEFINITION. The operands of commands as the machine's own data. -/

namespace Sys2Proof.Machine

def AddFmt.of : AddFormat → AddFmt
  | .int32 => .int32
  | .int64 => .int64
  | .fp32 => .fp32
  | .bf16 => .bf16

def Agent.of : Requester → Agent
  | .xfer p => .xfer p
  | .vec p => .vec p
  | .red p => .red p
  | .cmd p => .cmd p
  | .siteCore s c => .siteCore s c
  | .site s => .siteWhole s
  | .denob => .denob
  | .manager => .manager
  | .host f => .host f
  | .reach p => .reach p
  | .security => .security
  | .boot => .boot

def MemOp.of (len : Nat) : MemKind → MemOp
  | .read => .read
  | .write d => .write (sliceBytes d 0 len)
  | .add f d => .add (AddFmt.of f) (sliceBytes d 0 len)

/-- A request as a memory sees it. -/
def MemReq.of (c : MemCmd) : MemReq where
  who := ⟨Agent.of c.requester, c.slice.map fun s => s.val, c.ensign, c.port⟩
  addr := c.addr.toNat
  len := c.len1.val + 1
  op := MemOp.of (c.len1.val + 1) c.kind
  tag := c.tag.toNat

/-- Whether a request stays in one aligned 256-byte chunk, as every request does (R26). -/
def MemReq.whole (r : MemReq) : Bool := decide (r.addr % 256 + r.len ≤ 256)

end Sys2Proof.Machine
end

