-- ==== Sys2Proof/Machine/HoistOps.lean ====
section
/-! DEFINITION. Queues as every engine and control command uses them (03): the next command, the checks at issue, issue,
completion with its signal and entries, handles, and the completion ring. -/

namespace Sys2Proof.Machine

/-! ### Queue states and requesters -/

def Q.DISABLED : Nat := 0
def Q.RUNNING : Nat := 1
def Q.PAUSED : Nat := 2
def Q.ERROR : Nat := 3

/-- The Halyard port of an agent (Table HAL-1). -/
def Block.portOf (b : Block) : Agent → Nat
  | .xfer p | .vec p | .red p | .collect p | .cmd p => 32 + b.srcPos p
  | .siteCore s _ | .siteWhole s => 68 + s
  | .denob => 93
  | .manager | .host _ => 92
  | .reach p => 98 + p
  | .security => 94
  | .boot => 104
  | .coherence => 96

def Block.mkWho (b : Block) (a : Agent) (slice : Option Nat) (ensign : Nat) : Who := ⟨a, slice, ensign, b.portOf a⟩

def Block.home (b : Block) (s c : Nat) : Nat := b.rd (Reg.SL_Q_CFG.HOME s c)
def Block.qState (b : Block) (s c : Nat) : Nat := b.rd (Reg.SL_Q_STATUS.STATE s c)
def Block.setQState (b : Block) (s c st : Nat) : Block := b.wr (Reg.SL_Q_STATUS.STATE s c) st
def Block.q (b : Block) (s c : Nat) : QueueState := b.queue (4 * s + c)
def Block.setQ (b : Block) (s c : Nat) (v : QueueState) : Block := b.setQueue (4 * s + c) v
def Block.modQ (b : Block) (s c : Nat) (f : QueueState → QueueState) : Block := b.setQ s c (f (b.q s c))
def Block.modSlice (b : Block) (s : Nat) (f : SliceState → SliceState) : Block := b.setSlice s (f (b.slice s))

/-- The command processor of a queue, at its default ensign (R59). -/
def Block.qWho (b : Block) (s c : Nat) : Who :=
  b.mkWho (.cmd (b.home s c)) (some s) (b.rd (Reg.SL_Q_CFG.DEF_ENSIGN s c))

/-- INFLIGHT and DEPTH; a stopping queue whose last command has completed is DISABLED (R85). -/
def Block.qStatus (b : Block) (s c : Nat) : Block :=
  let q := b.q s c
  let b := b.wr (Reg.SL_Q_STATUS.INFLIGHT s c) q.inflight.length
  let b := b.wr (Reg.SL_Q_STATUS.DEPTH s c) q.stack.length
  if q.stopping ∧ q.inflight.isEmpty then
    (b.modQ s c fun q => { q with stopping := false, fetched := [], replay := [], stack := [], resume := none, fail := none, block := none }).setQState
      s c Q.DISABLED
  else b

/-! ### Command fields (Tables HST-3, HST-5) -/

def FCmd.w (c : FCmd) (i : Nat) : Nat := c.words.getD i 0
def FCmd.opcode (c : FCmd) : Nat := bits (c.w 0) 0 8
def FCmd.ensign (c : FCmd) : Nat := bits (c.w 0) 8 3
def FCmd.ensignOvr (c : FCmd) : Bool := bit (c.w 0) 11
def FCmd.pos (c : FCmd) : Nat := bits (c.w 0) 12 5
def FCmd.waitPrev (c : FCmd) : Bool := bit (c.w 0) 17
def FCmd.cpl (c : FCmd) : Bool := bit (c.w 0) 18
def FCmd.sigAmt (c : FCmd) : Nat := bits (c.w 0) 20 12
def FCmd.user (c : FCmd) : Nat := bits (c.w 0) 32 32
def FCmd.sigPtr (c : FCmd) : Nat := c.w 1

/-- Table HST-4. -/
def Hoist.listed (op : Nat) : Bool := [0x01, 0x02, 0x03, 0x04, 0x05, 0x10, 0x11, 0x12, 0x13, 0x20, 0x21, 0x22, 0x23].contains op

/-- Table HST-1: whether class `c` accepts a listed opcode. -/
def Hoist.accepts (c op : Nat) : Bool :=
  decide (0x10 ≤ op) || (match c with
    | 0 => decide (op = 0x01)
    | 1 => decide (op = 0x02) || decide (op = 0x03)
    | 2 => decide (op = 0x04)
    | _ => decide (op = 0x05))

/-- R62: the effective ensign, and whether an override was refused. -/
def Block.effEnsign (b : Block) (s c : Nat) (cmd : FCmd) : Nat × Bool :=
  let allowed := (b.rd (Reg.SL_Q_CFG.ENSIGN_MASK s c)).testBit cmd.ensign && decide (cmd.ensign ≠ 0)
  if cmd.ensignOvr && allowed then (cmd.ensign, false) else (b.rd (Reg.SL_Q_CFG.DEF_ENSIGN s c), cmd.ensignOvr)

/-! ### Checks at issue (R65) -/

/-- A sync pointer field: its tag is allowed, and a tag-0 one names an aligned object. -/
def Hoist.syncPtrOk (p : Nat) : Bool := Ptr.isSync p || decide (Ptr.tag p = 2)

/-- What a row adds to the common checks: its pointer fields that R18 checks, and whether its fields are in range. -/
structure CmdCheck where
  ptrs : List Nat
  ok : Bool
deriving DecidableEq, Repr

/-- R65 for one command: none where it may be issued. -/
def Hoist.check (c : Nat) (cmd : FCmd) (k : CmdCheck) : Option Status :=
  if !Hoist.listed cmd.opcode then some Code.HOIST_BAD_OPCODE
  else if !Hoist.accepts c cmd.opcode then some Code.HOIST_WRONG_QUEUE
  else
    let ptrs := if cmd.sigAmt = 0 then k.ptrs else cmd.sigPtr :: k.ptrs
    match ptrs.findSome? Ptr.check with
    | some st => some st
    | none =>
      if k.ok && (decide (cmd.sigAmt = 0) || Hoist.syncPtrOk cmd.sigPtr) then none else some Code.HOIST_BAD_FIELD

/-! ### The completion ring (R81–R83, R236) -/

/-- The three words E1–E3 and E0 of an entry at a tail index of wrap bit `phase` (Table HST-7). -/
def CEntry.e0 (e : CEntry) (phase : Nat) : Nat := e.handle + e.status * 2 ^ 32 + e.kind * 2 ^ 48 + phase * 2 ^ 63
def CEntry.e13 (e : CEntry) : List Byte :=
  natLE 8 (e.user + e.cls * 2 ^ 32 + e.index * 2 ^ 34) ++ natLE 8 e.count ++ natLE 8 e.time

/-- The position on whose behalf an entry is written: its queue's home, or for a handle's the home of queue 0. -/
def Block.entryPos (b : Block) (s : Nat) (e : CEntry) : Nat :=
  match e.owner with
  | some (q, _) => b.home s (q % 4)
  | none => b.home s 0

def Block.cringFull (b : Block) (s : Nat) : Bool :=
  let n := b.rd (Reg.SL_CRING_CFG.LOG2_SIZE s)
  decide ((b.rd (Reg.SL_CRING_TAIL.INDEX s) + 2 ^ (n + 1) - b.rd (Reg.SL_CRING_HEAD.INDEX s)) % 2 ^ (n + 1) = 2 ^ n)

/-- Write an entry at the tail: E1–E3, then E0 after them. -/
def Block.cringWrite (b : Block) (s : Nat) (e : CEntry) : Block × Status :=
  let n := b.rd (Reg.SL_CRING_CFG.LOG2_SIZE s)
  let t := b.rd (Reg.SL_CRING_TAIL.INDEX s)
  let base := b.rd (Reg.SL_CRING_BASE.BASE s)
  let p := base + 32 * (t % 2 ^ n)
  let w := b.mkWho (.cmd (b.entryPos s e)) (some s) e.ensign
  match Ptr.check p with
  | some st => (b, st)
  | none =>
    if 2 ≤ Ptr.tag p then (b, Code.ADDR_UNMAPPED)
    else match b.ptrWrite w true false (p + 8) e.e13 with
      | (b, st) =>
        if st ≠ Code.SUCCESS then (b, st)
        else b.ptrWrite w true false p (natLE 8 (e.e0 (t / 2 ^ n % 2)))

/-- Remove a completed command. -/
def Block.dropRec (b : Block) (s c id : Nat) : Block :=
  (b.modQ s c fun q => { q with inflight := q.inflight.filter fun r => r.id ≠ id }).qStatus s c

/-- R83: count a posted entry and send the vector when it is due. -/
def Block.cringIrq (b : Block) (s : Nat) (urgent : Bool) : Block :=
  if !b.is (Reg.SL_CRING_CFG.IRQ_EN s) then b
  else
    let v := b.slice s
    if urgent ∨ b.rd (Reg.SL_CRING_CFG.COALESCE_CNT s) ≤ v.posted + 1 ∨ b.rd (Reg.SL_CRING_CFG.COALESCE_US s) = 0 then
      (b.setSlice s { v with posted := 0, firstAt := none }).msix (b.fnOf s) (b.rd (Reg.SL_CRING_CFG.VECTOR s))
    else b.setSlice s { v with posted := v.posted + 1, firstAt := some (v.firstAt.getD b.now) }

/-- LIVE of SL_HANDLE_STATUS. -/
def Block.handleLive (b : Block) (s : Nat) : Block := b.wr (Reg.SL_HANDLE_STATUS.LIVE s) (b.slice s).handles.length

/-- A stall of the ring: its pennant once, since when, and whether translation caused it (R236). -/
def Block.cringStall (b : Block) (s : Nat) (e : CEntry) (xlt : Bool) : Block :=
  let v := b.slice s
  let b := b.wr (Reg.SL_CRING_STATUS.FULL s) 1
  match v.stall with
  | some _ => b
  | none =>
    let t := b.rd (Reg.SL_CRING_TAIL.INDEX s) % 2 ^ b.rd (Reg.SL_CRING_CFG.LOG2_SIZE s)
    let a := Ptr.addr (b.rd (Reg.SL_CRING_BASE.BASE s)) + 32 * t
    (b.setSlice s { v with stall := some (b.now, xlt) }).pennant (b.srcPos (b.entryPos s e)) Kind.CRING_STALL s a

/-- Post waiting entries in order while the ring takes them (R81, R82). -/
def Block.postEntries : Nat → Block → Nat → Block
  | 0, b, _ => b
  | k + 1, b, s =>
    let v := b.slice s
    match v.entries with
    | [] => b.wr (Reg.SL_CRING_STATUS.FULL s) 0
    | e :: rest =>
      if e.kind = 1 ∧ bits e.handle 16 4 ≠ b.gen s % 16 then
        Block.postEntries k ((b.setSlice s { v with entries := rest }).count (Reg.SL_CRING_STATUS.STALE s) 1) s
      else if b.cringFull s then b.wr (Reg.SL_CRING_STATUS.FULL s) 1
      else if decide (Ptr.tag (b.rd (Reg.SL_CRING_BASE.BASE s)) = 1) && b.revoked (b.fnOf s) then
        b.wr (Reg.SL_CRING_STATUS.FULL s) 1
      else
        match b.cringWrite s e with
        | (b', st) =>
          if b'.waiting then
            -- the write waits for a translation, a directory transaction or a link
            let b := b.issue b'.ext.need
            b.wr (Reg.SL_CRING_STATUS.FULL s) 1
          else if st ≠ Code.SUCCESS then
            -- what the failed write left (a page fault logged, a pennant) stands; the entry waits
            b'.cringStall s e (decide (st = Code.XLT_PAGE_FAILED) || decide (st = Code.XLT_ATS_FAILED)
              || decide (st = Code.XLT_ATS_DISABLED))
          else
            let n := b'.rd (Reg.SL_CRING_CFG.LOG2_SIZE s)
            let b := b'.wr (Reg.SL_CRING_TAIL.INDEX s) ((b'.rd (Reg.SL_CRING_TAIL.INDEX s) + 1) % 2 ^ (n + 1))
            let b := b.modSlice s fun v => { v with entries := rest, stall := none }
            let b := match e.owner with
              | some (q, id) => b.dropRec s (q % 4) id
              | none => if e.kind = 1 then
                  (b.modSlice s fun v => { v with handles := v.handles.filter fun h => h.seq ≠ e.handle % 65536 }).handleLive s
                else b
            Block.postEntries k (b.cringIrq s (decide (e.kind = 3))) s

/-- Add an entry behind those that wait, and post what can be posted. -/
def Block.addEntry (b : Block) (s : Nat) (e : CEntry) : Block :=
  let b := b.modSlice s fun v => { v with entries := v.entries ++ [e] }
  Block.postEntries ((b.slice s).entries.length + 1) b s

/-! ### What Denob keeps (11) -/

def Block.dnPart (b : Block) (p : Nat) : DnPart := SMap.get (fun _ => DnPart.reset) b.dn.parts p
def Block.setDnPart (b : Block) (p : Nat) (v : DnPart) : Block :=
  { b with dn := { b.dn with parts := SMap.put (fun _ => DnPart.reset) b.dn.parts p v } }
def Block.modDnPart (b : Block) (p : Nat) (f : DnPart → DnPart) : Block := b.setDnPart p (f (b.dnPart p))
def Block.dnSlice (b : Block) (s : Nat) : DnSlice := SMap.get (fun _ => DnSlice.reset) b.dn.slices s
def Block.setDnSlice (b : Block) (s : Nat) (v : DnSlice) : Block :=
  { b with dn := { b.dn with slices := SMap.put (fun _ => DnSlice.reset) b.dn.slices s v } }
def Block.modDnSlice (b : Block) (s : Nat) (f : DnSlice → DnSlice) : Block := b.setDnSlice s (f (b.dnSlice s))

/-- A field of DN_PART_CFG as it last took effect, at a step boundary. -/
def DnPart.field (v : DnPart) (f : Fld) : Nat :=
  bits (match f.off % 0x20 with
    | 0 => v.conf.1
    | 8 => v.conf.2.1
    | _ => v.conf.2.2) f.lo f.w
def Block.dnCfg (b : Block) (p : Nat) (f : Nat → Fld) : Nat := (b.dnPart p).field (f p)

def Block.serveSlice (b : Block) (p : Nat) : Nat := b.dnCfg p Reg.DN_PART_CFG08.SERVE_SLICE

/-- An adapter copy that Denob wrote at index `ring` of its serving slice's queue 0 has ended (R252). -/
def Block.copyEnded (b : Block) (s ring : Nat) (st : Status) : Block :=
  let slot (x : Nat × Option AdSlot) : Nat × Option AdSlot := match x.2 with
    | some a => if a.copying = some ring ∧ a.copied = none then (x.1, some { a with copied := some st }) else x
    | none => x
  let part (e : Nat × DnPart) : Nat × DnPart :=
    if e.2.field (Reg.DN_PART_CFG08.SERVE_SLICE e.1) = s then (e.1, { e.2 with slots := e.2.slots.map slot }) else e
  { b with dn := { b.dn with parts := b.dn.parts.map part } }

/-! ### Errors and completion (R64, R84) -/

/-- The queue enters ERROR for `cmd`; one already in ERROR keeps its first failure. -/
def Block.queueError (b : Block) (s c : Nat) (cmd : FCmd) (f : QFail) (st : Status) : Block :=
  if b.qState s c = Q.ERROR then b
  else
    let b := (b.modQ s c fun q => { q with fail := some f }).setQState s c Q.ERROR
    let b := b.wr (Reg.SL_Q_STATUS.ERR_STATUS s c) st
    let b := b.wr (Reg.SL_Q_ERR.INDEX s c) cmd.ring
    let b := b.wr (Reg.SL_Q_ERR.LIST_INDEX s c) cmd.listIdx
    b.wr (Reg.SL_Q_ERR.DEPTH s c) cmd.depth

def QBlock.id : QBlock → Nat
  | .wait i => i
  | .fence i _ => i
  | .mark i => i
  | .handle i _ => i

/-- A command of queue `q` has written host memory at `va` (R72). -/
def Block.hostWrote (b : Block) (q slice va : Nat) : Block :=
  b.setQueue q { b.queue q with hostDirty := some ⟨b.fnOf slice, b.pasid slice, va⟩ }

/-- A completed read at `va` has flushed queue `q`'s host writes up to the last one there (R72). -/
def Block.hostFlushed (b : Block) (q slice va : Nat) : Block :=
  if (b.queue q).hostDirty = some ⟨b.fnOf slice, b.pasid slice, va⟩ then b.setQueue q { b.queue q with hostDirty := none } else b

/-- Make a queue's posted host writes visible at system scope: one read of 4 bytes at the last address written, on the
function and with the PASID of that write, if no read has flushed it since (R72, R299). -/
def Block.flushHost (b : Block) (s c ensign : Nat) : Block × Status :=
  match (b.q s c).hostDirty with
  | none => (b, Code.SUCCESS)
  | some d =>
    match b.hostReadAs d.fn d.pasid (b.mkWho (.cmd (b.home s c)) (some s) ensign) .cmd (b.home s c) s true false d.addr 4 with
    | (b, st, _) => if b.waiting then (b, Code.SUCCESS) else (b.modQ s c fun q => { q with hostDirty := none }, st)

/-- Signal an object for a command; at a peer only after its host writes are visible at system scope (R64, R70). -/
def Block.signalAfter (b : Block) (s c : Nat) (r : CmdRec) (p amt : Nat) : Block × Status :=
  match (if Ptr.tag p = 2 then b.flushHost s c r.ensign else (b, Code.SUCCESS)) with
  | (b, st) =>
    if b.waiting || decide (st ≠ Code.SUCCESS) then (b, st)
    else b.ptrSignal (b.mkWho (.cmd (b.home s c)) (some s) r.ensign) p amt

/-- A successful command's completion signal (R64): the status it leaves. -/
def Block.completionSignal (b : Block) (s c : Nat) (r : CmdRec) (st : Status) : Block × Status :=
  if st = Code.SUCCESS ∧ r.cmd.sigAmt ≠ 0 then b.signalAfter s c r r.cmd.sigPtr r.cmd.sigAmt else (b, st)

/-- Complete a command once its signal is performed (R64, R81, R84): ERROR, its entry; without an entry it leaves at once. -/
def Block.completeRec (b : Block) (s c : Nat) (r : CmdRec) (st : Status) (cnt : Nat) : Block :=
  let b := b.modQ s c fun q => { q with
    block := match q.block with
      | some k => if k.id = r.id then none else some k
      | none => none }
  let b := if st ≠ Code.SUCCESS then b.queueError s c r.cmd (.cmd r.cmd) st else b
  let b := if c = 0 then b.copyEnded s r.cmd.ring st else b
  if st = Code.SUCCESS ∧ !r.cmd.cpl then b.dropRec s c r.id
  else
    let b := b.modQ s c fun q => { q with
      inflight := q.inflight.map fun x => if x.id = r.id then { x with posting := true } else x }
    b.addEntry s
      { kind := if st = Code.SUCCESS then 2 else 3, handle := 0, status := st, user := r.cmd.user, cls := c
        index := r.cmd.ring, count := cnt, time := b.resetNs, owner := some (4 * s + c, r.id), ensign := r.ensign }

/-- Complete an issued command whose work ended with `st`. -/
def Block.completeCmd (b : Block) (s c id : Nat) (st : Status) (cnt : Nat) : Block :=
  match (b.q s c).inflight.find? fun r => r.id = id with
  | none => b
  | some r =>
    if r.posting then b
    else match b.completionSignal s c r st with
      | (b, st) => b.completeRec s c r st cnt

/-- An engine reports its command done (R64); COMMAND_COMPLETE completes it. -/
def Block.reportCmd (b : Block) (q id : Nat) (st : Status) (cnt : Nat) : Block :=
  b.setQueue q { b.queue q with
    inflight := (b.queue q).inflight.map fun r => if r.id = id ∧ r.result.isNone then { r with result := some (st, cnt) } else r }

/-! ### Issue (R60) -/

/-- The next command of a queue: one to be replayed first. -/
def QueueState.front (q : QueueState) : Option FCmd := q.replay.head?.or q.fetched.head?

def QueueState.pop (q : QueueState) : QueueState :=
  match q.replay with
  | _ :: r => { q with replay := r }
  | [] => { q with fetched := q.fetched.drop 1 }

/-- Once its last command to be replayed is issued, the queue goes on with the stack it had (R337). -/
def QueueState.replayed (q : QueueState) : QueueState :=
  match q.replay, q.resume with
  | [], some st => { q with stack := st, resume := none }
  | _, _ => q

/-- Whether the queues of a slice work at all (R261, R345, R386). -/
def Block.sliceRuns (b : Block) (s : Nat) : Bool :=
  decide (b.sliceState s = Slice.OPEN) && !b.is Reg.MH_STATUS.DEVICE_FATAL && !b.boot.draining

/-- Whether the queue may issue `cmd` now. -/
def Block.mayIssue (b : Block) (s c : Nat) (cmd : FCmd) : Bool :=
  let q := b.q s c
  b.sliceRuns s && decide (b.qState s c = Q.RUNNING) && !q.stopping && !q.held && q.block.isNone && decide (q.inflight.length < 32)
    && (!cmd.waitPrev || q.inflight.isEmpty) && !NSet.has b.boot.halted (b.home s c)

/-- Issue the queue's next command if it is one of `op` and may be issued: it is checked (R65), then `run` takes it from
there, with its command id. -/
def Block.issueNext (b : Block) (s c : Nat) (is' : Nat → Bool) (chk : Block → FCmd → CmdCheck)
    (run : Block → FCmd → Nat → Block) : Block :=
  match (b.q s c).front with
  | none => b
  | some cmd =>
    if !is' cmd.opcode ∨ !b.mayIssue s c cmd then b
    else
      let (ens, clamp) := b.effEnsign s c cmd
      let id := (b.q s c).nextId
      let k := chk b cmd
      let b := if clamp then b.wr (Reg.SL_Q_STATUS.ENSIGN_CLAMP s c) 1 else b
      let r : CmdRec := ⟨id, cmd, b.epoch s, ens, none, false, false⟩
      let logged := (b.rd (Reg.SL_MARK_CFG.QMASK s)).testBit c
      let b := (b.modQ s c fun q => { q.pop with
        inflight := q.inflight ++ [r], nextId := id + 1, lastIssue := b.now
        log := if logged then q.log ++ [cmd] else q.log }).qStatus s c
      let b := match Hoist.check c cmd k with
        | some st => b.completeCmd s c id st 0
        | none => run b cmd id
      if (b.q s c).resume.isSome && (b.q s c).replay.isEmpty then (b.modQ s c QueueState.replayed).qStatus s c else b

/-- Whether every command issued before `id` has completed. -/
def QueueState.isFirst (q : QueueState) (id : Nat) : Bool := q.inflight.all fun r => decide (id ≤ r.id)

/-! ### Handles (R79, R80) -/

def Handle.number (s gen seq : Nat) : Nat := s * 2 ^ 20 + gen % 16 * 2 ^ 16 + seq % 65536

/-- Take a new handle of slice `s`, or none at its limit (R79, R265). -/
def Block.newHandle (b : Block) (s : Nat) : Block × Option Nat :=
  let lim := min 256 (b.rd (Reg.SL_QUOTA.HANDLES s))
  let v := b.slice s
  if lim ≤ v.handles.length then (b, none)
  else
    let seq := b.rd (Reg.SL_HANDLE_STATUS.NEXT_SEQ s)
    let b := b.setSlice s { v with handles := v.handles ++ [(⟨seq, [], none⟩ : Handle)] }
    ((b.wr (Reg.SL_HANDLE_STATUS.NEXT_SEQ s) ((seq + 1) % 65536)).handleLive s, some seq)

/-- A long operation under handle `seq` of slice `s` ends with `st`: arranged signals, blocked queues, and its entry. -/
def Block.endHandle (b : Block) (s seq : Nat) (st : Status) (cnt : Nat) : Block :=
  match (b.slice s).handles.find? fun h => h.seq = seq with
  | none => b.count (Reg.SL_CRING_STATUS.STALE s) 1
  | some h =>
    let b := h.signals.foldl (fun b g =>
      (b.ptrSignal (b.mkWho (.cmd (b.home s g.cls)) (some s) g.ensign) g.ptr g.amt).1) b
    let b := b.modSlice s fun v => { v with
      handles := v.handles.map fun x => if x.seq = seq then { x with done := some st, signals := [] } else x }
    let b := (List.range 4).foldl (fun b c =>
      match (b.q s c).block with
      | some (.handle id q) => if q = seq then b.completeCmd s c id Code.SUCCESS 0 else b
      | _ => b) b
    b.addEntry s ⟨1, Handle.number s (b.gen s) seq, st, 0, 0, 0, cnt, b.resetNs, none, max 1 (b.rd (Reg.SL_Q_CFG.DEF_ENSIGN s 0))⟩

end Sys2Proof.Machine
end

