-- ==== Sys2Proof/Machine/TransferOps.lean ====
section
/-! DEFINITION. The transfer engine (04): descriptors, traversal, conversion of a block, seals, cursors and early ends. -/

namespace Sys2Proof.Machine

/-! ### Positions -/

def Block.xslot (b : Block) (p n : Nat) : Option XSlot := SMap.get (fun _ => none) (b.posState p).slots n
def Block.setXslot (b : Block) (p n : Nat) (v : Option XSlot) : Block :=
  b.modPos p fun s => { s with slots := SMap.put (fun _ => none) s.slots n v }

/-- The requester of a job's accesses. -/
def Block.jobWho (b : Block) (a : Agent) (j : Job) : Who := b.mkWho a (some j.slice) j.ensign

/-- The job of a command being issued. -/
def Block.mkJob (b : Block) (s c : Nat) (cmd : FCmd) (id : Nat) : Job :=
  ⟨s, b.gen s, b.epoch s, 4 * s + c, id, (b.effEnsign s c cmd).1, cmd.words⟩

/-! ### Slot registers (XF_STATUS, XF_SLOT_STATE) -/

def XSlot.stateCode (v : XSlot) : Nat :=
  if v.phase = .ending then 3 else if v.fault.isSome then 2 else 1

/-- The lane of a slot (`ExtState.lane`). -/
def Xfr.lane (p n : Nat) : Nat := 1 + 8 * p + n

/-- Put a slot's record and the registers that show it. Translation keeps nothing for a transfer that has ended. -/
def Block.putSlot (b : Block) (p n : Nat) (v : Option XSlot) : Block :=
  let b := if v.all fun v => v.phase = .ending then b.xlatForget fun q => decide (q.lane = Xfr.lane p n) else b
  let b := b.setXslot p n v
  let act := b.rd (Reg.XF_STATUS.ACTIVE p)
  let fw := b.rd (Reg.XF_STATUS.FAULT_WAIT p)
  let b := b.wr (Reg.XF_STATUS.ACTIVE p) (setBits act n 1 (b01 v.isSome))
  match v with
  | none =>
    let b := b.wr (Reg.XF_STATUS.FAULT_WAIT p) (setBits fw n 1 0)
    b.wr (Reg.XF_SLOT_STATE.STATE p n) 0
  | some v =>
    let b := b.wr (Reg.XF_STATUS.FAULT_WAIT p) (setBits fw n 1 (b01 v.fault.isSome))
    let b := b.wr (Reg.XF_SLOT_STATE.SLICE p n) v.job.slice
    let b := b.wr (Reg.XF_SLOT_STATE.STATE p n) v.stateCode
    let b := b.wr (Reg.XF_SLOT_STATE.DELIVERED p n) v.next
    match v.fault with
    | some q => b.wr (Reg.XF_SLOT_FAULT.PTR p n) q.1
    | none => b

/-! ### The descriptor (Tables XFR-1 and XFR-2) -/

structure XDim where
  count : Nat
  src : Int
  dst : Int
deriving DecidableEq, Repr

structure XDesc where
  srcPtr : Nat
  dstPtr : Nat
  srcFmt : EFmt
  dstFmt : EFmt
  /-- DST_FMT's code -/
  dstCode : Nat
  mode : Nat
  stoch : Bool
  sealGen : Nat
  sealChk : Nat
  chkEpoch : Bool
  expEpoch : Nat
  rawLog2 : Nat
  srcOff : Nat
  dstOff : Nat
  srcScale : Nat
  dstScale : Nat
  indexPtr : Nat
  indexLimit : Nat
  seed : Nat
  dims : List XDim
deriving DecidableEq, Repr

/-- Bits of one element in memory. -/
def XDesc.bitsOf (d : XDesc) (f : EFmt) : Nat := if f = .raw then 8 * 2 ^ d.rawLog2 else f.bits

/-- Destination elements of one 4,096-byte stream block (R100). -/
def XDesc.perBlock (d : XDesc) : Nat :=
  if d.dstFmt = .mxE3m2 ∨ d.dstFmt = .mxE2m3 then 5440 else 4096 * 8 / d.bitsOf d.dstFmt

def XDesc.elems (d : XDesc) : Nat := d.dims.foldl (fun n x => n * x.count) 1

/-- B of R100. -/
def XDesc.blocks (d : XDesc) : Nat := ceilDiv d.elems d.perBlock

def XDesc.useIndex (d : XDesc) : Bool := decide (d.mode ≠ 0)

/-- The pointers R18 checks, those ignored left out (R87). -/
def XDesc.ptrs (d : XDesc) : List Nat :=
  [d.srcPtr, d.dstPtr] ++ (if d.srcFmt.isMx then [d.srcScale] else []) ++ (if d.dstFmt.isMx then [d.dstScale] else [])
    ++ (if d.useIndex then [d.indexPtr] else [])

/-- Table XFR-4. -/
def Xfr.minLen (ndim : Nat) : Nat := if ndim ≤ 2 then 2 else if ndim ≤ 5 then 3 else 4

/-- R87–R89, R92, R96: the descriptor that `len` × 64 bytes spell, or the code of the first check that fails. -/
def XDesc.parse (len : Nat) (bs : List Byte) : Except Status XDesc :=
  let w (o : Nat) : Nat := leAt bs o 8
  let c := w 0x10
  let ndim := bits c 8 3
  let fmt (lo : Nat) : EFmt := (EFmt.ofCode (bits c lo 4)).getD .raw
  let d : XDesc :=
    { srcPtr := w 0, dstPtr := w 8, srcFmt := fmt 0, dstFmt := fmt 4, dstCode := bits c 4 4, mode := bits c 11 2, stoch := bit c 13
      sealGen := bits c 14 2, sealChk := bits c 16 2, chkEpoch := bit c 18, expEpoch := bits c 20 12
      rawLog2 := bits c 32 3, srcOff := bits (w 0x18) 0 40, dstOff := bits (w 0x20) 0 40, srcScale := w 0x28
      dstScale := w 0x30, indexPtr := w 0x38, indexLimit := bits (w 0x40) 0 32, seed := bits (w 0x40) 32 32
      dims := (List.range ndim).map fun i =>
        let o := 0x48 + 0x18 * i
        ⟨bits (w o) 0 32, signed (w (o + 8)) 64, signed (w (o + 16)) 64⟩ }
  let listed := (EFmt.ofCode (bits c 0 4)).isSome && (EFmt.ofCode (bits c 4 4)).isSome
  let strideOk (x : Int) : Bool := decide (x.natAbs < 2 ^ 40)
  let d0 := d.dims.getD 0 ⟨0, 0, 0⟩
  let ranges : Bool := listed && decide (1 ≤ ndim) && decide (ndim ≤ 6) && decide (d.sealGen < 3) && decide (d.sealChk < 3)
    && (!(decide (d.srcFmt = .raw) || decide (d.dstFmt = .raw)) || decide (d.rawLog2 ≤ 4))
    && (d.dims.all fun x => decide (1 ≤ x.count) && strideOk x.src && strideOk x.dst)
    && decide (Ptr.tag d.dstPtr ≠ 1 ∨ d.mode ≠ 3)
    && (!d.srcFmt.isMx || decide (Ptr.tag d.srcScale = Ptr.tag d.srcPtr))
    && (!d.dstFmt.isMx || decide (Ptr.tag d.dstScale = Ptr.tag d.dstPtr))
    && (!d.useIndex || (decide (Ptr.tag d.indexPtr < 2) && decide (d.indexPtr % 4 = 0)))
    && decide (Xfr.minLen ndim ≤ len) && decide (d.blocks < 2 ^ 40) && (!d.useIndex || decide (2 ≤ ndim))
  let mxOk : Bool := !d.dstFmt.isMx || (decide (d0.dst = 1) && decide (d0.count % 32 = 0) && decide (d.dstOff % 32 = 0)
    && ((d.dims.drop 1).all fun x => decide (x.dst % 32 = 0))
    && (!(decide (d.dstFmt = .mxE3m2) || decide (d.dstFmt = .mxE2m3)) || decide (d.dstPtr % 4096 = 0)))
  match d.ptrs.findSome? Ptr.check with
  | some st => .error st
  | none =>
    if !ranges || !mxOk then .error Code.XFER_BAD_DESC
    else if !pairAllowed d.srcFmt d.dstFmt then .error Code.XFER_BAD_CONVERSION
    else if d.mode = 3 ∧ d.dstFmt ≠ .fp32 ∧ d.dstFmt ≠ .bf16 ∧ d.dstFmt ≠ .int32 then .error Code.XFER_BAD_CONVERSION
    else .ok d

/-- Insertion by |DST_STRIDE|. -/
def XDim.insert (x : XDim) : List XDim → List XDim
  | [] => [x]
  | y :: ys => if x.dst.natAbs < y.dst.natAbs then x :: y :: ys else y :: XDim.insert x ys

/-- R93: no two tuples name one destination element. -/
def XDesc.separable (d : XDesc) : Bool :=
  let ds := (d.dims.filter fun x => x.count ≠ 1).foldl (fun acc x => XDim.insert x acc) []
  (ds.foldl (fun (acc : Bool × Nat) x =>
    (acc.1 && decide (acc.2 < x.dst.natAbs), acc.2 + (x.count - 1) * x.dst.natAbs)) (true, 0)).1

/-- Whether R93 requires block order. -/
def XDesc.ordered (d : XDesc) : Bool := decide (2 ≤ d.mode) || !d.separable

/-! ### Traversal (R90) -/

/-- The tuple at stream index `n`, i0 first. -/
def XDesc.tuple (d : XDesc) (n : Nat) : List Nat :=
  (d.dims.foldl (fun (acc : List Nat × Nat) x => (acc.1 ++ [acc.2 % x.count], acc.2 / x.count)) ([], n)).1

def XDesc.row (d : XDesc) (n : Nat) : Nat := (d.tuple n).getD 1 0

/-- What an element of the stream is: its index entry's row made zero or skipped, its source and destination elements. -/
structure XElem where
  n : Nat
  zero : Bool
  skip : Bool
  es : Int
  ed : Int
deriving DecidableEq, Repr

/-- The element at stream index `n`; `entry` is its index entry. -/
def XDesc.elem (d : XDesc) (n entry : Nat) : XElem :=
  let t := d.tuple n
  let i1 := t.getD 1 0
  let rs := if d.mode = 1 then entry else i1
  let rd := if 2 ≤ d.mode then entry else i1
  let sum (f : XDim → Int) (r : Nat) : Int := ((List.range d.dims.length).map fun k =>
    (if k = 1 then (r : Int) else (t.getD k 0 : Nat)) * f (d.dims.getD k ⟨0, 0, 0⟩)).foldl (· + ·) 0
  let none' := d.useIndex && decide (entry = 0xFFFFFFFF)
  { n, zero := none' && decide (d.mode = 1), skip := none' && decide (2 ≤ d.mode)
    es := d.srcOff + sum XDim.src rs, ed := d.dstOff + sum XDim.dst rd }

/-- Where element `e` of an array in format `f` begins: its byte offset and the bit in that byte (R90, R91). -/
def XDesc.place (d : XDesc) (f : EFmt) (e : Nat) : Nat × Nat :=
  match f with
  | .mxE2m1 => (e / 2, 4 * (e % 2))
  | .mxE3m2 | .mxE2m3 =>
    let m := e / 32
    let o := 6 * (e % 32)
    (4096 * (m / 170) + 24 * (m % 170) + o / 8, o % 8)
  | _ => (e * (d.bitsOf f / 8), 0)

/-- The bytes element `e` touches: offset and length. -/
def XDesc.span (d : XDesc) (f : EFmt) (e : Nat) : Nat × Nat :=
  let p := d.place f e
  (p.1, (p.2 + d.bitsOf f + 7) / 8)

/-! ### Reading -/

/-- A preparation under way: the machine, beats and seals it has, and the first failure met. -/
structure XPrep where
  b : Block
  staged : List (Nat × List Byte)
  verified : List (Nat × Nat)
  got : List (Nat × List Byte)
  seals : List (Nat × Nat)
  fail : Option XFault

/-- What a preparation must read, in order: a beat, or a whole block with its seal. -/
inductive XRead where
  | beat (p : Nat)
  | block (p : Nat)
deriving DecidableEq, Repr

/-- The pieces of a read as it is made: 256-byte requests, or host reads of Max_Read_Request_Size. -/
def Block.pieces (b : Block) (p len : Nat) : List (Nat × Nat × Nat) :=
  if Ptr.tag p = 1 then hostPieces (len / 128 + 2) b.maxRead p len 0 else chunksOf p len

/-- A translation's failure, where the transfer engine has its own code (Table XLT-1). -/
def Xfr.code (st : Status) : Status :=
  if st = Code.XLT_PAGE_FAILED ∨ st = Code.XLT_ATS_FAILED ∨ st = Code.XLT_ATS_DISABLED then Code.XFER_FAULT_UNRESOLVED else st

/-- Read `len` bytes at a pointer piece by piece; the first piece that fails ends it. -/
def Block.xferRead (b : Block) (w : Who) (p len : Nat) : Block × Option XFault × List Byte :=
  (b.pieces p len).foldl (fun (acc : Block × Option XFault × List Byte) c =>
    if acc.2.1.isSome then acc
    else match acc.1.ptrRead w c.1 c.2.1 with
      | (b, st, ds) =>
        if st = Code.SUCCESS then (b, none, acc.2.2 ++ sliceBytes ds 0 c.2.1) else (b, some ⟨Xfr.code st, c.1, 0⟩, acc.2.2))
    (b, none, [])

/-- Whether a pointer lies in the shelf or HBM, on this device or a peer. -/
def Block.inMemory (b : Block) (p : Nat) : Bool :=
  if Ptr.tag p = 0 then b.sealable (Ptr.addr p)
  else if Ptr.tag p = 2 then
    decide (Ptr.addr p < 2 ^ 29) || (decide (Dla.hbmBase ≤ Ptr.addr p) && decide (Ptr.addr p < Dla.hbmBase + 2 ^ 39))
  else false

/-- A 4 KiB block and its seal, on this device or a peer. -/
def Block.readSealed (b : Block) (w : Who) (p : Nat) : Block × Option XFault × List Byte × Nat :=
  match b.xferRead w p 4096 with
  | (b, some f, ds) => (b, some f, ds, 0)
  | (b, none, ds) =>
    if Ptr.tag p = 0 then
      let r := b.dlaSeal w (Ptr.addr p)
      (r.1, if r.2.1 = Code.SUCCESS then none else some ⟨r.2.1, p, 0⟩, ds, r.2.2)
    else match b.peerEntry (w.slice.getD 0) (Ptr.peer p) with
      | none => (b, some ⟨Code.ADDR_UNMAPPED, p, 0⟩, ds, 0)
      | some e =>
        let r := b.external ⟨w, .peerSeal e (Ptr.addr p), 8, .read, 0⟩
        (r.1, if r.2.1 = Code.SUCCESS then none else some ⟨r.2.1, p, 0⟩, ds, leNat r.2.2)

/-- Table XFR-8: a seal's check against its block's bytes; `require` the SEAL_CHK 2 column, `epoch` one that must match.
The code, and whether the pennant is SEAL_CRC. -/
def Seal.verify (ds : List Byte) (sl : Nat) (require : Bool) (epoch : Option Nat) : Option (Status × Bool) :=
  if !Seal.present sl then (if require then some (Code.XFER_SEAL_ABSENT, false) else none)
  else if Seal.crc sl ≠ crc32c ds then some (Code.XFER_SEAL_MISMATCH, true)
  else match epoch with
    | some e => if Seal.epochOf sl = e then none else some (Code.XFER_SEAL_EPOCH, false)
    | none => none

/-- The pennant of a failed verification (R106): it names the block's DLA and the stored PRODUCER. -/
def Block.sealPennant (b : Block) (pos : Nat) (crc : Bool) (producer addr : Nat) : Block :=
  b.pennant (b.srcPos pos) (if crc then Kind.SEAL_CRC else Kind.SEAL_OTHER) producer addr

/-- Perform one read of a preparation. -/
def XPrep.perform (x : XPrep) (d : XDesc) (pos : Nat) (w : Who) (r : XRead) : XPrep :=
  if x.fail.isSome then x
  else match r with
    | .beat p =>
      let q := x.b.xferRead w p 64
      { x with b := q.1.count (Reg.XF_RD_BYTES.COUNT pos) 64, fail := q.2.1, got := x.got ++ [(p, sliceBytes q.2.2 0 64)] }
    | .block p =>
      match x.b.readSealed w p with
      | (b, fail, ds, sl) =>
        let b := b.count (Reg.XF_RD_BYTES.COUNT pos) 4096
        let x := { x with
          b := b, fail := fail
          got := x.got ++ (List.range 64).map fun i => (p + 64 * i, sliceBytes ds (64 * i) 64)
          seals := x.seals ++ [(p, sl)], verified := ((p, sl) :: x.verified.filter fun e => e.1 ≠ p).take 64 }
        if fail.isSome ∨ b.waiting then x
        else
          let b := if Seal.present sl then b.count (Reg.XF_SEAL_CHK.COUNT pos) 1 else b
          match Seal.verify ds sl (decide (d.sealChk = 2)) (if d.chkEpoch then some d.expEpoch else none) with
          | none => { x with b := b }
          | some (st, crc) =>
            let b := (b.count (Reg.XF_SEAL_FAIL.COUNT pos) 1).sealPennant pos crc (Seal.producer sl) (Ptr.addr p)
            { x with b := b, fail := some ⟨st, p, Seal.producer sl⟩ }

/-- Read a run of host beats as the endpoint splits it (R299). -/
def XPrep.hostRun (x : XPrep) (pos : Nat) (w : Who) (p n : Nat) : XPrep :=
  if x.fail.isSome then x
  else
    let q := x.b.xferRead w p (64 * n)
    { x with
      b := q.1.count (Reg.XF_RD_BYTES.COUNT pos) (64 * n), fail := q.2.1
      got := x.got ++ (List.range n).map fun i => (p + 64 * i, sliceBytes q.2.2 (64 * i) 64) }

/-- Perform reads in order, consecutive host beats together. -/
def XPrep.performAll (d : XDesc) (pos : Nat) (w : Who) : List XRead → Option (Nat × Nat) → XPrep → XPrep
  | [], none, x => x
  | [], some (p, n), x => x.hostRun pos w p n
  | .beat q :: rs, run, x =>
    match run with
    | some (p, n) =>
      if q = p + 64 * n then XPrep.performAll d pos w rs (some (p, n + 1)) x
      else
        let x := x.hostRun pos w p n
        if Ptr.tag q = 1 then XPrep.performAll d pos w rs (some (q, 1)) x
        else XPrep.performAll d pos w rs none (x.perform d pos w (.beat q))
    | none =>
      if Ptr.tag q = 1 then XPrep.performAll d pos w rs (some (q, 1)) x
      else XPrep.performAll d pos w rs none (x.perform d pos w (.beat q))
  | r :: rs, some (p, n), x => XPrep.performAll d pos w rs none ((x.hostRun pos w p n).perform d pos w r)
  | r :: rs, none, x => XPrep.performAll d pos w rs none (x.perform d pos w r)

/-- The staging buffer as reads are planned: beats staged (most recent first), blocks verified, reads to make. -/
structure XPlan where
  staged : List Nat
  fresh : List Nat
  verified : List Nat
  reads : List XRead

/-- One beat that an element needs: staged, part of a block that is verified now, or to be read (Table XFR-11). -/
def XPlan.need (x : XPlan) (check : Bool) (beat : Nat) : XPlan :=
  if x.staged.contains beat then { x with staged := beat :: x.staged.erase beat }
  else
    let blk := beat / 4096 * 4096
    let x := { x with staged := (beat :: x.staged).take 1024 }
    if check && !x.verified.contains blk then
      { x with verified := (blk :: x.verified).take 64, reads := x.reads ++ [.block blk], fresh := blk :: x.fresh }
    else if x.fresh.contains blk then x
    else { x with reads := x.reads ++ [.beat beat] }

/-- The 64-byte beats of `[p, p + len)`. -/
def Xfr.beats (p len : Nat) : List Nat := (List.range ((p + len + 63) / 64 - p / 64)).map fun i => (p / 64 + i) * 64

/-- Bytes of a prepared source. -/
def XPrep.bytes (x : XPrep) (p len : Nat) : List Byte :=
  (List.range len).map fun i =>
    let a := p + i
    let beat := a / 64 * 64
    match x.got.reverse.find? fun e => e.1 = beat with
    | some e => e.2.getD (a % 64) 0
    | none => match x.staged.find? fun e => e.1 = beat with
      | some e => e.2.getD (a % 64) 0
      | none => 0

/-! ### Converting a block (R94–R99) -/

/-- An element's source as read: the element's bits and, for an MX source, its scale. -/
structure XSrc where
  elem : XElem
  raw : Nat
  scale : Nat
deriving DecidableEq, Repr

def XDesc.valueOf (d : XDesc) (s : XSrc) : Val :=
  if s.elem.zero then .fin false 0 0
  else if d.srcFmt.isMx then mxValue d.srcFmt s.scale s.raw else d.srcFmt.value s.raw

/-- A non-MX destination element. -/
def XDesc.convert (d : XDesc) (s : XSrc) : Conv :=
  if s.elem.zero then ⟨0, false⟩
  else if d.srcFmt = d.dstFmt then ⟨s.raw % 2 ^ d.bitsOf d.dstFmt, false⟩
  else convertTo d.dstFmt (roundingOf d.stoch d.seed s.elem.n) (d.valueOf s)

/-- Pack `w`-bit elements, lowest first, into bytes. -/
def packBits (w : Nat) (xs : List Nat) : List Byte :=
  natLE ((w * xs.length + 7) / 8) ((List.range xs.length).foldl (fun acc i => acc + (xs.getD i 0 % 2 ^ w) <<< (w * i)) 0)

/-- An MX block of 32 stream elements: its scale, its elements, and SAT (R96, R98). -/
def XDesc.mxOf (d : XDesc) (g : List XSrc) : Nat × List Nat × Bool :=
  let s0 := g.head?.getD ⟨⟨0, true, false, 0, 0⟩, 0, 0⟩
  let same : Bool := decide (d.srcFmt = d.dstFmt) && decide (s0.elem.es % 32 = 0) && !s0.elem.zero
    && (List.range 32).all fun i => decide (((g.getD i s0).elem.es) = s0.elem.es + (i : Int))
  if same then (s0.scale, g.map fun s => s.raw, false)
  else
    let r := mxBlock d.dstFmt (fun i => roundingOf d.stoch d.seed (g.getD i s0).elem.n) (g.map d.valueOf)
    (r.1, r.2.map fun c => c.bits, r.2.any fun c => c.sat)

/-- Groups of 32. -/
def groups32 : (fuel : Nat) → List XSrc → List (List XSrc)
  | 0, _ => []
  | _, [] => []
  | k + 1, l => l.take 32 :: groups32 k (l.drop 32)

/-- The writes of a block and its SAT flag. -/
def XDesc.writesOf (d : XDesc) (ss : List XSrc) : List XWrite × Bool :=
  if d.dstFmt.isMx then
    (groups32 ss.length ss).foldl (fun (acc : List XWrite × Bool) g =>
      match g.head? with
      | none => acc
      | some s =>
        if s.elem.skip then acc
        else
          let e := s.elem.ed.toNat
          let (sc, els, sat) := d.mxOf g
          let p := d.dstPtr + (d.place d.dstFmt e).1
          (acc.1 ++ [⟨p, packBits d.dstFmt.bits els, false⟩, ⟨d.dstScale + e / 32, [BitVec.ofNat 8 sc], true⟩], acc.2 || sat))
      ([], false)
  else
    ss.foldl (fun (acc : List XWrite × Bool) s =>
      if s.elem.skip then acc
      else
        let c := d.convert s
        let n := d.bitsOf d.dstFmt / 8
        (acc.1 ++ [⟨d.dstPtr + s.elem.ed.toNat * n, natLE n c.bits, false⟩], acc.2 || c.sat)) ([], false)

/-- Join writes that follow one another in ascending addresses. -/
def XWrite.join : List XWrite → List XWrite
  | [] => []
  | w :: ws =>
    match XWrite.join ws with
    | [] => [w]
    | v :: vs => if v.ptr = w.ptr + w.data.length then { w with data := w.data ++ v.data } :: vs else w :: v :: vs

/-! ### R93: destination elements that overlap source elements -/

def XSlot.ownAt (o : SMap (Option OwnByte)) (a : Nat) : Option OwnByte := SMap.get (fun _ => none) o a

/-- The source bytes at a tag-0 pointer as they are taken where the transfer has written some of them itself: all as they
were, or all as it left them; which is an open value. -/
def Xfr.takeOwn (b : Block) (o : SMap (Option OwnByte)) (p : Nat) (ds : List Byte) : Block × List Byte :=
  let pick (late : Bool) : List Byte := (List.range ds.length).map fun i =>
    match XSlot.ownAt o (p + i) with
    | none => ds.getD i 0
    | some v => if late then v.after else v.before
  if pick false = pick true then (b, pick false)
  else
    let r := b.fresh
    (r.1, pick (bit r.2 0))

/-- Note bytes that the transfer writes, beside what lay there. -/
def Xfr.noteOwn (b : Block) (w : Who) (o : SMap (Option OwnByte)) (x : XWrite) (add : Option AddFmt) : SMap (Option OwnByte) :=
  let old := (b.dlaRead w (Ptr.addr x.ptr) x.data.length).2.2
  let cur := (List.range x.data.length).map fun i => match XSlot.ownAt o (x.ptr + i) with
    | some v => v.after
    | none => old.getD i 0
  let new := match add with
    | none => x.data
    | some f => addBytes f x.data.length cur x.data
  (List.range x.data.length).foldl (fun o i =>
    let before := match XSlot.ownAt o (x.ptr + i) with
      | some v => v.before
      | none => old.getD i 0
    SMap.put (fun _ => none) o (x.ptr + i) (some ⟨before, new.getD i 0⟩)) o

/-- Whether the bytes that MODE 0 reads and writes may meet. -/
def XDesc.mayOverlap (d : XDesc) : Bool :=
  let box (f : XDim → Int) (off : Nat) (bits ptr : Nat) : Int × Int :=
    let lo := d.dims.foldl (fun a x => a + min 0 (f x * (x.count - 1 : Nat))) (off : Int)
    let hi := d.dims.foldl (fun a x => a + max 0 (f x * (x.count - 1 : Nat))) (off : Int)
    ((ptr : Int) + lo * bits / 8 - 8192, (ptr : Int) + (hi + 1) * bits / 8 + 8192)
  let s := box XDim.src d.srcOff (d.bitsOf d.srcFmt) (Ptr.addr d.srcPtr)
  let t := box XDim.dst d.dstOff (d.bitsOf d.dstFmt) (Ptr.addr d.dstPtr)
  decide (Ptr.tag d.srcPtr = 0) && decide (Ptr.tag d.dstPtr = 0)
    && (d.useIndex || d.srcFmt.isMx || d.dstFmt.isMx || (decide (s.1 < t.2) && decide (t.1 < s.2)))

/-! ### Preparing and performing a block (R101, R105–R107) -/

/-- Whether a page is at hand with the right an access needs. -/
def Block.pageReady (b : Block) (p : PageNeed) : Bool :=
  let fn := b.fnOf p.slice
  let pasid := b.pasid p.slice
  (b.l1find p fn pasid).isSome || (b.l2find p fn pasid).isSome

/-- Make the translations of tag-1 spans that are missing; the first that fails. -/
def Block.xferPages (b : Block) (pos slice : Nat) (spans : List (Nat × Nat)) (write : Bool) : Block × Option XFault :=
  let host := spans.filter fun s => Ptr.tag s.1 = 1
  let pages := (host.flatMap fun s => pagesOf (Ptr.addr s.1) s.2).eraseDups
  -- the first address on each page that the block needs
  let first (page : Nat) : Nat := ((host.find? fun s => (pagesOf (Ptr.addr s.1) s.2).contains page).map fun s =>
    max page (Ptr.addr s.1)).getD page
  (pages.map first).foldl (fun (acc : Block × Option XFault) va =>
    let need := acc.1.pageNeed .xfer pos slice va write true
    if acc.2.isSome || acc.1.pageReady need then acc
    else match acc.1.translate need with
      | (b, .fail st) => (b, some ⟨Xfr.code st, 2 ^ 60 + va, 0⟩)
      | (b, _) => (b, none)) (b, none)

/-- The outcome of preparing a block: the machine, the slot, what it writes with SAT, its seal's source; or a failure. -/
structure XReady where
  b : Block
  v : XSlot
  begun : XBegun
  fail : Option XFault

/-- The index entries of a block's rows, in row order. -/
def Block.xferIndex (b : Block) (pos : Nat) (w : Who) (d : XDesc) (rows : List Nat) : Block × Option XFault × List (Nat × Nat) :=
  if !d.useIndex then (b, none, [])
  else
    let at' (i : Nat) : Nat := d.indexPtr + 4 * i
    let beats := (rows.map fun i => at' i / 64 * 64).eraseDups
    let x := XPrep.performAll d pos w (beats.map XRead.beat) none ⟨b, [], [], [], [], none⟩
    if x.fail.isSome ∨ x.b.waiting then (x.b, x.fail, [])
    else
      let es := rows.map fun i => (i, leNat (x.bytes (at' i) 4))
      match es.find? fun e => decide (d.indexLimit ≤ e.2) && decide (e.2 ≠ 0xFFFFFFFF) with
      | some e => (x.b, some ⟨Code.XFER_INDEX_RANGE, at' e.1, 0⟩, es)
      | none => (x.b, none, es)

/-- Whether an add at a pointer reaches memory other than the shelf or HBM, here or at a peer (R95): the sync objects, the
registers or a site window. -/
def Block.unaddable (b : Block) (p : Nat) : Bool :=
  let a := Ptr.addr p
  if Ptr.tag p = 0 then
    match b.range a with
    | .window _ _ | .sync | .regs => true
    | _ => false
  else
    (decide (Dla.syncBase ≤ a) && decide (a < Dla.syncBase + 2 ^ 20)) || (decide (Dla.regBase ≤ a) && decide (a < Dla.regBase + 2 ^ 28))
      || (decide (Dla.windowBase ≤ a) && decide (a < Dla.windowBase + 2 ^ 40))

/-- R18 and R90 for the addresses of a block, and R95's memory. An address outside its pointer's space is reported by the base
pointer, as R90 reports an index below 0 (DESIGN CHOICE, assumption 62). -/
def Block.xferAddrs (b : Block) (d : XDesc) (es : List XElem) : Option XFault :=
  es.findSome? fun e =>
    if e.skip then none
    else if !e.zero ∧ e.es < 0 then some ⟨Code.XFER_BAD_DESC, d.srcPtr, 0⟩
    else if e.ed < 0 then some ⟨Code.XFER_BAD_DESC, d.dstPtr, 0⟩
    else
      let s := d.span d.srcFmt e.es.toNat
      let t := d.span d.dstFmt e.ed.toNat
      let out (p : Nat) (x : Nat × Nat) : Option XFault :=
        if (Ptr.add p x.1).isSome ∧ (Ptr.add p (x.1 + x.2 - 1 : Nat)).isSome then none
        else some ⟨Code.ADDR_NONCANONICAL, p, 0⟩
      match (if e.zero then none else out d.srcPtr s).or ((if e.zero ∨ !d.srcFmt.isMx then none
          else out d.srcScale (e.es.toNat / 32, 1)).or ((out d.dstPtr t).or
          (if d.dstFmt.isMx then out d.dstScale (e.ed.toNat / 32, 1) else none))) with
      | some f => some f
      | none =>
        if d.mode = 3 && b.unaddable (d.dstPtr + t.1) then some ⟨Code.XFER_BAD_DESC, d.dstPtr + t.1, 0⟩ else none

/-- Prepare block `k`. -/
def Block.xferPrepare (b : Block) (pos : Nat) (v : XSlot) (d : XDesc) (k : Nat) : XReady :=
  let w := b.jobWho (.xfer pos) v.job
  let lo := k * d.perBlock
  let ns := (List.range (min d.perBlock (d.elems - lo))).map fun i => lo + i
  let stop (b : Block) (f : Option XFault) : XReady := ⟨b, v, ⟨[], false, none⟩, f⟩
  match b.xferIndex pos w d (ns.map d.row).eraseDups with
  | (b, some f, _) => stop b (some f)
  | (b, none, idx) =>
    if b.waiting then stop b none
    else
      let entry (n : Nat) : Nat := match idx.find? fun e => e.1 = d.row n with
        | some e => e.2
        | none => 0
      let es := ns.map fun n => d.elem n (entry n)
      match b.xferAddrs d es with
      | some f => stop b (some f)
      | none =>
        let live := es.filter fun e => !e.skip
        let read := live.filter fun e => !e.zero
        let srcOf (e : XElem) : Nat × Nat := let s := d.span d.srcFmt e.es.toNat; (d.srcPtr + s.1, s.2)
        let scaleOf (e : XElem) : Nat × Nat := (d.srcScale + e.es.toNat / 32, 1)
        let dstOf (e : XElem) : Nat × Nat := let s := d.span d.dstFmt e.ed.toNat; (d.dstPtr + s.1, s.2)
        let dstScale (e : XElem) : Nat × Nat := (d.dstScale + e.ed.toNat / 32, 1)
        let srcs := read.map srcOf ++ (if d.srcFmt.isMx then read.map scaleOf else [])
        let dsts := live.map dstOf ++ (if d.dstFmt.isMx then live.map dstScale else [])
        match b.xferPages pos v.job.slice srcs false with
        | (b, some f) => stop b (some f)
        | (b, none) => match b.xferPages pos v.job.slice dsts true with
          | (b, some f) => stop b (some f)
          | (b, none) =>
            if b.waiting then stop b none
            else
              let chk := decide (1 ≤ d.sealChk) || decide (d.sealGen = 2)
              let plan := read.foldl (fun (x : XPlan) e =>
                let s := srcOf e
                let x := (Xfr.beats s.1 s.2).foldl (fun x q => x.need (chk && b.inMemory q) q) x
                if d.srcFmt.isMx then (Xfr.beats (scaleOf e).1 1).foldl (fun x q => x.need false q) x else x)
                ⟨v.staged.map fun e => e.1, [], v.verified.map fun e => e.1, []⟩
              let x := XPrep.performAll d pos w plan.reads none ⟨b, v.staged, v.verified, [], [], none⟩
              if x.fail.isSome ∨ x.b.waiting then stop x.b x.fail
              else
                let ov := d.mayOverlap
                let addF : Option AddFmt := if d.mode ≠ 3 then none
                  else some (match d.dstFmt with
                    | .fp32 => .fp32
                    | .bf16 => .bf16
                    | _ => .int32)
                let src1 (acc : Block × SMap (Option OwnByte)) (e : XElem) : Block × XSrc :=
                  if e.zero ∨ e.skip then (acc.1, ⟨e, 0, 0⟩)
                  else
                    let s := srcOf e
                    let raw := x.bytes s.1 s.2
                    let (b, raw) := if ov then Xfr.takeOwn acc.1 acc.2 s.1 raw else (acc.1, raw)
                    let pl := d.place d.srcFmt e.es.toNat
                    (b, ⟨e, bits (leNat raw) pl.2 (d.bitsOf d.srcFmt), if d.srcFmt.isMx then leNat (x.bytes (scaleOf e).1 1) else 0⟩)
                let step := if d.dstFmt.isMx then 32 else 1
                let r := (List.range (ceilDiv es.length step)).foldl
                  (fun (acc : Block × SMap (Option OwnByte) × List XWrite × Bool) g =>
                    let (b, ss) := ((es.drop (g * step)).take step).foldl (fun (a : Block × List XSrc) e =>
                      let q := src1 (a.1, acc.2.1) e
                      (q.1, a.2 ++ [q.2])) (acc.1, [])
                    let (ws, sat) := d.writesOf ss
                    let own := if ov then ws.foldl (fun o u => Xfr.noteOwn b w o u (if u.scale then none else addF)) acc.2.1 else acc.2.1
                    (b, own, acc.2.2.1 ++ ws, acc.2.2.2 || sat)) (x.b, v.own, [], false)
                let staged := plan.staged.filterMap fun q =>
                  ((x.got.reverse.find? fun e => e.1 = q).or (v.staged.find? fun e => e.1 = q))
                let e0 := es.head?.getD ⟨0, true, true, 0, 0⟩
                let base := d.srcPtr + (d.place d.srcFmt e0.es.toNat).1
                let straight : Bool := decide (d.srcFmt = d.dstFmt) && decide (base % 4096 = 0)
                  && ((List.range es.length).all fun i => match es[i]? with
                    | some e => !e.zero && !e.skip && decide (e.es = e0.es + (i : Int))
                    | none => false)
                let copyOf := if straight then (x.verified.find? fun e => e.1 = base).map fun e => e.2 else none
                ⟨r.1, { v with staged := staged, verified := x.verified, own := r.2.1 }, ⟨r.2.2.1, r.2.2.2, copyOf⟩, none⟩

/-- The write of a whole aligned block with its seal. -/
def Block.writeSealed (b : Block) (w : Who) (p : Nat) (ds : List Byte) (sl : Nat) : Block × Status :=
  if Ptr.tag p = 0 then b.dlaWriteBlock w (Ptr.addr p) ds sl
  else match b.ptrWrite w true false p ds with
    | (b, st) =>
      if st ≠ Code.SUCCESS then (b, st)
      else match b.peerEntry (w.slice.getD 0) (Ptr.peer p) with
        | none => (b, Code.ADDR_UNMAPPED)
        | some e =>
          let r := b.external ⟨w, .peerSeal e (Ptr.addr p), 8, .write (natLE 8 sl), 0⟩
          (r.1, r.2.1)

/-- A memory-side add of a transfer (R95). At a peer, an element that lies across two chunks is read, added and written back. -/
def Block.xferAdd (b : Block) (w : Who) (f : AddFmt) (p : Nat) (ds : List Byte) : Block × Status :=
  if Ptr.tag p = 0 then b.dlaAdd w f (Ptr.addr p) ds
  else if 1 < (chunksOf (Ptr.addr p) ds.length).length then
    match b.ptrRead w p ds.length with
    | (b, st, old) => if st ≠ Code.SUCCESS then (b, st) else b.ptrWrite w true false p (addBytes f 1 old ds)
  else match b.peerEntry (w.slice.getD 0) (Ptr.peer p) with
    | none => (b, Code.ADDR_UNMAPPED)
    | some e =>
      let r := b.external ⟨w, .peer e (Ptr.addr p), ds.length, .add f ds, 0⟩
      (r.1, r.2.1)

/-- R91: the runs of a block with zeros in bytes 4,080 to 4,095 of the 4 KiB MXFP6 block that it writes whole, in whatever
order. -/
def XWrite.pad (data runs : List XWrite) : List XWrite :=
  let base := ((data.head?).map fun x => x.ptr / 4096 * 4096).getD 0
  let whole : Bool := decide (((data.filter fun x => x.ptr / 4096 * 4096 = base).map fun x => x.ptr).eraseDups.length = 170)
    && decide (data.length = 170)
  match runs with
  | [x] => if whole then [{ x with data := x.data ++ zeros 16 }] else [x]
  | _ => if whole then runs ++ [⟨base + 4080, zeros 16, false⟩] else runs

/-- Perform a prepared block's writes; the first that fails. -/
def Block.xferWrite (b : Block) (pos : Nat) (job : Job) (r : XBegun) (d : XDesc) : Block × Option XFault :=
  let w := b.jobWho (.xfer pos) job
  let data := r.writes.filter fun x => !x.scale
  let scales := XWrite.join (r.writes.filter fun x => x.scale)
  let mx6 : Bool := decide (d.dstFmt = .mxE3m2) || decide (d.dstFmt = .mxE2m3)
  let runs := if d.mode = 3 then data else XWrite.join data
  let runs := if mx6 then XWrite.pad data runs else runs
  let sl : Option Nat := match runs with
    | [x] =>
      if 1 ≤ d.sealGen ∧ d.mode ≠ 3 ∧ x.data.length = 4096 ∧ x.ptr % 4096 = 0 ∧ b.inMemory x.ptr then
        match r.copyOf with
        | some s =>
          if d.sealGen = 2 ∧ Seal.present s ∧ Seal.crc s = crc32c x.data then some (setBits s 61 1 1)
          else some (Seal.make x.data pos job.epoch d.dstCode r.sat)
        | none => some (Seal.make x.data pos job.epoch d.dstCode r.sat)
      else none
    | _ => none
  (runs ++ scales).foldl (fun (acc : Block × Option XFault) x =>
    if acc.2.isSome then acc
    else
      let b := acc.1
      let q := if d.mode = 3 then b.xferAdd w (match d.dstFmt with
            | .fp32 => .fp32
            | .bf16 => .bf16
            | _ => .int32) x.ptr x.data
        else match x.scale, sl with
          | false, some s => b.writeSealed w x.ptr x.data s
          | _, _ => b.ptrWrite w true true x.ptr x.data
      if q.2 ≠ Code.SUCCESS then (q.1, some ⟨Xfr.code q.2, x.ptr, 0⟩)
      else
        let b := q.1.count (Reg.XF_WR_BYTES.COUNT pos) x.data.length
        (if sl.isSome ∧ !x.scale then b.count (Reg.XF_SEAL_GEN.COUNT pos) 1 else b, none)) (b, none)

/-! ### Ends (R109, R110) -/

def XSlot.descPtr (v : XSlot) : Nat := v.job.w 2
def XSlot.descLen (v : XSlot) : Nat := bits (v.job.w 3) 0 4
def XSlot.progPtr (v : XSlot) : Nat := v.job.w 4
def XSlot.progStep (v : XSlot) : Nat := bits (v.job.w 5) 0 24
def XSlot.cursorPtr (v : XSlot) : Nat := v.job.w 6

/-- XF_ERR_LOG and XF_ERR_ADDR. -/
def Block.xferLog (b : Block) (pos n : Nat) (v : XSlot) (f : XFault) : Block :=
  if b.is (Reg.XF_ERR_LOG.VALID pos) then b.wr (Reg.XF_ERR_LOG.OVERFLOW pos) 1
  else
    let b := b.wr (Reg.XF_ERR_LOG.STATUS pos) f.status
    let b := b.wr (Reg.XF_ERR_LOG.SLICE pos) v.job.slice
    let b := b.wr (Reg.XF_ERR_LOG.PRODUCER pos) f.producer
    let b := b.wr (Reg.XF_ERR_LOG.SLOT pos) n
    let b := b.wr (Reg.XF_ERR_ADDR.PTR pos) f.ptr
    b.wr (Reg.XF_ERR_LOG.VALID pos) 1

/-- The resume cursor (Table XFR-9). -/
def XSlot.cursor (v : XSlot) (blocks : Nat) (f : XFault) : List Byte :=
  let ahead := ((List.range 16).filter fun j => NSet.has v.performed (v.next + 1 + j)).foldl (fun a j => a + 2 ^ j) 0
  natLE 8 (crc32c (sliceBytes v.desc 0 (64 * v.descLen)) + 2 ^ 32 + 2 ^ 40) ++ natLE 8 v.next ++ natLE 8 ahead
    ++ natLE 8 blocks ++ natLE 8 f.status ++ natLE 8 f.ptr ++ zeros 16

/-- Write to the cursor; a failed write is logged and loses it (R109). -/
def Block.cursorWrite (b : Block) (pos n : Nat) (v : XSlot) (ds : List Byte) : Block :=
  if v.cursorPtr = 0 then b
  else match b.ptrWrite (b.jobWho (.xfer pos) v.job) false false v.cursorPtr ds with
    | (b, st) =>
      if st ≠ Code.SUCCESS then b.xferLog pos n v ⟨st, v.cursorPtr, 0⟩
      else if Ptr.tag v.cursorPtr = 1 then b.hostWrote v.job.queue v.job.slice (Ptr.addr v.cursorPtr)
      else b

/-- Whether Table XFR-10 has a cursor written: for an end met in running, or an unresolved cursor read; but not into a host
memory that was revoked. -/
def XSlot.leavesCursor (v : XSlot) (f : XFault) : Bool :=
  (decide (v.phase = .run) || (decide (v.phase = .cursor) && decide (f.status = Code.XFER_FAULT_UNRESOLVED)))
    && !(decide (f.status = Code.HOST_ACCESS_REVOKED) && decide (Ptr.tag v.cursorPtr = 1))

/-- End a transfer early: its cursor where Table XFR-10 gives one, its log, and its report with the delivered-count. -/
def Block.xferEnd (b : Block) (pos n : Nat) (v : XSlot) (f : XFault) : Block :=
  let b := { b with ext := { b.ext with need := [] } }
  let blocks := match XDesc.parse v.descLen v.desc with
    | .ok d => d.blocks
    | .error _ => 0
  let b := b.xferLog pos n v f
  let b := if v.leavesCursor f then b.cursorWrite pos n v (v.cursor blocks f) else b
  let b := b.putSlot pos n (some { v with phase := .ending, fault := none })
  b.reportCmd v.job.queue v.job.id f.status (if v.phase = .run then v.next else 0)

/-- Complete a transfer whose blocks are all delivered: the cursor's first word is zeroed (R109). -/
def Block.xferDone (b : Block) (pos n : Nat) (v : XSlot) : Block :=
  let b := b.cursorWrite pos n v (zeros 8)
  let b := b.putSlot pos n (some { v with phase := .ending, fault := none })
  b.reportCmd v.job.queue v.job.id Code.SUCCESS v.next

/-- Put a running slot's record: the transfer ends once its lowest failed block is the lowest undelivered one and the blocks
that have begun writing are performed (R107, R110). -/
def Block.xferGoOn (b : Block) (pos n : Nat) (v : XSlot) : Block :=
  match v.failed with
  | some (k, f) => if k = v.next ∧ v.begun = [] then b.xferEnd pos n v f else b.putSlot pos n (some v)
  | none => b.putSlot pos n (some v)

/-- Block `k` fails; of several failures the lowest block's counts (R110), and the response to a page request of the failed
block is nobody's (R107). -/
def Block.xferFail (b : Block) (pos n : Nat) (v : XSlot) (k : Nat) (f : XFault) : Block :=
  let b := { b with ext := { b.ext with need := [] } }
  let lower : Bool := v.failed.any fun g => decide (g.1 < k)
  let own : Bool := v.fault.any fun q => decide (q.2 = k)
  let b := if own then b.xlatForget fun q => decide (q.lane = Xfr.lane pos n) else b
  b.xferGoOn pos n { v with
    begun := SMap.put (fun _ => none) v.begun k none
    fault := if own then none else v.fault
    failed := if lower then v.failed else some (k, f) }

/-- The page requests that a step's needs wait for: the tagged pointer of the first. -/
def Block.faultOf (b : Block) (ns : List Need) : Option Nat :=
  ns.findSome? fun x => match x with
    | .page p =>
      let fn := b.fnOf p.slice
      if b.xlat.groups.any fun g => g.awaits (b.stu fn) fn (b.pasid p.slice) p then some (2 ^ 60 + p.va) else none
    | _ => none

/-- Run a slot's step for block `k` that may have to wait; a page asked for by a page request puts the slot in fault wait. While
it waits for one of that block's, only a failure of the block is taken (R107). -/
def Block.xferSettle (b : Block) (pos n : Nat) (v : XSlot) (k : Nat) (f : Block → Block) : Block :=
  let b' := b.inLane (Xfr.lane pos n) f
  let own : Bool := v.fault.any fun q => decide (q.2 = k)
  let failed : Bool := match b'.xslot pos n with
    | some u => decide (u.phase = .ending) || decide (u.failed ≠ v.failed)
    | none => true
  if b'.waiting then
    let b1 := b.issue b'.ext.need
    match b1.faultOf b'.ext.need with
    | none => b1
    | some q =>
      let b1 := if b.xlat.groups.length < b1.xlat.groups.length then b1.count (Reg.XF_PAGE_FAULTS.COUNT pos) 1 else b1
      if v.fault.isSome && !own then b1 else b1.putSlot pos n (some { v with fault := some (q, k) })
  else if own && !failed then b
  else { b' with ext := { b'.ext with used := [], done := b'.ext.done.filter fun d => !b'.ext.used.contains d.need } }

/-- R108: the slot that waits for a need leaves fault wait. -/
def Block.xferResume (b : Block) (p : PageNeed) : Block :=
  if p.unit ≠ .xfer ∨ p.lane = 0 then b
  else
    let n := (p.lane - 1) % 8
    match b.xslot p.pos n with
    | some v => if v.fault.isSome ∧ v.job.slice = p.slice then b.putSlot p.pos n (some { v with fault := none }) else b
    | none => b

end Sys2Proof.Machine
end

