-- ==== Sys2Proof/Machine/VecAlu.lean ====
section
/-! DEFINITION. What each vector and reduction instruction that makes no memory access does to the kernel-visible state
(05: R114–R123, R130–R132; 06: R140–R144). -/

namespace Sys2Proof.Machine

/-! ### Element-wise arithmetic -/

/-- An element-wise operation: destination elements and flags from the index, over the width of TYPE. -/
def Vec.lanewise (f : (e : Nat) → Nat × Nat) (i : VInstr) (s : VecState) : VecState :=
  let w := vtypeW i.ty
  let n := s.count w
  (s.writeElems i i.vd w n fun e => (f e).1).orFlags (s.flagsOf i n fun e => (f e).2)

/-- A two-operand operation by type: floating `ff`, integer `fi` of width `w`. -/
def Vec.binary (ff : FFmt → Nat → Nat → Nat × Nat) (fi : Nat → Nat → Nat → Nat) (i : VInstr) (s : VecState) : VecState :=
  let w := vtypeW i.ty
  Vec.lanewise (fun e =>
    let a := s.elem i.va w e
    let b := s.opB i w e
    match (vtype i.ty).bind EFmt.float? with
    | some g => ff g a b
    | none => (fi w a b % 2 ^ w, 0)) i s

/-- A one-operand operation by type. -/
def Vec.unary (ff : FFmt → Nat → Nat × Nat) (fi : Nat → Nat → Nat) (i : VInstr) (s : VecState) : VecState :=
  let w := vtypeW i.ty
  Vec.lanewise (fun e =>
    let a := s.elem i.va w e
    match (vtype i.ty).bind EFmt.float? with
    | some g => ff g a
    | none => (fi w a % 2 ^ w, 0)) i s

def Vec.add : VInstr → VecState → VecState := Vec.binary FFmt.add fun _ a b => a + b
def Vec.sub : VInstr → VecState → VecState := Vec.binary FFmt.sub fun w a b => a + 2 ^ w - b % 2 ^ w
def Vec.mul : VInstr → VecState → VecState := Vec.binary FFmt.mul fun _ a b => a * b

/-- FMA and FNMA: `vd ± va·b`, rounded once. -/
def Vec.fma (negProd : Bool) (i : VInstr) (s : VecState) : VecState :=
  let w := vtypeW i.ty
  Vec.lanewise (fun e =>
    match (vtype i.ty).bind EFmt.float? with
    | some g => g.fma negProd (s.elem i.va w e) (s.opB i w e) (s.elem i.vd w e)
    | none => (0, 0)) i s

def Vec.minmax (isMax : Bool) : VInstr → VecState → VecState :=
  Vec.binary (fun g => g.minmax isMax) fun w a b =>
    if (decide (signed a w < signed b w)) != isMax then a else b

/-- A NaN operand of ABS or NEG gives the canonical NaN, like every NaN result of R119. -/
def FFmt.unarySign (g : FFmt) (f : Nat → Nat) (a : Nat) : Nat × Nat :=
  match g.decode a with
  | .nan _ sig => (g.qnan, flagIf sig Flag.NV)
  | _ => (f a, 0)

def Vec.abs : VInstr → VecState → VecState :=
  Vec.unary (fun g => g.unarySign fun a => a % g.signBit) fun w a =>
    if signed a w < 0 then 2 ^ w - a % 2 ^ w else a

def Vec.neg : VInstr → VecState → VecState :=
  Vec.unary (fun g => g.unarySign fun a => if a < g.signBit then a + g.signBit else a - g.signBit)
    fun w a => 2 ^ w - a % 2 ^ w

def Vec.trans (op : TransOp) : VInstr → VecState → VecState :=
  Vec.unary (fun g => g.trans op) fun _ a => a

def Vec.shl : VInstr → VecState → VecState := Vec.binary (fun _ a _ => (a, 0)) fun w a b => a <<< (b % w)
def Vec.shr : VInstr → VecState → VecState := Vec.binary (fun _ a _ => (a, 0)) fun w a b => a >>> (b % w)
def Vec.sra : VInstr → VecState → VecState :=
  Vec.binary (fun _ a _ => (a, 0)) fun w a b => toBits (signed a w / (2 ^ (b % w) : Nat)) w

/-- MOV: `vd = b`. -/
def Vec.mov : VInstr → VecState → VecState := Vec.binary (fun _ _ b => (b, 0)) fun _ _ b => b

/-- SEL: by the mask bit over all `e < N`, MEN and Z ignored. -/
def Vec.sel (i : VInstr) (s : VecState) : VecState :=
  let w := vtypeW i.ty
  let n := s.count w
  s.writeElems { i with men := false } i.vd w n fun e =>
    if (s.mreg i.msk).testBit e then s.elem i.va w e else s.opB i w e

/-- Comparisons into a mask register. -/
def Vec.cmp (op : CmpOp) (i : VInstr) (s : VecState) : VecState :=
  let w := vtypeW i.ty
  let n := s.count w
  let r (e : Nat) : Bool × Nat :=
    let a := s.elem i.va w e
    let b := s.opB i w e
    match (vtype i.ty).bind EFmt.float? with
    | some g => g.cmp op a b
    | none => (intCmp op w a b, 0)
  (s.writeMask i i.md n fun e => (r e).1).orFlags (s.flagsOf i n fun e => (r e).2)

/-- CVT (R122): EXT[2:0] the source type, EXT[4:3] the part, EXT[5] truncation into integers. -/
def Vec.cvt (i : VInstr) (s : VecState) : VecState :=
  let st := bits i.ext 0 3
  match vtype st, vtype i.ty with
  | some src, some dst =>
    let ws := vtypeW st
    let wd := vtypeW i.ty
    let p := bits i.ext 3 2
    let rm (e : Nat) : Rounding :=
      if bit i.ext 5 && isINT i.ty then .truncate else roundingOf i.rnd s.seed e
    if ws ≤ wd then
      let n := s.count wd
      let r (e : Nat) : Conv :=
        convertBits src dst (rm e) (s.elem i.va ws (if ws = wd then e else p * lanes wd + e))
      (s.writeElems i i.vd wd n fun e => (r e).bits).orFlags
        (s.flagsOf i n fun e => flagIf (r e).sat Flag.SSAT)
    else
      let n := s.count ws
      let base := p * lanes ws
      let r (e : Nat) : Conv := convertBits src dst (rm e) (s.elem i.va ws e)
      let new := (List.range n).foldl (fun acc e =>
        if s.active i n e then setBits acc (wd * (base + e)) wd (r e).bits
        else if i.z then setBits acc (wd * (base + e)) wd 0 else acc) (s.vreg i.vd)
      (s.setV i.vd new).orFlags (s.flagsOf i n fun e => flagIf (r e).sat Flag.SSAT)
  | _, _ => s

/-! ### Mask operations -/

/-- MAND, MOR and MXOR over all 1,024 bits. -/
def Vec.maskOp (f : Nat → Nat → Nat) (i : VInstr) (s : VecState) : VecState :=
  s.setM i.md (f (s.mreg i.ma) (s.mreg i.mb))

def Vec.mnot (i : VInstr) (s : VecState) : VecState := s.setM i.md (2 ^ 1024 - 1 - s.mreg i.ma)

def Vec.mpopc (i : VInstr) (s : VecState) : VecState :=
  s.setX i.xd (popCount (s.mreg i.ma) (s.count (vtypeW i.ty)))

def Vec.mfirst (i : VInstr) (s : VecState) : VecState :=
  let n := s.count (vtypeW i.ty)
  s.setX i.xd ((lowBit? (s.mreg i.ma) n).getD n)

/-- MSET: the bits of md below N become 1, under the rule for mask destinations (R115). -/
def Vec.mset (i : VInstr) (s : VecState) : VecState :=
  s.writeMask i i.md (s.count (vtypeW i.ty)) fun _ => true

/-! ### Permutation (R130–R132) -/

def Vec.perm (i : VInstr) (s : VecState) : VecState :=
  let w := vtypeW i.ty
  let n := s.count w
  Vec.lanewise (fun e =>
    let k := s.elem i.vb w e
    if k < n then (s.elem i.va w k, 0) else (0, Flag.PERM_OOB)) i s

def Vec.bcastl (i : VInstr) (s : VecState) : VecState :=
  let w := vtypeW i.ty
  let n := s.count w
  let k := bits i.ext 0 10
  (s.writeElems i i.vd w n fun _ => if k < n then s.elem i.va w k else 0).orFlags
    (flagIf (decide (n ≤ k)) Flag.PERM_OOB)

def Vec.xfromv (i : VInstr) (s : VecState) : VecState :=
  let w := vtypeW i.ty
  let n := s.count w
  let k := bits i.ext 0 10
  if k < n then
    let a := s.elem i.va w k
    s.setX i.xd (if isFP i.ty then a else toBits (signed a w) 64)
  else (s.setX i.xd 0).orFlags Flag.PERM_OOB

def Vec.bcastx (i : VInstr) (s : VecState) : VecState :=
  let w := vtypeW i.ty
  s.writeElems i i.vd w (s.count w) fun _ => s.xreg i.xa % 2 ^ w

def Vec.slideup (i : VInstr) (s : VecState) : VecState :=
  let w := vtypeW i.ty
  let k := bits i.ext 0 10
  s.writeElems i i.vd w (s.count w) fun e => if k ≤ e then s.elem i.va w (e - k) else 0

def Vec.slidedn (i : VInstr) (s : VecState) : VecState :=
  let w := vtypeW i.ty
  let n := s.count w
  let k := bits i.ext 0 10
  s.writeElems i i.vd w n fun e => if e + k < n then s.elem i.va w (e + k) else 0

/-- The indices below N whose mask bit is set, ascending. -/
def Vec.picked (i : VInstr) (s : VecState) (n : Nat) : List Nat := bitList (s.mreg i.msk) n

def Vec.compress (i : VInstr) (s : VecState) : VecState :=
  let w := vtypeW i.ty
  let n := s.count w
  let es := Vec.picked i s n
  let c := es.length
  let packed := (es.zipIdx).foldl (fun acc p => setBits acc (w * p.2) w (s.elem i.va w p.1)) (s.vreg i.vd)
  let new := if i.z then (List.range (n - c)).foldl (fun acc j => setBits acc (w * (c + j)) w 0) packed else packed
  (s.setV i.vd new).setX (bits i.ext 0 4) c

def Vec.expand (i : VInstr) (s : VecState) : VecState :=
  let w := vtypeW i.ty
  let n := s.count w
  let es := Vec.picked i s n
  let cleared := if i.z then (List.range n).foldl (fun acc e =>
    if (s.mreg i.msk).testBit e then acc else setBits acc (w * e) w 0) (s.vreg i.vd) else s.vreg i.vd
  s.setV i.vd (es.zipIdx.foldl (fun acc p => setBits acc (w * p.1) w (s.elem i.va w p.2)) cleared)

/-! ### Scalars and control state -/

/-- SETVL (R114). -/
def Vec.setvl (i : VInstr) (s : VecState) : VecState :=
  let w := vtypeW i.ty
  let src := if i.imm then i.ext else s.xreg i.xa
  let vl := max 1 (min src (lanes w))
  { s.setX i.xd vl with vl := vl, vew := w }

def Vec.sli (i : VInstr) (s : VecState) : VecState := s.setX i.xd i.ext64
def Vec.slih (i : VInstr) (s : VecState) : VecState := s.setX i.xd (i.ext * 2 ^ 32 + s.xreg i.xd % 2 ^ 32)
def Vec.sadd (i : VInstr) (s : VecState) : VecState := s.setX i.xd (s.xreg i.xa + s.scalarB i)
def Vec.ssub (i : VInstr) (s : VecState) : VecState := s.setX i.xd (s.xreg i.xa + (2 ^ 64 - s.scalarB i))
def Vec.smul (i : VInstr) (s : VecState) : VecState := s.setX i.xd (s.xreg i.xa * s.scalarB i)
def Vec.sarg (i : VInstr) (s : VecState) : VecState :=
  s.setX i.xd (SMap.get (fun _ => 0) s.amem (bits i.ext 0 7)).toNat
def Vec.rdflg (i : VInstr) (s : VecState) : VecState :=
  let t := s.setX i.xd s.flags
  if bit i.ext 0 then { t with flags := 0 } else t
def Vec.setseed (i : VInstr) (s : VecState) : VecState := { s with seed := s.xreg i.xa % 2 ^ 32 }

/-! ### Reduction (06) -/

/-- The FP32 bits of minus infinity. -/
def fp32NegInf : Nat := 0xFF800000
def fp32PosInf : Nat := 0x7F800000

/-- Addition in FP32 with flags. -/
def fadd (a b : Nat × Nat) : Nat × Nat :=
  let r := FFmt.fp32.add a.1 b.1
  (r.1, a.2 ||| b.2 ||| r.2)

/-- One level of the tree of R141: slots 2j and 2j + 1 added. -/
def treeLevel : List (Nat × Nat) → List (Nat × Nat)
  | a :: b :: rest => fadd a b :: treeLevel rest
  | l => l

/-- The tree of R141 over a power-of-two number of slots, `k` levels. -/
def treeSum : (k : Nat) → List (Nat × Nat) → Nat × Nat
  | 0, l => l.headD (0, 0)
  | k + 1, l => treeSum k (treeLevel l)

/-- `tree(t)` over the C(w) slots, with the flags of its additions. -/
def treeOf (slots : List (Nat × Nat)) : Nat × Nat := treeSum (log2Up slots.length) slots

/-- The empty top-k entry of R143. -/
def Acc.emptyTop (isInt : Bool) : Nat × Nat := (if isInt then 0x80000000 else fp32NegInf, 0xFFFFFFFF)

/-- RCLR. -/
def Acc.clear (isInt : Bool) (k : Nat) : Acc where
  isInt := isInt
  k := k
  m := fp32NegInf
  mPrev := fp32NegInf
  s := 0
  sum := 0
  sumsq := 0
  top := List.replicate k (Acc.emptyTop isInt)

/-- A fed element: its slot number and the value as FP32 bits (class FP) or a 32-bit integer (class INT). -/
abbrev Fed := List (Nat × Nat)

/-- The slots of the tree: fed elements where present, +0 elsewhere. -/
def slotsOf (size : Nat) (fed : List (Nat × (Nat × Nat))) : List (Nat × Nat) :=
  (List.range size).map fun e => match fed.find? (fun p => p.1 = e) with
    | some p => p.2
    | none => (0, 0)

/-- The greater of two FP32 values by R120: the other one where exactly one is NaN. -/
def fmax (a b : Nat) : Nat := (FFmt.fp32.minmax true a b).1

def fp32IsNan (a : Nat) : Bool := (FFmt.fp32.decode a).isNan

/-- EXP2 in FP32 with flags. -/
def fexp2 (a : Nat) : Nat × Nat := FFmt.fp32.trans .exp2 a

/-- RNORM's feed of R141 over `size` slots. -/
def Acc.norm (a : Acc) (c size : Nat) (fed : Fed) : Acc × Nat :=
  let ys := fed.map fun p => (p.1, FFmt.fp32.mul c p.2)
  let nanF := flagIf (ys.any fun p => fp32IsNan p.2.1) Flag.NV
  let good := ys.filter fun p => !fp32IsNan p.2.1
  let mulF := good.foldl (fun f p => f ||| p.2.2) 0
  let big := good.foldl (fun acc p => fmax acc p.2.1) fp32NegInf
  let mNew := fmax a.m big
  let infs := (good.filter fun p => p.2.1 = fp32PosInf).length
  let (s', f) : Nat × Nat :=
    if mNew = fp32NegInf then (a.s, 0)
    else if mNew = fp32PosInf then
      fadd (if a.m = fp32PosInf then a.s else 0, 0) (FFmt.fp32.ofExact false infs 0)
    else
      let fac := if a.m = mNew then (0x3F800000, 0)
        else if a.m = fp32NegInf then (0, 0)
        else
          let d := FFmt.fp32.sub a.m mNew
          let e := fexp2 d.1
          (e.1, d.2 ||| e.2)
      let ts := good.map fun p =>
        let d := FFmt.fp32.sub p.2.1 mNew
        let e := fexp2 d.1
        (p.1, (e.1, d.2 ||| e.2))
      let t := treeOf (slotsOf size ts)
      let sf := FFmt.fp32.mul a.s fac.1
      fadd (sf.1, sf.2 ||| fac.2) t
  ({ a with mPrev := a.m, m := mNew, s := s' }, nanF ||| mulF ||| f)

/-- RSUM's feed of R142. -/
def Acc.addSums (a : Acc) (size : Nat) (fed : Fed) : Acc × Nat :=
  if a.isInt then
    let xs := fed.map fun p => signed p.2 32
    ({ a with
        sum := toBits ((a.sum : Int) + xs.foldl (· + ·) 0) 64
        sumsq := toBits ((a.sumsq : Int) + (xs.map fun x => x * x).foldl (· + ·) 0) 64 }, 0)
  else
    let nanF := flagIf (fed.any fun p => fp32IsNan p.2) Flag.NV
    let t := treeOf (slotsOf size (fed.map fun p => (p.1, (p.2, 0))))
    let q := treeOf (slotsOf size (fed.map fun p => (p.1, FFmt.fp32.mul p.2 p.2)))
    let s1 := fadd (a.sum, 0) t
    let s2 := fadd (a.sumsq, 0) q
    ({ a with sum := s1.1, sumsq := s2.1 }, nanF ||| s1.2 ||| s2.2)

/-- Whether top-k entry `x` ranks above `y` (R143). -/
def ranksAbove (isInt : Bool) (x y : Nat × Nat) : Bool :=
  let gt := if isInt then decide (signed y.1 32 < signed x.1 32)
    else (FFmt.fp32.decode y.1).lt true (FFmt.fp32.decode x.1)
  let lt := if isInt then decide (signed x.1 32 < signed y.1 32)
    else (FFmt.fp32.decode x.1).lt true (FFmt.fp32.decode y.1)
  gt || (!lt && decide (x.2 < y.2))

/-- Insert an entry in rank order. -/
def topInsert (isInt : Bool) (x : Nat × Nat) : List (Nat × Nat) → List (Nat × Nat)
  | [] => [x]
  | y :: l => if ranksAbove isInt x y then x :: y :: l else y :: topInsert isInt x l

/-- RTOPK's feed of R143: element `e` carries index `base + e`. -/
def Acc.topFeed (a : Acc) (base : Nat) (fed : Fed) : Acc × Nat :=
  let nan := !a.isInt && fed.any fun p => fp32IsNan p.2
  let good := fed.filter fun p => a.isInt || !fp32IsNan p.2
  -- an empty entry ranks below every fed element
  let real := a.top.filter fun t => t ≠ Acc.emptyTop a.isInt
  let l := good.foldl (fun t p => topInsert a.isInt (p.2, (base + p.1) % 2 ^ 32) t) real
  ({ a with top := (l ++ List.replicate a.k (Acc.emptyTop a.isInt)).take a.k }, flagIf nan Flag.NV)

/-- RMERGE of source `b` into `a` (R144). -/
def Acc.merge (a b : Acc) : Acc × Nat :=
  let m := fmax a.m b.m
  let term (x : Acc) : Nat × Nat :=
    if m = fp32PosInf then (if x.m = fp32PosInf then x.s else 0, 0)
    else
      -- a factor whose argument is -Inf - (-Inf) counts as 0, and EXP2 of -Inf is +0
      let e := if x.m = fp32NegInf then (0, 0)
        else
          let d := FFmt.fp32.sub x.m m
          let r := fexp2 d.1
          (r.1, d.2 ||| r.2)
      let p := FFmt.fp32.mul x.s e.1
      (p.1, e.2 ||| p.2)
  let (s', f) := fadd (term a) (term b)
  let (sum, f1) : Nat × Nat := if a.isInt then ((a.sum + b.sum) % 2 ^ 64, 0) else FFmt.fp32.add a.sum b.sum
  let (sq, f2) : Nat × Nat := if a.isInt then ((a.sumsq + b.sumsq) % 2 ^ 64, 0) else FFmt.fp32.add a.sumsq b.sumsq
  let real (x : Acc) := x.top.filter fun t => t ≠ Acc.emptyTop x.isInt
  let l := (real b).foldl (fun t p => topInsert a.isInt p t) (real a)
  ({ a with mPrev := a.m, m := m, s := s', sum := sum, sumsq := sq,
            top := (l ++ List.replicate a.k (Acc.emptyTop a.isInt)).take a.k }, f ||| f1 ||| f2)

/-- RFACT: `2^(m_prev - m)`. -/
def Acc.fact (a : Acc) : Nat × Nat :=
  if a.mPrev = a.m then (0x3F800000, 0)
  else if a.mPrev = fp32NegInf then (0, 0)
  else
    let d := FFmt.fp32.sub a.mPrev a.m
    let e := fexp2 d.1
    (e.1, d.2 ||| e.2)

/-- The active elements of va, as FP32 (class FP) or sign-extended INT32 (class INT). -/
def Vec.fed (i : VInstr) (s : VecState) : Fed :=
  let w := vtypeW i.ty
  let n := s.count w
  ((List.range n).filter fun e => s.active i n e).map fun e =>
    let a := s.elem i.va w e
    (e, if isFP i.ty then (match vtype i.ty with
          | some f => (convertBits f .fp32 .nearest a).bits
          | none => 0)
        else toBits (signed a w) 32)

def Vec.rclr (i : VInstr) (s : VecState) : VecState := s.setAcc i.acc (Acc.clear (isINT i.ty) (bits i.ext 0 7))

def Vec.rnorm (i : VInstr) (s : VecState) : VecState :=
  let (a, f) := (s.getAcc i.acc).norm i.ext (lanes (vtypeW i.ty)) (Vec.fed i s)
  (s.setAcc i.acc a).orFlags f

def Vec.rsum (i : VInstr) (s : VecState) : VecState :=
  let (a, f) := (s.getAcc i.acc).addSums (lanes (vtypeW i.ty)) (Vec.fed i s)
  (s.setAcc i.acc a).orFlags f

def Vec.rtopk (i : VInstr) (s : VecState) : VecState :=
  let (a, f) := (s.getAcc i.acc).topFeed (s.xreg i.xb % 2 ^ 32) (Vec.fed i s)
  (s.setAcc i.acc a).orFlags f

def Vec.rmerge (i : VInstr) (s : VecState) : VecState :=
  let (a, f) := (s.getAcc i.acc).merge (s.getAcc (bits i.ext 0 2))
  (s.setAcc i.acc a).orFlags f

def Vec.rgetn (i : VInstr) (s : VecState) : VecState :=
  let a := s.getAcc i.acc
  s.setX i.xd (a.m + a.s * 2 ^ 32)

def Vec.rgets (i : VInstr) (s : VecState) : VecState := s.setX i.xd (s.getAcc i.acc).sum
def Vec.rgetq (i : VInstr) (s : VecState) : VecState := s.setX i.xd (s.getAcc i.acc).sumsq

/-- RGETK: values to vd, indices to v(d+1), elements 0 to K − 1 only. -/
def Vec.rgetk (i : VInstr) (s : VecState) : VecState :=
  let t := (s.getAcc i.acc).top.zipIdx
  let vals := t.foldl (fun n p => setBits n (32 * p.2) 32 p.1.1) (s.vreg i.vd)
  let idxs := t.foldl (fun n p => setBits n (32 * p.2) 32 p.1.2) (s.vreg (i.vd + 1))
  (s.setV i.vd vals).setV (i.vd + 1) idxs

def Vec.rfact (i : VInstr) (s : VecState) : VecState :=
  let (r, f) := (s.getAcc i.acc).fact
  (s.setX i.xd r).orFlags f

def Vec.rsetn (i : VInstr) (s : VecState) : VecState :=
  let x := s.xreg i.xa
  let a := s.getAcc i.acc
  s.setAcc i.acc { a with m := x % 2 ^ 32, s := x / 2 ^ 32, mPrev := x % 2 ^ 32 }

end Sys2Proof.Machine
end

