-- ==== Sys2Proof/Machine/VectorOps.lean ====
section
/-! DEFINITION. A kernel's memory instructions, its end, and the unit that VEXEC and REDUCE share (05, Table HST-2). -/

namespace Sys2Proof.Machine

/-! ### The shared unit (Table HST-2, R136) -/

def Block.vec (b : Block) (p : Nat) : VecState := (b.posState p).vec
def Block.setVec (b : Block) (p : Nat) (v : VecState) : Block := b.modPos p fun s => { s with vec := v }

def Job.opcode (j : Job) : Nat := bits (j.w 0) 0 8

/-- Start a job that has the unit: a VEXEC loads (R134), a REDUCE begins its first row (R145). -/
def Block.unitStart (b : Block) (p : Nat) (j : Job) : Block :=
  if j.opcode = 0x02 then
    let v := b.vec p
    let b := b.setVec p { v with run := some ⟨j, true, b.now, b.rd (Reg.VE_CFG.MAX_CYCLES_LOG2 p), 0, 0, false, false⟩ }
    let b := b.wr (Reg.VE_STATUS.BUSY p) 1
    let b := b.wr (Reg.VE_STATUS.LOADING p) 1
    let b := b.wr (Reg.VE_STATUS.SLICE p) j.slice
    b.wr (Reg.VE_STATUS.PC p) 0
  else
    let isInt : Bool := decide (6 ≤ bits (j.w 4) 32 4)
    let k := if bits (j.w 4) 24 8 = 0x04 then 1 else bits (j.w 4) 36 7
    let b := b.modPos p fun s => { s with red := some ⟨j, 0, 0, Acc.clear isInt k, 0⟩ }
    let b := b.wr (Reg.RD_STATUS.REDUCE_BUSY p) 1
    let b := b.wr (Reg.RD_STATUS.SLICE p) j.slice
    b.wr (Reg.RD_STATUS.ROWS p) 0

/-- When the unit is free it takes the next command, round robin across waiting queues. -/
def Block.unitNext (b : Block) (p : Nat) : Block :=
  let s := b.posState p
  if s.vec.run.isSome ∨ s.red.isSome then b
  else
    let qs := s.unitQ.map fun j => j.queue
    let best := qs.foldl (fun (m : Option Nat) q =>
      let key (x : Nat) : Nat := (x + 16384 - s.lastQ - 1) % 16384
      match m with
      | none => some q
      | some y => if key q < key y then some q else some y) none
    match best with
    | none => b
    | some q => match s.unitQ.find? fun j => j.queue = q with
      | none => b
      | some j => (b.modPos p fun s => { s with unitQ := s.unitQ.erase j, lastQ := q }).unitStart p j

/-- A VEXEC or REDUCE is issued to the unit. -/
def Block.unitIssue (b : Block) (p : Nat) (j : Job) : Block :=
  (b.modPos p fun s => { s with unitQ := s.unitQ ++ [j] }).unitNext p

/-! ### Ends of kernels (R137, R138) -/

/-- Register state is discarded; the loaded image stays (R135, R138). -/
def VecState.discard (v : VecState) : VecState := { VecState.idle with imem := v.imem, resident := v.resident }

/-- The position's kernel is over: the unit is free. -/
def Block.vecFree (b : Block) (p : Nat) : Block :=
  let v := b.vec p
  match v.run with
  | none => b
  | some r =>
    let b := b.setVec p v.discard
    let b := b.wr (Reg.VE_STATUS.BUSY p) 0
    let b := b.wr (Reg.VE_STATUS.LOADING p) 0
    -- within R134 no kernel has run
    let b := if r.loading then b else b.wr (Reg.VE_FLAGS.FLAGS p) v.flags
    b.count (Reg.VE_BUSY_CYCLES.COUNT p) (b.now - r.start)

/-- VE_ERR_LOG and VE_ERR_ADDR. -/
def Block.vecLog (b : Block) (p slice st pc ptr : Nat) : Block :=
  if b.is (Reg.VE_ERR_LOG.VALID p) then b.wr (Reg.VE_ERR_LOG.OVERFLOW p) 1
  else
    let b := b.wr (Reg.VE_ERR_LOG.STATUS p) st
    let b := b.wr (Reg.VE_ERR_LOG.SLICE p) slice
    let b := b.wr (Reg.VE_ERR_LOG.PC p) pc
    let b := b.wr (Reg.VE_ERR_ADDR.PTR p) ptr
    b.wr (Reg.VE_ERR_LOG.VALID p) 1

/-- The VEXEC ends with `st` and COUNT `cnt`; the unit takes its next command. -/
def Block.vecReport (b : Block) (p : Nat) (r : VRun) (st cnt ptr : Nat) : Block :=
  let pc := (b.vec p).pc
  let b := if st = Code.SUCCESS then b else b.vecLog p r.job.slice st pc ptr
  ((b.vecFree p).reportCmd r.job.queue r.job.id st cnt).unitNext p

/-- COUNT of R137. -/
def VecState.countOf (v : VecState) (retired : Nat) : Nat :=
  v.flags % 128 + v.pc % 16384 * 2 ^ 16 + min retired (2 ^ 32 - 1) * 2 ^ 32

/-- A running kernel ends early at its instruction (R138). -/
def Block.vecFail (b : Block) (p : Nat) (r : VRun) (st ptr : Nat) : Block :=
  let b := { b with ext := { b.ext with need := [] } }
  b.vecReport p r st ((b.vec p).countOf r.retired) ptr

/-- Retire the instruction at PC, with the kernel's new registers and its next PC (R138). -/
def Block.vecRetire (b : Block) (p : Nat) (r : VRun) (v : VecState) (next : Nat) : Block :=
  let r := { r with retired := r.retired + 1, stalled := false }
  let v := { v with pc := next, run := some r }
  let b := (b.setVec p v).count (Reg.VE_RETIRED.COUNT p) 1
  let b := b.wr (Reg.VE_FLAGS.FLAGS p) v.flags
  let b := b.wr (Reg.VE_STATUS.PC p) next
  if r.instrCount ≤ next then b.vecFail p r Code.VEXEC_PC_RANGE 0 else b

/-! ### Instructions -/

/-- The instruction at PC. -/
def VecState.instr (v : VecState) : VInstr := VInstr.ofWord (SMap.get (fun _ => 0) v.imem v.pc).toNat

/-- The kernel of a position that may take its next instruction. -/
def VecState.ready (v : VecState) : Option VRun :=
  match v.run with
  | some r => if r.loading ∨ r.stalled then none else some r
  | none => none

/-- Run the instruction at PC if it is one of opcode `op` and R117 allows it. -/
def Block.vecAt (b : Block) (p op : Nat) (f : Block → VRun → VecState → VInstr → Block) : Block :=
  let v := b.vec p
  match v.ready with
  | none => b
  | some r => if v.instr.op = op ∧ v.legal v.instr then f b r v v.instr else b

/-- An instruction on registers alone. -/
def Block.vecAlu (b : Block) (p op : Nat) (f : VInstr → VecState → VecState) : Block :=
  b.vecAt p op fun b r v i => b.vecRetire p r (f i v) (v.pc + 1)

/-- A taken branch to `t` (R138). -/
def Block.vecJump (b : Block) (p : Nat) (r : VRun) (v : VecState) (t : Nat) : Block :=
  if r.instrCount ≤ t then b.vecFail p r Code.VEXEC_PC_RANGE 0 else b.vecRetire p r v t

/-! ### Memory (R124–R129) -/

/-- What a memory instruction does: registers afterwards, or the code and pointer it ends the kernel with. -/
structure VMem where
  b : Block
  v : VecState
  fail : Option (Status × Nat)

/-- R125 and R18 for a base pointer. -/
def Vec.baseCheck (p : Nat) : Option Status :=
  if Ptr.tag p = 1 ∨ Ptr.tag p = 2 then some Code.VEXEC_SPACE_DENIED else Ptr.check p

def Block.vecWho (b : Block) (p : Nat) (r : VRun) : Who := b.jobWho (.vec p) r.job

/-- Where element `m` of a memory array in format `f` lies, also before its base (R91, R124): offset of its first byte, bit in
it, bytes touched. -/
def Vec.place (f : EFmt) (m : Int) : Int × Nat × Nat :=
  let (o, s) : Int × Nat := match f with
    | .mxE2m1 => (m / 2, 4 * (m % 2).toNat)
    | .mxE3m2 | .mxE2m3 =>
      let k := m / 32
      let bit := 6 * (m % 32).toNat
      (4096 * (k / 170) + 24 * (k % 170) + (bit / 8 : Nat), bit % 8)
    | _ => (m * (f.bits / 8 : Nat), 0)
  (o, s, (s + f.bits + 7) / 8)

/-- The address `o` bytes from `base`. -/
def Vec.at (base : Nat) (o : Int) : Nat := ((base : Int) + o).toNat

/-- The stream index of element `m`, as 64 bits (R99, R126). -/
def Vec.stream (m : Int) : Nat := toBits m 64

/-- Ascending spans that follow one another joined, as (address, length). -/
def joinSpans : List (Nat × Nat) → List (Nat × Nat)
  | [] => []
  | s :: ss =>
    match joinSpans ss with
    | [] => [s]
    | t :: ts => if s.1 ≤ t.1 ∧ t.1 ≤ s.1 + s.2 then (s.1, max (s.1 + s.2) (t.1 + t.2) - s.1) :: ts else s :: t :: ts

/-- Read spans of the DLA space, ending at the first request that fails. -/
def Block.readSpans (b : Block) (w : Who) (ss : List (Nat × Nat)) : Block × Option (Status × Nat) × List (Nat × List Byte) :=
  (ss.flatMap fun s => chunksOf s.1 s.2).foldl (fun (acc : Block × Option (Status × Nat) × List (Nat × List Byte)) c =>
    if acc.2.1.isSome then acc
    else
      let q := acc.1.dla w c.1 c.2.1 .read
      (q.1, if q.2.1 = Code.SUCCESS then none else some (q.2.1, c.1), acc.2.2 ++ [(c.1, sliceBytes q.2.2 0 c.2.1)]))
    (b, none, [])

/-- Bytes that were read. -/
def spanBytes (got : List (Nat × List Byte)) (a len : Nat) : List Byte :=
  (List.range len).map fun i => match got.find? fun e => decide (e.1 ≤ a + i) && decide (a + i < e.1 + e.2.length) with
    | some e => e.2.getD (a + i - e.1) 0
    | none => 0

/-- The memory elements that active iterations address, or the check of R18 that fails. -/
def VecState.memElems (v : VecState) (i : VInstr) (n : Nat) (all : Bool) : List (Nat × Int) :=
  ((List.range n).filter fun e => all || v.active i n e).map fun e => (e, v.memIndex i e)

/-- R18 for an element's bytes, and its scale's for an MX format. -/
def Vec.elemFault (f : EFmt) (base sbase : Nat) (m : Int) : Option (Status × Nat) :=
  let (o, _, len) := Vec.place f m
  if (Ptr.add base o).isNone ∨ (Ptr.add base (o + len - 1)).isNone then some (Code.ADDR_NONCANONICAL, base)
  else if f.isMx ∧ (Ptr.add sbase (m / 32)).isNone then some (Code.ADDR_NONCANONICAL, sbase)
  else none

/-- Checks every memory instruction makes before it moves data. -/
def VecState.memFault (v : VecState) (i : VInstr) (f : EFmt) (es : List (Nat × Int)) : Option (Status × Nat) :=
  let base := v.xreg i.xa
  let sbase := v.xreg (i.xa + 1)
  match (Vec.baseCheck base).map fun st => (st, base) with
  | some x => some x
  | none =>
    match (if f.isMx then (Vec.baseCheck sbase).map fun st => (st, sbase) else none) with
    | some x => some x
    | none => es.findSome? fun e => Vec.elemFault f base sbase e.2

/-- VLD, VLDS and VLDX (R124, R126). -/
def Block.vecLoad (b : Block) (p : Nat) (r : VRun) (v : VecState) (i : VInstr) : VMem :=
  let f := (EFmt.ofCode i.mfmt).getD .fp32
  let t := (vtype i.ty).getD .fp32
  let wd := vtypeW i.ty
  let n := v.count wd
  let es := v.memElems i n false
  match v.memFault i f es with
  | some x => ⟨b, v, some x⟩
  | none =>
    let base := v.xreg i.xa
    let sbase := v.xreg (i.xa + 1)
    let spans := joinSpans (es.map fun e => let q := Vec.place f e.2; (Vec.at base q.1, q.2.2))
      ++ (if f.isMx then joinSpans ((es.map fun e => Vec.at sbase (e.2 / 32)).eraseDups.map fun a => (a, 1)) else [])
    match b.readSpans (b.vecWho p r) spans with
    | (b, some x, _) => ⟨b, v, some x⟩
    | (b, none, got) =>
      let conv (e : Nat) : Conv :=
        let m := v.memIndex i e
        let q := Vec.place f m
        let raw := bits (leNat (spanBytes got (Vec.at base q.1) q.2.2)) q.2.1 f.bits
        let rm := roundingOf i.rnd v.seed (Vec.stream m)
        if f.isMx then convertTo t rm (mxValue f (leNat (spanBytes got (Vec.at sbase (m / 32)) 1)) raw) else convertBits f t rm raw
      let v' := v.writeElems i i.vd wd n fun e => (conv e).bits
      ⟨b, v'.orFlags (v.flagsOf i n fun e => flagIf (conv e).sat Flag.SSAT), none⟩

/-- The writes of a store, in ascending elements, or R126's fault; and whether an element saturated. -/
def VecState.storeWrites (v : VecState) (i : VInstr) (f : EFmt) : Option (List (Nat × List Byte) × Bool) :=
  let t := (vtype i.ty).getD .fp32
  let wd := vtypeW i.ty
  let n := v.count wd
  let base := v.xreg i.xa
  if f.isMx then
    let mx6 : Bool := decide (f = .mxE3m2) || decide (f = .mxE2m3)
    if n % 32 ≠ 0 ∨ i.off % 32 ≠ 0 ∨ (mx6 ∧ base % 4096 ≠ 0) then none
    else
      some ((List.range (n / 32)).foldl (fun (acc : List (Nat × List Byte) × Bool) g =>
        let m0 := v.memIndex i (32 * g)
        let vals := (List.range 32).map fun j =>
          let e := 32 * g + j
          if v.active i n e then t.value (v.elem i.vd wd e) else .fin false 0 0
        let q := mxBlock f (fun j => roundingOf i.rnd v.seed (Vec.stream (m0 + j))) vals
        (acc.1 ++ [(Vec.at base (Vec.place f m0).1, packBits f.bits (q.2.map fun c => c.bits)),
          (Vec.at (v.xreg (i.xa + 1)) (m0 / 32), [BitVec.ofNat 8 q.1])], acc.2 || q.2.any fun c => c.sat)) ([], false))
  else
    some ((v.memElems i n false).foldl (fun (acc : List (Nat × List Byte) × Bool) e =>
      let c := convertBits t f (roundingOf i.rnd v.seed (Vec.stream e.2)) (v.elem i.vd wd e.1)
      (acc.1 ++ [(Vec.at base (Vec.place f e.2).1, natLE (f.bits / 8) c.bits)], acc.2 || c.sat)) ([], false))

/-- Pieces of writes within one 64-byte beat each. -/
def beatPieces (ws : List (Nat × List Byte)) : List (Nat × List Byte) :=
  ws.flatMap fun w =>
    let first := w.1 / 64
    (List.range ((w.1 + w.2.length + 63) / 64 - first)).map fun i =>
      let lo := max w.1 (64 * (first + i))
      let hi := min (w.1 + w.2.length) (64 * (first + i) + 64)
      (lo, sliceBytes w.2 (lo - w.1) (hi - lo))

/-- Perform pieces of a store or scatter-add, each by `one`. Where one fails, which of the others were performed is open
(R127). -/
def Block.writePieces (b : Block) (one : Block → Nat × List Byte → Block × Status) (ps : List (Nat × List Byte)) :
    Block × Option (Status × Nat) :=
  let all := ps.foldl (fun (acc : Block × Option (Status × Nat)) x =>
    let q := one acc.1 x
    (q.1, match acc.2 with
      | some y => some y
      | none => if q.2 = Code.SUCCESS then none else some (q.2, x.1))) (b, none)
  match all.2 with
  | none => all
  | some (st, a) =>
    let r := ps.foldl (fun (acc : Block) x =>
      if x.1 = a then (one acc x).1
      else
        let f := acc.fresh
        if bit f.2 0 then (one f.1 x).1 else f.1) b
    (r, some (st, a))

/-- VST, VSTS and VSTX (R126, R127). -/
def Block.vecStore (b : Block) (p : Nat) (r : VRun) (v : VecState) (i : VInstr) : VMem :=
  let f := (EFmt.ofCode i.mfmt).getD .fp32
  let n := v.count (vtypeW i.ty)
  match v.memFault i f [] with
  | some x => ⟨b, v, some x⟩
  | none =>
    match v.storeWrites i f with
    | none => ⟨b, v, some (Code.VEXEC_MX_ALIGN, v.xreg i.xa)⟩
    | some (ws, sat) =>
      match v.memFault i f (v.memElems i n f.isMx) with
      | some x => ⟨b, v, some x⟩
      | none =>
        let w := b.vecWho p r
        let q := b.writePieces (fun b x => let a := b.dla w x.1 x.2.length (.write x.2); (a.1, a.2.1)) (beatPieces ws)
        ⟨q.1, v.orFlags (flagIf sat Flag.SSAT), q.2⟩

/-- VSTXA (R126): memory-side adds in ascending elements. -/
def Block.vecScatterAdd (b : Block) (p : Nat) (r : VRun) (v : VecState) (i : VInstr) : VMem :=
  let f := (EFmt.ofCode i.mfmt).getD .fp32
  let n := v.count 32
  match v.memFault i f (v.memElems i n false) with
  | some x => ⟨b, v, some x⟩
  | none =>
    let ps := (v.memElems i n false).map fun e => (Vec.at (v.xreg i.xa) (4 * e.2), natLE 4 (v.elem i.vd 32 e.1))
    let off (a : Nat) : Bool := match b.range a with
      | .window _ _ | .sync => true
      | _ => false
    let bad := ps.find? fun x => off x.1 || off (x.1 + 3)
    match bad with
    | some x => ⟨b, v, some (Code.VEXEC_SPACE_DENIED, x.1)⟩
    | none =>
      let w := b.vecWho p r
      let q := b.writePieces (fun b x => b.dlaAdd w (if i.ty = 0 then .fp32 else .int32) x.1 x.2) ps
      ⟨q.1, v, q.2⟩

/-- The block that VSEAL or VCHK names (R128). -/
def Block.vecBlock (b : Block) (a : Nat) : Option Status :=
  match Vec.baseCheck a with
  | some st => some st
  | none => if a % 4096 = 0 ∧ b.sealable a then none else some Code.VEXEC_BAD_BLOCK

/-- VSEAL (R128). -/
def Block.vecSeal (b : Block) (p : Nat) (r : VRun) (v : VecState) (i : VInstr) : VMem :=
  let a := v.xreg i.xa
  match b.vecBlock a with
  | some st => ⟨b, v, some (st, a)⟩
  | none =>
    let w := b.vecWho p r
    match b.dlaRead w a 4096 with
    | (b, st, ds) =>
      if st ≠ Code.SUCCESS then ⟨b, v, some (st, a)⟩
      else
        let sl := Seal.make ds (0x020 + p) r.job.epoch 0 (v.flags &&& Flag.SSAT != 0)
        match b.dlaWriteBlock w a ds sl with
        | (b, st) => ⟨b, v, if st = Code.SUCCESS then none else some (st, a)⟩

/-- VCHK (R129). -/
def Block.vecChk (b : Block) (p : Nat) (r : VRun) (v : VecState) (i : VInstr) : VMem :=
  let a := v.xreg i.xa
  match b.vecBlock a with
  | some st => ⟨b, v, some (st, a)⟩
  | none =>
    match b.dlaReadBlock (b.vecWho p r) a with
    | (b, st, ds, sl) =>
      if st ≠ Code.SUCCESS then ⟨b, v, some (st, a)⟩
      else if b.waiting then ⟨b, v, none⟩
      else match Seal.verify ds sl (bit i.ext 0) (if bit i.ext 1 then some (v.xreg i.xb % 4096) else none) with
        | none => ⟨b, v, none⟩
        | some (st, crc) =>
          let code := if st = Code.XFER_SEAL_MISMATCH then Code.VEXEC_SEAL_MISMATCH
            else if st = Code.XFER_SEAL_EPOCH then Code.VEXEC_SEAL_EPOCH else Code.VEXEC_SEAL_ABSENT
          ⟨b.sealPennant p crc (Seal.producer sl) a, v, some (code, a)⟩

/-- Whether an instruction stores: VST, VSTS, VSTX, VSTXA and VSEAL. -/
def VInstr.stores (i : VInstr) : Bool := decide (0x14 ≤ i.op) && decide (i.op ≤ 0x18)

/-- The store that a kernel has issued, not complete, as a slice's work ends: the kernel ends after it (R139). -/
def VRun.lasts (r : VRun) (v : VecState) : Bool := r.stalled && v.instr.stores

/-- Run a memory instruction; one that must wait for a site window or the coherence home stalls the kernel. A kernel that was
to end does so when its store completes, without a report (R139). -/
def Block.vecMem (b : Block) (p : Nat) (r : VRun) (v : VecState) (i : VInstr)
    (f : Block → Nat → VRun → VecState → VInstr → VMem) : Block :=
  let x := f b p r v i
  match x.fail with
  | some (st, ptr) =>
    let b := if r.ends then (({ x.b with ext := { x.b.ext with need := [] } } : Block).vecFree p).unitNext p
      else x.b.vecFail p r st ptr
    { b with ext := { b.ext with used := [], done := b.ext.done.filter fun d => !b.ext.used.contains d.need } }
  | none =>
    if x.b.waiting then
      (b.issue x.b.ext.need).setVec p { v with run := some { r with stalled := true } }
    else
      let b := if r.ends then ((x.b.count (Reg.VE_RETIRED.COUNT p) 1).vecFree p).unitNext p
        else x.b.vecRetire p r x.v (v.pc + 1)
      { b with ext := { b.ext with used := [], done := b.ext.done.filter fun d => !b.ext.used.contains d.need } }

/-- A memory instruction's row. -/
def Block.vecAtMem (b : Block) (p op : Nat) (f : Block → Nat → VRun → VecState → VInstr → VMem) : Block :=
  b.vecAt p op fun b r v i => b.vecMem p r v i f

/-! ### Loading (R134, R135) -/

/-- Drop the resident image. -/
def Block.vecDropImage (b : Block) (p : Nat) : Block :=
  let v := b.vec p
  (b.setVec p { v with resident := none }).wr (Reg.VE_RESIDENT.PTR p) 0

/-- An end within R134: COUNT 0. -/
def Block.vecLoadFail (b : Block) (p : Nat) (r : VRun) (st ptr : Nat) : Block :=
  let b := { b with ext := { b.ext with need := [] } }
  let v := b.vec p
  (b.setVec p { v with pc := 0 }).vecReport p r st 0 ptr

/-- A read of step 1, 3 or 4. -/
def Block.vecImageRead (b : Block) (p : Nat) (r : VRun) (ptr len : Nat) : Block × Bool × List Byte :=
  match Ptr.check ptr with
  | some _ => (b, false, [])
  | none =>
    if len = 0 then (b, true, [])
    else
      let q := b.ptrRead (b.jobWho (.cmd p) r.job) ptr len
      (q.1, decide (q.2.1 = Code.SUCCESS), q.2.2)

/-- Words of a byte list, by index. -/
def wordMap (ds : List Byte) (n : Nat) : SMap Word :=
  (List.range n).foldr (fun i m => let w := BitVec.ofNat 64 (leAt ds (8 * i) 8); if w = 0 then m else (i, w) :: m) []

/-- Steps 4 to 6 of R134. -/
def Block.vecBegin (b : Block) (p : Nat) (r : VRun) (instrs : Nat) : Block :=
  let argPtr := r.job.w 3
  let argBytes := if argPtr = 0 then 0 else bits (r.job.w 4) 0 11
  let entry := bits (r.job.w 4) 16 16
  match b.vecImageRead p r argPtr argBytes with
  | (b, false, _) => b.vecLoadFail p r Code.VEXEC_IMAGE_FAULT argPtr
  | (b, true, args) =>
    if b.waiting then b
    else
      let v := b.vec p
      let am := wordMap (sliceBytes args 0 1024) 128
      let xs := (List.range 15).foldl (fun m i => SMap.put (fun _ => 0) m (i + 1) (SMap.get (fun _ => 0) am i)) []
      let v := { v.discard with amem := am, x := xs, pc := entry, run := some { r with loading := false, instrCount := instrs } }
      let b := b.setVec p v
      let b := b.wr (Reg.VE_STATUS.LOADING p) 0
      let b := b.wr (Reg.VE_FLAGS.FLAGS p) 0
      b.wr (Reg.VE_STATUS.PC p) entry

/-- R134. -/
def Block.vecLoadImage (b : Block) (p : Nat) (r : VRun) : Block :=
  let kp := r.job.w 2
  if kp % 64 ≠ 0 then b.vecLoadFail p r Code.VEXEC_BAD_IMAGE kp
  else match b.vecImageRead p r kp 64 with
    | (b, false, _) => b.vecLoadFail p r Code.VEXEC_IMAGE_FAULT kp
    | (b, true, hd) =>
      if b.waiting then b
      else
        let n := leAt hd 8 4
        if leAt hd 0 4 ≠ 0x4B565A57 ∨ leAt hd 4 2 ≠ 1 ∨ n = 0 ∨ 16384 < n then b.vecLoadFail p r Code.VEXEC_BAD_IMAGE kp
        else if n ≤ bits (r.job.w 4) 16 16 then b.vecLoadFail p r Code.VEXEC_PC_RANGE kp
        else if (b.vec p).resident = some ⟨kp, hd, r.job.slice, r.job.gen, n⟩ then b.vecBegin p r n
        else match Ptr.add kp 64 with
          | none => (b.vecDropImage p).vecLoadFail p r Code.VEXEC_IMAGE_FAULT kp
          | some ip => match b.vecImageRead p r ip (8 * n) with
            | (b, false, _) => (b.vecDropImage p).vecLoadFail p r Code.VEXEC_IMAGE_FAULT kp
            | (b, true, ds) =>
              if b.waiting then b
              else if crc32c ds ≠ leAt hd 12 4 then (b.vecDropImage p).vecLoadFail p r Code.VEXEC_BAD_IMAGE kp
              else
                let v := b.vec p
                let b := b.setVec p { v with imem := wordMap ds n, resident := some ⟨kp, hd, r.job.slice, r.job.gen, n⟩ }
                let b := (b.wr (Reg.VE_RESIDENT.PTR p) kp).count (Reg.VE_IMAGE_LOADS.COUNT p) 1
                b.vecBegin p r n

end Sys2Proof.Machine
end

