-- ==== Sys2Proof/Machine/Reduction.lean ====
section
/-! DEFINITION. REDUCE and COLLECT (06). -/

namespace Sys2Proof.Machine

/-! ### REDUCE (R145, R146) -/

/-- OP, FORMAT, K, COUNT and ROWS of a REDUCE. -/
def Red.op (w4 : Nat) : Nat := bits w4 24 8
def Red.fmt (w4 : Nat) : Nat := bits w4 32 4
def Red.k (w4 : Nat) : Nat := bits w4 36 7
def Red.count (w4 : Nat) : Nat := bits w4 0 24

/-- Table RED-3: whether a pair of OP and FORMAT is allowed. -/
def Red.allowed (op fmt : Nat) : Bool :=
  decide (1 ≤ fmt) && decide (fmt ≤ 8) && decide (1 ≤ op) && decide (op ≤ 7) && (decide (op ≤ 5) || decide (fmt ≤ 5))

/-- What R65 and R67 ask of a REDUCE. -/
def Block.reduceCheck (b : Block) (s : Nat) (c : FCmd) : CmdCheck :=
  let w4 := c.w 4
  { ptrs := [c.w 2, c.w 3]
    ok := decide (Ptr.tag (c.w 2) < 2) && decide (Ptr.tag (c.w 3) < 2) && decide (1 ≤ Red.count w4)
      && Red.allowed (Red.op w4) (Red.fmt w4) && (decide (Red.op w4 ≠ 5) || (decide (1 ≤ Red.k w4) && decide (Red.k w4 ≤ 64)))
      && decide (1 ≤ bits (c.w 5) 0 32) && b.holdsPos s c.pos }

/-- REDUCE (R145). -/
def execReduce (slice : SliceNo) (cls : ClassNo) (s : State) : Host.Outcome State Fault Refusal :=
  .next (s.upd fun b => b.settle fun b =>
    b.issueNext slice cls (· = 0x03) (fun b c => b.reduceCheck slice c) fun b cmd id =>
      b.unitIssue cmd.pos (b.mkJob slice cls cmd id))

/-- RD_ERR_LOG and RD_ERR_ADDR. -/
def Block.redLog (b : Block) (p slice st member collect ptr : Nat) : Block :=
  if b.is (Reg.RD_ERR_LOG.VALID p) then b.wr (Reg.RD_ERR_LOG.OVERFLOW p) 1
  else
    let b := b.wr (Reg.RD_ERR_LOG.STATUS p) st
    let b := b.wr (Reg.RD_ERR_LOG.SLICE p) slice
    let b := b.wr (Reg.RD_ERR_LOG.MEMBER p) member
    let b := b.wr (Reg.RD_ERR_LOG.COLLECT p) collect
    let b := b.wr (Reg.RD_ERR_ADDR.PTR p) ptr
    b.wr (Reg.RD_ERR_LOG.VALID p) 1

/-- The REDUCE of a position is over: the unit is free. -/
def Block.redFree (b : Block) (p : Nat) : Block :=
  (b.modPos p fun s => { s with red := none }).wr (Reg.RD_STATUS.REDUCE_BUSY p) 0

/-- End a REDUCE with its COUNT (R146). -/
def Block.redEnd (b : Block) (p : Nat) (r : RedRun) (st ptr : Nat) : Block :=
  let b := { b with ext := { b.ext with need := [] } }
  let b := if st = Code.SUCCESS then b else b.redLog p r.job.slice st 0 0 ptr
  ((b.redFree p).reportCmd r.job.queue r.job.id st (r.row % 2 ^ 32 + r.flags % 128 * 2 ^ 32)).unitNext p

/-- A translation's failure, where the unit has its own code (Table XLT-1). -/
def Red.code (st : Status) : Status :=
  if st = Code.XLT_PAGE_FAILED ∨ st = Code.XLT_ATS_FAILED ∨ st = Code.XLT_ATS_DISABLED then Code.REDUCE_FAULT_UNRESOLVED else st

/-- The elements of a chunk as they are fed: FP32, or sign-extended INT32. -/
def Red.fed (f : EFmt) (ds : List Byte) (n : Nat) : Fed :=
  let sz := f.bits / 8
  (List.range n).map fun e =>
    let raw := leAt ds (sz * e) sz
    (e, if f.float?.isSome then (convertBits f .fp32 .nearest raw).bits else toBits (signed raw f.bits) 32)

/-- Feed a chunk whose first element is element `col` of its row. -/
def Red.feed (op col : Nat) (a : Acc) (fed : Fed) : Acc × Nat :=
  match op with
  | 0x01 | 0x02 | 0x03 => a.addSums 256 fed
  | 0x04 | 0x05 => a.topFeed (col % 2 ^ 32) fed
  | 0x06 => a.norm 0x3F800000 256 fed
  | _ => a.norm 0x3FB8AA3B 256 fed

/-- The result of a row (Table RED-3). -/
def Red.result (op : Nat) (a : Acc) : List Byte :=
  match op with
  | 0x01 => natLE 8 a.sum
  | 0x02 => natLE 8 a.sumsq
  | 0x03 => natLE 8 a.sum ++ natLE 8 a.sumsq
  | 0x04 | 0x05 => a.top.flatMap fun e => natLE 4 e.1 ++ natLE 4 e.2
  | _ => natLE 4 a.m ++ natLE 4 a.s

/-- The bytes of a row's result. -/
def Red.size (op k : Nat) : Nat :=
  match op with
  | 0x03 => 16
  | 0x05 => 8 * k
  | _ => 8

/-- One chunk of up to 256 elements is read and fed; a finished row's result is written (R146). -/
def Block.reduceChunk (b : Block) (p : Nat) (r : RedRun) : Block :=
  let w4 := r.job.w 4
  let f := (EFmt.ofCode (Red.fmt w4)).getD .fp32
  let n := min 256 (Red.count w4 - r.col)
  let sz := f.bits / 8
  let w := b.jobWho (.red p) r.job
  let src := Ptr.add (r.job.w 2) (r.row * bits (r.job.w 5) 32 32 + r.col * sz : Nat)
  match src with
  | none => b.redEnd p r Code.ADDR_NONCANONICAL (r.job.w 2)
  | some sp =>
    match b.ptrRead w sp (n * sz) with
    | (b, st, ds) =>
      if st ≠ Code.SUCCESS then b.redEnd p r (Red.code st) sp
      else if b.waiting then b
      else
        let (a, fl) := Red.feed (Red.op w4) r.col r.acc (Red.fed f ds n)
        let r := { r with acc := a, flags := r.flags ||| fl, col := r.col + n }
        if r.col < Red.count w4 then b.modPos p fun s => { s with red := some r }
        else
          let k := if Red.op w4 = 4 then 1 else Red.k w4
          match Ptr.add (r.job.w 3) (r.row * Red.size (Red.op w4) k : Nat) with
          | none => b.redEnd p r Code.ADDR_NONCANONICAL (r.job.w 3)
          | some dp =>
            match b.ptrWrite w true false dp (Red.result (Red.op w4) a) with
            | (b, st) =>
              if st ≠ Code.SUCCESS then b.redEnd p r (Red.code st) dp
              else if b.waiting then b
              else
                let b := if Ptr.tag dp = 1 then b.hostWrote r.job.queue r.job.slice (Ptr.addr dp) else b
                let r := { r with row := r.row + 1, col := 0, acc := Acc.clear (decide (6 ≤ Red.fmt w4)) k }
                let b := (b.count (Reg.RD_ROWS.COUNT p) 1).wr (Reg.RD_STATUS.ROWS p) r.row
                if r.row < bits (r.job.w 5) 0 32 then b.modPos p fun s => { s with red := some r }
                else b.redEnd p r Code.SUCCESS 0

/-- REDUCE_CHUNK (R146). -/
def execReduceChunk (pos : PosNo) (s : State) : Host.Outcome State Fault Refusal :=
  .next (s.upd fun b => b.settle fun b =>
    match (b.posState pos).red with
    | some r => b.reduceChunk pos r
    | none => b)

/-! ### COLLECT (R147–R149, R340) -/

def Coll.bytes (j : Job) : Nat := bits (j.w 4) 0 40
def Coll.kind (j : Job) : Nat := bits (j.w 4) 40 2
def Coll.fmt (j : Job) : Nat := bits (j.w 4) 42 4
def Coll.redOp (j : Job) : Nat := bits (j.w 4) 46 2
def Coll.root (j : Job) : Nat := bits (j.w 6) 0 8

/-- What R65, R67 and R147 ask of a COLLECT. -/
def Block.collectCheck (b : Block) (s : Nat) (c : FCmd) : CmdCheck :=
  let fmt := bits (c.w 4) 42 4
  let f := (EFmt.ofCode fmt).getD .fp32
  { ptrs := [c.w 2, c.w 3, c.w 5]
    ok := decide (Ptr.tag (c.w 2) = 0) && decide (Ptr.tag (c.w 3) = 0) && decide (Ptr.tag (c.w 5) = 0)
      && decide (1 ≤ bits (c.w 4) 0 40) && decide (bits (c.w 4) 40 2 < 3) && decide (bits (c.w 4) 46 2 < 3)
      && ([1, 2, 3, 6, 7, 8].contains fmt) && decide (bits (c.w 4) 0 40 % (f.bits / 8) = 0) && b.holdsPos s c.pos }

def CollRun.m (c : CollRun) : Nat := c.members.length
def CollRun.rank (c : CollRun) : Nat :=
  if Coll.kind c.job = 2 then (c.self + c.m - Coll.root c.job) % c.m else c.self
/-- The member of a rank. -/
def CollRun.ofRank (c : CollRun) (r : Nat) : Nat := if Coll.kind c.job = 2 then (r + Coll.root c.job) % c.m else r
def CollRun.childRanks (c : CollRun) : List Nat :=
  ((List.range 4).map fun j => 4 * c.rank + 1 + j).filter fun r => r < c.m
def CollRun.children (c : CollRun) : List Nat := c.childRanks.map c.ofRank
/-- P of R148. -/
def CollRun.signals (c : CollRun) : Nat :=
  let p := if c.rank = 0 then 0 else 1
  match Coll.kind c.job with
  | 0 => c.childRanks.length + p
  | 1 => c.m - 1
  | _ => p

def CollRun.member (c : CollRun) (i : Nat) : Member := c.members.getD i ⟨0xFFF, 0, 0, 0, 0⟩

/-- A DLA on member `i`'s device as a pointer. -/
def CollRun.ptr (c : CollRun) (i a : Nat) : Nat :=
  let m := c.member i
  if m.peer = 0xFFF then a % 2 ^ 48 else 2 * 2 ^ 60 + m.peer * 2 ^ 48 + a % 2 ^ 48

/-- One combining step over elements of FORMAT. -/
def Coll.combine1 (f : EFmt) (op a b : Nat) : Nat :=
  match f.float? with
  | some g => match op with
    | 0 => (g.add a b).1
    | 1 => (g.minmax true a b).1
    | _ => (g.minmax false a b).1
  | none =>
    let w := f.bits
    match op with
    | 0 => (a + b) % 2 ^ w
    | 1 => if signed a w < signed b w then b else a
    | _ => if signed b w < signed a w then b else a

def Coll.combine (f : EFmt) (op : Nat) (a b : List Byte) : List Byte :=
  let sz := f.bits / 8
  (List.range (a.length / sz)).flatMap fun i => natLE sz (Coll.combine1 f op (leAt a (sz * i) sz) (leAt b (sz * i) sz))

/-- The record of a COLLECT (R340). -/
def Block.collRec (b : Block) (p : Nat) (c : CollRun) : List Nat :=
  match (b.posState p).records.find? fun r => r.slice = c.job.slice ∧ r.group = c.job.w 5 ∧ r.base = c.base with
  | some r => r.done
  | none => []

def Block.collNote (b : Block) (p : Nat) (c : CollRun) (step : Nat) : Block :=
  let done := b.collRec p c
  b.modPos p fun s => { s with
    records := (s.records.filter fun r => !(decide (r.slice = c.job.slice) && decide (r.group = c.job.w 5) && decide (r.base = c.base)))
      ++ [⟨c.job.slice, c.job.w 5, c.base, done ++ [step]⟩] }

def Block.putColl (b : Block) (p : Nat) (c : CollRun) : Block :=
  b.modPos p fun s => { s with colls := s.colls.map fun x => if x.job.queue = c.job.queue then c else x }

def Block.collBusy (b : Block) (p : Nat) : Block :=
  b.wr (Reg.RD_STATUS.COLLECT_BUSY p) (b01 !(b.posState p).colls.isEmpty)

/-- A COLLECT is over: its wait is withdrawn. -/
def Block.collDrop (b : Block) (p : Nat) (c : CollRun) : Block :=
  let b := b.modPos p fun s => { s with colls := s.colls.filter fun x => x.job.queue ≠ c.job.queue }
  let b := b.dropWaits fun w => decide (w = .collect p c.job.queue c.job.id)
  b.collBusy p

/-- End a COLLECT; `member` is the one concerned. -/
def Block.collEnd (b : Block) (p : Nat) (c : CollRun) (st member ptr : Nat) : Block :=
  let b := { b with ext := { b.ext with need := [] } }
  let st := if Status.peerLost st ∨ st = Code.SYNC_PEER_LOST then Code.COLLECT_MEMBER_LOST else st
  let b := if st = Code.SUCCESS then b.count (Reg.RD_COLLECTS.COUNT p) 1 else b.redLog p c.job.slice st member 1 ptr
  let b := b.collDrop p c
  let b := b.modPos p fun s => { s with
    records := s.records.filter fun r => !(decide (r.slice = c.job.slice) && decide (r.group = c.job.w 5) && decide (r.base = c.base)) }
  b.reportCmd c.job.queue c.job.id st 0

/-- A failure met in a step: code, member, pointer. -/
abbrev CFail := Status × Nat × Nat

/-- Write `data` at DLA `a + off i` of each member, then signal those of them that are to be signalled. Steps that the
record shows are skipped; every write is visible before any signal. -/
def Block.collSend (b : Block) (p : Nat) (c : CollRun) (dests : List Nat) (addr : Nat → Nat) (sig : Nat → Bool)
    (data : List Byte) : Block × Option CFail :=
  let w := b.jobWho (.collect p) c.job
  let wr := dests.foldl (fun (acc : Block × Option CFail) i =>
    if acc.2.isSome ∨ (acc.1.collRec p c).contains (2 * i) then acc
    else
      let q := c.ptr i (addr i)
      match acc.1.ptrWrite w false false q data with
      | (b, st) => if st = Code.SUCCESS then (b.collNote p c (2 * i), none) else (b, some (st, i, q))) (b, none)
  if wr.2.isSome ∨ wr.1.waiting then wr
  else (dests.filter sig).foldl (fun (acc : Block × Option CFail) i =>
    if acc.2.isSome ∨ (acc.1.collRec p c).contains (2 * i + 1) then acc
    else
      let q := c.ptr i (Sync.dla (c.member i).sync)
      match acc.1.ptrSignal w q 1 with
      | (b, st) => if st = Code.SUCCESS then (b.collNote p c (2 * i + 1), none) else (b, some (st, i, q))) wr

/-- Wait for the member's own object to reach `target`. -/
def Block.collWait (b : Block) (p : Nat) (c : CollRun) (phase : CPhase) (target : Nat) : Block :=
  let obj := (c.member c.self).sync
  let w := b.jobWho (.collect p) c.job
  match b.checkReq w (Sync.dla obj) .r with
  | (b, some st) => b.collEnd p c st c.self (Sync.dla obj)
  | (b, none) =>
    match b.syncWait obj target (.collect p c.job.queue c.job.id) 0 with
    | (b, st) =>
      if st = Code.SUCCESS then b.putColl p { c with phase := phase, since := b.now }
      else b.collEnd p c st c.self (Sync.dla obj)

/-- The path to entry `n` of RCH_PEER is lost: COLLECTs with a member there end (R149). -/
def Block.collsLost (b : Block) (n : Nat) : Block :=
  let there (c : CollRun) : Option Nat := findIdx c.m fun i => decide ((c.member i).peer = n)
  b.pos.foldl (fun b e => (b.posState e.1).colls.foldl (fun b c => match there c with
    | some i => b.collEnd e.1 c Code.COLLECT_MEMBER_LOST i (c.ptr i (Sync.dla (c.member i).sync))
    | none => b) b) b

/-- The member's own result is visible: BASE advances by P and the COLLECT completes (R148). -/
def Block.collFinish (b : Block) (p : Nat) (c : CollRun) : Block :=
  let a := c.job.w 5 + 8
  match b.dlaWrite (b.jobWho (.collect p) c.job) (Ptr.addr a) (natLE 8 (c.base + c.signals)) with
  | (b, st) => if b.waiting then b else b.collEnd p c st c.self (if st = Code.SUCCESS then 0 else a)

/-- Write this member's DST to its children and signal them, then finish. -/
def Block.collPassOn (b : Block) (p : Nat) (c : CollRun) (data : List Byte) : Block :=
  match b.collSend p c c.children (fun i => (c.member i).dst) (fun _ => true) data with
  | (b, some (st, m, q)) => b.collEnd p c st m q
  | (b, none) => if b.waiting then b else b.collFinish p c

/-- The group table (Table RED-4) and R147's checks. -/
def Block.collTable (b : Block) (p : Nat) (c : CollRun) : Block × Option CFail × CollRun :=
  let w := b.jobWho (.collect p) c.job
  let g := c.job.w 5
  match b.dlaRead w (Ptr.addr g) 32 with
  | (b, st, hd) =>
    if st ≠ Code.SUCCESS then (b, some (st, 0, g), c)
    else if b.waiting then (b, none, c)
    else
      let m := bits (leAt hd 0 8) 0 9
      let self := bits (leAt hd 0 8) 16 8
      if m < 2 ∨ 256 < m ∨ m ≤ self then (b, some (Code.COLLECT_BAD_GROUP, 0, g), c)
      else match b.dlaRead w (Ptr.addr g + 32) (32 * m) with
        | (b, st, tb) =>
          if st ≠ Code.SUCCESS then (b, some (st, 0, g), c)
          else if b.waiting then (b, none, c)
          else
            let ms := (List.range m).map fun i =>
              let w0 := leAt tb (32 * i) 8
              (⟨bits w0 0 12, bits w0 12 5, bits w0 17 17, bits (leAt tb (32 * i + 8) 8) 0 48, bits (leAt tb (32 * i + 16) 8) 0 48⟩ : Member)
            let me := ms.getD self ⟨0, 0, 0, 0, 0⟩
            let bad : Bool := decide (me.peer ≠ 0xFFF) || decide (me.pos ≠ p) || decide (c.job.w 3 ≠ me.dst)
              || (decide (Coll.kind c.job = 2) && decide (m ≤ Coll.root c.job))
              || (ms.any fun x => decide (x.peer ≠ 0xFFF) && (b.peerEntry c.job.slice x.peer).isNone)
            if bad then (b, some (Code.COLLECT_BAD_GROUP, 0, g), c)
            else (b, none, { c with self := self, base := leAt hd 8 8, members := ms })

/-- The first step of a COLLECT, up to its first wait. -/
def Block.collStart (b : Block) (p : Nat) (c : CollRun) : Block :=
  match b.collTable p c with
  | (b, some (st, m, q), c) => b.collEnd p c st m q
  | (b, none, c) =>
    if b.waiting then b
    else
      let w := b.jobWho (.collect p) c.job
      let n := Coll.bytes c.job
      if Coll.kind c.job = 0 then b.collWait p c .children (c.base + c.childRanks.length)
      else if Coll.kind c.job = 2 ∧ c.rank ≠ 0 then b.collWait p c .parent (c.base + c.signals)
      else match b.dlaRead w (Ptr.addr (c.job.w 2)) n with
        | (b, st, src) =>
          if st ≠ Code.SUCCESS then b.collEnd p c st c.self (c.job.w 2)
          else if b.waiting then b
          else if Coll.kind c.job = 1 then
            match b.collSend p c (List.range c.m) (fun i => (c.member i).dst + c.self * n) (fun i => decide (i ≠ c.self)) src with
            | (b, some (st, m, q)) => b.collEnd p c st m q
            | (b, none) => if b.waiting then b else b.collWait p c .parent (c.base + c.signals)
          else
            match b.dlaWrite w (c.member c.self).dst src with
            | (b, st) =>
              if st ≠ Code.SUCCESS then b.collEnd p c st c.self (c.member c.self).dst
              else if b.waiting then b
              else b.collPassOn p c src

/-- The member's partial: SRC combined with each child's staged partial in ascending rank (R148). -/
def Block.collPartial (b : Block) (p : Nat) (c : CollRun) : Block × Option CFail × List Byte :=
  let w := b.jobWho (.collect p) c.job
  let n := Coll.bytes c.job
  let f := (EFmt.ofCode (Coll.fmt c.job)).getD .fp32
  let first := b.dlaRead w (Ptr.addr (c.job.w 2)) n
  (List.range c.childRanks.length).foldl (fun (acc : Block × Option CFail × List Byte) j =>
    if acc.2.1.isSome then acc
    else
      let a := (c.member c.self).stage + n * j
      match acc.1.dlaRead w a n with
      | (b, st, d) =>
        if st = Code.SUCCESS then (b, none, Coll.combine f (Coll.redOp c.job) acc.2.2 d) else (b, some (st, c.self, a), acc.2.2))
    (first.1, (if first.2.1 = Code.SUCCESS then none else some (first.2.1, c.self, c.job.w 2)), first.2.2)

/-- The step after a satisfied wait. -/
def Block.collStep (b : Block) (p : Nat) (c : CollRun) : Block :=
  let w := b.jobWho (.collect p) c.job
  let n := Coll.bytes c.job
  match c.phase with
  | .children =>
    match b.collPartial p c with
    | (b, some (st, m, q), _) => b.collEnd p c st m q
    | (b, none, part) =>
      if b.waiting then b
      else if c.rank = 0 then
        match b.dlaWrite w (c.member c.self).dst part with
        | (b, st) =>
          if st ≠ Code.SUCCESS then b.collEnd p c st c.self (c.member c.self).dst
          else if b.waiting then b
          else b.collPassOn p c part
      else
        let up := c.ofRank ((c.rank - 1) / 4)
        match b.collSend p c [up] (fun i => (c.member i).stage + n * ((c.rank - 1) % 4)) (fun _ => true) part with
        | (b, some (st, m, q)) => b.collEnd p c st m q
        | (b, none) => if b.waiting then b else b.collWait p c .parent (c.base + c.signals)
  | .parent =>
    if Coll.kind c.job = 1 then b.collFinish p c
    else match b.dlaRead w (c.member c.self).dst n with
      | (b, st, d) =>
        if st ≠ Code.SUCCESS then b.collEnd p c st c.self (c.member c.self).dst
        else if b.waiting then b
        else b.collPassOn p c d
  | _ => b

/-- COLLECT (R147): one at a time for a queue on a position. -/
def execCollect (slice : SliceNo) (cls : ClassNo) (s : State) : Host.Outcome State Fault Refusal :=
  .next (s.upd fun b =>
    let q := 4 * slice.val + cls.val
    match (b.q slice cls).front with
    | none => b
    | some cmd =>
      if (b.posState cmd.pos).colls.any fun c => c.job.queue = q then b
      else
        let b := b.settle fun b =>
          b.issueNext slice cls (· = 0x04) (fun b c => b.collectCheck slice c) fun b cmd id =>
            let c : CollRun := ⟨b.mkJob slice cls cmd id, b.rd (Reg.RD_CFG.COLLECT_TIMEOUT_MS cmd.pos), 0, 0, [], .table, b.now⟩
            (b.modPos cmd.pos fun s => { s with colls := s.colls ++ [c] }).collBusy cmd.pos
        match (b.posState cmd.pos).colls.find? fun c => c.job.queue = q with
        | some c => b.settle fun b => b.collStart cmd.pos c
        | none => b)

/-- COLLECT_WAIT_SATISFIED (R148): a member's object has reached its target, or what its first step waited for outside has
come. -/
def execCollectWaitSatisfied (pos : PosNo) (nth : Fin 32) (s : State) : Host.Outcome State Fault Refusal :=
  .next (s.upd fun b => b.settle fun b =>
    match (b.posState pos).colls[nth.val]? with
    | none => b
    | some c =>
      if c.phase = .table then b.collStart pos c
      else
        let h := Sync.homeOf (c.member c.self).sync
        let ws := b.waitsAt h
        match ws.find? fun w => decide (w.who = .collect pos c.job.queue c.job.id) && w.satisfied with
        | some w => (b.setWaits h (ws.erase w)).collStep pos c
        | none => b)

/-- COLLECT_TIMEOUT (R149). -/
def execCollectTimeout (pos : PosNo) (nth : Fin 32) (s : State) : Host.Outcome State Fault Refusal :=
  .next (s.upd fun b =>
    match (b.posState pos).colls[nth.val]? with
    | none => b
    | some c =>
      let met : Bool := (b.waitsAt (Sync.homeOf (c.member c.self).sync)).any fun w =>
        decide (w.who = .collect pos c.job.queue c.job.id) && w.satisfied
      if (c.phase = .children ∨ c.phase = .parent) ∧ !met then
        b.collEnd pos c Code.COLLECT_TIMEOUT c.self (Sync.dla (c.member c.self).sync)
      else b)

end Sys2Proof.Machine
end

