-- ==== Sys2Proof/Machine/PowerSite.lean ====
section
/-! DEFINITION. HALFMAST of the stacked sites (R399), as resets, enrolment and power control drive it. -/

namespace Sys2Proof.Machine

/-- Set or clear cause `i` of HALFMAST_s; a lateral site has none (R400). A thermal trip
holds HALFMAST without a cause (R401). -/
def Block.hmCause (b : Block) (s i : Nat) (on : Bool) : Block :=
  if !Site.stacked s then b
  else
    let c := setBits (b.rd (Reg.PW_SITE_STATUS.HM_CAUSE s)) i 1 (b01 on)
    (b.wr (Reg.PW_SITE_STATUS.HM_CAUSE s) c).wr (Reg.PW_SITE_STATUS.HALFMAST s) (b01 (c != 0 || b.pw.thermTrip))

def Block.sitePw (b : Block) (s : Nat) : SitePower := (b.site s).power
def Block.modPw (b : Block) (s : Nat) (f : SitePower → SitePower) : Block :=
  let v := b.site s
  b.setSite s { v with power := f v.power }

def Block.dipAuto (b : Block) : Block :=
  b.wr Reg.PW_STATUS.DIP_AUTO (b01 ((List.range 16).any fun s => match (b.sitePw s).dip with
    | some (a, _) => a
    | none => false))

/-- DIP goes to a site, and the site's dip runs; a later one takes its place (R397, R398). -/
def Block.putDip (b : Block) (s pct us : Nat) (auto : Bool) : Block :=
  let b := (b.sideband s 0x12 pct us).modPw s fun p => { p with dip := some (auto, b.now + usToCycles us) }
  (b.wr (Reg.PW_SITE_STATUS.DIPPED s) 1).dipAuto

end Sys2Proof.Machine
end

