-- ==== Sys2Proof/Machine/SiteLinkOps.lean ====
section
/-! DEFINITION. Site loss (R169), lane-group retirement and width changes (R162), reconciliation (R163, R164), and the
frames and retry of a stacked link (R158–R160). -/

namespace Sys2Proof.Machine

/-! ### Site loss (R169) -/

def Block.setLink (b : Block) (s st : Nat) : Block := b.wr (Reg.ST_STATUS.STATE s) st

/-- What R166 lets an untrained link keep: the pin, the groups' event times, its clocks and reset. -/
def LinkState.dropped (l : LinkState) : LinkState :=
  { LinkState.reset with
    eventAt := l.eventAt, pinned := l.pinned, srstLow := l.srstLow, srstAt := l.srstAt, trainAt := l.trainAt
    absent := l.absent, clocksRun := l.clocksRun }

/-- Whether ST_CTRL.CLK_HOLD lets the forwarded clocks run (R165). -/
def Block.siteClocks (b : Block) (s : Nat) : Block :=
  b.modLink s fun l => { l with
    clocksRun := b.is (Reg.ST_CFG.EN s) && !l.absent && (!b.is (Reg.ST_CTRL.CLK_HOLD s) || b.enrolled s) }

/-- The completions of step 2 of R169: window requests, then dispatches. -/
def Block.loseRequests (b : Block) (s : Nat) : Block × Nat :=
  let st := b.site s
  let wins := (st.tags.filterMap fun e => match e.2 with
      | some ⟨.window n, _, false⟩ => some n
      | _ => none) ++ st.owed.filterMap fun r => match r.use with
      | .window n => some n
      | _ => none
  let disps := st.disp.filterMap fun e => match e.2 with
    | some d => if d.cancelled then none else some d
    | none => none
  let b := wins.foldl (fun b n => b.extDone n Code.SITE_LOST []) b
  let b := disps.foldl (fun b d => b.reportCmd d.queue d.id Code.SITE_LOST 0) b
  (b, wins.length + disps.length)

/-- R169: site `s` is lost with a cause; a site that is off, resetting or lost already is not lost again. -/
def Block.loseSite (b : Block) (s cause : Nat) : Block :=
  if b.linkState s = Link.OFF ∨ b.linkState s = Link.LOST ∨ b.linkState s = Link.RESETTING then b
  else
    let r := b.loseRequests s
    let n := r.2
    let b := r.1.setLink s Link.LOST
    let b := b.dropWaits fun w => match w with
      | .site x _ _ _ => decide (x = s)
      | _ => false
    let b := b.wr Reg.MH_SITE_PRESENT.ENROLLED (setBits (b.rd Reg.MH_SITE_PRESENT.ENROLLED) s 1 0)
    let b := b.agentsDead s
    let st := b.site s
    let b := b.setSite s { st with
      link := st.link.dropped, credits := Credits.none, tags := [], siteTags := []
      begun := st.begun.map fun x => { x with lost := true }
      disp := [], enrol := .idle, txq := [], owed := []
      fencedCores := [], power := { SitePower.reset with coolSince := st.power.coolSince } }
    let b := ((b.wr (Reg.PW_SITE_STATUS.MISSED s) 0).wr (Reg.PW_SITE_STATUS.DIPPED s) 0).dipAuto
    let b := { b with fc := { b.fc with unfences := b.fc.unfences.filter fun u => u.site ≠ s } }
    let b := b.siteClocks s
    let b := b.hmCause s 3 true
    let b := b.count (Reg.ST_LOSS_LOG.LOSSES s) 1
    let b := b.capture (Reg.ST_LOSS_LOG.VALID s) (Reg.ST_LOSS_LOG.OVERFLOW s)
      [(Reg.ST_LOSS_LOG.CAUSE s, cause), (Reg.ST_LOSS_LOG.LOST_REQ s, min n 65535)]
    b.pennant (Src.site s) Kind.SITE_LOST cause 0

/-! ### Widths (R162–R164) -/

/-- The last SEQ received in order. -/
def LinkState.lastGood (l : LinkState) : Nat := (l.rxNext + 4095) % 4096

/-- R162 step 1: no new DATA frame, and WIDTH_CHANGE with the new set. -/
def Block.beginWidthChange (b : Block) (s new : Nat) : Block :=
  let b := b.setLink s Link.WIDTH_CHANGE
  let b := b.modLink s fun l => { l with widthChange := some new }
  b.sideband s 0x06 new (b.site s).link.lastGood

/-- R155 over the groups not retired, after one retires: a stacked link starts a change if its set changes, a lateral one
takes the set; with none left the site is lost. -/
def Block.narrow (b : Block) (s : Nat) : Block :=
  let new := Site.activeSet s (b.unretired s)
  if new = 0 then b.loseSite s 3
  else if !b.linkUp s ∨ b.linkState s = Link.WIDTH_CHANGE ∨ new = b.rd (Reg.ST_STATUS.WIDTH_SET s) then b
  else if Site.stacked s then b.beginWidthChange s new
  else b.wr (Reg.ST_STATUS.WIDTH_SET s) new

/-- The hub's WIDTH_PROPOSE of an attempt: the groups that passed its receive test, less those retired and those that failed
training (R163). -/
def Block.propose (b : Block) (s : Nat) (c : Recon) : Block :=
  let g := (b.site s).link.passed &&& b.unretired s
  let hub := g - (g &&& c.failed)
  let b := b.modLink s fun l => { l with recon := some { c with hubSet := some hub, since := b.now } }
  (b.setLink s Link.RECONCILING).sideband s 0x03 (hub + 256 * c.attempt) 0

/-- R162: retire a lane group. During a reconciliation the attempt is abandoned and repeated (R163). -/
def Block.retireGroup (b : Block) (s g : Nat) : Block :=
  let r := b.rd (Reg.ST_LANE_STATE.RETIRED s)
  if r.testBit g then b
  else
    let b := b.wr (Reg.ST_LANE_STATE.RETIRED s) (setBits r g 1 1)
    let b := b.wr (Reg.FC_BUCKET.STRUCK (Src.laneGroup s g)) 1
    let b := match (b.site s).link.recon with
      | some c => b.propose s { c with siteSet := none, hubAgree := none, siteAgree := none }
      | none => b
    b.narrow s

/-- A reconciliation attempt that fails (R163); the third in a row pins the width from the last two proposals (R164), a side
that made none in this attempt by its last. -/
def Block.failAttempt (b : Block) (s : Nat) (c : Recon) (failed : Nat) : Block :=
  let n := b.rd (Reg.ST_STATUS.RECON_FAILS s) + 1
  let b := b.wr (Reg.ST_STATUS.RECON_FAILS s) (min n 3)
  let bad := c.failed ||| failed
  let hub := c.hubSet.getD c.lastHub
  let site := c.siteSet.getD c.lastSite
  if 3 ≤ n then
    let pin := Site.activeSet s ((hub &&& site) - (hub &&& site &&& bad))
    let b := b.modLink s fun l => { l with pinned := some pin, recon := none }
    let b := b.wr (Reg.ST_STATUS.PINNED s) 1
    let b := b.sideband s 0x05 pin 0
    let b := b.pennant (Src.site s) Kind.WIDTH_PINNED 0 0
    if pin = 0 then b.loseSite s 3 else b
  else b.propose s ⟨c.attempt + 1, none, none, none, none, bad, hub, site, b.now⟩

/-! ### Rates (R157) -/

/-- The rate at which a module trained, `rates` holding its code in two bits (0 for none); 0 for one that trained only below
MIN_RATE. A MIN_RATE above MAX_RATE is taken as it. -/
def Block.moduleRate (b : Block) (s rates m : Nat) : Nat :=
  let top := b.rd (Reg.ST_CFG.MAX_RATE s)
  let r := min (bits rates (2 * m) 2) top
  if r < min (b.rd (Reg.ST_CFG.MIN_RATE s)) top then 0 else r

/-- The groups whose modules trained at a rate they may run at; on a stacked site every one. -/
def Block.ratedGroups (b : Block) (s rates : Nat) : Nat :=
  if Site.stacked s then 15 else ((List.range 4).map fun m => if b.moduleRate s rates m = 0 then 0 else 3 * 4 ^ m).sum

/-- The lowest rate of the modules of a set. -/
def Block.lowestRate (b : Block) (s rates set : Nat) : Nat :=
  if Site.stacked s then 0
  else (((List.range 4).filter fun m => bits set (2 * m) 2 ≠ 0).map fun m => b.moduleRate s rates m).foldl
    (fun lo r => if lo = 0 then r else if r = 0 then lo else min lo r) 0

/-- The hub's receive test of the first attempt has ended: the groups that passed it and the modules' rates, of which those
in the hub's proposal set the link's (R157). -/
def Block.tested (b : Block) (s passed rates : Nat) : Block :=
  let usable := passed &&& b.ratedGroups s rates
  b.modLink s fun l => { l with passed := usable, rate := b.lowestRate s rates (usable &&& b.unretired s) }

/-- The site's WIDTH_PROPOSE; the hub has proposed or does so now, and sends the set it agrees (R163). `passed` and `rates`
are the hub's own receive test's. -/
def Block.widthPropose (b : Block) (s set attempt passed rates : Nat) : Block :=
  let l := (b.site s).link
  let st := b.linkState s
  let c := l.recon.getD ⟨1, none, none, none, none, 0, 0, 0, b.now⟩
  if !(decide (st = Link.TRAINING) || decide (st = Link.RECONCILING)) || !l.hello || l.pinned.isSome
      || decide (attempt ≠ c.attempt) || c.siteSet.isSome then b
  else
    let b := if c.hubSet.isSome then b else (b.tested s passed rates).propose s c
    let hub := (((b.site s).link.recon.bind fun c => c.hubSet).getD 0)
    let agreed := Site.activeSet s (hub &&& set)
    let b := b.modLink s fun l => { l with recon := l.recon.map fun c =>
      { c with siteSet := some set, hubAgree := some agreed, since := b.now } }
    if agreed = 0 then b.loseSite s 3 else b.sideband s 0x04 (agreed + 256 * attempt) 0

/-- RECON_TIMEOUT (R163): the site's message has not come 1 ms after the hub's. Where the site has sent no WIDTH_PROPOSE, the
hub's own, from its receive test, is what it waited on. -/
def Block.reconTimeout (b : Block) (s passed rates : Nat) : Block :=
  let l := (b.site s).link
  let fail (b : Block) : Block := match (b.site s).link.recon with
    | some c => if b.linkState s = Link.RECONCILING ∧ c.siteAgree.isNone then b.failAttempt s c 0 else b
    | none => b
  if b.linkState s = Link.TRAINING ∧ l.hello ∧ l.pinned.isNone ∧ l.recon.isNone then
    fail ((b.tested s passed rates).propose s ⟨1, none, none, none, none, 0, 0, 0, b.now⟩)
  else fail b

/-- The site's WIDTH_AGREE (R163). -/
def Block.widthAgree (b : Block) (s set attempt : Nat) : Block :=
  match (b.site s).link.recon with
  | none => b
  | some c => match c.hubAgree with
    | none => b
    | some h =>
      if attempt ≠ c.attempt ∨ c.siteAgree.isSome then b
      else if set = h then b.modLink s fun l => { l with recon := some { c with siteAgree := some set } }
      else b.failAttempt s c 0

/-- Lane groups that the boot's training fails are fenced (R380): retired, and in the Field-defect log. -/
def Block.groupsFail (b : Block) (s mask : Nat) : Block :=
  if b.is Reg.MH_STATUS.READY then b
  else
    let gs := (bitList mask 8).filter fun g => !(b.rd (Reg.ST_LANE_STATE.RETIRED s)).testBit g
    let b := b.wr (Reg.ST_LANE_STATE.RETIRED s) (gs.foldl (fun r g => setBits r g 1 1) (b.rd (Reg.ST_LANE_STATE.RETIRED s)))
    b.bootLanes (gs.map fun g => Src.laneGroup s g)

/-- The groups that a reconciliation found failing: those that failed training, and on a stacked site those that the hub's
receive test did not pass. -/
def Block.groupsFailing (b : Block) (s : Nat) : Nat :=
  let l := (b.site s).link
  match l.recon with
  | some c => c.failed ||| (if Site.stacked s then 15 - l.passed % 16 else 0)
  | none => 0

/-- The link is up at a set. -/
def Block.siteLinkUp (b : Block) (s set repaired : Nat) : Block :=
  let b := (b.groupsFail s (b.groupsFailing s)).setLink s Link.TRAINED
  let b := b.wr (Reg.ST_STATUS.WIDTH_SET s) set
  let b := b.wr (Reg.ST_STATUS.RATE s) (if Site.stacked s then 0 else (b.site s).link.rate)
  let b := b.wr (Reg.ST_LANE_STATE.REPAIRED s) (if Site.stacked s then 0 else repaired)
  let b := b.wr (Reg.ST_STATUS.RECON_FAILS s) 0
  let b := b.wr Reg.MH_SITE_PRESENT.PRESENT (setBits (b.rd Reg.MH_SITE_PRESENT.PRESENT) s 1 1)
  b.modLink s fun l => { l with recon := none, trainAt := none, ackAt := b.now }

/-- Training at the pinned or agreed set has ended; `failed` are the groups that failed it, and `rates` what the modules of a
pinned set trained at, one below MIN_RATE having failed (R156, R157, R163, R164). -/
def Block.siteTrained (b : Block) (s rates repaired failed : Nat) : Block :=
  let l := (b.site s).link
  match l.pinned with
  | some p =>
    if !(decide (b.linkState s = Link.TRAINING) || decide (b.linkState s = Link.RECONCILING)) || !l.hello then b
    else
      let set := Site.activeSet s (p &&& b.unretired s)
      if failed ≠ 0 ∨ set &&& b.ratedGroups s rates ≠ set then b.loseSite s 6
      else if set = 0 then b.loseSite s 3
      else (b.modLink s fun l => { l with rate := b.lowestRate s rates set }).siteLinkUp s set repaired
  | none => match l.recon with
    | some c => match c.hubAgree, c.siteAgree with
      | some ha, some _ =>
        if b.linkState s ≠ Link.RECONCILING then b
        else if failed = 0 then b.siteLinkUp s ha repaired
        else b.failAttempt s c failed
      | _, _ => b
    | none => b

/-- LINK_HELLO goes out (Table SIT-5). -/
def Block.sendHello (b : Block) (s : Nat) : Block := (b.modLink s fun l => { l with helloAt := b.now }).sideband s 0x01 1 0

/-- REFOUT, REFCLK buffered to every site: it runs while the hub is powered, whatever is reset (R165). The integrator's REFCLK
is taken to be present whenever power is. -/
def Block.refout (b : Block) : Bool := b.boot.power

/-- Start training: SRST_L is high, the clocks run, and LINK_HELLO goes out (Table SIT-5). The 20 ms of R156 run from the
release of SRST_L. -/
def Block.startTraining (b : Block) (s : Nat) : Block :=
  let b := b.setLink s Link.TRAINING
  let b := b.modLink s fun l => { l.dropped with srstLow := false, trainAt := if l.srstLow then some b.now else l.trainAt }
  (b.siteClocks s).sendHello s

/-- LINK_HELLO every 10 µs while the chiplet has not answered it: in training, and from a lost site that retrains by itself
(Table SIT-5, R171). -/
def Block.tickHello (b : Block) : Block :=
  (List.range 16).foldl (fun b s =>
    let l := (b.site s).link
    let waits : Bool := (decide (b.linkState s = Link.TRAINING) && !l.hello)
      || (decide (b.linkState s = Link.LOST) && b.is (Reg.ST_CFG.AUTO_RETRAIN s) && b.is (Reg.ST_CFG.EN s))
    if waits && decide (l.helloAt + usToCycles 10 ≤ b.now) then b.sendHello s else b) b

/-- LINK_HELLO from the site (R171). -/
def Block.linkHello (b : Block) (s : Nat) : Block :=
  let st := b.linkState s
  let hear (b : Block) : Block := b.modLink s fun l => { l with hello := true, heartbeatAt := b.now }
  if st = Link.TRAINING then hear b
  else if st = Link.LOST ∧ b.is (Reg.ST_CFG.AUTO_RETRAIN s) ∧ b.is (Reg.ST_CFG.EN s) then hear (b.startTraining s)
  else b

/-- ST_CTRL.RETRAIN: a LOST or OFF site with EN 1. -/
def Block.siteRetrain (b : Block) (s : Nat) : Block :=
  let st := b.linkState s
  if (st = Link.LOST ∨ st = Link.OFF) ∧ b.is (Reg.ST_CFG.EN s) ∧ !(b.site s).link.absent then b.startTraining s else b

/-- Table SIT-7's site reset: the site is lost with `cause`, and SRST_L is asserted for 10 µs. -/
def Block.siteReset (b : Block) (s cause : Nat) : Block :=
  if !b.is (Reg.ST_CFG.EN s) ∨ (b.site s).link.absent then b
  else
    let b := b.loseSite s cause
    let b := b.setLink s Link.RESETTING
    let b := b.modLink s fun l => { l with srstLow := true, srstAt := b.now, trainAt := none }
    b.hmCause s 3 true

/-- ST_CTRL.CLK_HOLD. -/
def Block.clkHold (b : Block) (s : Nat) (on : Bool) : Block := (b.wr (Reg.ST_CTRL.CLK_HOLD s) (b01 on)).siteClocks s

/-- A site not TRAINED in time is not present, and is held as one with EN 0 (R156). -/
def Block.siteAbsent (b : Block) (s : Nat) : Block :=
  let b := b.setLink s Link.OFF
  let b := b.wr Reg.MH_SITE_PRESENT.PRESENT (setBits (b.rd Reg.MH_SITE_PRESENT.PRESENT) s 1 0)
  (b.modLink s fun l => { l.dropped with srstLow := true, trainAt := none, absent := true }).siteClocks s

/-! ### Frames in (R158–R160) -/

/-- A CRC error on a lane group: counted, and one event per microsecond (R160 rule 5). A lateral module's go to the bucket of
its lane group 2m (R161; DESIGN CHOICE, assumption 66). -/
def Block.laneError (b : Block) (s g : Nat) : Block :=
  let b := b.count (Reg.ST_CRC_ERR.COUNT s) 1
  let last := SMap.get (fun _ => 0) (b.site s).link.eventAt g
  if last ≠ 0 ∧ b.now + 1 < last + usToCycles 1 then b
  else
    let b := b.modLink s fun l => { l with eventAt := SMap.put (fun _ => 0) l.eventAt g (b.now + 1) }
    let v := b.rd (Reg.ST_GROUP_ERR.COUNT s)
    let b := b.wr (Reg.ST_GROUP_ERR.COUNT s) (setBits v (8 * g) 8 (min 255 (bits v (8 * g) 8 + 1)))
    b.pennant (Src.laneGroup s g) Kind.LANE_EVENT 0 0

/-- A frame failed eight sends in a row: its group is permanent (R160 rule 5). -/
def Block.laneFail (b : Block) (s g : Nat) : Block := b.pennant (Src.laneGroup s g) Kind.LANE_FAIL 0 0

/-- A NAK with the last good ACK; its PAYLOAD is undefined (R160 rule 3). -/
def Block.sendNak (b : Block) (s : Nat) : Block :=
  let r := b.freshBytes 240
  let b := (r.1.putFrame s (b.frameGroup s 0) 2 0 r.2).count (Reg.ST_REPLAY.COUNT s) 1
  b.modLink s fun l => { l with nakAt := some b.now }

/-- An IDLE frame that returns ACK (R160 rule 2). -/
def Block.sendAck (b : Block) (s : Nat) : Block :=
  let r := b.freshBytes 240
  r.1.putFrame s (b.frameGroup s 0) 1 0 r.2

/-- A frame was received: an ACK after every 64. -/
def Block.frameSeen (b : Block) (s : Nat) : Block :=
  let b := b.modLink s fun l => { l with framesSinceAck := l.framesSinceAck + 1 }
  if 64 ≤ (b.site s).link.framesSinceAck then b.sendAck s else b

/-- Release the held frames that an ACK covers. -/
def Block.releaseHeld (b : Block) (s : Nat) (ack : Nat) (valid : Bool) : Block :=
  match valid, (b.site s).link.held.findIdx? fun f => f.seq = ack with
  | true, some i => b.modLink s fun l => { l with held := l.held.drop (i + 1), nakCount := 0 }
  | _, _ => b

/-- An ACK: what it covers is released, and more may be sent. -/
def Block.takeAck (b : Block) (s : Nat) (ack : Nat) (valid : Bool) : Block :=
  Block.sendFrames 1024 (b.releaseHeld s ack valid) s

/-- Send every held frame again, in order, and then what waits (R160 rule 4, R162 step 3). -/
def Block.resendHeld (b : Block) (s : Nat) : Block :=
  Block.sendFrames 1024 ((b.site s).link.held.foldl (fun b f => b.putFrame s (b.frameGroup s f.seq) 0 f.seq f.payload) b) s

/-- A frame that is discarded: a NAK goes out unless one has (R160 rule 3). -/
def Block.wantNak (b : Block) (s : Nat) : Block := if (b.site s).link.nakAt.isSome then b else b.sendNak s

/-- A frame whose CRC fails; `seq` is what it reads as its SEQ. -/
def Block.badFrame (b : Block) (s g seq : Nat) (data : Bool) : Block :=
  let b := b.laneError s g
  let b := if data && decide (seq = (b.site s).link.rxNext) then
      let n := (b.site s).link.sendFails + 1
      let b := b.modLink s fun l => { l with sendFails := if 8 ≤ n then 0 else n }
      if 8 ≤ n then b.laneFail s g else b
    else b
  b.wantNak s

/-- A DATA frame with a good CRC: its payload goes to the protocol layer, with the packets that it completes (R159, R172). -/
def Block.dataFrame (b : Block) (s seq ack : Nat) (ackValid : Bool) (payload : List Byte) : Block :=
  let b := b.takeAck s ack ackValid
  let l := (b.site s).link
  if seq = l.rxNext then
    let r := Packet.split 16 (l.rxBytes ++ payload)
    let b := (r.1.filter fun p => p.op ≠ 0).foldl (fun b p => b.emit (.received s p)) (b.emit (.payload s payload))
    b.modLink s fun l => { l with
      rxNext := (seq + 1) % 4096, rxAny := true, nakAt := none, sendFails := 0, rxBytes := r.2 }
  else if l.rxAny && decide ((l.rxNext + 4095 - seq) % 4096 < 2048) then b
  else b.wantNak s

/-- A NAK with a good CRC: the held frames go again; the eighth in a row for one frame makes its group permanent. -/
def Block.nakFrame (b : Block) (s ack : Nat) (ackValid : Bool) : Block :=
  let b := b.releaseHeld s ack ackValid
  let l := (b.site s).link
  match l.held with
  | [] => Block.sendFrames 1024 b s
  | f :: _ =>
    if l.widthChange.isSome then b
    else
      let n := if l.nakCount ≠ 0 ∧ l.nakSeq = f.seq then l.nakCount + 1 else 1
      let b := b.modLink s fun l => { l with nakSeq := f.seq, nakCount := if 8 ≤ n then 0 else n }
      let b := if 8 ≤ n then b.laneFail s (b.frameGroup s f.seq) else b
      b.resendHeld s

/-- R162 step 3: WIDTH_ACK with the site's last good SEQ, its TAG that of the WIDTH_CHANGE it answers (Table SIT-6). -/
def Block.widthAck (b : Block) (s last tag : Nat) : Block :=
  match (b.site s).link.widthChange with
  | none => b
  | some new =>
    if !((b.site s).link.waits.any fun w => decide (w.op = 6) && decide (w.tag = tag)) then b else
    let b := b.modLink s fun l => { l with widthChange := none, waits := l.waits.filter fun w => w.op ≠ 6 }
    let b := b.wr (Reg.ST_STATUS.WIDTH_SET s) new
    let b := b.setLink s (if b.enrolled s then Link.ENROLLED else Link.TRAINED)
    ((b.releaseHeld s last true).resendHeld s).narrow s

/-- A sideband reply is missing: the message goes again, three times at most, then the site is lost (R168). -/
def Block.sidebandResend (b : Block) (s : Nat) : Block :=
  match (b.site s).link.waits with
  | [] => b
  | w :: ws =>
    if 4 ≤ w.sends then b.loseSite s 7
    else
      let b := b.emit (.sideband s (Sideband.wire w.op w.tag w.data0 w.data1))
      b.modLink s fun l => { l with waits := { w with sends := w.sends + 1, since := b.now } :: ws }

/-- The received clock of `groups` is lost: on every active group, or every usable one of a link that is not up yet, the site
is; else each quarter is retired (R162, R169). -/
def Block.clockLoss (b : Block) (s groups : Nat) : Block :=
  let l := (b.site s).link
  let run : Bool := b.linkUp s || decide (b.linkState s = Link.RECONCILING) || (decide (b.linkState s = Link.TRAINING) && l.hello)
  let act := if b.linkUp s then b.rd (Reg.ST_STATUS.WIDTH_SET s) else b.unretired s
  if !run then b
  else if act &&& groups = act then b.loseSite s 2
  else if Site.stacked s then
    (bitList groups 4).foldl (fun b g =>
      if b.linkState s = Link.LOST ∨ (b.rd (Reg.ST_LANE_STATE.RETIRED s)).testBit g then b
      else (b.retireGroup s g).laneFail s g) b
  else b

/-! ### Lateral modules (R161) -/

/-- Retire the halves of `mask` of a module, each with a pennant that names it. -/
def Block.retireHalves (b : Block) (s m mask : Nat) : Block :=
  (bitList mask 2).foldl (fun b h =>
    if (b.rd (Reg.ST_LANE_STATE.RETIRED s)).testBit (2 * m + h) then b
    else (b.retireGroup s (2 * m + h)).laneFail s (2 * m + h)) b

/-- The Flits that waited for a module that has ended its retrain: on it, or on the others if it is off. -/
def Block.moduleBack (b : Block) (s m : Nat) : Block :=
  if (b.modules s).contains m then b.releaseFlits s m fun b f => b.emit (.flit s m f)
  else b.releaseFlits s m fun b f => b.putFlit s f

/-- A permanent module is retrained with the runtime lane test: its traffic waits from now. -/
def Block.moduleRetrain (b : Block) (s m : Nat) : Block :=
  b.modLink s fun l => { l with moduleDown := SMap.put (fun _ => 0) l.moduleDown m (b.now + 1) }

/-- A module leaves the active state, or returns with `repaired` lanes on redundant ones and the half that holds an
unrepaired lane, if any, retired. -/
def Block.moduleState (b : Block) (s m : Nat) (active : Bool) (repaired : Nat) (half : Option Nat) : Block :=
  if Site.stacked s || !b.linkUp s then b
  else if !active then b.moduleRetrain s m
  else if SMap.get (fun _ => 0) (b.site s).link.moduleDown m = 0 then b
  else
    let b := b.modLink s fun l => { l with moduleDown := SMap.put (fun _ => 0) l.moduleDown m 0 }
    let r := b.rd (Reg.ST_LANE_STATE.REPAIRED s)
    let b := b.wr (Reg.ST_LANE_STATE.REPAIRED s) (setBits r (4 * m) 4 repaired)
    (match half with
      | some h => b.retireHalves s m (2 ^ h)
      | none => b).moduleBack s m

def Block.moduleGone (b : Block) (s m : Nat) : Block :=
  if SMap.get (fun _ => 0) (b.site s).link.moduleDown m = 0 then b
  else
    ((b.modLink s fun l => { l with moduleDown := SMap.put (fun _ => 0) l.moduleDown m 0 }).retireHalves s m 3).moduleBack s m

end Sys2Proof.Machine
end

