-- ==== Sys2Proof/Machine/SiteProtoOps.lean ====
section
/-! DEFINITION. The Wizon Site Protocol at the hub (08): what a received packet meets first, contexts, dispatches, enrolment,
and the answers of hub requests. -/

namespace Sys2Proof.Machine

/-! ### Packets received (R174, R176, R177) -/

/-- UNITS of a packet that a site may send, by opcode and LEN; none for an opcode not listed for the site (Table SWP-2). -/
def Swp.units (op len : Nat) : Option Nat :=
  let u := ceilDiv (len + 1) 16
  if op = 0x00 ∨ op = 0x01 ∨ op = 0x05 ∨ op = 0x41 ∨ op = 0x5C ∨ op = 0x7F then some 0
  else if op = 0x02 ∨ op = 0x04 ∨ op = 0x40 then some u
  else if op = 0x03 then some 257
  else if op = 0x06 ∨ op = 0x48 then some 1
  else if op = 0x29 then some 16
  else if op = 0x30 ∨ op = 0x31 ∨ op = 0x32 ∨ op = 0x34 then some 0
  else if op = 0x33 ∨ op = 0x5D then some 4
  else none

/-- Whether a packet is a request, which R174 answers: a channel of requests carries it. -/
def Packet.isRequest (p : Packet) : Bool := p.chan = .req || p.chan = .creq

/-- The credits of R176 that a site's packet consumes, if it holds them. -/
def Credits.siteAllow (c : Credits) (p : Packet) : Bool :=
  match p.chan with
  | .req => decide (1 ≤ c.siteReqH) && decide (p.dataCredits ≤ c.siteReqD)
  | .creq => decide (1 ≤ c.siteCreqH) && decide (p.dataCredits ≤ c.siteCreqD)
  | _ => true

def Credits.siteSpend (c : Credits) (p : Packet) : Credits :=
  match p.chan with
  | .req => { c with siteReqH := c.siteReqH - 1, siteReqD := c.siteReqD - p.dataCredits }
  | .creq => { c with siteCreqH := c.siteCreqH - 1, siteCreqD := c.siteCreqD - p.dataCredits }
  | _ => c

/-- A breach that names the site (R174, R177, R196). -/
def Block.swpBreach (b : Block) (s : Nat) (p : Packet) : Block := b.pennant (Src.site s) Kind.SWP_BREACH p.tag p.op

/-- R174: a packet that cannot be used is counted, captured and reported, and answered if it is a request. -/
def Block.badPacket (b : Block) (s : Nat) (p : Packet) : Block :=
  let st := if p.isRequest then Code.SWP_BAD_PACKET else 0
  let b := b.count (Reg.ST_SWP_PROTO_ERR.COUNT s) 1
  let b := b.capture (Reg.ST_SWP_ERR_LOG.VALID s) (Reg.ST_SWP_ERR_LOG.OVERFLOW s)
    [(Reg.ST_SWP_ERR_LOG.OPCODE s, p.op), (Reg.ST_SWP_ERR_LOG.TAG s, p.tag), (Reg.ST_SWP_ERR_LOG.STATUS s, st),
      (Reg.ST_SWP_ERR_LOG.CORE s, p.core)]
  let b := b.swpBreach s p
  if p.isRequest then b.send s (Packet.short 0x41 p.tag 0 0 st) else b

/-- Receive a packet of a site, and whether its row may go on: it is counted; before enrolment only BURGEE is heard (R179);
one that is unlisted, of wrong UNITS or without credit is turned away, a request under a tag in use is discarded; any other
has its credits spent, and a request its tag in use. -/
def Block.accept (b : Block) (s : Nat) (p : Packet) : Block × Bool :=
  if !b.linkUp s then (b, false)
  else
    let b := if p.op = 0 then b else b.count (Reg.ST_SWP_PKT_RX.COUNT s) 1
    if p.op = 0x29 then
      if b.enrolled s then (b, false) else if p.units = 16 then (b, true) else (b.badPacket s p, false)
    else if !b.enrolled s then (b, false)
    else match Swp.units p.op p.len with
      | none => (b.badPacket s p, false)
      | some u =>
        let st := b.site s
        if !st.credits.siteAllow p then (b.badPacket s p, false)
        else
          let b := b.setSite s { st with credits := st.credits.siteSpend p }
          if u ≠ p.units then ((b.badPacket s p).giveCredits s p, false)
          else if p.isRequest && NSet.has (b.site s).siteTags p.tag then
            (((b.count (Reg.ST_SWP_PROTO_ERR.COUNT s) 1).swpBreach s p).giveCredits s p, false)
          else if p.isRequest then
            let v := b.site s
            (b.setSite s { v with siteTags := NSet.insert p.tag v.siteTags }, true)
          else (b, true)

/-- Take in a packet that its row serves at once. -/
def Block.packetIn (b : Block) (s : Nat) (p : Packet) (run : Block → Block) : Block :=
  match b.accept s p with
  | (b, true) => (run b).giveCredits s p
  | (b, false) => b

/-! ### Contexts (R178) -/

def Block.dispatchOf (b : Block) (s t : Nat) : Option Dispatch := SMap.get (fun _ => none) (b.site s).disp t
def Block.setDispatch (b : Block) (s t : Nat) (d : Option Dispatch) : Block :=
  let v := b.site s
  b.setSite s { v with disp := SMap.put (fun _ => none) v.disp t d }

/-- Who makes a site's request, and its dispatch if it has one, or the status that refuses its context. -/
def Block.swpWho (b : Block) (s core ctx : Nat) : Except Status (Who × Option Dispatch) :=
  if ctx = 0xFFF then .ok (b.mkWho (.siteWhole s) none (b.rd (Reg.ST_SWP_CFG.SITE_ENSIGN s)), none)
  else match b.dispatchOf s ctx with
    | none => .error Code.SWP_BAD_CONTEXT
    | some d =>
      if !d.sent then .error Code.SWP_BAD_CONTEXT
      else if d.cancelled then .error Code.SWP_CANCELLED
      else if d.core.isSome && decide (d.core ≠ some core) then .error Code.SWP_BAD_CONTEXT
      else .ok (b.mkWho (.siteCore s core) (some d.slice) d.ensign, some d)

/-- Whether a request aims at its own site's window (R182). -/
def Block.ownWindow (b : Block) (s a : Nat) : Bool :=
  match b.range a with
  | .window x _ => decide (x = s)
  | _ => false

/-- Serve a memory request of a site once its context stands: crossing and own-window checks first (R182). -/
def Block.swpServe (b : Block) (s : Nat) (p : Packet) (run : Block → Who → Block) : Block :=
  match b.swpWho s p.core p.ctx with
  | .error st => b.siteResp s p.tag st
  | .ok (w, _) =>
    if 256 < p.addr % 256 + p.len + 1 then b.siteResp s p.tag Code.SWP_BAD_PACKET
    else if b.ownWindow s p.addr then b.siteResp s p.tag Code.SWP_OWN_WINDOW
    else run b w

/-- RD_DATA or BLOCK_DATA, freeing the request's tag. -/
def Block.siteData (b : Block) (s op tag len : Nat) (data : List Byte) : Block :=
  let v := b.site s
  let u := ceilDiv data.length 16
  (b.setSite s { v with siteTags := NSet.erase v.siteTags tag }).send s
    ⟨op, u, tag, len, 0, 0, 0, 0, 0, sliceBytes data 0 (16 * u)⟩

/-- RD (R182). -/
def Block.swpRead (b : Block) (s : Nat) (p : Packet) : Block :=
  b.swpServe s p fun b w => match b.dla w p.addr (p.len + 1) .read with
    | (b, st, d) => if st = Code.SUCCESS then b.siteData s 0x40 p.tag p.len d else b.siteResp s p.tag st

/-- WR (R182). -/
def Block.swpWrite (b : Block) (s : Nat) (p : Packet) : Block :=
  b.swpServe s p fun b w => match b.dla w p.addr (p.len + 1) (.write (sliceBytes p.data 0 (p.len + 1))) with
    | (b, st, _) => b.siteResp s p.tag st

/-- The element format of ATTR[1:0] (R183). -/
def Swp.addFmt (attr : Nat) : AddFmt :=
  match attr % 4 with
  | 0 => .int32
  | 1 => .int64
  | 2 => .fp32
  | _ => .bf16

/-- ADD (R183): the address checks, then alignment and the memory, then the add. -/
def Block.swpAdd (b : Block) (s : Nat) (p : Packet) : Block :=
  b.swpServe s p fun b w => match b.checkReq w p.addr .a with
    | (b, some st) => b.siteResp s p.tag st
    | (b, none) =>
      let f := Swp.addFmt p.attr
      if !b.sealable p.addr ∨ p.addr % f.bytes ≠ 0 ∨ (p.len + 1) % f.bytes ≠ 0 then b.siteResp s p.tag Code.SWP_NOT_ADDABLE
      else match b.perform w p.addr (p.len + 1) (.add f (sliceBytes p.data 0 (p.len + 1))) with
        | (b, st, _) => b.siteResp s p.tag st

/-- The check of each request of a block. -/
def Block.checkBlock (b : Block) (w : Who) (a : Nat) (rt : Right) : Block × Option Status :=
  (List.range 16).foldl (fun (acc : Block × Option Status) i =>
    match acc.2 with
    | some _ => acc
    | none => acc.1.checkReq w (a + 256 * i) rt) (b, none)

/-- WR_BLOCK (R184). -/
def Block.swpWriteBlock (b : Block) (s : Nat) (p : Packet) : Block :=
  match b.swpWho s p.core p.ctx with
  | .error st => b.siteResp s p.tag st
  | .ok (_, none) => b.siteResp s p.tag Code.SWP_BAD_CONTEXT
  | .ok (w, some d) =>
    if p.addr % 4096 ≠ 0 ∨ !b.sealable p.addr then b.siteResp s p.tag Code.SWP_BAD_PACKET
    else match b.checkBlock w p.addr .w with
      | (b, some st) => b.siteResp s p.tag st
      | (b, none) =>
        let data := sliceBytes p.data 0 4096
        let sl := leAt p.data 4096 8
        let producer := 0x400 + 64 * s + p.core
        let ok : Bool := p.attr.testBit 0 || (Seal.present sl && !Seal.carried sl && decide (Seal.fmt sl = 0)
          && decide (Seal.producer sl = producer) && decide (Seal.epochOf sl = d.epoch) && decide (Seal.crc sl = crc32c data))
        if !ok then
          (b.pennant (Src.site s) Kind.SEAL_REJECT producer p.addr).siteResp s p.tag Code.SWP_SEAL_REJECT
        else match b.dlaWriteBlock w p.addr data (Seal.make data producer d.epoch 0 (bit sl 62)) with
          | (b, st) => b.siteResp s p.tag st

/-- RD_BLOCK (R185): a block address first, then the checks of R182. -/
def Block.swpReadBlock (b : Block) (s : Nat) (p : Packet) : Block :=
  match b.swpWho s p.core p.ctx with
  | .error st => b.siteResp s p.tag st
  | .ok (w, _) =>
    if p.addr % 4096 ≠ 0 then b.siteResp s p.tag Code.SWP_BAD_PACKET
    else if b.ownWindow s p.addr then b.siteResp s p.tag Code.SWP_OWN_WINDOW
    else match b.checkBlock w p.addr .r with
      | (b, some st) => b.siteResp s p.tag st
      | (b, none) => if !b.sealable p.addr then b.siteResp s p.tag Code.SWP_BAD_PACKET else match b.dlaReadBlock w p.addr with
      | (b, st, ds, sl) =>
        if st ≠ Code.SUCCESS then b.siteResp s p.tag st
        else
          let bad := if p.attr.testBit 0 then
              Seal.verify ds sl (p.attr.testBit 1) (if p.attr.testBit 2 then some (p.param % 4096) else none)
            else none
          match bad with
          | some (st, crc) =>
            (b.pennant (Src.site s) (if crc then Kind.SEAL_CRC else Kind.SEAL_OTHER) (Seal.producer sl) p.addr).siteResp s p.tag st
          | none => b.siteData s 0x44 p.tag 0 (ds ++ natLE 8 (if Seal.present sl then sl else 0) ++ zeros 8)

/-- SYNC_WAIT (R186). -/
def Block.swpSyncWait (b : Block) (s : Nat) (p : Packet) : Block :=
  match b.swpWho s p.core p.ctx with
  | .error st => b.siteResp s p.tag st
  | .ok (w, _) =>
    let inSync : Bool := match b.range p.addr with
      | .sync => true
      | _ => false
    if !inSync ∨ p.addr % 8 ≠ 0 then b.siteResp s p.tag Code.SYNC_BAD_OP
    else match b.checkReq w p.addr .r with
      | (b, some st) => b.siteResp s p.tag st
      | (b, none) =>
        match b.syncWait ((p.addr - Dla.syncBase) / 8) (leAt p.data 0 8) (.site s p.tag p.core p.ctx) p.param with
        | (b, st) => if st = Code.SUCCESS then b else b.siteResp s p.tag st

/-- End a site's waits that `q` picks, answering each. -/
def Block.endSiteWaits (b : Block) (s st : Nat) (q : SyncWait → Bool) : Block :=
  let mine (w : SyncWait) : Option Nat := match w.who with
    | .site x t _ _ => if x = s ∧ q w then some t else none
    | _ => none
  let tags := b.sync.waits.flatMap fun e => e.2.filterMap mine
  let b := b.dropWaits fun w => match w with
    | .site x t _ _ => decide (x = s) && tags.contains t
    | _ => false
  tags.foldl (fun b t => b.siteResp s t st) b

/-! ### Dispatches (R188–R191) -/

/-- The physical core of a logical one. -/
def Block.siteCoreMap (b : Block) (s c : Nat) : Option Nat :=
  if b.is (Reg.ST_SWP_CORE_MAP.VALID s c) then some (b.rd (Reg.ST_SWP_CORE_MAP.PHYS s c)) else none

/-- CANCEL for a live dispatch (R190): it is sent once, and the context's waits end. -/
def Block.cancelDispatch (b : Block) (s t : Nat) : Block :=
  match b.dispatchOf s t with
  | none => b
  | some d =>
    if d.cancelled then b
    else
      let b := b.setDispatch s t (some { d with cancelled := true })
      let b := b.endSiteWaits s Code.SWP_CANCELLED fun w => match w.who with
        | .site _ _ _ ctx => decide (ctx = t)
        | _ => false
      b.hubRequest s (.cancel t (d.core.getD 0)) ⟨0x21, 0, 0, 0, 0, t, 0, 0, 0, []⟩

/-- Every dispatch of a site that `q` picks is cancelled. -/
def Block.cancelWhere (b : Block) (s : Nat) (q : Dispatch → Bool) : Block :=
  let ts := (b.site s).disp.filterMap fun e => match e.2 with
    | some d => if q d then some e.1 else none
    | none => none
  ts.foldl (fun b t => b.cancelDispatch s t) b

/-- Cancel a slice's dispatches at every site (R267, R302, R337). -/
def Block.cancelSlice (b : Block) (sl : Nat) : Block :=
  (List.range 16).foldl (fun b s => b.cancelWhere s fun d => decide (d.slice = sl)) b

/-- Send CORE_FENCE (R191). -/
def Block.coreFence (b : Block) (s phys : Nat) (fence : Bool) : Block :=
  let v := b.site s
  let b := b.setSite s { v with
    fencedCores := if fence then NSet.insert phys v.fencedCores else v.fencedCores }
  b.hubRequest s (.fence phys (!fence)) ⟨0x22, 0, 0, 0, phys, 0, b01 fence, 0, 0, []⟩

/-- A site core is unfenced: its chiplet has answered. -/
def Block.unfenced (b : Block) (s phys : Nat) : Block :=
  let v := b.site s
  let b := b.setSite s { v with fencedCores := NSet.erase v.fencedCores phys }
  { b with fc := { b.fc with unfences := b.fc.unfences.filter fun u => !(decide (u.site = s) && decide (u.phys = phys)) } }

/-- The lowest good physical core of a site that is not mapped and not among `not`. -/
def Block.spareSiteCore (b : Block) (s : Nat) (avoid : List Nat) : Option Nat :=
  let good := b.rd (Reg.ST_SWP_BURGEE.DATA s 3)
  findIdx 64 fun p => good.testBit p && !avoid.contains p
    && !((List.range 64).any fun c => decide (b.siteCoreMap s c = some p))

/-- Steps 3 and 4 of R333: the logical core moves to the lowest spare, which is unfenced; with none its VALID clears. -/
def Block.remapSiteCore (b : Block) (s c : Nat) (avoid : List Nat) : Block :=
  match b.spareSiteCore s avoid with
  | some p =>
    let b := b.wr (Reg.ST_SWP_CORE_MAP.PHYS s c) p
    let b := b.coreFence s p false
    { b with fc := { b.fc with unfences := b.fc.unfences ++ [(⟨s, c, p, b.now⟩ : Unfence)] } }
  | none => (b.wr (Reg.ST_SWP_CORE_MAP.VALID s c) 0).wr (Reg.ST_SWP_CORE_MAP.PHYS s c) 0

/-! ### Answers to the hub's requests (R177, R189–R192, R196) -/

/-- A late response is discarded and counted; a tag that waited for it is free again. -/
def Block.lateRsp (b : Block) (s t : Nat) : Block :=
  let b := match b.tag s t with
    | some u => if u.timedOut then b.freeTagOf s t else b
    | none => b
  b.count (Reg.ST_SWP_LATE_RSP.COUNT s) 1

/-- A DISPATCH ends: its context and tag are free, and its command reports unless it was cancelled or its slice's generation
has changed (R189, R190). -/
def Block.dispatchDone (b : Block) (s t st cnt : Nat) : Block :=
  match b.dispatchOf s t with
  | none => b
  | some d =>
    let b := (b.setDispatch s t none).freeTagOf s t
    if d.cancelled ∨ b.gen d.slice ≠ d.gen then b else b.reportCmd d.queue d.id st cnt

/-- The answer of a hub request that is not of its kind: it ends with SWP_BAD_PACKET, and the site is named (R196). -/
def Block.wrongKind (b : Block) (s : Nat) (p : Packet) (u : TagUse) : Block :=
  let b := b.swpBreach s p
  match u with
  | .window n => (b.freeTagOf s p.tag).extDone n Code.SWP_BAD_PACKET []
  | .dispatch => b.dispatchDone s p.tag Code.SWP_BAD_PACKET 0
  | .cancel _ _ => b.freeTagOf s p.tag
  | .fence _ _ => b.freeTagOf s p.tag
  | .snoop line agent => (b.freeTagOf s p.tag).snoopAnswered line agent false true

/-- A response from a site: `good` takes the one its tag's request expects, and answers none for a wrong kind. -/
def Block.response (b : Block) (s : Nat) (p : Packet) (good : Block → HubTag → Option Block) : Block :=
  match b.tag s p.tag with
  | none => b.lateRsp s p.tag
  | some u =>
    if u.timedOut then b.lateRsp s p.tag
    else match good b u with
      | some b => b
      | none => b.wrongKind s p u.use

/-- R192: what a window request's failure reaches its requester as. -/
def Swp.windowStatus (st : Nat) : Nat := if Status.listed st then st else Code.SWP_WINDOW_ERROR

/-- RD_DATA from a site (R192). -/
def Block.rdData (b : Block) (s : Nat) (p : Packet) : Block :=
  b.response s p fun b u => match u.use with
    | .window n => match n.op with
      | .read => some ((b.freeTagOf s p.tag).extDone n Code.SUCCESS (sliceBytes p.data 0 n.len))
      | _ => none
    | _ => none

/-- RESP from a site: to a window request, CANCEL or CORE_FENCE. -/
def Block.resp (b : Block) (s : Nat) (p : Packet) : Block :=
  b.response s p fun b u => match u.use with
    | .window n => match n.op with
      | .read =>
        if p.param = 0 then none
        else some (((b.unspecified (Src.site s) p.param).freeTagOf s p.tag).extDone n (Swp.windowStatus p.param) [])
      | _ => some (((b.unspecified (Src.site s) p.param).freeTagOf s p.tag).extDone n (if p.param = 0 then 0 else Swp.windowStatus p.param) [])
    | .cancel _ _ => some (b.freeTagOf s p.tag)
    | .fence phys un =>
      let b := b.freeTagOf s p.tag
      some (if un ∧ p.param = 0 then b.unfenced s phys else b)
    | _ => none

/-- DONE (R189). -/
def Block.done (b : Block) (s : Nat) (p : Packet) : Block :=
  b.response s p fun b u => match u.use with
    | .dispatch =>
      let bad : Bool := !Status.listed p.param || (decide (p.param = 0) && NSet.has (b.site s).fencedCores p.core)
      some ((b.unspecified (Src.site s) p.param).dispatchDone s p.tag (if bad then Code.SWP_WORK_FAILED else p.param) (leAt p.data 0 8))
    | _ => none

/-! ### Enrolment (R179–R181) -/

/-- ENROL_REQ. -/
def Block.enrolReq (b : Block) (s : Nat) : Block :=
  b.putPacket s ⟨0x28, 1, 0, 0, 0, 0, 0, 0, 0, natLE 16 (1 + 2 ^ 16 * s)⟩

/-- Ask a TRAINED site to enrol; not while its agents are still being reclaimed (R215). -/
def Block.startEnrol (b : Block) (s : Nat) : Block :=
  if b.linkState s ≠ Link.TRAINED ∨ (b.rd Reg.CO_STATUS.RECLAIM_PENDING).testBit s then b
  else
    let b := b.count (Reg.ST_SWP_ENROL.ATTEMPTS s) 1
    let st := b.site s
    (b.setSite s { st with enrol := .asked 1 b.now }).enrolReq s

/-- A failed enrolment: recorded, and a pennant. -/
def Block.enrolFail (b : Block) (s st : Nat) : Block :=
  let v := b.site s
  let b := (b.setSite s { v with enrol := .idle }).wr (Reg.ST_SWP_ENROL.LAST_STATUS s) st
  b.pennant (Src.site s) Kind.ENROL_FAIL st 0

/-- R180's check of a burgee. -/
def Block.burgeeCheck (b : Block) (s : Nat) (d : List Byte) : Status :=
  let at' (o n : Nat) : Nat := leAt d o n
  let agents := bits (at' 0x20 1) 0 7
  let reqH := at' 0x2C 2
  let reqD := at' 0x2E 2
  let snpH := at' 0x30 2
  let bad : Bool := decide (at' 0 4 ≠ 0x47525542) || decide (at' 4 2 ≠ 1) || decide (at' 6 2 ≠ 256)
    || decide (at' 0xF8 4 ≠ crc32c (d.take 0xF8)) || decide (64 < agents) || decide (65536 < at' 0x24 4)
    || decide (at' 0x28 4 = 0) || decide (reqH < 8) || decide (1024 < reqH) || decide (reqD < 8) || decide (4096 < reqD)
    || (decide (0 < agents) && (decide (snpH < 4) || decide (256 < snpH)))
  let pw := at' 0x38 8
  let badPower : Bool := decide (bits pw 0 12 = 0) || decide (bits pw 24 12 < bits pw 0 12)
    || decide (bits pw 12 12 < bits pw 24 12)
  if bad || badPower then Code.SWP_BURGEE_BAD
  else if b.is (Reg.ST_SWP_ALLOW.CHECK s) ∧ (at' 8 2 ≠ b.rd (Reg.ST_SWP_ALLOW.MAKER s)
      ∨ at' 0xA 2 ≠ b.rd (Reg.ST_SWP_ALLOW.DEVICE s)) then Code.SWP_BURGEE_MISMATCH
  else Code.SUCCESS

/-- ENROL_RESULT (Table SWP-5). -/
def Block.enrolResult (b : Block) (s st mask : Nat) : Block :=
  let d := if st = 0 then natLE 8 mask ++ natLE 2 256 ++ natLE 2 1024 ++ natLE 2 128 ++ natLE 2 128 else zeros 16
  b.putPacket s ⟨0x2A, 1, 0, 0, 0, 0, 0, 0, st, d⟩

/-- R181: the physical cores mapped, lowest first. -/
def Block.mappedCores (b : Block) (s good : Nat) : List Nat :=
  (bitList good 64).take (b.rd (Reg.ST_SWP_CFG.ACTIVE_CORES s))

/-- BURGEE (R179–R181). -/
def Block.burgee (b : Block) (s : Nat) (d : List Byte) : Block :=
  match (b.site s).enrol with
  | .idle => b
  | .asked _ _ =>
    let st := b.burgeeCheck s d
    if st ≠ 0 then (b.enrolResult s st 0).enrolFail s st
    else
      let cs := b.mappedCores s (leAt d 0x18 8)
      let mask := (cs.map fun c => 2 ^ c).sum
      let b := (List.range 32).foldl (fun b n => b.wr (Reg.ST_SWP_BURGEE.DATA s n) (leAt d (8 * n) 8)) b
      let b := (List.range 64).foldl (fun b c => match cs[c]? with
        | some p => (b.wr (Reg.ST_SWP_CORE_MAP.PHYS s c) p).wr (Reg.ST_SWP_CORE_MAP.VALID s c) 1
        | none => (b.wr (Reg.ST_SWP_CORE_MAP.PHYS s c) 0).wr (Reg.ST_SWP_CORE_MAP.VALID s c) 0) b
      let v := b.site s
      let snp := if bits (leAt d 0x20 1) 0 7 = 0 then 0 else leAt d 0x30 2
      let b := b.setSite s { v with
        enrol := .idle
        credits := ⟨leAt d 0x2C 2, leAt d 0x2E 2, snp, 256, 1024, 128, 128⟩
        fencedCores := (List.range 64).filter fun p => !cs.contains p }
      let b := b.wr (Reg.ST_SWP_ENROL.LAST_STATUS s) 0
      let b := b.wr Reg.MH_SITE_PRESENT.ENROLLED (setBits (b.rd Reg.MH_SITE_PRESENT.ENROLLED) s 1 1)
      let b := if b.linkState s = Link.TRAINED then b.setLink s Link.ENROLLED else b
      (b.siteClocks s).enrolResult s 0 mask

/-- ENROL_TIMEOUT (R179). -/
def Block.enrolTimeout (b : Block) (s : Nat) : Block :=
  match (b.site s).enrol with
  | .idle => b
  | .asked n _ =>
    if n < 3 then
      let v := b.site s
      (b.setSite s { v with enrol := .asked (n + 1) b.now }).enrolReq s
    else b.enrolFail s Code.SWP_ENROL_TIMEOUT

/-- CREDIT (R176). -/
def Block.takeCredits (b : Block) (s reqH reqD snpH : Nat) : Block :=
  let v := b.site s
  let c := v.credits
  (b.setSite s { v with credits := { c with
    hubReqH := c.hubReqH + reqH, hubReqD := c.hubReqD + reqD, hubSnpH := c.hubSnpH + snpH } }).sendWaiting s

end Sys2Proof.Machine
end

