-- ==== Sys2Proof/Machine/ReplayOps.lean ====
section
/-! DEFINITION. Ending the work of a slice or a position, and replay from the last committed mark (R111, R139, R149, R267,
R337, R340). -/

namespace Sys2Proof.Machine

/-- Slices that are not FREE. -/
def Block.liveSlices (b : Block) : List Nat :=
  (b.regs.filterMap fun e =>
    if 0xD000000 ≤ e.1 ∧ e.1 < 0xE000000 ∧ e.1 % 0x1000 = 8 then some ((e.1 - 0xD000000) / 0x1000) else none).filter
    fun s => decide (b.sliceState s ≠ Slice.FREE)

/-- The slices of partition `p` that are not FREE. -/
def Block.partSlices (b : Block) (p : Nat) : List Nat :=
  b.liveSlices.filter fun s => decide (s ≠ 0) && decide (b.slicePart s = p)

/-! ### Ending work -/

/-- End the commands on a position's engines that `sel` picks: no report, no signal, no cursor; what they wrote stands. A kernel
that ends with its issued store is left where `keep`. -/
def Block.endWork (b : Block) (p : Nat) (keep : Bool) (sel : Job → Bool) : Block :=
  let b := (List.range 8).foldl (fun b n => match b.xslot p n with
    | some v => if sel v.job then b.putSlot p n none else b
    | none => b) b
  let b := b.modPos p fun s => { s with unitQ := s.unitQ.filter fun j => !sel j }
  let b := match (b.vec p).run with
    | some r => if sel r.job && !(keep && r.ends) then b.vecFree p else b
    | none => b
  let b := match (b.posState p).red with
    | some r => if sel r.job then b.redFree p else b
    | none => b
  let b := ((b.posState p).colls.filter fun c => sel c.job).foldl (fun b c => b.collDrop p c) b
  b.unitNext p

/-- End every command of a slice on the engines; DISPATCHes get CANCEL. What its COLLECTs have outside stays where a replay
is to find it (R340). -/
def Block.endSlice (b : Block) (sl : Nat) (forReplay : Bool) : Block :=
  -- a kernel whose store is under way ends after it (R139)
  let b := b.pos.foldl (fun b e =>
    let v := b.vec e.1
    match v.run with
    | some r => if r.job.slice = sl ∧ r.lasts v then b.setVec e.1 { v with run := some { r with ends := true } } else b
    | none => b) b
  let last (p : Nat) : Bool := (b.vec p).run.any fun r => r.ends
  let b := b.pos.foldl (fun b e => b.endWork e.1 true fun j => decide (j.slice = sl)) b
  let b := b.pos.foldl (fun b e => b.modPos e.1 fun s => { s with held := s.held.filter fun q => q / 4 ≠ sl }) b
  let b := b.extDrop fun n => decide (n.who.slice = some sl) && (match n.who.agent with
    | .collect _ => !forReplay
    | .cmd _ => !forReplay
    | .vec p => !last p
    | .xfer _ | .red _ => true
    | _ => false)
  let b := b.xlatForget fun p => decide (p.slice = sl) && decide (p.unit ≠ .denob)
  b.cancelSlice sl

/-- CANCELs for a slice's dispatches that are neither answered nor given up (R190). -/
def Block.cancelsOut (b : Block) (sl : Nat) : Bool :=
  let mine (s ctx : Nat) : Bool := match b.dispatchOf s ctx with
    | some d => decide (d.slice = sl)
    | none => false
  b.sites.any fun e => (e.2.tags.any fun t => match t.2 with
      | some ⟨.cancel ctx _, _, false⟩ => mine e.1 ctx
      | _ => false) || e.2.owed.any fun r => match r.use with
      | .cancel ctx _ => mine e.1 ctx
      | _ => false

/-- Whether ended work of a slice still has a CANCEL or an issued store out (R139, R190). -/
def Block.endsOut (b : Block) (sl : Nat) : Bool :=
  b.cancelsOut sl || b.pos.any fun e => e.2.vec.run.any fun r => r.ends && decide (r.job.slice = sl)

/-! ### Replay (R337) -/

def CmdRec.onEngine (r : CmdRec) : Bool := decide (r.cmd.opcode < 0x10)

/-- Whether the last committed mark of a slice can be replayed from. -/
def Block.replayable (b : Block) (sl : Nat) : Bool :=
  b.is (Reg.SL_MARK_STATUS.VALID sl) && !(b.slice sl).unreplayable

def Block.namedQ (b : Block) (sl c : Nat) : Bool := (b.rd (Reg.SL_MARK_CFG.QMASK sl)).testBit c

/-- Steps 1 and 2 of R337. -/
def Block.stopSlice (b : Block) (sl : Nat) : Block :=
  let b := (List.range 4).foldl (fun b c => b.modQ sl c fun q => { q with held := true }) b
  let b := b.endSlice sl true
  (List.range 4).foldl (fun b c =>
    if b.replayable sl && b.namedQ sl c then
      let b := b.dropWaits fun w => match w with
        | .queue q _ => decide (q = 4 * sl + c)
        | _ => false
      let b := b.extDrop fun n => match n.target with
        | .peerWait _ _ _ k => decide (k / 65536 = 4 * sl + c)
        | _ => false
      b.modQ sl c fun q => { q with inflight := q.inflight.filter fun r => r.posting, block := none }
    else
      b.modQ sl c fun q => { q with
        inflight := q.inflight.map fun r => if r.onEngine && !r.posting then { r with result := none } else r }) b

/-- Steps 3 and 4 of R337 for a queue named in QMASK. -/
def QueueState.toMark (q : QueueState) : QueueState :=
  let again := q.log ++ q.replay
  let q := { q with
    inflight := q.inflight.filter fun r => r.posting
    block := none, fail := none, replay := again, log := [] }
  if again.isEmpty then q else { q with resume := some (q.resume.getD q.stack), stack := q.markStack }

/-- The objects of the mark's snapshot take their mark values. -/
def Block.restoreSnapshot (b : Block) (sl : Nat) : Block :=
  (b.slice sl).snapshot.foldl (fun b e => (b.setSync e.1 e.2).satisfy e.1) b

/-- Return a slice's QMASK queues to its last committed mark. -/
def Block.toMark (b : Block) (sl : Nat) : Block :=
  let b := b.restoreSnapshot sl
  let b := b.modSlice sl fun v => { v with reached := [] }
  (List.range 4).foldl (fun b c =>
    if !b.namedQ sl c || decide (b.qState sl c = Q.DISABLED) then b
    else
      let b := b.modQ sl c QueueState.toMark
      let b := if b.qState sl c = Q.ERROR then
          b.setQState sl c (if b.is (Reg.SL_Q_CTRL.PAUSE sl c) then Q.PAUSED else Q.RUNNING)
        else b
      b.qStatus sl c) b

/-- The commands that ended and cannot be replayed complete with FLT_REPLAY_IMPOSSIBLE. -/
def Block.failEnded (b : Block) (sl c : Nat) : Block :=
  ((b.q sl c).inflight.filter fun r => r.onEngine && !r.posting).foldl (fun b r =>
    b.completeCmd sl c r.id Code.FLT_REPLAY_IMPOSSIBLE 0) b

/-- Steps 3 and 4 of R337 for a stopped slice; its queues issue again. -/
def Block.replaySlice (b : Block) (sl : Nat) : Block :=
  let can := b.replayable sl
  let b := if can then b.toMark sl else b
  (List.range 4).foldl (fun b c =>
    let b := if can && b.namedQ sl c then b else b.failEnded sl c
    b.modQ sl c fun q => { q with held := false }) b

/-- Slices that a position's loss affects: a command runs there, or a queue is homed there (R337). -/
def Block.slicesAt (b : Block) (pos : Nat) : List Nat :=
  let s := b.posState pos
  let jobs := s.slots.filterMap (fun e => e.2.map fun v => v.job.slice) ++ (s.unitQ.map fun j => j.slice)
    ++ (match s.vec.run with
      | some r => [r.job.slice]
      | none => []) ++ (match s.red with
      | some r => [r.job.slice]
      | none => []) ++ (s.colls.map fun c => c.job.slice)
  let homed := b.liveSlices.filter fun sl => (List.range 4).any fun c =>
    decide (b.home sl c = pos) && decide (b.qState sl c ≠ Q.DISABLED)
  (jobs ++ homed).eraseDups

end Sys2Proof.Machine
end

