-- ==== Sys2Proof/Machine/XlatReq.lean ====
section
/-! DEFINITION. The answers that translation gets from the host (10): ATS completions, page request responses and
invalidations. -/

namespace Sys2Proof.Machine

/-! ### Removing entries (R226, R237, R240) -/

/-- Remove the TLB entries that `p` picks; the results of the requests in flight that `q` picks are discarded, and `f` says
what becomes of the requests (R239, R240). -/
def Block.xlatDrop (b : Block) (p : TlbEntry → Bool) (q : AtsReq → Bool) (f : AtsReq → AtsReq) : Block :=
  let keep (m : SMap (List TlbEntry)) : SMap (List TlbEntry) := m.filterMap fun e =>
    let l := e.2.filter fun x => !p x
    if l.isEmpty then none else some (e.1, l)
  { b with xlat := { b.xlat with
      l1 := keep b.xlat.l1, l2 := keep b.xlat.l2
      ats := b.xlat.ats.map fun r => if q r then f r else r } }

/-- The request is made again when its discarded result arrives (R239). -/
def AtsReq.redo (r : AtsReq) : AtsReq := { r with stale := true }
/-- The request's result is discarded, whoever waited for it (R240). -/
def AtsReq.drop (r : AtsReq) : AtsReq := { r with dropped := true, units := [] }

/-- Every entry of a function goes (R240). -/
def Block.xlatDropFn (b : Block) (fn : Nat) : Block := b.xlatDrop (fun e => e.fn = fn) (fun r => r.fn = fn) AtsReq.drop

/-- A slice's waits for page requests end: its groups not yet sent go, and the responses to the others are discarded when they
come (R233, R235). -/
def Block.prgAbandon (b : Block) (sl : Nat) : Block :=
  let groups := b.xlat.groups.filter fun g => g.idx.isSome || decide (g.slice ≠ sl)
  { b with xlat := { b.xlat with
      groups := groups.map fun g => if g.slice = sl then { g with late := true, units := [] } else g } }

/-- What a slice's ended work had missing, and the answers it waited for, go (R235, R240). -/
def Block.xlatEndSlice (b : Block) (sl : Nat) : Block :=
  let fn := b.fnOf sl
  let pasid := b.pasid sl
  let b := b.prgAbandon sl
  { b with xlat := { b.xlat with
      ats := b.xlat.ats.map fun r => if r.fn = fn ∧ r.pasid = pasid then { r with units := [] } else r
      lacks := b.xlat.lacks.filter fun l => !(decide (l.fn = fn) && decide (l.pasid = pasid))
      fails := b.xlat.fails.filter fun l => !(decide (l.fn = fn) && decide (l.pasid = pasid)) } }

/-- Every entry of a slice's PASID goes, with what its work had missing (R240). -/
def Block.xlatDropSlice (b : Block) (sl : Nat) : Block :=
  let fn := b.fnOf sl
  let pasid := b.pasid sl
  (b.xlatDrop (fun e => decide (e.fn = fn) && decide (e.pasid = pasid))
    (fun r => decide (r.fn = fn) && decide (r.pasid = pasid)) AtsReq.drop).xlatEndSlice sl

/-- Send the Stop Markers whose PASIDs have no page request outstanding (R240). -/
def Block.stopMarkers (b : Block) : Block :=
  let ready (m : Nat × Nat) : Bool := !(b.xlat.groups.any fun g =>
    g.idx.isSome && decide (g.fn = m.1) && decide (g.pasid = m.2))
  let go := b.xlat.stopMarkers.filter ready
  let b' := { b with xlat := { b.xlat with stopMarkers := b.xlat.stopMarkers.filter fun m => !ready m } }
  go.foldl (fun b m => b.emitFrom m.1 (.stopMarker m.1 m.2)) b'

/-- R240: a slice that was reset or released owes a Stop Marker for its PASID. -/
def Block.stopMarker (b : Block) (sl : Nat) : Block :=
  ({ b with xlat := { b.xlat with stopMarkers := b.xlat.stopMarkers ++ [(b.fnOf sl, b.pasid sl)] } } : Block).stopMarkers

/-! ### ATS completions (R225, R229, R234) -/

/-- XLT_ATS_FAILED's pennant: one per function per millisecond, with the failures counted (R234). -/
def Block.atsPennant (b : Block) (fn : Nat) : Block :=
  let same (r : Record) : Bool := decide (r.source = Src.translation) && decide (r.kind = Kind.ATS_FAILED)
    && decide (r.aux = fn) && decide (b.now < r.sent)
  let more (r : Record) : Record := if same r then { r with count := min (r.count + 1) 65535 } else r
  if b.fc.inQ.any same then { b with fc := { b.fc with inQ := b.fc.inQ.map more } }
  else
    let at' := max b.now (SMap.get (fun _ => 0) b.xlat.atsFailed fn)
    let r : Record := ⟨Src.translation, Kind.ATS_FAILED, fn, 1, 0, false, false, false, at'⟩
    { b with
      fc := { b.fc with inQ := r.enqueue b.fc.inQ }
      xlat := { b.xlat with atsFailed := SMap.put (fun _ => 0) b.xlat.atsFailed fn (at' + msToCycles 1) } }

/-- The size stored (R225): the largest of the four that does not exceed the one reported, and 4 KiB at least. -/
def Tlb.size (lg : Nat) : Nat := if 30 ≤ lg then 30 else if 21 ≤ lg then 21 else if 16 ≤ lg then 16 else 12

/-- The result replaces the entries that held the page and did not serve (R226), in the L2 and in the L1 of every unit that
waited for it; it is stored if it grants a right (Table XLT-3). -/
def Block.tlbStore (b : Block) (r : AtsReq) (pa lg : Nat) (rd wr u g : Bool) : Block :=
  let n := Tlb.size lg
  let base := pa / 2 ^ lg * 2 ^ lg + r.va % 2 ^ lg / 2 ^ n * 2 ^ n
  let e : TlbEntry := ⟨r.fn, r.pasid, n, r.va / 2 ^ n, base, rd, wr, u, g, false⟩
  let old (l : List TlbEntry) : List TlbEntry := l.filter fun x => !x.covers r.fn r.pasid r.va
  let put (cap : Nat) (l : List TlbEntry) : List TlbEntry := if rd || wr then Tlb.insert cap e l else l
  let b := (Tlb.sizes.map fun s => Tlb.set r.va s r.pasid).eraseDups.foldl (fun b k => b.setL2 k (old (b.l2set k))) b
  let k := Tlb.set r.va n r.pasid
  let b := b.setL2 k (put 8 (b.l2set k))
  ((r.units.map PageNeed.l1).eraseDups).foldl (fun b i => b.setL1 i (put 64 (old (b.l1 i)))) b

/-- The slots that wait leave fault wait (R108). -/
def Block.resumeUnits (b : Block) (ps : List PageNeed) : Block := ps.foldl (fun b p => b.xferResume p) b

/-- A unit's page is missing or short of a right: to be requested, or unresolved where it has been (R233). -/
def Block.pageLacks (b : Block) (r : AtsReq) (p : PageNeed) : Block :=
  let stu := b.stu r.fn
  let mine (l : PageLack) : Bool := l.covers stu r.fn r.pasid p
  if b.xlat.lacks.any fun l => mine l && l.asked then b.xlFail r.fn r.pasid p Code.XLT_PAGE_FAILED 7
  else if b.xlat.lacks.any mine then b
  else { b with xlat := { b.xlat with lacks := b.xlat.lacks ++ [(⟨r.fn, r.pasid, p.va, p.write, p.atomic, false⟩ : PageLack)] } }

/-- Table XLT-3: status 0 Success, 1 Unsupported Request, 2 Completer Abort. With ATS or PASID Enable clear nothing more is
sent: what waited meets R230. -/
def Block.atsDone (b : Block) (r : AtsReq) (status pa lg : Nat) (rd wr u g : Bool) : Block :=
  let stu := b.stu r.fn
  let b := ({ b with xlat := { b.xlat with ats := b.xlat.ats.filter fun x => x ≠ r } } : Block).xlStatus
  if r.dropped then b
  else if !b.atsEnabled r.fn then b.resumeUnits r.units
  else if r.stale then
    let r := { r with stale := false, again := false, since := b.now }
    (({ b with xlat := { b.xlat with ats := b.xlat.ats ++ [r] } } : Block).atsEmit r).xlStatus
  else if status ≠ 0 then
    let b := r.units.foldl (fun b p => b.xlFail r.fn r.pasid p Code.XLT_ATS_FAILED 2) b
    (b.atsPennant r.fn).resumeUnits r.units
  else
    let b := b.tlbStore r pa lg rd wr u g
    let has (p : PageNeed) : Bool := p.allowed rd wr
    let b := r.units.foldl (fun (b : Block) p =>
      if has p then
        { b with xlat := { b.xlat with lacks := b.xlat.lacks.filter fun l => !l.covers stu r.fn r.pasid p } }
      else b.pageLacks r p) b
    b.resumeUnits (r.units.filter has)

/-- ATS_COMPLETION (R229). -/
def Block.atsCompletion (b : Block) (tag status pa lg : Nat) (rd wr u g : Bool) : Block :=
  match b.xlat.ats.find? fun r => r.tag = tag with
  | none => b
  | some r => b.atsDone r status pa lg rd wr u g

/-- ATS_TIMEOUT: sent once more, then as Completer Abort. -/
def Block.atsTimeout (b : Block) (tag : Nat) : Block :=
  match b.xlat.ats.find? fun r => r.tag = tag with
  | none => b
  | some r =>
    if r.again ∨ r.dropped ∨ !b.atsEnabled r.fn then b.atsDone r 2 0 12 false false false false
    else
      let r' := { r with again := true, since := b.now }
      ({ b with xlat := { b.xlat with ats := b.xlat.ats.map fun x => if x = r then r' else x } } : Block).atsEmit r'

/-! ### Page request responses (R233) -/

/-- Every page of a group is unresolved, for each access that waits for it. -/
def Block.prgFail (b : Block) (g : Prg) (cause : Nat) : Block :=
  let b := g.units.foldl (fun b p =>
    if Prg.names g.pages (b.stu g.fn) p then b.xlFail g.fn g.pasid p Code.XLT_PAGE_FAILED cause else b) b
  b.resumeUnits g.units

/-- Free a group's index. -/
def Block.prgDrop (b : Block) (g : Prg) : Block :=
  (({ b with xlat := { b.xlat with groups := b.xlat.groups.filter fun x => x ≠ g } } : Block).xlStatus).stopMarkers

/-- A group's pages get a fresh ATS request each; nobody waits for a group whose accesses have all ended (R107). -/
def Block.prgSuccess (b : Block) (g : Prg) : Block :=
  let stu := b.stu g.fn
  let ps := g.units.filter fun p => Prg.names g.pages stu p
  let mine (l : PageLack) : Bool := ps.any fun p => l.covers stu g.fn g.pasid p
  let b := { b with xlat := { b.xlat with lacks := b.xlat.lacks.map fun l => if mine l then { l with asked := true } else l } }
  (ps.foldl (fun b p => b.atsAsk p) b).resumeUnits g.units

/-- The function's page requests stop: Response Failure shows in the PRI status, and waiting groups are unresolved. -/
def Block.priStop (b : Block) (fn : Nat) : Block :=
  let b := { b with xlat := { b.xlat with stopped := NSet.insert fn b.xlat.stopped } }
  let b := b.setCfg 0 0x1E4 (setBits (b.cfg 0 0x1E4) 16 1 1)
  let ws := b.xlat.groups.filter fun g => g.idx.isNone && decide (g.fn = fn)
  ws.foldl (fun b g => (b.prgDrop g).prgFail g 6) b

/-- PRG_RESPONSE: code 0 Success, 1 Invalid Request, 15 Response Failure. -/
def Block.prgResponse (b : Block) (fn idx code : Nat) : Block :=
  match b.xlat.groups.find? fun g => decide (g.fn = fn) && decide (g.idx = some idx) with
  | none => b
  | some g =>
    let b := b.prgDrop g
    if g.late ∨ b.gen g.slice ≠ g.gen then b.count Reg.XL_PRG_LATE.COUNT 1
    else if code = 0 then b.prgSuccess g
    else if code = 1 then b.prgFail g 3
    else (b.priStop fn).prgFail g 4

/-- The waiting groups of the functions that may make no page request any more are unresolved at once (R230, R233). -/
def Block.prgBarred (b : Block) : Block :=
  let ws := b.xlat.groups.filter fun g =>
    g.idx.isNone && (!b.priEnabled || !b.atsEnabled g.fn || NSet.has b.xlat.stopped g.fn)
  ws.foldl (fun b g => if b.atsEnabled g.fn then (b.prgDrop g).prgFail g 6 else (b.prgDrop g).resumeUnits g.units) b

/-- PRG_TIMEOUT: the index stays allocated until the response comes. -/
def Block.prgTimeout (b : Block) (fn idx : Nat) : Block :=
  match b.xlat.groups.find? fun g => decide (g.fn = fn) && decide (g.idx = some idx) && !g.late with
  | none => b
  | some g =>
    let b := { b with xlat := { b.xlat with groups := b.xlat.groups.map fun x =>
      if x = g then { g with late := true, units := [] } else x } }
    if b.gen g.slice ≠ g.gen then b else b.prgFail g 5

/-- PRG_SEND: the first waiting group that an index and the allocation let go. -/
def Block.prgNext (b : Block) : Block :=
  let b := b.prgBarred
  let room (g : Prg) : Bool := g.idx.isNone && decide (b.pagesOut + g.pages.length ≤ b.priAllocation)
    && decide ((b.xlat.groups.filter fun x => decide (x.fn = g.fn) && x.idx.isSome).length < 512)
  match b.xlat.groups.find? room with
  | some g => b.prgSend g
  | none => b

/-! ### Invalidations (R237–R239) -/

def overlaps (a n c m : Nat) : Bool := decide (a < c + m) && decide (c < a + n)

/-- Whether an Invalidate Request reaches a page of a function and PASID (R237). -/
def InvReq.reaches (i : InvReq) (fn pasid : Nat) (u : PageUse) : Bool :=
  decide (fn = i.fn) && overlaps u.va (2 ^ u.log2) i.va (2 ^ i.log2)
    && (match i.pasid with
      | none => true
      | some p => decide (pasid = p) || (i.glob && u.g))

def TlbEntry.use (e : TlbEntry) : PageUse := ⟨e.vpage * 2 ^ e.log2, e.log2, e.g⟩

/-- Whether an Invalidate Request reaches an entry. -/
def InvReq.hits (i : InvReq) (e : TlbEntry) : Bool := i.reaches e.fn e.pasid e.use

/-- Whether an Invalidate Request reaches the translation that a host read was made with. -/
def InvReq.reachesRead (i : InvReq) (n : ExtNeed) (u : Option PageUse) : Bool :=
  match n.target, u with
  | .host fn pasid _, some u => i.reaches fn pasid u
  | _, _ => false

/-- Whether a read in flight has used an entry that an invalidation removed (R238). -/
def HostSlot.usedBy (s : HostSlot) (i : InvReq) : Bool := i.reachesRead s.need s.page && decide (s.since ≤ i.since)

/-- Whether a read belongs to the preparation of a transfer block. -/
def ExtNeed.prepares (n : ExtNeed) : Bool := match n.who.agent with
  | .xfer _ => decide (n.op = .read)
  | _ => false

/-- R239: requests that waited for a slot under a removed entry are made again from their translation; so are those of the
blocks that are being prepared and have not begun writing, whose data, come or coming, is not taken. -/
def Block.invalidateReads (b : Block) (i : InvReq) : Block :=
  let gone := (b.ep.waiting.filter fun w => i.reachesRead w.need w.page).map fun w => w.need
  let late := b.ep.slots.filterMap fun e => e.2.bind fun s => if s.usedBy i && s.need.prepares then some s.need else none
  let read (d : ExtDone) : Bool := d.need.prepares && (match d.need.target with
    | .host fn pasid va => decide (fn = i.fn) && overlaps va d.need.len i.va (2 ^ i.log2)
        && (match i.pasid with
          | none => true
          | some p => decide (pasid = p) || i.glob)
    | _ => false)
  { b with
    ep := { b.ep with
      waiting := b.ep.waiting.filter fun w => !gone.contains w.need
      slots := b.ep.slots.map fun e => (e.1, e.2.map fun s => if s.usedBy i && s.need.prepares then { s with stale := true } else s) }
    ext := { b.ext with
      sent := b.ext.sent.filter fun n => !(gone.contains n || late.contains n)
      done := b.ext.done.filter fun d => !read d } }

/-- INVALIDATE_REQUEST: one that matches nothing, in the TLBs or in use, completes at once. -/
def Block.invalidate (b : Block) (i : InvReq) : Block :=
  if 32 ≤ (b.xlat.invs.filter fun x => x.fn = i.fn).length then b
  else
    let b := b.count Reg.XL_INV_RCVD.COUNT 1
    let any : Bool := (b.xlat.l1.any fun e => e.2.any i.hits) || (b.xlat.l2.any fun e => e.2.any i.hits)
      || b.ep.slots.any fun e => e.2.any fun s => s.usedBy i
    let page (r : AtsReq) : PageUse := ⟨r.va / 2 ^ b.stu r.fn * 2 ^ b.stu r.fn, b.stu r.fn, true⟩
    let b := (b.xlatDrop i.hits (fun r => i.reaches r.fn r.pasid (page r)) AtsReq.redo).invalidateReads i
    if !any then b.emitFrom i.fn (.invDone i.fn i.itag)
    else ({ b with xlat := { b.xlat with invs := b.xlat.invs ++ [i] } } : Block).xlStatus

/-- INVALIDATION_COMPLETE (R238). -/
def Block.invalidated (b : Block) (fn itag : Nat) : Block :=
  match b.xlat.invs.find? fun i => decide (i.fn = fn) && decide (i.itag = itag) with
  | none => b
  | some i =>
    let busy := b.ep.slots.any fun e => match e.2 with
      | some s => s.usedBy i
      | none => false
    if busy then b
    else
      ((({ b with xlat := { b.xlat with invs := b.xlat.invs.filter fun x => x ≠ i } } : Block).xlStatus)).emitFrom fn (.invDone fn itag)

/-! ### Counters (R228, R241, R242) -/

/-- ACC_DECAY. -/
def Block.accDecay (b : Block) : Block :=
  let thr := b.rd Reg.XL_ACC_CFG.THRESHOLD
  { b with xlat := { b.xlat with
      decayAt := b.now
      acc := b.xlat.acc.map fun e => (e.1, e.2.map fun c =>
        { c with count := c.count / 2, flagged := c.flagged && decide (thr ≤ 2 * (c.count / 2)) }) } }

/-- The parity of a TLB entry fails from now on; the lookup that meets it finds out (R228). -/
def Block.tlbParity (b : Block) (u : Option TlbUpset) : Block :=
  match u with
  | none => b
  | some u =>
    let spoil (l : List TlbEntry) : List TlbEntry := l.modify u.way fun e => { e with bad := true }
    if u.l2 then b.setL2 u.index (spoil (b.l2set u.index)) else b.setL1 u.index (spoil (b.l1 u.index))

end Sys2Proof.Machine
end

