-- ==== Sys2Proof/Machine/DenobOps.lean ====
section
/-! DEFINITION. Denob (11): token rings, admission, adapters, sampling, and the building of steps. -/

namespace Sys2Proof.Machine

/-! ### State -/

def Dn.DISABLED : Nat := 0
def Dn.SERVING : Nat := 1
def Dn.STALLED : Nat := 2

def Block.dnState (b : Block) (s : Nat) : Nat := b.rd (Reg.DN_SLICE20.STATE s)
def Block.reqLog2 (b : Block) (s : Nat) : Nat := max 4 (b.rd (Reg.DN_SLICE18.REQ_LOG2 s))
def Block.tokLog2 (b : Block) (s : Nat) : Nat := max 6 (b.rd (Reg.DN_SLICE18.TOK_LOG2 s))
/-- What is written to DN_PART_CFG takes effect; adapters that no active request uses are forgotten with the slots' place. -/
def Block.dnAdopt (b : Block) (p : Nat) : Block :=
  let o := (Reg.DN_PART_CFG00.KV_BASE p).off
  b.modDnPart p fun v =>
    let c := (b.word o, b.word (o + 8), b.word (o + 0x10))
    { v with
      conf := c
      slots := if c.2.2 = v.conf.2.2 then v.slots else v.slots.filter fun e => v.active.any fun r => r.slot = some e.1 }

def Block.plan (b : Block) (p i : Nat) : Option Plan := SMap.get (fun _ => none) (b.dnPart p).plans i

/-- Whether Denob's firmware serves. -/
def Block.dnRuns (b : Block) : Bool :=
  b.is Reg.DN_STATUS.RUNNING && !b.is Reg.DN_STATUS.FAILED && !b.dn.restarting && !b.is Reg.MH_STATUS.DEVICE_FATAL
    && !b.boot.draining

/-- Denob under a slice, at ensign 0 (R243). -/
def Block.dnWho (b : Block) (s : Nat) : Who := b.mkWho .denob (some s) 0

/-- ACTIVE and FREE_PAGES. -/
def Block.dnShow (b : Block) (p : Nat) : Block :=
  let v := b.dnPart p
  let used := (v.active.map fun r => r.pages.length).sum
  let b := b.wr (Reg.DN_PART_STATUS.ACTIVE p) v.active.length
  b.wr (Reg.DN_PART_STATUS.FREE_PAGES p) (b.dnCfg p Reg.DN_PART_CFG08.KV_PAGES - used)

def Block.dnActive (b : Block) (s : Nat) : Nat := ((b.dnPart (b.slicePart s)).active.filter fun r => r.slice = s).length
def Block.dnShowSlice (b : Block) (s : Nat) : Block := b.wr (Reg.DN_SLICE20.ACTIVE s) (b.dnActive s)

/-! ### Token rings (R248) -/

def TokEntry.t1 (e : TokEntry) (phase : Nat) : Nat :=
  e.seq % 2 ^ 32 + e.status % 2 ^ 16 * 2 ^ 32 + e.kind * 2 ^ 48 + e.reason * 2 ^ 56 + phase * 2 ^ 63

/-- The coalesced interrupt of a token ring. -/
def Block.tokIrq (b : Block) (s : Nat) (urgent : Bool) : Block :=
  if !b.is (Reg.DN_SLICE18.IRQ_EN s) then b
  else
    let v := b.dnSlice s
    if urgent ∨ max 1 (b.rd (Reg.DN_SLICE18.COALESCE_CNT s)) ≤ v.posted + 1 ∨ b.rd (Reg.DN_SLICE1C.COALESCE_US s) = 0 then
      (b.setDnSlice s { v with posted := 0, firstAt := none }).msix (b.fnOf s) (b.rd (Reg.DN_SLICE18.VECTOR s))
    else b.setDnSlice s { v with posted := v.posted + 1, firstAt := some (v.firstAt.getD b.now) }

def Block.tokFull (b : Block) (s : Nat) : Bool :=
  let n := b.tokLog2 s
  decide ((b.rd (Reg.DN_SLICE30.TOK_TAIL s) + 2 ^ (n + 1) - b.rd (Reg.DN_SLICE30.TOK_HEAD s) % 2 ^ (n + 1)) % 2 ^ (n + 1) = 2 ^ n)

/-- Write an entry at the tail: T0, then T1. -/
def Block.tokWrite (b : Block) (s : Nat) (e : TokEntry) : Block × Status :=
  let n := b.tokLog2 s
  let t := b.rd (Reg.DN_SLICE30.TOK_TAIL s)
  let p := b.rd (Reg.DN_SLICE08.TOK_BASE s) + 16 * (t % 2 ^ n)
  match Ptr.check p with
  | some st => (b, st)
  | none =>
    if 2 ≤ Ptr.tag p then (b, Code.ADDR_UNMAPPED)
    else match b.ptrWrite (b.dnWho s) true false p (natLE 8 (e.id % 2 ^ 32 + e.token % 2 ^ 32 * 2 ^ 32)) with
      | (b, st) => if st ≠ Code.SUCCESS then (b, st)
        else b.ptrWrite (b.dnWho s) true false (p + 8) (natLE 8 (e.t1 (t / 2 ^ n % 2)))

/-- Post waiting entries in order while the ring takes them; a write that fails stalls the slice (R258). -/
def Block.tokFlush : Nat → Block → Nat → Block
  | 0, b, _ => b
  | k + 1, b, s =>
    match (b.dnSlice s).entries with
    | [] => b
    | e :: rest =>
      -- a host ring waits while Bus Master Enable is clear, as when it is full (R302)
      if (b.dnSlice s).tokStall ∨ b.tokFull s ∨ (Ptr.tag (b.rd (Reg.DN_SLICE08.TOK_BASE s)) = 1 ∧ b.revoked (b.fnOf s)) then b
      else
        match b.tokWrite s e with
        | (b', st) =>
          if b'.waiting && !b.waiting then b.issue b'.ext.need
          else if b'.waiting then b
          else if st ≠ Code.SUCCESS then
            let b := b'.modDnSlice s fun v => { v with tokStall := true }
            (b.wr (Reg.DN_SLICE20.STATE s) Dn.STALLED).wr (Reg.DN_SLICE20.ERR_STATUS s) Code.DN_RING_FAULT
          else
            let n := b'.tokLog2 s
            let b := b'.wr (Reg.DN_SLICE30.TOK_TAIL s) ((b'.rd (Reg.DN_SLICE30.TOK_TAIL s) + 1) % 2 ^ (n + 1))
            let b := b.modDnSlice s fun v => { v with entries := rest, uncounted := v.uncounted + 1 }
            Block.tokFlush k (b.tokIrq s (decide (e.kind = 3) || (decide (e.kind = 2) && decide (e.reason = 6)))) s

/-- Add an entry behind those that wait, and post what can be posted. -/
def Block.tokPost (b : Block) (s : Nat) (e : TokEntry) : Block :=
  let b := b.modDnSlice s fun v => { v with entries := v.entries ++ [e] }
  Block.tokFlush ((b.dnSlice s).entries.length + 1) b s

def Tok.END (id token seq status reason : Nat) : TokEntry := ⟨id, token, seq, status, 2, reason⟩

/-- END with REASON ERROR. -/
def DnReq.failed (r : DnReq) (st : Status) : TokEntry := Tok.END r.id 0 r.chosen.length st 6

def Block.tokService (b : Block) (s st : Nat) : Block := b.tokPost s ⟨0, 0, 0, st, 3, 0⟩

/-- A request is parked while a TOKEN entry of its waits (R248), or a write to its slice's token ring failed (R258). -/
def Block.parked (b : Block) (r : DnReq) : Bool :=
  (b.dnSlice r.slice).tokStall
    || (b.dnSlice r.slice).entries.any fun e => decide (e.id = r.id) && decide (e.kind = 1)

/-- Admission stops for a slice whose request ring cannot be read (R258). -/
def Block.ringFault (b : Block) (s : Nat) : Block :=
  let b := b.tokService s Code.DN_RING_FAULT
  (b.wr (Reg.DN_SLICE20.STATE s) Dn.STALLED).wr (Reg.DN_SLICE20.ERR_STATUS s) Code.DN_RING_FAULT

/-! ### The host counter (R249, R231) -/

/-- FetchAdd what has been posted since the last add. -/
def Block.tokCount (b : Block) (s : Nat) : Block :=
  let p := b.rd (Reg.DN_SLICE38.TOK_CNT_PTR s)
  let v := b.dnSlice s
  let n := v.counting.getD v.uncounted
  if p = 0 ∨ Ptr.tag p ≠ 1 then b.setDnSlice s { v with uncounted := 0, counting := none }
  else if n = 0 then b
  else
    let va := Ptr.addr p
    let page := va / 4096
    let need : PageNeed := { b.pageNeed .denob 0 s va true true with atomic := true }
    let win : Bool := b.is (Reg.XL_SLICE_ATTR00.ATOM_EN s) && decide (b.rd (Reg.XL_SLICE_ATTR00.ATOM_BASE s) ≤ page)
      && decide (page ≤ b.rd (Reg.XL_SLICE_ATTR08.ATOM_LIMIT s))
    let fail (b : Block) (st : Status) : Block :=
      let b := b.modDnSlice s fun v => { v with uncounted := 0, counting := none }
      (b.wr (Reg.DN_SLICE38.TOK_CNT_PTR s) 0).wr (Reg.DN_SLICE20.ERR_STATUS s) st
    if (Ptr.check p).isSome then fail b ((Ptr.check p).getD 0)
    else if !win then fail (b.xlatFault need 8 need.access) Code.XLT_ATOMIC_DENIED
    else if !b.atomicEnabled then fail b Code.HOST_ATOMIC_DISABLED
    else if b.revoked (b.fnOf s) then fail b Code.HOST_ACCESS_REVOKED
    else
      let start := b.setDnSlice s { v with uncounted := v.uncounted - n, counting := some n }
      let start := if v.counting.isSome then b else start
      match start.translate need with
      | (b, .fail st) => fail b st
      | (b1, _) =>
        if b1.waiting then start.issue b1.ext.need
        else
          let r := b1.external ⟨b1.dnWho s, .host (b1.fnOf s) (b1.pasid s) va, 8, .add .int64 (natLE 8 n), 0⟩
          if r.1.waiting then start.issue r.1.ext.need
          else if r.2.1 ≠ Code.SUCCESS then fail r.1 r.2.1
          else r.1.modDnSlice s fun v => { v with counting := none }

/-! ### Reading entries (R246, R247) -/

/-- The submit that eight words spell (Table SRV-2). -/
def DnReq.ofWords (s : Nat) (w : Nat → Nat) : DnReq where
  slice := s
  id := bits (w 0) 0 32
  plan := bits (w 0) 33 4
  adapter := bits (w 0) 48 16
  promptPtr := w 1
  promptLen := bits (w 2) 0 32
  maxNew := bits (w 2) 32 32
  temperature := bits (w 3) 0 32
  topP := bits (w 3) 32 32
  topK := bits (w 4) 0 7
  seed := bits (w 4) 32 32
  stopPtr := w 5
  stopCount := bits (w 6) 0 4
  prompt := []
  stops := []
  chosen := []
  ctx := 0
  feed := 0
  sampled := false
  pages := []
  slot := none
  record := none
  due := none
  ended := none
  cancelled := false
  skip := 0

/-- A pointer with tag 0 or 1, passing R18, aligned to `n`. -/
def Dn.ptrOk (p n : Nat) : Bool := decide (Ptr.tag p < 2) && (Ptr.check p).isNone && decide (p % n = 0)

/-- R247's check of a submit's fields. -/
def DnReq.ok (r : DnReq) (pl : Option Plan) : Bool :=
  match pl with
  | none => false
  | some pl =>
    Dn.ptrOk r.promptPtr 4 && decide (1 ≤ r.promptLen) && decide (r.promptLen + 1 ≤ pl.maxContext) && decide (1 ≤ r.maxNew)
      && (decide (r.temperature = 0) || (decide (0x3B800000 ≤ r.temperature) && decide (r.temperature ≤ 0x41800000)))
      && decide (1 ≤ r.topP) && decide (r.topP ≤ 0x3F800000) && decide (1 ≤ r.topK) && decide (r.topK ≤ 64)
      && decide (r.stopCount ≤ 8) && (decide (r.stopCount = 0) || Dn.ptrOk r.stopPtr 64)

/-- The request-ring entry at a slice's head, if one may be read: serving, OPEN, and at most four entries beyond the head of
its pending list. -/
def Block.ringReady (b : Block) (s : Nat) : Bool :=
  b.dnRuns && decide (b.dnState s = Dn.SERVING) && b.is (Reg.DN_SLICE18.EN s) && decide (b.sliceState s = Slice.OPEN)
    && decide ((b.dnSlice s).pending.length < 5)
    && decide (b.rd (Reg.DN_SLICE28.REQ_HEAD s) ≠ b.rd (Reg.DN_SLICE28.REQ_TAIL s))

def Block.ringEntry (b : Block) (s : Nat) : Block × Status × (Nat → Nat) :=
  let p := b.rd (Reg.DN_SLICE00.REQ_BASE s) + 64 * (b.rd (Reg.DN_SLICE28.REQ_HEAD s) % 2 ^ b.reqLog2 s)
  if Dn.ptrOk p 64 then
    match b.ptrRead (b.dnWho s) p 64 with
    | (b, st, d) => (b, st, fun i => leAt d (8 * i) 8)
  else (b, Code.DN_RING_FAULT, fun _ => 0)

def Block.ringAdvance (b : Block) (s : Nat) : Block :=
  b.wr (Reg.DN_SLICE28.REQ_HEAD s) ((b.rd (Reg.DN_SLICE28.REQ_HEAD s) + 1) % 2 ^ (b.reqLog2 s + 1))

/-- Whether a slice has a pending or active request of this id. -/
def Block.dnHas (b : Block) (s id : Nat) : Bool :=
  ((b.dnSlice s).pending.any fun r => r.id = id)
    || (b.dnPart (b.slicePart s)).active.any fun r => decide (r.slice = s) && decide (r.id = id)

/-- A submit that has been read; in a partition that is down it ends at once (R344). -/
def Block.submit (b : Block) (s : Nat) (r : DnReq) : Block :=
  if b.sliceDown s then b.tokPost s (r.failed Code.FLT_PARTITION_DOWN)
  else if !r.ok (b.plan (b.slicePart s) r.plan) then b.tokPost s (r.failed Code.DN_BAD_REQUEST)
  else if b.dnHas s r.id then b.tokPost s (r.failed Code.DN_DUP_REQUEST)
  else b.modDnSlice s fun v => { v with pending := v.pending ++ [r] }

/-- A cancel that has been read. -/
def Block.dnCancel (b : Block) (s id : Nat) : Block :=
  let p := b.slicePart s
  match (b.dnSlice s).pending.find? fun r => r.id = id with
  | some r =>
    let b := b.modDnSlice s fun v => { v with pending := v.pending.filter fun x => x.id ≠ id }
    b.tokPost s (Tok.END id 0 r.chosen.length 0 5)
  | none =>
    let mine (r : DnReq) : Bool := decide (r.slice = s) && decide (r.id = id)
    if (b.dnPart p).active.any mine then
      b.modDnPart p fun v => { v with active := v.active.map fun r => if mine r then { r with cancelled := true } else r }
    else b.count Reg.DN_STATUS.CANCEL_MISS 1

/-! ### Sampling (R253, R254) -/

/-- `log2(e)` as a fraction over 2^160. -/
def Dn.log2e : Nat := 0x171547652B82FE1777D0FFDA0D23A7D11D6AEF551

/-- `log2(e) / t` rounded once to FP32, for a positive FP32 `t`. -/
def Dn.invTemp (t : Nat) : Nat :=
  match FFmt.fp32.decode t with
  | .fin _ mag exp =>
    if mag = 0 then 0
    else
      -- the quotient is never exact: a sticky bit stands for what is below
      let q := Dn.log2e * 2 ^ 64 / mag
      (FFmt.fp32.ofExact false (2 * q + 1) (-(160 + 64 + 1) - exp)).1
  | _ => 0

def Dn.ge (a c : Nat) : Bool :=
  let x := FFmt.fp32.decode a
  let y := FFmt.fp32.decode c
  !x.isNan && !y.isNan && !(x.lt false y)
def Dn.gt (a c : Nat) : Bool := (FFmt.fp32.decode c).lt false (FFmt.fp32.decode a)

/-- The weights' running sums, in rank order. -/
def Dn.sums (c : Nat) (ls : List Nat) : List Nat :=
  let l0 := ls.headD 0
  (ls.foldl (fun (acc : Option Nat × List Nat) l =>
    let w := (fexp2 (FFmt.fp32.mul (FFmt.fp32.sub l l0).1 c).1).1
    let s := match acc.1 with
      | none => w
      | some t => (FFmt.fp32.add t w).1
    (some s, acc.2 ++ [s])) (none, [])).2

/-- R253: the chosen candidate's rank among those that are not empty, in `ls`; none where an arithmetic that met a NaN or an
infinity leaves no rank to choose. -/
def DnReq.choose (r : DnReq) (ls : List Nat) : Option Nat :=
  if r.temperature = 0 ∨ r.topK = 1 then some 0
  else
    let ws := Dn.sums (Dn.invTemp r.temperature) ls
    let lim := (FFmt.fp32.mul r.topP (ws.getLastD 0)).1
    match findIdx ws.length fun i => Dn.ge (ws.getD i 0) lim with
    | none => none
    | some j =>
      let n := crc32c (natLE 4 r.seed ++ natLE 8 r.chosen.length)
      let u := (FFmt.fp32.mul (FFmt.fp32.ofExact false n (-32)).1 (ws.getD j 0)).1
      findIdx (j + 1) fun i => Dn.gt (ws.getD i 0) u

/-- The lowest stop record that the generated tokens end with. -/
def DnReq.stopMatch (r : DnReq) (out : List Nat) : Option Nat :=
  findIdx r.stops.length fun i =>
    let s := r.stops.getD i []
    !s.isEmpty && decide (out.drop (out.length - s.length) = s)

/-- R254 for a token: what is posted, and how the request ends. -/
def DnReq.take (r : DnReq) (pl : Plan) (tok : Nat) : DnReq :=
  let seq := r.chosen.length
  if tok = pl.eos then { r with sampled := true, ended := some (Tok.END r.id 0 seq 0 1) }
  else
    let out := r.chosen ++ [tok]
    let e := match r.stopMatch out with
      | some i => some (Tok.END r.id i (seq + 1) 0 2)
      | none =>
        if seq + 1 = r.maxNew then some (Tok.END r.id 0 (seq + 1) 0 3)
        else if r.promptLen + seq + 1 = pl.maxContext then some (Tok.END r.id 0 (seq + 1) 0 4)
        else none
    { r with sampled := true, chosen := out, ended := e
             due := if seq < r.skip then none else some ⟨r.id, tok, seq, 0, 1, 0⟩ }

/-- Post the tokens of a step whose final mark has committed (R255). -/
def Block.postDue (b : Block) (p : Nat) : Block :=
  let v := b.dnPart p
  let b := b.setDnPart p { v with active := v.active.map fun r => { r with due := none } }
  v.active.foldl (fun b r => match r.due with
    | some e => b.tokPost r.slice e
    | none => b) b

/-- SAMPLE_TOKEN for a request of the running step: `cands` are its candidates in rank order, as FP32 bits and index. -/
def Block.sample (b : Block) (p s id : Nat) (cands : List (Nat × Nat)) : Block :=
  let v := b.dnPart p
  let mine (r : DnReq) : Bool := decide (r.slice = s) && decide (r.id = id) && decide (1 ≤ r.feed) && !r.sampled
    && decide (r.ctx + r.feed = r.promptLen + r.chosen.length)
  match v.running, v.active.find? mine with
  | true, some r =>
    let ls := (cands.take r.topK).filter fun c => c.2 ≠ 0xFFFFFFFF
    let (b, r') := if ls.isEmpty then (b, { r with sampled := true, ended := some (r.failed Code.DN_SAMPLE_INVALID) })
      else match b.plan p r.plan with
        | none => (b, { r with sampled := true })
        | some pl =>
          let (b, i) := match r.choose (ls.map fun c => c.1) with
            | some i => (b, i)
            | none =>
              let f := b.fresh
              (f.1, f.2 % ls.length)
          (b, r.take pl (ls.getD i (0, 0)).2)
    let b := b.modDnPart p fun v => { v with active := v.active.map fun x => if mine x then r' else x }
    if v.committed then b.postDue p else b
  | _, _ => b

/-! ### Adapters (R252) -/

/-- An adapter's record, read under its slice: its DLA and size, or the status the request ends with. -/
def Block.adapterRec (b : Block) (p : Nat) (r : DnReq) : Block × Except Status (Nat × Nat) :=
  if b.rd (Reg.DN_SLICE1C.ADAPTER_COUNT r.slice) ≤ r.adapter then (b, .error Code.DN_ADAPTER_MISSING)
  else
    let t := b.rd (Reg.DN_SLICE10.ADAPTER_TABLE r.slice) + 16 * r.adapter
    match Ptr.check t with
    | some st => (b, .error st)
    | none =>
      if Ptr.tag t ≠ 0 then (b, .error Code.DN_ADAPTER_MISSING)
      else match b.ptrRead (b.dnWho r.slice) t 16 with
        | (b, st, d) =>
          if st ≠ Code.SUCCESS then (b, .error st)
          else
            let w0 := leAt d 0 8
            let w1 := leAt d 8 8
            let dla := bits w0 0 48
            let size := bits w1 0 32
            let keyed : Bool := match b.range dla with
              | .hbm o => (match b.regionAt o with
                | some g => decide (g.keyMode = 1) && b.is (Reg.SEC_SLOT_OWNER.OWNED g.keySlot)
                  && decide (b.rd (Reg.SEC_SLOT_OWNER.PARTITION g.keySlot) = p)
                | none => false)
              | _ => false
            if !bit w0 63 then (b, .error Code.DN_ADAPTER_MISSING)
            else if b.dnCfg p Reg.DN_PART_CFG10.ADAPTER_SLOT_BYTES * 4096 < size ∨ bits w1 32 4 ≠ r.plan ∨ !keyed then
              (b, .error Code.DN_ADAPTER_BAD)
            else match b.checkReq (b.dnWho r.slice) dla .r with
              | (b, some st) => (b, .error st)
              | (b, none) => (b, .ok (dla, size))

/-- What makes an adapter resident. -/
inductive Resident' where
  | ready (slot : Nat)
  /-- a copy runs, or every slot is in use -/
  | wait
  | copy (slot : Nat)
deriving DecidableEq, Repr

/-- The slot of an adapter, or the one to copy it into: a free one, else the least recently used that no active request
uses. -/
def Block.adapterSlot (b : Block) (p dla : Nat) : Resident' :=
  let v := b.dnPart p
  match v.slots.findSome? fun e => match e.2 with
    | some a => if a.dla = dla then some (e.1, a) else none
    | none => none with
  | some (i, a) => if a.copying.isSome then .wait else .ready i
  | none =>
    let n := b.dnCfg p Reg.DN_PART_CFG10.ADAPTER_SLOTS
    let used (i : Nat) : Bool := v.active.any fun r => r.slot = some i
    let at' (i : Nat) : Option AdSlot := SMap.get (fun _ => none) v.slots i
    match findIdx (min n (v.slots.length + 1)) fun i => (at' i).isNone with
    | some i => .copy i
    | none =>
      let lru := (List.range (min n v.slots.length)).foldl (fun (m : Option (Nat × Nat)) i => match at' i with
        | some a => if used i ∨ a.copying.isSome then m
          else match m with
            | none => some (i, a.used)
            | some (_, u) => if a.used < u then some (i, a.used) else m
        | none => m) none
      match lru with
      | some (i, _) => .copy i
      | none => .wait

/-! ### Hoist rings (R243, R244) -/

/-- Write a command at the tail of a queue's ring, if it has room. -/
def Block.hoistWrite (b : Block) (s c : Nat) (ws : List Nat) : Block × Bool :=
  let n := b.rd (Reg.SL_Q_CFG.LOG2_SIZE s c)
  let m := 2 ^ (n + 1)
  let t := b.rd (Reg.SL_Q_TAIL.INDEX s c)
  if (t + m - b.rd (Reg.SL_Q_HEAD.INDEX s c) % m) % m = 2 ^ n then (b, false)
  else
    let p := b.rd (Reg.SL_Q_BASE.BASE s c) + 64 * (t % 2 ^ n)
    if !Dn.ptrOk p 64 then (b, false)
    else
      match b.ptrWrite (b.dnWho s) true false p ((List.range 8).flatMap fun i => natLE 8 (ws.getD i 0)) with
      | (b, st) => if st ≠ Code.SUCCESS ∨ b.waiting then (b, false) else (b.wr (Reg.SL_Q_TAIL.INDEX s c) ((t + 1) % m), true)

/-- Write what the rings take of a step's commands, each queue in order. -/
def Block.hoistFlush (b : Block) (p : Nat) : Block :=
  let s := b.serveSlice p
  let r := (b.dnPart p).toWrite.foldl (fun (acc : Block × List (Nat × List Nat)) w =>
    if acc.2.any fun x => x.1 = w.1 then (acc.1, acc.2 ++ [w])
    else match acc.1.hoistWrite s w.1 w.2 with
      | (b, true) => (b, acc.2)
      | (b, false) => (b, acc.2 ++ [w])) (b, [])
  r.1.modDnPart p fun v => { v with toWrite := r.2 }

/-- A MARK of R255. -/
def Dn.mark (snap no : Nat) : List Nat := [0x12, 0, no, snap]

/-- A template's command under its queue's default ensign. -/
def Dn.command (ws : List Nat) : List Nat :=
  match ws with
  | w0 :: rest => setBits w0 11 1 0 :: rest
  | [] => []

/-! ### Steps (R250) -/

def DnReq.known (r : DnReq) : Nat := r.promptLen + r.chosen.length
def Plan.pagesFor (pl : Plan) (tokens : Nat) : Nat := ceilDiv tokens pl.pageTokens

/-- Pages of a partition's pool that no request holds, lowest first. -/
def Block.freePages (b : Block) (p n : Nat) : List Nat :=
  let used := (b.dnPart p).active.flatMap fun r => r.pages
  (List.range (min (b.dnCfg p Reg.DN_PART_CFG08.KV_PAGES) (used.length + n))).filter fun k => !used.contains k

/-- Read the prompt and stop table of a request (R246): none while an answer is awaited. -/
def Block.readRequest (b : Block) (r : DnReq) : Block × Except Status DnReq :=
  match b.ptrRead (b.dnWho r.slice) r.promptPtr (4 * r.promptLen) with
  | (b, st, d) =>
    if st ≠ Code.SUCCESS then (b, .error Code.DN_PROMPT_FAULT)
    else
      let (b, st, t) := if r.stopCount = 0 then (b, Code.SUCCESS, [])
        else b.ptrRead (b.dnWho r.slice) r.stopPtr (64 * r.stopCount)
      if st ≠ Code.SUCCESS then (b, .error Code.DN_PROMPT_FAULT)
      else
        let lens := (List.range r.stopCount).map fun i => leAt t (64 * i) 4
        let stops := (List.range r.stopCount).map fun i =>
          (List.range (lens.getD i 0)).map fun k => leAt t (64 * i + 4 + 4 * k) 4
        if !b.waiting && !(lens.all fun n => decide (1 ≤ n) && decide (n ≤ 15)) then (b, .error Code.DN_BAD_REQUEST)
        else (b, .ok { r with prompt := (List.range r.promptLen).map fun i => leAt d (4 * i) 4, stops := stops })

/-- What a visit to a slice's pending head does. -/
inductive Admit where
  | admitted | ended | held
deriving DecidableEq, Repr

/-- Where an adapter slot lies. -/
def Block.slotAt (b : Block) (p i : Nat) : Nat :=
  b.dnCfg p Reg.DN_PART_CFG10.SLOT_BASE + i * (b.dnCfg p Reg.DN_PART_CFG10.ADAPTER_SLOT_BYTES * 4096)

/-- The descriptor of the XFER that copies an adapter: bytes as they are, one dimension, SEAL_CHK 2 (Tables XFR-1, XFR-2). -/
def Dn.copyDesc (src dst size : Nat) : List Nat := [src, dst, 0x20100, 0, 0, 0, 0, 0, 0, size, 1, 1, 0, 0, 0, 0]

/-- Start the copy of an adapter into a slot: its descriptor, then its XFER if queue 0 of the serving slice has room; the
status of a descriptor that cannot be written. -/
def Block.adapterFill (b : Block) (p i : Nat) (a : Nat × Nat) : Block × Option Status :=
  let sl := b.serveSlice p
  let desc := (Config.adapterDesc p i).toNat * 64
  let ring := b.rd (Reg.SL_Q_TAIL.INDEX sl 0)
  match b.ptrWrite (b.dnWho sl) true false desc ((Dn.copyDesc a.1 (b.slotAt p i) a.2).flatMap (natLE 8)) with
  | (b, st) =>
    if st ≠ Code.SUCCESS then (b, some st)
    else match b.hoistWrite sl 0 [0x01, 0, desc, 2, 0, 0, 0, 0] with
      | (b, false) => (b, none)
      | (b, true) => (b.modDnPart p fun v => { v with
          slots := SMap.put (fun _ => none) v.slots i (some ⟨a.1, a.2, v.clock, some ring, none⟩)
          clock := v.clock + 1 }, none)

/-- The record of a request's adapter: the copy it holds, else the table's (R252); none for a request without an adapter. -/
def Block.recordOf (b : Block) (p : Nat) (r : DnReq) : Block × Except Status (Option (Nat × Nat)) :=
  if r.adapter = 0xFFFF then (b, .ok none)
  else match r.record with
    | some a => (b, .ok (some a))
    | none => match b.adapterRec p r with
      | (b, .error st) => (b, .error st)
      | (b, .ok a) => (b, .ok (some a))

/-- Admit the head `r` of slice `s`: its pages, and its adapter's slot. -/
def Block.admitNow (b : Block) (p s want : Nat) (r : DnReq) (slot : Option Nat) : Block :=
  let pages := (b.freePages p want).take want
  let touch (v : DnPart) : DnPart := match slot with
    | some i => { v with
        slots := SMap.modify (fun _ => none) v.slots i fun a => a.map fun a => { a with used := v.clock }
        clock := v.clock + 1 }
    | none => v
  let b := b.modDnSlice s fun v => { v with pending := v.pending.drop 1 }
  let b := b.modDnPart p fun v => touch { v with
    active := v.active ++ [{ r with pages := pages, slot := slot, ctx := 0, feed := 0, sampled := false }], lastSlice := s }
  b.dnShowSlice s

/-- Visit the head of slice `s`'s pending list (R250, R252). -/
def Block.admitHead (b : Block) (p s : Nat) : Block × Admit :=
  match (b.dnSlice s).pending with
  | [] => (b, .held)
  | r :: rest =>
    let finish (b : Block) (st : Status) : Block × Admit :=
      ((b.modDnSlice s fun v => { v with pending := rest }).tokPost s (r.failed st), .ended)
    if b.sliceState s ≠ Slice.OPEN ∨ b.dnState s ≠ Dn.SERVING ∨ !b.is (Reg.DN_SLICE18.EN s)
        ∨ b.rd (Reg.SL_QUOTA.ACTIVE_REQ s) ≤ b.dnActive s then (b, .held)
    else match b.plan p r.plan with
      | none => finish b Code.DN_BAD_REQUEST
      | some pl =>
        if b.dnCfg p Reg.DN_PART_CFG08.KV_PAGES < pl.pagesFor (r.promptLen + r.maxNew) then finish b Code.DN_KV_EXHAUSTED
        else
          let chunk := min (b.dnCfg p Reg.DN_PART_CFG08.PREFILL_CHUNK) r.known
          let want := pl.pagesFor (chunk + 1)
          let full : Bool := decide (min (b.dnCfg p Reg.DN_PART_CFG08.MAX_BATCH) pl.maxBatch
            ≤ ((b.dnPart p).active.filter fun x => x.plan = r.plan).length)
          if full ∨ (b.freePages p want).length < want then (b, .held)
          else match b.recordOf p r with
            | (b, .error st) => finish b st
            | (b, .ok ad) =>
              let r := { r with record := ad }
              let b := b.modDnSlice s fun v => { v with pending := r :: rest }
              let place (b : Block) (slot : Option Nat) : Block × Admit :=
                match b.readRequest r with
                | (b, .error st) => finish b st
                | (b, .ok r) => (b.admitNow p s want r slot, .admitted)
              match ad with
              | none => place b none
              | some a => match b.adapterSlot p a.1 with
                | .ready i => place b (some i)
                | .wait => (b, .held)
                | .copy i =>
                  if b.dnCfg p Reg.DN_PART_CFG10.ADAPTER_SLOT_BYTES * 4096 < a.2 then finish b Code.DN_ADAPTER_BAD
                  else match b.adapterFill p i a with
                    | (b, some st) => finish b st
                    | (b, none) => (b, .held)

/-- Slices of partition `p` with pending requests, in round-robin order after the one that admitted last. -/
def Block.admitOrder (b : Block) (p : Nat) : List Nat :=
  let ss := (b.dn.slices.map fun e => e.1).filter fun s => decide (b.slicePart s = p) && !(b.dnSlice s).pending.isEmpty
  let last := (b.dnPart p).lastSlice
  (ss.filter fun s => last < s) ++ ss.filter fun s => s ≤ last

/-- Passes over the slices until one admits nothing. -/
def Block.admitPasses : Nat → Block → Nat → Block
  | 0, b, _ => b
  | k + 1, b, p =>
    let r := (b.admitOrder p).foldl (fun (acc : Block × Bool) s =>
      if acc.1.dnCfg p Reg.DN_PART_CFG08.MAX_BATCH ≤ (acc.1.dnPart p).active.length ∨ acc.1.waiting then acc
      else match acc.1.admitHead p s with
        | (b, .admitted) => (b, true)
        | (b, _) => (b, acc.2)) (b, false)
    if r.2 ∧ !r.1.waiting then Block.admitPasses k r.1 p else r.1

/-- END entries of the requests that have ended or been cancelled; their pages are free (R250, phases 1 and 2). A parked
request keeps its pages and its place (R248). -/
def Block.dnRetire (b : Block) (p : Nat) : Block :=
  let v := b.dnPart p
  let parked := v.active.filter fun r => b.parked r
  let ending (r : DnReq) : Option TokEntry := if parked.contains r then none else match r.ended with
    | some e => some e
    | none => if r.cancelled then some (Tok.END r.id 0 r.chosen.length 0 5) else none
  let b := b.setDnPart p { v with active := v.active.filter fun r => (ending r).isNone }
  let b := v.active.foldl (fun b r => match r.ended, ending r with
    | some _, some e => b.tokPost r.slice e
    | _, _ => b) b
  let b := v.active.foldl (fun b r => match r.ended, ending r with
    | none, some e => b.tokPost r.slice e
    | _, _ => b) b
  v.active.foldl (fun b r => b.dnShowSlice r.slice) b

/-- A request goes back to the head of its slice's pending list; its pages are free. -/
def Block.preempt (b : Block) (p : Nat) (r : DnReq) : Block :=
  let b := b.modDnPart p fun v => { v with active := v.active.filter fun x => !(decide (x.slice = r.slice) && decide (x.id = r.id)) }
  let b := b.modDnSlice r.slice fun v => { v with
    pending := { r with pages := [], slot := none, ctx := 0, feed := 0, sampled := false, due := none } :: v.pending }
  (b.count (Reg.DN_PART_STATUS.PREEMPTS p) 1).dnShowSlice r.slice

/-- Whether a request takes part in a step of plan `pl`. -/
def Block.steps (b : Block) (pl : Nat) (r : DnReq) : Bool :=
  decide (r.plan = pl) && decide (b.sliceState r.slice = Slice.OPEN) && !b.parked r && r.ended.isNone

/-- Give a request the pages its feed needs, preempting the running request admitted last while none is free. -/
def Block.feedReq : Nat → Block → (p : Nat) → Plan → (s id : Nat) → Block
  | 0, b, _, _, _, _ => b
  | k + 1, b, p, pl, s, id =>
    let mine (r : DnReq) : Bool := decide (r.slice = s) && decide (r.id = id)
    match (b.dnPart p).active.find? mine with
    | none => b
    | some r =>
      let n := min (b.dnCfg p Reg.DN_PART_CFG08.PREFILL_CHUNK) (r.known - r.ctx)
      let want := pl.pagesFor (r.ctx + n) - r.pages.length
      let free := b.freePages p want
      if want ≤ free.length then
        b.modDnPart p fun v => { v with
          active := v.active.map fun x => if mine x then { x with feed := n, sampled := false, pages := x.pages ++ free.take want } else x }
      else match ((b.dnPart p).active.filter fun r => b.steps r.plan r).getLast? with
        | none => b
        | some last => Block.feedReq k (b.preempt p last) p pl s id

/-- The plan of the next step: the first after the last step's, in order, with a request to serve. -/
def Block.nextPlan (b : Block) (p : Nat) : Option Nat :=
  let v := b.dnPart p
  ((List.range 16).map fun i => (v.plan + 1 + i) % 16).find? fun i => v.active.any fun r => b.steps i r

/-- What a step's commands depend on besides its templates. -/
def DnReq.work (r : DnReq) : List Nat :=
  [r.slice, r.id, r.ctx, r.feed, r.topK, r.pages.length, b01 r.slot.isSome] ++ ((r.prompt ++ r.chosen).drop r.ctx).take r.feed

/-- The bytes of a KV page (R251). -/
def Plan.pageBytes (pl : Plan) : Nat := pl.pageTokens * pl.tokenBytes

/-- Page `k` of a partition's pool (R251). -/
def Block.kvPage (b : Block) (p : Nat) (pl : Plan) (k : Nat) : Nat := b.dnCfg p Reg.DN_PART_CFG00.KV_BASE + k * pl.pageBytes

/-- What a template's word becomes for request `r`: its own pages and its own slot, and none beyond them (R244). -/
def Block.dnPlace (b : Block) (p : Nat) (pl : Plan) (r : Option DnReq) : HoistWord → Option Nat
  | .lit v => some v
  | .weights o => some (pl.weights + o)
  | .kv k o => match r.bind fun r => r.pages[k]? with
    | some n => if o < pl.pageBytes then some (b.kvPage p pl n + o) else none
    | none => none
  | .adapter o => match r.bind fun r => r.slot with
    | some i => if o < b.dnCfg p Reg.DN_PART_CFG10.ADAPTER_SLOT_BYTES * 4096 then some (b.slotAt p i + o) else none
    | none => none

/-- The words of a command that hold pointers (Table HST-5). -/
def Hoist.ptrWords (op : Nat) : List Nat :=
  match op with
  | 0x01 => [1, 2, 4, 6]
  | 0x02 | 0x03 => [1, 2, 3]
  | 0x04 => [1, 2, 3, 5]
  | 0x05 | 0x23 => [1, 3]
  | 0x10 | 0x11 | 0x20 => [1, 2]
  | 0x22 => [1, 4]
  | _ => [1]

/-- Whether a pointer lies in the KV pool or among the adapter slots of a partition. -/
def Block.dnOwned (b : Block) (p : Nat) (pl : Plan) (v : Nat) : Bool :=
  let a := Ptr.addr v
  decide (Ptr.tag v = 0)
    && ((decide (b.kvPage p pl 0 ≤ a) && decide (a < b.kvPage p pl (b.dnCfg p Reg.DN_PART_CFG08.KV_PAGES)))
      || (decide (b.slotAt p 0 ≤ a) && decide (a < b.slotAt p (b.dnCfg p Reg.DN_PART_CFG10.ADAPTER_SLOTS))))

/-- A template's command as Denob writes it, under its queue's default ensign; none where it would reach into the pool or the
slots past its own request's (R244). -/
def Block.dnHoist (b : Block) (p : Nat) (pl : Plan) (fed : List DnReq) (c : HoistCmd) : Option (List Nat) :=
  let r := c.req.bind fun i => fed[i]?
  let ws : Option (List Nat) := c.words.foldr (fun w acc => match b.dnPlace p pl r w, acc with
    | some v, some l => some (v :: l)
    | _, _ => none) (some [])
  match ws with
  | none => none
  | some ws =>
    if (Hoist.ptrWords (bits (ws.headD 0) 0 8)).any fun k => match c.words[k]? with
      | some (.lit v) => b.dnOwned p pl v
      | _ => false then none
    else some (Dn.command ws)

/-- Phase 4: the step's hoists, with a MARK in every queue after each layer and after sampling (R255). -/
def Block.dnBuild (b : Block) (p : Nat) : Block :=
  match b.nextPlan p with
  | none => b
  | some i => match b.plan p i with
    | none => b
    | some pl =>
      let rs := (b.dnPart p).active.filter fun r => b.steps i r
      let b := rs.foldl (fun b r => Block.feedReq 257 b p pl r.slice r.id) b
      let v := b.dnPart p
      let fed := v.active.filter fun r => 1 ≤ r.feed
      if fed.isEmpty then b
      else
        let cores := (List.range 16).filterMap fun s =>
          if b.enrolled s && (b.part p).sites.testBit s then some (s, (List.range 64).filter fun c => b.is (Reg.ST_SWP_CORE_MAP.VALID s c)) else none
        let work := (cores.flatMap fun c => [c.1, c.2.length] ++ c.2) ++ fed.flatMap DnReq.work
        let snap := Config.markSnapshot pl.templates % 2 ^ 26
        let no (l : Nat) : Nat := v.step % 2 ^ 24 * 256 + l
        let layer (l : Nat) : List (Nat × List Nat) := (List.range 4).flatMap fun c =>
          ((Config.hoists pl.templates l c work).filterMap fun w => (b.dnHoist p pl fed w).map fun ws => (c, ws))
            ++ [(c, Dn.mark snap (no l))]
        let cmds := (List.range pl.layers).flatMap layer ++ layer 0xFF
        let sl := b.serveSlice p
        let b := if (b.slice sl).reached.isEmpty then b.wr (Reg.SL_MARK_CFG.QMASK sl) 0xF else b
        (b.setDnPart p { v with running := true, plan := i, committed := false, toWrite := cmds }).hoistFlush p

/-- A step that has run: its feeds are context now. -/
def DnPart.close (v : DnPart) : DnPart :=
  if !v.running then v
  else { v with
    running := false, committed := false, step := v.step + 1
    active := v.active.map fun r => { r with ctx := r.ctx + r.feed, feed := 0, sampled := false } }

/-- Whether the running step has finished: its commands are written, its final mark has committed, and every request it
brought to its last known token has sampled. -/
def DnPart.stepDone (v : DnPart) : Bool :=
  v.toWrite.isEmpty && v.committed
    && v.active.all fun r => decide (r.feed = 0) || r.sampled || decide (r.ctx + r.feed < r.known)

/-- Loads and unloads take effect (R245). -/
def DnPart.applyPlans (v : DnPart) : DnPart :=
  { v with
    plans := v.changes.foldl (fun m c => SMap.put (fun _ => none) m c.1 c.2) v.plans
    changes := [] }

/-- The active bank of Denob's firmware becomes the other; a restart follows. -/
def Block.bankFlip (b : Block) : Block :=
  let b := b.wr Reg.DN_STATUS.BANK (1 - b.rd Reg.DN_STATUS.BANK)
  { b with boot := { b.boot with nor := { b.boot.nor with activeBank := b.rd Reg.DN_STATUS.BANK } } }

/-- A component is no longer staged; PENDING_UPDATE clears with the last (R360). -/
def Block.unstage (b : Block) (bitNo : Nat) : Block :=
  let staged := setBits (b.rd Reg.SEC_FW_STATUS.STAGED) bitNo 1 0
  (b.wr Reg.SEC_FW_STATUS.STAGED staged).wr Reg.MH_STATUS.PENDING_UPDATE (b01 (staged != 0))

/-- Denob's firmware banks switch (R257). -/
def Block.dnSwitch (b : Block) : Block :=
  match b.sec.dnStaged with
  | none => { b with dn := { b.dn with activating := false } }
  | some f =>
    let b := b.bankFlip
    let b := { b with
      dn := { b.dn with activating := false, switched := true, restarting := true }
      sec := { b.sec with dnOld := b.sec.dnRun, dnRun := f, dnStaged := none } }
    let b := b.wr Reg.SEC_FW_STATUS.DN_SVN f.svn
    ((b.wr Reg.DN_STATUS.RUNNING 0).count Reg.DN_STATUS.RESTARTS 1).unstage 1

/-- Whether no partition runs a step. -/
def Block.dnIdle (b : Block) : Bool := b.dn.parts.all fun e => !e.2.running

/-- The pending heads that wait for an adapter end with the status of its copy (R252). -/
def Block.copyFailed (b : Block) (p dla : Nat) (st : Status) : Block :=
  (b.dn.slices.map fun e => e.1).foldl (fun b s =>
    match (b.dnSlice s).pending with
    | r :: rest =>
      if b.slicePart s = p ∧ (r.record.map fun a => a.1) = some dla then
        (b.modDnSlice s fun v => { v with pending := rest }).tokPost s (r.failed st)
      else b
    | [] => b) b

/-- Act on the adapter copies that have ended: the adapter is resident, or its slot is free and its requests end (R252). -/
def Block.dnCopies (b : Block) (p : Nat) : Block :=
  (b.dnPart p).slots.foldl (fun b e => match e.2.bind fun a => a.copied.map fun st => (a, st) with
    | none => b
    | some (a, st) =>
      let put (x : Option AdSlot) : Block := b.modDnPart p fun v => { v with slots := SMap.put (fun _ => none) v.slots e.1 x }
      if st = Code.SUCCESS then put (some { a with copying := none, copied := none })
      else (put none).copyFailed p a.dla st) b

/-- The same for every partition that a slice serves. -/
def Block.dnCopiesOf (b : Block) (s : Nat) : Block :=
  (b.dn.parts.map fun e => e.1).foldl (fun b p => if b.serveSlice p = s then b.dnCopies p else b) b

/-- After a boundary that posted entries, or with an add under way, the host counters are added to (R249). -/
def Block.tokCounts (b : Block) (p : Nat) : Block :=
  (b.dn.slices.map fun e => e.1).foldl (fun b s =>
    if b.slicePart s = p ∧ (1 ≤ (b.dnSlice s).uncounted ∨ (b.dnSlice s).counting.isSome) then b.tokCount s else b) b

/-- STEP_BOUNDARY of partition `p` (R250). -/
def Block.stepBoundary (b : Block) (p : Nat) : Block :=
  let v := b.dnPart p
  if !b.dnRuns ∨ b.partEmpty p then b
  else if v.running && !v.toWrite.isEmpty then (if b.sliceState (b.serveSlice p) = Slice.OPEN then b.hoistFlush p else b)
  else if v.running && !v.stepDone then b
  else
    let b := ((b.postDue p).modDnPart p fun v => v.close.applyPlans).dnAdopt p
    let b := (b.dnCopies p).dnRetire p
    let b := if b.dn.activating ∨ b.sliceState (b.serveSlice p) ≠ Slice.OPEN then b else (Block.admitPasses 512 b p).dnBuild p
    let b := b.tokCounts p
    if b.dn.activating then (if b.dnIdle then b.dnSwitch else b) else b.dnShow p

/-! ### Plans (R245) -/

/-- A plan's header and templates, checked. -/
def Plan.parse (d : List Byte) : Option Plan :=
  let f (o n : Nat) : Nat := leAt d o n
  let layers := f 0x06 1
  let pt := f 0x14 2
  let tb := f 0x18 4
  let size := f 0x1C 4
  let ok : Bool := decide (f 0 4 = 0x4E4C505A) && decide (f 4 2 = 1) && decide (1 ≤ layers) && decide (layers ≤ 254)
    && decide (2 ≤ f 0x08 4) && decide (f 0x08 4 ≤ 2 ^ 24) && decide (2 ≤ f 0x10 4) && decide (f 0x10 4 ≤ 2 ^ 20)
    && [16, 32, 64, 128, 256].contains pt && decide (1 ≤ bits (f 0x16 2) 0 9) && decide (bits (f 0x16 2) 0 9 ≤ 256)
    && decide (tb % (4096 / pt) = 0) && decide (size ≤ 1048576)
  if ok then some ⟨layers, f 0x08 4, f 0x0C 4, f 0x10 4, pt, bits (f 0x16 2) 0 9, tb, bits (f 0x20 8) 0 48, (d.drop 64).take size⟩
  else none

/-- Data memory that a partition's plans take. -/
def Block.planBytes (b : Block) : Nat :=
  (b.dn.parts.map fun e => (e.2.plans.map fun q => match q.2 with
    | some pl => 64 + pl.templates.length
    | none => 0).sum + (e.2.changes.map fun q => match q.2 with
    | some pl => 64 + pl.templates.length
    | none => 0).sum).sum

/-- Whether a request of partition `p` uses a plan slot. -/
def Block.planUsed (b : Block) (p i : Nat) : Bool :=
  ((b.dnPart p).active.any fun r => r.plan = i)
    || b.dn.slices.any fun e => decide (b.slicePart e.1 = p) && e.2.pending.any fun r => r.plan = i

/-- Read and check the plan at DN_PLAN_PTR for slot `i` of partition `p`. -/
def Block.planRead (b : Block) (p i : Nat) : Block × Except Status Plan :=
  let ptr := b.rd Reg.DN_PLAN_PTR.PTR
  let hbm : Bool := match b.range (Ptr.addr ptr) with
    | .hbm _ => decide (Ptr.tag ptr = 0) && (Ptr.check ptr).isNone && decide (ptr % 64 = 0)
    | _ => false
  if b.planUsed p i then (b, .error Code.DN_PLAN_BUSY)
  else if !hbm then (b, .error Code.DN_PLAN_BAD)
  else
    -- Denob reads under the serving slice as it is written, whose work a plan is (R244)
    let w := b.dnWho (b.rd (Reg.DN_PART_CFG08.SERVE_SLICE p))
    match b.dlaRead w (Ptr.addr ptr) 64 with
    | (b, st, hd) =>
      if b.waiting || decide (st ≠ Code.SUCCESS) then (b, .error Code.DN_PLAN_BAD)
      else match b.dlaRead w (Ptr.addr ptr + 64) (min (leAt hd 0x1C 4) 1048576) with
        | (b, st, tm) =>
          match Plan.parse (hd ++ tm) with
          | none => (b, .error Code.DN_PLAN_BAD)
          | some pl =>
            if st ≠ Code.SUCCESS ∨ crc32c (hd.take 0x28 ++ tm) ≠ leAt hd 0x28 4
                ∨ min (2 * 2 ^ 20) Config.planMemory < b.planBytes + 64 + tm.length then (b, .error Code.DN_PLAN_BAD)
            else (b, .ok pl)

/-- A load or unload has ended (R245). -/
def Block.planEnd (b : Block) (st : Status) : Block :=
  ({ b with dn := { b.dn with loading := none } }.wr Reg.DN_PLAN_CTRL.BUSY 0).wr Reg.DN_PLAN_CTRL.STATUS st

/-- PLAN_LOAD; the load that runs goes on. -/
def Block.planLoad (b : Block) (p i : Nat) : Block :=
  if b.dn.loading.isSome ∧ b.dn.loading ≠ some (p, i) then b.wr Reg.DN_PLAN_CTRL.STATUS Code.DN_PLAN_BUSY
  else
    let b := (b.wr Reg.DN_PLAN_CTRL.PARTITION p).wr Reg.DN_PLAN_CTRL.INDEX i
    let b := { b with dn := { b.dn with loading := some (p, i) } }.wr Reg.DN_PLAN_CTRL.BUSY 1
    let r := b.planRead p i
    if r.1.waiting then b.issue r.1.ext.need
    else match r.2 with
      | .error st => r.1.planEnd st
      | .ok pl => (r.1.modDnPart p fun v => { v with changes := v.changes ++ [(i, some pl)] }).planEnd Code.SUCCESS

/-- PLAN_UNLOAD; none of it while a load runs. -/
def Block.planUnload (b : Block) (p i : Nat) : Block :=
  if b.dn.loading.isSome then b
  else
    let b := (b.wr Reg.DN_PLAN_CTRL.PARTITION p).wr Reg.DN_PLAN_CTRL.INDEX i
    if b.planUsed p i then b.wr Reg.DN_PLAN_CTRL.STATUS Code.DN_PLAN_BUSY
    else (b.modDnPart p fun v => { v with changes := v.changes ++ [(i, none)] }).wr Reg.DN_PLAN_CTRL.STATUS Code.SUCCESS

/-! ### What others tell Denob -/

/-- A final mark of a partition's serving slice has committed (R255). -/
def Block.dnCommit (b : Block) (s no : Nat) : Block :=
  (b.dn.parts.map fun e => e.1).foldl (fun b p =>
    let v := b.dnPart p
    if v.running ∧ b.serveSlice p = s ∧ no = v.step % 2 ^ 24 * 256 + 0xFF then
      (b.setDnPart p { v with committed := true }).postDue p
    else b) b

/-- Drop a slice's requests and entries (R258, R268). -/
def Block.dnDrop (b : Block) (s : Nat) : Block :=
  let p := b.slicePart s
  let b := b.modDnPart p fun v => { v with active := v.active.filter fun r => r.slice ≠ s }
  let b := b.setDnSlice s DnSlice.reset
  (b.dnShowSlice s).dnShow p

/-- Every request of the slices that `sel` picks ends with ERROR and `st`. -/
def Block.dnEndAll (b : Block) (sel : Nat → Bool) (st : Status) : Block :=
  let b := (b.dn.parts.map fun e => e.1).foldl (fun b p =>
    let gone := (b.dnPart p).active.filter fun r => sel r.slice
    let b := b.modDnPart p fun v => { v with active := v.active.filter fun r => !sel r.slice }
    let b := gone.foldl (fun b r => (b.tokPost r.slice (r.failed st)).dnShowSlice r.slice) b
    b.dnShow p) b
  (b.dn.slices.map fun e => e.1).foldl (fun b s =>
    if !sel s then b
    else
      let rs := (b.dnSlice s).pending
      let b := b.modDnSlice s fun v => { v with pending := [] }
      rs.foldl (fun b r => b.tokPost s (r.failed st)) b) b

/-- Denob is marked permanently failed (R256). -/
def Block.dnFail (b : Block) : Block :=
  let b := (b.wr Reg.DN_STATUS.RUNNING 0).wr Reg.DN_STATUS.FAILED 1
  let b := { b with dn := { b.dn with restarting := false, activating := false, switched := false, loading := none } }
  let b := b.wr Reg.DN_PLAN_CTRL.BUSY 0
  let b := { b with dn := { b.dn with parts := b.dn.parts.map fun (e : Nat × DnPart) => (e.1, { e.2 with running := false, toWrite := [] }) } }
  let b := b.dnEndAll (fun _ => true) Code.DN_SERVICE_FAILED
  let served : List Nat := b.liveSlices.filter fun s => decide (b.dnState s ≠ Dn.DISABLED)
  served.foldl (fun b s => b.tokService s Code.DN_SERVICE_FAILED) b

end Sys2Proof.Machine
end

