-- ==== Sys2Proof/Machine/Denob.lean ====
section
/-! DEFINITION. Denob's commands (11). -/

namespace Sys2Proof.Machine

/-- R58 for a slice's request-ring tail. -/
def Block.reqDoorbell (b : Block) (s v : Nat) : Block :=
  let n := b.reqLog2 s
  let m := 2 ^ (n + 1)
  let head := b.rd (Reg.DN_SLICE28.REQ_HEAD s)
  let t := v % 2 ^ 17
  let dNew := (t % m + m - head % m) % m
  let dOld := (b.rd (Reg.DN_SLICE28.REQ_TAIL s) % m + m - head % m) % m
  if b.sliceState s = Slice.OPEN ∧ dNew ≤ 2 ^ n ∧ dOld ≤ dNew then b.wr (Reg.DN_SLICE28.REQ_TAIL s) (t % m) else b

def execRequestRingDoorbell (slice : SliceNo) (v : BitVec 32) (s : State) : Host.Outcome State Fault Refusal :=
  .next (s.upd fun b => b.reqDoorbell slice v.toNat)

/-- Read the request entry at the head; `submit` says which of the two operations the row stands for. -/
def Block.ringTake (b : Block) (s : Nat) (submit : Bool) : Block :=
  if !b.ringReady s then b
  else match b.ringEntry s with
    | (b', st, w) =>
      if b'.waiting then b'
      else if st ≠ Code.SUCCESS then b'.ringFault s
      else if bit (w 0) 32 = submit then b
      else if submit then (b'.ringAdvance s).submit s (DnReq.ofWords s w)
      else (b'.ringAdvance s).dnCancel s (bits (w 0) 0 32)

def execRequestSubmit (slice : SliceNo) (s : State) : Host.Outcome State Fault Refusal :=
  .next (s.upd fun b => b.settle fun b => b.ringTake slice true)

def execRequestCancel (slice : SliceNo) (s : State) : Host.Outcome State Fault Refusal :=
  .next (s.upd fun b => b.settle fun b => b.ringTake slice false)

def execStepBoundary (part : PartNo) (s : State) : Host.Outcome State Fault Refusal :=
  .next (s.upd fun b => b.settle fun b => b.stepBoundary part)

/-- SAMPLE_TOKEN: REDUCE has left the candidates in rank order (R253). -/
def execSampleToken (part : PartNo) (slice : SliceNo) (reqId : BitVec 32) (cands : List (BitVec 32 × BitVec 32)) (s : State) :
    Host.Outcome State Fault Refusal :=
  .next (s.upd fun b => b.settle fun b => b.sample part slice reqId.toNat (cands.map fun c => (c.1.toNat, c.2.toNat)))

def execTokenRingRoom (slice : SliceNo) (s : State) : Host.Outcome State Fault Refusal :=
  .next (s.upd fun b => b.settle fun b => Block.tokFlush ((b.dnSlice slice).entries.length + 1) b slice)

/-- COALESCE_US have passed since the first entry since the last interrupt (R248). -/
def execTokenIrqTimer (slice : SliceNo) (s : State) : Host.Outcome State Fault Refusal :=
  .next (s.upd fun b =>
    if (b.dnSlice slice).posted = 0 then b else b.tokIrq slice true)

def execPlanLoad (part : PartNo) (index : Fin 16) (s : State) : Host.Outcome State Fault Refusal :=
  .next (s.upd fun b => b.settle fun b => if b.dnRuns then b.planLoad part index else b)

def execPlanUnload (part : PartNo) (index : Fin 16) (s : State) : Host.Outcome State Fault Refusal :=
  .next (s.upd fun b => if b.dnRuns then b.planUnload part index else b)

/-- The journal entry of the activation that runs. -/
def Block.activation (b : Block) : Option Nat :=
  findIdx 48 fun j => decide (b.journalState j = Journal.RUNNING) && decide (b.rd (Reg.MH_JOURNAL00.KIND j) = Journal.ACTIVATE)

def Block.activationEnd (b : Block) (state status : Nat) : Block :=
  match b.activation with
  | some j => b.journalEnd j state status
  | none => b

/-- FW_ACTIVATE (R257): a staged Denob image takes over at the partitions' next step boundaries. -/
def Block.fwActivate (b : Block) : Block :=
  if b.sec.dnStaged.isNone ∨ b.dn.activating ∨ b.dn.restarting ∨ !b.is Reg.MH_STATUS.PENDING_UPDATE ∨ b.is Reg.DN_STATUS.FAILED then b
  else match b.journalFree with
    | none => b.wr Reg.DN_STATUS.LAST_FW_STATUS Code.BUP_JOURNAL_FULL
    | some j =>
      let b := b.journalStart j Journal.ACTIVATE 0 2
      let b := { b with dn := { b.dn with activating := true } }
      if b.dnIdle then b.dnSwitch else b

def execFwActivate (s : State) : Host.Outcome State Fault Refusal :=
  .next (s.upd fun b => b.fwActivate)

/-- FW_SELF_CHECK_TIMEOUT (R257): the bank switched away from runs again. -/
def Block.fwFallback (b : Block) : Block :=
  if !b.dn.switched then b
  else
    let b := b.bankFlip
    let b := { b with
      dn := { b.dn with switched := false }
      sec := { b.sec with dnRun := b.sec.dnOld } }
    let b := b.wr Reg.SEC_FW_STATUS.DN_SVN b.sec.dnRun.svn
    let b := (b.wr Reg.DN_STATUS.BANK_FAILED 1).wr Reg.DN_STATUS.LAST_FW_STATUS Code.DN_FW_FALLBACK
    b.activationEnd Journal.DONE Code.DN_FW_FALLBACK

def execFwSelfCheckTimeout (s : State) : Host.Outcome State Fault Refusal :=
  .next (s.upd fun b => b.fwFallback)

/-- Setting DN_SLICE EN (R258, table of DN_SLICE). -/
def Block.serveEnable (b : Block) (s : Nat) : Block :=
  if b.is (Reg.DN_SLICE18.EN s) then b
  else
    let b := b.wr (Reg.DN_SLICE18.EN s) 1
    if b.dnState s = Dn.STALLED then
      let b := (b.wr (Reg.DN_SLICE20.STATE s) Dn.SERVING).modDnSlice s fun v => { v with tokStall := false }
      Block.tokFlush ((b.dnSlice s).entries.length + 1) b s
    else if b.dnState s = Dn.DISABLED ∧ b.dnActive s = 0 then
      let b := (b.setWord (Reg.DN_SLICE28.REQ_HEAD s).off 0).setWord (Reg.DN_SLICE30.TOK_HEAD s).off 0
      b.wr (Reg.DN_SLICE20.STATE s) Dn.SERVING
    else b

def execServeEnable (slice : SliceNo) (s : State) : Host.Outcome State Fault Refusal :=
  .next (s.upd fun b => b.settle fun b => b.serveEnable slice)

/-- Clearing EN stops admission. -/
def Block.serveDisable (b : Block) (s : Nat) : Block :=
  let b := b.wr (Reg.DN_SLICE18.EN s) 0
  if b.dnState s = Dn.SERVING then b.wr (Reg.DN_SLICE20.STATE s) Dn.DISABLED else b

def execServeDisable (slice : SliceNo) (s : State) : Host.Outcome State Fault Refusal :=
  .next (s.upd fun b => b.serveDisable slice)

end Sys2Proof.Machine
end

