-- ==== Sys2Proof/Machine/SecOps.lean ====
section
/-! DEFINITION. Axovonak's operations (17): slots, signed records, installs and their rollback, firmware stages. -/

namespace Sys2Proof.Machine

/-! ### Slots and keys (R351, R353) -/

def Slot.EMPTY : Nat := 0
def Slot.GENERATED : Nat := 1
def Slot.IMPORTED : Nat := 2

def Lc.BLANK : Nat := 0
def Lc.TEST : Nat := 1
def Lc.PRODUCTION : Nat := 2
def Lc.END_OF_LIFE : Nat := 3

def Block.lc (b : Block) : Nat := b.rd Reg.LC_STATUS.STATE

/-- Keys are served: END_OF_LIFE is neither in force nor being committed (R365). -/
def Block.keysLive (b : Block) : Bool := decide (b.lc ≠ Lc.END_OF_LIFE) && decide (b.rd Reg.LC_STATUS.NEXT ≠ Lc.END_OF_LIFE)

def Block.slotState (b : Block) (s : Nat) : Nat := b.rd (Reg.SEC_SLOT_OWNER.STATE s)

/-- A fresh 768-bit key of the DRBG. -/
def Block.drbgKey (b : Block) : Block × Nat :=
  let r := b.freshBytes 96
  (r.1, leNat r.2)

def Block.setSlot (b : Block) (s st : Nat) (key : Option Nat) : Block :=
  let b := b.wr (Reg.SEC_SLOT_OWNER.STATE s) st
  { b with keys := { b.keys with slot := SMap.put (fun _ => none) b.keys.slot s key } }

def Block.setSliceKey (b : Block) (s : Nat) (key : Option Nat) : Block :=
  { b with keys := { b.keys with slice := SMap.put (fun _ => none) b.keys.slice s key } }

/-- SEC_CMD_RESULT. -/
def Block.secResult (b : Block) (st handle : Nat) : Block :=
  (b.wr Reg.SEC_CMD_RESULT.STATUS st).wr Reg.SEC_CMD_RESULT.HANDLE handle

def Block.secCmd (b : Block) (op slot : Nat) : Block := (b.wr Reg.SEC_CMD.OP op).wr Reg.SEC_CMD.SLOT slot

/-- R353's rule for ARG0. -/
def Sec.ptrOk (p : Nat) : Bool := decide (Ptr.tag p < 2) && (Ptr.check p).isNone && decide (p % 4096 = 0)

/-- Axovonak's own accesses, under slice 0. -/
def Block.secWho (b : Block) (slice : Nat) : Who := b.mkWho .security (some slice) 1

def Block.slotGenerate (b : Block) (s : Nat) : Block :=
  let b := b.secCmd 1 s
  if !b.keysLive then b.secResult Code.SEC_KEYS_ZEROISED 0
  else if b.slotState s ≠ Slot.EMPTY then b.secResult Code.SEC_SLOT_STATE 0
  else
    let r := b.drbgKey
    (r.1.setSlot s Slot.GENERATED (some r.2)).secResult Code.SUCCESS 0

/-! ### Signed records (R355) -/

/-- The digest of an owner entry. -/
def Block.ownerDigest (b : Block) (k : Nat) : Nat :=
  ((List.range 6).map fun i => b.word ((Reg.SEC_OWNER00.DIGEST k).off + 8 * i) * 2 ^ (64 * i)).sum

/-- Whether a VALID entry holds the public key's digest with the permission, for the partition if one is given. -/
def Block.ownerHas (b : Block) (pub : List Byte) (perm : Nat → Fld) (part : Option Nat) : Bool :=
  (List.range 16).any fun k =>
    b.is (Reg.SEC_OWNER30.VALID k) && decide (b.ownerDigest k = (Config.sha384 pub).toNat) && b.is (perm k)
      && (match part with
        | some p => (b.rd (Reg.SEC_OWNER30.PARTITIONS k)).testBit p
        | none => true)

/-- R355: none where the record is accepted. -/
def Block.signedBy (b : Block) (pub msg sig : List Byte) (perm : Nat → Fld) (part : Option Nat) : Option Status :=
  if !b.ownerHas pub perm part then some Code.SEC_OWNER_DENIED
  else if !Config.ecdsaVerify pub msg sig then some Code.SEC_SIG_BAD
  else none

/-- SLOT_IMPORT (R355). -/
def Block.slotImport (b : Block) (o : Otp) (s : Nat) : Block :=
  let b := b.secCmd 2 s
  let p := b.rd Reg.SEC_CMD_ARG0.PTR
  if !Sec.ptrOk p ∨ !b.is (Reg.SEC_SLOT_OWNER.OWNED s) then b.secResult Code.SEC_BAD_CMD 0
  else if b.lc = Lc.BLANK then b.secResult Code.SEC_NO_IDENTITY 0
  else if !b.keysLive then b.secResult Code.SEC_KEYS_ZEROISED 0
  else if b.slotState s ≠ Slot.EMPTY then b.secResult Code.SEC_SLOT_STATE 0
  else match b.ptrRead (b.secWho 0) p 512 with
    | (b, st, d) =>
      if b.waiting then b
      else if st ≠ Code.SUCCESS then b.secResult st 0
      else
        let part := b.rd (Reg.SEC_SLOT_OWNER.PARTITION s)
        match b.signedBy (sliceBytes d 0 96) (sliceBytes d 0 304) (sliceBytes d 304 96) Reg.SEC_OWNER30.IMPORT (some part) with
        | some st => b.secResult st 0
        | none =>
          if (sliceBytes d 400 112).any fun x => x ≠ 0 then b.secResult Code.SEC_SIG_BAD 0
          else
            let ctx := sliceBytes d 296 8 ++ natLE 48 (Config.bindingDigest o.uds).toNat
            match Config.unwrap o.uds 0 (sliceBytes d 96 96) ctx (sliceBytes d 192 104) with
            | none => b.secResult Code.SEC_UNWRAP_FAIL 0
            | some k => (b.setSlot s Slot.IMPORTED (some k.toNat)).secResult Code.SUCCESS 0

/-! ### Installs (R356–R358) -/

def Block.secInstalls (b : Block) (l : List Install) : Block :=
  ({ b with sec := { b.sec with installs := l } } : Block).wr Reg.SEC_STATUS.INSTALLS l.length

/-- The region that holds the whole of a DLA range. -/
def Block.regionOf (b : Block) (a len : Nat) : Option Region :=
  match b.range a with
  | .hbm o => (match b.regionAt o with
    | some r => if o + len ≤ r.base + r.size then some r else none
    | none => none)
  | _ => none

/-- The firewall over a range for a right: none where every page passes. -/
def Block.rangeDenied (b : Block) (s a pages : Nat) (rt : Right) : Option Status :=
  (List.range pages).findSome? fun i => b.firewall (some s) (some (b.slicePart s)) (a + 4096 * i) rt

/-- R356's checks, in order. -/
def Block.installCheck (b : Block) (src dst len slice : Nat) : Except Status Region :=
  match b.regionOf dst (4096 * len) with
  | none => .error Code.SEC_BAD_CMD
  | some r =>
    if !Sec.ptrOk src ∨ dst % 4096 ≠ 0 then .error Code.SEC_BAD_CMD
    else if r.keyMode = 1 ∧ !b.is (Reg.SEC_SLOT_OWNER.OWNED r.keySlot) then .error Code.SEC_BAD_CMD
    else if b.lc = Lc.BLANK then .error Code.SEC_NO_IDENTITY
    else if !b.keysLive then .error Code.SEC_KEYS_ZEROISED
    else if r.keyMode = 1 ∧ b.slotState r.keySlot = Slot.EMPTY then .error Code.SEC_SLOT_STATE
    else if r.keyMode = 0 ∧ b.sliceState slice ≠ Slice.OPEN then .error Code.TEN_BAD_STATE
    else match (if r.keyMode = 0 then b.rangeDenied slice dst len .w else none) with
      | some st => .error st
      | none =>
        if b.sec.installs.any fun i => decide (dst < i.dst + 4096 * i.length) && decide (i.dst < dst + 4096 * len) then
          .error Code.SEC_RANGE_BUSY
        else if 4 ≤ b.sec.installs.length then .error Code.SEC_BUSY
        else .ok r

/-- A handle of slice 0 and a journal entry for a long operation (R79, R388). -/
def Block.longStart (b : Block) (kind target : Nat) : Except Status (Block × Nat × Nat) :=
  if min 256 (b.rd (Reg.SL_QUOTA.HANDLES 0)) ≤ (b.slice 0).handles.length then .error Code.HANDLE_LIMIT
  else match b.journalFree with
    | none => .error Code.BUP_JOURNAL_FULL
    | some j => match b.newHandle 0 with
      | (_, none) => .error Code.HANDLE_LIMIT
      | (b, some seq) => .ok (b.journalStart j kind (Handle.number 0 (b.gen 0) seq) target, seq, j)

/-- PKG_INSTALL (R356). -/
def Block.pkgInstall (b : Block) : Block :=
  let b := b.secCmd 4 (b.rd Reg.SEC_CMD.SLOT)
  let src := b.rd Reg.SEC_CMD_ARG0.PTR
  let dst := b.rd Reg.SEC_CMD_ARG1.DST
  let len := b.rd Reg.SEC_CMD_ARG2.LENGTH
  let slice := b.rd Reg.SEC_CMD_ARG2.SLICE
  match b.installCheck src dst len slice with
  | .error st => b.secResult st 0
  | .ok r => match b.longStart Journal.INSTALL dst with
    | .error st => b.secResult st 0
    | .ok (b, seq, j) =>
      let i : Install := ⟨seq, j, src, dst, len, if r.keyMode = 1 then some r.keySlot else none, slice, none, 0, 0, [], 0⟩
      (b.secInstalls (b.sec.installs ++ [i])).secResult Code.SUCCESS (Handle.number 0 (b.gen 0) seq)

/-- Whether an install has written anything: its step 5 has begun. -/
def Install.begun (i : Install) : Bool := i.units.isSome

/-- The blocks of an install read zero with no seal (R358). -/
def Block.rollback (b : Block) (i : Install) : Block :=
  match b.range i.dst, i.units with
  | .hbm o, some u => (match b.regionAt o with
    | none => b
    | some r =>
      let b := b.hbmClearRange (fun _ => true) false o (o + 4096 * u)
      match b.regionKey r (some i.slice) with
      | none => b
      | some key => (List.range u).foldl (fun b k => (b.hbmSetSeal r key (o - r.base + 4096 * k) 0).1) b)
  | _, _ => b

/-- An install ends (R357, R358). -/
def Block.endInstall (b : Block) (i : Install) (st : Status) : Block :=
  let undo := i.begun && decide (st ≠ Code.SUCCESS)
  let b := if undo then b.rollback i else b
  let b := b.secInstalls (b.sec.installs.filter fun x => x.seq ≠ i.seq)
  let b := b.journalEnd i.journal
    (if undo then Journal.ROLLED_BACK else if st = Code.SUCCESS then Journal.DONE else Journal.ABORTED) st
  b.endHandle 0 i.seq st i.next

/-- Every install that `sel` picks ends. -/
def Block.endInstalls (b : Block) (sel : Install → Bool) (st : Status) : Block :=
  (b.sec.installs.filter sel).foldl (fun b i => b.endInstall i st) b

def Block.putInstall (b : Block) (i : Install) : Block :=
  let new (x : Install) : Install := if x.seq = i.seq then i else x
  b.secInstalls (b.sec.installs.map new)

/-- The package's first 0xA200 bytes name the binding entry of this device. -/
def Pkg.entry (o : Otp) (d : List Byte) (n : Nat) : Option Nat :=
  findIdx n fun i => decide (leAt d (0x200 + 160 * i) 48 = (Config.bindingDigest o.uds).toNat)

/-- R357's check 1: none where the header is well formed. -/
def Pkg.formatOk (d : List Byte) : Bool :=
  let n := leAt d 0x18 2
  let zero (a len : Nat) : Bool := (sliceBytes d a len).all fun x => x = 0
  decide (leAt d 0 4 = 0x57504B47) && decide (leAt d 4 2 = 1) && decide (1 ≤ n) && decide (n ≤ 256)
    && decide (1 ≤ leAt d 0x10 8) && decide (leAt d 0x10 8 ≤ 2 ^ 40) && zero 0x170 0x90
    && (List.range 256).all fun i => if i < n then zero (0x298 + 160 * i) 8 else zero (0x200 + 160 * i) 160

/-- Steps 1 to 4 of R357. -/
def Block.installOpen (b : Block) (o : Otp) (i : Install) : Block :=
  match b.ptrRead (b.secWho 0) i.src 0xA200 with
  | (b, st, d) =>
    if b.waiting then b
    else if st ≠ Code.SUCCESS then b.endInstall i st
    else if !Pkg.formatOk d then b.endInstall i Code.SEC_PKG_FORMAT
    else
      let n := leAt d 0x18 2
      let u := ceilDiv (leAt d 0x10 8) 4096
      if i.length < u then b.endInstall i Code.SEC_PKG_TARGET
      else
        let part := match i.slot with
          | some s => b.rd (Reg.SEC_SLOT_OWNER.PARTITION s)
          | none => b.slicePart i.slice
        match b.signedBy (sliceBytes d 0x20 96) (sliceBytes d 0 0x110 ++ sliceBytes d 0x200 0xA000) (sliceBytes d 0x110 96)
            Reg.SEC_OWNER30.PKG (some part) with
        | some st => b.endInstall i st
        | none => match Pkg.entry o d n with
          | none => b.endInstall i Code.SEC_PKG_NOT_BOUND
          | some e =>
            let ctx := sliceBytes d 8 8 ++ natLE 48 (Config.bindingDigest o.uds).toNat
            match Config.unwrap o.uds 1 (sliceBytes d 0x80 96) ctx (sliceBytes d (0x230 + 160 * e) 104) with
            | none => b.endInstall i Code.SEC_UNWRAP_FAIL
            | some k =>
              (b.putInstall { i with units := some u, key := k.toNat, digest := leAt d 0xE0 48 }).journalPhase i.journal 5 0

/-- One unit of step 5. -/
def Block.installUnit (b : Block) (i : Install) (u : Nat) : Block :=
  if u ≤ i.next then b
  else match b.ptrRead (b.secWho 0) (i.src + 0xA200 + 4096 * i.next) 4096 with
    | (b, st, d) =>
      if b.waiting then b
      else if st ≠ Code.SUCCESS then b.endInstall i st
      else
        let pt := natLE 4096 ((Config.xtsUnit (i.key % 2 ^ 512) i.next).symm (BitVec.ofNat 32768 (leNat d))).toNat
        let w := b.secWho i.slice
        match b.placeBlock w (i.dst + 4096 * i.next) pt (Seal.make pt 0x081 0 0 false) with
        | (b, st) =>
          if b.waiting then b
          else if st ≠ Code.SUCCESS then b.endInstall i st
          else (b.putInstall { i with next := i.next + 1, plain := i.plain ++ pt }).journalPhase i.journal 5 (i.next + 1)

/-- Step 6. -/
def Block.installFinish (b : Block) (i : Install) (u : Nat) : Block :=
  if i.next < u then b
  else if (Config.sha384 i.plain).toNat = i.digest then b.endInstall i Code.SUCCESS
  else b.endInstall i Code.SEC_PKG_DIGEST

/-! ### Firmware stages (R359) -/

def Block.fwStage (b : Block) : Block :=
  let b := b.secCmd 5 (b.rd Reg.SEC_CMD.SLOT)
  let src := b.rd Reg.SEC_CMD_ARG0.PTR
  if !Sec.ptrOk src then b.secResult Code.SEC_BAD_CMD 0
  else if b.sec.stage.isSome then b.secResult Code.SEC_BUSY 0
  else match b.longStart Journal.STAGE 0 with
    | .error st => b.secResult st 0
    | .ok (b, seq, j) =>
      ({ b with sec := { b.sec with stage := some ⟨seq, j, src⟩ } } : Block).secResult Code.SUCCESS (Handle.number 0 (b.gen 0) seq)

def Block.endStage (b : Block) (g : Stage) (st : Status) (units : Nat) : Block :=
  let b := { b with sec := { b.sec with stage := none } }
  (b.journalEnd g.journal (if st = Code.SUCCESS then Journal.DONE else Journal.ABORTED) st).endHandle 0 g.seq st units

/-- A component's staged image; none drops it. -/
def Block.setStaged (b : Block) (comp : Nat) (f : Option Firmware) : Block :=
  let b := if comp = 1 then { b with sec := { b.sec with axStaged := f } } else { b with sec := { b.sec with dnStaged := f } }
  let staged := setBits (b.rd Reg.SEC_FW_STATUS.STAGED) (comp - 1) 1 (b01 f.isSome)
  (b.wr Reg.SEC_FW_STATUS.STAGED staged).wr Reg.MH_STATUS.PENDING_UPDATE (b01 (staged != 0))

def Block.stageDone (b : Block) (g : Stage) : Block :=
  match b.ptrRead (b.secWho 0) g.src 4096 with
  | (b, st, hd) =>
    if b.waiting then b
    else if st ≠ Code.SUCCESS then b.endStage g st 0
    else match Config.fwHeader hd with
      | none => b.endStage g Code.SEC_FW_BAD 0
      | some (comp, svn, len) =>
        if comp ≠ 1 ∧ comp ≠ 2 then b.endStage g Code.SEC_FW_BAD 0
        else match b.ptrRead (b.secWho 0) g.src len with
          | (b, st, d) =>
            let minSvn := if comp = 1 then b.rd Reg.SEC_FW_STATUS.AX_MIN_SVN else b.rd Reg.SEC_FW_STATUS.DN_MIN_SVN
            if b.waiting then b
            else if st ≠ Code.SUCCESS then (b.setStaged comp none).endStage g st 0
            else if !Config.fwVerify d then (b.setStaged comp none).endStage g Code.SEC_FW_BAD 0
            else if svn.val < minSvn then (b.setStaged comp none).endStage g Code.SEC_FW_ROLLBACK 0
            else (b.setStaged comp (some ⟨svn, (Config.sha384 d).toNat⟩)).endStage g Code.SUCCESS (ceilDiv len 4096)

end Sys2Proof.Machine
end

