-- ==== Sys2Proof/Machine/TenancyOps.lean ====
section
/-! DEFINITION. What tenancy operations do to a slice and to a partition (12): reset, release, freeze, the saved image,
partition reset and re-form. -/

namespace Sys2Proof.Machine

/-- SL_MGR_OP's fields and SL_MGR_RESULT. -/
def Block.mgrOp (b : Block) (op target : Nat) : Block := (b.wr Reg.SL_MGR_OP.OP op).wr Reg.SL_MGR_OP.TARGET target
def Block.mgrResult (b : Block) (st handle : Nat) : Block :=
  (b.wr Reg.SL_MGR_RESULT.STATUS st).wr Reg.SL_MGR_RESULT.HANDLE handle

/-- SL_PART_STATUS of a partition. -/
def Block.partStatus (b : Block) (p : Nat) : Block :=
  let ss := b.partSlices p
  let b := b.wr (Reg.SL_PART_STATUS.OPEN_SLICES p) ss.length
  let b := b.wr (Reg.SL_PART_STATUS.ACTIVE_REQ_SUM p) ((ss.map fun s => b.rd (Reg.SL_QUOTA.ACTIVE_REQ s)).sum)
  let b := b.wr (Reg.SL_PART_STATUS.RESETTING p) (b01 (b.ten.resets.any fun r => r.part = p))
  b.wr (Reg.SL_PART_STATUS.REFORMING p) (b01 (match b.ten.reform with
    | some r => r.changed.contains p
    | none => false))

/-- A slice's state, as the partition's counts show it too. -/
def Block.setSliceState (b : Block) (sl st : Nat) : Block := (b.wr (Reg.SL_STATUS.STATE sl) st).partStatus (b.slicePart sl)

/-- R262. -/
def Block.nextGen (b : Block) (sl : Nat) : Block :=
  let g := b.gen sl
  b.wr (Reg.SL_STATUS.GENERATION sl) (if g = 0xFFFF then 1 else g + 1)

/-- R265: ACTIVE_REQ within what the partition's other slices leave. -/
def Block.clampActive (b : Block) (sl : Nat) : Block :=
  let p := b.slicePart sl
  let others := ((b.partSlices p).filter fun s => s ≠ sl).map fun s => b.rd (Reg.SL_QUOTA.ACTIVE_REQ s)
  let room := (b.part p).activeReq - others.sum
  if room < b.rd (Reg.SL_QUOTA.ACTIVE_REQ sl) then
    (b.wr (Reg.SL_QUOTA.ACTIVE_REQ sl) room).wr Reg.MH_STATUS.TUNE_CLAMP 1
  else b

/-! ### Mailboxes (R266) -/

def Block.mbxClear (b : Block) (sl : Nat) : Block :=
  let b := (List.range 8).foldl (fun b i => b.wr (Reg.SL_MBX_IN.WORD sl i) 0) b
  let b := b.wr (Reg.SL_MBX_CTRL.IN_FULL sl) 0
  b.modSlice sl fun v => { v with mbxOut := [], outBusy := false, dropped := false, mbxIn := [], inValid := false }

/-! ### Ends of long operations -/

/-- A SAVE or RESTORE ends. -/
def Block.endSliceOp (b : Block) (sl : Nat) (st : Status) (state cnt : Nat) : Block :=
  match (b.slice sl).op with
  | none => b
  | some o =>
    let b := b.modSlice sl fun v => { v with op := none }
    (b.journalEnd o.journal state st).endHandle 0 o.seq st cnt

/-- SL_FREEZE_STATUS at a freeze's end. -/
def Block.freezeEnd (b : Block) (sl : Nat) (st : Status) : Block :=
  let b := b.modSlice sl fun v => { v with freeze := none }
  let b := (b.wr (Reg.SL_FREEZE_STATUS.RUNNING sl) 0).wr (Reg.SL_FREEZE_STATUS.VALID sl) 1
  b.wr (Reg.SL_FREEZE_STATUS.STATUS sl) st

/-! ### Reset (R267) -/

/-- Denob's step dies with its serving slice's queues. -/
def Block.dnServeReset (b : Block) (sl : Nat) : Block :=
  (b.dn.parts.map fun e => e.1).foldl (fun b p =>
    if b.serveSlice p ≠ sl then b
    else b.modDnPart p fun v => { v with
      running := false, committed := false, toWrite := []
      active := v.active.map fun r => { r with feed := 0, sampled := false, due := none }
      slots := v.slots.filter fun e => match e.2 with
        | some a => a.copying.isNone
        | none => false }) b

/-- Steps 1 and 2: issue stops, and running commands end without entries. -/
def Block.quiesce (b : Block) (sl : Nat) (st : Status) : Block :=
  let b := if b.sliceState sl = Slice.FREEZING then b.freezeEnd sl Code.TEN_FREEZE_REFUSED else b
  let b := b.endInstalls (fun i => i.slot.isNone && decide (i.slice = sl)) st
  let b := b.endSlice sl false
  let b := b.dropWaits fun w => match w with
    | .queue q _ => decide (q / 4 = sl)
    | _ => false
  (List.range 4).foldl (fun b c => b.modQ sl c fun q => { q with fetched := [], inflight := [], block := none, replay := [] }) b

/-- Steps 3 to 5. -/
def Block.clearSlice (b : Block) (sl : Nat) : Block :=
  let b := ((b.nextGen sl).xlatDropSlice sl).stopMarker sl
  let b := { b with ep := { b.ep with wbWaits := b.ep.wbWaits.filter fun q => q / 4 ≠ sl } }
  let b := (List.range 4).foldl (fun b c =>
    let b := (b.setQ sl c QueueState.reset).setQState sl c Q.DISABLED
    let b := (b.wr (Reg.SL_Q_HEAD.INDEX sl c) 0).wr (Reg.SL_Q_TAIL.INDEX sl c) 0
    let b := b.wr (Reg.SL_Q_CTRL.ENABLE sl c) 0
    b.qStatus sl c) b
  let b := ((b.wr (Reg.SL_CRING_HEAD.INDEX sl) 0).wr (Reg.SL_CRING_TAIL.INDEX sl) 0).wr (Reg.SL_CRING_STATUS.FULL sl) 0
  let b := b.setWord (Reg.SL_MARK_STATUS.EPOCH sl).off 0
  -- HANDLE_DONE entries that still wait are of the old generation (R82)
  let old := ((b.slice sl).entries.filter fun e => e.kind = 1).length
  let b := b.count (Reg.SL_CRING_STATUS.STALE sl) old
  let v := b.slice sl
  let b := b.setSlice sl { SliceState.reset with
    mbxOut := v.mbxOut, outBusy := v.outBusy, dropped := v.dropped, mbxIn := v.mbxIn, inValid := v.inValid
    releasing := v.releasing, op := v.op }
  let b := (b.handleLive sl).wr (Reg.SL_HANDLE_STATUS.GEN_LO sl) (b.gen sl % 16)
  let b := { b with fc := { b.fc with dataReplayed := NSet.erase b.fc.dataReplayed sl } }
  let b := b.pos.foldl (fun b e => b.modPos e.1 fun s => { s with records := s.records.filter fun r => r.slice ≠ sl }) b
  (b.dnServeReset sl).dnDrop sl

/-- Start a slice reset. -/
def Block.startReset (b : Block) (sl : Nat) (st : Status) : Block :=
  let b := (b.quiesce sl st).endSliceOp sl st Journal.ABORTED 0
  b.setSliceState sl Slice.RESETTING

/-- The rest of a slice reset, once no CANCEL is out; a release that was queued runs (Table TEN-1). -/
def Block.finishReset (b : Block) (sl : Nat) : Block :=
  let b := (b.clearSlice sl).mbxClear sl
  b.setSliceState sl (if (b.slice sl).releasing.isSome then Slice.RELEASING else Slice.OPEN)

/-! ### Release (R268) -/

def Block.startRelease (b : Block) (sl : Nat) (overwrite : Bool) : Block :=
  let b := b.quiesce sl Code.SEC_INSTALL_ABORTED
  let b := b.modSlice sl fun v => { v with releasing := some overwrite }
  b.setSliceState sl Slice.RELEASING

/-- The windows of a slice as (base, length) in bytes. -/
def Block.windows (b : Block) (sl : Nat) : List (Nat × Nat) :=
  (List.range 8).filterMap fun k =>
    if b.is (Reg.SL_FW_WIN08.VALID sl k) then
      some (4096 * b.rd (Reg.SL_FW_WIN00.BASE sl k), 4096 * b.rd (Reg.SL_FW_WIN08.SIZE sl k))
    else none

/-- Sync objects of `[lo, hi)` in bytes of the DLA space are reset to 0; a wait on one continues. -/
def Block.syncZero (b : Block) (lo hi : Nat) : Block :=
  let first := (max lo Dla.syncBase - Dla.syncBase) / 8
  let last := (min hi (Dla.syncBase + 2 ^ 20) - Dla.syncBase) / 8
  (b.sync.vals.filterMap fun e => if first ≤ e.1 ∧ e.1 < last then some e.1 else none).foldl (fun b o => b.setSync o 0) b

/-- Steps 3 to 5 of R268 for one window. -/
def Block.scrub (b : Block) (wipe : Bool) (base len : Nat) : Block :=
  let b := b.hbmClearRange (fun r => decide (r.keyMode = 0)) wipe (base - Dla.hbmBase) (base + len - Dla.hbmBase)
  let b := if base < 2 ^ 29 then b.shelfZero base (min (base + len) (2 ^ 29)) else b
  b.syncZero base (base + len)

/-- Steps 2 to 7: the slice is FREE. -/
def Block.freeSlice (b : Block) (sl : Nat) (wipe : Bool) : Block :=
  let b := b.setSliceKey sl none
  let b := (b.windows sl).foldl (fun b w => b.scrub wipe w.1 w.2) b
  let b := (b.setWord (Reg.XL_SLICE_ATTR00.ATOM_EN sl).off 0).setWord (Reg.XL_SLICE_ATTR08.ATOM_LIMIT sl).off 0
  let keep (l : List AccCounter) : List AccCounter := l.filter fun c => c.slice ≠ sl
  let kept (e : Nat × List AccCounter) : Option (Nat × List AccCounter) := if (keep e.2).isEmpty then none else some (e.1, keep e.2)
  let b := { b with xlat := { b.xlat with acc := b.xlat.acc.filterMap kept } }
  let b := b.dnDrop sl
  let b := [0x00, 0x08, 0x10, 0x18, 0x1C, 0x20, 0x28, 0x30, 0x38].foldl (fun b o => b.setWord ((Reg.DN_SLICE00.REQ_BASE sl).off + o) 0) b
  let b := (List.range 8).foldl (fun b k =>
    (b.setWord (Reg.SL_FW_WIN00.BASE sl k).off 0).setWord (Reg.SL_FW_WIN08.SIZE sl k).off 0) b
  let b := b.setWord (Reg.SL_QUOTA.ACTIVE_REQ sl).off 0
  let b := b.setSlice sl SliceState.reset
  b.setSliceState sl Slice.FREE

/-- A release's end. -/
def Block.finishRelease (b : Block) (sl : Nat) (wipe : Bool) : Block := ((b.clearSlice sl).mbxClear sl).freeSlice sl wipe

/-! ### Freeze (R269) -/

/-- Whether a recovery acts on a partition. -/
def Block.recovering (b : Block) (p : Nat) : Bool := b.fc.recoveries.any fun r => decide (r.part = p)

/-- Every issued command of the slice is complete, and Denob's step feeds none of its requests. -/
def Block.drained (b : Block) (sl : Nat) : Bool :=
  ((List.range 4).all fun c => (b.q sl c).inflight.isEmpty) && !b.endsOut sl && !b.recovering (b.slicePart sl)
    && (b.dnPart (b.slicePart sl)).active.all fun r => decide (r.slice ≠ sl) || decide (r.feed = 0)

/-- Whether the drain wait's end refuses the freeze. -/
def Block.freezeRefused (b : Block) (sl : Nat) : Bool :=
  !b.replayable sl || (List.range 4).any fun c => !b.namedQ sl c && !(b.q sl c).inflight.isEmpty

def Block.frozen (b : Block) (sl : Nat) : Block := (b.freezeEnd sl Code.SUCCESS).setSliceState sl Slice.FROZEN

/-- FREEZE_WAIT_MS has passed. -/
def Block.freezeTimeout (b : Block) (sl : Nat) : Block :=
  if b.sliceState sl ≠ Slice.FREEZING ∨ b.recovering (b.slicePart sl) then b
  else if b.drained sl then b.frozen sl
  else if b.freezeRefused sl then (b.freezeEnd sl Code.TEN_FREEZE_REFUSED).setSliceState sl Slice.OPEN
  else
    let b := (b.endSlice sl true).xlatEndSlice sl
    let b := b.dropWaits fun w => match w with
      | .queue q _ => decide (q / 4 = sl)
      | _ => false
    let b := (List.range 4).foldl (fun b c => b.modQ sl c fun q => { q with inflight := [], block := none }) b
    let b := b.toMark sl
    let b := b.modDnPart (b.slicePart sl) fun v => { v with
      active := v.active.map fun r => if r.slice = sl then { r with feed := 0, sampled := false, due := none } else r }
    if b.drained sl then b.frozen sl else b

/-! ### The saved image (R270, R271) -/

/-- The frozen positions of a queue: the ring index and each list's next entry, of the next command not yet issued. -/
def QueueState.positions (q : QueueState) (head m : Nat) : Nat × List ListFrame :=
  match q.front with
  | some f =>
    let rec fix (ahead : Nat) : List ListFrame → List ListFrame
      | [] => []
      | x :: rest => { x with next := x.next - ahead, after := [] } :: fix x.after.length rest
    let stack := fix q.fetched.length q.stack
    let bottom := match q.stack.getLast? with
      | some x => (x.ring + 1) % m
      | none => f.ring
    (if f.depth = 0 then f.ring else bottom, stack)
  | none => (head, q.stack.map fun x => { x with after := [] })

/-- Register words of a slice that its image holds, in order: slice frame, then Denob's. -/
def Image.regs (sl : Nat) : List Nat :=
  let f := 0xD000000 + 0x1000 * sl
  let d := (Reg.DN_SLICE00.REQ_BASE sl).off
  [f, f + 0x10] ++ (List.range 16).map (fun i => f + 0x40 + 8 * i)
    ++ ((List.range 4).flatMap fun c => [0x100, 0x108, 0x10C, 0x114, 0x11C, 0x120, 0x128].map fun o => f + 0x40 * c + o)
    ++ [0x200, 0x208, 0x210, 0x214, 0x218, 0x240, 0x248].map (fun o => f + o)
    ++ [0x00, 0x08, 0x10, 0x18, 0x1C, 0x20, 0x28, 0x30, 0x38].map fun o => d + o

/-- The 64-byte entry of a request, with its posted tokens in W7. -/
def DnReq.words (r : DnReq) (posted : Nat) : List Nat :=
  [r.id + r.plan * 2 ^ 33 + r.adapter * 2 ^ 48, r.promptPtr, r.promptLen + r.maxNew * 2 ^ 32, r.temperature + r.topP * 2 ^ 32,
   r.topK + r.seed * 2 ^ 32, r.stopPtr, r.stopCount, posted]

/-- Requests of a slice, the batch's before the pending ones, with the tokens each has posted. -/
def Block.savedReqs (b : Block) (sl : Nat) : List (DnReq × Nat) :=
  let v := b.dnSlice sl
  (((b.dnPart (b.slicePart sl)).active.filter fun r => r.slice = sl) ++ v.pending).map fun r =>
    (r, r.chosen.length - (v.entries.filter fun e => decide (e.id = r.id) && decide (e.kind = 1)).length)

def padTo (n : Nat) (bs : List Byte) : List Byte := bs ++ zeros (n - bs.length)

/-- The State section: two units of registers, positions and stacks, then the request records. -/
def Block.imageState (b : Block) (sl : Nat) : List Byte :=
  let pos := (List.range 4).flatMap fun c =>
    let n := b.rd (Reg.SL_Q_CFG.LOG2_SIZE sl c)
    let p := (b.q sl c).positions (b.rd (Reg.SL_Q_HEAD.INDEX sl c)) (2 ^ (n + 1))
    [p.1, p.2.length] ++ ((List.range 8).flatMap fun i => match p.2[i]? with
      | some f => [f.ptr, f.len, f.next, f.ring]
      | none => [0, 0, 0, 0])
  let reqs := (b.savedReqs sl).flatMap fun r => r.1.words r.2
  padTo 8192 (((Image.regs sl).map b.word ++ pos).flatMap (natLE 8)) ++ padTo (4096 * ceilDiv reqs.length 512) (reqs.flatMap (natLE 8))

/-- The pages of a slice's windows, in ascending DLA order. -/
def Block.imagePages (b : Block) (sl : Nat) : List Nat :=
  ((b.windows sl).mergeSort fun a c => decide (a.1 ≤ c.1)).flatMap fun w => (List.range (w.2 / 4096)).map fun i => w.1 + 4096 * i

/-- Units of an image: S, D, and the whole. -/
def Image.stateUnits (reqs : Nat) : Nat := 2 + ceilDiv (64 * reqs) 4096
def Image.encrypted (s d : Nat) : Nat := s + d + ceilDiv d 512
def Image.size (s d : Nat) : Nat := 1 + Image.encrypted s d + ceilDiv (Image.encrypted s d) 512

/-- One page of a window with its seal; a page the partition does not hold reads zero. -/
def Block.pageRead (b : Block) (sl a : Nat) : Block × Status × List Byte × Nat :=
  let w := b.secWho sl
  if !b.partHolds (b.slicePart sl) a then (b, Code.SUCCESS, zeros 4096, 0)
  else
    let pieces : List (Nat × Nat × Nat) := match b.range a with
      | .sync => (List.range 512).map fun i => (a + 8 * i, 8, 8 * i)
      | _ => chunksOf a 4096
    let r := pieces.foldl (fun (acc : Block × Status × List Byte) c =>
      if acc.2.1 ≠ Code.SUCCESS then acc
      else match acc.1.perform w c.1 c.2.1 .read with
        | (b, st, d) => (b, st, acc.2.2 ++ d)) (b, Code.SUCCESS, [])
    if r.2.1 ≠ Code.SUCCESS then (r.1, r.2.1, zeros 4096, 0)
    else
      let s := r.1.dlaSeal w a
      (s.1, s.2.1, r.2.2, s.2.2)

/-- Put a page back with its seal. -/
def Block.pageWrite (b : Block) (sl a : Nat) (data : List Byte) (seal' : Nat) : Block × Status :=
  let w := b.secWho sl
  match b.range a with
  | .shelf | .hbm _ => b.placeBlock w a data seal'
  | .sync => ((List.range 512).foldl (fun b i =>
      (b.setSync ((a - Dla.syncBase) / 8 + i) (leAt data (8 * i) 8)).satisfy ((a - Dla.syncBase) / 8 + i)) b, Code.SUCCESS)
  | .window _ _ => (chunksOf a 4096).foldl (fun (acc : Block × Status) c =>
      if acc.2 ≠ Code.SUCCESS then acc
      else match acc.1.perform w c.1 c.2.1 (.write (sliceBytes data c.2.2 c.2.1)) with
        | (b, st, _) => (b, st)) (b, Code.SUCCESS)
  | _ => (b, Code.SUCCESS)

def Image.crypt (key unit : Nat) (pt : List Byte) : List Byte :=
  natLE 4096 (Config.xtsUnit (key % 2 ^ 512) unit (BitVec.ofNat 32768 (leNat pt))).toNat
def Image.decrypt (key unit : Nat) (ct : List Byte) : List Byte :=
  natLE 4096 ((Config.xtsUnit (key % 2 ^ 512) unit).symm (BitVec.ofNat 32768 (leNat ct))).toNat
def Image.mac (key : Nat) (bs : List Byte) : List Byte := natLE 8 (Config.cmacUnit (key / 2 ^ 512) bs).toNat

/-- The header's first 4,088 bytes. -/
def Block.imageHeader (b : Block) (sl reqs d : Nat) : List Byte :=
  padTo 4088 (natLE 4 0x53564C53 ++ natLE 4 1 ++ natLE 8 (b.rd Reg.MH_SERIAL.SERIAL) ++ natLE 2 sl ++ natLE 2 (b.gen sl)
    ++ natLE 4 (b.epoch sl) ++ natLE 4 reqs ++ natLE 4 0 ++ natLE 8 d)

/-- Write units at a buffer, in order. -/
def Block.unitsWrite (b : Block) (buf : Nat) (us : List (List Byte)) : Block × Status :=
  (List.range us.length).foldl (fun (acc : Block × Status) i =>
    if acc.2 ≠ Code.SUCCESS then acc
    else acc.1.ptrWrite (acc.1.secWho 0) true false (buf + 4096 * i) (us.getD i [])) (b, Code.SUCCESS)

/-- Write the image of a frozen slice. -/
def Block.saveImage (b : Block) (sl : Nat) (o : SliceOp) (key : Nat) : Block × Status :=
  let reqs := (b.savedReqs sl).length
  let pages := b.imagePages sl
  let st := b.imageState sl
  let got := pages.foldl (fun (acc : Block × Status × List (List Byte × Nat)) a =>
    if acc.2.1 ≠ Code.SUCCESS then acc
    else match acc.1.pageRead sl a with
      | (b, st, d, s) => (b, st, acc.2.2 ++ [(d, s)])) (b, Code.SUCCESS, [])
  if got.2.1 ≠ Code.SUCCESS then (got.1, got.2.1)
  else
    let b := got.1
    let ps := got.2.2
    let seals := padTo (4096 * ceilDiv pages.length 512) (ps.flatMap fun p => natLE 8 p.2)
    let clear := (List.range (st.length / 4096)).map (fun i => sliceBytes st (4096 * i) 4096) ++ ps.map (fun p => p.1)
      ++ (List.range (seals.length / 4096)).map fun i => sliceBytes seals (4096 * i) 4096
    let enc := (List.range clear.length).map fun i => Image.crypt key (i + 1) (clear.getD i [])
    let macs := padTo (4096 * ceilDiv enc.length 512) (enc.flatMap (Image.mac key))
    let hd := b.imageHeader sl reqs pages.length
    b.unitsWrite o.buf ((hd ++ Image.mac key hd) :: enc
      ++ (List.range (macs.length / 4096)).map fun i => sliceBytes macs (4096 * i) 4096)

/-- What an image holds, once verified. -/
structure Saved where
  epoch : Nat
  reqs : Nat
  pages : Nat
  /-- the State section, the pages and the seal table -/
  state : List Byte
  data : List (List Byte)
  seals : List Byte
deriving DecidableEq, Repr

/-- Read and verify an image: none where a check fails. -/
def Block.loadImage (b : Block) (o : SliceOp) (key : Nat) : Block × Status × Option Saved :=
  match b.ptrRead (b.secWho 0) o.buf 4096 with
  | (b, st, hd) =>
    if b.waiting ∨ st ≠ Code.SUCCESS then (b, st, none)
    else
      let reqs := leAt hd 0x18 4
      let d := leAt hd 0x20 8
      let s := Image.stateUnits reqs
      if leAt hd 0 4 ≠ 0x53564C53 ∨ leAt hd 4 4 ≠ 1 ∨ sliceBytes hd 4088 8 ≠ Image.mac key (sliceBytes hd 0 4088)
          ∨ o.units < Image.size s d then (b, Code.TEN_IMAGE_BAD, none)
      else match b.ptrRead (b.secWho 0) (o.buf + 4096) (4096 * (Image.size s d - 1)) with
        | (b, st, body) =>
          if b.waiting ∨ st ≠ Code.SUCCESS then (b, st, none)
          else
            let n := Image.encrypted s d
            let enc := (List.range n).map fun i => sliceBytes body (4096 * i) 4096
            if !((List.range n).all fun i => decide (sliceBytes body (4096 * n + 8 * i) 8 = Image.mac key (enc.getD i []))) then
              (b, Code.TEN_IMAGE_BAD, none)
            else
              let us := (List.range n).map fun i => Image.decrypt key (i + 1) (enc.getD i [])
              (b, Code.SUCCESS, some ⟨leAt hd 0x14 4 % 4096, reqs, d, (us.take s).flatten, (us.drop s).take d, (us.drop (s + d)).flatten⟩)

/-- Word `i` of the saved registers and positions. -/
def Saved.word (v : Saved) (i : Nat) : Nat := leAt v.state (8 * i) 8

/-- The saved windows, as (base, length). -/
def Saved.windows (v : Saved) : List (Nat × Nat) :=
  (List.range 8).filterMap fun k =>
    let w1 := v.word (3 + 2 * k)
    if bit w1 39 then some (4096 * bits (v.word (2 + 2 * k)) 12 36, 4096 * bits w1 0 36) else none

/-- Whether a saved window cannot be taken (R271). -/
def Block.conflict (b : Block) (sl p : Nat) (v : Saved) : Bool :=
  v.windows.any fun w =>
    ((List.range (w.2 / 4096)).any fun i => !b.partHolds p (w.1 + 4096 * i))
      || (b.liveSlices.any fun s => decide (s ≠ sl) && (b.windows s).any fun x => decide (x.1 < w.1 + w.2) && decide (w.1 < x.1 + x.2))

/-- Queue `c`'s saved position and stack. -/
def Saved.queue (v : Saved) (nregs c : Nat) : Nat × List ListFrame :=
  let at' := nregs + 34 * c
  (v.word at', (List.range (min 8 (v.word (at' + 1)))).map fun i =>
    let k := at' + 2 + 4 * i
    ⟨v.word k, v.word (k + 1), v.word (k + 2), v.word (k + 3), []⟩)

/-- Request `i` of an image, pending again. -/
def Saved.request (v : Saved) (sl i : Nat) : DnReq :=
  let w (k : Nat) : Nat := leAt v.state (8192 + 64 * i + 8 * k) 8
  { DnReq.ofWords sl w with skip := w 7 }

/-- Take a verified image into a slice (R271). -/
def Block.takeImage (b : Block) (sl : Nat) (v : Saved) : Block × Status :=
  let regs := Image.regs sl
  let part := b.slicePart sl
  let b := (List.range regs.length).foldl (fun b i => b.setWord (regs.getD i 0) (v.word i)) b
  let b := (b.wr (Reg.SL_CFG.PARTITION sl) part).wr (Reg.SL_MARK_STATUS.EPOCH sl) v.epoch
  let b := (List.range 4).foldl (fun b c =>
    let p := v.queue regs.length c
    let b := b.wr (Reg.SL_Q_HEAD.INDEX sl c) p.1
    (b.setQ sl c { QueueState.reset with stack := p.2, markStack := p.2, fail := if b.qState sl c = Q.ERROR then some .none else none }).qStatus sl c) b
  -- the commands since the saved mark are not in the image
  let b := b.modSlice sl fun s => { s with unreplayable := true }
  let r := b.drbgKey
  let b := r.1.setSliceKey sl (some r.2)
  let pages := b.imagePages sl
  let r := (List.range pages.length).foldl (fun (acc : Block × Status) i =>
    if acc.2 ≠ Code.SUCCESS then acc
    else acc.1.pageWrite sl (pages.getD i 0) (v.data.getD i []) (leAt v.seals (8 * i) 8)) (b, Code.SUCCESS)
  let b := r.1.setDnSlice sl { DnSlice.reset with pending := (List.range v.reqs).map fun i => v.request sl i }
  (((b.dnShowSlice sl).mbxClear sl).nextGen sl, r.2)

/-! ### Partition reset (R260) -/

/-- R260 step 3: what a position holds of the partition's slices goes; a running command of another slice keeps what
describes it. -/
def Block.clearPosition (b : Block) (p : Nat) : Block :=
  let f := 0x2000000 + 0x100000 * p
  let zero (b : Block) (os : List Nat) : Block := os.foldl (fun b o => b.setWord (f + o) 0) b
  let s := b.posState p
  let b := zero b [0x8, 0x10200, 0x10208, 0x10210, 0x10214, 0x10218, 0x1021C, 0x10240, 0x10248,
    0x20020, 0x20028, 0x20030, 0x20040, 0x20048, 0x30010, 0x30018, 0x30040, 0x30048]
  let b := (List.range 8).foldl (fun b n => if (b.xslot p n).isNone then
    (zero b [0x10100 + 0x10 * n, 0x10108 + 0x10 * n]).putSlot p n none else b) b
  let b := if s.vec.run.isNone then zero b [0x20008, 0x20018] else b
  if s.red.isNone && s.colls.isEmpty then zero b [0x30008] else b

def Block.clearPart (b : Block) (p pos : Nat) : Block :=
  let fn := p + 1
  let b := b.setL1 pos ((b.l1 pos).filter fun e => e.fn ≠ fn)
  let b := match (b.vec pos).resident with
    | some r => if decide (r.slice ≠ 0) && decide (b.slicePart r.slice = p) then b.vecDropImage pos else b
    | none => b
  b.clearPosition pos

/-- The directory's lines in the windows that partition `p` owns, or in what it holds. -/
def Block.partLines (b : Block) (p : Nat) : List Nat :=
  ((b.coh.dir.flatMap fun e => e.2).map fun d => d.line).filter fun l => b.partHolds p (64 * l) || match b.cohWin (64 * l) with
    | some n => decide (b.rd (Reg.CO_WIN00.PARTITION n) = p)
    | none => false

/-- Evict them (R218); one under a transaction, or for which no tracker is free, goes later. -/
def Block.evictPart (b : Block) (p : Nat) : Block := b.evictLines (b.partLines p)

/-- Whether an install's destination lies in what partition `p` holds. -/
def Block.installIn (b : Block) (p : Nat) (i : Install) : Bool := b.partHolds p i.dst

/-- Start a partition reset. -/
def Block.startPartReset (b : Block) (p : Nat) (flr : Bool) : Block :=
  if b.partEmpty p then b
  else
    let b := b.endInstalls (b.installIn p) Code.SEC_INSTALL_ABORTED
    let b := (b.partSlices p).foldl (fun b s =>
      let st := b.sliceState s
      let b := b.endSliceOp s Code.TEN_ABORTED Journal.ABORTED 0
      if st = Slice.RESTORING then b.startRelease s false
      else if st = Slice.OPEN ∨ st = Slice.FREEZING ∨ st = Slice.FROZEN then b.startReset s Code.SEC_INSTALL_ABORTED
      else b) b
    let again (r : PartReset) : PartReset := if r.part = p then { r with flr := r.flr || flr } else r
    let new : List PartReset := if b.ten.resets.any (fun r => r.part = p) then b.ten.resets.map again
      else b.ten.resets ++ [⟨p, flr, b.now⟩]
    let b := { b with ten := { b.ten with resets := new } }
    (b.evictPart p).partStatus p

/-- End a partition reset once no CANCEL is out and no line is held: none where it is not due. -/
def Block.endPartReset (b : Block) (p : Nat) : Option Block :=
  if !b.ten.resets.any fun r => r.part = p then none
  else
    let ss := (b.partSlices p).filter fun s => decide (b.sliceState s = Slice.RESETTING)
    if ss.any b.endsOut then none
    else
      let b := ss.foldl (fun b s => b.finishReset s) b
      let b := b.evictPart p
      if !(b.partLines p).isEmpty then some b
      else
        let b := (bitList (b.part p).positions 32).foldl (fun b k => b.clearPart p k) b
        let b := { b with ten := { b.ten with resets := b.ten.resets.filter fun r => r.part ≠ p } }
        some ((b.partStatus p).resetSeen (p + 1))

/-! ### Function Level Resets (Table EPT-8) -/

/-- A Function Level Reset ends with the resets it waits for. -/
def Block.flrSettle (b : Block) : Block :=
  let ends (f : Nat) : Bool := if f = 0 then !(b.ten.resets.any fun r => r.flr) && decide (b.sliceState 0 ≠ Slice.RESETTING)
    else !(b.ten.resets.any fun r => decide (r.part + 1 = f))
  let b' := (b.ep.flr.filter ends).foldl (fun b f => b.wr (Reg.EP_FN_STATUS.RESETTING f) 0) b
  { b' with ep := { b'.ep with flr := b.ep.flr.filter fun f => !ends f } }

/-! ### Re-form (R272) -/

/-- The number of layouts in the image in use. -/
def Block.layouts (b : Block) : Nat :=
  match b.boot.slot with
  | some s => b.boot.nor.le (Image.slotBase s + 0x0E) 1 % 16
  | none => 0

/-- Partitions whose resources differ between the layout in force and layout `l`. -/
def Block.changedParts (b : Block) (l : Nat) : List Nat :=
  let res (r : PartRec) : List Nat := [r.positions, r.sites, r.spareCores, r.groups, r.regions, r.syncFirst, r.syncCount]
  (List.range 32).filter fun p => decide (res (b.part p) ≠ res (b.partIn l p))

/-- Whether a changed partition is busy. -/
def Block.reformBusy (b : Block) (ps : List Nat) : Bool :=
  b.ten.reform.isSome || ps.any fun p => !(b.partSlices p).isEmpty || b.sec.installs.any (b.installIn p)

/-- The units of layouts `l0` and `l1` that change partition, by a mask of each record. -/
def Block.movedBits (b : Block) (l0 l1 n : Nat) (mask : PartRec → Nat) : List Nat :=
  (List.range n).filter fun k =>
    decide ((findIdx 32 fun p => (mask (b.partIn l0 p)).testBit k) ≠ findIdx 32 fun p => (mask (b.partIn l1 p)).testBit k)

def PartRec.syncMask (r : PartRec) : Nat := (2 ^ r.syncCount - 1) * 2 ^ r.syncFirst

end Sys2Proof.Machine
end

