-- ==== Sys2Proof/Machine/FormOps.lean ====
section
/-! DEFINITION. What a partition holds and lacks: forming, degraded and down partitions (R343, R344, R383). -/

namespace Sys2Proof.Machine

/-- What a partition's record names and the device does not give it. -/
def Block.positionsHeld (b : Block) (p : Nat) : List Nat :=
  (bitList (b.part p).positions 32).filter fun k => (b.coreOf k).isSome

def Block.sitesHeld (b : Block) (p : Nat) : List Nat := (bitList (b.part p).sites 16).filter b.enrolled
def Block.groupsHeld (b : Block) (p : Nat) : List Nat := (bitList (b.part p).groups 32).filter fun g => !b.groupStruck g

/-- Logical cores of a site that are unmapped, of those its enrolment mapped. -/
def Block.coresUnmapped (b : Block) (s : Nat) : Nat :=
  let want := min (popCount (b.rd (Reg.ST_SWP_BURGEE.DATA s 3)) 64) (b.rd (Reg.ST_SWP_CFG.ACTIVE_CORES s))
  want - ((List.range 64).filter fun c => b.is (Reg.ST_SWP_CORE_MAP.VALID s c)).length

/-- LOST channels, which every region's stripes reach. -/
def Block.channelsLost (b : Block) : Nat :=
  ((List.range 8).flatMap fun s => (List.range 32).filter fun k => decide (b.rd (Reg.HM_CHMAP.STATE s k) = 3)).length

/-- Whether a formed partition holds less than its record names. -/
def Block.lacks (b : Block) (p : Nat) : Bool :=
  let r := b.part p
  decide ((b.positionsHeld p).length < popCount r.positions 32) || decide ((b.sitesHeld p).length < popCount r.sites 16)
    || decide ((b.groupsHeld p).length < popCount r.groups 32)
    || ((b.sitesHeld p).any fun s => decide (1 ≤ b.coresUnmapped s))
    || (decide (r.regions ≠ 0) && decide (1 ≤ b.channelsLost))

/-- R344. -/
def Block.partDown (b : Block) (p : Nat) : Bool :=
  b.formed p && decide ((b.part p).positions ≠ 0) && (b.positionsHeld p).isEmpty

def PartRec.names (r : PartRec) : Bool :=
  decide (r.positions ≠ 0) || decide (r.sites ≠ 0) || decide (r.groups ≠ 0) || decide (r.regions ≠ 0) || decide (r.syncCount ≠ 0)

/-- FC_PART_STATE of a partition. -/
def Block.partState (b : Block) (p : Nat) : Block :=
  let r := b.part p
  let formed := b.formed p
  let b := b.wr (Reg.FC_PART_STATE.DEGRADED p) (b01 (formed && b.lacks p))
  let b := b.wr (Reg.FC_PART_STATE.DOWN p) (b01 (if formed then b.partDown p else r.names))
  let b := b.wr (Reg.FC_PART_STATE.RECOVERING p) (b01 (b.recovering p))
  let b := b.wr (Reg.FC_PART_STATE.POSITIONS_LOST p) (popCount r.positions 32 - (b.positionsHeld p).length)
  let b := b.wr (Reg.FC_PART_STATE.SITE_CORES_LOST p) ((b.sitesHeld p).map b.coresUnmapped).sum
  let b := b.wr (Reg.FC_PART_STATE.CHANNELS_LOST p) (if r.regions = 0 then 0 else b.channelsLost)
  b.wr (Reg.FC_PART_STATE.GROUPS_STRUCK p) (popCount r.groups 32 - (b.groupsHeld p).length)

/-- Every partition's, and MH_STATUS.DEGRADED. -/
def Block.partStates (b : Block) : Block :=
  let b := (List.range 32).foldl (fun b p => if (b.part p).names then b.partState p else b) b
  b.wr Reg.MH_STATUS.DEGRADED (b01 ((List.range 32).any fun p => b.is (Reg.FC_PART_STATE.DEGRADED p)))

/-- The DEGRADED record of a partition (R343). -/
def Block.degradedRecord (b : Block) (p : Nat) : Block := b.pennant Src.collector Kind.DEGRADED p 0

/-- A partition goes down (R344). -/
def Block.takeDown (b : Block) (p : Nat) : Block :=
  let b := (b.partSlices p).foldl (fun b s => (List.range 4).foldl (fun b c =>
    if b.qState s c = Q.DISABLED then b
    else
      let at' : FCmd := ⟨[], b.rd (Reg.SL_Q_HEAD.INDEX s c), 0, 0⟩
      b.queueError s c at' .none Code.FLT_PARTITION_DOWN) b) b
  (b.dnEndAll (fun s => decide (s ≠ 0) && decide (b.slicePart s = p)) Code.FLT_PARTITION_DOWN).partState p

/-- Form a partition, or not (R383); `hbmOk` is false where two stacks failed (R382). -/
def Block.formPart (b : Block) (p : Nat) (hbmOk : Bool) : Block :=
  let r := b.part p
  let nPos := (b.positionsHeld p).length
  let nSites := (b.sitesHeld p).length
  let nGroups := (b.groupsHeld p).length
  let ok : Bool := r.names && hbmOk && decide (b.lc ≠ Lc.END_OF_LIFE)
    && decide (r.minPositions ≤ nPos) && decide (r.minSites ≤ nSites) && decide (r.minGroups ≤ nGroups)
  let b := b.wr (Reg.MH_PART_FORM.FORMED p) (b01 ok)
  let b := b.wr (Reg.MH_PART_FORM.IN_LAYOUT p) (b01 r.names)
  let b := b.wr (Reg.MH_PART_FORM.STATUS p)
    (if ok ∨ !r.names then Code.SUCCESS else if !hbmOk then Code.BUP_HBM_FAILED else Code.BUP_MIN_UNMET)
  let b := b.wr (Reg.MH_PART_FORM.POSITIONS p) nPos
  let b := b.wr (Reg.MH_PART_FORM.SITES p) nSites
  let b := b.wr (Reg.MH_PART_FORM.GROUPS p) nGroups
  let b := b.partState p
  let b := if ok && b.lacks p then b.degradedRecord p else b
  if b.partDown p then b.takeDown p else b

end Sys2Proof.Machine
end

