-- ==== Sys2Proof/Machine/ImageOps.lean ====
section
/-! DEFINITION. The Flibry image in SPI NOR: its checks (R375–R378) and which slot and layout a boot uses (R374, R379). -/

namespace Sys2Proof.Machine

/-- Fields of the header of the image in `slot`. -/
def Nor.header (n : Nor) (slot off len : Nat) : Nat := n.le (Image.slotBase slot + off) len
def Nor.imageBytes (n : Nor) (slot off len : Nat) : List Byte :=
  (List.range len).map fun i => n.byte (Image.slotBase slot + off + i)

def Image.recordsAt (layouts : Nat) : Nat := 0x100 + 2048 * layouts

/-- A register record: offset, layout mask, width, value. -/
structure RegRecord where
  off : Nat
  mask : Nat
  width : Nat
  pad : Nat
  value : Nat

def Nor.regRecord (n : Nor) (slot layouts i : Nat) : RegRecord :=
  let a := Image.slotBase slot + Image.recordsAt layouts + 16 * i
  ⟨n.le a 4, n.le (a + 4) 1, n.le (a + 5) 1, n.le (a + 6) 2, n.le (a + 8) 8⟩

/-- The register records of the image in use. -/
def Block.regRecords (b : Block) : List RegRecord :=
  match b.boot.slot with
  | none => []
  | some s =>
    let n := b.boot.nor
    (List.range (n.header s 0x16 4)).map fun i => n.regRecord s (n.header s 0x0E 1 % 16) i

/-- What only the image fixes, as layout `l` gives it in place of `l0` (R20, R22, R272 step 5): the RWL fields of registers that
the records of `l0` alone name are at reset again, and the records of `l` write theirs. -/
def Block.reformRecords (b : Block) (l0 l : Nat) : Block :=
  let rs := b.regRecords
  let rf := (rs.filter fun r => r.mask.testBit l0 && !r.mask.testBit l).foldl (fun rf r => rf.writeRwl r.off r.width none) b.regs
  { b with regs := (rs.filter fun r => r.mask.testBit l).foldl (fun rf r => rf.writeRwl r.off r.width (some r.value)) rf }

/-- R377: a record names an offset of a block that boot code may write, aligned for its width. -/
def RegRecord.ok (r : RegRecord) : Bool :=
  decide (0x1000000 ≤ r.off) && decide (r.off < 0xD000000) && (decide (r.width = 4) || decide (r.width = 8))
    && decide (r.off % max r.width 1 = 0)

/-- R378 for one layout: no unit is held twice, and each minimum is within what its record holds. -/
def Image.layoutOk (recs : List PartRec) : Bool :=
  let once (n : Nat) (mask : PartRec → Nat) : Bool :=
    (List.range n).all fun k => decide ((recs.filter fun r => (mask r).testBit k).length ≤ 1)
  once 32 PartRec.positions && once 16 PartRec.sites && once 4 PartRec.spareCores && once 32 PartRec.groups
    && once 64 PartRec.regions && once 512 PartRec.syncMask
    && recs.all fun r => decide (r.syncFirst + r.syncCount ≤ 512) && decide (r.minPositions ≤ popCount r.positions 32)
      && decide (r.minSites ≤ popCount r.sites 16) && decide (r.minGroups ≤ popCount r.groups 32)

/-- R375: whether the signer is accepted in life-cycle state `lc` under the fused digest `key`. -/
def Image.signerOk (lc key : Nat) (pub : List Byte) : Bool :=
  decide (lc = Lc.BLANK) || (decide (lc = Lc.TEST) && decide (key = 0))
    || (decide (key ≠ 0) && decide ((Config.sha384 pub).toNat = key))

/-- The first check that the image in `slot` fails (R376). -/
def Nor.imageCheck (n : Nor) (slot lc key part : Nat) : Status :=
  let h := n.header slot
  let layouts := h 0x0E 1 % 16
  let length := h 0x10 4
  let count := h 0x16 4
  if h 0 4 ≠ 0x42465A57 then Code.BUP_IMAGE_ABSENT
  else if h 4 2 ≠ 1 ∨ length < 4096 ∨ 2 ^ 22 < length ∨ length % 4096 ≠ 0 ∨ h 0x14 2 ≠ part ∨ layouts = 0 ∨ 8 < layouts
      ∨ layouts ≤ h 0x0E 1 / 16 ∨ length < Image.recordsAt layouts + 16 * count then Code.BUP_IMAGE_FORMAT
  else if !((n.imageBytes slot 0xE0 32).all (· = 0))
      || !((List.range (32 * layouts)).all fun r => (n.imageBytes slot (0x100 + 64 * r + 0x24) 28).all (· = 0))
      || !((List.range count).all fun i => decide ((n.regRecord slot layouts i).pad = 0)) then Code.BUP_IMAGE_FORMAT
  else if !Image.signerOk lc key (n.imageBytes slot 0x20 96)
      || !Config.ecdsaVerify (n.imageBytes slot 0x20 96)
        (n.imageBytes slot 0 0x80 ++ n.imageBytes slot 0xE0 (length - 0xE0)) (n.imageBytes slot 0x80 96) then
    Code.BUP_IMAGE_SIG
  else if !((List.range layouts).all fun l => Image.layoutOk ((List.range 32).map fun p => n.partRec slot l p))
      || !((List.range count).all fun i => (n.regRecord slot layouts i).ok) then Code.BUP_IMAGE_STRUCT
  else Code.SUCCESS

def Block.imageKey (b : Block) : Nat := ((List.range 6).map fun i => b.rd (Reg.MH_IMAGE_KEY.DIGEST i) * 2 ^ (64 * i)).sum

/-- R374: the slot to use, and IMAGE_STATUS. -/
def Block.imageSelect (b : Block) : Option Nat × Status :=
  let n := b.boot.nor
  let check (s : Nat) : Status := n.imageCheck s b.lc b.imageKey (b.rd Reg.MH_ID.PART)
  let a := check 0
  if a = Code.SUCCESS then
    if check 1 = Code.SUCCESS ∧ n.header 0 0x0C 2 < n.header 1 0x0C 2 then (some 1, Code.SUCCESS) else (some 0, Code.SUCCESS)
  else if check 1 = Code.SUCCESS then (some 1, Code.SUCCESS)
  else (none, a)

/-- Read and check the image, and choose the layout in force (R374, R379). -/
def Block.imageLoad (b : Block) : Block :=
  match b.imageSelect with
  | (none, st) =>
    let b := { b with boot := { b.boot with slot := none } }
    b.wr Reg.MH_BOOT_STATUS.IMAGE_STATUS st
  | (some s, st) =>
    let n := b.boot.nor
    let id := n.header s 8 4
    let dflt := n.header s 0x0E 1 / 16
    let layout := match b.boot.resetKind, b.boot.lastLayout with
      | .warm, some (l, i) => if i = id ∧ l < n.header s 0x0E 1 % 16 then l else dflt
      | _, _ => dflt
    let b := { b with boot := { b.boot with slot := some s } }
    let b := (b.wr Reg.MH_BOOT_STATUS.IMAGE_STATUS st).wr Reg.MH_BOOT_STATUS.IMAGE_SLOT s
    let b := (b.wr Reg.MH_IMAGE.IMAGE_ID id).wr Reg.MH_IMAGE.IMAGE_VER (n.header s 0x0C 2)
    b.wr Reg.MH_IMAGE.LAYOUT layout

end Sys2Proof.Machine
end

