-- ==== Sys2Proof/Machine/LifeOps.lean ====
section
/-! DEFINITION. The life-cycle rows (R364–R366): their encodings, the transitions listed, and their decoding at a device
reset. -/

namespace Sys2Proof.Machine

/-- A target's encoding in STARTED_k and STATE_k (R365). -/
def Lc.encode (t : Fin 4) : BitVec 32 :=
  if t = 1 then 0xFF else if t = 2 then 0xFF00 else if t = 3 then 0xFF0000 else 0

/-- The target that the set bits of a row lie in; none where they lie in several byte groups or in none listed. -/
def Lc.target (row : BitVec 32) : Option (Fin 4) :=
  let g (i : Nat) : Bool := decide (bits row.toNat (8 * i) 8 ≠ 0)
  if g 3 then none
  else if g 0 && !g 1 && !g 2 then some 1
  else if !g 0 && g 1 && !g 2 then some 2
  else if !g 0 && !g 1 && g 2 then some 3
  else none

/-- The transitions of R364, as the index of their token digest. -/
def Lc.transition (from' to' : Fin 4) : Option Nat :=
  if from' = 0 ∧ to' = 1 then some 0
  else if from' = 1 ∧ to' = 2 then some 1
  else if from' = 1 ∧ to' = 3 then some 2
  else if from' = 2 ∧ to' = 3 then some 3
  else none

def Otp.started (o : Otp) (k : LcStep) : Bool := decide ((o.rows k).started ≠ 0)

/-- The transition after the last one started. -/
def Otp.nextStep (o : Otp) : Option LcStep :=
  if o.started .third then none
  else if o.started .second then some .third
  else if o.started .first then some .second
  else some .first

/-- The last transition started. -/
def Otp.lastStep (o : Otp) : Option LcStep :=
  if o.started .third then some .third
  else if o.started .second then some .second
  else if o.started .first then some .first
  else none

/-- The state that the transition before `k` left. -/
def Otp.before (o : Otp) : LcStep → Fin 4
  | .first => 0
  | .second => (Lc.target o.k0.started).getD 0
  | .third => (Lc.target o.k1.started).getD 0

/-- Program STARTED_k with a target: bits are only set. -/
def Otp.start (o : Otp) (k : LcStep) (t : Fin 4) : Otp :=
  o.setRows k { o.rows k with started := (o.rows k).started ||| Lc.encode t }

/-- The part of a target's action that OTP holds: for TEST the UDS and its UDS_VALID row, unless that is complete; for
END_OF_LIFE every UDS bit. -/
def Otp.action (o : Otp) (t : Fin 4) (drbg : BitVec 384) : Otp :=
  if t = 1 then
    if o.udsValid = BitVec.allOnes 32 then o else { o with uds := o.uds ||| drbg, udsValid := BitVec.allOnes 32 }
  else if t = 3 then { o with uds := BitVec.allOnes 384 }
  else o

/-- Steps 3 and 4 of R365. -/
def Otp.finish (o : Otp) (k : LcStep) (t : Fin 4) : Otp :=
  let r := o.rows k
  o.setRows k { r with state := r.state ||| Lc.encode t, complete := BitVec.allOnes 32 }

/-- What R366 decodes: the rows after it, the state, CORRUPT, ROLLED_FORWARD, and whether END_OF_LIFE's action is
performed. -/
structure LcDecoded where
  otp : Otp
  state : Fin 4
  corrupt : Bool
  rolled : Bool
  clears : Bool

def Otp.decode (o : Otp) (drbg : BitVec 384) : LcDecoded :=
  match o.lastStep with
  | none => ⟨o, 0, false, false, false⟩
  | some k =>
    match Lc.target (o.rows k).started with
    | none => ⟨o.action 3 drbg, 3, true, false, true⟩
    | some t =>
      if (Lc.transition (o.before k) t).isNone then ⟨o.action 3 drbg, 3, true, false, true⟩
      else if (o.rows k).complete = BitVec.allOnes 32 then ⟨o, t, false, false, false⟩
      else ⟨((o.start k t).action t drbg).finish k t, t, false, true, decide (t = 3)⟩

/-- 384 fresh bits of the DRBG. -/
def Block.drbg384 (b : Block) : Block × BitVec 384 :=
  (List.range 6).foldl (fun (acc : Block × BitVec 384) i =>
    let r := acc.1.fresh
    (r.1, acc.2 ||| (BitVec.ofNat 384 r.2 <<< (64 * i)))) (b, 0)

/-- END_OF_LIFE clears the key table and the slot store and zeroes the shelf (R365). -/
def Block.eolAction (b : Block) : Block :=
  let b := { b with keys := Keys.reset }
  let b := (List.range 4096).foldl (fun b s =>
    if b.slotState s = Slot.EMPTY then b else b.wr (Reg.SEC_SLOT_OWNER.STATE s) Slot.EMPTY) b
  { b with shelf := { b.shelf with bytes := [], poison := [], upset := [], seals := [] } }

/-- LC_ROW and the minimum versions show OTP. -/
def Block.showOtp (b : Block) (o : Otp) : Block :=
  let row (b : Block) (i : Nat) (r : LcRows) : Block :=
    ((b.wr (Reg.LC_ROW.VALUE i) r.started.toNat).wr (Reg.LC_ROW.VALUE (i + 1)) r.state.toNat).wr
      (Reg.LC_ROW.VALUE (i + 2)) r.complete.toNat
  let b := row (row (row b 0 o.k0) 3 o.k1) 6 o.k2
  (b.wr Reg.SEC_FW_STATUS.AX_MIN_SVN o.axMin).wr Reg.SEC_FW_STATUS.DN_MIN_SVN o.dnMin

/-- LIFECYCLE_DECODE (R366): the state is in force for the whole boot. -/
def Block.lcDecode (b : Block) (o : Otp) : Block × Otp :=
  match b.drbg384 with
  | (b, r) =>
    let d := o.decode r
    let b := if d.clears then b.eolAction else b
    let b := (b.wr Reg.LC_STATUS.STATE d.state).wr Reg.LC_STATUS.NEXT d.state
    let b := (b.wr Reg.LC_STATUS.ROLLED_FORWARD (b01 d.rolled)).wr Reg.LC_STATUS.CORRUPT (b01 d.corrupt)
    let b := b.wr Reg.LC_STATUS.COMMITTING 0
    (({ b with sec := { b.sec with commit := none } } : Block).showOtp d.otp, d.otp)

end Sys2Proof.Machine
end

