-- ==== Sys2Proof/Machine/BootOps.lean ====
section
/-! DEFINITION. Device resets and their preamble (R368, R385, R386, R389). -/

namespace Sys2Proof.Machine

/-! ### The preamble (R368) -/

/-- Axovonak ROM starts its firmware (R360): a staged image that passes ROM's check takes effect, and may raise its minimum.
Whether it passes is open. -/
def Block.axStart (b : Block) (o : Otp) : Block × Otp :=
  let r := match b.sec.axStaged with
    | none => (b, o)
    | some f =>
      let r := b.fresh
      let b := (({ r.1 with sec := { r.1.sec with axStaged := none } } : Block).unstage 0)
      if r.2 % 2 = 0 then (b.wr Reg.SEC_FW_STATUS.AX_FALLBACK 1, o)
      else
        let b := (({ b with sec := { b.sec with axRun := f } } : Block).wr Reg.SEC_FW_STATUS.AX_FALLBACK 0)
        if b.is Reg.SEC_FW_STATUS.COMMIT_SVN ∧ o.axMin < f.svn then (b, { o with axMin := f.svn }) else (b, o)
  let b := r.1.wr Reg.SEC_FW_STATUS.AX_SVN r.1.sec.axRun.svn
  let b := (b.wr Reg.SEC_FW_STATUS.DN_SVN b.sec.dnRun.svn).wr Reg.SEC_STATUS.READY 1
  (b.showOtp r.2, r.2)

/-- The fuse array is read: FO fields hold its values (R368, R4). -/
def Block.fuseLoad (b : Block) : Block :=
  b.boot.fuses.regs.foldl (fun b e => match Reg.find e.1 with
    | none => b
    | some r => b.setWord e.1 (r.flds.foldl (fun acc f =>
        if f.ty = .fo then setBits acc f.lo f.w (bits e.2.toNat f.lo f.w) else acc) (b.word e.1))) b

/-- A fresh nonce and the level that the state allows without authorisation (R363, R367). -/
def Block.debugStart (b : Block) : Block :=
  let b := (List.range 4).foldl (fun b i =>
    let r := b.fresh
    r.1.wr (Reg.SEC_DEBUG_NONCE.WORD i) r.2) b
  b.wr Reg.SEC_DEBUG.LEVEL (if b.lc = Lc.BLANK ∨ b.lc = Lc.TEST then 2 else 0)

/-- The Field-defect log's registers take what SPI NOR holds. -/
def Block.defectLoad (b : Block) : Block :=
  let b := b.boot.nor.defects.foldl (fun b e => b.setWord (0x2000 + 8 * e.1) e.2.toNat) b
  b.wr Reg.MH_DEFECT_CTRL.COUNT ((List.range 256).filter fun i => Defect.valid b i).length

/-- A device reset, and a site not yet enrolled, asserts HALFMAST (R399). -/
def Block.halfmastAll (b : Block) : Block := (List.range 12).foldl (fun b s => b.hmCause s 3 true) b

/-- What the preamble does, in its order. -/
def Block.preambleWork (b : Block) (o : Otp) : Block × Otp :=
  if b.boot.preambleRan then (b, o)
  else
    match b.fuseLoad.lcDecode o with
    | (b, o) => match b.axStart o with
      | (b, o) =>
        let b := b.debugStart.defectLoad.halfmastAll.imageLoad
        ({ b with boot := { b.boot with preambleRan := true } }, o)

/-- What every device reset sets: its cause, one more boot, and what stays staged. -/
def Block.resetMarks (b : Block) : Block :=
  let n := min (b.boot.nor.bootCount + 1) (2 ^ 32 - 1)
  let b := { b with boot := { b.boot with nor := { b.boot.nor with bootCount := n } } }
  let b := (b.wr Reg.MH_STATUS.RESET_CAUSE b.boot.cause).wr Reg.MH_BOOT_STATUS.BOOT_COUNT n
  let b := b.wr Reg.DN_STATUS.BANK b.boot.nor.activeBank
  let staged := b01 b.sec.axStaged.isSome + 2 * b01 b.sec.dnStaged.isSome
  ((b.wr Reg.SEC_FW_STATUS.STAGED staged).wr Reg.MH_STATUS.PENDING_UPDATE (b01 (staged != 0))).fcStatus

/-! ### Cold reset -/

/-- Everything resets but fuses, OTP and SPI NOR (Table BUP-5); the pin THERMTRIP_L stays as it is (R409). -/
def Block.coldReset (b : Block) : Block :=
  let boot : BootState := { BootState.reset with nor := b.boot.nor, fuses := b.boot.fuses, perst := b.boot.perst, cause := 1 }
  let sec : SecState := { SecState.reset with
    axRun := b.sec.axRun, dnRun := b.sec.dnRun, dnOld := b.sec.dnOld, axStaged := b.sec.axStaged, dnStaged := b.sec.dnStaged }
  ({ Block.reset with
    free := b.free, boot := boot, sec := sec, out := b.out
    pw := { PwState.reset with thermTrip := b.pw.thermTrip } } : Block).resetMarks

/-! ### Warm reset (R386) -/

/-- How a warm reset leaves the long operations that run (Table BUP-6). An install that has written is rolled back, a re-form
repeated, and a rebuild resumed at boot. -/
def Block.journalWarm (b : Block) : Block :=
  let abort (b : Block) (j st : Nat) : Block := b.journalEnd j Journal.ABORTED st
  let b := (b.sec.installs.filter fun i => !i.begun).foldl (fun b i => abort b i.journal Code.SEC_INSTALL_ABORTED) b
  let b := match b.sec.stage with
    | some g => abort b g.journal Code.BUP_RESET_ABORTED
    | none => b
  let b := b.slices.foldl (fun b e => match e.2.op with
    | some o => abort b o.journal Code.TEN_ABORTED
    | none => b) b
  let b := if b.dn.activating then (match findIdx 48 fun j => decide (b.journalState j = Journal.RUNNING)
      && decide (b.rd (Reg.MH_JOURNAL00.KIND j) = Journal.ACTIVATE) with
    | some j => abort b j Code.BUP_RESET_ABORTED
    | none => b) else b
  b.hbm.rebuilds.foldl (fun b r => b.journalPhase r.journal 1 r.cursor) b

/-- Step 1: neighbours are told, nothing issues, and running commands end without entries. -/
def Block.startWarm (b : Block) (cause : Nat) (perst : Bool) : Block :=
  if !b.boot.power ∨ b.boot.draining then b
  else
    let b := (List.range 16).foldl (fun b s => b.sideband s 0x08 0 0) b
    let b := (List.range 4).foldl (fun b p => if b.rchUp p then b.rchCtrl p 3 0 else b) b
    let b := (List.range 32).foldl (fun b p => b.endWork p false fun _ => true) b
    let b := { b with queues := b.queues.map fun (e : Nat × QueueState) => (e.1, { e.2 with inflight := [] }) }
    let b := { b with ext := ExtState.reset }
    let b := b.journalWarm
    { b with boot := { b.boot with draining := true, cause := cause, perst := b.boot.perst || perst } }

/-- Writes in reorder queues when the root clock fails may or may not have reached DRAM: what their granules hold is open
(R386). -/
def Block.undrain (b : Block) : Block :=
  let lost := b.hbm.pcs.flatMap fun e => (e.2.q.filter fun q => q.isWrite).map fun q => (e.1, q.line)
  lost.foldl (fun b x =>
    let g := Hbm.gran (x.1 / 64) (x.1 / 2 % 32) x.2
    let r := b.freshBytes 256
    let t := r.1.fresh
    let b := t.1
    { b with hbm := { b.hbm with
        bytes := SMap.putBytes b.hbm.bytes (g * 256) r.2
        tags := SMap.put (fun _ => 0) b.hbm.tags g (BitVec.ofNat 64 t.2) } }) b

/-- Every held write of a stripe goes to DRAM. -/
def Block.drainHbm (b : Block) : Block :=
  b.hbm.stripes.foldl (fun b e => b.flushStripe e.1) b

/-- Registers of the always-on domain, and those that Table BUP-5 keeps with HBM. -/
def Boot.keeps (off : Nat) : Bool :=
  (decide (0x1000 ≤ off) && decide (off < 0x1800))
    || decide (off = 0x9000010) || decide (off = 0x9000014) || (decide (0x9040000 ≤ off) && decide (off < 0x9060000))
    || (decide (0xA000000 ≤ off) && decide (off < 0xB000000))
    || (decide (0x5000000 ≤ off) && decide (off < 0x5800000)
      && ((decide (0x40 ≤ off % 0x100000) && decide (off % 0x100000 ≤ 0x80)) || decide (off % 0x100000 = 8)
        || decide (off % 0x100000 = 0x300) || decide (off % 0x100000 = 0x308)))

/-- Fields kept within registers that otherwise reset: FC_STATUS.SINGLE, retired groups and pins of sites, STRUCK of channels,
lane groups and reach lanes, and what counts since cold reset. -/
def Boot.keptFields : List Fld :=
  [Reg.FC_STATUS.SINGLE, Reg.CO_DIR_ECC.FENCED, Reg.CO_RECLAIM_LOG.POISONED, Reg.CO_RECLAIM_LOG.RECOVERED, Reg.DN_STATUS.RESTARTS,
    Reg.EP_LINK.RETRAINS]
    ++ (List.range 33).map (fun n => Reg.EP_FN_STATUS.FLR_COUNT n)
    ++ (List.range 16).flatMap (fun s => [Reg.ST_LANE_STATE.RETIRED s, Reg.ST_STATUS.PINNED s, Reg.ST_LOSS_LOG.LOSSES s,
      Reg.ST_SWP_ENROL.ATTEMPTS s])
    ++ (List.range 0x190).map (fun n => Reg.FC_BUCKET.STRUCK (0x270 + n))
    ++ (List.range 0x20).map fun n => Reg.FC_BUCKET.STRUCK (0x810 + n)

/-- A register as a warm reset leaves it: kept whole, a slice's generation alone (R262), or at its reset value. -/
def Boot.keptWord (e : Nat × Word) : Option (Nat × Word) :=
  if Boot.keeps e.1 then some e
  else if 0xD000000 ≤ e.1 ∧ e.1 < 0xE000000 ∧ e.1 % 0x1000 = 8 ∧ bits e.2.toNat 16 16 ≠ 0 then
    some (e.1, BitVec.ofNat 64 (setBits 0 16 16 (bits e.2.toNat 16 16)))
  else none

/-- The registers after a warm reset. -/
def RegFile.warm (rf : RegFile) : RegFile :=
  Boot.keptFields.foldl (fun acc f => if rf.rd f = 0 then acc else acc.wr f (rf.rd f)) (rf.filterMap Boot.keptWord)

/-- What stays of HBM: contents, tags, parity, the channels' spares and rebuilds, which resume at boot. -/
def HbmState.warm (h : HbmState) (undrained : Bool) : HbmState :=
  { HbmState.reset with
    bytes := h.bytes, tags := h.tags, err := h.err, rewritten := h.rewritten, lost := h.lost, struckCh := h.struckCh, selfRefresh := true
    rebuilds := h.rebuilds.map fun r => { r with
      running := false, resumed := true
      keepBelow := if undrained then max r.keepBelow r.cursor else r.keepBelow
      cursor := if undrained then 0 else r.cursor } }

/-- Step 3: every domain but the always-on domain resets (Table BUP-5). -/
def Block.warmDomains (b : Block) (undrained : Bool) : Block :=
  let sites : SMap SiteState := b.sites.filterMap fun e =>
    let v : SiteState := { SiteState.reset with link := { LinkState.reset with pinned := e.2.link.pinned } }
    if v = SiteState.reset then none else some (e.1, v)
  let ports : SMap ReachPort := b.reach.ports.filterMap fun e =>
    let v : ReachPort := { ReachPort.reset with retired := e.2.retired }
    if v = ReachPort.reset then none else some (e.1, v)
  let opened := (b.fc.opened.filter fun r => r.index.isSome && r.needsAck && !r.acked).map fun r =>
    { r with done := true, waits := [] }
  let boot : BootState := { BootState.reset with
    nor := b.boot.nor, fuses := b.boot.fuses, perst := b.boot.perst, cause := b.boot.cause, resetKind := .warm
    lastLayout := b.boot.lastLayout, resetAt := b.now }
  let sec : SecState := { b.sec with
    installs := b.sec.installs.filter Install.begun, stage := none, token := [], grant := [], sessions := 0 }
  let b' : Block := { Block.reset with
    regs := b.regs.warm, now := b.now, free := b.free, out := b.out
    hbm := b.hbm.warm undrained
    fc := { FaultState.reset with opened := opened, nextRecord := b.fc.nextRecord }
    coh := { CohState.reset with fenced := b.coh.fenced }
    keys := ⟨b.keys.slice.filter fun e => e.1 = 0, b.keys.slot⟩
    sites := sites
    reach := { ReachState.reset with ports := ports }
    ten := ⟨[], b.ten.reform, []⟩
    dn := { DnState.reset with switched := b.dn.switched }
    sec := sec, boot := boot, pw := { PwState.reset with thermTrip := b.pw.thermTrip } }
  ((b'.wr Reg.SEC_STATUS.SPDM_SESSION 0).wr Reg.MH_BOOT_STATUS.UNDRAINED (b01 undrained)).resetMarks

/-- R273: a device reset releases every slice but slice 0 from step 2 of R268 on: the tags of KEY_MODE 0 granules in its
windows are cleared. The rest of the release is in what the reset itself clears. -/
def Block.releaseTags (b : Block) : Block :=
  (b.liveSlices.filter fun sl => decide (sl ≠ 0)).foldl (fun b sl => (b.windows sl).foldl (fun b w =>
    b.hbmClearRange (fun r => decide (r.keyMode = 0)) ((b.slice sl).releasing.getD false)
      (w.1 - Dla.hbmBase) (w.1 + w.2 - Dla.hbmBase)) b) b

/-- Steps 2 to 4 of R386 once the queues have drained, or at once where the root clock has failed. -/
def Block.warmReset (b : Block) (o : Otp) (undrained : Bool) : Block × Otp :=
  let b := if undrained then b.undrain else b.drainHbm
  (b.releaseTags.warmDomains undrained).preambleWork o

/-- A device-wide step of the state. -/
def State.updFuse (s : State) (f : Block → Otp → Block × Otp) : State :=
  let r := f s.blk s.fuse
  { s with blk := r.1, fuse := r.2 }

end Sys2Proof.Machine
end

