-- ==== Sys2Proof/Machine/Hoists.lean ====
section
/-! DEFINITION. The queue, control and sync commands (03); the engine commands stand with their engines, COMMAND_COMPLETE
with recovery. -/

namespace Sys2Proof.Machine

/-! ### Doorbells and heads (R58) -/

/-- R58 for a queue. -/
def Block.doorbell (b : Block) (s c v : Nat) : Block :=
  let n := b.rd (Reg.SL_Q_CFG.LOG2_SIZE s c)
  let m := 2 ^ (n + 1)
  let h := b.rd (Reg.SL_Q_HEAD.INDEX s c)
  let t := v % 2 ^ 17
  let dNew := (t + m * 2 ^ 17 - h) % m
  let dOld := (b.rd (Reg.SL_Q_TAIL.INDEX s c) + m * 2 ^ 17 - h) % m
  if b.sliceState s = Slice.OPEN ∧ dNew ≤ 2 ^ n ∧ dOld ≤ dNew then b.wr (Reg.SL_Q_TAIL.INDEX s c) (t % m) else b.wr (Reg.SL_Q_STATUS.DB_REJECT s c) 1

/-- DOORBELL (R58). -/
def execDoorbell (slice : SliceNo) (cls : ClassNo) (v : BitVec 32) (s : State) : Host.Outcome State Fault Refusal :=
  .next (s.upd fun b => b.doorbell slice cls v.toNat)

/-- R58 for a ring that the hub produces, of 2^n entries. -/
def Block.takeHead (b : Block) (head tail : Fld) (n v : Nat) : Block :=
  let m := 2 ^ (n + 1)
  let h := b.rd head
  let v := v % m
  if (v + m - h % m) % m ≤ (b.rd tail + m - h % m) % m then b.wr head v else b

/-- A consumer's head write, by ring. -/
def Block.consumerHead (b : Block) (ring : HeadRing) (v : Nat) : Block :=
  match ring with
  | .completion sl => b.takeHead (Reg.SL_CRING_HEAD.INDEX sl) (Reg.SL_CRING_TAIL.INDEX sl) (b.rd (Reg.SL_CRING_CFG.LOG2_SIZE sl)) v
  | .token sl => b.takeHead (Reg.DN_SLICE30.TOK_HEAD sl) (Reg.DN_SLICE30.TOK_TAIL sl) (b.tokLog2 sl) v
  | .hot => b.takeHead Reg.XL_HOT_HEAD.INDEX Reg.XL_HOT_TAIL.INDEX (b.rd Reg.XL_HOT_CFG.LOG2_SIZE) v
  | .faultLog => b.takeHead Reg.FC_LOG_HEAD.INDEX Reg.FC_LOG_TAIL.INDEX 12 v

/-- CONSUMER_HEAD_WRITE (R58). -/
def execConsumerHeadWrite (ring : HeadRing) (v : BitVec 32) (s : State) : Host.Outcome State Fault Refusal :=
  .next (s.upd fun b => b.consumerHead ring (v.toNat % 2 ^ 17))

/-! ### Fetch (R59) -/

/-- A failed fetch or a list run past its end: ERROR, and a CMD_ERROR entry with USER 0 (R59, R68). -/
def Block.fetchError (b : Block) (s c : Nat) (at' : FCmd) (f : QFail) (st : Status) : Block :=
  let b := b.queueError s c at' f st
  b.addEntry s ⟨3, 0, st, 0, c, at'.ring, 0, b.resetNs, none, b.rd (Reg.SL_Q_CFG.DEF_ENSIGN s c)⟩

/-- Up to `n` commands read one after another from `p`, ending at the first that fails. -/
def Block.fetchSlots (b : Block) (w : Who) : (n : Nat) → (p : Nat) → Block × Option Status × List (List Nat)
  | 0, _ => (b, none, [])
  | n + 1, p =>
    match Ptr.check p with
    | some st => (b, some st, [])
    | none => match b.ptrRead w p 64 with
      | (b, st, d) =>
        if st ≠ Code.SUCCESS then (b, some st, [])
        else
          let r := Block.fetchSlots b w n (p + 64)
          (r.1, r.2.1, ((List.range 8).map fun i => leAt d (8 * i) 8) :: r.2.2)

/-- How many of the log pool's 65,536 pages the replay logs hold (R336). -/
def Block.logPages (b : Block) : Nat :=
  (b.queues.map fun e => ceilDiv (e.2.log.length + e.2.fetched.length + e.2.replay.length) 64).sum

/-- Whether the queue fetches: it runs, and what it fetched has been issued. -/
def Block.mayFetch (b : Block) (s c : Nat) : Bool :=
  let q := b.q s c
  b.sliceRuns s && decide (b.qState s c = Q.RUNNING) && !q.stopping && !q.held && q.fetched.isEmpty && q.replay.isEmpty
    && (b.is (Reg.SL_Q_CFG.FETCH_AHEAD s c) || q.block.isNone)

/-- A fetch that finds the log pool full leaves the mark unreplayable (R336). -/
def Block.logFetch (b : Block) (s c : Nat) : Block :=
  if (b.rd (Reg.SL_MARK_CFG.QMASK s)).testBit c && decide (65536 < b.logPages) then
    b.modSlice s fun v => { v with unreplayable := true }
  else b

def Block.fetch (b : Block) (s c : Nat) : Block :=
  if !b.mayFetch s c then b
  else
    let q := b.q s c
    let most := if b.is (Reg.SL_Q_CFG.FETCH_AHEAD s c) then 16 else 1
    let w := b.qWho s c
    match q.stack with
    | f :: rest =>
      let at' (i : Nat) : FCmd := ⟨[], f.ring, i, q.stack.length⟩
      if f.len ≤ f.next then b.fetchError s c (at' f.next) .overrun Code.HOIST_LIST_OVERRUN
      else
        match Block.fetchSlots b w (min most (f.len - f.next)) (f.ptr + 64 * f.next) with
        | (b, st, cs) =>
          if b.waiting then b
          else if cs.isEmpty then
            (if st.isSome then b.fetchError s c (at' f.next) .fetch Code.HOIST_FETCH_FAULT else b)
          else
            (b.modQ s c fun q => { q with
              fetched := (List.range cs.length).map fun i => { at' (f.next + i) with words := cs.getD i [] }
              stack := { f with next := f.next + cs.length } :: rest }).logFetch s c
    | [] =>
      let n := b.rd (Reg.SL_Q_CFG.LOG2_SIZE s c)
      let m := 2 ^ (n + 1)
      let h := b.rd (Reg.SL_Q_HEAD.INDEX s c)
      let avail := (b.rd (Reg.SL_Q_TAIL.INDEX s c) + m - h % m) % m
      let slot := h % 2 ^ n
      if avail = 0 then b
      else
        match Block.fetchSlots b w (min (min most avail) (2 ^ n - slot)) (b.rd (Reg.SL_Q_BASE.BASE s c) + 64 * slot) with
        | (b, st, cs) =>
          if b.waiting then b
          else if cs.isEmpty then
            (if st.isSome then b.fetchError s c ⟨[], h, 0, 0⟩ .fetch Code.HOIST_FETCH_FAULT else b)
          else
            let b := b.modQ s c fun q => { q with
              fetched := (List.range cs.length).map fun i => ⟨cs.getD i [], (h + i) % m, 0, 0⟩ }
            (b.wr (Reg.SL_Q_HEAD.INDEX s c) ((h + cs.length) % m)).logFetch s c

/-- COMMAND_FETCH (R59). -/
def execCommandFetch (slice : SliceNo) (cls : ClassNo) (s : State) : Host.Outcome State Fault Refusal :=
  .next (s.upd fun b => b.settle fun b => b.fetch slice cls)

/-- HEAD_WRITEBACK (R59, R236): a write that fails is dropped. -/
def Block.headWriteback (b : Block) (sl c : Nat) : Block :=
  let p := b.rd (Reg.SL_Q_HEAD_WB.PTR sl c)
  if p = 0 ∨ b.qState sl c = Q.DISABLED ∨ (Ptr.check p).isSome ∨ 2 ≤ Ptr.tag p then b
  else if Ptr.tag p = 1 ∧ b.revoked (b.fnOf sl) then
    { b with ep := { b.ep with wbWaits := NSet.insert (4 * sl + c) b.ep.wbWaits } }
  else (b.ptrWrite (b.qWho sl c) false false p (natLE 8 (b.rd (Reg.SL_Q_HEAD.INDEX sl c)))).1

def execHeadWriteback (slice : SliceNo) (cls : ClassNo) (s : State) : Host.Outcome State Fault Refusal :=
  .next (s.upd fun b => b.settle fun b => b.headWriteback slice cls)

/-! ### Control commands (R68–R73, R80) -/

def noCheck (_ : Block) (_ : FCmd) : CmdCheck := ⟨[], true⟩

/-- Complete at issue: with a tag-2 signal outstanding the step waits. -/
def Block.finishNow (b : Block) (s c id : Nat) (st : Status) : Block := b.completeCmd s c id st 0

/-- Complete a CALL, RETURN or JUMP at issue: it acts on the list only when its completion signal succeeds, so that RETRY
repeats it and SKIP passes over it whole (R84). -/
def Block.finishWith (b : Block) (s c id : Nat) (f : QueueState → QueueState) : Block :=
  match (b.q s c).inflight.find? fun r => r.id = id with
  | none => b
  | some r => match b.completionSignal s c r Code.SUCCESS with
    | (b, st) => ((if st = Code.SUCCESS then b.modQ s c f else b).qStatus s c).completeRec s c r st 0

/-- Perform a SIGNAL whose turn has come (R70). -/
def Block.performSignal (b : Block) (s c : Nat) (r : CmdRec) : Block :=
  let v := if bit (r.cmd.w 3) 32 then 2 ^ 63 else bits (r.cmd.w 3) 0 32
  match b.signalAfter s c r (r.cmd.w 2) v with
  | (b, st) => if b.waiting then b else b.finishNow s c r.id st

/-- SIGNAL (R70): issued, and performed once every earlier command of the queue has completed. -/
def execSignal (slice : SliceNo) (cls : ClassNo) (s : State) : Host.Outcome State Fault Refusal :=
  .next (s.upd fun b => b.settle fun b =>
    match (b.q slice cls).inflight with
    | r :: _ =>
      if r.cmd.opcode = 0x10 ∧ !r.posting then b.performSignal slice cls r
      else b.issueNext slice cls (· = 0x10)
        (fun _ c => ⟨[c.w 2], Hoist.syncPtrOk (c.w 2) && (bit (c.w 3) 32 || decide (1 ≤ bits (c.w 3) 0 32))⟩)
        (fun b _ _ => b)
    | [] => b.issueNext slice cls (· = 0x10)
        (fun _ c => ⟨[c.w 2], Hoist.syncPtrOk (c.w 2) && (bit (c.w 3) 32 || decide (1 ≤ bits (c.w 3) 0 32))⟩)
        (fun b _ id => match (b.q slice cls).inflight.find? fun r => r.id = id with
          | some r => b.performSignal slice cls r
          | none => b))

/-- The need by which a queue's WAIT waits at a peer. -/
def Block.peerWaitNeed (b : Block) (s c id : Nat) (cmd : FCmd) (n : Nat) : ExtNeed :=
  ⟨b.mkWho (.cmd (b.home s c)) (some s) (b.effEnsign s c cmd).1, .peerWait n (Ptr.addr (cmd.w 2)) (cmd.w 3) ((4 * s + c) * 65536 + id % 65536),
    8, .read, 0⟩

/-- WAIT (R71): registers its target at the object's home and blocks the queue. -/
def execWait (slice : SliceNo) (cls : ClassNo) (s : State) : Host.Outcome State Fault Refusal :=
  .next (s.upd fun b => b.settle fun b =>
    b.issueNext slice cls (· = 0x11) (fun _ c => ⟨[c.w 2], Hoist.syncPtrOk (c.w 2)⟩) fun b cmd id =>
      let b := b.modQ slice cls fun q => { q with block := some (.wait id) }
      let w := b.mkWho (.cmd (b.home slice cls)) (some slice.val) (b.effEnsign slice cls cmd).1
      let p := cmd.w 2
      if Ptr.tag p = 0 then
        match b.checkReq w (Ptr.addr p) .r with
        | (b, some st) => b.finishNow slice cls id st
        | (b, none) =>
          match b.syncWait (Ptr.obj p) (cmd.w 3) (.queue (4 * slice + cls) id) (bits (cmd.w 4) 0 32) with
          | (b, st) => if st = Code.SUCCESS then b else b.finishNow slice cls id st
      else match b.peerEntry slice (Ptr.peer p) with
        | none => b.finishNow slice cls id Code.ADDR_UNMAPPED
        | some n =>
          let need := b.peerWaitNeed slice cls id cmd n
          let b := b.extIssue need
          match b.ext.done.find? fun d => d.need = need with
          | some d => ({ b with ext := { b.ext with used := need :: b.ext.used } }).finishNow slice cls id
              (if Status.peerLost d.status then Code.SYNC_PEER_LOST else d.status)
          | none => if b.ext.sent.contains need then b else b.want (.ext need))

/-- The blocked WAIT of a queue, if any. -/
def Block.waitRec (b : Block) (s c : Nat) : Option CmdRec :=
  match (b.q s c).block with
  | some (.wait id) => (b.q s c).inflight.find? fun r => r.id = id
  | _ => none

/-- WAIT_TIMEOUT (R71). -/
def execWaitTimeout (slice : SliceNo) (cls : ClassNo) (s : State) : Host.Outcome State Fault Refusal :=
  .next (s.upd fun b => b.settle fun b =>
    match b.waitRec slice cls with
    | none => b
    | some r =>
      let me : Waiter := .queue (4 * slice + cls) r.id
      let done := b.sync.waits.any fun e => e.2.any fun w => decide (w.who = me) && w.satisfied
      if bits (r.cmd.w 4) 0 32 = 0 ∨ r.posting ∨ done then b
      else
        let b := b.dropWaits fun w => decide (w = me)
        let b := b.extDrop fun n => match n.target with
          | .peerWait _ _ _ k => decide (k = (4 * slice.val + cls.val) * 65536 + r.id % 65536)
          | _ => false
        b.finishNow slice cls r.id Code.SYNC_WAIT_TIMEOUT)

/-- WAIT_RELEASE (R78): the first satisfied wait of a home that is not a COLLECT's releases its waiter; a queue's WAIT at a
peer is released when its notice has come. -/
def execWaitRelease (home : PosNo) (s : State) : Host.Outcome State Fault Refusal :=
  .next (s.upd fun b => b.settle fun b =>
    let ws := b.waitsAt home
    let mine (w : SyncWait) : Bool := w.satisfied && (match w.who with
      | .collect _ _ _ => false
      | _ => true)
    match ws.find? mine with
    | none => b
    | some w =>
      let b := b.setWaits home (ws.erase w)
      match w.who with
      | .queue q id => b.finishNow (q / 4) (q % 4) id Code.SUCCESS
      | .site st tag _ _ => b.siteResp st tag Code.SUCCESS
      | .peer port req => b.rchReply port req 5 Code.SUCCESS []
      | .collect _ _ _ => b)

/-- WAIT_POLL (R78): a waiter with no table entry reads its object. -/
def execWaitPoll (home : PosNo) (nth : Nat) (s : State) : Host.Outcome State Fault Refusal :=
  .next (s.upd fun b =>
    let ws := b.waitsAt home
    match ws[nth]? with
    | none => b
    | some w =>
      if w.polls ∧ w.target ≤ b.syncVal w.obj then b.setWaits home (ws.set nth { w with satisfied := true }) else b)

/-- FENCE (R72): blocks the queue until FENCE_COMPLETE. -/
def execFence (slice : SliceNo) (cls : ClassNo) (s : State) : Host.Outcome State Fault Refusal :=
  .next (s.upd fun b => b.settle fun b =>
    b.issueNext slice cls (· = 0x13) (fun _ c => ⟨[], decide (bits (c.w 2) 0 2 < 3)⟩) fun b cmd id =>
      b.modQ slice cls fun q => { q with block := some (.fence id (bits (cmd.w 2) 0 2)) })

/-- FENCE_COMPLETE (R72): every earlier command has completed; at host or system scope unflushed host writes are flushed by
a read. Writes to a reach peer are answered when performed, so none is left to flush (DEDUCED, assumption 17). -/
def execFenceComplete (slice : SliceNo) (cls : ClassNo) (s : State) : Host.Outcome State Fault Refusal :=
  .next (s.upd fun b => b.settle fun b =>
    match (b.q slice cls).block with
    | some (.fence id scope) =>
      if !(b.q slice cls).isFirst id then b
      else match (b.q slice cls).inflight.find? fun r => r.id = id with
        | none => b
        | some r => match (if 1 ≤ scope then b.flushHost slice cls r.ensign else (b, Code.SUCCESS)) with
          | (b, st) => if b.waiting then b else b.finishNow slice cls id st
    | _ => b)

/-- A MARK whose earlier commands have completed: unnamed, it completes; named, its queue has reached it, and different
numbers fail every named queue that has (R73). -/
def Block.markReached (b : Block) (s c id : Nat) : Block :=
  match (b.q s c).inflight.find? fun r => r.id = id with
  | none => b
  | some r =>
    if !(b.q s c).isFirst id then b
    else if !(b.rd (Reg.SL_MARK_CFG.QMASK s)).testBit c then b.finishNow s c id Code.SUCCESS
    else
      let no := bits (r.cmd.w 2) 0 32
      let v := b.slice s
      if v.reached.any fun e => e.1 = c then b
      else
        let all := v.reached ++ [(c, no)]
        if all.all fun e => e.2 = no then b.setSlice s { v with reached := all }
        else
          let b := b.setSlice s { v with reached := [] }
          let b := all.foldl (fun b e => match (b.q s e.1).block with
            | some (.mark i) => b.finishNow s e.1 i Code.HOIST_MARK_MISMATCH
            | _ => b) b
          match (b.slice s).qmaskNext with
          | some m => (b.modSlice s fun v => { v with qmaskNext := none }).wr (Reg.SL_MARK_CFG.QMASK s) m
          | none => b

/-- MARK (R73): blocks the queue, which reaches the mark once its earlier commands have completed. -/
def execMark (slice : SliceNo) (cls : ClassNo) (s : State) : Host.Outcome State Fault Refusal :=
  .next (s.upd fun b => b.settle fun b =>
    match (b.q slice cls).block with
    | some (.mark id) => b.markReached slice cls id
    | _ => b.issueNext slice cls (· = 0x12)
      (fun _ c => ⟨[], decide (bits (c.w 3) 17 9 ≤ 256) && decide (bits (c.w 3) 0 17 + bits (c.w 3) 17 9 ≤ 131072)⟩)
      fun b _ id => (b.modQ slice cls fun q => { q with block := some (.mark id) }).markReached slice cls id)

/-- MARK_COMMIT (R73, R81). A named queue whose ENABLE is cleared holds the commit back also before it is DISABLED (DESIGN
CHOICE, assumption 61). -/
def Block.commitMark (b : Block) (s : Nat) : Block :=
  let v := b.slice s
  let named := (List.range 4).filter fun c => (b.rd (Reg.SL_MARK_CFG.QMASK s)).testBit c
  let ready := !named.isEmpty && named.all fun c => (v.reached.any fun e => e.1 = c)
    && (decide (b.qState s c = Q.RUNNING) || decide (b.qState s c = Q.PAUSED)) && !(b.q s c).stopping
  match ready, v.reached.getLast? with
  | true, some (lc, no) =>
    let recOf (c : Nat) : Option CmdRec := match (b.q s c).block with
      | some (.mark id) => (b.q s c).inflight.find? fun r => r.id = id
      | _ => none
    let w3 := match recOf lc with
      | some r => r.cmd.w 3
      | none => 0
    let snap := (List.range (bits w3 17 9)).map fun i => (bits w3 0 17 + i, b.syncVal (bits w3 0 17 + i))
    let b := named.foldl (fun b c => b.modQ s c fun q => { q with markStack := q.stack, log := [] }) b
    let b := b.modSlice s fun v => { v with reached := [], snapshot := snap, unreplayable := false }
    let b := { b with fc := { b.fc with dataReplayed := NSet.erase b.fc.dataReplayed s } }
    -- records of finished steps of earlier COLLECTs go (R340)
    let b := (List.range 32).foldl (fun b p => b.modPos p fun v => { v with
      records := v.records.filter fun r => r.slice ≠ s ∨ (v.colls.any fun c => c.job.slice = s ∧ c.job.w 5 = r.group ∧ c.base = r.base) }) b
    let b := b.wr (Reg.SL_MARK_STATUS.LAST_MARK s) no
    let b := b.wr (Reg.SL_MARK_STATUS.EPOCH s) (b.epoch s + 1)
    let b := b.wr (Reg.SL_MARK_STATUS.VALID s) 1
    let b := match v.qmaskNext with
      | some m => (b.modSlice s fun v => { v with qmaskNext := none }).wr (Reg.SL_MARK_CFG.QMASK s) m
      | none => b
    let b := match recOf lc with
      | some r => if r.cmd.cpl then
          b.addEntry s ⟨4, 0, 0, r.cmd.user, lc, r.cmd.ring, no, b.resetNs, none, r.ensign⟩
        else b
      | none => b
    let others := (v.reached.map fun e => e.1).filter fun c => c ≠ lc
    (lc :: others).foldl (fun b c => match (b.q s c).block with
      | some (.mark id) => b.finishNow s c id Code.SUCCESS
      | _ => b) b
  | _, _ => b

def execMarkCommit (slice : SliceNo) (s : State) : Host.Outcome State Fault Refusal :=
  .next (s.upd fun b => b.settle fun b =>
    let b' := b.commitMark slice
    -- Denob learns that a step's final mark has committed (R255)
    if b'.epoch slice = b.epoch slice then b' else b'.dnCommit slice (b'.rd (Reg.SL_MARK_STATUS.LAST_MARK slice)))

/-- CALL (R68). -/
def execCall (slice : SliceNo) (cls : ClassNo) (s : State) : Host.Outcome State Fault Refusal :=
  .next (s.upd fun b => b.settle fun b =>
    let replaying := !(b.q slice cls).replay.isEmpty
    b.issueNext slice cls (· = 0x20)
      (fun _ c => ⟨[c.w 2], decide (Ptr.tag (c.w 2) < 2) && decide (c.w 2 % 64 = 0) && decide (1 ≤ bits (c.w 3) 0 16)⟩)
      fun b cmd id =>
        if 8 ≤ (b.q slice cls).stack.length then b.finishNow slice cls id Code.HOIST_CALL_DEPTH
        else
          -- the commands of a list that a replay enters stand in the log
          b.finishWith slice cls id fun q => { q with
            stack := ⟨cmd.w 2, bits (cmd.w 3) 0 16, 0, cmd.ring, if replaying then [] else q.fetched⟩ :: q.stack
            fetched := if replaying then q.fetched else [] })

/-- Leave the current list (R68). -/
def QueueState.leave (q : QueueState) : QueueState :=
  match q.stack with
  | [] => q
  | f :: rest => { q with stack := rest, fetched := f.after }

/-- RETURN (R68). -/
def execReturnList (slice : SliceNo) (cls : ClassNo) (s : State) : Host.Outcome State Fault Refusal :=
  .next (s.upd fun b => b.settle fun b =>
    let replaying := !(b.q slice cls).replay.isEmpty
    b.issueNext slice cls (· = 0x21) noCheck fun b _ id =>
      if (b.q slice cls).stack.isEmpty then b.finishNow slice cls id Code.HOIST_BAD_CONTROL
      else b.finishWith slice cls id fun q => if replaying then { q with stack := q.stack.drop 1 } else q.leave)

/-- JUMP (R68, R69). -/
def execJump (slice : SliceNo) (cls : ClassNo) (s : State) : Host.Outcome State Fault Refusal :=
  .next (s.upd fun b => b.settle fun b =>
    let replaying := !(b.q slice cls).replay.isEmpty
    b.issueNext slice cls (· = 0x22)
      (fun _ c =>
        let cond := bits (c.w 3) 0 2
        ⟨if cond = 0 then [] else [c.w 4], decide (cond < 3) && (decide (cond = 0) || Ptr.isSync (c.w 4))⟩)
      fun b cmd id =>
        match (b.q slice cls).stack with
          | [] => b.finishNow slice cls id Code.HOIST_BAD_CONTROL
          | f :: rest =>
            let tgt := bits (cmd.w 2) 0 16
            if f.len ≤ tgt then b.finishNow slice cls id Code.HOIST_LIST_OVERRUN
            else
              let cond := bits (cmd.w 3) 0 2
              let (b, st, v) := if cond = 0 then (b, Code.SUCCESS, 0)
                else
                  let r := b.dla (b.mkWho (.cmd (b.home slice cls)) (some slice.val) (b.effEnsign slice cls cmd).1)
                    (Ptr.addr (cmd.w 4)) 8 .read
                  (r.1, r.2.1, leNat r.2.2)
              if st ≠ Code.SUCCESS then b.finishNow slice cls id st
              else
                let taken : Bool := match cond with
                  | 0 => true
                  | 1 => decide (cmd.w 5 ≤ v)
                  | _ => decide (v < cmd.w 5)
                b.finishWith slice cls id fun q =>
                  if taken && !replaying then { q with stack := { f with next := tgt } :: rest, fetched := [] } else q)

/-- HANDLE (R80, Table HST-6). -/
def execHandle (slice : SliceNo) (cls : ClassNo) (s : State) : Host.Outcome State Fault Refusal :=
  .next (s.upd fun b => b.settle fun b =>
    b.issueNext slice cls (· = 0x23)
      (fun _ c => if bit (c.w 2) 32 then ⟨[c.w 3], Hoist.syncPtrOk (c.w 3) && decide (1 ≤ bits (c.w 4) 0 32)⟩ else ⟨[], true⟩)
      fun b cmd id =>
        let h := bits (cmd.w 2) 0 32
        let act1 := bit (cmd.w 2) 32
        let seq := h % 65536
        let q := (b.rd (Reg.SL_HANDLE_STATUS.NEXT_SEQ slice) + 65536 - seq) % 65536
        let mine : Bool := decide (bits h 20 12 = slice.val) && decide (bits h 16 4 = b.gen slice % 16)
        let live := (b.slice slice).handles.find? fun x => x.seq = seq
        let w := b.mkWho (.cmd (b.home slice cls)) (some slice.val) (b.effEnsign slice cls cmd).1
        let signal (b : Block) : Block :=
          match b.ptrSignal w (cmd.w 3) (bits (cmd.w 4) 0 32) with
          | (b, st) => if b.waiting then b else b.finishNow slice cls id st
        if !mine then b.finishNow slice cls id Code.HANDLE_UNKNOWN
        else match live with
          | some x =>
            if x.done.isSome then (if act1 then signal b else b.finishNow slice cls id Code.SUCCESS)
            else if act1 then
              (b.modSlice slice fun v => { v with
                handles := v.handles.map fun y => if y.seq = seq then { y with signals := y.signals ++ [⟨cls, cmd.w 3, bits (cmd.w 4) 0 32, w.ensign⟩] } else y
                }).finishNow slice cls id Code.SUCCESS
            else b.modQ slice cls fun z => { z with block := some (.handle id seq) }
          | none =>
            if 1 ≤ q ∧ q ≤ 32768 then (if act1 then signal b else b.finishNow slice cls id Code.SUCCESS)
            else b.finishNow slice cls id Code.HANDLE_UNKNOWN)

/-- UNLISTED_OPCODE (R66), and a listed opcode its queue does not accept (R55). -/
def execUnlistedOpcode (slice : SliceNo) (cls : ClassNo) (s : State) : Host.Outcome State Fault Refusal :=
  .next (s.upd fun b => b.settle fun b =>
    b.issueNext slice cls (fun op => !Hoist.listed op || !Hoist.accepts cls op) noCheck fun b _ _ => b)

/-! ### The completion ring (R82, R83, R236) -/

/-- CRING_ENTRY_POST (R82). -/
def execCringEntryPost (slice : SliceNo) (s : State) : Host.Outcome State Fault Refusal :=
  .next (s.upd fun b => b.settle fun b =>
    if (b.slice slice).stall.isSome then b else b.postEntries ((b.slice slice).entries.length + 1) slice)

/-- CRING_IRQ_TIMER (R83). -/
def execCringIrqTimer (slice : SliceNo) (s : State) : Host.Outcome State Fault Refusal :=
  .next (s.upd fun b =>
    let v := b.slice slice
    if b.is (Reg.SL_CRING_CFG.IRQ_EN slice) ∧ v.firstAt.isSome then
      (b.setSlice slice { v with posted := 0, firstAt := none }).msix (b.fnOf slice) (b.rd (Reg.SL_CRING_CFG.VECTOR slice))
    else b)

/-- CRING_WRITE_RETRY (R236): the stalled write is tried again; a page that failed is asked for again. -/
def execCringWriteRetry (slice : SliceNo) (s : State) : Host.Outcome State Fault Refusal :=
  .next (s.upd fun b => b.settle fun b =>
    if (b.slice slice).stall.isNone then b else b.postEntries ((b.slice slice).entries.length + 1) slice)

/-! ### Queue control (R56, R84, R85) -/

/-- R56. -/
def Block.queueStarts (b : Block) (s c : Nat) : Bool :=
  let base := b.rd (Reg.SL_Q_BASE.BASE s c)
  let bytes := 64 * 2 ^ b.rd (Reg.SL_Q_CFG.LOG2_SIZE s c)
  decide (base % 4096 = 0) && (Ptr.check base).isNone
    && (decide (Ptr.tag base = 1) || (decide (Ptr.tag base = 0) && b.sealable base && b.sealable (base + bytes - 1)
      && (decide (b.range base = Range.shelf) == decide (b.range (base + bytes - 1) = Range.shelf))))
    && decide (1 ≤ b.rd (Reg.SL_Q_CFG.DEF_ENSIGN s c)) && b.holdsPos s (b.home s c)

/-- Setting ENABLE (R56, R85); in a partition that is down the queue is in ERROR again (R344). A queue that was stopping and is not DISABLED yet goes straight on with its call stack and what
it fetched, out of ERROR too; its failed command is passed over (DESIGN CHOICE, assumption 61). -/
def Block.queueEnable (b : Block) (s c : Nat) : Block :=
  if b.is (Reg.SL_Q_CTRL.ENABLE s c) then b
  else
    let b := b.wr (Reg.SL_Q_CTRL.ENABLE s c) 1
    let b := b.modQ s c fun q => { q with stopping := false, fail := none }
    if b.queueStarts s c && !b.sliceDown s then
      let b := if b.qState s c = Q.DISABLED then b.modQ s c fun q => { q with fetched := [], stack := [], replay := [], resume := none } else b
      (b.setQState s c (if b.is (Reg.SL_Q_CTRL.PAUSE s c) then Q.PAUSED else Q.RUNNING)).qStatus s c
    else
      let b := (b.setQState s c Q.ERROR).wr (Reg.SL_Q_STATUS.ERR_STATUS s c)
        (if b.sliceDown s then Code.FLT_PARTITION_DOWN else Code.HOIST_BAD_FIELD)
      b.modQ s c fun q => { q with fail := some .none }

/-- QUEUE_ENABLE (R85). -/
def execQueueEnable (slice : SliceNo) (cls : ClassNo) (s : State) : Host.Outcome State Fault Refusal :=
  .next (s.upd fun b => b.queueEnable slice cls)

def Block.queueDisable (b : Block) (s c : Nat) : Block :=
  if !b.is (Reg.SL_Q_CTRL.ENABLE s c) then b
  else ((b.wr (Reg.SL_Q_CTRL.ENABLE s c) 0).modQ s c fun q => { q with stopping := true }).qStatus s c

/-- QUEUE_DISABLE (R85). -/
def execQueueDisable (slice : SliceNo) (cls : ClassNo) (s : State) : Host.Outcome State Fault Refusal :=
  .next (s.upd fun b => b.queueDisable slice cls)

def Block.queuePause (b : Block) (s c : Nat) : Block :=
  let b := b.wr (Reg.SL_Q_CTRL.PAUSE s c) 1
  if b.qState s c = Q.RUNNING then b.setQState s c Q.PAUSED else b

/-- QUEUE_PAUSE (R85). -/
def execQueuePause (slice : SliceNo) (cls : ClassNo) (s : State) : Host.Outcome State Fault Refusal :=
  .next (s.upd fun b => b.queuePause slice cls)

def Block.queueResume (b : Block) (s c : Nat) : Block :=
  let b := b.wr (Reg.SL_Q_CTRL.PAUSE s c) 0
  if b.qState s c = Q.PAUSED then b.setQState s c Q.RUNNING else b

/-- QUEUE_RESUME (R85). -/
def execQueueResume (slice : SliceNo) (cls : ClassNo) (s : State) : Host.Outcome State Fault Refusal :=
  .next (s.upd fun b => b.queueResume slice cls)

/-- Leave ERROR by RETRY or SKIP. -/
def Block.leaveError (b : Block) (s c : Nat) : Block :=
  let b := b.modQ s c fun q => { q with fail := none }
  (b.setQState s c (if b.is (Reg.SL_Q_CTRL.PAUSE s c) then Q.PAUSED else Q.RUNNING)).qStatus s c

/-- RETRY (R84); no effect once ENABLE is cleared, also while commands still run (DESIGN CHOICE, assumption 61), as for SKIP. -/
def Block.queueRetry (b : Block) (s c : Nat) : Block :=
  if b.qState s c ≠ Q.ERROR ∨ (b.q s c).stopping then b
  else match (b.q s c).fail with
    | none | some .none => b
    | some (.cmd cmd) =>
      -- the failed command is issued again in its own place, and stands once in the log
      (b.modQ s c fun q => if q.replay.isEmpty then { q with fetched := cmd :: q.fetched, log := q.log.erase cmd }
        else { q with replay := cmd :: q.replay, log := q.log.erase cmd }).leaveError s c
    | some .fetch | some .overrun => b.leaveError s c

/-- QUEUE_RETRY (R84). -/
def execQueueRetry (slice : SliceNo) (cls : ClassNo) (s : State) : Host.Outcome State Fault Refusal :=
  .next (s.upd fun b => b.queueRetry slice cls)

def Block.queueSkip (b : Block) (s c : Nat) : Block :=
  if b.qState s c ≠ Q.ERROR ∨ (b.q s c).stopping then b
  else match (b.q s c).fail with
    | none | some .none => b
    | some (.cmd _) => b.leaveError s c
    | some .fetch =>
      match (b.q s c).stack with
      | f :: rest => (b.modQ s c fun q => { q with stack := { f with next := f.next + 1 } :: rest }).leaveError s c
      | [] =>
        let m := 2 ^ (b.rd (Reg.SL_Q_CFG.LOG2_SIZE s c) + 1)
        (b.wr (Reg.SL_Q_HEAD.INDEX s c) ((b.rd (Reg.SL_Q_HEAD.INDEX s c) + 1) % m)).leaveError s c
    | some .overrun => (b.modQ s c QueueState.leave).leaveError s c

/-- QUEUE_SKIP (R84). -/
def execQueueSkip (slice : SliceNo) (cls : ClassNo) (s : State) : Host.Outcome State Fault Refusal :=
  .next (s.upd fun b => b.queueSkip slice cls)

/-! ### Operations at a sync object's home (R75–R77) -/

def Block.senderWho (b : Block) (f : SyncFrom) : Who := b.mkWho (Agent.of f.requester) (f.slice.map fun x => x.val) f.ensign

/-- SYNC_SIGNAL (R75, R76). -/
def execSyncSignal (obj : Fin 131072) (amount : BitVec 32) (sender : SyncFrom) (s : State) : Host.Outcome State Fault Refusal :=
  .next (s.upd fun b =>
    let w := b.senderWho sender
    let r := b.syncAccess (b.sourceOf w) (Sync.dla obj) 8 (.write (natLE 8 amount.toNat))
    r.1.emit (.memResp w sender.tag.toNat r.2.1 []))

/-- SYNC_RESET (R75). -/
def execSyncReset (obj : Fin 131072) (sender : SyncFrom) (s : State) : Host.Outcome State Fault Refusal :=
  .next (s.upd fun b =>
    let w := b.senderWho sender
    let r := b.syncReset obj
    r.1.emit (.memResp w sender.tag.toNat r.2 []))

/-- SYNC_READ (R75). -/
def execSyncRead (obj : Fin 131072) (sender : SyncFrom) (s : State) : Host.Outcome State Fault Refusal :=
  .next (s.upd fun b =>
    let w := b.senderWho sender
    let r := b.syncAccess (b.sourceOf w) (Sync.dla obj) 8 .read
    r.1.emit (.memResp w sender.tag.toNat r.2.1 r.2.2))

/-- SYNC_WAIT_REGISTER (R75): a wait of a site registers at the object's home. -/
def execSyncWaitRegister (obj : Fin 131072) (target : Word) (site : SiteNo) (tag : BitVec 12) (timeoutUs : BitVec 16)
    (s : State) : Host.Outcome State Fault Refusal :=
  .next (s.upd fun b =>
    match b.syncWait obj target.toNat (.site site tag.toNat 0 0xFFF) timeoutUs.toNat with
    | (b, st) => if st = Code.SUCCESS then b else b.siteResp site tag.toNat st)

end Sys2Proof.Machine
end

