-- ==== Sys2Proof/Machine/ReachLinkOps.lean ====
section
/-! DEFINITION. The reach ports' links, lost paths, and packets that arrive (R307–R320). -/

namespace Sys2Proof.Machine

/-! ### Slot interrupts and power (R319) -/

def Block.modRPort (b : Block) (p : Nat) (f : ReachPort → ReachPort) : Block := b.setRPort p (f (b.rport p))

/-- A slot event: its status bit, and the interrupt when the event and slot interrupts are enabled. -/
def Block.slotEvent (b : Block) (p : Nat) (status enable : Fld) : Block :=
  let b := b.wr status 1
  if b.is enable && b.is (Reg.RCH_SLOT_CTRL.HP_INT_EN p) then b.msix 0 (b.rd (Reg.RCH_SLOT_CTRL.VECTOR p)) else b

/-- Whether RCH_PWR_EN is high. -/
def Block.slotPowered (b : Block) (p : Nat) : Bool :=
  !b.is (Reg.RCH_SLOT_CAP.PWR_CTRL p) || !b.is (Reg.RCH_SLOT_CTRL.PWR_OFF p)

/-- STATE with LINK_ACTIVE and DLLSC. -/
def Block.rchState (b : Block) (p st : Nat) : Block :=
  let was := b.is (Reg.RCH_SLOT_STATUS.LINK_ACTIVE p)
  let b := b.wr (Reg.RCH_STATUS.STATE p) st
  let up := decide (st = Rch.UP)
  if was == up then b
  else (b.wr (Reg.RCH_SLOT_STATUS.LINK_ACTIVE p) (b01 up)).slotEvent p (Reg.RCH_SLOT_STATUS.DLLSC p)
    (Reg.RCH_SLOT_CTRL.DLLSC_EN p)

/-! ### Answers to this device's requests (R314, R317) -/

/-- A WAIT at a peer ends: it completes its queue's command. -/
def Block.peerWaitDone (b : Block) (n : ExtNeed) (st : Status) : Block :=
  match n.target with
  | .peerWait _ _ _ key =>
    let q := key / 65536
    let b := { b with ext := { b.ext with sent := b.ext.sent.filter fun x => x ≠ n } }
    match (b.queue q).block with
    | some (.wait id) =>
      if id % 65536 = key % 65536 then
        b.finishNow (q / 4) (q % 4) id (if Status.peerLost st then Code.SYNC_PEER_LOST else st)
      else b
    | _ => b
  | _ => b.extDone n st []

/-- The answer of a request reaches its unit. -/
def Block.rchAnswer (b : Block) (r : ReachReq) (st : Status) (data : List Byte) : Block :=
  match r.need.target with
  | .peerWait _ _ _ _ => if b.ext.sent.contains r.need then b.peerWaitDone r.need st else b
  | _ => b.extDone r.need st (match r.need.op with
    | .read => if st = Code.SUCCESS then sliceBytes data 0 r.need.len else zeros r.need.len
    | _ => [])

/-! ### Paths (R318) -/

def Block.rchReqs (b : Block) (f : List ReachReq → List ReachReq) : Block :=
  { b with reach := { b.reach with reqs := f b.reach.reqs } }

/-- Whether a valid entry's path in use, or its primary while that is not lost yet, leaves by port `p`. -/
def Block.pathsVia (b : Block) (p : Nat) (alt : Bool) : List Nat :=
  (List.range 4095).filter fun n =>
    b.is (Reg.RCH_PEER00.VALID n) && (b.is (Reg.RCH_PEER00.ON_ALT n) == alt) && decide (b.entryPort n alt = p)
      && !(if alt then NSet.has b.reach.failed n else NSet.has b.reach.priLost n)

/-- A path of an entry is lost: the waits that its peer registered by that path end (R78), and so do the COLLECTs with a member
there if it is the path in use (R149; DEDUCED, assumption 65). -/
def Block.pathGone (b : Block) (n : Nat) (alt : Bool) : Block :=
  let mine (r : ReachReq) : Bool := decide (r.entry = n) && (r.onAlt == alt) && r.registered
  let ws := b.reach.reqs.filter mine
  let inUse : Bool := b.is (Reg.RCH_PEER00.ON_ALT n) == alt
  let b := if inUse then b.collsLost n else b
  let b := (b.pathLost n alt).rchReqs fun l => l.filter fun r => !mine r
  ws.foldl (fun b r => b.rchAnswer r Code.RCH_PATH_LOST []) b

/-- Every path whose first hop is port `p` is lost. -/
def Block.portPathsLost (b : Block) (p : Nat) : Block :=
  let b := (b.pathsVia p false).foldl (fun b n => b.pathGone n false) b
  (b.pathsVia p true).foldl (fun b n => b.pathGone n true) b

/-! ### The link (R307–R311) -/

/-- What a port keeps when its link drops: retired halves, and leave to train again. -/
def ReachPort.dropped (l : ReachPort) (trainAt : Option Nat) : ReachPort :=
  { ReachPort.reset with retired := l.retired, trained := l.trained, trainAt := trainAt }

/-- Take a port DOWN (R309): what it held is gone, and its paths are lost. -/
def Block.rchDown (b : Block) (p : Nat) (trainAt : Option Nat) : Block :=
  let st := b.rd (Reg.RCH_STATUS.STATE p)
  if st ≠ Rch.UP ∧ st ≠ Rch.ISOLATED then b
  else
    let b := b.rchState p Rch.DOWN
    let b := (b.wr (Reg.RCH_STATUS.HALVES p) 0).wr (Reg.RCH_STATUS.WIDTH_CHANGE p) 0
    let b := b.modRPort p fun l => l.dropped trainAt
    let b := b.pennant (Src.reachPort p) Kind.REACH_DOWN 0 0
    (b.rchLog p 1 (b.rd (Reg.RCH_STATUS.NEIGHBOUR p))).portPathsLost p

/-- A link event takes the port DOWN; it may train again. -/
def Block.rchLinkLost (b : Block) (p : Nat) : Block := b.rchDown p (some b.now)

/-- Let a port train: it is in use, powered, and has a half left. -/
def Block.rchRelease (b : Block) (p : Nat) : Block :=
  if b.is (Reg.RCH_CFG.EN p) && b.slotPowered p && decide ((b.rport p).retired ≠ 3)
      && decide (b.rd (Reg.RCH_STATUS.STATE p) = Rch.DOWN) then
    (b.rchState p Rch.TRAINING).modRPort p fun l => { l with trainAt := some b.now, trained := false }
  else b

/-- The halves of a set of lanes. -/
def Rch.halves (lanes : Nat) : Nat := b01 (decide (bits lanes 0 4 ≠ 0)) + 2 * b01 (decide (bits lanes 4 4 ≠ 0))

/-- Lanes whose training fails: their halves retire, and at boot they are in the Field-defect log (Table BUP-4, R310). -/
def Block.rchLanesFail (b : Block) (p lanes : Nat) : Block :=
  let h := Rch.halves lanes
  if h = 0 then b
  else ((b.bootLanes ((bitList lanes 8).map fun l => Src.reachLane p l)).modRPort p fun l =>
    { l with retired := l.retired ||| h }).rchLog p 2 (b.rd (Reg.RCH_STATUS.NEIGHBOUR p))

/-- Lanes whose defect is PERMANENT count as failed at each boot (R384). -/
def Block.lanesPermanent (b : Block) (src : Nat → Nat) : Nat :=
  ((List.range 8).map fun l => b01 (b.defectPermanent (src l)) * 2 ^ l).sum

/-- Training ends, and `failed` lanes have failed it: HELLO goes out (R309). A port whose halves have all failed stays DOWN. -/
def Block.rchTrained (b : Block) (p failed : Nat) : Block :=
  let go : Bool := (b.rport p).trainAt.isSome && decide (b.rd (Reg.RCH_STATUS.STATE p) ≠ Rch.UP)
    && decide (b.rd (Reg.RCH_STATUS.STATE p) ≠ Rch.ISOLATED) && b.slotPowered p
  let b := if go then b.rchLanesFail p failed else b
  let l := b.rport p
  if !go then b
  else if l.retired = 3 then (b.rchState p Rch.DOWN).modRPort p fun l => { l with trainAt := none }
  else
    let b := (b.rchState p Rch.TRAINING).wr ⟨Reg.CK_STATUS.REACH_LOCK.off, 10 + p, 1⟩ 1
    let b := b.setRPort p { ReachPort.reset with retired := l.retired, trained := true, trainAt := l.trainAt }
    b.rchCtrl p 0 (b.rd Reg.RCH_DEV.DEV_ID + p * 2 ^ 24)

/-- HELLO from the neighbour (R309): UP, with this port's buffers granted as credits, or ISOLATED. -/
def Block.rchHello (b : Block) (p dev nb : Nat) : Block :=
  let l := b.rport p
  if b.rd (Reg.RCH_STATUS.STATE p) ≠ Rch.TRAINING ∨ !l.trained then b
  else
    let own := b.rd Reg.RCH_DEV.DEV_ID
    let b := (b.wr (Reg.RCH_STATUS.NEIGHBOUR p) dev).wr (Reg.RCH_STATUS.NB_PORT p) nb
    let b := b.wr (Reg.RCH_STATUS.HALVES p) (3 - l.retired)
    if dev = own ∨ own = 0 then
      ((b.rchState p Rch.ISOLATED).pennant (Src.reachPort p) Kind.REACH_ISOLATED 0 0).rchLog p 3 dev
    else
      let b := b.setRPort p { l with
        owedReq := Config.reachBuffers.1.toNat, owedRsp := Config.reachBuffers.2.toNat, ackAt := b.now }
      (b.rchState p Rch.UP).rchBare p 1

/-- Release the held frames that an ACK covers, and take the credits a frame returns. -/
def Block.rchCover (b : Block) (p ack reqCr rspCr : Nat) : Block :=
  b.modRPort p fun l => { l with
    held := match l.held.findIdx? fun f => f.seq = ack with
      | some i => l.held.drop (i + 1)
      | none => l.held
    reqCr := l.reqCr + reqCr, rspCr := l.rspCr + rspCr }

/-- Send what room and credits allow. -/
def Block.rchGo (b : Block) (p : Nat) : Block := (Block.rchFrames 256 b p).rchSendWaiting p

/-- Send every held frame again, in order, and then what waits (R160 rule 4). -/
def Block.rchResend (b : Block) (p : Nat) : Block :=
  ((b.rport p).held.foldl (fun b f => b.rchPut p 0 f.seq f.payload) b).rchGo p

/-- A NAK with the last good ACK (R160 rule 3). -/
def Block.rchNak (b : Block) (p : Nat) : Block :=
  ((b.rchBare p 2).count (Reg.RCH_NAKS.COUNT p) 1).modRPort p fun l => { l with nakAt := some b.now }

def Block.rchWantNak (b : Block) (p : Nat) : Block := if (b.rport p).nakAt.isSome then b else b.rchNak p

/-- A frame was received: an ACK after every 64. -/
def Block.rchSeen (b : Block) (p : Nat) : Block :=
  let b := b.modRPort p fun l => { l with framesSinceAck := l.framesSinceAck + 1 }
  if 64 ≤ (b.rport p).framesSinceAck then b.rchBare p 1 else b

/-- A DATA frame with a good CRC: delivered in order, exactly once, and the packets that its units make whole. -/
def Block.rchData (b : Block) (p seq : Nat) (payload : List Byte) : Block :=
  let l := b.rport p
  if seq = l.rxNext then
    let r := RPacket.split 64 (l.rxBytes ++ payload)
    let b := (b.emit (.rpayload p payload)).modRPort p fun l => { l with
      rxNext := (seq + 1) % 65536, nakAt := none, rxBytes := r.2 }
    r.1.foldl (fun b k => b.emit (.rreceived p k)) b
  else if (l.rxNext + 65535 - seq) % 65536 < 32768 then b
  else b.rchWantNak p

/-- A lane becomes permanent: its half retires (R310). -/
def Block.rchRetire (b : Block) (p lane : Nat) : Block :=
  let h := lane / 4
  let l := b.rport p
  if l.retired.testBit h then b
  else
    let r := setBits l.retired h 1 1
    let b := (b.modRPort p fun l => { l with retired := r }).rchLog p 2 (b.rd (Reg.RCH_STATUS.NEIGHBOUR p))
    if r = 3 then b.rchDown p none
    else if !b.rchUp p then b
    else
      let b := b.wr (Reg.RCH_STATUS.WIDTH_CHANGE p) 1
      let b := b.modRPort p fun l => { l with widthChange := some (3 - r) }
      b.rchCtrl p 1 (3 - r + l.lastGood * 2 ^ 8)

/-- Take the halves of a width change; with none left the port goes DOWN. -/
def Block.rchHalves (b : Block) (p set : Nat) : Block :=
  let h := b.rd (Reg.RCH_STATUS.HALVES p) &&& set
  if h = 0 then b.rchDown p none else b.wr (Reg.RCH_STATUS.HALVES p) h

/-- The other side's last good SEQ in a width change: the frames after it go again. -/
def Block.rchFrom (b : Block) (p last : Nat) : Block := (b.rchCover p last 0 0).rchResend p

/-- WIDTH_CHANGE from the neighbour (R162, R310). -/
def Block.rchWidthChange (b : Block) (p set last : Nat) : Block :=
  if !b.rchUp p ∨ set = 0 then b
  else
    let b := b.rchHalves p set
    if !b.rchUp p then b
    else
      (b.rchCtrl p 2 (b.rport p).lastGood).rchFrom p last

/-- WIDTH_ACK from the neighbour. -/
def Block.rchWidthAck (b : Block) (p last : Nat) : Block :=
  match (b.rport p).widthChange with
  | none => b
  | some set =>
    let b := b.modRPort p fun l => { l with widthChange := none }
    let b := (b.wr (Reg.RCH_STATUS.WIDTH_CHANGE p) 0).rchHalves p set
    if b.rchUp p then b.rchFrom p last else b

/-- The request a tag names, if it still waits. -/
def Block.rchReq (b : Block) (tag : Nat) : Option ReachReq := b.reach.reqs.find? fun r => r.tag = tag

/-- A response: a late one is discarded; the answer to a wait registers it. -/
def Block.rchResponse (b : Block) (k : RPacket) : Block :=
  match b.rchReq k.tag with
  | none => b
  | some r =>
    let gone := (b.rchReqs fun l => l.erase r).rchCount r.port
    if r.late then gone
    else if r.registered then b
    else
      let isWait := match r.need.target with
        | .peerWait _ _ _ _ => true
        | _ => false
      if isWait && decide (k.status = Code.SUCCESS) then
        (b.rchReqs fun l => l.map fun x => if x = r then { r with registered := true } else x).rchCount r.port
      else
        let gone := if k.status = Code.RCH_PATH_LOST ∧ b.is (Reg.RCH_PEER00.ON_ALT r.entry) = r.onAlt then
          gone.pathGone r.entry r.onAlt else gone
        let st := Status.foreign k.status
        (gone.unspecified (Src.reachPort r.port) st).rchAnswer r st k.data

/-- A wait notice: the wait it names is over. -/
def Block.rchNotice (b : Block) (k : RPacket) : Block :=
  match b.rchReq k.tag with
  | none => b
  | some r =>
    let isWait := match r.need.target with
      | .peerWait _ _ _ _ => true
      | _ => false
    if !isWait then b
    else
      let b := (b.rchReqs fun l => l.erase r).rchCount r.port
      if r.late then b else b.rchAnswer r Code.SUCCESS []

/-- R317: no response in time. -/
def Block.rchTimeout (b : Block) (tag : Nat) : Block :=
  match b.rchReq tag with
  | none => b
  | some r =>
    if r.late || r.registered then b
    else
      let b := (b.rchReqs fun l => l.map fun x => if x = r then { r with late := true } else x).rchCount r.port
      b.rchAnswer r Code.RCH_TIMEOUT []

/-! ### Packets that arrive (R313–R316) -/

/-- Return the credits of a packet that a port has passed on. -/
def Block.rchOwe (b : Block) (p : Nat) (k : RPacket) : Block :=
  b.modRPort p fun l =>
    if k.isReq then { l with owedReq := l.owedReq + k.credits } else { l with owedRsp := l.owedRsp + k.credits }

/-- A packet that cannot go on: a request is answered, any other dropped and counted. -/
def Block.rchStop (b : Block) (p : Nat) (k : RPacket) (st : Status) : Block :=
  if k.isReq then b.rchReply p k 6 st [] else b.count (Reg.RCH_FWD_DROP.COUNT p) 1

/-- Send a packet on by its route's hop HOP. -/
def Block.rchForward (b : Block) (p : Nat) (k : RPacket) : Block :=
  let out := k.egress k.hop
  if b.rchUp out then b.rchSend out { k with hop := k.hop + 1 }
  else (b.rchLog out 4 k.dst).rchStop p k Code.RCH_PATH_LOST

/-- The whole 4 KiB block at ADDR takes a seal (assumption 14). -/
def Block.rchSealWrite (b : Block) (w : Who) (a sl : Nat) : Block × Status :=
  if a % 4096 ≠ 0 ∨ !b.sealable a then (b, Code.SUCCESS)
  else
    let r := b.dlaRead w a 4096
    if r.2.1 ≠ Code.SUCCESS then (r.1, r.2.1) else r.1.dlaWriteBlock w a r.2.2 sl

/-- A request of the neighbourhood, admitted: its status and the data of its response (R316). -/
def Block.rchPerform (b : Block) (p : Nat) (k : RPacket) : Block × Status × List Byte :=
  let w := b.mkWho (.reach p) (some k.slice) k.ensign
  let data := sliceBytes k.data 0 (k.len + 1)
  let plain (r : Block × Status) : Block × Status × List Byte := (r.1, r.2, [])
  let isSync := match b.range k.addr with
    | .sync => true
    | _ => false
  if k.kind = 1 then
    if k.status = 1 then
      match b.checkReq w k.addr .r with
      | (b, some st) => (b, st, [])
      | (b, none) =>
        let r := b.dlaSeal w (k.addr / 4096 * 4096)
        (r.1, r.2.1, natLE 8 r.2.2)
    else b.dlaRead w k.addr (k.len + 1)
  else if k.kind = 2 then
    match k.status with
    | 0 => plain (b.dlaWrite w k.addr data)
    | 1 => plain (b.rchSealWrite w k.addr (leAt k.data 0 8))
    | 2 => b.dla w k.addr data.length (.add .int32 data)
    | 3 => b.dla w k.addr data.length (.add .int64 data)
    | 4 => b.dla w k.addr data.length (.add .fp32 data)
    | _ => b.dla w k.addr data.length (.add .bf16 data)
  else if !isSync then
    match b.checkReq w k.addr (if k.kind = 3 then .w else .r) with
    | (b, some st) => (b, st, [])
    | (b, none) => (b, Code.SYNC_BAD_OP, [])
  else if k.kind = 3 then b.dla w k.addr (k.len + 1) (.write data)
  else
    match b.checkReq w k.addr .r with
    | (b, some st) => (b, st, [])
    | (b, none) =>
      if k.addr % 8 ≠ 0 then (b, Code.SYNC_BAD_OP, [])
      else plain (b.syncWait ((k.addr - Dla.syncBase) / 8) (leAt k.data 0 8) (.peer p k) 0)

def Block.admitted (b : Block) (src slice : Nat) : Bool :=
  (List.range 256).any fun i => b.is (Reg.RCH_ADMIT.VALID i) && decide (b.rd (Reg.RCH_ADMIT.SRC_DEV i) = src)
    && decide (b.rd (Reg.RCH_ADMIT.SLICE i) = slice)

/-- A packet for this device (R314, R316). -/
def Block.rchDeliver (b : Block) (p : Nat) (k : RPacket) : Block :=
  if k.kind = 6 then b.rchResponse k
  else if k.kind = 5 then b.rchNotice k
  else if !b.admitted k.src k.slice then
    let b := b.pennant (Src.reachPort p) Kind.REACH_NOT_ADMITTED k.slice k.addr
    (b.rchLog p 5 k.src).rchReply p k 6 Code.RCH_NOT_ADMITTED []
  else
    let r := b.rchPerform p k
    if r.1.waiting then r.1
    else r.1.rchReply p k 6 r.2.1 (if r.2.1 = Code.SUCCESS then r.2.2 else [])

/-- A packet received whole on port `p` (R313). A port that has gone DOWN since still performs a request it had received
whole (R320). -/
def Block.rchArrive (b : Block) (p : Nat) (k : RPacket) : Block :=
  let down := decide (b.rd (Reg.RCH_STATUS.STATE p) = Rch.DOWN) && (b.rport p).trained && k.isReq
  if !b.rchUp p && !down then b
  else
    let k := { k with ret := setBits k.ret (2 * (k.hop - 1)) 2 p }
    let b := b.rchOwe p k
    if k.hop < k.hops then b.rchForward p k
    else if k.dst = b.rd Reg.RCH_DEV.DEV_ID then b.rchDeliver p k
    else
      let via := if b.is Reg.RCH_DEV.RELAY_EN && decide (k.relays < 15) then
          findIdx 256 fun i => b.is (Reg.RCH_RELAY00.VALID i) && decide (b.rd (Reg.RCH_RELAY00.DEV_ID i) = k.dst)
        else none
      match via with
      | some i =>
        b.rchForward p { k with
          route := b.rd (Reg.RCH_RELAY08.ROUTE i), hops := b.rd (Reg.RCH_RELAY00.HOPS i), hop := 0, relays := k.relays + 1 }
      | none => (b.rchLog p 6 k.dst).rchStop p k Code.RCH_NO_ROUTE

end Sys2Proof.Machine
end

