-- ==== Sys2Proof/Machine/RecoveryOps.lean ====
section
/-! DEFINITION. Recoveries that stop work (R330–R334, R337, R342): a hub core's position moves to a spare, a site core is
remapped, and the affected slices replay. -/

namespace Sys2Proof.Machine

/-- The log entry of an open record. -/
def Block.recordIndex (b : Block) (id : Nat) : Option Nat :=
  match b.fc.opened.find? fun r => r.id = id with
  | some r => r.index
  | none => none

/-- The spare that a record's action brought in. -/
def Block.replaced (b : Block) (id src : Nat) : Block :=
  match b.recordIndex id with
  | some i => b.wr (Reg.FC_LOG18.REPLACEMENT (i % 4096)) src
  | none => b

/-! ### What a recovery stops -/

/-- The partition a recovery runs in; 32 where it has none. -/
def Block.recoveryPart (b : Block) : RecoveryKind → Nat
  | .core _ pos _ => (b.posHolder pos).getD 32
  | .siteCore s _ => (b.siteHolder s).getD 32
  | .site s => (b.siteHolder s).getD 32
  | .dataReplay sl => if sl = 0 then 32 else b.slicePart sl
  | .denob => 32

/-- The serving slice of a partition whose step runs. -/
def Block.servingOf (b : Block) (p : Nat) : List Nat := if (b.dnPart p).running then [b.serveSlice p] else []

/-- The slices that a recovery affects (R334, R337, R256). -/
def Block.recoverySlices (b : Block) : RecoveryKind → List Nat
  | .core _ pos _ => b.slicesAt pos
  | .siteCore s phys => ((b.site s).disp.filterMap fun e => match e.2 with
      | some d => if d.core = some phys then some d.slice else none
      | none => none).eraseDups
  | .site s => match b.siteHolder s with
    | some p => b.servingOf p
    | none => []
  | .dataReplay sl => [sl]
  | .denob => ((List.range 32).flatMap b.servingOf).eraseDups

/-- Their queues issue nothing from now on. -/
def Block.holdSlices (b : Block) (ss : List Nat) : Block :=
  ss.foldl (fun b sl => (List.range 4).foldl (fun b c => b.modQ sl c fun q => { q with held := true }) b) b

def Block.setRecovery (b : Block) (k : RecoveryKind) (f : Recovery → Recovery) : Block :=
  { b with fc := { b.fc with recoveries := b.fc.recoveries.map fun r => if r.kind = k then f r else r } }

/-- Steps 1 and 2 of R337 for the affected slices, and of R333 for a site core. -/
def Block.startRecovery (b : Block) (r : Recovery) : Block :=
  let ss := b.recoverySlices r.kind
  let b := ss.foldl (fun b sl => b.stopSlice sl) b
  let b := match r.kind with
    | .siteCore s phys => (b.cancelWhere s fun d => decide (d.core = some phys)).coreFence s phys true
    | _ => b
  b.setRecovery r.kind fun r => { r with slices := ss.map fun sl => (sl, b.gen sl), phase := .cancelling, since := b.now }

/-- Ask for a recovery: its slices stop at once; it starts unless another runs in its partition (R342). -/
def Block.requestRecovery (b : Block) (k : RecoveryKind) (record : Option Nat) : Block :=
  if b.fc.recoveries.any fun r => r.kind = k then b
  else
    let p := b.recoveryPart k
    let busy : Bool := decide (p ≠ 32) && b.fc.recoveries.any fun r => decide (r.part = p) && decide (r.phase ≠ .waiting)
    let r : Recovery := ⟨k, p, [], record, .waiting, b.now⟩
    let b := { b with fc := { b.fc with recoveries := b.fc.recoveries ++ [r] } }
    if busy then b.holdSlices (b.recoverySlices k) else b.startRecovery r

/-! ### A hub core's position (R330–R332, R343) -/

/-- Physical cores of the north half. -/
def Core.north (c : Nat) : Bool := decide (c < 18)

/-- The spares that a partition's record names. -/
def PartRec.spareNames (r : PartRec) : List Nat :=
  (bitList r.spareCores 4).map fun i => [16, 17, 34, 35].getD i 0

def Block.coreState (b : Block) (c : Nat) : Nat := b.rd (Reg.MH_CORE_STATE.STATE c)

/-- R330, R331: the partition's own free spares, else the device pool's; of those, one of the same half, else the lowest. -/
def Block.spareCore (b : Block) (phys pos : Nat) : Option Nat :=
  let free (c : Nat) : Bool := decide (b.coreState c = 3)
  let own := match b.posHolder pos with
    | some p => (b.part p).spareNames.filter free
    | none => []
  let named (c : Nat) : Bool := (List.range 32).any fun p => (b.part p).spareNames.contains c
  let from' := if own.isEmpty then (List.range 36).filter fun c => free c && !named c else own
  match from'.find? fun c => Core.north c == Core.north phys with
  | some c => some c
  | none => from'.head?

/-- The frame of a position starts on its new core with its registers at reset, no translations and no kernel image; the
records of its COLLECTs are in its sync home (R340). -/
def Block.freshPosition (b : Block) (pos : Nat) : Block :=
  let lo := 0x2000000 + 0x100000 * pos
  let b := { b with regs := b.regs.filter fun e => !(decide (lo ≤ e.1) && decide (e.1 < lo + 0x100000)) }
  (b.setPos pos { PosState.idle with records := (b.posState pos).records }).setL1 pos []

/-- R332: a word that the copy cannot read takes its snapshot value, or 0 and a record. -/
def Block.unreadable (b : Block) (phys obj : Nat) : Block :=
  let snap := b.liveSlices.findSome? fun sl =>
    ((b.slice sl).snapshot.find? fun e => e.1 = obj).map fun e => e.2
  match snap with
  | some v => (b.setSync obj v).satisfy obj
  | none =>
    let r : Record := ⟨phys, Kind.SYNC_SATURATED, 0, 1, Sync.dla obj, false, false, true, b.now⟩
    let b := (b.setSync obj 0).satisfy obj
    { b with fc := { b.fc with inQ := r.enqueue b.fc.inQ } }

/-- R332: every operation on the objects of a home that is lost ends with FLT_UNIT_LOST. -/
def Block.loseHome (b : Block) (pos : Nat) : Block :=
  let ws := b.waitsAt pos
  let b := b.setWaits pos []
  let b := { b with sync := { b.sync with lostHomes := NSet.insert pos b.sync.lostHomes } }
  ws.foldl (fun b w => match w.who with
    | .queue q id => b.completeCmd (q / 4) (q % 4) id Code.FLT_UNIT_LOST 0
    | .collect p q id => match (b.posState p).colls.find? fun c => decide (c.job.queue = q) && decide (c.job.id = id) with
      | some c => b.collEnd p c Code.FLT_UNIT_LOST c.self (Sync.dla w.obj)
      | none => b
    | .site s tag _ _ => b.siteResp s tag Code.FLT_UNIT_LOST
    | .peer port req => b.rchReply port req 6 Code.FLT_UNIT_LOST []) b

/-- R343: the queues homed at a lost position move to the lowest one the partition still holds. -/
def Block.rehome (b : Block) (pos : Nat) : Block :=
  b.liveSlices.foldl (fun b sl =>
    let to' := if sl = 0 then findIdx 32 fun k => (b.coreOf k).isSome else (b.positionsHeld (b.slicePart sl)).head?
    match to' with
    | none => b
    | some k => (List.range 4).foldl (fun b c => if b.home sl c = pos then b.wr (Reg.SL_Q_CFG.HOME sl c) k else b) b) b

/-- The move of R331, or what R332 and R343 do without a spare; the spare that the position moved to. -/
def Block.moveCore (b : Block) (phys pos : Nat) (home : Option (List Nat)) : Block × Option Nat :=
  match b.spareCore phys pos with
  | some sp =>
    let b := (home.getD []).foldl (fun b o => b.unreadable phys (4096 * pos + o)) b
    -- the spare's domains are woken
    let b := (List.range 3).foldl (fun b i => b.setGated (3 * sp + i) false) b
    let b := (b.wr (Reg.MH_CORE_MAP.PHYS pos) sp).wr (Reg.MH_CORE_STATE.STATE sp) 2
    (b.freshPosition pos, some sp)
  | none =>
    let b := (b.wr (Reg.MH_CORE_MAP.VALID pos) 0).freshPosition pos
    let b := b.rehome pos
    let b := if home.isSome then b.loseHome pos else b
    let b := match b.posHolder pos with
      | some p =>
        let b := b.degradedRecord p
        if b.partDown p then b.takeDown p else b
      | none => b
    (b, none)

/-! ### Site cores and sites (R333, R334) -/

/-- The mapped cores of the enrolled sites that a partition still holds. -/
def Block.partCores (b : Block) (p : Nat) : List (Nat × Nat) :=
  (List.range 16).flatMap fun s =>
    if b.enrolled s && (b.part p).sites.testBit s then
      ((List.range 64).filter fun c => b.is (Reg.ST_SWP_CORE_MAP.VALID s c)).map fun c => (s, c)
    else []

/-- A DISPATCH whose core is missing goes to the next of `cores`, round robin. -/
def Dn.redirect (cores : List (Nat × Nat)) (n : Nat) (ws : List Nat) : Nat × List Nat :=
  let w2 := ws.getD 2 0
  let s := bits w2 0 4
  let here : Bool := cores.any fun c => decide (c.1 = s) && (bit w2 10 || decide (c.2 = bits w2 4 6))
  if bits (ws.getD 0 0) 0 8 ≠ 0x05 ∨ here ∨ cores.isEmpty then (n, ws)
  else
    let c := cores.getD (n % cores.length) (0, 0)
    (n + 1, ws.set 2 (setBits (setBits (setBits w2 0 4 c.1) 4 6 c.2) 10 1 0))

def Dn.redirectAll (cores : List (Nat × Nat)) (n : Nat) (l : List FCmd) : Nat × List FCmd :=
  l.foldl (fun acc c =>
    let r := Dn.redirect cores acc.1 c.words
    (r.1, acc.2 ++ [{ c with words := r.2 }])) (n, [])

/-- One slot of the dispatch ring that is not fetched yet. -/
def Block.redirectSlot (b : Block) (sl : Nat) (cores : List (Nat × Nat)) (n t : Nat) : Block × Nat :=
  let p := b.rd (Reg.SL_Q_BASE.BASE sl 3) + 64 * (t % 2 ^ b.rd (Reg.SL_Q_CFG.LOG2_SIZE sl 3))
  match b.ptrRead (b.dnWho sl) p 64 with
  | (b', st, d) =>
    if b'.waiting ∨ st ≠ Code.SUCCESS then (b, n)
    else
      let ws := (List.range 8).map fun i => leAt d (8 * i) 8
      let r := Dn.redirect cores n ws
      if r.2 = ws then (b', r.1)
      else match b'.ptrWrite (b'.dnWho sl) true false p (r.2.flatMap (natLE 8)) with
        | (b'', st) => if b''.waiting ∨ st ≠ Code.SUCCESS then (b, n) else (b'', r.1)

/-- R334: Denob spreads the missing cores' work of the running step over the cores that are left. -/
def Block.dnRedirect (b : Block) (p : Nat) : Block :=
  let cores := b.partCores p
  let v := b.dnPart p
  if !v.running then b
  else
    let sl := b.serveSlice p
    let q := b.q sl 3
    let l := Dn.redirectAll cores 0 q.log
    let r := Dn.redirectAll cores l.1 q.replay
    let f := Dn.redirectAll cores r.1 q.fetched
    let b := b.setQ sl 3 { q with log := l.2, replay := r.2, fetched := f.2 }
    let m := 2 ^ (b.rd (Reg.SL_Q_CFG.LOG2_SIZE sl 3) + 1)
    let head := b.rd (Reg.SL_Q_HEAD.INDEX sl 3)
    let k := (b.rd (Reg.SL_Q_TAIL.INDEX sl 3) + m - head % m) % m
    let s := (List.range k).foldl (fun (acc : Block × Nat) i => acc.1.redirectSlot sl cores acc.2 ((head + i) % m)) (b, f.1)
    let w := v.toWrite.foldl (fun (acc : Nat × List (Nat × List Nat)) c =>
      let r := Dn.redirect cores acc.1 c.2
      (r.1, acc.2 ++ [(c.1, r.2)])) (s.2, [])
    s.1.modDnPart p fun v => { v with toWrite := w.2 }

/-- Logical cores of a site that physical core `phys` holds. -/
def Block.logicalOf (b : Block) (s phys : Nat) : Option Nat := findIdx 64 fun c => decide (b.siteCoreMap s c = some phys)

def Block.siteCoreStruck (b : Block) (s phys : Nat) : Bool := b.is (Reg.FC_BUCKET.STRUCK (Src.siteCore s phys))

/-! ### Ends -/

/-- A recovery is over: its slices replay (steps 3 and 4 of R337), and those of recoveries that wait stop again. -/
def Block.endRecovery (b : Block) (r : Recovery) (replacement : Option Nat) : Block :=
  let live (b : Block) (e : Nat × Nat) : Bool :=
    decide (b.gen e.1 = e.2) && [Slice.OPEN, Slice.FREEZING, Slice.FROZEN].contains (b.sliceState e.1)
  let b := r.slices.foldl (fun b e => if live b e then b.replaySlice e.1 else b) b
  let b := match r.record, replacement with
    | some id, some src => b.replaced id src
    | _, _ => b
  let b := { b with fc := { b.fc with recoveries := b.fc.recoveries.filter fun x => x.kind ≠ r.kind } }
  let waits := b.fc.recoveries.filter fun x => x.phase = .waiting
  (waits.foldl (fun b x => b.holdSlices (b.recoverySlices x.kind)) b).partStates

/-- Step 3 of R333: on to the next good core that is not struck. -/
def Block.nextSiteCore (b : Block) (s c : Nat) : Block :=
  b.remapSiteCore s c ((List.range 64).filter fun p => b.siteCoreStruck s p)

def Block.unfencing (b : Block) (s c : Nat) : Bool := b.fc.unfences.any fun u => decide (u.site = s) && decide (u.logical = c)

/-- No good core was left, and the logical core is unmapped (R333, R334, R343). -/
def Block.endUnmapped (b : Block) (r : Recovery) (s : Nat) : Block :=
  match b.siteHolder s with
  | none => b.endRecovery r none
  | some p =>
    let b := (b.degradedRecord p).dnRedirect p
    let more := (b.servingOf p).filter fun sl => !(r.slices.any fun e => e.1 = sl)
    let b := b.endRecovery r none
    if more.isEmpty then b else b.requestRecovery (.site s) none

/-- A recovery whose CANCELs are answered goes on: the unit's replacement (step 3 of R330). -/
def Block.replaceUnit (b : Block) (r : Recovery) : Block :=
  match r.kind with
  | .core phys pos home =>
    -- slices that came to the position while its CANCELs were out
    let more := (b.slicesAt pos).filter fun sl => !(r.slices.any fun e => e.1 = sl)
    if !more.isEmpty then
      let b := more.foldl (fun b sl => b.stopSlice sl) b
      b.setRecovery r.kind fun r => { r with slices := r.slices ++ more.map fun sl => (sl, b.gen sl) }
    else
      let m := b.moveCore phys pos home
      m.1.endRecovery r m.2
  | .siteCore s phys =>
    match b.logicalOf s phys with
    | none => b.endRecovery r none
    | some c =>
      let b := b.nextSiteCore s c
      if b.unfencing s c then b.setRecovery r.kind fun r => { r with phase := .unfencing c, since := b.now }
      else b.endUnmapped r s
  | .site s =>
    let b := match b.siteHolder s with
      | some p => b.dnRedirect p
      | none => b
    b.endRecovery r none
  | .dataReplay _ => b.endRecovery r none
  | .denob => b.endRecovery r none

/-- The unfence of R333 step 4 is answered, or no core was left for it. -/
def Block.endUnfence (b : Block) (r : Recovery) (c : Nat) : Block :=
  match r.kind with
  | .siteCore s _ =>
    if b.unfencing s c then b
    else match b.siteCoreMap s c with
      | some p => b.endRecovery r (some (Src.siteCore s p))
      | none => b.endUnmapped r s
  | _ => b

/-- Advance every recovery that can go on. -/
def Block.recoveriesAdvance (b : Block) : Block :=
  b.fc.recoveries.foldl (fun b r0 =>
    match b.fc.recoveries.find? fun r => r.kind = r0.kind with
    | none => b
    | some r => match r.phase with
      | .waiting => b
      | .cancelling =>
        if (r.slices.any fun e => b.cancelsOut e.1) || (decide (r.kind = .denob) && b.dn.restarting) then b
        else b.replaceUnit r
      | .unfencing c => b.endUnfence r c) b

end Sys2Proof.Machine
end

