-- ==== Sys2Proof/Machine/FaultOps.lean ====
section
/-! DEFINITION. How the fault collector judges and handles a record (R321–R327, R345) and what it strikes (Tables FLT-2 and
FLT-5). -/

namespace Sys2Proof.Machine

/-! ### Sources (Table FLT-2) -/

/-- The unit that a source number names, as a strike sees it; `fatal` is a device-global resource (R10, R346), `kept` a unit
of the last row, `group` the shelf group behind a tap. -/
inductive FUnit where
  | core (c : Nat)
  | bank (p : Nat)
  | stack (n : Nat)
  | channel (stack ch : Nat)
  | laneGroup (site g : Nat)
  | siteCore (site phys : Nat)
  | site (s : Nat)
  | reachLane (port lane : Nat)
  | reachPort (p : Nat)
  | group (g : Nat)
  | denob
  | collector
  | fatal
  | kept
deriving DecidableEq, Repr

/-- The unit that Halyard port `n` serves (Table HAL-1, R284). -/
def FUnit.ofPort (n : Nat) : FUnit :=
  if n < 32 then .group n
  else if n < 68 then .core (n - 32)
  else if n < 84 then .site (n - 68)
  else if n < 92 then .stack (n - 84)
  else if n = 93 then .denob
  else if n = 94 then .fatal
  else if n = 95 then .collector
  else if 98 ≤ n ∧ n < 102 then .reachPort (n - 98)
  else .kept

/-- The unit of a source; none for a number the table does not assign. -/
def FUnit.ofSource (s : Nat) : Option FUnit :=
  if s < 0x024 then some (.core s)
  else if s < 0x040 then none
  else if s < 0x260 then some (.bank (s - 0x040))
  else if s < 0x270 then none
  else if s < 0x278 then some (.stack (s - 0x270))
  else if s < 0x280 then none
  else if s < 0x380 then some (.channel ((s - 0x280) / 32) ((s - 0x280) % 32))
  else if s < 0x400 then some (.laneGroup ((s - 0x380) / 8) ((s - 0x380) % 8))
  else if s < 0x800 then some (.siteCore ((s - 0x400) / 64) ((s - 0x400) % 64))
  else if s < 0x810 then some (.site (s - 0x800))
  else if s < 0x830 then some (.reachLane ((s - 0x810) / 8) ((s - 0x810) % 8))
  else if s < 0x834 then some (.reachPort (s - 0x830))
  else if s < 0x840 then none
  else if s < 0x860 then some .fatal
  else if s < 0x8C9 then some (FUnit.ofPort (s - 0x860))
  else if s < 0x900 then none
  else if s = 0x900 then some .denob
  else if s = 0x901 ∨ s = 0x903 then some .fatal
  else if s = 0x909 then some .collector
  else if s ≤ 0x90A then some .kept
  else if s < 0x910 then none
  else if s < 0x964 then some .fatal
  else none

/-- The partition that holds a unit. -/
def Block.unitPart (b : Block) : FUnit → Option Nat
  | .core c => match b.posOf c with
    | some k => b.posHolder k
    | none => none
  | .bank p => match b.bankServed p with
    | some lb => b.groupHolder (lb / 16)
    | none => b.groupHolder (p / 17)
  | .group g => b.groupHolder g
  | .laneGroup s _ => b.siteHolder s
  | .siteCore s _ => b.siteHolder s
  | .site s => b.siteHolder s
  | _ => none

/-! ### Buckets (R327) -/

def Block.bucket (b : Block) (src : Nat) : List (Nat × Nat) := SMap.get (fun _ => []) b.fc.buckets src

/-- Put a source's bucket; LEVEL shows its events. -/
def Block.setBucket (b : Block) (src : Nat) (l : List (Nat × Nat)) : Block :=
  let b := { b with fc := { b.fc with buckets := SMap.put (fun _ => []) b.fc.buckets src l } }
  b.wr (Reg.FC_BUCKET.LEVEL src) (min 63 (l.map fun e => e.2).sum)

def Bucket.sum (l : List (Nat × Nat)) : Nat := (l.map fun e => e.2).sum

/-- `count` events enter the bucket and leave it WINDOW_MS later. -/
def Block.bucketAdd (b : Block) (src count : Nat) : Block :=
  b.setBucket src (b.bucket src ++ [(b.now + msToCycles (b.rd (Reg.FC_BUCKET.WINDOW_MS src)), count)])

def Block.struck (b : Block) (src : Nat) : Bool := b.is (Reg.FC_BUCKET.STRUCK src)

/-- A unit is struck: its bucket is emptied and it is entered in the Field-defect log. -/
def Block.markStruck (b : Block) (src : Nat) : Block :=
  ((b.wr (Reg.FC_BUCKET.STRUCK src) 1).setBucket src []).defect src 2

/-! ### Strikes (R330, Table FLT-5) -/

/-- What an action answers: what it still runs, and the source of the spare it brought in. -/
abbrev Acted := Block × List FWait × Option Nat

/-- Every formed partition that holds a region is degraded by a LOST channel (R343). -/
def Block.channelDegrades (b : Block) : Block :=
  ((List.range 32).filter fun p => b.formed p && decide ((b.part p).regions ≠ 0)).foldl (fun b p => b.degradedRecord p) b

/-- R331: the core is fenced; the position it holds moves. -/
def Block.strikeCore (b : Block) (c id : Nat) (home : Option (List Nat)) : Acted :=
  let pos := b.posOf c
  let b := b.wr (Reg.MH_CORE_STATE.STATE c) 1
  match pos with
  | some k => (b.requestRecovery (.core c k home) (some id), [.recovery], none)
  | none => (b, [], none)

/-- R32–R34. -/
def Block.strikeBankUnit (b : Block) (p : Nat) : Acted :=
  let lb := b.bankServed p
  match b.strikeBank (fun g => b.groupHolder g) p with
  | (b, some sp) => (b, (lb.map fun l => FWait.copy l).toList, some (Src.bank sp))
  | (b, none) => match lb with
    | none => (b, [], none)
    | some l => match b.groupHolder (l / 16) with
      | some q => ((b.degradedRecord q).partStates, [], none)
      | none => (b, [], none)

/-- R51–R53. -/
def Block.strikeChannelUnit (b : Block) (n ch : Nat) : Acted :=
  let lk := b.channelServed n ch
  match b.strikeQueued n ch with
  | (b, some sp) => (b, (lk.map fun l => FWait.rebuild l.1 l.2).toList, some (Src.channel sp.1 sp.2))
  | (b, none) => match lk with
    | some _ => (b.channelDegrades.partStates, [], none)
    | none => (b, [], none)

/-- Each channel of a stack that is trained and not struck, in ascending order. -/
def Block.strikeStack (b : Block) (n : Nat) : Acted :=
  ((List.range 32).filter fun ch => b.is (Reg.HM_STACK_INFO.TRAINED n) && !b.struck (Src.channel n ch)).foldl (fun (acc : Acted) ch =>
    let r := (acc.1.markStruck (Src.channel n ch)).strikeChannelUnit n ch
    (r.1, acc.2.1 ++ r.2.1, acc.2.2.or r.2.2)) (b, [], none)

/-- R333; a core that a recovery is bringing in gives way to the next (R342). -/
def Block.strikeSiteCore (b : Block) (s phys id : Nat) : Acted :=
  match b.fc.unfences.find? fun u => decide (u.site = s) && decide (u.phys = phys) with
  | some u =>
    let b := { b with fc := { b.fc with unfences := b.fc.unfences.filter fun x => x ≠ u } }
    ((b.nextSiteCore s u.logical).recoveriesAdvance, [], none)
  | none =>
    if (b.logicalOf s phys).isNone then (b, [], none)
    else (b.requestRecovery (.siteCore s phys) (some id), [.recovery], none)

/-- R345: a device-fatal event; recoveries end (R346). Where the root clock itself has failed nothing is reported. -/
def Block.deviceFatal (b : Block) (clock : Bool) : Block :=
  let b := { b with fc := { b.fc with recoveries := [], unfences := [] }, dn := { b.dn with restarting := false } }
  if b.is Reg.MH_STATUS.DEVICE_FATAL then b
  else
    let b := b.wr Reg.MH_STATUS.DEVICE_FATAL 1
    let b := { b with fc := { b.fc with fatalAt := some b.now } }
    if clock then b else b.aer 0 Aer.uncorrectedInternal

/-- Strike the unit of source `src` for record `id`. -/
def Block.strike (b : Block) (src id : Nat) (home : Option (List Nat)) : Acted :=
  match FUnit.ofSource src with
  | none => (b, [], none)
  | some u =>
    let mark (b : Block) : Block := b.markStruck src
    match u with
    | .core c => (mark b).strikeCore c id home
    | .bank p => (mark b).strikeBankUnit p
    | .stack n => (mark b).strikeStack n
    | .channel n ch => (mark b).strikeChannelUnit n ch
    | .laneGroup s g =>
      if Site.stacked s then
        if 4 ≤ g then (b, [], none) else ((mark b).retireGroup s g, [], none)
      -- the runtime lane test of R161 retires the half that fails it
      else (((b.setBucket src []).defect src 2).moduleRetrain s (g / 2), [], none)
    | .siteCore s phys => (mark b).strikeSiteCore s phys id
    | .site s => ((mark b).siteReset s 5, [], none)
    | .reachLane p l => ((mark b).rchRetire p l, [], none)
    | .reachPort p => ((mark b).rchDown p none, [], none)
    | .group g =>
      let b := (mark b).strikeGroup g
      match b.groupHolder g with
      | some q => ((b.degradedRecord q).partStates, [], none)
      | none => (b, [], none)
    | .denob => ((mark b).dnFail, [], none)
    | .collector => ((mark b).wr Reg.FC_STATUS.SINGLE 1, [], none)
    | .fatal =>
      let clock := decide (src = Src.rootClock)
      let b := (mark b).deviceFatal clock
      let b := if Src.router 0 ≤ src ∧ src < Src.tap 0 then b.wr Reg.HY_STATUS.SPINE_FAULT 1 else b
      ({ b with fc := { b.fc with rootFailed := b.fc.rootFailed || clock } }, [], none)
    | .kept => (b, [], none)

/-! ### The log -/

/-- The two words of Table FLT-1. -/
def Record.word0 (r : Record) : Nat :=
  r.source % 2 ^ 12 + r.kind % 2 ^ 8 * 2 ^ 12 + r.aux % 2 ^ 12 * 2 ^ 20 + r.count % 2 ^ 16 * 2 ^ 32 + r.addr % 2 ^ 16 * 2 ^ 48
def Record.word1 (r : Record) : Nat :=
  r.addr / 2 ^ 16 % 2 ^ 32 + b01 r.pair * 2 ^ 32 + b01 r.injected * 2 ^ 33 + b01 r.noSlice * 2 ^ 34

/-- Write a record to the log, or count it lost; its index with the wrap bit. -/
def Block.logRecord (b : Block) (r : Record) : Block × Option Nat :=
  let head := b.rd Reg.FC_LOG_HEAD.INDEX
  let tail := b.rd Reg.FC_LOG_TAIL.INDEX
  if (tail + 8192 - head) % 8192 = 4096 then (b.count Reg.FC_LOG_LOST.COUNT 1, none)
  else
    let i := tail % 4096
    let over' (o : OpenRecord) : OpenRecord :=
      match o.index with
      | some j => if j % 4096 = i then { o with index := none } else o
      | none => o
    let b := { b with fc := { b.fc with opened := b.fc.opened.map over' } }
    let b := (b.wr (Reg.FC_LOG00.PENNANT i) r.word0).wr (Reg.FC_LOG08.PENNANT i) r.word1
    let b := b.wr (Reg.FC_LOG10.TIME i) (nsOf b.now)
    let b := (b.setWord (Reg.FC_LOG18.REPLACEMENT i).off 0).wr (Reg.FC_LOG18.REPLACEMENT i) 0xFFF
    (b.wr Reg.FC_LOG_TAIL.INDEX ((tail + 1) % 8192), some tail)

/-! ### Reactions (R326) -/

def React.LOG : Nat := 0
def React.STRIKE : Nat := 1
def React.STRIKE_AUX : Nat := 2
def React.RESET_PARTITION : Nat := 3
def React.RESET_COHERENT : Nat := 4
def React.RESTART : Nat := 5
def React.DEVICE_FATAL : Nat := 6

/-- The source of the unit that AUX names as a producer. -/
def Block.producerUnit (b : Block) (aux : Nat) : Option Nat :=
  if aux < 0x060 then b.coreOf (aux % 32)
  else if aux = 0x080 then some Src.denob
  else if aux = 0x081 then some Src.security
  else if 0x400 ≤ aux ∧ aux < 0x800 then some aux
  else none

/-- How a record is judged: its target, whether the fault is permanent, the action that runs, and whether the record waits
for acknowledgement. -/
structure Verdict where
  target : Nat
  permanent : Bool
  action : Nat
  ack : Bool
  irq : Bool
deriving DecidableEq, Repr

/-- Steps 2 and 3 of R326, with the target's bucket. -/
def Block.judge (b : Block) (r : Record) : Block × Verdict :=
  let act := b.rd (Reg.FC_REACT.ACTION r.kind)
  let ack := b.is (Reg.FC_REACT.ACK r.kind)
  let irq := b.is (Reg.FC_REACT.IRQ r.kind)
  match (if act = React.STRIKE_AUX then b.producerUnit r.aux else some r.source) with
  | none => (b, ⟨r.source, false, React.LOG, true, irq⟩)
  | some t =>
    if b.struck t then (b, ⟨t, false, React.LOG, false, false⟩)
    else
      let bucket := b.rd (Reg.FC_REACT.BUCKET r.kind)
      let b := if bucket = 1 then b.bucketAdd t r.count else b
      let full : Bool := decide (b.rd (Reg.FC_BUCKET.THRESHOLD t) ≤ Bucket.sum (b.bucket t))
      let permanent : Bool := decide (bucket = 2) || (decide (bucket = 1) && full)
      let runs : Bool := decide (bucket = 0) || permanent || decide (act = React.RESTART)
      let strikes : Bool := decide (act = React.STRIKE) || decide (act = React.STRIKE_AUX)
      let kept : Bool := FUnit.ofSource t = some .kept
      if !runs then (b, ⟨t, false, React.LOG, ack, irq⟩)
      else if strikes && kept then (b, ⟨t, permanent, React.LOG, true, irq⟩)
      else
        -- a device-fatal event's record, and that of a collector left on one controller, wait for acknowledgement
        let fatal : Bool := decide (act = React.DEVICE_FATAL) || (strikes && decide (FUnit.ofSource t = some .fatal))
        let one : Bool := decide (FUnit.ofSource t = some .collector) && permanent && decide (act = React.RESTART)
        (b, ⟨t, permanent, act, ack || fatal || one, irq⟩)

/-- The partitions that own a coherent window. -/
def Block.coherentParts (b : Block) : List Nat :=
  (((List.range 16).filter fun n => b.is (Reg.CO_WIN00.VALID n)).map fun n => b.rd (Reg.CO_WIN00.PARTITION n)).eraseDups

/-- RESTART (R256, R325). -/
def Block.restart (b : Block) (v : Verdict) (id : Nat) : Acted :=
  match FUnit.ofSource v.target with
  | some .denob =>
    if v.permanent then ((b.markStruck v.target).dnFail, [], none)
    else
      let b := (b.wr Reg.DN_STATUS.RUNNING 0).count Reg.DN_STATUS.RESTARTS 1
      let b := { b with dn := { b.dn with restarting := true } }
      (b.requestRecovery .denob (some id), [.denob, .recovery], none)
  | some .collector =>
    if v.permanent then ((b.markStruck v.target).wr Reg.FC_STATUS.SINGLE 1, [], none)
    else ({ b with fc := { b.fc with restarting := some b.now } }, [.collector], none)
  | _ => (b, [], none)

/-- Step 4 of R326. -/
def Block.act (b : Block) (v : Verdict) (id : Nat) (home : Option (List Nat)) : Acted :=
  if v.action = React.STRIKE ∨ v.action = React.STRIKE_AUX then b.strike v.target id home
  else if v.action = React.RESET_PARTITION then
    match (FUnit.ofSource v.target).bind b.unitPart with
    | some p => (b.startPartReset p false, [.part p], none)
    | none => (b, [], none)
  else if v.action = React.RESET_COHERENT then
    let ps := b.coherentParts
    (ps.foldl (fun b p => b.startPartReset p false) b, ps.map fun p => FWait.part p, none)
  else if v.action = React.RESTART then b.restart v id
  else if v.action = React.DEVICE_FATAL then (b.deviceFatal false, [], none)
  else (b, [], none)

/-- Whether an action is LOG for its target: nothing to run. -/
def Block.onlyLogs (b : Block) (v : Verdict) : Bool :=
  decide (v.action = React.LOG)
    || (decide (v.action = React.RESET_PARTITION) && ((FUnit.ofSource v.target).bind b.unitPart).isNone)

/-- Handle one record (R326); `home` tells whether a struck core's sync home raised the fault, and which of its objects can
then not be read (R332). -/
def Block.handleRecord (b : Block) (r : Record) (home : Option (List Nat)) : Block :=
  let b := b.count Reg.FC_RECORDS.COUNT 1
  let b := if r.injected then b.wr Reg.FC_INJECT_STATUS.BUSY 0 else b
  match b.logRecord r with
  | (b, idx) =>
    match b.judge r with
    | (b, v) =>
      let logs := b.onlyLogs v
      let id := b.fc.nextRecord
      let b := { b with fc := { b.fc with nextRecord := id + 1 } }
      let b := match idx with
        | none => b
        | some i =>
          let i := i % 4096
          let p := ((FUnit.ofSource v.target).bind b.unitPart).getD 0
          let b := (b.wr (Reg.FC_LOG18.PARTITION i) p).wr (Reg.FC_LOG18.PERMANENT i) (b01 v.permanent)
          (b.wr (Reg.FC_LOG18.ACK_NEEDED i) (b01 v.ack)).wr (Reg.FC_LOG18.ACTION i) (if logs then React.LOG else v.action)
      let b := if v.irq && b.is Reg.FC_LOG_CFG.IRQ_EN then b.msix 0 (b.rd Reg.FC_LOG_CFG.VECTOR) else b
      if logs ∧ !v.ack then
        match idx with
        | some i => b.wr (Reg.FC_LOG18.DONE (i % 4096)) 1
        | none => b
      else
        let o : OpenRecord := ⟨id, idx, v.ack, false, false, [], b.now⟩
        let b := { b with fc := { b.fc with opened := b.fc.opened ++ [o] } }
        match b.act v id home with
        | (b, waits, sp) =>
          let b := match sp with
            | some src => b.replaced id src
            | none => b
          { b with fc := { b.fc with opened := b.fc.opened.map fun x => if x.id = id then { x with waits := waits } else x } }

/-- RECORD_HANDLE: the record at the head of the input queue, once it has been sent and no restart runs. -/
def Block.takeRecord (b : Block) (home : Option (List Nat)) : Block :=
  match b.fc.inQ with
  | [] => b
  | r :: rest =>
    if b.fc.restarting.isSome ∨ b.now < r.sent then b
    else
      let b := ({ b with fc := { b.fc with inQ := rest } } : Block).handleRecord r home
      -- a lost site's serving slice replays over the sites that are left (R334)
      let b := if r.kind = Kind.SITE_LOST then
          (match FUnit.ofSource r.source with
          | some (.site s) => match b.siteHolder s with
            | some p => if (b.servingOf p).isEmpty then b else b.requestRecovery (.site s) none
            | none => b
          | _ => b)
        else b
      b.recoveriesAdvance.recordsSettle

end Sys2Proof.Machine
end

