-- ==== Sys2Proof/Machine/RegOps.lean ====
section
/-! DEFINITION. A write to the register space: by field type, width and limits (R4–R9), with the boot seal (R23), the
image's bounds (R21), and the conditions that the registers' own tables state. What a write of a field with a row of its own
starts is that row's; the store keeps such a field. -/

namespace Sys2Proof.Machine

/-- What a field's write must know: the block before it, who writes, and where. -/
structure RegAccess where
  boot : Bool
  off : Nat
  size : Nat
  v : Nat
deriving DecidableEq, Repr

def RegAccess.hits (a : RegAccess) (f : Fld) : Bool := (Reg.written f a.off a.size a.v).isSome

/-- Keep a field, or a whole register, as it was before the write. -/
def Block.keep (b b0 : Block) (f : Fld) : Block := b.wr f (b0.rd f)
def Block.keepWord (b b0 : Block) (off : Nat) : Block := b.setWord off (b0.word off)

def Block.tuneClamp (b : Block) : Block := b.wr Reg.MH_STATUS.TUNE_CLAMP 1

/-- R21: a written field within bounds that the image sets. -/
def Block.bound (b : Block) (a : RegAccess) (f : Fld) (lo hi : Nat) : Block :=
  let v := b.rd f
  if !a.hits f then b
  else if v < lo then (b.wr f lo).tuneClamp
  else if hi < v then (b.wr f hi).tuneClamp
  else b

/-- R9 alone. -/
def Block.limit (b : Block) (a : RegAccess) (f : Fld) (lo hi : Nat) : Block :=
  if a.hits f then b.wr f (max lo (min (b.rd f) hi)) else b

/-! ### Locks of a TDI (R306) -/

/-- The function whose TDI locks a register: a VF's window, or the frame of a slice of its partition. -/
def Block.tdiOf (b : Block) (o : Nat) : Option Nat :=
  if 0x1030000 ≤ o ∧ o < 0x1034000 then some ((o - 0x1030000) / 0x200 + 1)
  else if 0xd001000 ≤ o ∧ o < 0xe000000 then some (b.slicePart ((o - 0xd000000) / 0x1000) + 1)
  else none

def Block.tdiState (b : Block) (fn : Nat) : Nat := b.rd (Reg.EP_FN_STATUS.TDI_STATE fn)

/-- A locked write: counted, and the TDI goes to ERROR. -/
def Block.tdiError (b : Block) (fn : Nat) : Block :=
  let b := (b.wr (Reg.EP_FN_STATUS.TDI_STATE fn) 3).count Reg.EP_IN_UR.COUNT 1
  (b.epLog 7 fn 0 0).revoke fn

/-! ### Each block's conditions -/

/-- SL frames (03, 12). -/
def Block.fixSlice (b b0 : Block) (o : Nat) : Block :=
  let sl := (o - 0xd000000) / 0x1000
  let e := (o - 0xd000000) % 0x1000
  let q := (e - 0x100) / 0x40
  let st := b0.sliceState sl
  if e = 0 then
    if st = Slice.FREE then b else (b.keep b0 (Reg.SL_CFG.PASID sl)).keep b0 (Reg.SL_CFG.PARTITION sl)
  else if e = 0x10 then (if st = Slice.FREE then b else b.clampActive sl).partStatus (b.slicePart sl)
  else if 0x40 ≤ e ∧ e < 0xC0 then
    if st = Slice.FREE ∨ st = Slice.FROZEN then b else b.keepWord b0 o
  else if 0x100 ≤ e ∧ e < 0x200 then
    let b := if e % 0x40 < 0xC ∧ b0.is (Reg.SL_Q_CTRL.ENABLE sl q) then b.keepWord b0 o
      else if e % 0x40 = 8 then b.wr ⟨(Reg.SL_Q_CFG.ENSIGN_MASK sl q).off, 13, 1⟩ 0
      else b
    if e % 0x40 = 0xC then (b.keep b0 (Reg.SL_Q_CTRL.ENABLE sl q)).keep b0 (Reg.SL_Q_CTRL.PAUSE sl q) else b
  else if e = 0x210 then b.keep b0 (Reg.SL_CRING_HEAD.INDEX sl)
  else if e = 0x240 then
    if (b0.slice sl).reached.isEmpty then b
    else (b.keep b0 (Reg.SL_MARK_CFG.QMASK sl)).modSlice sl fun v => { v with qmaskNext := some (b.rd (Reg.SL_MARK_CFG.QMASK sl)) }
  else b

/-- Denob's registers (11). -/
def Block.fixDenob (b b0 : Block) (o : Nat) : Block :=
  if o = 0xe000018 then (if b0.is Reg.DN_PLAN_CTRL.BUSY then b.keepWord b0 o else b)
  else if 0xe001000 ≤ o ∧ o < 0xe001400 then
    let p := (o - 0xe001000) / 0x20
    let act := (b0.dnPart p).active
    let w := (o - 0xe001000) % 0x20
    if w = 8 then
      if act.any fun r => r.pages.any fun k => b.rd (Reg.DN_PART_CFG08.KV_PAGES p) ≤ k then b.keepWord b0 o else b
    else if w = 0x10 then
      let big (i : Nat) : Bool := match SMap.get (fun _ => none) (b0.dnPart p).slots i with
        | some s => decide (b.rd (Reg.DN_PART_CFG10.ADAPTER_SLOT_BYTES p) * 4096 < s.size)
        | none => false
      if act.any fun r => match r.slot with
          | some i => decide (b.rd (Reg.DN_PART_CFG10.ADAPTER_SLOTS p) ≤ i) || big i
          | none => false then b.keepWord b0 o else b
    else b
  else if 0xe010000 ≤ o then
    let n := (o - 0xe010000) / 0x40
    let b := if (o - 0xe010000) % 0x40 ≤ 0x1C ∧ b0.is (Reg.DN_SLICE18.EN n) then b.keepWord b0 o else b
    b.keep b0 (Reg.DN_SLICE18.EN n)
  else b

/-- Halyard's ceilings and regulators (R279, R280). -/
def Block.fixHalyard (b b0 : Block) (a : RegAccess) (o : Nat) : Block :=
  if o < 0x7010000 then b
  else
    let port := (o - 0x7010000) / 0x80
    let e := (o - 0x7010000) % 0x80
    if e = 0x10 then
      (List.range 8).foldl (fun b k =>
        if k = 0 then b
        else
          let b := b.bound a (Reg.HY_CEIL.CEIL port k) 0 (b.rd (Reg.HY_CEIL_MAX.CEIL port k))
          if (b.rd (Reg.HY_ENS.PERMIT port)).testBit k then b.limit a (Reg.HY_CEIL.CEIL port k) 1 255 else b) b
    else if 0x28 ≤ e ∧ e < 0x60 then
      let k := e / 8 - 4
      let top := b.rd (Reg.HY_REG.RATE_MAX port k)
      if top = 0 then b.wr (Reg.HY_REG.TOKENS port k) 0
      else
        let b := b.bound a (Reg.HY_REG.RATE port k) 0 top
        if b0.rd (Reg.HY_REG.RATE_MAX port k) = 0 then b.setTokens port k (b.hyBurst port k)
        else if (b.hyBurst port k : Int) < b.hyTokens port k then b.setTokens port k (b.hyBurst port k)
        else b
    else b

/-- The collector's registers (16). -/
def Block.fixFault (b b0 : Block) (a : RegAccess) (o : Nat) : Block :=
  if o = 0x9000010 then b.keep b0 Reg.FC_LOG_HEAD.INDEX
  else if o = 0x9000300 then (if b0.is Reg.FC_RESTORE.BUSY then b.keepWord b0 o else b)
  else if 0x9001000 ≤ o ∧ o < 0x9001400 then (if b0.is (Reg.FC_REACT.FIXED ((o - 0x9001000) / 4)) then b.keepWord b0 o else b)
  else if 0x9020000 ≤ o ∧ o < 0x9024000 then
    let n := (o - 0x9020000) / 4
    let lo := b.rd Reg.FC_BUCKET_BOUNDS.THR_MIN
    let wlo := b.rd Reg.FC_BUCKET_BOUNDS.WIN_MIN_MS
    let b := b.bound a (Reg.FC_BUCKET.THRESHOLD n) lo (max lo (b.rd Reg.FC_BUCKET_BOUNDS.THR_MAX))
    b.bound a (Reg.FC_BUCKET.WINDOW_MS n) wlo (max wlo (b.rd Reg.FC_BUCKET_BOUNDS.WIN_MAX_MS))
  else b

/-- Power, clock and thermal registers (19). -/
def Block.fixPower (b b0 : Block) (a : RegAccess) (o : Nat) : Block :=
  if o = 0xb000000 then b.limit a Reg.PW_CFG.PKG_W (b.rd Reg.PW_CFG.HUB_W) 4095
  else if 0xb000100 ≤ o ∧ o < 0xb000200 then
    let s := (o - 0xb000100) / 0x10
    let lo := b.rd Reg.PW_HM_BOUNDS.MIN_C
    if s < 12 then b.bound a (Reg.PW_SITE_CFG.HM_C s) lo (max lo (b.rd Reg.PW_HM_BOUNDS.MAX_C)) else b
  else if 0xb001100 ≤ o ∧ o < 0xb001500 then
    let i := (o - 0xb001100) / 4
    let d := signed (b.rd (Reg.CK_CAL.DELTA i)) 12
    let m : Int := b.rd (Reg.CK_CAL.BOUND i)
    if 212 ≤ i then b.keepWord b0 o
    else if d = signed (b0.rd (Reg.CK_CAL.DELTA i)) 12 then b
    else if m < d then (b.wr (Reg.CK_CAL.DELTA i) (toBits m 12)).wr Reg.PW_STATUS.CAL_CLAMP 1
    else if d < -m then (b.wr (Reg.CK_CAL.DELTA i) (toBits (-m) 12)).wr Reg.PW_STATUS.CAL_CLAMP 1
    else b
  else if o = 0xb002000 then b.limit a Reg.TH_CFG.HUB_THROTTLE_C 70 (b.rd Reg.TH_CFG.TRIP_C - 5)
  else b

/-- A peer entry that is rewritten (R318). -/
def Block.fixPeer (b : Block) (o : Nat) : Block :=
  let n := (o - 0xc810000) / 0x20
  if (o - 0xc810000) % 0x20 = 0 ∧ b.is (Reg.RCH_PEER00.VALID n) then
    { b.wr (Reg.RCH_PEER00.ON_ALT n) 0 with reach := { b.reach with rewrites := NSet.insert n b.reach.rewrites } }
  else b

/-- What the register's own table adds to the store of the register at `o`. -/
def Block.regFix (b b0 : Block) (a : RegAccess) (o : Nat) : Block :=
  if o = Reg.MH_BOOT_SEAL.SEAL.off then b.keepWord b0 o
  else if o = Reg.SH_FILL_BASE.BLOCK.off then (if b0.is Reg.SH_FILL_CTRL.BUSY then b.keepWord b0 o else b)
  else if o = Reg.SH_FILL_CTRL.COUNT.off then
    if b0.is Reg.SH_FILL_CTRL.BUSY then b.keepWord b0 o
    else b.limit a Reg.SH_FILL_CTRL.COUNT 1 (131072 - b.rd Reg.SH_FILL_BASE.BLOCK)
  else if 0x4000000 ≤ o ∧ o < 0x5000000 then
    if o % 0x100000 = 8 then b.keep b0 (Reg.ST_CTRL.CLK_HOLD ((o - 0x4000000) / 0x100000)) else b
  else if 0x5000000 ≤ o ∧ o < 0x5800000 ∧ o % 0x100000 = 0x100 then
    let n := (o - 0x5000000) / 0x100000
    b.wr (Reg.HM_RQ_CFG.WR_LOW n) (min (b.rd (Reg.HM_RQ_CFG.WR_LOW n)) (b.rd (Reg.HM_RQ_CFG.WR_HIGH n) - 4))
  else if 0x7000000 ≤ o ∧ o < 0x8000000 then b.fixHalyard b0 a o
  else if o = Reg.CO_CFG.HOLD_CYC.off then
    let lo := b.rd Reg.CO_HOLD_BOUNDS.MIN
    b.bound a Reg.CO_CFG.HOLD_CYC lo (max lo (b.rd Reg.CO_HOLD_BOUNDS.MAX))
  else if 0x9000000 ≤ o ∧ o < 0xa000000 then b.fixFault b0 a o
  else if 0xb000000 ≤ o ∧ o < 0xc000000 then b.fixPower b0 a o
  else if 0xc000000 ≤ o ∧ o < 0xc400000 ∧ o % 0x100000 = 0x104 then
    let p := (o - 0xc000000) / 0x100000
    ((b.keep b0 (Reg.RCH_SLOT_CTRL.ATTN_IND p)).keep b0 (Reg.RCH_SLOT_CTRL.PWR_IND p)).keep b0 (Reg.RCH_SLOT_CTRL.PWR_OFF p)
  else if 0xc810000 ≤ o ∧ o < 0xc830000 then b.fixPeer o
  else if 0xd000000 ≤ o ∧ o < 0xe000000 then b.fixSlice b0 o
  else if 0xe000000 ≤ o ∧ o < 0xf000000 then b.fixDenob b0 o
  else if o = Reg.XL_HOT_CFG.LOG2_SIZE.off then (if b0.is Reg.XL_HOT_CFG.EN then b.keep b0 Reg.XL_HOT_CFG.LOG2_SIZE else b)
  else if o = Reg.XL_HOT_HEAD.INDEX.off then b.keepWord b0 o
  else b

/-! ### A re-form (R21, R22, R272 step 5) -/

/-- The register at `off` within the bounds now in force, where `b0` gives those before. -/
def Block.retuneAt (b b0 : Block) (off size : Nat) : Block := b.regFix b0 ⟨false, off, size, b.word off⟩ off

/-- Every tuned value within the bounds of the layout in force; one that exceeds them is clamped and sets TUNE_CLAMP. -/
def Block.retune (b b0 : Block) : Block :=
  let hy := (List.range 105).flatMap fun p => (0x7010010 + 0x80 * p) :: (List.range 7).map fun k => 0x7010028 + 0x80 * p + 8 * k
  let b := hy.foldl (fun b o => b.retuneAt b0 o 8) b
  let words := [Reg.CO_CFG.HOLD_CYC.off, 0xb000000, 0xb002000] ++ (List.range 12).map (fun s => (Reg.PW_SITE_CFG.HM_C s).off)
    ++ (List.range 4096).map fun n => (Reg.FC_BUCKET.THRESHOLD n).off
  words.foldl (fun b o => b.retuneAt b0 o 4) b

/-! ### The write -/

/-- The PF's MSI-X table, and a VF's on its status page: entries of 16 bytes (the base specification's layout, PRESUMED,
assumption 12). -/
def Block.msixEntryWrite (b : Block) (fn o v : Nat) : Block :=
  let k := fn * 2048 + o / 16
  let old := (SMap.get (fun _ => 0) b.ep.msixAddr k).toNat
  let addr (n : Nat) : Block :=
    { b with ep := { b.ep with msixAddr := SMap.put (fun _ => 0) b.ep.msixAddr k (BitVec.ofNat 64 n) } }
  match o % 16 / 4 with
  | 0 => addr (setBits old 0 32 (v / 4 * 4))
  | 1 => addr (setBits old 32 32 v)
  | 2 => { b with ep := { b.ep with msixData := SMap.put (fun _ => 0) b.ep.msixData k (BitVec.ofNat 64 (v % 2 ^ 32)) } }
  | _ =>
    if v % 2 = 1 then { b with ep := { b.ep with msixUnmasked := NSet.erase b.ep.msixUnmasked k } }
    else ({ b with ep := { b.ep with msixUnmasked := NSet.insert k b.ep.msixUnmasked } } : Block).msixFlush fn

def Block.msixWrite (b : Block) (fn o size v : Nat) : Block :=
  if size = 4 ∧ o % 4 = 0 then b.msixEntryWrite fn o v
  else if size = 8 ∧ o % 8 = 0 then (b.msixEntryWrite fn o (v % 2 ^ 32)).msixEntryWrite fn (o + 4) (v / 2 ^ 32)
  else b

/-- The stored bits of an access: R4–R9, R23, and the registers' own conditions. -/
def Block.regStore (b : Block) (a : RegAccess) : Block :=
  let unsealed := a.boot && !b.is Reg.MH_BOOT_SEAL.SEAL
  let b1 := { b with regs := RegFile.write b.regs unsealed a.off a.size a.v }
  (Reg.parts a.off a.size).foldl (fun b1 p => b1.regFix b a p.1) b1

/-- The partitions whose tuning registers an offset belongs to (R22). -/
def Block.tuneParts (b : Block) (o : Nat) : List Nat :=
  let holds (f : PartRec → Bool) : List Nat := (List.range 32).filter fun p => f (b.part p)
  if 0x2000000 ≤ o ∧ o < 0x4000000 then holds fun r => r.positions.testBit ((o - 0x2000000) / 0x100000)
  else if 0x4000000 ≤ o ∧ o < 0x5000000 then holds fun r => r.sites.testBit ((o - 0x4000000) / 0x100000)
  else if 0xb000100 ≤ o ∧ o < 0xb000200 then holds fun r => r.sites.testBit ((o - 0xb000100) / 0x10)
  else if 0xd001000 ≤ o ∧ o < 0xe000000 then [b.slicePart ((o - 0xd000000) / 0x1000)]
  else if 0xe001000 ≤ o ∧ o < 0xe001400 then [(o - 0xe001000) / 0x20]
  else if 0xe010000 ≤ o ∧ o < 0xe050000 then [b.slicePart ((o - 0xe010000) / 0x40)]
  else []

/-- Registers of a partition's frames that start an operation, or that a consumer keeps, and tune nothing. -/
def Reg.commands (o : Nat) : Bool :=
  let e := o % 0x1000
  if 0x2000000 ≤ o ∧ o < 0x4000000 then decide (o % 0x100000 = 0)
  else if 0x4000000 ≤ o ∧ o < 0x5000000 then decide (o % 0x100000 = 8)
  else if 0xd000000 ≤ o ∧ o < 0xe000000 then
    (decide (0x100 ≤ e) && decide (e < 0x200) && (decide (e % 0x40 = 0xC) || decide (e % 0x40 = 0x18))) || decide (e = 0x210)
      || (decide (0x300 ≤ e) && decide (e < 0x388))
  else decide (0xe010000 ≤ o) && decide (o < 0xe050000) && decide (o % 0x40 = 0x18)

/-- R22: whether a write waits for the re-form under way. -/
def Block.deferred (b : Block) (o : Nat) : Bool :=
  match b.ten.reform with
  | some r => !Reg.commands o && (b.tuneParts o).any fun p => r.changed.contains p
  | none => false

/-- A write to the register space that starts nothing. Any write inside what a TDI locks moves it to ERROR (R306), also one that
R7 or R8 gives no effect (DESIGN CHOICE, assumption 59). -/
def Block.regPut (b : Block) (a : RegAccess) : Block :=
  if !a.boot && b.deferred a.off then
    { b with ten := { b.ten with deferred := b.ten.deferred ++ [(a.off, a.size, a.v)] } }
  else
    let locked : Option Nat := match b.tdiOf a.off with
      | some fn => if !a.boot && decide (1 ≤ b.tdiState fn) && decide (b.tdiState fn ≤ 2) then some fn else none
      | none => none
    match locked with
    | some fn => b.tdiError fn
    | none =>
      if 0x1008000 ≤ a.off ∧ a.off < 0x1010000 then b.msixWrite 0 (a.off - 0x1008000) a.size a.v
      else b.regStore a

/-- The writes that waited for a re-form (R22). -/
def Block.putDeferred (b : Block) : Block :=
  b.ten.deferred.foldl (fun b d => b.regPut ⟨false, d.1, d.2.1, d.2.2⟩) { b with ten := { b.ten with deferred := [] } }

end Sys2Proof.Machine
end

