-- ==== Sys2Proof/Machine/Tenancy.lean ====
section
/-! DEFINITION. The tenancy commands (12). -/

namespace Sys2Proof.Machine

/-- Whether a slice operation may not name a slice: it is the manager's, or its partition is empty (R259, R260). -/
def Block.badTarget (b : Block) (sl : Nat) : Bool := decide (sl = 0) || b.partEmpty (b.slicePart sl)

/-! ### Open, reset, release -/

/-- What a successful OPEN does (R261, R265). -/
def Block.openAs (b : Block) (sl : Nat) : Block :=
  let r := b.drbgKey
  let b := ((r.1.setSliceKey sl (some r.2)).clampActive sl).nextGen sl
  let b := b.setWord (Reg.SL_MARK_STATUS.EPOCH sl).off 0
  let b := b.wr (Reg.SL_HANDLE_STATUS.GEN_LO sl) (b.gen sl % 16)
  (b.xlatDropSlice sl).setSliceState sl Slice.OPEN

/-- OPEN (R261): the first check that fails gives the status. -/
def Block.openCheck (b : Block) (sl : Nat) : Status :=
  let p := b.slicePart sl
  if b.badTarget sl then Code.TEN_BAD_ARG
  else if b.sliceState sl ≠ Slice.FREE then Code.TEN_BAD_STATE
  else if b.liveSlices.any fun s => decide (b.fnOf s = b.fnOf sl) && decide (b.pasid s = b.pasid sl) then Code.TEN_PASID_IN_USE
  else if (b.part p).openSlices ≤ (b.partSlices p).length then Code.TEN_QUOTA
  else if b.rd (Reg.SL_QUOTA.HANDLES sl) = 0 ∨ b.rd (Reg.SL_QUOTA.XFER_SLOTS sl) = 0 then Code.TEN_BAD_ARG
  else Code.SUCCESS

def Block.opOpen (b : Block) (sl : Nat) : Block :=
  let st := b.openCheck sl
  ((if st = Code.SUCCESS then b.openAs sl else b).mgrOp 1 sl).mgrResult st 0

def execOpenSlice (slice : SliceNo) (s : State) : Host.Outcome State Fault Refusal :=
  .next (s.upd fun b => b.opOpen slice)

/-- RESET (R267, Table TEN-1). -/
def Block.opReset (b : Block) (sl : Nat) : Block :=
  let st := b.sliceState sl
  let done (b : Block) (st : Status) : Block := (b.mgrOp 2 sl).mgrResult st 0
  if b.badTarget sl then done b Code.TEN_BAD_ARG
  else if st = Slice.RESETTING then done b Code.SUCCESS
  else if st = Slice.OPEN ∨ st = Slice.FREEZING ∨ st = Slice.FROZEN then done (b.startReset sl Code.TEN_SLICE_RESET) Code.SUCCESS
  else done b Code.TEN_BAD_STATE

def execResetSlice (slice : SliceNo) (s : State) : Host.Outcome State Fault Refusal :=
  .next (s.upd fun b => b.opReset slice)

/-- SLICE_RESET_COMPLETE (R267): every CANCEL is answered or given up. -/
def execSliceResetComplete (slice : SliceNo) (s : State) : Host.Outcome State Fault Refusal :=
  .next (s.upd fun b =>
    if b.sliceState slice = Slice.RESETTING ∧ !b.endsOut slice then (b.finishReset slice).flrSettle else b)

/-- RELEASE (R268, Table TEN-1). -/
def Block.opRelease (b : Block) (sl : Nat) : Block :=
  let st := b.sliceState sl
  let over' := b.is Reg.SL_MGR_ARG1.OVERWRITE
  let done (b : Block) (st : Status) : Block := (b.mgrOp 5 sl).mgrResult st 0
  if b.badTarget sl then done b Code.TEN_BAD_ARG
  else if st = Slice.RELEASING then done b Code.SUCCESS
  else if st = Slice.RESETTING then done (b.modSlice sl fun v => { v with releasing := some over' }) Code.SUCCESS
  else if st = Slice.OPEN ∨ st = Slice.FREEZING ∨ st = Slice.FROZEN ∨ st = Slice.RESTORING then
    done ((b.endSliceOp sl Code.TEN_ABORTED Journal.ABORTED 0).startRelease sl over') Code.SUCCESS
  else done b Code.TEN_BAD_STATE

def execRelease (slice : SliceNo) (s : State) : Host.Outcome State Fault Refusal :=
  .next (s.upd fun b => b.opRelease slice)

/-- RELEASE_DONE (R268). -/
def Block.releaseDone (b : Block) (sl : Nat) : Block :=
  match (b.slice sl).releasing with
  | some wipe => if b.sliceState sl = Slice.RELEASING ∧ !b.endsOut sl then b.finishRelease sl wipe else b
  | none => b

def execReleaseDone (slice : SliceNo) (s : State) : Host.Outcome State Fault Refusal :=
  .next (s.upd fun b => b.releaseDone slice)

/-! ### Freeze and thaw (R269) -/

def Block.opFreeze (b : Block) (sl : Nat) : Block :=
  let done (b : Block) (st : Status) : Block := (b.mgrOp 3 sl).mgrResult st 0
  if b.badTarget sl then done b Code.TEN_BAD_ARG
  else if b.sliceState sl ≠ Slice.OPEN then done b Code.TEN_BAD_STATE
  else
    let b := b.modSlice sl fun v => { v with freeze := some ⟨b.now⟩ }
    let b := (b.wr (Reg.SL_FREEZE_STATUS.RUNNING sl) 1).wr (Reg.SL_FREEZE_STATUS.VALID sl) 0
    done (b.setSliceState sl Slice.FREEZING) Code.SUCCESS

def execFreeze (slice : SliceNo) (s : State) : Host.Outcome State Fault Refusal :=
  .next (s.upd fun b => b.opFreeze slice)

def execFreezeDrainComplete (slice : SliceNo) (s : State) : Host.Outcome State Fault Refusal :=
  .next (s.upd fun b => if b.sliceState slice = Slice.FREEZING ∧ b.drained slice then b.frozen slice else b)

def execFreezeWaitTimeout (slice : SliceNo) (s : State) : Host.Outcome State Fault Refusal :=
  .next (s.upd fun b => b.freezeTimeout slice)

/-- THAW (R269, R273). -/
def Block.opThaw (b : Block) (sl : Nat) : Block :=
  let done (b : Block) (st : Status) : Block := (b.mgrOp 4 sl).mgrResult st 0
  if b.badTarget sl then done b Code.TEN_BAD_ARG
  else if b.sliceState sl ≠ Slice.FROZEN ∨ (b.slice sl).op.isSome then done b Code.TEN_BAD_STATE
  else done (b.setSliceState sl Slice.OPEN) Code.SUCCESS

def execThaw (slice : SliceNo) (s : State) : Host.Outcome State Fault Refusal :=
  .next (s.upd fun b => b.opThaw slice)

/-! ### Save and restore (R270, R271) -/

/-- The key of the migration slot ARG1.KEY_SLOT. -/
def Block.migrationKey (b : Block) (s : Nat) : Option Nat := SMap.get (fun _ => none) b.keys.slot s

/-- Start a SAVE or RESTORE under a handle of slice 0. -/
def Block.startSliceOp (b : Block) (sl : Nat) (restore : Bool) : Except Status (Block × Nat) :=
  match b.longStart (if restore then Journal.RESTORE else Journal.SAVE) sl with
  | .error st => .error st
  | .ok (b, seq, j) =>
    let o : SliceOp := ⟨restore, b.rd Reg.SL_MGR_ARG0.PTR, b.rd Reg.SL_MGR_ARG1.LENGTH, b.rd Reg.SL_MGR_ARG1.KEY_SLOT, seq, j⟩
    .ok (b.modSlice sl fun v => { v with op := some o }, Handle.number 0 (b.gen 0) seq)

def Block.opSave (b : Block) (sl : Nat) : Block :=
  let b := b.mgrOp 6 sl
  if b.badTarget sl then b.mgrResult Code.TEN_BAD_ARG 0
  else if b.sliceState sl ≠ Slice.FROZEN ∨ (b.slice sl).op.isSome then b.mgrResult Code.TEN_BAD_STATE 0
  else if !Sec.ptrOk (b.rd Reg.SL_MGR_ARG0.PTR) ∨ (b.migrationKey (b.rd Reg.SL_MGR_ARG1.KEY_SLOT)).isNone then
    b.mgrResult Code.TEN_BAD_ARG 0
  else if !(b.slice sl).handles.isEmpty then b.mgrResult Code.TEN_HANDLES_LIVE 0
  else if b.rd Reg.SL_MGR_ARG1.LENGTH
      < Image.size (Image.stateUnits (b.savedReqs sl).length) (b.imagePages sl).length then b.mgrResult Code.TEN_BAD_ARG 0
  else match b.startSliceOp sl false with
    | .error st => b.mgrResult st 0
    | .ok (b, h) => b.mgrResult Code.SUCCESS h

def execSave (slice : SliceNo) (s : State) : Host.Outcome State Fault Refusal :=
  .next (s.upd fun b => b.opSave slice)

def Block.saveDone (b : Block) (sl : Nat) : Block :=
  match (b.slice sl).op with
  | some o =>
    if o.restore then b
    else match b.migrationKey o.keySlot with
      | none => b.endSliceOp sl Code.TEN_ABORTED Journal.ABORTED 0
      | some key => match b.saveImage sl o key with
        | (b, st) =>
          if b.waiting then b
          else b.endSliceOp sl st (if st = Code.SUCCESS then Journal.DONE else Journal.ABORTED) o.units
  | none => b

def execSaveDone (slice : SliceNo) (s : State) : Host.Outcome State Fault Refusal :=
  .next (s.upd fun b => b.settle fun b => b.saveDone slice)

def Block.opRestore (b : Block) (sl : Nat) : Block :=
  let b := b.mgrOp 7 sl
  let p := b.rd Reg.SL_MGR_ARG1.PARTITION
  if sl = 0 ∨ b.partEmpty p then b.mgrResult Code.TEN_BAD_ARG 0
  else if b.sliceState sl ≠ Slice.FREE then b.mgrResult Code.TEN_BAD_STATE 0
  else if !Sec.ptrOk (b.rd Reg.SL_MGR_ARG0.PTR) ∨ (b.migrationKey (b.rd Reg.SL_MGR_ARG1.KEY_SLOT)).isNone then
    b.mgrResult Code.TEN_BAD_ARG 0
  else match b.startSliceOp sl true with
    | .error st => b.mgrResult st 0
    | .ok (b, h) => ((b.wr (Reg.SL_CFG.PARTITION sl) p).setSliceState sl Slice.RESTORING).mgrResult Code.SUCCESS h

def execRestore (slice : SliceNo) (s : State) : Host.Outcome State Fault Refusal :=
  .next (s.upd fun b => b.opRestore slice)

/-- A RESTORE that fails releases the slice (R271). -/
def Block.restoreFails (b : Block) (sl : Nat) (st : Status) : Block :=
  (b.endSliceOp sl st Journal.ABORTED 0).startRelease sl false

def Block.restoreDone (b : Block) (sl : Nat) : Block :=
  match (b.slice sl).op with
  | some o =>
    if !o.restore then b
    else match b.migrationKey o.keySlot with
      | none => b.restoreFails sl Code.TEN_IMAGE_BAD
      | some key => match b.loadImage o key with
        | (b, st, v) =>
          if b.waiting then b
          else match v with
            | none => b.restoreFails sl st
            | some v =>
              let pasid := bits (v.word 0) 0 20
              if b.conflict sl (b.slicePart sl) v then b.restoreFails sl Code.TEN_RESTORE_CONFLICT
              else if b.liveSlices.any fun s => decide (s ≠ sl) && decide (b.fnOf s = b.fnOf sl) && decide (b.pasid s = pasid) then
                b.restoreFails sl Code.TEN_PASID_IN_USE
              else match b.takeImage sl v with
                | (b, st) =>
                  if b.waiting then b
                  else if st ≠ Code.SUCCESS then b.restoreFails sl st
                  else ((b.clampActive sl).endSliceOp sl Code.SUCCESS Journal.DONE o.units).setSliceState sl Slice.FROZEN
  | none => b

def execRestoreDone (slice : SliceNo) (s : State) : Host.Outcome State Fault Refusal :=
  .next (s.upd fun b => b.settle fun b => b.restoreDone slice)

/-! ### Partition reset (R260) -/

def execPartitionReset (part : PartNo) (s : State) : Host.Outcome State Fault Refusal :=
  .next (s.upd fun b => ((b.startPartReset part false).mgrOp 8 part).mgrResult Code.SUCCESS 0)

/-- What ends with a partition reset that a Function Level Reset started. -/
def Block.partResetDone (b : Block) (p : Nat) : Block :=
  match b.endPartReset p with
  | none => b
  | some b' =>
    if b'.ten.resets.any fun r => r.part = p then b'
    else b'.flrSettle.recordsSettle

def execPartitionResetDone (part : PartNo) (s : State) : Host.Outcome State Fault Refusal :=
  .next (s.upd fun b => b.partResetDone part)

/-! ### Re-form (R272) -/

def Block.opReform (b : Block) : Block :=
  let b := b.mgrOp 9 (b.rd Reg.SL_MGR_OP.TARGET)
  let l := b.rd Reg.SL_MGR_ARG1.LAYOUT
  let ps := b.changedParts l
  if b.layouts ≤ l then b.mgrResult Code.TEN_BAD_ARG 0
  else if b.reformBusy ps then b.mgrResult Code.TEN_REFORM_BUSY 0
  else match b.longStart Journal.REFORM l with
    | .error st => b.mgrResult st 0
    | .ok (b, seq, j) =>
      let b := { b with ten := { b.ten with reform := some ⟨l, ps, seq, j⟩ } }
      let b := ps.foldl (fun b p => (b.evictPart p).partStatus p) b
      b.mgrResult Code.SUCCESS (Handle.number 0 (b.gen 0) seq)

def execReform (s : State) : Host.Outcome State Fault Refusal :=
  .next (s.upd fun b => b.opReform)

/-- Steps 1 to 6 of R272. -/
def Block.reformTo (b : Block) (l : Nat) (changed : List Nat) : Block :=
  let l0 := b.layout
  let b := changed.foldl (fun b p => (bitList (b.part p).positions 32).foldl (fun b k => b.clearPart p k) b) b
  let b := (b.movedBits l0 l 32 PartRec.groups).foldl (fun b g => b.shelfZero (g * 2 ^ 24) ((g + 1) * 2 ^ 24)) b
  let moved := b.movedBits l0 l 64 PartRec.regions
  let b := moved.foldl (fun b n =>
    let r := b.region n
    b.hbmClearRange (fun q => decide (q.n = n)) false r.base (r.base + r.size)) b
  let b := (b.movedBits l0 l 512 PartRec.syncMask).foldl (fun b k =>
    b.syncZero (Dla.syncBase + 2048 * k) (Dla.syncBase + 2048 * (k + 1))) b
  let b0 := b
  let b := ((b.reformRecords l0 l).retune b0).wr Reg.MH_IMAGE.LAYOUT l
  let b := { b with boot := { b.boot with lastLayout := some (l, b.rd Reg.MH_IMAGE.IMAGE_ID) } }
  -- formed again under the new record (R383); tuning values within its bounds (R21, R265)
  let b := changed.foldl (fun b p => b.formPart p true) b
  let b := changed.foldl (fun b p =>
    let most := (b.partIn l p).activeReq
    (b.partSlices p).foldl (fun b s => if most < b.rd (Reg.SL_QUOTA.ACTIVE_REQ s) then b.clampActive s else b) b) b
  let b := changed.foldl (fun b p => b.resetSeen (p + 1)) b
  b.partStates

def Block.reformDone (b : Block) : Block :=
  match b.ten.reform with
  | none => b
  | some r =>
    let b := r.changed.foldl (fun b p => b.evictPart p) b
    if r.changed.any fun p => !(b.partLines p).isEmpty then b
    else
      let b := b.reformTo r.layout r.changed
      let b := { b with ten := { b.ten with reform := none } }
      let b := r.changed.foldl (fun b p => b.partStatus p) b
      let b := (b.journalPhase r.journal 6 r.changed.length).journalEnd r.journal Journal.DONE Code.SUCCESS
      (b.endHandle 0 r.seq Code.SUCCESS 0).putDeferred

def execReformDone (s : State) : Host.Outcome State Fault Refusal :=
  .next (s.upd fun b => b.reformDone)

/-! ### Mailboxes (R266) -/

/-- A tenant's write of M0. -/
def Block.mbxMessage (b : Block) (sl m0 : Nat) : Block :=
  let v := b.slice sl
  if v.outBusy ∨ 0x80 ≤ m0 % 256 then b.setSlice sl { v with dropped := true }
  else
    let b := (List.range 8).foldl (fun b i => b.wr (Reg.SL_MBX_IN.WORD sl i) (if i = 0 then m0 else v.mbxOut.getD i 0)) b
    let b := b.setSlice sl { v with outBusy := true }
    (b.wr (Reg.SL_MBX_CTRL.IN_FULL sl) 1).msix 0 (b.rd (Reg.SL_MBX_CTRL.PF_VECTOR sl))

def execMbxMessageSend (slice : SliceNo) (m0 : Word) (s : State) : Host.Outcome State Fault Refusal :=
  .next (s.upd fun b => b.mbxMessage slice m0.toNat)

def Block.mbxAck (b : Block) (sl : Nat) : Block :=
  (b.modSlice sl fun v => { v with outBusy := false }).wr (Reg.SL_MBX_CTRL.IN_FULL sl) 0

def execMbxAck (slice : SliceNo) (s : State) : Host.Outcome State Fault Refusal :=
  .next (s.upd fun b => b.mbxAck slice)

def Block.mbxSend (b : Block) (sl : Nat) : Block :=
  let v := b.slice sl
  if v.inValid then b.wr (Reg.SL_MBX_CTRL.SEND_DROP sl) 1
  else
    let ws := (List.range 8).map fun i => b.rd (Reg.SL_MBX_OUT.WORD sl i)
    (b.setSlice sl { v with mbxIn := ws, inValid := true }).msix (b.fnOf sl) (b.rd (Reg.SL_MBX_CTRL.VF_VECTOR sl))

def execMbxSend (slice : SliceNo) (s : State) : Host.Outcome State Fault Refusal :=
  .next (s.upd fun b => b.mbxSend slice)

def execMbxInClear (slice : SliceNo) (s : State) : Host.Outcome State Fault Refusal :=
  .next (s.upd fun b => b.modSlice slice fun v => { v with inValid := false })

end Sys2Proof.Machine
end

