-- ==== Sys2Proof/Machine/Security.lean ====
section
/-! DEFINITION. The security and life-cycle commands (17). -/

namespace Sys2Proof.Machine

/-! ### Slots (R353–R355) -/

def execSlotGenerate (slot : Fin 4096) (s : State) : Host.Outcome State Fault Refusal :=
  .next (s.upd fun b => b.slotGenerate slot)

/-- SLOT_IMPORT (R355). -/
def execSlotImport (slot : Fin 4096) (s : State) : Host.Outcome State Fault Refusal :=
  .next (s.upd fun b => b.settle fun b => b.slotImport s.fuse slot)

/-- SLOT_CLEAR (R354): installs that write the slot and migrations under it end first. -/
def Block.slotClear (b : Block) (n : Nat) : Block :=
  let b := b.secCmd 3 n
  if !b.keysLive then b.secResult Code.SEC_KEYS_ZEROISED 0
  else if b.slotState n = Slot.EMPTY then b.secResult Code.SEC_SLOT_STATE 0
  else
    let b := b.endInstalls (fun i => i.slot = some n) Code.SEC_INSTALL_ABORTED
    let b := b.slices.foldl (fun b e => match e.2.op with
      | some o => if o.keySlot ≠ n then b
        else if o.restore then b.restoreFails e.1 Code.TEN_ABORTED
        else b.endSliceOp e.1 Code.TEN_ABORTED Journal.ABORTED o.units
      | none => b) b
    (b.setSlot n Slot.EMPTY none).secResult Code.SUCCESS 0

def execSlotClear (slot : Fin 4096) (s : State) : Host.Outcome State Fault Refusal :=
  .next (s.upd fun b => b.slotClear slot)

/-! ### Installs and firmware (R356–R359) -/

def execPkgInstall (s : State) : Host.Outcome State Fault Refusal := .next (s.upd fun b => b.pkgInstall)

/-- INSTALL_UNIT (R357): steps 1 to 4 of the install, or one unit of step 5. -/
def execInstallUnit (nth : Fin 4) (s : State) : Host.Outcome State Fault Refusal :=
  .next (s.upd fun b => b.settle fun b =>
    match b.sec.installs[nth.val]? with
    | none => b
    | some i => match i.units with
      | none => b.installOpen s.fuse i
      | some u => b.installUnit i u)

/-- PKG_INSTALL_DONE (R357 step 6). -/
def execPkgInstallDone (nth : Fin 4) (s : State) : Host.Outcome State Fault Refusal :=
  .next (s.upd fun b =>
    match b.sec.installs[nth.val]? with
    | none => b
    | some i => match i.units with
      | none => b
      | some u => b.installFinish i u)

def execFwStage (s : State) : Host.Outcome State Fault Refusal := .next (s.upd fun b => b.fwStage)

def execFwStageDone (s : State) : Host.Outcome State Fault Refusal :=
  .next (s.upd fun b => b.settle fun b => match b.sec.stage with
    | none => b
    | some g => b.stageDone g)

/-! ### The life cycle (R364, R365) -/

/-- The 256-bit token as LC_TOKEN0–7 were written. -/
def Block.lcToken (b : Block) : List Byte :=
  (List.range 8).flatMap fun i => natLE 4 (SMap.get (fun _ => 0) b.sec.token i).toNat

/-- The command's checks: the transition it starts, or its status (R364). -/
def Block.lcCheck (b : Block) (o : Otp) (t : Fin 4) : Except Status LcStep :=
  let now : Fin 4 := Fin.ofNat 4 (b.rd Reg.LC_STATUS.NEXT)
  if b.is Reg.LC_STATUS.LOCKED then .error Code.LC_LOCKED
  else if b.is Reg.LC_STATUS.COMMITTING then .error Code.LC_BUSY
  else match Lc.transition now t, o.nextStep with
    | some d, some k =>
      if now = 0 ∧ o.digests.any (fun x => x.isNone) then .error Code.LC_BAD_TRANSITION
      else if o.digests.getD d none = some (Config.sha384 b.lcToken) then .ok k
      else .error Code.LC_TOKEN_BAD
    | _, _ => .error Code.LC_BAD_TRANSITION

/-- A failed token: the eighth since cold reset locks (R364). -/
def Block.lcFail (b : Block) : Block :=
  let n := b.rd Reg.LC_STATUS.FAILS + 1
  let b := b.wr Reg.LC_STATUS.FAILS (min n 15)
  if 8 ≤ n then b.wr Reg.LC_STATUS.LOCKED 1 else b

/-- Step 1 of a commit, and what END_OF_LIFE stops at once (R365). -/
def Block.lcStart (b : Block) (k : LcStep) (t : Fin 4) : Block :=
  let b := (b.wr Reg.LC_STATUS.COMMITTING 1).wr Reg.LC_STATUS.NEXT t
  let b := { b with sec := { b.sec with commit := some (k, t) } }
  if t = 3 then b.endInstalls (fun _ => true) Code.SEC_KEYS_ZEROISED else b

/-- LC_TRANSITION (R364). -/
def Block.lcTransition (b : Block) (o : Otp) (t : Fin 4) : Block × Otp :=
  let r := b.lcCheck o t
  let b := (b.wr Reg.LC_CMD.TARGET t)
  let b := { b with sec := { b.sec with token := [] } }
  match r with
  | .error st =>
    let b := b.wr Reg.LC_RESULT.STATUS st
    (if st = Code.LC_TOKEN_BAD then b.lcFail else b, o)
  | .ok k =>
    let o := o.start k t
    (((b.wr Reg.LC_RESULT.STATUS Code.SUCCESS).lcStart k t).showOtp o, o)

def execLcTransition (target : Fin 4) (s : State) : Host.Outcome State Fault Refusal :=
  .next (s.updFuse fun b o => b.lcTransition o target)

/-- LC_COMMIT_DONE (R365): steps 2 to 4. -/
def Block.lcCommitDone (b : Block) (o : Otp) : Block × Otp :=
  match b.sec.commit with
  | none => (b, o)
  | some (k, t) =>
    let r := b.drbg384
    let o := (o.action t r.2).finish k t
    let b := if t = 3 then r.1.eolAction else r.1
    let b := ({ b with sec := { b.sec with commit := none } } : Block).wr Reg.LC_STATUS.COMMITTING 0
    (b.showOtp o, o)

def execLcCommitDone (s : State) : Host.Outcome State Fault Refusal := .next (s.updFuse fun b o => b.lcCommitDone o)

/-! ### Debug (R363, R367) -/

def Block.freshNonce (b : Block) : Block :=
  (List.range 4).foldl (fun b i =>
    let r := b.fresh
    r.1.wr (Reg.SEC_DEBUG_NONCE.WORD i) r.2) b

/-- Whether a grant names this part, the current nonce and level 1, and is signed (R367). -/
def Block.grantOk (b : Block) (d : List Byte) : Bool :=
  let nonce := ((List.range 4).map fun i => b.rd (Reg.SEC_DEBUG_NONCE.WORD i) * 2 ^ (64 * i)).sum
  decide (leAt d 96 8 = b.rd Reg.MH_SERIAL.SERIAL) && decide (leAt d 104 32 = nonce) && decide (leAt d 136 1 = 1)
    && (sliceBytes d 233 23).all (fun x => x = 0)
    && (b.signedBy (sliceBytes d 0 96) (sliceBytes d 0 137) (sliceBytes d 137 96) Reg.SEC_OWNER30.DEBUG none).isNone

/-- A grant in any state but PRODUCTION has no effect. -/
def Block.debugGrant (b : Block) (d : List Byte) : Block :=
  let b' := { b with sec := { b.sec with grant := [] } }
  if b.lc ≠ Lc.PRODUCTION then b'
  else if b.grantOk d then ((b'.wr Reg.SEC_DEBUG.LEVEL 1).wr Reg.SEC_DEBUG.LAST_STATUS Code.SUCCESS).freshNonce
  else (b'.wr Reg.SEC_DEBUG.LAST_STATUS Code.SEC_DEBUG_DENIED).freshNonce

def execDebugGrant (bytes : List Byte) (s : State) : Host.Outcome State Fault Refusal :=
  .next (s.upd fun b => b.debugGrant bytes)

/-- DEBUG_REVOKE (R367). -/
def Block.debugRevoke (b : Block) : Block := if b.lc = Lc.PRODUCTION then b.wr Reg.SEC_DEBUG.LEVEL 0 else b

def execDebugRevoke (s : State) : Host.Outcome State Fault Refusal := .next (s.upd fun b => b.debugRevoke)

end Sys2Proof.Machine
end

