-- ==== Sys2Proof/Machine/BootUnits.lean ====
section
/-! DEFINITION. What bring-up finds of its units and does with them (R370–R373, R377, R380–R383), the boot seal (R23, R38,
R197, R352), and the actions of reconciliation (R389). -/

namespace Sys2Proof.Machine

/-! ### Boot tests (R380, R384) -/

/-- Whether a unit is fenced without a test: its fuse is bad, or its defect is PERMANENT. -/
def Block.fuseBad (b : Block) (src : Nat) : Bool := NSet.has b.boot.fuses.bad src

/-! ### Hub cores (R371, R381) -/

/-- A wave's cores are powered and tested; one with a PERMANENT defect fails at once. -/
def Block.coreWave (b : Block) (w : Nat) : Block :=
  let cs := (List.range 36).filter fun c => decide (c % 4 = w) && !b.fuseBad c
  let b := { b with boot := { b.boot with coreWaves := w + 1 } }
  cs.foldl (fun b c =>
    if b.defectPermanent c then (b.wr (Reg.MH_CORE_STATE.STATE c) 1).bootFail c
    else { b with boot := { b.boot with coresTesting := NSet.insert c b.boot.coresTesting } }) b

/-- A core's BIST ends. -/
def Block.coreTested (b : Block) (c : Nat) (passed : Bool) : Block :=
  if !NSet.has b.boot.coresTesting c then b
  else
    let b := { b with boot := { b.boot with coresTesting := NSet.erase b.boot.coresTesting c } }
    if passed then b.wr (Reg.MH_CORE_STATE.STATE c) 3 else (b.wr (Reg.MH_CORE_STATE.STATE c) 1).bootFail c

/-- The nominal core of a position. -/
def Core.nominal (p : Nat) : Nat :=
  if p < 12 then p else if p < 24 then p + 6 else [12, 13, 30, 31, 14, 15, 32, 33].getD (p - 24) 0

/-- The cores of the device pool: spare cores no partition names, and nominal cores of positions no partition holds. -/
def Block.poolCores (b : Block) : List Nat :=
  let named (c : Nat) : Bool := (List.range 32).any fun p => (b.part p).spareNames.contains c
  (List.range 36).filter fun c =>
    (([16, 17, 34, 35] : List Nat).contains c && !named c)
      || (List.range 32).any fun p => decide (Core.nominal p = c) && (b.posHolder p).isNone

/-- The core a held position takes: its nominal one, else a spare in the order of R381. -/
def Block.bootCore (b : Block) (pos part : Nat) : Option Nat :=
  let home := Core.nominal pos
  let near (c : Nat) : Bool := Core.north c == Core.north home
  let own := ([16, 17, 34, 35] : List Nat).filter fun c => (b.part part).spareNames.contains c
  let pool := b.poolCores
  (home :: (own.filter near ++ pool.filter near ++ own.filter (fun c => !near c) ++ pool.filter fun c => !near c)).find?
    fun c => decide (b.coreState c = 3)

/-- Every held position takes its core; the sync home of one without a core is lost. -/
def Block.assignCores (b : Block) : Block :=
  (List.range 32).foldl (fun b pos => match b.posHolder pos with
    | none => b
    | some p => match b.bootCore pos p with
      | some c => ((b.wr (Reg.MH_CORE_MAP.PHYS pos) c).wr (Reg.MH_CORE_MAP.VALID pos) 1).wr (Reg.MH_CORE_STATE.STATE c) 2
      | none => { b with sync := { b.sync with lostHomes := NSet.insert pos b.sync.lostHomes } }) b

/-! ### The shelf (R32, R34, R35) -/

/-- Place one logical bank; its group is struck where it finds no bank. -/
def Block.bootBank (b : Block) (lb : Nat) : Block :=
  if b.groupStruck (lb / 16) then b
  else match b.placeBank (fun g => b.groupHolder g) lb with
    | some b => b
    | none => b.strikeGroup (lb / 16)

/-- Shelf BIST and zero fill end: bad banks are spared in R32's order, and every word is zero with no seal. -/
def Block.shelfTested (b : Block) (failed : List Nat) : Block :=
  let bad (p : Nat) : Bool := b.fuseBad (Src.bank p)
  let fails := (List.range 544).filter fun p => !bad p && (failed.contains p || b.defectPermanent (Src.bank p))
  let b' := fails.foldl (fun b p => b.bootFail (Src.bank p)) b
  let out := (List.range 544).filter fun p => bad p || fails.contains p
  let b := { b' with
    shelf := { b'.shelf with bytes := [], poison := [], upset := [], seals := [], struckBanks := out }
    boot := { b'.boot with shelfDone := true } }
  let b := (List.range 32).foldl (fun b g => b.setFreeSpares g (if out.contains (17 * g + 16) then [] else [17 * g + 16])) b
  let lost := (List.range 512).filter fun lb => out.contains (17 * (lb / 16) + lb % 16)
  -- a group's own spare serves its own first bad bank; only then do banks take other groups' spares
  let own (lb : Nat) : Bool := !out.contains (17 * (lb / 16) + 16) && !lost.any fun x => decide (x / 16 = lb / 16) && decide (x < lb)
  (lost.filter own ++ lost.filter fun lb => !own lb).foldl (fun b lb => b.bootBank lb) b

/-! ### HBM (R36, R37, R382) -/

/-- A logical channel is IN_SERVICE on a physical one. -/
def Block.placeChannel (b : Block) (s k ps ch : Nat) : Block :=
  ((b.wr (Reg.HM_CHMAP.PCH s k) ch).wr (Reg.HM_CHMAP.PSTACK s k) ps).wr (Reg.HM_CHMAP.STATE s k) 1

/-- Cold: logical channels take the stack's good physical channels in ascending order, and the rest are spares. -/
def Block.placeStack (b : Block) (n : Nat) (good : List Nat) : Block :=
  let b := (List.range b.hbmNd).foldl (fun b k => match good[k]? with
    | some ch => b.placeChannel n k n ch
    | none => b) b
  b.wr (Reg.HM_SPARE.FREE n) ((good.drop b.hbmNd).map fun c => 2 ^ c).sum

/-- A stack's good channels, its failing ones entered; warm, a channel in service is struck and rebuilt. -/
def Block.stackChannels (b : Block) (n failed : Nat) : Block :=
  let bad (c : Nat) : Bool := b.fuseBad (Src.channel n c)
  let warm := decide (b.boot.resetKind = .warm)
  let fails := (List.range 32).filter fun c => !bad c && (failed.testBit c || b.defectPermanent (Src.channel n c))
    && !(warm && NSet.has b.hbm.struckCh (32 * n + c))
  let b' := fails.foldl (fun b c => b.bootFail (Src.channel n c)) b
  if warm then fails.foldl (fun b c => (b.strikeQueued n c).1) b'
  else
    let struck := fails.foldl (fun s c => NSet.insert (32 * n + c) s) b'.hbm.struckCh
    ({ b' with hbm := { b'.hbm with struckCh := struck } } : Block).placeStack n
      ((List.range 32).filter fun c => !bad c && !fails.contains c)

/-- A stack that failed twice (R382): its channels are LOST; with a second such stack all HBM is unmapped. -/
def Block.stackFails (b : Block) (n : Nat) : Block :=
  let warm := decide (b.boot.resetKind = .warm)
  let lost (s k : Nat) : Bool := if warm then decide (b.rd (Reg.HM_CHMAP.PSTACK s k) = n)
      && decide (1 ≤ b.rd (Reg.HM_CHMAP.STATE s k)) && decide (b.rd (Reg.HM_CHMAP.STATE s k) ≤ 2)
    else decide (s = n)
  let cs := ((List.range 8).flatMap fun s => (List.range b.hbmNd).map fun k => (s, k)).filter fun c => lost c.1 c.2
  let b' := cs.foldl (fun b c => b.wr (Reg.HM_CHMAP.STATE c.1 c.2) 3) b
  let b' := (b'.hbm.rebuilds.filter fun r => r.pstack = n).foldl (fun b r => b.journalEnd r.journal Journal.ABORTED 0) b'
  let fails := NSet.insert n b'.boot.stacksFailed
  let b := { b' with
    boot := { b'.boot with stacksFailed := fails }
    hbm := { b'.hbm with
      rebuilds := b'.hbm.rebuilds.filter fun r => r.pstack ≠ n
      disabled := b'.hbm.disabled || decide (2 ≤ fails.length) } }
  ((b.wr (Reg.HM_SPARE.FREE n) 0).defect (Src.stack n) 1).pennant (Src.stack n) Kind.HBM_STACK_FAIL 0 0

/-- Once every stack has finished: a logical channel without a bank of its own takes another stack's spare, or is LOST. -/
def Block.stacksEnd (b : Block) : Block :=
  let left := ((List.range 8).flatMap fun s => (List.range b.hbmNd).map fun k => (s, k)).filter fun c =>
    decide (b.rd (Reg.HM_CHMAP.STATE c.1 c.2) = 0)
  let b' := left.foldl (fun b c => match b.channelSpare c.1 with
    | some (ps, ch) =>
      (b.placeChannel c.1 c.2 ps ch).wr (Reg.HM_SPARE.FREE ps) (setBits (b.rd (Reg.HM_SPARE.FREE ps)) ch 1 0)
    | none => b.wr (Reg.HM_CHMAP.STATE c.1 c.2) 3) b
  let b := { b' with hbm := { b'.hbm with selfRefresh := false } }
  b.wr Reg.MH_BOOT_TIME.HBM_MS ((b.now - b.boot.mainAt.getD b.now) / msToCycles 1)

/-- HBM line space in MiB, under the height in force (R37). -/
def Block.showLineSpace (b : Block) : Block :=
  b.wr Reg.HM_FE_SPACE.LINE_SPACE_MIB (8 * b.hbmNd * b.hbmLines / 4096)

/-- A stack finishes training (R36, R46, R382). -/
def Block.stackTrained (b : Block) (n : Nat) (trained : Bool) (height vendor failed : Nat) : Block :=
  if b.boot.mainAt.isNone ∨ !b.boot.pllLocked ∨ NSet.has b.boot.stacksDone n then b
  else
    let ok : Bool := trained && decide (height ≠ 0) && decide (b.rd Reg.HM_FE_CFG.HEIGHT ≤ height)
      && !b.defectPermanent (Src.stack n)
    let b := { b with boot := { b.boot with stacksDone := NSet.insert n b.boot.stacksDone } }
    let b := (b.wr (Reg.HM_STACK_INFO.PRESENT n) (b01 (height ≠ 0))).wr (Reg.HM_STACK_INFO.TRAINED n) (b01 ok)
    let b := (b.wr (Reg.HM_STACK_INFO.HEIGHT n) height).wr (Reg.HM_STACK_INFO.STACK_VENDOR n) vendor
    let b := b.wr (Reg.HM_STACK_INFO.RATE n) (if height = 0 then 0 else max 1 (b.rd Reg.HM_FE_CFG.RATE))
    let b := b.wr ⟨Reg.CK_STATUS.HBM_LOCK.off, 2 + n, 1⟩ (b01 ok)
    let b := if ok then b.stackChannels n failed else b.stackFails n
    (if b.boot.stacksDone.length = 8 then b.stacksEnd else b).showLineSpace.hbmStatus

/-! ### The image's register records (R377) -/

def Block.applyRecords (b : Block) : Block :=
  (b.regRecords.filter fun r => r.mask.testBit b.layout).foldl (fun b r => b.regPut ⟨true, r.off, r.width, r.value⟩) b

/-! ### The boot seal (R23, R38, R197, R352, R379) -/

/-- A region with KEY_MODE 1 whose slot its holder does not own (R352). -/
def Block.regionKeyBreach (b : Block) (n : Nat) : Bool :=
  let r := b.region n
  decide (r.keyMode = 1) && !(b.is (Reg.SEC_SLOT_OWNER.OWNED r.keySlot)
    && decide (b.regionHolder n = some (b.rd (Reg.SEC_SLOT_OWNER.PARTITION r.keySlot))))

/-- The AUX of the region table's IMAGE_CHECK, if it fails. -/
def Block.hbmSealCheck (b : Block) : Option Nat :=
  (b.regionNums.find? fun n => b.regionBreach n || b.regionKeyBreach n).or b.regionCheck

/-- Whether coherent window `n` breaks a rule of R197. -/
def Block.windowBreach (b : Block) (n : Nat) : Bool :=
  let lo (n : Nat) : Nat := b.rd (Reg.CO_WIN00.BASE n) * 2 ^ 21
  let hi (n : Nat) : Nat := lo n + b.rd (Reg.CO_WIN00.SIZE n) * 2 ^ 21
  let inShelf : Bool := decide (hi n ≤ 2 ^ 29)
  let keyed (r : Region) : Bool := decide (r.keyMode = 1) || decide (Dla.hbmBase + r.base + r.size ≤ lo n)
    || decide (hi n ≤ Dla.hbmBase + r.base)
  let inHbm : Bool := decide (Dla.hbmBase ≤ lo n) && decide (hi n ≤ Dla.hbmBase + b.hbmCap)
    && (b.regionNums.map b.region).all keyed
  let meets (m : Nat) : Bool := decide (m ≠ n) && b.is (Reg.CO_WIN00.VALID m) && decide (lo m < hi n) && decide (lo n < hi m)
  b.is (Reg.CO_WIN00.VALID n) && (decide (hi n ≤ lo n) || !(inShelf || inHbm) || (List.range 16).any meets)

/-- The boot path's write of 1 to MH_BOOT_SEAL.SEAL: RWL fields are read-only from here, and the structure is checked. -/
def Block.bootSeal (b : Block) : Block :=
  if b.is Reg.MH_BOOT_SEAL.SEAL then b
  else
    let b := (b.wr Reg.MH_BOOT_SEAL.SEAL 1).wr Reg.MH_STATUS.BOOT_SEALED 1
    let hbm := b.hbmSealCheck
    let b := match hbm with
      | some aux => ({ b with hbm := { b.hbm with disabled := true } } : Block).pennant Src.sequencer Kind.IMAGE_CHECK aux 0
      | none => b
    let win := findIdx 16 b.windowBreach
    let b := match win with
      | some n => (b.wr Reg.CO_STATUS.WINDOWS_VALID 0).pennant Src.sequencer Kind.IMAGE_CHECK (0x100 + n) 0
      | none => b.wr Reg.CO_STATUS.WINDOWS_VALID 1
    let b := b.wr Reg.MH_STATUS.IMAGE_VALID (b01 (b.boot.slot.isSome && hbm.isNone && win.isNone))
    { b with boot := { b.boot with lastLayout := b.boot.slot.map fun _ => (b.layout, b.rd Reg.MH_IMAGE.IMAGE_ID) } }

/-! ### Reconciliation (R389, Table BUP-6) -/

/-- An install that had written is rolled back. -/
def Block.installBack (b : Block) (i : Install) : Block :=
  (b.rollback i).journalEnd i.journal Journal.ROLLED_BACK Code.SEC_INSTALL_ABORTED

/-- A re-form is rolled forward: the new layout is in force, and what moves is cleared; the rest of its steps are those of
this boot. -/
def Block.reformForward (b : Block) (r : Reform) : Block :=
  let b' := { b with ten := { b.ten with reform := none } }
  if b.layouts ≤ r.layout then b'.journalEnd r.journal Journal.ABORTED Code.BUP_RESET_ABORTED
  else
    let b := (b'.movedBits b'.layout r.layout 64 PartRec.regions).foldl (fun b n =>
      let g := b.region n
      b.hbmClearRange (fun q => decide (q.n = n)) false g.base (g.base + g.size)) b'
    let b := (b.reformRecords b.layout r.layout).wr Reg.MH_IMAGE.LAYOUT r.layout
    b.applyRecords.journalEnd r.journal Journal.ROLLED_FORWARD Code.SUCCESS

/-- The actions marked "at boot". -/
def Block.journalBoot (b : Block) : Block :=
  let b' := b.sec.installs.foldl (fun b i => b.installBack i) b
  let b := b'.secInstalls []
  let b := match b.ten.reform with
    | some r => b.reformForward r
    | none => b
  b.startRebuilds

/-- Bring-up opens slice 0 (R261); its key is the one a warm reset kept, or a new one (R351). -/
def Block.openManager (b : Block) : Block :=
  let b := match SMap.get (fun _ => none) b.keys.slice 0 with
    | some _ => b
    | none =>
      let r := b.drbgKey
      r.1.setSliceKey 0 (some r.2)
  let b := ((b.wr (Reg.SL_QUOTA.HANDLES 0) 256).wr (Reg.SL_QUOTA.XFER_SLOTS 0) 8).nextGen 0
  (b.wr (Reg.SL_HANDLE_STATUS.GEN_LO 0) (b.gen 0 % 16)).setSliceState 0 Slice.OPEN

/-- Denob starts; a bank switched to before the reset must still pass its self-check (R257). -/
def Block.dnBoot (b : Block) (failed : Bool) : Block :=
  if failed || b.defectPermanent Src.denob then (b.bootFail Src.denob).dnFail
  else if b.dn.switched then { b with dn := { b.dn with restarting := true } }
  else b.wr Reg.DN_STATUS.RUNNING 1

/-- R345 step 1 for a unit that fails its boot test: a record that waits for acknowledgement, of the kind that no rule gives
(DESIGN CHOICE, assumption 71). -/
def Block.fatalRecord (b : Block) (src : Nat) : Block :=
  let r := b.count Reg.FC_RECORDS.COUNT 1 |>.logRecord ⟨src, Kind.UNSPECIFIED, 0, 1, 0, false, false, true, b.now⟩
  let b := match r.2 with
    | none => r.1
    | some i =>
      let f (g : Nat → Fld) : Fld := g (i % 4096)
      (((r.1.wr (f Reg.FC_LOG18.PERMANENT) 1).wr (f Reg.FC_LOG18.ACK_NEEDED) 1).wr (f Reg.FC_LOG18.DONE) 1).wr
        (f Reg.FC_LOG18.ACTION) React.DEVICE_FATAL
  { b with fc := { b.fc with
      nextRecord := b.fc.nextRecord + 1, opened := b.fc.opened ++ [⟨b.fc.nextRecord, r.2, true, false, true, [], b.now⟩] } }

/-- The other units that Table BUP-4 tests, one with a PERMANENT defect failing at once. A unit whose failure is device-fatal
leaves FATAL_AUTO_RESET ignored. -/
def Block.bootTests (b : Block) (collector : Nat) (fatal dirWays : List Nat) : Block :=
  let one := decide (collector = 1) || b.defectPermanent Src.collector
  let b := if one then (b.bootFail Src.collector).wr Reg.FC_STATUS.SINGLE 1 else b
  let known := (List.range 4096).filter fun s =>
    (decide (FUnit.ofSource s = some .fatal) || decide (FUnit.ofSource s = some .kept)) && b.defectPermanent s
  let fs := ((if collector = 2 then Src.collector :: fatal else fatal) ++ known).eraseDups
  let b := fs.foldl (fun b s => ((b.bootFail s).deviceFatal false).fatalRecord s) b
  let b := { b with
    fc := { b.fc with fatalAt := if fs.isEmpty then b.fc.fatalAt else none }
    coh := { b.coh with fenced := dirWays.foldl (fun s w => NSet.insert w s) b.coh.fenced } }
  b.count Reg.CO_DIR_ECC.FENCED dirWays.eraseDups.length

/-- READY (R373, R291): EP_CFG and EP_SUBSYS are sampled. -/
def Block.bringupEnds (b : Block) : Block :=
  let b := { b with ep := { b.ep with sampled := some (b.word Reg.EP_CFG.DB_STRIDE.off, b.word Reg.EP_SUBSYS.SUBSYS_ID.off) } }
  let b := b.wr Reg.MH_BOOT_TIME.READY_MS ((b.now - b.boot.mainAt.getD b.now) / msToCycles 1)
  ((b.wr Reg.MH_BOOT_STATUS.PHASE 4).wr Reg.MH_STATUS.READY 1).fcStatus

/-- Whether every site, stack, core and the shelf has finished, and every enrolment wave has started. -/
def Block.unitsDone (b : Block) : Bool :=
  b.boot.shelfDone && decide (b.boot.stacksDone.length = 8) && decide (b.boot.coreWaves = 4) && b.boot.coresTesting.isEmpty
    && decide (b.boot.enrolWaves = 4)
    && (List.range 16).all fun s => decide (b.linkState s ≠ Link.TRAINING) && decide (b.linkState s ≠ Link.RECONCILING)

/-- Every partition is formed or not (R383), with what two failed stacks leave (R382). -/
def Block.formAll (b : Block) : Block :=
  let two := decide (2 ≤ b.boot.stacksFailed.length)
  let b := (List.range 32).foldl (fun b p => b.formPart p !(two && decide ((b.part p).regions ≠ 0))) b
  (List.range 32).foldl (fun b p => b.partStatus p) b.partStates

/-- The steps of reconciliation, in order. -/
def Block.reconcileWork (b : Block) (denob : Bool) (collector : Nat) (fatal dirWays : List Nat) : Block :=
  let b := (b.bootTests collector fatal dirWays).journalBoot
  let b := (b.assignCores.bootSeal).wr Reg.MH_BOOT_STATUS.PHASE 3
  ((b.formAll.dnBoot denob).openManager).bringupEnds

/-- Reconciliation to READY (R370, R373, R383, R389). -/
def Block.reconcile (b : Block) (denob : Bool) (collector : Nat) (fatal dirWays : List Nat) : Block :=
  if b.boot.mainAt.isNone ∨ !b.boot.pllLocked ∨ b.boot.reconciled ∨ !b.unitsDone then b
  else
    let b := { b with boot := { b.boot with reconciled := true } }
    (b.wr Reg.MH_BOOT_STATUS.PHASE 2).reconcileWork denob collector fatal dirWays

end Sys2Proof.Machine
end

