-- ==== Sys2Proof/Machine/Bringup.lean ====
section
/-! DEFINITION. The bring-up and reset commands (18). -/

namespace Sys2Proof.Machine

/-! ### Power and PERST_L -/

/-- POWER_GOOD (R368): a cold reset, and the preamble's work. -/
def execPowerGood (s : State) : Host.Outcome State Fault Refusal :=
  .next (s.updFuse fun b o => b.coldReset.preambleWork o)

/-- The part of an interrupted commit that was programmed (R365): each row is begun once the one before it is whole. -/
def Otp.partly (o full : Otp) (k : LcStep) (p : OtpProgress) : Otp :=
  let uds := o.uds ||| (full.uds &&& p.uds)
  let o := { o with uds := uds }
  if uds ≠ full.uds then o
  else
    let o := { o with udsValid := o.udsValid ||| (full.udsValid &&& p.udsValid) }
    if o.udsValid ≠ full.udsValid then o
    else
      let r := { o.rows k with state := (o.rows k).state ||| ((full.rows k).state &&& p.state) }
      let o := o.setRows k r
      if r.state ≠ (full.rows k).state then o
      else o.setRows k { r with complete := r.complete ||| ((full.rows k).complete &&& p.complete) }

/-- PWRGOOD_FALL (R409): the die is held in reset, and THERMTRIP_L is released. -/
def Block.powerFall (b : Block) (o : Otp) (p : OtpProgress) : Block × Otp :=
  let r := b.drbg384
  let o := match b.sec.commit with
    | some (k, t) => o.partly ((o.action t r.2).finish k t) k p
    | none => o
  let b := r.1.coldReset
  ({ b with
    boot := { b.boot with power := false, preamble := false }
    pw := { b.pw with thermTrip := false } }, o)

def execPwrgoodFall (progress : OtpProgress) (s : State) : Host.Outcome State Fault Refusal :=
  .next (s.updFuse fun b o => b.powerFall o progress)

/-- The main sequence starts (R369). -/
def Block.startMain (b : Block) : Block :=
  ({ b with boot := { b.boot with mainAt := some b.now } } : Block).wr Reg.MH_BOOT_STATUS.PHASE 1

/-- PREAMBLE_DONE (R368, R369). -/
def Block.preambleDone (b : Block) (o : Otp) : Block × Otp :=
  if !b.boot.power ∨ !b.boot.preamble then (b, o)
  else match b.preambleWork o with
    | (b, o) =>
      let b := { b with boot := { b.boot with preamble := false } }
      let free : Bool := !b.boot.perst || (decide (b.boot.resetKind = .warm) && decide (b.boot.cause ≠ 4))
      (if free then b.startMain else b, o)

def execPreambleDone (s : State) : Host.Outcome State Fault Refusal := .next (s.updFuse fun b o => b.preambleDone o)

/-- PERST_ASSERT (R385): a warm reset, unless a reset has not yet reached its main sequence. -/
def Block.perstAssert (b : Block) : Block :=
  if b.boot.mainAt.isNone then { b with boot := { b.boot with perst := true } } else b.startWarm 4 true

def execPerstAssert (s : State) : Host.Outcome State Fault Refusal := .next (s.upd fun b => b.perstAssert)

/-- PERST_RELEASE (R369). -/
def Block.perstRelease (b : Block) : Block :=
  let b := { b with boot := { b.boot with perst := false } }
  if b.boot.power && !b.boot.preamble && b.boot.mainAt.isNone then b.startMain else b

def execPerstRelease (s : State) : Host.Outcome State Fault Refusal := .next (s.upd fun b => b.perstRelease)

/-! ### The main sequence (R370–R373) -/

/-- ROOT_PLL_LOCK (R370, R377, R390): the image's register records are applied, and sites, stacks and reach ports are
released. -/
def Block.rootLock (b : Block) : Block :=
  if b.boot.mainAt.isNone ∨ b.boot.pllLocked then b
  else
    let b := { b with boot := { b.boot with pllLocked := true } }
    let b := ((b.wr Reg.CK_STATUS.ROOT_LOCK 1).wr Reg.CK_STATUS.PCIE_LOCK 1).applyRecords
    let b := (List.range 16).foldl (fun b s =>
      if b.is (Reg.ST_CFG.EN s) then (b.groupsFail s (b.lanesPermanent (Src.laneGroup s))).startTraining s else b) b
    (List.range 4).foldl (fun b p => (b.rchLanesFail p (b.lanesPermanent (Src.reachLane p))).rchRelease p) b

def execRootPllLock (s : State) : Host.Outcome State Fault Refusal := .next (s.upd fun b => b.rootLock)

/-- CORE_WAVE (R371). -/
def execCoreWave (wave : Fin 4) (s : State) : Host.Outcome State Fault Refusal :=
  .next (s.upd fun b => if b.boot.pllLocked && decide (b.boot.coreWaves = wave.val) then b.coreWave wave else b)

/-- CORE_BIST_DONE (R380). -/
def execCoreBistDone (core : Fin 36) (passed : Bool) (s : State) : Host.Outcome State Fault Refusal :=
  .next (s.upd fun b => b.coreTested core passed)

/-- ENROL_WAVE (R372): its TRAINED sites are asked to enrol; one not yet enrolled stays at half-mast (R399). -/
def Block.enrolWave (b : Block) (w : Nat) : Block :=
  let b := { b with boot := { b.boot with enrolWaves := w + 1 } }
  [w, w + 4, w + 8, w + 12].foldl (fun b s => if b.enrolled s then b else (b.hmCause s 3 true).startEnrol s) b

def execEnrolWave (wave : Fin 4) (s : State) : Host.Outcome State Fault Refusal :=
  .next (s.upd fun b => if b.boot.pllLocked && decide (b.boot.enrolWaves = wave.val) then b.enrolWave wave else b)

/-- SHELF_BIST_DONE (R380, R32, R35). -/
def execShelfBistDone (failed : List (Fin 544)) (s : State) : Host.Outcome State Fault Refusal :=
  .next (s.upd fun b =>
    if b.boot.pllLocked && !b.boot.shelfDone then b.shelfTested (failed.map fun x => x.val) else b)

/-- STACK_TRAINING_DONE (R36, R37, R46, R380, R382). -/
def execStackTrainingDone (stack : StackNo) (result : StackResult) (s : State) : Host.Outcome State Fault Refusal :=
  .next (s.upd fun b => b.stackTrained stack result.trained result.height.val result.vendor.toNat result.failed.toNat)

/-- RECONCILIATION (R389). -/
def execReconciliation (tests : BootTests) (s : State) : Host.Outcome State Fault Refusal :=
  .next (s.upd fun b => b.reconcile tests.denob tests.collector (tests.fatal.map fun x => x.val)
    (tests.dirWays.map fun x => 16 * x.1.val + x.2.val))

/-- BOOT_SEAL (R23). -/
def execBootSeal (s : State) : Host.Outcome State Fault Refusal := .next (s.upd fun b => b.bootSeal)

/-! ### Device resets (R385, R386) -/

def execWarmReset (s : State) : Host.Outcome State Fault Refusal := .next (s.upd fun b => b.startWarm 2 false)

def execWarmResetDrained (s : State) : Host.Outcome State Fault Refusal :=
  .next (s.updFuse fun b o => if b.boot.draining then b.warmReset o false else (b, o))

def execColdReset (s : State) : Host.Outcome State Fault Refusal :=
  .next (s.updFuse fun b o => if b.boot.power then b.coldReset.preambleWork o else (b, o))

/-! ### Hub-core reset (R387) -/

/-- A register whose status, counter and log fields return to their reset values. -/
def RegSpec.clearStatus (r : RegSpec) (old reset : Nat) : Nat :=
  r.flds.foldl (fun acc f => match f.ty with
    | .rw | .rwl => acc
    | _ => setBits acc f.lo f.w (bits reset f.lo f.w)) old

/-- The registers of a position after its reset. -/
def RegFile.coreReset (rf : RegFile) (pos : Nat) : RegFile :=
  let lo := 0x2000000 + 0x100000 * pos
  rf.foldl (fun acc e =>
    if lo ≤ e.1 ∧ e.1 < lo + 0x100000 then
      match Reg.find e.1 with
      | some r => acc.setWord e.1 (r.clearStatus e.2.toNat (Reg.resetValue e.1).toNat)
      | none => acc
    else acc) rf

/-- Whether any command runs at a position. -/
def Block.posBusy (b : Block) (p : Nat) : Bool :=
  let v := b.posState p
  (v.slots.any fun e => e.2.isSome) || !v.held.isEmpty || v.vec.run.isSome || !v.unitQ.isEmpty || v.red.isSome || !v.colls.isEmpty

/-- CORE_RESET (R387). -/
def Block.coreReset (b : Block) (p : Nat) : Block :=
  if (b.liveSlices.any fun sl => (List.range 4).any fun c => decide (b.home sl c = p)) ∨ b.posBusy p then
    b.wr (Reg.HC_STATUS.LAST_STATUS p) Code.BUP_CORE_IN_USE
  else
    let b := { b with regs := b.regs.coreReset p }
    let b := (b.setPos p { PosState.idle with records := (b.posState p).records }).setL1 p []
    let b := { b with boot := { b.boot with coreResets := NSet.insert p b.boot.coreResets } }
    (b.wr (Reg.HC_STATUS.LAST_STATUS p) Code.SUCCESS).wr (Reg.HC_STATUS.RESETTING p) 1

def execCoreReset (pos : PosNo) (s : State) : Host.Outcome State Fault Refusal := .next (s.upd fun b =>
    if b.frameHeld (Reg.HC_CTRL.CORE_RESET pos).off then
      b.regWait ⟨false, (Reg.HC_CTRL.CORE_RESET pos).off, 4, 2 ^ (Reg.HC_CTRL.CORE_RESET pos).lo, none⟩
    else b.coreReset pos)

/-- CORE_RESET_DONE. -/
def execCoreResetDone (pos : PosNo) (s : State) : Host.Outcome State Fault Refusal :=
  .next (s.upd fun b =>
    ({ b with boot := { b.boot with coreResets := NSet.erase b.boot.coreResets pos } } : Block).wr
      (Reg.HC_STATUS.RESETTING pos) 0)

/-! ### The Field-defect log (R384) -/

/-- DEFECT_CLEAR: in TEST only. -/
def Block.defectClear (b : Block) : Block :=
  if b.lc ≠ Lc.TEST then b
  else
    let b := { b with regs := b.regs.filter fun e => !(decide (0x2000 ≤ e.1) && decide (e.1 < 0x3000)) }
    let b := { b with boot := { b.boot with nor := { b.boot.nor with defects := [], testBoots := [] } } }
    (b.wr Reg.MH_DEFECT_CTRL.COUNT 0).wr Reg.MH_DEFECT_CTRL.OVERFLOW 0

def execDefectClear (s : State) : Host.Outcome State Fault Refusal := .next (s.upd fun b => b.defectClear)

end Sys2Proof.Machine
end

