-- ==== Sys2Proof/Machine/SiteProtocol.lean ====
section
/-! DEFINITION. The commands of the site protocol (08), and DISPATCH (R188). -/

namespace Sys2Proof.Machine

/-- A packet of a listed opcode as its sender built it, its UNITS as Table SWP-2 gives them. -/
def Packet.of (op : Nat) (h : PacketHdr) (data : List Byte) : Packet where
  op := op
  units := (Swp.units op h.len.toNat).getD 0
  tag := h.tag.toNat
  len := h.len.toNat
  core := h.core
  ctx := h.ctx.toNat
  attr := h.attr.toNat
  addr := h.addr.toNat
  param := h.param.toNat
  data := data

/-- Run a step as one of a lost site's: its responses go nowhere (R169). -/
def Block.muted (b : Block) (s : Nat) (f : Block → Block) : Block :=
  let st := b.linkState s
  (f (b.setLink s Link.LOST)).setLink s st

/-- A request that was received whole is served: under the context it came with if its site has been lost since, and without
an answer then (R169). -/
def Block.finishBegun (b : Block) (s : Nat) (x : Begun) (run : Block → Block) : Block :=
  let st := b.site s
  let b := b.setSite s { st with begun := st.begun.filter fun y => y ≠ x }
  if !x.lost then (run b).giveCredits s x.packet
  else match x.disp with
    | none => b.muted s run
    | some d =>
      let old := b.dispatchOf s x.packet.ctx
      ((b.setDispatch s x.packet.ctx (some d)).muted s run).setDispatch s x.packet.ctx old

/-- Serve a request that may wait for something outside. It is received once; while it waits, its row, sent again, goes on
with it (assumption 5). -/
def Block.serve (b : Block) (s : Nat) (p : Packet) (run : Block → Block) : Block :=
  match (b.site s).begun.find? fun x => x.packet = p with
  | some x => b.settle fun b => b.finishBegun s x run
  | none => match b.accept s p with
    | (b, false) => b
    | (b, true) =>
      let x : Begun := ⟨p, b.dispatchOf s p.ctx, false⟩
      let st := b.site s
      (b.setSite s { st with begun := st.begun ++ [x] }).settle fun b => b.finishBegun s x run

/-- RD (R182). -/
def execRd (site : SiteNo) (h : PacketHdr) (s : State) : Host.Outcome State Fault Refusal :=
  .next (s.upd fun b => b.serve site (Packet.of 0x01 h []) fun b => b.swpRead site (Packet.of 0x01 h []))

/-- WR (R182). -/
def execWr (site : SiteNo) (h : PacketHdr) (data : List Byte) (s : State) : Host.Outcome State Fault Refusal :=
  .next (s.upd fun b => b.serve site (Packet.of 0x02 h data) fun b => b.swpWrite site (Packet.of 0x02 h data))

/-- WR_BLOCK (R184). -/
def execWrBlock (site : SiteNo) (h : PacketHdr) (data : List Byte) (s : State) : Host.Outcome State Fault Refusal :=
  .next (s.upd fun b => b.serve site (Packet.of 0x03 h data) fun b => b.swpWriteBlock site (Packet.of 0x03 h data))

/-- ADD (R183). -/
def execSwpAdd (site : SiteNo) (h : PacketHdr) (data : List Byte) (s : State) : Host.Outcome State Fault Refusal :=
  .next (s.upd fun b => b.serve site (Packet.of 0x04 h data) fun b => b.swpAdd site (Packet.of 0x04 h data))

/-- RD_BLOCK (R185). -/
def execRdBlock (site : SiteNo) (h : PacketHdr) (s : State) : Host.Outcome State Fault Refusal :=
  .next (s.upd fun b => b.serve site (Packet.of 0x05 h []) fun b => b.swpReadBlock site (Packet.of 0x05 h []))

/-- SYNC_WAIT (R186). -/
def execSyncWait (site : SiteNo) (h : PacketHdr) (target : Word) (s : State) : Host.Outcome State Fault Refusal :=
  .next (s.upd fun b => b.packetIn site (Packet.of 0x06 h (natLE 16 target.toNat)) fun b =>
    b.swpSyncWait site (Packet.of 0x06 h (natLE 16 target.toNat)))

/-- SITE_WAIT_TIMEOUT (R186). -/
def execSiteWaitTimeout (site : SiteNo) (tag : BitVec 12) (s : State) : Host.Outcome State Fault Refusal :=
  .next (s.upd fun b => b.endSiteWaits site Code.SYNC_WAIT_TIMEOUT fun w =>
    !w.satisfied && decide (w.limitUs ≠ 0) && (match w.who with
      | .site _ t _ _ => decide (t = tag.toNat)
      | _ => false))

/-- ENROL_TIMEOUT (R179). -/
def execEnrolTimeout (site : SiteNo) (s : State) : Host.Outcome State Fault Refusal :=
  .next (s.upd fun b => b.enrolTimeout site)

/-- RD_DATA (R192, R196). -/
def execRdData (site : SiteNo) (h : PacketHdr) (data : List Byte) (s : State) : Host.Outcome State Fault Refusal :=
  .next (s.upd fun b => b.packetIn site (Packet.of 0x40 h data) fun b => b.rdData site (Packet.of 0x40 h data))

/-- CREDIT (R176, Table SWP-3). -/
def execCredit (site : SiteNo) (reqH reqD snpH : BitVec 8) (s : State) : Host.Outcome State Fault Refusal :=
  .next (s.upd fun b => b.packetIn site (Packet.of 0x7F ⟨0, 0, 0, 0, 0, 0, 0⟩ []) fun b =>
    b.takeCredits site reqH.toNat reqD.toNat snpH.toNat)

/-- UNLISTED_PACKET (R174, R176): a packet that is unlisted, of wrong UNITS or without credit; any other has its own row. -/
def execUnlistedPacket (site : SiteNo) (op : BitVec 8) (units : Fin 512) (h : PacketHdr) (s : State) :
    Host.Outcome State Fault Refusal :=
  let p : Packet := { Packet.of op.toNat h [] with units := units }
  .next (s.upd fun b =>
    let bad : Bool := match Swp.units p.op p.len with
      | none => true
      | some u => decide (u ≠ p.units) || !(b.site site).credits.siteAllow p
    if bad then b.packetIn site p fun b => b else b)

/-- DISPATCH_TIMEOUT (R190). -/
def execDispatchTimeout (site : SiteNo) (tag : BitVec 12) (s : State) : Host.Outcome State Fault Refusal :=
  .next (s.upd fun b =>
    match b.dispatchOf site tag.toNat with
    | none => b
    | some d =>
      if d.cancelled then b
      else (b.reportCmd d.queue d.id Code.SWP_DISPATCH_TIMEOUT 0).cancelDispatch site tag.toNat)

/-- WINDOW_REQ_TIMEOUT (R192): the tag stays in use until the answer comes. -/
def execWindowReqTimeout (site : SiteNo) (tag : BitVec 12) (s : State) : Host.Outcome State Fault Refusal :=
  .next (s.upd fun b =>
    match b.tag site tag.toNat with
    | some ⟨.window n, t, false⟩ =>
      (b.setTag site tag.toNat (some ⟨.window n, t, true⟩)).extDone n Code.SWP_RESP_TIMEOUT []
    | _ => b)

/-! ### DISPATCH -/

/-- What R65 asks of a DISPATCH: its work descriptor lies in device memory. -/
def Hoist.dispatchCheck (c : FCmd) : CmdCheck := ⟨[c.w 3], decide (Ptr.tag (c.w 3) = 0)⟩

/-- R188: the site, its holder and the core, in that order. -/
def Block.dispatchStatus (b : Block) (sl : Nat) (cmd : FCmd) : Option Status :=
  let s := bits (cmd.w 2) 0 4
  let any := bit (cmd.w 2) 10
  if !b.enrolled s then some Code.SITE_NOT_ENROLLED
  else if !b.holdsSite sl s then some Code.SWP_SITE_DENIED
  else if (!any && (b.siteCoreMap s (bits (cmd.w 2) 4 6)).isNone) || (any && !b.anyOk s) then some Code.SWP_NO_SUCH_CORE
  else none

/-- The lowest tag below 0xFFF that is free. -/
def Block.dispatchTag (b : Block) (s : Nat) : Option Nat := b.freeTag s 4095

/-- Send the DISPATCH packet of an issued command (R178, R188). -/
def Block.sendDispatch (b : Block) (sl c : Nat) (cmd : FCmd) (id t : Nat) : Block :=
  let s := bits (cmd.w 2) 0 4
  let any := bit (cmd.w 2) 10
  let core := if any then none else b.siteCoreMap s (bits (cmd.w 2) 4 6)
  let limit := if bits (cmd.w 7) 0 32 = 0 then b.dispatchLimit s else bits (cmd.w 7) 0 32
  let d : Dispatch := ⟨sl, b.gen sl, b.epoch sl, (b.effEnsign sl c cmd).1, core, b.home sl c, 4 * sl + c, id, b.now, limit, false, false, false⟩
  let b := (b.setTag s t (some ⟨.dispatch, b.now, false⟩)).setDispatch s t (some d)
  b.send s ⟨0x20, 2, t, 0, core.getD 0, t, b01 any, Ptr.addr (cmd.w 3), b.epoch sl,
    natLE 8 (cmd.w 4) ++ natLE 8 (cmd.w 5) ++ natLE 8 (cmd.w 6) ++ zeros 8⟩

/-- Whether a DISPATCH names a core that is fenced: it waits for the core's replacement (R191). -/
def Block.dispatchFenced (b : Block) (cmd : FCmd) : Bool :=
  let s := bits (cmd.w 2) 0 4
  !bit (cmd.w 2) 10 && match b.siteCoreMap s (bits (cmd.w 2) 4 6) with
    | some p => NSet.has (b.site s).fencedCores p
    | none => false

/-- DISPATCH (R188): checked at issue; one for which no tag is free, or whose core is fenced, waits. -/
def execDispatch (slice : SliceNo) (cls : ClassNo) (s : State) : Host.Outcome State Fault Refusal :=
  .next (s.upd fun b => b.settle fun b =>
    match (b.q slice cls).front with
    | none => b
    | some cmd =>
      let stuck := cmd.opcode = 0x05 ∧ (b.dispatchStatus slice cmd).isNone
        ∧ ((b.dispatchTag (bits (cmd.w 2) 0 4)).isNone ∨ b.dispatchFenced cmd)
      if stuck then b
      else b.issueNext slice cls (· = 0x05) (fun _ c => Hoist.dispatchCheck c) fun b cmd id =>
        match b.dispatchStatus slice cmd with
        | some st => b.completeCmd slice cls id st 0
        | none => match b.dispatchTag (bits (cmd.w 2) 0 4) with
          | some t => b.sendDispatch slice cls cmd id t
          | none => b)

end Sys2Proof.Machine
end

