-- ==== Sys2Proof/Machine/Coherence.lean ====
section
/-! DEFINITION. The commands of the coherence home (09). -/

namespace Sys2Proof.Machine

/-- R219: what the directory's read of a way of the line's set shows: a corrected error, or an uncorrectable one, which
fences the way and loses its entry. -/
def Block.dirError (b : Block) (line : Nat) (e : Option DirUpset) : Block :=
  match e with
  | none => b
  | some u =>
    if !u.uncorrectable then b.count Reg.CO_DIR_ECC.CE 1
    else
      let k := Dir.set line
      let es := SMap.get (fun _ => []) b.coh.dir k
      let b := { b with coh := { b.coh with
        dir := SMap.put (fun _ => []) b.coh.dir k (es.filter fun x => x.way ≠ u.way.val)
        fenced := NSet.insert (16 * k + u.way.val) b.coh.fenced } }
      let b := b.count Reg.CO_DIR_ECC.FENCED 1
      let b := b.capture Reg.CO_ERR_LOG.VALID Reg.CO_ERR_LOG.OVERFLOW
        [(Reg.CO_ERR_LOG.KIND, 4), (Reg.CO_ERR_LOG.AGENT, 0), (Reg.CO_ERR_ADDR.DLA, 0)]
      b.pennant Src.coherence Kind.DIR_UE 0 0

/-- A coherent message whose ATTR is not listed is a breach under R174 (Table COH-4). -/
def Block.cohBad (b : Block) (s : Nat) (p : Packet) : Block :=
  let v := b.site s
  (b.setSite s { v with siteTags := NSet.erase v.siteTags p.tag }).badPacket s p

/-- A coherent request of a site's agent (R193). -/
def Block.cohIn (b : Block) (s : Nat) (p : Packet) (op : CReq) (run : Block → CMsg → Block) : Block :=
  b.packetIn s p fun b => if p.attr ≠ 0 then b.cohBad s p else run b ⟨op, 64 * s + p.core, p.tag, p.addr / 64⟩

/-- C_RD_S (R204). -/
def execCRdS (site : SiteNo) (h : PacketHdr) (dirErr : Option DirUpset) (s : State) : Host.Outcome State Fault Refusal :=
  .next (s.upd fun b => b.cohIn site (Packet.of 0x30 h []) .rdS fun b m =>
    b.cohRequest m fun b => b.dirError m.line dirErr)

/-- C_RD_O (R204). -/
def execCRdO (site : SiteNo) (h : PacketHdr) (dirErr : Option DirUpset) (s : State) : Host.Outcome State Fault Refusal :=
  .next (s.upd fun b => b.cohIn site (Packet.of 0x31 h []) .rdO fun b m =>
    b.cohRequest m fun b => b.dirError m.line dirErr)

/-- C_UPG (R204). -/
def execCUpg (site : SiteNo) (h : PacketHdr) (dirErr : Option DirUpset) (s : State) : Host.Outcome State Fault Refusal :=
  .next (s.upd fun b => b.cohIn site (Packet.of 0x32 h []) .upg fun b m =>
    b.cohRequest m fun b => b.dirError m.line dirErr)

/-- C_WB (R207). -/
def execCWb (site : SiteNo) (h : PacketHdr) (data : List Byte) (s : State) : Host.Outcome State Fault Refusal :=
  .next (s.upd fun b => b.cohIn site (Packet.of 0x33 h data) .wb fun b m => b.cohWriteback m (sliceBytes data 0 64))

/-- C_EVICT (R204). -/
def execCEvict (site : SiteNo) (h : PacketHdr) (s : State) : Host.Outcome State Fault Refusal :=
  .next (s.upd fun b => b.cohIn site (Packet.of 0x34 h []) .evict fun b m => b.cohEvict m)

/-- The agent will write the line back: its C_WB serves as the answer, come or not (R207). -/
def Block.snoopPending (b : Block) (line agent : Nat) : Block :=
  match b.txnOf line with
  | none => b
  | some t =>
    if t.wbFrom.contains agent then b.snoopAnswered line agent false false
    else b.setTxn { t with snoops := t.snoops.map fun x => if x.agent = agent then { x with wbPending := true } else x }

/-- SNP_ACK (R206, R207): ATTR with both bits is no answer of Table COH-3. -/
def execSnpAck (site : SiteNo) (h : PacketHdr) (s : State) : Host.Outcome State Fault Refusal :=
  let p := Packet.of 0x5C h []
  .next (s.upd fun b => b.packetIn site p fun b =>
    if 2 < p.attr then b.badPacket site p
    else b.response site p fun b u => match u.use with
      | .snoop line agent =>
        let b := b.freeTagOf site p.tag
        some (if p.attr = 2 then b.snoopPending line agent else b.snoopAnswered line agent (decide (p.attr = 1)) false)
      | _ => none)

/-- SNP_DATA (R205, R216). -/
def execSnpData (site : SiteNo) (h : PacketHdr) (data : List Byte) (s : State) : Host.Outcome State Fault Refusal :=
  let p := Packet.of 0x5D h data
  .next (s.upd fun b => b.packetIn site p fun b =>
    if 1 < p.attr then b.badPacket site p
    else b.response site p fun b u => match u.use with
      | .snoop line agent => some ((b.freeTagOf site p.tag).snoopData line agent (decide (p.attr = 1)) (sliceBytes data 0 64))
      | _ => none)

/-- SNOOP_TIMEOUT (R213): the snoop counts as answered, and its own answer will be late. -/
def execSnoopTimeout (site : SiteNo) (tag : BitVec 12) (s : State) : Host.Outcome State Fault Refusal :=
  .next (s.upd fun b =>
    match b.tag site tag.toNat with
    | some ⟨.snoop line agent, t, false⟩ =>
      let b := b.setTag site tag.toNat (some ⟨.snoop line agent, t, true⟩)
      let b := (b.count Reg.CO_SNP_TIMEOUTS.COUNT 1).cohLog 2 agent line
      let b := b.pennant (Src.site site) Kind.COH_SNP_TIMEOUT agent (line * 64)
      b.snoopAnswered line agent false true
    | _ => b)

/-- HOLD_WINDOW_END (R209, R210). -/
def execHoldWindowEnd (line : BitVec 42) (s : State) : Host.Outcome State Fault Refusal :=
  .next (s.upd fun b =>
    match b.txnOf line.toNat with
    | some t => if t.hold.isSome then b.closeTxn t else b
    | none => b)

/-- RESERVATION_EXPIRY (R210). -/
def execReservationExpiry (line : BitVec 42) (s : State) : Host.Outcome State Fault Refusal :=
  .next (s.upd fun b =>
    { b with coh := { b.coh with reserved := b.coh.reserved.filter fun r => r.line ≠ line.toNat } })

/-- RECLAIM_STEP (R215): the next set with an entry that names a dead agent; the scan ends when none is left and no line is
being recovered. An entry whose transaction is open waits for it. -/
def execReclaimStep (s : State) : Host.Outcome State Fault Refusal :=
  .next (s.upd fun b =>
    match b.coh.scan with
    | none => b
    | some _ =>
      match b.coh.dir.find? fun e => e.2.any fun x => b.namesDead x && (b.txnOf x.line).isNone with
      | some (k, es) =>
        let b := { b with coh := { b.coh with scan := some k } }
        es.foldl (fun b e => if b.namesDead e && (b.txnOf e.line).isNone then b.reclaimEntry e else b) b
      | none =>
        let busy : Bool := (b.coh.dir.any fun e => e.2.any fun x => b.namesDead x)
          || b.coh.txns.any fun t => match t.kind with
            | .recover _ => true
            | _ => false
        if busy then b
        else
          let b := { b with coh := { b.coh with scan := none } }
          (b.wr Reg.CO_STATUS.RECLAIM_ACTIVE 0).wr Reg.CO_STATUS.RECLAIM_PENDING 0)

end Sys2Proof.Machine
end

