-- ==== Sys2Proof/Machine/EpEvents.lean ====
section
/-! DEFINITION. What a change of a function's enables, power state or life does to its traffic (R289, R293, R302). -/

namespace Sys2Proof.Machine

/-! ### Virtual functions (R293) -/

def Block.vfEnabled (b : Block) : Bool := bit (b.cfg 0 0x188) 0
def Block.numVfs (b : Block) : Nat := bits (b.cfg 0 0x190) 0 16

/-- Whether a function exists on the link. -/
def Block.fnExists (b : Block) (fn : Nat) : Bool := decide (fn = 0) || (b.vfEnabled && decide (fn ≤ b.numVfs))

/-- The MSE bits that EP_FN_STATUS shows: a VF's is VF MSE. -/
def Block.showMse (b : Block) : Block :=
  let b := b.wr (Reg.EP_FN_STATUS.MSE 0) (bits (b.cfg 0 0x04) 1 1)
  (List.range 32).foldl (fun b i =>
    b.wr (Reg.EP_FN_STATUS.MSE (i + 1)) (b01 (b.fnExists (i + 1) && bit (b.cfg 0 0x188) 3))) b

/-! ### Enables and power states (Table EPT-8) -/

/-- The slices of a function that hold something that may wait. -/
def Block.fnSlices (b : Block) (fn : Nat) : List Nat :=
  let ks : List Nat := b.slices.map Prod.fst ++ b.dn.slices.map Prod.fst ++ b.ep.wbWaits.map fun q => q / 4
  ks.eraseDups.filter fun s => decide (b.fnOf s = fn)

/-- A function's requests are allowed again: what waited is written in order (R302). -/
def Block.fnResume (b : Block) (fn : Nat) : Block :=
  if b.revoked fn then b
  else
    let b := (b.fnSlices fn).foldl (fun b s =>
      let b := if (b.slice s).stall.isSome then b else b.settle fun b => b.postEntries ((b.slice s).entries.length + 1) s
      let b := b.settle fun b => Block.tokFlush ((b.dnSlice s).entries.length + 1) b s
      (List.range 4).foldl (fun b c =>
        if NSet.has b.ep.wbWaits (4 * s + c) then
          ({ b with ep := { b.ep with wbWaits := NSet.erase b.ep.wbWaits (4 * s + c) } } : Block).settle fun b => b.headWriteback s c
        else b) b) b
    b.msixFlush fn

/-- Bus Master Enable of a function. -/
def Block.setBme (b : Block) (fn : Nat) (on : Bool) : Block :=
  let was := b.bme fn
  let b := (b.wr (Reg.EP_FN_STATUS.BME fn) (b01 on)).setCfg fn 0x04 (setBits (b.cfg fn 0x04) 2 1 (b01 on))
  if on then (if was then b else b.fnResume fn)
  else (b.revoke fn).xlatDropFn fn

/-- Memory Space Enable of the PF, or VF MSE. -/
def Block.setMse (b : Block) (vfs on : Bool) : Block :=
  (if vfs then b.setCfg 0 0x188 (setBits (b.cfg 0 0x188) 3 1 (b01 on))
    else b.setCfg 0 0x04 (setBits (b.cfg 0 0x04) 1 1 (b01 on))).showMse

/-- The PF's power state: true for D3hot. -/
def Block.setD3 (b : Block) (on : Bool) : Block :=
  let was := b.is (Reg.EP_FN_STATUS.D3HOT 0)
  let b := (b.wr (Reg.EP_FN_STATUS.D3HOT 0) (b01 on)).setCfg 0 0x44 (setBits (b.cfg 0 0x44) 0 2 (if on then 3 else 0))
  if on then b.revoke 0 else if was then b.fnResume 0 else b

/-! ### Function Level Resets -/

/-- A function's configuration space, MSI-X and TDI at their reset values; generations quarantined earlier are free. -/
def Block.fnReset (b : Block) (fn : Nat) : Block :=
  let mine (k : Nat) : Bool := decide (k / 2048 = fn)
  let b := { b with ep := { b.ep with quarantine := b.ep.quarantine.filter fun q => q.fn ≠ fn } }
  let b := ((b.revoke fn).xlatDropFn fn).tagStatus
  let b := { b with ep := { b.ep with
    cfg := b.ep.cfg.filter fun e => e.1 / 4096 ≠ fn
    msixAddr := b.ep.msixAddr.filter fun e => !mine e.1
    msixData := b.ep.msixData.filter fun e => !mine e.1
    msixUnmasked := b.ep.msixUnmasked.filter fun k => !mine k
    msixPending := b.ep.msixPending.filter fun k => !mine k
    aer := b.ep.aer.filter fun e => e.1 ≠ fn
    aerHeaders := b.ep.aerHeaders.filter fun e => e.1 ≠ fn
    tdiStream := b.ep.tdiStream.filter fun e => e.1 ≠ fn } }
  (b.wr (Reg.EP_FN_STATUS.BME fn) 0).wr (Reg.EP_FN_STATUS.TDI_STATE fn) 0

def Block.countFlr (b : Block) (fn : Nat) : Block := b.count (Reg.EP_FN_STATUS.FLR_COUNT fn) 1

/-- VF_FLR: of the VF of partition `p`. -/
def Block.vfFlr (b : Block) (p : Nat) : Block :=
  let fn := p + 1
  if !b.fnExists fn then b
  else
    let b := ((b.fnReset fn).countFlr fn).wr (Reg.EP_FN_STATUS.RESETTING fn) 1
    let b := b.startPartReset p true
    let b := { b with ep := { b.ep with flr := if b.ep.flr.contains fn then b.ep.flr else b.ep.flr ++ [fn] } }
    b.flrSettle

/-- What a PF Function Level Reset does, however it comes about: every function is reset and VF Enable cleared, every partition
and slice 0 are reset, and SPDM sessions end (R302, R362). -/
def Block.deviceFlr (b : Block) : Block :=
  let b := (List.range 33).foldl (fun b fn => (b.fnReset fn).wr (Reg.EP_FN_STATUS.RESETTING fn) 0) b
  let b := b.wr (Reg.EP_FN_STATUS.D3HOT 0) 0
  let b := { b with
    ep := { b.ep with insecure := [], tdiStream := [], flr := [0] }
    sec := { b.sec with sessions := 0 } }
  let b := ((b.showMse).wr Reg.SEC_STATUS.SPDM_SESSION 0).wr (Reg.EP_FN_STATUS.RESETTING 0) 1
  let b := (List.range 32).foldl (fun b p => b.startPartReset p true) b
  let b := if b.sliceState 0 = Slice.RESETTING ∨ b.sliceState 0 = Slice.FREE then b else b.startReset 0 Code.TEN_SLICE_RESET
  b.flrSettle

/-- The link has gone down or was reset: no completion of an earlier request can come (R300). -/
def Block.linkReset (b : Block) : Block :=
  let b := b.deviceFlr
  ({ b with ep := { b.ep with quarantine := [] } } : Block).tagStatus

/-- Whether the endpoint is out of its reset. -/
def Block.linkMayTrain (b : Block) : Bool := b.boot.power && !b.boot.perst && !b.boot.preamble

/-- The link trains, or trains again at another rate or width (R289). -/
def Block.linkTrained (b : Block) (speed width : Nat) (flit : Bool) : Block :=
  if !b.linkMayTrain then b
  else
    let b := if b.ep.linkUp then b.count Reg.EP_LINK.RETRAINS 1 else b
    let b := { b with ep := { b.ep with linkUp := true } }
    (((b.wr Reg.EP_LINK.SPEED speed).wr Reg.EP_LINK.WIDTH width).wr Reg.EP_LINK.FLIT (b01 flit)).wr Reg.EP_LINK.DL_UP 1

def Block.linkDown (b : Block) : Block :=
  let b := ((b.wr Reg.EP_LINK.SPEED 0).wr Reg.EP_LINK.WIDTH 0).wr Reg.EP_LINK.FLIT 0
  (b.wr Reg.EP_LINK.DL_UP 0).linkReset

/-- VFs above `keep`, up to `were`, disappear, and their partitions are reset (R293). -/
def Block.vfsVanish (b : Block) (keep were : Nat) : Block :=
  (List.range 32).foldl (fun b p =>
    if keep < p + 1 ∧ p + 1 ≤ were then
      let b := (b.fnReset (p + 1)).startPartReset p false
      let b := { b with ep := { b.ep with flr := b.ep.flr.filter fun f => f ≠ p + 1 } }
      b.wr (Reg.EP_FN_STATUS.RESETTING (p + 1)) 0
    else b) b

/-- VF Enable is cleared. -/
def Block.vfDisable (b : Block) : Block :=
  if !b.vfEnabled then b
  else
    let b := b.setCfg 0 0x188 (setBits (b.cfg 0 0x188) 0 1 0)
    (b.vfsVanish 0 b.numVfs).showMse

/-- NumVFs is written; only while VF Enable is clear (R293). -/
def Block.setNumVfs (b : Block) (n : Nat) : Block :=
  if b.vfEnabled ∨ 32 < n then b
  else
    let were := b.numVfs
    (b.setCfg 0 0x190 n).vfsVanish n were

/-! ### Host completions (R300, R301) -/

/-- The tagged pointer an access used (EP_ERR_ADDR). -/
def ExtNeed.tagged (n : ExtNeed) : Nat :=
  match n.target with
  | .host _ _ va => 2 ^ 60 + va
  | _ => 0

/-- A request's slot is free again, at its next generation. -/
def Block.slotFree (b : Block) (t gen : Nat) : Block :=
  let b := { b with ep := { b.ep with
    slots := SMap.put (fun _ => none) b.ep.slots t none
    slotGen := SMap.put (fun _ => 0) b.ep.slotGen t ((gen + 1) % 4) } }
  b.tagStatus

/-- A completion that ends its request with an error. -/
def Block.cplFails (b : Block) (s : HostSlot) (st : Status) : Block := (b.epLog 6 s.fn st s.need.tagged).slotDone s st []

def Block.sendNext (b : Block) : Block := Block.hostSendWaiting (b.ep.waiting.length + 1) b

/-- A completion that matches a slot: `status` 0 SC, 1 UR, 2 CA, 3 RRS. -/
def Block.cplMatched (b : Block) (t : Nat) (s : HostSlot) (status : Nat) (ep : Bool) (data : List Byte) : Block :=
  let got := s.received + data.length
  if status ≠ 0 then ((b.slotFree t s.gen).cplFails s (if status = 1 then Code.HOST_CPL_UR else Code.HOST_CPL_CA)).sendNext
  else if ep then
    let b := (b.slotFree t s.gen).aer s.fn Aer.poisoned
    let q : Quarantine := ⟨t, s.gen, s.fn, s.length - got, false⟩
    let b := if got < s.length then { b with ep := { b.ep with quarantine := b.ep.quarantine ++ [q] } } else b
    ((b.tagStatus).cplFails s Code.HOST_CPL_POISON).sendNext
  else if got < s.length then
    { b with ep := { b.ep with slots := SMap.put (fun _ => none) b.ep.slots t (some { s with received := got, data := s.data ++ data }) } }
  else ((b.slotFree t s.gen).slotDone s Code.SUCCESS ((s.data ++ data).take s.length)).sendNext

/-- A completion that matches no outstanding request. -/
def Block.cplLate (b : Block) (t gen fn status len : Nat) : Block :=
  let b := b.count Reg.EP_LATE_CPL.COUNT 1
  let mine (q : Quarantine) : Bool := decide (q.slot = t) && decide (q.gen = gen) && decide (q.fn = fn)
  let unexpected (b : Block) : Block :=
    let f := if b.fnExists fn then fn else 0
    (b.epLog 5 f 0 0).aerAdvisory f Aer.unexpected
  match b.ep.quarantine.find? mine with
  | none => unexpected b
  | some q =>
    let ends : Bool := decide (status ≠ 0) || decide (q.owed ≤ len)
    let rest (x : Quarantine) : Option Quarantine := if !mine x then some x else if ends then none else some { x with owed := x.owed - len }
    let b := ({ b with ep := { b.ep with quarantine := b.ep.quarantine.filterMap rest } } : Block).tagStatus
    (if q.byTimeout then unexpected b else b).sendNext

def Block.hostCompletion (b : Block) (tag fn status : Nat) (ep : Bool) (data : List Byte) : Block :=
  let t := tag % 4096
  let gen := tag / 4096
  match b.slot t with
  | some s => if s.gen = gen ∧ s.fn = fn then b.cplMatched t s status ep data else b.cplLate t gen fn status data.length
  | none => b.cplLate t gen fn status data.length

/-- COMPLETION_TIMEOUT of a slot's request. -/
def Block.cplTimedOut (b : Block) (t : Nat) : Block :=
  match b.slot t with
  | none => b
  | some s =>
    let b := (b.count Reg.EP_CPL_TIMEOUT.COUNT 1).epLog 4 s.fn Code.HOST_CPL_TIMEOUT s.need.tagged
    ((b.aer s.fn Aer.cplTimeout).abandonSlot t Code.HOST_CPL_TIMEOUT true).sendNext

end Sys2Proof.Machine
end

