-- ==== Sys2Proof/Machine/Attest.lean ====
section
/-! DEFINITION. Axovonak's SPDM responder and the TDISP messages its sessions carry (R305, R306, R361, R362). -/

namespace Sys2Proof.Machine

/-! ### Measurements (Table SEC-4) -/

/-- A partition's byte in block 7. -/
def Block.partMeasure (b : Block) (p : Nat) : Byte :=
  if b.is (Reg.SL_PART_STATUS.RESETTING p) ∨ b.is (Reg.EP_FN_STATUS.RESETTING (p + 1)) then 2
  else if b.is (Reg.SL_PART_STATUS.REFORMING p) then 3
  else if b.is (Reg.FC_PART_STATE.DOWN p) then 5
  else if b.is (Reg.FC_PART_STATE.DEGRADED p) then 4
  else if b.partEmpty p then 0
  else 1

def Firmware.bytes (f : Firmware) : List Byte := natLE 48 f.digest
def stagedBytes (f : Option Firmware) : List Byte := match f with
  | some f => f.bytes
  | none => zeros 48

/-- The digest of the active image, with MH_IMAGE. -/
def Block.imageMeasure (b : Block) : List Byte :=
  let d := match b.boot.slot with
    | some s => natLE 48 (Config.sha384 (b.boot.nor.imageBytes s 0 (b.boot.nor.header s 0x10 4))).toNat
    | none => zeros 48
  d ++ natLE 8 (b.word Reg.MH_IMAGE.IMAGE_ID.off)

/-- One measurement block; the order of a digest's companions is the model's (DESIGN CHOICE, assumption 19). -/
def Block.measure (b : Block) (i : Nat) : List Byte :=
  let pending := b.rd Reg.MH_STATUS.PENDING_UPDATE
  match i with
  | 1 => natLE 48 Config.romDigest.toNat
  | 2 => b.sec.axRun.bytes ++ natLE 1 b.sec.axRun.svn
  | 3 =>
    -- a bank just activated is reported once PENDING_UPDATE clears (R362)
    let f := if b.dn.switched && decide (pending = 1) then b.sec.dnOld else b.sec.dnRun
    f.bytes ++ natLE 1 f.svn
  | 4 => natLE 4 pending ++ natLE 4 (b01 b.sec.axStaged.isSome + 2 * b01 b.sec.dnStaged.isSome)
      ++ stagedBytes b.sec.axStaged ++ stagedBytes b.sec.dnStaged
  | 5 => b.imageMeasure
  | 6 => natLE 4 (b.lc + b.rd Reg.SEC_DEBUG.LEVEL * 2 ^ 8 + b.rd Reg.LC_STATUS.ROLLED_FORWARD * 2 ^ 16)
  | 7 => (List.range 32).map fun p => b.partMeasure p
  | 8 => natLE 48 Config.fuseDigest.toNat
  | _ => []

/-- The blocks that a request for `index` reports: 0 asks how many there are. -/
def Block.measurements (b : Block) (index : Nat) : Option (List Byte) :=
  let eol : Bool := decide (b.lc = Lc.END_OF_LIFE)
  let all : List Nat := if eol then [6] else [1, 2, 3, 4, 5, 6, 7, 8]
  if index = 0 then some (natLE 1 all.length)
  else if index = 0xFF then some (all.flatMap fun i => natLE 1 i ++ b.measure i)
  else if all.contains index then some (natLE 1 index ++ b.measure index)
  else none

/-! ### Requests -/

def Block.setSessions (b : Block) (n : Nat) : Block :=
  ({ b with sec := { b.sec with sessions := n } } : Block).wr Reg.SEC_STATUS.SPDM_SESSION (b01 (decide (n ≠ 0)))

/-- Open bytes that a signature or a key share of the answer holds. -/
def Block.signedAnswer (b : Block) (req : Nat) (data : List Byte) (n : Nat) : Block :=
  let r := b.freshBytes n
  r.1.emit (.spdm req true true (data ++ r.2))

def Block.spdm (b : Block) (q : SpdmReq) : Block :=
  -- no identity before TEST, none left in END_OF_LIFE (R361, Table SEC-5)
  let identity : Bool := decide (b.lc ≠ Lc.BLANK) && decide (b.lc ≠ Lc.END_OF_LIFE)
  let fail (n : Nat) : Block := b.emit (.spdm n false false [])
  match q with
  | .version => b.emit (.spdm 0 true false [0x12, 0x13])
  | .capabilities => b.emit (.spdm 1 true false [])
  | .algorithms => b.emit (.spdm 2 true false [])
  -- in BLANK the slot holds no chain, and the answer names none
  | .digests =>
    if b.lc = Lc.END_OF_LIFE then fail 3
    else if identity then
      let r := b.freshBytes 48
      r.1.emit (.spdm 3 true false r.2)
    else b.emit (.spdm 3 true false [])
  | .certificate off len =>
    if identity then b.emit (.spdm 4 true false ((List.range len.toNat).map fun i => Config.certByte (off.toNat + i))) else fail 4
  | .challenge _ => if identity then b.signedAnswer 5 [] 96 else fail 5
  | .measurements index signed =>
    match b.measurements index.toNat with
    | none => fail 6
    | some d => if signed && identity then b.signedAnswer 6 d 96 else b.emit (.spdm 6 true false d)
  | .keyExchange => if identity ∧ b.sec.sessions < 4 then (b.setSessions (b.sec.sessions + 1)).signedAnswer 7 [] 192 else fail 7
  | .endSession => if b.sec.sessions = 0 then fail 8 else (b.setSessions (b.sec.sessions - 1)).emit (.spdm 8 true false [])
  | .ideKey s =>
    if b.sec.sessions = 0 then fail 9
    else ({ b with ep := { b.ep with insecure := NSet.erase b.ep.insecure s } } : Block).emit (.spdm 9 true false [])

/-- The responder is reached while configuration requests are answered (R362). -/
def Block.spdmRequest (b : Block) (q : SpdmReq) : Block := if b.is Reg.MH_STATUS.READY then b.spdm q else b

/-- A TDISP message (R306): the state it asks for, from the state it may come in. -/
def Block.tdisp (b : Block) (fn : Nat) (m : TdispMsg) : Block :=
  let st := b.rd (Reg.EP_FN_STATUS.TDI_STATE fn)
  let to' (b : Block) (n : Nat) : Block := (b.wr (Reg.EP_FN_STATUS.TDI_STATE fn) n).emit (.spdm 10 true false [])
  if !b.is Reg.MH_STATUS.READY then b
  else if b.sec.sessions = 0 ∨ !b.fnExists fn ∨ b.is (Reg.EP_FN_STATUS.RESETTING fn) then b.emit (.spdm 10 false false [])
  else match m with
    | .lock s =>
      if st = 0 then to' { b with ep := { b.ep with tdiStream := SMap.put (fun _ => 0) b.ep.tdiStream fn (s.val + 1) } } 1
      else b.emit (.spdm 10 false false [])
    | .start => if st = 1 then to' b 2 else b.emit (.spdm 10 false false [])
    | .stop =>
      let b := to' { b with ep := { b.ep with tdiStream := SMap.put (fun _ => 0) b.ep.tdiStream fn 0 } } 0
      if st = 3 then b.fnResume fn else b

end Sys2Proof.Machine
end

