-- ==== Sys2Proof/Machine/Faults.lean ====
section
/-! DEFINITION. The fault collector's commands (16). -/

namespace Sys2Proof.Machine

/-- PENNANT (R322): one that arrives at the input queue; an unassigned source sends none (R323). -/
def execPennant (source : Fin 4096) (kind : BitVec 8) (aux : BitVec 12) (count : BitVec 16) (addr : BitVec 48)
    (noSlice : Bool) (s : State) : Host.Outcome State Fault Refusal :=
  .next (s.upd fun b =>
    if (FUnit.ofSource source).isNone then b
    else
      let r : Record := ⟨source, kind.toNat, aux.toNat, count.toNat, addr.toNat, false, false, noSlice, b.now⟩
      { b with fc := { b.fc with inQ := r.enqueue b.fc.inQ } })

/-! ### Fault pairs (R321) -/

/-- A pair's number in AUX, its source and its kind (the spec numbers no pair; the model's numbers). -/
def Pair.of : FaultPair → Nat × Nat × Nat
  | .denob => (0, Src.denob, Kind.DENOB_LOCKSTEP)
  | .collector => (1, Src.collector, Kind.COLLECTOR_LOCKSTEP)
  | .clock => (2, Src.rootClock, Kind.CLOCK)
  | .axovonak => (3, Src.axovonak, Kind.AXOVONAK_ALARM)
  | .supply r => (16 + r, Src.rail r, Kind.SUPPLY)
  | .thermal n => (32 + n, Src.sensor n, Kind.THERMAL_TRIP)

def Block.pairState (b : Block) (n : Nat) : Nat := SMap.get (fun _ => 0) b.fc.pairs n
def Block.setPair (b : Block) (n v : Nat) : Block :=
  { b with fc := { b.fc with pairs := SMap.put (fun _ => 0) b.fc.pairs n v } }

/-- What a thermal trip does besides its record (R401, R409): THERMTRIP_L, HALFMAST, and a DIP of 1 % to lateral sites, of a
duration that the spec leaves open. -/
def Block.thermalTrip (b : Block) : Block :=
  let b := { b with pw := { b.pw with thermTrip := true } }
  let b := (List.range 12).foldl (fun b s => b.wr (Reg.PW_SITE_STATUS.HALFMAST s) 1) b
  let r := b.fresh
  (List.range 4).foldl (fun b i => b.putDip (12 + i) 1 (r.2 % 65535 + 1) false) r.1

/-- A pair enters the collector as a record. -/
def Block.pairRecord (b : Block) (p : FaultPair) : Block :=
  let d := Pair.of p
  let r : Record := ⟨d.2.1, d.2.2, d.1, 1, 0, true, false, false, b.now⟩
  let b := { b with fc := { b.fc with inQ := r.enqueue b.fc.inQ } }
  if d.2.2 = Kind.THERMAL_TRIP then b.thermalTrip else b

/-- One sample of a pair: reversed levels assert it, two equal samples in a row break it; it raises a record when it leaves
normal. -/
def Block.samplePair (b : Block) (p : FaultPair) (first second : Bool) : Block :=
  let n := (Pair.of p).1
  let held : Bool := match b.fc.injectPair with
    | some (m, t) => decide (m = n) && decide (b.now < t)
    | none => false
  let st := b.pairState n
  if held ∨ first = second then
    if st = 0 then b.setPair n 2 else if st = 2 then (b.setPair n 3).pairRecord p else b
  else if first then b.setPair n 0
  else if st = 0 ∨ st = 2 then (b.setPair n 1).pairRecord p
  else b

def execFaultPairAssert (pair : FaultPair) (first second : Bool) (s : State) : Host.Outcome State Fault Refusal :=
  .next (s.upd fun b => b.samplePair pair first second)

/-! ### Records -/

/-- RECORD_HANDLE (R326). A failed root clock starts a warm reset at once (R345). -/
def execRecordHandle (home : Option (List (Fin 4096))) (s : State) : Host.Outcome State Fault Refusal :=
  let s := s.upd fun b => b.takeRecord (home.map fun l => l.map fun x => x.val)
  .next (if s.blk.fc.rootFailed then s.updFuse fun b o => (b.startWarm 3 false).warmReset o true else s)

/-- COLLECTOR_RESTART_DONE (R325). -/
def execCollectorRestartDone (s : State) : Host.Outcome State Fault Refusal :=
  .next (s.upd fun b => ({ b with fc := { b.fc with restarting := none } } : Block).recordsSettle)

/-- The first recovery that waits in partition `p`, once none runs there. -/
def Block.startWaiting (b : Block) (p : Nat) : Block :=
  if b.fc.recoveries.any fun r => decide (r.part = p) && decide (r.phase ≠ .waiting) then b
  else match b.fc.recoveries.find? fun r => decide (r.part = p) with
    | none => b
    | some r => ((b.startRecovery r).recoveriesAdvance).recordsSettle

/-- RECOVERY_START (R342). -/
def execRecoveryStart (part : PartNo) (s : State) : Host.Outcome State Fault Refusal :=
  .next (s.upd fun b => b.startWaiting part)

/-- The events that leave a bucket first, and the rest. -/
def Bucket.leak (l : List (Nat × Nat)) : List (Nat × Nat) :=
  match l with
  | [] => []
  | e :: es =>
    let first := es.foldl (fun m x => min m x.1) e.1
    match l.findIdx? fun x => x.1 = first with
    | some i => l.eraseIdx i
    | none => es

/-- BUCKET_LEAK (R327). -/
def execBucketLeak (source : Fin 4096) (s : State) : Host.Outcome State Fault Refusal :=
  .next (s.upd fun b => b.setBucket source (Bucket.leak (b.bucket source)))

/-- Whether a queue holds an issue condition that is unsatisfied and is not a WAIT, a FENCE, a MARK or a HANDLE wait. -/
def Block.queueHangs (b : Block) (sl c : Nat) : Bool :=
  let q := b.q sl c
  b.sliceRuns sl && decide (b.qState sl c = Q.RUNNING) && !q.stopping && !q.held && q.block.isNone && q.front.isSome

/-- CORE_HANG (R331): the watchdog of the core that holds a position. -/
def execCoreHang (pos : PosNo) (s : State) : Host.Outcome State Fault Refusal :=
  .next (s.upd fun b =>
    let hangs : Bool := b.liveSlices.any fun sl => (List.range 4).any fun c => decide (b.home sl c = pos.val) && b.queueHangs sl c
    match b.coreOf pos with
    | some c => if hangs then b.pennant c Kind.CORE_HANG 0 0 else b
    | none => b)

/-- The answer of a site core's unfence will be late (R196). -/
def Block.fenceLate (b : Block) (s phys : Nat) : Block :=
  let st := b.site s
  b.setSite s { st with tags := st.tags.map fun e => match e.2 with
    | some ⟨.fence p true, t, false⟩ => if p = phys then (e.1, some ⟨.fence p true, t, true⟩) else e
    | _ => e }

/-- UNFENCE_TIMEOUT (R333): an event against the new core, and the remap moves on. -/
def execUnfenceTimeout (site : SiteNo) (phys : Fin 64) (s : State) : Host.Outcome State Fault Refusal :=
  .next (s.upd fun b =>
    match b.fc.unfences.find? fun u => decide (u.site = site.val) && decide (u.phys = phys.val) with
    | none => b
    | some u =>
      let b := (b.fenceLate site phys).pennant (Src.siteCore site phys) Kind.SITE_CORE_UNRESPONSIVE 0 0
      let b := { b with fc := { b.fc with unfences := b.fc.unfences.filter fun x => x ≠ u } }
      ((b.nextSiteCore site u.logical).recoveriesAdvance).recordsSettle)

/-! ### Acknowledgement (R328) -/

/-- Acknowledge the open records that `p` picks. -/
def Block.ackRecords (b : Block) (p : OpenRecord → Bool) : Block :=
  let hit (r : OpenRecord) : Bool := r.needsAck && p r
  let b := (b.fc.opened.filter hit).foldl (fun b r => match r.index with
    | some i => b.wr (Reg.FC_LOG18.ACKED (i % 4096)) 1
    | none => b) b
  ({ b with fc := { b.fc with opened := b.fc.opened.map fun r => if hit r then { r with acked := true } else r } } : Block).recordsSettle

def execFcAck (index : Fin 8192) (s : State) : Host.Outcome State Fault Refusal :=
  .next (s.upd fun b => b.ackRecords fun r => decide (r.index = some index.val))

def execFcAckAll (s : State) : Host.Outcome State Fault Refusal :=
  .next (s.upd fun b => b.ackRecords fun _ => true)

/-! ### Restore (R335, Table FLT-6) -/

/-- Whether a running recovery or copy has a unit as its part. -/
def Block.inRecovery (b : Block) : FUnit → Bool
  | .core c => b.fc.recoveries.any fun r => match r.kind with
    | .core p _ _ => decide (p = c)
    | _ => false
  | .siteCore s p => b.fc.recoveries.any fun r => match r.kind with
    | .siteCore x y => decide (x = s) && decide (y = p)
    | _ => false
  | .site s => b.fc.recoveries.any fun r => match r.kind with
    | .site x => decide (x = s)
    | _ => false
  | .bank p => b.shelf.copies.any fun c => decide (c.old = p) || decide (c.spare = p)
  | _ => false

/-- Whether Table FLT-6 restores a unit, and whether it has a test to wait for. -/
def FUnit.restores : FUnit → Option Bool
  | .core _ => some true
  | .bank _ => some true
  | .channel _ _ => some true
  | .site _ => some true
  | .laneGroup _ _ => some false
  | .reachLane _ _ => some false
  | .siteCore _ _ => some false
  | _ => none

def Block.restoreEnd (b : Block) (st : Status) : Block :=
  let b := { b with fc := { b.fc with restore := none } }
  (b.wr Reg.FC_RESTORE.STATUS st).wr Reg.FC_RESTORE.BUSY 0

/-- A unit is no longer struck; its bucket is empty (R327). -/
def Block.unstruck (b : Block) (src : Nat) : Block := (b.wr (Reg.FC_BUCKET.STRUCK src) 0).setBucket src []

/-- Success of a unit that needs no test. -/
def Block.restoreNow (b : Block) (src : Nat) : FUnit → Block
  | .laneGroup s g =>
    let r := b.rd (Reg.ST_LANE_STATE.RETIRED s)
    (b.unstruck src).wr (Reg.ST_LANE_STATE.RETIRED s) (setBits r g 1 0)
  | .reachLane p l =>
    let h := l / 4
    let b := (List.range 4).foldl (fun b i => b.unstruck (Src.reachLane p (4 * h + i))) b
    b.modRPort p fun v => { v with retired := setBits v.retired h 1 0 }
  | _ => b.unstruck src

/-- UNIT_RESTORE: FC_RESTORE written with GO. -/
def Block.unitRestore (b : Block) (src : Nat) : Block :=
  if b.is Reg.FC_RESTORE.BUSY then b
  else
    let b := b.wr Reg.FC_RESTORE.SOURCE src
    match FUnit.ofSource src with
    | none => b.wr Reg.FC_RESTORE.STATUS Code.FLT_RESTORE_REFUSED
    | some u => match u.restores with
      | none => b.wr Reg.FC_RESTORE.STATUS Code.FLT_RESTORE_REFUSED
      | some tests =>
        if NSet.has b.boot.fuses.bad src ∨ !b.struck src ∨ b.inRecovery u then
          b.wr Reg.FC_RESTORE.STATUS Code.FLT_RESTORE_REFUSED
        else if !tests then ((b.restoreNow src u).restoreEnd Code.SUCCESS).partStates
        else
          let b := b.wr Reg.FC_RESTORE.BUSY 1
          let b := { b with fc := { b.fc with restore := some src } }
          match u with
          | .site s => b.startEnrol s
          | _ => b

def execUnitRestore (source : Fin 4096) (s : State) : Host.Outcome State Fault Refusal :=
  .next (s.upd fun b => b.unitRestore source)

/-- A tested core is a spare; a position that has no core takes it if its partition may. -/
def Block.restoreCore (b : Block) (c : Nat) : Block :=
  let b := b.wr (Reg.MH_CORE_STATE.STATE c) 3
  let named : Bool := (List.range 32).any fun p => (b.part p).spareNames.contains c
  let takes (k : Nat) : Bool := (b.coreOf k).isNone && match b.posHolder k with
    | some p => !named || (b.part p).spareNames.contains c
    | none => false
  match findIdx 32 takes with
  | none => b
  | some k =>
    let b := (b.wr (Reg.MH_CORE_MAP.PHYS k) c).wr (Reg.MH_CORE_MAP.VALID k) 1
    let b := (b.wr (Reg.MH_CORE_STATE.STATE c) 2).freshPosition k
    { b with sync := { b.sync with lostHomes := NSet.erase b.sync.lostHomes k } }

/-- A tested bank is a free spare; a struck group that it was struck with is placed again (R34, R35). -/
def Block.restoreBank (b : Block) (p : Nat) : Block :=
  let b := { b with shelf := { b.shelf with struckBanks := NSet.erase b.shelf.struckBanks p } }
  let mine (g : Nat) : Bool := b.groupStruck g
    && (decide (p / 17 = g) || (List.range 16).any fun i => decide (b.rd (Reg.SH_BANK_MAP.PBANK (16 * g + i)) = p))
  match findIdx 32 mine with
  | none => b.addSpare p
  | some g => match b.placeGroup (fun g => b.groupHolder g) g with
    | none => b.addSpare p
    | some b =>
      let b := b.wr Reg.SH_GROUP_STATE.STRUCK (setBits (b.rd Reg.SH_GROUP_STATE.STRUCK) g 1 0)
      let b := b.shelfZero (g * 2 ^ 24) ((g + 1) * 2 ^ 24)
      if (b.bankServed p).isNone then b.addSpare p else b

/-- A tested channel is a free spare, or the spare of a LOST channel (R53), its own stack's first. -/
def Block.restoreChannel (b : Block) (n ch : Nat) : Block :=
  let b := { b with hbm := { b.hbm with struckCh := NSet.erase b.hbm.struckCh (32 * n + ch) } }
  let b := b.wr (Reg.HM_SPARE.FREE n) (setBits (b.rd (Reg.HM_SPARE.FREE n)) ch 1 1)
  let lost (s : Nat) : Option (Nat × Nat) := (findIdx b.hbmNd fun k => decide (b.rd (Reg.HM_CHMAP.STATE s k) = 3)).map fun k => (s, k)
  match (lost n).or ((List.range 8).findSome? lost) with
  | some (s, k) => (b.channelToSpare s k).1
  | none => b.hbmStatus

/-- RESTORE_TEST_DONE. -/
def Block.restoreTested (b : Block) (passed : Bool) : Block :=
  match b.fc.restore with
  | none => b
  | some src => match FUnit.ofSource src with
    | none => b.restoreEnd Code.FLT_RESTORE_FAILED
    | some u =>
      let ok : Bool := match u with
        | .site s => b.enrolled s
        | _ => passed
      if !ok then (b.defect src 3).restoreEnd Code.FLT_RESTORE_FAILED
      else
        let b := b.unstruck src
        let b := match u with
          | .core c => b.restoreCore c
          | .bank p => b.restoreBank p
          | .channel n ch => b.restoreChannel n ch
          | _ => b
        (b.restoreEnd Code.SUCCESS).partStates

def execRestoreTestDone (passed : Bool) (s : State) : Host.Outcome State Fault Refusal :=
  .next (s.upd fun b => b.restoreTested passed)

/-! ### Injection (R348) -/

/-- A record built from FC_INJECT's fields. -/
def Block.injectRecord (b : Block) (src kind aux cnt addr : Nat) : Block :=
  let r : Record := ⟨src, kind, aux, cnt, addr, false, true, false, b.now⟩
  ({ b with fc := { b.fc with inQ := r.enqueue b.fc.inQ } } : Block).wr Reg.FC_INJECT_STATUS.BUSY 1

/-- The pair that a source and a pair kind name. -/
def Pair.named (src kind : Nat) : Option FaultPair :=
  if kind = Kind.DENOB_LOCKSTEP ∧ src = Src.denob then some .denob
  else if kind = Kind.COLLECTOR_LOCKSTEP ∧ src = Src.collector then some .collector
  else if kind = Kind.CLOCK ∧ src = Src.rootClock then some .clock
  else if kind = Kind.AXOVONAK_ALARM ∧ src = Src.axovonak then some .axovonak
  else if h : kind = Kind.SUPPLY ∧ src - Src.rail 0 < 16 then
    if Src.rail 0 ≤ src then some (.supply ⟨src - Src.rail 0, h.2⟩) else none
  else if h : kind = Kind.THERMAL_TRIP ∧ src - Src.sensor 0 < 68 then
    if Src.sensor 0 ≤ src then some (.thermal ⟨src - Src.sensor 0, h.2⟩) else none
  else none

/-- MODE 1: the fault is made in hardware. -/
def Block.injectFault (b : Block) (src kind aux cnt addr : Nat) : Block :=
  let frames (b : Block) : Block :=
    if cnt = 0 then b
    else ({ b with fc := { b.fc with corruptFrames := SMap.put (fun _ => 0) b.fc.corruptFrames src cnt } } : Block).wr
      Reg.FC_INJECT_STATUS.BUSY 1
  match FUnit.ofSource src, Pair.named src kind with
  | some (.bank _), _ =>
    if addr < 2 ^ 29 ∧ cnt ≠ 0 then
      { b with shelf := { b.shelf with upset := SMap.put (fun _ => 0) b.shelf.upset (addr / 8 * 8) (min cnt 2) } }
    else b
  | some (.channel _ _), _ =>
    if addr < b.lineSpace then
      let g := b.chPhys (Hbm.place b.hbmNd (addr / 256 * 256))
      { b with hbm := { b.hbm with tags := SMap.put (fun _ => 0) b.hbm.tags g (~~~ (SMap.get (fun _ => 0) b.hbm.tags g)) } }
    else b
  | some (.laneGroup _ _), _ => frames b
  | some (.reachLane _ _), _ => frames b
  | _, some p =>
    if cnt = 0 then b
    else
      let n := (Pair.of p).1
      let b := { b with fc := { b.fc with injectPair := some (n, b.now + usToCycles cnt) } }
      if b.pairState n = 0 ∨ b.pairState n = 2 then (b.setPair n 3).pairRecord p else b
  | _, none => b.injectRecord src kind aux cnt addr

/-- INJECT: FC_INJECT written with GO. -/
def Block.inject (b : Block) (src kind aux cnt : Nat) (mode1 : Bool) : Block :=
  let b := (b.wr Reg.FC_INJECT00.SOURCE src).wr Reg.FC_INJECT00.KIND kind
  let b := ((b.wr Reg.FC_INJECT00.AUX aux).wr Reg.FC_INJECT00.COUNT cnt).wr Reg.FC_INJECT00.MODE (b01 mode1)
  if b.lc ≠ Lc.TEST then b.wr Reg.FC_INJECT_STATUS.DENIED 1
  else
    let addr := b.rd Reg.FC_INJECT08.ADDR
    (if mode1 then b.injectFault src kind aux cnt addr else b.injectRecord src kind aux cnt addr).fcStatus

def execInject (source : Fin 4096) (kind : BitVec 8) (aux : BitVec 12) (count : BitVec 16) (mode1 : Bool) (s : State) :
    Host.Outcome State Fault Refusal :=
  .next (s.upd fun b => b.inject source kind.toNat aux.toNat count.toNat mode1)

/-! ### WAVE (R329) -/

/-- WAVE_REFRESH: a stopped collector refreshes nothing. -/
def execWaveRefresh (s : State) : Host.Outcome State Fault Refusal :=
  .next (s.upd fun b =>
    if b.fc.restarting.isSome then b else ({ b with fc := { b.fc with waveLapsed := false } } : Block).fcStatus)

/-- WAVE_RESUME: no record has been uncleared for 4 ms. -/
def execWaveResume (s : State) : Host.Outcome State Fault Refusal :=
  .next (s.upd fun b =>
    if b.fc.opened.isEmpty then ({ b with fc := { b.fc with waveStopped := false } } : Block).fcStatus else b)

/-- WAVE_REFRESH_LAPSE. -/
def execWaveRefreshLapse (s : State) : Host.Outcome State Fault Refusal :=
  .next (s.upd fun b => ({ b with fc := { b.fc with waveLapsed := true } } : Block).fcStatus)

/-! ### Device-fatal events and polls -/

/-- FATAL_AUTO_RESET (R345). -/
def execFatalAutoReset (s : State) : Host.Outcome State Fault Refusal :=
  .next (s.upd fun b => if b.fc.fatalAt.isSome && b.is Reg.FC_CFG.FATAL_AUTO_RESET then b.startWarm 3 false else b)

/-- One router's answer to a poll, or its third miss in a row (R324). -/
def Block.pollRouter (b : Block) (r : Nat) (answered : Bool) : Block :=
  let n := if answered then 0 else SMap.get (fun _ => 0) b.fc.pollMiss r + 1
  let b := { b with fc := { b.fc with pollMiss := SMap.put (fun _ => 0) b.fc.pollMiss r (if n < 3 then n else 0) } }
  if n < 3 then b else b.pennant (Src.router r) Kind.SPINE_SILENT 0 0

/-- ROUTER_POLL: bit r of `answered` is router r's. -/
def execRouterPoll (answered : BitVec 32) (s : State) : Host.Outcome State Fault Refusal :=
  .next (s.upd fun b => (List.range 32).foldl (fun b r => b.pollRouter r (answered.getLsbD r)) b)

/-! ### Denob's restart (R256, R257) -/

/-- A new bank has passed its self-check. -/
def Block.dnSwitched (b : Block) (o : Otp) : Block × Otp :=
  if !b.dn.switched then (b, o)
  else
    let b := { b with dn := { b.dn with switched := false } }
    let b := (b.wr Reg.DN_STATUS.LAST_FW_STATUS Code.SUCCESS).wr Reg.DN_STATUS.BANK_FAILED 0
    let o := if b.is Reg.SEC_FW_STATUS.COMMIT_SVN ∧ o.dnMin < b.sec.dnRun.svn then { o with dnMin := b.sec.dnRun.svn } else o
    ((b.wr Reg.SEC_FW_STATUS.DN_MIN_SVN o.dnMin).activationEnd Journal.DONE Code.SUCCESS, o)

/-- DENOB_RESTART_DONE: firmware runs, and the steps it was in replay. -/
def execDenobRestartDone (s : State) : Host.Outcome State Fault Refusal :=
  .next (s.updFuse fun b o =>
    if !b.dn.restarting then (b, o)
    else
      let b := ({ b with dn := { b.dn with restarting := false } } : Block).wr Reg.DN_STATUS.RUNNING 1
      let r := b.dnSwitched o
      (r.1.recoveriesAdvance.recordsSettle, r.2))

end Sys2Proof.Machine
end

