-- ==== Sys2Proof/Machine/Halyard.lean ====
section
/-! DEFINITION. Halyard's commands (13). A packet's own unit takes its request or response as its own row's operand; here
the network carries the header (DESIGN CHOICE, assumption 7). -/

namespace Sys2Proof.Machine

/-- A packet's word errors in transit (R283, R284; a router that is not on its route meets none): corrected beats are counted; an uncorrectable one is counted, logged,
raised against the router or tap that found it, and poisons data or discards the packet. -/
def Block.hyTransit (b : Block) (p : HyPacket) : HyUpset → Block × Option HyPacket
  | .clean => (b, some p)
  | .corrected n => (b.count Reg.HY_ECC_CE.COUNT n.toNat, some p)
  | .uncorrectable header router link =>
    if !(Hy.path p.src p.dst).contains router then (b, some p)
    else
    let b := b.count Reg.HY_ECC_UE.COUNT 1
    let port := if link.val < 4 then p.src else p.dst
    let b := b.hyErrLog router link.val port (if header then Hy.HEADER else Hy.DATA)
    let b := b.pennant (if link.val < 4 then Src.router router else Src.tap p.dst) Kind.HY_UNCORRECTABLE link.val p.addr
    (b, if header then none else some { p with poison := true })

/-- A packet crosses the mesh and arrives. -/
def Block.hyCarry (b : Block) (p : HyPacket) (u : HyUpset) : Block :=
  match b.hyTransit p u with
  | (b, none) => b
  | (b, some p) => b.hySend p

/-- Inject and carry the waiting request that goes next. -/
def Block.hyGo (b : Block) (u : HyUpset) : Block :=
  match b.hyNext with
  | none => b
  | some q => (((b.modHy fun h => { h with waiting := h.waiting.erase q }).hyTurn q.ensign).hyInject q).hyCarry q u

/-- HALYARD_INJECT (R277–R280, R283–R285): a packet that a unit presents is carried at its ensign and joins its tap; then a
request that no ceiling, regulator or older request of its ensign holds is injected and carried. A response, snoop or pennant
is not held. -/
def execHalyardInject (present : Option HyCmd) (upset : HyUpset) (s : State) : Host.Outcome State Fault Refusal :=
  .next (s.upd fun b =>
    let now : Option HyPacket := present.map fun c =>
      ⟨c.dst, c.src, c.ensign, c.kind, c.tag.toNat, c.len1 + 1, c.slice, c.gen.toNat, false, c.addr.toNat, c.status.toNat, b.now⟩
    match now with
    | none => b.hyGo upset
    | some p =>
      if p.isReq then
        let e := b.hyEnsign p.src p.ensign
        let b := if e.2 then b.hyLive p.src fun l => { l with remap := satAdd 32 l.remap 1 } else b
        (b.modHy fun h => { h with waiting := h.waiting ++ [{ p with ensign := e.1 }] }).hyGo upset
      else b.hyCarry p upset)

/-- DOMAIN_WAKE (R281): a domain that has power is up, and the packets held for it and those behind them go on in order. -/
def execDomainWake (domain : Fin 212) (s : State) : Host.Outcome State Fault Refusal :=
  .next (s.upd fun b =>
    if !NSet.has b.hy.waking domain || b.powerOff domain then b
    else
      let b := (b.setGated domain false).count Reg.HY_WAKES.COUNT 1
      let b := b.modHy fun h => { h with waking := NSet.erase h.waking domain }
      (b.wr Reg.HY_STATUS.WAKING b.hy.waking.length).hyRelease)

/-- WAKE_TIMEOUT (R281): held requests complete with HY_WAKE_FAILED, held responses are discarded, and a pennant names the
domain. -/
def execWakeTimeout (domain : Fin 212) (s : State) : Host.Outcome State Fault Refusal :=
  .next (s.upd fun b =>
    if !NSet.has b.hy.waking domain then b
    else
      let mine (p : HyPacket) : Bool := (Hy.domains p.dst p.addr).contains domain
      let lost := b.hy.heldPkts.filter mine
      let b := b.modHy fun h => { h with
        waking := NSet.erase h.waking domain
        heldPkts := h.heldPkts.filter fun p => !mine p }
      let b := b.wr Reg.HY_STATUS.WAKING b.hy.waking.length
      let b := lost.foldl (fun b p => if !p.isReq then b else match b.hyFind p.src p.tag with
        | some o => b.hyEnd o Code.HY_WAKE_FAILED false
        | none => b) b
      let b := match lost with
        | p :: _ => b.hyErrLog (Hy.routerOf p.dst p.src) (4 + Hy.tapOf p.dst p.src) p.dst Hy.WAKE
        | [] => b
      (b.pennant Src.power Kind.HY_WAKE_FAIL domain 0).hyRelease)

/-- Whether a unit of Table PWR-2 has queued work or an outstanding request of its own (R392). -/
def Block.unitBusy (b : Block) (d : Nat) : Bool :=
  if d < 108 then
    (List.range 32).any fun p => b.is (Reg.MH_CORE_MAP.VALID p) && decide (b.rd (Reg.MH_CORE_MAP.PHYS p) = d / 3) &&
      (let v := b.posState p
       if d % 3 = 0 then v.slots.any (fun e => e.2.isSome) || !v.held.isEmpty
         || b.queues.any fun e => decide (b.home (e.1 / 4) (e.1 % 4) = p) && !e.2.inflight.isEmpty
       else if d % 3 = 1 then v.vec.run.isSome || !v.unitQ.isEmpty
       else v.red.isSome || !v.colls.isEmpty || !v.unitQ.isEmpty)
  else if d < 140 then
    b.shelf.bankQ.any (fun e => decide (e.1 / 16 = d - 108) && !e.2.isEmpty) || b.shelf.copies.any fun c => decide (c.lbank / 16 = d - 108)
  else if d < 156 then b.hbm.pcs.any fun e => decide (e.1 / 64 = (d - 140) % 8) && !e.2.q.isEmpty
  else if d < 184 then
    let s := if d < 168 then d - 156 else 12 + (d - 168) / 4
    let v := b.site s
    v.tags.any (fun e => e.2.isSome) || !v.siteTags.isEmpty || !v.txq.isEmpty || !v.owed.isEmpty
      || !v.link.held.isEmpty || !v.link.txWait.isEmpty
  else if d < 192 then
    let v := b.rport ((d - 184) / 2)
    !v.held.isEmpty || !v.txq.isEmpty || !v.txWait.isEmpty
  else if d < 196 then b.ep.slots.any (fun e => e.2.isSome) || !b.ep.waiting.isEmpty
  else if d < 204 then b.coh.txns.any fun t => decide (t.line / 64 % 8 = d - 196)
  else if d = 209 then !b.sec.installs.isEmpty || b.sec.stage.isSome
  else if d = 210 then !b.xlat.ats.isEmpty || !b.xlat.groups.isEmpty
  else false

/-- IDLE_GATE (R392, R281): a domain idle for IDLE_US is gated, but not one that is always on, that a packet waits for, to
which a request is outstanding, or whose unit has work. -/
def execIdleGate (domain : Fin 212) (s : State) : Host.Outcome State Fault Refusal :=
  .next (s.upd fun b =>
    let toIt (p : HyPacket) : Bool := (Hy.domains p.dst p.addr).contains domain
    if !b.is Reg.PW_GATE_CFG.EN || Hy.alwaysOn domain || b.hy.heldPkts.any toIt
        || b.hy.outstanding.any (fun o => toIt o.pkt || (Hy.domains o.pkt.src o.pkt.addr).contains domain) || b.unitBusy domain then b
    else b.setGated domain true)

/-- HY_REQ_TIMEOUT (R282): an outstanding request completes with HY_TIMEOUT, and its tag is free. -/
def execHyReqTimeout (port : Fin 105) (tag : BitVec 12) (s : State) : Host.Outcome State Fault Refusal :=
  .next (s.upd fun b =>
    match b.hyFind port tag.toNat with
    | none => b
    | some o =>
      let p := o.pkt
      let b := (b.hyEnd o Code.HY_TIMEOUT false).count Reg.HY_TIMEOUTS.COUNT 1
      let b := b.modHy fun h => { h with heldPkts := h.heldPkts.filter fun q => !(q.isReq && decide (q.src = p.src) && decide (q.tag = p.tag)) }
      b.hyErrLog (Hy.routerOf p.src p.dst) (4 + Hy.tapOf p.src p.dst) p.src Hy.TIMEOUT)

/-- One port's live counters go into its registers and become zero. -/
def Block.hySnapPort (b : Block) (port : Nat) : Block :=
  let l := SMap.get (fun _ => HyLive.zero) b.hy.live port
  let b := (b.wr (Reg.HY_STAT_REQS.COUNT port) l.reqs).wr (Reg.HY_STAT_REMAP.COUNT port) l.remap
  let b := (b.wr (Reg.HY_STAT_BYTES.COUNT port) l.bytes).wr (Reg.HY_STAT_LAT_SUM.COUNT port) l.latSum
  b.wr (Reg.HY_STAT_LAT_MAX.CYCLES port) l.latMax

/-- SNAP (R285). -/
def Block.hySnap (b : Block) : Block := ((List.range 128).foldl (fun b p => b.hySnapPort p) b).modHy fun h => { h with live := [] }

def execSnap (s : State) : Host.Outcome State Fault Refusal := .next (s.upd fun b => b.hySnap)

end Sys2Proof.Machine
end

