-- ==== Sys2Proof/Machine/Memory.lean ====
section
/-! DEFINITION. The shelf and HBM commands (02). -/

namespace Sys2Proof.Machine

/-- A request that reaches a memory: refused by the map or the firewall, held back for coherence, or served (R13, R15,
R211). -/
def Block.arrive (b : Block) (r : MemReq) (serve : Block → Block) : Block :=
  if !r.whole then b
  else match b.checkReq r.who r.addr r.op.right with
    | (b, some st) => b.emit (.memResp r.who r.tag st (match r.op with
      | .read => zeros r.len
      | _ => []))
    | (b, none) =>
      let ls := b.cohNeeds r.addr r.len (r.op != .read)
      if ls.isEmpty then serve (b.cohLookups r.addr r.len)
      else ls.foldl (fun b l => b.lineIssue l (r.op != .read)) b

/-! ### Shelf banks (R26–R30) -/

/-- SHELF_REQUEST (R26): word errors of a device appear, a request joins its bank's queue, and the bank performs one
beat. -/
def execShelfRequest (bank : Fin 512) (arrive : Option MemCmd) (upset : Option ShelfUpset) (s : State) :
    Host.Outcome State Fault Refusal :=
  .next (s.upd fun b =>
    let b := match upset with
      | some u => { b with shelf := { b.shelf with upset := SMap.put (fun _ => 0) b.shelf.upset (8 * u.word.val) u.bits.val } }
      | none => b
    let b := match arrive with
      | some c =>
        let r := MemReq.of c
        if b.range r.addr = Range.shelf then
          b.arrive r fun b => b.setBankQueue (Shelf.lbank r.addr)
            (b.bankQueue (Shelf.lbank r.addr) ++ [(⟨r, 0, [], Code.SUCCESS⟩ : BankReq)])
        else b
      | none => b
    b.bankServe bank)

/-- SHELF_ECC_WRITEBACK (R29): in a free cycle the first corrected word of the bank is written back; a queued write to it
makes that unnecessary. -/
def execShelfEccWriteback (bank : Fin 512) (s : State) : Host.Outcome State Fault Refusal :=
  .next (s.upd fun b =>
    match b.shelf.writeBack.find? fun wa => Shelf.lbank wa = bank.val with
    | none => b
    | some wa =>
      let q := b.bankQueue bank
      let dropped := q.any fun r => r.req.op != .read && decide (r.req.addr ≤ wa) && decide (wa + 8 ≤ r.req.addr + r.req.len)
      if !dropped && !q.isEmpty then b
      else { b with shelf := { b.shelf with
        writeBack := b.shelf.writeBack.filter fun x => x ≠ wa
        upset := if dropped then b.shelf.upset else SMap.put (fun _ => 0) b.shelf.upset wa 0 } })

/-- Copy the beats `[c.cursor, to)` of a struck bank: correctable words are corrected, uncorrectable ones arrive poisoned
(R33). -/
def Block.copyBeats (b : Block) (c : BankCopy) (upTo : Nat) : Block :=
  let inside (wa : Nat) : Bool := decide (Shelf.lbank wa = c.lbank) && decide (c.cursor ≤ Shelf.beat wa)
    && decide (Shelf.beat wa < upTo)
  let bad := (b.shelf.upset.filter fun e => inside e.1 && decide (2 ≤ e.2)).map fun e => e.1
  { b with shelf := { b.shelf with
      poison := bad.foldl (fun s wa => NSet.insert wa s) b.shelf.poison
      upset := SMap.dropWhere inside b.shelf.upset
      copies := b.shelf.copies.map fun x => if x.lbank = c.lbank then { x with cursor := upTo } else x } }

/-- Whether a request in the queue of a copy's bank touches a beat at or above the cursor (R33). -/
def Block.copyWaits (b : Block) (c : BankCopy) : Bool :=
  (b.bankQueue c.lbank).any fun q => decide (c.cursor ≤ Shelf.beat (q.req.addr + q.req.len - 1))

/-- BANK_COPY_DONE (R33): due once no queued request holds the cursor back. -/
def execBankCopyDone (bank : Fin 512) (s : State) : Host.Outcome State Fault Refusal :=
  .next (s.upd fun b =>
    match b.shelf.copies.find? fun c => c.lbank = bank.val with
    | none => b
    | some c =>
      if b.copyWaits c then b else
      let b := b.copyBeats c 16384
      let b := { b with shelf := { b.shelf with copies := b.shelf.copies.filter fun x => x.lbank ≠ bank.val } }
      (b.setBankMap bank c.spare).recordsSettle)

/-- SHELF_FILL: a write to SH_FILL_CTRL with GO and `count` (R35 and the register's text); without effect while BUSY. -/
def Block.shelfFill (b : Block) (count : Nat) : Block :=
  if b.is Reg.SH_FILL_CTRL.BUSY then b
  else
    let blk := b.rd Reg.SH_FILL_BASE.BLOCK
    let n := max 1 (min count (131072 - blk))
    let b := (b.wr Reg.SH_FILL_CTRL.COUNT n).wr Reg.SH_FILL_CTRL.BUSY 1
    { b with shelf := { b.shelf with fill := some ⟨blk, n⟩ } }

def execShelfFill (count : BitVec 18) (s : State) : Host.Outcome State Fault Refusal :=
  .next (s.upd fun b => b.shelfFill count.toNat)

/-- The lines of `[lo, hi)` that an agent may hold or that a transaction is open on. -/
def Block.linesIn (b : Block) (lo hi : Nat) : List Nat :=
  let inside (l : Nat) : Bool := decide (lo ≤ 64 * l) && decide (64 * l < hi)
  (((b.coh.dir.flatMap fun e => e.2).map fun d => d.line) ++ b.coh.txns.map fun t => t.line).eraseDups.filter inside

/-- Count the directory lookups of a fill: the lines of `[lo, hi)` in windows. -/
def Block.cohSpan (b : Block) (lo hi : Nat) : Block :=
  if !b.is Reg.CO_STATUS.WINDOWS_VALID then b
  else (List.range 16).foldl (fun b n =>
    let base := b.rd (Reg.CO_WIN00.BASE n) * 2 ^ 21
    let top := base + b.rd (Reg.CO_WIN00.SIZE n) * 2 ^ 21
    if b.is (Reg.CO_WIN00.VALID n) then b.count Reg.CO_LOOKUPS.COUNT ((min hi top - max lo base) / 64) else b) b

/-- SHELF_FILL_DONE: every holder of a line is invalidated first (R211); every word of the blocks is zero with valid check bits, unpoisoned, and their seals empty; blocks of a
struck group take no write (R34). -/
def execShelfFillDone (s : State) : Host.Outcome State Fault Refusal :=
  .next (s.upd fun b =>
    match b.shelf.fill with
    | none => b
    | some f =>
      let lo := 4096 * f.block
      let hi := 4096 * (f.block + f.count)
      let held := b.linesIn lo hi
      if !held.isEmpty then held.foldl (fun b l => b.lineIssue l true) b else
      let b := (b.cohSpan lo hi)
      let b := (List.range 32).foldl (fun b g =>
        if b.groupStruck g then b
        else b.shelfZero (max (4096 * f.block) (g * 2 ^ 24)) (min (4096 * (f.block + f.count)) ((g + 1) * 2 ^ 24))) b
      { b.wr Reg.SH_FILL_CTRL.BUSY 0 with shelf := { b.shelf with fill := none } })

/-- SHELF_SCRUB (R29): the bank's next beat is read and corrected or found uncorrectable. -/
def execShelfScrub (bank : Fin 512) (s : State) : Host.Outcome State Fault Refusal :=
  .next (s.upd fun b =>
    if !b.is Reg.SH_CFG.SCRUB_EN ∨ b.groupStruck (bank / 16) then b
    else
      let k := SMap.get (fun _ => 0) b.shelf.scrubBeat bank
      let a := Shelf.beatAddr bank k
      let b := (b.shelfCheck .read false a (a + 64) Code.SUCCESS).1
      { b with shelf := { b.shelf with
          scrubBeat := SMap.put (fun _ => 0) b.shelf.scrubBeat bank ((k + 1) % 16384) } })

/-! ### HBM (R43–R54) -/

/-- HBM_READ (R50): errors of a stack appear, and a read is performed. -/
def execHbmRead (req : MemCmd) (err : Option StackError) (s : State) : Host.Outcome State Fault Refusal :=
  .next (s.upd fun b =>
    let b := match err with
      | some e => { b with hbm := { b.hbm with
          err := SMap.put (fun _ => HbmErr.mk 0 0) b.hbm.err (Hbm.gran e.stack e.chan e.line)
            (if e.kind.val = 0 ∨ e.times.val = 0 then ⟨0, 0⟩ else ⟨e.kind, e.times⟩) } }
      | none => b
    let r := { MemReq.of req with op := .read }
    match b.range r.addr with
    | .hbm o => b.arrive r fun b => b.hbmServe none o r
    | _ => b)

/-- HBM_WRITE (R43): a write or memory-side add is accepted by its write case. -/
def execHbmWrite (req : MemCmd) (s : State) : Host.Outcome State Fault Refusal :=
  .next (s.upd fun b =>
    let r := MemReq.of req
    match b.range r.addr, r.op with
    | _, .read => b
    | .hbm o, _ => b.arrive r fun b => b.hbmServe none o r
    | _, _ => b)

/-- STRIPE_GATHER_TIMEOUT (R43). -/
def execStripeGatherTimeout (stripe : BitVec 29) (s : State) : Host.Outcome State Fault Refusal :=
  .next (s.upd fun b => b.flushStripe stripe.toNat)

/-- STRIPE_LOCK_GRANT (R44). -/
def execStripeLockGrant (stripe : BitVec 29) (s : State) : Host.Outcome State Fault Refusal :=
  .next (s.upd fun b => b.stripeGrant stripe.toNat)

/-- REORDER_QUEUE_ISSUE (R45). -/
def execReorderQueueIssue (pc : Fin 512) (s : State) : Host.Outcome State Fault Refusal :=
  .next (s.upd fun b => b.issueDram pc)

/-- HBM_REFRESH (R47): the bank is refreshed and its row closes; the model's idle step ends the refresh, whose length the
spec does not give (DESIGN CHOICE, assumption 16). -/
def execHbmRefresh (pc : Fin 512) (bank : Fin 16) (s : State) : Host.Outcome State Fault Refusal :=
  .next (s.upd fun b =>
    let c := b.pc pc
    if c.training then b
    else b.setPc pc { c with
      refreshing := NSet.insert bank.val c.refreshing, openRow := SMap.put (fun _ => 0) c.openRow bank 0 })

/-- STACK_TEMPERATURE (R47). -/
def execStackTemperature (stack : StackNo) (celsius : BitVec 8) (s : State) : Host.Outcome State Fault Refusal :=
  .next (s.upd fun b =>
    (b.wr (Reg.HM_TEMP.TEMP stack) celsius.toNat).wr (Reg.HM_TEMP.REFRESH_2X stack) (b01 (85 < celsius.toNat)))

/-- HBM_RETRAIN (R47): at most one pseudo-channel of a stack trains at a time; a struck channel does not. -/
def execHbmRetrain (pc : Fin 512) (s : State) : Host.Outcome State Fault Refusal :=
  .next (s.upd fun b =>
    if (b.hbm.pcs.any fun e => decide (e.1 / 64 = pc.val / 64) && e.2.training) ∨ NSet.has b.hbm.struckCh (pc / 2) then b
    else b.setPc pc { b.pc pc with training := true, holdTime := b.now })

/-- HBM_RETRAIN_END (R47, R45 rule 6): the hold ends and its time does not age the accesses; a failed retrain raises
HBM_CHANNEL_FAIL. -/
def execHbmRetrainEnd (pc : Fin 512) (passed : Bool) (s : State) : Host.Outcome State Fault Refusal :=
  .next (s.upd fun b =>
    let c := b.pc pc
    if !c.training then b
    else
      let d := b.now - c.holdTime
      let b := b.setPc pc { c with
        training := false, holdTime := 0
        q := c.q.map fun e => { e with queued := if e.queued ≤ c.holdTime then e.queued + d else b.now } }
      if passed then b else b.pennant (Src.channel (pc / 64) (pc / 2 % 32)) Kind.HBM_CHANNEL_FAIL 0 0)

/-- REBUILD_STEP (R52): the next line of a running rebuild of logical channel `chan` of `stack`, once the lock of the line's
stripe is free (R44). Its accesses take ensign 7, as the patrol's do (assumption 60). -/
def execRebuildStep (stack : StackNo) (chan : ChanNo) (s : State) : Host.Outcome State Fault Refusal :=
  .next (s.upd fun b =>
    match b.hbm.rebuilds.find? fun r => decide (r.srcStack = stack.val) && decide (r.k = chan.val) && r.running with
    | none => b
    | some r =>
      let m := r.cursor * b.hbmNd + r.k
      if b.lockWaits none m ∨ !(b.stripe m).held.isEmpty then b
      else
        let b := (b.rebuildLine r).dramPost 7 []
        let r' := { r with cursor := r.cursor + 1 }
        let others := b.hbm.rebuilds.filter fun q => q ≠ r
        if b.hbmLines ≤ r'.cursor then
          let b := { b with hbm := { b.hbm with rebuilds := others } }
          let b := b.journalEnd r.journal (if r.resumed then Journal.ROLLED_FORWARD else Journal.DONE) 0
          (((b.wr (Reg.HM_CHMAP.STATE r.srcStack r.k) 1).showRebuild r' false).startRebuilds).recordsSettle
        else
          let b := { b with hbm := { b.hbm with rebuilds := b.hbm.rebuilds.map fun q => if q = r then r' else q } }
          -- the journal keeps the cursor at each 64 MiB of line space
          let b := if r.cursor * 256 * 8 * b.hbmNd / 2 ^ 26 ≠ r'.cursor * 256 * 8 * b.hbmNd / 2 ^ 26 then b.journalPhase r.journal 1 r'.cursor else b
          b.showRebuild r' true)

/-- The key the patrol checks a granule's tag with: KEY_MODE 1 regions, and the hub reserve under the hub key; the tag of a
parity granule is no CMAC (R48). -/
def Block.patrolKey (b : Block) (x : Nat) : Bool × Nat × Option Nat :=
  let parity : Bool := decide (x = Hbm.parityX (x / 2048))
  if b.reserveX ≤ x ∧ x < b.lineSpace then (true, 1, if parity then none else some 0)
  else match (b.regionNums.map b.region).find? fun q =>
      decide (q.dataX * 256 ≤ x) && decide (x < q.dataX * 256 + q.dataFoot)
        || decide (q.sealX * 256 ≤ x) && decide (x < q.sealX * 256 + q.sealFoot) with
    | some q =>
      (q.prot, q.keyMode, if q.keyMode = 1 ∧ !(q.prot && parity) then b.regionKey q none else none)
    | none => (false, 0, none)

/-- HBM_PATROL_SCRUB (R54): one granule of every data channel is read and repaired. -/
def execHbmPatrolScrub (s : State) : Host.Outcome State Fault Refusal :=
  .next (s.upd fun b =>
    if !b.is Reg.HM_FE_SCRUB.EN then b
    else
      let nd := b.hbmNd
      ((List.range 8).flatMap fun st => (List.range nd).map fun k => (st, k)).foldl (fun b c =>
        let key := 32 * c.1 + c.2
        let l := SMap.get (fun _ => 0) b.hbm.scrubLine key
        let x := Hbm.lineAt nd c.1 c.2 l
        let b := if b.readable ⟨c.1, c.2, l⟩ then
            match b.patrolKey x with
            | (prot, mode, k) => (b.granRead prot mode k x).1.dramPost 7 []
          else b
        let next := if b.hbmLines ≤ l + 1 then 0 else l + 1
        { b with hbm := { b.hbm with scrubLine := SMap.put (fun _ => 0) b.hbm.scrubLine key next } }) b)

end Sys2Proof.Machine
end

