-- ==== Sys2Proof/Machine/PowerOps.lean ====
section
/-! DEFINITION. The power manager's operations (19): budgets, dips, half-mast and temperatures. -/

namespace Sys2Proof.Machine

/-! ### Budgets (R394, R395) -/

/-- The burgee's POWER record. -/
def Block.powerRec (b : Block) (s : Nat) : Nat := b.rd (Reg.ST_SWP_BURGEE.DATA s 7)
def Power.min (r : Nat) : Nat := bits r 0 12
def Power.max (r : Nat) : Nat := bits r 12 12
def Power.initial (r : Nat) : Nat := bits r 24 12
def Power.tjMax (r : Nat) : Nat := bits r 36 8

def Block.enrolledSites (b : Block) : List Nat := (List.range 16).filter b.enrolled

/-- The site pool, in 0.5 W units (R393). -/
def Block.pool (b : Block) : Nat := 2 * (b.rd Reg.PW_CFG.PKG_W - b.rd Reg.PW_CFG.HUB_W)

def Block.sumMin (b : Block) : Nat := (b.enrolledSites.map fun s => Power.min (b.powerRec s)).sum
def Block.sumWeight (b : Block) : Nat := (b.enrolledSites.map fun s => b.rd (Reg.PW_SITE_CFG.WEIGHT s)).sum

/-- R395's grant. -/
def Block.grantOf (b : Block) (s : Nat) : Nat :=
  let r := b.powerRec s
  if !(b.sitePw s).started then Power.initial r
  else if b.sumMin ≤ b.pool then
    Nat.min (Power.max r) (Power.min r + (b.pool - b.sumMin) * b.rd (Reg.PW_SITE_CFG.WEIGHT s) / b.sumWeight)
  else Power.min r * b.pool / b.sumMin

/-- BUDGET_GRANT to one site; a lateral site held at its fixed limit takes none (R396, R400). -/
def Block.sendGrant (b : Block) (s g : Nat) : Block :=
  if (b.sitePw s).isolatedSince.isSome then b
  else
    let q := ((b.sitePw s).seq + 1) % 65536
    let b := (b.modPw s fun p => { p with seq := q, unanswered := true, started := true }).wr
      (Reg.PW_SITE_STATUS.GRANT s) g
    b.sideband s 0x10 q g

/-- R393's duty: one step lost for each period above HUB_W or with a hot core sensor, one regained otherwise; THROTTLE is the
greater of the two losses. -/
def Block.adjustDuty (b : Block) (hubW : Nat) : Block :=
  let lim := b.rd Reg.PW_CFG.HUB_W
  let hot : Bool := (List.range 36).any fun c =>
    decide ((4 * b.rd Reg.TH_CFG.HUB_THROTTLE_C : Int) ≤ signed (b.rd (Reg.TH_SENSOR.TEMP (32 + c))) 12)
  let p := if lim < hubW then Nat.min 15 (b.pw.lostPower + 1) else if hubW + 10 < lim then b.pw.lostPower - 1 else b.pw.lostPower
  let t := if hot then Nat.min 15 (b.pw.lostHeat + 1) else b.pw.lostHeat - 1
  ({ b with pw := { b.pw with lostPower := p, lostHeat := t } } : Block).wr Reg.PW_STATUS.THROTTLE (Nat.max p t)

/-! ### Dips (R398) -/

/-- DIP to one enrolled site. -/
def Block.sendDip (b : Block) (s pct us : Nat) (auto : Bool) : Block :=
  if b.enrolled s then b.putDip s pct us auto else b

def Block.sendAutoDip (b : Block) (s : Nat) : Block :=
  b.sendDip s (b.rd Reg.PW_DIP_CFG.AUTO_PCT) (b.rd Reg.PW_DIP_CFG.AUTO_US) true

/-- The package power of a period in W, doubled: the hub's and every site's report. -/
def Block.packagePower2 (b : Block) (hubW : Nat) : Nat :=
  2 * hubW + (b.enrolledSites.map fun s => b.rd (Reg.PW_SITE_STATUS.REPORTED s)).sum

/-- The second period in a row above PKG_W dips every enrolled site that no automatic dip holds. -/
def Block.autoDip (b : Block) (hubW : Nat) : Block :=
  let n := if 2 * b.rd Reg.PW_CFG.PKG_W < b.packagePower2 hubW then Nat.min 2 (b.pw.excess + 1) else 0
  let b := { b with pw := { b.pw with excess := n } }
  if n < 2 ∨ !b.is Reg.PW_DIP_CFG.AUTO_EN then b
  else b.enrolledSites.foldl (fun b s => match (b.sitePw s).dip with
    | some (true, _) => b
    | _ => b.sendAutoDip s) b

/-! ### Temperatures (R399, R401) -/

/-- The hotter of the two sensors beneath a stacked site, in quarter degrees. -/
def Block.beneath (b : Block) (s : Nat) : Int :=
  max (signed (b.rd (Reg.TH_SENSOR.TEMP (2 * s))) 12) (signed (b.rd (Reg.TH_SENSOR.TEMP (2 * s + 1))) 12)

/-- HALFMAST's temperature cause as the silicon beneath a site warms or cools. -/
def Block.beneathUpdate (b : Block) (s : Nat) : Block :=
  let t := b.beneath s
  let hm : Int := 4 * b.rd (Reg.PW_SITE_CFG.HM_C s)
  let b := b.wr (Reg.PW_SITE_STATUS.BENEATH_C s) (toBits (t / 4) 8)
  let b := b.modPw s fun p => { p with coolSince := if t ≤ hm - 20 then some (p.coolSince.getD b.now) else none }
  if hm ≤ t then b.hmCause s 0 true else b

/-- One sensor's update: a reading outside −40 to 150 °C breaks its pair; TRIP_C asserts it. -/
def Block.sensorUpdate (b : Block) (n : Fin 68) (raw : BitVec 12) : Block :=
  let cal := signed (b.rd (Reg.CK_CAL.FACTORY n)) 12 + signed (b.rd (Reg.CK_CAL.DELTA n)) 12
  let t := max (-2048) (min 2047 (raw.toInt + cal))
  let b := b.wr (Reg.TH_SENSOR.TEMP n) (toBits t 12)
  let k := (Pair.of (.thermal n)).1
  let b := if t < -160 ∨ 600 < t then (if b.pairState k = 3 then b else (b.setPair k 3).pairRecord (.thermal n))
    else b.samplePair (.thermal n) (decide (t < 4 * b.rd Reg.TH_CFG.TRIP_C)) (decide ((4 * b.rd Reg.TH_CFG.TRIP_C : Int) ≤ t))
  if n.val < 24 then b.beneathUpdate (n / 2) else b

end Sys2Proof.Machine
end

