-- ==== Sys2Proof/Machine/Power.lean ====
section
/-! DEFINITION. The commands of the power manager, the I3C target and the stacks' clocks (19, 21). -/

namespace Sys2Proof.Machine

/-- BUDGET_PERIOD (R393, R395, R398): the hub's power over the last period, in W. -/
def execBudgetPeriod (hubW : BitVec 12) (s : State) : Host.Outcome State Fault Refusal :=
  .next (s.upd fun b =>
    let b := (b.wr Reg.PW_STATUS.HUB_MEAS hubW.toNat).adjustDuty hubW.toNat
    let grants := b.enrolledSites.map fun k => (k, b.grantOf k)
    let b := b.wr Reg.PW_STATUS.OVERCOMMIT (b01 (decide (b.pool < b.sumMin)))
    let b := grants.foldl (fun b g => b.sendGrant g.1 g.2) b
    b.autoDip hubW.toNat)

/-- GRANT_MISSED (R396, R399, R400). -/
def execGrantMissed (site : SiteNo) (s : State) : Host.Outcome State Fault Refusal :=
  .next (s.upd fun b =>
    if !(b.sitePw site).unanswered then b
    else
      let n := min 3 (b.rd (Reg.PW_SITE_STATUS.MISSED site) + 1)
      let b := (b.modPw site fun p => { p with unanswered := false, answered := 0 }).wr (Reg.PW_SITE_STATUS.MISSED site) n
      if n < 3 then b
      else if Site.stacked site then b.hmCause site 1 true
      else (b.modPw site fun p => { p with isolatedSince := some b.now }).wr (Reg.PW_SITE_STATUS.GRANT site) (b.sitePw site).lastAnswered)

/-- BUDGET_ACK (R396, R399, R400): the SEQ echoed and the average power. -/
def execBudgetAck (site : SiteNo) (seq : BitVec 16) (power : BitVec 12) (s : State) : Host.Outcome State Fault Refusal :=
  .next (s.upd fun b =>
    if !b.enrolled site then b
    else
      let p := b.sitePw site
      let b := b.wr (Reg.PW_SITE_STATUS.REPORTED site) power.toNat
      if p.unanswered ∧ seq.toNat = p.seq then
        let n := min 3 (p.answered + 1)
        let b := (b.modPw site fun p => { p with
          unanswered := false, answered := n, lastAnswered := b.rd (Reg.PW_SITE_STATUS.GRANT site) }).wr (Reg.PW_SITE_STATUS.MISSED site) 0
        let b := b.hmCause site 3 false
        if n = 3 then b.hmCause site 1 false else b
      else if p.isolatedSince.isSome then b.modPw site fun p => { p with isolatedSince := none }
      else b)

/-- TEMP_REPORT (R396, R399): °C, signed. -/
def execTempReport (site : SiteNo) (temp : BitVec 8) (s : State) : Host.Outcome State Fault Refusal :=
  .next (s.upd fun b =>
    if !b.enrolled site then b
    else
      let b := b.wr (Reg.PW_SITE_STATUS.SITE_TEMP site) temp.toNat
      let tj : Int := Power.tjMax (b.powerRec site)
      if tj ≤ temp.toInt then b.hmCause site 2 true
      else if temp.toInt < tj - 5 then b.hmCause site 2 false
      else b)

/-- DIP_EXPIRY (R398): a site's dip ends; an automatic one is sent again while the excess persists. -/
def execDipExpiry (site : SiteNo) (s : State) : Host.Outcome State Fault Refusal :=
  .next (s.upd fun b =>
    match (b.sitePw site).dip with
    | none => b
    | some (auto, _) =>
      let b := ((b.modPw site fun p => { p with dip := none }).wr (Reg.PW_SITE_STATUS.DIPPED site) 0).dipAuto
      if auto && decide (1 ≤ b.pw.excess) && b.is Reg.PW_DIP_CFG.AUTO_EN then b.sendAutoDip site else b)

/-- MANUAL_DIP (R398): a write of PW_DIP, its fields clamped to their ranges. -/
def Block.manualDip (b : Block) (sites pct us : Nat) : Block :=
  (bitList sites 16).foldl (fun b k => b.sendDip k (max 1 (min pct 100)) (max 1 us) false) b

def execManualDip (sites : BitVec 16) (pct : BitVec 7) (us : BitVec 16) (s : State) : Host.Outcome State Fault Refusal :=
  .next (s.upd fun b => b.manualDip sites.toNat pct.toNat us.toNat)

/-- SENSOR_UPDATE (R399, R401): a raw reading in 0.25 °C. -/
def execSensorUpdate (sensor : Fin 68) (raw : BitVec 12) (s : State) : Host.Outcome State Fault Refusal :=
  .next (s.upd fun b => b.sensorUpdate sensor raw)

/-- HALFMAST_RELEASE (R399). -/
def execHalfmastRelease (site : SiteNo) (s : State) : Host.Outcome State Fault Refusal :=
  .next (s.upd fun b => if (b.sitePw site).coolSince.isSome then b.hmCause site 0 false else b)

/-- LAT_ISOLATE_TIMEOUT (R400). -/
def execLatIsolateTimeout (site : SiteNo) (s : State) : Host.Outcome State Fault Refusal :=
  .next (s.upd fun b => if (b.sitePw site).isolatedSince.isSome then b.siteReset site 7 else b)

/-! ### The I3C target (R410) -/

/-- I3C_OFFSET_WRITE: the first four bytes of a private write; the target answers once the preamble has ended. -/
def execI3cOffsetWrite (bytes : List Byte) (s : State) : Host.Outcome State Fault Refusal :=
  .next (s.upd fun b =>
    if b.boot.preamble then b.emit (.i3c true [])
    else if bytes.length < 4 then b
    else { b with pw := { b.pw with i3cOffset := leAt bytes 0 4 } })

/-- The offsets that R410 answers. -/
def I3c.answers (o : Nat) : Bool :=
  decide (o < 0x1000000) || (decide (0x9000008 ≤ o) && decide (o < 0x9000010))
    || (decide (0xb000008 ≤ o) && decide (o < 0xb000010))
    || (decide (0xb000108 ≤ o) && decide (o < 0xb000200) && decide (8 ≤ o % 0x10))
    || (decide (0xb002100 ≤ o) && decide (o < 0xb002210))

/-- I3C_READ: 4 or 8 bytes from the offset; an RC field keeps its value (R17). -/
def execI3cRead (wide : Bool) (s : State) : Host.Outcome State Fault Refusal :=
  .next (s.upd fun b =>
    if b.boot.preamble then b.emit (.i3c true [])
    else
      let n := if wide then 8 else 4
      let o := b.pw.i3cOffset
      b.emit (.i3c false (natLE n (if I3c.answers o then (b.regGet o n false).2 else 0))))

/-! ### Stacks (R391) -/

/-- STACK_STOPS_ANSWERING: the stack's PHY PLL may have lost lock. -/
def execStackStopsAnswering (stack : StackNo) (pllLost : Bool) (s : State) : Host.Outcome State Fault Refusal :=
  .next (s.upd fun b =>
    let b := if pllLost then b.wr ⟨Reg.CK_STATUS.HBM_LOCK.off, 2 + stack.val, 1⟩ 0 else b
    b.pennant (Src.stack stack) Kind.HBM_STACK_FAIL 0 0)

end Sys2Proof.Machine
end

