-- ==== Sys2Proof/Machine/SiteLink.lean ====
section
/-! DEFINITION. The commands of the site links (07). -/

namespace Sys2Proof.Machine

/-- SITE_TRAINED (R156, R157, R163, R164). -/
def execSiteTrained (site : SiteNo) (rates : BitVec 8) (repaired : BitVec 16) (failed : BitVec 8) (s : State) :
    Host.Outcome State Fault Refusal :=
  .next (s.upd fun b => b.siteTrained site rates.toNat repaired.toNat failed.toNat)

/-- SITE_TRAIN_TIMEOUT (R156). -/
def execSiteTrainTimeout (site : SiteNo) (s : State) : Host.Outcome State Fault Refusal :=
  .next (s.upd fun b =>
    if (b.site site).link.trainAt.isSome then b.siteAbsent site else b)

/-- The CRC a frame should carry (R158), with its reserved bits zero. -/
def SiteFrame.crcOf (f : SiteFrame) (kind : Nat) : Nat :=
  crc16 (Frame.body kind f.seq.toNat f.ack.toNat f.ackValid f.payload)

/-- R348: the CRC of a group's next frames is corrupted while an injection lasts. -/
def Block.corrupts (b : Block) (src : Nat) : Block × Bool :=
  let n := SMap.get (fun _ => 0) b.fc.corruptFrames src
  if n = 0 then (b, false)
  else
    let b := { b with fc := { b.fc with corruptFrames := SMap.put (fun _ => 0) b.fc.corruptFrames src (n - 1) } }
    (if n = 1 then (b.wr Reg.FC_INJECT_STATUS.BUSY 0).fcStatus else b, true)

/-- A frame of kind `kind` as it arrives: with a bad CRC it goes to `badFrame`, else to `good`. -/
def Block.frameIn (b : Block) (s : Nat) (f : SiteFrame) (kind : Nat) (good : Block → Block) : Block :=
  if !Site.stacked s || !b.linkUp s then b
  else match b.corrupts (Src.laneGroup s f.group) with
    | (b, hit) =>
      let b := if hit || decide (f.crc.toNat ≠ SiteFrame.crcOf f kind) || decide (kind = 3) then
          b.badFrame s f.group f.seq.toNat (decide (kind = 0) || decide (kind = 3))
        else good b
      b.frameSeen s

/-- DATA_FRAME (R158–R160): KIND 0b11 counts as a CRC error. -/
def execDataFrame (site : SiteNo) (frame : SiteFrame) (kind3 : Bool) (s : State) : Host.Outcome State Fault Refusal :=
  .next (s.upd fun b => b.frameIn site frame (if kind3 then 3 else 0) fun b =>
    b.dataFrame site frame.seq.toNat frame.ack.toNat frame.ackValid (sliceBytes frame.payload 0 240))

/-- IDLE_FRAME (R160). -/
def execIdleFrame (site : SiteNo) (frame : SiteFrame) (s : State) : Host.Outcome State Fault Refusal :=
  .next (s.upd fun b => b.frameIn site frame 1 fun b => b.takeAck site frame.ack.toNat frame.ackValid)

/-- NAK_FRAME (R160 rule 4). -/
def execNakFrame (site : SiteNo) (frame : SiteFrame) (s : State) : Host.Outcome State Fault Refusal :=
  .next (s.upd fun b => b.frameIn site frame 2 fun b => b.nakFrame site frame.ack.toNat frame.ackValid)

/-- ACK_TIMER (R160 rule 2). -/
def execAckTimer (site : SiteNo) (s : State) : Host.Outcome State Fault Refusal :=
  .next (s.upd fun b => if Site.stacked site && b.linkUp site && (b.site site).link.rxAny then b.sendAck site else b)

/-- NAK_RESEND (R160 rule 3). -/
def execNakResend (site : SiteNo) (s : State) : Host.Outcome State Fault Refusal :=
  .next (s.upd fun b => if b.linkUp site && (b.site site).link.nakAt.isSome then b.sendNak site else b)

/-- MODULE_RETURN_TIMEOUT (R161). -/
def execModuleReturnTimeout (site : SiteNo) (md : Fin 4) (s : State) : Host.Outcome State Fault Refusal :=
  .next (s.upd fun b => b.moduleGone site md)

/-- MODULE_ACTIVE_STATE_CHANGE (R161). -/
def execModuleActiveStateChange (site : SiteNo) (md : Fin 4) (active : Bool) (repaired : Fin 16)
    (half : Option (Fin 2)) (s : State) : Host.Outcome State Fault Refusal :=
  .next (s.upd fun b => b.moduleState site md active repaired (half.map fun h => h.val))

/-- ADAPTER_CRC_ERROR (R161): one event per microsecond in the module's bucket; a retry the adapter sent is counted too. -/
def execAdapterCrcError (site : SiteNo) (md : Fin 4) (retries : Fin 256) (s : State) :
    Host.Outcome State Fault Refusal :=
  .next (s.upd fun b =>
    if Site.stacked site || !b.linkUp site then b
    else (b.count (Reg.ST_REPLAY.COUNT site) retries).laneError site (2 * md))

/-- LINK_HELLO (R171, Table SIT-5). -/
def execLinkHello (site : SiteNo) (s : State) : Host.Outcome State Fault Refusal :=
  .next (s.upd fun b => b.linkHello site)

/-- HEARTBEAT (R168). -/
def execHeartbeat (site : SiteNo) (s : State) : Host.Outcome State Fault Refusal :=
  .next (s.upd fun b =>
    if (b.site site).link.hello then b.modLink site fun l => { l with heartbeatAt := b.now } else b)

/-- WIDTH_PROPOSE (R163). -/
def execWidthPropose (site : SiteNo) (set : BitVec 8) (attempt : Fin 4) (test : GroupTest) (s : State) :
    Host.Outcome State Fault Refusal :=
  .next (s.upd fun b => b.widthPropose site set.toNat attempt test.passed.toNat test.rates.toNat)

/-- WIDTH_AGREE (R163, R164). -/
def execWidthAgree (site : SiteNo) (set : BitVec 8) (attempt : Fin 4) (s : State) : Host.Outcome State Fault Refusal :=
  .next (s.upd fun b => b.widthAgree site set.toNat attempt)

/-- WIDTH_ACK (R162). -/
def execWidthAck (site : SiteNo) (ack : WidthAckMsg) (s : State) : Host.Outcome State Fault Refusal :=
  .next (s.upd fun b => b.widthAck site ack.lastGood.toNat ack.tag.toNat)

/-- RESET_NOTE (R169). -/
def execResetNote (site : SiteNo) (s : State) : Host.Outcome State Fault Refusal :=
  .next (s.upd fun b => b.loseSite site 4)

/-- ERR_NOTE (Table SIT-8): a pennant naming the site, with the note's core or agent and its address. -/
def execErrNote (site : SiteNo) (kind who : BitVec 8) (addr : BitVec 32) (s : State) : Host.Outcome State Fault Refusal :=
  .next (s.upd fun b =>
    if (b.site site).link.hello then b.pennant (Src.site site) Kind.SITE_NOTE (kind.toNat + who.toNat * 256) addr.toNat
    else b)

/-- CORE_FAIL (sideband 0x20): a pennant against the physical core. -/
def execCoreFail (site : SiteNo) (phys : Fin 64) (s : State) : Host.Outcome State Fault Refusal :=
  .next (s.upd fun b =>
    if (b.site site).link.hello then b.pennant (Src.siteCore site phys) Kind.SITE_CORE_FAIL 0 0 else b)

/-- PROTO_NOTE (sideband 0x21): a pennant naming the site. -/
def execProtoNote (site : SiteNo) (opcode : BitVec 8) (tag : BitVec 12) (s : State) : Host.Outcome State Fault Refusal :=
  .next (s.upd fun b =>
    if (b.site site).link.hello then b.pennant (Src.site site) Kind.SWP_BREACH tag.toNat opcode.toNat else b)

/-- SIDEBAND_INVALID (R167): a message whose CRC is bad or whose opcode is not listed is counted; any other has its own
row. -/
def execSidebandInvalid (msg : SidebandMsg) (s : State) : Host.Outcome State Fault Refusal :=
  .next (s.upd fun b => if Sideband.valid msg.msg.toNat then b else b.count (Reg.ST_SB_ERR.COUNT msg.site) 1)

/-- HEARTBEAT_SEND (R168). -/
def execHeartbeatSend (site : SiteNo) (s : State) : Host.Outcome State Fault Refusal :=
  .next (s.upd fun b =>
    let l := (b.site site).link
    if l.hello then
      (b.sideband site 0x02 l.hbSeq 0).modLink site fun l => { l with
        hbSeq := (l.hbSeq + 1) % 2 ^ 32, hbSentAt := b.now }
    else b)

/-- HEARTBEAT_TIMEOUT (R169). -/
def execHeartbeatTimeout (site : SiteNo) (s : State) : Host.Outcome State Fault Refusal :=
  .next (s.upd fun b => if (b.site site).link.hello then b.loseSite site 1 else b)

/-- SIDEBAND_RESEND (R168). -/
def execSidebandResend (site : SiteNo) (s : State) : Host.Outcome State Fault Refusal :=
  .next (s.upd fun b => b.sidebandResend site)

/-- RECON_TIMEOUT (R163). -/
def execReconTimeout (test : ReconTest) (s : State) : Host.Outcome State Fault Refusal :=
  .next (s.upd fun b => b.reconTimeout test.site test.test.passed.toNat test.test.rates.toNat)

/-- CLOCK_LOSS (R162, R169). -/
def execClockLoss (site : SiteNo) (groups : BitVec 8) (s : State) : Host.Outcome State Fault Refusal :=
  .next (s.upd fun b => b.clockLoss site groups.toNat)

/-- SITE_RESET (Table SIT-7). -/
def execSiteReset (site : SiteNo) (s : State) : Host.Outcome State Fault Refusal :=
  .next (s.upd fun b => b.siteReset site 5)

/-- SITE_RESET_RELEASE (Table SIT-7). -/
def execSiteResetRelease (site : SiteNo) (s : State) : Host.Outcome State Fault Refusal :=
  .next (s.upd fun b => if b.linkState site = Link.RESETTING then b.startTraining site else b)

/-- SITE_RETRAIN (R171). -/
def execSiteRetrain (site : SiteNo) (s : State) : Host.Outcome State Fault Refusal :=
  .next (s.upd fun b => b.siteRetrain site)

/-- CLK_HOLD (ST_CTRL): written 1 or 0. -/
def execClkHold (site : SiteNo) (on : Bool) (s : State) : Host.Outcome State Fault Refusal :=
  .next (s.upd fun b => b.clkHold site on)

end Sys2Proof.Machine
end

