-- ==== Sys2Proof/Machine/Reach.lean ====
section
/-! DEFINITION. The commands of the reach ports (15). -/

namespace Sys2Proof.Machine

def ReachKind.code : ReachKind → Nat
  | .read => 1
  | .write => 2
  | .syncOp => 3
  | .syncWait => 4
  | .notice => 5
  | .response => 6

def RPacket.of (kind : ReachKind) (h : ReachHdr) (data : List Byte) : RPacket where
  dst := h.dst.toNat
  src := h.src.toNat
  slice := h.slice
  kind := ReachKind.code kind
  ensign := h.ensign
  tag := h.tag.toNat
  len := h.len.toNat
  units := ceilDiv data.length 16
  route := h.route.toNat
  hop := h.hop
  hops := h.hops
  relays := h.relays
  ret := h.ret.toNat
  addr := h.addr.toNat
  status := h.status.toNat
  data := data

/-- REACH_TRAINED (R307, R309): the port is trained, but for the lanes that failed, and sends HELLO. -/
def execReachTrained (test : PortTest) (s : State) : Host.Outcome State Fault Refusal :=
  .next (s.upd fun b => b.rchTrained test.port test.failed.toNat)

/-- REACH_TRAIN_TIMEOUT (R307): the port stays down. -/
def execReachTrainTimeout (port : PortNo) (s : State) : Host.Outcome State Fault Refusal :=
  .next (s.upd fun b =>
    if b.rd (Reg.RCH_STATUS.STATE port) = Rch.TRAINING ∧ !(b.rport port).trained then
      (b.rchState port Rch.DOWN).modRPort port fun l => { l with trainAt := none }
    else b)

/-- HELLO (R309). -/
def execHello (port : PortNo) (dev : BitVec 24) (nbPort : PortNo) (s : State) : Host.Outcome State Fault Refusal :=
  .next (s.upd fun b => b.rchHello port dev.toNat nbPort)

/-- The CRC a frame should carry (R308), its reserved bits zero. -/
def ReachFrame.crcOf (f : ReachFrame) (kind : Nat) : Nat :=
  crc32c (RFrame.body kind f.seq.toNat f.ack.toNat f.reqCr.toNat f.rspCr.toNat f.payload)

/-- A frame as it arrives (R308, R310): one that FEC cannot correct, or with a bad CRC, is discarded. -/
def Block.rchFrameIn (b : Block) (p : Nat) (f : ReachFrame) (kind : Nat) (good : Block → Block) : Block :=
  if !b.rchUp p then b
  else
    let hit := ((List.range 8).foldl (fun (acc : Block × Bool) l =>
      if acc.2 then acc else acc.1.corrupts (Src.reachLane p l)) (b, false))
    let b := hit.1
    let b := match f.fec with
      | some l => (b.count (Reg.RCH_FEC_UNCORR.COUNT p) 1).pennant (Src.reachLane p l) Kind.REACH_LANE 0 0
      | none => b
    let b := if f.fec.isSome || hit.2 || decide (f.crc.toNat ≠ ReachFrame.crcOf f kind) then b.rchWantNak p
      else good (b.rchCover p f.ack.toNat f.reqCr.toNat f.rspCr.toNat)
    b.rchSeen p

/-- REACH_DATA_FRAME (R308). -/
def execReachDataFrame (port : PortNo) (frame : ReachFrame) (s : State) : Host.Outcome State Fault Refusal :=
  .next (s.upd fun b => b.rchFrameIn port frame 0 fun b =>
    (b.rchGo port).rchData port frame.seq.toNat (sliceBytes frame.payload 0 624))

/-- REACH_IDLE_FRAME (R308). -/
def execReachIdleFrame (port : PortNo) (frame : ReachFrame) (s : State) : Host.Outcome State Fault Refusal :=
  .next (s.upd fun b => b.rchFrameIn port frame 1 fun b => b.rchGo port)

/-- REACH_NAK_FRAME (R308): the held frames go again, but during a width change. -/
def execReachNakFrame (port : PortNo) (frame : ReachFrame) (s : State) : Host.Outcome State Fault Refusal :=
  .next (s.upd fun b => b.rchFrameIn port frame 2 fun b =>
    if (b.rport port).widthChange.isSome then b else b.rchResend port)

/-- REACH_NAK_RESEND (R308). -/
def execReachNakResend (port : PortNo) (s : State) : Host.Outcome State Fault Refusal :=
  .next (s.upd fun b => if b.rchUp port && (b.rport port).nakAt.isSome then b.rchNak port else b)

/-- REACH_WIDTH_CHANGE (R310): the neighbour's new set of halves and its last good SEQ. -/
def execReachWidthChange (port : PortNo) (set : Fin 4) (last : BitVec 16) (s : State) : Host.Outcome State Fault Refusal :=
  .next (s.upd fun b => b.rchWidthChange port set last.toNat)

/-- REACH_WIDTH_ACK (R310). -/
def execReachWidthAck (port : PortNo) (last : BitVec 16) (s : State) : Host.Outcome State Fault Refusal :=
  .next (s.upd fun b => b.rchWidthAck port last.toNat)

/-- LINK_DOWN (R309). -/
def execLinkDown (port : PortNo) (s : State) : Host.Outcome State Fault Refusal :=
  .next (s.upd fun b => b.rchLinkLost port)

/-- REACH_LOCK_LOSS (R309). -/
def execReachLockLoss (port : PortNo) (s : State) : Host.Outcome State Fault Refusal :=
  .next (s.upd fun b => (b.wr ⟨Reg.CK_STATUS.REACH_LOCK.off, 10 + port.val, 1⟩ 0).rchLinkLost port)

/-- REACH_FRAME_TIMEOUT (R309). -/
def execReachFrameTimeout (port : PortNo) (s : State) : Host.Outcome State Fault Refusal :=
  .next (s.upd fun b => b.rchLinkLost port)

/-- SER_WINDOW_EXPIRY (R310): the symbols corrected on lanes 0–7 in the millisecond that ends. -/
def execSerWindowExpiry (port : PortNo) (corrected : List (BitVec 32)) (s : State) : Host.Outcome State Fault Refusal :=
  .next (s.upd fun b =>
    if !b.rchUp port then b
    else (List.range 8).foldl (fun b l =>
      let n := (corrected.getD l 0).toNat
      let b := b.count (Reg.RCH_FEC_CORR.COUNT port) n
      if b.rd (Reg.RCH_CFG.SER_LIMIT port) < n then b.pennant (Src.reachLane port l) Kind.REACH_LANE 0 0 else b) b)

/-- REACH_FORWARD (R313). -/
def execReachForward (port : PortNo) (kind : ReachKind) (h : ReachHdr) (data : List Byte) (s : State) :
    Host.Outcome State Fault Refusal :=
  .next (s.upd fun b => b.settle fun b => b.rchArrive port (RPacket.of kind h data))

/-- REACH_REQUEST (R316). -/
def execReachRequest (port : PortNo) (kind : ReachKind) (h : ReachHdr) (data : List Byte) (s : State) :
    Host.Outcome State Fault Refusal :=
  .next (s.upd fun b => b.settle fun b => b.rchArrive port (RPacket.of kind h data))

/-- REACH_RESPONSE (R314, R317, R318). -/
def execReachResponse (port : PortNo) (h : ReachHdr) (data : List Byte) (s : State) : Host.Outcome State Fault Refusal :=
  .next (s.upd fun b => b.settle fun b => b.rchArrive port (RPacket.of .response h data))

/-- WAIT_NOTICE (R316). -/
def execWaitNotice (port : PortNo) (h : ReachHdr) (s : State) : Host.Outcome State Fault Refusal :=
  .next (s.upd fun b => b.settle fun b => b.rchArrive port (RPacket.of .notice h []))

/-- REACH_TIMEOUT (R317). -/
def execReachTimeout (tag : BitVec 14) (s : State) : Host.Outcome State Fault Refusal :=
  .next (s.upd fun b => b.rchTimeout tag.toNat)

/-- A neighbour is taken away while the port is powered: the port's paths are lost, and the responses to it dropped (R320). -/
def Block.rchRemoved (b : Block) (p : Nat) : Block :=
  (b.modRPort p fun l => { l with removed := true, txq := l.txq.filter RPacket.isReq }).portPathsLost p

/-- PRESENCE_CHANGE (R319, R320). -/
def execPresenceChange (port : PortNo) (present : Bool) (s : State) : Host.Outcome State Fault Refusal :=
  .next (s.upd fun b =>
    if b.is (Reg.RCH_SLOT_STATUS.PRESENT port) = present then b
    else
      let b := (b.wr (Reg.RCH_SLOT_STATUS.PRESENT port) (b01 present)).slotEvent port (Reg.RCH_SLOT_STATUS.PDC port)
        (Reg.RCH_SLOT_CTRL.PDC_EN port)
      if present then b.modRPort port fun l => { l with removed := false }
      else if b.slotPowered port then b.rchRemoved port else b)

/-- ATTENTION_BUTTON (R319), where one is wired. -/
def execAttentionButton (port : PortNo) (s : State) : Host.Outcome State Fault Refusal :=
  .next (s.upd fun b =>
    if b.is (Reg.RCH_SLOT_CAP.ATTN_BTN port) then
      b.slotEvent port (Reg.RCH_SLOT_STATUS.ABP port) (Reg.RCH_SLOT_CTRL.ABP_EN port)
    else b)

/-- A slot command is completed: CC. -/
def Block.slotCommand (b : Block) (p : Nat) : Block :=
  b.slotEvent p (Reg.RCH_SLOT_STATUS.CC p) (Reg.RCH_SLOT_CTRL.CC_EN p)

/-- A write of PWR_OFF (R319): power goes off after LINK_DOWN, or comes on and the port trains. -/
def Block.pwrOff (b : Block) (p : Nat) (off : Bool) : Block :=
  if b.is (Reg.RCH_SLOT_CTRL.PWR_OFF p) = off then b
  else
    let set (b : Block) : Block := (b.wr (Reg.RCH_SLOT_CTRL.PWR_OFF p) (b01 off)).slotCommand p
    if !b.is (Reg.RCH_SLOT_CAP.PWR_CTRL p) then set b
    else if off then
      let b := if b.rchUp p then b.rchCtrl p 3 0 else b
      let b := b.rchDown p none
      set ((b.rchState p Rch.DOWN).modRPort p fun l => { l with trainAt := none })
    else
      let b := set b
      if b.boot.pllLocked then b.rchRelease p else b

/-- PWR_OFF (R319). -/
def execPwrOff (port : PortNo) (off : Bool) (s : State) : Host.Outcome State Fault Refusal :=
  .next (s.upd fun b => b.pwrOff port off)

/-- SLOT_INDICATOR (R319): values for ATTN_IND and PWR_IND; 0b00 is not listed and leaves the field. -/
def Block.slotIndicators (b : Block) (p attn pwr : Nat) : Block :=
  let put (b : Block) (f : Fld) (v : Nat) : Block := if v = 0 then b else b.wr f v
  let b' := put (put b (Reg.RCH_SLOT_CTRL.ATTN_IND p) attn) (Reg.RCH_SLOT_CTRL.PWR_IND p) pwr
  if b'.rd (Reg.RCH_SLOT_CTRL.ATTN_IND p) = b.rd (Reg.RCH_SLOT_CTRL.ATTN_IND p)
      ∧ b'.rd (Reg.RCH_SLOT_CTRL.PWR_IND p) = b.rd (Reg.RCH_SLOT_CTRL.PWR_IND p) then b
  else b'.slotCommand p

def execSlotIndicator (port : PortNo) (attn pwr : Fin 4) (s : State) : Host.Outcome State Fault Refusal :=
  .next (s.upd fun b => b.slotIndicators port attn pwr)

end Sys2Proof.Machine
end

