-- ==== Sys2Proof/Machine/Translation.lean ====
section
/-! DEFINITION. The commands of address translation (10). -/

namespace Sys2Proof.Machine

/-- ATS_COMPLETION (R225, R229): status 0 Success, 1 Unsupported Request, 2 Completer Abort; the translated address, the
size reported, and the R, W, U and G bits. -/
def execAtsCompletion (tag : Fin 512) (status : Fin 3) (pa : Word) (log2 : Fin 64) (r w u g : Bool) (s : State) :
    Host.Outcome State Fault Refusal :=
  .next (s.upd fun b => b.atsCompletion tag status pa.toNat (max 12 log2.val) r w u g)

/-- ATS_TIMEOUT (R229). -/
def execAtsTimeout (tag : Fin 512) (s : State) : Host.Outcome State Fault Refusal :=
  .next (s.upd fun b => b.atsTimeout tag)

/-- PRG_SEND (R233). -/
def execPrgSend (s : State) : Host.Outcome State Fault Refusal := .next (s.upd fun b => b.prgNext)

/-- PRG_RESPONSE (R233). -/
def execPrgResponse (fn : Fin 33) (idx : Fin 512) (code : PrgCode) (s : State) : Host.Outcome State Fault Refusal :=
  .next (s.upd fun b => b.prgResponse fn idx (match code with
    | .success => 0
    | .invalid => 1
    | .failure => 15))

/-- PRG_TIMEOUT (R233). -/
def execPrgTimeout (fn : Fin 33) (idx : Fin 512) (s : State) : Host.Outcome State Fault Refusal :=
  .next (s.upd fun b => b.prgTimeout fn idx)

/-- INVALIDATE_REQUEST (R237, R239): the function, ITAG, PASID if it has one, Global Invalidate, and its range. -/
def execInvalidateRequest (fn : Fin 33) (itag : Fin 32) (pasid : Option (BitVec 20)) (glob : Bool) (va : Word)
    (log2 : Fin 65) (s : State) : Host.Outcome State Fault Refusal :=
  .next (s.upd fun b =>
    let n := max 12 log2.val
    b.invalidate ⟨fn, itag, pasid.map BitVec.toNat, glob, va.toNat % 2 ^ 57 / 2 ^ n * 2 ^ n, n, b.now⟩)

/-- INVALIDATION_COMPLETE (R238). -/
def execInvalidationComplete (fn : Fin 33) (itag : Fin 32) (s : State) : Host.Outcome State Fault Refusal :=
  .next (s.upd fun b => b.invalidated fn itag)

/-- ACC_DECAY (R241, R242). -/
def execAccDecay (s : State) : Host.Outcome State Fault Refusal := .next (s.upd fun b => b.accDecay)

/-- XL_CFG.ACC_CLEAR (R241). -/
def Block.accClear (b : Block) : Block := { b with xlat := { b.xlat with acc := [] } }

def execAccClear (s : State) : Host.Outcome State Fault Refusal := .next (s.upd fun b => b.accClear)

/-- XL_CFG.TLB_FLUSH (R226): results in flight are discarded and requested again. -/
def Block.tlbFlush (b : Block) : Block := b.xlatDrop (fun _ => true) (fun _ => true) AtsReq.redo

def execTlbFlush (s : State) : Host.Outcome State Fault Refusal := .next (s.upd fun b => b.tlbFlush)

end Sys2Proof.Machine
end

