-- ==== Sys2Proof/Machine/RegTrig.lean ====
section
/-! DEFINITION. What a write to the register space starts: the effect of every trigger field, by block. Each is the operation
that the field's own row of the opcode table performs. -/

namespace Sys2Proof.Machine

/-- What an access writes to a field; where it does not reach it, what the field holds. -/
def Block.given (b : Block) (a : RegAccess) (f : Fld) : Nat := (Reg.written f a.off a.size a.v).getD (b.rd f)

/-- Whether an access writes 1 to a bit. -/
def RegAccess.sets (a : RegAccess) (f : Fld) : Bool := decide (Reg.written f a.off a.size a.v = some 1)

/-- A bit whose two written values start two operations. -/
def Block.onBit (b : Block) (a : RegAccess) (f : Fld) (one zero : Block → Block) : Block :=
  match Reg.written f a.off a.size a.v with
  | none => b
  | some v => if v = 1 then one b else zero b

def Block.onSet (b : Block) (a : RegAccess) (f : Fld) (g : Block → Block) : Block := if a.sets f then g b else b

/-- A field whose written value is what its operation takes. -/
def Block.onValue (b : Block) (a : RegAccess) (f : Fld) (g : Block → Nat → Block) : Block :=
  match Reg.written f a.off a.size a.v with
  | none => b
  | some v => g b v

/-- Slice frames (03, 12). -/
def Block.trigSlice (b : Block) (a : RegAccess) : Block :=
  let sl := (a.off - 0xd000000) / 0x1000
  let e := (a.off - 0xd000000) % 0x1000
  if 0x100 ≤ e ∧ e < 0x200 then
    let c := (e - 0x100) / 0x40
    let b := b.onBit a (Reg.SL_Q_CTRL.ENABLE sl c) (fun b => b.queueEnable sl c) fun b => b.queueDisable sl c
    let b := b.onBit a (Reg.SL_Q_CTRL.PAUSE sl c) (fun b => b.queuePause sl c) fun b => b.queueResume sl c
    let b := b.onSet a (Reg.SL_Q_CTRL.RETRY sl c) fun b => b.queueRetry sl c
    let b := b.onSet a (Reg.SL_Q_CTRL.SKIP sl c) fun b => b.queueSkip sl c
    b.onValue a (Reg.SL_Q_DOORBELL.INDEX sl c) fun b v => b.doorbell sl c v
  else if e < 0x300 then b.onValue a (Reg.SL_CRING_HEAD.INDEX sl) fun b v => b.takeHead (Reg.SL_CRING_HEAD.INDEX sl)
      (Reg.SL_CRING_TAIL.INDEX sl) (b.rd (Reg.SL_CRING_CFG.LOG2_SIZE sl)) v
  else
    let b := b.onSet a (Reg.SL_MBX_CTRL.ACK sl) fun b => b.mbxAck sl
    b.onSet a (Reg.SL_MBX_CTRL.SEND sl) fun b => b.mbxSend sl

/-- SL_MGR_OP (R260–R273). -/
def Block.trigManager (b : Block) (a : RegAccess) : Block :=
  b.onSet a Reg.SL_MGR_OP.GO fun b =>
    let sl := b.given a Reg.SL_MGR_OP.TARGET
    match b.rd Reg.SL_MGR_OP.OP with
    | 1 => b.opOpen sl
    | 2 => b.opReset sl
    | 3 => b.opFreeze sl
    | 4 => b.opThaw sl
    | 5 => b.opRelease sl
    | 6 => b.opSave sl
    | 7 => b.opRestore sl
    | 8 => ((b.startPartReset (sl % 32) false).mgrOp 8 sl).mgrResult Code.SUCCESS 0
    | 9 => b.opReform
    | _ => b

/-- Denob's registers (11). -/
def Block.trigDenob (b : Block) (a : RegAccess) : Block :=
  if 0xe010000 ≤ a.off then
    let n := (a.off - 0xe010000) / 0x40
    b.onBit a (Reg.DN_SLICE18.EN n) (fun b => b.settle fun b => b.serveEnable n) fun b => b.serveDisable n
  else
    let p := b.given a Reg.DN_PLAN_CTRL.PARTITION
    let i := b.given a Reg.DN_PLAN_CTRL.INDEX
    let b := b.onSet a Reg.DN_FW_CTRL.ACTIVATE fun b => b.fwActivate
    let b := b.onSet a Reg.DN_PLAN_CTRL.GO fun b =>
      if b.dnRuns && b.dn.loading.isNone then b.settle fun b => b.planLoad p i else b
    b.onSet a Reg.DN_PLAN_CTRL.UNLOAD fun b => if b.dnRuns then b.planUnload p i else b

/-- The collector's registers (16). -/
def Block.trigFault (b : Block) (a : RegAccess) : Block :=
  let b := b.onValue a Reg.FC_LOG_HEAD.INDEX fun b v => b.takeHead Reg.FC_LOG_HEAD.INDEX Reg.FC_LOG_TAIL.INDEX 12 v
  let b := b.onValue a Reg.FC_ACK.INDEX fun b v => b.ackRecords fun r => decide (r.index = some v)
  let b := b.onSet a Reg.FC_ACK.ALL fun b => b.ackRecords fun _ => true
  let b := b.onSet a Reg.FC_INJECT00.GO fun b =>
    b.inject (b.given a Reg.FC_INJECT00.SOURCE) (b.given a Reg.FC_INJECT00.KIND) (b.given a Reg.FC_INJECT00.AUX)
      (b.given a Reg.FC_INJECT00.COUNT) (decide (b.given a Reg.FC_INJECT00.MODE = 1))
  b.onSet a Reg.FC_RESTORE.GO fun b => b.unitRestore (b.given a Reg.FC_RESTORE.SOURCE)

/-- Axovonak's command register (R353). -/
def Block.secOp (b : Block) (o : Otp) (op n : Nat) : Block :=
  match op with
  | 1 => b.slotGenerate n
  | 2 => b.settle fun b => b.slotImport o n
  | 3 => b.slotClear n
  | 4 => b.pkgInstall
  | 5 => b.fwStage
  | _ => (b.secCmd op n).secResult Code.SEC_BAD_CMD 0

/-- A word written to LC_TOKEN or SEC_DEBUG_GRANT; the grant's last word submits it (R364, R367). -/
def Block.secWords (b : Block) (a : RegAccess) : Block :=
  let b := (List.range 8).foldl (fun (b : Block) i => b.onValue a (Reg.LC_TOKEN.WORD i) fun b v =>
    { b with sec := { b.sec with token := SMap.put (fun _ => 0) b.sec.token i (BitVec.ofNat 64 v) } }) b
  let b := (List.range 64).foldl (fun (b : Block) i => b.onValue a (Reg.SEC_DEBUG_GRANT.WORD i) fun b v =>
    { b with sec := { b.sec with grant := SMap.put (fun _ => 0) b.sec.grant i (BitVec.ofNat 64 v) } }) b
  b.onValue a (Reg.SEC_DEBUG_GRANT.WORD 63) fun b _ =>
    b.debugGrant ((List.range 64).flatMap fun i => natLE 4 (SMap.get (fun _ => 0) b.sec.grant i).toNat)

def Block.trigSec (b : Block) (o : Otp) (a : RegAccess) : Block × Otp :=
  let b := b.secWords a
  let b := b.onSet a Reg.SEC_CMD.GO fun b => b.secOp o (b.rd Reg.SEC_CMD.OP) (b.given a Reg.SEC_CMD.SLOT)
  let b := b.onSet a Reg.SEC_DEBUG.REVOKE fun b => b.debugRevoke
  if a.sets Reg.LC_CMD.GO then b.lcTransition o (Fin.ofNat 4 (b.given a Reg.LC_CMD.TARGET)) else (b, o)

/-- MH_RESET_CTRL: both bits with the key in the same write (R385, R386); a cold reset is taken where both are set. -/
def Block.trigReset (b : Block) (o : Otp) (a : RegAccess) : Block × Otp :=
  if Reg.written Reg.MH_RESET_CTRL.KEY a.off a.size a.v ≠ some 0xB007 then (b, o)
  else if a.sets Reg.MH_RESET_CTRL.COLD then b.coldReset.preambleWork o
  else if a.sets Reg.MH_RESET_CTRL.WARM then (b.startWarm 2 false, o)
  else (b, o)

/-- A reach port's slot control (R319). -/
def Block.trigPort (b : Block) (a : RegAccess) (p : Nat) : Block :=
  let ind := a.hits (Reg.RCH_SLOT_CTRL.ATTN_IND p) || a.hits (Reg.RCH_SLOT_CTRL.PWR_IND p)
  let b := if ind then b.slotIndicators p (b.given a (Reg.RCH_SLOT_CTRL.ATTN_IND p)) (b.given a (Reg.RCH_SLOT_CTRL.PWR_IND p)) else b
  b.onBit a (Reg.RCH_SLOT_CTRL.PWR_OFF p) (fun b => b.pwrOff p true) fun b => b.pwrOff p false

/-- What a write starts. A write of PW_DIP that does not reach DURATION_US asks for the least duration (DESIGN CHOICE,
assumption 59). -/
def Block.trigger (b : Block) (o : Otp) (a : RegAccess) : Block × Otp :=
  if a.off < 0x1000000 then
    let b := b.onSet a Reg.MH_DEFECT_CTRL.CLEAR fun b => b.defectClear
    b.trigReset o a
  else if 0x2000000 ≤ a.off ∧ a.off < 0x4000000 then
    let p := (a.off - 0x2000000) / 0x100000
    (b.onSet a (Reg.HC_CTRL.CORE_RESET p) fun b => b.coreReset p, o)
  else if 0x4000000 ≤ a.off ∧ a.off < 0x5000000 then
    let s := (a.off - 0x4000000) / 0x100000
    let b := b.onBit a (Reg.ST_CTRL.CLK_HOLD s) (fun b => b.clkHold s true) fun b => b.clkHold s false
    let b := b.onSet a (Reg.ST_CTRL.SITE_RESET s) fun b => b.siteReset s 5
    (b.onSet a (Reg.ST_CTRL.RETRAIN s) fun b => b.siteRetrain s, o)
  else if 0x6000000 ≤ a.off ∧ a.off < 0x7000000 then
    (b.onSet a Reg.SH_FILL_CTRL.GO fun b => b.shelfFill (b.rd Reg.SH_FILL_CTRL.COUNT), o)
  else if 0x7000000 ≤ a.off ∧ a.off < 0x8000000 then (b.onSet a Reg.HY_STAT_CTRL.SNAP fun b => b.hySnap, o)
  else if 0x9000000 ≤ a.off ∧ a.off < 0xa000000 then (b.trigFault a, o)
  else if 0xa000000 ≤ a.off ∧ a.off < 0xb000000 then b.trigSec o a
  else if 0xb000000 ≤ a.off ∧ a.off < 0xc000000 then
    (b.onValue a Reg.PW_DIP.SITES fun b v =>
      let pct := b.given a Reg.PW_DIP.PCT
      let us := b.given a Reg.PW_DIP.DURATION_US
      b.manualDip v (max 1 (min pct 100)) (max 1 us), o)
  else if 0xc000000 ≤ a.off ∧ a.off < 0xc400000 then (b.trigPort a ((a.off - 0xc000000) / 0x100000), o)
  else if a.off = Reg.SL_MGR_OP.OP.off then (b.trigManager a, o)
  else if 0xd000000 ≤ a.off ∧ a.off < 0xe000000 then (b.trigSlice a, o)
  else if 0xe000000 ≤ a.off ∧ a.off < 0xf000000 then (b.trigDenob a, o)
  else if 0xf000000 ≤ a.off then
    let b := b.onSet a Reg.XL_CFG.ACC_CLEAR fun b => b.accClear
    let b := b.onSet a Reg.XL_CFG.TLB_FLUSH fun b => b.tlbFlush
    (b.onValue a Reg.XL_HOT_HEAD.INDEX fun b v => b.takeHead Reg.XL_HOT_HEAD.INDEX Reg.XL_HOT_TAIL.INDEX (b.rd Reg.XL_HOT_CFG.LOG2_SIZE) v, o)
  else (b, o)

/-- Whether a TDI's lock turns a write away (R306). -/
def Block.tdiLocks (b : Block) (a : RegAccess) : Bool :=
  match b.tdiOf a.off with
  | some fn => !a.boot && decide (1 ≤ b.tdiState fn) && decide (b.tdiState fn ≤ 2)
  | none => false

/-- A write to the register space with all it starts; a write that waits for a re-form starts nothing (R22). -/
def Block.regDo (b : Block) (o : Otp) (a : RegAccess) : Block × Otp :=
  if b.tdiLocks a || (!a.boot && b.deferred a.off) then (b.regPut a, o) else (b.regPut a).trigger o a

/-- A write through the manager or the boot path: one to the frame of a position that moves waits (R331). -/
def Block.regAccess (b : Block) (o : Otp) (a : RegAccess) : Block × Otp :=
  if !a.boot && b.frameHeld a.off then (b.regWait ⟨a.boot, a.off, a.size, a.v, none⟩, o) else b.regDo o a

/-- Perform the waiting accesses whose frames do not move, in order; a read answers its request. -/
def Block.regDrain (b : Block) (o : Otp) : Block × Otp :=
  b.regDue.foldl (fun (acc : Block × Otp) w =>
    if acc.1.frameHeld w.off then (acc.1.regWait w, acc.2)
    else match w.read with
      | some r =>
        let q := acc.1.regGet w.off w.size true
        (q.1.emit (.completion r.fn r.tag.toNat 0 false (natLE w.size q.2)), acc.2)
      | none => acc.1.regDo acc.2 ⟨w.boot, w.off, w.size, w.v⟩) ({ b with regDue := [] }, o)

end Sys2Proof.Machine
end

