-- ==== Sys2Proof/Machine/BarOps.lean ====
section
/-! DEFINITION. Inbound requests: what each must pass first (R297, R305, R306), and the three BARs (R292, R294, R295). -/

namespace Sys2Proof.Machine

/-! ### Inbound requests (Table EPT-6) -/

/-- A read's length, or a write's. -/
def inLen : BarOp → Nat
  | .read l => l.val + 1
  | .write d _ => d.length
  | .atomic => 8

def inWrite : BarOp → Bool
  | .write _ _ => true
  | _ => false

/-- The sampled sizes (R291). -/
def Block.epSample (b : Block) : Nat := (b.ep.sampled.getD (0, 0)).1
def Block.dbStride (b : Block) : Nat := if bit b.epSample 0 then 65536 else 4096
def Block.bar4Size (b : Block) (fn : Nat) : Nat := 2 ^ bits b.epSample (if fn = 0 then 8 else 16) 6

/-- The PCIe address of an offset in a BAR (Table EPT-4); a VF's BARs follow one another from the VF BAR. -/
def Block.barAddr (b : Block) (fn bar off : Nat) : Nat :=
  let o := (if fn = 0 then 0x10 else 0x1A4) + 4 * bar
  let base := b.cfg 0 o / 16 * 16 + b.cfg 0 (o + 4) * 2 ^ 32
  let size := if bar = 2 then 4096 * b.dbStride else b.bar4Size fn
  (base + (if fn = 0 then 0 else (fn - 1) * size) + off) % 2 ^ 64

/-- The function that reports an error of a request to `fn`: the PF where that function does not exist. -/
def Block.reporter (b : Block) (fn : Nat) : Nat := if b.fnExists fn then fn else 0

/-- Answer a non-posted request. -/
def Block.answer (b : Block) (r : BarReq) (status : Nat) (ep : Bool) (data : List Byte) : Block :=
  if (inWrite r.op) then b else b.emit (.completion r.fn r.tag.toNat status ep data)

/-- An error that a failed request logs: advisory where a completion reports it. -/
def Block.inError (b : Block) (r : BarReq) (err : Nat) : Block :=
  let fn := b.reporter r.fn
  if (inWrite r.op) then b.aer fn err else b.aerAdvisory fn err

def Block.inUr (b : Block) (r : BarReq) (bar : Nat) : Block :=
  let b := (b.count Reg.EP_IN_UR.COUNT 1).epLog 1 r.fn 0 (b.barAddr r.fn bar r.off.toNat)
  (b.inError r Aer.unsupported).answer r 1 false []

def Block.inCa (b : Block) (r : BarReq) (bar : Nat) (st : Status) : Block :=
  let b := (b.count Reg.EP_IN_CA.COUNT 1).epLog 2 r.fn st (b.barAddr r.fn bar r.off.toNat)
  (b.inError r Aer.completerAbort).answer r 2 false []

def Block.inPoisoned (b : Block) (r : BarReq) (bar : Nat) : Block :=
  let b := (b.count Reg.EP_IN_POISON.COUNT 1).epLog 3 r.fn 0 (b.barAddr r.fn bar r.off.toNat)
  b.aerAdvisory (b.reporter r.fn) Aer.poisoned

/-- IDE on an inbound packet: whether it goes on (R305). -/
def Block.ideIn (b : Block) (fn : Nat) (t : IdeTlp) : Block × Bool :=
  match t.stream with
  | none => (if t.tee then b.aer (b.reporter fn) Aer.misroutedIde else b, true)
  | some s =>
    if NSet.has b.ep.insecure s then (b, false)
    else if !t.good then
      (({ b with ep := { b.ep with insecure := NSet.insert s b.ep.insecure } } : Block).aer (b.reporter fn) Aer.ideCheck, false)
    else (if t.tee && !t.covered then b.aer (b.reporter fn) Aer.misroutedIde else b, true)

/-- Whether a TDI turns a request away (R306): in RUN all but those with T set on its stream, in ERROR all. -/
def Block.tdiBlocks (b : Block) (r : BarReq) : Bool :=
  let fn := r.fn.val
  let st := b.tdiState fn
  let bound : Bool := match r.ide.stream with
    | some s => r.ide.covered && decide (SMap.get (fun _ => 0) b.ep.tdiStream fn = s.val + 1)
    | none => false
  decide (fn ≠ 0) && (decide (st = 3) || (decide (st = 2) && !(r.ide.tee && bound)))

/-- The first row of Table EPT-6. -/
def Block.barShut (b : Block) (r : BarReq) : Bool :=
  let fn := r.fn.val
  !b.fnExists fn || !b.is (Reg.EP_FN_STATUS.MSE fn) || (decide (fn = 0) && b.is (Reg.EP_FN_STATUS.D3HOT 0))
    || b.is (Reg.EP_FN_STATUS.RESETTING fn) || b.tdiBlocks r

/-- Perform an inbound request once it has passed R305 and the rows of Table EPT-6 that come before any lookup. -/
def Block.inbound (b : Block) (r : BarReq) (bar : Nat) (go : Block → Block) : Block :=
  match b.ideIn r.fn r.ide with
  | (b, false) => b
  | (b, true) =>
    if b.barShut r then b.inUr r bar
    else match r.op with
      | .atomic => b.inUr r bar
      | .write _ true => b.inPoisoned r bar
      | _ =>
        if decide (bar ≠ 0) && b.is Reg.MH_STATUS.DEVICE_FATAL then b.inCa r bar 0
        else if bar ≠ 0 ∧ b.lc = Lc.END_OF_LIFE then b.inCa r bar Code.SEC_KEYS_ZEROISED
        else go b

/-! ### BAR0 (R292) -/

/-- A read of the register space. -/
def Block.bar0Read (b : Block) (r : BarReq) (len : Nat) : Block :=
  if b.frameHeld r.off.toNat then b.regWait ⟨false, r.off.toNat, len, 0, some r⟩
  else
  let q := b.regGet r.off.toNat len true
  q.1.answer r 0 false (natLE len q.2)

/-- Whether a BAR0 write reaches the registers. -/
def Block.bar0 (b : Block) (r : BarReq) : Block :=
  if decide (r.fn.val ≠ 0) then b.inUr r 0
  else if 8 < (inLen r.op) then b.inCa r 0 0
  else match r.op with
    | .read l => b.bar0Read r (l.val + 1)
    | _ => b

/-- The write of a BAR0 request that passes: it may program OTP. -/
def Block.bar0Write (b : Block) (o : Otp) (r : BarReq) : Block × Otp :=
  match r.op with
  | .write d false =>
    if (b.ideIn r.fn r.ide).2 && !b.barShut r && decide (r.fn.val = 0) && decide (d.length ≤ 8) then
      (b.ideIn r.fn r.ide).1.regAccess o ⟨false, r.off.toNat, d.length, leNat d⟩
    else (b.inbound r 0 fun b => b.bar0 r, o)
  | _ => (b.inbound r 0 fun b => b.bar0 r, o)

/-! ### BAR2 (R294) -/

/-- Whether page `n` is live on a function. -/
def Block.pageLive (b : Block) (fn n : Nat) : Bool := decide (fn = 0) || (decide (n ≠ 0) && decide (b.slicePart n + 1 = fn))

/-- A 32-bit word of a slice's doorbell page as it reads. -/
def Block.pageWord (b : Block) (s o : Nat) : Nat :=
  let v := b.slice s
  if 0x100 ≤ o ∧ o < 0x140 then bits (v.mbxOut.getD ((o - 0x100) / 8) 0) (8 * (o % 8)) 32
  else if 0x140 ≤ o ∧ o < 0x180 then bits (v.mbxIn.getD ((o - 0x140) / 8) 0) (8 * (o % 8)) 32
  else if o = 0x180 then b01 v.outBusy + 2 * b01 v.inValid + 4 * b01 v.dropped
  else if o = 0x188 then b.gen s + b.sliceState s * 2 ^ 16
  else 0

/-- A read of the flags clears DROPPED. -/
def Block.slicePageRead (b : Block) (s o size : Nat) : Block × Nat :=
  let n := readWords (b.pageWord s) o size
  let hit : Bool := decide (o = 0x180) && (decide (size = 4) || decide (size = 8))
  (if hit then b.modSlice s fun v => { v with dropped := false } else b, n)

/-- Part of an outbound message word; the write of M0 sends it (R266). -/
def Block.mbxWord (b : Block) (s o size v : Nat) : Block :=
  let i := (o - 0x100) / 8
  let old := (b.slice s).mbxOut.getD i 0
  let w := if size = 8 then v else setBits old (8 * (o % 8)) 32 v
  let b := b.modSlice s fun x => { x with mbxOut := setAt (x.mbxOut ++ List.replicate (8 - x.mbxOut.length) 0) i w }
  if o = 0x100 then b.mbxMessage s w else b

/-- A write to a slice's doorbell page. -/
def Block.slicePageWrite (b : Block) (s o size v : Nat) : Block :=
  if !((size = 4 ∧ o % 4 = 0) ∨ (size = 8 ∧ o % 8 = 0)) then b
  else
    let w := v % 2 ^ 32
    if o = 0x00 ∨ o = 0x08 ∨ o = 0x10 ∨ o = 0x18 then b.doorbell s (o / 8) w
    else if o = 0x20 then b.consumerHead (.completion (Fin.ofNat 4096 s)) (w % 2 ^ 17)
    else if o = 0x28 then b.reqDoorbell s w
    else if o = 0x30 then b.consumerHead (.token (Fin.ofNat 4096 s)) (w % 2 ^ 17)
    else if 0x100 ≤ o ∧ o < 0x140 then b.mbxWord s o size v
    else if o = 0x180 ∧ bit v 1 then b.modSlice s fun x => { x with inValid := false }
    else b

/-- A VF's status page (Table EPT-5) as it reads. -/
def Block.statusWord (b : Block) (fn o : Nat) : Nat :=
  if o = 0 then b01 (NSet.has b.ep.resetSeen fn) + SMap.get (fun _ => 0) b.ep.resetCount fn * 2 ^ 16
  else if 0x100 ≤ o ∧ o < 0x110 then b.pbaWord fn (o - 0x100)
  else if 0x800 ≤ o ∧ o < 0x1000 then b.msixEntryRead fn (o - 0x800)
  else 0

/-- A write to it; the MSI-X table of a locked TDI is not written (R306). -/
def Block.statusPageWrite (b : Block) (fn o size v : Nat) : Block :=
  if o = 0 then
    (if (size = 4 ∨ size = 8) ∧ v % 2 = 1 then { b with ep := { b.ep with resetSeen := NSet.erase b.ep.resetSeen fn } } else b)
  else if 0x800 ≤ o ∧ o < 0x1000 then
    (if 1 ≤ b.tdiState fn ∧ b.tdiState fn ≤ 2 then b.tdiError fn else b.msixWrite fn (o - 0x800) size v)
  else b

/-- A BAR2 request that has passed. -/
def Block.bar2 (b : Block) (r : BarReq) : Block :=
  let fn := r.fn.val
  let n := r.off.toNat / b.dbStride
  let o := r.off.toNat % b.dbStride
  if fn ≠ 0 ∧ n = 0 then
    match r.op with
    | .write d _ => b.statusPageWrite fn o d.length (leNat d)
    | _ => b.answer r 0 false (natLE (inLen r.op) (readWords (b.statusWord fn) o (inLen r.op)))
  else if n < 4096 ∧ b.pageLive fn n then
    match r.op with
    | .write d _ => b.slicePageWrite n o d.length (leNat d)
    | _ =>
      let q := b.slicePageRead n o (inLen r.op)
      q.1.answer r 0 false (natLE (inLen r.op) q.2)
  else (b.count Reg.EP_IN_UR.COUNT 1).answer r 0 false (zeros (inLen r.op))

/-! ### BAR4 (R295) -/

/-- A window: BAR offset, DLA base and size in bytes, slice, ensign, R, W. -/
structure HostWin where
  off : Nat
  dla : Nat
  size : Nat
  slice : Nat
  ensign : Nat
  r : Bool
  w : Bool
deriving DecidableEq, Repr

def Block.hostWin (b : Block) (fn w : Nat) : HostWin × Bool :=
  if fn = 0 then
    (⟨b.rd (Reg.EP_WIN_PF00.BAR_OFF w) * 4096, b.rd (Reg.EP_WIN_PF08.DLA_BASE w) * 4096, b.rd (Reg.EP_WIN_PF10.SIZE w) * 4096,
      b.rd (Reg.EP_WIN_PF10.SLICE w), b.rd (Reg.EP_WIN_PF10.ENSIGN w), b.is (Reg.EP_WIN_PF10.R w), b.is (Reg.EP_WIN_PF10.W w)⟩,
      b.is (Reg.EP_WIN_PF10.VALID w))
  else
    (⟨b.rd (Reg.EP_WIN_VF00.BAR_OFF fn w) * 4096, b.rd (Reg.EP_WIN_VF08.DLA_BASE fn w) * 4096,
      b.rd (Reg.EP_WIN_VF10.SIZE fn w) * 4096, b.rd (Reg.EP_WIN_VF10.SLICE fn w), b.rd (Reg.EP_WIN_VF10.ENSIGN fn w),
      b.is (Reg.EP_WIN_VF10.R fn w), b.is (Reg.EP_WIN_VF10.W fn w)⟩, b.is (Reg.EP_WIN_VF10.VALID fn w))

/-- The lowest-numbered valid window that holds `off`; one that does not lie wholly inside its BAR is not valid. -/
def Block.winOf (b : Block) (fn off : Nat) : Option HostWin :=
  (List.range (if fn = 0 then 256 else 16)).findSome? fun w =>
    let x := b.hostWin fn w
    if x.2 ∧ x.1.off + x.1.size ≤ b.bar4Size fn ∧ x.1.off ≤ off ∧ off < x.1.off + x.1.size then some x.1 else none

/-- The window an access of `len` bytes uses, with the right it needs. -/
def Block.winFor (b : Block) (fn off len : Nat) (write : Bool) : Option HostWin :=
  match b.winOf fn off with
  | none => none
  | some w =>
    let mine : Bool := decide (fn = 0) || (decide (w.slice ≠ 0) && decide (b.slicePart w.slice + 1 = fn))
    if mine && decide (off + len ≤ w.off + w.size) && (if write then w.w else w.r) then some w else none

/-- Whether a read's failure answers with poisoned data (Table EPT-6). -/
def Status.poisons (st : Status) : Bool :=
  decide (st = Code.SHELF_UNCORRECTABLE) || decide (st = Code.MEM_POISON) || decide (st = Code.HBM_UNCORRECTABLE)
    || decide (st = Code.HBM_MAC_FAIL)

def Block.bar4 (b : Block) (r : BarReq) : Block :=
  let off := r.off.toNat
  match b.winFor r.fn off (inLen r.op) (inWrite r.op) with
  | none => b.inUr r 4
  | some w =>
    let who := b.mkWho (.host r.fn) (some w.slice) w.ensign
    let a := w.dla + off - w.off
    match r.op with
    | .write d _ =>
      match b.dlaWrite who a d with
      | (b, st) => if b.waiting ∨ st = Code.SUCCESS then b else b.inCa r 4 st
    | _ =>
      match b.dlaRead who a (inLen r.op) with
      | (b, st, data) =>
        if b.waiting then b
        else if st = Code.SUCCESS then b.answer r 0 false data
        else if Status.poisons st then b.answer r 0 true (zeros (inLen r.op))
        else b.inCa r 4 st

end Sys2Proof.Machine
end

