-- ==== Sys2Proof/Machine/ConfigOps.lean ====
section
/-! DEFINITION. Configuration requests (R286–R293): what a dword reads, and what a write of it does. -/

namespace Sys2Proof.Machine

/-- A configuration dword as it reads: AER status and the PF's link status stand elsewhere. -/
def Block.cfgRead (b : Block) (fn off : Nat) : Nat :=
  if off = 0x104 then b.aerStatus fn true
  else if off = 0x110 then b.aerStatus fn false
  else if off = 0x70 ∧ fn = 0 then
    setBits (b.cfg fn off) 16 16 (b.rd Reg.EP_LINK.SPEED + b.rd Reg.EP_LINK.WIDTH * 16 + b.rd Reg.EP_LINK.DL_UP * 2 ^ 13)
  else b.cfg fn off

/-- The bits that a write's byte enables reach. -/
def Cfg.enabled (be : Nat) : Nat := ((List.range 4).map fun i => if be.testBit i then 0xFF * 2 ^ (8 * i) else 0).sum

/-- Clear the AER status bits written 1, and the headers that stand for them (R304). -/
def Block.aerClear (b : Block) (fn : Nat) (unc : Bool) (ones : Nat) : Block :=
  let e := SMap.get (fun _ => 0) b.ep.aer fn
  let gone := (bitList e 14).filter fun i => (Aer.bit i).1 == unc && ones.testBit (Aer.bit i).2
  let headers := (gone.filter fun i => Aer.headed i).length
  { b with ep := { b.ep with
    aer := SMap.put (fun _ => 0) b.ep.aer fn (gone.foldl (fun e i => setBits e i 1 0) e)
    aerHeaders := SMap.modify (fun _ => 0) b.ep.aerHeaders fn fun n => n - headers } }

/-- Clearing Response Failure in the PRI status: page requests start again (R233). -/
def Block.priClear (b : Block) : Block :=
  let b := b.setCfg 0 0x1E4 (setBits (b.cfg 0 0x1E4) 16 1 0)
  { b with xlat := { b.xlat with stopped := [] } }

/-- Encodings of the Completion Timeout Value that are taken (Table EPT-7). -/
def Cfg.timeouts : List Nat := [0, 1, 2, 5, 6, 9, 10, 13, 14]

/-- The effects of a Command register that changes from `old` to `new`. -/
def Block.cfgCommand (b : Block) (fn old new : Nat) : Block :=
  let b := if fn = 0 ∧ bit old 1 ≠ bit new 1 then b.setMse false (bit new 1) else b
  if bit old 2 ≠ bit new 2 then b.setBme fn (bit new 2) else b

/-- The effects of the SR-IOV Control register. -/
def Block.cfgSriov (b : Block) (old new : Nat) : Block :=
  -- `b` holds the old value: VF MSE first, then VF Enable
  let b := if bit old 3 ≠ bit new 3 then b.setMse true (bit new 3) else b
  if bit old 0 ∧ !bit new 0 then b.vfDisable
  else if !bit old 0 ∧ bit new 0 then (b.setCfg 0 0x188 (setBits (b.cfg 0 0x188) 0 1 1)).showMse
  else b

/-- A write: `data` under the bits `mask` that its byte enables reach. -/
def Block.cfgWrite (b : Block) (fn off data mask : Nat) : Block :=
  let old := b.cfg fn off
  let m := mask &&& Cfg.writable (b.ep.sampled.getD (0, 0)).1 fn off
  let new := (old - (old &&& m)) + (data &&& m)
  let ones := data &&& mask
  let put := b.setCfg fn off new
  if off = 0x04 then put.cfgCommand fn old new
  else if off = 0x44 ∧ fn = 0 then
    (if bits new 0 2 = 3 ∧ bits old 0 2 = 0 then put.setD3 true
    else if bits new 0 2 = 0 ∧ bits old 0 2 = 3 then put.setD3 false
    else b)
  else if off = 0x50 then put.msixFlush fn
  else if off = 0x68 then
    (if bit ones 15 then (if fn = 0 then (put.countFlr 0).deviceFlr else put.vfFlr (fn - 1)) else put)
  else if off = 0x88 then
    (if Cfg.timeouts.contains (bits new 0 4) then put else put.setCfg fn off (setBits new 0 4 (bits old 0 4)))
  else if off = 0x104 then b.aerClear fn true ones
  else if off = 0x110 then b.aerClear fn false ones
  else if fn ≠ 0 then (if off = 0x1C4 ∧ bit old 31 ∧ !bit new 31 then (put.xlatDropFn fn).prgBarred else put)
  else if off = 0x188 then b.cfgSriov old new
  else if off = 0x190 then b.setNumVfs (bits new 0 16)
  else if off = 0x1A0 then (if new = 1 ∨ new = 0x10 then put else b)
  else if off = 0x1C4 then (if bit old 31 ∧ !bit new 31 then (put.xlatDropFn fn).prgBarred else put)
  else if off = 0x1D4 then
    (if bit old 16 ∧ !bit new 16 then ((List.range 33).foldl (fun b f => b.xlatDropFn f) put).prgBarred else put)
  else if off = 0x1E4 then (if bit ones 16 then put.priClear else put).prgBarred
  else put

/-- A configuration request (R290). -/
def Block.cfgRequest (b : Block) (fn off : Nat) (op : CfgOp) (tag : Nat) : Block :=
  if !b.is Reg.MH_STATUS.READY ∨ (fn ≠ 0 ∧ b.is (Reg.EP_FN_STATUS.RESETTING fn)) then b.emit (.completion fn tag 3 false [])
  else if !b.fnExists fn then
    (((b.count Reg.EP_IN_UR.COUNT 1).epLog 1 fn 0 0).aerAdvisory 0 Aer.unsupported).emit (.completion fn tag 1 false [])
  else match op with
    | .read => b.emit (.completion fn tag 0 false (natLE 4 (b.cfgRead fn off)))
    | .write d be => (b.emit (.completion fn tag 0 false [])).cfgWrite fn off d.toNat (Cfg.enabled be)

end Sys2Proof.Machine
end

