-- ==== Sys2Proof/Machine/Endpoint.lean ====
section
/-! DEFINITION. The host endpoint's commands (14). -/

namespace Sys2Proof.Machine

/-- BAR0_ACCESS (R292). -/
def execBar0Access (req : BarReq) (s : State) : Host.Outcome State Fault Refusal :=
  .next (s.updFuse fun b o => b.bar0Write o req)

/-- BAR2_ACCESS (R294). -/
def execBar2Access (req : BarReq) (s : State) : Host.Outcome State Fault Refusal :=
  .next (s.upd fun b => b.inbound req 2 fun b => b.bar2 req)

/-- BAR4_ACCESS (R295). -/
def execBar4Access (req : BarReq) (s : State) : Host.Outcome State Fault Refusal :=
  .next (s.upd fun b => b.settle fun b => b.inbound req 4 fun b => b.bar4 req)

/-- BUS_MASTER_ENABLE_CLEAR and BUS_MASTER_ENABLE_SET (Table EPT-8). -/
def execBusMasterEnableClear (fn : Fin 33) (s : State) : Host.Outcome State Fault Refusal :=
  .next (s.upd fun b => b.setBme fn false)

def execBusMasterEnableSet (fn : Fin 33) (s : State) : Host.Outcome State Fault Refusal :=
  .next (s.upd fun b => if b.fnExists fn then b.setBme fn true else b)

/-- MEMORY_SPACE_ENABLE_CLEAR: of the PF, or VF MSE. -/
def execMemorySpaceEnableClear (vfs : Bool) (s : State) : Host.Outcome State Fault Refusal :=
  .next (s.upd fun b => b.setMse vfs false)

/-- D3HOT_ENTRY and D3HOT_EXIT (Table EPT-8). -/
def execD3hotEntry (s : State) : Host.Outcome State Fault Refusal := .next (s.upd fun b => b.setD3 true)

def execD3hotExit (s : State) : Host.Outcome State Fault Refusal := .next (s.upd fun b => b.setD3 false)

/-- VF_FLR and PF_FLR (Table EPT-8). -/
def execVfFlr (vf : PartNo) (s : State) : Host.Outcome State Fault Refusal := .next (s.upd fun b => b.vfFlr vf)

def execPfFlr (s : State) : Host.Outcome State Fault Refusal := .next (s.upd fun b => (b.countFlr 0).deviceFlr)

/-- HOT_RESET and DL_DOWN (R289). -/
def execHotReset (s : State) : Host.Outcome State Fault Refusal := .next (s.upd fun b => b.linkReset)

def execDlDown (s : State) : Host.Outcome State Fault Refusal := .next (s.upd fun b => b.linkDown)

/-- PCIE_LINK_CHANGE (R289): the rate's encoding less 1, and x4, x8 or x16. -/
def execPcieLinkChange (speed : Fin 6) (width : Fin 3) (flit : Bool) (s : State) : Host.Outcome State Fault Refusal :=
  .next (s.upd fun b => b.linkTrained (speed + 1) (4 * 2 ^ width.val) flit)

/-- VF_ENABLE_CLEAR (R293): VF Enable cleared, or NumVFs lowered. -/
def execVfEnableClear (numVfs : Option (Fin 33)) (s : State) : Host.Outcome State Fault Refusal :=
  .next (s.upd fun b => match numVfs with
    | none => b.vfDisable
    | some n => if n.val < b.numVfs then b.setNumVfs n else b)

/-- HOST_COMPLETION (R300, R301, R305): 0 Successful Completion, 1 Unsupported Request, 2 Completer Abort, 3 Request Retry
Status. -/
def execHostCompletion (tag : BitVec 14) (fn : Fin 33) (status : Fin 4) (ep : Bool) (data : List Byte) (ide : IdeTlp)
    (s : State) : Host.Outcome State Fault Refusal :=
  .next (s.upd fun b => match b.ideIn fn ide with
    | (b, false) => b
    | (b, true) => b.hostCompletion tag.toNat fn status ep data)

/-- COMPLETION_TIMEOUT (R301). -/
def execCompletionTimeout (slot : Fin 4096) (s : State) : Host.Outcome State Fault Refusal :=
  .next (s.upd fun b => b.cplTimedOut slot)

/-- MSIX_UNMASK (R303). -/
def execMsixUnmask (fn : Fin 33) (vec : Fin 2048) (s : State) : Host.Outcome State Fault Refusal :=
  .next (s.upd fun b =>
    ({ b with ep := { b.ep with msixUnmasked := NSet.insert (fn.val * 2048 + vec.val) b.ep.msixUnmasked } } : Block).msixFlush fn)

/-- TDISP_MESSAGE (R306). -/
def execTdispMessage (vf : PartNo) (msg : TdispMsg) (s : State) : Host.Outcome State Fault Refusal :=
  .next (s.upd fun b => b.tdisp (vf + 1) msg)

/-- SPDM_REQUEST (R361, R362). -/
def execSpdmRequest (req : SpdmReq) (s : State) : Host.Outcome State Fault Refusal :=
  .next (s.upd fun b => b.spdmRequest req)

/-- CONFIG_REQUEST (R290). -/
def execConfigRequest (fn : Fin 33) (dword : Fin 1024) (op : CfgOp) (tag : BitVec 14) (s : State) :
    Host.Outcome State Fault Refusal :=
  .next (s.upd fun b => b.cfgRequest fn (4 * dword) op tag.toNat)

end Sys2Proof.Machine
end

