-- ==== Sys2Proof/Machine/RegWrite.lean ====
section
/-! DEFINITION. REGISTER_WRITE (01) and DEBUG_ACCESS (17). -/

namespace Sys2Proof.Machine

/-- REGISTER_WRITE (R4–R9, R21–R23): a write of 32 or 64 bits and what it starts; `boot` tells the boot path from the
manager. -/
def execRegisterWrite (off : BitVec 28) (wide : Bool) (v : Word) (boot : Bool) (s : State) : Host.Outcome State Fault Refusal :=
  .next (s.updFuse fun b o => b.regAccess o ⟨boot, off.toNat, if wide then 8 else 4, v.toNat⟩)

/-! ### Debug (R363) -/

/-- Whether a level lets an access through (R363). -/
def Debug.allows (level : Nat) : DebugOp → Bool
  | .mandatory => true
  | .instrument _ => decide (1 ≤ level)
  | .regRead off _ => decide (2 ≤ level) || (decide (level = 1) && !(decide (0xA000000 ≤ off.toNat) && decide (off.toNat < 0xB000000)))
  | .regWrite _ _ _ | .memRead _ _ _ | .memWrite _ _ _ | .halt _ _ => decide (2 ≤ level)

def Debug.who (slice : Option SliceNo) : Who := ⟨.boot, slice.map fun x => x.val, 1, 104⟩

/-- Memory through debug, chunk by chunk, under the keys of the regions and past every firewall (R363). -/
def Block.debugMem (b : Block) (w : Who) (a len : Nat) (op : Nat → Nat → MemOp) : Block × Status × List Byte :=
  (chunksOf a len).foldl (fun (acc : Block × Status × List Byte) c =>
    if acc.2.1 ≠ Code.SUCCESS then acc
    else
      let q := acc.1.perform w c.1 c.2.1 (op c.2.2 c.2.1)
      -- a read of the register space clears no field (R17)
      let r := if acc.1.range c.1 = .regs ∧ op c.2.2 c.2.1 = .read then ({ q.1 with regs := acc.1.regs }, q.2) else q
      (r.1, r.2.1, acc.2.2 ++ r.2.2)) (b, Code.SUCCESS, [])

/-- One access through debug but a register write, which `debugWrite` performs; a register read clears no field (R17), and memory is plaintext under the region's key. -/
def Block.debugDo (b : Block) : DebugOp → Block
  | .mandatory => b.emit (.debug true [])
  | .instrument _ =>
    let r := b.freshBytes 8
    r.1.emit (.debug true r.2)
  | .regRead off wide => b.emit (.debug true (natLE (if wide then 8 else 4) (b.regGet off.toNat (if wide then 8 else 4) false).2))
  | .regWrite _ _ _ => b
  | .memRead addr len1 slice =>
    let r := b.debugMem (Debug.who slice) addr.toNat (len1 + 1) fun _ _ => .read
    if r.1.waiting then r.1 else r.1.emit (.debug (decide (r.2.1 = Code.SUCCESS)) r.2.2)
  | .memWrite addr d slice =>
    let r := b.debugMem (Debug.who slice) addr.toNat d.length fun o n => .write (sliceBytes d o n)
    if r.1.waiting then r.1 else r.1.emit (.debug (decide (r.2.1 = Code.SUCCESS)) [])
  | .halt pos on => ({ b with boot := { b.boot with
      halted := if on then NSet.insert pos b.boot.halted else NSet.erase b.boot.halted pos } } : Block).emit (.debug true [])

/-- A register write through debug, with all it starts: no lock of the host's keeps it out, and a RWL field is open until the
boot seal (R4, R363; assumption 55). -/
def Block.debugWrite (b : Block) (o : Otp) (off size v : Nat) : Block × Otp :=
  let r := b.regDo o ⟨true, off, size, v⟩
  (r.1.emit (.debug true []), r.2)

/-- Whether a debug access meets the frame of a position that moves, and waits (R331). -/
def Block.debugHeld (b : Block) : DebugOp → Bool
  | .regRead off _ => b.frameHeld off.toNat
  | .regWrite off _ _ => b.frameHeld off.toNat
  | _ => false

/-- DEBUG_ACCESS (R363). -/
def execDebugAccess (op : DebugOp) (s : State) : Host.Outcome State Fault Refusal :=
  let ok := Debug.allows (s.blk.rd Reg.SEC_DEBUG.LEVEL) op
  if ok && s.blk.debugHeld op then .next s
  else match ok, op with
  | true, .regWrite off wide v => .next (s.updFuse fun b o => b.debugWrite o off.toNat (if wide then 8 else 4) v.toNat)
  | _, _ => .next (s.upd fun b => b.settle fun b => if ok then b.debugDo op else b.emit (.debug false []))

end Sys2Proof.Machine
end

