-- ==== Sys2Proof/Machine/SiteAnswers.lean ====
section
/-! DEFINITION. Answers that let recoveries go on, and the completion of commands under data replay (08, 16). -/

namespace Sys2Proof.Machine

/-- What an answer of a site may end: recoveries that waited for it, and then records. -/
def Block.answered (b : Block) : Block := b.recoveriesAdvance.recordsSettle

/-- BURGEE (R179–R181). -/
def execBurgee (site : SiteNo) (data : List Byte) (s : State) : Host.Outcome State Fault Refusal :=
  .next (s.upd fun b => (b.packetIn site (Packet.of 0x29 ⟨0, 0, 0, 0, 0, 0, 0⟩ data) fun b =>
    b.burgee site (sliceBytes data 0 256)).partStates)

/-- RESP (R191, R192, R196). -/
def execResp (site : SiteNo) (h : PacketHdr) (s : State) : Host.Outcome State Fault Refusal :=
  .next (s.upd fun b => (b.packetIn site (Packet.of 0x41 h []) fun b => b.resp site (Packet.of 0x41 h [])).answered)

/-- DONE (R189). -/
def execDone (site : SiteNo) (h : PacketHdr) (count : Word) (s : State) : Host.Outcome State Fault Refusal :=
  .next (s.upd fun b => (b.packetIn site (Packet.of 0x48 h (natLE 16 count.toNat)) fun b =>
    b.done site (Packet.of 0x48 h (natLE 16 count.toNat))).answered)

/-- CANCEL_TIMEOUT (R190). -/
def execCancelTimeout (site : SiteNo) (tag : BitVec 12) (s : State) : Host.Outcome State Fault Refusal :=
  .next (s.upd fun b =>
    match b.tag site tag.toNat with
    | some ⟨.cancel c phys, t, false⟩ =>
      ((b.setTag site tag.toNat (some ⟨.cancel c phys, t, true⟩)).pennant (Src.siteCore site phys)
        Kind.SITE_CORE_UNRESPONSIVE 0 0).answered
    | _ => b)

/-- Statuses of R339. -/
def Replay.faulty : List Status :=
  [Code.SHELF_UNCORRECTABLE, Code.MEM_POISON, Code.HBM_UNCORRECTABLE, Code.HBM_MAC_FAIL, Code.XFER_SEAL_MISMATCH,
   Code.VEXEC_SEAL_MISMATCH]

/-- Complete the `n`-th command of a queue whose engine has reported (R64), or replay its slice (R339). -/
def Block.commandComplete (b : Block) (sl c n : Nat) : Block :=
  match (b.q sl c).inflight[n]? with
  | none => b
  | some r => match r.result with
    | none => b
    | some (st, cnt) =>
      if r.posting then b
      else if Replay.faulty.contains st ∧ b.is Reg.FC_CFG.DATA_REPLAY ∧ !NSet.has b.fc.dataReplayed sl then
        let b := b.modQ sl c fun q => { q with inflight := q.inflight.map fun x => if x.id = r.id then { x with result := none } else x }
        let b := { b with fc := { b.fc with dataReplayed := NSet.insert sl b.fc.dataReplayed } }
        (b.requestRecovery (.dataReplay sl) none).answered.fcStatus
      else
        let p := r.cmd.pos
        let slots := ((List.range 8).filterMap fun i => (b.xslot p i).map fun v => (i, v)).filter fun e =>
          decide (e.2.job.queue = 4 * sl + c) && decide (e.2.job.id = r.id)
        let sig := b.completionSignal sl c r st
        -- a failed completion signal leaves a cursor whose NEXT is B (Table XFR-10)
        let b := if st = Code.SUCCESS ∧ sig.2 ≠ Code.SUCCESS then
            slots.foldl (fun b e =>
              let f : XFault := ⟨sig.2, r.cmd.sigPtr, 0⟩
              (b.xferLog p e.1 e.2 f).cursorWrite p e.1 e.2 (e.2.cursor e.2.next f)) sig.1
          else sig.1
        let b := b.completeRec sl c r sig.2 cnt
        let b := slots.foldl (fun b e => b.putSlot p e.1 none) b
        if c = 0 && b.dnRuns then b.dnCopiesOf sl else b

/-- COMMAND_COMPLETE (R64, R81, R84, R339). -/
def execCommandComplete (slice : SliceNo) (cls : ClassNo) (nth : Fin 32) (s : State) : Host.Outcome State Fault Refusal :=
  .next (s.upd fun b => b.settle fun b => b.commandComplete slice cls nth)

end Sys2Proof.Machine
end

