-- ==== Sys2Proof/Machine/Transfer.lean ====
section
/-! DEFINITION. The commands of the transfer engine (04). -/

namespace Sys2Proof.Machine

/-! ### Issue (R86) -/

/-- Busy slots of an engine, and those a slice holds. -/
def Block.xferBusy (b : Block) (pos : Nat) (slice : Option Nat) : Nat :=
  ((List.range 8).filter fun n => match b.xslot pos n with
    | some v => (match slice with
      | some s => decide (v.job.slice = s)
      | none => true)
    | none => false).length

/-- Whether slice `s` is below its quota on the engine (R265). -/
def Block.xferQuota (b : Block) (pos s : Nat) : Bool := decide (b.xferBusy pos (some s) < b.rd (Reg.SL_QUOTA.XFER_SLOTS s))

/-- The slot the next XFER takes. -/
def Block.xferFree (b : Block) (pos : Nat) : Option Nat :=
  if b.rd (Reg.XF_CFG.MAX_SLOTS pos) ≤ b.xferBusy pos none then none
  else findIdx 8 fun n => (b.xslot pos n).isNone

/-- What R65 and R67 ask of an XFER. -/
def Block.xferCheck (b : Block) (s : Nat) (c : FCmd) : CmdCheck :=
  let prog := c.w 4
  let cur := c.w 6
  let ptr64 (p : Nat) : Bool := decide (Ptr.tag p < 2) && decide (p % 64 = 0)
  { ptrs := [c.w 2] ++ (if prog = 0 then [] else [prog]) ++ (if cur = 0 then [] else [cur])
    ok := ptr64 (c.w 2) && decide (1 ≤ bits (c.w 3) 0 4) && decide (bits (c.w 3) 0 4 ≤ 8)
      && (decide (prog = 0) || Hoist.syncPtrOk prog) && (decide (cur = 0) || ptr64 cur) && b.holdsPos s c.pos }

/-- Start an issued XFER in slot `n`. -/
def Block.xferStart (b : Block) (s c n : Nat) (cmd : FCmd) (id : Nat) : Block :=
  let v : XSlot := ⟨b.mkJob s c cmd id, .desc, b.rd (Reg.XF_CFG.WINDOW cmd.pos), [], 0, [], [], [], [], [], [], none, none⟩
  b.putSlot cmd.pos n (some v)

/-- The XFER at the front of a queue on engine `pos` that may be issued and passes its checks. -/
def Block.xferNext (b : Block) (q pos : Nat) : Option FCmd :=
  match (b.q (q / 4) (q % 4)).front with
  | some cmd =>
    if cmd.opcode = 0x01 ∧ cmd.pos = pos ∧ b.mayIssue (q / 4) (q % 4) cmd ∧ (Hoist.check (q % 4) cmd (b.xferCheck (q / 4) cmd)).isNone
    then some cmd else none
  | none => none

/-- The earliest held XFER of an engine whose slice is below its quota. -/
def Block.xferHeldNext (b : Block) (pos : Nat) : Option Nat :=
  (b.posState pos).held.find? fun q => (b.xferNext q pos).isSome && b.xferQuota pos (q / 4)

/-- XFER (R86): issued into the lowest free slot, or held at issue. -/
def execXfer (slice : SliceNo) (cls : ClassNo) (s : State) : Host.Outcome State Fault Refusal :=
  .next (s.upd fun b => b.settle fun b =>
    match (b.q slice cls).front with
    | none => b
    | some cmd =>
      let run (b : Block) (cmd : FCmd) (id : Nat) : Block := match b.xferFree cmd.pos with
        | some n => b.xferStart slice cls n cmd id
        | none => b
      if cmd.opcode ≠ 0x01 ∨ !b.mayIssue slice cls cmd then b
      else if (Hoist.check cls cmd (b.xferCheck slice cmd)).isSome then
        b.issueNext slice cls (· = 0x01) (fun b c => b.xferCheck slice c) run
      else if (b.posState cmd.pos).held.contains (4 * slice.val + cls.val) then b
      else if (b.xferFree cmd.pos).isSome && b.xferQuota cmd.pos slice && (b.xferHeldNext cmd.pos).isNone then
        b.issueNext slice cls (· = 0x01) (fun b c => b.xferCheck slice c) run
      else b.modPos cmd.pos fun p => { p with held := p.held ++ [4 * slice.val + cls.val] })

/-- XFER_SLOT_START (R86): a free slot goes to the earliest held XFER whose slice is below its quota. -/
def execXferSlotStart (pos : PosNo) (s : State) : Host.Outcome State Fault Refusal :=
  .next (s.upd fun b => b.settle fun b =>
    match b.xferFree pos, b.xferHeldNext pos with
    | some n, some q =>
      let b := b.modPos pos fun p => { p with held := p.held.erase q }
      b.issueNext (q / 4) (q % 4) (· = 0x01) (fun b c => b.xferCheck (q / 4) c) fun b cmd id => b.xferStart (q / 4) (q % 4) n cmd id
    | _, _ => b)

/-! ### The descriptor and the cursor (R87, R109) -/

/-- XFER_DESC_READ (R87). -/
def execXferDescRead (pos : PosNo) (slot : Fin 8) (s : State) : Host.Outcome State Fault Refusal :=
  .next (s.upd fun b =>
    match b.xslot pos slot with
    | none => b
    | some v =>
      if v.phase ≠ .desc then b
      else b.xferSettle pos slot v 0 fun b =>
        match b.xferRead (b.jobWho (.xfer pos) v.job) v.descPtr (64 * v.descLen) with
        | (b, some f, _) => b.xferEnd pos slot v ⟨Code.XFER_DESC_FAULT, f.ptr, 0⟩
        | (b, none, ds) =>
          if b.waiting then b
          else
            let v := { v with desc := ds }
            match XDesc.parse v.descLen ds with
            | .error st => b.xferEnd pos slot v ⟨st, v.descPtr, 0⟩
            | .ok _ => b.putSlot pos slot (some { v with phase := if v.cursorPtr = 0 then .run else .cursor }))

/-- XFER_CURSOR_READ (R109). -/
def execXferCursorRead (pos : PosNo) (slot : Fin 8) (s : State) : Host.Outcome State Fault Refusal :=
  .next (s.upd fun b =>
    match b.xslot pos slot with
    | none => b
    | some v =>
      if v.phase ≠ .cursor then b
      else b.xferSettle pos slot v 0 fun b =>
        match b.xferRead (b.jobWho (.xfer pos) v.job) v.cursorPtr 64 with
        | (b, some f, _) => b.xferEnd pos slot v f
        | (b, none, ds) =>
          if b.waiting then b
          else match XDesc.parse v.descLen v.desc with
            | .error _ => b
            | .ok d =>
              let w0 := leAt ds 0 8
              let next := bits (leAt ds 8 8) 0 40
              let ok : Bool := decide (bits w0 40 8 = 1) && decide (bits w0 0 32 = crc32c v.desc)
                && decide (bits (leAt ds 0x18 8) 0 40 = d.blocks) && decide (next ≤ d.blocks)
              if !bit w0 32 then b.putSlot pos slot (some { v with phase := .run })
              else if !ok then b.xferEnd pos slot v ⟨Code.XFER_CURSOR_MISMATCH, v.cursorPtr, 0⟩
              else
                let ahead := (bitList (bits (leAt ds 0x10 8) 0 16) 16).map fun j => next + 1 + j
                let v := { v with phase := .run, next := next, performed := ahead.filter fun k => decide (k < d.blocks) }
                let b := b.putSlot pos slot (some v)
                if next = d.blocks then b.xferDone pos slot v else b)

/-! ### Blocks (R101–R110) -/

/-- Prepare block `k` and let it begin writing (R101). While the slot waits for a page request of another block, it prepares
nothing (R107). -/
def Block.xferBegin (b : Block) (pos n : Nat) (v : XSlot) (d : XDesc) (k : Nat) : Block :=
  let below : Bool := (List.range (k - v.next)).all fun i => NSet.has v.performed (v.next + i)
  let failedBelow : Bool := v.failed.any fun g => decide (g.1 ≤ k)
  let barred : Bool := v.fault.any fun q => decide (q.2 ≠ k)
  if barred || failedBelow || (d.ordered && !below) then b
  else b.xferSettle pos n v k fun b =>
    let r := b.xferPrepare pos v d k
    match r.fail with
    | some f => r.b.xferFail pos n v k f
    | none =>
      if r.b.waiting then r.b
      else r.b.putSlot pos n (some { r.v with begun := SMap.put (fun _ => none) r.v.begun k (some r.begun) })

/-- Perform the writes of block `k`, which has begun (R107). -/
def Block.xferPerform (b : Block) (pos n : Nat) (v : XSlot) (d : XDesc) (k : Nat) (g : XBegun) : Block :=
  b.settle fun b => b.inLane (Xfr.lane pos n) fun b =>
    match b.xferWrite pos v.job g d with
    | (b, some f) => b.xferFail pos n v k f
    | (b, none) =>
      if b.waiting then b
      else
        let last := ((g.writes.filter fun x => Ptr.tag x.ptr = 1).getLast?).map fun x => Ptr.addr x.ptr
        let b := match last with
          | some a => b.hostWrote v.job.queue v.job.slice a
          | none => b
        b.xferGoOn pos n { v with
          begun := SMap.put (fun _ => none) v.begun k none
          performed := NSet.insert k v.performed, hostLast := SMap.put (fun _ => none) v.hostLast k last }

/-- XFER_BLOCK_PREPARED (R101, R107): block D + `ahead` of the window is prepared and begins writing, and its writes are
made. -/
def execXferBlockPrepared (pos : PosNo) (slot : Fin 8) (ahead : Fin 16) (parity : Option TlbUpset) (s : State) :
    Host.Outcome State Fault Refusal :=
  .next (s.upd fun b =>
    let b := b.tlbParity parity
    match b.xslot pos slot with
    | none => b
    | some v =>
      match XDesc.parse v.descLen v.desc with
      | .error _ => b
      | .ok d =>
        let k := v.next + ahead.val
        let begun (v : XSlot) : Option XBegun := SMap.get (fun _ => none) v.begun k
        if v.phase ≠ .run ∨ v.window ≤ ahead.val ∨ d.blocks ≤ k ∨ NSet.has v.performed k then b
        else
          let b := if (begun v).isSome then b else b.xferBegin pos slot v d k
          match b.xslot pos slot with
          | some v => match begun v with
            | some g => b.xferPerform pos slot v d k g
            | none => b
          | none => b)

/-- Deliver block D: its progress signal, and the transfer's end when it is the last or a failed block is next. -/
def Block.xferDeliver (b : Block) (pos n : Nat) (v : XSlot) (blocks : Nat) : Block :=
  let d' := v.next + 1
  let v := { v with
    next := d', performed := NSet.erase v.performed v.next, hostLast := SMap.put (fun _ => none) v.hostLast v.next none }
  let b := b.putSlot pos n (some v)
  let due : Bool := decide (v.progPtr ≠ 0) && decide (v.progStep ≠ 0) && (decide (d' % v.progStep = 0) || decide (d' = blocks))
  let (b, st) := if due then b.ptrSignal (b.jobWho (.xfer pos) v.job) v.progPtr 1 else (b, Code.SUCCESS)
  if b.waiting then b
  else if st ≠ Code.SUCCESS then b.xferFail pos n v d' ⟨st, v.progPtr, 0⟩
  else if d' = blocks then b.xferDone pos n v
  else b.xferGoOn pos n v

/-- XFER_BLOCK_DELIVERED (R102): block D is visible at its scope; host writes are flushed by a read. -/
def execXferBlockDelivered (pos : PosNo) (slot : Fin 8) (s : State) : Host.Outcome State Fault Refusal :=
  .next (s.upd fun b =>
    match b.xslot pos slot with
    | none => b
    | some v =>
      match XDesc.parse v.descLen v.desc with
      | .error _ => b
      | .ok d =>
        if v.phase ≠ .run ∨ !NSet.has v.performed v.next ∨ (v.failed.any fun g => decide (g.1 = v.next)) then b
        else b.xferSettle pos slot v v.next fun b =>
          match SMap.get (fun _ => none) v.hostLast v.next with
          | none => b.xferDeliver pos slot v d.blocks
          | some a =>
            match b.hostReadAs (b.fnOf v.job.slice) (b.pasid v.job.slice) (b.jobWho (.xfer pos) v.job) .xfer pos v.job.slice
                true false a 4 with
            | (b, st, _) =>
              if b.waiting then b
              else if st ≠ Code.SUCCESS then b.xferFail pos slot v v.next ⟨Xfr.code st, 2 ^ 60 + a, 0⟩
              else (b.hostFlushed v.job.queue v.job.slice a).xferDeliver pos slot v d.blocks)

end Sys2Proof.Machine
end

