-- ==== Sys2Proof/Machine/Vector.lean ====
section
/-! DEFINITION. The commands of the vector engine and the reduction instructions (05, 06): VEXEC, and one row per kernel
instruction, which runs the instruction at the PC of a position's kernel when that instruction is the row's own
(DESIGN CHOICE, assumption 6). -/

namespace Sys2Proof.Machine

/-! ### VEXEC (R134) -/

/-- What R65 and R67 ask of a VEXEC. -/
def Block.vexecCheck (b : Block) (s : Nat) (c : FCmd) : CmdCheck :=
  let arg := c.w 3
  let n := bits (c.w 4) 0 11
  { ptrs := [c.w 2] ++ (if arg = 0 then [] else [arg])
    ok := decide (Ptr.tag (c.w 2) < 2) && (decide (arg = 0) || (decide (Ptr.tag arg < 2) && decide (arg % 4 = 0)))
      && decide (n ≤ 1024) && decide (n % 4 = 0) && b.holdsPos s c.pos }

/-- VEXEC (R134). -/
def execVexec (slice : SliceNo) (cls : ClassNo) (s : State) : Host.Outcome State Fault Refusal :=
  .next (s.upd fun b => b.settle fun b =>
    b.issueNext slice cls (· = 0x02) (fun b c => b.vexecCheck slice c) fun b cmd id =>
      b.unitIssue cmd.pos (b.mkJob slice cls cmd id))

/-- VEXEC_IMAGE_LOADED (R134). -/
def execVexecImageLoaded (pos : PosNo) (s : State) : Host.Outcome State Fault Refusal :=
  .next (s.upd fun b => b.settle fun b =>
    match (b.vec pos).run with
    | some r => if r.loading then b.vecLoadImage pos r else b
    | none => b)

/-- The memory instructions. -/
def Vec.memOp (op : Nat) : Option (Block → Nat → VRun → VecState → VInstr → VMem) :=
  match op with
  | 0x10 | 0x11 | 0x12 => some Block.vecLoad
  | 0x14 | 0x15 | 0x16 => some Block.vecStore
  | 0x17 => some Block.vecScatterAdd
  | 0x18 => some Block.vecSeal
  | 0x19 => some Block.vecChk
  | _ => none

/-- VECTOR_ACCESS_COMPLETE (R127): the access that stalls the kernel completes. -/
def execVectorAccessComplete (pos : PosNo) (s : State) : Host.Outcome State Fault Refusal :=
  .next (s.upd fun b =>
    let v := b.vec pos
    match v.run with
    | some r =>
      if r.stalled then
        match Vec.memOp v.instr.op with
        | some f => b.vecMem pos r v v.instr f
        | none => b
      else b
    | none => b)

/-- VEXEC_TIMEOUT (R138). -/
def execVexecTimeout (pos : PosNo) (s : State) : Host.Outcome State Fault Refusal :=
  .next (s.upd fun b =>
    match (b.vec pos).ready with
    | some r => b.vecFail pos r Code.VEXEC_TIMEOUT 0
    | none => b)

/-- FORBIDDEN_INSTRUCTION (R117). -/
def execForbiddenInstruction (pos : PosNo) (s : State) : Host.Outcome State Fault Refusal :=
  .next (s.upd fun b =>
    let v := b.vec pos
    match v.ready with
    | some r => if v.legal v.instr then b else b.vecFail pos r Code.VEXEC_BAD_INSTR 0
    | none => b)

/-! ### Control -/

/-- NOP (R117). -/
def execNop (pos : PosNo) (s : State) : Host.Outcome State Fault Refusal :=
  .next (s.upd fun b => b.vecAlu pos 0x00 fun _ v => v)

/-- END (R137): it counts as retired, and completes the VEXEC. -/
def execEndKernel (pos : PosNo) (s : State) : Host.Outcome State Fault Refusal :=
  .next (s.upd fun b => b.vecAt pos 0x01 fun b r v _ =>
    (b.count (Reg.VE_RETIRED.COUNT pos) 1).vecReport pos r Code.SUCCESS (v.countOf (r.retired + 1)) 0)

/-- JMP (R138). -/
def execJmp (pos : PosNo) (s : State) : Host.Outcome State Fault Refusal :=
  .next (s.upd fun b => b.vecAt pos 0x02 fun b r v i => b.vecJump pos r v (bits i.ext 0 14))

/-- DBNZ: xa = xa − 1, and a branch while it is not 0. -/
def execDbnz (pos : PosNo) (s : State) : Host.Outcome State Fault Refusal :=
  .next (s.upd fun b => b.vecAt pos 0x03 fun b r v i =>
    let v' := v.setX i.xa (v.xreg i.xa + (2 ^ 64 - 1))
    if v'.xreg i.xa ≠ 0 then b.vecJump pos r v' (bits i.ext 0 14) else b.vecRetire pos r v' (v.pc + 1))

/-- SETVL (R114). -/
def execSetvl (pos : PosNo) (s : State) : Host.Outcome State Fault Refusal :=
  .next (s.upd fun b => b.vecAlu pos 0x04 Vec.setvl)

/-- SLI (R118). -/
def execSli (pos : PosNo) (s : State) : Host.Outcome State Fault Refusal :=
  .next (s.upd fun b => b.vecAlu pos 0x05 Vec.sli)

/-- SLIH (R118). -/
def execSlih (pos : PosNo) (s : State) : Host.Outcome State Fault Refusal :=
  .next (s.upd fun b => b.vecAlu pos 0x06 Vec.slih)

/-- SADD (R118). -/
def execSadd (pos : PosNo) (s : State) : Host.Outcome State Fault Refusal :=
  .next (s.upd fun b => b.vecAlu pos 0x07 Vec.sadd)

/-- SSUB (R118). -/
def execSsub (pos : PosNo) (s : State) : Host.Outcome State Fault Refusal :=
  .next (s.upd fun b => b.vecAlu pos 0x08 Vec.ssub)

/-- SMUL (R118). -/
def execSmul (pos : PosNo) (s : State) : Host.Outcome State Fault Refusal :=
  .next (s.upd fun b => b.vecAlu pos 0x09 Vec.smul)

/-- SARG (R134). -/
def execSarg (pos : PosNo) (s : State) : Host.Outcome State Fault Refusal :=
  .next (s.upd fun b => b.vecAlu pos 0x0A Vec.sarg)

/-- RDFLG (R123). -/
def execRdflg (pos : PosNo) (s : State) : Host.Outcome State Fault Refusal :=
  .next (s.upd fun b => b.vecAlu pos 0x0B Vec.rdflg)

/-- SETSEED (R122). -/
def execSetseed (pos : PosNo) (s : State) : Host.Outcome State Fault Refusal :=
  .next (s.upd fun b => b.vecAlu pos 0x0C Vec.setseed)

/-! ### Memory (R124–R129) -/

/-- VLD (R124). -/
def execVld (pos : PosNo) (s : State) : Host.Outcome State Fault Refusal :=
  .next (s.upd fun b => b.vecAtMem pos 0x10 Block.vecLoad)

/-- VLDS (R124). -/
def execVlds (pos : PosNo) (s : State) : Host.Outcome State Fault Refusal :=
  .next (s.upd fun b => b.vecAtMem pos 0x11 Block.vecLoad)

/-- VLDX (R124). -/
def execVldx (pos : PosNo) (s : State) : Host.Outcome State Fault Refusal :=
  .next (s.upd fun b => b.vecAtMem pos 0x12 Block.vecLoad)

/-- VST (R126). -/
def execVst (pos : PosNo) (s : State) : Host.Outcome State Fault Refusal :=
  .next (s.upd fun b => b.vecAtMem pos 0x14 Block.vecStore)

/-- VSTS (R126). -/
def execVsts (pos : PosNo) (s : State) : Host.Outcome State Fault Refusal :=
  .next (s.upd fun b => b.vecAtMem pos 0x15 Block.vecStore)

/-- VSTX (R127). -/
def execVstx (pos : PosNo) (s : State) : Host.Outcome State Fault Refusal :=
  .next (s.upd fun b => b.vecAtMem pos 0x16 Block.vecStore)

/-- VSTXA (R126). -/
def execVstxa (pos : PosNo) (s : State) : Host.Outcome State Fault Refusal :=
  .next (s.upd fun b => b.vecAtMem pos 0x17 Block.vecScatterAdd)

/-- VSEAL (R128). -/
def execVseal (pos : PosNo) (s : State) : Host.Outcome State Fault Refusal :=
  .next (s.upd fun b => b.vecAtMem pos 0x18 Block.vecSeal)

/-- VCHK (R129). -/
def execVchk (pos : PosNo) (s : State) : Host.Outcome State Fault Refusal :=
  .next (s.upd fun b => b.vecAtMem pos 0x19 Block.vecChk)

/-! ### Arithmetic, comparison and conversion (R119–R122) -/

/-- ADD (R119). -/
def execAdd (pos : PosNo) (s : State) : Host.Outcome State Fault Refusal :=
  .next (s.upd fun b => b.vecAlu pos 0x20 Vec.add)

/-- SUB (R119). -/
def execSub (pos : PosNo) (s : State) : Host.Outcome State Fault Refusal :=
  .next (s.upd fun b => b.vecAlu pos 0x21 Vec.sub)

/-- MUL (R119). -/
def execMul (pos : PosNo) (s : State) : Host.Outcome State Fault Refusal :=
  .next (s.upd fun b => b.vecAlu pos 0x22 Vec.mul)

/-- FMA (R119). -/
def execFma (pos : PosNo) (s : State) : Host.Outcome State Fault Refusal :=
  .next (s.upd fun b => b.vecAlu pos 0x23 (Vec.fma false))

/-- FNMA (R119). -/
def execFnma (pos : PosNo) (s : State) : Host.Outcome State Fault Refusal :=
  .next (s.upd fun b => b.vecAlu pos 0x24 (Vec.fma true))

/-- MIN (R120). -/
def execMin (pos : PosNo) (s : State) : Host.Outcome State Fault Refusal :=
  .next (s.upd fun b => b.vecAlu pos 0x25 (Vec.minmax false))

/-- MAX (R120). -/
def execMax (pos : PosNo) (s : State) : Host.Outcome State Fault Refusal :=
  .next (s.upd fun b => b.vecAlu pos 0x26 (Vec.minmax true))

/-- ABS (R119). -/
def execAbs (pos : PosNo) (s : State) : Host.Outcome State Fault Refusal :=
  .next (s.upd fun b => b.vecAlu pos 0x27 Vec.abs)

/-- EXP2 (R121). -/
def execExp2 (pos : PosNo) (s : State) : Host.Outcome State Fault Refusal :=
  .next (s.upd fun b => b.vecAlu pos 0x28 (Vec.trans .exp2))

/-- LOG2 (R121). -/
def execLog2 (pos : PosNo) (s : State) : Host.Outcome State Fault Refusal :=
  .next (s.upd fun b => b.vecAlu pos 0x29 (Vec.trans .log2))

/-- RCP (R121). -/
def execRcp (pos : PosNo) (s : State) : Host.Outcome State Fault Refusal :=
  .next (s.upd fun b => b.vecAlu pos 0x2A (Vec.trans .rcp))

/-- RSQRT (R121). -/
def execRsqrt (pos : PosNo) (s : State) : Host.Outcome State Fault Refusal :=
  .next (s.upd fun b => b.vecAlu pos 0x2B (Vec.trans .rsqrt))

/-- SHL (R119). -/
def execShl (pos : PosNo) (s : State) : Host.Outcome State Fault Refusal :=
  .next (s.upd fun b => b.vecAlu pos 0x2C Vec.shl)

/-- SHR (R119). -/
def execShr (pos : PosNo) (s : State) : Host.Outcome State Fault Refusal :=
  .next (s.upd fun b => b.vecAlu pos 0x2D Vec.shr)

/-- SRA (R119). -/
def execSra (pos : PosNo) (s : State) : Host.Outcome State Fault Refusal :=
  .next (s.upd fun b => b.vecAlu pos 0x2E Vec.sra)

/-- CVT (R122). -/
def execCvt (pos : PosNo) (s : State) : Host.Outcome State Fault Refusal :=
  .next (s.upd fun b => b.vecAlu pos 0x2F Vec.cvt)

/-- CMP.EQ (R120). -/
def execCmpEq (pos : PosNo) (s : State) : Host.Outcome State Fault Refusal :=
  .next (s.upd fun b => b.vecAlu pos 0x30 (Vec.cmp .eq))

/-- CMP.NE (R120). -/
def execCmpNe (pos : PosNo) (s : State) : Host.Outcome State Fault Refusal :=
  .next (s.upd fun b => b.vecAlu pos 0x31 (Vec.cmp .ne))

/-- CMP.LT (R120). -/
def execCmpLt (pos : PosNo) (s : State) : Host.Outcome State Fault Refusal :=
  .next (s.upd fun b => b.vecAlu pos 0x32 (Vec.cmp .lt))

/-- CMP.LE (R120). -/
def execCmpLe (pos : PosNo) (s : State) : Host.Outcome State Fault Refusal :=
  .next (s.upd fun b => b.vecAlu pos 0x33 (Vec.cmp .le))

/-- CMP.GT (R120). -/
def execCmpGt (pos : PosNo) (s : State) : Host.Outcome State Fault Refusal :=
  .next (s.upd fun b => b.vecAlu pos 0x34 (Vec.cmp .gt))

/-- CMP.GE (R120). -/
def execCmpGe (pos : PosNo) (s : State) : Host.Outcome State Fault Refusal :=
  .next (s.upd fun b => b.vecAlu pos 0x35 (Vec.cmp .ge))

/-- CMP.UN (R120). -/
def execCmpUn (pos : PosNo) (s : State) : Host.Outcome State Fault Refusal :=
  .next (s.upd fun b => b.vecAlu pos 0x36 (Vec.cmp .un))

/-! ### Masks and moves (R115, R130–R132) -/

/-- SEL (R115). -/
def execSel (pos : PosNo) (s : State) : Host.Outcome State Fault Refusal :=
  .next (s.upd fun b => b.vecAlu pos 0x37 Vec.sel)

/-- MAND (R115). -/
def execMand (pos : PosNo) (s : State) : Host.Outcome State Fault Refusal :=
  .next (s.upd fun b => b.vecAlu pos 0x38 (Vec.maskOp (· &&& ·)))

/-- MOR (R115). -/
def execMor (pos : PosNo) (s : State) : Host.Outcome State Fault Refusal :=
  .next (s.upd fun b => b.vecAlu pos 0x39 (Vec.maskOp (· ||| ·)))

/-- MXOR (R115). -/
def execMxor (pos : PosNo) (s : State) : Host.Outcome State Fault Refusal :=
  .next (s.upd fun b => b.vecAlu pos 0x3A (Vec.maskOp (· ^^^ ·)))

/-- MNOT (R115). -/
def execMnot (pos : PosNo) (s : State) : Host.Outcome State Fault Refusal :=
  .next (s.upd fun b => b.vecAlu pos 0x3B Vec.mnot)

/-- MPOPC (R115). -/
def execMpopc (pos : PosNo) (s : State) : Host.Outcome State Fault Refusal :=
  .next (s.upd fun b => b.vecAlu pos 0x3C Vec.mpopc)

/-- MFIRST (R115). -/
def execMfirst (pos : PosNo) (s : State) : Host.Outcome State Fault Refusal :=
  .next (s.upd fun b => b.vecAlu pos 0x3D Vec.mfirst)

/-- MSET (R115). -/
def execMset (pos : PosNo) (s : State) : Host.Outcome State Fault Refusal :=
  .next (s.upd fun b => b.vecAlu pos 0x3E Vec.mset)

/-- NEG (R119). -/
def execNeg (pos : PosNo) (s : State) : Host.Outcome State Fault Refusal :=
  .next (s.upd fun b => b.vecAlu pos 0x3F Vec.neg)

/-- MOV (R115). -/
def execMov (pos : PosNo) (s : State) : Host.Outcome State Fault Refusal :=
  .next (s.upd fun b => b.vecAlu pos 0x40 Vec.mov)

/-- PERM (R131). -/
def execPerm (pos : PosNo) (s : State) : Host.Outcome State Fault Refusal :=
  .next (s.upd fun b => b.vecAlu pos 0x41 Vec.perm)

/-- BCASTL (R131). -/
def execBcastl (pos : PosNo) (s : State) : Host.Outcome State Fault Refusal :=
  .next (s.upd fun b => b.vecAlu pos 0x42 Vec.bcastl)

/-- SLIDEUP (R132). -/
def execSlideup (pos : PosNo) (s : State) : Host.Outcome State Fault Refusal :=
  .next (s.upd fun b => b.vecAlu pos 0x43 Vec.slideup)

/-- SLIDEDN (R132). -/
def execSlidedn (pos : PosNo) (s : State) : Host.Outcome State Fault Refusal :=
  .next (s.upd fun b => b.vecAlu pos 0x44 Vec.slidedn)

/-- COMPRESS (R130). -/
def execCompress (pos : PosNo) (s : State) : Host.Outcome State Fault Refusal :=
  .next (s.upd fun b => b.vecAlu pos 0x45 Vec.compress)

/-- EXPAND (R130). -/
def execExpand (pos : PosNo) (s : State) : Host.Outcome State Fault Refusal :=
  .next (s.upd fun b => b.vecAlu pos 0x46 Vec.expand)

/-- BCASTX (R113). -/
def execBcastx (pos : PosNo) (s : State) : Host.Outcome State Fault Refusal :=
  .next (s.upd fun b => b.vecAlu pos 0x47 Vec.bcastx)

/-- XFROMV (R131). -/
def execXfromv (pos : PosNo) (s : State) : Host.Outcome State Fault Refusal :=
  .next (s.upd fun b => b.vecAlu pos 0x48 Vec.xfromv)

/-! ### Reduction instructions (R140–R144) -/

/-- RCLR (R140). -/
def execRclr (pos : PosNo) (s : State) : Host.Outcome State Fault Refusal :=
  .next (s.upd fun b => b.vecAlu pos 0x60 Vec.rclr)

/-- RNORM (R141). -/
def execRnorm (pos : PosNo) (s : State) : Host.Outcome State Fault Refusal :=
  .next (s.upd fun b => b.vecAlu pos 0x61 Vec.rnorm)

/-- RSUM (R142). -/
def execRsum (pos : PosNo) (s : State) : Host.Outcome State Fault Refusal :=
  .next (s.upd fun b => b.vecAlu pos 0x62 Vec.rsum)

/-- RTOPK (R143). -/
def execRtopk (pos : PosNo) (s : State) : Host.Outcome State Fault Refusal :=
  .next (s.upd fun b => b.vecAlu pos 0x63 Vec.rtopk)

/-- RMERGE (R144). -/
def execRmerge (pos : PosNo) (s : State) : Host.Outcome State Fault Refusal :=
  .next (s.upd fun b => b.vecAlu pos 0x64 Vec.rmerge)

/-- RGETN (R140). -/
def execRgetn (pos : PosNo) (s : State) : Host.Outcome State Fault Refusal :=
  .next (s.upd fun b => b.vecAlu pos 0x68 Vec.rgetn)

/-- RGETS (R140). -/
def execRgets (pos : PosNo) (s : State) : Host.Outcome State Fault Refusal :=
  .next (s.upd fun b => b.vecAlu pos 0x69 Vec.rgets)

/-- RGETQ (R140). -/
def execRgetq (pos : PosNo) (s : State) : Host.Outcome State Fault Refusal :=
  .next (s.upd fun b => b.vecAlu pos 0x6A Vec.rgetq)

/-- RGETK (R140). -/
def execRgetk (pos : PosNo) (s : State) : Host.Outcome State Fault Refusal :=
  .next (s.upd fun b => b.vecAlu pos 0x6B Vec.rgetk)

/-- RFACT (R140). -/
def execRfact (pos : PosNo) (s : State) : Host.Outcome State Fault Refusal :=
  .next (s.upd fun b => b.vecAlu pos 0x6C Vec.rfact)

/-- RSETN (R140). -/
def execRsetn (pos : PosNo) (s : State) : Host.Outcome State Fault Refusal :=
  .next (s.upd fun b => b.vecAlu pos 0x6D Vec.rsetn)

end Sys2Proof.Machine
end

