-- ==== Sys2Proof/Machine/Dispatch.lean ====
section
/-! DEFINITION. One arm per command: its meaning (R-numbers stand at the meanings). -/

namespace Sys2Proof.Machine

def exec (i : Instr) (s : State) : Host.Outcome State Fault Refusal :=
  match i with
  | .registerWrite off wide v boot => Sys2Proof.Machine.execRegisterWrite off wide v boot s
  | .bootSeal => Sys2Proof.Machine.execBootSeal s
  | .shelfRequest bank arrive upset => Sys2Proof.Machine.execShelfRequest bank arrive upset s
  | .shelfEccWriteback bank => Sys2Proof.Machine.execShelfEccWriteback bank s
  | .bankCopyDone bank => Sys2Proof.Machine.execBankCopyDone bank s
  | .shelfFill count => Sys2Proof.Machine.execShelfFill count s
  | .shelfFillDone => Sys2Proof.Machine.execShelfFillDone s
  | .shelfScrub bank => Sys2Proof.Machine.execShelfScrub bank s
  | .hbmRead req err => Sys2Proof.Machine.execHbmRead req err s
  | .hbmWrite req => Sys2Proof.Machine.execHbmWrite req s
  | .stripeGatherTimeout stripe => Sys2Proof.Machine.execStripeGatherTimeout stripe s
  | .stripeLockGrant stripe => Sys2Proof.Machine.execStripeLockGrant stripe s
  | .reorderQueueIssue pc => Sys2Proof.Machine.execReorderQueueIssue pc s
  | .hbmRefresh pc bank => Sys2Proof.Machine.execHbmRefresh pc bank s
  | .stackTemperature stack celsius => Sys2Proof.Machine.execStackTemperature stack celsius s
  | .hbmRetrain pc => Sys2Proof.Machine.execHbmRetrain pc s
  | .hbmRetrainEnd pc passed => Sys2Proof.Machine.execHbmRetrainEnd pc passed s
  | .rebuildStep stack chan => Sys2Proof.Machine.execRebuildStep stack chan s
  | .hbmPatrolScrub => Sys2Proof.Machine.execHbmPatrolScrub s
  | .doorbell slice cls v => Sys2Proof.Machine.execDoorbell slice cls v s
  | .consumerHeadWrite ring v => Sys2Proof.Machine.execConsumerHeadWrite ring v s
  | .commandFetch slice cls => Sys2Proof.Machine.execCommandFetch slice cls s
  | .headWriteback slice cls => Sys2Proof.Machine.execHeadWriteback slice cls s
  | .xfer slice cls => Sys2Proof.Machine.execXfer slice cls s
  | .vexec slice cls => Sys2Proof.Machine.execVexec slice cls s
  | .reduce slice cls => Sys2Proof.Machine.execReduce slice cls s
  | .collect slice cls => Sys2Proof.Machine.execCollect slice cls s
  | .dispatch slice cls => Sys2Proof.Machine.execDispatch slice cls s
  | .signal slice cls => Sys2Proof.Machine.execSignal slice cls s
  | .wait slice cls => Sys2Proof.Machine.execWait slice cls s
  | .mark slice cls => Sys2Proof.Machine.execMark slice cls s
  | .fence slice cls => Sys2Proof.Machine.execFence slice cls s
  | .call slice cls => Sys2Proof.Machine.execCall slice cls s
  | .returnList slice cls => Sys2Proof.Machine.execReturnList slice cls s
  | .jump slice cls => Sys2Proof.Machine.execJump slice cls s
  | .handle slice cls => Sys2Proof.Machine.execHandle slice cls s
  | .unlistedOpcode slice cls => Sys2Proof.Machine.execUnlistedOpcode slice cls s
  | .commandComplete slice cls nth => Sys2Proof.Machine.execCommandComplete slice cls nth s
  | .cringEntryPost slice => Sys2Proof.Machine.execCringEntryPost slice s
  | .cringIrqTimer slice => Sys2Proof.Machine.execCringIrqTimer slice s
  | .queueEnable slice cls => Sys2Proof.Machine.execQueueEnable slice cls s
  | .queueDisable slice cls => Sys2Proof.Machine.execQueueDisable slice cls s
  | .queuePause slice cls => Sys2Proof.Machine.execQueuePause slice cls s
  | .queueResume slice cls => Sys2Proof.Machine.execQueueResume slice cls s
  | .queueRetry slice cls => Sys2Proof.Machine.execQueueRetry slice cls s
  | .queueSkip slice cls => Sys2Proof.Machine.execQueueSkip slice cls s
  | .syncSignal obj amount sender => Sys2Proof.Machine.execSyncSignal obj amount sender s
  | .syncReset obj sender => Sys2Proof.Machine.execSyncReset obj sender s
  | .syncRead obj sender => Sys2Proof.Machine.execSyncRead obj sender s
  | .syncWaitRegister obj target site tag timeoutUs => Sys2Proof.Machine.execSyncWaitRegister obj target site tag timeoutUs s
  | .waitRelease home => Sys2Proof.Machine.execWaitRelease home s
  | .waitTimeout slice cls => Sys2Proof.Machine.execWaitTimeout slice cls s
  | .waitPoll home nth => Sys2Proof.Machine.execWaitPoll home nth s
  | .fenceComplete slice cls => Sys2Proof.Machine.execFenceComplete slice cls s
  | .markCommit slice => Sys2Proof.Machine.execMarkCommit slice s
  | .xferSlotStart pos => Sys2Proof.Machine.execXferSlotStart pos s
  | .xferDescRead pos slot => Sys2Proof.Machine.execXferDescRead pos slot s
  | .xferCursorRead pos slot => Sys2Proof.Machine.execXferCursorRead pos slot s
  | .xferBlockPrepared pos slot ahead parity => Sys2Proof.Machine.execXferBlockPrepared pos slot ahead parity s
  | .xferBlockDelivered pos slot => Sys2Proof.Machine.execXferBlockDelivered pos slot s
  | .vexecImageLoaded pos => Sys2Proof.Machine.execVexecImageLoaded pos s
  | .vectorAccessComplete pos => Sys2Proof.Machine.execVectorAccessComplete pos s
  | .vexecTimeout pos => Sys2Proof.Machine.execVexecTimeout pos s
  | .forbiddenInstruction pos => Sys2Proof.Machine.execForbiddenInstruction pos s
  | .nop pos => Sys2Proof.Machine.execNop pos s
  | .endKernel pos => Sys2Proof.Machine.execEndKernel pos s
  | .jmp pos => Sys2Proof.Machine.execJmp pos s
  | .dbnz pos => Sys2Proof.Machine.execDbnz pos s
  | .setvl pos => Sys2Proof.Machine.execSetvl pos s
  | .sli pos => Sys2Proof.Machine.execSli pos s
  | .slih pos => Sys2Proof.Machine.execSlih pos s
  | .sadd pos => Sys2Proof.Machine.execSadd pos s
  | .ssub pos => Sys2Proof.Machine.execSsub pos s
  | .smul pos => Sys2Proof.Machine.execSmul pos s
  | .sarg pos => Sys2Proof.Machine.execSarg pos s
  | .rdflg pos => Sys2Proof.Machine.execRdflg pos s
  | .setseed pos => Sys2Proof.Machine.execSetseed pos s
  | .vld pos => Sys2Proof.Machine.execVld pos s
  | .vlds pos => Sys2Proof.Machine.execVlds pos s
  | .vldx pos => Sys2Proof.Machine.execVldx pos s
  | .vst pos => Sys2Proof.Machine.execVst pos s
  | .vsts pos => Sys2Proof.Machine.execVsts pos s
  | .vstx pos => Sys2Proof.Machine.execVstx pos s
  | .vstxa pos => Sys2Proof.Machine.execVstxa pos s
  | .vseal pos => Sys2Proof.Machine.execVseal pos s
  | .vchk pos => Sys2Proof.Machine.execVchk pos s
  | .add pos => Sys2Proof.Machine.execAdd pos s
  | .sub pos => Sys2Proof.Machine.execSub pos s
  | .mul pos => Sys2Proof.Machine.execMul pos s
  | .fma pos => Sys2Proof.Machine.execFma pos s
  | .fnma pos => Sys2Proof.Machine.execFnma pos s
  | .min pos => Sys2Proof.Machine.execMin pos s
  | .max pos => Sys2Proof.Machine.execMax pos s
  | .abs pos => Sys2Proof.Machine.execAbs pos s
  | .exp2 pos => Sys2Proof.Machine.execExp2 pos s
  | .log2 pos => Sys2Proof.Machine.execLog2 pos s
  | .rcp pos => Sys2Proof.Machine.execRcp pos s
  | .rsqrt pos => Sys2Proof.Machine.execRsqrt pos s
  | .shl pos => Sys2Proof.Machine.execShl pos s
  | .shr pos => Sys2Proof.Machine.execShr pos s
  | .sra pos => Sys2Proof.Machine.execSra pos s
  | .cvt pos => Sys2Proof.Machine.execCvt pos s
  | .cmpEq pos => Sys2Proof.Machine.execCmpEq pos s
  | .cmpNe pos => Sys2Proof.Machine.execCmpNe pos s
  | .cmpLt pos => Sys2Proof.Machine.execCmpLt pos s
  | .cmpLe pos => Sys2Proof.Machine.execCmpLe pos s
  | .cmpGt pos => Sys2Proof.Machine.execCmpGt pos s
  | .cmpGe pos => Sys2Proof.Machine.execCmpGe pos s
  | .cmpUn pos => Sys2Proof.Machine.execCmpUn pos s
  | .sel pos => Sys2Proof.Machine.execSel pos s
  | .mand pos => Sys2Proof.Machine.execMand pos s
  | .mor pos => Sys2Proof.Machine.execMor pos s
  | .mxor pos => Sys2Proof.Machine.execMxor pos s
  | .mnot pos => Sys2Proof.Machine.execMnot pos s
  | .mpopc pos => Sys2Proof.Machine.execMpopc pos s
  | .mfirst pos => Sys2Proof.Machine.execMfirst pos s
  | .mset pos => Sys2Proof.Machine.execMset pos s
  | .neg pos => Sys2Proof.Machine.execNeg pos s
  | .mov pos => Sys2Proof.Machine.execMov pos s
  | .perm pos => Sys2Proof.Machine.execPerm pos s
  | .bcastl pos => Sys2Proof.Machine.execBcastl pos s
  | .slideup pos => Sys2Proof.Machine.execSlideup pos s
  | .slidedn pos => Sys2Proof.Machine.execSlidedn pos s
  | .compress pos => Sys2Proof.Machine.execCompress pos s
  | .expand pos => Sys2Proof.Machine.execExpand pos s
  | .bcastx pos => Sys2Proof.Machine.execBcastx pos s
  | .xfromv pos => Sys2Proof.Machine.execXfromv pos s
  | .rclr pos => Sys2Proof.Machine.execRclr pos s
  | .rnorm pos => Sys2Proof.Machine.execRnorm pos s
  | .rsum pos => Sys2Proof.Machine.execRsum pos s
  | .rtopk pos => Sys2Proof.Machine.execRtopk pos s
  | .rmerge pos => Sys2Proof.Machine.execRmerge pos s
  | .rgetn pos => Sys2Proof.Machine.execRgetn pos s
  | .rgets pos => Sys2Proof.Machine.execRgets pos s
  | .rgetq pos => Sys2Proof.Machine.execRgetq pos s
  | .rgetk pos => Sys2Proof.Machine.execRgetk pos s
  | .rfact pos => Sys2Proof.Machine.execRfact pos s
  | .rsetn pos => Sys2Proof.Machine.execRsetn pos s
  | .reduceChunk pos => Sys2Proof.Machine.execReduceChunk pos s
  | .collectWaitSatisfied pos nth => Sys2Proof.Machine.execCollectWaitSatisfied pos nth s
  | .collectTimeout pos nth => Sys2Proof.Machine.execCollectTimeout pos nth s
  | .siteTrained site rates repaired failed => Sys2Proof.Machine.execSiteTrained site rates repaired failed s
  | .siteTrainTimeout site => Sys2Proof.Machine.execSiteTrainTimeout site s
  | .dataFrame site frame kind3 => Sys2Proof.Machine.execDataFrame site frame kind3 s
  | .idleFrame site frame => Sys2Proof.Machine.execIdleFrame site frame s
  | .nakFrame site frame => Sys2Proof.Machine.execNakFrame site frame s
  | .ackTimer site => Sys2Proof.Machine.execAckTimer site s
  | .nakResend site => Sys2Proof.Machine.execNakResend site s
  | .moduleReturnTimeout site md => Sys2Proof.Machine.execModuleReturnTimeout site md s
  | .linkHello site => Sys2Proof.Machine.execLinkHello site s
  | .heartbeat site => Sys2Proof.Machine.execHeartbeat site s
  | .widthPropose site set attempt test => Sys2Proof.Machine.execWidthPropose site set attempt test s
  | .widthAgree site set attempt => Sys2Proof.Machine.execWidthAgree site set attempt s
  | .widthAck site ack => Sys2Proof.Machine.execWidthAck site ack s
  | .resetNote site => Sys2Proof.Machine.execResetNote site s
  | .errNote site kind who addr => Sys2Proof.Machine.execErrNote site kind who addr s
  | .coreFail site phys => Sys2Proof.Machine.execCoreFail site phys s
  | .protoNote site opcode tag => Sys2Proof.Machine.execProtoNote site opcode tag s
  | .sidebandInvalid msg => Sys2Proof.Machine.execSidebandInvalid msg s
  | .heartbeatSend site => Sys2Proof.Machine.execHeartbeatSend site s
  | .heartbeatTimeout site => Sys2Proof.Machine.execHeartbeatTimeout site s
  | .sidebandResend site => Sys2Proof.Machine.execSidebandResend site s
  | .reconTimeout test => Sys2Proof.Machine.execReconTimeout test s
  | .clockLoss site groups => Sys2Proof.Machine.execClockLoss site groups s
  | .siteReset site => Sys2Proof.Machine.execSiteReset site s
  | .siteResetRelease site => Sys2Proof.Machine.execSiteResetRelease site s
  | .siteRetrain site => Sys2Proof.Machine.execSiteRetrain site s
  | .clkHold site on => Sys2Proof.Machine.execClkHold site on s
  | .rd site h => Sys2Proof.Machine.execRd site h s
  | .wr site h data => Sys2Proof.Machine.execWr site h data s
  | .wrBlock site h data => Sys2Proof.Machine.execWrBlock site h data s
  | .swpAdd site h data => Sys2Proof.Machine.execSwpAdd site h data s
  | .rdBlock site h => Sys2Proof.Machine.execRdBlock site h s
  | .syncWait site h target => Sys2Proof.Machine.execSyncWait site h target s
  | .siteWaitTimeout site tag => Sys2Proof.Machine.execSiteWaitTimeout site tag s
  | .burgee site data => Sys2Proof.Machine.execBurgee site data s
  | .enrolTimeout site => Sys2Proof.Machine.execEnrolTimeout site s
  | .rdData site h data => Sys2Proof.Machine.execRdData site h data s
  | .resp site h => Sys2Proof.Machine.execResp site h s
  | .done site h count => Sys2Proof.Machine.execDone site h count s
  | .credit site reqH reqD snpH => Sys2Proof.Machine.execCredit site reqH reqD snpH s
  | .unlistedPacket site op units h => Sys2Proof.Machine.execUnlistedPacket site op units h s
  | .dispatchTimeout site tag => Sys2Proof.Machine.execDispatchTimeout site tag s
  | .cancelTimeout site tag => Sys2Proof.Machine.execCancelTimeout site tag s
  | .windowReqTimeout site tag => Sys2Proof.Machine.execWindowReqTimeout site tag s
  | .cRdS site h dirErr => Sys2Proof.Machine.execCRdS site h dirErr s
  | .cRdO site h dirErr => Sys2Proof.Machine.execCRdO site h dirErr s
  | .cUpg site h dirErr => Sys2Proof.Machine.execCUpg site h dirErr s
  | .cWb site h data => Sys2Proof.Machine.execCWb site h data s
  | .cEvict site h => Sys2Proof.Machine.execCEvict site h s
  | .snpAck site h => Sys2Proof.Machine.execSnpAck site h s
  | .snpData site h data => Sys2Proof.Machine.execSnpData site h data s
  | .snoopTimeout site tag => Sys2Proof.Machine.execSnoopTimeout site tag s
  | .holdWindowEnd line => Sys2Proof.Machine.execHoldWindowEnd line s
  | .reservationExpiry line => Sys2Proof.Machine.execReservationExpiry line s
  | .reclaimStep => Sys2Proof.Machine.execReclaimStep s
  | .atsCompletion tag status pa log2 r w u g => Sys2Proof.Machine.execAtsCompletion tag status pa log2 r w u g s
  | .atsTimeout tag => Sys2Proof.Machine.execAtsTimeout tag s
  | .prgSend => Sys2Proof.Machine.execPrgSend s
  | .prgResponse fn idx code => Sys2Proof.Machine.execPrgResponse fn idx code s
  | .prgTimeout fn idx => Sys2Proof.Machine.execPrgTimeout fn idx s
  | .invalidateRequest fn itag pasid glob va log2 => Sys2Proof.Machine.execInvalidateRequest fn itag pasid glob va log2 s
  | .invalidationComplete fn itag => Sys2Proof.Machine.execInvalidationComplete fn itag s
  | .accDecay => Sys2Proof.Machine.execAccDecay s
  | .accClear => Sys2Proof.Machine.execAccClear s
  | .tlbFlush => Sys2Proof.Machine.execTlbFlush s
  | .cringWriteRetry slice => Sys2Proof.Machine.execCringWriteRetry slice s
  | .requestRingDoorbell slice v => Sys2Proof.Machine.execRequestRingDoorbell slice v s
  | .requestSubmit slice => Sys2Proof.Machine.execRequestSubmit slice s
  | .requestCancel slice => Sys2Proof.Machine.execRequestCancel slice s
  | .stepBoundary part => Sys2Proof.Machine.execStepBoundary part s
  | .sampleToken part slice reqId cands => Sys2Proof.Machine.execSampleToken part slice reqId cands s
  | .tokenRingRoom slice => Sys2Proof.Machine.execTokenRingRoom slice s
  | .tokenIrqTimer slice => Sys2Proof.Machine.execTokenIrqTimer slice s
  | .planLoad part index => Sys2Proof.Machine.execPlanLoad part index s
  | .planUnload part index => Sys2Proof.Machine.execPlanUnload part index s
  | .fwActivate => Sys2Proof.Machine.execFwActivate s
  | .fwSelfCheckTimeout => Sys2Proof.Machine.execFwSelfCheckTimeout s
  | .denobRestartDone => Sys2Proof.Machine.execDenobRestartDone s
  | .serveEnable slice => Sys2Proof.Machine.execServeEnable slice s
  | .serveDisable slice => Sys2Proof.Machine.execServeDisable slice s
  | .openSlice slice => Sys2Proof.Machine.execOpenSlice slice s
  | .resetSlice slice => Sys2Proof.Machine.execResetSlice slice s
  | .sliceResetComplete slice => Sys2Proof.Machine.execSliceResetComplete slice s
  | .freeze slice => Sys2Proof.Machine.execFreeze slice s
  | .freezeDrainComplete slice => Sys2Proof.Machine.execFreezeDrainComplete slice s
  | .freezeWaitTimeout slice => Sys2Proof.Machine.execFreezeWaitTimeout slice s
  | .thaw slice => Sys2Proof.Machine.execThaw slice s
  | .release slice => Sys2Proof.Machine.execRelease slice s
  | .releaseDone slice => Sys2Proof.Machine.execReleaseDone slice s
  | .save slice => Sys2Proof.Machine.execSave slice s
  | .saveDone slice => Sys2Proof.Machine.execSaveDone slice s
  | .restore slice => Sys2Proof.Machine.execRestore slice s
  | .restoreDone slice => Sys2Proof.Machine.execRestoreDone slice s
  | .partitionReset part => Sys2Proof.Machine.execPartitionReset part s
  | .partitionResetDone part => Sys2Proof.Machine.execPartitionResetDone part s
  | .reform => Sys2Proof.Machine.execReform s
  | .reformDone => Sys2Proof.Machine.execReformDone s
  | .mbxMessageSend slice m0 => Sys2Proof.Machine.execMbxMessageSend slice m0 s
  | .mbxAck slice => Sys2Proof.Machine.execMbxAck slice s
  | .mbxSend slice => Sys2Proof.Machine.execMbxSend slice s
  | .mbxInClear slice => Sys2Proof.Machine.execMbxInClear slice s
  | .halyardInject present upset => Sys2Proof.Machine.execHalyardInject present upset s
  | .domainWake domain => Sys2Proof.Machine.execDomainWake domain s
  | .wakeTimeout domain => Sys2Proof.Machine.execWakeTimeout domain s
  | .idleGate domain => Sys2Proof.Machine.execIdleGate domain s
  | .hyReqTimeout port tag => Sys2Proof.Machine.execHyReqTimeout port tag s
  | .snap => Sys2Proof.Machine.execSnap s
  | .bar0Access req => Sys2Proof.Machine.execBar0Access req s
  | .bar2Access req => Sys2Proof.Machine.execBar2Access req s
  | .bar4Access req => Sys2Proof.Machine.execBar4Access req s
  | .busMasterEnableClear fn => Sys2Proof.Machine.execBusMasterEnableClear fn s
  | .busMasterEnableSet fn => Sys2Proof.Machine.execBusMasterEnableSet fn s
  | .memorySpaceEnableClear vfs => Sys2Proof.Machine.execMemorySpaceEnableClear vfs s
  | .d3hotEntry => Sys2Proof.Machine.execD3hotEntry s
  | .d3hotExit => Sys2Proof.Machine.execD3hotExit s
  | .vfFlr vf => Sys2Proof.Machine.execVfFlr vf s
  | .pfFlr => Sys2Proof.Machine.execPfFlr s
  | .hotReset => Sys2Proof.Machine.execHotReset s
  | .dlDown => Sys2Proof.Machine.execDlDown s
  | .pcieLinkChange speed width flit => Sys2Proof.Machine.execPcieLinkChange speed width flit s
  | .vfEnableClear numVfs => Sys2Proof.Machine.execVfEnableClear numVfs s
  | .hostCompletion tag fn status ep data ide => Sys2Proof.Machine.execHostCompletion tag fn status ep data ide s
  | .completionTimeout slot => Sys2Proof.Machine.execCompletionTimeout slot s
  | .msixUnmask fn vec => Sys2Proof.Machine.execMsixUnmask fn vec s
  | .tdispMessage vf msg => Sys2Proof.Machine.execTdispMessage vf msg s
  | .spdmRequest req => Sys2Proof.Machine.execSpdmRequest req s
  | .reachTrained test => Sys2Proof.Machine.execReachTrained test s
  | .reachTrainTimeout port => Sys2Proof.Machine.execReachTrainTimeout port s
  | .hello port dev nbPort => Sys2Proof.Machine.execHello port dev nbPort s
  | .reachDataFrame port frame => Sys2Proof.Machine.execReachDataFrame port frame s
  | .reachIdleFrame port frame => Sys2Proof.Machine.execReachIdleFrame port frame s
  | .reachNakFrame port frame => Sys2Proof.Machine.execReachNakFrame port frame s
  | .reachNakResend port => Sys2Proof.Machine.execReachNakResend port s
  | .reachWidthChange port set last => Sys2Proof.Machine.execReachWidthChange port set last s
  | .reachWidthAck port last => Sys2Proof.Machine.execReachWidthAck port last s
  | .linkDown port => Sys2Proof.Machine.execLinkDown port s
  | .reachLockLoss port => Sys2Proof.Machine.execReachLockLoss port s
  | .reachFrameTimeout port => Sys2Proof.Machine.execReachFrameTimeout port s
  | .serWindowExpiry port corrected => Sys2Proof.Machine.execSerWindowExpiry port corrected s
  | .reachForward port kind h data => Sys2Proof.Machine.execReachForward port kind h data s
  | .reachRequest port kind h data => Sys2Proof.Machine.execReachRequest port kind h data s
  | .reachResponse port h data => Sys2Proof.Machine.execReachResponse port h data s
  | .waitNotice port h => Sys2Proof.Machine.execWaitNotice port h s
  | .reachTimeout tag => Sys2Proof.Machine.execReachTimeout tag s
  | .presenceChange port present => Sys2Proof.Machine.execPresenceChange port present s
  | .attentionButton port => Sys2Proof.Machine.execAttentionButton port s
  | .pwrOff port off => Sys2Proof.Machine.execPwrOff port off s
  | .slotIndicator port attn pwr => Sys2Proof.Machine.execSlotIndicator port attn pwr s
  | .pennant source kind aux count addr noSlice => Sys2Proof.Machine.execPennant source kind aux count addr noSlice s
  | .faultPairAssert pair first second => Sys2Proof.Machine.execFaultPairAssert pair first second s
  | .recordHandle home => Sys2Proof.Machine.execRecordHandle home s
  | .collectorRestartDone => Sys2Proof.Machine.execCollectorRestartDone s
  | .recoveryStart part => Sys2Proof.Machine.execRecoveryStart part s
  | .bucketLeak source => Sys2Proof.Machine.execBucketLeak source s
  | .coreHang pos => Sys2Proof.Machine.execCoreHang pos s
  | .unfenceTimeout site phys => Sys2Proof.Machine.execUnfenceTimeout site phys s
  | .fcAck index => Sys2Proof.Machine.execFcAck index s
  | .fcAckAll => Sys2Proof.Machine.execFcAckAll s
  | .unitRestore source => Sys2Proof.Machine.execUnitRestore source s
  | .restoreTestDone passed => Sys2Proof.Machine.execRestoreTestDone passed s
  | .inject source kind aux count mode1 => Sys2Proof.Machine.execInject source kind aux count mode1 s
  | .waveRefresh => Sys2Proof.Machine.execWaveRefresh s
  | .waveResume => Sys2Proof.Machine.execWaveResume s
  | .fatalAutoReset => Sys2Proof.Machine.execFatalAutoReset s
  | .routerPoll answered => Sys2Proof.Machine.execRouterPoll answered s
  | .slotGenerate slot => Sys2Proof.Machine.execSlotGenerate slot s
  | .slotImport slot => Sys2Proof.Machine.execSlotImport slot s
  | .slotClear slot => Sys2Proof.Machine.execSlotClear slot s
  | .pkgInstall => Sys2Proof.Machine.execPkgInstall s
  | .installUnit nth => Sys2Proof.Machine.execInstallUnit nth s
  | .pkgInstallDone nth => Sys2Proof.Machine.execPkgInstallDone nth s
  | .fwStage => Sys2Proof.Machine.execFwStage s
  | .fwStageDone => Sys2Proof.Machine.execFwStageDone s
  | .lcTransition target => Sys2Proof.Machine.execLcTransition target s
  | .lcCommitDone => Sys2Proof.Machine.execLcCommitDone s
  | .debugGrant bytes => Sys2Proof.Machine.execDebugGrant bytes s
  | .debugRevoke => Sys2Proof.Machine.execDebugRevoke s
  | .debugAccess op => Sys2Proof.Machine.execDebugAccess op s
  | .powerGood => Sys2Proof.Machine.execPowerGood s
  | .pwrgoodFall progress => Sys2Proof.Machine.execPwrgoodFall progress s
  | .preambleDone => Sys2Proof.Machine.execPreambleDone s
  | .perstAssert => Sys2Proof.Machine.execPerstAssert s
  | .perstRelease => Sys2Proof.Machine.execPerstRelease s
  | .rootPllLock => Sys2Proof.Machine.execRootPllLock s
  | .coreWave wave => Sys2Proof.Machine.execCoreWave wave s
  | .coreBistDone core passed => Sys2Proof.Machine.execCoreBistDone core passed s
  | .enrolWave wave => Sys2Proof.Machine.execEnrolWave wave s
  | .shelfBistDone failed => Sys2Proof.Machine.execShelfBistDone failed s
  | .stackTrainingDone stack result => Sys2Proof.Machine.execStackTrainingDone stack result s
  | .reconciliation tests => Sys2Proof.Machine.execReconciliation tests s
  | .warmReset => Sys2Proof.Machine.execWarmReset s
  | .warmResetDrained => Sys2Proof.Machine.execWarmResetDrained s
  | .coldReset => Sys2Proof.Machine.execColdReset s
  | .coreReset pos => Sys2Proof.Machine.execCoreReset pos s
  | .coreResetDone pos => Sys2Proof.Machine.execCoreResetDone pos s
  | .defectClear => Sys2Proof.Machine.execDefectClear s
  | .budgetPeriod hubW => Sys2Proof.Machine.execBudgetPeriod hubW s
  | .grantMissed site => Sys2Proof.Machine.execGrantMissed site s
  | .budgetAck site seq power => Sys2Proof.Machine.execBudgetAck site seq power s
  | .tempReport site temp => Sys2Proof.Machine.execTempReport site temp s
  | .dipExpiry site => Sys2Proof.Machine.execDipExpiry site s
  | .manualDip sites pct us => Sys2Proof.Machine.execManualDip sites pct us s
  | .sensorUpdate sensor raw => Sys2Proof.Machine.execSensorUpdate sensor raw s
  | .halfmastRelease site => Sys2Proof.Machine.execHalfmastRelease site s
  | .latIsolateTimeout site => Sys2Proof.Machine.execLatIsolateTimeout site s
  | .i3cOffsetWrite bytes => Sys2Proof.Machine.execI3cOffsetWrite bytes s
  | .i3cRead wide => Sys2Proof.Machine.execI3cRead wide s
  | .stackStopsAnswering stack pllLost => Sys2Proof.Machine.execStackStopsAnswering stack pllLost s
  | .adapterCrcError site md retries => Sys2Proof.Machine.execAdapterCrcError site md retries s
  | .moduleActiveStateChange site md active repaired half => Sys2Proof.Machine.execModuleActiveStateChange site md active repaired half s
  | .waveRefreshLapse => Sys2Proof.Machine.execWaveRefreshLapse s
  | .configRequest fn dword op tag => Sys2Proof.Machine.execConfigRequest fn dword op tag s

end Sys2Proof.Machine
end

