-- ==== Sys2Proof/Machine/Tick.lean ====
section
/-! DEFINITION. One CLK_CORE cycle, which the machine takes when no command waits (DESIGN CHOICE, assumption 2): only what
runs by the cycle whatever is commanded moves here; every timer of the spec that ends in an event is a command. -/

namespace Sys2Proof.Machine

/-- R33: a bank copy takes every second cycle; a beat with a queued request is not passed. -/
def Block.tickCopies (b : Block) : Block :=
  if b.now % 2 = 1 then b
  else b.shelf.copies.foldl (fun b c =>
    let a := Shelf.beatAddr c.lbank c.cursor
    let busy := (b.bankQueue c.lbank).any fun r => decide (r.req.addr / 64 ≤ a / 64)
      && decide (a / 64 ≤ (r.req.addr + r.req.len - 1) / 64)
    if c.cursor < 16384 && !busy then b.copyBeats c (c.cursor + 1) else b) b

/-- Refreshes under way end (assumption 16). -/
def Block.tickRefresh (b : Block) : Block :=
  { b with hbm := { b.hbm with pcs := b.hbm.pcs.filterMap fun e =>
    let c := { e.2 with refreshing := [] }
    if c = PseudoChannel.idle then none else some (e.1, c) } }

/-- R160 rule 2 on the reach ports: an ACK 32 ns after the last, while a received frame has none, or
credits are to be returned. -/
def Block.tickReach (b : Block) : Block :=
  (List.range 4).foldl (fun b p =>
    let l := b.rport p
    if b.rchUp p && decide (0 < l.framesSinceAck + l.owedReq + l.owedRsp) && decide (l.ackAt + 51 ≤ b.now) then
      b.rchBare p 1 else b) b

/-- The home: uncached accesses whose turn has come are started (R211), and evictions go on (R218). -/
def Block.tickHome (b : Block) : Block :=
  let b := (b.coh.waiting.map fun w => w.1).eraseDups.foldl (fun b l => b.lineStart l) b
  let b := b.ten.resets.foldl (fun b r => b.evictPart r.part) b
  match b.ten.reform with
  | some r => r.changed.foldl (fun b p => b.evictPart p) b
  | none => b

/-- Denob: a load that waited for its plan goes on (R245). -/
def Block.tickPlan (b : Block) : Block :=
  match b.dn.loading with
  | some l => if b.dnRuns then b.settle fun b => b.planLoad l.1 l.2 else b
  | none => b

/-- A cycle: register accesses that wait are performed where they may be, and the rest moves on. -/
def Block.tick (b : Block) (o : Otp) : Block × Otp :=
  let r := b.regDrain o
  ({ r.1.tickCopies.tickRefresh.tickReach.tickTokens.tickHello.tickHome.tickPlan with now := r.1.now + 1 }, r.2)

end Sys2Proof.Machine
end

