-- ==== Sys2Proof/Safety.lean ====
section
/-! DEFINITION. What counts as a safe outcome, a step that answers a next state, and the terms in which statements say what a
command does and what it leaves alone. -/

namespace Sys2Proof

/-- The outcome is a next state. -/
def Safe (o : Host.Outcome Machine.State Machine.Fault Machine.Refusal) : Prop := ∃ t, o = .next t

namespace Machine

/-- Command `c` answers a next state, of which `p` holds. -/
def Yields (c : Instr) (s : State) (p : State → Prop) : Prop := ∃ t, exec c s = .next t ∧ p t

/-- Two fields share no bit. -/
def Fld.Apart (f g : Fld) : Prop := f.off ≠ g.off ∨ f.lo + f.w ≤ g.lo ∨ g.lo + g.w ≤ f.lo

/-- Every register field apart from those of `fs` reads as before. -/
def Block.FieldsKept (b c : Block) (fs : List Fld) : Prop :=
  ∀ g : Fld, g.lo + g.w ≤ 64 → (∀ f ∈ fs, g.Apart f) → c.rd g = b.rd g

/-- `t` differs from `s` in register fields alone, and only in those of `fs`. -/
def OnlyFields (s t : State) (fs : List Fld) : Prop :=
  t = { s with blk := { s.blk with regs := t.blk.regs } } ∧ s.blk.FieldsKept t.blk fs

/-- Registers that their own tables leave to R4–R9: a write of one starts nothing and no other register bounds it. -/
def Reg.plain (o : Nat) : Bool :=
  (decide (o < 0x1008000) && decide (o ∉ [Reg.MH_BOOT_SEAL.SEAL.off, Reg.MH_RESET_CTRL.KEY.off, Reg.MH_DEFECT_CTRL.CLEAR.off]))
    || (decide (0x5000000 ≤ o) && decide (o < 0x6000000) && !(decide (o < 0x5800000) && decide (o % 0x100000 = 0x100)))
    || (decide (0x6000000 ≤ o) && decide (o < 0x7000000) && decide (o ∉ [Reg.SH_FILL_BASE.BLOCK.off, Reg.SH_FILL_CTRL.COUNT.off]))
    || (decide (0x8000000 ≤ o) && decide (o < 0x9000000) && decide (o ≠ Reg.CO_CFG.HOLD_CYC.off))
    || (decide (0xf000000 ≤ o) && decide (o ∉ [Reg.XL_CFG.ACC_CLEAR.off, Reg.XL_HOT_CFG.EN.off, Reg.XL_HOT_HEAD.INDEX.off]))

/-- A byte of the shelf, by its DLA. -/
def Block.shelfByte (b : Block) (a : Nat) : Byte := SMap.get zeroByte b.shelf.bytes a

/-- A stored byte of HBM, by its physical place. -/
def Block.hbmByte (b : Block) (a : Nat) : Byte := SMap.get zeroByte b.hbm.bytes a

/-- `cmd`, of opcode `op` and with neither signal nor entry to give, is the next command of class `c` of slice `sl`; it may be
issued, no other command of the queue runs, and no step waits for an answer from outside. -/
def Block.Ready (b : Block) (sl c : Nat) (cmd : FCmd) (op : Nat) : Prop :=
  (b.q sl c).front = some cmd ∧ cmd.opcode = op ∧ cmd.sigAmt = 0 ∧ cmd.cpl = false ∧ b.mayIssue sl c cmd = true ∧
    (b.q sl c).inflight = [] ∧ (b.q sl c).resume = none ∧ b.ext.need = []

/-- The status fields that issue and completion keep of a queue. -/
def Fld.queue (sl c : Nat) : List Fld :=
  [Reg.SL_Q_STATUS.INFLIGHT sl c, Reg.SL_Q_STATUS.DEPTH sl c, Reg.SL_Q_STATUS.ENSIGN_CLAMP sl c]

/-- Every queue apart from class `c` of slice `sl` is as before. -/
def Block.QueuesKept (b b' : Block) (sl c : Nat) : Prop := ∀ k, k ≠ 4 * sl + c → b'.queue k = b.queue k

/-- `t` differs from `s` in one queue and its status alone. -/
def State.QueueStep (s t : State) (sl c : Nat) : Prop :=
  t = { s with blk := { s.blk with regs := t.blk.regs, queues := t.blk.queues, ext := t.blk.ext } } ∧
    s.blk.QueuesKept t.blk sl c ∧ s.blk.FieldsKept t.blk (Fld.queue sl c)

/-! ### Kernels -/

/-- The block as a step of lane `n` sees it (`Block.inLane`). -/
abbrev Block.onLane (b : Block) (n : Nat) : Block := { b with ext := { b.ext with lane := n } }

/-- The kernel of position `pos` is at an instruction of opcode `op` that R117 allows, and another follows it. -/
def Block.KernelAt (b : Block) (pos op : Nat) (r : VRun) : Prop :=
  (b.vec pos).ready = some r ∧ (b.vec pos).instr.op = op ∧ (b.vec pos).legal (b.vec pos).instr = true ∧
    (b.vec pos).pc + 1 < r.instrCount

/-- The kernel of `pos`, of run `r`, has retired its instruction, and `t` differs from `s` in its registers and its status alone. -/
def State.Retires (s t : State) (pos : Nat) (r : VRun) : Prop :=
  (t.blk.vec pos).pc = (s.blk.vec pos).pc + 1 ∧ (t.blk.vec pos).run = some { r with retired := r.retired + 1 } ∧
    t.blk.rd (Reg.VE_FLAGS.FLAGS pos) = (t.blk.vec pos).flags % 128 ∧
    t.blk.posState pos = { s.blk.posState pos with vec := t.blk.vec pos } ∧
    (∀ p, p ≠ pos → t.blk.posState p = s.blk.posState p) ∧
    s.blk.FieldsKept t.blk [Reg.VE_RETIRED.COUNT pos, Reg.VE_FLAGS.FLAGS pos, Reg.VE_STATUS.PC pos] ∧
    t = { s with blk := { s.blk with regs := t.blk.regs, pos := t.blk.pos } }

/-- Every vector register apart from `d`, and every register that is no vector register, is as before but for FLAGS. -/
def VecState.OnlyVector (v v' : VecState) (d : Nat) : Prop :=
  (∀ k, k ≠ d → v'.vreg k = v.vreg k) ∧ v' = { v with v := v'.v, flags := v'.flags, pc := v'.pc, run := v'.run }

/-- R115: of the `n` first elements of vd, the active ones hold `f e`, the others keep their value or are zero; those at or beyond
`n` keep theirs. -/
def VecState.Elements (v v' : VecState) (i : VInstr) (w n : Nat) (f : Nat → Nat) : Prop :=
  ∀ e, e < lanes w →
    v'.elem i.vd w e = if v.active i n e then f e % 2 ^ w else if i.z = true ∧ e < n then 0 else v.elem i.vd w e

/-- R115 for md. -/
def VecState.MaskBits (v v' : VecState) (i : VInstr) (n : Nat) (f : Nat → Bool) : Prop :=
  (∀ e, e < 1024 → (v'.mreg i.md).testBit e =
    if v.active i n e then f e else if i.z = true ∧ e < n then false else (v.mreg i.md).testBit e) ∧
  (∀ k, k ≠ i.md → v'.mreg k = v.mreg k) ∧ v' = { v with m := v'.m, flags := v'.flags, pc := v'.pc, run := v'.run }

/-- `c` runs an element-wise instruction: each active element of vd and its flags are `f`'s. -/
def State.ElementStep (s : State) (pos : PosNo) (c : Instr) (op : Nat) (f : VecState → VInstr → Nat → Nat × Nat) : Prop :=
  ∀ r, s.blk.KernelAt pos op r → Yields c s fun t =>
    let v := s.blk.vec pos
    let v' := t.blk.vec pos
    let i := v.instr
    let n := v.count (vtypeW i.ty)
    s.Retires t pos r ∧ v.OnlyVector v' i.vd ∧ v.Elements v' i (vtypeW i.ty) n (fun e => (f v i e).1) ∧
      v'.flags = v.flags ||| v.flagsOf i n fun e => (f v i e).2

/-- `c` runs an instruction whose destination is xd: it takes `f`'s value, x0 still reads zero, and the other kernel registers
are those of `g`. -/
def State.ScalarStep (s : State) (pos : PosNo) (c : Instr) (op : Nat) (f : VecState → VInstr → Nat)
    (g : VecState → VInstr → VecState) : Prop :=
  ∀ r, s.blk.KernelAt pos op r → Yields c s fun t =>
    let v := s.blk.vec pos
    let v' := t.blk.vec pos
    let i := v.instr
    s.Retires t pos r ∧ (∀ k, v'.xreg k = if k = 0 then 0 else if k = i.xd then f v i % 2 ^ 64 else v.xreg k) ∧
      v' = { g v i with x := v'.x, pc := v'.pc, run := v'.run }

/-- The job of command number `id` of queue `q` has reported `st` with count `cnt`; no other command and no other queue changes. -/
def Block.Reported (b b' : Block) (j : Job) (st cnt : Nat) : Prop :=
  b'.queue j.queue = { b.queue j.queue with inflight := (b.queue j.queue).inflight.map fun r =>
    if r.id = j.id ∧ r.result = none then { r with result := some (st, cnt) } else r } ∧
  ∀ k, k ≠ j.queue → b'.queue k = b.queue k

/-- The kernel of `pos`, of run `r`, has ended with `st` and `cnt` (R137, R138): its registers are discarded, the image stays, the unit is free, and `t`
differs from `s` in no memory. -/
def State.KernelEnds (s t : State) (pos : Nat) (r : VRun) (st cnt : Nat) : Prop :=
  t.blk.vec pos = (s.blk.vec pos).discard ∧ t.blk.rd (Reg.VE_STATUS.BUSY pos) = 0 ∧ t.blk.rd (Reg.VE_STATUS.LOADING pos) = 0 ∧
    s.blk.Reported t.blk r.job st cnt ∧ t.blk.posState pos = { s.blk.posState pos with vec := t.blk.vec pos } ∧
    (∀ p, p ≠ pos → t.blk.posState p = s.blk.posState p) ∧
    (st ≠ Code.SUCCESS → s.blk.rd (Reg.VE_ERR_LOG.VALID pos) = 0 →
      t.blk.rd (Reg.VE_ERR_LOG.VALID pos) = 1 ∧ t.blk.rd (Reg.VE_ERR_LOG.STATUS pos) = st % 65536) ∧
    t = { s with blk := { s.blk with regs := t.blk.regs, pos := t.blk.pos, queues := t.blk.queues, ext := t.blk.ext } }

/-- `c` runs an instruction whose destination is an accumulator: it becomes `f`'s, with `f`'s flags. -/
def State.AccStep (s : State) (pos : PosNo) (c : Instr) (op : Nat) (f : VecState → VInstr → Acc × Nat) : Prop :=
  ∀ r, s.blk.KernelAt pos op r → Yields c s fun t =>
    let v := s.blk.vec pos
    let v' := t.blk.vec pos
    let i := v.instr
    s.Retires t pos r ∧ (∀ k, v'.getAcc k = if k = i.acc then (f v i).1 else v.getAcc k) ∧
      v' = { v with acc := v'.acc, flags := v.flags ||| (f v i).2, pc := v'.pc, run := v'.run }

/-! ### Sites, pennants -/

/-- Every site apart from `n` is as before. -/
def Block.SitesKept (b b' : Block) (n : Nat) : Prop := ∀ k, k ≠ n → b'.site k = b.site k

/-- The collector's state is that of `b` with one more pennant raised. -/
def Block.Raised (b b' : Block) (source kind aux addr : Nat) : Prop := b'.fc = (b.pennant source kind aux addr).fc

/-- `s` with `n` more open values taken. -/
def State.spends (s : State) (n : Nat) : State := s.upd fun b => { b with free := b.free + n }

/-- `t` differs from `s` in the registers, site `n`, the collector and what is sent. -/
def State.SiteStep (s t : State) (n : Nat) : Prop :=
  t = { s with blk := { s.blk with regs := t.blk.regs, sites := t.blk.sites, fc := t.blk.fc, out := t.blk.out } } ∧
    s.blk.SitesKept t.blk n

/-! ### The site protocol -/

/-- The packets that were sent to site `n` between `b` and `b'`, in order. -/
def Block.packetsTo (b b' : Block) (n : Nat) : List Packet :=
  (b'.out.drop b.out.length).filterMap fun o => match o with
    | .packet k p => if k = n then some p else none
    | _ => none

/-- The state in which a packet that the hub takes in is served: it is counted, its credits are spent and a request's tag is in
use. -/
def Block.heard (b : Block) (n : Nat) (p : Packet) : Block :=
  let b := b.count (Reg.ST_SWP_PKT_RX.COUNT n) 1
  let v := b.site n
  b.setSite n { v with credits := v.credits.siteSpend p
                       siteTags := if p.isRequest then NSet.insert p.tag v.siteTags else v.siteTags }

/-- Site `n` is enrolled, holds the credits of `p`, does not use its tag, nothing waits to be sent to it, and no request of the
same words that was received before still waits. -/
def Block.Hears (b : Block) (n : Nat) (p : Packet) : Prop :=
  b.linkState n = Link.ENROLLED ∧ b.enrolled n = true ∧ (b.site n).credits.siteAllow p = true ∧
    NSet.has (b.site n).siteTags p.tag = false ∧ (b.site n).txq = [] ∧ b.ext.need = [] ∧
    ((b.site n).begun.all fun x => decide (x.packet ≠ p)) = true

/-- The CREDIT packet that returns what `p`, of channel REQ, consumed (Table SWP-3). -/
def Packet.creditOf (p : Packet) : Packet := ⟨0x7F, 0, 1, p.dataCredits, 0, 0, 0, 0, 0, []⟩

/-- Site `n`'s request has been served in `b`, answered with `a`, and its tag and credits are returned. -/
def State.Answers (s t : State) (n : Nat) (b : Block) (p a : Packet) : Prop :=
  b.packetsTo t.blk n = [a, p.creditOf] ∧ (t.blk.site n).siteTags = (s.blk.site n).siteTags ∧
    (t.blk.site n).credits = (s.blk.site n).credits ∧ (∀ k, k ≠ n → t.blk.site k = b.site k) ∧
    b.FieldsKept t.blk [Reg.ST_SWP_PKT_TX.COUNT n] ∧
    t = { s with blk := { b with regs := t.blk.regs, sites := t.blk.sites, out := t.blk.out, ext := t.blk.ext } }

/-! ### Coherence -/

/-- The CREDIT packet that returns what `p`, of channel CREQ, consumed. -/
def Packet.creqCreditOf (p : Packet) : Packet := ⟨0x7F, 0, 0, 0, 0, 1, p.dataCredits, 0, 0, []⟩

/-- What the directory records of a line: its state, BUNT and its pointers in order. -/
def Block.lineState (b : Block) (line : Nat) : Option (DirState × Bool × List Nat) :=
  (b.dirEntry line).map fun e => (e.state, e.bunt, e.ptrs.filterMap id)

/-- A coherent request of agent `r` for `line` that R198 and R208 let be accepted: no line is open or reserved, a tracker is free and no site is being reclaimed. -/
def Block.CohReady (b : Block) (m : CMsg) : Prop :=
  b.cohCheck m = none ∧ b.coh.txns = [] ∧ b.coh.reserved = [] ∧ b.coh.waiting = [] ∧ b.rd Reg.CO_STATUS.RECLAIM_PENDING = 0

/-- `t` differs from `s` in the directory and its counters, in sites and in what is sent. -/
def State.CohStep (s t : State) : Prop :=
  t = { s with blk := { s.blk with regs := t.blk.regs, sites := t.blk.sites, coh := t.blk.coh, out := t.blk.out } }

/-- Site `n`'s coherent request `p` for `line` has been answered with `a`: the directory holds `d`, and the line is held from now for HOLD_CYC. -/
def State.CohDone (s t : State) (n : Nat) (p a : Packet) (line : Nat) (d : DirState) (ps : List Nat) : Prop :=
  s.blk.packetsTo t.blk n = [a, p.creqCreditOf] ∧ t.blk.lineState line = some (d, false, ps) ∧
    (t.blk.coh.txns.map fun x => (x.line, x.hold)) = [(line, some (s.blk.now + s.blk.rd Reg.CO_CFG.HOLD_CYC))] ∧
    s.CohStep t ∧ s.blk.SitesKept t.blk n

/-- Site `n`'s coherent request `p` for `line` waits: agent `o` has been sent a snoop of opcode `op` and ATTR `attr`, and the directory is as before. -/
def State.CohAsks (s t : State) (n : Nat) (p : Packet) (line o op attr : Nat) : Prop :=
  (s.blk.packetsTo t.blk (o / 64)).map (fun q => (q.op, q.core, q.attr, q.addr)) = [(op, o % 64, attr, line * 64)] ∧
    s.blk.packetsTo t.blk n = [p.creqCreditOf] ∧ t.blk.coh.dir = s.blk.coh.dir ∧
    (t.blk.coh.txns.map fun x => (x.line, x.snoops.map fun y => y.agent, x.hold)) = [(line, [o], none)] ∧ s.CohStep t

/-! ### Translation -/

/-- The entries that an L1 or the L2 lists, each with its unit or set. -/
def Tlb.listed (m : SMap (List TlbEntry)) : List (Nat × TlbEntry) := m.flatMap fun e => e.2.map fun x => (e.1, x)

/-- The transfer slot that makes an access. -/
def PageNeed.slot (p : PageNeed) : Nat := (p.lane - 1) % 8

/-- The fields of the transfer slots that make the accesses `ps`. -/
def Fld.xfer (ps : List PageNeed) : List Fld :=
  ps.flatMap fun p => if p.unit = .xfer then [Reg.XF_STATUS.ACTIVE p.pos, Reg.XF_STATUS.FAULT_WAIT p.pos,
    Reg.XF_SLOT_STATE.SLICE p.pos p.slot, Reg.XF_SLOT_STATE.STATE p.pos p.slot, Reg.XF_SLOT_STATE.DELIVERED p.pos p.slot] else []

/-- `t` differs from `s` in translation and its status, in what is sent, and in the transfer slots that make the accesses `ps`;
one of them that waited on a fault goes on where `go` (R108). -/
def State.XlatStep (s t : State) (ps : List PageNeed) (fs : List Fld) (go : Bool) : Prop :=
  t = { s with blk := { s.blk with regs := t.blk.regs, xlat := t.blk.xlat, out := t.blk.out, pos := t.blk.pos } } ∧
    s.blk.FieldsKept t.blk (fs ++ Fld.xfer ps) ∧
    (∀ q, (∀ p ∈ ps, p.unit = .xfer → p.pos ≠ q) → t.blk.posState q = s.blk.posState q) ∧
    (∀ (q : PosNo) (m : Fin 8), (∀ p ∈ ps, p.unit = .xfer → p.pos = q.val → p.slot ≠ m.val) → t.blk.xslot q m = s.blk.xslot q m) ∧
    ∀ p ∈ ps, p.unit = .xfer → p.lane ≠ 0 → ∀ v, s.blk.xslot p.pos p.slot = some v → v.fault.isSome = true → v.job.slice = p.slice →
      go = true → t.blk.xslot p.pos p.slot = some { v with fault := none }

/-- The four sets of the L2 in which a page may lie (R224, R225). -/
def Tlb.setsOf (va pasid : Nat) : List Nat := Tlb.sizes.map fun n => Tlb.set va n pasid

/-- The fields that show the collector's state (FC_STATUS, FC_PART_STATE). -/
def Fld.fcStatus : List Fld :=
  [Reg.MH_STATUS.FAULT_UNCLEARED, Reg.FC_STATUS.UNCLEARED, Reg.FC_STATUS.RECOVERING, Reg.FC_STATUS.WAVE_MODE, Reg.FC_STATUS.PARTS_RECOVERING] ++
    (List.range 32).map Reg.FC_PART_STATE.RECOVERING

/-! ### Denob -/

/-- `t` differs from `s` in slice `sl` and partition `p` of Denob and in the fields `fs`. -/
def State.DnStep (s t : State) (sl p : Nat) (fs : List Fld) : Prop :=
  t = { s with blk := { s.blk with regs := t.blk.regs, dn := t.blk.dn, ext := t.blk.ext } } ∧ s.blk.FieldsKept t.blk fs ∧
    (∀ k, k ≠ sl → t.blk.dnSlice k = s.blk.dnSlice k) ∧ (∀ k, k ≠ p → t.blk.dnPart k = s.blk.dnPart k) ∧
    t.blk.dn.restarting = s.blk.dn.restarting ∧ t.blk.dn.activating = s.blk.dn.activating ∧ t.blk.dn.switched = s.blk.dn.switched ∧ t.blk.dn.loading = s.blk.dn.loading

/-- The request ring of `sl` has an entry of words `w` to read, nothing waits for an answer from outside, and its token ring is full. -/
def Block.RequestAt (b : Block) (sl : Nat) (w : Nat → Nat) : Prop :=
  b.ringReady sl = true ∧ b.ext.need = [] ∧ b.tokFull sl = true ∧
    ∃ d, b.ptrRead (b.dnWho sl) (b.rd (Reg.DN_SLICE00.REQ_BASE sl) + 64 * (b.rd (Reg.DN_SLICE28.REQ_HEAD sl) % 2 ^ b.reqLog2 sl)) 64 =
      (b, Code.SUCCESS, d) ∧ Dn.ptrOk (b.rd (Reg.DN_SLICE00.REQ_BASE sl) + 64 * (b.rd (Reg.DN_SLICE28.REQ_HEAD sl) % 2 ^ b.reqLog2 sl)) 64 = true ∧
      w = fun i => leAt d (8 * i) 8

/-- The entry at the head has been read. -/
def Block.RequestRead (b b' : Block) (sl : Nat) : Prop :=
  b'.rd (Reg.DN_SLICE28.REQ_HEAD sl) = (b.rd (Reg.DN_SLICE28.REQ_HEAD sl) + 1) % 2 ^ (b.reqLog2 sl + 1)

/-! ### Tenancy -/

def Fld.mgr : List Fld := [Reg.SL_MGR_OP.OP, Reg.SL_MGR_OP.TARGET, Reg.SL_MGR_RESULT.STATUS, Reg.SL_MGR_RESULT.HANDLE]
def Fld.partStatus (p : Nat) : List Fld :=
  [Reg.SL_PART_STATUS.OPEN_SLICES p, Reg.SL_PART_STATUS.ACTIVE_REQ_SUM p, Reg.SL_PART_STATUS.RESETTING p, Reg.SL_PART_STATUS.REFORMING p]

/-- A journal entry. -/
def Fld.journal (j : Nat) : List Fld :=
  [⟨(Reg.MH_JOURNAL00.STATE j).off, 0, 64⟩, ⟨(Reg.MH_JOURNAL08.TARGET j).off, 0, 64⟩, ⟨(Reg.MH_JOURNAL10.PROGRESS j).off, 0, 64⟩,
    ⟨(Reg.MH_JOURNAL18.TIME j).off, 0, 64⟩]

/-- The words of a slice's frame, and Denob's for it, that a slice reset clears or shows. -/
def Fld.sliceReset (sl p : Nat) : List Fld :=
  [Reg.SL_STATUS.STATE sl, Reg.SL_STATUS.GENERATION sl, Reg.SL_CRING_HEAD.INDEX sl, Reg.SL_CRING_TAIL.INDEX sl, Reg.SL_CRING_STATUS.FULL sl,
    Reg.SL_CRING_STATUS.STALE sl, ⟨(Reg.SL_MARK_STATUS.EPOCH sl).off, 0, 64⟩, Reg.SL_HANDLE_STATUS.LIVE sl, Reg.SL_HANDLE_STATUS.GEN_LO sl,
    Reg.SL_MBX_CTRL.IN_FULL sl, Reg.DN_SLICE20.ACTIVE sl, Reg.DN_PART_STATUS.ACTIVE p, Reg.DN_PART_STATUS.FREE_PAGES p] ++
  (List.range 8).map (Reg.SL_MBX_IN.WORD sl) ++
  ((List.range 4).flatMap fun c => [Reg.SL_Q_STATUS.STATE sl c, Reg.SL_Q_HEAD.INDEX sl c, Reg.SL_Q_TAIL.INDEX sl c, Reg.SL_Q_CTRL.ENABLE sl c,
    Reg.SL_Q_STATUS.INFLIGHT sl c, Reg.SL_Q_STATUS.DEPTH sl c]) ++ Fld.partStatus p

/-- `c`, the manager's operation `op` on slice or partition `target`, completes at once with `st` and does nothing else. -/
def State.Refused (s : State) (c : Instr) (op target : Nat) (st : Status) : Prop :=
  Yields c s fun t => t.blk.rd Reg.SL_MGR_RESULT.STATUS = st ∧ t.blk.rd Reg.SL_MGR_RESULT.HANDLE = 0 ∧ t.blk.rd Reg.SL_MGR_OP.OP = op ∧ t.blk.rd Reg.SL_MGR_OP.TARGET = target ∧
    OnlyFields s t Fld.mgr

/-- Slice `sl` may be named by a slice operation (R259, R260). -/
def Block.nameable (b : Block) (sl : Nat) : Bool := decide (sl ≠ 0) && !b.partEmpty (b.slicePart sl)

/-- The generation after the next increment (R262). -/
def Block.genNext (b : Block) (sl : Nat) : Nat := if b.gen sl = 0xFFFF then 1 else b.gen sl + 1

/-- The slice's queues have stopped and its work has ended (R267, steps 1 and 2). -/
def Block.Stopped (b b' : Block) (sl : Nat) : Prop :=
  (∀ c < 4, (b'.q sl c).fetched = [] ∧ (b'.q sl c).inflight = [] ∧ (b'.q sl c).block = none) ∧
    ∀ k, k / 4 ≠ sl → b'.queue k = b.queue k

/-- Nothing of the hub's units, sites or installs is in progress, and the slice's long operation neither. -/
def Block.Quiet (b : Block) (sl : Nat) : Prop := b.pos = [] ∧ b.sites = [] ∧ b.sec.installs = [] ∧ (b.slice sl).op = none

/-- No entry of a slice's PASID is in a TLB. -/
def Block.NoTlb (b : Block) (sl : Nat) : Prop :=
  ∀ e ∈ Tlb.listed b.xlat.l1 ++ Tlb.listed b.xlat.l2, ¬(e.2.fn = b.fnOf sl ∧ e.2.pasid = b.pasid sl)

/-- Slice 0's ring is full, so that entries wait; it holds handle `seq` alone, which nothing waits for. -/
def Block.HandleAlone (b : Block) (seq : Nat) : Prop :=
  b.cringFull 0 = true ∧ (b.slice 0).handles = [⟨seq, [], none⟩] ∧ ∀ c < 4, (b.q 0 c).block = none

/-- The handle has finished with `st`, and its HANDLE_DONE entry waits behind the others. -/
def Block.HandleEnds (b b' : Block) (seq : Nat) (st : Status) : Prop :=
  (b'.slice 0).handles = [⟨seq, [], some st⟩] ∧
    ((b'.slice 0).entries.map fun e => (e.kind, e.status)) = ((b.slice 0).entries.map fun e => (e.kind, e.status)) ++ [(1, st)]

/-! ### The host endpoint -/

/-- The completions that were answered between `b` and `b'`, in order: function, tag, status, EP, data. -/
def Block.completions (b b' : Block) : List (Nat × Nat × Nat × Bool × List Byte) :=
  (b'.out.drop b.out.length).filterMap fun o => match o with
    | .completion fn tag st ep d => some (fn, tag, st, ep, d)
    | _ => none

/-- The RC fields that a read of `size` bytes at `off` reaches (R4). -/
def Fld.readClear (off size : Nat) : List Fld :=
  (Reg.parts off size).flatMap fun p => match Reg.find p.1 with
    | some r => (r.flds.filter fun f => f.ty == .rc).map fun f => ⟨p.1, f.lo, f.w⟩
    | none => []

/-- The endpoint's error log. -/
def Fld.epErr : List Fld :=
  [Reg.EP_ERR_LOG.STATUS, Reg.EP_ERR_LOG.FUNC, Reg.EP_ERR_LOG.KIND, Reg.EP_ERR_LOG.VALID, Reg.EP_ERR_LOG.OVERFLOW, Reg.EP_ERR_ADDR.ADDR]

/-- Request `r` has had no effect but to be counted in `c` and logged as `kind`; a non-posted one is answered with `st`. -/
def State.TurnedAway (s t : State) (r : BarReq) (c : Fld) (kind st : Nat) : Prop :=
  t.blk.rd c = satAdd c.w (s.blk.rd c) 1 ∧
    s.blk.completions t.blk = (if inWrite r.op = true then [] else [(r.fn.val, r.tag.toNat, st, false, [])]) ∧
    (s.blk.rd Reg.EP_ERR_LOG.VALID = 0 → t.blk.rd Reg.EP_ERR_LOG.VALID = 1 ∧ t.blk.rd Reg.EP_ERR_LOG.KIND = kind ∧
      t.blk.rd Reg.EP_ERR_LOG.FUNC = r.fn) ∧
    t = { s with blk := { s.blk with regs := t.blk.regs, ep := t.blk.ep, out := t.blk.out } } ∧
    t.blk.ep = { s.blk.ep with aer := t.blk.ep.aer, aerHeaders := t.blk.ep.aerHeaders } ∧ s.blk.FieldsKept t.blk (c :: Fld.epErr)

/-- Request `r` has been answered with `data`, and nothing else has changed but `fs`. -/
def State.Answered (s t : State) (r : BarReq) (ep : Bool) (data : List Byte) (fs : List Fld) : Prop :=
  s.blk.FieldsKept t.blk fs ∧
    t = { s with blk := { s.blk with regs := t.blk.regs, out := s.blk.out ++ [.completion r.fn r.tag.toNat 0 ep data] } }

/-- The rows of Table EPT-6 that turn away every request to a function: it is not there, its memory space is off, it sleeps or is reset, or its TDI
blocks the request (R306). -/
def Block.Shut (b : Block) (r : BarReq) : Prop :=
  b.fnExists r.fn = false ∨ b.rd (Reg.EP_FN_STATUS.MSE r.fn) = 0 ∨ (r.fn.val = 0 ∧ b.rd (Reg.EP_FN_STATUS.D3HOT 0) = 1) ∨
    b.rd (Reg.EP_FN_STATUS.RESETTING r.fn) = 1 ∨ (r.fn.val ≠ 0 ∧ (b.tdiState r.fn = 3 ∨
      (b.tdiState r.fn = 2 ∧ ¬(r.ide.tee = true ∧ r.ide.covered = true ∧
        r.ide.stream.any (fun k => decide (SMap.get (fun _ => 0) b.ep.tdiStream r.fn = k.val + 1)) = true))))

/-- No row of Table EPT-6 before the lookup of a BAR2 or BAR4 request applies. -/
def Block.Admits (b : Block) (r : BarReq) : Prop :=
  ¬b.Shut r ∧ b.rd Reg.MH_STATUS.DEVICE_FATAL = 0 ∧ b.lc ≠ Lc.END_OF_LIFE

/-- Function `fn` has no host request outstanding, its slots' generations are quarantined, and the units that waited have
HOST_ACCESS_REVOKED; other functions' slots are as before (R302). -/
def Block.RevokedBy (b b' : Block) (fn : Nat) : Prop :=
  (∀ e ∈ b'.ep.slots, e.2.any (fun x => decide (x.fn = fn)) = false) ∧
    (∀ e ∈ b.ep.slots, ∀ x ∈ e.2.toList, if x.fn = fn then
        ⟨e.1, x.gen, fn, x.length - x.received, false⟩ ∈ b'.ep.quarantine ∧
          (x.stale = false → x.need ∈ b.ext.sent → ⟨x.need, Code.HOST_ACCESS_REVOKED, []⟩ ∈ b'.ext.done)
      else SMap.get (fun _ => none) b'.ep.slots e.1 = some x)

/-- The status that a revocation writes. -/
def Fld.tags : List Fld := [Reg.EP_TAG_STATUS.OUTSTANDING, Reg.EP_TAG_STATUS.QUARANTINED]

/-- The fields of the statuses of functions. -/
def Fld.fn (n : Nat) : List Fld :=
  [Reg.EP_FN_STATUS.BME n, Reg.EP_FN_STATUS.MSE n, Reg.EP_FN_STATUS.RESETTING n, Reg.EP_FN_STATUS.D3HOT n, Reg.EP_FN_STATUS.TDI_STATE n,
    Reg.EP_FN_STATUS.FLR_COUNT n]

/-- Function `fn` is as after its reset: configuration space at its defaults, nothing enabled, no MSI-X vector, no request, TDI
unlocked. -/
def Block.FnCleared (b' : Block) (fn : Nat) : Prop :=
  (∀ i : Fin 1024, b'.cfg fn (4 * i) = b'.cfgDefault (fn * 4096 + 4 * i)) ∧ b'.bme fn = false ∧ b'.tdiState fn = 0 ∧
    (∀ e ∈ b'.ep.slots, e.2.any (fun x => decide (x.fn = fn)) = false) ∧
    (∀ k ∈ b'.ep.msixUnmasked, k / 2048 ≠ fn) ∧ (∀ k ∈ b'.ep.msixPending, k / 2048 ≠ fn) ∧
    ∀ e ∈ Tlb.listed b'.xlat.l1 ++ Tlb.listed b'.xlat.l2, e.2.fn ≠ fn

/-- Every slice of partition `p` that could run work is being reset, or released where it was being restored (R260). -/
def Block.PartStops (b b' : Block) (p : Nat) : Prop :=
  ∀ sl ∈ b.partSlices p, b'.sliceState sl =
    if b.sliceState sl = Slice.OPEN ∨ b.sliceState sl = Slice.FREEZING ∨ b.sliceState sl = Slice.FROZEN then Slice.RESETTING
    else if b.sliceState sl = Slice.RESTORING then Slice.RELEASING else b.sliceState sl

/-- `t` is `s` after a reset of the whole device from the host, which `n` PF Function Level Resets count: every function is as after
reset, every partition and slice 0 are being reset, SPDM sessions have ended, and memory and keys are as before (R302, R362). -/
def State.DeviceReset (s t : State) (n : Nat) : Prop :=
  (∀ fn : Fin 33, t.blk.FnCleared fn) ∧ t.blk.vfEnabled = false ∧ t.blk.ep.slots = [] ∧
    (∀ p : PartNo, s.blk.partEmpty p = false → s.blk.PartStops t.blk p ∧ t.blk.rd (Reg.SL_PART_STATUS.RESETTING p) = 1) ∧
    (s.blk.sliceState 0 ≠ Slice.FREE → t.blk.sliceState 0 = Slice.RESETTING ∧ t.blk.rd (Reg.EP_FN_STATUS.RESETTING 0) = 1) ∧
    t.blk.rd (Reg.EP_FN_STATUS.D3HOT 0) = 0 ∧ t.blk.rd (Reg.EP_FN_STATUS.FLR_COUNT 0) = satAdd 16 (s.blk.rd (Reg.EP_FN_STATUS.FLR_COUNT 0)) n ∧
    t.blk.rd Reg.SEC_STATUS.SPDM_SESSION = 0 ∧ t.blk.sec = { s.blk.sec with sessions := 0 } ∧
    t.blk.shelf = s.blk.shelf ∧ t.blk.hbm = s.blk.hbm ∧ t.blk.keys = s.blk.keys ∧ t.fuse = s.fuse

/-! ### The reach ports -/

/-- A read or write through an entry of RCH_PEER, and the key of a wait through one. -/
def ExtTarget.isPeer : ExtTarget → Bool
  | .peer _ _ => true
  | _ => false
def ExtTarget.waitKey : ExtTarget → Option Nat
  | .peerWait _ _ _ key => some key
  | _ => none

/-- `t` differs from `s` in reach port `p`, in the fields `fs`, in the collector, pending vectors, what is sent and the free values taken. -/
def State.ReachStep (s t : State) (p : Nat) (fs : List Fld) : Prop :=
  t = { s with blk := { s.blk with
      regs := t.blk.regs, fc := t.blk.fc, out := t.blk.out, free := t.blk.free
      ep := { s.blk.ep with msixPending := t.blk.ep.msixPending }
      reach := { s.blk.reach with ports := t.blk.reach.ports, priLost := t.blk.reach.priLost, failed := t.blk.reach.failed } } } ∧
    (∀ q, q ≠ p → t.blk.rport q = s.blk.rport q) ∧ s.blk.FieldsKept t.blk fs

/-- A slot event of port `p`: its status bit is set, and its vector is sent, or pending, where it and slot interrupts are enabled (R319). -/
def State.SlotTold (s t : State) (p : Nat) (status enable : Fld) : Prop :=
  let vec := s.blk.rd (Reg.RCH_SLOT_CTRL.VECTOR p)
  t.blk.rd status = 1 ∧
    (s.blk.is enable = true → s.blk.is (Reg.RCH_SLOT_CTRL.HP_INT_EN p) = true →
      if s.blk.msixAllowed 0 vec then (t.blk.out.filter fun o => decide (o = .msix 0 vec)) ≠ [] else NSet.has t.blk.ep.msixPending vec = true) ∧
    (s.blk.is enable = false ∨ s.blk.is (Reg.RCH_SLOT_CTRL.HP_INT_EN p) = false → t.blk.ep.msixPending = s.blk.ep.msixPending)

/-- The fields of port `p` that its link's state shows. -/
def Fld.rchLink (p : Nat) : List Fld :=
  [Reg.RCH_STATUS.STATE p, Reg.RCH_SLOT_STATUS.LINK_ACTIVE p, Reg.RCH_SLOT_STATUS.DLLSC p, Reg.RCH_STATUS.HALVES p, Reg.RCH_STATUS.WIDTH_CHANGE p]
def Fld.rchErr (p : Nat) : List Fld :=
  [Reg.RCH_ERR_LOG.VALID p, Reg.RCH_ERR_LOG.OVERFLOW p, Reg.RCH_ERR_LOG.KIND p, Reg.RCH_ERR_LOG.DEV p]

/-- Port `p`, which was UP or ISOLATED, is DOWN: what it held is gone, every path that begins there is lost, REACH_DOWN is raised (R309, R318). -/
def State.PortDown (s t : State) (p : Nat) (l : ReachPort) : Prop :=
  t.blk.rd (Reg.RCH_STATUS.STATE p) = Rch.DOWN ∧ t.blk.rd (Reg.RCH_STATUS.HALVES p) = 0 ∧ t.blk.rd (Reg.RCH_STATUS.WIDTH_CHANGE p) = 0 ∧
    t.blk.rd (Reg.RCH_SLOT_STATUS.LINK_ACTIVE p) = (if s.blk.rd (Reg.RCH_STATUS.STATE p) = Rch.UP then 0 else s.blk.rd (Reg.RCH_SLOT_STATUS.LINK_ACTIVE p)) ∧
    t.blk.rport p = l ∧
    (∀ n ∈ s.blk.pathsVia p false, NSet.has t.blk.reach.priLost n = true) ∧ (∀ n ∈ s.blk.pathsVia p true, NSet.has t.blk.reach.failed n = true) ∧
    s.blk.Raised t.blk (Src.reachPort p) Kind.REACH_DOWN 0 0

/-- A reach port that carries nothing: nothing waits to be sent, no frame is held and no width changes. -/
def ReachPort.Idle (l : ReachPort) : Prop := l.txq = [] ∧ l.txWait = [] ∧ l.held = [] ∧ l.widthChange = none

/-- No position runs work, and no wait is registered at a peer: nothing ends with a path. -/
def Block.NoPeerWork (b : Block) : Prop := b.pos = [] ∧ ∀ r ∈ b.reach.reqs, r.registered = false

/-- The frames that were sent on port `p` between `b` and `b'`: SEQ and payload. -/
def Block.rframesSent (b b' : Block) (p : Nat) : List (Nat × List Byte) :=
  (b'.out.drop b.out.length).filterMap fun o => match o with
    | .rframe q w => if q = p then some (leAt w 624 2, sliceBytes w 0 624) else none
    | _ => none

/-- The reach packets that were sent between `b` and `b'`, each with its port. -/
def Block.reachSent (b b' : Block) : List (Nat × RPacket) :=
  (b'.out.drop b.out.length).filterMap fun o => match o with
    | .reach p k => some (p, k)
    | _ => none

/-! ### Faults -/

/-- `t` differs from `s` in the collector and in the fields `fs`. -/
def State.FcStep (s t : State) (fs : List Fld) : Prop :=
  t = { s with blk := { s.blk with regs := t.blk.regs, fc := t.blk.fc } } ∧ s.blk.FieldsKept t.blk fs

/-- MH_STATUS, FC_STATUS and WAVE show what is uncleared and what runs (R328, R329, Table FLT-4). -/
def Block.FaultsShown (b : Block) : Prop :=
  let un : Bool := !b.fc.opened.isEmpty
  let runs : Bool := !b.fc.recoveries.isEmpty || b.dn.restarting || b.fc.restarting.isSome
  let mode := if b.rd Reg.MH_STATUS.DEVICE_FATAL = 1 then 4 else if b.rd Reg.FC_INJECT_STATUS.BUSY = 1 then 3 else if runs then 2
    else if b.rd Reg.MH_STATUS.READY = 1 then 1 else 0
  b.rd Reg.MH_STATUS.FAULT_UNCLEARED = b01 un ∧ b.rd Reg.FC_STATUS.UNCLEARED = b01 un ∧ b.rd Reg.FC_STATUS.RECOVERING = b01 runs ∧
    b.rd Reg.FC_STATUS.WAVE_MODE = mode ∧ (un = true → b.fc.waveStopped = true) ∧
    b.fc.wave = (if b.fc.waveLapsed ∨ b.fc.restarting.isSome ∨ mode = 4 then .low
      else if mode = 1 then (if b.fc.waveStopped then .low else .toggling) else if un then .low else .high)

/-- The log's fields of entry `i`. -/
def Fld.fcLog (i : Nat) : List Fld :=
  [Reg.FC_LOG00.PENNANT i, Reg.FC_LOG08.PENNANT i, Reg.FC_LOG10.TIME i, ⟨(Reg.FC_LOG18.REPLACEMENT i).off, 0, 64⟩]

/-- Record `r`, at the head of the collector's queue, is due, and nothing else is open. -/
def Block.RecordDue (b : Block) (r : Record) : Prop :=
  b.fc.inQ = [r] ∧ r.sent ≤ b.now ∧ b.fc.restarting = none ∧ b.fc.opened = [] ∧ b.fc.recoveries = [] ∧ b.fc.rootFailed = false ∧
    b.dn.restarting = false ∧ r.kind ≠ Kind.SITE_LOST ∧ b.rd Reg.FC_LOG_CFG.IRQ_EN = 0 ∧
    (b.rd Reg.FC_LOG_TAIL.INDEX + 8192 - b.rd Reg.FC_LOG_HEAD.INDEX) % 8192 ≠ 4096

/-- The record has been taken, counted and logged at the tail: what it says, when, and how it was judged. -/
def State.Logged (s t : State) (r : Record) (action : Nat) (permanent ack : Bool) : Prop :=
  let i := s.blk.rd Reg.FC_LOG_TAIL.INDEX % 4096
  t.blk.fc.inQ = [] ∧ t.blk.rd Reg.FC_RECORDS.COUNT = satAdd 32 (s.blk.rd Reg.FC_RECORDS.COUNT) 1 ∧
    t.blk.rd Reg.FC_LOG_TAIL.INDEX = (s.blk.rd Reg.FC_LOG_TAIL.INDEX + 1) % 8192 ∧
    t.blk.rd (Reg.FC_LOG00.PENNANT i) = r.word0 ∧ t.blk.rd (Reg.FC_LOG08.PENNANT i) = r.word1 ∧ t.blk.rd (Reg.FC_LOG10.TIME i) = nsOf s.blk.now ∧
    t.blk.rd (Reg.FC_LOG18.ACTION i) = action ∧ t.blk.rd (Reg.FC_LOG18.PERMANENT i) = b01 permanent ∧
    t.blk.rd (Reg.FC_LOG18.ACK_NEEDED i) = b01 ack ∧ t.blk.rd (Reg.FC_LOG18.ACKED i) = 0

/-- What a handled record changes beside its action. -/
def Fld.fcHandled (b : Block) : List Fld :=
  [Reg.FC_RECORDS.COUNT, Reg.FC_LOG_TAIL.INDEX, Reg.FC_INJECT_STATUS.BUSY] ++ Fld.fcLog (b.rd Reg.FC_LOG_TAIL.INDEX % 4096) ++ Fld.fcStatus

/-- The fields of the Field-defect log. -/
def Fld.defects : List Fld :=
  [Reg.MH_DEFECT_CTRL.COUNT, Reg.MH_DEFECT_CTRL.OVERFLOW] ++ (List.range 512).map fun i => ⟨0x2000 + 8 * i, 0, 64⟩

/-- Source `src` has an entry of the Field-defect log that shows an event of this kind at this boot, and SPI NOR holds the log (R384). -/
def Block.DefectEntered (b : Block) (src kind : Nat) : Prop :=
  ∃ i : Fin 256, b.rd (Reg.MH_DEFECT00.VALID i) = 1 ∧ b.rd (Reg.MH_DEFECT00.SOURCE i) = src ∧ b.rd (Reg.MH_DEFECT00.KIND i) = kind ∧
    b.rd (Reg.MH_DEFECT08.LAST_BOOT i) = b.rd Reg.MH_BOOT_STATUS.BOOT_COUNT ∧ SMap.get (fun _ => 0#64) b.boot.nor.defects (2 * i.val) = BitVec.ofNat 64 (b.word (0x2000 + 16 * i.val))

/-- `src` is struck: its bucket is empty and the Field-defect log holds it (R327, R330). -/
def Block.IsStruck (b : Block) (src : Nat) : Prop :=
  b.rd (Reg.FC_BUCKET.STRUCK src) = 1 ∧ b.bucket src = [] ∧ b.rd (Reg.FC_BUCKET.LEVEL src) = 0 ∧
    (b.rd Reg.MH_DEFECT_CTRL.OVERFLOW = 0 → b.DefectEntered src 2)

/-- A warm reset has begun with `cause` (R386, step 1): neighbours are told, no command runs, and queues drain; memory, keys and OTP stay. -/
def State.WarmBegins (s t : State) (cause : Nat) (perst : Bool) : Prop :=
  t.blk.boot = { s.blk.boot with draining := true, cause := cause, perst := s.blk.boot.perst || perst } ∧
    (∀ k, (t.blk.queue k).inflight = []) ∧ t.blk.ext = ExtState.reset ∧
    (∀ p : PosNo, (t.blk.posState p).slots = [] ∧ (t.blk.posState p).unitQ = [] ∧ (t.blk.posState p).red = none ∧ (t.blk.posState p).colls = [] ∧
      (t.blk.vec p).run = none) ∧
    (∀ n : SiteNo, (t.blk.out.drop s.blk.out.length).any (fun o => match o with
      | .sideband k w => decide (k = n.val ∧ leAt w 0 1 = 0x08 ∧ leAt w 4 8 = 0)
      | _ => false) = true) ∧
    (∀ p : PortNo, s.blk.rchUp p = true → (t.blk.out.drop s.blk.out.length).contains (.rctrl p 3 0) = true) ∧
    t.blk.shelf = s.blk.shelf ∧ t.blk.keys = s.blk.keys ∧ t.blk.hbm.bytes = s.blk.hbm.bytes ∧ t.fuse = s.fuse ∧ t.pending = s.pending

/-! ### OTP -/

/-- Every bit that `r` has set is set in `r'`. -/
def LcRows.Within (r r' : LcRows) : Prop :=
  r.started &&& r'.started = r.started ∧ r.state &&& r'.state = r.state ∧ r.complete &&& r'.complete = r.complete

/-- Everything that `o` has programmed is programmed in `o'`: no bit is cleared, no token digest changes, no minimum version
falls. -/
def Otp.Within (o o' : Otp) : Prop :=
  (∀ k, (o.rows k).Within (o'.rows k)) ∧ o.uds &&& o'.uds = o.uds ∧ o.udsValid &&& o'.udsValid = o.udsValid ∧
    (∀ (i : Nat) (d : BitVec 384), o.digests[i]? = some (some d) → o'.digests[i]? = some (some d)) ∧ o.axMin ≤ o'.axMin ∧ o.dnMin ≤ o'.dnMin

/-- OTP records a transition into END_OF_LIFE, from TEST as the second one or from PRODUCTION as the third (R364). -/
def Otp.Ended (o : Otp) : Prop := Lc.target o.k1.started = some 3 ∨ Lc.target o.k2.started = some 3

end Machine

end Sys2Proof
end

