-- ==== Sys2Proof/Certificates/Slice0/Obligations.lean ====
section
/-! DEFINITION. The statements: what each command does and leaves alone, by chapters of the spec. -/

open Sys2Proof Sys2Proof.Machine

/-! ### The machine -/

/-- A step takes the command at the front of the queue and runs it with the queue's rest; with none waiting, one cycle passes (DESIGN CHOICE, assumption
2), in which OTP changes only by a register access that waited. -/
def Obligations.StepRunsFront : Prop :=
  (∀ (s : State) (c : Instr) (rest : List Instr), s.pending = c :: rest → step s = exec c { s with pending := rest }) ∧
    ∀ s : State, s.pending = [] → ∃ t, step s = .next t ∧ t.pending = [] ∧ (s.blk.regDue = [] → t.blk.now = s.blk.now + 1 ∧ t.fuse = s.fuse)

/-! ### The register space (01) -/

/-- Table SCP-4 under R4, R5 and R9: a write of a whole register gives each of its fields, whatever the others' types, what its own type says. A RW field
takes the written value within its limit; RWL does so only unsealed; W1C and W1S clear and set the bits written 1; RO, RC, WO and FO keep their value. -/
def Obligations.RegisterFieldTypes : Prop :=
  ∀ r ∈ Reg.specs, ∀ f ∈ r.flds, ∀ (unsealed : Bool) (reg v : Nat),
    bits (r.write unsealed reg v 0 (if r.wide then 64 else 32)) f.lo f.w = match f.ty with
      | .rw => f.lim.apply (bits reg f.lo f.w) (bits v f.lo f.w)
      | .rwl => if unsealed then f.lim.apply (bits reg f.lo f.w) (bits v f.lo f.w) else bits reg f.lo f.w
      | .w1c => bits reg f.lo f.w - (bits reg f.lo f.w &&& bits v f.lo f.w)
      | .w1s => bits reg f.lo f.w ||| bits v f.lo f.w
      | .ro | .rc | .wo | .fo => bits reg f.lo f.w

/-- REGISTER_WRITE (R4–R9, R23): a write of a plain register in its own width completes with each field as its type gives it, a RWL field being open to
the boot path before the seal alone, and changes nothing else; an access that reaches no register changes nothing. BOOT_SEAL (R23, R38, R197): the
seal and BOOT_SEALED are set. Where an image is in force, the region table passes and no coherent window is in breach, IMAGE_VALID and WINDOWS_VALID
are set and no pennant is raised. A protected region whose base is no multiple of 2,048 bytes, or regions that do not tile the capacity, disable HBM
and leave IMAGE_VALID at 0; a window in breach leaves both at 0. A second seal changes nothing. -/
def Obligations.RegisterSpace : Prop :=
  (
  ∀ (s : State) (v : Word) (boot : Bool) (off : BitVec 28), Reg.plain off.toNat = true →
    (∀ r : RegSpec, Reg.find off.toNat = some r → Yields (.registerWrite off r.wide v boot) s fun t =>
      (∀ f ∈ r.flds,
        let old := s.blk.rd ⟨off.toNat, f.lo, f.w⟩
        let new := bits v.toNat f.lo f.w
        t.blk.rd ⟨off.toNat, f.lo, f.w⟩ = match f.ty with
          | .rw => f.lim.apply old new
          | .rwl => if boot = true ∧ s.blk.is Reg.MH_BOOT_SEAL.SEAL = false then f.lim.apply old new else old
          | .w1c => old - (old &&& new)
          | .w1s => old ||| new
          | .ro | .rc | .wo | .fo => old) ∧
      OnlyFields s t (r.flds.map fun f => ⟨off.toNat, f.lo, f.w⟩)) ∧
    ∀ wide : Bool, Reg.parts off.toNat (if wide then 8 else 4) = [] →
      Yields (.registerWrite off wide v boot) s fun t => OnlyFields s t []) ∧
  (
  ∀ s : State,
    let b := s.blk
    let fs := [Reg.MH_BOOT_SEAL.SEAL, Reg.MH_STATUS.BOOT_SEALED, Reg.MH_STATUS.IMAGE_VALID, Reg.CO_STATUS.WINDOWS_VALID]
    let odd (n : Nat) : Prop := b.is (Reg.HM_REGION00.VALID n) = true ∧ b.is (Reg.HM_REGION00.PROTECTED n) = true ∧
      (b.rd (Reg.HM_REGION08.DATA_X_BASE n) % 8 ≠ 0 ∨ b.rd (Reg.HM_REGION10.SEAL_X_BASE n) % 8 ≠ 0)
    let total := (((List.range 64).filter fun n => b.is (Reg.HM_REGION00.VALID n)).map fun n => 2 ^ 21 * b.rd (Reg.HM_REGION00.DLA_SIZE n)).sum
    (b.is Reg.MH_BOOT_SEAL.SEAL = true → exec .bootSeal s = .next s) ∧
    (b.is Reg.MH_BOOT_SEAL.SEAL = false → Yields .bootSeal s fun t =>
      t.blk.rd Reg.MH_BOOT_SEAL.SEAL = 1 ∧ t.blk.rd Reg.MH_STATUS.BOOT_SEALED = 1 ∧
      (b.boot.slot = none → t.blk.rd Reg.MH_STATUS.IMAGE_VALID = 0) ∧
      ((∃ n : Fin 64, odd n) ∨ total ≠ b.hbmCap → t.blk.hbm.disabled = true ∧ t.blk.rd Reg.MH_STATUS.IMAGE_VALID = 0) ∧
      (b.hbmSealCheck = none → (∀ n : Fin 16, b.windowBreach n = false) →
        t.blk.rd Reg.MH_STATUS.IMAGE_VALID = b01 b.boot.slot.isSome ∧ t.blk.rd Reg.CO_STATUS.WINDOWS_VALID = 1 ∧
        t.blk.hbm = b.hbm ∧ t.blk.fc = b.fc) ∧
      ((∃ n : Fin 16, b.rd (Reg.CO_WIN00.VALID n) = 1 ∧ b.rd (Reg.CO_WIN00.SIZE n) = 0) →
        t.blk.rd Reg.CO_STATUS.WINDOWS_VALID = 0 ∧ t.blk.rd Reg.MH_STATUS.IMAGE_VALID = 0) ∧
      t.blk.hbm.bytes = b.hbm.bytes ∧ t.blk.hbm.tags = b.hbm.tags ∧
      t = { s with blk := { b with regs := t.blk.regs, hbm := t.blk.hbm, fc := t.blk.fc, boot := t.blk.boot } } ∧ b.FieldsKept t.blk fs))

/-! ### Memory (02) -/

/-- SHELF_REQUEST (R26): the bank performs one beat of the request it holds. A read that lies in one beat of good words answers the stored bytes; a write
stores its bytes and no other, and answers. -/
def Obligations.ShelfBeat : Prop :=
  ∀ (s : State) (bank : Fin 512) (r : MemReq),
    s.blk.bankQueue bank = [⟨r, 0, [], 0⟩] → 0 < r.len → r.addr % 64 + r.len ≤ 64 →
    s.blk.groupStruck (Shelf.group r.addr) = false →
    (∀ wa ∈ wordsOf r.addr r.len, NSet.has s.blk.shelf.poison wa = false ∧ SMap.get (fun _ => 0) s.blk.shelf.upset wa = 0) →
    (r.op = .read → Yields (.shelfRequest bank none none) s fun t =>
      t = { s with blk := { s.blk with
        shelf := { s.blk.shelf with bankQ := SMap.put (fun _ => []) s.blk.shelf.bankQ bank [] }
        out := s.blk.out ++ [.memResp r.who r.tag 0 ((List.range r.len).map fun i => s.blk.shelfByte (r.addr + i))] } }) ∧
    ∀ d : List Byte, r.op = .write d → d.length = r.len → Yields (.shelfRequest bank none none) s fun t =>
      (∀ a, t.blk.shelfByte a = if r.addr ≤ a ∧ a < r.addr + r.len then d.getD (a - r.addr) 0 else s.blk.shelfByte a) ∧
      t.blk.out = s.blk.out ++ [.memResp r.who r.tag 0 []] ∧
      t = { s with blk := { s.blk with shelf := t.blk.shelf, out := t.blk.out } }

/-- SHELF_FILL and SHELF_FILL_DONE (SH_FILL_CTRL): GO takes BASE and the clamped COUNT and shows BUSY; a write while BUSY has no effect; at the end every
byte of the blocks reads zero, but in a struck group (R34), and every byte outside is as it was. SHELF_ECC_WRITEBACK, BANK_COPY_DONE and SHELF_SCRUB
(R29, R33): in a free cycle of its bank the oldest corrected word of the bank is written back, so that its next read meets no error; a copy that is
done puts the spare in service; a scrub reads the bank's next beat. No byte of the shelf changes. -/
def Obligations.ShelfWorks : Prop :=
  (
  ∀ s : State,
    (∀ n : BitVec 18, s.blk.is Reg.SH_FILL_CTRL.BUSY = true → exec (.shelfFill n) s = .next s) ∧
    (∀ n : BitVec 18, s.blk.is Reg.SH_FILL_CTRL.BUSY = false → Yields (.shelfFill n) s fun t =>
      t.blk.rd Reg.SH_FILL_CTRL.BUSY = 1 ∧
      t.blk.rd Reg.SH_FILL_CTRL.COUNT = max 1 (min n.toNat (131072 - s.blk.rd Reg.SH_FILL_BASE.BLOCK)) ∧
      t.blk.shelf.fill = some ⟨s.blk.rd Reg.SH_FILL_BASE.BLOCK, t.blk.rd Reg.SH_FILL_CTRL.COUNT⟩ ∧
      t.blk.shelf.bytes = s.blk.shelf.bytes ∧
      t = { s with blk := { s.blk with regs := t.blk.regs, shelf := { s.blk.shelf with fill := t.blk.shelf.fill } } } ∧
      s.blk.FieldsKept t.blk [Reg.SH_FILL_CTRL.COUNT, Reg.SH_FILL_CTRL.BUSY]) ∧
    ∀ f : Fill, s.blk.shelf.fill = some f → f.block + f.count ≤ 131072 → Yields .shelfFillDone s fun t =>
      t.blk.rd Reg.SH_FILL_CTRL.BUSY = 0 ∧ t.blk.shelf.fill = none ∧
      (∀ a, a < 2 ^ 29 → t.blk.shelfByte a =
        if 4096 * f.block ≤ a ∧ a < 4096 * (f.block + f.count) ∧ s.blk.groupStruck (Shelf.group a) = false then 0
        else s.blk.shelfByte a) ∧
      t = { s with blk := { s.blk with regs := t.blk.regs, shelf := t.blk.shelf } } ∧
      s.blk.FieldsKept t.blk [Reg.SH_FILL_CTRL.BUSY]) ∧
  (
  ∀ (s : State) (bank : Fin 512),
    (∀ wa, (s.blk.shelf.writeBack.find? fun w => decide (Shelf.lbank w = bank.val)) = some wa → s.blk.bankQueue bank = [] →
      Yields (.shelfEccWriteback bank) s fun t =>
        wa ∉ t.blk.shelf.writeBack ∧ SMap.get (fun _ => 0) t.blk.shelf.upset wa = 0 ∧
        (∀ w, w ≠ wa → SMap.get (fun _ => 0) t.blk.shelf.upset w = SMap.get (fun _ => 0) s.blk.shelf.upset w) ∧
        t = { s with blk := { s.blk with shelf := { s.blk.shelf with
          writeBack := t.blk.shelf.writeBack, upset := t.blk.shelf.upset } } }) ∧
    (∀ c : BankCopy, (s.blk.shelf.copies.find? fun c => decide (c.lbank = bank.val)) = some c → c.spare < 1024 →
      Yields (.bankCopyDone bank) s fun t =>
        t.blk.rd (Reg.SH_BANK_MAP.PBANK bank) = c.spare ∧ t.blk.rd (Reg.SH_BANK_MAP.COPYING bank) = 0 ∧
        (t.blk.shelf.copies.find? fun c => decide (c.lbank = bank.val)) = none ∧ t.blk.shelf.bytes = s.blk.shelf.bytes ∧
        t = { s with blk := { s.blk with regs := t.blk.regs, shelf := t.blk.shelf, fc := t.blk.fc } }) ∧
    (s.blk.is Reg.SH_CFG.SCRUB_EN = true → s.blk.groupStruck (bank / 16) = false → Yields (.shelfScrub bank) s fun t =>
      SMap.get (fun _ => 0) t.blk.shelf.scrubBeat bank = (SMap.get (fun _ => 0) s.blk.shelf.scrubBeat bank + 1) % 16384 ∧
      t.blk.shelf.bytes = s.blk.shelf.bytes ∧ t.fuse = s.fuse ∧ t.pending = s.pending))

/-- HBM_READ (R48, R50): a read of an unprotected granule in service, without a stack error, whose tag matches, decrypts it; a granule never written reads
zero; the poison tag answers MEM_POISON with zero bytes. It is answered once its DRAM read is issued, or at once where a queued write to its line
gives it the data. A corrected error that appears with it is counted and logged. Nothing stored changes. HBM_WRITE (R43, R46, R48, R49): a write of a
whole granule of an unprotected region in service seals the data under the region's key at its address, without reading, and takes the seal of its
block; it completes once both are queued, and nothing else stored changes. A part write to a lost channel changes nothing stored and answers
HBM_NO_BACKING. -/
def Obligations.HbmAccess : Prop :=
  (
  ∀ (s : State) (c : MemCmd),
    let r : MemReq := { MemReq.of c with op := .read }
    let b := s.blk
    r.whole = true → b.checkReq r.who r.addr .r = (b, none) → b.cohWin r.addr = none → b.hbm.disabled = false →
    ∀ o, b.range r.addr = .hbm o → ∀ (g : Region) (x : Nat), b.hbmWhere o = some (g, x) → g.prot = false →
    ∀ key, b.regionKey g r.who.slice = some key →
    let xg := x / 256 * 256
    let p := Hbm.place b.hbmNd xg
    let gran := b.granStored p
    let k := (b.pcOf xg).1
    let owed : Owed := if gran.tag = Hbm.tagPoison then ⟨r, Code.MEM_POISON, zeros r.len⟩
      else ⟨r, Code.SUCCESS, sliceBytes (if gran.tag = 0 then zeros 256 else Hbm.decrypt key xg gran.ct) (x % 256) r.len⟩
    let answer : Out := .memResp r.who r.tag owed.status owed.data
    b.readable p = true → b.hbm.dram = [] → (b.pc k).q.length < 64 → b.stillOwed owed = false →
    (gran.tag = 0 ∨ gran.tag = Hbm.tagPoison ∨ gran.tag = Hbm.tagOf key xg gran.ct) →
    ((SMap.get (fun _ => HbmErr.mk 0 0) b.hbm.err (b.chPhys p)).times = 0 →
      Yields (.hbmRead c none) s fun t =>
        (if b.dramHeld xg = false ∧ ((b.pc k).q.any fun e => e.isWrite && decide (e.line = p.line)) = true then
          t.blk.out = b.out ++ [answer] ∧ t.blk.pc k = b.pc k
        else t.blk.out = b.out ∧
          t.blk.pc k = { b.pc k with q := (b.pc k).q ++ [⟨p.line, false, r.who.ensign, b.now, [owed], none⟩] }) ∧
        (∀ j, j ≠ k → t.blk.pc j = b.pc j) ∧
        t = { s with blk := { b with hbm := { b.hbm with pcs := t.blk.hbm.pcs }, out := t.blk.out } }) ∧
    ∀ e : StackError, Hbm.gran e.stack e.chan e.line = b.chPhys p → e.kind.val = 1 → e.times.val = 1 →
      let st := b.rd (Reg.HM_CHMAP.PSTACK p.stack p.k)
      Yields (.hbmRead c (some e)) s fun t =>
        t.blk.rd (Reg.HM_ERR_CE.COUNT st) = satAdd 32 (b.rd (Reg.HM_ERR_CE.COUNT st)) 1 ∧
        (b.rd (Reg.HM_ERR_LOG.VALID st) = 0 → t.blk.rd (Reg.HM_ERR_LOG.VALID st) = 1 ∧ t.blk.rd (Reg.HM_ERR_LOG.KIND st) = 0 ∧
          t.blk.rd (Reg.HM_ERR_LOG.LP st) = p.line / 2) ∧
        (∀ q, t.blk.granStored q = b.granStored q) ∧ t.blk.fc = b.fc ∧ t.fuse = s.fuse ∧ t.pending = s.pending) ∧
  (
  ∀ (s : State) (c : MemCmd),
    let r := MemReq.of c
    let b := s.blk
    r.whole = true → r.op ≠ .read → b.checkReq r.who r.addr r.op.right = (b, none) → b.cohWin r.addr = none →
    ∀ o, b.range r.addr = .hbm o → ∀ (g : Region) (x : Nat), b.hbmWhere o = some (g, x) → g.prot = false →
    b.hbm.disabled = false → b.hbm.dram = [] → b.stillOwed ⟨r, Code.SUCCESS, []⟩ = false →
    ∀ key, b.regionKey g r.who.slice = some key →
    let p := Hbm.place b.hbmNd (x / 256 * 256)
    let xs := g.sealSlotX ((o - g.base) / 4096) / 256 * 256
    let ps := Hbm.place b.hbmNd xs
    (∀ d, r.op = .write d → r.len = 256 → b.chState p = 1 → b.chState ps = 1 → b.chPhys ps ≠ b.chPhys p → (b.granStored ps).tag = 0 →
      (SMap.get (fun _ => HbmErr.mk 0 0) b.hbm.err (b.chPhys ps)).times = 0 →
      (∀ k, (b.pc k).q.length < 62) → Yields (.hbmWrite c) s fun t =>
        t.blk.granStored p = Hbm.sealed key (x / 256 * 256) d ∧
        (t.blk.granStored ps).plain key xs = some (zeros 256) ∧
        (∀ q, b.chPhys q ≠ b.chPhys p → b.chPhys q ≠ b.chPhys ps → t.blk.granStored q = b.granStored q) ∧
        t.blk.out = b.out ++ [.memResp r.who r.tag Code.SUCCESS []] ∧
        t = { s with blk := { b with hbm := t.blk.hbm, out := t.blk.out } }) ∧
    (r.len < 256 → b.chState p = 3 → b.stillOwed ⟨r, Code.HBM_NO_BACKING, []⟩ = false →
      exec (.hbmWrite c) s = .next { s with blk := { b with out := b.out ++ [.memResp r.who r.tag Code.HBM_NO_BACKING []] } }))

/-- Where R41 places the 64-bit tag of the granule at line L of a channel of a stack of height H. No two lines of a pseudo-channel share a place, and the
tags lie in the rows above the data rows. -/
def Obligations.TagPlaces : Prop :=
  (∀ h l : Nat, Hbm.tagPlace h l = ⟨l / 2 / 128 % 16, 63488 * h / 16 + l / 2 / 128 / 16, l / 2 % 128⟩) ∧
    (∀ h l l' : Nat, Hbm.pc l = Hbm.pc l' → Hbm.tagPlace h l = Hbm.tagPlace h l' → l = l') ∧
    ∀ (b : Block) (l : Nat), l < b.hbmLines →
      Hbm.dramRow l < Hbm.tagRow b.hbmH ∧ Hbm.tagRow b.hbmH ≤ (Hbm.tagPlace b.hbmH l).row ∧ (Hbm.tagPlace b.hbmH l).row < 4096 * b.hbmH

/-- What is sealed under a key opens under it (R48): a granule of 256 bytes, encrypted and tagged at a line-space address, reads there as the bytes that
were written, its tag matches, and it is neither unwritten nor poisoned. -/
def Obligations.HbmSealedOpens : Prop :=
  ∀ (key x : Nat) (pt : List Byte), pt.length = 256 →
    (Hbm.sealed key x pt).plain key x = some pt ∧
    (Hbm.sealed key x pt).tag = Hbm.tagOf key x (Hbm.sealed key x pt).ct ∧
    (Hbm.sealed key x pt).tag ≠ 0 ∧ (Hbm.sealed key x pt).tag ≠ Hbm.tagPoison

/-- STRIPE_GATHER_TIMEOUT and STRIPE_LOCK_GRANT (R43, R44): at its limit a stripe that gathers a write lets it go: the write is performed and the stripe
holds nothing. A free lock goes to the first waiter: its whole-granule write begins to gather, and the other waiters stay in order. While accesses
under the lock wait, or a stripe gathers, none is granted. REORDER_QUEUE_ISSUE (R45, R46): a pseudo-channel not in training issues the access that R45
chooses; the others stay in order, and a read that waited for it alone is answered. An access of ensign 0 goes before every other. -/
def Obligations.HbmQueues : Prop :=
  (
  ∀ (s : State) (m : BitVec 29),
    let b := s.blk
    let st := b.stripe m.toNat
    (∀ r, st.held = [r] → b.hbm.dram = [] → Yields (.stripeGatherTimeout m) s fun t =>
      let a := (b.setStripe m.toNat { st with held := [] }).hbmAccess r.who.slice (r.addr - 0x8000000000) r.len r.op
      t.blk.stripe m.toNat = { st with held := [] } ∧ (∀ k, k ≠ m.toNat → t.blk.stripe k = b.stripe k) ∧
      (∀ p, t.blk.granStored p = a.1.granStored p) ∧ t.blk.regs = a.1.regs ∧ t.blk.shelf = b.shelf ∧ t.blk.keys = b.keys ∧ t.blk.sites = b.sites ∧
      ((t.blk.hbm.pcs.any fun e => e.2.q.any fun q => q.owed.contains ⟨r, a.2.1, a.2.2⟩) = false →
        t.blk.out = b.out ++ [.memResp r.who r.tag a.2.1 a.2.2]) ∧ t.fuse = s.fuse ∧ t.pending = s.pending) ∧
    (st.held = [] → exec (.stripeGatherTimeout m) s = .next s) ∧
    (∀ (r : MemReq) (rest : List MemReq) (d : List Byte) (g : Region) (x key : Nat), st.waiters = r :: rest → st.held = [] → b.stripeBusy m.toNat = false →
      b.hbmWhere (r.addr - 0x8000000000) = some (g, x) → g.prot = true → b.hbm.disabled = false → b.regionKey g r.who.slice = some key →
      x / 2048 = m.toNat → r.op = .write d → r.len = 256 →
      exec (.stripeLockGrant m) s = .next { s with blk := b.setStripe m.toNat ⟨[r], b.now, rest⟩ }) ∧
    (st.waiters = [] ∨ b.stripeBusy m.toNat = true ∨ st.held ≠ [] → exec (.stripeLockGrant m) s = .next s)) ∧
  (
  (∀ (s : State) (pc : Fin 512),
    let c := s.blk.pc pc
    let c' := { c with draining := c.drains (s.blk.rd (Reg.HM_RQ_CFG.WR_LOW (pc / 64))) (s.blk.rd (Reg.HM_RQ_CFG.WR_HIGH (pc / 64))) }
    c.training = false → ∀ i, c'.choose s.blk.now (s.blk.rd (Reg.HM_RQ_CFG.AGE_LIMIT (pc / 64))) = some i →
    ∀ e, c.q[i]? = some e → c.q.length ≤ 64 → Yields (.reorderQueueIssue pc) s fun t =>
      (t.blk.pc pc).q = c.q.eraseIdx i ∧ SMap.get (fun _ => 0) (t.blk.pc pc).openRow (Hbm.dramBank e.line) = Hbm.dramRow e.line + 1 ∧
      (∀ k, k ≠ pc → t.blk.pc k = s.blk.pc k) ∧
      (∀ o, e.isWrite = false → e.owed = [o] → t.blk.stillOwed o = false →
        t.blk.out = s.blk.out ++ [.memResp o.req.who o.req.tag o.status o.data]) ∧
      (e.isWrite = true ∨ e.owed = [] → t.blk.out = s.blk.out) ∧
      t = { s with blk := { s.blk with hbm := { s.blk.hbm with pcs := t.blk.hbm.pcs }, out := t.blk.out } }) ∧
    ∀ (c : PseudoChannel) (now age : Nat), c.refreshing = [] → ∀ i, c.choose now age = some i → ∀ e, c.q[i]? = some e →
      ∀ (j : Fin 64) (f : RqEntry), c.q[j.val]? = some f → f.ensign = 0 → (∀ k : Fin 64, k < j → ∀ g, c.q[k.val]? = some g → g.line ≠ f.line) → e.ensign = 0)

/-- HBM_REFRESH, STACK_TEMPERATURE, HBM_RETRAIN and HBM_RETRAIN_END (R47). REBUILD_STEP and HBM_PATROL_SCRUB (R44, R52, R54): a running rebuild whose
stripe's lock is free writes its next line and moves on by one line, and ends with the channel in service after the last; one whose lock is held does
not move. A scrub moves every data channel on to its next line, or the first. -/
def Obligations.HbmChannels : Prop :=
  (
  ∀ s : State,
    (∀ (pc : Fin 512) (bank : Fin 16), (s.blk.pc pc).training = false → Yields (.hbmRefresh pc bank) s fun t =>
      NSet.has (t.blk.pc pc).refreshing bank = true ∧ SMap.get (fun _ => 0) (t.blk.pc pc).openRow bank = 0 ∧
      (t.blk.pc pc).q = (s.blk.pc pc).q ∧ (∀ k, k ≠ pc → t.blk.pc k = s.blk.pc k) ∧
      t = { s with blk := { s.blk with hbm := { s.blk.hbm with pcs := t.blk.hbm.pcs } } }) ∧
    (∀ (stack : StackNo) (c : BitVec 8), Yields (.stackTemperature stack c) s fun t =>
      t.blk.rd (Reg.HM_TEMP.TEMP stack) = c.toNat ∧ t.blk.rd (Reg.HM_TEMP.REFRESH_2X stack) = b01 (85 < c.toNat) ∧
      OnlyFields s t [Reg.HM_TEMP.TEMP stack, Reg.HM_TEMP.REFRESH_2X stack]) ∧
    (∀ pc : Fin 512, (s.blk.hbm.pcs.any fun e => decide (e.1 / 64 = pc.val / 64) && e.2.training) = false →
      NSet.has s.blk.hbm.struckCh (pc / 2) = false → Yields (.hbmRetrain pc) s fun t =>
        (t.blk.pc pc).training = true ∧ (t.blk.pc pc).holdTime = s.blk.now ∧ (t.blk.pc pc).q = (s.blk.pc pc).q ∧
        (∀ k, k ≠ pc → t.blk.pc k = s.blk.pc k) ∧
        t = { s with blk := { s.blk with hbm := { s.blk.hbm with pcs := t.blk.hbm.pcs } } }) ∧
    ∀ (pc : Fin 512) (passed : Bool), (s.blk.pc pc).training = true → Yields (.hbmRetrainEnd pc passed) s fun t =>
      (t.blk.pc pc).training = false ∧
      (t.blk.pc pc).q.map (fun e => (e.line, e.isWrite, e.ensign, e.owed)) = (s.blk.pc pc).q.map (fun e => (e.line, e.isWrite, e.ensign, e.owed)) ∧
      (∀ k, k ≠ pc → t.blk.pc k = s.blk.pc k) ∧
      t = { s with blk := { s.blk with
        hbm := { s.blk.hbm with pcs := t.blk.hbm.pcs }
        fc := if passed then s.blk.fc else s.blk.fc.pennant s.blk.now
          ⟨Src.channel (pc / 64) (pc / 2 % 32), Kind.HBM_CHANNEL_FAIL, 0, 1, 0, false, false, false, s.blk.now⟩ } }) ∧
  (
  ∀ s : State,
    (∀ (stack : StackNo) (chan : ChanNo) (r : Rebuild), s.blk.hbm.rebuilds = [r] → r.srcStack = stack → r.k = chan →
      r.running = true →
      let m := r.cursor * s.blk.hbmNd + r.k
      (s.blk.stripe m = Stripe.idle → s.blk.stripeBusy m = false → r.cursor + 1 < s.blk.hbmLines → Yields (.rebuildStep stack chan) s fun t =>
        t.blk.hbm.rebuilds = [{ r with cursor := r.cursor + 1 }] ∧ t.blk.chState ⟨stack, chan, 0⟩ = s.blk.chState ⟨stack, chan, 0⟩ ∧
        t = { s with blk := { s.blk with regs := t.blk.regs, hbm := t.blk.hbm, fc := t.blk.fc } }) ∧
      (s.blk.stripe m = Stripe.idle → s.blk.stripeBusy m = false → s.blk.hbmLines = r.cursor + 1 → s.blk.fc.opened = [] → Yields (.rebuildStep stack chan) s fun t =>
        t.blk.hbm.rebuilds = [] ∧ t.blk.rd (Reg.HM_CHMAP.STATE stack chan) = 1 ∧
        t = { s with blk := { s.blk with regs := t.blk.regs, hbm := t.blk.hbm, fc := t.blk.fc } }) ∧
      (s.blk.stripeBusy m = true → exec (.rebuildStep stack chan) s = .next s)) ∧
    (s.blk.is Reg.HM_FE_SCRUB.EN = true → Yields .hbmPatrolScrub s fun t =>
      (∀ (st : Fin 8) (k : Fin 32), k.val < s.blk.hbmNd →
        let l := SMap.get (fun _ => 0) s.blk.hbm.scrubLine (32 * st + k)
        SMap.get (fun _ => 0) t.blk.hbm.scrubLine (32 * st + k) = (if s.blk.hbmLines ≤ l + 1 then 0 else l + 1)) ∧
      t = { s with blk := { s.blk with regs := t.blk.regs, hbm := t.blk.hbm, fc := t.blk.fc, out := t.blk.out } }))

/-! ### Hoists and sync objects (03) -/

/-- DOORBELL (R58): an index within the queue's size of its head and not behind the last accepted one becomes the tail; any other is rejected, and
DB_REJECT shows it. CONSUMER_HEAD_WRITE (R58) for the fault log and, by the same operation, the completion, token and hot-page rings: a head between
the last one and the tail is taken, any other write has no effect. -/
def Obligations.Doorbells : Prop :=
  (
  ∀ (s : State) (slice : SliceNo) (cls : ClassNo) (v : BitVec 32), s.blk.sliceState slice = Slice.OPEN →
    let n := s.blk.rd (Reg.SL_Q_CFG.LOG2_SIZE slice cls)
    let m := 2 ^ (n + 1)
    let h := s.blk.rd (Reg.SL_Q_HEAD.INDEX slice cls)
    let t0 := s.blk.rd (Reg.SL_Q_TAIL.INDEX slice cls)
    let v' := v.toNat % 2 ^ 17
    h < m → t0 < m →
    ((v' + m - h) % m ≤ 2 ^ n ∧ (t0 + m - h) % m ≤ (v' + m - h) % m → Yields (.doorbell slice cls v) s fun t =>
      t.blk.rd (Reg.SL_Q_TAIL.INDEX slice cls) = v' % m ∧ OnlyFields s t [Reg.SL_Q_TAIL.INDEX slice cls]) ∧
    (¬((v' + m - h) % m ≤ 2 ^ n ∧ (t0 + m - h) % m ≤ (v' + m - h) % m) → Yields (.doorbell slice cls v) s fun t =>
      t.blk.rd (Reg.SL_Q_STATUS.DB_REJECT slice cls) = 1 ∧ OnlyFields s t [Reg.SL_Q_STATUS.DB_REJECT slice cls])) ∧
  (
  ∀ (s : State) (v : BitVec 32),
    let t0 := s.blk.rd Reg.FC_LOG_TAIL.INDEX
    let h := s.blk.rd Reg.FC_LOG_HEAD.INDEX
    let v' := v.toNat % 8192
    ((v' + 8192 - h) % 8192 ≤ (t0 + 8192 - h) % 8192 → Yields (.consumerHeadWrite .faultLog v) s fun t =>
      t.blk.rd Reg.FC_LOG_HEAD.INDEX = v' ∧ OnlyFields s t [Reg.FC_LOG_HEAD.INDEX]) ∧
    ((t0 + 8192 - h) % 8192 < (v' + 8192 - h) % 8192 → exec (.consumerHeadWrite .faultLog v) s = .next s) ∧
    (∀ sl : SliceNo, Yields (.consumerHeadWrite (.completion sl) v) s fun t => OnlyFields s t [Reg.SL_CRING_HEAD.INDEX sl]) ∧
    (∀ sl : SliceNo, Yields (.consumerHeadWrite (.token sl) v) s fun t => OnlyFields s t [Reg.DN_SLICE30.TOK_HEAD sl]) ∧
    (Yields (.consumerHeadWrite .hot v) s fun t => OnlyFields s t [Reg.XL_HOT_HEAD.INDEX]))

/-- COMMAND_FETCH and HEAD_WRITEBACK (R59): a queue with nothing to fetch, or that does not run, fetches nothing; without FETCH_AHEAD one command of the
ring is read, by its eight words, and the head moves past it; the head is written where HEAD_WB points. -/
def Obligations.CommandFetch : Prop :=
  ∀ (s : State) (slice : SliceNo) (cls : ClassNo), s.blk.ext.need = [] →
    (s.blk.mayFetch slice cls = false → Yields (.commandFetch slice cls) s fun t =>
      t = { s with blk := { s.blk with ext := t.blk.ext } }) ∧
    (let b := s.blk
     let n := b.rd (Reg.SL_Q_CFG.LOG2_SIZE slice cls)
     let h := b.rd (Reg.SL_Q_HEAD.INDEX slice cls)
     let p := b.rd (Reg.SL_Q_BASE.BASE slice cls) + 64 * (h % 2 ^ n)
     b.mayFetch slice cls = true → (b.q slice cls).stack = [] → b.is (Reg.SL_Q_CFG.FETCH_AHEAD slice cls) = false →
     h < 2 ^ (n + 1) → b.rd (Reg.SL_Q_TAIL.INDEX slice cls) < 2 ^ (n + 1) → b.rd (Reg.SL_Q_TAIL.INDEX slice cls) ≠ h →
     Ptr.check p = none → ∀ d, b.ptrRead (b.qWho slice cls) p 64 = (b, Code.SUCCESS, d) →
     (b.rd (Reg.SL_MARK_CFG.QMASK slice)).testBit cls = false →
     Yields (.commandFetch slice cls) s fun t =>
       (t.blk.q slice cls).fetched = [⟨(List.range 8).map fun i => leAt d (8 * i) 8, h, 0, 0⟩] ∧
       t.blk.rd (Reg.SL_Q_HEAD.INDEX slice cls) = (h + 1) % 2 ^ (n + 1) ∧
       t = { s with blk := { b with regs := t.blk.regs, queues := t.blk.queues, ext := t.blk.ext } } ∧
       b.QueuesKept t.blk slice cls ∧ b.FieldsKept t.blk [Reg.SL_Q_HEAD.INDEX slice cls]) ∧
    (let p := s.blk.rd (Reg.SL_Q_HEAD_WB.PTR slice cls)
     (p = 0 → Yields (.headWriteback slice cls) s fun t => t = { s with blk := { s.blk with ext := t.blk.ext } }) ∧
     (p ≠ 0 → s.blk.qState slice cls ≠ Q.DISABLED → Ptr.check p = none → Ptr.tag p = 0 →
      ∀ b' st, s.blk.ptrWrite (s.blk.qWho slice cls) false false p (natLE 8 (s.blk.rd (Reg.SL_Q_HEAD.INDEX slice cls))) = (b', st) →
      b'.ext.need = [] → Yields (.headWriteback slice cls) s fun t => t = { s with blk := { b' with ext := t.blk.ext } }))

/-- QUEUE_ENABLE, QUEUE_DISABLE, QUEUE_PAUSE and QUEUE_RESUME (R56, R85). QUEUE_RETRY and QUEUE_SKIP (R84): a queue in ERROR for a failed command runs
again, or pauses; RETRY gives it the command once more, SKIP goes on with the one after it. A failure without a command to repeat stays. -/
def Obligations.QueueStates : Prop :=
  (
  ∀ (s : State) (slice : SliceNo) (cls : ClassNo),
    let st := Reg.SL_Q_STATUS.STATE slice cls
    (s.blk.is (Reg.SL_Q_CTRL.ENABLE slice cls) = true → exec (.queueEnable slice cls) s = .next s) ∧
    (s.blk.is (Reg.SL_Q_CTRL.ENABLE slice cls) = false → Yields (.queueEnable slice cls) s fun t =>
      t.blk.rd (Reg.SL_Q_CTRL.ENABLE slice cls) = 1 ∧
      (t.blk.rd st = Q.ERROR → t.blk.rd (Reg.SL_Q_STATUS.ERR_STATUS slice cls) =
        if s.blk.sliceDown slice then Code.FLT_PARTITION_DOWN else Code.HOIST_BAD_FIELD) ∧
      (s.blk.sliceDown slice = true → t.blk.rd st = Q.ERROR) ∧
      (t.blk.rd st = Q.ERROR ∨ t.blk.rd st = if s.blk.is (Reg.SL_Q_CTRL.PAUSE slice cls) then Q.PAUSED else Q.RUNNING) ∧
      t = { s with blk := { s.blk with regs := t.blk.regs, queues := t.blk.queues } } ∧ s.blk.QueuesKept t.blk slice cls ∧
      s.blk.FieldsKept t.blk [Reg.SL_Q_CTRL.ENABLE slice cls, st, Reg.SL_Q_STATUS.ERR_STATUS slice cls,
        Reg.SL_Q_STATUS.INFLIGHT slice cls, Reg.SL_Q_STATUS.DEPTH slice cls]) ∧
    (s.blk.is (Reg.SL_Q_CTRL.ENABLE slice cls) = true → Yields (.queueDisable slice cls) s fun t =>
      t.blk.rd (Reg.SL_Q_CTRL.ENABLE slice cls) = 0 ∧
      ((s.blk.q slice cls).inflight = [] → t.blk.rd st = Q.DISABLED) ∧
      ((s.blk.q slice cls).inflight ≠ [] → (t.blk.q slice cls).stopping = true ∧ t.blk.rd st = s.blk.rd st) ∧
      t = { s with blk := { s.blk with regs := t.blk.regs, queues := t.blk.queues } } ∧ s.blk.QueuesKept t.blk slice cls ∧
      s.blk.FieldsKept t.blk [Reg.SL_Q_CTRL.ENABLE slice cls, st, Reg.SL_Q_STATUS.INFLIGHT slice cls,
        Reg.SL_Q_STATUS.DEPTH slice cls]) ∧
    (Yields (.queuePause slice cls) s fun t =>
      t.blk.rd (Reg.SL_Q_CTRL.PAUSE slice cls) = 1 ∧
      t.blk.rd st = (if s.blk.rd st = Q.RUNNING then Q.PAUSED else s.blk.rd st) ∧
      OnlyFields s t [Reg.SL_Q_CTRL.PAUSE slice cls, st]) ∧
    (Yields (.queueResume slice cls) s fun t =>
      t.blk.rd (Reg.SL_Q_CTRL.PAUSE slice cls) = 0 ∧
      t.blk.rd st = (if s.blk.rd st = Q.PAUSED then Q.RUNNING else s.blk.rd st) ∧
      OnlyFields s t [Reg.SL_Q_CTRL.PAUSE slice cls, st])) ∧
  (
  ∀ (s : State) (slice : SliceNo) (cls : ClassNo),
    let st := Reg.SL_Q_STATUS.STATE slice cls
    let runs := if s.blk.is (Reg.SL_Q_CTRL.PAUSE slice cls) then Q.PAUSED else Q.RUNNING
    s.blk.qState slice cls = Q.ERROR → (s.blk.q slice cls).stopping = false →
    (∀ cmd, (s.blk.q slice cls).fail = some (.cmd cmd) → (s.blk.q slice cls).replay = [] →
      (Yields (.queueRetry slice cls) s fun t =>
        (t.blk.q slice cls).fetched = cmd :: (s.blk.q slice cls).fetched ∧ (t.blk.q slice cls).fail = none ∧ t.blk.rd st = runs ∧
        t = { s with blk := { s.blk with regs := t.blk.regs, queues := t.blk.queues } } ∧ s.blk.QueuesKept t.blk slice cls ∧
        s.blk.FieldsKept t.blk (st :: Fld.queue slice cls)) ∧
      (Yields (.queueSkip slice cls) s fun t =>
        (t.blk.q slice cls).fetched = (s.blk.q slice cls).fetched ∧ (t.blk.q slice cls).fail = none ∧ t.blk.rd st = runs ∧
        t = { s with blk := { s.blk with regs := t.blk.regs, queues := t.blk.queues } } ∧ s.blk.QueuesKept t.blk slice cls ∧
        s.blk.FieldsKept t.blk (st :: Fld.queue slice cls))) ∧
    ((s.blk.q slice cls).fail = some .none →
      exec (.queueRetry slice cls) s = .next s ∧ exec (.queueSkip slice cls) s = .next s))

/-- FENCE, MARK, CALL, RETURN, JUMP, HANDLE and an unlisted opcode at issue (R66, R68, R69, R72, R73, R80). FENCE, a MARK of a named queue and a HANDLE
that waits hold their queue; CALL, RETURN and JUMP move the queue between lists and complete; an unlisted opcode fails and puts the queue in ERROR. -/
def Obligations.ControlCommands : Prop :=
  ∀ (s : State) (slice : SliceNo) (cls : ClassNo) (q : QueueState), s.blk.q slice cls = q →
    (∀ cmd, s.blk.Ready slice cls cmd 0x13 → bits (cmd.w 2) 0 2 < 3 → Yields (.fence slice cls) s fun t =>
      (t.blk.q slice cls).block = some (.fence q.nextId (bits (cmd.w 2) 0 2)) ∧
      ((t.blk.q slice cls).inflight.map fun r => (r.id, r.cmd)) = [(q.nextId, cmd)] ∧ s.QueueStep t slice cls) ∧
    (∀ cmd, s.blk.Ready slice cls cmd 0x12 → bits (cmd.w 3) 17 9 ≤ 256 → bits (cmd.w 3) 0 17 + bits (cmd.w 3) 17 9 ≤ 131072 →
      q.block = none → (s.blk.slice slice).reached = [] → Yields (.mark slice cls) s fun t =>
        ((s.blk.rd (Reg.SL_MARK_CFG.QMASK slice)).testBit cls = false →
          (t.blk.q slice cls).block = none ∧ (t.blk.q slice cls).inflight = [] ∧ s.QueueStep t slice cls) ∧
        ((s.blk.rd (Reg.SL_MARK_CFG.QMASK slice)).testBit cls = true →
          (t.blk.q slice cls).block = some (.mark q.nextId) ∧
          t.blk.slice slice = { s.blk.slice slice with reached := [(cls.val, bits (cmd.w 2) 0 32)] } ∧
          t = { s with blk := { s.blk with
            regs := t.blk.regs, queues := t.blk.queues, slices := t.blk.slices, ext := t.blk.ext } })) ∧
    (∀ cmd, s.blk.Ready slice cls cmd 0x20 → Ptr.check (cmd.w 2) = none → Ptr.tag (cmd.w 2) < 2 → cmd.w 2 % 64 = 0 →
      1 ≤ bits (cmd.w 3) 0 16 → q.replay = [] → q.stack.length < 8 → Yields (.call slice cls) s fun t =>
        (t.blk.q slice cls).stack = ⟨cmd.w 2, bits (cmd.w 3) 0 16, 0, cmd.ring, q.fetched.drop 1⟩ :: q.stack ∧
        (t.blk.q slice cls).fetched = [] ∧ (t.blk.q slice cls).inflight = [] ∧ s.QueueStep t slice cls) ∧
    (∀ cmd, s.blk.Ready slice cls cmd 0x21 → q.replay = [] → ∀ f rest, q.stack = f :: rest →
      Yields (.returnList slice cls) s fun t =>
        (t.blk.q slice cls).stack = rest ∧ (t.blk.q slice cls).fetched = f.after ∧ (t.blk.q slice cls).inflight = [] ∧
        s.QueueStep t slice cls) ∧
    (∀ cmd, s.blk.Ready slice cls cmd 0x22 → bits (cmd.w 3) 0 2 = 0 → q.replay = [] → ∀ f rest, q.stack = f :: rest →
      bits (cmd.w 2) 0 16 < f.len → Yields (.jump slice cls) s fun t =>
        (t.blk.q slice cls).stack = { f with next := bits (cmd.w 2) 0 16 } :: rest ∧ (t.blk.q slice cls).fetched = [] ∧
        (t.blk.q slice cls).inflight = [] ∧ s.QueueStep t slice cls) ∧
    (∀ cmd, s.blk.Ready slice cls cmd 0x23 → bit (cmd.w 2) 32 = false → bits (cmd.w 2) 20 12 = slice.val →
      bits (cmd.w 2) 16 4 = s.blk.gen slice % 16 →
      ∀ h, (s.blk.slice slice).handles.find? (fun x => x.seq = bits (cmd.w 2) 0 16) = some h →
      Yields (.handle slice cls) s fun t =>
        (t.blk.q slice cls).block = (if h.done.isSome then q.block else some (.handle q.nextId h.seq)) ∧
        (t.blk.q slice cls).inflight.length = (if h.done.isSome then 0 else 1) ∧ s.QueueStep t slice cls) ∧
    ∀ cmd op, s.blk.Ready slice cls cmd op → Hoist.listed op = false → s.blk.cringFull slice = true →
      (s.blk.slice slice).entries = [] → Yields (.unlistedOpcode slice cls) s fun t =>
        t.blk.rd (Reg.SL_Q_STATUS.STATE slice cls) = Q.ERROR ∧
        t.blk.rd (Reg.SL_Q_STATUS.ERR_STATUS slice cls) = Code.HOIST_BAD_OPCODE ∧
        (t.blk.q slice cls).fail = some (.cmd cmd) ∧
        ((t.blk.slice slice).entries.map fun e => (e.kind, e.status, e.user)) = [(3, Code.HOIST_BAD_OPCODE, cmd.user)] ∧
        t = { s with blk := { s.blk with
          regs := t.blk.regs, queues := t.blk.queues, slices := t.blk.slices, ext := t.blk.ext } } ∧
        s.blk.QueuesKept t.blk slice cls ∧
        s.blk.FieldsKept t.blk ([Reg.SL_Q_STATUS.STATE slice cls, Reg.SL_Q_STATUS.ERR_STATUS slice cls,
          Reg.SL_Q_ERR.INDEX slice cls, Reg.SL_Q_ERR.LIST_INDEX slice cls, Reg.SL_Q_ERR.DEPTH slice cls,
          Reg.SL_CRING_STATUS.FULL slice] ++ Fld.queue slice cls)

/-- SYNC_SIGNAL, SYNC_RESET and SYNC_READ (R75–R77): a signal adds its amount, up to 2^64 − 1 where it stays, a reset makes the value 0, a read answers
it; each answers its sender, and no other object changes. A signal never lowers an object and a step of one object leaves every other; at a home that
is lost each operation answers FLT_UNIT_LOST and changes nothing else (R332). SYNC_WAIT_REGISTER, WAIT_POLL, WAIT_RELEASE and WAIT_TIMEOUT (R71, R75,
R78): a wait joins its home's table, satisfied at once where the value has reached its target, or polls where 2,048 wait already; a poll marks it once
the value has; the first satisfied wait leaves the table and its WAIT completes; a WAIT past its limit fails with SYNC_WAIT_TIMEOUT. -/
def Obligations.SyncObjects : Prop :=
  (
  ∀ (s : State) (obj : Fin 131072) (f : SyncFrom), NSet.has s.blk.sync.lostHomes (Sync.homeOf obj) = false →
    let w := s.blk.senderWho f
    (∀ amount : BitVec 32, 1 ≤ amount.toNat → Yields (.syncSignal obj amount f) s fun t =>
      t.blk.syncVal obj = min (s.blk.syncVal obj + amount.toNat) (2 ^ 64 - 1) ∧
      (∀ k, k ≠ obj.val → t.blk.syncVal k = s.blk.syncVal k) ∧
      t.blk.out = s.blk.out ++ [.memResp w f.tag.toNat Code.SUCCESS []] ∧
      t = { s with blk := { s.blk with sync := t.blk.sync, out := t.blk.out
                                       fc := if s.blk.syncVal obj + amount.toNat < 2 ^ 64 then s.blk.fc else t.blk.fc } }) ∧
    (Yields (.syncReset obj f) s fun t =>
      t.blk.syncVal obj = 0 ∧ (∀ k, k ≠ obj.val → t.blk.syncVal k = s.blk.syncVal k) ∧
      t = { s with blk := { s.blk with sync := { s.blk.sync with vals := t.blk.sync.vals }
                                       out := s.blk.out ++ [.memResp w f.tag.toNat Code.SUCCESS []] } }) ∧
    exec (.syncRead obj f) s = .next { s with blk := { s.blk with
      out := s.blk.out ++ [.memResp w f.tag.toNat Code.SUCCESS (natLE 8 (s.blk.syncVal obj))] } }) ∧
  (
  ∀ (s : State) (obj : Fin 131072) (f : SyncFrom), NSet.has s.blk.sync.lostHomes (Sync.homeOf obj) = true →
    let answer (d : List Byte) : State := { s with blk := { s.blk with
      out := s.blk.out ++ [.memResp (s.blk.senderWho f) f.tag.toNat Code.FLT_UNIT_LOST d] } }
    (∀ amount : BitVec 32, 1 ≤ amount.toNat → exec (.syncSignal obj amount f) s = .next (answer [])) ∧
    exec (.syncReset obj f) s = .next (answer []) ∧ exec (.syncRead obj f) s = .next (answer (zeros 8))) ∧
  (
  ∀ s : State,
    (∀ (obj : Fin 131072) (target : Word) (site : SiteNo) (tag : BitVec 12) (us : BitVec 16),
      let h := Sync.homeOf obj
      let full : Bool := decide (2048 ≤ ((s.blk.waitsAt h).filter fun w => !w.polls).length)
      NSet.has s.blk.sync.lostHomes h = false → Yields (.syncWaitRegister obj target site tag us) s fun t =>
        t.blk.waitsAt h = s.blk.waitsAt h ++ [⟨obj, target.toNat, .site site tag.toNat 0 0xFFF, s.blk.now, us.toNat, full,
          !full && decide (target.toNat ≤ s.blk.syncVal obj)⟩] ∧
        (∀ k, k ≠ h → t.blk.waitsAt k = s.blk.waitsAt k) ∧
        t = { s with blk := { s.blk with sync := { s.blk.sync with waits := t.blk.sync.waits } } }) ∧
    (∀ (home : PosNo) (w : SyncWait), (s.blk.waitsAt home)[0]? = some w → w.polls = true →
      Yields (.waitPoll home 0) s fun t =>
        (w.target ≤ s.blk.syncVal w.obj → (t.blk.waitsAt home)[0]? = some { w with satisfied := true }) ∧
        (s.blk.syncVal w.obj < w.target → t = s) ∧
        t = { s with blk := { s.blk with sync := { s.blk.sync with waits := t.blk.sync.waits } } }) ∧
    (∀ (home : PosNo) (w : SyncWait) (q id : Nat) (r : CmdRec), s.blk.ext.need = [] → s.blk.waitsAt home = [w] →
      w.satisfied = true → w.who = .queue q id → (s.blk.q (q / 4) (q % 4)).inflight = [r] → r.id = id → r.posting = false →
      r.cmd.sigAmt = 0 → r.cmd.cpl = false → Yields (.waitRelease home) s fun t =>
        t.blk.waitsAt home = [] ∧ (t.blk.q (q / 4) (q % 4)).inflight = [] ∧
        t = { s with blk := { s.blk with
          regs := t.blk.regs, queues := t.blk.queues, sync := t.blk.sync, ext := t.blk.ext } } ∧
        s.blk.QueuesKept t.blk (q / 4) (q % 4)) ∧
    ∀ (slice : SliceNo) (cls : ClassNo) (r : CmdRec), s.blk.ext.need = [] → s.blk.waitRec slice cls = some r →
      bits (r.cmd.w 4) 0 32 ≠ 0 → r.posting = false → s.blk.cringFull slice = true → (s.blk.slice slice).entries = [] →
      s.blk.qState slice cls ≠ Q.ERROR →
      (s.blk.sync.waits.any fun e => e.2.any fun w => decide (w.who = .queue (4 * slice + cls) r.id) && w.satisfied) = false →
      Yields (.waitTimeout slice cls) s fun t =>
        t.blk.rd (Reg.SL_Q_STATUS.STATE slice cls) = Q.ERROR ∧
        t.blk.rd (Reg.SL_Q_STATUS.ERR_STATUS slice cls) = Code.SYNC_WAIT_TIMEOUT ∧
        ((t.blk.slice slice).entries.map fun e => (e.kind, e.status)) = [(3, Code.SYNC_WAIT_TIMEOUT)] ∧
        t = { s with blk := { s.blk with regs := t.blk.regs, queues := t.blk.queues, slices := t.blk.slices
                                         sync := t.blk.sync, ext := t.blk.ext } })

/-- SIGNAL and WAIT (R70, R71): a SIGNAL whose turn has come adds its amount to a local object and completes; a WAIT on a local object registers there and
blocks its queue. -/
def Obligations.SignalAndWait : Prop :=
  ∀ (s : State) (slice : SliceNo) (cls : ClassNo), s.blk.ext.need = [] →
    (∀ r : CmdRec, (s.blk.q slice cls).inflight = [r] →
      let w := s.blk.mkWho (.cmd (s.blk.home slice cls)) (some slice.val) r.ensign
      let obj := Ptr.obj (r.cmd.w 2)
      let v := bits (r.cmd.w 3) 0 32
      r.cmd.opcode = 0x10 → r.posting = false → r.cmd.sigAmt = 0 → r.cmd.cpl = false → Ptr.isSync (r.cmd.w 2) = true →
      Ptr.check (r.cmd.w 2) = none → bit (r.cmd.w 3) 32 = false → 1 ≤ v → s.blk.syncVal obj + v < 2 ^ 64 →
      s.blk.checkReq w (Ptr.addr (r.cmd.w 2)) .w = (s.blk, none) → s.blk.cohWin (Ptr.addr (r.cmd.w 2)) = none →
      NSet.has s.blk.sync.lostHomes (Sync.homeOf obj) = false → (s.blk.q slice cls).stopping = false →
      Yields (.signal slice cls) s fun t =>
        t.blk.syncVal obj = s.blk.syncVal obj + v ∧ (t.blk.q slice cls).inflight = [] ∧
        (∀ k, k ≠ obj → t.blk.syncVal k = s.blk.syncVal k) ∧ s.blk.QueuesKept t.blk slice cls ∧
        s.blk.FieldsKept t.blk (Fld.queue slice cls) ∧
        t = { s with blk := { s.blk with
          regs := t.blk.regs, queues := t.blk.queues, sync := t.blk.sync, ext := t.blk.ext } }) ∧
    (∀ cmd, s.blk.Ready slice cls cmd 0x11 →
      let b1 := s.blk.issueNext slice cls (fun op => op = 0x11) (fun _ c => ⟨[c.w 2], Hoist.syncPtrOk (c.w 2)⟩) fun b _ id =>
        b.modQ slice cls fun q => { q with block := some (.wait id) }
      let w := b1.mkWho (.cmd (b1.home slice cls)) (some slice.val) (b1.effEnsign slice cls cmd).1
      let h := Sync.homeOf (Ptr.obj (cmd.w 2))
      Ptr.isSync (cmd.w 2) = true → Ptr.check (cmd.w 2) = none → b1.checkReq w (Ptr.addr (cmd.w 2)) .r = (b1, none) →
      NSet.has s.blk.sync.lostHomes h = false → Yields (.wait slice cls) s fun t =>
        (t.blk.q slice cls).block = some (.wait (s.blk.q slice cls).nextId) ∧
        ((t.blk.waitsAt h).map fun w => (w.obj, w.target, w.who, w.limitUs)) =
          ((s.blk.waitsAt h).map fun w => (w.obj, w.target, w.who, w.limitUs)) ++
            [(Ptr.obj (cmd.w 2), cmd.w 3, .queue (4 * slice + cls) (s.blk.q slice cls).nextId, bits (cmd.w 4) 0 32)] ∧
        (∀ k, t.blk.syncVal k = s.blk.syncVal k) ∧ s.blk.QueuesKept t.blk slice cls ∧
        s.blk.FieldsKept t.blk (Fld.queue slice cls) ∧
        t = { s with blk := { s.blk with
          regs := t.blk.regs, queues := t.blk.queues, sync := t.blk.sync, ext := t.blk.ext } })

/-- FENCE_COMPLETE, MARK_COMMIT and COMMAND_COMPLETE (R64, R72, R73): a FENCE with no host write to flush completes once it is the oldest; a mark that
every named queue has reached commits: LAST_MARK takes its number, the epoch advances, its objects are kept, and the queues go on; a command whose
engine has reported success, with neither signal nor entry, leaves. CRING_ENTRY_POST, CRING_WRITE_RETRY and CRING_IRQ_TIMER (R82, R83, R236): no entry
is posted while the ring is full or stalled, and FULL shows a full one; with none waiting, FULL is cleared; when the timer of an unreported entry runs
out, its vector is sent, or its pending bit set; an entry that the ring takes is written at its tail, with its phase, and the tail advances. -/
def Obligations.QueueCompletes : Prop :=
  (
  ∀ (s : State) (slice : SliceNo) (cls : ClassNo), s.blk.ext.need = [] →
    (∀ (r : CmdRec) (scope : Nat), (s.blk.q slice cls).block = some (.fence r.id scope) → (s.blk.q slice cls).inflight = [r] →
      r.posting = false → r.cmd.sigAmt = 0 → r.cmd.cpl = false → (s.blk.q slice cls).hostDirty = none →
      (s.blk.q slice cls).stopping = false → Yields (.fenceComplete slice cls) s fun t =>
        (t.blk.q slice cls).block = none ∧ (t.blk.q slice cls).inflight = [] ∧ s.QueueStep t slice cls) ∧
    (∀ (r : CmdRec) (no : Nat), s.blk.rd (Reg.SL_MARK_CFG.QMASK slice) = 2 ^ cls.val →
      (s.blk.slice slice).reached = [(cls.val, no)] → (s.blk.slice slice).qmaskNext = none →
      s.blk.qState slice cls = Q.RUNNING → (s.blk.q slice cls).stopping = false →
      (s.blk.q slice cls).block = some (.mark r.id) → (s.blk.q slice cls).inflight = [r] → r.posting = false →
      r.cmd.sigAmt = 0 → r.cmd.cpl = false → s.blk.dn.parts = [] → no < 2 ^ 32 →
      Yields (.markCommit slice) s fun t =>
        t.blk.rd (Reg.SL_MARK_STATUS.LAST_MARK slice) = no ∧
        t.blk.epoch slice = (s.blk.epoch slice + 1) % 4096 ∧ t.blk.rd (Reg.SL_MARK_STATUS.VALID slice) = 1 ∧
        (t.blk.slice slice).reached = [] ∧
        (t.blk.slice slice).snapshot = (List.range (bits (r.cmd.w 3) 17 9)).map (fun i =>
          (bits (r.cmd.w 3) 0 17 + i, s.blk.syncVal (bits (r.cmd.w 3) 0 17 + i))) ∧
        (t.blk.q slice cls).block = none ∧ (t.blk.q slice cls).inflight = [] ∧ (t.blk.q slice cls).log = [] ∧
        t.blk.shelf = s.blk.shelf ∧ t.blk.hbm = s.blk.hbm ∧ t.blk.sync = s.blk.sync ∧ t.fuse = s.fuse ∧ t.pending = s.pending) ∧
    (∀ (n : Fin 32) (r : CmdRec) (cnt : Nat), (s.blk.q slice cls).inflight = [r] → n = 0 → r.result = some (Code.SUCCESS, cnt) →
      r.posting = false → r.cmd.sigAmt = 0 → r.cmd.cpl = false → (s.blk.q slice cls).stopping = false → cls ≠ 0 →
      ((List.range 8).all fun i => (s.blk.xslot r.cmd.pos i).isNone) = true → Yields (.commandComplete slice cls n) s fun t =>
        (t.blk.q slice cls).inflight = [] ∧ s.QueueStep t slice cls)) ∧
  (
  ∀ (s : State) (slice : SliceNo), s.blk.ext.need = [] →
    ((s.blk.slice slice).stall ≠ none → Yields (.cringEntryPost slice) s fun t =>
      t = { s with blk := { s.blk with ext := t.blk.ext } }) ∧
    ((s.blk.slice slice).stall = none → (s.blk.slice slice).entries = [] → Yields (.cringEntryPost slice) s fun t =>
      t.blk.rd (Reg.SL_CRING_STATUS.FULL slice) = 0 ∧
      t = { s with blk := { s.blk with regs := t.blk.regs, ext := t.blk.ext } } ∧
      s.blk.FieldsKept t.blk [Reg.SL_CRING_STATUS.FULL slice]) ∧
    (∀ (e : CEntry) (rest : List CEntry), (s.blk.slice slice).entries = e :: rest → e.kind ≠ 1 → s.blk.cringFull slice = true →
      (∀ c, c = .cringEntryPost slice ∧ (s.blk.slice slice).stall = none ∨
          c = .cringWriteRetry slice ∧ (s.blk.slice slice).stall ≠ none → Yields c s fun t =>
        t.blk.rd (Reg.SL_CRING_STATUS.FULL slice) = 1 ∧
        t = { s with blk := { s.blk with regs := t.blk.regs, ext := t.blk.ext } } ∧
        s.blk.FieldsKept t.blk [Reg.SL_CRING_STATUS.FULL slice])) ∧
    (∀ e : CEntry, (s.blk.slice slice).entries = [e] → e.kind ≠ 1 → s.blk.cringFull slice = false → s.blk.ext.used = [] →
      let base := s.blk.rd (Reg.SL_CRING_BASE.BASE slice)
      let n := s.blk.rd (Reg.SL_CRING_CFG.LOG2_SIZE slice)
      let tail := s.blk.rd (Reg.SL_CRING_TAIL.INDEX slice)
      let p := base + 32 * (tail % 2 ^ n)
      ¬(Ptr.tag base = 1 ∧ s.blk.revoked (s.blk.fnOf slice) = true) → ∀ b, s.blk.cringWrite slice e = (b, Code.SUCCESS) → b.ext = s.blk.ext →
        (∀ c, c = .cringEntryPost slice ∧ (s.blk.slice slice).stall = none ∨
            c = .cringWriteRetry slice ∧ (s.blk.slice slice).stall ≠ none → Yields c s fun t =>
          t.blk.rd (Reg.SL_CRING_TAIL.INDEX slice) = (tail + 1) % 2 ^ (n + 1) ∧ t.blk.rd (Reg.SL_CRING_STATUS.FULL slice) = 0 ∧
          (t.blk.slice slice).entries = [] ∧ (t.blk.slice slice).stall = none ∧ t.blk.shelf = b.shelf ∧ t.blk.hbm = b.hbm ∧
          (p + 32 ≤ 2 ^ 29 → (List.range 32).map (fun i => t.blk.shelfByte (p + i)) = natLE 8 (e.e0 (tail / 2 ^ n % 2)) ++ e.e13))) ∧
    (s.blk.is (Reg.SL_CRING_CFG.IRQ_EN slice) = true → (s.blk.slice slice).firstAt ≠ none →
      Yields (.cringIrqTimer slice) s fun t =>
        t.blk.slice slice = { s.blk.slice slice with posted := 0, firstAt := none } ∧
        (let fn := s.blk.fnOf slice
         let vec := s.blk.rd (Reg.SL_CRING_CFG.VECTOR slice)
         if s.blk.msixAllowed fn vec then t.blk.out = s.blk.out ++ [s.blk.onStream fn (.msix fn vec)]
         else t.blk.out = s.blk.out ∧ NSet.has t.blk.ep.msixPending (fn * 2048 + vec) = true) ∧
        t = { s with blk := { s.blk with
          slices := t.blk.slices, ep := { s.blk.ep with msixPending := t.blk.ep.msixPending }, out := t.blk.out } }) ∧
    (s.blk.is (Reg.SL_CRING_CFG.IRQ_EN slice) = false → exec (.cringIrqTimer slice) s = .next s))

/-! ### Transfers, kernels and reductions (04-06) -/

/-- XFER and XFER_SLOT_START (R86): a checked XFER takes the lowest free slot of its engine, or is held at issue while none is free; a freed slot goes to
the earliest held one whose slice is below its quota. XFER_DESC_READ and XFER_CURSOR_READ (R87, R109): a good descriptor starts the transfer, or its
cursor's read; one that fails a check ends it with the check's code and a count of 0; a cursor that was not left by an early end starts at block 0.
XFER_BLOCK_PREPARED and XFER_BLOCK_DELIVERED (R101, R102): a block of the window that prepares and writes without failure is performed; when block D
is, the delivered-count moves past it, and after the last block the command is reported done. -/
def Obligations.Transfers : Prop :=
  (
  ∀ s : State, s.blk.ext.need = [] →
    (∀ (slice : SliceNo) (cls : ClassNo) (cmd : FCmd), s.blk.Ready slice cls cmd 0x01 →
      Hoist.check cls cmd (s.blk.xferCheck slice cmd) = none →
      (s.blk.posState cmd.pos).held.contains (4 * slice.val + cls.val) = false →
      (∀ n, s.blk.xferFree cmd.pos = some n → s.blk.xferQuota cmd.pos slice = true → s.blk.xferHeldNext cmd.pos = none →
        Yields (.xfer slice cls) s fun t =>
          ((t.blk.xslot cmd.pos n).map fun v => (v.job.slice, v.job.id, v.job.words, v.next)) =
            some (slice.val, (s.blk.q slice cls).nextId, cmd.words, 0) ∧
          ((t.blk.xslot cmd.pos n).map fun v => v.phase) = some .desc ∧
          ((t.blk.q slice cls).inflight.map fun r => r.cmd) = [cmd] ∧ s.blk.QueuesKept t.blk slice cls ∧
          (∀ p, p ≠ cmd.pos → t.blk.posState p = s.blk.posState p) ∧
          t = { s with blk := { s.blk with regs := t.blk.regs, queues := t.blk.queues, pos := t.blk.pos, ext := t.blk.ext } }) ∧
      (s.blk.xferFree cmd.pos = none → Yields (.xfer slice cls) s fun t =>
        t.blk.posState cmd.pos = { s.blk.posState cmd.pos with
          held := (s.blk.posState cmd.pos).held ++ [4 * slice.val + cls.val] } ∧
        (∀ p, p ≠ cmd.pos → t.blk.posState p = s.blk.posState p) ∧
        t = { s with blk := { s.blk with pos := t.blk.pos, ext := t.blk.ext } })) ∧
    (∀ (pos : PosNo) (n q : Nat), s.blk.xferFree pos = some n → s.blk.xferHeldNext pos = some q →
      Yields (.xferSlotStart pos) s fun t =>
        ((t.blk.xslot pos n).map fun v => (v.job.queue, v.next)) = some (q, 0) ∧
        (t.blk.posState pos).held = (s.blk.posState pos).held.erase q ∧
        t = { s with blk := { s.blk with regs := t.blk.regs, queues := t.blk.queues, pos := t.blk.pos, ext := t.blk.ext } }) ∧
    (∀ pos : PosNo, s.blk.xferFree pos = none → Yields (.xferSlotStart pos) s fun t =>
      t = { s with blk := { s.blk with ext := t.blk.ext } })) ∧
  (
  ∀ (s : State) (pos : PosNo) (slot : Fin 8) (v : XSlot), s.blk.xslot pos slot = some v → v.fault = none →
    let regs := [Reg.XF_STATUS.ACTIVE pos, Reg.XF_STATUS.FAULT_WAIT pos, Reg.XF_SLOT_STATE.SLICE pos slot,
      Reg.XF_SLOT_STATE.STATE pos slot, Reg.XF_SLOT_STATE.DELIVERED pos slot]
    (v.phase = .desc → ∀ b' ds, (s.blk.onLane (Xfr.lane pos slot)).xferRead (s.blk.jobWho (.xfer pos) v.job) v.descPtr (64 * v.descLen) = (b', none, ds) →
      b'.ext.need = [] →
      (∀ d, XDesc.parse v.descLen ds = .ok d → Yields (.xferDescRead pos slot) s fun t =>
        t.blk.xslot pos slot = some { v with desc := ds, phase := if v.cursorPtr = 0 then .run else .cursor } ∧
        b'.FieldsKept t.blk regs ∧
        t = { s with blk := { b' with regs := t.blk.regs, pos := t.blk.pos, ext := t.blk.ext } }) ∧
      (∀ st, XDesc.parse v.descLen ds = .error st → b'.is (Reg.XF_ERR_LOG.VALID pos) = false →
        Yields (.xferDescRead pos slot) s fun t =>
          ((t.blk.xslot pos slot).map fun w => w.phase) = some .ending ∧ t.blk.rd (Reg.XF_ERR_LOG.VALID pos) = 1 ∧
          t.blk.rd (Reg.XF_ERR_LOG.STATUS pos) = st % 65536 ∧ t.blk.rd (Reg.XF_ERR_LOG.SLOT pos) = slot ∧
          (∀ r ∈ (b'.queue v.job.queue).inflight, r.id = v.job.id → r.result = none →
            { r with result := some (st, 0) } ∈ (t.blk.queue v.job.queue).inflight) ∧
          t = { s with blk := { b'.xlatForget (fun q => decide (q.lane = Xfr.lane pos slot)) with
            regs := t.blk.regs, pos := t.blk.pos, queues := t.blk.queues, ext := t.blk.ext } })) ∧
    (v.phase = .cursor → ∀ b' ds, (s.blk.onLane (Xfr.lane pos slot)).xferRead (s.blk.jobWho (.xfer pos) v.job) v.cursorPtr 64 = (b', none, ds) →
      b'.ext.need = [] → ∀ d, XDesc.parse v.descLen v.desc = .ok d → bit (leAt ds 0 8) 32 = false →
      Yields (.xferCursorRead pos slot) s fun t =>
        t.blk.xslot pos slot = some { v with phase := .run } ∧ b'.FieldsKept t.blk regs ∧
        t = { s with blk := { b' with regs := t.blk.regs, pos := t.blk.pos, ext := t.blk.ext } })) ∧
  (
  ∀ (s : State) (pos : PosNo) (slot : Fin 8), s.blk.ext.need = [] → ∀ v, s.blk.xslot pos slot = some v →
    v.phase = .run → v.fault = none → v.failed = none → ∀ d, XDesc.parse v.descLen v.desc = .ok d →
    (∀ ahead : Fin 16, ahead.val < v.window → v.next + ahead < d.blocks → NSet.has v.performed (v.next + ahead) = false →
      (d.ordered = true → ahead.val = 0) → SMap.get (fun _ => none) v.begun (v.next + ahead) = none →
      ∀ r, (s.blk.onLane (Xfr.lane pos slot)).xferPrepare pos v d (v.next + ahead) = r → r.fail = none → r.b.ext.need = [] →
      ((s.blk.xferBegin pos slot v d (v.next + ahead)).xslot pos slot).map
          (fun w => SMap.get (fun _ => none) w.begun (v.next + ahead)) = some (some r.begun) ∧
      ∀ b', ((s.blk.xferBegin pos slot v d (v.next + ahead)).onLane (Xfr.lane pos slot)).xferWrite pos v.job r.begun d = (b', none) →
        b'.ext.need = [] → Yields (.xferBlockPrepared pos slot ahead none) s fun t =>
          ((t.blk.xslot pos slot).map fun w => (w.next, w.performed)) =
            some (r.v.next, NSet.insert (v.next + ahead) r.v.performed) ∧
          ((t.blk.xslot pos slot).map fun w => SMap.get (fun _ => none) w.begun (v.next + ahead)) = some none ∧
          t = { s with blk := { b' with regs := t.blk.regs, pos := t.blk.pos, queues := t.blk.queues, ext := t.blk.ext } }) ∧
    (NSet.has v.performed v.next = true → SMap.get (fun _ => none) v.hostLast v.next = none → v.progPtr = 0 →
      (v.next + 1 ≠ d.blocks → Yields (.xferBlockDelivered pos slot) s fun t =>
        ((t.blk.xslot pos slot).map fun w => (w.next, w.performed)) = some (v.next + 1, NSet.erase v.performed v.next) ∧
        t.blk.rd (Reg.XF_SLOT_STATE.DELIVERED pos slot) = (v.next + 1) % 2 ^ (Reg.XF_SLOT_STATE.DELIVERED pos slot).w ∧
        t = { s with blk := { s.blk with regs := t.blk.regs, pos := t.blk.pos, ext := t.blk.ext } }) ∧
      (v.next + 1 = d.blocks → v.cursorPtr = 0 → Yields (.xferBlockDelivered pos slot) s fun t =>
        ((t.blk.xslot pos slot).map fun w => (w.next, w.phase)) = some (v.next + 1, .ending) ∧
        (t.blk.queue v.job.queue).inflight = (s.blk.queue v.job.queue).inflight.map (fun r =>
          if r.id = v.job.id ∧ r.result.isNone then { r with result := some (Code.SUCCESS, d.blocks) } else r) ∧
        t = { s with blk := { s.blk.xlatForget (fun q => decide (q.lane = Xfr.lane pos slot)) with
          regs := t.blk.regs, pos := t.blk.pos, queues := t.blk.queues, ext := t.blk.ext } })))

/-- The element-wise arithmetic of Table VEC-4 (R115, R116, R119–R121): every active element is the operation on the sources as they were, a floating
result in its format with its flags, an integer one modulo 2^w; the other elements follow R115. -/
def Obligations.VectorArithmetic : Prop :=
  ∀ (s : State) (pos : PosNo),
    let two (ff : FFmt → Nat → Nat → Nat × Nat) (fi : Nat → Int → Int → Int) : VecState → VInstr → Nat → Nat × Nat := fun v i e =>
      let w := vtypeW i.ty
      match (vtype i.ty).bind EFmt.float? with
      | some g => ff g (v.elem i.va w e) (v.opB i w e)
      | none => (toBits (fi w (signed (v.elem i.va w e) w) (signed (v.opB i w e) w)) w, 0)
    let fused (neg : Bool) : VecState → VInstr → Nat → Nat × Nat := fun v i e =>
      match (vtype i.ty).bind EFmt.float? with
      | some g => g.fma neg (v.elem i.va (vtypeW i.ty) e) (v.opB i (vtypeW i.ty) e) (v.elem i.vd (vtypeW i.ty) e)
      | none => (0, 0)
    let shift (w : Nat) (b : Int) : Int := 2 ^ (b % (w : Int)).toNat
    s.ElementStep pos (.add pos) 0x20 (two FFmt.add fun _ a b => a + b) ∧
    s.ElementStep pos (.sub pos) 0x21 (two FFmt.sub fun _ a b => a - b) ∧
    s.ElementStep pos (.mul pos) 0x22 (two FFmt.mul fun _ a b => a * b) ∧
    s.ElementStep pos (.fma pos) 0x23 (fused false) ∧
    s.ElementStep pos (.fnma pos) 0x24 (fused true) ∧
    s.ElementStep pos (.min pos) 0x25 (two (fun g => g.minmax false) fun _ a b => min a b) ∧
    s.ElementStep pos (.max pos) 0x26 (two (fun g => g.minmax true) fun _ a b => max a b) ∧
    s.ElementStep pos (.abs pos) 0x27 (two (fun g a _ => g.unarySign (fun a => a % g.signBit) a) fun _ a _ => a.natAbs) ∧
    s.ElementStep pos (.exp2 pos) 0x28 (two (fun g a _ => g.trans .exp2 a) fun _ a _ => a) ∧
    s.ElementStep pos (.log2 pos) 0x29 (two (fun g a _ => g.trans .log2 a) fun _ a _ => a) ∧
    s.ElementStep pos (.rcp pos) 0x2A (two (fun g a _ => g.trans .rcp a) fun _ a _ => a) ∧
    s.ElementStep pos (.rsqrt pos) 0x2B (two (fun g a _ => g.trans .rsqrt a) fun _ a _ => a) ∧
    s.ElementStep pos (.shl pos) 0x2C (two (fun _ a _ => (a, 0)) fun w a b => a * shift w b) ∧
    s.ElementStep pos (.shr pos) 0x2D (two (fun _ a _ => (a, 0)) fun w a b => a % 2 ^ w / shift w b) ∧
    s.ElementStep pos (.sra pos) 0x2E (two (fun _ a _ => (a, 0)) fun w a b => a / shift w b) ∧
    s.ElementStep pos (.neg pos) 0x3F (two (fun g a _ =>
      g.unarySign (fun a => if a < g.signBit then a + g.signBit else a - g.signBit) a) fun _ a _ => -a) ∧
    s.ElementStep pos (.mov pos) 0x40 (two (fun _ _ b => (b, 0)) fun _ _ b => b)

/-- Moves between elements and conversions (R115, R122, R130–R132): an index at or beyond N gives zero and sets PERM_OOB, slides shift in zeros, SEL
ignores MEN and Z; COMPRESS packs the elements whose mask bit is set and counts them, EXPAND undoes it; CVT takes the part that EXT names. Comparisons
and mask operations (R115, R120): md takes the result bit by bit under R115; MAND, MOR, MXOR and MNOT act on all 1,024 bits; no vector or scalar
register changes. -/
def Obligations.VectorMovesAndMasks : Prop :=
  (
  ∀ (s : State) (pos : PosNo),
    let k (i : VInstr) : Nat := bits i.ext 0 10
    let n (v : VecState) (i : VInstr) : Nat := v.count (vtypeW i.ty)
    let a (v : VecState) (i : VInstr) (e : Nat) : Nat := v.elem i.va (vtypeW i.ty) e
    s.ElementStep pos (.perm pos) 0x41 (fun v i e =>
      if v.elem i.vb (vtypeW i.ty) e < n v i then (a v i (v.elem i.vb (vtypeW i.ty) e), 0) else (0, Flag.PERM_OOB)) ∧
    s.ElementStep pos (.slideup pos) 0x43 (fun v i e => (if e < k i then 0 else a v i (e - k i), 0)) ∧
    s.ElementStep pos (.slidedn pos) 0x44 (fun v i e => (if e + k i < n v i then a v i (e + k i) else 0, 0)) ∧
    s.ElementStep pos (.bcastx pos) 0x47 (fun v i _ => (v.xreg i.xa % 2 ^ vtypeW i.ty, 0)) ∧
    (∀ r, s.blk.KernelAt pos 0x42 r → Yields (.bcastl pos) s fun t =>
      let v := s.blk.vec pos
      let i := v.instr
      s.Retires t pos r ∧ v.OnlyVector (t.blk.vec pos) i.vd ∧
        v.Elements (t.blk.vec pos) i (vtypeW i.ty) (n v i) (fun _ => if k i < n v i then a v i (k i) else 0) ∧
        (t.blk.vec pos).flags = if k i < n v i then v.flags else v.flags ||| Flag.PERM_OOB) ∧
    (∀ r, s.blk.KernelAt pos 0x37 r → Yields (.sel pos) s fun t =>
      let v := s.blk.vec pos
      let v' := t.blk.vec pos
      let i := v.instr
      s.Retires t pos r ∧ v.OnlyVector v' i.vd ∧ v'.flags = v.flags ∧ ∀ e, e < lanes (vtypeW i.ty) →
        v'.elem i.vd (vtypeW i.ty) e = if n v i ≤ e then v.elem i.vd (vtypeW i.ty) e
          else if (v.mreg i.msk).testBit e then a v i e else v.opB i (vtypeW i.ty) e) ∧
    (∀ r, s.blk.KernelAt pos 0x45 r → Yields (.compress pos) s fun t =>
      let v := s.blk.vec pos
      let v' := t.blk.vec pos
      let i := v.instr
      let es := (List.range (n v i)).filter fun e => (v.mreg i.msk).testBit e
      s.Retires t pos r ∧ (∀ j e, es[j]? = some e → v'.elem i.vd (vtypeW i.ty) j = a v i e) ∧
        (∀ e, es.length ≤ e → e < lanes (vtypeW i.ty) →
          v'.elem i.vd (vtypeW i.ty) e = if i.z = true ∧ e < n v i then 0 else v.elem i.vd (vtypeW i.ty) e) ∧
        (∀ q, q ≠ i.vd → v'.vreg q = v.vreg q) ∧
        (∀ q, v'.xreg q = if q = 0 then 0 else if q = bits i.ext 0 4 then es.length % 2 ^ 64 else v.xreg q) ∧
        v' = { v with v := v'.v, x := v'.x, pc := v'.pc, run := v'.run }) ∧
    (∀ r, s.blk.KernelAt pos 0x46 r → Yields (.expand pos) s fun t =>
      let v := s.blk.vec pos
      let v' := t.blk.vec pos
      let i := v.instr
      let es := (List.range (n v i)).filter fun e => (v.mreg i.msk).testBit e
      s.Retires t pos r ∧ v.OnlyVector v' i.vd ∧ v'.flags = v.flags ∧
        (∀ j e, es[j]? = some e → v'.elem i.vd (vtypeW i.ty) e = a v i j) ∧
        ∀ e, e < lanes (vtypeW i.ty) → (v.mreg i.msk).testBit e = false ∨ n v i ≤ e →
          v'.elem i.vd (vtypeW i.ty) e = if i.z = true ∧ e < n v i then 0 else v.elem i.vd (vtypeW i.ty) e) ∧
    (∀ r src dst, s.blk.KernelAt pos 0x2F r → vtype (bits (s.blk.vec pos).instr.ext 0 3) = some src →
      vtype (s.blk.vec pos).instr.ty = some dst → Yields (.cvt pos) s fun t =>
        let v := s.blk.vec pos
        let v' := t.blk.vec pos
        let i := v.instr
        let ws := vtypeW (bits i.ext 0 3)
        let wd := vtypeW i.ty
        let part := bits i.ext 3 2
        let conv (e m : Nat) : Conv := convertBits src dst
          (if bit i.ext 5 && isINT i.ty then .truncate else roundingOf i.rnd v.seed e) (v.elem i.va ws m)
        s.Retires t pos r ∧ v.OnlyVector v' i.vd ∧
        (ws ≤ wd → v.Elements v' i wd (v.count wd) (fun e => (conv e (if ws = wd then e else part * lanes wd + e)).bits)) ∧
        (wd < ws → ∀ m, m < lanes wd → v'.elem i.vd wd m =
          let e := m - part * lanes ws
          if m < part * lanes ws ∨ v.count ws ≤ e then v.elem i.vd wd m
          else if v.active i (v.count ws) e then (conv e e).bits % 2 ^ wd else if i.z then 0 else v.elem i.vd wd m))) ∧
  (
  ∀ (s : State) (pos : PosNo),
    (∀ c op q fi, (c, op, q, fi) ∈ ([(.cmpEq pos, 0x30, .eq, fun a b => decide (a = b)),
        (.cmpNe pos, 0x31, .ne, fun a b => decide (a ≠ b)), (.cmpLt pos, 0x32, .lt, fun a b => decide (a < b)),
        (.cmpLe pos, 0x33, .le, fun a b => decide (a ≤ b)), (.cmpGt pos, 0x34, .gt, fun a b => decide (b < a)),
        (.cmpGe pos, 0x35, .ge, fun a b => decide (b ≤ a)), (.cmpUn pos, 0x36, .un, fun _ _ => false)] :
          List (Instr × Nat × CmpOp × (Int → Int → Bool))) →
      ∀ r, s.blk.KernelAt pos op r → Yields c s fun t =>
        let v := s.blk.vec pos
        let i := v.instr
        let w := vtypeW i.ty
        let f (e : Nat) : Bool × Nat := match (vtype i.ty).bind EFmt.float? with
          | some g => g.cmp q (v.elem i.va w e) (v.opB i w e)
          | none => (fi (signed (v.elem i.va w e) w) (signed (v.opB i w e) w), 0)
        s.Retires t pos r ∧ v.MaskBits (t.blk.vec pos) i (v.count w) (fun e => (f e).1) ∧
          (t.blk.vec pos).flags = v.flags ||| v.flagsOf i (v.count w) fun e => (f e).2) ∧
    (∀ c op f, (c, op, f) ∈ ([(.mand pos, 0x38, fun a b => a && b), (.mor pos, 0x39, fun a b => a || b),
        (.mxor pos, 0x3A, fun a b => a != b), (.mnot pos, 0x3B, fun a _ => !a)] : List (Instr × Nat × (Bool → Bool → Bool))) →
      ∀ r, s.blk.KernelAt pos op r → Yields c s fun t =>
        let v := s.blk.vec pos
        let v' := t.blk.vec pos
        let i := v.instr
        s.Retires t pos r ∧
          (∀ e, e < 1024 → (v'.mreg i.md).testBit e = f ((v.mreg i.ma).testBit e) ((v.mreg i.mb).testBit e)) ∧
          (∀ q, q ≠ i.md → v'.mreg q = v.mreg q) ∧ v' = { v with m := v'.m, pc := v'.pc, run := v'.run }) ∧
    (∀ r, s.blk.KernelAt pos 0x3E r → Yields (.mset pos) s fun t =>
      let v := s.blk.vec pos
      let i := v.instr
      s.Retires t pos r ∧ v.MaskBits (t.blk.vec pos) i (v.count (vtypeW i.ty)) (fun _ => true) ∧
        (t.blk.vec pos).flags = v.flags))

/-- Scalar operations, and those that bring a scalar out of masks and vectors (R112, R114, R118, R123, R131, R134): xd takes the result, x0 still reads
zero, no vector or mask register changes; SETVL clamps to 1 to C(VEW); RDFLG may clear FLAGS. -/
def Obligations.ScalarInstructions : Prop :=
  ∀ (s : State) (pos : PosNo),
    let same (v : VecState) (_ : VInstr) : VecState := v
    let second (v : VecState) (i : VInstr) : Int := if i.imm then signed i.ext 32 else v.xreg i.xb
    let len (v : VecState) (i : VInstr) : Nat := max 1 (min (if i.imm then i.ext else v.xreg i.xa) (8192 / vtypeW i.ty))
    let n (v : VecState) (i : VInstr) : Nat := v.count (vtypeW i.ty)
    let k (i : VInstr) : Nat := bits i.ext 0 10
    s.ScalarStep pos (.setvl pos) 0x04 len (fun v i => { v with vl := len v i, vew := vtypeW i.ty }) ∧
    s.ScalarStep pos (.sli pos) 0x05 (fun _ i => toBits (signed i.ext 32) 64) same ∧
    s.ScalarStep pos (.slih pos) 0x06 (fun v i => i.ext * 2 ^ 32 + v.xreg i.xd % 2 ^ 32) same ∧
    s.ScalarStep pos (.sadd pos) 0x07 (fun v i => toBits (v.xreg i.xa + second v i) 64) same ∧
    s.ScalarStep pos (.ssub pos) 0x08 (fun v i => toBits (v.xreg i.xa - second v i) 64) same ∧
    s.ScalarStep pos (.smul pos) 0x09 (fun v i => toBits (v.xreg i.xa * second v i) 64) same ∧
    s.ScalarStep pos (.sarg pos) 0x0A (fun v i => (SMap.get (fun _ => 0) v.amem (bits i.ext 0 7)).toNat) same ∧
    s.ScalarStep pos (.rdflg pos) 0x0B (fun v _ => v.flags)
      (fun v i => { v with flags := if bit i.ext 0 then 0 else v.flags }) ∧
    s.ScalarStep pos (.mpopc pos) 0x3C (fun v i => ((List.range (n v i)).filter fun e => (v.mreg i.ma).testBit e).length) same ∧
    s.ScalarStep pos (.mfirst pos) 0x3D (fun v i =>
      ((List.range (n v i)).find? fun e => (v.mreg i.ma).testBit e).getD (n v i)) same ∧
    s.ScalarStep pos (.xfromv pos) 0x48 (fun v i =>
      if k i < n v i then (if isINT i.ty then toBits (signed (v.elem i.va (vtypeW i.ty) (k i)) (vtypeW i.ty)) 64
        else v.elem i.va (vtypeW i.ty) (k i)) else 0)
      (fun v i => if k i < n v i then v else { v with flags := v.flags ||| Flag.PERM_OOB }) ∧
    (∀ r, s.blk.KernelAt pos 0x00 r → Yields (.nop pos) s fun t => s.Retires t pos r ∧
      t.blk.vec pos = { s.blk.vec pos with pc := (s.blk.vec pos).pc + 1, run := some { r with retired := r.retired + 1 } }) ∧
    ∀ r, s.blk.KernelAt pos 0x0C r → Yields (.setseed pos) s fun t => s.Retires t pos r ∧
      t.blk.vec pos = { s.blk.vec pos with
        seed := (s.blk.vec pos).xreg (s.blk.vec pos).instr.xa % 2 ^ 32
        pc := (s.blk.vec pos).pc + 1, run := some { r with retired := r.retired + 1 } }

/-- JMP, DBNZ, END, FORBIDDEN_INSTRUCTION and VEXEC_TIMEOUT (R117, R137, R138): a branch goes to EXT[13:0], and ends the kernel where that is no
instruction; END reports SUCCESS and the count of R137; a forbidden instruction and the time limit end it early. VEXEC, VEXEC_IMAGE_LOADED and REDUCE
(R134, R135, R145): a checked command takes the free unit; a VEXEC whose image is resident, or is read with its CRC, starts at ENTRY with x1 to x15
the argument words and every other register zero; a pointer out of alignment ends it with VEXEC_BAD_IMAGE and COUNT 0. -/
def Obligations.Kernels : Prop :=
  (
  ∀ (s : State) (pos : PosNo) (r : VRun), (s.blk.vec pos).ready = some r → (s.blk.posState pos).unitQ = [] →
    (s.blk.posState pos).red = none →
    let v := s.blk.vec pos
    let i := v.instr
    let cnt (n : Nat) : Nat := v.flags % 128 + v.pc % 16384 * 2 ^ 16 + min n (2 ^ 32 - 1) * 2 ^ 32
    let jumps (t : State) (v' : VecState) : Prop :=
      t.blk.vec pos = { v' with pc := bits i.ext 0 14, run := some { r with retired := r.retired + 1 } } ∧
        (∀ p, p ≠ pos → t.blk.posState p = s.blk.posState p) ∧
        t = { s with blk := { s.blk with regs := t.blk.regs, pos := t.blk.pos } }
    let next := (v.xreg i.xa + (2 ^ 64 - 1)) % 2 ^ 64
    (i.op = 0x02 → bits i.ext 0 14 < r.instrCount → Yields (.jmp pos) s fun t => jumps t v) ∧
    (i.op = 0x02 → r.instrCount ≤ bits i.ext 0 14 → Yields (.jmp pos) s fun t =>
      s.KernelEnds t pos r Code.VEXEC_PC_RANGE (cnt r.retired)) ∧
    (i.op = 0x03 → i.xa ≠ 0 → next ≠ 0 → bits i.ext 0 14 < r.instrCount → Yields (.dbnz pos) s fun t =>
      jumps t (v.setX i.xa next)) ∧
    (i.op = 0x03 → i.xa ≠ 0 → next = 0 → v.pc + 1 < r.instrCount → Yields (.dbnz pos) s fun t =>
      (t.blk.vec pos).xreg i.xa = 0 ∧ s.Retires t pos r) ∧
    (i.op = 0x01 → Yields (.endKernel pos) s fun t => s.KernelEnds t pos r Code.SUCCESS (cnt (r.retired + 1))) ∧
    (v.legal i = false → Yields (.forbiddenInstruction pos) s fun t =>
      s.KernelEnds t pos r Code.VEXEC_BAD_INSTR (cnt r.retired)) ∧
    Yields (.vexecTimeout pos) s fun t => s.KernelEnds t pos r Code.VEXEC_TIMEOUT (cnt r.retired)) ∧
  (
  ∀ s : State, s.blk.ext.need = [] →
    (∀ (slice : SliceNo) (cls : ClassNo) (cmd : FCmd) (op : Nat), s.blk.Ready slice cls cmd op →
      (s.blk.posState cmd.pos).unitQ = [] → (s.blk.vec cmd.pos).run = none → (s.blk.posState cmd.pos).red = none →
      let job (t : State) (j : Job) : Prop :=
        j.slice = slice.val ∧ j.queue = 4 * slice.val + cls.val ∧ j.id = (s.blk.q slice cls).nextId ∧ j.words = cmd.words ∧
        ((t.blk.q slice cls).inflight.map fun r => r.cmd) = [cmd] ∧ s.blk.QueuesKept t.blk slice cls ∧
        (∀ p, p ≠ cmd.pos → t.blk.posState p = s.blk.posState p) ∧
        t = { s with blk := { s.blk with regs := t.blk.regs, queues := t.blk.queues, pos := t.blk.pos, ext := t.blk.ext } }
      (op = 0x02 → Hoist.check cls cmd (s.blk.vexecCheck slice cmd) = none → Yields (.vexec slice cls) s fun t =>
        t.blk.rd (Reg.VE_STATUS.BUSY cmd.pos) = 1 ∧ t.blk.rd (Reg.VE_STATUS.LOADING cmd.pos) = 1 ∧
        ∃ r, (t.blk.vec cmd.pos).run = some r ∧ job t r.job ∧ r.loading = true ∧ r.retired = 0) ∧
      (op = 0x03 → Hoist.check cls cmd (s.blk.reduceCheck slice cmd) = none → Yields (.reduce slice cls) s fun t =>
        t.blk.rd (Reg.RD_STATUS.REDUCE_BUSY cmd.pos) = 1 ∧
        ∃ r, (t.blk.posState cmd.pos).red = some r ∧ job t r.job ∧ r.row = 0 ∧ r.col = 0)) ∧
    ∀ (pos : PosNo) (r : VRun), (s.blk.vec pos).run = some r → r.loading = true →
      let kp := r.job.w 2
      let entry := bits (r.job.w 4) 16 16
      let argLen := if r.job.w 3 = 0 then 0 else bits (r.job.w 4) 0 11
      let starts (t : State) (b2 : Block) (n : Nat) (args : List Byte) : Prop :=
        (t.blk.vec pos).run = some { r with loading := false, instrCount := n } ∧ (t.blk.vec pos).pc = entry ∧
        (∀ k, (t.blk.vec pos).vreg k = 0 ∧ (t.blk.vec pos).mreg k = 0 ∧ (t.blk.vec pos).getAcc k = Acc.cleared) ∧
        (∀ k, (t.blk.vec pos).xreg k = if k = 0 ∨ 15 < k then 0 else leAt args (8 * (k - 1)) 8) ∧
        (t.blk.vec pos).vl = 256 ∧ (t.blk.vec pos).vew = 32 ∧ (t.blk.vec pos).flags = 0 ∧ (t.blk.vec pos).seed = 0 ∧
        (∀ p, p ≠ pos → t.blk.posState p = b2.posState p) ∧
        t = { s with blk := { b2 with regs := t.blk.regs, pos := t.blk.pos, ext := t.blk.ext } }
      (kp % 64 ≠ 0 → (s.blk.posState pos).unitQ = [] → (s.blk.posState pos).red = none →
        Yields (.vexecImageLoaded pos) s fun t => s.KernelEnds t pos r Code.VEXEC_BAD_IMAGE 0) ∧
      (kp % 64 = 0 → ∀ b1 hd, s.blk.vecImageRead pos r kp 64 = (b1, true, hd) → b1.ext.need = [] → leAt hd 0 4 = 0x4B565A57 →
        leAt hd 4 2 = 1 → ∀ n, n = leAt hd 8 4 → n ≤ 16384 → entry < n →
        ((b1.vec pos).resident = some ⟨kp, hd, r.job.slice, r.job.gen, n⟩ →
          ∀ b2 args, b1.vecImageRead pos r (r.job.w 3) argLen = (b2, true, args) → b2.ext.need = [] → args.length = argLen →
          Yields (.vexecImageLoaded pos) s fun t =>
            (t.blk.vec pos).imem = (b2.vec pos).imem ∧ (t.blk.vec pos).resident = (b2.vec pos).resident ∧ starts t b2 n args) ∧
        ((b1.vec pos).resident ≠ some ⟨kp, hd, r.job.slice, r.job.gen, n⟩ → ∀ ip, Ptr.add kp 64 = some ip →
          ∀ b2 ds, b1.vecImageRead pos r ip (8 * n) = (b2, true, ds) → b2.ext.need = [] → crc32c ds = leAt hd 12 4 → argLen = 0 →
          Ptr.check (r.job.w 3) = none → ds.length = 8 * n → Yields (.vexecImageLoaded pos) s fun t =>
            (∀ k, (SMap.get (fun _ => 0) (t.blk.vec pos).imem k).toNat = if k < n then leAt ds (8 * k) 8 else 0) ∧
            (t.blk.vec pos).resident = some ⟨kp, hd, r.job.slice, r.job.gen, n⟩ ∧
            t.blk.rd (Reg.VE_RESIDENT.PTR pos) = kp % 2 ^ 64 ∧ starts t b2 n [])))

/-- The memory instructions and VECTOR_ACCESS_COMPLETE (R124–R129): a base pointer of tag 1 or 2 ends the kernel with VEXEC_SPACE_DENIED and one of tag 3
to 15 with BAD_SPACE_TAG; an instruction whose accesses all succeed retires, one that must wait for an answer from outside stalls, and its access
completing runs it; no byte of the shelf changes but those a store addresses. -/
def Obligations.VectorMemory : Prop :=
  ∀ (s : State) (pos : PosNo), s.blk.ext.need = [] → ∀ r, (s.blk.vec pos).run = some r → r.loading = false →
    let v := s.blk.vec pos
    let i := v.instr
    let base := v.xreg i.xa
    ∀ c op run, (c, op, run) ∈ ([(.vld pos, 0x10, Block.vecLoad), (.vlds pos, 0x11, Block.vecLoad), (.vldx pos, 0x12, Block.vecLoad),
        (.vst pos, 0x14, Block.vecStore), (.vsts pos, 0x15, Block.vecStore), (.vstx pos, 0x16, Block.vecStore),
        (.vstxa pos, 0x17, Block.vecScatterAdd), (.vseal pos, 0x18, Block.vecSeal), (.vchk pos, 0x19, Block.vecChk)] :
          List (Instr × Nat × (Block → Nat → VRun → VecState → VInstr → VMem))) →
      ∀ now, (now = c ∧ r.stalled = false ∨ now = .vectorAccessComplete pos ∧ r.stalled = true) → i.op = op →
        (now = c → v.legal i = true) →
        ((s.blk.posState pos).unitQ = [] → (s.blk.posState pos).red = none →
          (Ptr.tag base = 1 ∨ Ptr.tag base = 2 → Yields now s fun t =>
            s.KernelEnds t pos r Code.VEXEC_SPACE_DENIED (v.countOf r.retired)) ∧
          (3 ≤ Ptr.tag base → Yields now s fun t => s.KernelEnds t pos r Code.BAD_SPACE_TAG (v.countOf r.retired))) ∧
        ∀ x, run s.blk pos r v i = x → x.fail = none → v.pc + 1 < r.instrCount →
          (x.b.ext.need = [] → Yields now s fun t =>
            t.blk.vec pos = { x.v with pc := v.pc + 1, run := some { r with retired := r.retired + 1, stalled := false } } ∧
            t = { s with blk := { x.b with regs := t.blk.regs, pos := t.blk.pos, ext := t.blk.ext } } ∧
            (op < 0x14 ∨ op = 0x19 → t.blk.shelf.bytes = s.blk.shelf.bytes) ∧
            (∀ f, EFmt.ofCode i.mfmt = some f → 0x14 ≤ op → op < 0x17 → ∀ ws sat, v.storeWrites i f = some (ws, sat) →
              ∀ a, (∀ w ∈ ws, a < w.1 ∨ w.1 + w.2.length ≤ a) → t.blk.shelfByte a = s.blk.shelfByte a) ∧
            (op = 0x17 → ∀ a, (∀ e, v.active i (v.count 32) e = true →
                a < Vec.at base (4 * v.memIndex i e) ∨ Vec.at base (4 * v.memIndex i e) + 4 ≤ a) →
              t.blk.shelfByte a = s.blk.shelfByte a) ∧
            (op = 0x18 → ∀ a, t.blk.shelfByte a = s.blk.shelfByte a)) ∧
          (x.b.ext.need ≠ [] → Yields now s fun t =>
            t.blk.vec pos = { v with run := some { r with stalled := true } } ∧
            (∀ p, p ≠ pos → t.blk.posState p = s.blk.posState p) ∧
            t = { s with blk := { s.blk with pos := t.blk.pos, ext := t.blk.ext, out := t.blk.out } })

/-- The reduction instructions (R140–R144): RCLR clears to its class and K; sums of class INT are exact modulo 2^64; a NORM feed keeps the old maximum in
m_prev; a top-k list keeps K entries; each getter reads its own fields; no other accumulator changes. REDUCE_CHUNK (R145, R146): a chunk that is read
is fed to the row's accumulator; the last chunk of a row writes the row's result and starts the next row, and the last row reports SUCCESS with the
rows and the flags; a failed read ends the REDUCE with the rows completed. -/
def Obligations.Reductions : Prop :=
  (
  ∀ (s : State) (pos : PosNo),
    let a (v : VecState) (i : VInstr) : Acc := v.getAcc i.acc
    let same (v : VecState) (_ : VInstr) : VecState := v
    let xs (v : VecState) (i : VInstr) : List Int :=
      ((List.range (v.count (vtypeW i.ty))).filter fun e => v.active i (v.count (vtypeW i.ty)) e).map fun e =>
        signed (v.elem i.va (vtypeW i.ty) e) (vtypeW i.ty)
    s.AccStep pos (.rclr pos) 0x60 (fun _ i =>
      (⟨isINT i.ty, bits i.ext 0 7, 0xFF800000, 0xFF800000, 0, 0, 0,
        List.replicate (bits i.ext 0 7) (if isINT i.ty then 0x80000000 else 0xFF800000, 0xFFFFFFFF)⟩, 0)) ∧
    s.AccStep pos (.rnorm pos) 0x61 (fun v i => (a v i).norm i.ext (lanes (vtypeW i.ty)) (Vec.fed i v)) ∧
    s.AccStep pos (.rsum pos) 0x62 (fun v i =>
      if (a v i).isInt then ({ a v i with
          sum := toBits ((a v i).sum + (xs v i).sum) 64
          sumsq := toBits ((a v i).sumsq + ((xs v i).map fun x => x * x).sum) 64 }, 0)
      else (a v i).addSums (lanes (vtypeW i.ty)) (Vec.fed i v)) ∧
    s.AccStep pos (.rtopk pos) 0x63 (fun v i => (a v i).topFeed (v.xreg i.xb % 2 ^ 32) (Vec.fed i v)) ∧
    s.AccStep pos (.rmerge pos) 0x64 (fun v i => (a v i).merge (v.getAcc (bits i.ext 0 2))) ∧
    s.AccStep pos (.rsetn pos) 0x6D (fun v i =>
      ({ a v i with m := v.xreg i.xa % 2 ^ 32, s := v.xreg i.xa / 2 ^ 32, mPrev := v.xreg i.xa % 2 ^ 32 }, 0)) ∧
    s.ScalarStep pos (.rgetn pos) 0x68 (fun v i => (a v i).m + (a v i).s * 2 ^ 32) same ∧
    s.ScalarStep pos (.rgets pos) 0x69 (fun v i => (a v i).sum) same ∧
    s.ScalarStep pos (.rgetq pos) 0x6A (fun v i => (a v i).sumsq) same ∧
    s.ScalarStep pos (.rfact pos) 0x6C (fun v i =>
        if (a v i).mPrev = (a v i).m then 0x3F800000 else if (a v i).mPrev = 0xFF800000 then 0
        else (FFmt.fp32.trans .exp2 (FFmt.fp32.sub (a v i).mPrev (a v i).m).1).1)
      (fun v i => { v with flags := v.flags ||| (a v i).fact.2 }) ∧
    (∀ c ∈ [Instr.rnorm pos, .rtopk pos, .rmerge pos], ∀ r, s.blk.KernelAt pos (s.blk.vec pos).instr.op r →
      (c = .rnorm pos ∧ (s.blk.vec pos).instr.op = 0x61 ∨ c = .rtopk pos ∧ (s.blk.vec pos).instr.op = 0x63 ∨
        c = .rmerge pos ∧ (s.blk.vec pos).instr.op = 0x64) → Yields c s fun t =>
        let a0 := a (s.blk.vec pos) (s.blk.vec pos).instr
        let a1 := a (t.blk.vec pos) (s.blk.vec pos).instr
        (c ≠ .rtopk pos → a1.mPrev = a0.m) ∧ (c ≠ .rnorm pos → a1.top.length = a0.k) ∧ a1.k = a0.k ∧ a1.isInt = a0.isInt) ∧
    ∀ r, s.blk.KernelAt pos 0x6B r → Yields (.rgetk pos) s fun t =>
      let v := s.blk.vec pos
      let v' := t.blk.vec pos
      let i := v.instr
      s.Retires t pos r ∧
        (∀ e, e < 256 → v'.elem i.vd 32 e = if h : e < (a v i).top.length then (a v i).top[e].1 % 2 ^ 32 else v.elem i.vd 32 e) ∧
        (∀ e, e < 256 → v'.elem (i.vd + 1) 32 e =
          if h : e < (a v i).top.length then (a v i).top[e].2 % 2 ^ 32 else v.elem (i.vd + 1) 32 e) ∧
        (∀ k, k ≠ i.vd → k ≠ i.vd + 1 → v'.vreg k = v.vreg k) ∧ v' = { v with v := v'.v, pc := v'.pc, run := v'.run }) ∧
  (
  ∀ (s : State) (pos : PosNo) (r : RedRun), s.blk.ext.need = [] → (s.blk.posState pos).red = some r →
    (s.blk.posState pos).unitQ = [] → (s.blk.vec pos).run = none →
    ∀ f, EFmt.ofCode (Red.fmt (r.job.w 4)) = some f → ∀ sp,
    Ptr.add (r.job.w 2) (r.row * bits (r.job.w 5) 32 32 + r.col * (f.bits / 8) : Nat) = some sp →
    let op := Red.op (r.job.w 4)
    let left := Red.count (r.job.w 4) - r.col
    let n := min 256 left
    let size := if op = 3 then 16 else if op = 5 then 8 * Red.k (r.job.w 4) else 8
    ∀ b1 st ds, s.blk.ptrRead (s.blk.jobWho (.red pos) r.job) sp (n * (f.bits / 8)) = (b1, st, ds) → b1.ext.need = [] →
      (st = Code.SUCCESS → ∀ a fl, Red.feed op r.col r.acc (Red.fed f ds n) = (a, fl) →
        (256 < left → Yields (.reduceChunk pos) s fun t =>
          (t.blk.posState pos).red = some { r with acc := a, flags := r.flags ||| fl, col := r.col + 256 } ∧
          t = { s with blk := { b1 with pos := t.blk.pos, ext := t.blk.ext } }) ∧
        (0 < left → left ≤ 256 → ∀ dp, Ptr.add (r.job.w 3) (r.row * size : Nat) = some dp → Ptr.tag dp = 0 →
          ∀ b2, b1.ptrWrite (s.blk.jobWho (.red pos) r.job) true false dp (Red.result op a) = (b2, Code.SUCCESS) →
          b2.ext.need = [] →
          (r.row + 1 < bits (r.job.w 5) 0 32 → Yields (.reduceChunk pos) s fun t =>
            ((t.blk.posState pos).red.map fun q => (q.row, q.col, q.flags, q.job)) = some (r.row + 1, 0, r.flags ||| fl, r.job) ∧
            t = { s with blk := { b2 with regs := t.blk.regs, pos := t.blk.pos, ext := t.blk.ext } }) ∧
          (r.row + 1 = bits (r.job.w 5) 0 32 → Yields (.reduceChunk pos) s fun t =>
            (t.blk.posState pos).red = none ∧ t.blk.rd (Reg.RD_STATUS.REDUCE_BUSY pos) = 0 ∧
            b2.Reported t.blk r.job Code.SUCCESS ((r.row + 1) % 2 ^ 32 + (r.flags ||| fl) % 128 * 2 ^ 32) ∧
            t = { s with blk := { b2 with regs := t.blk.regs, pos := t.blk.pos, queues := t.blk.queues, ext := t.blk.ext } }))) ∧
      (st ≠ Code.SUCCESS → Yields (.reduceChunk pos) s fun t =>
        (t.blk.posState pos).red = none ∧
        b1.Reported t.blk r.job (Red.code st) (r.row % 2 ^ 32 + r.flags % 128 * 2 ^ 32) ∧
        t = { s with blk := { b1 with regs := t.blk.regs, pos := t.blk.pos, queues := t.blk.queues, ext := t.blk.ext } }))

/-- COLLECT, COLLECT_WAIT_SATISFIED and COLLECT_TIMEOUT (R147–R149): an all-reduce whose table is good waits for its children's signals at its own object;
a wait that is met takes the next step; a lone wait past its limit ends the COLLECT with COLLECT_TIMEOUT, and BASE is not written. -/
def Obligations.Collect : Prop :=
  ∀ s : State, s.blk.ext.need = [] →
    (∀ (slice : SliceNo) (cls : ClassNo) (cmd : FCmd), s.blk.Ready slice cls cmd 0x04 →
      Hoist.check cls cmd (s.blk.collectCheck slice cmd) = none → (s.blk.posState cmd.pos).colls = [] →
      ∀ b1, b1 = (s.blk.settle fun b => b.issueNext slice cls (· = 0x04) (fun b c => b.collectCheck slice c) fun b cmd id =>
        (b.modPos cmd.pos fun p => { p with colls := [⟨b.mkJob slice cls cmd id, b.rd (Reg.RD_CFG.COLLECT_TIMEOUT_MS cmd.pos),
          0, 0, [], .table, b.now⟩] }).wr (Reg.RD_STATUS.COLLECT_BUSY cmd.pos) 1) →
      ∀ c, (b1.posState cmd.pos).colls[0]? = some c → ∀ c', b1.collTable cmd.pos c = (b1, none, c') →
      bits (cmd.w 4) 40 2 = 0 → ∀ me, me = c'.member c'.self → b1.checkReq (b1.jobWho (.collect cmd.pos) c'.job) (Sync.dla me.sync) .r = (b1, none) →
      NSet.has s.blk.sync.lostHomes (Sync.homeOf me.sync) = false → s.blk.waitsAt (Sync.homeOf me.sync) = [] →
      Yields (.collect slice cls) s fun t =>
        (t.blk.posState cmd.pos).colls = [{ c' with phase := .children }] ∧
        ((t.blk.waitsAt (Sync.homeOf me.sync)).map fun w => (w.obj, w.target, w.who)) =
          [(me.sync, c'.base + c'.childRanks.length, .collect cmd.pos (4 * slice + cls) c'.job.id)] ∧
        (∀ k, t.blk.syncVal k = s.blk.syncVal k) ∧ s.blk.QueuesKept t.blk slice cls ∧
        t = { s with blk := { s.blk with regs := t.blk.regs, queues := t.blk.queues, pos := t.blk.pos, sync := t.blk.sync
                                         ext := t.blk.ext } }) ∧
    ∀ (pos : PosNo) (c : CollRun), (s.blk.posState pos).colls = [c] → c.phase = .children ∨ c.phase = .parent →
      let h := Sync.homeOf (c.member c.self).sync
      (∀ w, s.blk.waitsAt h = [w] → w.who = .collect pos c.job.queue c.job.id →
        (w.satisfied = true → ∀ b', b' = (s.blk.setWaits h []).collStep pos c → b'.ext.need = [] →
          Yields (.collectWaitSatisfied pos 0) s fun t => t = { s with blk := { b' with ext := t.blk.ext } } ∧
            (c.phase = .parent → Coll.kind c.job = 1 → ∀ b2, s.blk.dlaWrite (s.blk.jobWho (.collect pos) c.job)
                (Ptr.addr (c.job.w 5 + 8)) (natLE 8 (c.base + c.signals)) = (b2, Code.SUCCESS) →
              (t.blk.posState pos).colls = [] ∧ t.blk.shelf = b2.shelf ∧ b2.Reported t.blk c.job Code.SUCCESS 0)) ∧
        (w.satisfied = false → Yields (.collectTimeout pos 0) s fun t =>
          (t.blk.posState pos).colls = [] ∧ t.blk.waitsAt h = [] ∧ t.blk.rd (Reg.RD_STATUS.COLLECT_BUSY pos) = 0 ∧
          s.blk.Reported t.blk c.job Code.COLLECT_TIMEOUT 0 ∧
          t = { s with blk := { s.blk with regs := t.blk.regs, queues := t.blk.queues, pos := t.blk.pos, sync := t.blk.sync
                                           ext := t.blk.ext } }) ∧
        (w.satisfied = true → Yields (.collectTimeout pos 0) s fun t => t = s))

/-! ### Sites and coherence (07-09) -/

/-- DATA_FRAME, IDLE_FRAME, NAK_FRAME, ACK_TIMER and NAK_RESEND (R158–R160): on a stacked link that is up, the frame whose SEQ is expected is delivered,
once, and the next is expected; one delivered already is discarded; a CRC error delivers nothing, is counted, and is answered by a NAK unless one is
out; an ACK releases the frames it covers; a NAK has every held frame sent again, in order. ADAPTER_CRC_ERROR, MODULE_ACTIVE_STATE_CHANGE and
MODULE_RETURN_TIMEOUT (R161): the errors of a lateral module within one microsecond are one event of it; a module that returns shows its repaired
lanes; one that does not return loses both its halves. -/
def Obligations.SiteLinks : Prop :=
  (
  ∀ (s : State) (site : SiteNo), site.val < 12 → s.blk.linkUp site = true →
    let l := (s.blk.site site).link
    let last := (l.rxNext + 4095) % 4096
    let fill := (s.blk.freshBytes 240).2
    let wire (kind seq : Nat) (pl : List Byte) : List Byte := withCrc16 (Frame.body kind seq last l.rxAny pl)
    let nak : Out := .frame site (s.blk.frameGroup site 0) (wire 2 0 fill)
    let stuck : Prop := l.txWait = [] ∨ 1024 ≤ l.held.length ∨ l.widthChange ≠ none
    (∀ f : SiteFrame, SMap.get (fun _ => 0) s.blk.fc.corruptFrames (Src.laneGroup site f.group) = 0 → l.framesSinceAck < 63 → stuck →
      (f.crc.toNat = SiteFrame.crcOf f 0 → f.ackValid = false →
        (f.seq.toNat = l.rxNext → Yields (.dataFrame site f false) s fun t =>
          let got := Packet.split 16 (l.rxBytes ++ sliceBytes f.payload 0 240)
          t.blk.out = s.blk.out ++ .payload site (sliceBytes f.payload 0 240) ::
            (got.1.filter fun p => p.op ≠ 0).map (Out.received site) ∧
          (t.blk.site site).link = { l with
            rxNext := (l.rxNext + 1) % 4096, rxAny := true, nakAt := none, sendFails := 0, rxBytes := got.2
            framesSinceAck := l.framesSinceAck + 1 } ∧
          s.SiteStep t site ∧ t.blk.regs = s.blk.regs ∧ t.blk.fc = s.blk.fc) ∧
        (f.seq.toNat ≠ l.rxNext → l.rxAny = true → (l.rxNext + 4095 - f.seq.toNat) % 4096 < 2048 →
          Yields (.dataFrame site f false) s fun t =>
            t.blk.out = s.blk.out ∧ (t.blk.site site).link = { l with framesSinceAck := l.framesSinceAck + 1 } ∧
            s.SiteStep t site ∧ t.blk.regs = s.blk.regs ∧ t.blk.fc = s.blk.fc)) ∧
      (∀ k3 : Bool, k3 = true ∨ f.crc.toNat ≠ SiteFrame.crcOf f 0 → Yields (.dataFrame site f k3) s fun t =>
        (t.blk.site site).link.rxNext = l.rxNext ∧ (t.blk.site site).link.held = l.held ∧
        t.blk.rd (Reg.ST_CRC_ERR.COUNT site) = satAdd 32 (s.blk.rd (Reg.ST_CRC_ERR.COUNT site)) 1 ∧
        t.blk.out = (if l.nakAt = none then s.blk.out ++ [nak] else s.blk.out) ∧
        (s.spends (if l.nakAt = none then 240 else 0)).SiteStep t site) ∧
      (f.crc.toNat = SiteFrame.crcOf f 1 → ∀ n, (l.held.findIdx? fun h => h.seq = f.ack.toNat) = some n → f.ackValid = true → l.txWait = [] →
        Yields (.idleFrame site f) s fun t =>
          (t.blk.site site).link = { l with held := l.held.drop (n + 1), nakCount := 0, framesSinceAck := l.framesSinceAck + 1 } ∧
          s.SiteStep t site ∧ t.blk.regs = s.blk.regs ∧ t.blk.fc = s.blk.fc ∧ t.blk.out = s.blk.out) ∧
      (f.crc.toNat = SiteFrame.crcOf f 2 → f.ackValid = false → l.widthChange = none → l.nakCount < 7 → Yields (.nakFrame site f) s fun t =>
        (t.blk.site site).link.held = l.held ∧ (t.blk.site site).link.rxNext = l.rxNext ∧
        t.blk.out = s.blk.out ++ l.held.map (fun h =>
          .frame site (s.blk.frameGroup site h.seq) (wire 0 h.seq h.payload)) ∧
        s.SiteStep t site ∧ t.blk.regs = s.blk.regs ∧ t.blk.fc = s.blk.fc)) ∧
    (l.rxAny = true → Yields (.ackTimer site) s fun t =>
      t.blk.out = s.blk.out ++ [.frame site (s.blk.frameGroup site 0) (wire 1 0 fill)] ∧
      (t.blk.site site).link = { l with framesSinceAck := 0, ackAt := s.blk.now } ∧
      (s.spends 240).SiteStep t site ∧ t.blk.regs = s.blk.regs ∧ t.blk.fc = s.blk.fc) ∧
    (l.nakAt ≠ none → Yields (.nakResend site) s fun t =>
      t.blk.out = s.blk.out ++ [nak] ∧ (t.blk.site site).link.nakAt = some s.blk.now ∧ (s.spends 240).SiteStep t site ∧
      t.blk.fc = s.blk.fc ∧ s.blk.FieldsKept t.blk [Reg.ST_REPLAY.COUNT site])) ∧
  (
  ∀ (s : State) (site : SiteNo), 12 ≤ site.val → s.blk.linkUp site = true →
    let l := (s.blk.site site).link
    (∀ (md : Fin 4) (n : Fin 256), let g := 2 * md.val
      (SMap.get (fun _ => 0) l.eventAt g = 0 → Yields (.adapterCrcError site md n) s fun t =>
        t.blk.rd (Reg.ST_REPLAY.COUNT site) = satAdd 32 (s.blk.rd (Reg.ST_REPLAY.COUNT site)) n ∧
        t.blk.rd (Reg.ST_CRC_ERR.COUNT site) = satAdd 32 (s.blk.rd (Reg.ST_CRC_ERR.COUNT site)) 1 ∧
        s.blk.Raised t.blk (Src.laneGroup site g) Kind.LANE_EVENT 0 0 ∧ s.SiteStep t site ∧ t.blk.out = s.blk.out ∧
        s.blk.FieldsKept t.blk [Reg.ST_REPLAY.COUNT site, Reg.ST_CRC_ERR.COUNT site, Reg.ST_GROUP_ERR.COUNT site]) ∧
      (SMap.get (fun _ => 0) l.eventAt g ≠ 0 → s.blk.now + 1 < SMap.get (fun _ => 0) l.eventAt g + 1600 →
        Yields (.adapterCrcError site md n) s fun t =>
          t.blk.rd (Reg.ST_CRC_ERR.COUNT site) = satAdd 32 (s.blk.rd (Reg.ST_CRC_ERR.COUNT site)) 1 ∧
          OnlyFields s t [Reg.ST_REPLAY.COUNT site, Reg.ST_CRC_ERR.COUNT site])) ∧
    ∀ md : Fin 4, let flits := SMap.get (fun _ => []) l.flitWait md
      (∀ rep : Fin 16, Yields (.moduleActiveStateChange site md false rep none) s fun t =>
        SMap.get (fun _ => 0) (t.blk.site site).link.moduleDown md = s.blk.now + 1 ∧ s.SiteStep t site ∧
        t.blk.regs = s.blk.regs ∧ t.blk.fc = s.blk.fc ∧ t.blk.out = s.blk.out) ∧
      (∀ rep : Fin 16, SMap.get (fun _ => 0) l.moduleDown md ≠ 0 → Yields (.moduleActiveStateChange site md true rep none) s fun t =>
        SMap.get (fun _ => 0) (t.blk.site site).link.moduleDown md = 0 ∧
        bits (t.blk.rd (Reg.ST_LANE_STATE.REPAIRED site)) (4 * md) 4 = rep ∧ s.SiteStep t site ∧ t.blk.fc = s.blk.fc ∧
        (flits = [] ∨ (s.blk.modules site).contains md.val → t.blk.out = s.blk.out ++ flits.map (Out.flit site md)) ∧
        SMap.get (fun _ => []) (t.blk.site site).link.flitWait md = [] ∧ s.blk.FieldsKept t.blk [Reg.ST_LANE_STATE.REPAIRED site]) ∧
      (SMap.get (fun _ => 0) l.moduleDown md ≠ 0 → l.recon = none →
        let left := s.blk.rd (Reg.ST_LANE_STATE.RETIRED site) ||| 3 * 2 ^ (2 * md.val)
        left % 256 ≠ 255 → Yields (.moduleReturnTimeout site md) s fun t =>
          t.blk.rd (Reg.ST_LANE_STATE.RETIRED site) = left ∧
          (t.blk.rd (Reg.ST_LANE_STATE.RETIRED site) ≠ s.blk.rd (Reg.ST_LANE_STATE.RETIRED site) →
            s.blk.linkState site ≠ Link.WIDTH_CHANGE → t.blk.rd (Reg.ST_STATUS.WIDTH_SET site) = 255 - left % 256) ∧
          t.blk.fc = (((List.range 2).filter fun h => !(s.blk.rd (Reg.ST_LANE_STATE.RETIRED site)).testBit (2 * md + h)).foldl
            (fun b h => b.pennant (Src.laneGroup site (2 * md + h)) Kind.LANE_FAIL 0 0) s.blk).fc ∧
          s.blk.FieldsKept t.blk [Reg.ST_LANE_STATE.RETIRED site, Reg.ST_STATUS.WIDTH_SET site,
            Reg.FC_BUCKET.STRUCK (Src.laneGroup site (2 * md)), Reg.FC_BUCKET.STRUCK (Src.laneGroup site (2 * md + 1))] ∧
          s.SiteStep t site ∧ (flits = [] → t.blk.out = s.blk.out)))

/-- Training, reconciliation and the site's resets (R156, R157, R163, R164, R166, R171, Table SIT-7): SITE_TRAINED brings the link to TRAINED at the
agreed set and shows the site present; a failed attempt is counted and the third pins the set; a site not trained in time is not present; LINK_HELLO
retrains a lost site where AUTO_RETRAIN is set; ST_CTRL's commands do what Table SIT-7 says. Loss of a site and its sideband (R162, R167–R169): a
RESET_NOTE, missed heartbeats, the loss of every active clock and a reply missing after the third resend each lose the site with the cause of R169;
losing it completes what is outstanding to it with SITE_LOST, takes it out of ENROLLED, logs it and raises a pennant; notes become pennants; WIDTH_ACK
completes a change. -/
def Obligations.SiteStates : Prop :=
  (
  ∀ (s : State) (site : SiteNo),
    let st := s.blk.linkState site
    let l := (s.blk.site site).link
    let starts (t : State) : Prop :=
      t.blk.linkState site = Link.TRAINING ∧ (t.blk.site site).link.srstLow = false ∧
      (t.blk.site site).link.trainAt = (if l.srstLow then some s.blk.now else l.trainAt) ∧ s.SiteStep t site ∧ t.blk.fc = s.blk.fc ∧
      t.blk.out = s.blk.out ++ [.sideband site (Sideband.wire 0x01 0 1 0)] ∧ s.blk.FieldsKept t.blk [Reg.ST_STATUS.STATE site]
    (∀ (c : Recon) (h a : Nat) (rates : BitVec 8) (rep : BitVec 16), l.recon = some c → l.pinned = none → st = Link.RECONCILING →
      c.hubAgree = some h → c.siteAgree = some a → h < 256 →
      (s.blk.rd Reg.MH_STATUS.READY = 1 ∨ s.blk.groupsFailing site = 0 → Yields (.siteTrained site rates rep 0) s fun t =>
        t.blk.linkState site = Link.TRAINED ∧ t.blk.rd (Reg.ST_STATUS.WIDTH_SET site) = h ∧
        t.blk.rd (Reg.ST_STATUS.RECON_FAILS site) = 0 ∧ (t.blk.rd Reg.MH_SITE_PRESENT.PRESENT).testBit site = true ∧
        t.blk.rd (Reg.ST_STATUS.RATE site) = (if site.val < 12 then 0 else l.rate % 2 ^ (Reg.ST_STATUS.RATE site).w) ∧ (t.blk.site site).link.recon = none ∧
        s.SiteStep t site ∧ t.blk.fc = s.blk.fc ∧ t.blk.out = s.blk.out ∧
        s.blk.FieldsKept t.blk [Reg.ST_STATUS.STATE site, Reg.ST_STATUS.WIDTH_SET site, Reg.ST_STATUS.RATE site,
          Reg.ST_LANE_STATE.REPAIRED site, Reg.ST_STATUS.RECON_FAILS site, Reg.MH_SITE_PRESENT.PRESENT]) ∧
      (∀ bad : BitVec 8, bad ≠ 0 → s.blk.rd (Reg.ST_STATUS.RECON_FAILS site) < 2 → 
        let left := l.passed &&& s.blk.unretired site
        let hub := left - (left &&& (c.failed ||| bad.toNat))
        Yields (.siteTrained site rates rep bad) s fun t =>
        t.blk.rd (Reg.ST_STATUS.RECON_FAILS site) = s.blk.rd (Reg.ST_STATUS.RECON_FAILS site) + 1 ∧
        ((t.blk.site site).link.recon.map fun r => (r.attempt, r.hubSet, r.siteSet, r.failed)) =
          some (c.attempt + 1, some hub, none, c.failed ||| bad.toNat) ∧
        s.SiteStep t site ∧ t.blk.fc = s.blk.fc ∧
        t.blk.out = s.blk.out ++ [.sideband site (Sideband.wire 0x03 l.sbTag (hub + 256 * (c.attempt + 1)) 0)] ∧
        s.blk.FieldsKept t.blk [Reg.ST_STATUS.RECON_FAILS site])) ∧
    (∀ c : Recon, l.recon = some c → st = Link.RECONCILING → c.siteAgree = none →
      s.blk.rd (Reg.ST_STATUS.RECON_FAILS site) = 2 → ∀ passed rates : BitVec 8, Yields (.reconTimeout ⟨site, passed, rates⟩) s fun t =>
        let both := c.hubSet.getD c.lastHub &&& c.siteSet.getD c.lastSite
        let pin := Site.activeSet site (both - (both &&& c.failed))
        t.blk.rd (Reg.ST_STATUS.RECON_FAILS site) = 3 ∧ t.blk.rd (Reg.ST_STATUS.PINNED site) = 1 ∧
        (t.blk.site site).link.pinned = some pin ∧
        (pin ≠ 0 → s.blk.Raised t.blk (Src.site site) Kind.WIDTH_PINNED 0 0 ∧
          t.blk.out = s.blk.out ++ [.sideband site (Sideband.wire 0x05 l.sbTag pin 0)] ∧ s.SiteStep t site)) ∧
    (∀ passed rates : BitVec 8, st = Link.TRAINING → l.hello = true → l.pinned = none → l.recon = none →
      s.blk.rd (Reg.ST_STATUS.RECON_FAILS site) < 2 → Yields (.reconTimeout ⟨site, passed, rates⟩) s fun t =>
        t.blk.linkState site = Link.RECONCILING ∧
        t.blk.rd (Reg.ST_STATUS.RECON_FAILS site) = s.blk.rd (Reg.ST_STATUS.RECON_FAILS site) + 1 ∧
        ((t.blk.site site).link.recon.map fun r => (r.attempt, r.hubSet, r.siteSet)) =
          some (2, some (passed.toNat &&& s.blk.ratedGroups site rates.toNat &&& s.blk.unretired site), none) ∧
        s.SiteStep t site ∧ t.blk.fc = s.blk.fc) ∧
    (∀ (set passed rates : BitVec 8) (a : Fin 4), st = Link.TRAINING → l.hello = true → l.pinned = none → l.recon = none → a.val = 1 →
      let hub := passed.toNat &&& s.blk.ratedGroups site rates.toNat &&& s.blk.unretired site
      let agreed := Site.activeSet site (hub &&& set.toNat)
      agreed ≠ 0 → Yields (.widthPropose site set a ⟨passed, rates⟩) s fun t =>
        t.blk.linkState site = Link.RECONCILING ∧
        ((t.blk.site site).link.recon.map fun r => (r.hubSet, r.siteSet, r.hubAgree)) = some (some hub, some set.toNat, some agreed) ∧
        t.blk.out = s.blk.out ++ [.sideband site (Sideband.wire 0x03 l.sbTag (hub + 256) 0),
          .sideband site (Sideband.wire 0x04 ((l.sbTag + 1) % 256) (agreed + 256) 0)] ∧
        (t.blk.site site).link.rate = s.blk.lowestRate site rates.toNat hub ∧
        s.SiteStep t site ∧ t.blk.fc = s.blk.fc ∧ s.blk.FieldsKept t.blk [Reg.ST_STATUS.STATE site]) ∧
    (∀ (c : Recon) (h : Nat) (a : Fin 4) (set : BitVec 8), l.recon = some c → c.hubAgree = some h → c.siteAgree = none →
      a.val = c.attempt → set.toNat = h → Yields (.widthAgree site set a) s fun t =>
        (t.blk.site site).link = { l with recon := some { c with siteAgree := some h } } ∧ s.SiteStep t site ∧
        t.blk.regs = s.blk.regs ∧ t.blk.fc = s.blk.fc ∧ t.blk.out = s.blk.out) ∧
    (l.trainAt = none → exec (.siteTrainTimeout site) s = .next s) ∧
    (l.trainAt ≠ none → Yields (.siteTrainTimeout site) s fun t =>
      t.blk.linkState site = Link.OFF ∧ (t.blk.rd Reg.MH_SITE_PRESENT.PRESENT).testBit site = false ∧
      (t.blk.site site).link.absent = true ∧ (t.blk.site site).link.srstLow = true ∧
      (t.blk.site site).link.clocksRun = false ∧ s.SiteStep t site ∧ t.blk.fc = s.blk.fc ∧ t.blk.out = s.blk.out ∧
      s.blk.FieldsKept t.blk [Reg.ST_STATUS.STATE site, Reg.MH_SITE_PRESENT.PRESENT]) ∧
    (st = Link.TRAINING → Yields (.linkHello site) s fun t =>
      (t.blk.site site).link = { l with hello := true, heartbeatAt := s.blk.now } ∧ s.SiteStep t site ∧
      t.blk.regs = s.blk.regs ∧ t.blk.fc = s.blk.fc ∧ t.blk.out = s.blk.out) ∧
    (st = Link.LOST → s.blk.rd (Reg.ST_CFG.AUTO_RETRAIN site) = 1 → s.blk.rd (Reg.ST_CFG.EN site) = 1 →
      Yields (.linkHello site) s fun t => starts t ∧ (t.blk.site site).link.hello = true) ∧
    (st = Link.LOST → s.blk.rd (Reg.ST_CFG.AUTO_RETRAIN site) = 0 → exec (.linkHello site) s = .next s) ∧
    (st = Link.LOST ∨ st = Link.OFF → s.blk.rd (Reg.ST_CFG.EN site) = 1 → l.absent = false →
      Yields (.siteRetrain site) s starts) ∧
    (st = Link.RESETTING → Yields (.siteResetRelease site) s starts) ∧
    (st = Link.LOST → s.blk.rd (Reg.ST_CFG.EN site) = 1 → l.absent = false → Yields (.siteReset site) s fun t =>
      t.blk.linkState site = Link.RESETTING ∧ (t.blk.site site).link = { l with srstLow := true, srstAt := s.blk.now, trainAt := none } ∧
      s.SiteStep t site ∧ t.blk.fc = s.blk.fc ∧ t.blk.out = s.blk.out) ∧
    ∀ on : Bool, Yields (.clkHold site on) s fun t =>
      t.blk.rd (Reg.ST_CTRL.CLK_HOLD site) = b01 on ∧
      (t.blk.site site).link = { l with clocksRun := s.blk.is (Reg.ST_CFG.EN site) && !l.absent && (!on || s.blk.enrolled site) } ∧
      s.SiteStep t site ∧ t.blk.fc = s.blk.fc ∧ t.blk.out = s.blk.out ∧ s.blk.FieldsKept t.blk [Reg.ST_CTRL.CLK_HOLD site]) ∧
  (
  ∀ (s : State) (site : SiteNo),
    let st := s.blk.linkState site
    let l := (s.blk.site site).link
    (∀ c cause, (c, cause) ∈ ([(.resetNote site, 4), (.heartbeatTimeout site, 1), (.clockLoss site 0xFF, 2),
        (.sidebandResend site, 7)] : List (Instr × Nat)) →
      st = Link.TRAINED ∨ st = Link.ENROLLED ∨ st = Link.WIDTH_CHANGE → l.hello = true →
      (cause = 7 → (l.waits.head?.map fun w => w.sends) = some 4) → Yields c s fun t =>
        t.blk.linkState site = Link.LOST ∧ t.blk.enrolled site = false ∧
        (∀ k, k ≠ site.val → (t.blk.rd Reg.MH_SITE_PRESENT.ENROLLED).testBit k = (s.blk.rd Reg.MH_SITE_PRESENT.ENROLLED).testBit k) ∧
        (s.blk.rd (Reg.ST_LOSS_LOG.VALID site) = 0 →
          t.blk.rd (Reg.ST_LOSS_LOG.VALID site) = 1 ∧ t.blk.rd (Reg.ST_LOSS_LOG.CAUSE site) = cause) ∧
        (t.blk.site site).tags = [] ∧ (t.blk.site site).disp = [] ∧ (t.blk.site site).txq = [] ∧
        (∀ q r, r ∈ (s.blk.queue q).inflight → r.result = none →
          ((s.blk.site site).disp.any fun e => e.2.any fun d => !d.cancelled && decide (d.queue = q) && decide (d.id = r.id)) = true →
          { r with result := some (Code.SITE_LOST, 0) } ∈ (t.blk.queue q).inflight) ∧
        (∀ e ∈ t.blk.sync.waits, ∀ w ∈ e.2, ∀ a b d, w.who ≠ .site site a b d) ∧
        (t.blk.rd Reg.CO_STATUS.RECLAIM_PENDING).testBit site = true ∧
        (s.blk.coh.txns = [] → t.blk.shelf = s.blk.shelf ∧ t.blk.hbm = s.blk.hbm ∧ s.blk.SitesKept t.blk site ∧ s.blk.FieldsKept t.blk [Reg.ST_STATUS.STATE site, Reg.MH_SITE_PRESENT.ENROLLED,
          Reg.CO_STATUS.RECLAIM_PENDING, Reg.CO_STATUS.RECLAIM_ACTIVE, Reg.PW_SITE_STATUS.MISSED site,
          Reg.PW_SITE_STATUS.DIPPED site, Reg.PW_SITE_STATUS.HM_CAUSE site, Reg.PW_SITE_STATUS.HALFMAST site,
          Reg.ST_LOSS_LOG.LOSSES site, Reg.ST_LOSS_LOG.VALID site, Reg.ST_LOSS_LOG.OVERFLOW site,
          Reg.ST_LOSS_LOG.CAUSE site, Reg.ST_LOSS_LOG.LOST_REQ site, Reg.PW_STATUS.DIP_AUTO]) ∧
        t.fuse = s.fuse ∧
        t.pending = s.pending) ∧
    (st = Link.LOST ∨ st = Link.OFF → exec (.resetNote site) s = .next s) ∧
    (∀ (w : SbWait) (ws : List SbWait), l.waits = w :: ws → w.sends < 4 → Yields (.sidebandResend site) s fun t =>
      t.blk.out = s.blk.out ++ [.sideband site (Sideband.wire w.op w.tag w.data0 w.data1)] ∧
      (t.blk.site site).link = { l with waits := { w with sends := w.sends + 1, since := s.blk.now } :: ws } ∧
      s.SiteStep t site ∧ t.blk.regs = s.blk.regs ∧ t.blk.fc = s.blk.fc) ∧
    (l.hello = true → Yields (.heartbeatSend site) s fun t =>
      t.blk.out = s.blk.out ++ [.sideband site (Sideband.wire 0x02 l.sbTag l.hbSeq 0)] ∧
      (t.blk.site site).link = { l with
        sbTag := (l.sbTag + 1) % 256, hbSeq := (l.hbSeq + 1) % 2 ^ 32, hbSentAt := s.blk.now } ∧
      s.SiteStep t site ∧ t.blk.regs = s.blk.regs ∧ t.blk.fc = s.blk.fc) ∧
    (l.hello = true → Yields (.heartbeat site) s fun t =>
      (t.blk.site site).link = { l with heartbeatAt := s.blk.now } ∧ s.SiteStep t site ∧ t.blk.regs = s.blk.regs ∧
      t.blk.fc = s.blk.fc ∧ t.blk.out = s.blk.out) ∧
    (l.hello = true → ∀ (kind who op : BitVec 8) (addr : BitVec 32) (tag : BitVec 12) (phys : Fin 64),
      ∀ c src k aux a, (c, src, k, aux, a) ∈ ([
          (.errNote site kind who addr, Src.site site, Kind.SITE_NOTE, kind.toNat + who.toNat * 256, addr.toNat),
          (.coreFail site phys, Src.siteCore site phys, Kind.SITE_CORE_FAIL, 0, 0),
          (.protoNote site op tag, Src.site site, Kind.SWP_BREACH, tag.toNat, op.toNat)] : List (Instr × Nat × Nat × Nat × Nat)) →
        Yields c s fun t => s.blk.Raised t.blk src k aux a ∧ t = { s with blk := { s.blk with fc := t.blk.fc } }) ∧
    (∀ msg : BitVec 128, Sideband.valid msg.toNat = true → exec (.sidebandInvalid ⟨site, msg⟩) s = .next s) ∧
    (∀ msg : BitVec 128, Sideband.valid msg.toNat = false → Yields (.sidebandInvalid ⟨site, msg⟩) s fun t =>
      t.blk.rd (Reg.ST_SB_ERR.COUNT site) = satAdd (Reg.ST_SB_ERR.COUNT site).w (s.blk.rd (Reg.ST_SB_ERR.COUNT site)) 1 ∧
      OnlyFields s t [Reg.ST_SB_ERR.COUNT site]) ∧
    ∀ new, l.widthChange = some new → ∀ (last : BitVec 12) (tag : BitVec 8), new < 16 → site.val < 12 → l.txWait = [] →
      new = Site.activeSet site (s.blk.unretired site) → new ≠ 0 → (l.held.all fun f => decide (f.seq ≠ last.toNat)) = true →
      (l.waits.any fun w => decide (w.op = 6) && decide (w.tag = tag.toNat)) = true → Yields (.widthAck site ⟨tag, last⟩) s fun t =>
        t.blk.rd (Reg.ST_STATUS.WIDTH_SET site) = new ∧
        t.blk.linkState site = (if s.blk.enrolled site then Link.ENROLLED else Link.TRAINED) ∧
        (t.blk.site site).link.widthChange = none ∧ (t.blk.site site).link.held = l.held ∧
        t.blk.out = s.blk.out ++ l.held.map (fun f => .frame site (t.blk.frameGroup site f.seq)
          (withCrc16 (Frame.body 0 f.seq ((l.rxNext + 4095) % 4096) l.rxAny f.payload))) ∧
        s.SiteStep t site ∧ t.blk.fc = s.blk.fc ∧
        s.blk.FieldsKept t.blk [Reg.ST_STATUS.STATE site, Reg.ST_STATUS.WIDTH_SET site])

/-- RD, WR, ADD, WR_BLOCK, RD_BLOCK, SYNC_WAIT and packets that are turned away (R174, R176, R178, R182–R186): each request is answered once and its
credits returned; a failed access answers its status; a crossing of 256 bytes, the site's own window and a context that is not live make no access; an
unlisted packet is counted, captured and reported. Answers to the hub and what is not answered (R177, R189, R190, R192, R196): data or a status ends a
window request, whose tag is free again; DONE completes its DISPATCH, an unlisted status as SWP_WORK_FAILED, and nothing of a cancelled one; a late
response is only counted; a request not answered in time ends, its tag still in use. -/
def Obligations.SitePackets : Prop :=
  (
  ∀ (s : State) (site : SiteNo) (h : PacketHdr),
    let resp (st : Nat) : Packet := Packet.short 0x41 h.tag.toNat 0 0 st
    (∀ w d, s.blk.swpWho site h.core h.ctx.toNat = .ok (w, d) →
      let len := h.len.toNat + 1
      (h.addr.toNat % 256 + len ≤ 256 → s.blk.ownWindow site h.addr.toNat = false →
        (∀ p, p = Packet.of 0x01 h [] → s.blk.Hears site p →
          ∀ b st ds, (s.blk.heard site p).dla w h.addr.toNat len .read = (b, st, ds) → b.ext.need = [] → Yields (.rd site h) s fun t =>
            s.Answers t site b p (if st = Code.SUCCESS then
              ⟨0x40, ceilDiv ds.length 16, h.tag.toNat, h.len.toNat, 0, 0, 0, 0, 0, sliceBytes ds 0 (16 * ceilDiv ds.length 16)⟩ else resp st)) ∧
        (∀ data p, p = Packet.of 0x02 h data → s.blk.Hears site p →
          ∀ b st ds, (s.blk.heard site p).dla w h.addr.toNat len (.write (sliceBytes data 0 len)) = (b, st, ds) → b.ext.need = [] →
          Yields (.wr site h data) s fun t => s.Answers t site b p (resp st)) ∧
        (∀ data p, p = Packet.of 0x04 h data → s.blk.Hears site p → ∀ b1, (s.blk.heard site p).checkReq w h.addr.toNat .a = (b1, none) →
          let f := Swp.addFmt h.attr.toNat
          let fits := s.blk.sealable h.addr.toNat ∧ h.addr.toNat % f.bytes = 0 ∧ len % f.bytes = 0
          (fits → ∀ b st ds, b1.perform w h.addr.toNat len (.add f (sliceBytes data 0 len)) = (b, st, ds) → b.ext.need = [] →
            Yields (.swpAdd site h data) s fun t => s.Answers t site b p (resp st)) ∧
          (¬ fits → Yields (.swpAdd site h data) s fun t => s.Answers t site b1 p (resp Code.SWP_NOT_ADDABLE)))) ∧
      (∀ data c p, (c, p) ∈ ([(.rd site h, Packet.of 0x01 h []), (.wr site h data, Packet.of 0x02 h data),
          (.swpAdd site h data, Packet.of 0x04 h data)] : List (Instr × Packet)) → s.blk.Hears site p →
        (256 < h.addr.toNat % 256 + len → Yields c s fun t => s.Answers t site (s.blk.heard site p) p (resp Code.SWP_BAD_PACKET)) ∧
        (h.addr.toNat % 256 + len ≤ 256 → s.blk.ownWindow site h.addr.toNat = true →
          Yields c s fun t => s.Answers t site (s.blk.heard site p) p (resp Code.SWP_OWN_WINDOW))) ∧
      (∀ data p, p = Packet.of 0x03 h data → s.blk.Hears site p → h.addr.toNat % 4096 = 0 → s.blk.sealable h.addr.toNat = true →
        h.attr.toNat.testBit 0 = true → ∀ e, d = some e → ∀ b1, (s.blk.heard site p).checkBlock w h.addr.toNat .w = (b1, none) →
        ∀ b st, b1.dlaWriteBlock w h.addr.toNat (sliceBytes data 0 4096)
          (Seal.make (sliceBytes data 0 4096) (0x400 + 64 * site + h.core) e.epoch 0 (bit (leAt data 4096 8) 62)) = (b, st) →
        b.ext.need = [] → Yields (.wrBlock site h data) s fun t => s.Answers t site b p (resp st)) ∧
      (∀ p, p = Packet.of 0x05 h [] → s.blk.Hears site p → h.addr.toNat % 4096 = 0 → s.blk.sealable h.addr.toNat = true →
        h.attr.toNat.testBit 0 = false → ∀ q, q = (s.blk.heard site p).dlaReadBlock w h.addr.toNat → q.2.1 = Code.SUCCESS →
        q.1.ext.need = [] → q.2.2.1.length = 4096 → Yields (.rdBlock site h) s fun t =>
          s.Answers t site q.1 p ⟨0x44, 257, h.tag.toNat, 0, 0, 0, 0, 0, 0,
            q.2.2.1 ++ natLE 8 (if Seal.present q.2.2.2 then q.2.2.2 else 0) ++ zeros 8⟩) ∧
      (∀ (target : Word) (p : Packet), p = Packet.of 0x06 h (natLE 16 target.toNat) → s.blk.Hears site p →
        s.blk.range h.addr.toNat = .sync → h.addr.toNat % 8 = 0 →
        ∀ b1, (s.blk.heard site p).checkReq w h.addr.toNat .r = (b1, none) →
        let obj := (h.addr.toNat - Dla.syncBase) / 8
        NSet.has s.blk.sync.lostHomes (Sync.homeOf obj) = false → Yields (.syncWait site h target) s fun t =>
          ((t.blk.waitsAt (Sync.homeOf obj)).drop (s.blk.waitsAt (Sync.homeOf obj)).length).map (fun x => (x.obj, x.target, x.who, x.limitUs)) =
            [(obj, target.toNat, .site site h.tag.toNat h.core h.ctx.toNat, h.param.toNat)] ∧
          NSet.has (t.blk.site site).siteTags h.tag.toNat = true ∧ b1.packetsTo t.blk site = [p.creditOf] ∧
          (t.blk.site site).credits = (s.blk.site site).credits ∧
          t = { s with blk := { b1 with
            regs := t.blk.regs, sites := t.blk.sites, sync := t.blk.sync, out := t.blk.out, ext := t.blk.ext } })) ∧
    (∀ st, s.blk.swpWho site h.core h.ctx.toNat = .error st → ∀ data c p, (c, p) ∈ ([(.rd site h, Packet.of 0x01 h []),
        (.wr site h data, Packet.of 0x02 h data), (.wrBlock site h data, Packet.of 0x03 h data), (.swpAdd site h data, Packet.of 0x04 h data),
        (.rdBlock site h, Packet.of 0x05 h []), (.syncWait site h 0, Packet.of 0x06 h (natLE 16 0))] : List (Instr × Packet)) →
      s.blk.Hears site p → Yields c s fun t => s.Answers t site (s.blk.heard site p) p (resp st)) ∧
    ∀ (op : BitVec 8) (units : Fin 512), s.blk.linkState site = Link.ENROLLED → s.blk.enrolled site = true →
      Swp.units op.toNat h.len.toNat = none → 0x40 ≤ op.toNat → s.blk.rd (Reg.ST_SWP_ERR_LOG.VALID site) = 0 →
      Yields (.unlistedPacket site op units h) s fun t =>
        t.blk.rd (Reg.ST_SWP_PROTO_ERR.COUNT site) = satAdd (Reg.ST_SWP_PROTO_ERR.COUNT site).w (s.blk.rd (Reg.ST_SWP_PROTO_ERR.COUNT site)) 1 ∧
        t.blk.rd (Reg.ST_SWP_ERR_LOG.VALID site) = 1 ∧ t.blk.rd (Reg.ST_SWP_ERR_LOG.OPCODE site) = op.toNat ∧
        t.blk.rd (Reg.ST_SWP_ERR_LOG.TAG site) = h.tag.toNat ∧
        s.blk.Raised t.blk (Src.site site) Kind.SWP_BREACH h.tag.toNat op.toNat ∧
        t = { s with blk := { s.blk with regs := t.blk.regs, fc := t.blk.fc } } ∧
        s.blk.FieldsKept t.blk [Reg.ST_SWP_PKT_RX.COUNT site, Reg.ST_SWP_PROTO_ERR.COUNT site, Reg.ST_SWP_ERR_LOG.VALID site,
          Reg.ST_SWP_ERR_LOG.OPCODE site, Reg.ST_SWP_ERR_LOG.TAG site, Reg.ST_SWP_ERR_LOG.STATUS site,
          Reg.ST_SWP_ERR_LOG.CORE site]) ∧
  (
  ∀ (s : State) (site : SiteNo) (h : PacketHdr), s.blk.linkState site = Link.ENROLLED → s.blk.enrolled site = true →
    s.blk.fc.opened = [] → s.blk.fc.recoveries = [] →
    let tag := h.tag.toNat
    let rx := Reg.ST_SWP_PKT_RX.COUNT site
    let freed (t : State) : Prop := t.blk.tag site tag = none ∧ (∀ k, k ≠ tag → t.blk.tag site k = s.blk.tag site k) ∧
      s.blk.SitesKept t.blk site
    (∀ n at', s.blk.tag site tag = some ⟨.window n, at', false⟩ → s.blk.ext.sent = [n] → (s.blk.site site).owed = [] →
      let ends (t : State) (st : Nat) (ds : List Byte) : Prop :=
        freed t ∧ t.blk.ext = { s.blk.ext with sent := [], done := s.blk.ext.done ++ [⟨n, st, ds⟩] } ∧
        t = { s with blk := { s.blk with regs := t.blk.regs, sites := t.blk.sites, ext := t.blk.ext, fc := t.blk.fc } }
      (∀ data : List Byte, n.op = .read → Yields (.rdData site h data) s fun t =>
        ends t Code.SUCCESS (sliceBytes data 0 n.len) ∧ s.blk.FieldsKept t.blk [rx] ∧ t.blk.fc = s.blk.fc) ∧
      (∀ data : List Byte, n.op ≠ .read → Yields (.rdData site h data) s fun t =>
        ends t Code.SWP_BAD_PACKET [] ∧ s.blk.FieldsKept t.blk [rx] ∧ s.blk.Raised t.blk (Src.site site) Kind.SWP_BREACH tag 0x40) ∧
      (n.op ≠ .read ∨ h.param ≠ 0 → Yields (.resp site h) s fun t =>
        ends t (if h.param.toNat / 256 ≤ 0x13 then h.param.toNat else Code.SWP_WINDOW_ERROR) []) ∧
      Yields (.windowReqTimeout site h.tag) s fun t =>
        t.blk.tag site tag = some ⟨.window n, at', true⟩ ∧
        t.blk.ext = { s.blk.ext with sent := [], done := s.blk.ext.done ++ [⟨n, Code.SWP_RESP_TIMEOUT, []⟩] } ∧
        t = { s with blk := { s.blk with sites := t.blk.sites, ext := t.blk.ext } } ∧ s.blk.SitesKept t.blk site) ∧
    (∀ n at', s.blk.tag site tag = some ⟨.window n, at', false⟩ → s.blk.freeTag site 4096 = none → (s.blk.site site).txq = [] →
      ∀ r, (s.blk.site site).owed.head? = some r → (s.blk.site site).credits.allow r.packet = true → h.param ≠ 0 →
      Yields (.resp site h) s fun t =>
        t.blk.tag site tag = some ⟨r.use, s.blk.now, false⟩ ∧ (t.blk.site site).owed = (s.blk.site site).owed.drop 1 ∧
        s.blk.packetsTo t.blk site = [{ r.packet with tag := tag }] ∧ s.blk.SitesKept t.blk site) ∧
    (s.blk.tag site tag = none → ∀ (data : List Byte), Yields (.rdData site h data) s fun t =>
      t.blk.rd (Reg.ST_SWP_LATE_RSP.COUNT site) = satAdd (Reg.ST_SWP_LATE_RSP.COUNT site).w (s.blk.rd (Reg.ST_SWP_LATE_RSP.COUNT site)) 1 ∧
      s.blk.FieldsKept t.blk [rx, Reg.ST_SWP_LATE_RSP.COUNT site] ∧ (∀ k, t.blk.tag site k = s.blk.tag site k) ∧
      t = { s with blk := { s.blk with regs := t.blk.regs, sites := t.blk.sites } } ∧ s.blk.SitesKept t.blk site) ∧
    (∀ at' d, s.blk.tag site tag = some ⟨.dispatch, at', false⟩ → s.blk.dispatchOf site tag = some d → (s.blk.site site).owed = [] →
      let j : Job := ⟨d.slice, d.gen, d.epoch, d.queue, d.id, d.ensign, []⟩
      (∀ count : Word, Yields (.done site h count) s fun t =>
        freed t ∧ t.blk.dispatchOf site tag = none ∧
        (d.cancelled = true ∨ s.blk.gen d.slice ≠ d.gen → t.blk.queues = s.blk.queues) ∧
        (d.cancelled = false → s.blk.gen d.slice = d.gen → s.blk.Reported t.blk j
          (if 0x13 < h.param.toNat / 256 ∨ h.param = 0 ∧ NSet.has (s.blk.site site).fencedCores h.core then Code.SWP_WORK_FAILED
            else h.param.toNat) count.toNat) ∧
        t = { s with blk := { s.blk with regs := t.blk.regs, sites := t.blk.sites, queues := t.blk.queues, fc := t.blk.fc } }) ∧
      (d.cancelled = false → (s.blk.site site).txq = [] → (s.blk.site site).credits.hubReqH ≠ 0 → s.blk.sync.waits = [] →
        ∀ c, s.blk.freeTag site 4096 = some c → Yields (.dispatchTimeout site h.tag) s fun t =>
          t.blk.dispatchOf site tag = some { d with cancelled := true } ∧ s.blk.Reported t.blk j Code.SWP_DISPATCH_TIMEOUT 0 ∧
          t.blk.tag site c = some ⟨.cancel tag (d.core.getD 0), s.blk.now, false⟩ ∧
          s.blk.packetsTo t.blk site = [⟨0x21, 0, c, 0, 0, tag, 0, 0, 0, []⟩] ∧ s.blk.SitesKept t.blk site ∧
          t = { s with blk := { s.blk with regs := t.blk.regs, sites := t.blk.sites, queues := t.blk.queues, sync := t.blk.sync
                                           out := t.blk.out } }) ∧
      (d.cancelled = true → exec (.dispatchTimeout site h.tag) s = .next s)) ∧
    (∀ ctx phys at', s.blk.tag site tag = some ⟨.cancel ctx phys, at', false⟩ → Yields (.cancelTimeout site h.tag) s fun t =>
      t.blk.tag site tag = some ⟨.cancel ctx phys, at', true⟩ ∧ s.blk.SitesKept t.blk site ∧
      (s.blk.pennant (Src.siteCore site phys) Kind.SITE_CORE_UNRESPONSIVE 0 0).fc.inQ = t.blk.fc.inQ ∧
      t = { s with blk := { s.blk with regs := t.blk.regs, sites := t.blk.sites, fc := t.blk.fc } }) ∧
    (∀ rq rd sn : BitVec 8, (s.blk.site site).txq = [] → Yields (.credit site rq rd sn) s fun t =>
      (t.blk.site site).credits = { (s.blk.site site).credits with
        hubReqH := (s.blk.site site).credits.hubReqH + rq.toNat, hubReqD := (s.blk.site site).credits.hubReqD + rd.toNat
        hubSnpH := (s.blk.site site).credits.hubSnpH + sn.toNat } ∧
      t = { s with blk := { s.blk with regs := t.blk.regs, sites := t.blk.sites } } ∧ s.blk.SitesKept t.blk site ∧
      s.blk.FieldsKept t.blk [rx]) ∧
    ∀ w k, s.blk.sync.waits = [(k, [w])] → ∀ core ctx, w.who = .site site tag core ctx → w.satisfied = false → w.limitUs ≠ 0 →
      (s.blk.site site).txq = [] → Yields (.siteWaitTimeout site h.tag) s fun t =>
        t.blk.sync.waits = [] ∧ t.blk.sync.vals = s.blk.sync.vals ∧
        s.blk.packetsTo t.blk site = [Packet.short 0x41 tag 0 0 Code.SYNC_WAIT_TIMEOUT] ∧
        NSet.has (t.blk.site site).siteTags tag = false ∧ s.blk.SitesKept t.blk site ∧
        t = { s with blk := { s.blk with regs := t.blk.regs, sites := t.blk.sites, sync := t.blk.sync, out := t.blk.out } })

/-- BURGEE, ENROL_TIMEOUT and DISPATCH (R179–R181, R188): a good burgee enrols the site, maps the lowest good cores, fences the others and is answered
with them; one that fails a check leaves burgee and map; the third unanswered request fails enrolment; DISPATCH is checked in R188's order and sends
one packet. -/
def Obligations.EnrolAndDispatch : Prop :=
  ∀ s : State,
    (∀ (site : SiteNo) (data : List Byte), s.blk.linkState site = Link.TRAINED → s.blk.enrolled site = false →
      (s.blk.site site).enrol ≠ .idle →
      let good := bitList (leAt data 0x18 8) 64
      let cs := good.take (s.blk.rd (Reg.ST_SWP_CFG.ACTIVE_CORES site))
      let rec' := sliceBytes data 0 256
      (s.blk.burgeeCheck site rec' = Code.SUCCESS → Yields (.burgee site data) s fun t =>
        t.blk.linkState site = Link.ENROLLED ∧ t.blk.enrolled site = true ∧ t.blk.rd (Reg.ST_SWP_ENROL.LAST_STATUS site) = 0 ∧
        (t.blk.site site).enrol = .idle ∧ (∀ c : Fin 64, t.blk.siteCoreMap site c = cs[c.val]?) ∧
        (t.blk.site site).fencedCores = (List.range 64).filter (fun p => !cs.contains p) ∧
        (t.blk.site site).credits = ⟨leAt data 0x2C 2, leAt data 0x2E 2,
          (if bits (leAt data 0x20 1) 0 7 = 0 then 0 else leAt data 0x30 2), 256, 1024, 128, 128⟩ ∧
        s.blk.packetsTo t.blk site = [⟨0x2A, 1, 0, 0, 0, 0, 0, 0, 0,
          natLE 8 ((cs.map fun c => 2 ^ c).sum) ++ natLE 2 256 ++ natLE 2 1024 ++ natLE 2 128 ++ natLE 2 128⟩] ∧
        t = { s with blk := { s.blk with regs := t.blk.regs, sites := t.blk.sites, out := t.blk.out, fc := t.blk.fc } } ∧
        s.blk.SitesKept t.blk site) ∧
      (∀ st, s.blk.burgeeCheck site rec' = st → st ≠ Code.SUCCESS → Yields (.burgee site data) s fun t =>
        t.blk.linkState site = Link.TRAINED ∧ t.blk.enrolled site = false ∧ t.blk.rd (Reg.ST_SWP_ENROL.LAST_STATUS site) = st ∧
        (∀ c : Fin 64, t.blk.siteCoreMap site c = s.blk.siteCoreMap site c) ∧
        (∀ n : Fin 32, t.blk.rd (Reg.ST_SWP_BURGEE.DATA site n) = s.blk.rd (Reg.ST_SWP_BURGEE.DATA site n)) ∧
        s.blk.packetsTo t.blk site = [⟨0x2A, 1, 0, 0, 0, 0, 0, 0, st, zeros 16⟩] ∧
        t = { s with blk := { s.blk with regs := t.blk.regs, sites := t.blk.sites, out := t.blk.out, fc := t.blk.fc } } ∧
        s.blk.SitesKept t.blk site)) ∧
    (∀ (site : SiteNo) (n at' : Nat), (s.blk.site site).enrol = .asked n at' →
      (n < 3 → Yields (.enrolTimeout site) s fun t =>
        (t.blk.site site).enrol = .asked (n + 1) s.blk.now ∧
        s.blk.packetsTo t.blk site = [⟨0x28, 1, 0, 0, 0, 0, 0, 0, 0, natLE 16 (1 + 2 ^ 16 * site)⟩] ∧ s.SiteStep t site) ∧
      (3 ≤ n → Yields (.enrolTimeout site) s fun t =>
        (t.blk.site site).enrol = .idle ∧ t.blk.rd (Reg.ST_SWP_ENROL.LAST_STATUS site) = Code.SWP_ENROL_TIMEOUT ∧
        s.blk.Raised t.blk (Src.site site) Kind.ENROL_FAIL Code.SWP_ENROL_TIMEOUT 0 ∧ s.SiteStep t site ∧
        t.blk.linkState site = s.blk.linkState site)) ∧
    ∀ (slice : SliceNo) (cls : ClassNo) (cmd : FCmd), s.blk.Ready slice cls cmd 0x05 →
      Hoist.check cls cmd (Hoist.dispatchCheck cmd) = none → (s.blk.q slice cls).stopping = false →
      (s.blk.q slice cls).replay = [] →
      let site := bits (cmd.w 2) 0 4
      (∀ st, s.blk.dispatchStatus slice cmd = some st → s.blk.cringFull slice = true → (s.blk.slice slice).entries = [] →
        s.blk.qState slice cls ≠ Q.ERROR → Yields (.dispatch slice cls) s fun t =>
          t.blk.qState slice cls = Q.ERROR ∧ t.blk.rd (Reg.SL_Q_STATUS.ERR_STATUS slice cls) = st ∧
          ((t.blk.slice slice).entries.map fun e => (e.kind, e.status)) = [(3, st)] ∧ t.blk.sites = s.blk.sites ∧
          t = { s with blk := { s.blk with regs := t.blk.regs, queues := t.blk.queues, slices := t.blk.slices, ext := t.blk.ext } }) ∧
      (s.blk.dispatchStatus slice cmd = none → s.blk.dispatchFenced cmd = false → (s.blk.site site).txq = [] → s.blk.linkUp site = true →
        1 ≤ (s.blk.site site).credits.hubReqH → 1 ≤ (s.blk.site site).credits.hubReqD → ∀ n, s.blk.freeTag site 4095 = some n →
        Yields (.dispatch slice cls) s fun t =>
          let any := bit (cmd.w 2) 10
          let core := if any then none else s.blk.siteCoreMap site (bits (cmd.w 2) 4 6)
          s.blk.packetsTo t.blk site = [⟨0x20, 2, n, 0, core.getD 0, n, b01 any, Ptr.addr (cmd.w 3), s.blk.epoch slice,
            natLE 8 (cmd.w 4) ++ natLE 8 (cmd.w 5) ++ natLE 8 (cmd.w 6) ++ zeros 8⟩] ∧
          ((t.blk.dispatchOf site n).map fun d => (d.slice, d.core, d.queue, d.id, d.cancelled)) =
            some (slice.val, core, 4 * slice.val + cls.val, (s.blk.q slice cls).nextId, false) ∧
          (t.blk.site site).credits = { (s.blk.site site).credits with
            hubReqH := (s.blk.site site).credits.hubReqH - 1, hubReqD := (s.blk.site site).credits.hubReqD - 1 } ∧
          ((t.blk.q slice cls).inflight.map fun r => r.cmd) = [cmd] ∧ s.blk.QueuesKept t.blk slice cls ∧ s.blk.SitesKept t.blk site ∧
          t = { s with blk := { s.blk with
            regs := t.blk.regs, queues := t.blk.queues, sites := t.blk.sites, out := t.blk.out, ext := t.blk.ext } }) ∧
      (s.blk.dispatchStatus slice cmd = none → s.blk.freeTag site 4095 = none ∨ s.blk.dispatchFenced cmd = true → Yields (.dispatch slice cls) s fun t =>
        t = { s with blk := { s.blk with ext := t.blk.ext } })

/-- C_RD_S, C_RD_O, C_UPG, C_WB and C_EVICT (R198, R204, R205, R208): each request runs its row of Table COH-6: with nothing to snoop it is answered at
once, from memory, and the directory takes the row's next state; with a snoop it waits for its answer; a request for an open line is NACKed and
changes no entry; a C_WB of the owner writes memory, one of another agent is a breach. Answers to snoops, the hold window, reservations and reclaim
(R205–R207, R209, R210, R213, R215, R217): the owner's data reaches the requester and, kept by it, is not written to memory; NOCOPY serves the request
from memory; an owner that does not answer in time loses the line, which is poisoned; the hold window's end reserves the line for the first agent
NACKed. -/
def Obligations.Coherence : Prop :=
  (
  ∀ (s : State) (site : SiteNo) (h : PacketHdr), h.attr = 0 →
    let line := h.addr.toNat / 64
    let r := 64 * site.val + h.core.val
    let answer (op attr st : Nat) (d : List Byte) : Packet := ⟨op, d.length / 16, h.tag.toNat, 0, h.core, 0, attr, 0, st, d⟩
    let grant := answer 0x58
    (∀ c op code, (c, op, code) ∈ ([(.cRdS site h none, .rdS, 0x30), (.cRdO site h none, .rdO, 0x31), (.cUpg site h none, .upg, 0x32)] :
        List (Instr × CReq × Nat)) →
      ∀ p, p = Packet.of code h [] → s.blk.Hears site p →
      (s.blk.CohReady ⟨op, r, h.tag.toNat, line⟩ → s.blk.rd Reg.CO_CFG.HOLD_CYC ≠ 0 →
        ∀ n, s.blk.cohWin (line * 64) = some n → ∀ mem, s.blk.lineRead line = (s.blk, Code.SUCCESS, mem) →
        (∀ e, s.blk.dirEntry line = some e → e.bunt = false) →
        (s.blk.lineState line = none → (s.blk.freeWay line).isSome = true → Yields c s fun t =>
          if op = .rdS ∧ s.blk.rd (Reg.CO_WIN00.GRANT_E n) = 0 then s.CohDone t site p (grant 1 0 mem) line .shr [r]
          else if op = .rdS then s.CohDone t site p (grant 2 0 mem) line .own [r] else s.CohDone t site p (grant 3 0 mem) line .own [r]) ∧
        (∀ ps, s.blk.lineState line = some (.shr, false, ps) →
          (op = .rdS → r ∉ ps → ps.length < 4 → ((s.blk.dirEntry line).map fun e => e.ptrs) = some (ptrs4 (ps.map some)) →
            Yields c s fun t => s.CohDone t site p (grant 1 0 mem) line .shr (ps ++ [r])) ∧
          (op ≠ .rdS → ps = [r] → Yields c s fun t =>
            s.CohDone t site p (if op = .upg then answer 0x59 3 0 [] else grant 3 0 mem) line .own [r]) ∧
          (∀ o, ps.filter (fun a => a ≠ r) = [o] → op ≠ .rdS → s.blk.enrolled (o / 64) = true → o / 64 ≠ site →
            (s.blk.site (o / 64)).txq = [] → 1 ≤ (s.blk.site (o / 64)).credits.hubSnpH → s.blk.linkUp (o / 64) = true →
            (s.blk.freeTag (o / 64) 4096).isSome = true → (s.blk.site (o / 64)).owed = [] → Yields c s fun t => s.CohAsks t site p line o 0x38 0)) ∧
        (∀ o, s.blk.lineState line = some (.own, false, [o]) →
          (o = r → Yields c s fun t =>
            s.CohDone t site p (match op with | .upg => answer 0x59 3 0 [] | .rdS => grant 2 0 mem | _ => grant 3 0 mem) line .own [r]) ∧
          (o ≠ r → s.blk.enrolled (o / 64) = true → o / 64 ≠ site →
            (s.blk.site (o / 64)).txq = [] → 1 ≤ (s.blk.site (o / 64)).credits.hubSnpH → s.blk.linkUp (o / 64) = true →
            (s.blk.freeTag (o / 64) 4096).isSome = true → (s.blk.site (o / 64)).owed = [] →
            Yields c s fun t => s.CohAsks t site p line o 0x3A (if op = .rdS then 0 else 1))) ∧
        (∀ ps, s.blk.lineState line = some (.fsh, false, ps) → ∀ o, ps.head? = some o →
          ((s.blk.dirEntry line).map fun e => e.head) = some o → op = .rdS ∧ s.blk.enrolled (o / 64) = true → o / 64 ≠ site →
          (s.blk.site (o / 64)).txq = [] → 1 ≤ (s.blk.site (o / 64)).credits.hubSnpH → s.blk.linkUp (o / 64) = true →
          (s.blk.freeTag (o / 64) 4096).isSome = true → (s.blk.site (o / 64)).owed = [] →
          Yields c s fun t => s.CohAsks t site p line o 0x3A 0)) ∧
      (∀ x, s.blk.coh.txns = [x] → x.line = line → s.blk.cohCheck ⟨op, r, h.tag.toNat, line⟩ = none → Yields c s fun t =>
        s.blk.packetsTo t.blk site = [answer 0x5A 0 (s.blk.rd Reg.CO_CFG.NACK_HINT) [], p.creqCreditOf] ∧
        t.blk.coh = { s.blk.coh with txns := [if x.nacked.isNone then { x with nacked := some r } else x] } ∧
        s.CohStep t ∧ s.blk.SitesKept t.blk site) ∧
      (∀ st, s.blk.cohCheck ⟨op, r, h.tag.toNat, line⟩ = some st → Yields c s fun t =>
        s.blk.packetsTo t.blk site = [answer 0x59 0 st [], p.creqCreditOf] ∧ t.blk.coh = s.blk.coh ∧
        t.blk.fc = (if st = Code.COH_NOT_COHERENT then s.blk
          else s.blk.refuse ⟨.siteWhole site, none, 0, 0⟩ Kind.FIREWALL_DENIED (line * 64)).fc ∧
        s.CohStep { t with blk := { t.blk with fc := s.blk.fc } } ∧ s.blk.SitesKept t.blk site)) ∧
    (∀ data p, p = Packet.of 0x33 h data → s.blk.Hears site p → s.blk.CohReady ⟨.wb, r, h.tag.toNat, line⟩ →
      s.blk.range (line * 64) = .shelf → s.blk.groupStruck (Shelf.group (line * 64)) = false →
      (∀ wa ∈ wordsOf (line * 64) 64, NSet.has s.blk.shelf.poison wa = false ∧ SMap.get (fun _ => 0) s.blk.shelf.upset wa = 0) →
      (s.blk.lineState line = some (.own, false, [r]) → Yields (.cWb site h data) s fun t =>
        t.blk.lineState line = none ∧
        (∀ a, t.blk.shelfByte a = if line * 64 ≤ a ∧ a < line * 64 + 64 then (sliceBytes data 0 64).getD (a - line * 64) 0 else s.blk.shelfByte a) ∧
        s.blk.packetsTo t.blk site = [answer 0x5B 0 0 [], p.creqCreditOf] ∧ s.CohStep { t with blk := { t.blk with shelf := s.blk.shelf } } ∧
        s.blk.SitesKept t.blk site) ∧
      (s.blk.lineState line = none ∨ (∃ ps, s.blk.lineState line = some (.shr, false, ps)) → Yields (.cWb site h data) s fun t =>
        t.blk.coh = s.blk.coh ∧ s.blk.packetsTo t.blk site = [answer 0x5B 0 Code.COH_PROTOCOL [], p.creqCreditOf] ∧
        s.blk.Raised t.blk Src.coherence Kind.COH_PROTOCOL r (line * 64) ∧
        s.CohStep { t with blk := { t.blk with fc := s.blk.fc } } ∧ s.blk.SitesKept t.blk site)) ∧
    ∀ p, p = Packet.of 0x34 h [] → s.blk.Hears site p → s.blk.CohReady ⟨.evict, r, h.tag.toNat, line⟩ → Yields (.cEvict site h) s fun t =>
      s.blk.packetsTo t.blk site = [answer 0x5B 0 0 [], p.creqCreditOf] ∧ s.CohStep t ∧ s.blk.SitesKept t.blk site ∧
      t.blk.lineState line = (match s.blk.lineState line with
        | some (.own, u, o :: ps) => if o = r then none else some (.own, u, o :: ps)
        | some (.shr, u, ps) => if ps.filter (fun a => a ≠ r) = [] ∧ u = false ∧ ps ≠ [] then none else some (.shr, u, ps.filter (fun a => a ≠ r))
        | some (.fsh, u, f :: ps) => some (.fsh, u, f :: ps.filter (fun a => a ≠ r ∨ r = f))
        | x => x)) ∧
  (
  ∀ s : State, s.blk.rd Reg.CO_CFG.HOLD_CYC ≠ 0 →
    (∀ (site rs : SiteNo) (tag : BitVec 12) (line o at' : Nat) (x : Txn) (m : CMsg) (y : SnpOut),
      s.blk.tag site tag.toNat = some ⟨.snoop line o, at', false⟩ → s.blk.coh.txns = [x] → x.line = line → x.kind = .request m →
      x.snoops = [y] → y.agent = o → x.hold = none → x.gone = [] → x.data = none → x.dirty = false → x.wbFrom = [] → x.lost = none → x.purging = false →
      x.wb = none → (s.blk.site site).owed = [] →
      m.line = line → m.agent / 64 = rs → s.blk.enrolled rs = true → s.blk.linkUp rs = true → (s.blk.site rs).txq = [] →
      s.blk.enrolled site = true → s.blk.linkUp site = true → s.blk.lineState line = some (.own, false, [o]) → o ≠ m.agent → m.op = .rdS ∨ m.op = .rdO →
      let hold := some (s.blk.now + s.blk.rd Reg.CO_CFG.HOLD_CYC)
      let answer (op attr st : Nat) (d : List Byte) : Packet := ⟨op, d.length / 16, m.tag, 0, m.agent % 64, 0, attr, 0, st, d⟩
      (∀ (h : PacketHdr) (data : List Byte) (dirty : Bool), h.tag = tag → h.attr = (if dirty then 1 else 0) →
        Yields (.snpData site h data) s fun t =>
          s.blk.packetsTo t.blk rs = [answer 0x58 (if m.op = .rdS then 1 else 3) 0 (sliceBytes data 0 64)] ∧
          t.blk.lineState line = some (if m.op = .rdS then (if dirty then (.fsh, false, [o, m.agent]) else (.shr, false, [o, m.agent]))
            else (.own, false, [m.agent])) ∧
          (t.blk.coh.txns.map fun x => (x.line, x.hold)) = [(line, hold)] ∧ t.blk.tag site tag.toNat = none ∧ s.CohStep t) ∧
      (∀ (h : PacketHdr) (mem : List Byte), h.tag = tag → h.attr = 1 → s.blk.lineRead line = (s.blk, Code.SUCCESS, mem) →
        (s.blk.cohWin (line * 64)).isSome = true → Yields (.snpAck site h) s fun t =>
          ∃ g : Nat, s.blk.packetsTo t.blk rs = [answer 0x58 g 0 mem] ∧
            (if m.op = .rdO then g = 3 ∧ t.blk.lineState line = some (.own, false, [m.agent])
              else g = 1 ∧ t.blk.lineState line = some (.shr, false, [m.agent]) ∨
                g = 2 ∧ t.blk.lineState line = some (.own, false, [m.agent])) ∧ s.CohStep t) ∧
      (∀ h : PacketHdr, h.tag = tag → h.attr = 2 → Yields (.snpAck site h) s fun t =>
        t.blk.coh = { s.blk.coh with txns := [{ x with snoops := [{ y with wbPending := true }] }] } ∧ t.blk.out = s.blk.out ∧ s.CohStep t) ∧
      (s.blk.range (line * 64) = .shelf → Yields (.snoopTimeout site tag) s fun t =>
        t.blk.lineState line = none ∧ (∀ wa ∈ wordsOf (line * 64) 64, NSet.has t.blk.shelf.poison wa = true) ∧
        s.blk.packetsTo t.blk rs = [answer 0x59 0 Code.MEM_POISON []] ∧ t.blk.tag site tag.toNat = some ⟨.snoop line o, at', true⟩ ∧
        t.blk.rd Reg.CO_SNP_TIMEOUTS.COUNT = satAdd 32 (s.blk.rd Reg.CO_SNP_TIMEOUTS.COUNT) 1 ∧
        ((s.blk.pennant (Src.site site) Kind.COH_SNP_TIMEOUT o (line * 64)).pennant Src.coherence Kind.COH_LINE_LOST o (line * 64)).fc = t.blk.fc ∧
        s.CohStep { t with blk := { t.blk with shelf := s.blk.shelf, fc := s.blk.fc } })) ∧
    (∀ (line : BitVec 42) (x : Txn), s.blk.coh.txns = [x] → x.line = line.toNat → x.hold ≠ none → s.blk.coh.waiting = [] →
      Yields (.holdWindowEnd line) s fun t =>
        t.blk.coh = { s.blk.coh with
          txns := []
          reserved := s.blk.coh.reserved ++ (match x.nacked with
            | some a => if s.blk.rd Reg.CO_CFG.RESERVE_CYC = 0 then [] else
              [⟨line.toNat, a, s.blk.now + s.blk.rd Reg.CO_CFG.RESERVE_CYC⟩]
            | none => []) } ∧
        t.blk.rd Reg.CO_STATUS.TRACKERS = 0 ∧ s.CohStep t ∧ s.blk.FieldsKept t.blk [Reg.CO_STATUS.TRACKERS]) ∧
    (∀ line : BitVec 42, Yields (.reservationExpiry line) s fun t =>
      t.blk.coh = { s.blk.coh with reserved := s.blk.coh.reserved.filter fun r => r.line ≠ line.toNat } ∧
      t = { s with blk := { s.blk with coh := t.blk.coh } }) ∧
    (s.blk.coh.scan ≠ none → s.blk.coh.txns = [] →
      (∀ k e, s.blk.coh.dir = [(k, [e])] → Dir.set e.line = k → e.bunt = false → ∀ ps, ps = e.ptrs.filterMap id →
        (ps.all fun a => s.blk.deadAgent a) = true → ps ≠ [] → e.state = .shr ∨ e.state = .own →
        Yields .reclaimStep s fun t =>
          t.blk.coh.dir = [] ∧ t.blk.coh.scan = some k ∧
          (e.state = .own → s.blk.range (e.line * 64) = .shelf → ∀ wa ∈ wordsOf (e.line * 64) 64, NSet.has t.blk.shelf.poison wa = true) ∧
          (e.state = .shr → s.CohStep t ∧ t.blk.out = s.blk.out ∧ t.blk.regs = s.blk.regs)) ∧
      (s.blk.coh.dir = [] → Yields .reclaimStep s fun t =>
        t.blk.coh = { s.blk.coh with scan := none } ∧ t.blk.rd Reg.CO_STATUS.RECLAIM_ACTIVE = 0 ∧
        t.blk.rd Reg.CO_STATUS.RECLAIM_PENDING = 0 ∧ s.CohStep t ∧ t.blk.sites = s.blk.sites ∧
        s.blk.FieldsKept t.blk [Reg.CO_STATUS.RECLAIM_ACTIVE, Reg.CO_STATUS.RECLAIM_PENDING])) ∧
    (s.blk.coh.scan = none → exec .reclaimStep s = .next s))

/-! ### Translation and serving (10, 11) -/

/-- ATS_COMPLETION and ATS_TIMEOUT (R225, R229, R233, R239): a completion with a right is stored, at the size R225 gives, in the L2 and in the L1 of each
unit that waited; a unit that lacks its right owes a page request, or its page is unresolved if it has made one; a failure is unresolved with
XLT_ATS_FAILED; a result that an invalidation discards is requested again; a timeout sends the request once more, and a second one counts as Completer
Abort. PRG_SEND, PRG_RESPONSE and PRG_TIMEOUT (R233, R235): a waiting group takes a free index within the allocation, and one message goes out for
each page, Last set on the last; Success has a fresh ATS request sent for each page; Invalid Request, Response Failure and the timeout leave the pages
unresolved; Response Failure stops the function's page requests; after a timeout the index stays allocated, and a late answer changes nothing else. -/
def Obligations.Translations : Prop :=
  (
  ∀ (s : State) (tag : Fin 512),
    (∀ r, s.blk.xlat.ats.find? (fun x => x.tag = tag.val) = some r →
      let rest := s.blk.xlat.ats.filter fun x => x ≠ r
      let stu := s.blk.stu r.fn
      let sent : Out := s.blk.onStream r.fn (.ats r.tag r.fn r.pasid (Xlat.sent (r.va / 2 ^ stu * 2 ^ stu)) (!r.write))
      let fail (p : PageNeed) : XFail := ⟨p, r.fn, r.pasid, Code.XLT_ATS_FAILED, 2⟩
      let taken : Prop := r.dropped = false ∧ s.blk.atsEnabled r.fn = true
      let status := [Reg.XL_STATUS.ATS_OUT, Reg.XL_STATUS.PRG_OUT, Reg.XL_STATUS.INV_OUT]
      (taken → r.stale = false → ∀ (pa : Word) (log2 : Fin 64) (rd wr u g : Bool), ∀ p, r.units = [p] →
        let lg := max 12 log2.val
        let n := if 30 ≤ lg then 30 else if 21 ≤ lg then 21 else if 16 ≤ lg then 16 else 12
        let e : TlbEntry := ⟨r.fn, r.pasid, n, r.va / 2 ^ n, pa.toNat / 2 ^ lg * 2 ^ lg + r.va % 2 ^ lg / 2 ^ n * 2 ^ n, rd, wr, u, g, false⟩
        let old (l : List TlbEntry) : List TlbEntry := l.filter fun x => !x.covers r.fn r.pasid r.va
        let put (cap : Nat) (l : List TlbEntry) : List TlbEntry := if rd || wr then (e :: old l).take cap else old l
        let k := (r.va / 2 ^ n % 1024) ^^^ (r.pasid % 1024)
        let ok := if p.atomic then rd && wr else if p.write then wr else rd
        let mine (l : PageLack) : Bool := l.covers stu r.fn r.pasid p
        Yields (.atsCompletion tag 0 pa log2 rd wr u g) s fun t =>
          t.blk.xlat.ats = rest ∧ t.blk.rd Reg.XL_STATUS.ATS_OUT = rest.length % 512 ∧
          t.blk.l2set k = put 8 (s.blk.l2set k) ∧ t.blk.l1 p.l1 = put 64 (s.blk.l1 p.l1) ∧
          (∀ j, j ≠ k → t.blk.l2set j = if j ∈ Tlb.setsOf r.va r.pasid then old (s.blk.l2set j) else s.blk.l2set j) ∧
          (∀ j, j ≠ p.l1 → t.blk.l1 j = s.blk.l1 j) ∧
          (ok = true → t.blk.xlat.fails = s.blk.xlat.fails ∧ t.blk.xlat.lacks = s.blk.xlat.lacks.filter fun l => !mine l) ∧
          (ok = false → s.blk.xlat.lacks.any mine = false →
            t.blk.xlat.fails = s.blk.xlat.fails ∧ t.blk.xlat.lacks = s.blk.xlat.lacks ++ [⟨r.fn, r.pasid, p.va, p.write, p.atomic, false⟩]) ∧
          (ok = false → (s.blk.xlat.lacks.any fun l => mine l && l.asked) = true →
            ⟨p, r.fn, r.pasid, Code.XLT_PAGE_FAILED, 7⟩ ∈ t.blk.xlat.fails) ∧
          t.blk.xlat.groups = s.blk.xlat.groups ∧ t.blk.out = s.blk.out ∧ s.XlatStep t [p] status ok) ∧
      (taken → r.stale = false → ∀ (c : Instr), (∃ (st : Fin 3) (pa : Word) (log2 : Fin 64) (rd wr u g : Bool), st ≠ 0 ∧ c = .atsCompletion tag st pa log2 rd wr u g) ∨
          (c = .atsTimeout tag ∧ r.again = true) →
        Yields c s fun t =>
          t.blk.xlat.ats = rest ∧ (∀ p ∈ r.units, fail p ∈ t.blk.xlat.fails) ∧ (∀ f ∈ s.blk.xlat.fails, f ∈ t.blk.xlat.fails) ∧
          t.blk.xlat.l1 = s.blk.xlat.l1 ∧ t.blk.xlat.l2 = s.blk.xlat.l2 ∧ t.blk.xlat.groups = s.blk.xlat.groups ∧ t.blk.out = s.blk.out ∧
          (∃ x ∈ t.blk.fc.inQ, x.source = Src.translation ∧ x.kind = Kind.ATS_FAILED ∧ x.aux = r.fn) ∧
          s.XlatStep { t with blk := { t.blk with fc := s.blk.fc } } r.units status true) ∧
      (taken → r.stale = true → ∀ (st : Fin 3) (pa : Word) (log2 : Fin 64) (rd wr u g : Bool), Yields (.atsCompletion tag st pa log2 rd wr u g) s fun t =>
        t.blk.xlat = { s.blk.xlat with ats := rest ++ [{ r with stale := false, again := false, since := s.blk.now }] } ∧
        t.blk.out = s.blk.out ++ [sent] ∧
        s.XlatStep t [] (Reg.XL_ATS_REQ.COUNT :: status) false) ∧
      (∀ (c : Instr), (∃ (st : Fin 3) (pa : Word) (log2 : Fin 64) (rd wr u g : Bool), c = .atsCompletion tag st pa log2 rd wr u g) ∨
          c = .atsTimeout tag →
        (r.dropped = true → Yields c s fun t =>
          t.blk.xlat = { s.blk.xlat with ats := rest } ∧ t.blk.out = s.blk.out ∧ s.XlatStep t [] status false) ∧
        (r.dropped = false → s.blk.atsEnabled r.fn = false → Yields c s fun t =>
          t.blk.xlat = { s.blk.xlat with ats := rest } ∧ t.blk.out = s.blk.out ∧ s.XlatStep t r.units status true)) ∧
      (taken → r.again = false → Yields (.atsTimeout tag) s fun t =>
        t.blk.xlat = { s.blk.xlat with
          ats := s.blk.xlat.ats.map fun x => if x = r then { r with again := true, since := s.blk.now } else x } ∧
        t.blk.out = s.blk.out ++ [sent] ∧ t.blk.rd Reg.XL_ATS_REQ.COUNT = satAdd 32 (s.blk.rd Reg.XL_ATS_REQ.COUNT) 1 ∧
        s.XlatStep t [] [Reg.XL_ATS_REQ.COUNT] false)) ∧
    (s.blk.xlat.ats.find? (fun x => x.tag = tag.val) = none → exec (.atsTimeout tag) s = .next s ∧
      ∀ (st : Fin 3) (pa : Word) (log2 : Fin 64) (rd wr u g : Bool), exec (.atsCompletion tag st pa log2 rd wr u g) s = .next s)) ∧
  (
  ∀ s : State,
    let status := [Reg.XL_STATUS.ATS_OUT, Reg.XL_STATUS.PRG_OUT, Reg.XL_STATUS.INV_OUT]
    (∀ g, s.blk.xlat.groups = [g] → g.idx = none → s.blk.atsEnabled g.fn = true →
      let may := s.blk.priEnabled && !NSet.has s.blk.xlat.stopped g.fn
      (may = true → g.pages.length ≤ s.blk.cfg 0 0x1EC → Yields .prgSend s fun t =>
        t.blk.xlat = { s.blk.xlat with groups := [{ g with idx := some 0, since := s.blk.now }] } ∧
        t.blk.out = s.blk.out ++ (g.pages.mapIdx fun k p =>
          s.blk.onStream g.fn (.pageReq g.fn 0 g.pasid (Xlat.sent p.1) p.2 (k + 1 = g.pages.length))) ∧
        t.blk.rd Reg.XL_PRG_SENT.COUNT = satAdd 32 (s.blk.rd Reg.XL_PRG_SENT.COUNT) 1 ∧ t.blk.rd Reg.XL_STATUS.PRG_OUT = 1 ∧
        s.XlatStep t [] (Reg.XL_PRG_SENT.COUNT :: status) false) ∧
      (may = true → s.blk.cfg 0 0x1EC < g.pages.length → exec .prgSend s = .next s) ∧
      (may = false → s.blk.xlat.stopMarkers = [] → Yields .prgSend s fun t =>
        t.blk.xlat.groups = [] ∧ t.blk.out = s.blk.out ∧ t.blk.xlat.ats = s.blk.xlat.ats ∧
        (∀ p ∈ g.units, Prg.names g.pages (s.blk.stu g.fn) p = true → ⟨p, g.fn, g.pasid, Code.XLT_PAGE_FAILED, 6⟩ ∈ t.blk.xlat.fails) ∧
        s.XlatStep t g.units status true)) ∧
    ∀ (fn : Fin 33) (idx : Fin 512),
      (∀ g, s.blk.xlat.groups.find? (fun g => decide (g.fn = fn.val) && decide (g.idx = some idx.val)) = some g → s.blk.xlat.stopMarkers = [] →
        let rest := s.blk.xlat.groups.filter fun x => x ≠ g
        (∀ code, g.late = true ∨ s.blk.gen g.slice ≠ g.gen → Yields (.prgResponse fn idx code) s fun t =>
          t.blk.xlat = { s.blk.xlat with groups := rest } ∧ t.blk.out = s.blk.out ∧
          t.blk.rd Reg.XL_PRG_LATE.COUNT = satAdd 32 (s.blk.rd Reg.XL_PRG_LATE.COUNT) 1 ∧
          s.XlatStep t [] (Reg.XL_PRG_LATE.COUNT :: status) false) ∧
        (g.late = true → exec (.prgTimeout fn idx) s = .next s) ∧
        (g.late = false → s.blk.gen g.slice = g.gen →
          let unresolved (t : State) (cause : Nat) : Prop := ∀ p ∈ g.units, Prg.names g.pages (s.blk.stu g.fn) p = true →
            ⟨p, g.fn, g.pasid, Code.XLT_PAGE_FAILED, cause⟩ ∈ t.blk.xlat.fails
          (∀ p, g.units = [p] → Prg.names g.pages (s.blk.stu g.fn) p = true → s.blk.fnOf p.slice = g.fn →
            s.blk.pasid p.slice = g.pasid → s.blk.xlat.ats = [] →
            1 ≤ s.blk.rd Reg.XL_ATS_CFG.MAX_OUTSTANDING → Yields (.prgResponse fn idx .success) s fun t =>
              t.blk.xlat = { s.blk.xlat with
                groups := rest
                ats := [⟨0, g.fn, g.pasid, p.va, p.write, [p], false, false, false, s.blk.now⟩]
                lacks := s.blk.xlat.lacks.map fun l =>
                  if l.covers (s.blk.stu g.fn) g.fn g.pasid p then { l with asked := true } else l } ∧
              t.blk.out = s.blk.out ++ [s.blk.onStream g.fn (.ats 0 g.fn g.pasid (Xlat.sent (p.va / 2 ^ s.blk.stu g.fn * 2 ^ s.blk.stu g.fn)) (!p.write))] ∧
              s.XlatStep t [p] (Reg.XL_ATS_REQ.COUNT :: status) true) ∧
          (Yields (.prgResponse fn idx .invalid) s fun t =>
            unresolved t 3 ∧ t.blk.xlat.groups = rest ∧
            t.blk.xlat.ats = s.blk.xlat.ats ∧ t.blk.out = s.blk.out ∧ s.XlatStep t g.units status true) ∧
          (Yields (.prgResponse fn idx .failure) s fun t =>
            unresolved t 4 ∧
            (∀ x ∈ t.blk.xlat.groups, x ∈ rest ∧ ¬(x.fn = fn.val ∧ x.idx = none)) ∧ NSet.has t.blk.xlat.stopped fn = true ∧
            bit (t.blk.cfg 0 0x1E4) 16 = true ∧ t.blk.xlat.ats = s.blk.xlat.ats ∧ t.blk.out = s.blk.out ∧
            t = { s with blk := { s.blk with regs := t.blk.regs, xlat := t.blk.xlat, pos := t.blk.pos, ep := t.blk.ep } }) ∧
          (Yields (.prgTimeout fn idx) s fun t =>
            unresolved t 5 ∧
            t.blk.xlat.groups = s.blk.xlat.groups.map (fun x => if x = g then { g with late := true, units := [] } else x) ∧
            t.blk.xlat.ats = s.blk.xlat.ats ∧ t.blk.out = s.blk.out ∧ s.XlatStep t g.units [] true))) ∧
      (s.blk.xlat.groups.find? (fun g => decide (g.fn = fn.val) && decide (g.idx = some idx.val)) = none →
        exec (.prgTimeout fn idx) s = .next s ∧ ∀ code, exec (.prgResponse fn idx code) s = .next s))

/-- INVALIDATE_REQUEST, INVALIDATION_COMPLETE, ACC_DECAY, ACC_CLEAR and TLB_FLUSH (R226, R237–R239, R241): the overlapping entries of the function and the
PASID, and under Global Invalidate its global ones, leave both levels, and the results of the ATS requests in flight that overlap are discarded; a
request that matches nothing completes at once, another once no read that may have used an entry is out; a decay halves every counter; the clears
empty their tables. -/
def Obligations.Invalidations : Prop :=
  ∀ s : State,
    (∀ (fn : Fin 33) (itag : Fin 32) (pasid : Option (BitVec 20)) (glob : Bool) (va : Word) (log2 : Fin 65),
      let n := max 12 log2.val
      let base := va.toNat % 2 ^ 57 / 2 ^ n * 2 ^ n
      let hit (e : TlbEntry) : Bool := decide (e.fn = fn.val ∧ e.vpage * 2 ^ e.log2 < base + 2 ^ n ∧ base < e.vpage * 2 ^ e.log2 + 2 ^ e.log2 ∧
        (pasid = none ∨ pasid.map BitVec.toNat = some e.pasid ∨ glob = true ∧ e.g = true))
      let i : InvReq := ⟨fn.val, itag.val, pasid.map BitVec.toNat, glob, base, n, s.blk.now⟩
      let inFlight (r : AtsReq) : Bool := i.reaches r.fn r.pasid ⟨r.va / 2 ^ s.blk.stu r.fn * 2 ^ s.blk.stu r.fn, s.blk.stu r.fn, true⟩
      (s.blk.xlat.invs.filter fun x => x.fn = fn.val).length < 32 → Yields (.invalidateRequest fn itag pasid glob va log2) s fun t =>
        Tlb.listed t.blk.xlat.l1 = (Tlb.listed s.blk.xlat.l1).filter (fun e => !hit e.2) ∧
        Tlb.listed t.blk.xlat.l2 = (Tlb.listed s.blk.xlat.l2).filter (fun e => !hit e.2) ∧
        t.blk.rd Reg.XL_INV_RCVD.COUNT = satAdd 32 (s.blk.rd Reg.XL_INV_RCVD.COUNT) 1 ∧
        (if (Tlb.listed s.blk.xlat.l1 ++ Tlb.listed s.blk.xlat.l2).any (fun e => hit e.2) ∨ (s.blk.ep.slots.any fun e => e.2.any fun v => v.usedBy i) then
          t.blk.xlat.invs = s.blk.xlat.invs ++ [i] ∧ t.blk.out = s.blk.out
        else t.blk.xlat.invs = s.blk.xlat.invs ∧ t.blk.out = s.blk.out ++ [s.blk.onStream fn (.invDone fn itag)]) ∧
        t.blk.xlat.ats = s.blk.xlat.ats.map (fun r => if inFlight r then { r with stale := true } else r) ∧
        t.blk.xlat.groups = s.blk.xlat.groups ∧ t.blk.xlat.fails = s.blk.xlat.fails ∧ t.blk.xlat.lacks = s.blk.xlat.lacks ∧
        (∀ w ∈ t.blk.ep.waiting, w ∈ s.blk.ep.waiting ∧ i.reachesRead w.need w.page = false) ∧
        t.blk.ep = { s.blk.ep with waiting := t.blk.ep.waiting, slots := t.blk.ep.slots } ∧
        t.blk.ext = { s.blk.ext with sent := t.blk.ext.sent, done := t.blk.ext.done } ∧
        s.XlatStep { t with blk := { t.blk with ep := s.blk.ep, ext := s.blk.ext } } [] [Reg.XL_INV_RCVD.COUNT, Reg.XL_STATUS.ATS_OUT, Reg.XL_STATUS.PRG_OUT, Reg.XL_STATUS.INV_OUT] false) ∧
    (∀ (fn : Fin 33) (itag : Fin 32) (i : InvReq), s.blk.xlat.invs.find? (fun i => decide (i.fn = fn.val) && decide (i.itag = itag.val)) = some i →
      let used (e : Nat × Option HostSlot) : Bool := match e.2 with
        | some v => v.usedBy i
        | none => false
      (s.blk.ep.slots.any used = true → exec (.invalidationComplete fn itag) s = .next s) ∧
      (s.blk.ep.slots.any used = false → Yields (.invalidationComplete fn itag) s fun t =>
        t.blk.xlat = { s.blk.xlat with invs := s.blk.xlat.invs.filter fun x => x ≠ i } ∧
        t.blk.out = s.blk.out ++ [s.blk.onStream fn (.invDone fn itag)] ∧
        s.XlatStep t [] [Reg.XL_STATUS.ATS_OUT, Reg.XL_STATUS.PRG_OUT, Reg.XL_STATUS.INV_OUT] false)) ∧
    (Yields .accDecay s fun t =>
      (∀ k, (SMap.get (fun _ => []) t.blk.xlat.acc k).map (fun c => (c.slice, c.region, c.count)) =
        (SMap.get (fun _ => []) s.blk.xlat.acc k).map fun c => (c.slice, c.region, c.count / 2)) ∧
      (∀ e ∈ t.blk.xlat.acc, ∀ c ∈ e.2, c.flagged = true → s.blk.rd Reg.XL_ACC_CFG.THRESHOLD ≤ 2 * c.count) ∧
      t = { s with blk := { s.blk with xlat := { s.blk.xlat with acc := t.blk.xlat.acc, decayAt := s.blk.now } } }) ∧
    (Yields .accClear s fun t => t = { s with blk := { s.blk with xlat := { s.blk.xlat with acc := [] } } }) ∧
    Yields .tlbFlush s fun t =>
      Tlb.listed t.blk.xlat.l1 = [] ∧ Tlb.listed t.blk.xlat.l2 = [] ∧
      t.blk.xlat.ats = s.blk.xlat.ats.map (fun r => { r with stale := true }) ∧
      t = { s with blk := { s.blk with xlat := { s.blk.xlat with l1 := t.blk.xlat.l1, l2 := t.blk.xlat.l2, ats := t.blk.xlat.ats } } }

/-- REQUEST_RING_DOORBELL, REQUEST_SUBMIT and REQUEST_CANCEL (R246, R247): a tail is taken as R58 says; a submit whose fields pass joins the tail of its
slice's pending list, any other gets END with ERROR and DN_BAD_REQUEST or DN_DUP_REQUEST, and in a partition that is down FLT_PARTITION_DOWN (R344); a
cancel ends a pending request with CANCELLED, marks an active one, and is otherwise counted. TOKEN_RING_ROOM, TOKEN_IRQ_TIMER and SAMPLE_TOKEN (R248,
R253, R254, R258): an entry is written, T0 before T1, with the phase of its tail index; a write that fails stalls the slice and parks its requests;
the timer sends the vector of the entries posted; the chosen candidate's token ends its request for the first reason of R254, and is posted at the
step's final mark. -/
def Obligations.ServingRings : Prop :=
  (
  ∀ (s : State) (slice : SliceNo),
    let p := s.blk.slicePart slice
    let n := max 4 (s.blk.rd (Reg.DN_SLICE18.REQ_LOG2 slice))
    let m := 2 ^ (n + 1)
    let old := s.blk.dnSlice slice
    let err (id seq st : Nat) : TokEntry := ⟨id, 0, seq, st, 2, 6⟩
    (∀ v : BitVec 32, Yields (.requestRingDoorbell slice v) s fun t =>
      let d (x : Nat) := (x % m + m - s.blk.rd (Reg.DN_SLICE28.REQ_HEAD slice) % m) % m
      let new := v.toNat % 2 ^ 17
      t.blk.rd (Reg.DN_SLICE28.REQ_TAIL slice) =
        (if s.blk.sliceState slice = Slice.OPEN ∧ d new ≤ 2 ^ n ∧ d (s.blk.rd (Reg.DN_SLICE28.REQ_TAIL slice)) ≤ d new then new % m
          else s.blk.rd (Reg.DN_SLICE28.REQ_TAIL slice)) % 2 ^ 17 ∧
      OnlyFields s t [Reg.DN_SLICE28.REQ_TAIL slice]) ∧
    ∀ w, s.blk.RequestAt slice w →
      let id := bits (w 0) 0 32
      let down := s.blk.sliceDown slice
      let dup := (old.pending.any fun r => r.id = id) || (s.blk.dnPart p).active.any fun r => decide (r.slice = slice.val) && decide (r.id = id)
      (bit (w 0) 32 = false →
        (∀ pl, s.blk.plan p (bits (w 0) 33 4) = some pl →
          let len := bits (w 2) 0 32
          let temp := bits (w 3) 0 32
          let good := Dn.ptrOk (w 1) 4 && decide (1 ≤ len ∧ len < pl.maxContext ∧ 1 ≤ bits (w 2) 32 32 ∧
            (temp = 0 ∨ 0x3B800000 ≤ temp ∧ temp ≤ 0x41800000) ∧ 1 ≤ bits (w 3) 32 32 ∧ bits (w 3) 32 32 ≤ 0x3F800000 ∧
            1 ≤ bits (w 4) 0 7 ∧ bits (w 4) 0 7 ≤ 64 ∧ bits (w 6) 0 4 ≤ 8) && (decide (bits (w 6) 0 4 = 0) || Dn.ptrOk (w 5) 64)
          Yields (.requestSubmit slice) s fun t =>
            (down = true → t.blk.dnSlice slice = { old with entries := old.entries ++ [err id 0 Code.FLT_PARTITION_DOWN] }) ∧
            (down = false → good = true → dup = false → ∃ r, (t.blk.dnSlice slice).pending.getLast? = some r ∧ t.blk.dnSlice slice = { old with pending := old.pending ++ [r] } ∧
              (r.slice, r.id, r.plan, r.adapter, r.promptPtr, r.promptLen, r.maxNew) =
                (slice.val, id, bits (w 0) 33 4, bits (w 0) 48 16, w 1, len, bits (w 2) 32 32) ∧
              (r.temperature, r.topP, r.topK, r.seed, r.stopPtr, r.stopCount) =
                (temp, bits (w 3) 32 32, bits (w 4) 0 7, bits (w 4) 32 32, w 5, bits (w 6) 0 4) ∧ r.chosen = [] ∧ r.pages = [] ∧
              r.record = none ∧ r.ended = none) ∧
            (down = false → good = true → dup = true → t.blk.dnSlice slice = { old with entries := old.entries ++ [err id 0 Code.DN_DUP_REQUEST] }) ∧
            (down = false → good = false → t.blk.dnSlice slice = { old with entries := old.entries ++ [err id 0 Code.DN_BAD_REQUEST] }) ∧
            s.blk.RequestRead t.blk slice ∧ s.DnStep t slice 4096 [Reg.DN_SLICE28.REQ_HEAD slice]) ∧
        (s.blk.plan p (bits (w 0) 33 4) = none → Yields (.requestSubmit slice) s fun t =>
          t.blk.dnSlice slice = { old with entries := old.entries ++ [err id 0 (if down then Code.FLT_PARTITION_DOWN else Code.DN_BAD_REQUEST)] } ∧
          s.blk.RequestRead t.blk slice ∧ s.DnStep t slice 4096 [Reg.DN_SLICE28.REQ_HEAD slice])) ∧
      (bit (w 0) 32 = true → Yields (.requestCancel slice) s fun t =>
        s.blk.RequestRead t.blk slice ∧ s.DnStep t slice p [Reg.DN_SLICE28.REQ_HEAD slice, Reg.DN_STATUS.CANCEL_MISS] ∧
        (∀ r, old.pending.find? (fun r => r.id = id) = some r →
          t.blk.dnSlice slice = { old with
            pending := old.pending.filter fun x => x.id ≠ id
            entries := old.entries ++ [⟨id, 0, r.chosen.length, 0, 2, 5⟩] } ∧ t.blk.dnPart p = s.blk.dnPart p) ∧
        (old.pending.find? (fun r => r.id = id) = none → t.blk.dnSlice slice = old ∧
          t.blk.dnPart p = { s.blk.dnPart p with active := (s.blk.dnPart p).active.map fun r =>
            if r.slice = slice.val ∧ r.id = id then { r with cancelled := true } else r } ∧
          t.blk.rd Reg.DN_STATUS.CANCEL_MISS = if dup then s.blk.rd Reg.DN_STATUS.CANCEL_MISS else satAdd 16 (s.blk.rd Reg.DN_STATUS.CANCEL_MISS) 1))) ∧
  (
  ∀ (s : State) (slice : SliceNo),
    let n := max 6 (s.blk.rd (Reg.DN_SLICE18.TOK_LOG2 slice))
    let tail := s.blk.rd (Reg.DN_SLICE30.TOK_TAIL slice)
    let a := s.blk.rd (Reg.DN_SLICE08.TOK_BASE slice) + 16 * (tail % 2 ^ n)
    (∀ e, (s.blk.dnSlice slice).entries = [e] → s.blk.ext.need = [] → (s.blk.dnSlice slice).tokStall = false → s.blk.tokFull slice = false →
      Ptr.check a = none → Ptr.tag a < 2 →
      (Ptr.tag (s.blk.rd (Reg.DN_SLICE08.TOK_BASE slice)) = 1 → s.blk.revoked (s.blk.fnOf slice) = false) →
      (∀ b₁, s.blk.ptrWrite (s.blk.dnWho slice) true false a (natLE 8 (e.id % 2 ^ 32 + e.token % 2 ^ 32 * 2 ^ 32)) = (b₁, Code.SUCCESS) →
        ∀ b₂, b₁.ptrWrite (s.blk.dnWho slice) true false (a + 8)
          (natLE 8 (e.seq % 2 ^ 32 + e.status % 2 ^ 16 * 2 ^ 32 + e.kind * 2 ^ 48 + e.reason * 2 ^ 56 + tail / 2 ^ n % 2 * 2 ^ 63)) = (b₂, Code.SUCCESS) →
        b₂.ext.need = [] → b₂.regs = s.blk.regs → b₂.dn = s.blk.dn → s.blk.is (Reg.DN_SLICE18.IRQ_EN slice) = false →
        Yields (.tokenRingRoom slice) s fun t =>
          t.blk.dnSlice slice = { s.blk.dnSlice slice with entries := [], uncounted := (s.blk.dnSlice slice).uncounted + 1 } ∧
          t.blk.rd (Reg.DN_SLICE30.TOK_TAIL slice) = (tail + 1) % 2 ^ (n + 1) % 2 ^ 17 ∧
          State.DnStep { s with blk := b₂ } t slice 4096 [Reg.DN_SLICE30.TOK_TAIL slice]) ∧
      (∀ b₁ st, s.blk.ptrWrite (s.blk.dnWho slice) true false a (natLE 8 (e.id % 2 ^ 32 + e.token % 2 ^ 32 * 2 ^ 32)) = (b₁, st) →
        st ≠ Code.SUCCESS → b₁.ext.need = [] → Yields (.tokenRingRoom slice) s fun t =>
          t.blk.rd (Reg.DN_SLICE20.STATE slice) = Dn.STALLED ∧ t.blk.rd (Reg.DN_SLICE20.ERR_STATUS slice) = Code.DN_RING_FAULT ∧
          (b₁.dn = s.blk.dn → t.blk.dnSlice slice = { s.blk.dnSlice slice with tokStall := true }) ∧
          State.DnStep { s with blk := b₁ } t slice 4096 [Reg.DN_SLICE20.STATE slice, Reg.DN_SLICE20.ERR_STATUS slice])) ∧
    (s.blk.tokFull slice = true ∨ (s.blk.dnSlice slice).tokStall = true → s.blk.ext.need = [] → Yields (.tokenRingRoom slice) s fun t => s.DnStep t 4096 4096 [] ∧ t.blk.dn = s.blk.dn) ∧
    ((s.blk.dnSlice slice).posted = 0 → exec (.tokenIrqTimer slice) s = .next s) ∧
    ((s.blk.dnSlice slice).posted ≠ 0 → s.blk.is (Reg.DN_SLICE18.IRQ_EN slice) = true → Yields (.tokenIrqTimer slice) s fun t =>
      let fn := s.blk.fnOf slice
      let vec := s.blk.rd (Reg.DN_SLICE18.VECTOR slice)
      t.blk.dnSlice slice = { s.blk.dnSlice slice with posted := 0, firstAt := none } ∧
      (if s.blk.msixAllowed fn vec then t.blk.out = s.blk.out ++ [s.blk.onStream fn (.msix fn vec)] else NSet.has t.blk.ep.msixPending (fn * 2048 + vec) = true ∧ t.blk.out = s.blk.out) ∧
      s.DnStep { t with blk := { t.blk with ep := s.blk.ep, out := s.blk.out } } slice 4096 []) ∧
    ∀ (part : PartNo) (r : DnReq), (s.blk.dnPart part).active = [r] →
      (s.blk.dnPart part).running = true → (s.blk.dnPart part).committed = false → r.slice = slice.val → 1 ≤ r.feed →
      r.sampled = false → r.ctx + r.feed = r.promptLen + r.chosen.length → s.blk.ext.need = [] →
      ∀ (id : BitVec 32) (cands : List (BitVec 32 × BitVec 32)), r.id = id.toNat →
      let ls := ((cands.take r.topK).filter fun c => c.2 ≠ 0xFFFFFFFF).map fun c => (c.1.toNat, c.2.toNat)
      let seq := r.chosen.length
      (ls = [] → Yields (.sampleToken part slice id cands) s fun t =>
        (t.blk.dnPart part).active = [{ r with sampled := true, ended := some ⟨r.id, 0, seq, Code.DN_SAMPLE_INVALID, 2, 6⟩ }] ∧ s.DnStep t 4096 part []) ∧
      ls ≠ [] → ∀ pl, s.blk.plan part r.plan = some pl → 
        let z := match r.choose (ls.map fun c => c.1) with
          | some i => (s.blk, i)
          | none => (s.blk.fresh.1, s.blk.fresh.2 % ls.length)
        z.2 < ls.length →
        let tok := (ls.getD z.2 (0, 0)).2
        Yields (.sampleToken part slice id cands) s fun t =>
          ∃ r', (t.blk.dnPart part).active.head? = some r' ∧ (t.blk.dnPart part).active = [r'] ∧
            r' = { r with sampled := true, chosen := r'.chosen, ended := r'.ended, due := r'.due } ∧ State.DnStep { s with blk := z.1 } t 4096 part [] ∧
            (tok = pl.eos → r'.chosen = r.chosen ∧ r'.due = r.due ∧ r'.ended = some ⟨r.id, 0, seq, 0, 2, 1⟩) ∧
            (tok ≠ pl.eos → r'.chosen = r.chosen ++ [tok] ∧ (r.skip ≤ seq → r'.due = some ⟨r.id, tok, seq, 0, 1, 0⟩) ∧
              r'.ended = match r.stopMatch (r.chosen ++ [tok]) with
                | some k => some ⟨r.id, k, seq + 1, 0, 2, 2⟩
                | none => if seq + 1 = r.maxNew then some ⟨r.id, 0, seq + 1, 0, 2, 3⟩
                  else if r.promptLen + seq + 1 = pl.maxContext then some ⟨r.id, 0, seq + 1, 0, 2, 4⟩ else none))

/-- STEP_BOUNDARY (R245, R250, R251, R255): a boundary waits for the running step's final mark; it posts END for a request that has ended, or was
cancelled, and frees its pages, unless a TOKEN of its still waits (R248); loads, unloads and what is written to DN_PART_CFG take effect; a pending
head is admitted with pages for its next chunk and one token more; and the step that is built writes its commands into the serving slice's rings as
they have room. -/
def Obligations.StepBoundary : Prop :=
  ∀ (s : State) (part : PartNo), s.blk.ext.need = [] →
    let v := s.blk.dnPart part
    let sv := s.blk.serveSlice part
    let nv := s.blk.rd (Reg.DN_PART_CFG08.SERVE_SLICE part)
    (s.blk.dnRuns = false ∨ s.blk.partEmpty part = true ∨ v.running = true ∧ v.toWrite ≠ [] ∧ s.blk.sliceState sv ≠ Slice.OPEN ∨
        v.running = true ∧ v.toWrite = [] ∧ v.stepDone = false →
      Yields (.stepBoundary part) s fun t => t = { s with blk := { s.blk with ext := t.blk.ext } }) ∧
    (s.blk.dnRuns = true → s.blk.partEmpty part = false →
      (v.running = true → s.blk.sliceState sv = Slice.OPEN → ∀ c ws, v.toWrite = [(c, ws)] → c < 4 →
        let n := s.blk.rd (Reg.SL_Q_CFG.LOG2_SIZE sv c)
        let m := 2 ^ (n + 1)
        let tail := s.blk.rd (Reg.SL_Q_TAIL.INDEX sv c)
        let used := (tail + m - s.blk.rd (Reg.SL_Q_HEAD.INDEX sv c) % m) % m
        let a := s.blk.rd (Reg.SL_Q_BASE.BASE sv c) + 64 * (tail % 2 ^ n)
        (used = 2 ^ n → Yields (.stepBoundary part) s fun t => t.blk.dnPart part = v ∧ s.DnStep t 4096 4096 []) ∧
        (used ≠ 2 ^ n → Dn.ptrOk a 64 = true → ∀ b₁,
          s.blk.ptrWrite (s.blk.dnWho sv) true false a ((List.range 8).flatMap fun i => natLE 8 (ws.getD i 0)) = (b₁, Code.SUCCESS) →
          b₁.ext.need = [] → b₁.regs = s.blk.regs → b₁.dn = s.blk.dn → Yields (.stepBoundary part) s fun t =>
            t.blk.dnPart part = { v with toWrite := [] } ∧ t.blk.rd (Reg.SL_Q_TAIL.INDEX sv c) = (tail + 1) % m % 2 ^ 16 ∧
            State.DnStep { s with blk := b₁ } t 4096 part [Reg.SL_Q_TAIL.INDEX sv c])) ∧
      (s.blk.dn.activating = false → v.toWrite = [] → ∀ sl : SliceNo, s.blk.slicePart sl = part.val →
        (∀ e ∈ s.blk.dn.slices, e.1 = sl.val) → (∀ e ∈ v.slots, (e.2.bind fun a => a.copied) = none) →
        (s.blk.dnSlice sl).uncounted = 0 → (s.blk.dnSlice sl).counting = none →
        let o := (Reg.DN_PART_CFG00.KV_BASE part).off
        let conf := (s.blk.word o, s.blk.word (o + 8), s.blk.word (o + 0x10))
        let fields := [Reg.DN_PART_STATUS.ACTIVE part, Reg.DN_PART_STATUS.FREE_PAGES part, Reg.DN_SLICE20.ACTIVE sl]
        (∀ r, v.active = [r] → r.slice = sl.val → r.due = none → s.blk.tokFull sl = true → (s.blk.dnSlice sl).pending = [] →
          (v.running = false ∨ v.committed = true ∧ r.sampled = true) → s.blk.parked r = false →
          (r.ended ≠ none ∨ r.cancelled = true) → Yields (.stepBoundary part) s fun t =>
            (t.blk.dnPart part).active = [] ∧ (t.blk.dnPart part).running = false ∧ (t.blk.dnPart part).changes = [] ∧ (t.blk.dnPart part).conf = conf ∧
            (t.blk.dnPart part).step = (if v.running then v.step + 1 else v.step) ∧
            (t.blk.dnSlice sl).entries = (s.blk.dnSlice sl).entries ++ [r.ended.getD ⟨r.id, 0, r.chosen.length, 0, 2, 5⟩] ∧
            t.blk.rd (Reg.DN_PART_STATUS.ACTIVE part) = 0 ∧ t.blk.rd (Reg.DN_SLICE20.ACTIVE sl) = 0 ∧
            t.blk.rd (Reg.DN_PART_STATUS.FREE_PAGES part) = s.blk.rd (Reg.DN_PART_CFG08.KV_PAGES part) ∧
            s.DnStep t sl part fields) ∧
        (∀ r, v.active = [r] → r.slice = sl.val → r.due = none → (s.blk.dnSlice sl).pending = [] → v.running = false → s.blk.parked r = true →
          Yields (.stepBoundary part) s fun t => (t.blk.dnPart part).active = [r] ∧ t.blk.dnSlice sl = s.blk.dnSlice sl ∧
            s.DnStep t 4096 part fields) ∧
        (v.active = [] → v.running = false → (s.blk.dnSlice sl).pending = [] → Yields (.stepBoundary part) s fun t =>
          t.blk.dnPart part = { v with
            plans := v.changes.foldl (fun m c => SMap.put (fun _ => none) m c.1 c.2) v.plans
            changes := []
            conf := conf
            slots := if conf.2.2 = v.conf.2.2 then v.slots else [] } ∧ s.DnStep t 4096 part fields) ∧
        (v.active = [] → v.running = false → v.changes = [] → (s.blk.dnSlice sl).entries = [] → ∀ r, (s.blk.dnSlice sl).pending = [r] →
          ∀ pl, s.blk.plan part r.plan = some pl → r.plan < 16 → r.adapter = 0xFFFF → r.stopCount = 0 → r.ended = none → r.cancelled = false →
          1 ≤ r.promptLen → 1 ≤ s.blk.rd (Reg.DN_PART_CFG08.PREFILL_CHUNK part) → 1 ≤ s.blk.rd (Reg.DN_PART_CFG08.MAX_BATCH part) →
          1 ≤ pl.maxBatch → 1 ≤ pl.pageTokens → s.blk.sliceState nv = Slice.OPEN → s.blk.sliceState sl = Slice.OPEN → s.blk.dnState sl = Dn.SERVING → s.blk.is (Reg.DN_SLICE18.EN sl) = true →
          1 ≤ s.blk.rd (Reg.SL_QUOTA.ACTIVE_REQ sl) → pl.pagesFor (r.promptLen + r.maxNew) ≤ s.blk.rd (Reg.DN_PART_CFG08.KV_PAGES part) →
          let chunk := min (s.blk.rd (Reg.DN_PART_CFG08.PREFILL_CHUNK part)) (r.promptLen + r.chosen.length)
          pl.pagesFor (chunk + 1) ≤ s.blk.rd (Reg.DN_PART_CFG08.KV_PAGES part) →
          (∀ c < 4, Dn.ptrOk (s.blk.rd (Reg.SL_Q_BASE.BASE nv c) + 64 * (s.blk.rd (Reg.SL_Q_TAIL.INDEX nv c) % 2 ^ s.blk.rd (Reg.SL_Q_CFG.LOG2_SIZE nv c))) 64 = false) →
          r.slice = sl.val → ∀ d, s.blk.ptrRead (s.blk.dnWho sl) r.promptPtr (4 * r.promptLen) = (s.blk, Code.SUCCESS, d) →
          Yields (.stepBoundary part) s fun t =>
            (t.blk.dnSlice sl).pending = [] ∧ (t.blk.dnPart part).lastSlice = sl.val ∧ (t.blk.dnPart part).running = true ∧
            (t.blk.dnPart part).plan = r.plan ∧ (t.blk.dnPart part).committed = false ∧ (t.blk.dnPart part).step = v.step ∧
            (t.blk.dnPart part).active = [{ r with
              prompt := (List.range r.promptLen).map fun i => leAt d (4 * i) 4
              stops := [], pages := List.range (pl.pagesFor (chunk + 1)), slot := none, record := none, ctx := 0, feed := chunk, sampled := false }] ∧
            ((t.blk.dnPart part).toWrite.filter fun w => w.2 = Dn.mark (Config.markSnapshot pl.templates % 2 ^ 26) (v.step % 2 ^ 24 * 256 + 255)) ≠ [] ∧
            t.blk.rd (Reg.DN_PART_STATUS.ACTIVE part) = 1 ∧ t.blk.rd (Reg.DN_SLICE20.ACTIVE sl) = 1 ∧
            s.DnStep t sl part (Reg.SL_MARK_CFG.QMASK nv :: fields))))

/-- PLAN_LOAD, PLAN_UNLOAD, SERVE_ENABLE, SERVE_DISABLE, FW_ACTIVATE, FW_SELF_CHECK_TIMEOUT and DENOB_RESTART_DONE (R245, R256–R258): a load whose header
and CRC pass takes effect at the next boundary; while a load runs, another is DN_PLAN_BUSY; a slot in use is DN_PLAN_BUSY, a pointer not into HBM
DN_PLAN_BAD; EN starts, resumes and stops serving; an activation switches banks and restarts; a failed self-check switches back with DN_FW_FALLBACK. -/
def Obligations.PlansAndFirmware : Prop :=
  ∀ s : State,
    (∀ (part : PartNo) (i : Fin 16), s.blk.dnRuns = true → s.blk.ext.need = [] →
      let v := s.blk.dnPart part
      let ptr := s.blk.rd Reg.DN_PLAN_PTR.PTR
      let w := s.blk.dnWho (s.blk.rd (Reg.DN_PART_CFG08.SERVE_SLICE part))
      let s₀ : State := { s with blk := { s.blk with dn := { s.blk.dn with loading := none } } }
      let hbm := match s.blk.range (Ptr.addr ptr) with
        | .hbm _ => true
        | _ => false
      let fields := [Reg.DN_PLAN_CTRL.PARTITION, Reg.DN_PLAN_CTRL.INDEX, Reg.DN_PLAN_CTRL.STATUS, Reg.DN_PLAN_CTRL.BUSY]
      let wr (b : Block) : Block :=
        { (b.wr Reg.DN_PLAN_CTRL.PARTITION part).wr Reg.DN_PLAN_CTRL.INDEX i with dn := { b.dn with loading := some (part.val, i.val) } }.wr Reg.DN_PLAN_CTRL.BUSY 1
      (s.blk.dn.loading ≠ none → s.blk.dn.loading ≠ some (part.val, i.val) → Yields (.planLoad part i) s fun t =>
        t.blk.rd Reg.DN_PLAN_CTRL.STATUS = Code.DN_PLAN_BUSY ∧ OnlyFields s t [Reg.DN_PLAN_CTRL.STATUS]) ∧
      (s.blk.dn.loading ≠ none → exec (.planUnload part i) s = .next s) ∧
      (s.blk.dn.loading = none →
        (s.blk.planUsed part i = true → Yields (.planUnload part i) s fun t =>
          t.blk.rd Reg.DN_PLAN_CTRL.STATUS = Code.DN_PLAN_BUSY ∧ OnlyFields s t fields) ∧
        (s.blk.planUsed part i = false → Yields (.planUnload part i) s fun t =>
          t.blk.rd Reg.DN_PLAN_CTRL.STATUS = Code.SUCCESS ∧ t.blk.dnPart part = { v with changes := v.changes ++ [(i.val, none)] } ∧
          s.DnStep t 4096 part fields)) ∧
      (s.blk.dn.loading = none ∨ s.blk.dn.loading = some (part.val, i.val) →
        (s.blk.planUsed part i = true → Yields (.planLoad part i) s fun t =>
          t.blk.rd Reg.DN_PLAN_CTRL.STATUS = Code.DN_PLAN_BUSY ∧ t.blk.rd Reg.DN_PLAN_CTRL.BUSY = 0 ∧ t.blk.dn = s₀.blk.dn ∧ s₀.DnStep t 4096 4096 fields) ∧
        (s.blk.planUsed part i = false →
          (hbm = false ∨ Ptr.tag ptr ≠ 0 ∨ Ptr.check ptr ≠ none ∨ ptr % 64 ≠ 0 → Yields (.planLoad part i) s fun t =>
            t.blk.rd Reg.DN_PLAN_CTRL.STATUS = Code.DN_PLAN_BAD ∧ t.blk.rd Reg.DN_PLAN_CTRL.BUSY = 0 ∧ t.blk.dn = s₀.blk.dn ∧ s₀.DnStep t 4096 4096 fields) ∧
          (hbm = true → Ptr.tag ptr = 0 → Ptr.check ptr = none → ptr % 64 = 0 → ∀ b₁ hd,
            (wr s.blk).dlaRead w (Ptr.addr ptr) 64 = (b₁, Code.SUCCESS, hd) → b₁.ext.need = [] →
            ∀ b₂ tm, b₁.dlaRead w (Ptr.addr ptr + 64) (min (leAt hd 0x1C 4) 1048576) = (b₂, Code.SUCCESS, tm) → b₂.ext.need = [] →
            b₂.dn = (wr s.blk).dn →
            ∀ pl, Plan.parse (hd ++ tm) = some pl → Yields (.planLoad part i) s fun t =>
              (if crc32c (hd.take 0x28 ++ tm) = leAt hd 0x28 4 ∧ s.blk.planBytes + 64 + tm.length ≤ min (2 * 2 ^ 20) Config.planMemory then
                t.blk.rd Reg.DN_PLAN_CTRL.STATUS = Code.SUCCESS ∧ t.blk.dnPart part = { v with changes := v.changes ++ [(i.val, some pl)] }
              else t.blk.rd Reg.DN_PLAN_CTRL.STATUS = Code.DN_PLAN_BAD ∧ t.blk.dn = s₀.blk.dn) ∧
              t.blk.rd Reg.DN_PLAN_CTRL.BUSY = 0 ∧ State.DnStep { s with blk := { b₂ with dn := s₀.blk.dn } } t 4096 part fields)))) ∧
    (∀ slice : SliceNo,
      (Yields (.serveDisable slice) s fun t =>
        t.blk.rd (Reg.DN_SLICE18.EN slice) = 0 ∧
        t.blk.dnState slice = (if s.blk.dnState slice = Dn.SERVING then Dn.DISABLED else s.blk.dnState slice) ∧
        OnlyFields s t [Reg.DN_SLICE18.EN slice, Reg.DN_SLICE20.STATE slice]) ∧
      (s.blk.is (Reg.DN_SLICE18.EN slice) = false → s.blk.ext.need = [] →
        (s.blk.dnState slice = Dn.DISABLED → s.blk.dnActive slice = 0 → Yields (.serveEnable slice) s fun t =>
          t.blk.rd (Reg.DN_SLICE18.EN slice) = 1 ∧ t.blk.dnState slice = Dn.SERVING ∧
          t.blk.word (Reg.DN_SLICE28.REQ_HEAD slice).off = 0 ∧ t.blk.word (Reg.DN_SLICE30.TOK_HEAD slice).off = 0 ∧
          s.DnStep t 4096 4096 [Reg.DN_SLICE18.EN slice, Reg.DN_SLICE20.STATE slice, ⟨(Reg.DN_SLICE28.REQ_HEAD slice).off, 0, 64⟩,
            ⟨(Reg.DN_SLICE30.TOK_HEAD slice).off, 0, 64⟩] ∧ t.blk.dn = s.blk.dn) ∧
        (s.blk.dnState slice = Dn.STALLED → (s.blk.dnSlice slice).entries = [] → Yields (.serveEnable slice) s fun t =>
          t.blk.rd (Reg.DN_SLICE18.EN slice) = 1 ∧ t.blk.dnState slice = Dn.SERVING ∧
          t.blk.dnSlice slice = { s.blk.dnSlice slice with tokStall := false } ∧ s.DnStep t slice 4096 [Reg.DN_SLICE18.EN slice, Reg.DN_SLICE20.STATE slice]))) ∧
    (s.blk.is Reg.MH_STATUS.PENDING_UPDATE = false ∨ s.blk.sec.dnStaged = none → exec .fwActivate s = .next s) ∧
    (∀ f, s.blk.sec.dnStaged = some f → s.blk.dn.activating = false → s.blk.dn.restarting = false → s.blk.is Reg.MH_STATUS.PENDING_UPDATE = true →
      s.blk.is Reg.DN_STATUS.FAILED = false → (s.blk.journalFree = none → Yields .fwActivate s fun t =>
        t.blk.rd Reg.DN_STATUS.LAST_FW_STATUS = Code.BUP_JOURNAL_FULL ∧ OnlyFields s t [Reg.DN_STATUS.LAST_FW_STATUS]) ∧
      ∀ j, s.blk.journalFree = some j → s.blk.dnIdle = true → Yields .fwActivate s fun t =>
        t.blk.rd Reg.SEC_FW_STATUS.DN_SVN = f.svn % 2 ^ 6 ∧ t.blk.boot.nor.activeBank = t.blk.rd Reg.DN_STATUS.BANK ∧
        t.blk.rd Reg.DN_STATUS.BANK = 1 - s.blk.rd Reg.DN_STATUS.BANK ∧ t.blk.rd Reg.DN_STATUS.RUNNING = 0 ∧
        t.blk.rd Reg.DN_STATUS.RESTARTS = satAdd 16 (s.blk.rd Reg.DN_STATUS.RESTARTS) 1 ∧
        t.blk.dn = { s.blk.dn with restarting := true, switched := true } ∧ t.blk.sec = { s.blk.sec with
          dnOld := s.blk.sec.dnRun, dnRun := f, dnStaged := none } ∧ t.blk.journalState j = Journal.RUNNING ∧
        bit (t.blk.rd Reg.SEC_FW_STATUS.STAGED) 1 = false ∧ t.blk.rd Reg.MH_STATUS.PENDING_UPDATE = b01 (t.blk.rd Reg.SEC_FW_STATUS.STAGED != 0) ∧
        t = { s with blk := { s.blk with regs := t.blk.regs, dn := t.blk.dn, sec := t.blk.sec, boot := t.blk.boot } }) ∧
    (s.blk.dn.switched = false → exec .fwSelfCheckTimeout s = .next s) ∧
    (s.blk.dn.switched = true → Yields .fwSelfCheckTimeout s fun t =>
      t.blk.rd Reg.DN_STATUS.BANK = 1 - s.blk.rd Reg.DN_STATUS.BANK ∧ t.blk.rd Reg.DN_STATUS.BANK_FAILED = 1 ∧
      t.blk.rd Reg.DN_STATUS.LAST_FW_STATUS = Code.DN_FW_FALLBACK ∧ t.blk.boot.nor.activeBank = t.blk.rd Reg.DN_STATUS.BANK ∧ t.blk.sec = { s.blk.sec with dnRun := s.blk.sec.dnOld } ∧
      t.blk.dn = { s.blk.dn with switched := false } ∧
      t = { s with blk := { s.blk with regs := t.blk.regs, dn := t.blk.dn, sec := t.blk.sec, boot := t.blk.boot } }) ∧
    (s.blk.dn.restarting = false → exec .denobRestartDone s = .next s) ∧
    (s.blk.dn.restarting = true → s.blk.dn.switched = false → s.blk.fc.recoveries = [] → s.blk.fc.opened = [] → Yields .denobRestartDone s fun t =>
      t.blk.rd Reg.DN_STATUS.RUNNING = 1 ∧ t.blk.dn = { s.blk.dn with restarting := false } ∧
      s.blk.FieldsKept t.blk (Reg.DN_STATUS.RUNNING :: Fld.fcStatus) ∧
      t = { s with blk := { s.blk with regs := t.blk.regs, dn := t.blk.dn
                                       fc := { s.blk.fc with waveStopped := t.blk.fc.waveStopped, wave := t.blk.fc.wave } } })

/-! ### Tenancy (12) -/

/-- OPEN, RESET, FREEZE, THAW and RELEASE (R259–R262, R265, R267–R269, R273): the checks in their order, each with its status and no other effect; a
successful OPEN gives a fresh key, the next generation and epoch 0, and clamps ACTIVE_REQ; RESET and RELEASE stop the slice's queues and end its work;
a FREEZE runs until it ends; a THAW reopens. SLICE_RESET_COMPLETE, FREEZE_DRAIN_COMPLETE, FREEZE_WAIT_TIMEOUT and RELEASE_DONE (R262, R267–R269): a
reset ends with the next generation, every queue DISABLED and empty, the marks, the handles and the mailbox cleared, and keeps memory and the key; a
freeze ends FROZEN, or refused and OPEN; a release zeroes the key, the shelf and the sync objects of its windows, and ends FREE. -/
def Obligations.Slices : Prop :=
  (
  ∀ (s : State) (slice : SliceNo),
    let p := s.blk.slicePart slice
    let st := s.blk.sliceState slice
    let share := s.blk.liveSlices.any fun k => decide (s.blk.fnOf k = s.blk.fnOf slice) && decide (s.blk.pasid k = s.blk.pasid slice)
    let full := decide ((s.blk.part p).openSlices ≤ (s.blk.partSlices p).length)
    let zero := decide (s.blk.rd (Reg.SL_QUOTA.HANDLES slice) = 0 ∨ s.blk.rd (Reg.SL_QUOTA.XFER_SLOTS slice) = 0)
    (s.blk.nameable slice = false → s.Refused (.openSlice slice) 1 slice Code.TEN_BAD_ARG ∧ s.Refused (.resetSlice slice) 2 slice Code.TEN_BAD_ARG ∧
      s.Refused (.freeze slice) 3 slice Code.TEN_BAD_ARG ∧ s.Refused (.thaw slice) 4 slice Code.TEN_BAD_ARG ∧
      s.Refused (.release slice) 5 slice Code.TEN_BAD_ARG) ∧
    (s.blk.nameable slice = true →
      (st ≠ Slice.FREE → s.Refused (.openSlice slice) 1 slice Code.TEN_BAD_STATE) ∧
      (st = Slice.FREE → share = true → s.Refused (.openSlice slice) 1 slice Code.TEN_PASID_IN_USE) ∧
      (st = Slice.FREE → share = false → full = true → s.Refused (.openSlice slice) 1 slice Code.TEN_QUOTA) ∧
      (st = Slice.FREE → share = false → full = false → zero = true → s.Refused (.openSlice slice) 1 slice Code.TEN_BAD_ARG) ∧
      (st = Slice.FREE → share = false → full = false → zero = false → Yields (.openSlice slice) s fun t =>
        t.blk.sliceState slice = Slice.OPEN ∧ t.blk.gen slice = s.blk.genNext slice ∧ t.blk.epoch slice = 0 ∧
        (SMap.get (fun _ => none) t.blk.keys.slice slice).isSome = true ∧ t.blk.keys.slot = s.blk.keys.slot ∧
        (∀ k, k ≠ slice.val → SMap.get (fun _ => none) t.blk.keys.slice k = SMap.get (fun _ => none) s.blk.keys.slice k) ∧ t.blk.NoTlb slice ∧
        t.blk.rd (Reg.SL_QUOTA.ACTIVE_REQ slice) = min (s.blk.rd (Reg.SL_QUOTA.ACTIVE_REQ slice))
          ((s.blk.part p).activeReq - (((s.blk.partSlices p).filter fun k => k ≠ slice.val).map fun k => s.blk.rd (Reg.SL_QUOTA.ACTIVE_REQ k)).sum) ∧
        t.blk.rd Reg.SL_MGR_RESULT.STATUS = Code.SUCCESS ∧
        t = { s with blk := { s.blk with regs := t.blk.regs, keys := t.blk.keys, xlat := t.blk.xlat, free := t.blk.free } } ∧
        s.blk.FieldsKept t.blk ([Reg.SL_STATUS.STATE slice, Reg.SL_STATUS.GENERATION slice, ⟨(Reg.SL_MARK_STATUS.EPOCH slice).off, 0, 64⟩,
          Reg.SL_HANDLE_STATUS.GEN_LO slice, Reg.SL_QUOTA.ACTIVE_REQ slice, Reg.MH_STATUS.TUNE_CLAMP] ++ Fld.mgr ++ Fld.partStatus p)) ∧
      (st = Slice.RESETTING → s.Refused (.resetSlice slice) 2 slice Code.SUCCESS ∧ Yields (.release slice) s fun t =>
        t.blk.slice slice = { s.blk.slice slice with releasing := some (s.blk.is Reg.SL_MGR_ARG1.OVERWRITE) } ∧
        t.blk.rd Reg.SL_MGR_RESULT.STATUS = Code.SUCCESS ∧ s.blk.FieldsKept t.blk Fld.mgr ∧
        t = { s with blk := { s.blk with regs := t.blk.regs, slices := t.blk.slices } }) ∧
      (st = Slice.RELEASING → s.Refused (.release slice) 5 slice Code.SUCCESS) ∧
      (st = Slice.FREE ∨ st = Slice.RELEASING ∨ st = Slice.RESTORING → s.Refused (.resetSlice slice) 2 slice Code.TEN_BAD_STATE) ∧
      (st = Slice.FREE → s.Refused (.release slice) 5 slice Code.TEN_BAD_STATE) ∧
      (st ≠ Slice.OPEN → s.Refused (.freeze slice) 3 slice Code.TEN_BAD_STATE) ∧
      (st ≠ Slice.FROZEN ∨ (s.blk.slice slice).op ≠ none → s.Refused (.thaw slice) 4 slice Code.TEN_BAD_STATE) ∧
      (st = Slice.OPEN → Yields (.freeze slice) s fun t =>
        t.blk.sliceState slice = Slice.FREEZING ∧ t.blk.rd (Reg.SL_FREEZE_STATUS.RUNNING slice) = 1 ∧ t.blk.rd (Reg.SL_FREEZE_STATUS.VALID slice) = 0 ∧
        t.blk.slice slice = { s.blk.slice slice with freeze := some ⟨s.blk.now⟩ } ∧ t.blk.rd Reg.SL_MGR_RESULT.STATUS = Code.SUCCESS ∧
        t = { s with blk := { s.blk with regs := t.blk.regs, slices := t.blk.slices } } ∧
        s.blk.FieldsKept t.blk ([Reg.SL_STATUS.STATE slice, Reg.SL_FREEZE_STATUS.RUNNING slice, Reg.SL_FREEZE_STATUS.VALID slice] ++ Fld.mgr ++
          Fld.partStatus p)) ∧
      (st = Slice.FROZEN → (s.blk.slice slice).op = none → Yields (.thaw slice) s fun t =>
        t.blk.sliceState slice = Slice.OPEN ∧ t.blk.rd Reg.SL_MGR_RESULT.STATUS = Code.SUCCESS ∧
        OnlyFields s t (Reg.SL_STATUS.STATE slice :: Fld.mgr ++ Fld.partStatus p)) ∧
      (s.blk.Quiet slice →
        let fields := [Reg.SL_STATUS.STATE slice, Reg.SL_FREEZE_STATUS.RUNNING slice, Reg.SL_FREEZE_STATUS.VALID slice,
          Reg.SL_FREEZE_STATUS.STATUS slice] ++ Fld.mgr ++ Fld.partStatus p
        (st = Slice.OPEN ∨ st = Slice.FREEZING ∨ st = Slice.FROZEN → Yields (.resetSlice slice) s fun t =>
          t.blk.sliceState slice = Slice.RESETTING ∧ s.blk.Stopped t.blk slice ∧ t.blk.rd Reg.SL_MGR_RESULT.STATUS = Code.SUCCESS ∧
          (st = Slice.FREEZING → t.blk.rd (Reg.SL_FREEZE_STATUS.STATUS slice) = Code.TEN_FREEZE_REFUSED) ∧
          t.blk.sync.vals = s.blk.sync.vals ∧ s.blk.FieldsKept t.blk fields ∧
          t = { s with blk := { s.blk with regs := t.blk.regs, queues := t.blk.queues, ext := t.blk.ext, sync := t.blk.sync, slices := t.blk.slices } }) ∧
        (st = Slice.OPEN ∨ st = Slice.FREEZING ∨ st = Slice.FROZEN ∨ st = Slice.RESTORING → Yields (.release slice) s fun t =>
          t.blk.sliceState slice = Slice.RELEASING ∧ s.blk.Stopped t.blk slice ∧ t.blk.rd Reg.SL_MGR_RESULT.STATUS = Code.SUCCESS ∧
          (t.blk.slice slice).releasing = some (s.blk.is Reg.SL_MGR_ARG1.OVERWRITE) ∧
          (st = Slice.FREEZING → t.blk.rd (Reg.SL_FREEZE_STATUS.STATUS slice) = Code.TEN_FREEZE_REFUSED) ∧
          t.blk.sync.vals = s.blk.sync.vals ∧ s.blk.FieldsKept t.blk fields ∧
          t = { s with blk := { s.blk with regs := t.blk.regs, queues := t.blk.queues, ext := t.blk.ext, sync := t.blk.sync, slices := t.blk.slices } })))) ∧
  (
  ∀ (s : State) (slice : SliceNo),
    let p := s.blk.slicePart slice
    let st := s.blk.sliceState slice
    let v := s.blk.slice slice
    let fr := [Reg.SL_STATUS.STATE slice, Reg.SL_FREEZE_STATUS.RUNNING slice, Reg.SL_FREEZE_STATUS.VALID slice, Reg.SL_FREEZE_STATUS.STATUS slice] ++
      Fld.partStatus p
    (st ≠ Slice.RESETTING ∨ s.blk.cancelsOut slice = true → exec (.sliceResetComplete slice) s = .next s) ∧
    (st = Slice.RESETTING → s.blk.cancelsOut slice = false → s.blk.ep.flr = [] → Yields (.sliceResetComplete slice) s fun t =>
      t.blk.sliceState slice = (if v.releasing.isSome then Slice.RELEASING else Slice.OPEN) ∧ t.blk.gen slice = s.blk.genNext slice ∧
      (∀ c < 4, t.blk.q slice c = QueueState.reset ∧ t.blk.qState slice c = Q.DISABLED ∧ t.blk.rd (Reg.SL_Q_HEAD.INDEX slice c) = 0 ∧
        t.blk.rd (Reg.SL_Q_TAIL.INDEX slice c) = 0) ∧
      t.blk.rd (Reg.SL_CRING_HEAD.INDEX slice) = 0 ∧ t.blk.rd (Reg.SL_CRING_TAIL.INDEX slice) = 0 ∧
      t.blk.word (Reg.SL_MARK_STATUS.EPOCH slice).off = 0 ∧ t.blk.slice slice = { SliceState.reset with releasing := v.releasing, op := v.op } ∧
      t.blk.rd (Reg.SL_HANDLE_STATUS.LIVE slice) = 0 ∧ t.blk.dnSlice slice = DnSlice.reset ∧ t.blk.NoTlb slice ∧
      (∀ k, k / 4 ≠ slice.val → t.blk.queue k = s.blk.queue k) ∧ (∀ k, k ≠ slice.val → t.blk.slice k = s.blk.slice k) ∧
      s.blk.FieldsKept t.blk (Fld.sliceReset slice p ++ (s.blk.dn.parts.flatMap fun e => [Reg.DN_PART_STATUS.ACTIVE e.1, Reg.DN_PART_STATUS.FREE_PAGES e.1])) ∧
      t = { s with blk := { s.blk with regs := t.blk.regs, queues := t.blk.queues, slices := t.blk.slices, xlat := t.blk.xlat, ep := t.blk.ep
                                       pos := t.blk.pos, dn := t.blk.dn, out := t.blk.out
                                       fc := { s.blk.fc with dataReplayed := NSet.erase s.blk.fc.dataReplayed slice } } }) ∧
    (st ≠ Slice.FREEZING → exec (.freezeDrainComplete slice) s = .next s ∧ exec (.freezeWaitTimeout slice) s = .next s) ∧
    (s.blk.drained slice = false → exec (.freezeDrainComplete slice) s = .next s) ∧
    (st = Slice.FREEZING → s.blk.drained slice = true → ∀ c, c = .freezeDrainComplete slice ∨ c = .freezeWaitTimeout slice → Yields c s fun t =>
      t.blk.sliceState slice = Slice.FROZEN ∧ t.blk.rd (Reg.SL_FREEZE_STATUS.RUNNING slice) = 0 ∧ t.blk.rd (Reg.SL_FREEZE_STATUS.VALID slice) = 1 ∧
      t.blk.rd (Reg.SL_FREEZE_STATUS.STATUS slice) = Code.SUCCESS ∧ t.blk.slice slice = { v with freeze := none } ∧
      t = { s with blk := { s.blk with regs := t.blk.regs, slices := t.blk.slices } } ∧ s.blk.FieldsKept t.blk fr) ∧
    (st = Slice.FREEZING → s.blk.drained slice = false → s.blk.recovering p = false →
      (s.blk.is (Reg.SL_MARK_STATUS.VALID slice) = false ∨ v.unreplayable = true ∨
          (∃ c : ClassNo, (s.blk.rd (Reg.SL_MARK_CFG.QMASK slice)).testBit c = false ∧ (s.blk.q slice c).inflight ≠ []) →
        Yields (.freezeWaitTimeout slice) s fun t =>
          t.blk.sliceState slice = Slice.OPEN ∧ t.blk.rd (Reg.SL_FREEZE_STATUS.VALID slice) = 1 ∧
          t.blk.rd (Reg.SL_FREEZE_STATUS.STATUS slice) = Code.TEN_FREEZE_REFUSED ∧ t.blk.slice slice = { v with freeze := none } ∧
          t = { s with blk := { s.blk with regs := t.blk.regs, slices := t.blk.slices } } ∧ s.blk.FieldsKept t.blk fr) ∧
      (s.blk.is (Reg.SL_MARK_STATUS.VALID slice) = true → v.unreplayable = false → s.blk.pos = [] → s.blk.sites = [] → s.blk.dn.parts = [] →
        (∀ c : ClassNo, (s.blk.rd (Reg.SL_MARK_CFG.QMASK slice)).testBit c = true ∧ s.blk.qState slice c ≠ Q.DISABLED) →
        Yields (.freezeWaitTimeout slice) s fun t =>
          t.blk.sliceState slice = Slice.FROZEN ∧ t.blk.rd (Reg.SL_FREEZE_STATUS.STATUS slice) = Code.SUCCESS ∧
          (∀ e, v.snapshot = [e] → t.blk.syncVal e.1 = e.2 % 2 ^ 64 ∧ ∀ k, k ≠ e.1 → t.blk.syncVal k = s.blk.syncVal k) ∧
          (∀ c : ClassNo, (t.blk.q slice c).inflight = [] ∧ ((t.blk.q slice c).stopping = false →
            (t.blk.q slice c).replay = (s.blk.q slice c).log ++ (s.blk.q slice c).replay)) ∧
          (∀ k, k / 4 ≠ slice.val → t.blk.queue k = s.blk.queue k) ∧
          t = { s with blk := { s.blk with regs := t.blk.regs, queues := t.blk.queues, slices := t.blk.slices, ext := t.blk.ext, sync := t.blk.sync } })) ∧
    (st ≠ Slice.RELEASING ∨ v.releasing = none ∨ s.blk.cancelsOut slice = true → exec (.releaseDone slice) s = .next s) ∧
    ∀ wipe, st = Slice.RELEASING → v.releasing = some wipe → s.blk.cancelsOut slice = false → Yields (.releaseDone slice) s fun t =>
      t.blk.sliceState slice = Slice.FREE ∧ SMap.get (fun _ => none) t.blk.keys.slice slice = none ∧ t.blk.keys.slot = s.blk.keys.slot ∧
      t.blk.slice slice = SliceState.reset ∧ t.blk.dnSlice slice = DnSlice.reset ∧ t.blk.windows slice = [] ∧
      t.blk.rd (Reg.SL_QUOTA.HANDLES slice) = 0 ∧ t.blk.rd (Reg.SL_QUOTA.ACTIVE_REQ slice) = 0 ∧ t.blk.rd (Reg.XL_SLICE_ATTR00.ATOM_EN slice) = 0 ∧
      (∀ e ∈ t.blk.xlat.acc, ∀ c ∈ e.2, c.slice ≠ slice.val) ∧
      (∀ a, t.blk.shelfByte a = if a < 2 ^ 29 ∧ ∃ w ∈ s.blk.windows slice, w.1 ≤ a ∧ a < w.1 + w.2 then 0 else s.blk.shelfByte a) ∧
      (∀ k : Fin 131072, t.blk.syncVal k = if ∃ w ∈ s.blk.windows slice, w.1 ≤ Dla.syncBase + 8 * k ∧ Dla.syncBase + 8 * k + 8 ≤ w.1 + w.2 then 0
        else s.blk.syncVal k) ∧
      ((∀ w ∈ s.blk.windows slice, w.1 + w.2 ≤ Dla.hbmBase) → t.blk.hbm = s.blk.hbm) ∧
      (∀ k, k / 4 ≠ slice.val → t.blk.queue k = s.blk.queue k) ∧ (∀ k, k ≠ slice.val → t.blk.slice k = s.blk.slice k) ∧
      t = { s with blk := { s.blk with regs := t.blk.regs, queues := t.blk.queues, slices := t.blk.slices, xlat := t.blk.xlat, ep := t.blk.ep
                                       pos := t.blk.pos, dn := t.blk.dn, out := t.blk.out, shelf := t.blk.shelf, hbm := t.blk.hbm
                                       sync := t.blk.sync, keys := t.blk.keys
                                       fc := { s.blk.fc with dataReplayed := NSet.erase s.blk.fc.dataReplayed slice } } })

/-- SAVE, SAVE_DONE, RESTORE and RESTORE_DONE (R270, R271, R273): the checks and their statuses; each runs under a handle of slice 0 and a journal entry;
a SAVE's end leaves the slice FROZEN; a RESTORE ends FROZEN with the next generation, or fails and releases the slice. -/
def Obligations.SaveAndRestore : Prop :=
  ∀ (s : State) (slice : SliceNo),
    let v := s.blk.slice slice
    let st := s.blk.sliceState slice
    let ptr := s.blk.rd Reg.SL_MGR_ARG0.PTR
    let len := s.blk.rd Reg.SL_MGR_ARG1.LENGTH
    let ks := s.blk.rd Reg.SL_MGR_ARG1.KEY_SLOT
    let key (k : Nat) := SMap.get (fun _ => none) s.blk.keys.slot k
    let okArgs := Sec.ptrOk ptr && (key ks).isSome
    let units := (s.blk.savedReqs slice).length
    let pages := (s.blk.imagePages slice).length
    let state := 2 + ceilDiv (64 * units) 4096
    let enc := state + pages + ceilDiv pages 512
    let seq := s.blk.rd (Reg.SL_HANDLE_STATUS.NEXT_SEQ 0)
    let handles := [Reg.SL_HANDLE_STATUS.NEXT_SEQ 0, Reg.SL_HANDLE_STATUS.LIVE 0]
    (s.blk.nameable slice = false → s.Refused (.save slice) 6 slice Code.TEN_BAD_ARG) ∧
    (s.blk.nameable slice = true →
      (st ≠ Slice.FROZEN ∨ v.op ≠ none → s.Refused (.save slice) 6 slice Code.TEN_BAD_STATE) ∧
      (st = Slice.FROZEN → v.op = none →
        (okArgs = false → s.Refused (.save slice) 6 slice Code.TEN_BAD_ARG) ∧
        (okArgs = true → v.handles ≠ [] → s.Refused (.save slice) 6 slice Code.TEN_HANDLES_LIVE) ∧
        (okArgs = true → v.handles = [] → len < 1 + enc + ceilDiv enc 512 → s.Refused (.save slice) 6 slice Code.TEN_BAD_ARG) ∧
        (okArgs = true → v.handles = [] → 1 + enc + ceilDiv enc 512 ≤ len →
          min 256 (s.blk.rd (Reg.SL_QUOTA.HANDLES 0)) ≤ (s.blk.slice 0).handles.length → s.Refused (.save slice) 6 slice Code.HANDLE_LIMIT) ∧
        ∀ j, okArgs = true → v.handles = [] → 1 + enc + ceilDiv enc 512 ≤ len →
          (s.blk.slice 0).handles.length < min 256 (s.blk.rd (Reg.SL_QUOTA.HANDLES 0)) → s.blk.journalFree = some j → Yields (.save slice) s fun t =>
            t.blk.slice slice = { v with op := some ⟨false, ptr, len, ks, seq, j⟩ } ∧ t.blk.sliceState slice = Slice.FROZEN ∧
            (t.blk.slice 0).handles = (s.blk.slice 0).handles ++ [⟨seq, [], none⟩] ∧
            t.blk.rd Reg.SL_MGR_RESULT.STATUS = Code.SUCCESS ∧ t.blk.rd Reg.SL_MGR_RESULT.HANDLE = Handle.number 0 (s.blk.gen 0) seq ∧
            t.blk.journalState j = Journal.RUNNING ∧ t.blk.rd (Reg.MH_JOURNAL00.KIND j) = Journal.SAVE ∧
            s.blk.FieldsKept t.blk (Fld.mgr ++ handles ++ Fld.journal j) ∧
            t = { s with blk := { s.blk with regs := t.blk.regs, slices := t.blk.slices } })) ∧
    (slice.val = 0 ∨ s.blk.partEmpty (s.blk.rd Reg.SL_MGR_ARG1.PARTITION) = true → s.Refused (.restore slice) 7 slice Code.TEN_BAD_ARG) ∧
    (slice.val ≠ 0 → s.blk.partEmpty (s.blk.rd Reg.SL_MGR_ARG1.PARTITION) = false →
      (st ≠ Slice.FREE → s.Refused (.restore slice) 7 slice Code.TEN_BAD_STATE) ∧
      (st = Slice.FREE → okArgs = false → s.Refused (.restore slice) 7 slice Code.TEN_BAD_ARG) ∧
      ∀ j, st = Slice.FREE → okArgs = true → (s.blk.slice 0).handles.length < min 256 (s.blk.rd (Reg.SL_QUOTA.HANDLES 0)) →
        s.blk.journalFree = some j → Yields (.restore slice) s fun t =>
          t.blk.slice slice = { v with op := some ⟨true, ptr, len, ks, seq, j⟩ } ∧ t.blk.sliceState slice = Slice.RESTORING ∧
          t.blk.slicePart slice = s.blk.rd Reg.SL_MGR_ARG1.PARTITION ∧ t.blk.rd Reg.SL_MGR_RESULT.STATUS = Code.SUCCESS ∧
          t.blk.rd Reg.SL_MGR_RESULT.HANDLE = Handle.number 0 (s.blk.gen 0) seq ∧ t.blk.journalState j = Journal.RUNNING ∧
          s.blk.FieldsKept t.blk ([Reg.SL_CFG.PARTITION slice, Reg.SL_STATUS.STATE slice] ++ Fld.mgr ++ handles ++ Fld.journal j ++
            Fld.partStatus (s.blk.rd Reg.SL_MGR_ARG1.PARTITION)) ∧
          t = { s with blk := { s.blk with regs := t.blk.regs, slices := t.blk.slices } }) ∧
    (slice.val ≠ 0 → s.blk.ext.need = [] →
      (v.op = none → Yields (.saveDone slice) s fun t => t = { s with blk := { s.blk with ext := t.blk.ext } }) ∧
      (v.op = none → Yields (.restoreDone slice) s fun t => t = { s with blk := { s.blk with ext := t.blk.ext } }) ∧
      ∀ o, v.op = some o → s.blk.HandleAlone o.seq →
        (o.restore = false → key o.keySlot = none → Yields (.saveDone slice) s fun t =>
          (t.blk.slice slice).op = none ∧ t.blk.journalState o.journal = Journal.ABORTED ∧ s.blk.HandleEnds t.blk o.seq Code.TEN_ABORTED ∧
          t.blk.sliceState slice = st ∧ s.blk.FieldsKept t.blk (Reg.SL_CRING_STATUS.FULL 0 :: Fld.journal o.journal) ∧
          t = { s with blk := { s.blk with regs := t.blk.regs, slices := t.blk.slices, ext := t.blk.ext } }) ∧
        (o.restore = false → ∀ k, key o.keySlot = some k → ∀ b' st', s.blk.saveImage slice o k = (b', st') → b'.ext.need = [] →
          b'.slices = s.blk.slices → b'.queues = s.blk.queues → b'.regs = s.blk.regs → Yields (.saveDone slice) s fun t =>
            (t.blk.slice slice).op = none ∧ t.blk.journalState o.journal = (if st' = Code.SUCCESS then Journal.DONE else Journal.ABORTED) ∧
            s.blk.HandleEnds t.blk o.seq st' ∧ t.blk.sliceState slice = st ∧
            s.blk.FieldsKept t.blk (Reg.SL_CRING_STATUS.FULL 0 :: Fld.journal o.journal) ∧
            t = { s with blk := { b' with regs := t.blk.regs, slices := t.blk.slices, ext := t.blk.ext } }) ∧
        (o.restore = true → s.blk.pos = [] → s.blk.sites = [] → s.blk.sec.installs = [] → st = Slice.RESTORING →
          (key o.keySlot = none ∨ (∃ k ∈ (key o.keySlot).toList, (s.blk.loadImage o k).2.2 = none ∧ (s.blk.loadImage o k).1 = s.blk) →
            Yields (.restoreDone slice) s fun t =>
              t.blk.sliceState slice = Slice.RELEASING ∧ (t.blk.slice slice).op = none ∧ (t.blk.slice slice).releasing = some false ∧
              t.blk.journalState o.journal = Journal.ABORTED ∧ s.blk.Stopped t.blk slice ∧
              s.blk.HandleEnds t.blk o.seq (match key o.keySlot with
                | none => Code.TEN_IMAGE_BAD
                | some k => (s.blk.loadImage o k).2.1) ∧
              t = { s with blk := { s.blk with regs := t.blk.regs, queues := t.blk.queues, slices := t.blk.slices, ext := t.blk.ext, sync := t.blk.sync } }) ∧
          ∀ k, key o.keySlot = some k → ∀ w, s.blk.loadImage o k = (s.blk, Code.SUCCESS, some w) →
            s.blk.conflict slice (s.blk.slicePart slice) w = false →
            (s.blk.liveSlices.any fun n => decide (n ≠ slice.val) && decide (s.blk.fnOf n = s.blk.fnOf slice) && decide (s.blk.pasid n = bits (w.word 0) 0 20)) = false →
            ∀ b', s.blk.takeImage slice w = (b', Code.SUCCESS) → b'.ext.need = [] → b'.HandleAlone o.seq → b'.slice slice = { v with unreplayable := true } →
            Yields (.restoreDone slice) s fun t =>
              t.blk.sliceState slice = Slice.FROZEN ∧ (t.blk.slice slice).op = none ∧ t.blk.journalState o.journal = Journal.DONE ∧
              t.blk.gen slice = b'.gen slice ∧ b'.HandleEnds t.blk o.seq Code.SUCCESS ∧
              b'.FieldsKept t.blk ([Reg.SL_STATUS.STATE slice, Reg.SL_QUOTA.ACTIVE_REQ slice, Reg.MH_STATUS.TUNE_CLAMP, Reg.SL_CRING_STATUS.FULL 0] ++
                Fld.journal o.journal ++ Fld.partStatus (b'.slicePart slice)) ∧
              t = { s with blk := { b' with regs := t.blk.regs, slices := t.blk.slices, ext := t.blk.ext } }))

/-- PARTITION_RESET, PARTITION_RESET_DONE, REFORM and REFORM_DONE (R259, R260, R272): a reset of an empty partition finds nothing; another resets its open
slices, and ends with its function's RESET_SEEN; a re-form of no such layout or of a busy partition is refused; one that ends puts the layout in
force, with the shelf groups that moved zero-filled. -/
def Obligations.Partitions : Prop :=
  ∀ s : State, s.blk.coh.dir = [] →
    (∀ part : PartNo,
      (s.blk.partEmpty part = true → s.Refused (.partitionReset part) 8 part Code.SUCCESS) ∧
      (s.blk.partEmpty part = false → s.blk.ten.resets = [] → (∀ k, s.blk.Quiet k) → Yields (.partitionReset part) s fun t =>
        t.blk.ten = { s.blk.ten with resets := [⟨part, false, s.blk.now⟩] } ∧ t.blk.rd (Reg.SL_PART_STATUS.RESETTING part) = 1 ∧
        t.blk.rd Reg.SL_MGR_RESULT.STATUS = Code.SUCCESS ∧
        (∀ sl ∈ s.blk.partSlices part, t.blk.sliceState sl =
          (if s.blk.sliceState sl = Slice.OPEN ∨ s.blk.sliceState sl = Slice.FREEZING ∨ s.blk.sliceState sl = Slice.FROZEN then Slice.RESETTING
            else if s.blk.sliceState sl = Slice.RESTORING then Slice.RELEASING else s.blk.sliceState sl)) ∧
        t.blk.sync.vals = s.blk.sync.vals ∧
        t = { s with blk := { s.blk with regs := t.blk.regs, queues := t.blk.queues, slices := t.blk.slices, ext := t.blk.ext, sync := t.blk.sync
                                         ten := t.blk.ten } }) ∧
      ((s.blk.ten.resets.any fun r => r.part = part) = false → exec (.partitionResetDone part) s = .next s) ∧
      (∀ flr at', s.blk.ten.resets = [⟨part, flr, at'⟩] → s.blk.sites = [] → s.blk.pos = [] → s.blk.ep.flr = [] → s.blk.fc.opened = [] →
        Yields (.partitionResetDone part) s fun t =>
          t.blk.ten.resets = [] ∧ t.blk.rd (Reg.SL_PART_STATUS.RESETTING part) = 0 ∧ NSet.has t.blk.ep.resetSeen (part + 1) = true ∧
          (∀ sl ∈ s.blk.partSlices part, s.blk.sliceState sl = Slice.RESETTING → t.blk.gen sl = s.blk.genNext sl ∧
            t.blk.sliceState sl = if (s.blk.slice sl).releasing.isSome then Slice.RELEASING else Slice.OPEN) ∧
          t.blk.shelf = s.blk.shelf ∧ t.blk.hbm = s.blk.hbm ∧ t.blk.keys = s.blk.keys ∧ t.blk.sync = s.blk.sync ∧ t.fuse = s.fuse)) ∧
    let l := s.blk.rd Reg.SL_MGR_ARG1.LAYOUT
    let target := s.blk.rd Reg.SL_MGR_OP.TARGET
    (s.blk.layouts ≤ l → s.Refused .reform 9 target Code.TEN_BAD_ARG) ∧
    (l < s.blk.layouts → s.blk.ten.reform ≠ none ∨ (∃ p ∈ s.blk.changedParts l, s.blk.partSlices p ≠ []) → s.Refused .reform 9 target Code.TEN_REFORM_BUSY) ∧
    (l < s.blk.layouts → s.blk.ten.reform = none → s.blk.sec.installs = [] → (∀ p ∈ s.blk.changedParts l, s.blk.partSlices p = []) →
      (s.blk.slice 0).handles.length < min 256 (s.blk.rd (Reg.SL_QUOTA.HANDLES 0)) → ∀ j, s.blk.journalFree = some j → Yields .reform s fun t =>
        let seq := s.blk.rd (Reg.SL_HANDLE_STATUS.NEXT_SEQ 0)
        t.blk.ten = { s.blk.ten with reform := some ⟨l, s.blk.changedParts l, seq, j⟩ } ∧ t.blk.rd Reg.MH_IMAGE.LAYOUT = s.blk.rd Reg.MH_IMAGE.LAYOUT ∧
        t.blk.rd Reg.SL_MGR_RESULT.STATUS = Code.SUCCESS ∧ t.blk.rd Reg.SL_MGR_RESULT.HANDLE = Handle.number 0 (s.blk.gen 0) seq ∧
        t.blk.journalState j = Journal.RUNNING ∧ (∀ p ∈ s.blk.changedParts l, t.blk.rd (Reg.SL_PART_STATUS.REFORMING p) = 1) ∧
        t = { s with blk := { s.blk with regs := t.blk.regs, slices := t.blk.slices, ten := t.blk.ten } }) ∧
    (s.blk.ten.reform = none → exec .reformDone s = .next s) ∧
    ∀ r, s.blk.ten.reform = some r → s.blk.HandleAlone r.seq → s.blk.ten.deferred = [] → r.layout < 8 → Yields .reformDone s fun t =>
      t.blk.rd Reg.MH_IMAGE.LAYOUT = r.layout ∧ t.blk.ten = { s.blk.ten with reform := none } ∧ t.blk.journalState r.journal = Journal.DONE ∧
      s.blk.HandleEnds t.blk r.seq Code.SUCCESS ∧
      (∀ a < 2 ^ 29, t.blk.shelfByte a = if a / 2 ^ 24 ∈ s.blk.movedBits s.blk.layout r.layout 32 PartRec.groups then 0 else s.blk.shelfByte a) ∧
      (∀ p ∈ r.changed, NSet.has t.blk.ep.resetSeen (p + 1) = true) ∧
      (s.blk.movedBits s.blk.layout r.layout 64 PartRec.regions = [] → t.blk.hbm = s.blk.hbm) ∧ t.blk.queues = s.blk.queues ∧ t.blk.keys = s.blk.keys

/-- MBX_MESSAGE_SEND, MBX_ACK, MBX_SEND and MBX_IN_CLEAR (R266): a message is copied to the manager's inbox and its vector sent, or dropped; ACK frees the
inbox; SEND copies the manager's words to the tenant and sends its vector, or has no effect while a message waits. -/
def Obligations.Mailboxes : Prop :=
  ∀ (s : State) (slice : SliceNo),
    let v := s.blk.slice slice
    let fn := s.blk.fnOf slice
    let pf := s.blk.rd (Reg.SL_MBX_CTRL.PF_VECTOR slice)
    let vf := s.blk.rd (Reg.SL_MBX_CTRL.VF_VECTOR slice)
    (∀ m0 : Word,
      (v.outBusy = true ∨ 0x80 ≤ m0.toNat % 256 → Yields (.mbxMessageSend slice m0) s fun t =>
        t.blk.slice slice = { v with dropped := true } ∧ t = { s with blk := { s.blk with slices := t.blk.slices } }) ∧
      (v.outBusy = false → m0.toNat % 256 < 0x80 → Yields (.mbxMessageSend slice m0) s fun t =>
        t.blk.rd (Reg.SL_MBX_IN.WORD slice 0) = m0.toNat ∧ (∀ i, 1 ≤ i → i < 8 → t.blk.rd (Reg.SL_MBX_IN.WORD slice i) = v.mbxOut.getD i 0 % 2 ^ 64) ∧
        t.blk.slice slice = { v with outBusy := true } ∧ t.blk.rd (Reg.SL_MBX_CTRL.IN_FULL slice) = 1 ∧
        (if s.blk.msixAllowed 0 pf then t.blk.out = s.blk.out ++ [s.blk.onStream 0 (.msix 0 pf)] else NSet.has t.blk.ep.msixPending pf = true ∧ t.blk.out = s.blk.out) ∧
        s.blk.FieldsKept t.blk (Reg.SL_MBX_CTRL.IN_FULL slice :: (List.range 8).map (Reg.SL_MBX_IN.WORD slice)) ∧
        t = { s with blk := { s.blk with regs := t.blk.regs, slices := t.blk.slices, ep := t.blk.ep, out := t.blk.out } })) ∧
    (Yields (.mbxAck slice) s fun t => t.blk.slice slice = { v with outBusy := false } ∧ t.blk.rd (Reg.SL_MBX_CTRL.IN_FULL slice) = 0 ∧
      s.blk.FieldsKept t.blk [Reg.SL_MBX_CTRL.IN_FULL slice] ∧ t = { s with blk := { s.blk with regs := t.blk.regs, slices := t.blk.slices } }) ∧
    (v.inValid = true → Yields (.mbxSend slice) s fun t =>
      t.blk.rd (Reg.SL_MBX_CTRL.SEND_DROP slice) = 1 ∧ OnlyFields s t [Reg.SL_MBX_CTRL.SEND_DROP slice]) ∧
    (v.inValid = false → Yields (.mbxSend slice) s fun t =>
      t.blk.slice slice = { v with mbxIn := (List.range 8).map fun i => s.blk.rd (Reg.SL_MBX_OUT.WORD slice i), inValid := true } ∧
      (if s.blk.msixAllowed fn vf then t.blk.out = s.blk.out ++ [s.blk.onStream fn (.msix fn vf)]
        else NSet.has t.blk.ep.msixPending (fn * 2048 + vf) = true ∧ t.blk.out = s.blk.out) ∧
      t = { s with blk := { s.blk with slices := t.blk.slices, ep := t.blk.ep, out := t.blk.out } }) ∧
    Yields (.mbxInClear slice) s fun t => t.blk.slice slice = { v with inValid := false } ∧ t = { s with blk := { s.blk with slices := t.blk.slices } }

/-! ### Halyard (13) -/

/-- HALYARD_INJECT (R278–R280, R282–R285): a request is carried at the ensign its port's table gives; it goes when its ceiling and its bucket let it, is
outstanding and counted from then, and otherwise waits; a response ends its request with its status and latency, or is late; a corrected beat is
counted; a damaged header is discarded, and damaged data ends a request with HY_PACKET_POISON. DOMAIN_WAKE, WAKE_TIMEOUT, IDLE_GATE, HY_REQ_TIMEOUT
and SNAP (R281, R282, R285, R392): a domain that wakes lets the packets held for it go on; one that does not ends their requests with HY_WAKE_FAILED
and raises a pennant naming it; an idle domain that nothing needs is gated; a request without a response ends with HY_TIMEOUT; SNAP copies every live
counter and zeroes it. -/
def Obligations.Halyard : Prop :=
  (
  ∀ (s : State) (c : HyCmd), s.blk.hy.waiting = [] →
    let permit := s.blk.rd (Reg.HY_ENS.PERMIT c.src)
    let d := s.blk.rd (Reg.HY_ENS.DEF_ENSIGN c.src)
    let keep := permit = 0 ∨ permit.testBit c.ensign = true
    let e := if keep then c.ensign.val else if permit.testBit d then d else (lowBit? permit 8).getD 0
    let p : HyPacket := ⟨c.dst, c.src, e, c.kind, c.tag.toNat, c.len1 + 1, c.slice, c.gen.toNat, false, c.addr.toNat, c.status.toNat, s.blk.now⟩
    let q : HyPacket := { p with ensign := c.ensign }
    let under := permit = 0 ∨ e = 0 ∨ ((s.blk.hy.outstanding.filter fun o => decide (o.pkt.src = c.src.val ∧ o.pkt.ensign = e)).length <
      max 1 (s.blk.rd (Reg.HY_CEIL.CEIL c.src e)))
    let regulated := e ≠ 0 ∧ s.blk.rd (Reg.HY_REG.RATE_MAX c.src e) ≠ 0
    let paid := ¬regulated ∨ 0 ≤ s.blk.hyTokens c.src e
    let up := (Hy.domains c.dst c.addr.toNat).all fun x => !s.blk.gated x
    let free := up && s.blk.hy.heldPkts.isEmpty
    let live (t : State) := SMap.get (fun _ => HyLive.zero) t.blk.hy.live c.src.val
    (c.kind.val < 4 → (under ∧ paid → Yields (.halyardInject (some c) .clean) s fun t =>
        t.blk.hy.outstanding = s.blk.hy.outstanding ++ [⟨p, s.blk.now⟩] ∧ t.blk.hy.waiting = [] ∧
        t.blk.hy.turn = Wrr.took s.blk.hy.turn (s.blk.rd (Reg.HY_ENS_WEIGHT.W e)) e ∧
        (live t).reqs = satAdd 32 (live s).reqs 1 ∧ (live t).bytes = satAdd 64 (live s).bytes (c.len1 + 1) ∧
        (live t).remap = (if keep then (live s).remap else satAdd 32 (live s).remap 1) ∧
        t.blk.rd (Reg.HY_REG.TOKENS c.src e) = (if regulated then toBits (s.blk.hyTokens c.src e - (c.len1 + 1)) 24 else s.blk.rd (Reg.HY_REG.TOKENS c.src e)) ∧
        (free = true → t.blk.hy.delivered = s.blk.hy.delivered ++ [p] ∧ t.blk.hy.heldPkts = []) ∧
        (up = false → t.blk.hy.delivered = s.blk.hy.delivered ∧ t.blk.hy.heldPkts = s.blk.hy.heldPkts ++ [p] ∧
          ∀ x ∈ Hy.domains c.dst c.addr.toNat, s.blk.gated x = true → NSet.has t.blk.hy.waking x = true) ∧
        s.blk.FieldsKept t.blk [Reg.HY_REG.TOKENS c.src e, Reg.HY_STATUS.WAKING] ∧
        t = { s with blk := { s.blk with regs := t.blk.regs, hy := t.blk.hy } }) ∧
      (¬(under ∧ paid) → Yields (.halyardInject (some c) .clean) s fun t =>
        t.blk.hy = { s.blk.hy with waiting := [p], live := t.blk.hy.live } ∧ t = { s with blk := { s.blk with hy := t.blk.hy } })) ∧
    (c.kind.val = 4 → free = true →
      (∀ o, s.blk.hyFind c.dst c.tag.toNat = some o →
        (∀ u, u = .clean ∨ (∃ n, u = .corrected n) → Yields (.halyardInject (some c) u) s fun t =>
          t.blk.hy.outstanding = s.blk.hy.outstanding.erase o ∧ t.blk.hy.ended = s.blk.hy.ended ++ [(o.pkt.src, o.pkt.tag, c.status.toNat)] ∧
          t.blk.hy.delivered = s.blk.hy.delivered ++ [q] ∧
          (SMap.get (fun _ => HyLive.zero) t.blk.hy.live o.pkt.src).latSum =
            satAdd 64 (SMap.get (fun _ => HyLive.zero) s.blk.hy.live o.pkt.src).latSum (s.blk.now - o.pkt.presented) ∧
          t.blk.rd Reg.HY_ECC_CE.COUNT = (match u with
            | .corrected n => satAdd 32 (s.blk.rd Reg.HY_ECC_CE.COUNT) n.toNat
            | _ => s.blk.rd Reg.HY_ECC_CE.COUNT) ∧
          s.blk.FieldsKept t.blk [Reg.HY_ECC_CE.COUNT] ∧ t = { s with blk := { s.blk with regs := t.blk.regs, hy := t.blk.hy } }) ∧
        ∀ (r : Fin 32) (l : Fin 6), (Hy.path c.src c.dst).contains r.val = true → Yields (.halyardInject (some c) (.uncorrectable false r l)) s fun t =>
          t.blk.hy.outstanding = s.blk.hy.outstanding.erase o ∧ t.blk.hy.ended = s.blk.hy.ended ++ [(o.pkt.src, o.pkt.tag, Code.HY_PACKET_POISON)] ∧
          t.blk.rd Reg.HY_ECC_UE.COUNT = satAdd 32 (s.blk.rd Reg.HY_ECC_UE.COUNT) 1 ∧
          t = { s with blk := { s.blk with regs := t.blk.regs, hy := t.blk.hy, fc := t.blk.fc } }) ∧
      (s.blk.hyFind c.dst c.tag.toNat = none → Yields (.halyardInject (some c) .clean) s fun t =>
        t.blk.rd Reg.HY_LATE_RSP.COUNT = satAdd 32 (s.blk.rd Reg.HY_LATE_RSP.COUNT) 1 ∧ OnlyFields s t [Reg.HY_LATE_RSP.COUNT])) ∧
    (4 ≤ c.kind.val → ∀ (r : Fin 32) (l : Fin 6), (Hy.path c.src c.dst).contains r.val = true → Yields (.halyardInject (some c) (.uncorrectable true r l)) s fun t =>
      t.blk.hy = s.blk.hy ∧ t.blk.rd Reg.HY_ECC_UE.COUNT = satAdd 32 (s.blk.rd Reg.HY_ECC_UE.COUNT) 1 ∧
      s.blk.Raised t.blk (if l.val < 4 then Src.router r else Src.tap c.dst) Kind.HY_UNCORRECTABLE l c.addr.toNat ∧
      t = { s with blk := { s.blk with regs := t.blk.regs, fc := t.blk.fc } }) ∧
    exec (.halyardInject none .clean) s = .next s) ∧
  (
  ∀ s : State,
    (∀ d : Fin 212,
      let bit' : Fld := ⟨(Reg.PW_GATED.GATED (d / 64)).off, d % 64, 1⟩
      let toIt (p : HyPacket) : Bool := (Hy.domains p.dst p.addr).contains d.val
      (NSet.has s.blk.hy.waking d = false → exec (.domainWake d) s = .next s ∧ exec (.wakeTimeout d) s = .next s) ∧
      (s.blk.powerOff d = true → exec (.domainWake d) s = .next s) ∧
      (NSet.has s.blk.hy.waking d = true → ∀ p, s.blk.hy.heldPkts = [p] → Hy.domains p.dst p.addr = [d.val] →
        (s.blk.powerOff d = false → p.kind < 4 → p.poison = false → Yields (.domainWake d) s fun t =>
          t.blk.gated d = false ∧ t.blk.hy.heldPkts = [] ∧ t.blk.hy.delivered = s.blk.hy.delivered ++ [p] ∧ NSet.has t.blk.hy.waking d = false ∧
          t.blk.rd Reg.HY_WAKES.COUNT = satAdd 32 (s.blk.rd Reg.HY_WAKES.COUNT) 1 ∧
          t.blk.rd Reg.HY_STATUS.WAKING = t.blk.hy.waking.length % 256 ∧ t.blk.hy.outstanding = s.blk.hy.outstanding ∧
          s.blk.FieldsKept t.blk [bit', Reg.HY_WAKES.COUNT, Reg.HY_STATUS.WAKING] ∧
          t = { s with blk := { s.blk with regs := t.blk.regs, hy := t.blk.hy } }) ∧
        (p.kind < 4 → ∀ o, s.blk.hyFind p.src p.tag = some o → Yields (.wakeTimeout d) s fun t =>
          t.blk.hy.heldPkts = [] ∧ t.blk.hy.outstanding = s.blk.hy.outstanding.erase o ∧
          t.blk.hy.ended = s.blk.hy.ended ++ [(o.pkt.src, o.pkt.tag, Code.HY_WAKE_FAILED)] ∧ NSet.has t.blk.hy.waking d = false ∧
          t.blk.hy.delivered = s.blk.hy.delivered ∧ s.blk.Raised t.blk Src.power Kind.HY_WAKE_FAIL d 0 ∧
          t = { s with blk := { s.blk with regs := t.blk.regs, hy := t.blk.hy, fc := t.blk.fc } }) ∧
        (p.kind = 4 → Yields (.wakeTimeout d) s fun t =>
          t.blk.hy.heldPkts = [] ∧ t.blk.hy.outstanding = s.blk.hy.outstanding ∧ t.blk.hy.ended = s.blk.hy.ended ∧
          t.blk.hy.delivered = s.blk.hy.delivered ∧ s.blk.Raised t.blk Src.power Kind.HY_WAKE_FAIL d 0)) ∧
      let needed := !s.blk.is Reg.PW_GATE_CFG.EN || Hy.alwaysOn d || s.blk.hy.heldPkts.any toIt ||
        s.blk.hy.outstanding.any (fun o => toIt o.pkt || (Hy.domains o.pkt.src o.pkt.addr).contains d.val) || s.blk.unitBusy d
      (needed = true → exec (.idleGate d) s = .next s) ∧
      (needed = false → Yields (.idleGate d) s fun t => t.blk.gated d = true ∧ OnlyFields s t [bit'])) ∧
    (∀ (port : Fin 105) (tag : BitVec 12),
      (s.blk.hyFind port tag.toNat = none → exec (.hyReqTimeout port tag) s = .next s) ∧
      (∀ o, s.blk.hyFind port tag.toNat = some o → Yields (.hyReqTimeout port tag) s fun t =>
        t.blk.hy.outstanding = s.blk.hy.outstanding.erase o ∧ t.blk.hy.ended = s.blk.hy.ended ++ [(port.val, tag.toNat, Code.HY_TIMEOUT)] ∧
        t.blk.rd Reg.HY_TIMEOUTS.COUNT = satAdd 32 (s.blk.rd Reg.HY_TIMEOUTS.COUNT) 1 ∧ t.blk.hy.live = s.blk.hy.live ∧
        (∀ q ∈ t.blk.hy.heldPkts, q ∈ s.blk.hy.heldPkts ∧ ¬(q.kind < 4 ∧ q.src = port.val ∧ q.tag = tag.toNat)) ∧
        s.blk.FieldsKept t.blk [Reg.HY_TIMEOUTS.COUNT, Reg.HY_ERR_LOG.ROUTER, Reg.HY_ERR_LOG.LINK, Reg.HY_ERR_LOG.PORT, Reg.HY_ERR_LOG.KIND,
          Reg.HY_ERR_LOG.VALID, Reg.HY_ERR_LOG.OVERFLOW] ∧
        t = { s with blk := { s.blk with regs := t.blk.regs, hy := t.blk.hy } })) ∧
    Yields .snap s fun t =>
      (∀ p : Fin 128,
        let l := SMap.get (fun _ => HyLive.zero) s.blk.hy.live p
        t.blk.rd (Reg.HY_STAT_REQS.COUNT p) = l.reqs % 2 ^ 32 ∧ t.blk.rd (Reg.HY_STAT_REMAP.COUNT p) = l.remap % 2 ^ 32 ∧
        t.blk.rd (Reg.HY_STAT_BYTES.COUNT p) = l.bytes % 2 ^ 64 ∧ t.blk.rd (Reg.HY_STAT_LAT_SUM.COUNT p) = l.latSum % 2 ^ 64 ∧
        t.blk.rd (Reg.HY_STAT_LAT_MAX.CYCLES p) = l.latMax % 2 ^ 32) ∧
      t.blk.hy = { s.blk.hy with live := [] } ∧
      s.blk.FieldsKept t.blk ((List.range 128).flatMap fun p => [Reg.HY_STAT_REQS.COUNT p, Reg.HY_STAT_REMAP.COUNT p, Reg.HY_STAT_BYTES.COUNT p,
        Reg.HY_STAT_LAT_SUM.COUNT p, Reg.HY_STAT_LAT_MAX.CYCLES p]) ∧
      t = { s with blk := { s.blk with regs := t.blk.regs, hy := t.blk.hy } })

/-! ### The host endpoint (14) -/

/-- Table EPT-6 (R297, R305, R306): a request to a function that is shut, and an AtomicOp, is Unsupported Request; a write with EP set is discarded as
poisoned; after a device-fatal event BAR2 and BAR4 answer Completer Abort, BAR0 does not. A packet on an Insecure stream is discarded; one that fails
its check makes the stream Insecure; one with T set and no stream is logged as misrouted before the TDI rule. BAR0_ACCESS and BAR2_ACCESS (R292, R294,
Table EPT-5): BAR0 reaches the registers of the PF alone, in at most 8 bytes, and an access to the frame of a position that moves waits (R331); a
doorbell page is live on the PF and on the VF whose partition holds its slice, where a word acts as its own command; one that is not live reads zero,
takes nothing and is counted; page 0 of a VF shows its resets. BAR4_ACCESS (R295, R297): an access is performed at the DLA that its function's window
gives, in the window's slice; without a window, or without its right, it is Unsupported Request; a memory error that leaves the data in doubt answers
zeros with EP set, and any other failure is Completer Abort. -/
def Obligations.InboundAccesses : Prop :=
  (
  ∀ (s : State) (fn : Fin 33) (tag : BitVec 14) (off : BitVec 48) (op : BarOp) (ide : IdeTlp) (k : Fin 8) (d : List Byte),
    let r : BarReq := ⟨fn, tag, off, op, ide⟩
    let at' (o : BarOp) : BarReq := ⟨fn, tag, off, o, ide⟩
    let on (good : Bool) : BarReq := ⟨fn, tag, off, op, ⟨some k, ide.tee, good, ide.covered⟩⟩
    let plain : BarReq := ⟨fn, tag, off, op, ⟨none, false, ide.good, ide.covered⟩⟩
    let loose : BarReq := ⟨fn, tag, off, op, ⟨none, true, ide.good, ide.covered⟩⟩
    let s' : State := { s with blk := s.blk.aer (if s.blk.fnExists fn then fn else 0) 12 }
    (s.blk.ideIn fn ide = (s.blk, true) →
      (s.blk.Shut r → Yields (.bar0Access r) s (fun t => s.TurnedAway t r Reg.EP_IN_UR.COUNT 1 1) ∧
        Yields (.bar2Access r) s (fun t => s.TurnedAway t r Reg.EP_IN_UR.COUNT 1 1) ∧
        (s.blk.ext.need = [] → s.blk.ext.used = [] → Yields (.bar4Access r) s fun t => s.TurnedAway t r Reg.EP_IN_UR.COUNT 1 1)) ∧
      (¬s.blk.Shut r →
        Yields (.bar0Access (at' .atomic)) s (fun t => s.TurnedAway t (at' .atomic) Reg.EP_IN_UR.COUNT 1 1) ∧
        Yields (.bar2Access (at' .atomic)) s (fun t => s.TurnedAway t (at' .atomic) Reg.EP_IN_UR.COUNT 1 1) ∧
        Yields (.bar0Access (at' (.write d true))) s (fun t => s.TurnedAway t (at' (.write d true)) Reg.EP_IN_POISON.COUNT 3 0) ∧
        Yields (.bar2Access (at' (.write d true))) s (fun t => s.TurnedAway t (at' (.write d true)) Reg.EP_IN_POISON.COUNT 3 0) ∧
        (s.blk.ext.need = [] → s.blk.ext.used = [] →
          Yields (.bar4Access (at' .atomic)) s (fun t => s.TurnedAway t (at' .atomic) Reg.EP_IN_UR.COUNT 1 1) ∧
          Yields (.bar4Access (at' (.write d true))) s fun t => s.TurnedAway t (at' (.write d true)) Reg.EP_IN_POISON.COUNT 3 0) ∧
        (s.blk.rd Reg.MH_STATUS.DEVICE_FATAL = 1 ∨ s.blk.lc = Lc.END_OF_LIFE →
          Yields (.bar2Access (at' (.write d false))) s (fun t => s.TurnedAway t (at' (.write d false)) Reg.EP_IN_CA.COUNT 2 2) ∧
          Yields (.bar2Access (at' (.read 7))) s (fun t => s.TurnedAway t (at' (.read 7)) Reg.EP_IN_CA.COUNT 2 2) ∧
          (s.blk.ext.need = [] → s.blk.ext.used = [] →
            Yields (.bar4Access (at' (.write d false))) s (fun t => s.TurnedAway t (at' (.write d false)) Reg.EP_IN_CA.COUNT 2 2) ∧
            Yields (.bar4Access (at' (.read 7))) s fun t => s.TurnedAway t (at' (.read 7)) Reg.EP_IN_CA.COUNT 2 2)))) ∧
    (NSet.has s.blk.ep.insecure k = true → ∀ g : Bool, exec (.bar0Access (on g)) s = .next s ∧ exec (.bar2Access (on g)) s = .next s) ∧
    (NSet.has s.blk.ep.insecure k = false → Yields (.bar2Access (on false)) s fun t =>
      NSet.has t.blk.ep.insecure k = true ∧ s.blk.completions t.blk = [] ∧
      t.blk.ep = { s.blk.ep with insecure := NSet.insert k s.blk.ep.insecure, aer := t.blk.ep.aer, aerHeaders := t.blk.ep.aerHeaders } ∧
      t = { s with blk := { s.blk with ep := t.blk.ep, out := t.blk.out } }) ∧
    Yields (.bar2Access loose) s fun t => exec (.bar2Access plain) s' = .next t) ∧
  (
  ∀ (s : State) (fn : Fin 33) (tag : BitVec 14) (off : BitVec 48) (len1 : Fin 4096) (d : List Byte) (v : BitVec 32) (x : Word) (ide : IdeTlp),
    let req (o : BarOp) : BarReq := ⟨fn, tag, off, o, ide⟩
    let rd := req (.read len1)
    let wr := req (.write d false)
    let n := off.toNat / s.blk.dbStride
    let o := off.toNat % s.blk.dbStride
    let slice : SliceNo := Fin.ofNat 4096 n
    let w4 := req (.write (natLE 4 v.toNat) false)
    let live := fn.val = 0 ∨ (n ≠ 0 ∧ s.blk.slicePart n + 1 = fn)
    s.blk.ideIn fn ide = (s.blk, true) → ¬s.blk.Shut rd →
      (fn.val ≠ 0 → Yields (.bar0Access rd) s (fun t => s.TurnedAway t rd Reg.EP_IN_UR.COUNT 1 1) ∧
        Yields (.bar0Access wr) s (fun t => s.TurnedAway t wr Reg.EP_IN_UR.COUNT 1 1)) ∧
      (fn.val = 0 →
        (8 ≤ len1.val → Yields (.bar0Access rd) s fun t => s.TurnedAway t rd Reg.EP_IN_CA.COUNT 2 2) ∧
        (8 < d.length → Yields (.bar0Access wr) s fun t => s.TurnedAway t wr Reg.EP_IN_CA.COUNT 2 2) ∧
        (len1.val < 8 → s.blk.frameHeld off.toNat = true → Yields (.bar0Access rd) s fun t =>
          t = { s with blk := { s.blk with regDue := s.blk.regDue ++ [⟨false, off.toNat, len1 + 1, 0, some rd⟩] } }) ∧
        (len1.val < 8 → s.blk.frameHeld off.toNat = false → Yields (.bar0Access rd) s fun t =>
          s.blk.completions t.blk = [(0, tag.toNat, 0, false, natLE (len1 + 1) (s.blk.regGet off.toNat (len1 + 1) true).2)] ∧
          t = { s with blk := { s.blk with regs := t.blk.regs, out := t.blk.out } } ∧
          s.blk.FieldsKept t.blk (Fld.readClear off.toNat (len1 + 1))) ∧
        (off.toNat < 2 ^ 28 → Yields (.bar0Access (req (.write (natLE 8 x.toNat) false))) s fun t =>
          exec (.registerWrite (BitVec.ofNat 28 off.toNat) true x false) s = .next t)) ∧
      (s.blk.rd Reg.MH_STATUS.DEVICE_FATAL = 0 → s.blk.lc ≠ Lc.END_OF_LIFE → n < 4096 →
        (¬live → ¬(fn.val ≠ 0 ∧ n = 0) →
          Yields (.bar2Access rd) s (fun t => t.blk.rd Reg.EP_IN_UR.COUNT = satAdd 32 (s.blk.rd Reg.EP_IN_UR.COUNT) 1 ∧
            s.Answered t rd false (zeros (len1 + 1)) [Reg.EP_IN_UR.COUNT]) ∧
          Yields (.bar2Access wr) s fun t => t.blk.rd Reg.EP_IN_UR.COUNT = satAdd 32 (s.blk.rd Reg.EP_IN_UR.COUNT) 1 ∧ OnlyFields s t [Reg.EP_IN_UR.COUNT]) ∧
        (live →
          (∀ c : Fin 4, o = 8 * c → Yields (.bar2Access w4) s fun t => exec (.doorbell slice c v) s = .next t) ∧
          (o = 0x20 → Yields (.bar2Access w4) s fun t => exec (.consumerHeadWrite (.completion slice) v) s = .next t) ∧
          (o = 0x28 → Yields (.bar2Access w4) s fun t => exec (.requestRingDoorbell slice v) s = .next t) ∧
          (o = 0x30 → Yields (.bar2Access w4) s fun t => exec (.consumerHeadWrite (.token slice) v) s = .next t) ∧
          (o = 0x188 → Yields (.bar2Access (req (.read 7))) s fun t =>
            s.Answered t (req (.read 7)) false (natLE 8 (s.blk.gen n + s.blk.sliceState n * 2 ^ 16)) []) ∧
          (0x190 ≤ o → Yields (.bar2Access w4) s (fun t => t = s) ∧ Yields (.bar2Access (req (.read 7))) s fun t => s.Answered t (req (.read 7)) false (zeros 8) [])) ∧
        (fn.val ≠ 0 → n = 0 → o = 0 →
          Yields (.bar2Access (req (.read 3))) s (fun t => s.Answered t (req (.read 3)) false
            (natLE 4 (b01 (NSet.has s.blk.ep.resetSeen fn) + SMap.get (fun _ => 0) s.blk.ep.resetCount fn * 2 ^ 16)) []) ∧
          Yields (.bar2Access (req (.write (natLE 4 1) false))) s fun t => NSet.has t.blk.ep.resetSeen fn = false ∧
            t = { s with blk := { s.blk with ep := { s.blk.ep with resetSeen := NSet.erase s.blk.ep.resetSeen fn } } }))) ∧
  (
  ∀ (s : State) (fn : Fin 33) (tag : BitVec 14) (off : BitVec 48) (len1 : Fin 4096) (d : List Byte) (ide : IdeTlp),
    let rd : BarReq := ⟨fn, tag, off, .read len1, ide⟩
    let wr : BarReq := ⟨fn, tag, off, .write d false, ide⟩
    s.blk.ideIn fn ide = (s.blk, true) → s.blk.Admits rd → s.blk.ext.need = [] → s.blk.ext.used = [] →
      (s.blk.winFor fn off.toNat (len1 + 1) false = none → Yields (.bar4Access rd) s fun t => s.TurnedAway t rd Reg.EP_IN_UR.COUNT 1 1) ∧
      (s.blk.winFor fn off.toNat d.length true = none → Yields (.bar4Access wr) s fun t => s.TurnedAway t wr Reg.EP_IN_UR.COUNT 1 1) ∧
      (∀ w, s.blk.winFor fn off.toNat (len1 + 1) false = some w → ∀ b st data,
        s.blk.dlaRead (s.blk.mkWho (.host fn) (some w.slice) w.ensign) (w.dla + off.toNat - w.off) (len1 + 1) = (b, st, data) → b.ext = s.blk.ext →
        (w.r = true ∧ w.off ≤ off.toNat ∧ off.toNat + len1 + 1 ≤ w.off + w.size ∧ (fn.val ≠ 0 → s.blk.slicePart w.slice + 1 = fn)) ∧
        (st = Code.SUCCESS → Yields (.bar4Access rd) s fun t => ({ s with blk := b } : State).Answered t rd false data []) ∧
        (st = Code.SHELF_UNCORRECTABLE ∨ st = Code.MEM_POISON ∨ st = Code.HBM_UNCORRECTABLE ∨ st = Code.HBM_MAC_FAIL →
          Yields (.bar4Access rd) s fun t => ({ s with blk := b } : State).Answered t rd true (zeros (len1 + 1)) []) ∧
        (st ≠ Code.SUCCESS → st ≠ Code.SHELF_UNCORRECTABLE → st ≠ Code.MEM_POISON → st ≠ Code.HBM_UNCORRECTABLE → st ≠ Code.HBM_MAC_FAIL →
          Yields (.bar4Access rd) s fun t => ({ s with blk := b } : State).TurnedAway t rd Reg.EP_IN_CA.COUNT 2 2)) ∧
      (∀ w, s.blk.winFor fn off.toNat d.length true = some w → ∀ b st,
        s.blk.dlaWrite (s.blk.mkWho (.host fn) (some w.slice) w.ensign) (w.dla + off.toNat - w.off) d = (b, st) → b.ext = s.blk.ext →
        (w.w = true ∧ w.off ≤ off.toNat ∧ off.toNat + d.length ≤ w.off + w.size ∧ (fn.val ≠ 0 → s.blk.slicePart w.slice + 1 = fn)) ∧
        (st = Code.SUCCESS → Yields (.bar4Access wr) s fun t => t = { s with blk := b }) ∧
        (st ≠ Code.SUCCESS → Yields (.bar4Access wr) s fun t => ({ s with blk := b } : State).TurnedAway t wr Reg.EP_IN_CA.COUNT 2 2)))

/-- CONFIG_REQUEST (R286, R287, R290, R293, Table EPT-3): before READY and while a function is reset it answers Request Retry Status; a function that is
not there is Unsupported Request; a read answers the dword and changes nothing; a write changes the bits that its byte enables and the register let
it, in that dword alone, with the effects of R302 where the dword has them. -/
def Obligations.ConfigRequests : Prop :=
  ∀ (s : State) (fn : Fin 33) (i : Fin 1024) (tag : BitVec 14) (data : BitVec 32) (en : Fin 16),
    let away := s.blk.rd Reg.MH_STATUS.READY = 0 ∨ (fn.val ≠ 0 ∧ s.blk.rd (Reg.EP_FN_STATUS.RESETTING fn) = 1)
    let m := Cfg.enabled en &&& Cfg.writable (s.blk.ep.sampled.getD (0, 0)).1 fn (4 * i)
    let old := s.blk.cfg fn (4 * i)
    let say (st : Nat) (l : List Byte) : List Out := s.blk.out ++ [.completion fn tag.toNat st false l]
    (away → Yields (.configRequest fn i .read tag) s (fun t => t = { s with blk := { s.blk with out := say 3 [] } }) ∧ Yields (.configRequest fn i (.write data en) tag) s fun t => t = { s with blk := { s.blk with out := say 3 [] } }) ∧
    (¬away → s.blk.fnExists fn = false → Yields (.configRequest fn i (.write data en) tag) s fun t =>
      s.blk.completions t.blk = [(fn.val, tag.toNat, 1, false, [])] ∧ t.blk.rd Reg.EP_IN_UR.COUNT = satAdd 32 (s.blk.rd Reg.EP_IN_UR.COUNT) 1 ∧
      t.blk.ep.cfg = s.blk.ep.cfg ∧ t = { s with blk := { s.blk with regs := t.blk.regs, ep := t.blk.ep, out := t.blk.out } } ∧
      s.blk.FieldsKept t.blk (Reg.EP_IN_UR.COUNT :: Fld.epErr)) ∧
    (¬away → s.blk.fnExists fn = true →
      Yields (.configRequest fn i .read tag) s (fun t => t = { s with blk := { s.blk with out := say 0 (natLE 4 (s.blk.cfgRead fn (4 * i))) } }) ∧
      (i.val ∈ [0x0C / 4, 0x10 / 4, 0x14 / 4, 0x18 / 4, 0x1C / 4, 0x20 / 4, 0x24 / 4, 0x3C / 4, 0x108 / 4, 0x10C / 4, 0x1AC / 4, 0x1B0 / 4, 0x1B4 / 4, 0x1EC / 4] →
        Yields (.configRequest fn i (.write data en) tag) s fun t =>
          t.blk.cfg fn (4 * i) = old - (old &&& m) + (data.toNat &&& m) ∧
          (∀ (g : Fin 33) (j : Fin 1024), (g ≠ fn ∨ j ≠ i) → t.blk.cfg g (4 * j) = s.blk.cfg g (4 * j)) ∧
          t = { s with blk := { s.blk with ep := { s.blk.ep with cfg := t.blk.ep.cfg }, out := say 0 [] } }) ∧
      (en = 15 → fn.val = 0 →
        (i = 1 → s.blk.bme 0 = true → bit old 2 = true → bit old 1 = bit data.toNat 1 → bit data.toNat 2 = false → Yields (.configRequest fn i (.write data en) tag) s fun t =>
          t.blk.rd (Reg.EP_FN_STATUS.BME 0) = 0 ∧ s.blk.FieldsKept t.blk [Reg.EP_FN_STATUS.BME 0, Reg.EP_TAG_STATUS.OUTSTANDING, Reg.EP_TAG_STATUS.QUARANTINED] ∧
          ∀ e ∈ t.blk.ep.slots, e.2.any (fun x => decide (x.fn = 0)) = false) ∧
        (i = 0x68 / 4 → bit data.toNat 15 = true → Yields (.configRequest fn i (.write data en) tag) s fun t =>
          t.blk.rd (Reg.EP_FN_STATUS.FLR_COUNT 0) = satAdd 16 (s.blk.rd (Reg.EP_FN_STATUS.FLR_COUNT 0)) 1 ∧ t.blk.vfEnabled = false)) ∧
      (s.blk.ep.cfg = [] → s.blk.cfgRead fn 0 = (if fn.val = 0 then 0x46801FA7 else 0xFFFFFFFF)))

/-- BUS_MASTER_ENABLE_CLEAR, BUS_MASTER_ENABLE_SET, MEMORY_SPACE_ENABLE_CLEAR, D3HOT_ENTRY, D3HOT_EXIT and MSIX_UNMASK (R302, R303): a function that loses
its requests has them revoked; one that may make them again has its waiting ring entries written and its pending messages sent; a vector that is
unmasked and allowed sends its pending message once. HOST_COMPLETION and COMPLETION_TIMEOUT (R300, R301): a completion that matches its slot's
generation and function delivers its data and frees the slot, or ends its request with what it says; the data of a request whose translation was
invalidated is not taken (R239); any other is discarded and counted, and pays off its quarantined generation; a request without one is abandoned with
HOST_CPL_TIMEOUT and its generation quarantined. -/
def Obligations.FunctionTraffic : Prop :=
  (
  ∀ (s : State) (fn : Fin 33),
    (Yields (.busMasterEnableClear fn) s fun t =>
      t.blk.bme fn = false ∧ bit (t.blk.cfg fn 4) 2 = false ∧ s.blk.RevokedBy t.blk fn ∧
      (∀ e ∈ Tlb.listed t.blk.xlat.l1 ++ Tlb.listed t.blk.xlat.l2, e.2.fn ≠ fn) ∧
      (∀ (g : Fin 33) (j : Fin 1024), (g ≠ fn ∨ j ≠ 1) → t.blk.cfg g (4 * j) = s.blk.cfg g (4 * j)) ∧
      s.blk.FieldsKept t.blk (Reg.EP_FN_STATUS.BME fn :: Fld.tags) ∧
      t = { s with blk := { s.blk with regs := t.blk.regs, ep := t.blk.ep, ext := t.blk.ext, xlat := t.blk.xlat } }) ∧
    (s.blk.fnExists fn = false → exec (.busMasterEnableSet fn) s = .next s) ∧
    (s.blk.fnExists fn = true → s.blk.bme fn = true → Yields (.busMasterEnableSet fn) s fun t =>
      bit (t.blk.cfg fn 4) 2 = true ∧ t = { s with blk := { s.blk with ep := { s.blk.ep with cfg := t.blk.ep.cfg } } }) ∧
    (s.blk.fnExists fn = true → s.blk.bme fn = false → s.blk.ext.need = [] → s.blk.ext.used = [] → s.blk.dn.slices = [] → s.blk.ep.wbWaits = [] →
      let b := (s.blk.wr (Reg.EP_FN_STATUS.BME fn) 1).setCfg fn 4 (setBits (s.blk.cfg fn 4) 2 1 1)
      let s' : State := { s with blk := b }
      (b.revoked fn = true → Yields (.busMasterEnableSet fn) s fun t => t = s') ∧
      (b.revoked fn = false →
        (∀ sl : SliceNo, s.blk.slices.map Prod.fst = [sl.val] → s.blk.fnOf sl = fn → s.blk.ep.msixPending = [] → (s.blk.slice sl).stall = none →
          Yields (.busMasterEnableSet fn) s fun t => exec (.cringEntryPost sl) s' = .next t) ∧
        (∀ vec : Fin 2048, s.blk.slices = [] → s.blk.ep.msixPending = [fn.val * 2048 + vec.val] → Yields (.busMasterEnableSet fn) s fun t =>
          (if b.msixAllowed fn vec then t.blk.out = s.blk.out ++ [s.blk.onStream fn (.msix fn vec)] ∧ t.blk.ep.msixPending = []
            else t.blk.out = s.blk.out ∧ t.blk.ep.msixPending = [fn.val * 2048 + vec.val]) ∧
          t = { s with blk := { b with ep := { b.ep with msixPending := t.blk.ep.msixPending }, out := t.blk.out } }))) ∧
    (Yields (.memorySpaceEnableClear false) s fun t =>
      t.blk.rd (Reg.EP_FN_STATUS.MSE 0) = 0 ∧ bit (t.blk.cfg 0 4) 1 = false ∧ t.blk.cfg 0 0x188 = s.blk.cfg 0 0x188 ∧
      s.blk.FieldsKept t.blk ((List.range 33).map Reg.EP_FN_STATUS.MSE) ∧
      t = { s with blk := { s.blk with regs := t.blk.regs, ep := { s.blk.ep with cfg := t.blk.ep.cfg } } }) ∧
    (Yields (.memorySpaceEnableClear true) s fun t =>
      (fn.val ≠ 0 → t.blk.rd (Reg.EP_FN_STATUS.MSE fn) = 0) ∧ bit (t.blk.cfg 0 0x188) 3 = false ∧ t.blk.cfg 0 4 = s.blk.cfg 0 4 ∧
      s.blk.FieldsKept t.blk ((List.range 33).map Reg.EP_FN_STATUS.MSE) ∧
      t = { s with blk := { s.blk with regs := t.blk.regs, ep := { s.blk.ep with cfg := t.blk.ep.cfg } } }) ∧
    (Yields .d3hotEntry s fun t =>
      t.blk.rd (Reg.EP_FN_STATUS.D3HOT 0) = 1 ∧ bits (t.blk.cfg 0 0x44) 0 2 = 3 ∧ s.blk.RevokedBy t.blk 0 ∧ t.blk.revoked 0 = true ∧
      s.blk.FieldsKept t.blk (Reg.EP_FN_STATUS.D3HOT 0 :: Fld.tags) ∧
      t = { s with blk := { s.blk with regs := t.blk.regs, ep := t.blk.ep, ext := t.blk.ext } }) ∧
    (let b := (s.blk.wr (Reg.EP_FN_STATUS.D3HOT 0) 0).setCfg 0 0x44 (setBits (s.blk.cfg 0 0x44) 0 2 0)
     let s' : State := { s with blk := b }
     (s.blk.rd (Reg.EP_FN_STATUS.D3HOT 0) = 0 ∨ b.revoked 0 = true → Yields .d3hotExit s fun t => t = s') ∧
     (s.blk.rd (Reg.EP_FN_STATUS.D3HOT 0) = 1 → b.revoked 0 = false → s.blk.ext.need = [] → s.blk.ext.used = [] → s.blk.dn.slices = [] → s.blk.ep.wbWaits = [] →
       ∀ sl : SliceNo, s.blk.slices.map Prod.fst = [sl.val] → s.blk.fnOf sl = 0 → s.blk.ep.msixPending = [] → (s.blk.slice sl).stall = none →
         Yields .d3hotExit s fun t => exec (.cringEntryPost sl) s' = .next t)) ∧
    ∀ vec : Fin 2048,
      let k := fn.val * 2048 + vec.val
      let on := bit (s.blk.cfg fn 0x50) 31 && !bit (s.blk.cfg fn 0x50) 30 && !s.blk.revoked fn
      ((s.blk.ep.msixPending.filter fun i => decide (i / 2048 = fn.val)) = [] → Yields (.msixUnmask fn vec) s fun t =>
        NSet.has t.blk.ep.msixUnmasked k = true ∧ t = { s with blk := { s.blk with ep := { s.blk.ep with msixUnmasked := NSet.insert k s.blk.ep.msixUnmasked } } }) ∧
      ((s.blk.ep.msixPending.filter fun i => decide (i / 2048 = fn.val)) = [k] → Yields (.msixUnmask fn vec) s fun t =>
        NSet.has t.blk.ep.msixUnmasked k = true ∧
        (if on then t.blk.out = s.blk.out ++ [s.blk.onStream fn (.msix fn vec)] ∧ t.blk.ep.msixPending = NSet.erase s.blk.ep.msixPending k
          else t.blk.out = s.blk.out ∧ t.blk.ep.msixPending = s.blk.ep.msixPending) ∧
        t = { s with blk := { s.blk with
          ep := { s.blk.ep with msixUnmasked := t.blk.ep.msixUnmasked, msixPending := t.blk.ep.msixPending }, out := t.blk.out } })) ∧
  (
  ∀ (s : State) (tag : BitVec 14) (fn : Fin 33) (status : Fin 4) (ep : Bool) (data : List Byte) (ide : IdeTlp),
    s.blk.ideIn fn ide = (s.blk, true) → s.blk.ep.waiting = [] →
    let k := tag.toNat % 4096
    let gen := tag.toNat / 4096
    let done (x : HostSlot) (st : Status) (d : List Byte) : ExtState := if x.stale then s.blk.ext else
      { s.blk.ext with
        sent := s.blk.ext.sent.filter fun n => n ≠ x.need
        done := if s.blk.ext.sent.contains x.need then s.blk.ext.done ++ [⟨x.need, st, d⟩] else s.blk.ext.done }
    (∀ x, s.blk.slot k = some x →
      let free : EpState := { s.blk.ep with
        slots := SMap.put (fun _ => none) s.blk.ep.slots k none
        slotGen := SMap.put (fun _ => 0) s.blk.ep.slotGen k ((x.gen + 1) % 4) }
      let owed := x.length - x.received - data.length
      (x.gen = gen → x.fn = fn →
        (status ≠ 0 → Yields (.hostCompletion tag fn status ep data ide) s fun t =>
          t.blk.ep = free ∧ t.blk.ext = done x (if status = 1 then Code.HOST_CPL_UR else Code.HOST_CPL_CA) [] ∧
          s.blk.FieldsKept t.blk (Fld.tags ++ Fld.epErr) ∧ t = { s with blk := { s.blk with regs := t.blk.regs, ep := t.blk.ep, ext := t.blk.ext } }) ∧
        (status = 0 → ep = true → Yields (.hostCompletion tag fn status ep data ide) s fun t =>
          t.blk.slot k = none ∧ t.blk.ext = done x Code.HOST_CPL_POISON [] ∧
          t.blk.ep.quarantine = s.blk.ep.quarantine ++ (if owed = 0 then [] else [⟨k, gen, fn, owed, false⟩]) ∧
          s.blk.FieldsKept t.blk (Fld.tags ++ Fld.epErr) ∧
          t = { s with blk := { s.blk with regs := t.blk.regs, ep := t.blk.ep, ext := t.blk.ext, out := t.blk.out } }) ∧
        (status = 0 → ep = false → owed ≠ 0 → Yields (.hostCompletion tag fn status ep data ide) s fun t =>
          t.blk.slot k = some { x with received := x.received + data.length, data := x.data ++ data } ∧
          (∀ j, j ≠ k → t.blk.slot j = s.blk.slot j) ∧ t = { s with blk := { s.blk with ep := { s.blk.ep with slots := t.blk.ep.slots } } }) ∧
        (status = 0 → ep = false → owed = 0 → Yields (.hostCompletion tag fn status ep data ide) s fun t =>
          t.blk.ep = free ∧ t.blk.ext = done x Code.SUCCESS ((x.data ++ data).take x.length) ∧ s.blk.FieldsKept t.blk Fld.tags ∧
          t = { s with blk := { s.blk with regs := t.blk.regs, ep := t.blk.ep, ext := t.blk.ext } })) ∧
      ∀ sl : Fin 4096, k = sl → Yields (.completionTimeout sl) s fun t =>
        t.blk.slot k = none ∧ t.blk.ext = done x Code.HOST_CPL_TIMEOUT [] ∧ t.blk.ep.quarantine = s.blk.ep.quarantine ++ [⟨k, x.gen, x.fn, x.length - x.received, true⟩] ∧
        t.blk.rd Reg.EP_CPL_TIMEOUT.COUNT = satAdd 32 (s.blk.rd Reg.EP_CPL_TIMEOUT.COUNT) 1 ∧
        (s.blk.rd Reg.EP_ERR_LOG.VALID = 0 → t.blk.rd Reg.EP_ERR_LOG.KIND = 4 ∧ t.blk.rd Reg.EP_ERR_LOG.STATUS = Code.HOST_CPL_TIMEOUT) ∧
        bit (t.blk.aerStatus x.fn true) 14 = true ∧
        s.blk.FieldsKept t.blk (Reg.EP_CPL_TIMEOUT.COUNT :: Fld.tags ++ Fld.epErr) ∧
        t = { s with blk := { s.blk with regs := t.blk.regs, ep := t.blk.ep, ext := t.blk.ext, out := t.blk.out } }) ∧
    ((s.blk.slot k).any (fun x => decide (x.gen = gen ∧ x.fn = fn.val)) = false → Yields (.hostCompletion tag fn status ep data ide) s fun t =>
      t.blk.rd Reg.EP_LATE_CPL.COUNT = satAdd 32 (s.blk.rd Reg.EP_LATE_CPL.COUNT) 1 ∧ t.blk.ep.slots = s.blk.ep.slots ∧ t.blk.ext = s.blk.ext ∧
      s.blk.FieldsKept t.blk (Reg.EP_LATE_CPL.COUNT :: Fld.tags ++ Fld.epErr) ∧
      (∀ q, s.blk.ep.quarantine = [q] → q.slot = k → q.gen = gen → q.fn = fn →
        t.blk.ep.quarantine = (if status ≠ 0 ∨ q.owed ≤ data.length then [] else [{ q with owed := q.owed - data.length }]) ∧
        (q.byTimeout = false → t.blk.out = s.blk.out ∧ t.blk.ep.aer = s.blk.ep.aer) ∧
        (q.byTimeout = true → bit (t.blk.aerStatus (s.blk.reporter fn) true) 16 = true)) ∧
      (s.blk.ep.quarantine = [] → bit (t.blk.aerStatus (s.blk.reporter fn) true) 16 = true) ∧
      t = { s with blk := { s.blk with regs := t.blk.regs, ep := t.blk.ep, out := t.blk.out } }))

/-- VF_FLR, PF_FLR, HOT_RESET, DL_DOWN, PCIE_LINK_CHANGE and VF_ENABLE_CLEAR (R289, R293, R302, R306): a VF's reset clears its function and resets its
partition; a PF's resets every function, every partition and slice 0; Hot Reset and DL_Down act as one and free every quarantined generation; a change
of the link is shown and changes nothing else; a VF that disappears resets its partition. -/
def Obligations.FunctionResets : Prop :=
  ∀ (s : State) (vf : PartNo), s.blk.coh.dir = [] → s.blk.sites = [] → s.blk.pos = [] → s.blk.sec.installs = [] → s.blk.ten.resets = [] →
    (∀ e ∈ s.blk.slices, e.2.op = none) →
      let fn := vf.val + 1
      (s.blk.fnExists fn = false → exec (.vfFlr vf) s = .next s) ∧
      (s.blk.fnExists fn = true → Yields (.vfFlr vf) s fun t =>
        t.blk.FnCleared fn ∧ (s.blk.partEmpty vf = false → s.blk.PartStops t.blk vf) ∧
        t.blk.rd (Reg.EP_FN_STATUS.FLR_COUNT fn) = satAdd 16 (s.blk.rd (Reg.EP_FN_STATUS.FLR_COUNT fn)) 1 ∧
        (s.blk.partEmpty vf = false → t.blk.rd (Reg.EP_FN_STATUS.RESETTING fn) = 1 ∧ t.blk.ten.resets = [⟨vf, true, s.blk.now⟩] ∧ t.blk.ep.flr.contains fn = true) ∧
        (s.blk.partEmpty vf = true → t.blk.rd (Reg.EP_FN_STATUS.RESETTING fn) = 0) ∧
        (∀ (g : Fin 33) (j : Fin 1024), g.val ≠ fn → t.blk.cfg g (4 * j) = s.blk.cfg g (4 * j)) ∧
        t.blk.shelf = s.blk.shelf ∧ t.blk.hbm = s.blk.hbm ∧ t.blk.keys = s.blk.keys ∧ t.blk.sec = s.blk.sec ∧ t.blk.dn = s.blk.dn ∧ t.fuse = s.fuse ∧
        s.blk.FieldsKept t.blk (Fld.fn fn ++ Fld.tags ++ (List.range 33).map Reg.EP_FN_STATUS.RESETTING ++ Fld.partStatus vf ++ (s.blk.partSlices vf).flatMap fun sl =>
          [Reg.SL_STATUS.STATE sl, Reg.SL_FREEZE_STATUS.RUNNING sl, Reg.SL_FREEZE_STATUS.VALID sl, Reg.SL_FREEZE_STATUS.STATUS sl])) ∧
      (Yields .pfFlr s fun t => s.DeviceReset t 1) ∧
      (Yields .hotReset s fun t => s.DeviceReset t 0 ∧ t.blk.ep.quarantine = [] ∧ t.blk.rd Reg.EP_LINK.DL_UP = s.blk.rd Reg.EP_LINK.DL_UP) ∧
      (Yields .dlDown s fun t => s.DeviceReset t 0 ∧ t.blk.ep.quarantine = [] ∧ t.blk.rd Reg.EP_LINK.SPEED = 0 ∧ t.blk.rd Reg.EP_LINK.WIDTH = 0 ∧
        t.blk.rd Reg.EP_LINK.FLIT = 0 ∧ t.blk.rd Reg.EP_LINK.DL_UP = 0) ∧
      (∀ (speed : Fin 6) (width : Fin 3) (flit : Bool),
        (s.blk.boot.power = false ∨ s.blk.boot.perst = true ∨ s.blk.boot.preamble = true → exec (.pcieLinkChange speed width flit) s = .next s) ∧
        (s.blk.boot.power = true → s.blk.boot.perst = false → s.blk.boot.preamble = false → Yields (.pcieLinkChange speed width flit) s fun t =>
          t.blk.rd Reg.EP_LINK.SPEED = speed + 1 ∧ t.blk.rd Reg.EP_LINK.WIDTH = [4, 8, 16].getD width 0 ∧ t.blk.rd Reg.EP_LINK.FLIT = b01 flit ∧
          t.blk.rd Reg.EP_LINK.DL_UP = 1 ∧
          t.blk.rd Reg.EP_LINK.RETRAINS = satAdd Reg.EP_LINK.RETRAINS.w (s.blk.rd Reg.EP_LINK.RETRAINS) (b01 s.blk.ep.linkUp) ∧
          s.blk.FieldsKept t.blk [Reg.EP_LINK.SPEED, Reg.EP_LINK.WIDTH, Reg.EP_LINK.FLIT, Reg.EP_LINK.DL_UP, Reg.EP_LINK.RETRAINS] ∧
          t = { s with blk := { s.blk with regs := t.blk.regs, ep := { s.blk.ep with linkUp := true } } })) ∧
      (s.blk.vfEnabled = false → exec (.vfEnableClear none) s = .next s) ∧
      (s.blk.vfEnabled = true → Yields (.vfEnableClear none) s fun t =>
        t.blk.vfEnabled = false ∧ t.blk.numVfs = s.blk.numVfs ∧ t.blk.cfg 0 4 = s.blk.cfg 0 4 ∧ t.blk.rd (Reg.EP_FN_STATUS.MSE fn) = 0 ∧
        (fn ≤ s.blk.numVfs → t.blk.FnCleared fn ∧ (s.blk.partEmpty vf = false → s.blk.PartStops t.blk vf ∧ t.blk.rd (Reg.SL_PART_STATUS.RESETTING vf) = 1)) ∧
        (s.blk.numVfs < fn → ∀ sl ∈ s.blk.partSlices vf, t.blk.sliceState sl = s.blk.sliceState sl) ∧ t.blk.sec = s.blk.sec) ∧
      ∀ n : Fin 33,
        (s.blk.numVfs ≤ n ∨ s.blk.vfEnabled = true → exec (.vfEnableClear (some n)) s = .next s) ∧
        (n < s.blk.numVfs → s.blk.vfEnabled = false → Yields (.vfEnableClear (some n)) s fun t =>
          t.blk.numVfs = n ∧ (n < fn → fn ≤ s.blk.numVfs → s.blk.partEmpty vf = false → s.blk.PartStops t.blk vf) ∧
          (fn ≤ n → ∀ sl ∈ s.blk.partSlices vf, t.blk.sliceState sl = s.blk.sliceState sl))

/-- TDISP_MESSAGE and SPDM_REQUEST (R306, R361, R362): a session's message locks, starts or stops a TDI from the state it may come in, and is otherwise
refused; the responder answers every request while configuration requests are answered, opens at most four sessions, and reports measurements without
changing anything. -/
def Obligations.Attestation : Prop :=
  ∀ (s : State) (vf : PartNo) (k : Fin 8) (req : SpdmReq) (m : TdispMsg),
    let fn := vf.val + 1
    let st := s.blk.tdiState fn
    let ready := s.blk.rd Reg.MH_STATUS.READY = 1
    let may := s.blk.sec.sessions ≠ 0 ∧ s.blk.fnExists fn = true ∧ s.blk.rd (Reg.EP_FN_STATUS.RESETTING fn) = 0
    let no (n : Nat) : State := { s with blk := { s.blk with out := s.blk.out ++ [.spdm n false false []] } }
    let yes (n : Nat) (signed : Bool) (l : List Byte) : List Out := s.blk.out ++ [.spdm n true signed l]
    let identity := s.blk.lc ≠ Lc.BLANK ∧ s.blk.lc ≠ Lc.END_OF_LIFE
    (¬ready → exec (.tdispMessage vf m) s = .next s ∧ exec (.spdmRequest req) s = .next s) ∧
    (ready →
      (¬may → exec (.tdispMessage vf m) s = .next (no 10)) ∧
      (may → (st ≠ 0 → exec (.tdispMessage vf (.lock k)) s = .next (no 10)) ∧ (st ≠ 1 → exec (.tdispMessage vf .start) s = .next (no 10)) ∧
        (st = 0 → Yields (.tdispMessage vf (.lock k)) s fun t => t.blk.tdiState fn = 1 ∧ SMap.get (fun _ => 0) t.blk.ep.tdiStream fn = k + 1 ∧
          t.blk.out = yes 10 false [] ∧ s.blk.FieldsKept t.blk [Reg.EP_FN_STATUS.TDI_STATE fn] ∧
          t = { s with blk := { s.blk with regs := t.blk.regs, ep := { s.blk.ep with tdiStream := t.blk.ep.tdiStream }, out := t.blk.out } }) ∧
        (st = 1 → Yields (.tdispMessage vf .start) s fun t => t.blk.tdiState fn = 2 ∧ t.blk.out = yes 10 false [] ∧
          s.blk.FieldsKept t.blk [Reg.EP_FN_STATUS.TDI_STATE fn] ∧ t = { s with blk := { s.blk with regs := t.blk.regs, out := t.blk.out } }) ∧
        (st ≠ 3 → Yields (.tdispMessage vf .stop) s fun t => t.blk.tdiState fn = 0 ∧ SMap.get (fun _ => 0) t.blk.ep.tdiStream fn = 0 ∧
          t.blk.out = yes 10 false [] ∧ s.blk.FieldsKept t.blk [Reg.EP_FN_STATUS.TDI_STATE fn] ∧
          t = { s with blk := { s.blk with regs := t.blk.regs, ep := { s.blk.ep with tdiStream := t.blk.ep.tdiStream }, out := t.blk.out } })) ∧
      (Yields (.spdmRequest .version) s fun t => t = { s with blk := { s.blk with out := yes 0 false [0x12, 0x13] } }) ∧
      (¬identity → exec (.spdmRequest (.challenge 0)) s = .next (no 5)) ∧
      (s.blk.lc = Lc.END_OF_LIFE → exec (.spdmRequest .digests) s = .next (no 3)) ∧
      (s.blk.lc = Lc.BLANK → Yields (.spdmRequest .digests) s fun t => t = { s with blk := { s.blk with out := yes 3 false [] } }) ∧
      (identity → Yields (.spdmRequest .digests) s fun t => (∃ l ∈ (t.blk.out.drop s.blk.out.length).filterMap (fun o => match o with
            | .spdm 3 true false l => some l
            | _ => none), l.length = 48) ∧
          t = { s with blk := { s.blk with out := t.blk.out, free := t.blk.free } }) ∧
      (identity → Yields (.spdmRequest (.challenge 0)) s fun t => (∃ l ∈ (t.blk.out.drop s.blk.out.length).filterMap (fun o => match o with
            | .spdm 5 true true l => some l
            | _ => none), l.length = 96) ∧
          t = { s with blk := { s.blk with out := t.blk.out, free := t.blk.free } }) ∧
      (∀ (i : BitVec 8) (l : List Byte), s.blk.measurements i.toNat = some l → Yields (.spdmRequest (.measurements i false)) s fun t =>
        t = { s with blk := { s.blk with out := yes 6 false l } }) ∧
      (s.blk.lc = Lc.END_OF_LIFE → exec (.spdmRequest (.measurements 2 false)) s = .next (no 6)) ∧
      (¬(identity ∧ s.blk.sec.sessions < 4) → exec (.spdmRequest .keyExchange) s = .next (no 7)) ∧
      (identity → s.blk.sec.sessions < 4 → Yields (.spdmRequest .keyExchange) s fun t =>
        t.blk.sec = { s.blk.sec with sessions := s.blk.sec.sessions + 1 } ∧ t.blk.rd Reg.SEC_STATUS.SPDM_SESSION = 1 ∧
        s.blk.FieldsKept t.blk [Reg.SEC_STATUS.SPDM_SESSION] ∧
        t = { s with blk := { s.blk with regs := t.blk.regs, sec := t.blk.sec, out := t.blk.out, free := t.blk.free } }) ∧
      (s.blk.sec.sessions = 0 → exec (.spdmRequest .endSession) s = .next (no 8) ∧ exec (.spdmRequest (.ideKey k)) s = .next (no 9)) ∧
      (s.blk.sec.sessions ≠ 0 →
        (Yields (.spdmRequest .endSession) s fun t => t.blk.sec = { s.blk.sec with sessions := s.blk.sec.sessions - 1 } ∧
          t.blk.rd Reg.SEC_STATUS.SPDM_SESSION = b01 (decide (s.blk.sec.sessions ≠ 1)) ∧ t.blk.out = yes 8 false [] ∧
          s.blk.FieldsKept t.blk [Reg.SEC_STATUS.SPDM_SESSION] ∧ t = { s with blk := { s.blk with regs := t.blk.regs, sec := t.blk.sec, out := t.blk.out } }) ∧
        Yields (.spdmRequest (.ideKey k)) s fun t => NSet.has t.blk.ep.insecure k = false ∧ t.blk.out = yes 9 false [] ∧
          t = { s with blk := { s.blk with ep := { s.blk.ep with insecure := NSet.erase s.blk.ep.insecure k }, out := t.blk.out } }))

/-! ### The reach ports (15) -/

/-- REACH_TRAINED, REACH_TRAIN_TIMEOUT, HELLO, LINK_DOWN, REACH_LOCK_LOSS, REACH_FRAME_TIMEOUT and SER_WINDOW_EXPIRY (R307, R309, R310, R318): a port that
trains sends HELLO with its device and port, but for the halves of lanes that failed, and one with no half left stays DOWN, as one that does not train
in time; the neighbour's HELLO brings it UP, or ISOLATED where a device's number is 0 or its own; a lost link takes an UP or ISOLATED port DOWN with
its paths; the symbols corrected in a window are counted, and a lane above the limit is an event. REACH_DATA_FRAME, REACH_IDLE_FRAME, REACH_NAK_FRAME,
REACH_NAK_RESEND, REACH_WIDTH_CHANGE and REACH_WIDTH_ACK (R308, R310): the frame whose SEQ is expected is delivered, once, and the packets that its
units make whole are received; one delivered before is discarded; one that fails its CRC or FEC delivers nothing and is answered by a NAK unless one
is out; an ACK releases the frames it covers, and credits let a waiting packet go; a NAK has every held frame sent again; a width change is answered
with the last good SEQ, and completes with the frames after the other side's. PRESENCE_CHANGE, ATTENTION_BUTTON, PWR_OFF and SLOT_INDICATOR (R319,
R320): each shows its status bit and sends its vector where it is enabled; a powered port whose neighbour is taken away loses its paths; PWR_OFF takes
the port DOWN after LINK_DOWN, and its clearing lets it train; an indicator is driven and completes its command. -/
def Obligations.ReachPorts : Prop :=
  (
  ∀ (s : State) (port : PortNo),
    let l := s.blk.rport port
    let st := s.blk.rd (Reg.RCH_STATUS.STATE port)
    let own := s.blk.rd Reg.RCH_DEV.DEV_ID
    -- the payload of an IDLE frame is a free value
    let pad := (s.blk.freshBytes 624).2
    let lock : Fld := ⟨Reg.CK_STATUS.REACH_LOCK.off, 10 + port.val, 1⟩
    let dead (at' : Option Nat) : ReachPort := { ReachPort.reset with retired := l.retired, trained := l.trained, trainAt := at' }
    (∀ failed : BitVec 8,
      let gone := l.retired ||| Rch.halves failed.toNat
      (l.trainAt = none ∨ st = Rch.UP ∨ st = Rch.ISOLATED ∨ s.blk.slotPowered port = false → exec (.reachTrained ⟨port, failed⟩) s = .next s) ∧
      (l.trainAt ≠ none → st = Rch.DOWN ∨ st = Rch.TRAINING → s.blk.slotPowered port = true →
        Rch.halves failed.toNat = 0 ∨ s.blk.is Reg.MH_STATUS.READY = true →
        (gone ≠ 3 → Yields (.reachTrained ⟨port, failed⟩) s fun t =>
          t.blk.rd (Reg.RCH_STATUS.STATE port) = Rch.TRAINING ∧ t.blk.rd lock = 1 ∧
          t.blk.rport port = { ReachPort.reset with retired := gone, trained := true, trainAt := l.trainAt, ackAt := s.blk.now } ∧
          (s.blk.rd (Reg.RCH_SLOT_STATUS.LINK_ACTIVE port) = 0 → t.blk.out = s.blk.out ++ [.rctrl port 0 (own + port * 2 ^ 24),
            .rframe port (RFrame.wire 3 0 65535 0 0 (natLE 16 (Config.ctrlUnit 0 (own + port * 2 ^ 24)).toNat))]) ∧
          s.ReachStep t port (lock :: Fld.rchLink port ++ Fld.rchErr port)) ∧
        (gone = 3 → Yields (.reachTrained ⟨port, failed⟩) s fun t =>
          t.blk.rd (Reg.RCH_STATUS.STATE port) = Rch.DOWN ∧ t.blk.rport port = { l with retired := 3, trainAt := none } ∧
          s.ReachStep t port (Fld.rchLink port ++ Fld.rchErr port)))) ∧
    (st ≠ Rch.TRAINING ∨ l.trained = true → exec (.reachTrainTimeout port) s = .next s) ∧
    (st = Rch.TRAINING → l.trained = false → s.blk.rd (Reg.RCH_SLOT_STATUS.LINK_ACTIVE port) = 0 → Yields (.reachTrainTimeout port) s fun t =>
      t.blk.rd (Reg.RCH_STATUS.STATE port) = Rch.DOWN ∧ t.blk.rport port = { l with trainAt := none } ∧ t.blk.out = s.blk.out ∧ t.blk.fc = s.blk.fc ∧
      s.ReachStep t port [Reg.RCH_STATUS.STATE port]) ∧
    (∀ (dev : BitVec 24) (nb : PortNo),
      (st ≠ Rch.TRAINING ∨ l.trained = false → exec (.hello port dev nb) s = .next s) ∧
      (st = Rch.TRAINING → l.trained = true → s.blk.rd (Reg.RCH_SLOT_STATUS.LINK_ACTIVE port) = 0 → Yields (.hello port dev nb) s fun t =>
        t.blk.rd (Reg.RCH_STATUS.NEIGHBOUR port) = dev.toNat ∧ t.blk.rd (Reg.RCH_STATUS.NB_PORT port) = nb ∧
        t.blk.rd (Reg.RCH_STATUS.HALVES port) = (3 - l.retired) % 4 ∧
        (dev.toNat = own ∨ own = 0 → t.blk.rd (Reg.RCH_STATUS.STATE port) = Rch.ISOLATED ∧
          s.blk.Raised t.blk (Src.reachPort port) Kind.REACH_ISOLATED 0 0 ∧ t.blk.out = s.blk.out ∧ t.blk.rport port = l) ∧
        (dev.toNat ≠ own → own ≠ 0 → t.blk.rd (Reg.RCH_STATUS.STATE port) = Rch.UP ∧ t.blk.rd (Reg.RCH_SLOT_STATUS.LINK_ACTIVE port) = 1 ∧
          s.SlotTold t port (Reg.RCH_SLOT_STATUS.DLLSC port) (Reg.RCH_SLOT_CTRL.DLLSC_EN port) ∧
          ((t.blk.rport port).owedReq + min Config.reachBuffers.1.toNat 4095 = Config.reachBuffers.1.toNat) ∧
          t.blk.out.contains (.rframe port (RFrame.wire 1 0 ((l.rxNext + 65535) % 65536) (min Config.reachBuffers.1.toNat 4095) (min Config.reachBuffers.2.toNat 4095) pad)) = true ∧
          t.blk.fc = s.blk.fc) ∧
        s.ReachStep t port ([Reg.RCH_STATUS.NEIGHBOUR port, Reg.RCH_STATUS.NB_PORT port] ++ Fld.rchLink port ++ Fld.rchErr port))) ∧
    (st = Rch.DOWN ∨ st = Rch.TRAINING → exec (.linkDown port) s = .next s ∧ exec (.reachFrameTimeout port) s = .next s ∧
      Yields (.reachLockLoss port) s fun t => t.blk.rd lock = 0 ∧ OnlyFields s t [lock]) ∧
    (st = Rch.UP ∨ st = Rch.ISOLATED → s.blk.NoPeerWork →
      Yields (.linkDown port) s (fun t => s.PortDown t port (dead (some s.blk.now)) ∧ s.ReachStep t port (Fld.rchLink port ++ Fld.rchErr port)) ∧
      Yields (.reachFrameTimeout port) s (fun t => s.PortDown t port (dead (some s.blk.now)) ∧ s.ReachStep t port (Fld.rchLink port ++ Fld.rchErr port)) ∧
      Yields (.reachLockLoss port) s fun t => t.blk.rd lock = 0 ∧ s.PortDown t port (dead (some s.blk.now)) ∧
        s.ReachStep t port (lock :: Fld.rchLink port ++ Fld.rchErr port)) ∧
    ∀ (n : BitVec 32) (i : Fin 8),
      let ns := (List.replicate i.val 0#32) ++ [n]
      (st ≠ Rch.UP → exec (.serWindowExpiry port ns) s = .next s) ∧
      (st = Rch.UP → Yields (.serWindowExpiry port ns) s fun t =>
        t.blk.rd (Reg.RCH_FEC_CORR.COUNT port) = satAdd 32 (s.blk.rd (Reg.RCH_FEC_CORR.COUNT port)) n.toNat ∧
        (s.blk.rd (Reg.RCH_CFG.SER_LIMIT port) < n.toNat → s.blk.Raised t.blk (Src.reachLane port i) Kind.REACH_LANE 0 0) ∧
        (n.toNat ≤ s.blk.rd (Reg.RCH_CFG.SER_LIMIT port) → t.blk.fc = s.blk.fc) ∧ t.blk.out = s.blk.out ∧
        s.ReachStep t port [Reg.RCH_FEC_CORR.COUNT port])) ∧
  (
  ∀ (s : State) (port : PortNo) (f : ReachFrame),
    let l := s.blk.rport port
    let last := (l.rxNext + 65535) % 65536
    let seen : ReachPort := { l with framesSinceAck := l.framesSinceAck + 1, reqCr := l.reqCr + f.reqCr.toNat, rspCr := l.rspCr + f.rspCr.toNat }
    let sound := f.fec = none
    let quiet := ∀ n : Fin 8, SMap.get (fun _ => 0) s.blk.fc.corruptFrames (Src.reachLane port n) = 0
    -- the payload of a NAK frame is a free value
    let nak (q r : Nat) : Out := .rframe port (RFrame.wire 2 0 last (min q 4095) (min r 4095) (s.blk.freshBytes 624).2)
    let again := l.held.map fun h => (h.seq % 65536, sliceBytes h.payload 0 624)
    let got := RPacket.split 64 (l.rxBytes ++ sliceBytes f.payload 0 624)
    (s.blk.rchUp port = false → exec (.reachDataFrame port f) s = .next s ∧ exec (.reachIdleFrame port f) s = .next s ∧ exec (.reachNakFrame port f) s = .next s ∧
      exec (.reachNakResend port) s = .next s) ∧
    (s.blk.rchUp port = true → quiet → l.framesSinceAck < 63 →
      (sound → f.crc.toNat = ReachFrame.crcOf f 0 → l.Idle →
        (f.seq.toNat = l.rxNext → Yields (.reachDataFrame port f) s fun t =>
          t.blk.out = s.blk.out ++ .rpayload port (sliceBytes f.payload 0 624) :: got.1.map (.rreceived port) ∧
          t.blk.rport port = { seen with rxNext := (l.rxNext + 1) % 65536, nakAt := none, rxBytes := got.2 } ∧ t.blk.fc = s.blk.fc ∧ s.ReachStep t port []) ∧
        (f.seq.toNat ≠ l.rxNext → (l.rxNext + 65535 - f.seq.toNat) % 65536 < 32768 → Yields (.reachDataFrame port f) s fun t =>
          t.blk.out = s.blk.out ∧ t.blk.rport port = seen ∧ t.blk.fc = s.blk.fc ∧ s.ReachStep t port [])) ∧
      (¬sound ∨ f.crc.toNat ≠ ReachFrame.crcOf f 0 → Yields (.reachDataFrame port f) s fun t =>
        (t.blk.rport port).rxNext = l.rxNext ∧ (t.blk.rport port).held = l.held ∧ (t.blk.rport port).nakAt.isSome = true ∧
        (sound → t.blk.fc = s.blk.fc) ∧
        t.blk.out = (if l.nakAt = none then s.blk.out ++ [nak l.owedReq l.owedRsp] else s.blk.out) ∧
        t.blk.rd (Reg.RCH_NAKS.COUNT port) = satAdd 32 (s.blk.rd (Reg.RCH_NAKS.COUNT port)) (b01 l.nakAt.isNone) ∧
        s.ReachStep t port [Reg.RCH_NAKS.COUNT port, Reg.RCH_FEC_UNCORR.COUNT port]) ∧
      (∀ i, f.fec = some i → Yields (.reachDataFrame port f) s fun t =>
        t.blk.rd (Reg.RCH_FEC_UNCORR.COUNT port) = satAdd 32 (s.blk.rd (Reg.RCH_FEC_UNCORR.COUNT port)) 1 ∧
        s.blk.Raised t.blk (Src.reachLane port i) Kind.REACH_LANE 0 0) ∧
      (sound → f.crc.toNat = ReachFrame.crcOf f 1 →
        (l.txq = [] → l.txWait = [] → ∀ n, (l.held.findIdx? fun h => h.seq = f.ack.toNat) = some n → Yields (.reachIdleFrame port f) s fun t =>
          t.blk.rport port = { seen with held := l.held.drop (n + 1) } ∧ t.blk.out = s.blk.out ∧ t.blk.fc = s.blk.fc ∧ s.ReachStep t port []) ∧
        (∀ k, l.txq = [k] → l.txWait = [] → l.held = [] → l.widthChange = none → k.isReq = true → k.ensign < 8 → k.bytes.length ≤ 624 →
          k.credits ≤ l.reqCr + f.reqCr.toNat → Yields (.reachIdleFrame port f) s fun t =>
            s.blk.reachSent t.blk = [(port.val, k)] ∧ (t.blk.rport port).reqCr = l.reqCr + f.reqCr.toNat - k.credits ∧
            ((t.blk.rport port).held.map fun h => (h.seq, h.payload)) = [(l.txSeq, sliceBytes k.bytes 0 624)] ∧ (t.blk.rport port).txq = [] ∧
            (t.blk.rport port).txSeq = (l.txSeq + 1) % 65536 ∧ s.ReachStep t port [])) ∧
      (sound → f.crc.toNat = ReachFrame.crcOf f 2 → l.txq = [] → l.txWait = [] → (l.held.findIdx? fun h => h.seq = f.ack.toNat) = none →
        Yields (.reachNakFrame port f) s fun t =>
          s.blk.rframesSent t.blk port = (if l.widthChange = none then again else []) ∧
          (t.blk.rport port).held = l.held ∧ (t.blk.rport port).rxNext = l.rxNext ∧ s.ReachStep t port [])) ∧
    (s.blk.rchUp port = true → l.nakAt = none → exec (.reachNakResend port) s = .next s) ∧
    (s.blk.rchUp port = true → l.nakAt ≠ none → Yields (.reachNakResend port) s fun t =>
      t.blk.out = s.blk.out ++ [nak l.owedReq l.owedRsp] ∧ (t.blk.rport port).nakAt = some s.blk.now ∧
      t.blk.rd (Reg.RCH_NAKS.COUNT port) = satAdd 32 (s.blk.rd (Reg.RCH_NAKS.COUNT port)) 1 ∧ t.blk.fc = s.blk.fc ∧ s.ReachStep t port [Reg.RCH_NAKS.COUNT port]) ∧
    ∀ (set : Fin 4) (ack : BitVec 16),
      let halves := s.blk.rd (Reg.RCH_STATUS.HALVES port)
      (s.blk.rchUp port = false ∨ set.val = 0 → exec (.reachWidthChange port set ack) s = .next s) ∧
      (l.widthChange = none → exec (.reachWidthAck port ack) s = .next s) ∧
      (s.blk.rchUp port = true → set.val ≠ 0 → halves &&& set.val ≠ 0 → l.txq = [] → l.txWait = [] → (l.held.findIdx? fun h => h.seq = ack.toNat) = none →
        Yields (.reachWidthChange port set ack) s fun t =>
          t.blk.rd (Reg.RCH_STATUS.HALVES port) = halves &&& set.val ∧ t.blk.out.contains (.rctrl port 2 last) = true ∧
          (s.blk.rframesSent t.blk port).drop 1 = again ∧ t.blk.fc = s.blk.fc ∧ s.ReachStep t port [Reg.RCH_STATUS.HALVES port]) ∧
      (s.blk.rchUp port = true → set.val ≠ 0 → halves &&& set.val = 0 → s.blk.NoPeerWork → Yields (.reachWidthChange port set ack) s fun t =>
        t.blk.rd (Reg.RCH_STATUS.STATE port) = Rch.DOWN ∧ (t.blk.rport port).trainAt = none ∧ s.ReachStep t port (Fld.rchLink port ++ Fld.rchErr port)) ∧
      (∀ w, l.widthChange = some w → s.blk.rchUp port = true → halves &&& w ≠ 0 → l.txq = [] → l.txWait = [] → (l.held.findIdx? fun h => h.seq = ack.toNat) = none →
        Yields (.reachWidthAck port ack) s fun t =>
          t.blk.rd (Reg.RCH_STATUS.HALVES port) = (halves &&& w) % 4 ∧ t.blk.rd (Reg.RCH_STATUS.WIDTH_CHANGE port) = 0 ∧ (t.blk.rport port).widthChange = none ∧
          s.blk.rframesSent t.blk port = again ∧ t.blk.fc = s.blk.fc ∧ s.ReachStep t port [Reg.RCH_STATUS.HALVES port, Reg.RCH_STATUS.WIDTH_CHANGE port])) ∧
  (
  ∀ (s : State) (port : PortNo),
    let l := s.blk.rport port
    let st := s.blk.rd (Reg.RCH_STATUS.STATE port)
    let present := s.blk.is (Reg.RCH_SLOT_STATUS.PRESENT port)
    let ctrl := s.blk.is (Reg.RCH_SLOT_CAP.PWR_CTRL port)
    let off := s.blk.is (Reg.RCH_SLOT_CTRL.PWR_OFF port)
    let cc := Reg.RCH_SLOT_STATUS.CC port
    exec (.presenceChange port present) s = .next s ∧
    ((present = true → s.blk.slotPowered port = true → s.blk.NoPeerWork) → Yields (.presenceChange port (!present)) s fun t =>
      t.blk.is (Reg.RCH_SLOT_STATUS.PRESENT port) = !present ∧ s.SlotTold t port (Reg.RCH_SLOT_STATUS.PDC port) (Reg.RCH_SLOT_CTRL.PDC_EN port) ∧
      (present = true → s.blk.slotPowered port = true →
        (∀ n ∈ s.blk.pathsVia port false, NSet.has t.blk.reach.priLost n = true) ∧ ∀ n ∈ s.blk.pathsVia port true, NSet.has t.blk.reach.failed n = true) ∧
      (present = true → s.blk.slotPowered port = false → t.blk.reach = s.blk.reach) ∧
      (present = false → t.blk.rport port = { l with removed := false }) ∧
      (present = true → s.blk.slotPowered port = true → t.blk.rport port = { l with removed := true, txq := l.txq.filter RPacket.isReq }) ∧
      s.ReachStep t port ([Reg.RCH_SLOT_STATUS.PRESENT port, Reg.RCH_SLOT_STATUS.PDC port] ++ Fld.rchErr port)) ∧
    (s.blk.is (Reg.RCH_SLOT_CAP.ATTN_BTN port) = false → exec (.attentionButton port) s = .next s) ∧
    (s.blk.is (Reg.RCH_SLOT_CAP.ATTN_BTN port) = true → Yields (.attentionButton port) s fun t =>
      s.SlotTold t port (Reg.RCH_SLOT_STATUS.ABP port) (Reg.RCH_SLOT_CTRL.ABP_EN port) ∧ t.blk.reach = s.blk.reach ∧
      s.ReachStep t port [Reg.RCH_SLOT_STATUS.ABP port]) ∧
    exec (.pwrOff port off) s = .next s ∧
    (ctrl = false → Yields (.pwrOff port (!off)) s fun t =>
      t.blk.is (Reg.RCH_SLOT_CTRL.PWR_OFF port) = (!off) ∧ s.SlotTold t port cc (Reg.RCH_SLOT_CTRL.CC_EN port) ∧ t.blk.reach = s.blk.reach ∧
      s.ReachStep t port [Reg.RCH_SLOT_CTRL.PWR_OFF port, cc]) ∧
    (ctrl = true → off = false → s.blk.NoPeerWork → Yields (.pwrOff port true) s fun t =>
      t.blk.rd (Reg.RCH_STATUS.STATE port) = Rch.DOWN ∧ t.blk.is (Reg.RCH_SLOT_CTRL.PWR_OFF port) = true ∧ t.blk.rd cc = 1 ∧ t.blk.slotPowered port = false ∧
      (t.blk.rport port).trainAt = none ∧
      (st = Rch.UP → t.blk.out[s.blk.out.length]? = some (.rctrl port 3 0) ∧
        s.PortDown t port { ReachPort.reset with retired := l.retired, trained := l.trained, trainAt := none }) ∧
      s.ReachStep t port ([Reg.RCH_SLOT_CTRL.PWR_OFF port, cc] ++ Fld.rchLink port ++ Fld.rchErr port)) ∧
    (ctrl = true → off = true → Yields (.pwrOff port false) s fun t =>
      t.blk.is (Reg.RCH_SLOT_CTRL.PWR_OFF port) = false ∧ s.SlotTold t port cc (Reg.RCH_SLOT_CTRL.CC_EN port) ∧
      (s.blk.boot.pllLocked = true → s.blk.is (Reg.RCH_CFG.EN port) = true → l.retired ≠ 3 → st = Rch.DOWN → s.blk.rd (Reg.RCH_SLOT_STATUS.LINK_ACTIVE port) = 0 →
        t.blk.rd (Reg.RCH_STATUS.STATE port) = Rch.TRAINING ∧ t.blk.rport port = { l with trainAt := some s.blk.now, trained := false }) ∧
      (s.blk.boot.pllLocked = false → t.blk.rport port = l) ∧
      s.ReachStep t port ([Reg.RCH_SLOT_CTRL.PWR_OFF port, cc] ++ Fld.rchLink port)) ∧
    ∀ attn pwr : Fin 4,
      let was (f : Fld) (v : Nat) : Nat := if v = 0 then s.blk.rd f else v
      let a := Reg.RCH_SLOT_CTRL.ATTN_IND port
      let p := Reg.RCH_SLOT_CTRL.PWR_IND port
      (was a attn = s.blk.rd a ∧ was p pwr = s.blk.rd p → exec (.slotIndicator port attn pwr) s = .next s) ∧
      (¬(was a attn = s.blk.rd a ∧ was p pwr = s.blk.rd p) → Yields (.slotIndicator port attn pwr) s fun t =>
        t.blk.rd a = was a attn ∧ t.blk.rd p = was p pwr ∧ s.SlotTold t port cc (Reg.RCH_SLOT_CTRL.CC_EN port) ∧ t.blk.reach = s.blk.reach ∧
        s.ReachStep t port [a, p, cc]))

/-- REACH_FORWARD, REACH_REQUEST, REACH_RESPONSE, WAIT_NOTICE and REACH_TIMEOUT (R312–R318): a packet short of its last hop goes on by its route, or a
request is answered RCH_PATH_LOST; one for another device goes by a relay entry, or is answered RCH_NO_ROUTE; a request that is not admitted is
answered so and reported; one that is, is performed in the slice it names and answered; a response, a wait's notice or a missing answer ends its
request once. -/
def Obligations.ReachPackets : Prop :=
  ∀ (s : State) (port : PortNo) (kind : ReachKind) (h : ReachHdr) (data : List Byte),
    s.blk.rchUp port = true → s.blk.ext.need = [] → s.blk.ext.used = [] → 1 ≤ h.hop.val →
    let k := RPacket.of kind h data
    let k' : RPacket := { k with ret := setBits k.ret (2 * (h.hop - 1)) 2 port }
    let units := 3 + ceilDiv data.length 16
    let own := s.blk.rd Reg.RCH_DEV.DEV_ID
    let req := k.isReq
    let last := k.hops ≤ k.hop
    let out := bits k.route (2 * k.hop) 2
    let via := findIdx 256 fun i => s.blk.is (Reg.RCH_RELAY00.VALID i) && decide (s.blk.rd (Reg.RCH_RELAY00.DEV_ID i) = k.dst)
    let l := s.blk.rport port
    let owed : ReachPort := { l with owedReq := l.owedReq + (if req then units else 0), owedRsp := l.owedRsp + (if req then 0 else units) }
    let regs := [Reg.RCH_FWD_DROP.COUNT port, Reg.RCH_FWD_DROP.COUNT (bits k'.ret (2 * (k.hop - 1)) 2)] ++ Fld.rchErr port ++ Fld.rchErr out
    -- the way back to the request's source is the port it came by
    let back (st : Nat) (d : List Byte) : RPacket :=
      { dst := k.src, src := own, slice := k.slice, kind := 6, ensign := k.ensign, tag := k.tag, len := d.length - 1, units := ceilDiv d.length 16
        route := (List.range k.hop).foldl (fun n j => n + bits k'.ret (2 * (k.hop - 1 - j)) 2 * 2 ^ (2 * j)) 0
        hop := 1, hops := k.hop, relays := 0, ret := 0, addr := 0, status := st, data := d }
    let idle := k.relays = 0 ∧ l.removed = false ∧ ({ owed with txq := l.txq } : ReachPort).Idle
    let arrives (t : State) := t = { s with blk := { s.blk with regs := t.blk.regs, reach := t.blk.reach, out := t.blk.out, ext := t.blk.ext } }
    let told := Status.foreign k.status
    -- short of the last hop, and through a relay
    ((last → k.dst ≠ own → via = none ∨ s.blk.is Reg.RCH_DEV.RELAY_EN = false ∨ 15 ≤ k.relays →
        (req = false → Yields (.reachForward port kind h data) s fun t =>
          t.blk.rd (Reg.RCH_FWD_DROP.COUNT port) = satAdd 32 (s.blk.rd (Reg.RCH_FWD_DROP.COUNT port)) 1 ∧ t.blk.out = s.blk.out ∧ t.blk.rport port = owed ∧
          s.blk.FieldsKept t.blk regs ∧ arrives t) ∧
        (req = true → idle → (back Code.RCH_NO_ROUTE []).credits ≤ l.rspCr → Yields (.reachForward port kind h data) s fun t =>
          s.blk.reachSent t.blk = [(port.val, back Code.RCH_NO_ROUTE [])] ∧ s.blk.FieldsKept t.blk regs ∧ arrives t) ∧
        (req = true → k.relays = 0 → l.removed = true → Yields (.reachForward port kind h data) s fun t =>
          t.blk.out = s.blk.out ∧ t.blk.rport port = owed ∧ s.blk.FieldsKept t.blk regs ∧ arrives t)) ∧
      (∀ i, last → k.dst ≠ own → via = some i → s.blk.is Reg.RCH_DEV.RELAY_EN = true → k.relays < 15 →
        let r := s.blk.rd (Reg.RCH_RELAY08.ROUTE i)
        s.blk.rchUp (bits r 0 2) = true → bits r 0 2 ≠ port.val → (s.blk.rport (bits r 0 2)).Idle →
        units ≤ (s.blk.rport (bits r 0 2)).reqCr → units ≤ (s.blk.rport (bits r 0 2)).rspCr → Yields (.reachForward port kind h data) s fun t =>
          s.blk.reachSent t.blk = [(bits r 0 2, { k' with route := r, hops := s.blk.rd (Reg.RCH_RELAY00.HOPS i), hop := 1, relays := k.relays + 1 })] ∧
          t.blk.rport port = owed ∧ s.blk.FieldsKept t.blk [] ∧ arrives t) ∧
      (¬last → s.blk.rchUp out = true → out ≠ port.val → (s.blk.rport out).Idle → units ≤ (s.blk.rport out).reqCr → units ≤ (s.blk.rport out).rspCr →
        Yields (.reachForward port kind h data) s fun t =>
          s.blk.reachSent t.blk = [(out, { k' with hop := k.hop + 1 })] ∧ t.blk.rport port = owed ∧ s.blk.FieldsKept t.blk [] ∧ arrives t) ∧
      (¬last → s.blk.rchUp out = false → req = true → idle → (back Code.RCH_PATH_LOST []).credits ≤ l.rspCr → Yields (.reachForward port kind h data) s fun t =>
        s.blk.reachSent t.blk = [(port.val, back Code.RCH_PATH_LOST [])] ∧ s.blk.FieldsKept t.blk regs ∧ arrives t)) ∧
    -- a request for this device
    (last → k.dst = own → req = true → k.relays = 0 → k.hop = 1 → l.Idle → l.removed = false →
      (s.blk.admitted k.src k.slice = false → (back Code.RCH_NOT_ADMITTED []).credits ≤ l.rspCr → Yields (.reachRequest port kind h data) s fun t =>
        s.blk.reachSent t.blk = [(port.val, back Code.RCH_NOT_ADMITTED [])] ∧ s.blk.Raised t.blk (Src.reachPort port) Kind.REACH_NOT_ADMITTED k.slice k.addr ∧
        s.blk.FieldsKept t.blk regs ∧
        t = { s with blk := { s.blk with regs := t.blk.regs, reach := t.blk.reach, out := t.blk.out, fc := t.blk.fc, ext := t.blk.ext } }) ∧
      (s.blk.admitted k.src k.slice = true →
        let b := s.blk.setRPort port owed
        let r := b.rchPerform port k'
        let b' := r.1
        let st := r.2.1
        let d := r.2.2
        b'.ext = s.blk.ext → b'.reach = b.reach → b'.out = s.blk.out → b'.rd Reg.RCH_DEV.DEV_ID = own → b'.rchUp port = true →
          (back st (if st = Code.SUCCESS then d else [])).credits ≤ l.rspCr → Yields (.reachRequest port kind h data) s fun t =>
            s.blk.reachSent t.blk = [(port.val, back st (if st = Code.SUCCESS then d else []))] ∧
            (kind = .read → k.status = 0 → (st, d) = (b.dlaRead (b.mkWho (.reach port) (some k.slice) k.ensign) k.addr (k.len + 1)).2) ∧
            t.blk.shelf = b'.shelf ∧ t.blk.hbm = b'.hbm ∧ t.blk.sync = b'.sync ∧ t.blk.queues = b'.queues ∧ b'.FieldsKept t.blk [])) ∧
    -- the answers to this device's own
    (last → k.dst = own →
      (s.blk.rchReq k.tag = none → Yields (.reachResponse port h data) s (fun t => s.blk.FieldsKept t.blk [] ∧ t.blk.out = s.blk.out ∧ t.blk.queues = s.blk.queues ∧ arrives t) ∧
        Yields (.waitNotice port h) s fun t => s.blk.FieldsKept t.blk [] ∧ t.blk.out = s.blk.out ∧ t.blk.queues = s.blk.queues ∧ arrives t) ∧
      ∀ r, s.blk.rchReq k.tag = some r →
        let gone := s.blk.reach.reqs.erase r
        let fs := [Reg.RCH_STATUS.OUTSTANDING r.port] ++ Fld.rchErr (s.blk.entryPort r.entry r.onAlt)
        (r.late = true → Yields (.reachResponse port h data) s fun t =>
          t.blk.reach.reqs = gone ∧ t.blk.ext.done = s.blk.ext.done ∧ s.blk.FieldsKept t.blk fs ∧ arrives t) ∧
        (let len := r.need.len
         r.late = false → r.registered = false → r.need.target.isPeer = true → s.blk.ext.sent.contains r.need = true →
          (k.status = Code.RCH_PATH_LOST → s.blk.NoPeerWork) → Yields (.reachResponse port h data) s fun t =>
            t.blk.reach.reqs = gone ∧
            t.blk.ext.done = s.blk.ext.done ++ [⟨r.need, told, match r.need.op with
              | .read => if told = Code.SUCCESS then sliceBytes data 0 len else zeros len
              | _ => []⟩] ∧
            (k.status = Code.RCH_PATH_LOST → s.blk.is (Reg.RCH_PEER00.ON_ALT r.entry) = r.onAlt →
              NSet.has (if r.onAlt then t.blk.reach.failed else t.blk.reach.priLost) r.entry = true) ∧
            (if told = Code.UNSPECIFIED_ERROR then s.blk.Raised t.blk (Src.reachPort r.port) Kind.UNSPECIFIED 0 0 else t.blk.fc = s.blk.fc) ∧
            s.blk.FieldsKept t.blk fs ∧
            t = { s with blk := { s.blk with regs := t.blk.regs, reach := t.blk.reach, out := t.blk.out, ext := t.blk.ext, fc := t.blk.fc } }) ∧
        (∀ key, r.need.target.waitKey = some key → r.late = false →
          (r.registered = false → k.status = Code.SUCCESS → Yields (.reachResponse port h data) s fun t =>
            t.blk.reach.reqs = (s.blk.reach.reqs.map fun x => if x = r then { r with registered := true } else x) ∧ t.blk.queues = s.blk.queues ∧
            s.blk.FieldsKept t.blk fs ∧ arrives t) ∧
          (s.blk.ext.sent.contains r.need = true → ∀ c : CmdRec, (s.blk.queue (key / 65536)).inflight = [c] → c.id < 65536 → key % 65536 = c.id → c.cmd.sigAmt = 0 → c.cmd.cpl = false →
            (s.blk.queue (key / 65536)).block = some (.wait c.id) → c.result = none → Yields (.waitNotice port h) s fun t =>
              t.blk.reach.reqs = gone ∧ (t.blk.queue (key / 65536)).inflight = [] ∧ (t.blk.queue (key / 65536)).block = none ∧
              t.blk.ext.sent = s.blk.ext.sent.filter fun n => n ≠ r.need)) ∧
        (∀ tag : BitVec 14, tag.toNat = k.tag →
          (r.late = true ∨ r.registered = true → exec (.reachTimeout tag) s = .next s) ∧
          (r.late = false → r.registered = false → r.need.target.isPeer = true → s.blk.ext.sent.contains r.need = true → Yields (.reachTimeout tag) s fun t =>
            t.blk.reach.reqs = (s.blk.reach.reqs.map fun x => if x = r then { r with late := true } else x) ∧
            (t.blk.ext.done.map fun x => (x.need, x.status)) = (s.blk.ext.done.map fun x => (x.need, x.status)) ++ [(r.need, Code.RCH_TIMEOUT)] ∧
            s.blk.FieldsKept t.blk [Reg.RCH_STATUS.OUTSTANDING r.port] ∧ arrives t)))

/-! ### Faults and recovery (16) -/

/-- FAULT_PAIR_ASSERT, ROUTER_POLL, CORE_HANG and BUCKET_LEAK (R321, R324, R327, R331): a pair with its levels reversed is asserted, one that reads equal
twice is broken, and each enters the collector as one record when the pair leaves normal; a thermal trip also drives THERMTRIP_L and HALFMAST and dips
the lateral sites; a router that misses three polls in a row, and a core whose command processor hangs, are raised; an event leaves its bucket. The
numbers of pairs in AUX are the model's (assumption 26). WAVE_REFRESH, WAVE_RESUME, WAVE_REFRESH_LAPSE, COLLECTOR_RESTART_DONE, FC_ACK, FC_ACK_ALL and
FATAL_AUTO_RESET (R325, R328, R329, R345): WAVE is low without a refresh and while the collector restarts, and otherwise as Table FLT-4 says; an
acknowledgement clears the records whose action has finished; 100 ms after a device-fatal event the sequencer starts a warm reset where the image
enables it. -/
def Obligations.FaultMonitors : Prop :=
  (
  ∀ s : State,
    (∀ (pair : FaultPair) (first second : Bool),
      let d := Pair.of pair
      let st := s.blk.pairState d.1
      let r : Record := ⟨d.2.1, d.2.2, d.1, 1, 0, true, false, false, s.blk.now⟩
      let shows (t : State) (v : Nat) : Prop := t.blk.pairState d.1 = v ∧ ∀ m, m ≠ d.1 → t.blk.pairState m = s.blk.pairState m
      let quiet (t : State) : Prop := t = { s with blk := { s.blk with fc := { s.blk.fc with pairs := t.blk.fc.pairs } } }
      let told (t : State) : Prop :=
        t.blk.fc = { s.blk.fc with pairs := t.blk.fc.pairs, inQ := r.enqueue s.blk.fc.inQ } ∧
        (d.2.2 ≠ Kind.THERMAL_TRIP → s.FcStep t []) ∧
        (d.2.2 = Kind.THERMAL_TRIP → t.blk.pw = { s.blk.pw with thermTrip := true } ∧ (∀ n : Fin 12, t.blk.rd (Reg.PW_SITE_STATUS.HALFMAST n) = 1) ∧
          ((t.blk.out.drop s.blk.out.length).map fun o => match o with
            | .sideband n w => (n, leAt w 0 1, leAt w 4 4)
            | _ => (0, 0, 0)) = [(12, 0x12, 1), (13, 0x12, 1), (14, 0x12, 1), (15, 0x12, 1)] ∧
          s.blk.FieldsKept t.blk (Reg.PW_STATUS.DIP_AUTO :: (List.range 12).map Reg.PW_SITE_STATUS.HALFMAST ++ (List.range 4).map fun i => Reg.PW_SITE_STATUS.DIPPED (12 + i)) ∧
          t = { s with blk := { s.blk with regs := t.blk.regs, fc := t.blk.fc, pw := t.blk.pw, sites := t.blk.sites, out := t.blk.out, free := t.blk.free } })
      s.blk.fc.injectPair = none →
        (first = true → second = false → Yields (.faultPairAssert pair first second) s fun t => shows t 0 ∧ quiet t) ∧
        (first = false → second = true → st = 0 ∨ st = 2 → Yields (.faultPairAssert pair first second) s fun t => shows t 1 ∧ told t) ∧
        (first = false → second = true → st = 1 ∨ st = 3 → exec (.faultPairAssert pair first second) s = .next s) ∧
        (first = second → st = 0 → Yields (.faultPairAssert pair first second) s fun t => shows t 2 ∧ quiet t) ∧
        (first = second → st = 2 → Yields (.faultPairAssert pair first second) s fun t => shows t 3 ∧ told t)) ∧
    (∀ answered : BitVec 32,
      let miss (b : Block) (r : Nat) : Nat := SMap.get (fun _ => 0) b.fc.pollMiss r
      let third (r : Nat) : Prop := answered.getLsbD r = false ∧ 2 ≤ miss s.blk r
      Yields (.routerPoll answered) s fun t =>
        (∀ r : Fin 32, miss t.blk r = (if answered.getLsbD r then 0 else if 2 ≤ miss s.blk r then 0 else miss s.blk r + 1) ∧
          (third r → t.blk.fc.inQ.any (fun q => decide (q.source = Src.router r) && decide (q.kind = Kind.SPINE_SILENT)) = true)) ∧
        ((∀ r : Fin 32, ¬third r) → t.blk.fc = { s.blk.fc with pollMiss := t.blk.fc.pollMiss }) ∧ s.FcStep t []) ∧
    (∀ pos : PosNo,
      let hangs := ∃ sl ∈ s.blk.liveSlices, ∃ c ∈ List.range 4, s.blk.home sl c = pos.val ∧ s.blk.sliceRuns sl = true ∧ s.blk.qState sl c = Q.RUNNING ∧
        (s.blk.q sl c).stopping = false ∧ (s.blk.q sl c).held = false ∧ (s.blk.q sl c).block = none ∧ (s.blk.q sl c).front.isSome = true
      (¬hangs → exec (.coreHang pos) s = .next s) ∧
      ∀ c, s.blk.coreOf pos = some c → hangs → Yields (.coreHang pos) s fun t => s.blk.Raised t.blk c Kind.CORE_HANG 0 0 ∧ s.FcStep t []) ∧
    ∀ src : Fin 4096,
      let l := s.blk.bucket src
      Yields (.bucketLeak src) s fun t =>
        ((∃ e ∈ l, (∀ x ∈ l, e.1 ≤ x.1) ∧ ∃ i ∈ List.range l.length, l[i]? = some e ∧ t.blk.bucket src = l.eraseIdx i) ∨ (l = [] ∧ t.blk.bucket src = [])) ∧
        t.blk.rd (Reg.FC_BUCKET.LEVEL src) = min 63 ((t.blk.bucket src).map fun e => e.2).sum ∧
        (∀ k, k ≠ src.val → t.blk.bucket k = s.blk.bucket k) ∧ s.FcStep t [Reg.FC_BUCKET.LEVEL src]) ∧
  (
  ∀ s : State,
    let same (t : State) : Prop := t.blk.fc = { s.blk.fc with waveLapsed := t.blk.fc.waveLapsed, waveStopped := t.blk.fc.waveStopped, wave := t.blk.fc.wave }
    let stopped := s.blk.fc.waveStopped || !s.blk.fc.opened.isEmpty
    (s.blk.fc.restarting ≠ none → exec .waveRefresh s = .next s) ∧
    (s.blk.fc.restarting = none → Yields .waveRefresh s fun t =>
      t.blk.fc.waveLapsed = false ∧ t.blk.fc.waveStopped = stopped ∧ t.blk.FaultsShown ∧ same t ∧ s.FcStep t Fld.fcStatus) ∧
    (s.blk.fc.opened ≠ [] → exec .waveResume s = .next s) ∧
    (s.blk.fc.opened = [] → Yields .waveResume s fun t =>
      t.blk.fc.waveStopped = false ∧ t.blk.fc.waveLapsed = s.blk.fc.waveLapsed ∧ t.blk.FaultsShown ∧ same t ∧ s.FcStep t Fld.fcStatus) ∧
    (Yields .waveRefreshLapse s fun t =>
      t.blk.fc.waveLapsed = true ∧ t.blk.fc.wave = .low ∧ t.blk.fc.waveStopped = stopped ∧ t.blk.FaultsShown ∧ same t ∧ s.FcStep t Fld.fcStatus) ∧
    (∀ r : OpenRecord, s.blk.fc.opened = [r] → r.done = false → r.waits = [.collector] → s.blk.fc.restarting ≠ none →
      Yields .collectorRestartDone s fun t =>
        t.blk.fc.restarting = none ∧ t.blk.fc.opened = (if r.needsAck = true ∧ r.acked = false then [{ r with done := true }] else []) ∧
        (∀ i, r.index = some i → t.blk.rd (Reg.FC_LOG18.DONE (i % 4096)) = 1 ∧
          s.FcStep t (Reg.FC_LOG18.DONE (i % 4096) :: Reg.FC_LOG18.DURATION_MS (i % 4096) :: Fld.fcStatus)) ∧
        t.blk.FaultsShown ∧ t.blk.fc.inQ = s.blk.fc.inQ ∧ t.blk.fc.buckets = s.blk.fc.buckets) ∧
    (∀ r : OpenRecord, s.blk.fc.opened = [r] → ∀ i : Fin 8192, r.done = true ∨ (r.waits = [.collector] ∧ s.blk.fc.restarting ≠ none) →
      let open' := if r.done = true then [] else [{ r with acked := true }]
      let fs := (match r.index with
        | some j => [Reg.FC_LOG18.ACKED (j % 4096)]
        | none => []) ++ Fld.fcStatus
      let acked (t : State) : Prop := t.blk.fc.opened = open' ∧ (∀ j, r.index = some j → t.blk.rd (Reg.FC_LOG18.ACKED (j % 4096)) = 1) ∧
        t.blk.FaultsShown ∧ t.blk.fc.inQ = s.blk.fc.inQ ∧ t.blk.fc.buckets = s.blk.fc.buckets ∧ s.FcStep t fs
      (r.needsAck = true → r.acked = false → (r.index = some i.val → Yields (.fcAck i) s acked) ∧ Yields .fcAckAll s acked) ∧
      (r.needsAck = true → r.acked = false → r.index ≠ some i.val → Yields (.fcAck i) s fun t => t.blk.fc.opened = [r] ∧ s.FcStep t Fld.fcStatus)) ∧
    (s.blk.fc.fatalAt = none ∨ s.blk.rd Reg.FC_CFG.FATAL_AUTO_RESET = 0 → exec .fatalAutoReset s = .next s) ∧
    (s.blk.fc.fatalAt ≠ none → s.blk.rd Reg.FC_CFG.FATAL_AUTO_RESET = 1 → s.blk.boot.power = true → s.blk.boot.draining = false →
      Yields .fatalAutoReset s fun t => s.WarmBegins t 3 false))

/-- RECORD_HANDLE (R326–R328, R330, R331, R345): the record at the head is logged and judged by its target's bucket; one that is transient runs nothing;
one whose action runs strikes its unit, resets the partition that holds it, restarts the collector or is device-fatal, and stays uncleared until its
action has finished and it is acknowledged; a record whose target is struck already is logged alone; a full log counts it lost. -/
def Obligations.RecordHandling : Prop :=
  ∀ (s : State) (r : Record), s.blk.RecordDue r → r.kind < 256 → r.source < 4096 →
    let act := s.blk.rd (Reg.FC_REACT.ACTION r.kind)
    let ack := s.blk.is (Reg.FC_REACT.ACK r.kind)
    let bucket := s.blk.rd (Reg.FC_REACT.BUCKET r.kind)
    let i := s.blk.rd Reg.FC_LOG_TAIL.INDEX
    let struck := s.blk.rd (Reg.FC_BUCKET.STRUCK r.source) = 1
    let old := s.blk.bucket r.source
    let filled := old ++ [(s.blk.now + msToCycles (s.blk.rd (Reg.FC_BUCKET.WINDOW_MS r.source)), r.count)]
    let full := s.blk.rd (Reg.FC_BUCKET.THRESHOLD r.source) ≤ (filled.map fun e => e.2).sum
    let fs := Fld.fcHandled s.blk ++ [Reg.FC_BUCKET.LEVEL r.source]
    let opens (t : State) (a done : Bool) (ws : List FWait) : Prop :=
      (t.blk.fc.opened.map fun o => (o.index, o.needsAck, o.acked, o.done, o.waits)) = [(some i, a, false, done, ws)] ∧ t.blk.FaultsShown
    let settled (t : State) : Prop := t.blk.fc.opened = [] ∧ t.blk.rd (Reg.FC_LOG18.DONE (i % 4096)) = 1
    act ≠ 2 → act ≤ 6 →
      -- no action runs
      (struck → Yields (.recordHandle none) s fun t => s.Logged t r 0 false false ∧ settled t ∧ t.blk.fc.buckets = s.blk.fc.buckets ∧ s.FcStep t fs) ∧
      (¬struck → act = 0 → bucket = 0 → ack = false → Yields (.recordHandle none) s fun t =>
        s.Logged t r 0 false false ∧ settled t ∧ t.blk.fc.buckets = s.blk.fc.buckets ∧ s.FcStep t fs) ∧
      (¬struck → act = 0 → bucket = 0 → ack = true → Yields (.recordHandle none) s fun t =>
        s.Logged t r 0 false true ∧ opens t true true [] ∧ t.blk.fc.buckets = s.blk.fc.buckets ∧ s.FcStep t fs) ∧
      (¬struck → bucket = 1 → ¬full → act ≠ 5 → ack = false → Yields (.recordHandle none) s fun t =>
        s.Logged t r 0 false false ∧ settled t ∧ t.blk.bucket r.source = filled ∧ s.FcStep t fs ∧
        t.blk.rd (Reg.FC_BUCKET.LEVEL r.source) = min 63 (filled.map fun e => e.2).sum) ∧
      -- strikes
      (¬struck → act = 1 → (bucket = 1 ∧ full) ∨ bucket = 2 →
        (FUnit.ofSource r.source = some .kept → Yields (.recordHandle none) s fun t => s.Logged t r 0 true true ∧ opens t true true [] ∧ t.blk.rd (Reg.FC_BUCKET.STRUCK r.source) = 0) ∧
        (FUnit.ofSource r.source = some .fatal → r.source ≠ Src.rootClock → s.blk.rd Reg.MH_STATUS.DEVICE_FATAL = 0 → Yields (.recordHandle none) s fun t =>
          s.Logged t r 1 true true ∧ t.blk.IsStruck r.source ∧ t.blk.rd Reg.MH_STATUS.DEVICE_FATAL = 1 ∧ t.blk.fc.wave = .low ∧ t.blk.fc.fatalAt = some s.blk.now ∧
          bit (t.blk.aerStatus 0 true) 22 = true ∧ opens t true true []) ∧
        (∀ n, FUnit.ofSource r.source = some (.core n) → s.blk.posOf n = none → ack = false → Yields (.recordHandle none) s fun t =>
          s.Logged t r 1 true false ∧ t.blk.IsStruck r.source ∧ t.blk.rd (Reg.MH_CORE_STATE.STATE n) = 1 ∧ settled t ∧
          s.blk.FieldsKept t.blk (fs ++ [Reg.FC_BUCKET.STRUCK r.source, Reg.MH_CORE_STATE.STATE n] ++ Fld.defects)) ∧
        (∀ n k, FUnit.ofSource r.source = some (.core n) → s.blk.posOf n = some k → ack = false → s.blk.slicesAt k = [] →
          ∀ sp, s.blk.spareCore n k = some sp → sp ≠ n → Yields (.recordHandle none) s fun t =>
            s.Logged t r 1 true false ∧ t.blk.IsStruck r.source ∧ t.blk.rd (Reg.MH_CORE_STATE.STATE n) = 1 ∧
            t.blk.rd (Reg.MH_CORE_MAP.PHYS k) = sp ∧ t.blk.rd (Reg.MH_CORE_STATE.STATE sp) = 2 ∧ t.blk.rd (Reg.FC_LOG18.REPLACEMENT (i % 4096)) = sp ∧
            t.blk.sync = s.blk.sync ∧ t.blk.posState k = { PosState.idle with records := (s.blk.posState k).records } ∧ t.blk.fc.recoveries = [] ∧ settled t)) ∧
      -- the other actions, run at once
      (¬struck → bucket = 0 → ack = false →
        (∀ p, act = 3 → (FUnit.ofSource r.source).bind s.blk.unitPart = some p → s.blk.partEmpty p = false → s.blk.ten.resets = [] → Yields (.recordHandle none) s fun t =>
          s.Logged t r 3 false false ∧ s.blk.PartStops t.blk p ∧ (t.blk.ten.resets.map fun x => (x.part, x.flr)) = [(p, false)] ∧ opens t false false [.part p]) ∧
        (act = 5 → FUnit.ofSource r.source = some .collector → Yields (.recordHandle none) s fun t =>
          s.Logged t r 5 false false ∧ t.blk.fc.restarting = some s.blk.now ∧ t.blk.fc.wave = .low ∧ opens t false false [.collector] ∧ s.FcStep t fs) ∧
        (act = 6 → s.blk.rd Reg.MH_STATUS.DEVICE_FATAL = 0 → Yields (.recordHandle none) s fun t =>
          s.Logged t r 6 false true ∧ t.blk.rd Reg.MH_STATUS.DEVICE_FATAL = 1 ∧ t.blk.fc.wave = .low ∧ t.blk.fc.fatalAt = some s.blk.now ∧ opens t true true []))

/-- UNIT_RESTORE and RESTORE_TEST_DONE (R327, R335, Table FLT-6): a source that names no restorable unit, or one that is fuse-bad, not struck or in a
recovery, is refused; a unit without a test returns at once, its bucket empty; another is tested, a site by enrolment; a test that fails leaves it
struck and enters the Field-defect log; a core that passes is a spare, or takes a position that has no core. RECOVERY_START, UNFENCE_TIMEOUT and
INJECT (R333, R342, R348): a recovery starts in a partition where none runs, and its slices' queues hold; an unfence that is not answered counts
against the new core, and the next good core is tried; outside TEST an injection is denied and does nothing more; in TEST a record enters the queue as
injected, or a fault is made in hardware. -/
def Obligations.RestoresAndInjection : Prop :=
  (
  ∀ (s : State) (src : Fin 4096) (passed : Bool),
    let u := FUnit.ofSource src
    let res (t : State) (st : Status) : Prop := t.blk.rd Reg.FC_RESTORE.STATUS = st ∧ t.blk.rd Reg.FC_RESTORE.BUSY = 0 ∧ t.blk.fc.restore = none
    let regs := [Reg.FC_RESTORE.SOURCE, Reg.FC_RESTORE.STATUS, Reg.FC_RESTORE.BUSY]
    let able := u.bind FUnit.restores
    let no := able = none ∨ NSet.has s.blk.boot.fuses.bad src = true ∨ s.blk.rd (Reg.FC_BUCKET.STRUCK src) = 0 ∨ u.any s.blk.inRecovery = true
    let parts := Reg.MH_STATUS.DEGRADED :: (List.range 32).flatMap fun p =>
      [Reg.FC_PART_STATE.DEGRADED p, Reg.FC_PART_STATE.DOWN p, Reg.FC_PART_STATE.RECOVERING p, Reg.FC_PART_STATE.POSITIONS_LOST p, Reg.FC_PART_STATE.SITE_CORES_LOST p,
        Reg.FC_PART_STATE.CHANNELS_LOST p, Reg.FC_PART_STATE.GROUPS_STRUCK p]
    let back (t : State) : Prop := t.blk.rd (Reg.FC_BUCKET.STRUCK src) = 0 ∧ t.blk.bucket src = []
    let bucket := [Reg.FC_BUCKET.STRUCK src, Reg.FC_BUCKET.LEVEL src]
    (s.blk.rd Reg.FC_RESTORE.BUSY = 1 → exec (.unitRestore src) s = .next s) ∧
    (s.blk.rd Reg.FC_RESTORE.BUSY = 0 → s.blk.fc.restore = none →
      (no → Yields (.unitRestore src) s fun t => res t Code.FLT_RESTORE_REFUSED ∧ t.blk.rd Reg.FC_RESTORE.SOURCE = src ∧ OnlyFields s t regs) ∧
      (¬no → able = some true → (∀ n, u ≠ some (.site n)) → Yields (.unitRestore src) s fun t =>
        t.blk.rd Reg.FC_RESTORE.BUSY = 1 ∧ t.blk.fc = { s.blk.fc with restore := some src.val } ∧ s.FcStep t regs) ∧
      (¬no → ∀ n g, u = some (.laneGroup n g) → Yields (.unitRestore src) s fun t =>
        res t Code.SUCCESS ∧ back t ∧ t.blk.rd (Reg.ST_LANE_STATE.RETIRED n) = setBits (s.blk.rd (Reg.ST_LANE_STATE.RETIRED n)) g 1 0 ∧
        s.FcStep t (regs ++ bucket ++ parts ++ [Reg.ST_LANE_STATE.RETIRED n])) ∧
      (¬no → ∀ n k, u = some (.siteCore n k) → Yields (.unitRestore src) s fun t => res t Code.SUCCESS ∧ back t ∧ s.FcStep t (regs ++ bucket ++ parts)) ∧
      (¬no → ∀ p n, u = some (.reachLane p n) → Yields (.unitRestore src) s fun t =>
        let lane (i : Nat) : Nat := Src.reachLane p (4 * (n / 4) + i)
        res t Code.SUCCESS ∧ back t ∧ (∀ i : Fin 4, t.blk.rd (Reg.FC_BUCKET.STRUCK (lane i)) = 0 ∧ t.blk.bucket (lane i) = []) ∧
        (t.blk.rport p).retired = setBits (s.blk.rport p).retired (n / 4) 1 0 ∧ (∀ q, q ≠ p → t.blk.rport q = s.blk.rport q) ∧
        s.blk.FieldsKept t.blk (regs ++ parts ++ (List.range 4).flatMap fun i => [Reg.FC_BUCKET.STRUCK (lane i), Reg.FC_BUCKET.LEVEL (lane i)]) ∧
        t = { s with blk := { s.blk with regs := t.blk.regs, fc := t.blk.fc, reach := { s.blk.reach with ports := t.blk.reach.ports } } })) ∧
    (s.blk.fc.restore = none → exec (.restoreTestDone passed) s = .next s) ∧
    (s.blk.fc.restore = some src.val →
      ((∀ n, u ≠ some (.site n)) → passed = false → Yields (.restoreTestDone passed) s fun t =>
        res t Code.FLT_RESTORE_FAILED ∧ t.blk.rd (Reg.FC_BUCKET.STRUCK src) = s.blk.rd (Reg.FC_BUCKET.STRUCK src) ∧
        (t.blk.rd Reg.MH_DEFECT_CTRL.OVERFLOW = 0 → u ≠ none → t.blk.DefectEntered src 3) ∧ s.blk.FieldsKept t.blk (regs ++ Fld.defects) ∧
        t = { s with blk := { s.blk with regs := t.blk.regs, fc := { s.blk.fc with restore := none }, boot := { s.blk.boot with nor := t.blk.boot.nor } } }) ∧
      (∀ n, u = some (.site n) → Yields (.restoreTestDone passed) s fun t =>
        (s.blk.enrolled n = true → res t Code.SUCCESS ∧ back t ∧ s.FcStep t (regs ++ bucket ++ parts)) ∧
        (s.blk.enrolled n = false → res t Code.FLT_RESTORE_FAILED)) ∧
      (∀ n, u = some (.core n) → passed = true → (∀ k : PosNo, s.blk.posHolder k = none ∨ (s.blk.coreOf k).isSome = true) → Yields (.restoreTestDone passed) s fun t =>
        res t Code.SUCCESS ∧ back t ∧ t.blk.rd (Reg.MH_CORE_STATE.STATE n) = 3 ∧ s.FcStep t (regs ++ bucket ++ parts ++ [Reg.MH_CORE_STATE.STATE n])) ∧
      ∀ n (k : PosNo), u = some (.core n) → passed = true → s.blk.coreOf k = none → (s.blk.posHolder k).isSome = true →
        (∀ j : PosNo, s.blk.coreOf j = none → (s.blk.posHolder j).isSome = true → k ≤ j) → (∀ p : PartNo, n ∉ (s.blk.part p).spareNames) →
        Yields (.restoreTestDone passed) s fun t =>
          res t Code.SUCCESS ∧ back t ∧ t.blk.rd (Reg.MH_CORE_STATE.STATE n) = 2 ∧ t.blk.coreOf k = some n ∧ NSet.has t.blk.sync.lostHomes k = false ∧
          t.blk.sync.vals = s.blk.sync.vals)) ∧
  (
  ∀ s : State,
    (∀ p : PartNo,
      ((∃ r ∈ s.blk.fc.recoveries, r.part = p.val ∧ r.phase ≠ .waiting) ∨ (∀ r ∈ s.blk.fc.recoveries, r.part ≠ p.val) → exec (.recoveryStart p) s = .next s) ∧
      ∀ r, s.blk.fc.recoveries = [r] → r.part = p.val → r.phase = .waiting → ∀ sl, r.kind = .dataReplay sl → s.blk.cancelsOut sl = true → s.blk.fc.opened = [] → Yields (.recoveryStart p) s fun t =>
        t.blk.fc.recoveries = [{ r with phase := .cancelling, slices := [(sl, s.blk.gen sl)], since := s.blk.now }] ∧
        (∀ c : ClassNo, (t.blk.q sl c).held = true) ∧ (∀ k, k / 4 ≠ sl → t.blk.queue k = s.blk.queue k) ∧ t.blk.fc.inQ = s.blk.fc.inQ ∧ t.blk.FaultsShown) ∧
    (∀ (n : SiteNo) (k : Fin 64),
      ((∀ u ∈ s.blk.fc.unfences, ¬(u.site = n.val ∧ u.phys = k.val)) → exec (.unfenceTimeout n k) s = .next s) ∧
      ∀ u, s.blk.fc.unfences = [u] → u.site = n.val → u.phys = k.val → s.blk.fc.recoveries = [] → s.blk.fc.opened = [] → Yields (.unfenceTimeout n k) s fun t =>
        (t.blk.fc.inQ.any fun q => decide (q.source = Src.siteCore n k) && decide (q.kind = Kind.SITE_CORE_UNRESPONSIVE)) = true ∧
        (t.blk.siteCoreMap n u.logical = none → t.blk.fc.unfences = []) ∧
        (∀ m, t.blk.siteCoreMap n u.logical = some m → m ≠ k.val ∧ (t.blk.fc.unfences.map fun u => (u.site, u.logical, u.phys)) = [(n.val, u.logical, m)] ∧
          s.blk.siteCoreStruck n m = false ∧ (∀ l : Fin 64, s.blk.siteCoreMap n l ≠ some m) ∧
          (s.blk.packetsTo t.blk n ++ (t.blk.site n).txq).any (fun q => decide (q.core = m ∧ q.op = 0x22 ∧ q.attr = 0)) = true) ∧
        (∀ l : Fin 64, l.val ≠ u.logical → t.blk.siteCoreMap n l = s.blk.siteCoreMap n l) ∧ s.blk.SitesKept t.blk n) ∧
    ∀ (src : Fin 4096) (kind : BitVec 8) (aux : BitVec 12) (cnt : BitVec 16) (mode1 : Bool),
      let addr := s.blk.rd Reg.FC_INJECT08.ADDR
      let regs := [Reg.FC_INJECT00.SOURCE, Reg.FC_INJECT00.KIND, Reg.FC_INJECT00.AUX, Reg.FC_INJECT00.COUNT, Reg.FC_INJECT00.MODE]
      let given (t : State) : Prop := t.blk.rd Reg.FC_INJECT00.SOURCE = src ∧ t.blk.rd Reg.FC_INJECT00.KIND = kind.toNat ∧ t.blk.rd Reg.FC_INJECT00.COUNT = cnt.toNat
      let busy := Reg.FC_INJECT_STATUS.BUSY :: regs ++ Fld.fcStatus
      let r : Record := ⟨src, kind.toNat, aux.toNat, cnt.toNat, addr, false, true, false, s.blk.now⟩
      let u := FUnit.ofSource src
      (s.blk.lc ≠ Lc.TEST → Yields (.inject src kind aux cnt mode1) s fun t => given t ∧ t.blk.rd Reg.FC_INJECT_STATUS.DENIED = 1 ∧ OnlyFields s t (Reg.FC_INJECT_STATUS.DENIED :: regs)) ∧
      (s.blk.lc = Lc.TEST →
        (mode1 = false → Yields (.inject src kind aux cnt mode1) s fun t => given t ∧ t.blk.fc.inQ = r.enqueue s.blk.fc.inQ ∧ t.blk.rd Reg.FC_INJECT_STATUS.BUSY = 1 ∧
          t.blk.FaultsShown ∧ s.FcStep t busy) ∧
        (∀ p, u = some (.bank p) → mode1 = true → addr < 2 ^ 29 → cnt ≠ 0 → Yields (.inject src kind aux cnt mode1) s fun t => given t ∧
          SMap.get (fun _ => 0) t.blk.shelf.upset (addr / 8 * 8) = min cnt.toNat 2 ∧ (∀ a, s.blk.shelfByte a = t.blk.shelfByte a) ∧
          (∀ a, a ≠ addr / 8 * 8 → SMap.get (fun _ => 0) t.blk.shelf.upset a = SMap.get (fun _ => 0) s.blk.shelf.upset a) ∧
          t = { s with blk := { s.blk with regs := t.blk.regs, fc := t.blk.fc, shelf := { s.blk.shelf with upset := t.blk.shelf.upset } } } ∧
          s.blk.FieldsKept t.blk (regs ++ Fld.fcStatus)) ∧
        (∀ p n, u = some (.reachLane p n) → mode1 = true → cnt ≠ 0 → Yields (.inject src kind aux cnt mode1) s fun t => given t ∧
          SMap.get (fun _ => 0) t.blk.fc.corruptFrames src = cnt.toNat ∧ t.blk.fc.inQ = s.blk.fc.inQ ∧ t.blk.rd Reg.FC_INJECT_STATUS.BUSY = 1 ∧ s.FcStep t busy)))

/-! ### Security and life cycle (17) -/

/-- SLOT_GENERATE, SLOT_IMPORT and SLOT_CLEAR (R351, R353–R355): the statuses of Table SEC-2; an EMPTY slot takes a fresh key, or the key that an accepted
record wraps; a cleared one is EMPTY, and the install or the migration under it has ended first. FW_STAGE and FW_STAGE_DONE (R353, R359): one stage at
a time, under a handle of slice 0; an image whose header, signature or version fails leaves no staged image of its component; another is staged, and
MH_STATUS.PENDING_UPDATE shows it. What an image's header tells is the model's opaque reading (assumption 32). -/
def Obligations.SlotsAndFirmware : Prop :=
  (
  ∀ (s : State) (slot : Fin 4096),
    let key (b : Block) (k : Nat) := SMap.get (fun _ => none) b.keys.slot k
    let fs := [Reg.SEC_CMD.OP, Reg.SEC_CMD.SLOT, Reg.SEC_CMD_RESULT.STATUS, Reg.SEC_CMD_RESULT.HANDLE]
    let tells (t : State) (op st : Nat) : Prop := t.blk.rd Reg.SEC_CMD.OP = op ∧ t.blk.rd Reg.SEC_CMD.SLOT = slot ∧ t.blk.rd Reg.SEC_CMD_RESULT.STATUS = st ∧
      t.blk.rd Reg.SEC_CMD_RESULT.HANDLE = 0
    let holds (t : State) (st : Nat) (k : Option Nat) : Prop := t.blk.slotState slot = st ∧ key t.blk slot = k ∧ (∀ m, m ≠ slot.val → key t.blk m = key s.blk m) ∧
      t.blk.keys.slice = s.blk.keys.slice ∧ s.blk.FieldsKept t.blk (Reg.SEC_SLOT_OWNER.STATE slot :: fs)
    let st := s.blk.slotState slot
    let live := s.blk.keysLive
    let p := s.blk.rd Reg.SEC_CMD_ARG0.PTR
    let c := s.blk.secCmd 2 slot
    let no (op : Nat) (i : Instr) (code : Status) : Prop := Yields i s fun t => tells t op code ∧ t = { s with blk := { s.blk with regs := t.blk.regs, ext := t.blk.ext } } ∧ s.blk.FieldsKept t.blk fs
    let may := Sec.ptrOk p && s.blk.is (Reg.SEC_SLOT_OWNER.OWNED slot)
    (live = false → no 1 (.slotGenerate slot) Code.SEC_KEYS_ZEROISED) ∧
    (live = true → st ≠ Slot.EMPTY → no 1 (.slotGenerate slot) Code.SEC_SLOT_STATE) ∧
    (live = true → st = Slot.EMPTY → Yields (.slotGenerate slot) s fun t =>
      tells t 1 Code.SUCCESS ∧ holds t Slot.GENERATED (some (leNat ((List.range 96).map fun i => Config.freeByte (s.blk.free + i)))) ∧
      t = { s with blk := { s.blk with regs := t.blk.regs, keys := t.blk.keys, free := s.blk.free + 96 } }) ∧
    (s.blk.ext.need = [] →
      (may = false → no 2 (.slotImport slot) Code.SEC_BAD_CMD) ∧
      (may = true → s.blk.lc = Lc.BLANK → no 2 (.slotImport slot) Code.SEC_NO_IDENTITY) ∧
      (may = true → s.blk.lc ≠ Lc.BLANK → live = false → no 2 (.slotImport slot) Code.SEC_KEYS_ZEROISED) ∧
      (may = true → s.blk.lc ≠ Lc.BLANK → live = true → st ≠ Slot.EMPTY → no 2 (.slotImport slot) Code.SEC_SLOT_STATE) ∧
      (may = true → s.blk.lc ≠ Lc.BLANK → live = true → st = Slot.EMPTY →
        (∀ e d, c.ptrRead (c.secWho 0) p 512 = (c, e, d) → e ≠ Code.SUCCESS → e < 65536 → no 2 (.slotImport slot) e) ∧
        (∀ d, c.ptrRead (c.secWho 0) p 512 = (c, Code.SUCCESS, d) →
          let pub := sliceBytes d 0 96
          let listed := s.blk.ownerHas pub Reg.SEC_OWNER30.IMPORT (some (s.blk.rd (Reg.SEC_SLOT_OWNER.PARTITION slot)))
          let signed := Config.ecdsaVerify pub (sliceBytes d 0 304) (sliceBytes d 304 96)
          let zeroed := (sliceBytes d 400 112).all fun x => x = 0
          let k := Config.unwrap s.fuse.uds 0 (sliceBytes d 96 96) (sliceBytes d 296 8 ++ natLE 48 (Config.bindingDigest s.fuse.uds).toNat) (sliceBytes d 192 104)
          (listed = false → no 2 (.slotImport slot) Code.SEC_OWNER_DENIED) ∧
          (listed = true → signed = false ∨ zeroed = false → no 2 (.slotImport slot) Code.SEC_SIG_BAD) ∧
          (listed = true → signed = true → zeroed = true → k = none → no 2 (.slotImport slot) Code.SEC_UNWRAP_FAIL) ∧
          (∀ v, k = some v → listed = true → signed = true → zeroed = true → Yields (.slotImport slot) s fun t =>
            tells t 2 Code.SUCCESS ∧ holds t Slot.IMPORTED (some v.toNat) ∧ t = { s with blk := { s.blk with regs := t.blk.regs, keys := t.blk.keys, ext := t.blk.ext } })))) ∧
    (live = false → no 3 (.slotClear slot) Code.SEC_KEYS_ZEROISED) ∧
    (live = true → st = Slot.EMPTY → no 3 (.slotClear slot) Code.SEC_SLOT_STATE) ∧
    (live = true → st ≠ Slot.EMPTY →
      (Yields (.slotClear slot) s fun t => tells t 3 Code.SUCCESS ∧ t.blk.slotState slot = Slot.EMPTY ∧ key t.blk slot = none) ∧
      ((∀ i ∈ s.blk.sec.installs, i.slot ≠ some slot.val) → (∀ e ∈ s.blk.slices, e.2.op.all (fun o => o.keySlot != slot.val) = true) → Yields (.slotClear slot) s fun t =>
        holds t Slot.EMPTY none ∧ t = { s with blk := { s.blk with regs := t.blk.regs, keys := t.blk.keys } }) ∧
      (∀ i, s.blk.sec.installs = [i] → i.slot = some slot.val → i.units = none → s.blk.HandleAlone i.seq →
        (∀ e ∈ s.blk.slices, e.2.op.all (fun o => o.keySlot != slot.val) = true) → Yields (.slotClear slot) s fun t =>
          t.blk.sec = { s.blk.sec with installs := [] } ∧ t.blk.rd Reg.SEC_STATUS.INSTALLS = 0 ∧ t.blk.journalState i.journal = Journal.ABORTED ∧
          s.blk.HandleEnds t.blk i.seq Code.SEC_INSTALL_ABORTED ∧ t.blk.hbm = s.blk.hbm ∧ key t.blk slot = none) ∧
      (∀ n o, s.blk.slices.filter (fun e => e.2.op.any fun o => o.keySlot == slot.val) = [(n, o)] → ∀ op, o.op = some op → s.blk.sec.installs = [] → s.blk.HandleAlone op.seq →
        op.restore = false → (s.blk.slice n).op = some op → Yields (.slotClear slot) s fun t =>
          (t.blk.slice n).op = none ∧ t.blk.journalState op.journal = Journal.ABORTED ∧ s.blk.HandleEnds t.blk op.seq Code.TEN_ABORTED ∧ key t.blk slot = none))) ∧
  (
  ∀ s : State,
    let src := s.blk.rd Reg.SEC_CMD_ARG0.PTR
    let fs := [Reg.SEC_CMD.OP, Reg.SEC_CMD_RESULT.STATUS, Reg.SEC_CMD_RESULT.HANDLE]
    let no (st : Status) : Prop := Yields .fwStage s fun t => t.blk.rd Reg.SEC_CMD.OP = 5 ∧ t.blk.rd Reg.SEC_CMD_RESULT.STATUS = st ∧ t.blk.rd Reg.SEC_CMD_RESULT.HANDLE = 0 ∧ OnlyFields s t fs
    let limit := min 256 (s.blk.rd (Reg.SL_QUOTA.HANDLES 0))
    (Sec.ptrOk src = false → no Code.SEC_BAD_CMD) ∧
    (Sec.ptrOk src = true →
      (s.blk.sec.stage ≠ none → no Code.SEC_BUSY) ∧
      (s.blk.sec.stage = none → limit ≤ (s.blk.slice 0).handles.length → no Code.HANDLE_LIMIT) ∧
      ∀ j, s.blk.journalFree = some j → s.blk.sec.stage = none → (s.blk.slice 0).handles.length < limit → Yields .fwStage s fun t =>
        let seq := s.blk.rd (Reg.SL_HANDLE_STATUS.NEXT_SEQ 0)
        t.blk.rd Reg.SEC_CMD_RESULT.STATUS = Code.SUCCESS ∧ t.blk.rd Reg.SEC_CMD_RESULT.HANDLE = Handle.number 0 (s.blk.gen 0) seq ∧
        t.blk.sec = { s.blk.sec with stage := some ⟨seq, j, src⟩ } ∧ (t.blk.slice 0).handles = (s.blk.slice 0).handles ++ [⟨seq, [], none⟩] ∧
        t.blk.journalState j = Journal.RUNNING ∧ t.blk.rd (Reg.MH_JOURNAL00.KIND j) = Journal.STAGE ∧
        s.blk.FieldsKept t.blk (fs ++ [Reg.SL_HANDLE_STATUS.NEXT_SEQ 0, Reg.SL_HANDLE_STATUS.LIVE 0] ++ Fld.journal j) ∧
        t = { s with blk := { s.blk with regs := t.blk.regs, slices := t.blk.slices, sec := t.blk.sec } }) ∧
    (s.blk.ext.need = [] → s.blk.sec.stage = none → Yields .fwStageDone s fun t => t = { s with blk := { s.blk with ext := t.blk.ext } }) ∧
    ∀ g, s.blk.sec.stage = some g → s.blk.ext.need = [] → s.blk.HandleAlone g.seq →
      let w := s.blk.secWho 0
      let shown := [Reg.SEC_FW_STATUS.STAGED, Reg.MH_STATUS.PENDING_UPDATE]
      let ends (st state : Nat) (cnt : Nat) (fs : List Fld) (p : State → Prop) : Prop := Yields .fwStageDone s fun t =>
        t.blk.sec.stage = none ∧ t.blk.journalState g.journal = state ∧ s.blk.HandleEnds t.blk g.seq st ∧ ((t.blk.slice 0).entries.getLast?.map fun e => e.count) = some cnt ∧ p t ∧
        s.blk.FieldsKept t.blk (fs ++ Reg.SL_CRING_STATUS.FULL 0 :: Fld.journal g.journal) ∧
        t = { s with blk := { s.blk with regs := t.blk.regs, slices := t.blk.slices, sec := t.blk.sec, ext := t.blk.ext } }
      let untouched (t : State) : Prop := t.blk.sec = { s.blk.sec with stage := none }
      let staged (comp : Nat) (f : Option Firmware) (t : State) : Prop :=
        t.blk.sec = (if comp = 1 then { s.blk.sec with stage := none, axStaged := f } else { s.blk.sec with stage := none, dnStaged := f }) ∧
        bit (t.blk.rd Reg.SEC_FW_STATUS.STAGED) (comp - 1) = f.isSome ∧ bit (t.blk.rd Reg.SEC_FW_STATUS.STAGED) (2 - comp) = bit (s.blk.rd Reg.SEC_FW_STATUS.STAGED) (2 - comp) ∧
        t.blk.rd Reg.MH_STATUS.PENDING_UPDATE = b01 (t.blk.rd Reg.SEC_FW_STATUS.STAGED != 0)
      (∀ e d, s.blk.ptrRead w g.src 4096 = (s.blk, e, d) → e ≠ Code.SUCCESS → e < 65536 → ends e Journal.ABORTED 0 [] untouched) ∧
      ∀ hd, s.blk.ptrRead w g.src 4096 = (s.blk, Code.SUCCESS, hd) →
        (Config.fwHeader hd = none → ends Code.SEC_FW_BAD Journal.ABORTED 0 [] untouched) ∧
        ∀ comp svn len, Config.fwHeader hd = some (comp, svn, len) →
          (comp ≠ 1 → comp ≠ 2 → ends Code.SEC_FW_BAD Journal.ABORTED 0 [] untouched) ∧
          (comp = 1 ∨ comp = 2 → ∀ d, s.blk.ptrRead w g.src len = (s.blk, Code.SUCCESS, d) →
            let least := s.blk.rd (if comp = 1 then Reg.SEC_FW_STATUS.AX_MIN_SVN else Reg.SEC_FW_STATUS.DN_MIN_SVN)
            (Config.fwVerify d = false → ends Code.SEC_FW_BAD Journal.ABORTED 0 shown (staged comp none)) ∧
            (Config.fwVerify d = true → svn.val < least → ends Code.SEC_FW_ROLLBACK Journal.ABORTED 0 shown (staged comp none)) ∧
            (Config.fwVerify d = true → least ≤ svn.val → ends Code.SUCCESS Journal.DONE (ceilDiv len 4096) shown (staged comp (some ⟨svn, (Config.sha384 d).toNat⟩)))))

/-- PKG_INSTALL, INSTALL_UNIT and PKG_INSTALL_DONE (R355–R358): the checks in order; steps 1 to 4 write nothing and end the install where they fail; step
5 decrypts and writes a unit with its seal; step 6 ends the install, or rolls its blocks back: they read as never written, with no seal. -/
def Obligations.Installs : Prop :=
  ∀ s : State,
    (let src := s.blk.rd Reg.SEC_CMD_ARG0.PTR
     let dst := s.blk.rd Reg.SEC_CMD_ARG1.DST
     let len := s.blk.rd Reg.SEC_CMD_ARG2.LENGTH
     let slice := s.blk.rd Reg.SEC_CMD_ARG2.SLICE
     let fs := [Reg.SEC_CMD.OP, Reg.SEC_CMD_RESULT.STATUS, Reg.SEC_CMD_RESULT.HANDLE]
     let no (st : Status) : Prop := Yields .pkgInstall s fun t => t.blk.rd Reg.SEC_CMD.OP = 4 ∧ t.blk.rd Reg.SEC_CMD_RESULT.STATUS = st ∧ t.blk.rd Reg.SEC_CMD_RESULT.HANDLE = 0 ∧ OnlyFields s t fs
     let aligned := Sec.ptrOk src && decide (dst % 4096 = 0)
     let live := s.blk.keysLive && decide (s.blk.lc ≠ Lc.BLANK)
     (aligned = false ∨ s.blk.regionOf dst (4096 * len) = none → no Code.SEC_BAD_CMD) ∧
     ∀ r, s.blk.regionOf dst (4096 * len) = some r → aligned = true →
      let slotted := decide (r.keyMode = 1)
      let owned := !slotted || s.blk.is (Reg.SEC_SLOT_OWNER.OWNED r.keySlot)
      let right := s.blk.rangeDenied slice dst len .w
      let targetOk := if slotted then decide (s.blk.slotState r.keySlot ≠ Slot.EMPTY) else decide (s.blk.sliceState slice = Slice.OPEN) && right.isNone
      let overlap := s.blk.sec.installs.any fun i => decide (dst < i.dst + 4096 * i.length) && decide (i.dst < dst + 4096 * len)
      let limit := min 256 (s.blk.rd (Reg.SL_QUOTA.HANDLES 0))
      r.keyMode < 2 →
      (owned = false → no Code.SEC_BAD_CMD) ∧
      (owned = true → s.blk.lc = Lc.BLANK → no Code.SEC_NO_IDENTITY) ∧
      (owned = true → s.blk.lc ≠ Lc.BLANK → live = false → no Code.SEC_KEYS_ZEROISED) ∧
      (owned = true → live = true →
        (slotted = true → targetOk = false → no Code.SEC_SLOT_STATE) ∧
        (slotted = false → s.blk.sliceState slice ≠ Slice.OPEN → no Code.TEN_BAD_STATE) ∧
        (∀ st, right = some st → slotted = false → s.blk.sliceState slice = Slice.OPEN → st < 65536 → no st) ∧
        (targetOk = true → overlap = true → no Code.SEC_RANGE_BUSY) ∧
        (targetOk = true → overlap = false → 4 ≤ s.blk.sec.installs.length → no Code.SEC_BUSY) ∧
        (targetOk = true → overlap = false → s.blk.sec.installs.length < 4 → limit ≤ (s.blk.slice 0).handles.length → no Code.HANDLE_LIMIT) ∧
        ∀ j, s.blk.journalFree = some j → targetOk = true → overlap = false → s.blk.sec.installs.length < 4 → (s.blk.slice 0).handles.length < limit → Yields .pkgInstall s fun t =>
          let seq := s.blk.rd (Reg.SL_HANDLE_STATUS.NEXT_SEQ 0)
          t.blk.rd Reg.SEC_CMD_RESULT.STATUS = Code.SUCCESS ∧ t.blk.rd Reg.SEC_CMD_RESULT.HANDLE = Handle.number 0 (s.blk.gen 0) seq ∧
          t.blk.sec = { s.blk.sec with installs := s.blk.sec.installs ++ [⟨seq, j, src, dst, len, if slotted then some r.keySlot else none, slice, none, 0, 0, [], 0⟩] } ∧
          t.blk.rd Reg.SEC_STATUS.INSTALLS = s.blk.sec.installs.length + 1 ∧ (t.blk.slice 0).handles = (s.blk.slice 0).handles ++ [⟨seq, [], none⟩] ∧
          t.blk.journalState j = Journal.RUNNING ∧ t.blk.rd (Reg.MH_JOURNAL00.KIND j) = Journal.INSTALL ∧ t.blk.rd (Reg.MH_JOURNAL08.TARGET j) = dst ∧
          s.blk.FieldsKept t.blk (fs ++ [Reg.SEC_STATUS.INSTALLS, Reg.SL_HANDLE_STATUS.NEXT_SEQ 0, Reg.SL_HANDLE_STATUS.LIVE 0] ++ Fld.journal j) ∧
          t = { s with blk := { s.blk with regs := t.blk.regs, slices := t.blk.slices, sec := t.blk.sec } })) ∧
    ∀ nth : Fin 4,
      let idle (c : Instr) : Prop := Yields c s fun t => t = { s with blk := { s.blk with ext := t.blk.ext } }
      (s.blk.sec.installs[nth.val]? = none → s.blk.ext.need = [] → idle (.installUnit nth) ∧ exec (.pkgInstallDone nth) s = .next s) ∧
      ∀ i, s.blk.sec.installs[nth.val]? = some i → s.blk.sec.installs = [i] → s.blk.HandleAlone i.seq → s.blk.ext.need = [] →
        let ends (t : State) (st state cnt : Nat) : Prop := t.blk.sec = { s.blk.sec with installs := [] } ∧ t.blk.rd Reg.SEC_STATUS.INSTALLS = 0 ∧ t.blk.journalState i.journal = state ∧
          s.blk.HandleEnds t.blk i.seq st ∧ ((t.blk.slice 0).entries.getLast?.map fun e => e.count) = some cnt ∧
          s.blk.FieldsKept t.blk ([Reg.SEC_STATUS.INSTALLS, Reg.SL_CRING_STATUS.FULL 0] ++ Fld.journal i.journal)
        let stops (st : Status) : Prop := Yields (.installUnit nth) s fun t => ends t st Journal.ABORTED i.next ∧
          t = { s with blk := { s.blk with regs := t.blk.regs, slices := t.blk.slices, sec := t.blk.sec, ext := t.blk.ext } }
        let w := s.blk.secWho 0
        -- steps 1 to 4
        (i.units = none →
          (exec (.pkgInstallDone nth) s = .next s) ∧
          (∀ e d, s.blk.ptrRead w i.src 0xA200 = (s.blk, e, d) → e ≠ Code.SUCCESS → e < 65536 → stops e) ∧
          (∀ d, s.blk.ptrRead w i.src 0xA200 = (s.blk, Code.SUCCESS, d) →
            let n := leAt d 0x18 2
            let u := ceilDiv (leAt d 0x10 8) 4096
            let pub := sliceBytes d 0x20 96
            let part := match i.slot with
              | some k => s.blk.rd (Reg.SEC_SLOT_OWNER.PARTITION k)
              | none => s.blk.slicePart i.slice
            let formed := decide (leAt d 0 4 = 0x57504B47) && decide (leAt d 4 2 = 1) && decide (1 ≤ n) && decide (n ≤ 256) && decide (1 ≤ leAt d 0x10 8) && decide (leAt d 0x10 8 ≤ 2 ^ 40) &&
              ((List.range 0x90).all fun a => leAt d (0x170 + a) 1 = 0) && (List.range 256).all fun e =>
                (List.range (if e < n then 8 else 160)).all fun a => leAt d ((if e < n then 0x298 else 0x200) + 160 * e + a) 1 = 0
            let listed := s.blk.ownerHas pub Reg.SEC_OWNER30.PKG (some part)
            let signed := Config.ecdsaVerify pub (sliceBytes d 0 0x110 ++ sliceBytes d 0x200 0xA000) (sliceBytes d 0x110 96)
            let mine (e : Nat) : Bool := decide (leAt d (0x200 + 160 * e) 48 = (Config.bindingDigest s.fuse.uds).toNat)
            let good := formed && decide (u ≤ i.length) && listed && signed
            d.length = 0xA200 →
            (formed = false → stops Code.SEC_PKG_FORMAT) ∧
            (formed = true → i.length < u → stops Code.SEC_PKG_TARGET) ∧
            (formed = true → u ≤ i.length → listed = false → stops Code.SEC_OWNER_DENIED) ∧
            (formed = true → u ≤ i.length → listed = true → signed = false → stops Code.SEC_SIG_BAD) ∧
            (good = true → (∀ e < n, mine e = false) → stops Code.SEC_PKG_NOT_BOUND) ∧
            (∀ e : Fin 256, good = true → e < n → mine e = true → (∀ e' < e.val, mine e' = false) →
              let k := Config.unwrap s.fuse.uds 1 (sliceBytes d 0x80 96) (sliceBytes d 8 8 ++ natLE 48 (Config.bindingDigest s.fuse.uds).toNat) (sliceBytes d (0x230 + 160 * e) 104)
              (k = none → stops Code.SEC_UNWRAP_FAIL) ∧
              ∀ v, k = some v → Yields (.installUnit nth) s fun t =>
                t.blk.sec = { s.blk.sec with installs := [{ i with units := some u, key := v.toNat, digest := leAt d 0xE0 48 }] } ∧
                t.blk.rd (Reg.MH_JOURNAL00.PHASE i.journal) = 5 ∧ t.blk.journalState i.journal = s.blk.journalState i.journal ∧
                s.blk.FieldsKept t.blk (Reg.SEC_STATUS.INSTALLS :: Fld.journal i.journal) ∧
                t = { s with blk := { s.blk with regs := t.blk.regs, sec := t.blk.sec, ext := t.blk.ext } }))) ∧
        -- steps 5 and 6
        ∀ u, i.units = some u →
          (u ≤ i.next → idle (.installUnit nth)) ∧
          (i.next < u → exec (.pkgInstallDone nth) s = .next s) ∧
          (∀ d, s.blk.ptrRead w (i.src + 0xA200 + 4096 * i.next) 4096 = (s.blk, Code.SUCCESS, d) → i.next < u →
            let pt := natLE 4096 ((Config.xtsUnit (i.key % 2 ^ 512) i.next).symm (BitVec.ofNat 32768 (leNat d))).toNat
            ∀ b' st, s.blk.placeBlock (s.blk.secWho i.slice) (i.dst + 4096 * i.next) pt (Seal.make pt 0x081 0 0 false) = (b', st) → st = Code.SUCCESS → b'.ext.need = [] → b'.sec = s.blk.sec →
              Yields (.installUnit nth) s fun t =>
                t.blk.sec = { s.blk.sec with installs := [{ i with next := i.next + 1, plain := i.plain ++ pt }] } ∧ t.blk.rd (Reg.MH_JOURNAL00.PHASE i.journal) = 5 ∧
                t.blk.rd (Reg.MH_JOURNAL10.PROGRESS i.journal) = (i.next + 1) % 2 ^ (Reg.MH_JOURNAL10.PROGRESS i.journal).w ∧
                b'.FieldsKept t.blk (Reg.SEC_STATUS.INSTALLS :: Fld.journal i.journal) ∧ t = { s with blk := { b' with regs := t.blk.regs, sec := t.blk.sec, ext := t.blk.ext } }) ∧
          (u ≤ i.next → (Config.sha384 i.plain).toNat = i.digest → Yields (.pkgInstallDone nth) s fun t =>
            ends t Code.SUCCESS Journal.DONE i.next ∧ t = { s with blk := { s.blk with regs := t.blk.regs, slices := t.blk.slices, sec := t.blk.sec, ext := t.blk.ext } }) ∧
          (u ≤ i.next → (Config.sha384 i.plain).toNat ≠ i.digest → ∀ o, s.blk.range i.dst = .hbm o → ∀ r, s.blk.regionAt o = some r →
            let place (x : Nat) : Place := Hbm.place s.blk.hbmNd (x / 256 * 256)
            let line (k : Nat) : Place := place (Hbm.lineX false r.dataX (o - r.base + 256 * k))
            let sx (j : Nat) : Nat := r.sealSlotX ((o - r.base) / 4096 + j)
            r.prot = false → o % 4096 = 0 → r.base % 131072 = 0 → r.size % 131072 = 0 → o + 4096 * u ≤ r.base + r.size →
            s.blk.regionNums.all (fun m => decide ((s.blk.region m).base + (s.blk.region m).size ≤ r.base) || decide (r.base + r.size ≤ (s.blk.region m).base) || decide (s.blk.region m = r)) = true →
            Yields (.pkgInstallDone nth) s fun t =>
              ((∀ k < 16 * u, s.blk.writable (line k) = true ∧ ∀ j < u, s.blk.chPhys (line k) ≠ s.blk.chPhys (place (sx j))) →
                ∀ k < 16 * u, SMap.get (fun _ => 0#64) t.blk.hbm.tags (s.blk.chPhys (line k)) = 0) ∧
              (u = 1 → (∀ k < 16, s.blk.chPhys (line k) ≠ s.blk.chPhys (place (sx 0))) → s.blk.chState (place (sx 0)) ≠ 3 → s.blk.writable (place (sx 0)) = true →
                ∀ key, s.blk.regionKey r (some i.slice) = some key → ∀ g, (s.blk.granRead false r.keyMode (some key) (sx 0 / 256 * 256)).2 = .ok g → ∀ pt, g.plain key (sx 0 / 256 * 256) = some pt →
                  let g' := Hbm.sealed key (sx 0 / 256 * 256) (overlay pt (sx 0 % 256) (natLE 8 0))
                  SMap.getBytes t.blk.hbm.bytes (s.blk.chPhys (place (sx 0)) * 256) 256 = g'.ct ∧
                    SMap.get (fun _ => 0#64) t.blk.hbm.tags (s.blk.chPhys (place (sx 0))) = BitVec.ofNat 64 g'.tag) ∧
              t.blk.sec = { s.blk.sec with installs := [] } ∧ t.blk.journalState i.journal = Journal.ROLLED_BACK ∧ s.blk.HandleEnds t.blk i.seq Code.SEC_PKG_DIGEST ∧
              t.blk.shelf = s.blk.shelf ∧ t.blk.keys = s.blk.keys ∧ t.fuse = s.fuse ∧ t.pending = s.pending)

/-- LC_TRANSITION and LC_COMMIT_DONE (R364, R365): the outcomes of a command; the eighth mismatch locks; a token that matches programs STARTED with the
target, and the commit ends with the target's action, STATE and COMPLETE. END_OF_LIFE takes the keys away at once, and leaves no key, no slot and no
shelf data. DEBUG_GRANT, DEBUG_REVOKE and DEBUG_ACCESS (R17, R363, R367, Table SEC-5): in PRODUCTION a grant that names this serial, the nonce and
level 1 and is accepted gives level 1, and any other is refused; each draws a new nonce; level 0 allows the mandatory instructions alone, level 1
reads of instruments and of registers outside security, level 2 all. -/
def Obligations.LifeCycleAndDebug : Prop :=
  (
  ∀ (s : State) (target : Fin 4),
    let o := s.fuse
    let now := s.blk.rd Reg.LC_STATUS.NEXT
    let enc (t : Nat) : BitVec 32 := if t = 1 then 0xFF else if t = 2 then 0xFF00 else 0xFF0000
    let which : Option Nat := if now = 0 ∧ target = 1 then some 0 else if now = 1 ∧ target = 2 then some 1 else if now = 1 ∧ target = 3 then some 2 else if now = 2 ∧ target = 3 then some 3 else none
    let step : Option LcStep := if o.k0.started = 0 ∧ o.k1.started = 0 ∧ o.k2.started = 0 then some .first else if o.k1.started = 0 ∧ o.k2.started = 0 then some .second
      else if o.k2.started = 0 then some .third else none
    let locked := s.blk.is Reg.LC_STATUS.LOCKED
    let busy := s.blk.is Reg.LC_STATUS.COMMITTING
    let digests := now ≠ 0 ∨ ∀ x ∈ o.digests, x ≠ none
    let token := Config.sha384 ((List.range 8).flatMap fun i => natLE 4 (SMap.get (fun _ => 0) s.blk.sec.token i).toNat)
    let fs := [Reg.LC_CMD.TARGET, Reg.LC_RESULT.STATUS]
    let tells (t : State) (st : Status) : Prop := t.blk.rd Reg.LC_CMD.TARGET = target ∧ t.blk.rd Reg.LC_RESULT.STATUS = st ∧ t.blk.sec.token = [] ∧ t.fuse = s.fuse ∧
      t = { s with blk := { s.blk with regs := t.blk.regs, sec := { s.blk.sec with token := [] } } }
    let no (st : Status) : Prop := Yields (.lcTransition target) s fun t => tells t st ∧ s.blk.FieldsKept t.blk fs
    let rows (b : Block) (o : Otp) : Prop := (List.range 9).map (fun r => b.rd (Reg.LC_ROW.VALUE r)) =
      [o.k0.started, o.k0.state, o.k0.complete, o.k1.started, o.k1.state, o.k1.complete, o.k2.started, o.k2.state, o.k2.complete].map fun x => x.toNat
    let otp := (List.range 9).map Reg.LC_ROW.VALUE ++ [Reg.SEC_FW_STATUS.AX_MIN_SVN, Reg.SEC_FW_STATUS.DN_MIN_SVN]
    (locked = true → no Code.LC_LOCKED) ∧
    (locked = false → busy = true → no Code.LC_BUSY) ∧
    (locked = false → busy = false → which = none ∨ step = none ∨ ¬digests → no Code.LC_BAD_TRANSITION) ∧
    (∀ d, which = some d → locked = false → busy = false → step ≠ none → digests →
      o.digests.getD d none ≠ some token → Yields (.lcTransition target) s fun t =>
        tells t Code.LC_TOKEN_BAD ∧ t.blk.rd Reg.LC_STATUS.FAILS = min (s.blk.rd Reg.LC_STATUS.FAILS + 1) 15 ∧
        t.blk.rd Reg.LC_STATUS.LOCKED = b01 (decide (8 ≤ s.blk.rd Reg.LC_STATUS.FAILS + 1)) ∧
        s.blk.FieldsKept t.blk (fs ++ [Reg.LC_STATUS.FAILS, Reg.LC_STATUS.LOCKED])) ∧
    (∀ d, which = some d → ∀ k, step = some k → locked = false → busy = false → digests → o.digests.getD d none = some token →
      s.blk.sec.installs = [] ∨ target ≠ 3 → Yields (.lcTransition target) s fun t =>
        t.fuse = o.setRows k { o.rows k with started := (o.rows k).started ||| enc target } ∧ rows t.blk t.fuse ∧
        t.blk.rd Reg.LC_CMD.TARGET = target ∧ t.blk.rd Reg.LC_RESULT.STATUS = Code.SUCCESS ∧ t.blk.rd Reg.LC_STATUS.COMMITTING = 1 ∧ t.blk.rd Reg.LC_STATUS.NEXT = target ∧
        t.blk.lc = s.blk.lc ∧ (target = 3 → t.blk.keysLive = false) ∧ t.blk.sec = { s.blk.sec with token := [], commit := some (k, target) } ∧
        s.blk.FieldsKept t.blk (fs ++ [Reg.LC_STATUS.COMMITTING, Reg.LC_STATUS.NEXT] ++ otp) ∧
        t = { s with blk := { s.blk with regs := t.blk.regs, sec := t.blk.sec }, fuse := t.fuse }) ∧
    (s.blk.sec.commit = none → exec .lcCommitDone s = .next s) ∧
    (∀ k tg, s.blk.sec.commit = some (k, tg) → Yields .lcCommitDone s fun t =>
      let r := o.rows k
      (tg ≠ 0 → t.fuse.rows k = { r with state := r.state ||| enc tg, complete := BitVec.allOnes 32 }) ∧ (∀ j, j ≠ k → t.fuse.rows j = o.rows j) ∧
      t.fuse.digests = o.digests ∧ t.fuse.axMin = o.axMin ∧ t.fuse.dnMin = o.dnMin ∧ rows t.blk t.fuse ∧
      (tg = 2 → t.fuse.uds = o.uds ∧ t.fuse.udsValid = o.udsValid) ∧
      (tg = 1 → o.udsValid = BitVec.allOnes 32 → t.fuse.uds = o.uds ∧ t.fuse.udsValid = o.udsValid) ∧
      (tg = 1 → o.udsValid ≠ BitVec.allOnes 32 → o.uds &&& t.fuse.uds = o.uds ∧ t.fuse.udsValid = BitVec.allOnes 32) ∧
      (tg = 3 → t.fuse.uds = BitVec.allOnes 384 ∧ t.blk.keys = Keys.reset ∧ (∀ m : Fin 4096, t.blk.slotState m = Slot.EMPTY) ∧
        (∀ a, t.blk.shelfByte a = 0) ∧ t.blk.shelf.poison = [] ∧ t.blk.shelf.seals = []) ∧
      (tg ≠ 3 → t.blk.keys = s.blk.keys ∧ t.blk.shelf = s.blk.shelf ∧ s.blk.FieldsKept t.blk (Reg.LC_STATUS.COMMITTING :: otp)) ∧
      t.blk.rd Reg.LC_STATUS.COMMITTING = 0 ∧ t.blk.lc = s.blk.lc ∧ t.blk.sec = { s.blk.sec with commit := none } ∧
      t = { s with blk := { s.blk with regs := t.blk.regs, sec := t.blk.sec, keys := t.blk.keys, shelf := t.blk.shelf, free := s.blk.free + 6 }, fuse := t.fuse })) ∧
  (
  ∀ s : State,
    (∀ d : List Byte,
      let nonce (b : Block) (i : Nat) := b.rd (Reg.SEC_DEBUG_NONCE.WORD i)
      let names := leAt d 96 8 = s.blk.rd Reg.MH_SERIAL.SERIAL ∧ leAt d 104 32 = nonce s.blk 0 + nonce s.blk 1 * 2 ^ 64 + nonce s.blk 2 * 2 ^ 128 + nonce s.blk 3 * 2 ^ 192 ∧
        leAt d 136 1 = 1 ∧ (sliceBytes d 233 23).all (fun x => x = 0) = true
      let signed := s.blk.ownerHas (sliceBytes d 0 96) Reg.SEC_OWNER30.DEBUG none = true ∧ Config.ecdsaVerify (sliceBytes d 0 96) (sliceBytes d 0 137) (sliceBytes d 137 96) = true
      let fields := (List.range 4).map Reg.SEC_DEBUG_NONCE.WORD ++ [Reg.SEC_DEBUG.LEVEL, Reg.SEC_DEBUG.LAST_STATUS]
      let ends (level st : Nat) : Prop := Yields (.debugGrant d) s fun t =>
        t.blk.rd Reg.SEC_DEBUG.LEVEL = level ∧ t.blk.rd Reg.SEC_DEBUG.LAST_STATUS = st ∧ (∀ i < 4, nonce t.blk i = (Config.freeValue (s.blk.free + i)).toNat) ∧ s.blk.FieldsKept t.blk fields ∧
        t = { s with blk := { s.blk with regs := t.blk.regs, sec := { s.blk.sec with grant := [] }, free := s.blk.free + 4 } }
      (s.blk.lc ≠ Lc.PRODUCTION → Yields (.debugGrant d) s fun t => t = { s with blk := { s.blk with sec := { s.blk.sec with grant := [] } } }) ∧
      (s.blk.lc = Lc.PRODUCTION → (names ∧ signed → ends 1 Code.SUCCESS) ∧ (¬(names ∧ signed) → ends (s.blk.rd Reg.SEC_DEBUG.LEVEL) Code.SEC_DEBUG_DENIED))) ∧
    (s.blk.lc ≠ Lc.PRODUCTION → exec .debugRevoke s = .next s) ∧
    (s.blk.lc = Lc.PRODUCTION → Yields .debugRevoke s fun t => t.blk.rd Reg.SEC_DEBUG.LEVEL = 0 ∧ OnlyFields s t [Reg.SEC_DEBUG.LEVEL]) ∧
    (s.blk.ext.need = [] →
      let level := s.blk.rd Reg.SEC_DEBUG.LEVEL
      let answers (t : State) (ok : Bool) (d : List Byte) : Prop := t.blk.out = s.blk.out ++ [.debug ok d]
      let only (t : State) : Prop := t = { s with blk := { s.blk with out := t.blk.out, ext := t.blk.ext } }
      let refused (op : DebugOp) : Prop := Yields (.debugAccess op) s fun t => answers t false [] ∧ only t
      (Yields (.debugAccess .mandatory) s fun t => answers t true [] ∧ only t) ∧
      (∀ n : BitVec 16, (level = 0 → refused (.instrument n)) ∧ (1 ≤ level → Yields (.debugAccess (.instrument n)) s fun t =>
        answers t true ((List.range 8).map fun i => Config.freeByte (s.blk.free + i)) ∧ t = { s with blk := { s.blk with out := t.blk.out, ext := t.blk.ext, free := s.blk.free + 8 } })) ∧
      (∀ (off : BitVec 28) (wide : Bool),
        let inSec := 0xA000000 ≤ off.toNat ∧ off.toNat < 0xB000000
        (level = 0 ∨ (level = 1 ∧ inSec) → refused (.regRead off wide)) ∧
        (2 ≤ level ∨ (level = 1 ∧ ¬inSec) → s.blk.frameHeld off.toNat = true → exec (.debugAccess (.regRead off wide)) s = .next s) ∧
        (2 ≤ level ∨ (level = 1 ∧ ¬inSec) → s.blk.frameHeld off.toNat = false → Yields (.debugAccess (.regRead off wide)) s fun t =>
          answers t true (natLE (if wide then 8 else 4) (s.blk.regGet off.toNat (if wide then 8 else 4) false).2) ∧ only t)) ∧
      (∀ (off : BitVec 28) (wide : Bool) (v : Word), (level < 2 → refused (.regWrite off wide v)) ∧
        (2 ≤ level → s.blk.frameHeld off.toNat = true → exec (.debugAccess (.regWrite off wide v)) s = .next s) ∧
        ∀ t', exec (.registerWrite off wide v true) s = .next t' → 2 ≤ level → s.blk.frameHeld off.toNat = false → exec (.debugAccess (.regWrite off wide v)) s = .next (t'.upd fun b => b.emit (.debug true []))) ∧
      (∀ (a : BitVec 48) (n : Fin 256) (sl : Option SliceNo), (level < 2 → refused (.memRead a n sl)) ∧
        ∀ b' st d, s.blk.debugMem ⟨.boot, sl.map fun x => x.val, 1, 104⟩ a.toNat (n + 1) (fun _ _ => .read) = (b', st, d) → b'.ext.need = [] → 2 ≤ level → Yields (.debugAccess (.memRead a n sl)) s fun t =>
          t.blk.out = b'.out ++ [.debug (decide (st = Code.SUCCESS)) d] ∧ t = { s with blk := { b' with out := t.blk.out, ext := t.blk.ext } }) ∧
      (∀ (a : BitVec 48) (d : List Byte) (sl : Option SliceNo), (level < 2 → refused (.memWrite a d sl)) ∧
        ∀ b' st e, s.blk.debugMem ⟨.boot, sl.map fun x => x.val, 1, 104⟩ a.toNat d.length (fun o n => .write (sliceBytes d o n)) = (b', st, e) → b'.ext.need = [] → 2 ≤ level →
          Yields (.debugAccess (.memWrite a d sl)) s fun t => t.blk.out = b'.out ++ [.debug (decide (st = Code.SUCCESS)) []] ∧ t = { s with blk := { b' with out := t.blk.out, ext := t.blk.ext } }) ∧
      ∀ (pos : PosNo) (on : Bool), (level < 2 → refused (.halt pos on)) ∧ (2 ≤ level → Yields (.debugAccess (.halt pos on)) s fun t =>
        answers t true [] ∧ (∀ q : PosNo, NSet.has t.blk.boot.halted q = if q = pos then on else NSet.has s.blk.boot.halted q) ∧
        t = { s with blk := { s.blk with out := t.blk.out, ext := t.blk.ext, boot := { s.blk.boot with halted := t.blk.boot.halted } } })))

/-! ### Bring-up and resets (18) -/

/-- POWER_GOOD, COLD_RESET, WARM_RESET, WARM_RESET_DRAINED, PWRGOOD_FALL, PREAMBLE_DONE, PERST_ASSERT and PERST_RELEASE (R365, R366, R368, R369, R385,
R386, Tables BUP-5 and SIT-7): a cold reset leaves everything at its reset value but fuses, OTP and SPI NOR; a warm one starts by telling the
neighbours and draining the queues, and keeps the always-on domain, HBM and what Table BUP-5 lists; each runs the preamble, which decodes the life-
cycle state from OTP, and counts one more boot; the main sequence starts once the preamble has ended and PERST_L is released. -/
def Obligations.DeviceResets : Prop :=
  ∀ s : State,
    let b := s.blk
    let count := min (b.boot.nor.bootCount + 1) (2 ^ 32 - 1)
    let nor : Nor := { b.boot.nor with bootCount := count }
    let lc := (s.fuse.decode 0).state
    let shown : List Fld := [Reg.MH_STATUS.RESET_CAUSE, Reg.MH_STATUS.PENDING_UPDATE, Reg.MH_BOOT_STATUS.BOOT_COUNT, Reg.MH_BOOT_STATUS.IMAGE_STATUS, Reg.MH_BOOT_STATUS.IMAGE_SLOT, Reg.MH_IMAGE.IMAGE_ID,
      Reg.MH_IMAGE.IMAGE_VER, Reg.MH_IMAGE.LAYOUT, Reg.DN_STATUS.BANK, Reg.SEC_FW_STATUS.STAGED, Reg.SEC_FW_STATUS.AX_FALLBACK, Reg.SEC_FW_STATUS.AX_SVN, Reg.SEC_FW_STATUS.DN_SVN, Reg.SEC_FW_STATUS.AX_MIN_SVN,
      Reg.SEC_FW_STATUS.DN_MIN_SVN, Reg.SEC_STATUS.READY, Reg.LC_STATUS.STATE, Reg.LC_STATUS.NEXT, Reg.LC_STATUS.ROLLED_FORWARD, Reg.LC_STATUS.CORRUPT, Reg.LC_STATUS.COMMITTING, Reg.SEC_DEBUG.LEVEL] ++
      Fld.fcStatus ++ Fld.defects ++ (List.range 4).map Reg.SEC_DEBUG_NONCE.WORD ++ (List.range 9).map Reg.LC_ROW.VALUE ++
      (List.range 12).flatMap (fun n => [Reg.PW_SITE_STATUS.HM_CAUSE n, Reg.PW_SITE_STATUS.HALFMAST n]) ++ b.boot.fuses.regs.map fun e => ⟨e.1, 0, 64⟩
    -- the preamble's work
    let ran (t : State) : Prop :=
      t.blk.rd Reg.LC_STATUS.STATE = lc ∧ t.blk.rd Reg.LC_STATUS.NEXT = lc ∧ t.blk.rd Reg.LC_STATUS.COMMITTING = 0 ∧ t.blk.rd Reg.SEC_STATUS.READY = 1 ∧
      t.blk.rd Reg.SEC_DEBUG.LEVEL = (if lc.val < 2 then 2 else 0) ∧ (∀ n : Fin 12, t.blk.rd (Reg.PW_SITE_STATUS.HALFMAST n) = 1 ∧ bit (t.blk.rd (Reg.PW_SITE_STATUS.HM_CAUSE n)) 3 = true) ∧
      (b.boot.nor.header 0 0 4 ≠ 0x42465A57 → b.boot.nor.header 1 0 4 ≠ 0x42465A57 → t.blk.boot.slot = none ∧ t.blk.rd Reg.MH_BOOT_STATUS.IMAGE_STATUS = Code.BUP_IMAGE_ABSENT) ∧
      (∀ e, b.boot.nor.defects = [e] → e.1 < 512 → t.blk.word (0x2000 + 8 * e.1) = e.2.toNat) ∧ s.fuse.Within t.fuse ∧ (s.fuse.lastStep = none → b.sec.axStaged = none → t.fuse = s.fuse)
    let cold (i : Instr) : Prop := Yields i s fun t => ran t ∧ t.blk.rd Reg.MH_STATUS.RESET_CAUSE = 1 ∧ t.blk.rd Reg.MH_BOOT_STATUS.BOOT_COUNT = count ∧ Block.reset.FieldsKept t.blk shown ∧
      (b.sec.axStaged = none → t.blk.sec = { SecState.reset with axRun := b.sec.axRun, dnRun := b.sec.dnRun, dnOld := b.sec.dnOld, dnStaged := b.sec.dnStaged }) ∧
      t = { s with fuse := t.fuse, blk := { Block.reset with
        regs := t.blk.regs, free := t.blk.free, out := b.out, sec := t.blk.sec, pw := { PwState.reset with thermTrip := b.pw.thermTrip },
        boot := { BootState.reset with nor := nor, fuses := b.boot.fuses, perst := b.boot.perst, cause := 1, preambleRan := true, slot := t.blk.boot.slot } } }
    cold (.powerGood) ∧
    (b.boot.power = true → cold (.coldReset)) ∧
    (b.boot.power = false → exec .coldReset s = .next s) ∧
    (b.boot.power = true → b.boot.draining = false → Yields .warmReset s fun t => s.WarmBegins t 2 false) ∧
    (b.boot.power = false ∨ b.boot.draining = true → exec .warmReset s = .next s) ∧
    (b.boot.draining = false → exec .warmResetDrained s = .next s) ∧
    (b.boot.draining = true → Yields .warmResetDrained s fun t =>
      ran t ∧ t.blk.rd Reg.MH_STATUS.RESET_CAUSE = b.boot.cause % 8 ∧ t.blk.rd Reg.MH_BOOT_STATUS.BOOT_COUNT = count ∧ t.blk.rd Reg.MH_BOOT_STATUS.UNDRAINED = 0 ∧ t.blk.rd Reg.SEC_STATUS.SPDM_SESSION = 0 ∧
      t.blk.rd Reg.MH_BOOT_SEAL.SEAL = 0 ∧ t.blk.rd Reg.MH_STATUS.READY = 0 ∧
      t.blk.boot = { BootState.reset with nor := nor, fuses := b.boot.fuses, perst := b.boot.perst, cause := b.boot.cause, resetKind := .warm, lastLayout := b.boot.lastLayout, resetAt := b.now, preambleRan := true, slot := t.blk.boot.slot } ∧
      t.blk.fc = { FaultState.reset with opened := (b.fc.opened.filter fun r => r.index.isSome && r.needsAck && !r.acked).map (fun r => { r with done := true, waits := [] }), nextRecord := b.fc.nextRecord, wave := t.blk.fc.wave, waveStopped := t.blk.fc.waveStopped } ∧ t.blk.FaultsShown ∧
      (b.sec.axStaged = none → t.blk.sec = { b.sec with installs := b.sec.installs.filter Install.begun, stage := none, token := [], grant := [], sessions := 0, commit := none }) ∧
      (lc.val ≠ 3 → t.blk.keys.slot = b.keys.slot ∧ ∀ n : SliceNo, SMap.get (fun _ => none) t.blk.keys.slice n = if n.val = 0 then SMap.get (fun _ => none) b.keys.slice 0 else none) ∧
      (b.hbm.stripes = [] → (∀ n ∈ b.liveSlices, n = 0) → t.blk.hbm = { HbmState.reset with
        bytes := b.hbm.bytes, tags := b.hbm.tags, err := b.hbm.err, rewritten := b.hbm.rewritten, lost := b.hbm.lost, struckCh := b.hbm.struckCh, selfRefresh := true
        rebuilds := b.hbm.rebuilds.map fun r => { r with running := false, resumed := true } }) ∧
      (∀ e ∈ t.blk.sites, ∃ v ∈ b.sites, e = (v.1, { SiteState.reset with link := { LinkState.reset with pinned := v.2.link.pinned } })) ∧
      (∀ v ∈ b.sites, v.2.link.pinned = LinkState.reset.pinned ∨ (v.1, { SiteState.reset with link := { LinkState.reset with pinned := v.2.link.pinned } }) ∈ t.blk.sites) ∧
      (∀ e ∈ t.blk.reach.ports, ∃ v ∈ b.reach.ports, e = (v.1, { ReachPort.reset with retired := v.2.retired })) ∧
      -- registers
      (∀ n : Fin 0x190, t.blk.rd (Reg.FC_BUCKET.STRUCK (0x270 + n)) = b.rd (Reg.FC_BUCKET.STRUCK (0x270 + n))) ∧ (∀ n : Fin 0x270, t.blk.rd (Reg.FC_BUCKET.STRUCK n) = 0) ∧
      (∀ j : Fin 64, (Fld.journal j).all (fun f => t.blk.rd f == b.rd f) = true) ∧ (∀ i : Fin 4096, (Fld.fcLog i).all (fun f => t.blk.rd f == b.rd f) = true) ∧
      t.blk.rd Reg.FC_LOG_TAIL.INDEX = b.rd Reg.FC_LOG_TAIL.INDEX ∧ t.blk.rd Reg.FC_STATUS.SINGLE = b.rd Reg.FC_STATUS.SINGLE ∧
      (∀ n : SliceNo, b.rd (Reg.SL_STATUS.GENERATION n) ≠ 0 → t.blk.rd (Reg.SL_STATUS.GENERATION n) = b.rd (Reg.SL_STATUS.GENERATION n)) ∧
      (∀ n : StackNo, t.blk.rd (Reg.HM_SPARE.FREE n) = b.rd (Reg.HM_SPARE.FREE n) ∧ ∀ k : Fin 32, t.blk.rd (Reg.HM_CHMAP.PCH n k) = b.rd (Reg.HM_CHMAP.PCH n k) ∧ t.blk.rd (Reg.HM_CHMAP.STATE n k) = b.rd (Reg.HM_CHMAP.STATE n k)) ∧
      (∀ n : SiteNo, t.blk.rd (Reg.ST_LANE_STATE.RETIRED n) = b.rd (Reg.ST_LANE_STATE.RETIRED n)) ∧ (∀ k : PosNo, t.blk.rd (Reg.MH_CORE_MAP.VALID k) = 0) ∧
      (lc.val ≠ 3 → ∀ n : Fin 4096, t.blk.slotState n = b.slotState n) ∧
      t = { s with fuse := t.fuse, blk := { Block.reset with
        regs := t.blk.regs, now := b.now, free := t.blk.free, out := b.out, hbm := t.blk.hbm, fc := t.blk.fc, coh := { CohState.reset with fenced := b.coh.fenced }, keys := t.blk.keys, sites := t.blk.sites,
        reach := { ReachState.reset with ports := t.blk.reach.ports }, ten := ⟨[], b.ten.reform, []⟩, dn := { DnState.reset with switched := b.dn.switched }, sec := t.blk.sec, boot := t.blk.boot,
        pw := { PwState.reset with thermTrip := b.pw.thermTrip } } }) ∧
    -- power and PERST_L
    (∀ p : OtpProgress, Yields (.pwrgoodFall p) s fun t =>
      t.blk.boot = { BootState.reset with nor := nor, fuses := b.boot.fuses, perst := b.boot.perst, cause := 1, power := false, preamble := false } ∧ t.blk.pw = PwState.reset ∧ t.blk.rd Reg.MH_STATUS.RESET_CAUSE = 1 ∧
      t.blk.shelf = ShelfState.reset ∧ t.blk.hbm = HbmState.reset ∧ t.blk.keys = Keys.reset ∧ t.blk.queues = [] ∧ t.blk.slices = [] ∧ t.blk.now = 0 ∧ t.blk.out = b.out ∧ t.pending = s.pending ∧
      s.fuse.Within t.fuse ∧ (b.sec.commit = none ∨ p = ⟨0, 0, 0, 0⟩ → t.fuse = s.fuse) ∧
      (∀ k, b.sec.commit = some (k, 2) → p = ⟨BitVec.allOnes 384, BitVec.allOnes 32, BitVec.allOnes 32, BitVec.allOnes 32⟩ →
        (t.fuse.rows k).complete = BitVec.allOnes 32 ∧ (t.fuse.rows k).state = (s.fuse.rows k).state ||| 0xFF00)) ∧
    (b.boot.power = false ∨ b.boot.preamble = false → exec .preambleDone s = .next s) ∧
    (b.boot.power = true → b.boot.preamble = true →
      let free := b.boot.perst = false ∨ (b.boot.resetKind = .warm ∧ b.boot.cause ≠ 4)
      Yields .preambleDone s fun t =>
        t.blk.boot = { b.boot with preamble := false, preambleRan := true, slot := t.blk.boot.slot, mainAt := if free then some b.now else b.boot.mainAt } ∧ (free → t.blk.rd Reg.MH_BOOT_STATUS.PHASE = 1) ∧
        (b.boot.preambleRan = true → OnlyFields { s with blk := { b with boot := t.blk.boot } } t [Reg.MH_BOOT_STATUS.PHASE]) ∧
        (b.boot.preambleRan = false → ran t ∧ b.FieldsKept t.blk (Reg.MH_BOOT_STATUS.PHASE :: (List.range 4096).map Reg.SEC_SLOT_OWNER.STATE ++ shown) ∧
          t = { s with fuse := t.fuse, blk := { b with regs := t.blk.regs, free := t.blk.free, boot := t.blk.boot, sec := t.blk.sec, keys := t.blk.keys, shelf := t.blk.shelf } })) ∧
    (b.boot.mainAt = none → Yields .perstAssert s fun t => t = { s with blk := { b with boot := { b.boot with perst := true } } }) ∧
    (b.boot.mainAt ≠ none → b.boot.power = false ∨ b.boot.draining = true → exec .perstAssert s = .next s) ∧
    (b.boot.mainAt ≠ none → b.boot.power = true → b.boot.draining = false → Yields .perstAssert s fun t => s.WarmBegins t 4 true) ∧
    Yields .perstRelease s fun t =>
      let main := b.boot.power = true ∧ b.boot.preamble = false ∧ b.boot.mainAt = none
      t.blk.boot = { b.boot with perst := false, mainAt := if main then some b.now else b.boot.mainAt } ∧ (main → t.blk.rd Reg.MH_BOOT_STATUS.PHASE = 1) ∧
      OnlyFields { s with blk := { b with boot := t.blk.boot } } t (if main then [Reg.MH_BOOT_STATUS.PHASE] else [])

/-- ROOT_PLL_LOCK, CORE_WAVE, CORE_BIST_DONE, ENROL_WAVE, SHELF_BIST_DONE, STACK_TRAINING_DONE, RECONCILIATION, CORE_RESET, CORE_RESET_DONE and
DEFECT_CLEAR (R36, R370–R373, R380–R384, R387, R389): each takes effect in its place of the main sequence and not twice; a unit that fails its boot
test is fenced and enters the Field-defect log; reconciliation writes the boot seal, opens slice 0 and sets READY; a position whose core resets is
idle. -/
def Obligations.BringUp : Prop :=
  ∀ s : State,
    let b := s.blk
    let entered (t : State) (src : Nat) : Prop := t.blk.rd (Reg.FC_BUCKET.STRUCK src) = 1 ∧ (t.blk.rd Reg.MH_DEFECT_CTRL.OVERFLOW = 0 → t.blk.DefectEntered src 1)
    (b.boot.mainAt = none ∨ b.boot.pllLocked = true → exec .rootPllLock s = .next s) ∧
    (b.boot.mainAt ≠ none → b.boot.pllLocked = false → Yields .rootPllLock s fun t =>
      t.blk.boot.pllLocked = true ∧ t.blk.rd Reg.CK_STATUS.ROOT_LOCK = 1 ∧ t.blk.rd Reg.CK_STATUS.PCIE_LOCK = 1 ∧
      (∀ n : SiteNo, (t.blk.rd (Reg.ST_CFG.EN n) = 1 → t.blk.linkState n = Link.TRAINING ∧ (t.blk.site n).link.srstLow = false ∧
          (t.blk.out.drop b.out.length).any (fun o => match o with
            | .sideband k w => decide (k = n.val ∧ leAt w 0 1 = 0x01)
            | _ => false) = true) ∧
        (t.blk.rd (Reg.ST_CFG.EN n) = 0 → t.blk.linkState n = b.linkState n ∧ t.blk.site n = b.site n)) ∧
      (∀ p : PortNo, (∀ l < 8, b.defectPermanent (Src.reachLane p l) = false) → (b.rport p).retired ≠ 3 → b.rd (Reg.RCH_STATUS.STATE p) = Rch.DOWN → b.slotPowered p = true →
        (t.blk.rd (Reg.RCH_CFG.EN p) = 1 → t.blk.rd (Reg.RCH_STATUS.STATE p) = Rch.TRAINING)) ∧
      t.blk.shelf = b.shelf ∧ t.blk.hbm.bytes = b.hbm.bytes ∧ t.blk.keys = b.keys ∧ t.fuse = s.fuse ∧ t.pending = s.pending) ∧
    -- cores
    (∀ w : Fin 4,
      (b.boot.pllLocked = false ∨ b.boot.coreWaves ≠ w → exec (.coreWave w) s = .next s) ∧
      (b.boot.pllLocked = true → b.boot.coreWaves = w → Yields (.coreWave w) s fun t =>
        let tests (b : Block) (c : Nat) : Bool := NSet.has b.boot.coresTesting c
        let state (b : Block) (c : Nat) : Nat := b.rd (Reg.MH_CORE_STATE.STATE c)
        t.blk.boot.coreWaves = w + 1 ∧ b.FieldsKept t.blk (Fld.defects ++ (List.range 36).flatMap fun c => [Reg.MH_CORE_STATE.STATE c, Reg.FC_BUCKET.STRUCK c]) ∧
        (∀ c : Fin 36,
          (c.val % 4 ≠ w.val ∨ NSet.has b.boot.fuses.bad c = true → tests t.blk c = tests b c ∧ state t.blk c = state b c) ∧
          (c.val % 4 = w.val → NSet.has b.boot.fuses.bad c = false → b.defectPermanent c = false → tests t.blk c = true ∧ state t.blk c = state b c) ∧
          (c.val % 4 = w.val → NSet.has b.boot.fuses.bad c = false → b.defectPermanent c = true → tests t.blk c = tests b c ∧ state t.blk c = 1 ∧ entered t c)) ∧
        t = { s with blk := { b with regs := t.blk.regs, boot := { b.boot with coreWaves := t.blk.boot.coreWaves, coresTesting := t.blk.boot.coresTesting, nor := t.blk.boot.nor } } })) ∧
    (∀ (c : Fin 36) (passed : Bool),
      (NSet.has b.boot.coresTesting c = false → exec (.coreBistDone c passed) s = .next s) ∧
      (NSet.has b.boot.coresTesting c = true → Yields (.coreBistDone c passed) s fun t =>
        t.blk.boot.coresTesting = NSet.erase b.boot.coresTesting c ∧ (passed = true → t.blk.rd (Reg.MH_CORE_STATE.STATE c) = 3 ∧ t.blk.boot.nor = b.boot.nor ∧ b.FieldsKept t.blk [Reg.MH_CORE_STATE.STATE c]) ∧
        (passed = false → t.blk.rd (Reg.MH_CORE_STATE.STATE c) = 1 ∧ entered t c ∧ b.FieldsKept t.blk (Fld.defects ++ [Reg.MH_CORE_STATE.STATE c, Reg.FC_BUCKET.STRUCK c])) ∧
        t = { s with blk := { b with regs := t.blk.regs, boot := { b.boot with coresTesting := t.blk.boot.coresTesting, nor := t.blk.boot.nor } } })) ∧
    -- enrolment
    (∀ w : Fin 4,
      (b.boot.pllLocked = false ∨ b.boot.enrolWaves ≠ w → exec (.enrolWave w) s = .next s) ∧
      (b.boot.pllLocked = true → b.boot.enrolWaves = w → Yields (.enrolWave w) s fun t =>
        t.blk.boot = { b.boot with enrolWaves := w + 1 } ∧ t.blk.shelf = b.shelf ∧ t.blk.hbm = b.hbm ∧
        ∀ n : SiteNo,
          (n.val % 4 ≠ w.val ∨ b.enrolled n = true ∨ b.linkState n ≠ Link.TRAINED → t.blk.site n = b.site n) ∧
          (n.val % 4 = w.val → b.enrolled n = false → n.val < 12 → t.blk.rd (Reg.PW_SITE_STATUS.HALFMAST n) = 1 ∧ bit (t.blk.rd (Reg.PW_SITE_STATUS.HM_CAUSE n)) 3 = true) ∧
          (n.val % 4 = w.val → b.enrolled n = false → b.linkState n = Link.TRAINED → bit (b.rd Reg.CO_STATUS.RECLAIM_PENDING) n = false →
            (t.blk.site n).enrol = .asked 1 b.now ∧ t.blk.rd (Reg.ST_SWP_ENROL.ATTEMPTS n) = satAdd (Reg.ST_SWP_ENROL.ATTEMPTS n).w (b.rd (Reg.ST_SWP_ENROL.ATTEMPTS n)) 1 ∧
            (b.packetsTo t.blk n ++ (t.blk.site n).txq).any (fun q => decide (q.op = 0x28)) = true))) ∧
    -- the shelf
    (∀ failed : List (Fin 544),
      (b.boot.pllLocked = false ∨ b.boot.shelfDone = true → exec (.shelfBistDone failed) s = .next s) ∧
      (b.boot.pllLocked = true → b.boot.shelfDone = false → Yields (.shelfBistDone failed) s fun t =>
        let bad (p : Nat) : Bool := NSet.has b.boot.fuses.bad (Src.bank p)
        let lost (p : Nat) : Prop := bad p = true ∨ (∃ x ∈ failed, x.val = p) ∨ b.defectPermanent (Src.bank p) = true
        t.blk.boot.shelfDone = true ∧ (∀ a, t.blk.shelfByte a = 0) ∧ t.blk.shelf.poison = [] ∧ t.blk.shelf.upset = [] ∧ t.blk.shelf.seals = [] ∧
        (∀ p : Fin 544, lost p → NSet.has t.blk.shelf.struckBanks p = true) ∧ (∀ p ∈ failed, bad p = false → t.blk.rd (Reg.FC_BUCKET.STRUCK (Src.bank p)) = 1) ∧
        ((∀ p : Fin 544, ¬lost p) → t.blk.shelf.struckBanks = [] ∧ ∀ lb : Fin 512, t.blk.rd (Reg.SH_BANK_MAP.PBANK lb) = b.rd (Reg.SH_BANK_MAP.PBANK lb)) ∧
        (∀ q : Fin 544, (∀ p : Fin 544, lost p ↔ p = q) → (∀ lb : Fin 512, b.rd (Reg.SH_BANK_MAP.PBANK lb) = 17 * (lb.val / 16) + lb.val % 16) → b.rd Reg.SH_GROUP_STATE.STRUCK = 0 → b.shelf.copies = [] →
          ∀ lb : Fin 512, t.blk.rd (Reg.SH_BANK_MAP.PBANK lb) = (if 17 * (lb.val / 16) + lb.val % 16 = q.val then 17 * (lb.val / 16) + 16 else 17 * (lb.val / 16) + lb.val % 16) ∧
            (17 * (lb.val / 16) + lb.val % 16 = q.val → t.blk.rd (Reg.SH_BANK_MAP.REMAPPED lb) = 1 ∧ t.blk.rd (Reg.SH_BANK_MAP.FAR lb) = 0)))) ∧
    -- stacks
    (∀ (n : StackNo) (r : StackResult),
      let due := b.boot.mainAt ≠ none ∧ b.boot.pllLocked = true ∧ NSet.has b.boot.stacksDone n = false
      let ok := r.trained = true ∧ r.height ≠ 0 ∧ b.rd Reg.HM_FE_CFG.HEIGHT ≤ r.height ∧ b.defectPermanent (Src.stack n) = false
      let lock : Fld := ⟨Reg.CK_STATUS.HBM_LOCK.off, 2 + n, 1⟩
      let least := NSet.insert n.val b.boot.stacksDone
      (¬due → exec (.stackTrainingDone n r) s = .next s) ∧
      (due → ¬ok → Yields (.stackTrainingDone n r) s fun t =>
        t.blk.boot.stacksDone = least ∧ t.blk.rd (Reg.HM_STACK_INFO.TRAINED n) = 0 ∧ t.blk.rd lock = 0 ∧ NSet.has t.blk.boot.stacksFailed n = true ∧ t.blk.rd (Reg.HM_SPARE.FREE n) = 0 ∧
        t.blk.fc.inQ.any (fun q => decide (q.source = Src.stack n) && decide (q.kind = Kind.HBM_STACK_FAIL)) = true ∧
        (b.boot.resetKind = .cold → least.length < 8 → ∀ k : Fin 32, k < b.hbmNd → t.blk.rd (Reg.HM_CHMAP.STATE n k) = 3) ∧ t.blk.hbm.bytes = b.hbm.bytes) ∧
      (due → ok → r.failed = 0 → b.boot.resetKind = .cold → (∀ c < 32, NSet.has b.boot.fuses.bad (Src.channel n c) = false ∧ b.defectPermanent (Src.channel n c) = false) → Yields (.stackTrainingDone n r) s fun t =>
        t.blk.boot.stacksDone = least ∧ t.blk.rd (Reg.HM_STACK_INFO.PRESENT n) = 1 ∧ t.blk.rd (Reg.HM_STACK_INFO.TRAINED n) = 1 ∧ t.blk.rd (Reg.HM_STACK_INFO.HEIGHT n) = r.height ∧
        t.blk.rd (Reg.HM_STACK_INFO.STACK_VENDOR n) = r.vendor.toNat ∧ t.blk.rd lock = 1 ∧
        (∀ k : Fin 32, k < b.hbmNd → t.blk.rd (Reg.HM_CHMAP.PCH n k) = k ∧ t.blk.rd (Reg.HM_CHMAP.PSTACK n k) = n ∧ t.blk.rd (Reg.HM_CHMAP.STATE n k) = 1) ∧
        (least.length < 8 → t.blk.rd (Reg.HM_SPARE.FREE n) = ((List.range 32).map fun c => if b.hbmNd ≤ c then 2 ^ c else 0).sum ∧ t.blk.hbm = b.hbm ∧ t.blk.fc = b.fc))) ∧
    -- reconciliation
    (∀ x : BootTests,
      let due := b.boot.mainAt ≠ none ∧ b.boot.pllLocked = true ∧ b.boot.reconciled = false ∧ b.boot.shelfDone = true ∧ b.boot.stacksDone.length = 8 ∧ b.boot.coreWaves = 4 ∧ b.boot.coresTesting = [] ∧ b.boot.enrolWaves = 4 ∧
        ∀ n : SiteNo, b.linkState n ≠ Link.TRAINING ∧ b.linkState n ≠ Link.RECONCILING
      (¬due → exec (.reconciliation x) s = .next s) ∧
      (due → Yields (.reconciliation x) s fun t =>
        t.blk.boot.reconciled = true ∧ t.blk.rd Reg.MH_BOOT_STATUS.PHASE = 4 ∧ t.blk.rd Reg.MH_STATUS.READY = 1 ∧ t.blk.rd Reg.MH_BOOT_SEAL.SEAL = 1 ∧ t.blk.sliceState 0 = Slice.OPEN ∧ t.blk.sec.installs = [] ∧
        t.blk.ten.reform = none ∧ t.blk.ep.sampled.isSome = true ∧ (x.denob = true → t.blk.rd (Reg.FC_BUCKET.STRUCK Src.denob) = 1) ∧
        (x.denob = false → b.defectPermanent Src.denob = false → b.dn.switched = false → t.blk.rd Reg.DN_STATUS.RUNNING = 1) ∧
        (x.collector = 1 → t.blk.rd Reg.FC_STATUS.SINGLE = 1) ∧ (x.fatal ≠ [] ∨ x.collector = 2 → t.blk.rd Reg.MH_STATUS.DEVICE_FATAL = 1 ∧ t.blk.fc.fatalAt = none) ∧
        (b.ten.reform = none → ∀ k : PosNo, (b.posHolder k).isSome = true → b.coreState (Core.nominal k) = 3 → t.blk.coreOf k = some (Core.nominal k)) ∧ t.fuse = s.fuse ∧ t.pending = s.pending)) ∧
    -- hub cores, and the log
    (∀ k : PosNo,
      let off := (Reg.HC_CTRL.CORE_RESET k).off
      let used := b.posBusy k = true ∨ ∃ n ∈ b.liveSlices, ∃ c < 4, b.home n c = k
      (b.frameHeld off = true → Yields (.coreReset k) s fun t => t = { s with blk := { b with regDue := b.regDue ++ [⟨false, off, 4, 2 ^ (Reg.HC_CTRL.CORE_RESET k).lo, none⟩] } }) ∧
      (b.frameHeld off = false → used → Yields (.coreReset k) s fun t => t.blk.rd (Reg.HC_STATUS.LAST_STATUS k) = Code.BUP_CORE_IN_USE ∧ OnlyFields s t [Reg.HC_STATUS.LAST_STATUS k]) ∧
      (b.frameHeld off = false → ¬used → Yields (.coreReset k) s fun t =>
        t.blk.rd (Reg.HC_STATUS.LAST_STATUS k) = Code.SUCCESS ∧ t.blk.rd (Reg.HC_STATUS.RESETTING k) = 1 ∧ t.blk.posState k = { PosState.idle with records := (b.posState k).records } ∧
        (∀ j : PosNo, j ≠ k → t.blk.posState j = b.posState j) ∧ (∀ o : BitVec 28, o.toNat / 0x100000 ≠ 32 + k.val → t.blk.word o.toNat = b.word o.toNat) ∧ NSet.has t.blk.boot.coreResets k = true ∧
        t.blk.rd (Reg.XF_RD_BYTES.COUNT k) = 0 ∧ t.blk.rd (Reg.VE_ERR_LOG.VALID k) = 0 ∧ (SMap.wf Reg.resetValue b.regs = true → t.blk.rd (Reg.XF_CFG.MAX_SLOTS k) = b.rd (Reg.XF_CFG.MAX_SLOTS k)) ∧ t.blk.shelf = b.shelf ∧ t.blk.sync = b.sync ∧ t.blk.queues = b.queues ∧ t.blk.fc = b.fc ∧ t.fuse = s.fuse ∧ t.pending = s.pending) ∧
      (Yields (.coreResetDone k) s fun t => t.blk.rd (Reg.HC_STATUS.RESETTING k) = 0 ∧
        OnlyFields { s with blk := { b with boot := { b.boot with coreResets := NSet.erase b.boot.coreResets k } } } t [Reg.HC_STATUS.RESETTING k])) ∧
    (b.lc ≠ Lc.TEST → exec .defectClear s = .next s) ∧
    (b.lc = Lc.TEST → Yields .defectClear s fun t =>
      (∀ i : Fin 512, t.blk.word (0x2000 + 8 * i) = 0) ∧ t.blk.rd Reg.MH_DEFECT_CTRL.COUNT = 0 ∧ t.blk.rd Reg.MH_DEFECT_CTRL.OVERFLOW = 0 ∧ t.blk.boot = { b.boot with nor := { b.boot.nor with defects := [], testBoots := [] } } ∧
      OnlyFields { s with blk := { b with boot := t.blk.boot } } t Fld.defects)

/-! ### Power, clocks and management (19, 21) -/

/-- BUDGET_PERIOD, GRANT_MISSED, BUDGET_ACK, TEMP_REPORT, DIP_EXPIRY and MANUAL_DIP (R393, R395, R396, R398–R400): each period grants every enrolled site
its budget, INITIAL in its first period, and throttles the hub by a step; the second period in a row above PKG_W dips every site; three grants missed
assert HALFMAST on a stacked site and hold a lateral one at its last answered grant; an answer clears what the misses did; a report at TJ_MAX asserts
HALFMAST. -/
def Obligations.PowerBudgets : Prop :=
  ∀ s : State,
    let b := s.blk
    let enrolled := (List.range 16).filter b.enrolled
    let record (n : Nat) : Nat := b.rd (Reg.ST_SWP_BURGEE.DATA n 7)
    let least (n : Nat) : Nat := bits (record n) 0 12
    let power (b : Block) (n : Nat) : SitePower := (b.site n).power
    -- a message of the sideband, and nothing else of a site but its power manager's state
    let tells (t : State) (n op d0 d1 : Nat) : Prop := (t.blk.out.drop b.out.length).any (fun o => match o with
      | .sideband k w => decide (k = n ∧ leAt w 0 1 = op ∧ leAt w 4 4 = d0 ∧ leAt w 8 4 = d1)
      | _ => false) = true
    let only (t : State) (n : Nat) (p : SitePower) : Prop := t.blk.site n = { b.site n with power := p, link := { (b.site n).link with sbTag := (t.blk.site n).link.sbTag } }
    let quiet (t : State) : Prop := t = { s with blk := { b with regs := t.blk.regs, sites := t.blk.sites } }
    let status (n : Nat) : List Fld := [Reg.PW_SITE_STATUS.HM_CAUSE n, Reg.PW_SITE_STATUS.HALFMAST n]
    let causes (t : State) (n : Nat) (set clear : Nat) : Prop := ∀ i < 4, bit (t.blk.rd (Reg.PW_SITE_STATUS.HM_CAUSE n)) i = (if set.testBit i then true else if clear.testBit i then false else bit (b.rd (Reg.PW_SITE_STATUS.HM_CAUSE n)) i)
    let mast (t : State) (n : Nat) : Prop := t.blk.rd (Reg.PW_SITE_STATUS.HALFMAST n) = b01 (decide (t.blk.rd (Reg.PW_SITE_STATUS.HM_CAUSE n) ≠ 0) || b.pw.thermTrip)
    (∀ hubW : BitVec 12,
      let pool := 2 * (b.rd Reg.PW_CFG.PKG_W - b.rd Reg.PW_CFG.HUB_W)
      let sumMin := (enrolled.map least).sum
      let sumW := (enrolled.map fun n => b.rd (Reg.PW_SITE_CFG.WEIGHT n)).sum
      let grant (n : Nat) : Nat := if (power b n).started = false then bits (record n) 24 12
        else if sumMin ≤ pool then min (bits (record n) 12 12) (least n + (pool - sumMin) * b.rd (Reg.PW_SITE_CFG.WEIGHT n) / sumW) else least n * pool / sumMin
      let exceeds := 2 * b.rd Reg.PW_CFG.PKG_W < 2 * hubW.toNat + (enrolled.map fun n => b.rd (Reg.PW_SITE_STATUS.REPORTED n)).sum
      let hot := ∃ c ∈ List.range 36, (4 * b.rd Reg.TH_CFG.HUB_THROTTLE_C : Int) ≤ signed (b.rd (Reg.TH_SENSOR.TEMP (32 + c))) 12
      let lim := b.rd Reg.PW_CFG.HUB_W
      let dips := exceeds ∧ 1 ≤ b.pw.excess ∧ b.rd Reg.PW_DIP_CFG.AUTO_EN = 1
      Yields (.budgetPeriod hubW) s fun t =>
        t.blk.rd Reg.PW_STATUS.HUB_MEAS = hubW.toNat ∧ t.blk.rd Reg.PW_STATUS.OVERCOMMIT = b01 (decide (pool < sumMin)) ∧
        t.blk.pw = { b.pw with
          lostPower := if lim < hubW.toNat then min 15 (b.pw.lostPower + 1) else if hubW.toNat + 10 < lim then b.pw.lostPower - 1 else b.pw.lostPower
          lostHeat := if hot then min 15 (b.pw.lostHeat + 1) else b.pw.lostHeat - 1
          excess := if exceeds then min 2 (b.pw.excess + 1) else 0 } ∧
        t.blk.rd Reg.PW_STATUS.THROTTLE = max t.blk.pw.lostPower t.blk.pw.lostHeat % 16 ∧
        (∀ n : SiteNo,
          let held := (power b n).isolatedSince ≠ none
          let dipped := if dips ∧ (power b n).dip.map Prod.fst ≠ some true then some (true, b.now + usToCycles (b.rd Reg.PW_DIP_CFG.AUTO_US)) else (power b n).dip
          (b.enrolled n = false → t.blk.site n = b.site n ∧ t.blk.rd (Reg.PW_SITE_STATUS.GRANT n) = b.rd (Reg.PW_SITE_STATUS.GRANT n)) ∧
          (b.enrolled n = true → held → only t n { power b n with dip := dipped } ∧ t.blk.rd (Reg.PW_SITE_STATUS.GRANT n) = b.rd (Reg.PW_SITE_STATUS.GRANT n)) ∧
          (b.enrolled n = true → ¬held →
            only t n { power b n with seq := ((power b n).seq + 1) % 65536, unanswered := true, started := true, dip := dipped } ∧ t.blk.rd (Reg.PW_SITE_STATUS.GRANT n) = grant n ∧
            tells t n 0x10 (((power b n).seq + 1) % 65536) (grant n)) ∧
          (b.enrolled n = true → dips → (∀ e, (power b n).dip ≠ some (true, e)) → t.blk.rd (Reg.PW_SITE_STATUS.DIPPED n) = 1 ∧ tells t n 0x12 (b.rd Reg.PW_DIP_CFG.AUTO_PCT) (b.rd Reg.PW_DIP_CFG.AUTO_US)) ∧
          (b.enrolled n = false ∨ ¬dips → t.blk.rd (Reg.PW_SITE_STATUS.DIPPED n) = b.rd (Reg.PW_SITE_STATUS.DIPPED n))) ∧
        b.FieldsKept t.blk ([Reg.PW_STATUS.HUB_MEAS, Reg.PW_STATUS.OVERCOMMIT, Reg.PW_STATUS.THROTTLE, Reg.PW_STATUS.DIP_AUTO] ++
          (List.range 16).flatMap fun n => [Reg.PW_SITE_STATUS.GRANT n, Reg.PW_SITE_STATUS.DIPPED n]) ∧
        t = { s with blk := { b with regs := t.blk.regs, sites := t.blk.sites, pw := t.blk.pw, out := t.blk.out } }) ∧
    (∀ n : SiteNo,
      let p := power b n
      let missed := min 3 (b.rd (Reg.PW_SITE_STATUS.MISSED n) + 1)
      (p.unanswered = false → exec (.grantMissed n) s = .next s) ∧
      (p.unanswered = true → Yields (.grantMissed n) s fun t =>
        t.blk.rd (Reg.PW_SITE_STATUS.MISSED n) = missed ∧ b.SitesKept t.blk n ∧ quiet t ∧
        (missed < 3 ∨ n.val < 12 → only t n { p with unanswered := false, answered := 0 }) ∧
        (missed < 3 → b.FieldsKept t.blk [Reg.PW_SITE_STATUS.MISSED n]) ∧
        (missed = 3 → n.val < 12 → causes t n 2 0 ∧ mast t n ∧ b.FieldsKept t.blk (Reg.PW_SITE_STATUS.MISSED n :: status n)) ∧
        (missed = 3 → 12 ≤ n.val → only t n { p with unanswered := false, answered := 0, isolatedSince := some b.now } ∧
          t.blk.rd (Reg.PW_SITE_STATUS.GRANT n) = p.lastAnswered % 4096 ∧ b.FieldsKept t.blk [Reg.PW_SITE_STATUS.MISSED n, Reg.PW_SITE_STATUS.GRANT n])) ∧
      (∀ (seq : BitVec 16) (watts : BitVec 12),
        let answers := p.unanswered = true ∧ seq.toNat = p.seq
        (b.enrolled n = false → exec (.budgetAck n seq watts) s = .next s) ∧
        (b.enrolled n = true → Yields (.budgetAck n seq watts) s fun t =>
          t.blk.rd (Reg.PW_SITE_STATUS.REPORTED n) = watts.toNat ∧ b.SitesKept t.blk n ∧ quiet t ∧
          (answers → only t n { p with unanswered := false, answered := min 3 (p.answered + 1), lastAnswered := b.rd (Reg.PW_SITE_STATUS.GRANT n) } ∧ t.blk.rd (Reg.PW_SITE_STATUS.MISSED n) = 0 ∧
            (n.val < 12 → causes t n 0 (if 2 ≤ p.answered then 10 else 8) ∧ mast t n) ∧ b.FieldsKept t.blk ([Reg.PW_SITE_STATUS.REPORTED n, Reg.PW_SITE_STATUS.MISSED n] ++ if n.val < 12 then status n else [])) ∧
          (¬answers → only t n { p with isolatedSince := none } ∧ b.FieldsKept t.blk [Reg.PW_SITE_STATUS.REPORTED n]))) ∧
      (∀ temp : BitVec 8,
        let tj : Int := (bits (record n) 36 8 : Nat)
        (b.enrolled n = false → exec (.tempReport n temp) s = .next s) ∧
        (b.enrolled n = true → Yields (.tempReport n temp) s fun t =>
          t.blk.rd (Reg.PW_SITE_STATUS.SITE_TEMP n) = temp.toNat ∧
          (n.val < 12 → causes t n (if tj ≤ temp.toInt then 4 else 0) (if temp.toInt < tj - 5 then 4 else 0) ∧ (tj ≤ temp.toInt ∨ temp.toInt < tj - 5 → mast t n)) ∧
          OnlyFields s t (Reg.PW_SITE_STATUS.SITE_TEMP n :: if n.val < 12 then status n else []))) ∧
      (p.dip = none → exec (.dipExpiry n) s = .next s) ∧
      ∀ d, p.dip = some d →
        let again := d.1 = true ∧ 1 ≤ b.pw.excess ∧ b.rd Reg.PW_DIP_CFG.AUTO_EN = 1 ∧ b.enrolled n = true
        Yields (.dipExpiry n) s fun t =>
          only t n { p with dip := if again then some (true, b.now + usToCycles (b.rd Reg.PW_DIP_CFG.AUTO_US)) else none } ∧ t.blk.rd (Reg.PW_SITE_STATUS.DIPPED n) = b01 (decide again) ∧
          (again → tells t n 0x12 (b.rd Reg.PW_DIP_CFG.AUTO_PCT) (b.rd Reg.PW_DIP_CFG.AUTO_US)) ∧ (¬again → t.blk.out = b.out) ∧ b.SitesKept t.blk n ∧
          b.FieldsKept t.blk [Reg.PW_SITE_STATUS.DIPPED n, Reg.PW_STATUS.DIP_AUTO] ∧ t = { s with blk := { b with regs := t.blk.regs, sites := t.blk.sites, out := t.blk.out } }) ∧
    ∀ (mask : BitVec 16) (pct : BitVec 7) (us : BitVec 16),
      Yields (.manualDip mask pct us) s fun t =>
        (∀ n : SiteNo,
          let hit := mask.getLsbD n = true ∧ b.enrolled n = true
          (hit → only t n { power b n with dip := some (false, b.now + usToCycles (max 1 us.toNat)) } ∧ t.blk.rd (Reg.PW_SITE_STATUS.DIPPED n) = 1 ∧ tells t n 0x12 (max 1 (min pct.toNat 100)) (max 1 us.toNat)) ∧
          (¬hit → t.blk.site n = b.site n ∧ t.blk.rd (Reg.PW_SITE_STATUS.DIPPED n) = b.rd (Reg.PW_SITE_STATUS.DIPPED n))) ∧
        b.FieldsKept t.blk (Reg.PW_STATUS.DIP_AUTO :: (List.range 16).map Reg.PW_SITE_STATUS.DIPPED) ∧ t = { s with blk := { b with regs := t.blk.regs, sites := t.blk.sites, out := t.blk.out } }

/-- SENSOR_UPDATE, HALFMAST_RELEASE, LAT_ISOLATE_TIMEOUT, STACK_STOPS_ANSWERING, I3C_OFFSET_WRITE and I3C_READ (R391, R399–R401, R410): a reading is
calibrated, shown, and asserts or breaks its thermal pair; HALFMAST follows the silicon beneath a site; a lateral site that does not answer is reset;
the I3C target answers after the preamble and clears nothing. That a calibrated reading is held within 12 bits is the model's choice (assumption 52). -/
def Obligations.ThermalAndI3c : Prop :=
  ∀ s : State,
    let b := s.blk
    let mast (t : State) (n : Nat) : Prop := t.blk.rd (Reg.PW_SITE_STATUS.HALFMAST n) = b01 (decide (t.blk.rd (Reg.PW_SITE_STATUS.HM_CAUSE n) ≠ 0) || t.blk.pw.thermTrip)
    (∀ (k : Fin 68) (raw : BitVec 12),
      let sum := raw.toInt + signed (b.rd (Reg.CK_CAL.FACTORY k)) 12 + signed (b.rd (Reg.CK_CAL.DELTA k)) 12
      let temp := max (-2048) (min 2047 sum)
      let trip : Int := 4 * b.rd Reg.TH_CFG.TRIP_C
      let pair := 32 + k.val
      let was := b.pairState pair
      let wild := temp < -160 ∨ 600 < temp
      let told : Bool := if wild then was != 3 else decide (trip ≤ temp) && (was == 0 || was == 2)
      let shows (t : State) (v : Nat) : Prop := t.blk.pairState pair = v ∧ t.blk.pw.thermTrip = (told || b.pw.thermTrip) ∧
        (t.blk.fc.inQ = if told then (⟨Src.sensor k, Kind.THERMAL_TRIP, pair, 1, 0, true, false, false, b.now⟩ : Record).enqueue b.fc.inQ else b.fc.inQ)
      b.fc.injectPair = none → trip ≤ 600 →
        Yields (.sensorUpdate k raw) s fun t =>
          signed (t.blk.rd (Reg.TH_SENSOR.TEMP k)) 12 = temp ∧
          shows t (if wild then 3 else if temp < trip then 0 else if told then 1 else was) ∧
          (24 ≤ k.val → told = false → b.FieldsKept t.blk [Reg.TH_SENSOR.TEMP k] ∧ t.blk.sites = b.sites ∧ t.blk.out = b.out) ∧
          (k.val < 24 →
            let n := k.val / 2
            let at' := max (signed (t.blk.rd (Reg.TH_SENSOR.TEMP (2 * n))) 12) (signed (t.blk.rd (Reg.TH_SENSOR.TEMP (2 * n + 1))) 12)
            let hm : Int := 4 * b.rd (Reg.PW_SITE_CFG.HM_C n)
            t.blk.rd (Reg.PW_SITE_STATUS.BENEATH_C n) = toBits (at' / 4) 8 ∧ bit (t.blk.rd (Reg.PW_SITE_STATUS.HM_CAUSE n)) 0 = (decide (hm ≤ at') || bit (b.rd (Reg.PW_SITE_STATUS.HM_CAUSE n)) 0) ∧ (hm ≤ at' → mast t n) ∧
            (t.blk.site n).power = { (b.site n).power with coolSince := if at' ≤ hm - 20 then some ((b.site n).power.coolSince.getD b.now) else none }) ∧
          t = { s with blk := { b with regs := t.blk.regs, fc := t.blk.fc, pw := t.blk.pw, sites := t.blk.sites, out := t.blk.out, free := t.blk.free } }) ∧
    (∀ n : SiteNo,
      ((b.site n).power.coolSince = none → exec (.halfmastRelease n) s = .next s) ∧
      ((b.site n).power.coolSince ≠ none → n.val < 12 → Yields (.halfmastRelease n) s fun t =>
        bit (t.blk.rd (Reg.PW_SITE_STATUS.HM_CAUSE n)) 0 = false ∧ (∀ i < 4, i ≠ 0 → bit (t.blk.rd (Reg.PW_SITE_STATUS.HM_CAUSE n)) i = bit (b.rd (Reg.PW_SITE_STATUS.HM_CAUSE n)) i) ∧ mast t n ∧
        OnlyFields s t [Reg.PW_SITE_STATUS.HM_CAUSE n, Reg.PW_SITE_STATUS.HALFMAST n]) ∧
      ((b.site n).power.coolSince ≠ none → 12 ≤ n.val → exec (.halfmastRelease n) s = .next s) ∧
      ((b.site n).power.isolatedSince = none ∨ b.rd (Reg.ST_CFG.EN n) = 0 ∨ (b.site n).link.absent = true → exec (.latIsolateTimeout n) s = .next s) ∧
      ((b.site n).power.isolatedSince ≠ none → b.rd (Reg.ST_CFG.EN n) = 1 → (b.site n).link.absent = false → Yields (.latIsolateTimeout n) s fun t =>
        t.blk.linkState n = Link.RESETTING ∧ (t.blk.site n).link.srstLow = true ∧ (t.blk.site n).link.srstAt = b.now ∧ b.SitesKept t.blk n ∧
        (b.linkState n ≠ Link.OFF → b.linkState n ≠ Link.LOST → b.linkState n ≠ Link.RESETTING →
          t.blk.enrolled n = false ∧ (t.blk.site n).power.isolatedSince = none ∧ t.blk.rd (Reg.PW_SITE_STATUS.MISSED n) = 0 ∧ (b.rd (Reg.ST_LOSS_LOG.VALID n) = 0 → t.blk.rd (Reg.ST_LOSS_LOG.CAUSE n) = 7) ∧
          t.blk.fc.inQ.any (fun q => decide (q.source = Src.site n) && decide (q.kind = Kind.SITE_LOST)) = true) ∧
        t.blk.shelf = b.shelf ∧ t.blk.keys = b.keys ∧ t.fuse = s.fuse ∧ t.pending = s.pending)) ∧
    (∀ (n : StackNo) (lost : Bool),
      let lock : Fld := ⟨Reg.CK_STATUS.HBM_LOCK.off, 2 + n, 1⟩
      Yields (.stackStopsAnswering n lost) s fun t => t.blk.rd lock = (if lost then 0 else b.rd lock) ∧ b.Raised t.blk (Src.stack n) Kind.HBM_STACK_FAIL 0 0 ∧ s.FcStep t [lock]) ∧
    (∀ d : List Byte,
      (b.boot.preamble = true → Yields (.i3cOffsetWrite d) s fun t => t = { s with blk := { b with out := b.out ++ [.i3c true []] } }) ∧
      (b.boot.preamble = false → d.length < 4 → exec (.i3cOffsetWrite d) s = .next s) ∧
      (b.boot.preamble = false → 4 ≤ d.length → Yields (.i3cOffsetWrite d) s fun t => t = { s with blk := { b with pw := { b.pw with i3cOffset := leAt d 0 4 } } })) ∧
    ∀ wide : Bool,
      let o := b.pw.i3cOffset
      let n := if wide then 8 else 4
      let listed := o < 0x1000000 ∨ o = Reg.FC_STATUS.UNCLEARED.off ∨ o = Reg.FC_STATUS.UNCLEARED.off + 4 ∨ o = Reg.PW_STATUS.THROTTLE.off ∨ (∃ k : SiteNo, o = (Reg.PW_SITE_STATUS.GRANT k).off) ∨ ∃ k : Fin 68, o = (Reg.TH_SENSOR.TEMP k).off
      let answers (d : List Byte) : Prop := Yields (.i3cRead wide) s fun t => t = { s with blk := { b with out := b.out ++ [.i3c false d] } }
      (b.boot.preamble = true → Yields (.i3cRead wide) s fun t => t = { s with blk := { b with out := b.out ++ [.i3c true []] } }) ∧
      (b.boot.preamble = false → listed → answers (natLE n (b.regGet o n false).2)) ∧
      (b.boot.preamble = false → (∀ f ∈ [Reg.FC_STATUS.UNCLEARED.off, Reg.PW_STATUS.THROTTLE.off], o < f ∨ f + 8 ≤ o) → 0x1000000 ≤ o → (o < 0xb000100 ∨ 0xb000200 ≤ o) → (o < 0xb002100 ∨ 0xb002210 ≤ o) → answers (List.replicate n 0))

/-! ### Invariants -/

/-- OTP is programmed, never cleared (R365, R366): whatever OTP has programmed before a step, every command at the front of the queue leaves programmed:
no bit of a transition's rows, of the UDS or of UDS_VALID is cleared, no token digest changes, and the minimum versions of firmware never fall (R360). -/
def Obligations.OtpOnlyGains : Prop :=
  ∀ (o : Otp) (s t : State), o.Within s.fuse → step s = .next t → o.Within t.fuse

/-- END_OF_LIFE is final (R364, R366): once OTP records a transition into it, no step leaves it, and the life-cycle controller decodes END_OF_LIFE at
every later device reset, whatever its DRBG draws. -/
def Obligations.EndOfLifeIsFinal : Prop :=
  ∀ (s t : State) (r : BitVec 384), s.fuse.Ended → step s = .next t → t.fuse.Ended ∧ (t.fuse.decode r).state = 3

/-- A part that has left the fab holds no row, so it is BLANK (R366), records no END_OF_LIFE, and its state in force is BLANK after reset. That OTP is
empty at reset is the model's choice (assumption 3). -/
def Obligations.OtpAtReset : Prop :=
  (∀ r, (State.reset.fuse.decode r).state = 0) ∧ ¬State.reset.fuse.Ended ∧ State.reset.blk.rd Reg.LC_STATUS.STATE = Lc.BLANK ∧
    ∀ k, State.reset.fuse.rows k = LcRows.blank
end

