-- ==== Sys2Proof/Laws/Data.lean ====
section
/-! SUPPORT. What the operations on plain data do: maps read what was last written and keep their canonical form, number sets
hold what was put in, and bit fields read back. -/

namespace Sys2Proof.Machine

/-! ### Sparse maps -/

variable {α : Type}

@[simp] theorem SMap.get_nil (d : Nat → α) (k : Nat) : SMap.get d [] k = d k := rfl

theorem SMap.get_drop (d : Nat → α) (m : SMap α) (k j : Nat) :
    SMap.get d (SMap.drop m k) j = if j = k then d j else SMap.get d m j := by
  induction m with
  | nil => simp [SMap.drop]
  | cons e m ih =>
    obtain ⟨k', v⟩ := e
    by_cases h : k = k'
    · subst h
      by_cases hj : j = k <;> simp_all [SMap.drop, SMap.get]
    · by_cases hj : j = k
      · subst hj; simp_all [SMap.drop, SMap.get]
      · simp_all [SMap.drop, SMap.get]

theorem SMap.get_place (d : Nat → α) (m : SMap α) (k j : Nat) (v : α) :
    SMap.get d (SMap.place m k v) j = if j = k then v else SMap.get d m j := by
  induction m with
  | nil => simp [SMap.place, SMap.get]
  | cons e m ih =>
    obtain ⟨k', v'⟩ := e
    by_cases h : k = k'
    · subst h
      by_cases hj : j = k <;> simp_all [SMap.place, SMap.get]
    · by_cases hlt : k < k'
      · by_cases hj : j = k <;> simp_all [SMap.place, SMap.get]
      · rw [SMap.place, if_neg h, if_neg hlt, SMap.get, SMap.get, ih]
        by_cases hj : j = k
        · subst hj; simp [h]
        · simp [hj]

variable [DecidableEq α]

/-- Reading after a write. -/
theorem SMap.get_put (d : Nat → α) (m : SMap α) (k j : Nat) (v : α) :
    SMap.get d (SMap.put d m k v) j = if j = k then v else SMap.get d m j := by
  unfold SMap.put
  split
  · rw [SMap.get_drop]; split <;> simp_all
  · exact SMap.get_place d m k j v

@[simp] theorem SMap.get_put_same (d : Nat → α) (m : SMap α) (k : Nat) (v : α) : SMap.get d (SMap.put d m k v) k = v := by
  simp [SMap.get_put]

@[simp] theorem SMap.get_put_of_ne (d : Nat → α) (m : SMap α) {k j : Nat} (v : α) (h : j ≠ k) :
    SMap.get d (SMap.put d m k v) j = SMap.get d m j := by simp [SMap.get_put, h]

@[simp] theorem SMap.get_modify_same (d : Nat → α) (m : SMap α) (k : Nat) (f : α → α) :
    SMap.get d (SMap.modify d m k f) k = f (SMap.get d m k) := by simp [SMap.modify]

@[simp] theorem SMap.get_modify_of_ne (d : Nat → α) (m : SMap α) {k j : Nat} (f : α → α) (h : j ≠ k) :
    SMap.get d (SMap.modify d m k f) j = SMap.get d m j := by simp [SMap.modify, h]

theorem SMap.wfFrom_mono (d : Nat → α) {a b : Nat} (m : SMap α) (h : b ≤ a) (w : SMap.wfFrom d a m = true) :
    SMap.wfFrom d b m = true := by
  cases m with
  | nil => rfl
  | cons e m =>
    obtain ⟨k, v⟩ := e
    simp only [SMap.wfFrom, Bool.and_eq_true, decide_eq_true_eq] at w ⊢
    exact ⟨⟨by omega, w.1.2⟩, w.2⟩

theorem SMap.wfFrom_drop (d : Nat → α) (b : Nat) (m : SMap α) (k : Nat) (w : SMap.wfFrom d b m = true) :
    SMap.wfFrom d b (SMap.drop m k) = true := by
  induction m generalizing b with
  | nil => rfl
  | cons e m ih =>
    obtain ⟨k', v⟩ := e
    simp only [SMap.wfFrom, Bool.and_eq_true, decide_eq_true_eq] at w
    by_cases h : k = k'
    · simp only [SMap.drop, h, if_true]
      exact SMap.wfFrom_mono d (SMap.drop m k') (by omega) (h ▸ ih (k' + 1) w.2)
    · simp only [SMap.drop, h, if_false, SMap.wfFrom, Bool.and_eq_true, decide_eq_true_eq]
      exact ⟨w.1, ih (k' + 1) w.2⟩

theorem SMap.wfFrom_place (d : Nat → α) (b : Nat) (m : SMap α) (k : Nat) (v : α) (hb : b ≤ k) (hv : v ≠ d k)
    (w : SMap.wfFrom d b m = true) : SMap.wfFrom d b (SMap.place m k v) = true := by
  induction m generalizing b with
  | nil => simp [SMap.place, SMap.wfFrom, hb, hv]
  | cons e m ih =>
    obtain ⟨k', v'⟩ := e
    simp only [SMap.wfFrom, Bool.and_eq_true, decide_eq_true_eq] at w
    by_cases h : k = k'
    · subst h; simp [SMap.place, SMap.wfFrom, hb, hv, w.2]
    · by_cases hlt : k < k'
      · simp only [SMap.place, h, hlt, if_true, if_false, SMap.wfFrom, Bool.and_eq_true, decide_eq_true_eq]
        exact ⟨⟨hb, hv⟩, ⟨by omega, w.1.2⟩, w.2⟩
      · simp only [SMap.place, h, hlt, if_false, SMap.wfFrom, Bool.and_eq_true, decide_eq_true_eq]
        exact ⟨w.1, ih (k' + 1) (by omega) w.2⟩

/-- Writing keeps the canonical form. -/
theorem SMap.wf_put (d : Nat → α) (m : SMap α) (k : Nat) (v : α) (w : SMap.wf d m = true) : SMap.wf d (SMap.put d m k v) = true := by
  unfold SMap.put
  split
  · exact SMap.wfFrom_drop d 0 m k w
  · next hv => exact SMap.wfFrom_place d 0 m k v (Nat.zero_le k) hv w

theorem SMap.wf_modify (d : Nat → α) (m : SMap α) (k : Nat) (f : α → α) (w : SMap.wf d m = true) :
    SMap.wf d (SMap.modify d m k f) = true := SMap.wf_put d m k _ w

omit [DecidableEq α] in
theorem SMap.get_of_lt (d : Nat → α) (m : SMap α) [DecidableEq α] {b k : Nat} (w : SMap.wfFrom d b m = true) (h : k < b) :
    SMap.get d m k = d k := by
  induction m generalizing b with
  | nil => rfl
  | cons e m ih =>
    obtain ⟨k', v⟩ := e
    simp only [SMap.wfFrom, Bool.and_eq_true, decide_eq_true_eq] at w
    have hk : k ≠ k' := by omega
    simpa [SMap.get, hk] using ih w.2 (by omega)

/-- Canonical maps that read alike are equal. -/
theorem SMap.ext_of_wfFrom (d : Nat → α) {b : Nat} (m n : SMap α) (hm : SMap.wfFrom d b m = true) (hn : SMap.wfFrom d b n = true)
    (h : ∀ k, SMap.get d m k = SMap.get d n k) : m = n := by
  induction m generalizing b n with
  | nil =>
    cases n with
    | nil => rfl
    | cons e n =>
      obtain ⟨k, v⟩ := e
      simp only [SMap.wfFrom, Bool.and_eq_true, decide_eq_true_eq] at hn
      exact absurd (by simpa [SMap.get] using (h k).symm) hn.1.2
  | cons e m ih =>
    obtain ⟨k, v⟩ := e
    simp only [SMap.wfFrom, Bool.and_eq_true, decide_eq_true_eq] at hm
    cases n with
    | nil => exact absurd (by simpa [SMap.get] using h k) hm.1.2
    | cons f n =>
      obtain ⟨k', v'⟩ := f
      simp only [SMap.wfFrom, Bool.and_eq_true, decide_eq_true_eq] at hn
      rcases Nat.lt_trichotomy k k' with hk | hk | hk
      · have hg := h k
        have hne : k ≠ k' := by omega
        simp only [SMap.get, hne, if_true, if_false] at hg
        exact absurd (hg.trans (SMap.get_of_lt d n hn.2 (by omega))) hm.1.2
      · subst hk
        have hv : v = v' := by simpa [SMap.get] using h k
        subst hv
        have : m = n := ih n hm.2 hn.2 fun j => by
          by_cases hj : j = k
          · subst hj
            rw [SMap.get_of_lt d m hm.2 (by omega), SMap.get_of_lt d n hn.2 (by omega)]
          · simpa [SMap.get, hj] using h j
        rw [this]
      · have hg := h k'
        have hne : k' ≠ k := by omega
        simp only [SMap.get, hne, if_true, if_false] at hg
        exact absurd (hg.symm.trans (SMap.get_of_lt d m hm.2 (by omega))) hn.1.2

/-! ### Number sets -/

omit [DecidableEq α] in
@[simp] theorem NSet.has_insert (k j : Nat) (s : NSet) : NSet.has (NSet.insert k s) j = (decide (j = k) || NSet.has s j) := by
  induction s with
  | nil => simp [NSet.insert, NSet.has, eq_comm]
  | cons x s ih =>
    unfold NSet.insert
    simp only [NSet.has] at ih ⊢
    split
    · simp [eq_comm]
    · split
      · next h => subst h; by_cases hj : j = k <;> simp [hj]
      · simp only [List.contains_cons, ih]
        by_cases hj : j = k <;> by_cases hx : j = x <;> simp [hj, hx]

omit [DecidableEq α] in
@[simp] theorem NSet.has_erase (s : NSet) (k j : Nat) : NSet.has (NSet.erase s k) j = (NSet.has s j && !decide (j = k)) := by
  induction s with
  | nil => simp [NSet.erase, NSet.has]
  | cons x s ih =>
    simp only [NSet.erase, NSet.has] at ih ⊢
    by_cases hx : x = k
    · subst hx
      simp only [List.filter_cons, bne_self_eq_false, Bool.false_eq_true, if_false, ih, List.contains_cons]
      by_cases hj : j = x <;> simp [hj]
    · have : (x != k) = true := by simpa using hx
      simp only [List.filter_cons, this, if_true, List.contains_cons, ih]
      by_cases hj : j = k
      · subst hj; simp [Ne.symm hx]
      · simp [hj]

/-! ### Bit fields -/

omit [DecidableEq α] in
theorem bits_lt (n lo w : Nat) : bits n lo w < 2 ^ w := Nat.mod_lt _ (Nat.two_pow_pos w)

omit [DecidableEq α] in
theorem testBit_bits (n lo w i : Nat) : (bits n lo w).testBit i = (decide (i < w) && n.testBit (lo + i)) := by
  simp [bits, Nat.testBit_mod_two_pow]

omit [DecidableEq α] in
/-- Replacing a field adds its new bits where the old stood. -/
theorem setBits_eq (n lo w v : Nat) : setBits n lo w v = n % 2 ^ lo + 2 ^ lo * (v % 2 ^ w) + 2 ^ (lo + w) * (n / 2 ^ (lo + w)) := by
  unfold setBits bits
  simp only [Nat.shiftRight_eq_div_pow, Nat.shiftLeft_eq]
  have h1 : n = n % 2 ^ lo + 2 ^ lo * (n / 2 ^ lo) := (Nat.mod_add_div n (2 ^ lo)).symm
  have h2 : n / 2 ^ lo = n / 2 ^ lo % 2 ^ w + 2 ^ w * (n / 2 ^ lo / 2 ^ w) := (Nat.mod_add_div _ (2 ^ w)).symm
  have h3 : n / 2 ^ lo / 2 ^ w = n / 2 ^ (lo + w) := by rw [Nat.div_div_eq_div_mul, Nat.pow_add]
  generalize ha : n / 2 ^ lo % 2 ^ w = a at *
  rw [h3] at h2
  rw [h2] at h1
  have h4 : n - a * 2 ^ lo = n % 2 ^ lo + 2 ^ (lo + w) * (n / 2 ^ (lo + w)) := by
    rw [Nat.pow_add]
    rw [Nat.pow_add] at h1
    have : n = n % 2 ^ lo + 2 ^ lo * 2 ^ w * (n / (2 ^ lo * 2 ^ w)) + a * 2 ^ lo := by
      calc n = n % 2 ^ lo + 2 ^ lo * (a + 2 ^ w * (n / (2 ^ lo * 2 ^ w))) := h1
        _ = _ := by ring
    omega
  rw [h4]; ring

omit [DecidableEq α] in
/-- A field reads back what was put there. -/
@[simp] theorem bits_setBits_same (n lo w v : Nat) : bits (setBits n lo w v) lo w = v % 2 ^ w := by
  rw [setBits_eq, bits, Nat.shiftRight_eq_div_pow, Nat.pow_add]
  have h : n % 2 ^ lo + 2 ^ lo * (v % 2 ^ w) + 2 ^ lo * 2 ^ w * (n / (2 ^ lo * 2 ^ w))
      = n % 2 ^ lo + 2 ^ lo * (v % 2 ^ w + 2 ^ w * (n / (2 ^ lo * 2 ^ w))) := by ring
  rw [h, Nat.add_mul_div_left _ _ (Nat.two_pow_pos lo), Nat.div_eq_of_lt (Nat.mod_lt _ (Nat.two_pow_pos lo)), Nat.zero_add,
    Nat.add_mul_mod_self_left, Nat.mod_mod]

omit [DecidableEq α] in
theorem testBit_setBits (n lo w v i : Nat) :
    (setBits n lo w v).testBit i = if lo ≤ i ∧ i < lo + w then v.testBit (i - lo) else n.testBit i := by
  have hlow : n % 2 ^ lo < 2 ^ lo := Nat.mod_lt _ (Nat.two_pow_pos lo)
  have hv : v % 2 ^ w < 2 ^ w := Nat.mod_lt _ (Nat.two_pow_pos w)
  have hsum : n % 2 ^ lo + 2 ^ lo * (v % 2 ^ w) < 2 ^ (lo + w) := by
    rw [Nat.pow_add]
    calc n % 2 ^ lo + 2 ^ lo * (v % 2 ^ w) < 2 ^ lo + 2 ^ lo * (v % 2 ^ w) := by omega
      _ = 2 ^ lo * (v % 2 ^ w + 1) := by ring
      _ ≤ 2 ^ lo * 2 ^ w := Nat.mul_le_mul_left _ hv
  rw [setBits_eq, Nat.add_comm _ (2 ^ (lo + w) * _), Nat.testBit_two_pow_mul_add _ hsum,
    Nat.add_comm (n % 2 ^ lo) _, Nat.testBit_two_pow_mul_add _ hlow]
  by_cases h1 : i < lo
  · have h2 : i < lo + w := by omega
    simp [h1, h2, Nat.testBit_mod_two_pow]
  · by_cases h2 : i < lo + w
    · have h3 : lo ≤ i ∧ i < lo + w := by omega
      have h4 : i - lo < w := by omega
      simp [h1, h2, h3, h4, Nat.testBit_mod_two_pow]
    · have h4 : i - (lo + w) + (lo + w) = i := by omega
      simp [h2, Nat.testBit_div_two_pow, h4]

omit [DecidableEq α] in
/-- A field beside the one replaced is unchanged. -/
theorem bits_setBits_of_disjoint (n lo w v lo' w' : Nat) (h : lo' + w' ≤ lo ∨ lo + w ≤ lo') :
    bits (setBits n lo w v) lo' w' = bits n lo' w' := by
  apply Nat.eq_of_testBit_eq
  intro i
  rw [testBit_bits, testBit_bits, testBit_setBits]
  by_cases hi : i < w'
  · have : ¬(lo ≤ lo' + i ∧ lo' + i < lo + w) := by omega
    simp [this]
  · simp [hi]

omit [DecidableEq α] in
theorem bits_mod_two_pow (n k lo w : Nat) (h : lo + w ≤ k) : bits (n % 2 ^ k) lo w = bits n lo w := by
  apply Nat.eq_of_testBit_eq
  intro i
  rw [testBit_bits, testBit_bits, Nat.testBit_mod_two_pow]
  by_cases hi : i < w
  · have : lo + i < k := by omega
    simp [hi, this]
  · simp [hi]

omit [DecidableEq α] in
@[simp] theorem b01_true : b01 true = 1 := rfl
omit [DecidableEq α] in
@[simp] theorem b01_false : b01 false = 0 := rfl
omit [DecidableEq α] in
theorem b01_lt (b : Bool) : b01 b < 2 := by cases b <;> decide

omit [DecidableEq α] in
theorem crc16Bits_lt (k c : Nat) : crc16Bits (k + 1) c < 65536 := by
  induction k generalizing c with
  | zero =>
    show (if c.testBit 15 then ((c <<< 1) % 65536) ^^^ 0x8BB7 else (c <<< 1) % 65536) < 65536
    split
    · exact Nat.xor_lt_two_pow (n := 16) (Nat.mod_lt _ (by decide)) (by decide)
    · exact Nat.mod_lt _ (by decide)
  | succ k ih => exact ih _

omit [DecidableEq α] in
theorem crc16_lt (bs : List Byte) : crc16 bs < 65536 := by
  have h : ∀ (bs : List Byte) (c : Nat), c < 65536 → bs.foldl (fun c b => crc16Bits 8 (c ^^^ (b.toNat <<< 8))) c < 65536 := by
    intro bs
    induction bs with
    | nil => exact fun c h => h
    | cons b bs ih => exact fun c _ => ih _ (crc16Bits_lt 7 _)
  exact h bs _ (by decide)

end Sys2Proof.Machine
end

