-- ==== Sys2Proof/Laws/Dispatch.lean ====
section
/-! SUPPORT. Each arm of `exec` is its command's meaning. -/

namespace Sys2Proof.Machine

@[simp] theorem exec_registerWrite (off : BitVec 28) (wide : Bool) (v : Word) (boot : Bool) (s : State) :
    exec (.registerWrite off wide v boot) s = execRegisterWrite off wide v boot s := rfl
@[simp] theorem exec_bootSeal (s : State) :
    exec (.bootSeal) s = execBootSeal s := rfl
@[simp] theorem exec_shelfRequest (bank : Fin 512) (arrive : Option MemCmd) (upset : Option ShelfUpset) (s : State) :
    exec (.shelfRequest bank arrive upset) s = execShelfRequest bank arrive upset s := rfl
@[simp] theorem exec_shelfEccWriteback (bank : Fin 512) (s : State) :
    exec (.shelfEccWriteback bank) s = execShelfEccWriteback bank s := rfl
@[simp] theorem exec_bankCopyDone (bank : Fin 512) (s : State) :
    exec (.bankCopyDone bank) s = execBankCopyDone bank s := rfl
@[simp] theorem exec_shelfFill (count : BitVec 18) (s : State) :
    exec (.shelfFill count) s = execShelfFill count s := rfl
@[simp] theorem exec_shelfFillDone (s : State) :
    exec (.shelfFillDone) s = execShelfFillDone s := rfl
@[simp] theorem exec_shelfScrub (bank : Fin 512) (s : State) :
    exec (.shelfScrub bank) s = execShelfScrub bank s := rfl
@[simp] theorem exec_hbmRead (req : MemCmd) (err : Option StackError) (s : State) :
    exec (.hbmRead req err) s = execHbmRead req err s := rfl
@[simp] theorem exec_hbmWrite (req : MemCmd) (s : State) :
    exec (.hbmWrite req) s = execHbmWrite req s := rfl
@[simp] theorem exec_stripeGatherTimeout (stripe : BitVec 29) (s : State) :
    exec (.stripeGatherTimeout stripe) s = execStripeGatherTimeout stripe s := rfl
@[simp] theorem exec_stripeLockGrant (stripe : BitVec 29) (s : State) :
    exec (.stripeLockGrant stripe) s = execStripeLockGrant stripe s := rfl
@[simp] theorem exec_reorderQueueIssue (pc : Fin 512) (s : State) :
    exec (.reorderQueueIssue pc) s = execReorderQueueIssue pc s := rfl
@[simp] theorem exec_hbmRefresh (pc : Fin 512) (bank : Fin 16) (s : State) :
    exec (.hbmRefresh pc bank) s = execHbmRefresh pc bank s := rfl
@[simp] theorem exec_stackTemperature (stack : StackNo) (celsius : BitVec 8) (s : State) :
    exec (.stackTemperature stack celsius) s = execStackTemperature stack celsius s := rfl
@[simp] theorem exec_hbmRetrain (pc : Fin 512) (s : State) :
    exec (.hbmRetrain pc) s = execHbmRetrain pc s := rfl
@[simp] theorem exec_hbmRetrainEnd (pc : Fin 512) (passed : Bool) (s : State) :
    exec (.hbmRetrainEnd pc passed) s = execHbmRetrainEnd pc passed s := rfl
@[simp] theorem exec_rebuildStep (stack : StackNo) (chan : ChanNo) (s : State) :
    exec (.rebuildStep stack chan) s = execRebuildStep stack chan s := rfl
@[simp] theorem exec_hbmPatrolScrub (s : State) :
    exec (.hbmPatrolScrub) s = execHbmPatrolScrub s := rfl
@[simp] theorem exec_doorbell (slice : SliceNo) (cls : ClassNo) (v : BitVec 32) (s : State) :
    exec (.doorbell slice cls v) s = execDoorbell slice cls v s := rfl
@[simp] theorem exec_consumerHeadWrite (ring : HeadRing) (v : BitVec 32) (s : State) :
    exec (.consumerHeadWrite ring v) s = execConsumerHeadWrite ring v s := rfl
@[simp] theorem exec_commandFetch (slice : SliceNo) (cls : ClassNo) (s : State) :
    exec (.commandFetch slice cls) s = execCommandFetch slice cls s := rfl
@[simp] theorem exec_headWriteback (slice : SliceNo) (cls : ClassNo) (s : State) :
    exec (.headWriteback slice cls) s = execHeadWriteback slice cls s := rfl
@[simp] theorem exec_xfer (slice : SliceNo) (cls : ClassNo) (s : State) :
    exec (.xfer slice cls) s = execXfer slice cls s := rfl
@[simp] theorem exec_vexec (slice : SliceNo) (cls : ClassNo) (s : State) :
    exec (.vexec slice cls) s = execVexec slice cls s := rfl
@[simp] theorem exec_reduce (slice : SliceNo) (cls : ClassNo) (s : State) :
    exec (.reduce slice cls) s = execReduce slice cls s := rfl
@[simp] theorem exec_collect (slice : SliceNo) (cls : ClassNo) (s : State) :
    exec (.collect slice cls) s = execCollect slice cls s := rfl
@[simp] theorem exec_dispatch (slice : SliceNo) (cls : ClassNo) (s : State) :
    exec (.dispatch slice cls) s = execDispatch slice cls s := rfl
@[simp] theorem exec_signal (slice : SliceNo) (cls : ClassNo) (s : State) :
    exec (.signal slice cls) s = execSignal slice cls s := rfl
@[simp] theorem exec_wait (slice : SliceNo) (cls : ClassNo) (s : State) :
    exec (.wait slice cls) s = execWait slice cls s := rfl
@[simp] theorem exec_mark (slice : SliceNo) (cls : ClassNo) (s : State) :
    exec (.mark slice cls) s = execMark slice cls s := rfl
@[simp] theorem exec_fence (slice : SliceNo) (cls : ClassNo) (s : State) :
    exec (.fence slice cls) s = execFence slice cls s := rfl
@[simp] theorem exec_call (slice : SliceNo) (cls : ClassNo) (s : State) :
    exec (.call slice cls) s = execCall slice cls s := rfl
@[simp] theorem exec_returnList (slice : SliceNo) (cls : ClassNo) (s : State) :
    exec (.returnList slice cls) s = execReturnList slice cls s := rfl
@[simp] theorem exec_jump (slice : SliceNo) (cls : ClassNo) (s : State) :
    exec (.jump slice cls) s = execJump slice cls s := rfl
@[simp] theorem exec_handle (slice : SliceNo) (cls : ClassNo) (s : State) :
    exec (.handle slice cls) s = execHandle slice cls s := rfl
@[simp] theorem exec_unlistedOpcode (slice : SliceNo) (cls : ClassNo) (s : State) :
    exec (.unlistedOpcode slice cls) s = execUnlistedOpcode slice cls s := rfl
@[simp] theorem exec_commandComplete (slice : SliceNo) (cls : ClassNo) (nth : Fin 32) (s : State) :
    exec (.commandComplete slice cls nth) s = execCommandComplete slice cls nth s := rfl
@[simp] theorem exec_cringEntryPost (slice : SliceNo) (s : State) :
    exec (.cringEntryPost slice) s = execCringEntryPost slice s := rfl
@[simp] theorem exec_cringIrqTimer (slice : SliceNo) (s : State) :
    exec (.cringIrqTimer slice) s = execCringIrqTimer slice s := rfl
@[simp] theorem exec_queueEnable (slice : SliceNo) (cls : ClassNo) (s : State) :
    exec (.queueEnable slice cls) s = execQueueEnable slice cls s := rfl
@[simp] theorem exec_queueDisable (slice : SliceNo) (cls : ClassNo) (s : State) :
    exec (.queueDisable slice cls) s = execQueueDisable slice cls s := rfl
@[simp] theorem exec_queuePause (slice : SliceNo) (cls : ClassNo) (s : State) :
    exec (.queuePause slice cls) s = execQueuePause slice cls s := rfl
@[simp] theorem exec_queueResume (slice : SliceNo) (cls : ClassNo) (s : State) :
    exec (.queueResume slice cls) s = execQueueResume slice cls s := rfl
@[simp] theorem exec_queueRetry (slice : SliceNo) (cls : ClassNo) (s : State) :
    exec (.queueRetry slice cls) s = execQueueRetry slice cls s := rfl
@[simp] theorem exec_queueSkip (slice : SliceNo) (cls : ClassNo) (s : State) :
    exec (.queueSkip slice cls) s = execQueueSkip slice cls s := rfl
@[simp] theorem exec_syncSignal (obj : Fin 131072) (amount : BitVec 32) (sender : SyncFrom) (s : State) :
    exec (.syncSignal obj amount sender) s = execSyncSignal obj amount sender s := rfl
@[simp] theorem exec_syncReset (obj : Fin 131072) (sender : SyncFrom) (s : State) :
    exec (.syncReset obj sender) s = execSyncReset obj sender s := rfl
@[simp] theorem exec_syncRead (obj : Fin 131072) (sender : SyncFrom) (s : State) :
    exec (.syncRead obj sender) s = execSyncRead obj sender s := rfl
@[simp] theorem exec_syncWaitRegister (obj : Fin 131072) (target : Word) (site : SiteNo) (tag : BitVec 12) (timeoutUs : BitVec 16) (s : State) :
    exec (.syncWaitRegister obj target site tag timeoutUs) s = execSyncWaitRegister obj target site tag timeoutUs s := rfl
@[simp] theorem exec_waitRelease (home : PosNo) (s : State) :
    exec (.waitRelease home) s = execWaitRelease home s := rfl
@[simp] theorem exec_waitTimeout (slice : SliceNo) (cls : ClassNo) (s : State) :
    exec (.waitTimeout slice cls) s = execWaitTimeout slice cls s := rfl
@[simp] theorem exec_waitPoll (home : PosNo) (nth : Nat) (s : State) :
    exec (.waitPoll home nth) s = execWaitPoll home nth s := rfl
@[simp] theorem exec_fenceComplete (slice : SliceNo) (cls : ClassNo) (s : State) :
    exec (.fenceComplete slice cls) s = execFenceComplete slice cls s := rfl
@[simp] theorem exec_markCommit (slice : SliceNo) (s : State) :
    exec (.markCommit slice) s = execMarkCommit slice s := rfl
@[simp] theorem exec_xferSlotStart (pos : PosNo) (s : State) :
    exec (.xferSlotStart pos) s = execXferSlotStart pos s := rfl
@[simp] theorem exec_xferDescRead (pos : PosNo) (slot : Fin 8) (s : State) :
    exec (.xferDescRead pos slot) s = execXferDescRead pos slot s := rfl
@[simp] theorem exec_xferCursorRead (pos : PosNo) (slot : Fin 8) (s : State) :
    exec (.xferCursorRead pos slot) s = execXferCursorRead pos slot s := rfl
@[simp] theorem exec_xferBlockPrepared (pos : PosNo) (slot : Fin 8) (ahead : Fin 16) (parity : Option TlbUpset) (s : State) :
    exec (.xferBlockPrepared pos slot ahead parity) s = execXferBlockPrepared pos slot ahead parity s := rfl
@[simp] theorem exec_xferBlockDelivered (pos : PosNo) (slot : Fin 8) (s : State) :
    exec (.xferBlockDelivered pos slot) s = execXferBlockDelivered pos slot s := rfl
@[simp] theorem exec_vexecImageLoaded (pos : PosNo) (s : State) :
    exec (.vexecImageLoaded pos) s = execVexecImageLoaded pos s := rfl
@[simp] theorem exec_vectorAccessComplete (pos : PosNo) (s : State) :
    exec (.vectorAccessComplete pos) s = execVectorAccessComplete pos s := rfl
@[simp] theorem exec_vexecTimeout (pos : PosNo) (s : State) :
    exec (.vexecTimeout pos) s = execVexecTimeout pos s := rfl
@[simp] theorem exec_forbiddenInstruction (pos : PosNo) (s : State) :
    exec (.forbiddenInstruction pos) s = execForbiddenInstruction pos s := rfl
@[simp] theorem exec_nop (pos : PosNo) (s : State) :
    exec (.nop pos) s = execNop pos s := rfl
@[simp] theorem exec_endKernel (pos : PosNo) (s : State) :
    exec (.endKernel pos) s = execEndKernel pos s := rfl
@[simp] theorem exec_jmp (pos : PosNo) (s : State) :
    exec (.jmp pos) s = execJmp pos s := rfl
@[simp] theorem exec_dbnz (pos : PosNo) (s : State) :
    exec (.dbnz pos) s = execDbnz pos s := rfl
@[simp] theorem exec_setvl (pos : PosNo) (s : State) :
    exec (.setvl pos) s = execSetvl pos s := rfl
@[simp] theorem exec_sli (pos : PosNo) (s : State) :
    exec (.sli pos) s = execSli pos s := rfl
@[simp] theorem exec_slih (pos : PosNo) (s : State) :
    exec (.slih pos) s = execSlih pos s := rfl
@[simp] theorem exec_sadd (pos : PosNo) (s : State) :
    exec (.sadd pos) s = execSadd pos s := rfl
@[simp] theorem exec_ssub (pos : PosNo) (s : State) :
    exec (.ssub pos) s = execSsub pos s := rfl
@[simp] theorem exec_smul (pos : PosNo) (s : State) :
    exec (.smul pos) s = execSmul pos s := rfl
@[simp] theorem exec_sarg (pos : PosNo) (s : State) :
    exec (.sarg pos) s = execSarg pos s := rfl
@[simp] theorem exec_rdflg (pos : PosNo) (s : State) :
    exec (.rdflg pos) s = execRdflg pos s := rfl
@[simp] theorem exec_setseed (pos : PosNo) (s : State) :
    exec (.setseed pos) s = execSetseed pos s := rfl
@[simp] theorem exec_vld (pos : PosNo) (s : State) :
    exec (.vld pos) s = execVld pos s := rfl
@[simp] theorem exec_vlds (pos : PosNo) (s : State) :
    exec (.vlds pos) s = execVlds pos s := rfl
@[simp] theorem exec_vldx (pos : PosNo) (s : State) :
    exec (.vldx pos) s = execVldx pos s := rfl
@[simp] theorem exec_vst (pos : PosNo) (s : State) :
    exec (.vst pos) s = execVst pos s := rfl
@[simp] theorem exec_vsts (pos : PosNo) (s : State) :
    exec (.vsts pos) s = execVsts pos s := rfl
@[simp] theorem exec_vstx (pos : PosNo) (s : State) :
    exec (.vstx pos) s = execVstx pos s := rfl
@[simp] theorem exec_vstxa (pos : PosNo) (s : State) :
    exec (.vstxa pos) s = execVstxa pos s := rfl
@[simp] theorem exec_vseal (pos : PosNo) (s : State) :
    exec (.vseal pos) s = execVseal pos s := rfl
@[simp] theorem exec_vchk (pos : PosNo) (s : State) :
    exec (.vchk pos) s = execVchk pos s := rfl
@[simp] theorem exec_add (pos : PosNo) (s : State) :
    exec (.add pos) s = execAdd pos s := rfl
@[simp] theorem exec_sub (pos : PosNo) (s : State) :
    exec (.sub pos) s = execSub pos s := rfl
@[simp] theorem exec_mul (pos : PosNo) (s : State) :
    exec (.mul pos) s = execMul pos s := rfl
@[simp] theorem exec_fma (pos : PosNo) (s : State) :
    exec (.fma pos) s = execFma pos s := rfl
@[simp] theorem exec_fnma (pos : PosNo) (s : State) :
    exec (.fnma pos) s = execFnma pos s := rfl
@[simp] theorem exec_min (pos : PosNo) (s : State) :
    exec (.min pos) s = execMin pos s := rfl
@[simp] theorem exec_max (pos : PosNo) (s : State) :
    exec (.max pos) s = execMax pos s := rfl
@[simp] theorem exec_abs (pos : PosNo) (s : State) :
    exec (.abs pos) s = execAbs pos s := rfl
@[simp] theorem exec_exp2 (pos : PosNo) (s : State) :
    exec (.exp2 pos) s = execExp2 pos s := rfl
@[simp] theorem exec_log2 (pos : PosNo) (s : State) :
    exec (.log2 pos) s = execLog2 pos s := rfl
@[simp] theorem exec_rcp (pos : PosNo) (s : State) :
    exec (.rcp pos) s = execRcp pos s := rfl
@[simp] theorem exec_rsqrt (pos : PosNo) (s : State) :
    exec (.rsqrt pos) s = execRsqrt pos s := rfl
@[simp] theorem exec_shl (pos : PosNo) (s : State) :
    exec (.shl pos) s = execShl pos s := rfl
@[simp] theorem exec_shr (pos : PosNo) (s : State) :
    exec (.shr pos) s = execShr pos s := rfl
@[simp] theorem exec_sra (pos : PosNo) (s : State) :
    exec (.sra pos) s = execSra pos s := rfl
@[simp] theorem exec_cvt (pos : PosNo) (s : State) :
    exec (.cvt pos) s = execCvt pos s := rfl
@[simp] theorem exec_cmpEq (pos : PosNo) (s : State) :
    exec (.cmpEq pos) s = execCmpEq pos s := rfl
@[simp] theorem exec_cmpNe (pos : PosNo) (s : State) :
    exec (.cmpNe pos) s = execCmpNe pos s := rfl
@[simp] theorem exec_cmpLt (pos : PosNo) (s : State) :
    exec (.cmpLt pos) s = execCmpLt pos s := rfl
@[simp] theorem exec_cmpLe (pos : PosNo) (s : State) :
    exec (.cmpLe pos) s = execCmpLe pos s := rfl
@[simp] theorem exec_cmpGt (pos : PosNo) (s : State) :
    exec (.cmpGt pos) s = execCmpGt pos s := rfl
@[simp] theorem exec_cmpGe (pos : PosNo) (s : State) :
    exec (.cmpGe pos) s = execCmpGe pos s := rfl
@[simp] theorem exec_cmpUn (pos : PosNo) (s : State) :
    exec (.cmpUn pos) s = execCmpUn pos s := rfl
@[simp] theorem exec_sel (pos : PosNo) (s : State) :
    exec (.sel pos) s = execSel pos s := rfl
@[simp] theorem exec_mand (pos : PosNo) (s : State) :
    exec (.mand pos) s = execMand pos s := rfl
@[simp] theorem exec_mor (pos : PosNo) (s : State) :
    exec (.mor pos) s = execMor pos s := rfl
@[simp] theorem exec_mxor (pos : PosNo) (s : State) :
    exec (.mxor pos) s = execMxor pos s := rfl
@[simp] theorem exec_mnot (pos : PosNo) (s : State) :
    exec (.mnot pos) s = execMnot pos s := rfl
@[simp] theorem exec_mpopc (pos : PosNo) (s : State) :
    exec (.mpopc pos) s = execMpopc pos s := rfl
@[simp] theorem exec_mfirst (pos : PosNo) (s : State) :
    exec (.mfirst pos) s = execMfirst pos s := rfl
@[simp] theorem exec_mset (pos : PosNo) (s : State) :
    exec (.mset pos) s = execMset pos s := rfl
@[simp] theorem exec_neg (pos : PosNo) (s : State) :
    exec (.neg pos) s = execNeg pos s := rfl
@[simp] theorem exec_mov (pos : PosNo) (s : State) :
    exec (.mov pos) s = execMov pos s := rfl
@[simp] theorem exec_perm (pos : PosNo) (s : State) :
    exec (.perm pos) s = execPerm pos s := rfl
@[simp] theorem exec_bcastl (pos : PosNo) (s : State) :
    exec (.bcastl pos) s = execBcastl pos s := rfl
@[simp] theorem exec_slideup (pos : PosNo) (s : State) :
    exec (.slideup pos) s = execSlideup pos s := rfl
@[simp] theorem exec_slidedn (pos : PosNo) (s : State) :
    exec (.slidedn pos) s = execSlidedn pos s := rfl
@[simp] theorem exec_compress (pos : PosNo) (s : State) :
    exec (.compress pos) s = execCompress pos s := rfl
@[simp] theorem exec_expand (pos : PosNo) (s : State) :
    exec (.expand pos) s = execExpand pos s := rfl
@[simp] theorem exec_bcastx (pos : PosNo) (s : State) :
    exec (.bcastx pos) s = execBcastx pos s := rfl
@[simp] theorem exec_xfromv (pos : PosNo) (s : State) :
    exec (.xfromv pos) s = execXfromv pos s := rfl
@[simp] theorem exec_rclr (pos : PosNo) (s : State) :
    exec (.rclr pos) s = execRclr pos s := rfl
@[simp] theorem exec_rnorm (pos : PosNo) (s : State) :
    exec (.rnorm pos) s = execRnorm pos s := rfl
@[simp] theorem exec_rsum (pos : PosNo) (s : State) :
    exec (.rsum pos) s = execRsum pos s := rfl
@[simp] theorem exec_rtopk (pos : PosNo) (s : State) :
    exec (.rtopk pos) s = execRtopk pos s := rfl
@[simp] theorem exec_rmerge (pos : PosNo) (s : State) :
    exec (.rmerge pos) s = execRmerge pos s := rfl
@[simp] theorem exec_rgetn (pos : PosNo) (s : State) :
    exec (.rgetn pos) s = execRgetn pos s := rfl
@[simp] theorem exec_rgets (pos : PosNo) (s : State) :
    exec (.rgets pos) s = execRgets pos s := rfl
@[simp] theorem exec_rgetq (pos : PosNo) (s : State) :
    exec (.rgetq pos) s = execRgetq pos s := rfl
@[simp] theorem exec_rgetk (pos : PosNo) (s : State) :
    exec (.rgetk pos) s = execRgetk pos s := rfl
@[simp] theorem exec_rfact (pos : PosNo) (s : State) :
    exec (.rfact pos) s = execRfact pos s := rfl
@[simp] theorem exec_rsetn (pos : PosNo) (s : State) :
    exec (.rsetn pos) s = execRsetn pos s := rfl
@[simp] theorem exec_reduceChunk (pos : PosNo) (s : State) :
    exec (.reduceChunk pos) s = execReduceChunk pos s := rfl
@[simp] theorem exec_collectWaitSatisfied (pos : PosNo) (nth : Fin 32) (s : State) :
    exec (.collectWaitSatisfied pos nth) s = execCollectWaitSatisfied pos nth s := rfl
@[simp] theorem exec_collectTimeout (pos : PosNo) (nth : Fin 32) (s : State) :
    exec (.collectTimeout pos nth) s = execCollectTimeout pos nth s := rfl
@[simp] theorem exec_siteTrained (site : SiteNo) (rates : BitVec 8) (repaired : BitVec 16) (failed : BitVec 8) (s : State) :
    exec (.siteTrained site rates repaired failed) s = execSiteTrained site rates repaired failed s := rfl
@[simp] theorem exec_siteTrainTimeout (site : SiteNo) (s : State) :
    exec (.siteTrainTimeout site) s = execSiteTrainTimeout site s := rfl
@[simp] theorem exec_dataFrame (site : SiteNo) (frame : SiteFrame) (kind3 : Bool) (s : State) :
    exec (.dataFrame site frame kind3) s = execDataFrame site frame kind3 s := rfl
@[simp] theorem exec_idleFrame (site : SiteNo) (frame : SiteFrame) (s : State) :
    exec (.idleFrame site frame) s = execIdleFrame site frame s := rfl
@[simp] theorem exec_nakFrame (site : SiteNo) (frame : SiteFrame) (s : State) :
    exec (.nakFrame site frame) s = execNakFrame site frame s := rfl
@[simp] theorem exec_ackTimer (site : SiteNo) (s : State) :
    exec (.ackTimer site) s = execAckTimer site s := rfl
@[simp] theorem exec_nakResend (site : SiteNo) (s : State) :
    exec (.nakResend site) s = execNakResend site s := rfl
@[simp] theorem exec_moduleReturnTimeout (site : SiteNo) (md : Fin 4) (s : State) :
    exec (.moduleReturnTimeout site md) s = execModuleReturnTimeout site md s := rfl
@[simp] theorem exec_linkHello (site : SiteNo) (s : State) :
    exec (.linkHello site) s = execLinkHello site s := rfl
@[simp] theorem exec_heartbeat (site : SiteNo) (s : State) :
    exec (.heartbeat site) s = execHeartbeat site s := rfl
@[simp] theorem exec_widthPropose (site : SiteNo) (set : BitVec 8) (attempt : Fin 4) (test : GroupTest) (s : State) :
    exec (.widthPropose site set attempt test) s = execWidthPropose site set attempt test s := rfl
@[simp] theorem exec_widthAgree (site : SiteNo) (set : BitVec 8) (attempt : Fin 4) (s : State) :
    exec (.widthAgree site set attempt) s = execWidthAgree site set attempt s := rfl
@[simp] theorem exec_widthAck (site : SiteNo) (ack : WidthAckMsg) (s : State) :
    exec (.widthAck site ack) s = execWidthAck site ack s := rfl
@[simp] theorem exec_resetNote (site : SiteNo) (s : State) :
    exec (.resetNote site) s = execResetNote site s := rfl
@[simp] theorem exec_errNote (site : SiteNo) (kind who : BitVec 8) (addr : BitVec 32) (s : State) :
    exec (.errNote site kind who addr) s = execErrNote site kind who addr s := rfl
@[simp] theorem exec_coreFail (site : SiteNo) (phys : Fin 64) (s : State) :
    exec (.coreFail site phys) s = execCoreFail site phys s := rfl
@[simp] theorem exec_protoNote (site : SiteNo) (opcode : BitVec 8) (tag : BitVec 12) (s : State) :
    exec (.protoNote site opcode tag) s = execProtoNote site opcode tag s := rfl
@[simp] theorem exec_sidebandInvalid (msg : SidebandMsg) (s : State) :
    exec (.sidebandInvalid msg) s = execSidebandInvalid msg s := rfl
@[simp] theorem exec_heartbeatSend (site : SiteNo) (s : State) :
    exec (.heartbeatSend site) s = execHeartbeatSend site s := rfl
@[simp] theorem exec_heartbeatTimeout (site : SiteNo) (s : State) :
    exec (.heartbeatTimeout site) s = execHeartbeatTimeout site s := rfl
@[simp] theorem exec_sidebandResend (site : SiteNo) (s : State) :
    exec (.sidebandResend site) s = execSidebandResend site s := rfl
@[simp] theorem exec_reconTimeout (test : ReconTest) (s : State) :
    exec (.reconTimeout test) s = execReconTimeout test s := rfl
@[simp] theorem exec_clockLoss (site : SiteNo) (groups : BitVec 8) (s : State) :
    exec (.clockLoss site groups) s = execClockLoss site groups s := rfl
@[simp] theorem exec_siteReset (site : SiteNo) (s : State) :
    exec (.siteReset site) s = execSiteReset site s := rfl
@[simp] theorem exec_siteResetRelease (site : SiteNo) (s : State) :
    exec (.siteResetRelease site) s = execSiteResetRelease site s := rfl
@[simp] theorem exec_siteRetrain (site : SiteNo) (s : State) :
    exec (.siteRetrain site) s = execSiteRetrain site s := rfl
@[simp] theorem exec_clkHold (site : SiteNo) (on : Bool) (s : State) :
    exec (.clkHold site on) s = execClkHold site on s := rfl
@[simp] theorem exec_rd (site : SiteNo) (h : PacketHdr) (s : State) :
    exec (.rd site h) s = execRd site h s := rfl
@[simp] theorem exec_wr (site : SiteNo) (h : PacketHdr) (data : List Byte) (s : State) :
    exec (.wr site h data) s = execWr site h data s := rfl
@[simp] theorem exec_wrBlock (site : SiteNo) (h : PacketHdr) (data : List Byte) (s : State) :
    exec (.wrBlock site h data) s = execWrBlock site h data s := rfl
@[simp] theorem exec_swpAdd (site : SiteNo) (h : PacketHdr) (data : List Byte) (s : State) :
    exec (.swpAdd site h data) s = execSwpAdd site h data s := rfl
@[simp] theorem exec_rdBlock (site : SiteNo) (h : PacketHdr) (s : State) :
    exec (.rdBlock site h) s = execRdBlock site h s := rfl
@[simp] theorem exec_syncWait (site : SiteNo) (h : PacketHdr) (target : Word) (s : State) :
    exec (.syncWait site h target) s = execSyncWait site h target s := rfl
@[simp] theorem exec_siteWaitTimeout (site : SiteNo) (tag : BitVec 12) (s : State) :
    exec (.siteWaitTimeout site tag) s = execSiteWaitTimeout site tag s := rfl
@[simp] theorem exec_burgee (site : SiteNo) (data : List Byte) (s : State) :
    exec (.burgee site data) s = execBurgee site data s := rfl
@[simp] theorem exec_enrolTimeout (site : SiteNo) (s : State) :
    exec (.enrolTimeout site) s = execEnrolTimeout site s := rfl
@[simp] theorem exec_rdData (site : SiteNo) (h : PacketHdr) (data : List Byte) (s : State) :
    exec (.rdData site h data) s = execRdData site h data s := rfl
@[simp] theorem exec_resp (site : SiteNo) (h : PacketHdr) (s : State) :
    exec (.resp site h) s = execResp site h s := rfl
@[simp] theorem exec_done (site : SiteNo) (h : PacketHdr) (count : Word) (s : State) :
    exec (.done site h count) s = execDone site h count s := rfl
@[simp] theorem exec_credit (site : SiteNo) (reqH reqD snpH : BitVec 8) (s : State) :
    exec (.credit site reqH reqD snpH) s = execCredit site reqH reqD snpH s := rfl
@[simp] theorem exec_unlistedPacket (site : SiteNo) (op : BitVec 8) (units : Fin 512) (h : PacketHdr) (s : State) :
    exec (.unlistedPacket site op units h) s = execUnlistedPacket site op units h s := rfl
@[simp] theorem exec_dispatchTimeout (site : SiteNo) (tag : BitVec 12) (s : State) :
    exec (.dispatchTimeout site tag) s = execDispatchTimeout site tag s := rfl
@[simp] theorem exec_cancelTimeout (site : SiteNo) (tag : BitVec 12) (s : State) :
    exec (.cancelTimeout site tag) s = execCancelTimeout site tag s := rfl
@[simp] theorem exec_windowReqTimeout (site : SiteNo) (tag : BitVec 12) (s : State) :
    exec (.windowReqTimeout site tag) s = execWindowReqTimeout site tag s := rfl
@[simp] theorem exec_cRdS (site : SiteNo) (h : PacketHdr) (dirErr : Option DirUpset) (s : State) :
    exec (.cRdS site h dirErr) s = execCRdS site h dirErr s := rfl
@[simp] theorem exec_cRdO (site : SiteNo) (h : PacketHdr) (dirErr : Option DirUpset) (s : State) :
    exec (.cRdO site h dirErr) s = execCRdO site h dirErr s := rfl
@[simp] theorem exec_cUpg (site : SiteNo) (h : PacketHdr) (dirErr : Option DirUpset) (s : State) :
    exec (.cUpg site h dirErr) s = execCUpg site h dirErr s := rfl
@[simp] theorem exec_cWb (site : SiteNo) (h : PacketHdr) (data : List Byte) (s : State) :
    exec (.cWb site h data) s = execCWb site h data s := rfl
@[simp] theorem exec_cEvict (site : SiteNo) (h : PacketHdr) (s : State) :
    exec (.cEvict site h) s = execCEvict site h s := rfl
@[simp] theorem exec_snpAck (site : SiteNo) (h : PacketHdr) (s : State) :
    exec (.snpAck site h) s = execSnpAck site h s := rfl
@[simp] theorem exec_snpData (site : SiteNo) (h : PacketHdr) (data : List Byte) (s : State) :
    exec (.snpData site h data) s = execSnpData site h data s := rfl
@[simp] theorem exec_snoopTimeout (site : SiteNo) (tag : BitVec 12) (s : State) :
    exec (.snoopTimeout site tag) s = execSnoopTimeout site tag s := rfl
@[simp] theorem exec_holdWindowEnd (line : BitVec 42) (s : State) :
    exec (.holdWindowEnd line) s = execHoldWindowEnd line s := rfl
@[simp] theorem exec_reservationExpiry (line : BitVec 42) (s : State) :
    exec (.reservationExpiry line) s = execReservationExpiry line s := rfl
@[simp] theorem exec_reclaimStep (s : State) :
    exec (.reclaimStep) s = execReclaimStep s := rfl
@[simp] theorem exec_atsCompletion (tag : Fin 512) (status : Fin 3) (pa : Word) (log2 : Fin 64) (r w u g : Bool) (s : State) :
    exec (.atsCompletion tag status pa log2 r w u g) s = execAtsCompletion tag status pa log2 r w u g s := rfl
@[simp] theorem exec_atsTimeout (tag : Fin 512) (s : State) :
    exec (.atsTimeout tag) s = execAtsTimeout tag s := rfl
@[simp] theorem exec_prgSend (s : State) :
    exec (.prgSend) s = execPrgSend s := rfl
@[simp] theorem exec_prgResponse (fn : Fin 33) (idx : Fin 512) (code : PrgCode) (s : State) :
    exec (.prgResponse fn idx code) s = execPrgResponse fn idx code s := rfl
@[simp] theorem exec_prgTimeout (fn : Fin 33) (idx : Fin 512) (s : State) :
    exec (.prgTimeout fn idx) s = execPrgTimeout fn idx s := rfl
@[simp] theorem exec_invalidateRequest (fn : Fin 33) (itag : Fin 32) (pasid : Option (BitVec 20)) (glob : Bool) (va : Word) (log2 : Fin 65) (s : State) :
    exec (.invalidateRequest fn itag pasid glob va log2) s = execInvalidateRequest fn itag pasid glob va log2 s := rfl
@[simp] theorem exec_invalidationComplete (fn : Fin 33) (itag : Fin 32) (s : State) :
    exec (.invalidationComplete fn itag) s = execInvalidationComplete fn itag s := rfl
@[simp] theorem exec_accDecay (s : State) :
    exec (.accDecay) s = execAccDecay s := rfl
@[simp] theorem exec_accClear (s : State) :
    exec (.accClear) s = execAccClear s := rfl
@[simp] theorem exec_tlbFlush (s : State) :
    exec (.tlbFlush) s = execTlbFlush s := rfl
@[simp] theorem exec_cringWriteRetry (slice : SliceNo) (s : State) :
    exec (.cringWriteRetry slice) s = execCringWriteRetry slice s := rfl
@[simp] theorem exec_requestRingDoorbell (slice : SliceNo) (v : BitVec 32) (s : State) :
    exec (.requestRingDoorbell slice v) s = execRequestRingDoorbell slice v s := rfl
@[simp] theorem exec_requestSubmit (slice : SliceNo) (s : State) :
    exec (.requestSubmit slice) s = execRequestSubmit slice s := rfl
@[simp] theorem exec_requestCancel (slice : SliceNo) (s : State) :
    exec (.requestCancel slice) s = execRequestCancel slice s := rfl
@[simp] theorem exec_stepBoundary (part : PartNo) (s : State) :
    exec (.stepBoundary part) s = execStepBoundary part s := rfl
@[simp] theorem exec_sampleToken (part : PartNo) (slice : SliceNo) (reqId : BitVec 32) (cands : List (BitVec 32 × BitVec 32)) (s : State) :
    exec (.sampleToken part slice reqId cands) s = execSampleToken part slice reqId cands s := rfl
@[simp] theorem exec_tokenRingRoom (slice : SliceNo) (s : State) :
    exec (.tokenRingRoom slice) s = execTokenRingRoom slice s := rfl
@[simp] theorem exec_tokenIrqTimer (slice : SliceNo) (s : State) :
    exec (.tokenIrqTimer slice) s = execTokenIrqTimer slice s := rfl
@[simp] theorem exec_planLoad (part : PartNo) (index : Fin 16) (s : State) :
    exec (.planLoad part index) s = execPlanLoad part index s := rfl
@[simp] theorem exec_planUnload (part : PartNo) (index : Fin 16) (s : State) :
    exec (.planUnload part index) s = execPlanUnload part index s := rfl
@[simp] theorem exec_fwActivate (s : State) :
    exec (.fwActivate) s = execFwActivate s := rfl
@[simp] theorem exec_fwSelfCheckTimeout (s : State) :
    exec (.fwSelfCheckTimeout) s = execFwSelfCheckTimeout s := rfl
@[simp] theorem exec_denobRestartDone (s : State) :
    exec (.denobRestartDone) s = execDenobRestartDone s := rfl
@[simp] theorem exec_serveEnable (slice : SliceNo) (s : State) :
    exec (.serveEnable slice) s = execServeEnable slice s := rfl
@[simp] theorem exec_serveDisable (slice : SliceNo) (s : State) :
    exec (.serveDisable slice) s = execServeDisable slice s := rfl
@[simp] theorem exec_openSlice (slice : SliceNo) (s : State) :
    exec (.openSlice slice) s = execOpenSlice slice s := rfl
@[simp] theorem exec_resetSlice (slice : SliceNo) (s : State) :
    exec (.resetSlice slice) s = execResetSlice slice s := rfl
@[simp] theorem exec_sliceResetComplete (slice : SliceNo) (s : State) :
    exec (.sliceResetComplete slice) s = execSliceResetComplete slice s := rfl
@[simp] theorem exec_freeze (slice : SliceNo) (s : State) :
    exec (.freeze slice) s = execFreeze slice s := rfl
@[simp] theorem exec_freezeDrainComplete (slice : SliceNo) (s : State) :
    exec (.freezeDrainComplete slice) s = execFreezeDrainComplete slice s := rfl
@[simp] theorem exec_freezeWaitTimeout (slice : SliceNo) (s : State) :
    exec (.freezeWaitTimeout slice) s = execFreezeWaitTimeout slice s := rfl
@[simp] theorem exec_thaw (slice : SliceNo) (s : State) :
    exec (.thaw slice) s = execThaw slice s := rfl
@[simp] theorem exec_release (slice : SliceNo) (s : State) :
    exec (.release slice) s = execRelease slice s := rfl
@[simp] theorem exec_releaseDone (slice : SliceNo) (s : State) :
    exec (.releaseDone slice) s = execReleaseDone slice s := rfl
@[simp] theorem exec_save (slice : SliceNo) (s : State) :
    exec (.save slice) s = execSave slice s := rfl
@[simp] theorem exec_saveDone (slice : SliceNo) (s : State) :
    exec (.saveDone slice) s = execSaveDone slice s := rfl
@[simp] theorem exec_restore (slice : SliceNo) (s : State) :
    exec (.restore slice) s = execRestore slice s := rfl
@[simp] theorem exec_restoreDone (slice : SliceNo) (s : State) :
    exec (.restoreDone slice) s = execRestoreDone slice s := rfl
@[simp] theorem exec_partitionReset (part : PartNo) (s : State) :
    exec (.partitionReset part) s = execPartitionReset part s := rfl
@[simp] theorem exec_partitionResetDone (part : PartNo) (s : State) :
    exec (.partitionResetDone part) s = execPartitionResetDone part s := rfl
@[simp] theorem exec_reform (s : State) :
    exec (.reform) s = execReform s := rfl
@[simp] theorem exec_reformDone (s : State) :
    exec (.reformDone) s = execReformDone s := rfl
@[simp] theorem exec_mbxMessageSend (slice : SliceNo) (m0 : Word) (s : State) :
    exec (.mbxMessageSend slice m0) s = execMbxMessageSend slice m0 s := rfl
@[simp] theorem exec_mbxAck (slice : SliceNo) (s : State) :
    exec (.mbxAck slice) s = execMbxAck slice s := rfl
@[simp] theorem exec_mbxSend (slice : SliceNo) (s : State) :
    exec (.mbxSend slice) s = execMbxSend slice s := rfl
@[simp] theorem exec_mbxInClear (slice : SliceNo) (s : State) :
    exec (.mbxInClear slice) s = execMbxInClear slice s := rfl
@[simp] theorem exec_halyardInject (present : Option HyCmd) (upset : HyUpset) (s : State) :
    exec (.halyardInject present upset) s = execHalyardInject present upset s := rfl
@[simp] theorem exec_domainWake (domain : Fin 212) (s : State) :
    exec (.domainWake domain) s = execDomainWake domain s := rfl
@[simp] theorem exec_wakeTimeout (domain : Fin 212) (s : State) :
    exec (.wakeTimeout domain) s = execWakeTimeout domain s := rfl
@[simp] theorem exec_idleGate (domain : Fin 212) (s : State) :
    exec (.idleGate domain) s = execIdleGate domain s := rfl
@[simp] theorem exec_hyReqTimeout (port : Fin 105) (tag : BitVec 12) (s : State) :
    exec (.hyReqTimeout port tag) s = execHyReqTimeout port tag s := rfl
@[simp] theorem exec_snap (s : State) :
    exec (.snap) s = execSnap s := rfl
@[simp] theorem exec_bar0Access (req : BarReq) (s : State) :
    exec (.bar0Access req) s = execBar0Access req s := rfl
@[simp] theorem exec_bar2Access (req : BarReq) (s : State) :
    exec (.bar2Access req) s = execBar2Access req s := rfl
@[simp] theorem exec_bar4Access (req : BarReq) (s : State) :
    exec (.bar4Access req) s = execBar4Access req s := rfl
@[simp] theorem exec_busMasterEnableClear (fn : Fin 33) (s : State) :
    exec (.busMasterEnableClear fn) s = execBusMasterEnableClear fn s := rfl
@[simp] theorem exec_busMasterEnableSet (fn : Fin 33) (s : State) :
    exec (.busMasterEnableSet fn) s = execBusMasterEnableSet fn s := rfl
@[simp] theorem exec_memorySpaceEnableClear (vfs : Bool) (s : State) :
    exec (.memorySpaceEnableClear vfs) s = execMemorySpaceEnableClear vfs s := rfl
@[simp] theorem exec_d3hotEntry (s : State) :
    exec (.d3hotEntry) s = execD3hotEntry s := rfl
@[simp] theorem exec_d3hotExit (s : State) :
    exec (.d3hotExit) s = execD3hotExit s := rfl
@[simp] theorem exec_vfFlr (vf : PartNo) (s : State) :
    exec (.vfFlr vf) s = execVfFlr vf s := rfl
@[simp] theorem exec_pfFlr (s : State) :
    exec (.pfFlr) s = execPfFlr s := rfl
@[simp] theorem exec_hotReset (s : State) :
    exec (.hotReset) s = execHotReset s := rfl
@[simp] theorem exec_dlDown (s : State) :
    exec (.dlDown) s = execDlDown s := rfl
@[simp] theorem exec_pcieLinkChange (speed : Fin 6) (width : Fin 3) (flit : Bool) (s : State) :
    exec (.pcieLinkChange speed width flit) s = execPcieLinkChange speed width flit s := rfl
@[simp] theorem exec_vfEnableClear (numVfs : Option (Fin 33)) (s : State) :
    exec (.vfEnableClear numVfs) s = execVfEnableClear numVfs s := rfl
@[simp] theorem exec_hostCompletion (tag : BitVec 14) (fn : Fin 33) (status : Fin 4) (ep : Bool) (data : List Byte) (ide : IdeTlp) (s : State) :
    exec (.hostCompletion tag fn status ep data ide) s = execHostCompletion tag fn status ep data ide s := rfl
@[simp] theorem exec_completionTimeout (slot : Fin 4096) (s : State) :
    exec (.completionTimeout slot) s = execCompletionTimeout slot s := rfl
@[simp] theorem exec_msixUnmask (fn : Fin 33) (vec : Fin 2048) (s : State) :
    exec (.msixUnmask fn vec) s = execMsixUnmask fn vec s := rfl
@[simp] theorem exec_tdispMessage (vf : PartNo) (msg : TdispMsg) (s : State) :
    exec (.tdispMessage vf msg) s = execTdispMessage vf msg s := rfl
@[simp] theorem exec_spdmRequest (req : SpdmReq) (s : State) :
    exec (.spdmRequest req) s = execSpdmRequest req s := rfl
@[simp] theorem exec_reachTrained (test : PortTest) (s : State) :
    exec (.reachTrained test) s = execReachTrained test s := rfl
@[simp] theorem exec_reachTrainTimeout (port : PortNo) (s : State) :
    exec (.reachTrainTimeout port) s = execReachTrainTimeout port s := rfl
@[simp] theorem exec_hello (port : PortNo) (dev : BitVec 24) (nbPort : PortNo) (s : State) :
    exec (.hello port dev nbPort) s = execHello port dev nbPort s := rfl
@[simp] theorem exec_reachDataFrame (port : PortNo) (frame : ReachFrame) (s : State) :
    exec (.reachDataFrame port frame) s = execReachDataFrame port frame s := rfl
@[simp] theorem exec_reachIdleFrame (port : PortNo) (frame : ReachFrame) (s : State) :
    exec (.reachIdleFrame port frame) s = execReachIdleFrame port frame s := rfl
@[simp] theorem exec_reachNakFrame (port : PortNo) (frame : ReachFrame) (s : State) :
    exec (.reachNakFrame port frame) s = execReachNakFrame port frame s := rfl
@[simp] theorem exec_reachNakResend (port : PortNo) (s : State) :
    exec (.reachNakResend port) s = execReachNakResend port s := rfl
@[simp] theorem exec_reachWidthChange (port : PortNo) (set : Fin 4) (last : BitVec 16) (s : State) :
    exec (.reachWidthChange port set last) s = execReachWidthChange port set last s := rfl
@[simp] theorem exec_reachWidthAck (port : PortNo) (last : BitVec 16) (s : State) :
    exec (.reachWidthAck port last) s = execReachWidthAck port last s := rfl
@[simp] theorem exec_linkDown (port : PortNo) (s : State) :
    exec (.linkDown port) s = execLinkDown port s := rfl
@[simp] theorem exec_reachLockLoss (port : PortNo) (s : State) :
    exec (.reachLockLoss port) s = execReachLockLoss port s := rfl
@[simp] theorem exec_reachFrameTimeout (port : PortNo) (s : State) :
    exec (.reachFrameTimeout port) s = execReachFrameTimeout port s := rfl
@[simp] theorem exec_serWindowExpiry (port : PortNo) (corrected : List (BitVec 32)) (s : State) :
    exec (.serWindowExpiry port corrected) s = execSerWindowExpiry port corrected s := rfl
@[simp] theorem exec_reachForward (port : PortNo) (kind : ReachKind) (h : ReachHdr) (data : List Byte) (s : State) :
    exec (.reachForward port kind h data) s = execReachForward port kind h data s := rfl
@[simp] theorem exec_reachRequest (port : PortNo) (kind : ReachKind) (h : ReachHdr) (data : List Byte) (s : State) :
    exec (.reachRequest port kind h data) s = execReachRequest port kind h data s := rfl
@[simp] theorem exec_reachResponse (port : PortNo) (h : ReachHdr) (data : List Byte) (s : State) :
    exec (.reachResponse port h data) s = execReachResponse port h data s := rfl
@[simp] theorem exec_waitNotice (port : PortNo) (h : ReachHdr) (s : State) :
    exec (.waitNotice port h) s = execWaitNotice port h s := rfl
@[simp] theorem exec_reachTimeout (tag : BitVec 14) (s : State) :
    exec (.reachTimeout tag) s = execReachTimeout tag s := rfl
@[simp] theorem exec_presenceChange (port : PortNo) (present : Bool) (s : State) :
    exec (.presenceChange port present) s = execPresenceChange port present s := rfl
@[simp] theorem exec_attentionButton (port : PortNo) (s : State) :
    exec (.attentionButton port) s = execAttentionButton port s := rfl
@[simp] theorem exec_pwrOff (port : PortNo) (off : Bool) (s : State) :
    exec (.pwrOff port off) s = execPwrOff port off s := rfl
@[simp] theorem exec_slotIndicator (port : PortNo) (attn pwr : Fin 4) (s : State) :
    exec (.slotIndicator port attn pwr) s = execSlotIndicator port attn pwr s := rfl
@[simp] theorem exec_pennant (source : Fin 4096) (kind : BitVec 8) (aux : BitVec 12) (count : BitVec 16) (addr : BitVec 48) (noSlice : Bool) (s : State) :
    exec (.pennant source kind aux count addr noSlice) s = execPennant source kind aux count addr noSlice s := rfl
@[simp] theorem exec_faultPairAssert (pair : FaultPair) (first second : Bool) (s : State) :
    exec (.faultPairAssert pair first second) s = execFaultPairAssert pair first second s := rfl
@[simp] theorem exec_recordHandle (home : Option (List (Fin 4096))) (s : State) :
    exec (.recordHandle home) s = execRecordHandle home s := rfl
@[simp] theorem exec_collectorRestartDone (s : State) :
    exec (.collectorRestartDone) s = execCollectorRestartDone s := rfl
@[simp] theorem exec_recoveryStart (part : PartNo) (s : State) :
    exec (.recoveryStart part) s = execRecoveryStart part s := rfl
@[simp] theorem exec_bucketLeak (source : Fin 4096) (s : State) :
    exec (.bucketLeak source) s = execBucketLeak source s := rfl
@[simp] theorem exec_coreHang (pos : PosNo) (s : State) :
    exec (.coreHang pos) s = execCoreHang pos s := rfl
@[simp] theorem exec_unfenceTimeout (site : SiteNo) (phys : Fin 64) (s : State) :
    exec (.unfenceTimeout site phys) s = execUnfenceTimeout site phys s := rfl
@[simp] theorem exec_fcAck (index : Fin 8192) (s : State) :
    exec (.fcAck index) s = execFcAck index s := rfl
@[simp] theorem exec_fcAckAll (s : State) :
    exec (.fcAckAll) s = execFcAckAll s := rfl
@[simp] theorem exec_unitRestore (source : Fin 4096) (s : State) :
    exec (.unitRestore source) s = execUnitRestore source s := rfl
@[simp] theorem exec_restoreTestDone (passed : Bool) (s : State) :
    exec (.restoreTestDone passed) s = execRestoreTestDone passed s := rfl
@[simp] theorem exec_inject (source : Fin 4096) (kind : BitVec 8) (aux : BitVec 12) (count : BitVec 16) (mode1 : Bool) (s : State) :
    exec (.inject source kind aux count mode1) s = execInject source kind aux count mode1 s := rfl
@[simp] theorem exec_waveRefresh (s : State) :
    exec (.waveRefresh) s = execWaveRefresh s := rfl
@[simp] theorem exec_waveResume (s : State) :
    exec (.waveResume) s = execWaveResume s := rfl
@[simp] theorem exec_fatalAutoReset (s : State) :
    exec (.fatalAutoReset) s = execFatalAutoReset s := rfl
@[simp] theorem exec_routerPoll (answered : BitVec 32) (s : State) :
    exec (.routerPoll answered) s = execRouterPoll answered s := rfl
@[simp] theorem exec_slotGenerate (slot : Fin 4096) (s : State) :
    exec (.slotGenerate slot) s = execSlotGenerate slot s := rfl
@[simp] theorem exec_slotImport (slot : Fin 4096) (s : State) :
    exec (.slotImport slot) s = execSlotImport slot s := rfl
@[simp] theorem exec_slotClear (slot : Fin 4096) (s : State) :
    exec (.slotClear slot) s = execSlotClear slot s := rfl
@[simp] theorem exec_pkgInstall (s : State) :
    exec (.pkgInstall) s = execPkgInstall s := rfl
@[simp] theorem exec_installUnit (nth : Fin 4) (s : State) :
    exec (.installUnit nth) s = execInstallUnit nth s := rfl
@[simp] theorem exec_pkgInstallDone (nth : Fin 4) (s : State) :
    exec (.pkgInstallDone nth) s = execPkgInstallDone nth s := rfl
@[simp] theorem exec_fwStage (s : State) :
    exec (.fwStage) s = execFwStage s := rfl
@[simp] theorem exec_fwStageDone (s : State) :
    exec (.fwStageDone) s = execFwStageDone s := rfl
@[simp] theorem exec_lcTransition (target : Fin 4) (s : State) :
    exec (.lcTransition target) s = execLcTransition target s := rfl
@[simp] theorem exec_lcCommitDone (s : State) :
    exec (.lcCommitDone) s = execLcCommitDone s := rfl
@[simp] theorem exec_debugGrant (bytes : List Byte) (s : State) :
    exec (.debugGrant bytes) s = execDebugGrant bytes s := rfl
@[simp] theorem exec_debugRevoke (s : State) :
    exec (.debugRevoke) s = execDebugRevoke s := rfl
@[simp] theorem exec_debugAccess (op : DebugOp) (s : State) :
    exec (.debugAccess op) s = execDebugAccess op s := rfl
@[simp] theorem exec_powerGood (s : State) :
    exec (.powerGood) s = execPowerGood s := rfl
@[simp] theorem exec_pwrgoodFall (progress : OtpProgress) (s : State) :
    exec (.pwrgoodFall progress) s = execPwrgoodFall progress s := rfl
@[simp] theorem exec_preambleDone (s : State) :
    exec (.preambleDone) s = execPreambleDone s := rfl
@[simp] theorem exec_perstAssert (s : State) :
    exec (.perstAssert) s = execPerstAssert s := rfl
@[simp] theorem exec_perstRelease (s : State) :
    exec (.perstRelease) s = execPerstRelease s := rfl
@[simp] theorem exec_rootPllLock (s : State) :
    exec (.rootPllLock) s = execRootPllLock s := rfl
@[simp] theorem exec_coreWave (wave : Fin 4) (s : State) :
    exec (.coreWave wave) s = execCoreWave wave s := rfl
@[simp] theorem exec_coreBistDone (core : Fin 36) (passed : Bool) (s : State) :
    exec (.coreBistDone core passed) s = execCoreBistDone core passed s := rfl
@[simp] theorem exec_enrolWave (wave : Fin 4) (s : State) :
    exec (.enrolWave wave) s = execEnrolWave wave s := rfl
@[simp] theorem exec_shelfBistDone (failed : List (Fin 544)) (s : State) :
    exec (.shelfBistDone failed) s = execShelfBistDone failed s := rfl
@[simp] theorem exec_stackTrainingDone (stack : StackNo) (result : StackResult) (s : State) :
    exec (.stackTrainingDone stack result) s = execStackTrainingDone stack result s := rfl
@[simp] theorem exec_reconciliation (tests : BootTests) (s : State) :
    exec (.reconciliation tests) s = execReconciliation tests s := rfl
@[simp] theorem exec_warmReset (s : State) :
    exec (.warmReset) s = execWarmReset s := rfl
@[simp] theorem exec_warmResetDrained (s : State) :
    exec (.warmResetDrained) s = execWarmResetDrained s := rfl
@[simp] theorem exec_coldReset (s : State) :
    exec (.coldReset) s = execColdReset s := rfl
@[simp] theorem exec_coreReset (pos : PosNo) (s : State) :
    exec (.coreReset pos) s = execCoreReset pos s := rfl
@[simp] theorem exec_coreResetDone (pos : PosNo) (s : State) :
    exec (.coreResetDone pos) s = execCoreResetDone pos s := rfl
@[simp] theorem exec_defectClear (s : State) :
    exec (.defectClear) s = execDefectClear s := rfl
@[simp] theorem exec_budgetPeriod (hubW : BitVec 12) (s : State) :
    exec (.budgetPeriod hubW) s = execBudgetPeriod hubW s := rfl
@[simp] theorem exec_grantMissed (site : SiteNo) (s : State) :
    exec (.grantMissed site) s = execGrantMissed site s := rfl
@[simp] theorem exec_budgetAck (site : SiteNo) (seq : BitVec 16) (power : BitVec 12) (s : State) :
    exec (.budgetAck site seq power) s = execBudgetAck site seq power s := rfl
@[simp] theorem exec_tempReport (site : SiteNo) (temp : BitVec 8) (s : State) :
    exec (.tempReport site temp) s = execTempReport site temp s := rfl
@[simp] theorem exec_dipExpiry (site : SiteNo) (s : State) :
    exec (.dipExpiry site) s = execDipExpiry site s := rfl
@[simp] theorem exec_manualDip (sites : BitVec 16) (pct : BitVec 7) (us : BitVec 16) (s : State) :
    exec (.manualDip sites pct us) s = execManualDip sites pct us s := rfl
@[simp] theorem exec_sensorUpdate (sensor : Fin 68) (raw : BitVec 12) (s : State) :
    exec (.sensorUpdate sensor raw) s = execSensorUpdate sensor raw s := rfl
@[simp] theorem exec_halfmastRelease (site : SiteNo) (s : State) :
    exec (.halfmastRelease site) s = execHalfmastRelease site s := rfl
@[simp] theorem exec_latIsolateTimeout (site : SiteNo) (s : State) :
    exec (.latIsolateTimeout site) s = execLatIsolateTimeout site s := rfl
@[simp] theorem exec_i3cOffsetWrite (bytes : List Byte) (s : State) :
    exec (.i3cOffsetWrite bytes) s = execI3cOffsetWrite bytes s := rfl
@[simp] theorem exec_i3cRead (wide : Bool) (s : State) :
    exec (.i3cRead wide) s = execI3cRead wide s := rfl
@[simp] theorem exec_stackStopsAnswering (stack : StackNo) (pllLost : Bool) (s : State) :
    exec (.stackStopsAnswering stack pllLost) s = execStackStopsAnswering stack pllLost s := rfl
@[simp] theorem exec_adapterCrcError (site : SiteNo) (md : Fin 4) (retries : Fin 256) (s : State) :
    exec (.adapterCrcError site md retries) s = execAdapterCrcError site md retries s := rfl
@[simp] theorem exec_moduleActiveStateChange (site : SiteNo) (md : Fin 4) (active : Bool) (repaired : Fin 16) (half : Option (Fin 2)) (s : State) :
    exec (.moduleActiveStateChange site md active repaired half) s = execModuleActiveStateChange site md active repaired half s := rfl
@[simp] theorem exec_waveRefreshLapse (s : State) :
    exec (.waveRefreshLapse) s = execWaveRefreshLapse s := rfl
@[simp] theorem exec_configRequest (fn : Fin 33) (dword : Fin 1024) (op : CfgOp) (tag : BitVec 14) (s : State) :
    exec (.configRequest fn dword op tag) s = execConfigRequest fn dword op tag s := rfl

end Sys2Proof.Machine
end

