-- ==== Sys2Proof/Laws/State.lean ====
section
/-! SUPPORT. What the register file and the block's smallest updates do: a field reads what was written to it, every other
field and every other part of the state is as it was. -/

namespace Sys2Proof.Machine

/-! ### The register file -/

theorem RegFile.word_setWord (rf : RegFile) (o n p : Nat) :
    (rf.setWord o n).word p = if p = o then n % 2 ^ 64 else rf.word p := by
  unfold RegFile.setWord RegFile.word
  rw [SMap.get_put]
  split <;> simp

@[simp] theorem RegFile.word_setWord_same (rf : RegFile) (o n : Nat) : (rf.setWord o n).word o = n % 2 ^ 64 := by
  simp [RegFile.word_setWord]

@[simp] theorem RegFile.word_setWord_of_ne (rf : RegFile) {o p : Nat} (n : Nat) (h : p ≠ o) :
    (rf.setWord o n).word p = rf.word p := by simp [RegFile.word_setWord, h]

theorem RegFile.word_lt (rf : RegFile) (o : Nat) : rf.word o < 2 ^ 64 := BitVec.isLt _

/-- A field reads what was written. -/
theorem RegFile.rd_wr_same (rf : RegFile) (f : Fld) (n : Nat) (h : f.lo + f.w ≤ 64) : (rf.wr f n).rd f = n % 2 ^ f.w := by
  rw [RegFile.rd, RegFile.wr, RegFile.word_setWord_same, bits_mod_two_pow _ _ _ _ h, bits_setBits_same]

/-- A field of another register is unchanged. -/
theorem RegFile.rd_wr_of_off_ne (rf : RegFile) (f g : Fld) (n : Nat) (h : g.off ≠ f.off) : (rf.wr f n).rd g = rf.rd g := by
  rw [RegFile.rd, RegFile.wr, RegFile.word_setWord_of_ne _ _ h, RegFile.rd]

/-- A field beside the one written is unchanged. -/
theorem RegFile.rd_wr_of_disjoint (rf : RegFile) (f g : Fld) (n : Nat) (hg : g.lo + g.w ≤ 64)
    (h : g.off ≠ f.off ∨ g.lo + g.w ≤ f.lo ∨ f.lo + f.w ≤ g.lo) : (rf.wr f n).rd g = rf.rd g := by
  by_cases ho : g.off = f.off
  · rw [RegFile.rd, RegFile.wr, ho, RegFile.word_setWord_same, bits_mod_two_pow _ _ _ _ hg, bits_setBits_of_disjoint, RegFile.rd, ho]
    omega
  · exact RegFile.rd_wr_of_off_ne rf f g n ho

theorem RegFile.word_wr_of_ne (rf : RegFile) (f : Fld) (n : Nat) {o : Nat} (h : o ≠ f.off) : (rf.wr f n).word o = rf.word o := by
  simp [RegFile.wr, h]

/-! ### The block's registers -/

theorem Block.rd_wr_same (b : Block) (f : Fld) (n : Nat) (h : f.lo + f.w ≤ 64) : (b.wr f n).rd f = n % 2 ^ f.w :=
  RegFile.rd_wr_same b.regs f n h

theorem Block.rd_wr_of_off_ne (b : Block) (f g : Fld) (n : Nat) (h : g.off ≠ f.off) : (b.wr f n).rd g = b.rd g :=
  RegFile.rd_wr_of_off_ne b.regs f g n h

theorem Block.rd_wr_of_disjoint (b : Block) (f g : Fld) (n : Nat) (hg : g.lo + g.w ≤ 64)
    (h : g.off ≠ f.off ∨ g.lo + g.w ≤ f.lo ∨ f.lo + f.w ≤ g.lo) : (b.wr f n).rd g = b.rd g :=
  RegFile.rd_wr_of_disjoint b.regs f g n hg h

theorem Block.word_wr_of_ne (b : Block) (f : Fld) (n : Nat) {o : Nat} (h : o ≠ f.off) : (b.wr f n).word o = b.word o :=
  RegFile.word_wr_of_ne b.regs f n h

theorem Block.word_setWord (b : Block) (o n p : Nat) : (b.setWord o n).word p = if p = o then n % 2 ^ 64 else b.word p :=
  RegFile.word_setWord b.regs o n p

theorem Block.rd_setWord_of_ne (b : Block) (o n : Nat) (f : Fld) (h : f.off ≠ o) : (b.setWord o n).rd f = b.rd f := by
  simp only [Block.rd, RegFile.rd, Block.setWord]
  rw [RegFile.word_setWord_of_ne _ _ h]

theorem Block.is_eq (b : Block) (f : Fld) : b.is f = (b.rd f != 0) := rfl

theorem Block.count_eq (b : Block) (f : Fld) (n : Nat) : b.count f n = b.wr f (satAdd f.w (b.rd f) n) := rfl

/-! ### wr changes the registers alone -/

@[simp] theorem Block.wr_regDue (b : Block) (f : Fld) (n : Nat) : (b.wr f n).regDue = b.regDue := rfl
@[simp] theorem Block.wr_now (b : Block) (f : Fld) (n : Nat) : (b.wr f n).now = b.now := rfl
@[simp] theorem Block.wr_free (b : Block) (f : Fld) (n : Nat) : (b.wr f n).free = b.free := rfl
@[simp] theorem Block.wr_shelf (b : Block) (f : Fld) (n : Nat) : (b.wr f n).shelf = b.shelf := rfl
@[simp] theorem Block.wr_hbm (b : Block) (f : Fld) (n : Nat) : (b.wr f n).hbm = b.hbm := rfl
@[simp] theorem Block.wr_fc (b : Block) (f : Fld) (n : Nat) : (b.wr f n).fc = b.fc := rfl
@[simp] theorem Block.wr_keys (b : Block) (f : Fld) (n : Nat) : (b.wr f n).keys = b.keys := rfl
@[simp] theorem Block.wr_ext (b : Block) (f : Fld) (n : Nat) : (b.wr f n).ext = b.ext := rfl
@[simp] theorem Block.wr_coh (b : Block) (f : Fld) (n : Nat) : (b.wr f n).coh = b.coh := rfl
@[simp] theorem Block.wr_xlat (b : Block) (f : Fld) (n : Nat) : (b.wr f n).xlat = b.xlat := rfl
@[simp] theorem Block.wr_sites (b : Block) (f : Fld) (n : Nat) : (b.wr f n).sites = b.sites := rfl
@[simp] theorem Block.wr_sync (b : Block) (f : Fld) (n : Nat) : (b.wr f n).sync = b.sync := rfl
@[simp] theorem Block.wr_queues (b : Block) (f : Fld) (n : Nat) : (b.wr f n).queues = b.queues := rfl
@[simp] theorem Block.wr_slices (b : Block) (f : Fld) (n : Nat) : (b.wr f n).slices = b.slices := rfl
@[simp] theorem Block.wr_ten (b : Block) (f : Fld) (n : Nat) : (b.wr f n).ten = b.ten := rfl
@[simp] theorem Block.wr_pos (b : Block) (f : Fld) (n : Nat) : (b.wr f n).pos = b.pos := rfl
@[simp] theorem Block.wr_dn (b : Block) (f : Fld) (n : Nat) : (b.wr f n).dn = b.dn := rfl
@[simp] theorem Block.wr_sec (b : Block) (f : Fld) (n : Nat) : (b.wr f n).sec = b.sec := rfl
@[simp] theorem Block.wr_boot (b : Block) (f : Fld) (n : Nat) : (b.wr f n).boot = b.boot := rfl
@[simp] theorem Block.wr_ep (b : Block) (f : Fld) (n : Nat) : (b.wr f n).ep = b.ep := rfl
@[simp] theorem Block.wr_reach (b : Block) (f : Fld) (n : Nat) : (b.wr f n).reach = b.reach := rfl
@[simp] theorem Block.wr_pw (b : Block) (f : Fld) (n : Nat) : (b.wr f n).pw = b.pw := rfl
@[simp] theorem Block.wr_hy (b : Block) (f : Fld) (n : Nat) : (b.wr f n).hy = b.hy := rfl
@[simp] theorem Block.wr_out (b : Block) (f : Fld) (n : Nat) : (b.wr f n).out = b.out := rfl

/-! ### setWord changes the registers alone -/

@[simp] theorem Block.setWord_regDue (b : Block) (o n : Nat) : (b.setWord o n).regDue = b.regDue := rfl
@[simp] theorem Block.setWord_now (b : Block) (o n : Nat) : (b.setWord o n).now = b.now := rfl
@[simp] theorem Block.setWord_free (b : Block) (o n : Nat) : (b.setWord o n).free = b.free := rfl
@[simp] theorem Block.setWord_shelf (b : Block) (o n : Nat) : (b.setWord o n).shelf = b.shelf := rfl
@[simp] theorem Block.setWord_hbm (b : Block) (o n : Nat) : (b.setWord o n).hbm = b.hbm := rfl
@[simp] theorem Block.setWord_fc (b : Block) (o n : Nat) : (b.setWord o n).fc = b.fc := rfl
@[simp] theorem Block.setWord_keys (b : Block) (o n : Nat) : (b.setWord o n).keys = b.keys := rfl
@[simp] theorem Block.setWord_ext (b : Block) (o n : Nat) : (b.setWord o n).ext = b.ext := rfl
@[simp] theorem Block.setWord_coh (b : Block) (o n : Nat) : (b.setWord o n).coh = b.coh := rfl
@[simp] theorem Block.setWord_xlat (b : Block) (o n : Nat) : (b.setWord o n).xlat = b.xlat := rfl
@[simp] theorem Block.setWord_sites (b : Block) (o n : Nat) : (b.setWord o n).sites = b.sites := rfl
@[simp] theorem Block.setWord_sync (b : Block) (o n : Nat) : (b.setWord o n).sync = b.sync := rfl
@[simp] theorem Block.setWord_queues (b : Block) (o n : Nat) : (b.setWord o n).queues = b.queues := rfl
@[simp] theorem Block.setWord_slices (b : Block) (o n : Nat) : (b.setWord o n).slices = b.slices := rfl
@[simp] theorem Block.setWord_ten (b : Block) (o n : Nat) : (b.setWord o n).ten = b.ten := rfl
@[simp] theorem Block.setWord_pos (b : Block) (o n : Nat) : (b.setWord o n).pos = b.pos := rfl
@[simp] theorem Block.setWord_dn (b : Block) (o n : Nat) : (b.setWord o n).dn = b.dn := rfl
@[simp] theorem Block.setWord_sec (b : Block) (o n : Nat) : (b.setWord o n).sec = b.sec := rfl
@[simp] theorem Block.setWord_boot (b : Block) (o n : Nat) : (b.setWord o n).boot = b.boot := rfl
@[simp] theorem Block.setWord_ep (b : Block) (o n : Nat) : (b.setWord o n).ep = b.ep := rfl
@[simp] theorem Block.setWord_reach (b : Block) (o n : Nat) : (b.setWord o n).reach = b.reach := rfl
@[simp] theorem Block.setWord_pw (b : Block) (o n : Nat) : (b.setWord o n).pw = b.pw := rfl
@[simp] theorem Block.setWord_hy (b : Block) (o n : Nat) : (b.setWord o n).hy = b.hy := rfl
@[simp] theorem Block.setWord_out (b : Block) (o n : Nat) : (b.setWord o n).out = b.out := rfl

/-! ### count changes the registers alone -/

@[simp] theorem Block.count_regDue (b : Block) (f : Fld) (n : Nat) : (b.count f n).regDue = b.regDue := rfl
@[simp] theorem Block.count_now (b : Block) (f : Fld) (n : Nat) : (b.count f n).now = b.now := rfl
@[simp] theorem Block.count_free (b : Block) (f : Fld) (n : Nat) : (b.count f n).free = b.free := rfl
@[simp] theorem Block.count_shelf (b : Block) (f : Fld) (n : Nat) : (b.count f n).shelf = b.shelf := rfl
@[simp] theorem Block.count_hbm (b : Block) (f : Fld) (n : Nat) : (b.count f n).hbm = b.hbm := rfl
@[simp] theorem Block.count_fc (b : Block) (f : Fld) (n : Nat) : (b.count f n).fc = b.fc := rfl
@[simp] theorem Block.count_keys (b : Block) (f : Fld) (n : Nat) : (b.count f n).keys = b.keys := rfl
@[simp] theorem Block.count_ext (b : Block) (f : Fld) (n : Nat) : (b.count f n).ext = b.ext := rfl
@[simp] theorem Block.count_coh (b : Block) (f : Fld) (n : Nat) : (b.count f n).coh = b.coh := rfl
@[simp] theorem Block.count_xlat (b : Block) (f : Fld) (n : Nat) : (b.count f n).xlat = b.xlat := rfl
@[simp] theorem Block.count_sites (b : Block) (f : Fld) (n : Nat) : (b.count f n).sites = b.sites := rfl
@[simp] theorem Block.count_sync (b : Block) (f : Fld) (n : Nat) : (b.count f n).sync = b.sync := rfl
@[simp] theorem Block.count_queues (b : Block) (f : Fld) (n : Nat) : (b.count f n).queues = b.queues := rfl
@[simp] theorem Block.count_slices (b : Block) (f : Fld) (n : Nat) : (b.count f n).slices = b.slices := rfl
@[simp] theorem Block.count_ten (b : Block) (f : Fld) (n : Nat) : (b.count f n).ten = b.ten := rfl
@[simp] theorem Block.count_pos (b : Block) (f : Fld) (n : Nat) : (b.count f n).pos = b.pos := rfl
@[simp] theorem Block.count_dn (b : Block) (f : Fld) (n : Nat) : (b.count f n).dn = b.dn := rfl
@[simp] theorem Block.count_sec (b : Block) (f : Fld) (n : Nat) : (b.count f n).sec = b.sec := rfl
@[simp] theorem Block.count_boot (b : Block) (f : Fld) (n : Nat) : (b.count f n).boot = b.boot := rfl
@[simp] theorem Block.count_ep (b : Block) (f : Fld) (n : Nat) : (b.count f n).ep = b.ep := rfl
@[simp] theorem Block.count_reach (b : Block) (f : Fld) (n : Nat) : (b.count f n).reach = b.reach := rfl
@[simp] theorem Block.count_pw (b : Block) (f : Fld) (n : Nat) : (b.count f n).pw = b.pw := rfl
@[simp] theorem Block.count_hy (b : Block) (f : Fld) (n : Nat) : (b.count f n).hy = b.hy := rfl
@[simp] theorem Block.count_out (b : Block) (f : Fld) (n : Nat) : (b.count f n).out = b.out := rfl

/-! ### emit adds an output -/

@[simp] theorem Block.emit_regs (b : Block) (o : Out) : (b.emit o).regs = b.regs := rfl
@[simp] theorem Block.emit_regDue (b : Block) (o : Out) : (b.emit o).regDue = b.regDue := rfl
@[simp] theorem Block.emit_now (b : Block) (o : Out) : (b.emit o).now = b.now := rfl
@[simp] theorem Block.emit_free (b : Block) (o : Out) : (b.emit o).free = b.free := rfl
@[simp] theorem Block.emit_shelf (b : Block) (o : Out) : (b.emit o).shelf = b.shelf := rfl
@[simp] theorem Block.emit_hbm (b : Block) (o : Out) : (b.emit o).hbm = b.hbm := rfl
@[simp] theorem Block.emit_fc (b : Block) (o : Out) : (b.emit o).fc = b.fc := rfl
@[simp] theorem Block.emit_keys (b : Block) (o : Out) : (b.emit o).keys = b.keys := rfl
@[simp] theorem Block.emit_ext (b : Block) (o : Out) : (b.emit o).ext = b.ext := rfl
@[simp] theorem Block.emit_coh (b : Block) (o : Out) : (b.emit o).coh = b.coh := rfl
@[simp] theorem Block.emit_xlat (b : Block) (o : Out) : (b.emit o).xlat = b.xlat := rfl
@[simp] theorem Block.emit_sites (b : Block) (o : Out) : (b.emit o).sites = b.sites := rfl
@[simp] theorem Block.emit_sync (b : Block) (o : Out) : (b.emit o).sync = b.sync := rfl
@[simp] theorem Block.emit_queues (b : Block) (o : Out) : (b.emit o).queues = b.queues := rfl
@[simp] theorem Block.emit_slices (b : Block) (o : Out) : (b.emit o).slices = b.slices := rfl
@[simp] theorem Block.emit_ten (b : Block) (o : Out) : (b.emit o).ten = b.ten := rfl
@[simp] theorem Block.emit_pos (b : Block) (o : Out) : (b.emit o).pos = b.pos := rfl
@[simp] theorem Block.emit_dn (b : Block) (o : Out) : (b.emit o).dn = b.dn := rfl
@[simp] theorem Block.emit_sec (b : Block) (o : Out) : (b.emit o).sec = b.sec := rfl
@[simp] theorem Block.emit_boot (b : Block) (o : Out) : (b.emit o).boot = b.boot := rfl
@[simp] theorem Block.emit_ep (b : Block) (o : Out) : (b.emit o).ep = b.ep := rfl
@[simp] theorem Block.emit_reach (b : Block) (o : Out) : (b.emit o).reach = b.reach := rfl
@[simp] theorem Block.emit_pw (b : Block) (o : Out) : (b.emit o).pw = b.pw := rfl
@[simp] theorem Block.emit_hy (b : Block) (o : Out) : (b.emit o).hy = b.hy := rfl
@[simp] theorem Block.emit_out (b : Block) (o : Out) : (b.emit o).out = b.out ++ [o] := rfl
@[simp] theorem Block.emit_rd (b : Block) (o : Out) (f : Fld) : (b.emit o).rd f = b.rd f := rfl
@[simp] theorem Block.emit_word (b : Block) (o : Out) (p : Nat) : (b.emit o).word p = b.word p := rfl

/-! ### upd changes the block alone -/

@[simp] theorem State.upd_blk (s : State) (f : Block → Block) : (s.upd f).blk = f s.blk := rfl
@[simp] theorem State.upd_fuse (s : State) (f : Block → Block) : (s.upd f).fuse = s.fuse := rfl
@[simp] theorem State.upd_pending (s : State) (f : Block → Block) : (s.upd f).pending = s.pending := rfl

end Sys2Proof.Machine
end

