-- ==== Sys2Proof/Laws/Frames.lean ====
section
/-! SUPPORT. How frames compose: a write of a field that a frame names keeps the frame. -/

namespace Sys2Proof.Machine

theorem Block.FieldsKept.refl (b : Block) (fs : List Fld) : b.FieldsKept b fs := fun _ _ _ => rfl

theorem Block.FieldsKept.trans {b c d : Block} {fs : List Fld} (h : b.FieldsKept c fs) (k : c.FieldsKept d fs) :
    b.FieldsKept d fs := fun g w a => (k g w a).trans (h g w a)

theorem Block.FieldsKept.wr {b c : Block} {fs : List Fld} (h : b.FieldsKept c fs) (f : Fld) (n : Nat) (m : f ∈ fs) :
    b.FieldsKept (c.wr f n) fs := fun g w a => by
  rw [Block.rd_wr_of_disjoint c f g n w (a f m), h g w a]

theorem Block.FieldsKept.count {b c : Block} {fs : List Fld} (h : b.FieldsKept c fs) (f : Fld) (n : Nat) (m : f ∈ fs) :
    b.FieldsKept (c.count f n) fs := h.wr f _ m

/-- Registers alone decide the frame of fields. -/
theorem Block.FieldsKept.of_regs {b c d : Block} {fs : List Fld} (h : b.FieldsKept c fs) (e : d.regs = c.regs) :
    b.FieldsKept d fs := fun g w a => by
  rw [← h g w a]; simp [Block.rd, e]

theorem Block.FieldsKept.mono {b c : Block} {fs gs : List Fld} (h : b.FieldsKept c fs) (m : ∀ f ∈ fs, f ∈ gs) :
    b.FieldsKept c gs := fun g w a => h g w fun f hf => a f (m f hf)

/-- A fold that writes only named fields. -/
theorem Block.FieldsKept.foldl {α : Type} {fs : List Fld} (l : List α) (step : Block → α → Block)
    (h : ∀ (b : Block) a, a ∈ l → b.FieldsKept (step b a) fs) (b : Block) : b.FieldsKept (l.foldl step b) fs := by
  induction l generalizing b with
  | nil => exact .refl b fs
  | cons a l ih =>
    exact (h b a (by simp)).trans (ih (fun c x hx => h c x (by simp [hx])) (step b a))

/-- A fold keeps a part that each of its steps keeps. -/
theorem foldl_keeps {α β γ : Type} (p : β → γ) (l : List α) (step : β → α → β) (h : ∀ b a, p (step b a) = p b) (b : β) :
    p (l.foldl step b) = p b := by
  induction l generalizing b with
  | nil => rfl
  | cons a l ih => exact (ih (step b a)).trans (h b a)

end Sys2Proof.Machine
end

