-- ==== Sys2Proof/WellFormed.lean ====
section
/-! DEFINITION. Which commands are well formed: byte lists of the length their row's event carries. -/

namespace Sys2Proof

/-- A write or add carries as many bytes as its length. -/
def MemCmd.wf (c : MemCmd) : Bool :=
  match c.kind with
  | .read => true
  | .write d => decide (d.length = c.len1.val + 1)
  | .add _ d => decide (d.length = c.len1.val + 1)

/-- PAYLOAD is 240 bytes. -/
def SiteFrame.wf (f : SiteFrame) : Bool := decide (f.payload.length = 240)

/-- A route has 1 to 30 hops, and HOP does not pass the last. -/
def ReachHdr.wf (h : ReachHdr) : Bool := decide (1 ≤ h.hop.val) && decide (h.hop ≤ h.hops)

/-- An inbound request stays within its BAR's largest size and within one TLP. -/
def BarReq.wf (r : BarReq) : Bool :=
  match r.op with
  | .write d _ => decide (d.length ≤ 4096)
  | _ => true

/-- A command whose byte lists have the lengths the spec gives them. -/
def Instr.wf : Instr → Bool
  | .registerWrite _ _ _ _ => true
  | .bootSeal => true
  | .shelfRequest _ arrive _ => (match arrive with | some c => c.wf | none => true)
  | .shelfEccWriteback _ => true
  | .bankCopyDone _ => true
  | .shelfFill _ => true
  | .shelfFillDone => true
  | .shelfScrub _ => true
  | .hbmRead req _ => req.wf
  | .hbmWrite req => req.wf
  | .stripeGatherTimeout _ => true
  | .stripeLockGrant _ => true
  | .reorderQueueIssue _ => true
  | .hbmRefresh _ _ => true
  | .stackTemperature _ _ => true
  | .hbmRetrain _ => true
  | .hbmRetrainEnd _ _ => true
  | .rebuildStep _ _ => true
  | .hbmPatrolScrub => true
  | .doorbell _ _ _ => true
  | .consumerHeadWrite _ _ => true
  | .commandFetch _ _ => true
  | .headWriteback _ _ => true
  | .xfer _ _ => true
  | .vexec _ _ => true
  | .reduce _ _ => true
  | .collect _ _ => true
  | .dispatch _ _ => true
  | .signal _ _ => true
  | .wait _ _ => true
  | .mark _ _ => true
  | .fence _ _ => true
  | .call _ _ => true
  | .returnList _ _ => true
  | .jump _ _ => true
  | .handle _ _ => true
  | .unlistedOpcode _ _ => true
  | .commandComplete _ _ _ => true
  | .cringEntryPost _ => true
  | .cringIrqTimer _ => true
  | .queueEnable _ _ => true
  | .queueDisable _ _ => true
  | .queuePause _ _ => true
  | .queueResume _ _ => true
  | .queueRetry _ _ => true
  | .queueSkip _ _ => true
  | .syncSignal _ _ _ => true
  | .syncReset _ _ => true
  | .syncRead _ _ => true
  | .syncWaitRegister _ _ _ _ _ => true
  | .waitRelease _ => true
  | .waitTimeout _ _ => true
  | .waitPoll _ _ => true
  | .fenceComplete _ _ => true
  | .markCommit _ => true
  | .xferSlotStart _ => true
  | .xferDescRead _ _ => true
  | .xferCursorRead _ _ => true
  | .xferBlockPrepared _ _ _ _ => true
  | .xferBlockDelivered _ _ => true
  | .vexecImageLoaded _ => true
  | .vectorAccessComplete _ => true
  | .vexecTimeout _ => true
  | .forbiddenInstruction _ => true
  | .nop _ => true
  | .endKernel _ => true
  | .jmp _ => true
  | .dbnz _ => true
  | .setvl _ => true
  | .sli _ => true
  | .slih _ => true
  | .sadd _ => true
  | .ssub _ => true
  | .smul _ => true
  | .sarg _ => true
  | .rdflg _ => true
  | .setseed _ => true
  | .vld _ => true
  | .vlds _ => true
  | .vldx _ => true
  | .vst _ => true
  | .vsts _ => true
  | .vstx _ => true
  | .vstxa _ => true
  | .vseal _ => true
  | .vchk _ => true
  | .add _ => true
  | .sub _ => true
  | .mul _ => true
  | .fma _ => true
  | .fnma _ => true
  | .min _ => true
  | .max _ => true
  | .abs _ => true
  | .exp2 _ => true
  | .log2 _ => true
  | .rcp _ => true
  | .rsqrt _ => true
  | .shl _ => true
  | .shr _ => true
  | .sra _ => true
  | .cvt _ => true
  | .cmpEq _ => true
  | .cmpNe _ => true
  | .cmpLt _ => true
  | .cmpLe _ => true
  | .cmpGt _ => true
  | .cmpGe _ => true
  | .cmpUn _ => true
  | .sel _ => true
  | .mand _ => true
  | .mor _ => true
  | .mxor _ => true
  | .mnot _ => true
  | .mpopc _ => true
  | .mfirst _ => true
  | .mset _ => true
  | .neg _ => true
  | .mov _ => true
  | .perm _ => true
  | .bcastl _ => true
  | .slideup _ => true
  | .slidedn _ => true
  | .compress _ => true
  | .expand _ => true
  | .bcastx _ => true
  | .xfromv _ => true
  | .rclr _ => true
  | .rnorm _ => true
  | .rsum _ => true
  | .rtopk _ => true
  | .rmerge _ => true
  | .rgetn _ => true
  | .rgets _ => true
  | .rgetq _ => true
  | .rgetk _ => true
  | .rfact _ => true
  | .rsetn _ => true
  | .reduceChunk _ => true
  | .collectWaitSatisfied _ _ => true
  | .collectTimeout _ _ => true
  | .siteTrained _ _ _ _ => true
  | .siteTrainTimeout _ => true
  | .dataFrame _ frame _ => frame.wf
  | .idleFrame _ frame => frame.wf
  | .nakFrame _ frame => frame.wf
  | .ackTimer _ => true
  | .nakResend _ => true
  | .moduleReturnTimeout _ _ => true
  | .linkHello _ => true
  | .heartbeat _ => true
  | .widthPropose _ _ _ _ => true
  | .widthAgree _ _ _ => true
  | .widthAck _ _ => true
  | .resetNote _ => true
  | .errNote _ _ _ _ => true
  | .coreFail _ _ => true
  | .protoNote _ _ _ => true
  | .sidebandInvalid _ => true
  | .heartbeatSend _ => true
  | .heartbeatTimeout _ => true
  | .sidebandResend _ => true
  | .reconTimeout _ => true
  | .clockLoss _ _ => true
  | .siteReset _ => true
  | .siteResetRelease _ => true
  | .siteRetrain _ => true
  | .clkHold _ _ => true
  | .rd _ _ => true
  | .wr _ h data => decide (data.length = (h.len.toNat + 16) / 16 * 16)
  | .wrBlock _ _ data => decide (data.length = 4112)
  | .swpAdd _ h data => decide (data.length = (h.len.toNat + 16) / 16 * 16)
  | .rdBlock _ _ => true
  | .syncWait _ _ _ => true
  | .siteWaitTimeout _ _ => true
  | .burgee _ data => decide (data.length = 256)
  | .enrolTimeout _ => true
  | .rdData _ h data => decide (data.length = (h.len.toNat + 16) / 16 * 16)
  | .resp _ _ => true
  | .done _ _ _ => true
  | .credit _ _ _ _ => true
  | .unlistedPacket _ _ _ _ => true
  | .dispatchTimeout _ _ => true
  | .cancelTimeout _ _ => true
  | .windowReqTimeout _ _ => true
  | .cRdS _ _ _ => true
  | .cRdO _ _ _ => true
  | .cUpg _ _ _ => true
  | .cWb _ _ data => decide (data.length = 64)
  | .cEvict _ _ => true
  | .snpAck _ _ => true
  | .snpData _ _ data => decide (data.length = 64)
  | .snoopTimeout _ _ => true
  | .holdWindowEnd _ => true
  | .reservationExpiry _ => true
  | .reclaimStep => true
  | .atsCompletion _ _ _ _ _ _ _ _ => true
  | .atsTimeout _ => true
  | .prgSend => true
  | .prgResponse _ _ _ => true
  | .prgTimeout _ _ => true
  | .invalidateRequest _ _ _ _ _ _ => true
  | .invalidationComplete _ _ => true
  | .accDecay => true
  | .accClear => true
  | .tlbFlush => true
  | .cringWriteRetry _ => true
  | .requestRingDoorbell _ _ => true
  | .requestSubmit _ => true
  | .requestCancel _ => true
  | .stepBoundary _ => true
  | .sampleToken _ _ _ cands => decide (cands.length ≤ 64)
  | .tokenRingRoom _ => true
  | .tokenIrqTimer _ => true
  | .planLoad _ _ => true
  | .planUnload _ _ => true
  | .fwActivate => true
  | .fwSelfCheckTimeout => true
  | .denobRestartDone => true
  | .serveEnable _ => true
  | .serveDisable _ => true
  | .openSlice _ => true
  | .resetSlice _ => true
  | .sliceResetComplete _ => true
  | .freeze _ => true
  | .freezeDrainComplete _ => true
  | .freezeWaitTimeout _ => true
  | .thaw _ => true
  | .release _ => true
  | .releaseDone _ => true
  | .save _ => true
  | .saveDone _ => true
  | .restore _ => true
  | .restoreDone _ => true
  | .partitionReset _ => true
  | .partitionResetDone _ => true
  | .reform => true
  | .reformDone => true
  | .mbxMessageSend _ _ => true
  | .mbxAck _ => true
  | .mbxSend _ => true
  | .mbxInClear _ => true
  | .halyardInject _ _ => true
  | .domainWake _ => true
  | .wakeTimeout _ => true
  | .idleGate _ => true
  | .hyReqTimeout _ _ => true
  | .snap => true
  | .bar0Access req => req.wf
  | .bar2Access req => req.wf
  | .bar4Access req => req.wf
  | .busMasterEnableClear _ => true
  | .busMasterEnableSet _ => true
  | .memorySpaceEnableClear _ => true
  | .d3hotEntry => true
  | .d3hotExit => true
  | .vfFlr _ => true
  | .pfFlr => true
  | .hotReset => true
  | .dlDown => true
  | .pcieLinkChange _ _ _ => true
  | .vfEnableClear _ => true
  | .hostCompletion _ _ _ _ data _ => decide (data.length ≤ 4096)
  | .completionTimeout _ => true
  | .msixUnmask fn vec => (decide (fn.val = 0) || decide (vec.val < 128))
  | .tdispMessage _ _ => true
  | .spdmRequest _ => true
  | .reachTrained _ => true
  | .reachTrainTimeout _ => true
  | .hello _ _ _ => true
  | .reachDataFrame _ frame => decide (frame.payload.length = 624)
  | .reachIdleFrame _ frame => decide (frame.payload.length = 624)
  | .reachNakFrame _ frame => decide (frame.payload.length = 624)
  | .reachNakResend _ => true
  | .reachWidthChange _ _ _ => true
  | .reachWidthAck _ _ => true
  | .linkDown _ => true
  | .reachLockLoss _ => true
  | .reachFrameTimeout _ => true
  | .serWindowExpiry _ corrected => decide (corrected.length = 8)
  | .reachForward _ _ h data => h.wf && decide (data.length ≤ 256)
  | .reachRequest _ _ h data => h.wf && decide (data.length ≤ 256)
  | .reachResponse _ h data => h.wf && decide (data.length ≤ 256)
  | .waitNotice _ h => h.wf
  | .reachTimeout _ => true
  | .presenceChange _ _ => true
  | .attentionButton _ => true
  | .pwrOff _ _ => true
  | .slotIndicator _ _ _ => true
  | .pennant _ _ _ count _ _ => decide (count ≠ 0)
  | .faultPairAssert _ _ _ => true
  | .recordHandle _ => true
  | .collectorRestartDone => true
  | .recoveryStart _ => true
  | .bucketLeak _ => true
  | .coreHang _ => true
  | .unfenceTimeout _ _ => true
  | .fcAck _ => true
  | .fcAckAll => true
  | .unitRestore _ => true
  | .restoreTestDone _ => true
  | .inject _ _ _ _ _ => true
  | .waveRefresh => true
  | .waveResume => true
  | .fatalAutoReset => true
  | .routerPoll _ => true
  | .slotGenerate _ => true
  | .slotImport _ => true
  | .slotClear _ => true
  | .pkgInstall => true
  | .installUnit _ => true
  | .pkgInstallDone _ => true
  | .fwStage => true
  | .fwStageDone => true
  | .lcTransition _ => true
  | .lcCommitDone => true
  | .debugGrant bytes => decide (bytes.length = 256)
  | .debugRevoke => true
  | .debugAccess _ => true
  | .powerGood => true
  | .pwrgoodFall _ => true
  | .preambleDone => true
  | .perstAssert => true
  | .perstRelease => true
  | .rootPllLock => true
  | .coreWave _ => true
  | .coreBistDone _ _ => true
  | .enrolWave _ => true
  | .shelfBistDone _ => true
  | .stackTrainingDone _ _ => true
  | .reconciliation _ => true
  | .warmReset => true
  | .warmResetDrained => true
  | .coldReset => true
  | .coreReset _ => true
  | .coreResetDone _ => true
  | .defectClear => true
  | .budgetPeriod _ => true
  | .grantMissed _ => true
  | .budgetAck _ _ _ => true
  | .tempReport _ _ => true
  | .dipExpiry _ => true
  | .manualDip _ _ _ => true
  | .sensorUpdate _ _ => true
  | .halfmastRelease _ => true
  | .latIsolateTimeout _ => true
  | .i3cOffsetWrite _ => true
  | .i3cRead _ => true
  | .stackStopsAnswering _ _ => true
  | .adapterCrcError _ _ _ => true
  | .moduleActiveStateChange _ _ _ _ _ => true
  | .waveRefreshLapse => true
  | .configRequest _ _ _ _ => true

end Sys2Proof
end

