-- ==== Sys2Proof/Tests/Slice0.lean ====
section
/-! SUPPORT. The model's own tests: states that meet the hypotheses of the statements, steps of single commands, and
commands that the well-formedness check refuses. -/

set_option Elab.async false

namespace Sys2Proof.Machine

/-- `s` with register fields replaced. -/
def Lab.set (s : State) (l : List (Fld × Nat)) : State := s.upd fun b => l.foldl (fun b e => b.wr e.1 e.2) b

/-- A firewall window of slice `n` over all memory. -/
def Lab.window (n : Nat) : List (Fld × Nat) :=
  [(Reg.SL_FW_WIN00.BASE n 0, 0), (Reg.SL_FW_WIN08.SIZE n 0, 0xFFFFFFF), (Reg.SL_FW_WIN08.VALID n 0, 1), (Reg.SL_FW_WIN08.R n 0, 1),
    (Reg.SL_FW_WIN08.W n 0, 1), (Reg.SL_FW_WIN08.A n 0, 1)]

/-- A hub in service: an image whose partition 0 holds everything, cores 0 and 1 at their positions, slices 0 and 5 open; one 2 MiB unprotected HBM region under key slot 1, one protected one after it, every channel in service. -/
def Lab.base : State :=
  let s := Lab.set State.reset (Lab.window 0 ++ Lab.window 5 ++
    [(Reg.MH_STATUS.READY, 1), (Reg.SL_QUOTA.XFER_SLOTS 5, 8), (Reg.MH_PART_FORM.FORMED 0, 1), (Reg.SL_STATUS.STATE 0, 1), (Reg.SL_STATUS.STATE 5, 1),
     (Reg.MH_CORE_MAP.VALID 0, 1), (Reg.MH_CORE_MAP.PHYS 0, 0), (Reg.MH_CORE_MAP.VALID 1, 1), (Reg.MH_CORE_MAP.PHYS 1, 1)] ++
    ((List.range 8).flatMap fun st => [(Reg.HM_CHMAP.STATE st 0, 1), (Reg.HM_CHMAP.PSTACK st 0, st), (Reg.HM_CHMAP.STATE st 1, 1),
      (Reg.HM_CHMAP.PSTACK st 1, st), (Reg.HM_CHMAP.PCH st 1, 1)]) ++
    [(Reg.HM_FE_SPACE.DLA_CAP_MIB, 4), (Reg.HM_FE_SPACE.LINE_SPACE_MIB, 1024), (Reg.HM_FE_CFG.HEIGHT, 3),
     (Reg.HM_REGION00.VALID 0, 1), (Reg.HM_REGION00.DLA_BASE 0, 0), (Reg.HM_REGION00.DLA_SIZE 0, 1), (Reg.HM_REGION00.KEY_MODE 0, 1),
     (Reg.HM_REGION00.KEY_SLOT 0, 1), (Reg.HM_REGION08.DATA_X_BASE 0, 0), (Reg.HM_REGION10.SEAL_X_BASE 0, 0x8000),
     (Reg.HM_REGION00.VALID 1, 1), (Reg.HM_REGION00.DLA_BASE 1, 1), (Reg.HM_REGION00.DLA_SIZE 1, 1), (Reg.HM_REGION00.KEY_MODE 1, 1),
     (Reg.HM_REGION00.PROTECTED 1, 1), (Reg.HM_REGION00.KEY_SLOT 1, 1), (Reg.HM_REGION08.DATA_X_BASE 1, 0x10000),
     (Reg.HM_REGION10.SEAL_X_BASE 1, 0x18000)])
  s.upd fun b => { b with boot := { b.boot with slot := some 0 }, keys := { b.keys with slot := SMap.put (fun _ => none) b.keys.slot 1 (some 7) } }

/-! ### Witnesses: states that meet the hypotheses of the statements -/

def Lab.sealed : State := Lab.set State.reset [(Reg.MH_BOOT_SEAL.SEAL, 1)]

theorem witness_BootSeal : Lab.sealed.blk.is Reg.MH_BOOT_SEAL.SEAL = true ∧
    State.reset.blk.is Reg.MH_BOOT_SEAL.SEAL = false ∧ State.reset.blk.boot.slot = none := by decide +kernel

theorem witness_RegisterWrite : State.reset.blk.is Reg.MH_BOOT_SEAL.SEAL = false := by decide +kernel

/-- A request of the manager under slice 5's firewall. -/
def Lab.req (a : Nat) (len : Fin 256) (k : MemKind) : MemCmd := ⟨.manager, some 5, 1, 0, 5, BitVec.ofNat 48 a, len, k⟩

/-- Bank 0 holds a read, or a write, of the shelf's first beat. -/
def Lab.bank (k : MemKind) : State := State.reset.upd fun b =>
  { b with shelf := { b.shelf with bankQ := [(0, [⟨MemReq.of (Lab.req 8 7 k), 0, [], 0⟩])] } }

theorem witness_ShelfBeat_read :
    (Lab.bank .read).blk.bankQueue 0 = [⟨MemReq.of (Lab.req 8 7 .read), 0, [], 0⟩] ∧ 0 < (MemReq.of (Lab.req 8 7 .read)).len ∧
    8 % 64 + 8 ≤ 64 ∧ (Lab.bank .read).blk.groupStruck (Shelf.group 8) = false ∧
    ∀ wa ∈ wordsOf 8 8, NSet.has (Lab.bank .read).blk.shelf.poison wa = false ∧
      SMap.get (fun _ => 0) (Lab.bank .read).blk.shelf.upset wa = 0 := by decide +kernel

theorem witness_ShelfBeat_write :
    (Lab.bank (.write [1])).blk.bankQueue 0 = [⟨MemReq.of (Lab.req 8 7 (.write [1])), 0, [], 0⟩] ∧
    (MemReq.of (Lab.req 8 7 (.write [1]))).op = .write [1, 0, 0, 0, 0, 0, 0, 0] ∧
    (Lab.bank (.write [1])).blk.groupStruck (Shelf.group 8) = false ∧
    ∀ wa ∈ wordsOf 8 8, NSet.has (Lab.bank (.write [1])).blk.shelf.poison wa = false ∧
      SMap.get (fun _ => 0) (Lab.bank (.write [1])).blk.shelf.upset wa = 0 := by decide +kernel

/-- A fill of the last block under way; a word of bank 0 to be written back; a copy of bank 1; scrubbing on. -/
def Lab.shelf : State := (Lab.set State.reset [(Reg.SH_FILL_CTRL.BUSY, 1), (Reg.SH_CFG.SCRUB_EN, 1)]).upd fun b =>
  { b with shelf := { b.shelf with fill := some ⟨131071, 1⟩, writeBack := [0], upset := [(0, 1)], copies := [⟨1, 1, 16, 5⟩] } }

theorem witness_ShelfFill : Lab.shelf.blk.is Reg.SH_FILL_CTRL.BUSY = true ∧ State.reset.blk.is Reg.SH_FILL_CTRL.BUSY = false ∧
    Lab.shelf.blk.shelf.fill = some ⟨131071, 1⟩ ∧ 131071 + 1 ≤ 131072 := by decide +kernel

theorem witness_ShelfUpkeep :
    (Lab.shelf.blk.shelf.writeBack.find? fun w => decide (Shelf.lbank w = 0)) = some 0 ∧ Lab.shelf.blk.bankQueue 0 = [] ∧
    (Lab.shelf.blk.shelf.copies.find? fun c => decide (c.lbank = 1)) = some ⟨1, 1, 16, 5⟩ ∧
    Lab.shelf.blk.is Reg.SH_CFG.SCRUB_EN = true ∧ Lab.shelf.blk.groupStruck (0 / 16) = false := by decide +kernel

theorem witness_TagPlaces : Hbm.pc 3 = Hbm.pc 4161 ∧ 4161 < Lab.base.blk.hbmLines := by decide +kernel

theorem witness_HbmRead :
    let r : MemReq := { MemReq.of (Lab.req 0x8000000110 15 .read) with op := .read }
    let b := Lab.base.blk
    r.whole = true ∧ b.checkReq r.who r.addr .r = (b, none) ∧ b.cohWin r.addr = none ∧ b.hbm.disabled = false ∧
    b.range r.addr = .hbm 0x110 ∧ b.hbmWhere 0x110 = some (b.region 0, 0x110) ∧ (b.region 0).prot = false ∧
    b.regionKey (b.region 0) r.who.slice = some 7 ∧ b.readable (Hbm.place b.hbmNd 0x100) = true ∧
    (SMap.get (fun _ => HbmErr.mk 0 0) b.hbm.err (b.chPhys (Hbm.place b.hbmNd 0x100))).times = 0 ∧
    b.hbm.dram = [] ∧ b.stillOwed ⟨r, Code.SUCCESS, zeros 16⟩ = false ∧ (b.pc (b.pcOf 0x100).1).q = [] ∧
    Hbm.gran 1 0 0 = b.chPhys (Hbm.place b.hbmNd 0x100) ∧
    (b.granStored (Hbm.place b.hbmNd 0x100)).tag = 0 := by decide +kernel

/-- The same hub with its first channels lost. -/
def Lab.lost : State := Lab.set Lab.base ((List.range 8).map fun i => (Reg.HM_CHMAP.STATE i 0, 3))

theorem witness_HbmWrite :
    let r := MemReq.of (Lab.req 0x8000000110 15 (.write [1]))
    let b := Lab.lost.blk
    r.whole = true ∧ r.op ≠ .read ∧ b.checkReq r.who r.addr r.op.right = (b, none) ∧ b.cohWin r.addr = none ∧
    b.range r.addr = .hbm 0x110 ∧ b.hbmWhere 0x110 = some (b.region 0, 0x110) ∧ (b.region 0).prot = false ∧
    b.hbm.disabled = false ∧ b.regionKey (b.region 0) r.who.slice = some 7 ∧ r.len < 256 ∧ b.hbm.dram = [] ∧
    b.stillOwed ⟨r, Code.HBM_NO_BACKING, []⟩ = false ∧ b.chState (Hbm.place b.hbmNd 0x100) = 3 := by decide +kernel

theorem witness_HbmWrite_whole :
    let b := Lab.base.blk
    let p := Hbm.place b.hbmNd 0x100
    let xs := (b.region 0).sealSlotX 0 / 256 * 256
    let ps := Hbm.place b.hbmNd xs
    b.hbmWhere 0x100 = some (b.region 0, 0x100) ∧ b.chState p = 1 ∧ b.chState ps = 1 ∧ b.chPhys ps ≠ b.chPhys p ∧ (b.granStored ps).tag = 0 ∧
    b.hbm.err = [] ∧ b.hbm.pcs = [] := by decide +kernel

theorem witness_HbmSealedOpens : (zeros 256).length = 256 := by decide +kernel

/-- A stripe whose lock a write waits for, one that gathers a write, an access queued, a training under way, and a rebuild. -/
def Lab.queues : State := Lab.base.upd fun b => { b with hbm := { b.hbm with
  stripes := [(0x2001, ⟨[], 0, [MemReq.of (Lab.req 0x8000200700 255 (.write []))]⟩), (0x2002, ⟨[MemReq.of (Lab.req 0x8000200E00 255 (.write []))], 0, []⟩)]
  pcs := [(0, { PseudoChannel.idle with q := [⟨0, false, 0, 0, [], none⟩] }), (2, { PseudoChannel.idle with training := true })]
  rebuilds := [⟨1, 0, 1, 31, 4, true, false, 8, 48, false, 0⟩] } }

theorem witness_StripeLocks :
    let b := Lab.queues.blk
    let r := MemReq.of (Lab.req 0x8000200700 255 (.write []))
    (b.stripe 0x2001).waiters = [r] ∧ b.stripeBusy 0x2001 = false ∧ (b.stripe 0x2001).held = [] ∧ b.hbm.dram = [] ∧
    b.hbmWhere (r.addr - 0x8000000000) = some (b.region 1, 0x2001 * 2048 + 0x100) ∧ (b.region 1).prot = true ∧ b.hbm.disabled = false ∧
    b.regionKey (b.region 1) r.who.slice = some 7 ∧ r.op = .write (zeros 256) ∧ r.len = 256 ∧
    (b.stripe 0x2002).held = [MemReq.of (Lab.req 0x8000200E00 255 (.write []))] ∧ (b.stripe 4).waiters = [] := by decide +kernel

theorem witness_ReorderQueues :
    let c := Lab.queues.blk.pc 0
    let c' := { c with draining := c.drains (Lab.queues.blk.rd (Reg.HM_RQ_CFG.WR_LOW 0)) (Lab.queues.blk.rd (Reg.HM_RQ_CFG.WR_HIGH 0)) }
    c.training = false ∧ c'.choose Lab.queues.blk.now (Lab.queues.blk.rd (Reg.HM_RQ_CFG.AGE_LIMIT 0)) = some 0 ∧
    c.q[0]? = some ⟨0, false, 0, 0, [], none⟩ ∧ c.q.length ≤ 64 ∧ c.refreshing = [] ∧ c.choose 0 0 = some 0 := by decide +kernel

theorem witness_HbmUpkeep :
    (Lab.queues.blk.pc 0).training = false ∧ (Lab.queues.blk.pc 2).training = true ∧
    (Lab.queues.blk.hbm.pcs.any fun e => decide (e.1 / 64 = 511 / 64) && e.2.training) = false ∧
    NSet.has Lab.queues.blk.hbm.struckCh (511 / 2) = false := by decide +kernel

theorem witness_HbmRepair :
    let b := Lab.queues.blk
    let m := 4 * b.hbmNd
    b.hbm.rebuilds = [⟨1, 0, 1, 31, 4, true, false, 8, 48, false, 0⟩] ∧ b.stripe m = Stripe.idle ∧ b.stripeBusy m = false ∧ 4 + 1 < b.hbmLines ∧
    b.fc.opened = [] ∧ b.is Reg.HM_FE_SCRUB.EN = true := by decide +kernel

/-- Slice 5's queue `c` runs, with the commands of `l` fetched. -/
def Lab.q (c : Nat) (l : List FCmd) : State := (Lab.set Lab.base [(Reg.SL_Q_STATUS.STATE 5 c, Q.RUNNING),
  (Reg.SL_Q_CTRL.ENABLE 5 c, 1), (Reg.SL_Q_CFG.DEF_ENSIGN 5 c, 1), (Reg.SL_Q_CFG.HOME 5 c, 1)]).upd fun b =>
  b.setQ 5 c { QueueState.reset with fetched := l, nextId := 9 }

/-- A command of opcode `op` for position 1, with words W2 … of `ws`. -/
def Lab.cmd (op : Nat) (ws : List Nat) : FCmd := ⟨(op + 2 ^ 12) :: 0 :: ws, 3, 0, 0⟩

/-- The same queue inside a list of eight commands. -/
def Lab.listed (l : List FCmd) : State := (Lab.q 0 l).upd fun b =>
  b.modQ 5 0 fun q => { q with stack := [⟨0x40000, 8, 2, 1, [Lab.cmd 0x12 []]⟩] }

theorem witness_Doorbell :
    let b := Lab.base.blk
    let n := b.rd (Reg.SL_Q_CFG.LOG2_SIZE 5 0)
    b.sliceState 5 = Slice.OPEN ∧ b.rd (Reg.SL_Q_HEAD.INDEX 5 0) < 2 ^ (n + 1) ∧ b.rd (Reg.SL_Q_TAIL.INDEX 5 0) < 2 ^ (n + 1) ∧
    2 ^ n ≤ 2 ^ n ∧ ¬ 2 ^ n + 1 ≤ 2 ^ n := by decide +kernel

theorem witness_ConsumerHead : State.reset.blk.rd Reg.FC_LOG_TAIL.INDEX = 0 ∧ State.reset.blk.rd Reg.FC_LOG_HEAD.INDEX = 0 ∧
    (0 + 8192 - 0) % 8192 ≤ (0 + 8192 - 0) % 8192 ∧ (0 + 8192 - 0) % 8192 < (1 + 8192 - 0) % 8192 := by decide +kernel

/-- Slice 5's queue 1 runs without fetching ahead; its ring lies at 0x40000 and holds one command. -/
def Lab.ring : State := Lab.set (Lab.q 1 []) [(Reg.SL_Q_BASE.BASE 5 1, 0x40000), (Reg.SL_Q_TAIL.INDEX 5 1, 1),
  (Reg.SL_Q_HEAD_WB.PTR 5 1, 0x50000), (Reg.SL_Q_CFG.FETCH_AHEAD 5 1, 0), (Reg.SL_MARK_CFG.QMASK 5, 0)]

theorem witness_CommandFetch :
    let b := Lab.ring.blk
    b.ext.need = [] ∧ b.mayFetch 5 1 = true ∧ b.mayFetch 6 1 = false ∧ (b.q 5 1).stack = [] ∧
    b.is (Reg.SL_Q_CFG.FETCH_AHEAD 5 1) = false ∧ b.rd (Reg.SL_Q_HEAD.INDEX 5 1) = 0 ∧ b.rd (Reg.SL_Q_TAIL.INDEX 5 1) = 1 ∧
    Ptr.check 0x40000 = none ∧ b.ptrRead (b.qWho 5 1) 0x40000 64 = (b, Code.SUCCESS, zeros 64) ∧
    (b.rd (Reg.SL_MARK_CFG.QMASK 5)).testBit 1 = false := by decide +kernel

theorem witness_CommandFetch_writeback :
    let b := Lab.ring.blk
    b.rd (Reg.SL_Q_HEAD_WB.PTR 5 1) = 0x50000 ∧ b.rd (Reg.SL_Q_HEAD_WB.PTR 5 0) = 0 ∧ b.qState 5 1 ≠ Q.DISABLED ∧
    Ptr.check 0x50000 = none ∧ Ptr.tag 0x50000 = 0 ∧
    (b.ptrWrite (b.qWho 5 1) false false 0x50000 (natLE 8 0)).1.ext.need = [] := by decide +kernel

theorem witness_QueueControl : (Lab.q 0 []).blk.is (Reg.SL_Q_CTRL.ENABLE 5 0) = true ∧
    (Lab.q 0 []).blk.is (Reg.SL_Q_CTRL.ENABLE 5 1) = false ∧ ((Lab.q 0 []).blk.q 5 0).inflight = [] := by decide +kernel

/-- Queue 0 of slice 5 is in ERROR for `f`. -/
def Lab.failed (f : QFail) : State := (Lab.set (Lab.q 0 []) [(Reg.SL_Q_STATUS.STATE 5 0, Q.ERROR)]).upd fun b =>
  b.modQ 5 0 fun q => { q with fail := some f }

theorem witness_QueueRecovers :
    (Lab.failed (.cmd (Lab.cmd 0x13 []))).blk.qState 5 0 = Q.ERROR ∧
    ((Lab.failed (.cmd (Lab.cmd 0x13 []))).blk.q 5 0).stopping = false ∧
    ((Lab.failed (.cmd (Lab.cmd 0x13 []))).blk.q 5 0).fail = some (.cmd (Lab.cmd 0x13 [])) ∧
    ((Lab.failed (.cmd (Lab.cmd 0x13 []))).blk.q 5 0).replay = [] ∧
    ((Lab.failed .none).blk.q 5 0).fail = some .none := by decide +kernel

theorem witness_ControlCommands_fence : (Lab.q 0 [Lab.cmd 0x13 [2]]).blk.Ready 5 0 (Lab.cmd 0x13 [2]) 0x13 ∧
    bits ((Lab.cmd 0x13 [2]).w 2) 0 2 < 3 := by unfold Block.Ready; decide +kernel

theorem witness_ControlCommands_mark : (Lab.q 0 [Lab.cmd 0x12 [7, 131071 + 2 ^ 17]]).blk.Ready 5 0 (Lab.cmd 0x12 [7, 131071 + 2 ^ 17]) 0x12 ∧
    bits ((Lab.cmd 0x12 [7, 131071 + 2 ^ 17]).w 3) 17 9 ≤ 256 ∧
    bits ((Lab.cmd 0x12 [7, 131071 + 2 ^ 17]).w 3) 0 17 + bits ((Lab.cmd 0x12 [7, 131071 + 2 ^ 17]).w 3) 17 9 ≤ 131072 ∧
    ((Lab.q 0 []).blk.slice 5).reached = [] ∧ ((Lab.set (Lab.q 0 []) [(Reg.SL_MARK_CFG.QMASK 5, 0)]).blk.rd (Reg.SL_MARK_CFG.QMASK 5)).testBit 0 = false ∧
    ((Lab.set (Lab.q 0 []) [(Reg.SL_MARK_CFG.QMASK 5, 1)]).blk.rd (Reg.SL_MARK_CFG.QMASK 5)).testBit 0 = true := by
  unfold Block.Ready; decide +kernel

theorem witness_ControlCommands_call : (Lab.q 0 [Lab.cmd 0x20 [0x60000, 1]]).blk.Ready 5 0 (Lab.cmd 0x20 [0x60000, 1]) 0x20 ∧
    Ptr.check 0x60000 = none ∧ Ptr.tag 0x60000 < 2 ∧ 0x60000 % 64 = 0 ∧ 1 ≤ bits 1 0 16 := by unfold Block.Ready; decide +kernel

theorem witness_ControlCommands_list :
    (Lab.listed [Lab.cmd 0x21 []]).blk.Ready 5 0 (Lab.cmd 0x21 []) 0x21 ∧
    (Lab.listed [Lab.cmd 0x22 [7]]).blk.Ready 5 0 (Lab.cmd 0x22 [7]) 0x22 ∧ bits ((Lab.cmd 0x22 [7]).w 3) 0 2 = 0 ∧
    ((Lab.listed []).blk.q 5 0).stack = [⟨0x40000, 8, 2, 1, [Lab.cmd 0x12 []]⟩] ∧ bits ((Lab.cmd 0x22 [7]).w 2) 0 16 < 8 := by
  unfold Block.Ready; decide +kernel

/-- HANDLE waits for handle 4 of slice 5. -/
def Lab.handle (done : Option Nat) : State := (Lab.q 0 [Lab.cmd 0x23 [5 * 2 ^ 20 + 4]]).upd fun b =>
  b.modSlice 5 fun v => { v with handles := [⟨4, [], done⟩] }

theorem witness_ControlCommands_handle :
    (Lab.handle none).blk.Ready 5 0 (Lab.cmd 0x23 [5 * 2 ^ 20 + 4]) 0x23 ∧ bit ((Lab.cmd 0x23 [5 * 2 ^ 20 + 4]).w 2) 32 = false ∧
    bits ((Lab.cmd 0x23 [5 * 2 ^ 20 + 4]).w 2) 20 12 = 5 ∧
    bits ((Lab.cmd 0x23 [5 * 2 ^ 20 + 4]).w 2) 16 4 = (Lab.handle none).blk.gen 5 % 16 ∧
    ((Lab.handle none).blk.slice 5).handles.find? (fun x => x.seq = bits ((Lab.cmd 0x23 [5 * 2 ^ 20 + 4]).w 2) 0 16) =
      some ⟨4, [], none⟩ := by unfold Block.Ready; decide +kernel

/-- An unlisted opcode waits, and the completion ring of slice 5 has no room. -/
def Lab.unlisted : State := Lab.set (Lab.q 0 [Lab.cmd 0x30 []])
  [(Reg.SL_CRING_TAIL.INDEX 5, 2 ^ Lab.base.blk.rd (Reg.SL_CRING_CFG.LOG2_SIZE 5))]

theorem witness_ControlCommands_unlisted : Lab.unlisted.blk.Ready 5 0 (Lab.cmd 0x30 []) 0x30 ∧ Hoist.listed 0x30 = false ∧
    Lab.unlisted.blk.cringFull 5 = true ∧ (Lab.unlisted.blk.slice 5).entries = [] := by unfold Block.Ready; decide +kernel

/-- The manager, at a sync object's home. -/
def Lab.sender : SyncFrom := ⟨.manager, none, 1, 5⟩

theorem witness_SyncOperations : NSet.has State.reset.blk.sync.lostHomes (Sync.homeOf 131071) = false ∧
    1 ≤ (0xFFFFFFFF#32).toNat := by decide +kernel

/-- Home 0 is lost; object 4096 of home 1 has a polling wait, and home 2 a satisfied WAIT of queue 0 of slice 5. -/
def Lab.waits : State := (Lab.q 0 []).upd fun b =>
  (b.modQ 5 0 fun q => { q with block := some (.wait 8), inflight := [⟨8, Lab.cmd 0x11 [0x40010000, 5, 100], 0, 1, none, false, false⟩] }).setSync
    4096 7 |> fun b => { b with sync := { b.sync with
      lostHomes := [0]
      waits := [(1, [⟨4096, 7, .site 3 2 0 0, 0, 0, true, false⟩]), (2, [⟨8192, 5, .queue 20 8, 0, 100, false, true⟩])] } }

theorem witness_SyncLostHome : NSet.has Lab.waits.blk.sync.lostHomes (Sync.homeOf 0) = true ∧ 1 ≤ (1#32).toNat := by
  decide +kernel

theorem witness_SyncWaits :
    let b := Lab.waits.blk
    NSet.has b.sync.lostHomes (Sync.homeOf 4096) = false ∧
    (b.waitsAt 1)[0]? = some ⟨4096, 7, .site 3 2 0 0, 0, 0, true, false⟩ ∧ 7 ≤ b.syncVal 4096 ∧ b.ext.need = [] ∧
    b.waitsAt 2 = [⟨8192, 5, .queue 20 8, 0, 100, false, true⟩] ∧
    (b.q 5 0).inflight = [⟨8, Lab.cmd 0x11 [0x40010000, 5, 100], 0, 1, none, false, false⟩] ∧
    (Lab.cmd 0x11 [0x40010000, 5, 100]).sigAmt = 0 ∧ (Lab.cmd 0x11 [0x40010000, 5, 100]).cpl = false := by decide +kernel

/-- The same WAIT, not satisfied, and no room in the completion ring. -/
def Lab.waiting : State := (Lab.set Lab.waits [(Reg.SL_CRING_TAIL.INDEX 5, 2 ^ Lab.base.blk.rd (Reg.SL_CRING_CFG.LOG2_SIZE 5))]).upd fun b =>
  b.setWaits 2 [⟨8192, 5, .queue 20 8, 0, 100, false, false⟩]

theorem witness_SyncWaits_timeout :
    let b := Lab.waiting.blk
    b.ext.need = [] ∧ b.waitRec 5 0 = some ⟨8, Lab.cmd 0x11 [0x40010000, 5, 100], 0, 1, none, false, false⟩ ∧
    bits ((Lab.cmd 0x11 [0x40010000, 5, 100]).w 4) 0 32 ≠ 0 ∧ b.cringFull 5 = true ∧ (b.slice 5).entries = [] ∧
    b.qState 5 0 ≠ Q.ERROR ∧
    (b.sync.waits.any fun e => e.2.any fun w => decide (w.who = .queue 20 8) && w.satisfied) = false := by decide +kernel

/-- A SIGNAL of slice 5 to object 4096 is its queue's oldest command. -/
def Lab.signal : State := (Lab.q 0 []).upd fun b =>
  b.modQ 5 0 fun q => { q with inflight := [⟨8, Lab.cmd 0x10 [0x400FFDC0, 5], 0, 1, none, false, false⟩] }

theorem witness_SignalAndWait :
    let b := Lab.signal.blk
    let r : CmdRec := ⟨8, Lab.cmd 0x10 [0x400FFDC0, 5], 0, 1, none, false, false⟩
    b.ext.need = [] ∧ (b.q 5 0).inflight = [r] ∧ r.cmd.opcode = 0x10 ∧ r.cmd.sigAmt = 0 ∧ r.cmd.cpl = false ∧
    Ptr.isSync (r.cmd.w 2) = true ∧ Ptr.check (r.cmd.w 2) = none ∧ bit (r.cmd.w 3) 32 = false ∧ 1 ≤ bits (r.cmd.w 3) 0 32 ∧
    b.syncVal (Ptr.obj (r.cmd.w 2)) + bits (r.cmd.w 3) 0 32 < 2 ^ 64 ∧
    b.checkReq (b.mkWho (.cmd (b.home 5 0)) (some 5) 1) (Ptr.addr (r.cmd.w 2)) .w = (b, none) ∧
    b.cohWin (Ptr.addr (r.cmd.w 2)) = none ∧ NSet.has b.sync.lostHomes (Sync.homeOf (Ptr.obj (r.cmd.w 2))) = false ∧
    (b.q 5 0).stopping = false := by decide +kernel

theorem witness_SignalAndWait_wait :
    let cmd := Lab.cmd 0x11 [0x400FFDC0, 5, 100]
    let b1 := (Lab.q 0 [cmd]).blk.issueNext 5 0 (fun op => op = 0x11) (fun _ c => ⟨[c.w 2], Hoist.syncPtrOk (c.w 2)⟩)
      fun b _ id => b.modQ 5 0 fun q => { q with block := some (.wait id) }
    (Lab.q 0 [cmd]).blk.Ready 5 0 cmd 0x11 ∧ Ptr.isSync (cmd.w 2) = true ∧ Ptr.check (cmd.w 2) = none ∧
    b1.checkReq (b1.mkWho (.cmd (b1.home 5 0)) (some 5) (b1.effEnsign 5 0 cmd).1) (Ptr.addr (cmd.w 2)) .r = (b1, none) := by
  unfold Block.Ready; decide +kernel

/-- Queue 1 of slice 5 holds one command `r`, and is blocked by `k`. -/
def Lab.held (r : CmdRec) (k : Option QBlock) : State := (Lab.set (Lab.q 1 []) [(Reg.SL_MARK_CFG.QMASK 5, 2)]).upd fun b =>
  (b.modQ 5 1 fun q => { q with inflight := [r], block := k }).modSlice 5 fun v => { v with reached := [(1, 7)] }

theorem witness_QueueEvents :
    let r : CmdRec := ⟨8, Lab.cmd 0x12 [7, 2 ^ 17], 0, 1, some (Code.SUCCESS, 0), false, false⟩
    ((Lab.held r (some (.fence 8 0))).blk.q 5 1).block = some (.fence r.id 0) ∧
    ((Lab.held r (some (.fence 8 0))).blk.q 5 1).hostDirty = none ∧
    (Lab.held r (some (.mark 8))).blk.rd (Reg.SL_MARK_CFG.QMASK 5) = 2 ^ 1 ∧
    ((Lab.held r (some (.mark 8))).blk.slice 5).reached = [(1, 7)] ∧ (Lab.held r none).blk.qState 5 1 = Q.RUNNING ∧
    ((Lab.held r none).blk.q 5 1).inflight = [r] ∧ r.cmd.sigAmt = 0 ∧ r.cmd.cpl = false ∧ (7 : Nat) < 2 ^ 32 ∧ Lab.base.blk.dn.parts = [] ∧
    ((List.range 8).all fun i => ((Lab.held r none).blk.xslot r.cmd.pos i).isNone) = true := by decide +kernel

/-- Slice 5's completion ring: entries wait, stalled or not, its timer runs, and there is no room. -/
def Lab.cring (stall : Option (Nat × Bool)) (es : List CEntry) : State :=
  (Lab.set Lab.base [(Reg.SL_CRING_TAIL.INDEX 5, 2 ^ Lab.base.blk.rd (Reg.SL_CRING_CFG.LOG2_SIZE 5)), (Reg.SL_CRING_CFG.IRQ_EN 5, 1)]).upd
    fun b => b.modSlice 5 fun v => { v with entries := es, stall, firstAt := some 3 }

theorem witness_CompletionRing :
    let e : CEntry := ⟨2, 0, 0, 0, 0, 0, 0, 0, none, 1⟩
    (Lab.cring none []).blk.ext.need = [] ∧ ((Lab.cring (some (0, false)) [e]).blk.slice 5).stall ≠ none ∧
    ((Lab.cring none []).blk.slice 5).stall = none ∧ ((Lab.cring none []).blk.slice 5).entries = [] ∧
    ((Lab.cring none [e]).blk.slice 5).entries = [e] ∧ e.kind ≠ 1 ∧ (Lab.cring none [e]).blk.cringFull 5 = true ∧
    (Lab.cring none []).blk.is (Reg.SL_CRING_CFG.IRQ_EN 5) = true ∧ ((Lab.cring none []).blk.slice 5).firstAt ≠ none ∧
    Lab.base.blk.is (Reg.SL_CRING_CFG.IRQ_EN 6) = false := by decide +kernel

/-- The ring lies in the shelf and has room for the entry that waits. -/
def Lab.cringRoom (stall : Option (Nat × Bool)) : State :=
  (Lab.set Lab.base [(Reg.SL_CRING_BASE.BASE 5, 0x100000), (Reg.SL_CRING_CFG.LOG2_SIZE 5, 6), (Reg.SL_CRING_TAIL.INDEX 5, 65),
    (Reg.SL_CRING_HEAD.INDEX 5, 64)]).upd fun b => b.modSlice 5 fun v => { v with entries := [⟨2, 5, 1, 2, 3, 9, 7, 0, none, 1⟩], stall }

theorem witness_CompletionRing_room :
    let s := Lab.cringRoom none
    let e : CEntry := ⟨2, 5, 1, 2, 3, 9, 7, 0, none, 1⟩
    let r := s.blk.cringWrite 5 e
    (s.blk.slice 5).entries = [e] ∧ s.blk.cringFull 5 = false ∧ s.blk.ext.used = [] ∧ Ptr.tag (s.blk.rd (Reg.SL_CRING_BASE.BASE 5)) = 0 ∧
    r.2 = Code.SUCCESS ∧ r.1.ext = s.blk.ext ∧ ((Lab.cringRoom (some (0, true))).blk.slice 5).stall ≠ none := by decide +kernel

/-- A descriptor at shelf address 0x80000 that copies `n` raw bytes from 0x90000 to 0xA0000. -/
def Lab.descOf (n : Nat) : List Byte := natLE 8 0x90000 ++ natLE 8 0xA0000 ++ natLE 8 256 ++ zeros 0x30 ++
  natLE 8 n ++ natLE 8 1 ++ natLE 8 1 ++ zeros 0x20
def Lab.desc : List Byte := Lab.descOf 16

/-- An XFER command by that descriptor, and the job it makes. -/
def Lab.xferCmd : FCmd := Lab.cmd 0x01 [0x80000, 2, 0, 0, 0, 0]
def Lab.xferJob : Job := ⟨5, 0, 0, 20, 8, 1, Lab.xferCmd.words⟩

/-- Engine 1 with slot 0 in phase `ph` with the descriptor `ds`. -/
def Lab.slot (ph : XPhase) (ds : List Byte) (done : NSet) : State := (Lab.q 0 []).upd fun b =>
  (b.setXslot 1 0 (some ⟨Lab.xferJob, ph, 4, ds, 0, done, [], [], [], [], [], none, none⟩)).modQ 5 0 fun q =>
    { q with inflight := [⟨8, Lab.xferCmd, 0, 1, none, false, false⟩] }

theorem witness_XferIssue :
    let s := Lab.q 0 [Lab.xferCmd]
    s.blk.ext.need = [] ∧ s.blk.Ready 5 0 Lab.xferCmd 0x01 ∧ Hoist.check 0 Lab.xferCmd (s.blk.xferCheck 5 Lab.xferCmd) = none ∧
    (s.blk.posState 1).held.contains 20 = false ∧ s.blk.xferFree 1 = some 0 ∧ s.blk.xferQuota 1 5 = true ∧
    s.blk.xferHeldNext 1 = none := by unfold Block.Ready; decide +kernel

/-- The XFER with its engine's slots all closed, and held with a slot free. -/
def Lab.noSlot : State := Lab.set (Lab.q 0 [Lab.xferCmd]) [(Reg.XF_CFG.MAX_SLOTS 1, 0)]
def Lab.slotHeld : State := (Lab.q 0 [Lab.xferCmd]).upd fun b => b.modPos 1 fun p => { p with held := [20] }

theorem witness_XferIssue_held : Lab.noSlot.blk.Ready 5 0 Lab.xferCmd 0x01 ∧
    Hoist.check 0 Lab.xferCmd (Lab.noSlot.blk.xferCheck 5 Lab.xferCmd) = none ∧ Lab.noSlot.blk.xferFree 1 = none ∧
    (Lab.noSlot.blk.posState 1).held.contains 20 = false ∧ Lab.slotHeld.blk.xferFree 1 = some 0 ∧
    Lab.slotHeld.blk.xferHeldNext 1 = some 20 := by unfold Block.Ready; decide +kernel

/-- The slot whose descriptor is to be read: the shelf holds the good descriptor, or none. -/
def Lab.withDesc (good : Bool) : State := (Lab.slot .desc [] []).upd fun b =>
  if good then b.shelfStore 0x80000 Lab.desc else b

theorem witness_XferDescriptor :
    let b := (Lab.withDesc true).blk.onLane 9
    let v : XSlot := ⟨Lab.xferJob, .desc, 4, [], 0, [], [], [], [], [], [], none, none⟩
    b.xslot 1 0 = some v ∧ b.xferRead (b.jobWho (.xfer 1) v.job) v.descPtr (64 * v.descLen) = (b, none, Lab.desc) ∧
    b.ext.need = [] ∧ (XDesc.parse v.descLen Lab.desc).isOk = true := by decide +kernel

theorem witness_XferDescriptor_bad :
    let b := (Lab.withDesc false).blk
    b.xferRead (b.jobWho (.xfer 1) Lab.xferJob) 0x80000 128 = (b, none, zeros 128) ∧
    (XDesc.parse 2 (zeros 128)).isOk = false ∧ b.is (Reg.XF_ERR_LOG.VALID 1) = false := by decide +kernel

/-- The slot whose cursor, at 0x81000, is to be read. -/
def Lab.cursor : State := (Lab.slot .cursor Lab.desc []).upd fun b =>
  b.setXslot 1 0 (some ⟨{ Lab.xferJob with words := [0, 0, 0x80000, 2, 0, 0, 0x81000] }, .cursor, 4, Lab.desc, 0, [], [], [], [], [], [],
    none, none⟩)

theorem witness_XferDescriptor_cursor :
    let b := Lab.cursor.blk
    let j : Job := { Lab.xferJob with words := [0, 0, 0x80000, 2, 0, 0, 0x81000] }
    b.xferRead (b.jobWho (.xfer 1) j) 0x81000 64 = (b, none, zeros 64) ∧ (XDesc.parse 2 Lab.desc).isOk = true ∧
    bit (leAt (zeros 64) 0 8) 32 = false := by decide +kernel

/-- The descriptor of `n` bytes as it is read. -/
def Lab.xdesc (n : Nat) : XDesc := match XDesc.parse 2 (Lab.descOf n) with
  | .ok d => d
  | .error _ => ⟨0, 0, .raw, .raw, 0, 0, false, 0, 0, false, 0, 0, 0, 0, 0, 0, 0, 0, 0, []⟩

theorem witness_XferBlocks :
    let s := Lab.slot .run Lab.desc []
    let v : XSlot := ⟨Lab.xferJob, .run, 4, Lab.desc, 0, [], [], [], [], [], [], none, none⟩
    let d := Lab.xdesc 16
    let r := (s.blk.onLane 9).xferPrepare 1 v d 0
    let w := ((s.blk.xferBegin 1 0 v d 0).onLane 9).xferWrite 1 v.job r.begun d
    s.blk.ext.need = [] ∧ s.blk.xslot 1 0 = some v ∧ (XDesc.parse 2 Lab.desc).toOption = some d ∧ 0 < d.blocks ∧ d.ordered = false ∧
    NSet.has v.performed 0 = false ∧ r.fail = none ∧ r.b.ext.need = [] ∧ w.2 = none ∧ w.1.ext.need = [] := by decide +kernel

theorem witness_XferBlocks_delivered :
    let v (n : Nat) : XSlot := ⟨Lab.xferJob, .run, 4, Lab.descOf n, 0, [0], [], [], [], [], [], none, none⟩
    (Lab.slot .run (Lab.descOf 16) [0]).blk.xslot 1 0 = some (v 16) ∧ (Lab.slot .run (Lab.descOf 8192) [0]).blk.xslot 1 0 = some (v 8192) ∧
    (XDesc.parse 2 (Lab.descOf 8192)).toOption = some (Lab.xdesc 8192) ∧ (Lab.xdesc 8192).blocks = 2 ∧ (Lab.xdesc 16).blocks = 1 ∧
    NSet.has (v 16).performed 0 = true ∧ SMap.get (fun _ => none) (v 16).hostLast 0 = none ∧ (v 16).progPtr = 0 ∧
    (v 16).cursorPtr = 0 := by decide +kernel

/-- An instruction word (Table VEC-3); `fl` holds MEN, Z, IMM and RND. -/
def Lab.ins (op ty vd va vb msk fl ext : Nat) : Nat :=
  op + ty * 2 ^ 7 + vd * 2 ^ 10 + va * 2 ^ 15 + vb * 2 ^ 20 + msk * 2 ^ 25 + fl * 2 ^ 28 + ext * 2 ^ 32

/-- The job of a command of slice 5's queue 1. -/
def Lab.job (c : FCmd) : Job := ⟨5, 0, 3, 21, 9, 1, c.words⟩

/-- Command 9 of slice 5's queue 1 has been issued. -/
def Lab.busy : State := (Lab.q 1 []).upd fun b =>
  b.modQ 5 1 fun q => { q with nextId := 10, inflight := [⟨9, Lab.cmd 2 [], 3, 1, none, false, false⟩] }

/-- Position 1 runs a kernel of eight instructions at instruction 3, which is `w`, with VL 200 of width 32. -/
def Lab.kernel (w : Nat) : State := Lab.busy.upd fun b =>
  b.setVec 1 { VecState.idle with
    v := [(4, BitVec.ofNat 8192 (2 ^ 8000 + 0x7F800000_3F800000_C0000000_00000003)), (5, BitVec.ofNat 8192 0x00000002_FFFF0001_40490FDB_00000006)]
    m := [(1, 0x2D#1024), (2, 0xF0F#1024)], x := [(2, 0x40000#64), (3, 5#64)], vl := 200, flags := 1, pc := 3
    imem := [(3, BitVec.ofNat 64 w)], amem := [(2, 77#64)]
    run := some ⟨Lab.job (Lab.cmd 2 []), false, 0, 20, 8, 3, false, false⟩ }

/-- That kernel's run. -/
def Lab.krun : VRun := ⟨Lab.job (Lab.cmd 2 []), false, 0, 20, 8, 3, false, false⟩

theorem witness_Kernel : ∀ w ∈ [Lab.ins 0x20 0 6 4 5 1 1 0, Lab.ins 0x2E 3 4 4 5 0 0 0, Lab.ins 0x45 0 7 4 0 2 2 4, Lab.ins 0x46 5 7 4 0 2 2 4,
    Lab.ins 0x37 1 6 4 5 2 0 0, Lab.ins 0x42 2 6 4 5 2 0 9, Lab.ins 0x36 4 6 4 5 2 0 0, Lab.ins 0x3B 4 6 4 5 2 0 0, Lab.ins 0x3E 4 6 4 5 2 0 0,
    Lab.ins 0x04 4 6 4 5 2 0 0, Lab.ins 0x48 3 6 4 5 2 0 0, Lab.ins 0 0 0 0 0 0 0 0, Lab.ins 0x0C 3 6 3 5 2 0 0],
    (Lab.kernel w).blk.KernelAt 1 (w % 128) Lab.krun := by unfold Block.KernelAt; decide +kernel

theorem witness_VectorMoves_cvt :
    (Lab.kernel (Lab.ins 0x2F 1 6 4 0 1 3 0x08)).blk.KernelAt 1 0x2F Lab.krun ∧ vtype 0 = some .fp32 ∧ vtype 1 = some .bf16 := by
  unfold Block.KernelAt; decide +kernel

/-- That kernel in a state where x3 holds `x3` and its accumulator a1 is `a`. -/
def Lab.kernelX (w x3 : Nat) (a : Acc) : State := (Lab.kernel w).upd fun b =>
  b.setVec 1 (((b.vec 1).setX 3 x3).setAcc 1 a)

/-- An accumulator of class INT with K = 2 that was fed twice. -/
def Lab.accInt : Acc := ⟨true, 2, 0xFF800000, 0xFF800000, 0, 40, 1600, [(7, 1), (0x80000000, 0xFFFFFFFF)]⟩
/-- One of class FP. -/
def Lab.accFp : Acc := ⟨false, 2, 0x40400000, 0x3F800000, 0x3FE00000, 0x40000000, 0x40800000, [(0x40400000, 3), (0xFF800000, 0xFFFFFFFF)]⟩

/-- Position 1 is loading the VEXEC of command `c`. -/
def Lab.loading (c : FCmd) : State := Lab.busy.upd fun b => b.unitStart 1 (Lab.job c)

/-- A kernel image of two instructions lies at 0x40000. -/
def Lab.image : List Byte :=
  let ins := natLE 8 (Lab.ins 0 0 0 0 0 0 0 0) ++ natLE 8 (Lab.ins 1 0 0 0 0 0 0 0)
  natLE 4 0x4B565A57 ++ natLE 2 1 ++ natLE 2 0 ++ natLE 4 2 ++ natLE 4 (crc32c ins) ++ zeros 48 ++ ins

def Lab.imaged (c : FCmd) (resident : Bool) : State := (Lab.loading c).upd fun b =>
  let b := b.shelfStore 0x40000 Lab.image
  let v := b.vec 1
  if resident then b.setVec 1 { v with resident := some ⟨0x40000, Lab.image.take 64, 5, 0, 2⟩ } else b

def Lab.vexecCmd (args entry : Nat) : FCmd := Lab.cmd 2 [0x40000, if args = 0 then 0 else 0x41000, args + entry * 2 ^ 16]

/-- Position 1 runs a REDUCE of `rows` rows of `count` BF16 elements, at `row` and `col`. -/
def Lab.reducing (op count rows row col : Nat) : State := Lab.busy.upd fun b =>
  let b := b.unitStart 1 (Lab.job (Lab.cmd 3 [0x40000, 0x60000, count + op * 2 ^ 24 + 2 * 2 ^ 32 + 2 * 2 ^ 36, rows + 1024 * 2 ^ 32]))
  let b := b.shelfStore 0x40000 (natLE 8 0x4000_3F80_4040_BF80)
  b.modPos 1 fun p => { p with red := p.red.map fun r => { r with row := row, col := col } }

/-- A group table of two members, both of this device, at 0x42000; position 1 is member `self`. -/
def Lab.group (self : Nat) : List Byte :=
  let m (i : Nat) : List Byte :=
    natLE 8 (0xFFF + 1 * 2 ^ 12 + (131000 + i) * 2 ^ 17) ++ natLE 8 (0x50000 + 256 * i) ++ natLE 8 (0x60000 + 256 * i) ++ zeros 8
  natLE 8 (2 + self * 2 ^ 16) ++ natLE 8 4 ++ zeros 16 ++ m 0 ++ m 1

def Lab.collectCmd (kind self : Nat) : FCmd := Lab.cmd 4 [0x44000, 0x60000 + 256 * self, 64 + kind * 2 ^ 40 + 1 * 2 ^ 42, 0x42000]

def Lab.collecting (kind self : Nat) : State := (Lab.q 2 [Lab.collectCmd kind self]).upd fun b => b.shelfStore 0x42000 (Lab.group self)

/-- Member 1's COLLECT of kind `kind` waits in phase `ph`; the wait is satisfied or not. -/
def Lab.collWaits (kind : Nat) (ph : CPhase) (sat : Bool) : State := Lab.busy.upd fun b =>
  let b := b.modPos 1 fun p => { p with colls := [⟨Lab.job (Lab.collectCmd kind 1), 1000, 1, 4,
    [⟨0xFFF, 1, 131000, 0x50000, 0x60000⟩, ⟨0xFFF, 1, 131001, 0x50100, 0x60100⟩], ph, 0⟩] }
  b.setWaits 31 [⟨131001, 5, .collect 1 21 9, 0, 0, false, sat⟩]

theorem witness_KernelControl : ∀ w ∈ [Lab.ins 2 0 0 0 0 0 0 7, Lab.ins 2 0 0 0 0 0 0 8, Lab.ins 3 0 0 3 0 0 0 7, Lab.ins 3 0 0 4 0 0 0 7, Lab.ins 1 0 0 0 0 0 0 0,
    Lab.ins 0x7F 0 0 0 0 0 0 0, Lab.ins 0x2C 0 0 0 0 0 0 0],
    let b := (Lab.kernelX w 1 Lab.accFp).blk
    (b.vec 1).ready = some Lab.krun ∧ (b.posState 1).unitQ = [] ∧ (b.posState 1).red = none := by decide +kernel

theorem witness_KernelStart : (Lab.q 1 [Lab.vexecCmd 0 1]).blk.Ready 5 1 (Lab.vexecCmd 0 1) 2 ∧
    Hoist.check 1 (Lab.vexecCmd 0 1) ((Lab.q 1 [Lab.vexecCmd 0 1]).blk.vexecCheck 5 (Lab.vexecCmd 0 1)) = none ∧
    ((Lab.q 1 []).blk.vec 1).run = none ∧ ((Lab.q 1 []).blk.posState 1).red = none := by unfold Block.Ready; decide +kernel

theorem witness_KernelStart_image :
    let b := (Lab.imaged (Lab.vexecCmd 16 1) true).blk
    let r : VRun := ⟨Lab.job (Lab.vexecCmd 16 1), true, b.now, b.rd (Reg.VE_CFG.MAX_CYCLES_LOG2 1), 0, 0, false, false⟩
    (b.vec 1).run = some r ∧ b.vecImageRead 1 r 0x40000 64 = (b, true, Lab.image.take 64) ∧
    (b.vecImageRead 1 r 0x41000 16).2.1 = true ∧ leAt (Lab.image.take 64) 8 4 = 2 := by decide +kernel

theorem witness_KernelStart_load :
    let b := (Lab.imaged (Lab.vexecCmd 0 1) false).blk
    let r : VRun := ⟨Lab.job (Lab.vexecCmd 0 1), true, b.now, b.rd (Reg.VE_CFG.MAX_CYCLES_LOG2 1), 0, 0, false, false⟩
    b.vecImageRead 1 r 0x40040 16 = (b, true, Lab.image.drop 64) ∧ crc32c (Lab.image.drop 64) = leAt (Lab.image.take 64) 12 4 := by
  decide +kernel

theorem witness_VectorMemory :
    let b := (Lab.kernel (Lab.ins 0x10 0 6 2 0 1 1 (2 ^ 24))).blk
    let x := b.vecLoad 1 Lab.krun (b.vec 1) (b.vec 1).instr
    (b.vec 1).legal (b.vec 1).instr = true ∧ (b.vec 1).pc + 1 < Lab.krun.instrCount ∧ x.fail = none ∧ x.b.ext.need = [] := by
  decide +kernel

theorem witness_VectorMemory_store :
    let b := (Lab.kernel (Lab.ins 0x17 3 4 2 7 1 1 (6 * 2 ^ 24))).blk
    let x := b.vecScatterAdd 1 Lab.krun (b.vec 1) (b.vec 1).instr
    (b.vec 1).legal (b.vec 1).instr = true ∧ x.fail = none ∧ x.b.ext.need = [] := by decide +kernel

theorem witness_ReductionInstructions : ∀ w ∈ [Lab.ins 0x60 3 0 0 0 0 4 2, Lab.ins 0x61 0 0 4 0 1 5 0x3F800000, Lab.ins 0x6B 0 8 0 0 0 4 0],
    (Lab.kernelX w 5 Lab.accFp).blk.KernelAt 1 (w % 128) Lab.krun := by unfold Block.KernelAt; decide +kernel

theorem witness_ReduceChunk :
    let s := Lab.reducing 1 300 2 0 256
    let b := s.blk
    ∃ r, (b.posState 1).red = some r ∧ Ptr.add (r.job.w 2) (512 : Nat) = some 0x40200 ∧
      b.ptrRead (b.jobWho (.red 1) r.job) 0x40200 88 = (b, Code.SUCCESS, zeros 88) ∧
      (b.ptrWrite (b.jobWho (.red 1) r.job) true false 0x60000 (zeros 8)).2 = Code.SUCCESS := by
  refine ⟨⟨Lab.job (Lab.cmd 3 [0x40000, 0x60000, 300 + 2 ^ 24 + 2 * 2 ^ 32 + 2 * 2 ^ 36, 2 + 1024 * 2 ^ 32]), 0, 256, Acc.clear false 2, 0⟩, ?_⟩
  decide +kernel

theorem witness_Collect :
    let s := Lab.collecting 0 0
    s.blk.Ready 5 2 (Lab.collectCmd 0 0) 4 ∧ Hoist.check 2 (Lab.collectCmd 0 0) (s.blk.collectCheck 5 (Lab.collectCmd 0 0)) = none ∧
    (s.blk.posState 1).colls = [] := by unfold Block.Ready; decide +kernel

theorem witness_Collect_step :
    let b := (Lab.collWaits 1 .parent true).blk
    ∃ c, (b.posState 1).colls = [c] ∧ (b.waitsAt (Sync.homeOf (c.member c.self).sync)).map (fun w => w.satisfied) = [true] ∧
      Coll.kind c.job = 1 ∧ (b.dlaWrite (b.jobWho (.collect 1) c.job) (Ptr.addr (c.job.w 5 + 8)) (natLE 8 (c.base + c.signals))).2 = Code.SUCCESS := by
  refine ⟨⟨Lab.job (Lab.collectCmd 1 1), 1000, 1, 4,
    [⟨0xFFF, 1, 131000, 0x50000, 0x60000⟩, ⟨0xFFF, 1, 131001, 0x50100, 0x60100⟩], .parent, 0⟩, ?_⟩
  decide +kernel

/-- Site `n`'s link is in state `st` at set 15, with link data `f`. -/
def Lab.link (n st : Nat) (f : LinkState → LinkState) : State :=
  (Lab.set Lab.busy [(Reg.ST_STATUS.STATE n, st), (Reg.ST_STATUS.WIDTH_SET n, 15), (Reg.MH_SITE_PRESENT.ENROLLED, 2 ^ n),
    (Reg.MH_SITE_PRESENT.PRESENT, 2 ^ n), (Reg.ST_CFG.EN n, 1)]).upd fun b => b.modLink n f

/-- An enrolled link that has received and holds frames. -/
def Lab.linkUp (n : Nat) : State := Lab.link n Link.ENROLLED fun l => { l with
  rxNext := 5, rxAny := true, txSeq := 9, held := [⟨7, [1#8]⟩, ⟨8, [2#8]⟩], hello := true, sbTag := 3
  waits := [⟨6, 7, 2, 3, 4, 4, 0⟩] }

/-- A frame of SEQ `q` with the right CRC for KIND `k`. -/
def Lab.frame (k : Nat) (q a : BitVec 12) (v : Bool) : SiteFrame :=
  let f : SiteFrame := ⟨0, q, a, v, [7#8], 0#16⟩
  { f with crc := BitVec.ofNat 16 (SiteFrame.crcOf f k) }

theorem witness_frame_crc (k : Nat) (q a : BitVec 12) (v : Bool) :
    (Lab.frame k q a v).crc.toNat = SiteFrame.crcOf (Lab.frame k q a v) k := by
  have h (x : BitVec 16) : SiteFrame.crcOf ⟨0, q, a, v, [7#8], x⟩ k = SiteFrame.crcOf ⟨0, q, a, v, [7#8], 0#16⟩ k := by
    unfold SiteFrame.crcOf; rfl
  have hl : SiteFrame.crcOf ⟨0, q, a, v, [7#8], 0#16⟩ k < 65536 := by unfold SiteFrame.crcOf; exact crc16_lt _
  unfold Lab.frame
  rw [h, BitVec.toNat_ofNat, Nat.mod_eq_of_lt hl]

theorem witness_SiteFrames :
    let b := (Lab.linkUp 3).blk
    b.linkUp 3 = true ∧ SMap.get (fun _ => 0) b.fc.corruptFrames (Src.laneGroup 3 0) = 0 ∧ (b.site 3).link.framesSinceAck < 63 ∧
    (Lab.frame 0 5 0 false).seq.toNat = (b.site 3).link.rxNext ∧ (Lab.frame 0 5 0 false).ackValid = false ∧
    (b.site 3).link.rxNext = 5 ∧ (5 + 4095 - 4) % 4096 < 2048 ∧
    ((b.site 3).link.held.findIdx? fun h => h.seq = 7) = some 0 ∧ (b.site 3).link.txWait = [] ∧
    (Lab.frame 1 0 7 true).ack.toNat = 7 := by decide +kernel

theorem witness_SiteFrames_nak : ((Lab.link 3 Link.TRAINED fun l => { l with nakAt := some 4 }).blk.site 3).link.nakAt ≠ none ∧
    (Lab.link 3 Link.TRAINED fun l => { l with nakAt := some 4 }).blk.linkUp 3 = true := by decide +kernel

/-- Lateral site 13 is up; its group 0 had an event now, and module 1 has left the active state. -/
def Lab.lateral : State := Lab.link 13 Link.TRAINED fun l =>
  { l with eventAt := [(0, 1)], moduleDown := [(1, 1)], flitWait := [(1, [[1#8], [2#8]])] }

theorem witness_LateralModules :
    let b := Lab.lateral.blk
    b.linkUp 13 = true ∧ SMap.get (fun _ => 0) (b.site 13).link.eventAt 1 = 0 ∧
    SMap.get (fun _ => 0) (b.site 13).link.eventAt 0 ≠ 0 ∧ b.now + 1 < SMap.get (fun _ => 0) (b.site 13).link.eventAt 0 + 1600 ∧
    SMap.get (fun _ => 0) (b.site 13).link.moduleDown 1 ≠ 0 ∧ (b.site 13).link.recon = none ∧
    (b.rd (Reg.ST_LANE_STATE.RETIRED 13) ||| 3 * 2 ^ 2) % 256 ≠ 255 := by decide +kernel

/-- Site 3 reconciles: both have proposed 15 and the hub agrees to it. -/
def Lab.recon (agree : Option Nat) (fails : Nat) : State := Lab.set (Lab.link 3 Link.RECONCILING fun l => { l with
  hello := true, recon := some ⟨2, some 15, some 15, some 15, agree, 4, 15, 15, 0⟩ }) [(Reg.ST_STATUS.RECON_FAILS 3, fails)]

theorem witness_SiteTraining :
    (Lab.recon (some 15) 1).blk.linkState 3 = Link.RECONCILING ∧ (Lab.recon (some 15) 1).blk.rd (Reg.ST_STATUS.RECON_FAILS 3) < 2 ∧
    ((Lab.recon (some 15) 1).blk.site 3).link.recon = some ⟨2, some 15, some 15, some 15, some 15, 4, 15, 15, 0⟩ ∧
    ((Lab.recon (some 15) 1).blk.site 3).link.pinned = none ∧ (Lab.recon none 2).blk.rd (Reg.ST_STATUS.RECON_FAILS 3) = 2 ∧
    Site.activeSet 3 (15 - (15 &&& 4)) ≠ 0 ∧ (15#8).toNat = 15 := by decide +kernel

/-- Site 3 trains and has said hello. -/
def Lab.training : State := Lab.link 3 Link.TRAINING fun l => { l with hello := true }

theorem witness_SiteTraining_propose : Lab.training.blk.linkState 3 = Link.TRAINING ∧ (Lab.training.blk.site 3).link.recon = none ∧
    Site.activeSet 3 ((15#8).toNat &&& Lab.training.blk.unretired 3 &&& (15#8).toNat) ≠ 0 := by decide +kernel

/-- Site 3 is lost. -/
def Lab.siteLost (auto : Nat) : State := Lab.set (Lab.link 3 Link.LOST id) [(Reg.ST_CFG.AUTO_RETRAIN 3, auto)]

theorem witness_SiteTraining_lost : (Lab.siteLost 1).blk.linkState 3 = Link.LOST ∧ (Lab.siteLost 1).blk.rd (Reg.ST_CFG.EN 3) = 1 ∧
    (Lab.siteLost 1).blk.rd (Reg.ST_CFG.AUTO_RETRAIN 3) = 1 ∧ (Lab.siteLost 0).blk.rd (Reg.ST_CFG.AUTO_RETRAIN 3) = 0 ∧
    ((Lab.siteLost 1).blk.site 3).link.absent = false ∧ (Lab.link 3 Link.RESETTING id).blk.linkState 3 = Link.RESETTING := by
  decide +kernel

/-- Site 3 is enrolled, with a dispatch that serves command 9 of queue 21. -/
def Lab.dispatched : State := (Lab.linkUp 3).upd fun b => b.setSite 3 { b.site 3 with
  tags := [(1, some ⟨.dispatch, 0, false⟩)], disp := [(1, some ⟨5, 0, 3, 1, some 0, 1, 21, 9, 0, 100, true, false, false⟩)] }

theorem witness_SiteLoss :
    let b := Lab.dispatched.blk
    b.linkState 3 = Link.ENROLLED ∧ (b.site 3).link.hello = true ∧ ((b.site 3).link.waits.head?.map fun w => w.sends) = some 4 ∧
    b.rd (Reg.ST_LOSS_LOG.VALID 3) = 0 ∧ b.coh.txns = [] ∧ ((b.queue 21).inflight.map fun r => r.result) = [none] := by
  decide +kernel

/-- Site 3 changes its width to groups 0 and 1. -/
def Lab.widthChange : State := Lab.set (Lab.link 3 Link.WIDTH_CHANGE fun l => { l with
  widthChange := some 3, held := [⟨7, [1#8]⟩, ⟨8, [2#8]⟩], waits := [⟨6, 7, 5, 3, 4, 1, 0⟩] }) [(Reg.ST_LANE_STATE.RETIRED 3, 4)]

theorem witness_SiteLoss_width :
    let l := (Lab.widthChange.blk.site 3).link
    l.widthChange = some 3 ∧ l.waits = [⟨6, 7, 5, 3, 4, 1, 0⟩] ∧ 3 = Site.activeSet 3 (Lab.widthChange.blk.unretired 3) ∧
    (l.held.all fun f => decide (f.seq ≠ (5#12).toNat)) = true ∧ l.txWait = [] := by decide +kernel

/-- Site 3 is enrolled, with credits both ways and a live dispatch under tag 1 for slice 5 on core 0. -/
def Lab.swp (f : SiteState → SiteState) : State := (Lab.linkUp 3).upd fun b => b.setSite 3 (f { b.site 3 with
  credits := ⟨8, 8, 4, 256, 1024, 128, 128⟩, tags := [(1, some ⟨.dispatch, 0, false⟩)]
  disp := [(1, some ⟨5, 0, 0, 1, some 0, 1, 21, 9, 0, 100, true, false, false⟩)] })

/-- A request header of that context. -/
def Lab.hdr (addr : BitVec 48) (len : BitVec 8) (ctx : BitVec 12) : PacketHdr := ⟨7, len, 0, ctx, 1, addr, 0⟩

theorem witness_SiteRequests :
    let s := Lab.swp id
    let p := Packet.of 0x01 (Lab.hdr 0x40000 15 1) []
    (match s.blk.swpWho 3 0 1 with | .ok (_, d) => d.isSome | .error _ => false) = true ∧ s.blk.Hears 3 p ∧
    s.blk.ownWindow 3 0x40000 = false ∧ ((s.blk.heard 3 p).dla (s.blk.mkWho (.siteCore 3 0) (some 5) 1) 0x40000 16 .read).1.ext.need = [] := by
  unfold Block.Hears; decide +kernel

theorem witness_SiteRequests_add :
    let s := Lab.swp id
    let p := Packet.of 0x04 (Lab.hdr 0x40000 15 1) []
    s.blk.Hears 3 p ∧ s.blk.sealable 0x40000 = true ∧ (Swp.addFmt 1).bytes = 8 ∧
    ((s.blk.heard 3 p).checkReq (s.blk.mkWho (.siteCore 3 0) (some 5) 1) 0x40000 .a).2 = none := by
  unfold Block.Hears; decide +kernel

theorem witness_SiteRequests_wait :
    let s := Lab.swp id
    let p := Packet.of 0x06 (Lab.hdr 0x400FFDC0 7 1) (natLE 16 5)
    s.blk.Hears 3 p ∧ s.blk.range 0x400FFDC0 = .sync ∧
    ((s.blk.heard 3 p).checkReq (s.blk.mkWho (.siteCore 3 0) (some 5) 1) 0x400FFDC0 .r).2 = none := by
  unfold Block.Hears; decide +kernel

theorem witness_SiteRequests_bad : (match (Lab.swp id).blk.swpWho 3 0 5 with | .ok _ => 0 | .error st => st) = Code.SWP_BAD_CONTEXT ∧
    Swp.units 0x50 15 = none ∧ (Lab.swp id).blk.rd (Reg.ST_SWP_ERR_LOG.VALID 3) = 0 := by decide +kernel

/-- A request to site 3's window that has been sent, under tag 2. -/
def Lab.winReq (op : MemOp) : ExtNeed := ⟨⟨.manager, none, 0, 0⟩, .window 3 0x100, 8, op, 0⟩
def Lab.winSent (op : MemOp) : State := (Lab.swp fun v => { v with tags := v.tags ++ [(2, some ⟨.window (Lab.winReq op), 0, false⟩)] }).upd fun b =>
  { b with ext := { b.ext with sent := [Lab.winReq op] } }

theorem witness_SiteAnswers :
    let b := (Lab.winSent .read).blk
    b.linkState 3 = Link.ENROLLED ∧ b.enrolled 3 = true ∧ b.fc.opened = [] ∧ b.fc.recoveries = [] ∧ b.tag 3 5 = none ∧
    b.ext.sent = [Lab.winReq .read] ∧ (Lab.winReq .read).op = .read := by decide +kernel

theorem witness_SiteAnswers_done :
    let b := (Lab.swp fun v => { v with txq := [] }).blk
    b.tag 3 1 = some ⟨.dispatch, 0, false⟩ ∧ b.dispatchOf 3 1 = some ⟨5, 0, 0, 1, some 0, 1, 21, 9, 0, 100, true, false, false⟩ ∧
     (b.site 3).txq = [] ∧ (b.site 3).credits.hubReqH ≠ 0 ∧ b.sync.waits = [] ∧ b.freeTag 3 4096 = some 0 := by
  decide +kernel

/-- Site 3 waits on a sync object under tag 6. -/
def Lab.siteWait : State := (Lab.swp fun v => { v with
    tags := [(4, some ⟨.cancel 1 0, 0, false⟩)], siteTags := [6] }).upd fun b =>
  b.setWaits 31 [⟨131000, 5, .site 3 6 0 1, 0, 9, false, false⟩]

theorem witness_SiteAnswers_wait :
    Lab.siteWait.blk.sync.waits = [(31, [⟨131000, 5, .site 3 6 0 1, 0, 9, false, false⟩])] ∧ (Lab.siteWait.blk.site 3).txq = [] ∧
    Lab.siteWait.blk.tag 3 4 = some ⟨.cancel 1 0, 0, false⟩ := by decide +kernel

/-- A burgee with good cores 0, 2 and 5 of which 2 are mapped. -/
def Lab.burgee : List Byte :=
  let d := natLE 4 0x47525542 ++ natLE 2 1 ++ natLE 2 256 ++ zeros 16 ++ natLE 8 0x25 ++ natLE 4 0x100 ++ natLE 4 0 ++ natLE 4 50 ++
    natLE 2 8 ++ natLE 2 8 ++ natLE 2 4 ++ zeros 6 ++ natLE 8 (10 + 40 * 2 ^ 12 + 20 * 2 ^ 24) ++ zeros 184
  d ++ natLE 4 (crc32c d) ++ zeros 4

/-- Site 3 has been asked to enrol `n` times. -/
def Lab.asked (n : Nat) : State := Lab.set ((Lab.link 3 Link.TRAINED fun l => { l with hello := true }).upd fun b =>
  b.setSite 3 { b.site 3 with enrol := .asked n 0 }) [(Reg.MH_SITE_PRESENT.ENROLLED, 0), (Reg.ST_SWP_CFG.ACTIVE_CORES 3, 2)]

theorem witness_EnrolAndDispatch :
    let b := (Lab.asked 1).blk
    b.linkState 3 = Link.TRAINED ∧ b.enrolled 3 = false ∧ (b.site 3).enrol ≠ .idle ∧ Lab.burgee.length = 256 ∧
    leAt (Lab.burgee.drop 1) 0 4 ≠ 0x47525542 := by decide +kernel

/-- A DISPATCH to logical core `c` of site 3 (to any core with 64). -/
def Lab.dispCmd (c : Nat) : FCmd := Lab.cmd 5 [3 + c * 16, 0x70000, 1, 2, 3, 0]

/-- Slice 5's queue 3 holds it; the site's logical core 0 is its physical core 2. -/
def Lab.toDispatch (c : Nat) (f : SiteState → SiteState) : State :=
  (Lab.set (Lab.q 3 [Lab.dispCmd c]) [(Reg.ST_STATUS.STATE 3, Link.ENROLLED), (Reg.ST_STATUS.WIDTH_SET 3, 15), (Reg.MH_SITE_PRESENT.ENROLLED, 8),
    (Reg.ST_SWP_CORE_MAP.VALID 3 0, 1), (Reg.ST_SWP_CORE_MAP.PHYS 3 0, 2),
    (Reg.SL_CRING_TAIL.INDEX 5, 2 ^ Lab.base.blk.rd (Reg.SL_CRING_CFG.LOG2_SIZE 5))]).upd fun b => b.setSite 3 (f { b.site 3 with
      credits := ⟨8, 8, 4, 256, 1024, 128, 128⟩ })

theorem witness_EnrolAndDispatch_dispatch :
    let b := (Lab.toDispatch 0 id).blk
    b.Ready 5 3 (Lab.dispCmd 0) 5 ∧ Hoist.check 3 (Lab.dispCmd 0) (Hoist.dispatchCheck (Lab.dispCmd 0)) = none ∧
    b.dispatchStatus 5 (Lab.dispCmd 0) = none ∧ (Lab.toDispatch 1 id).blk.dispatchStatus 5 (Lab.dispCmd 1) = some Code.SWP_NO_SUCH_CORE ∧
    (b.site 3).txq = [] ∧ b.linkUp 3 = true ∧ 1 ≤ (b.site 3).credits.hubReqH ∧ 1 ≤ (b.site 3).credits.hubReqD ∧
    b.freeTag 3 4095 = some 0 ∧ b.dispatchFenced (Lab.dispCmd 0) = false ∧ b.cringFull 5 = true ∧ (b.slice 5).entries = [] := by unfold Block.Ready; decide +kernel

/-- Every tag of site 3 is in use, tag 2 by a window request, and a CANCEL waits for one. -/
def Lab.tagsFull : State := (Lab.winSent .read).upd fun b => b.setSite 3 { b.site 3 with
  tags := (List.range 4096).map fun k => (k, some ⟨if k = 2 then .window (Lab.winReq .read) else .cancel 1 0, 0, false⟩)
  owed := [⟨.cancel 1 0, ⟨0x21, 0, 0, 0, 0, 1, 0, 0, 0, []⟩⟩] }

theorem witness_SiteAnswers_owed :
    let b := Lab.tagsFull.blk
    (b.site 3).txq = [] ∧ ((b.site 3).owed.all fun r => (b.site 3).credits.allow r.packet) = true ∧ (b.site 3).owed.length = 1 ∧
    b.tag 3 2 = some ⟨.window (Lab.winReq .read), 0, false⟩ := by decide +kernel

/-- Sites 3 and 2 are enrolled with credits, and a coherent window of both lies over the shelf; line 0x1000 has entry `e`, and `f`
changes the home. -/
def Lab.coh (e : Option DirEntry) (f : CohState → CohState) : State :=
  (Lab.set Lab.busy [(Reg.ST_STATUS.STATE 3, Link.ENROLLED), (Reg.ST_STATUS.STATE 2, Link.ENROLLED),
    (Reg.ST_STATUS.WIDTH_SET 3, 15), (Reg.ST_STATUS.WIDTH_SET 2, 15), (Reg.MH_SITE_PRESENT.ENROLLED, 12),
    (Reg.CO_STATUS.WINDOWS_VALID, 1), (Reg.CO_WIN00.SIZE 0, 4), (Reg.CO_WIN00.VALID 0, 1), (Reg.CO_WIN08.SITES 0, 12)]).upd fun b =>
    let v (n : Nat) : SiteState := { b.site n with credits := ⟨8, 8, 4, 256, 1024, 128, 128⟩, tags := [(5, some ⟨.snoop 0x1000 133, 0, false⟩)] }
    let b := (b.setSite 3 (v 3)).setSite 2 (v 2)
    let b := b.shelfStore 0x40000 [1#8, 2#8]
    let b := match e with
      | some e => b.dirPut e
      | none => b
    { b with coh := f b.coh }

/-- An entry of line 0x1000. -/
def Lab.entry (st : DirState) (ps : List Nat) : DirEntry := ⟨0, 0x1000, st, false, ptrs4 (ps.map some), 0⟩

/-- A request of agent 5 of site 3 (197) for line 0x1000. -/
def Lab.cohHdr (tag : BitVec 12) (attr : BitVec 8) : PacketHdr := ⟨tag, 0, 5, 0xFFF, attr, 0x40000, 0⟩

theorem witness_CoherentRequests :
    let s := Lab.coh none id
    s.blk.Hears 3 (Packet.of 0x30 (Lab.cohHdr 9 0) []) ∧ s.blk.CohReady ⟨.rdS, 197, 9, 0x1000⟩ ∧ s.blk.rd Reg.CO_CFG.HOLD_CYC ≠ 0 ∧
    s.blk.cohWin 0x40000 = some 0 ∧ s.blk.lineRead 0x1000 = (s.blk, Code.SUCCESS, [1#8, 2#8] ++ zeros 62) ∧
    s.blk.lineState 0x1000 = none ∧ (s.blk.freeWay 0x1000).isSome = true := by
  unfold Block.Hears Block.CohReady; decide +kernel

theorem witness_CoherentRequests_snoop :
    let s := Lab.coh (some (Lab.entry .own [133])) id
    s.blk.Hears 3 (Packet.of 0x30 (Lab.cohHdr 9 0) []) ∧ s.blk.CohReady ⟨.rdS, 197, 9, 0x1000⟩ ∧
    s.blk.lineState 0x1000 = some (.own, false, [133]) ∧ s.blk.enrolled (133 / 64) = true ∧ 133 / 64 ≠ 3 ∧ (s.blk.site 2).txq = [] ∧
    1 ≤ (s.blk.site 2).credits.hubSnpH ∧ s.blk.linkUp 2 = true ∧ (s.blk.freeTag 2 4096).isSome = true := by
  unfold Block.Hears Block.CohReady; decide +kernel

/-- A transaction of agent 197's request on line 0x1000 with its owner 133 asked. -/
def Lab.txn (op : CReq) : Txn := ⟨0x1000, .request ⟨op, 197, 9, 0x1000⟩, [⟨.fwd, 133, 0, false⟩], [], none, false, [], none, false, none, none, none, false⟩

theorem witness_CoherentRequests_nack :
    let s := Lab.coh (some (Lab.entry .own [133])) fun c => { c with txns := [Lab.txn .rdS] }
    s.blk.coh.txns = [Lab.txn .rdS] ∧ s.blk.cohCheck ⟨.rdS, 197, 9, 0x1000⟩ = none ∧
    s.blk.cohCheck ⟨.rdS, 70, 9, 0x1000⟩ = some Code.COH_NOT_COHERENT := by decide +kernel

theorem witness_CoherentRequests_wb :
    let s := Lab.coh (some (Lab.entry .own [197])) id
    s.blk.Hears 3 (Packet.of 0x33 (Lab.cohHdr 9 0) (zeros 64)) ∧ s.blk.CohReady ⟨.wb, 197, 9, 0x1000⟩ ∧ s.blk.range 0x40000 = .shelf ∧
    s.blk.groupStruck (Shelf.group 0x40000) = false ∧ s.blk.shelf.poison = [] ∧ s.blk.shelf.upset = [] := by
  unfold Block.Hears Block.CohReady; decide +kernel

theorem witness_CoherenceAnswers :
    let s := Lab.coh (some (Lab.entry .own [133])) fun c => { c with txns := [Lab.txn .rdS] }
    s.blk.rd Reg.CO_CFG.HOLD_CYC ≠ 0 ∧ s.blk.tag 2 5 = some ⟨.snoop 0x1000 133, 0, false⟩ ∧ s.blk.coh.txns = [Lab.txn .rdS] ∧
    s.blk.enrolled 3 = true ∧ s.blk.linkUp 3 = true ∧ s.blk.linkUp 2 = true ∧ (s.blk.site 3).txq = [] ∧
    s.blk.lineState 0x1000 = some (.own, false, [133]) ∧ s.blk.lineRead 0x1000 = (s.blk, Code.SUCCESS, [1#8, 2#8] ++ zeros 62) := by
  decide +kernel

/-- The line is held open for an answered request after another was NACKed; and a reservation of it. -/
def Lab.cohHold : State := Lab.coh (some (Lab.entry .own [197])) fun c => { c with
  txns := [{ Lab.txn .rdS with snoops := [], hold := some 160, nacked := some 133 }], reserved := [⟨0x2000, 133, 99⟩] }

theorem witness_CoherenceAnswers_hold : Lab.cohHold.blk.coh.txns.map (fun x => x.hold) = [some 160] ∧ Lab.cohHold.blk.coh.waiting = [] := by
  decide +kernel

/-- Site 2 is being reclaimed; the entry names only its agent 133. -/
def Lab.reclaim (e : Option DirEntry) : State := Lab.set (Lab.coh e fun c => { c with scan := some 0 }) [(Reg.CO_STATUS.RECLAIM_PENDING, 4)]

theorem witness_CoherenceAnswers_reclaim :
    let b := (Lab.reclaim (some (Lab.entry .own [133]))).blk
    b.coh.scan ≠ none ∧ b.coh.txns = [] ∧ b.coh.dir = [(Dir.set 0x1000, [Lab.entry .own [133]])] ∧ b.deadAgent 133 = true ∧
    (Lab.reclaim none).blk.coh.dir = [] := by decide +kernel

/-- A unit of slice 5 at position 0 that waits for a page of VA 0x7000. -/
def Lab.page (u : XUnit) (write : Bool) : PageNeed := ⟨u, 0, 5, 0x7000, write, true, false, if u = .xfer then 1 else 0⟩

/-- An ATS request of it, and a page request group. -/
def Lab.ats (u : XUnit) (write again stale : Bool) : AtsReq := ⟨3, 1, 9, 0x7000, write, [Lab.page u write], again, stale, false, 0⟩
def Lab.prg (idx : Option Nat) (gen : Nat) (late : Bool) : Prg := ⟨1, idx, 5, gen, 9, [(0x7000, true)], [], [Lab.page .cmd true], 0, late⟩

/-- Slice 5 has PASID 9 in partition 0, whose function may use ATS and page requests; the page request allocation is 8; `f`
changes what translation holds. -/
def Lab.xlat (f : XlatState → XlatState) : State :=
  (Lab.set Lab.base [(Reg.SL_CFG.PASID 5, 9)]).upd fun b => { (((b.setCfg 0 0x1EC 8).setCfg 1 0x1C4 (2 ^ 31)).setCfg 0 0x1D4 (2 ^ 16)).setCfg 0 0x1E4 1 with xlat := f b.xlat }

/-- An entry for VA 0x7000 of function 1. -/
def Lab.tlb (pasid : Nat) (g : Bool) : TlbEntry := ⟨1, pasid, 12, 7, 0x12000, true, false, false, g, false⟩

theorem witness_AtsAnswers :
    let s := Lab.xlat fun x => { x with ats := [Lab.ats .cmd true false false] }
    s.blk.xlat.ats.find? (fun x => x.tag = (3 : Fin 512).val) = some (Lab.ats .cmd true false false) ∧ s.blk.xlat.lacks = [] ∧
    (Lab.ats .cmd true false false).units = [Lab.page .cmd true] ∧ s.blk.atsEnabled 1 = true ∧ (Lab.ats .cmd true false false).dropped = false := by decide +kernel

theorem witness_AtsAnswers_lack :
    let s := Lab.xlat fun x => { x with ats := [Lab.ats .cmd true true true], lacks := [⟨1, 9, 0x7000, true, false, true⟩] }
    (s.blk.xlat.lacks.any fun l => l.covers (s.blk.stu 1) 1 9 (Lab.page .cmd true) && l.asked) = true ∧
    (Lab.ats .cmd true true true).stale = true ∧ (Lab.ats .cmd true true true).again = true := by decide +kernel

theorem witness_PageRequests :
    let s := Lab.xlat fun x => { x with groups := [Lab.prg none 0 false] }
    s.blk.xlat.groups = [Lab.prg none 0 false] ∧ s.blk.atsEnabled 1 = true ∧ s.blk.priEnabled = true ∧ s.blk.xlat.stopped = [] ∧ (Lab.prg none 0 false).pages.length ≤ s.blk.cfg 0 0x1EC ∧
    State.reset.blk.cfg 0 0x1EC < 1 := by decide +kernel

theorem witness_PageRequests_answer :
    let s := Lab.xlat fun x => { x with groups := [Lab.prg (some 2) 0 false] }
    s.blk.xlat.groups.find? (fun g => decide (g.fn = (1 : Fin 33).val) && decide (g.idx = some (2 : Fin 512).val)) = some (Lab.prg (some 2) 0 false) ∧
    s.blk.xlat.stopMarkers = [] ∧ s.blk.gen 5 = 0 ∧ s.blk.fnOf 5 = 1 ∧ s.blk.pasid 5 = 9 ∧ s.blk.xlat.ats = [] ∧
    1 ≤ s.blk.rd Reg.XL_ATS_CFG.MAX_OUTSTANDING := by decide +kernel

theorem witness_Invalidations :
    let s := Lab.xlat fun x => { x with l2 := [(14, [Lab.tlb 9 false, Lab.tlb 8 true])], invs := [⟨1, 4, some 9, false, 0x7000, 12, 0⟩] }
    (s.blk.xlat.invs.filter fun x => x.fn = 1).length < 32 ∧
    s.blk.xlat.invs.find? (fun i => decide (i.fn = (1 : Fin 33).val) && decide (i.itag = (4 : Fin 32).val)) = some ⟨1, 4, some 9, false, 0x7000, 12, 0⟩ ∧
    s.blk.ep.slots = [] := by decide +kernel

/-- A plan of two layers, of 16-token pages and four requests a step. -/
def Lab.plan : Plan := ⟨2, 100, 1, 64, 16, 4, 256, 0, []⟩

/-- A request of slice 5. -/
def Lab.dnReq (id : Nat) : DnReq := { DnReq.ofWords 5 (fun _ => 0) with
  id := id, plan := 2, adapter := 0xFFFF, promptPtr := 0x44000, promptLen := 4, maxNew := 3, topK := 1 }

/-- The words of a submit, or of a cancel. -/
def Lab.words (op id : Nat) (len : Nat) : List Nat :=
  [id + op * 2 ^ 32 + 2 * 2 ^ 33 + 0xFFFF * 2 ^ 48, 0x44000, len + 3 * 2 ^ 32, 0x3F800000 * 2 ^ 32, 1, 0, 0, 0]

/-- Denob serves slice 5 of partition 0, which is also the partition's serving slice; the request ring holds one entry of words
`ws`, and the token ring is full where `full`. -/
def Lab.denob (ws : List Nat) (full : Bool) (v : DnSlice) (p : DnPart) : State :=
  (Lab.set Lab.base [(Reg.DN_STATUS.RUNNING, 1), (Reg.DN_SLICE20.STATE 5, 1), (Reg.DN_SLICE18.EN 5, 1), (Reg.DN_SLICE00.REQ_BASE 5, 0x40000),
    (Reg.DN_SLICE08.TOK_BASE 5, 0x42000), (Reg.DN_SLICE28.REQ_TAIL 5, 1), (Reg.DN_SLICE30.TOK_TAIL 5, if full then 64 else 0),
    (Reg.DN_PART_CFG08.SERVE_SLICE 0, 5), (Reg.DN_PART_CFG08.KV_PAGES 0, 10), (Reg.DN_PART_CFG08.MAX_BATCH 0, 4),
    (Reg.DN_PART_CFG08.PREFILL_CHUNK 0, 3), (Reg.SL_QUOTA.ACTIVE_REQ 5, 2)]).upd fun b =>
    let b := b.shelfStore 0x40000 (ws.flatMap (natLE 8))
    let o := (Reg.DN_PART_CFG00.KV_BASE 0).off
    let c := (b.word o, b.word (o + 8), b.word (o + 0x10))
    { b with dn := { b.dn with slices := [(5, v)], parts := [(0, { p with conf := c })] } }

/-- A partition with the plan in slot 2 and requests `l` in its batch. -/
def Lab.dnPart (l : List DnReq) : DnPart := { DnPart.reset with plans := [(2, some Lab.plan)], active := l }

theorem witness_RequestRing :
    let s := Lab.denob (Lab.words 0 77 4) true DnSlice.reset (Lab.dnPart [])
    s.blk.RequestAt 5 (fun i => leAt ((Lab.words 0 77 4).flatMap (natLE 8)) (8 * i) 8) ∧ s.blk.plan 0 2 = some Lab.plan ∧
    s.blk.plan 0 3 = none ∧ bits ((Lab.words 0 77 4).getD 0 0) 33 4 = 2 := by
  refine ⟨⟨by decide +kernel, by decide +kernel, by decide +kernel, (Lab.words 0 77 4).flatMap (natLE 8), by decide +kernel, by decide +kernel, rfl⟩, ?_⟩
  decide +kernel

theorem witness_RequestRing_cancel :
    let s := Lab.denob (Lab.words 1 77 4) true { DnSlice.reset with pending := [Lab.dnReq 77] } (Lab.dnPart [])
    s.blk.RequestAt 5 (fun i => leAt ((Lab.words 1 77 4).flatMap (natLE 8)) (8 * i) 8) ∧
    (s.blk.dnSlice 5).pending.find? (fun r => r.id = 77) = some (Lab.dnReq 77) := by
  refine ⟨⟨by decide +kernel, by decide +kernel, by decide +kernel, (Lab.words 1 77 4).flatMap (natLE 8), by decide +kernel, by decide +kernel, rfl⟩, ?_⟩
  decide +kernel

theorem witness_TokenRing :
    let s := Lab.denob [] false { DnSlice.reset with entries := [⟨7, 9, 2, 0, 1, 0⟩] } (Lab.dnPart [])
    let b₁ := (s.blk.ptrWrite (s.blk.dnWho 5) true false 0x42000 (natLE 8 (7 + 9 * 2 ^ 32))).1
    let r := b₁.ptrWrite (s.blk.dnWho 5) true false 0x42008 (natLE 8 (2 + 2 ^ 48))
    (s.blk.dnSlice 5).tokStall = false ∧ s.blk.tokFull 5 = false ∧ s.blk.rd (Reg.DN_SLICE08.TOK_BASE 5) = 0x42000 ∧ Ptr.check 0x42000 = none ∧
    (s.blk.ptrWrite (s.blk.dnWho 5) true false 0x42000 (natLE 8 (7 + 9 * 2 ^ 32))).2 = Code.SUCCESS ∧
    r.2 = Code.SUCCESS ∧ r.1.ext.need = [] ∧ r.1.regs = s.blk.regs ∧ r.1.dn = s.blk.dn ∧ s.blk.is (Reg.DN_SLICE18.IRQ_EN 5) = false := by
  decide +kernel

theorem witness_TokenRing_fails :
    let s := Lab.set (Lab.denob [] false { DnSlice.reset with entries := [⟨7, 9, 2, 0, 1, 0⟩] } (Lab.dnPart [])) [(Reg.DN_SLICE08.TOK_BASE 5, 0x700000000000)]
    (s.blk.ptrWrite (s.blk.dnWho 5) true false 0x700000000000 (natLE 8 (7 + 9 * 2 ^ 32))).2 = Code.ADDR_UNMAPPED ∧
    (s.blk.ptrWrite (s.blk.dnWho 5) true false 0x700000000000 (natLE 8 (7 + 9 * 2 ^ 32))).1.ext.need = [] := by decide +kernel

theorem witness_TokenRing_timer :
    let s := Lab.set (Lab.denob [] false { DnSlice.reset with posted := 3 } (Lab.dnPart [])) [(Reg.DN_SLICE18.IRQ_EN 5, 1)]
    (s.blk.dnSlice 5).posted ≠ 0 ∧ s.blk.is (Reg.DN_SLICE18.IRQ_EN 5) = true := by decide +kernel

/-- The request's prompt is fed whole in the running step. -/
def Lab.fed (chosen : List Nat) : DnReq := { Lab.dnReq 77 with ctx := 3 + chosen.length, feed := 1, chosen := chosen }

theorem witness_TokenRing_sample :
    let s := Lab.denob [] false DnSlice.reset { Lab.dnPart [Lab.fed [8]] with running := true }
    (s.blk.dnPart 0).active = [Lab.fed [8]] ∧ (Lab.fed [8]).ctx + (Lab.fed [8]).feed = (Lab.fed [8]).promptLen + (Lab.fed [8]).chosen.length ∧
    s.blk.plan 0 (Lab.fed [8]).plan = some Lab.plan ∧ (Lab.fed [8]).choose [5] = some 0 := by decide +kernel

theorem witness_StepBoundary :
    let s := Lab.denob [] true DnSlice.reset { Lab.dnPart [] with running := true, toWrite := [(1, [0x12, 0, 9])] }
    let b₁ := (s.blk.ptrWrite (s.blk.dnWho 5) true false 0 ((List.range 8).flatMap fun i => natLE 8 ([0x12, 0, 9].getD i 0)))
    s.blk.ext.need = [] ∧ s.blk.dnRuns = true ∧ s.blk.partEmpty 0 = false ∧ s.blk.sliceState 5 = Slice.OPEN ∧ s.blk.serveSlice 0 = 5 ∧
    s.blk.rd (Reg.SL_Q_BASE.BASE 5 1) = 0 ∧ Dn.ptrOk 0 64 = true ∧ b₁.2 = Code.SUCCESS ∧ b₁.1.ext.need = [] ∧ b₁.1.regs = s.blk.regs ∧
    b₁.1.dn = s.blk.dn := by decide +kernel

theorem witness_StepBoundary_retire :
    let s := Lab.denob [] true DnSlice.reset (Lab.dnPart [{ Lab.dnReq 77 with ended := some ⟨77, 0, 3, 0, 2, 3⟩ }])
    s.blk.tokFull 5 = true ∧ (s.blk.dnSlice 5).pending = [] ∧ s.blk.slicePart 5 = 0 ∧ (∀ e ∈ s.blk.dn.slices, e.1 = 5) ∧ s.blk.dn.activating = false := by
  decide +kernel

/-- Slice 5's hoist rings lie nowhere. -/
def Lab.noRings (s : State) : State := Lab.set s ((List.range 4).map fun c => (Reg.SL_Q_BASE.BASE 5 c, 1))

theorem witness_StepBoundary_admit :
    let s := Lab.noRings (Lab.denob [] true { DnSlice.reset with pending := [Lab.dnReq 77] } (Lab.dnPart []))
    s.blk.dnState 5 = Dn.SERVING ∧ 1 ≤ s.blk.rd (Reg.SL_QUOTA.ACTIVE_REQ 5) ∧ Lab.plan.pagesFor 7 ≤ s.blk.rd (Reg.DN_PART_CFG08.KV_PAGES 0) ∧
    Lab.plan.pagesFor 4 ≤ s.blk.rd (Reg.DN_PART_CFG08.KV_PAGES 0) ∧ s.blk.ptrRead (s.blk.dnWho 5) 0x44000 16 = (s.blk, Code.SUCCESS, zeros 16) ∧
    (∀ c < 4, Dn.ptrOk (s.blk.rd (Reg.SL_Q_BASE.BASE 5 c) + 64 * (s.blk.rd (Reg.SL_Q_TAIL.INDEX 5 c) % 2 ^ s.blk.rd (Reg.SL_Q_CFG.LOG2_SIZE 5 c))) 64 = false) := by
  decide +kernel

/-- A plan's header in HBM, at the first region's start. -/
def Lab.planAt (hd : List Byte) : State :=
  (Lab.set (Lab.denob [] true DnSlice.reset (Lab.dnPart [])) [(Reg.DN_PLAN_PTR.PTR, Dla.hbmBase)]).upd fun b =>
    if hd = [] then b else (b.dlaWrite (b.dnWho 5) Dla.hbmBase hd).1

/-- Table SRV-1's header, of no templates. -/
def Lab.planHeader : List Byte :=
  natLE 4 0x4E4C505A ++ natLE 2 1 ++ natLE 2 2 ++ natLE 4 100 ++ natLE 4 1 ++ natLE 4 64 ++ natLE 2 16 ++ natLE 2 4 ++ natLE 4 256 ++ natLE 4 0 ++
  natLE 8 0x1234 ++ natLE 4 0 ++ zeros 20

theorem witness_PlansAndFirmware :
    Plan.parse Lab.planHeader = some { Lab.plan with weights := 0x1234 } ∧
    (Lab.denob [] true DnSlice.reset (Lab.dnPart [])).blk.dnRuns = true ∧
    (Lab.denob [] true DnSlice.reset (Lab.dnPart [])).blk.planUsed 0 2 = false ∧
    (Lab.denob [] true DnSlice.reset (Lab.dnPart [Lab.dnReq 7])).blk.planUsed 0 2 = true ∧
    (Lab.denob [] true DnSlice.reset (Lab.dnPart [])).blk.rd Reg.DN_PLAN_PTR.PTR = 0 := by decide +kernel

theorem witness_PlansAndFirmware_load :
    let s := Lab.planAt []
    let b := { (s.blk.wr Reg.DN_PLAN_CTRL.PARTITION 0).wr Reg.DN_PLAN_CTRL.INDEX 3 with dn := { s.blk.dn with loading := some (0, 3) } }.wr Reg.DN_PLAN_CTRL.BUSY 1
    s.blk.dnRuns = true ∧ s.blk.planUsed 0 3 = false ∧ s.blk.ext.need = [] ∧
    (let r := b.dlaRead (s.blk.dnWho 5) Dla.hbmBase 64
     r.2.1 = Code.SUCCESS ∧ r.1.ext.need = [] ∧ r.1.dn = b.dn ∧ r.1.dlaRead (s.blk.dnWho 5) (Dla.hbmBase + 64) 0 = (r.1, Code.SUCCESS, [])) := by decide +kernel

/-- A staged image waits for its activation. -/
def Lab.staged : State := (Lab.set (Lab.denob [] true DnSlice.reset (Lab.dnPart [])) [(Reg.MH_STATUS.PENDING_UPDATE, 1), (Reg.SEC_FW_STATUS.STAGED, 2)]).upd fun b =>
  { b with sec := { b.sec with dnStaged := some b.sec.dnRun } }

/-- Denob restarts, in a switched bank where `sw`. -/
def Lab.restarts (sw : Bool) : State := (Lab.denob [] true DnSlice.reset (Lab.dnPart [])).upd fun b =>
  { b with dn := { b.dn with restarting := true, switched := sw } }

theorem witness_PlansAndFirmware_bank :
    Lab.staged.blk.sec.dnStaged = some Lab.base.blk.sec.dnRun ∧ Lab.staged.blk.is Reg.MH_STATUS.PENDING_UPDATE = true ∧
    Lab.staged.blk.is Reg.DN_STATUS.FAILED = false ∧ Lab.staged.blk.journalFree = some 0 ∧ Lab.staged.blk.dnIdle = true ∧
    (Lab.restarts true).blk.dn.switched = true ∧ (Lab.restarts false).blk.dn.switched = false ∧ (Lab.restarts false).blk.fc.recoveries = [] ∧
    (Lab.restarts false).blk.fc.opened = [] := by decide +kernel

theorem witness_PlansAndFirmware_serve :
    (Lab.set Lab.base []).blk.is (Reg.DN_SLICE18.EN 5) = false ∧ Lab.base.blk.dnState 5 = Dn.DISABLED ∧ Lab.base.blk.dnActive 5 = 0 ∧
    (Lab.set Lab.base [(Reg.DN_SLICE20.STATE 5, 2)]).blk.dnState 5 = Dn.STALLED := by decide +kernel

/-- The hub with slice 5 in state `st` and `v` its record; slice 7 is FREE with its quotas set; slice 5's window is the page at 0x40000. -/
def Lab.ten (st : Nat) (v : SliceState) (l : List (Fld × Nat)) : State :=
  (Lab.set Lab.base ([(Reg.SL_STATUS.STATE 5 , st), (Reg.SL_QUOTA.HANDLES 7, 16), (Reg.SL_QUOTA.XFER_SLOTS 7, 4), (Reg.SL_CFG.PASID 7, 3),
    (Reg.SL_QUOTA.ACTIVE_REQ 7, 5), (Reg.SL_QUOTA.HANDLES 0, 256), (Reg.SL_MGR_ARG1.KEY_SLOT, 1), (Reg.SL_MGR_ARG0.PTR, 0x100000),
    (Reg.SL_MGR_ARG1.LENGTH, 100), (Reg.SL_FW_WIN00.BASE 0 0, 0x100), (Reg.SL_FW_WIN08.SIZE 0 0, 0x400), (Reg.SL_FW_WIN00.BASE 5 0, 0x40), (Reg.SL_FW_WIN08.SIZE 5 0, 1)] ++ l)).upd fun b =>
    { b with slices := if v = SliceState.reset then [] else [(5, v)] }

theorem witness_SliceRequests_open :
    let b := (Lab.ten 1 SliceState.reset []).blk
    b.nameable 7 = true ∧ b.nameable 0 = false ∧ b.sliceState 7 = Slice.FREE ∧
    (b.liveSlices.any fun k => decide (b.fnOf k = b.fnOf 7) && decide (b.pasid k = b.pasid 7)) = false ∧
    ¬ (b.part 0).openSlices ≤ (b.partSlices 0).length ∧ ¬ (b.rd (Reg.SL_QUOTA.HANDLES 7) = 0 ∨ b.rd (Reg.SL_QUOTA.XFER_SLOTS 7) = 0) ∧
    (b.liveSlices.any fun k => decide (b.fnOf k = b.fnOf 6) && decide (b.pasid k = b.pasid 6)) = true := by decide +kernel

theorem witness_SliceRequests :
    (Lab.ten 1 SliceState.reset []).blk.Quiet 5 ∧ (Lab.ten 1 SliceState.reset []).blk.sliceState 5 = Slice.OPEN ∧
    (Lab.ten 4 SliceState.reset []).blk.sliceState 5 = Slice.FROZEN ∧ (Lab.ten 2 SliceState.reset []).blk.sliceState 5 = Slice.RESETTING ∧
    (Lab.ten 3 SliceState.reset []).blk.sliceState 5 = Slice.FREEZING ∧ (Lab.ten 5 SliceState.reset []).blk.sliceState 5 = Slice.RELEASING ∧
    (Lab.ten 6 SliceState.reset []).blk.sliceState 5 = Slice.RESTORING := by
  unfold Block.Quiet; decide +kernel

theorem witness_SliceEnds :
    (Lab.ten 2 SliceState.reset []).blk.cancelsOut 5 = false ∧ (Lab.ten 2 SliceState.reset []).blk.ep.flr = [] ∧
    (Lab.ten 3 { SliceState.reset with freeze := some ⟨0⟩ } []).blk.drained 5 = true ∧
    (Lab.ten 5 { SliceState.reset with releasing := some true } []).blk.cancelsOut 5 = false := by decide +kernel

/-- Slice 5 freezes with a command of queue 0 running since its last mark, which QMASK 15 names in all queues. -/
def Lab.freezing (mask : Nat) : State := (Lab.ten 3 { SliceState.reset with freeze := some ⟨0⟩, snapshot := [(9, 4)] } ([(Reg.SL_MARK_STATUS.VALID 5, 1),
  (Reg.SL_MARK_CFG.QMASK 5, mask)] ++ (List.range 4).map fun c => (Reg.SL_Q_STATUS.STATE 5 c, Q.RUNNING))).upd fun b =>
  b.setQ 5 0 { QueueState.reset with inflight := [⟨1, Lab.cmd 0x01 [], 1, 1, none, false, false⟩], log := [Lab.cmd 0x01 []] }

theorem witness_SliceEnds_timeout :
    let b := (Lab.freezing 15).blk
    b.drained 5 = false ∧ b.recovering 0 = false ∧ b.is (Reg.SL_MARK_STATUS.VALID 5) = true ∧ (b.slice 5).unreplayable = false ∧ b.pos = [] ∧
    b.sites = [] ∧ b.dn.parts = [] ∧ (∀ c : ClassNo, (b.rd (Reg.SL_MARK_CFG.QMASK 5)).testBit c = true ∧ b.qState 5 c ≠ Q.DISABLED) ∧
    ((Lab.freezing 14).blk.rd (Reg.SL_MARK_CFG.QMASK 5)).testBit 0 = false ∧ ((Lab.freezing 14).blk.q 5 0).inflight ≠ [] := by decide +kernel

theorem witness_SaveAndRestore :
    let b := (Lab.ten 4 SliceState.reset [(Reg.SL_FW_WIN08.VALID 5 0, 0)]).blk
    Sec.ptrOk (b.rd Reg.SL_MGR_ARG0.PTR) = true ∧ (SMap.get (fun _ => none) b.keys.slot (b.rd Reg.SL_MGR_ARG1.KEY_SLOT)).isSome = true ∧
    (b.slice 5).handles = [] ∧ (b.savedReqs 5).length = 0 ∧ b.imagePages 5 = [] ∧ 1 + 2 + 1 ≤ b.rd Reg.SL_MGR_ARG1.LENGTH ∧
    (b.slice 0).handles.length < min 256 (b.rd (Reg.SL_QUOTA.HANDLES 0)) ∧ b.journalFree = some 0 ∧ b.sliceState 7 = Slice.FREE := by decide +kernel

/-- Slice 5's long operation `o` under handle 3 of slice 0, whose ring is full. -/
def Lab.longOp (st : Nat) (o : SliceOp) (l : List (Fld × Nat)) : State :=
  (Lab.ten st SliceState.reset ([(Reg.SL_CRING_TAIL.INDEX 0, 2 ^ (State.reset.blk.rd (Reg.SL_CRING_CFG.LOG2_SIZE 0))),
    (Reg.SL_FW_WIN08.VALID 5 0, 0), (Reg.MH_JOURNAL00.STATE 2, 1)] ++ l)).upd fun b =>
    { b with slices := [(0, { SliceState.reset with handles := [⟨3, [], none⟩] }), (5, { SliceState.reset with op := some o })] }

theorem witness_SaveAndRestore_ends :
    let b := (Lab.longOp 4 ⟨false, 0x100000, 100, 9, 3, 2⟩ []).blk
    b.ext.need = [] ∧ (b.slice 5).op = some ⟨false, 0x100000, 100, 9, 3, 2⟩ ∧ b.HandleAlone 3 ∧ SMap.get (fun _ => none) b.keys.slot 9 = none ∧
    (Lab.longOp 6 ⟨true, 0x100000, 100, 9, 3, 2⟩ []).blk.sliceState 5 = Slice.RESTORING := by
  unfold Block.HandleAlone; decide +kernel

/-- NOR bytes programmed. -/
def Lab.nor (s : State) (l : List (Nat × Nat)) : State := s.upd fun b =>
  { b with boot := { b.boot with nor := { b.boot.nor with bytes := l.foldl (fun m e => SMap.put (fun _ => 0xFF) m e.1 (BitVec.ofNat 8 e.2)) b.boot.nor.bytes } } }

/-- Layouts 0 and 1 give partition 0 shelf group 0 and group 1, and the image has no register records; no slice but 0 is open. -/
def Lab.layouts : State := Lab.nor (Lab.set (Lab.ten 0 SliceState.reset []) [(Reg.SL_MGR_ARG1.LAYOUT, 1)])
  (((List.range 4).map fun i => (0x400016 + i, 0)) ++ (List.range 2).flatMap fun l => (List.range 4).map fun i => (0x400000 + 0x100 + 2048 * l + 8 + i, if i = 0 then l + 1 else 0))

theorem witness_Partitions :
    let b := Lab.layouts.blk
    b.coh.dir = [] ∧ b.layouts = 15 ∧ b.changedParts 1 = [0] ∧ b.partSlices 0 = [] ∧ b.ten.reform = none ∧ b.journalFree = some 0 ∧
    b.movedBits 0 1 32 PartRec.groups = [0, 1] ∧ b.partEmpty 0 = false ∧ b.partEmpty 3 = true ∧
    (Lab.set Lab.layouts [(Reg.SL_STATUS.STATE 5, 1)]).blk.partSlices 0 = [5] := by decide +kernel

theorem witness_Partitions_reset : ∀ k, (Lab.ten 1 SliceState.reset []).blk.Quiet k := by
  intro k; exact ⟨by decide +kernel, by decide +kernel, by decide +kernel, by unfold Block.slice; rfl⟩

/-- Partition 0's reset, with slice 5 RESETTING; and a re-form to layout 1. -/
def Lab.partReset : State := (Lab.ten 2 SliceState.reset []).upd fun b => { b with ten := { b.ten with resets := [⟨0, false, 0⟩] } }
def Lab.reform : State := Lab.nor ((Lab.longOp 0 ⟨false, 0, 0, 0, 0, 0⟩ []).upd fun b =>
  { b with slices := [(0, { SliceState.reset with handles := [⟨3, [], none⟩] })], ten := { b.ten with reform := some ⟨1, [0], 3, 2⟩ } })
  (((List.range 4).map fun i => (0x400016 + i, 0)) ++ (List.range 2).flatMap fun l => (List.range 4).map fun i => (0x400000 + 0x100 + 2048 * l + 8 + i, if i = 0 then l + 1 else 0))

theorem witness_Partitions_done :
    Lab.partReset.blk.ten.resets = [⟨0, false, 0⟩] ∧ Lab.partReset.blk.sites = [] ∧ Lab.partReset.blk.pos = [] ∧ Lab.partReset.blk.fc.opened = [] ∧
    Lab.reform.blk.ten.reform = some ⟨1, [0], 3, 2⟩ ∧ Lab.reform.blk.HandleAlone 3 ∧ Lab.reform.blk.ten.deferred = [] := by
  unfold Block.HandleAlone; decide +kernel

theorem witness_Mailboxes :
    (Lab.ten 1 { SliceState.reset with outBusy := true, inValid := true } []).blk.slice 5 = { SliceState.reset with outBusy := true, inValid := true } ∧
    ((Lab.ten 1 SliceState.reset []).blk.slice 5).outBusy = false ∧ 0x4005 % 256 < 0x80 := by decide +kernel

/-- A read of position 5's port, ensign `e`, to shelf group 0; and its response. -/
def Lab.hyReq (e : Fin 8) : HyCmd := ⟨0, 37, e, 0, 9, 255, 5, 1, 0x40, 0⟩
def Lab.hyRsp : HyCmd := ⟨37, 0, 3, 4, 9, 255, 5, 1, 0x40, 7⟩

/-- The network with registers `l` and state `h`. -/
def Lab.hy (l : List (Fld × Nat)) (h : HyState) : State := (Lab.set Lab.base l).upd fun b => { b with hy := h }

/-- A request of port 37 outstanding at ensign 3, and the network holding it. -/
def Lab.hyPkt : HyPacket := ⟨0, 37, 3, 0, 9, 256, 5, 1, false, 0x40, 0, 0⟩
def Lab.hyOut : HyState := { HyState.reset with outstanding := [⟨Lab.hyPkt, 0⟩], live := [(37, ⟨1, 2, 3, 4, 5⟩)] }

/-- Shelf group 0's domain is gated and being woken for a packet. -/
def Lab.hyHeld (p : HyPacket) : State := Lab.hy [(⟨(Reg.PW_GATED.GATED 1).off, 44, 1⟩, 1)] { Lab.hyOut with heldPkts := [p], waking := [108] }

theorem witness_HalyardPackets :
    let s := Lab.hy [(Reg.HY_ENS.PERMIT 37, 8), (Reg.HY_CEIL.CEIL 37 3, 1), (Reg.HY_REG.RATE_MAX 37 3, 8)] HyState.reset
    s.blk.hy.waiting = [] ∧ (0 : Int) ≤ s.blk.hyTokens 37 3 ∧ ((s.blk.hy.outstanding.filter fun o => decide (o.pkt.src = 37 ∧ o.pkt.ensign = 3)).length <
      max 1 (s.blk.rd (Reg.HY_CEIL.CEIL 37 3))) ∧ ((Hy.domains 0 0x40).all fun x => !s.blk.gated x) = true := by decide +kernel

theorem witness_HalyardPackets_waits :
    let s := Lab.hy [(Reg.HY_ENS.PERMIT 37, 8), (Reg.HY_CEIL.CEIL 37 3, 1)] Lab.hyOut
    ¬ ((s.blk.hy.outstanding.filter fun o => decide (o.pkt.src = 37 ∧ o.pkt.ensign = 3)).length < max 1 (s.blk.rd (Reg.HY_CEIL.CEIL 37 3))) ∧
    s.blk.hyFind 37 9 = some ⟨Lab.hyPkt, 0⟩ ∧ (Lab.hy [] HyState.reset).blk.hyFind 37 9 = none ∧ Lab.hyRsp.kind = 4 := by decide +kernel

theorem witness_HalyardDomains :
    let s := Lab.hyHeld Lab.hyPkt
    NSet.has s.blk.hy.waking 108 = true ∧ s.blk.hy.heldPkts = [Lab.hyPkt] ∧ Hy.domains Lab.hyPkt.dst Lab.hyPkt.addr = [108] ∧ s.blk.gated 108 = true ∧
    s.blk.hyFind 37 9 = some ⟨Lab.hyPkt, 0⟩ ∧ Lab.base.blk.is Reg.PW_GATE_CFG.EN = true ∧ Hy.alwaysOn 3 = false ∧ Hy.alwaysOn 204 = true := by decide +kernel

/-- Host traffic: the hub in service with its PF's memory enabled, VFs 1 to 32 enabled, and fields `l`. -/
def Lab.host (l : List (Fld × Nat)) : State :=
  Lab.set (Lab.base.upd fun b => { b with ep := { b.ep with cfg := [(0x004, 0x00100006), (0x188, 9), (0x190, 32)], sampled := some (0x142400, 0) } })
    ([(Reg.EP_FN_STATUS.MSE 0, 1), (Reg.EP_FN_STATUS.BME 0, 1), (Reg.EP_FN_STATUS.MSE 1, 1), (Reg.EP_FN_STATUS.BME 1, 1), (Reg.EP_FN_STATUS.MSE 4, 1)] ++ l)

/-- A packet under no stream, and one that is covered by stream 2. -/
def Lab.noIde : IdeTlp := ⟨none, false, true, false⟩
def Lab.ide2 : IdeTlp := ⟨some 2, true, true, true⟩

/-- Window 3 of the PF over 64 KiB of the shelf from BAR offset 0x2000, in slice 0; window 1 of VF 1, in slice 5, may only be read. -/
def Lab.wins : List (Fld × Nat) :=
  [(Reg.EP_WIN_PF00.BAR_OFF 3, 2), (Reg.EP_WIN_PF08.DLA_BASE 3, 0x100), (Reg.EP_WIN_PF10.SIZE 3, 16), (Reg.EP_WIN_PF10.R 3, 1), (Reg.EP_WIN_PF10.W 3, 1),
    (Reg.EP_WIN_PF10.VALID 3, 1), (Reg.EP_WIN_VF00.BAR_OFF 1 1, 2), (Reg.EP_WIN_VF08.DLA_BASE 1 1, 0x100), (Reg.EP_WIN_VF10.SIZE 1 1, 16),
    (Reg.EP_WIN_VF10.SLICE 1 1, 5), (Reg.EP_WIN_VF10.R 1 1, 1), (Reg.EP_WIN_VF10.VALID 1 1, 1)]

theorem witness_InboundChecks :
    let r : BarReq := ⟨0, 5, 0x2000, .atomic, Lab.noIde⟩
    let s := Lab.host []
    (s.blk.ideIn 0 Lab.noIde).2 = true ∧ s.blk.barShut r = false ∧ Lab.base.blk.barShut r = true ∧ s.blk.ext.need = [] ∧ s.blk.ext.used = [] ∧
    NSet.has s.blk.ep.insecure 2 = false ∧ s.blk.tdiState 0 = 0 ∧ s.blk.rd (Reg.EP_FN_STATUS.MSE 0) = 1 ∧
    (Lab.host [(Reg.MH_STATUS.DEVICE_FATAL, 1)]).blk.rd Reg.MH_STATUS.DEVICE_FATAL = 1 := by decide +kernel

theorem witness_InboundChecks_insecure :
    NSet.has ((Lab.host []).upd fun b => { b with ep := { b.ep with insecure := [2] } }).blk.ep.insecure 2 = true := by decide +kernel

theorem witness_RegistersAndPages :
    let s := Lab.host [(Reg.SL_CFG.PARTITION 5, 0)]
    s.blk.lc ≠ Lc.END_OF_LIFE ∧ s.blk.dbStride = 4096 ∧ s.blk.slicePart 5 + 1 = 1 ∧ s.blk.barShut ⟨1, 5, 0x5008, .read 3, Lab.noIde⟩ = false ∧
    s.blk.slicePart 6 + 1 = 1 ∧ s.blk.rd Reg.MH_STATUS.DEVICE_FATAL = 0 ∧ (s.blk.ideIn 1 Lab.noIde).2 = true := by decide +kernel

theorem witness_HostWindows :
    let s := Lab.host Lab.wins
    let w := s.blk.winFor 0 0x2040 4 false
    (w.map fun w => (w.dla + 0x2040 - w.off, w.slice)) = some (0x100040, 0) ∧ (s.blk.winFor 1 0x2040 4 true) = none ∧
    (s.blk.winFor 1 0x2040 4 false).isSome = true ∧ s.blk.winFor 0 0x11FFE 4 false = none ∧
    (s.blk.dlaRead (s.blk.mkWho (.host 0) (some 0) 0) 0x100040 4).2 = (Code.SUCCESS, [0, 0, 0, 0]) ∧
    (s.blk.dlaWrite (s.blk.mkWho (.host 0) (some 0) 0) 0x100040 [1, 2]).2 = Code.SUCCESS := by decide +kernel

theorem witness_ConfigRequests :
    let s := Lab.host []
    s.blk.rd Reg.MH_STATUS.READY = 1 ∧ s.blk.fnExists 1 = true ∧ Lab.base.blk.fnExists 1 = false ∧ s.blk.bme 0 = true ∧ bit (s.blk.cfg 0 4) 2 = true ∧
    bit (s.blk.cfg 0 4) 1 = true ∧ Lab.base.blk.ep.cfg = [] ∧ State.reset.blk.rd Reg.MH_STATUS.READY = 0 := by decide +kernel

/-- A read of 8 bytes by the command processor of position 0, a slot that holds it, and the quarantine of that slot's generation. -/
def Lab.hostNeed : ExtNeed := ⟨⟨.cmd 0, some 5, 0, 1⟩, .host 1 3 0x1000, 8, .read, 0⟩
def Lab.hostSlot : HostSlot := ⟨1, 2, Lab.hostNeed, 0x1000, 8, 0, [], 0, 80000000, none, false⟩
def Lab.quarantined (late : Bool) : Quarantine := ⟨7, 2, 1, 8, late⟩

/-- Host traffic with endpoint state changed by `f`. -/
def Lab.hostEp (l : List (Fld × Nat)) (f : EpState → EpState) : State :=
  (Lab.host l).upd fun b => { b with ep := f b.ep, ext := { b.ext with sent := [Lab.hostNeed] } }

/-- Slot 7 holds VF 1's read. -/
def Lab.hostBusy : State := Lab.hostEp [] fun e => { e with slots := [(7, some Lab.hostSlot)], slotGen := [(7, 2)] }

/-- VF 1 without Bus Master Enable: slice 5 has an entry for a ring in the shelf, or vector 1 is pending and unmasked. -/
def Lab.hostStopped (es : List CEntry) (ps : NSet) : State :=
  (Lab.hostEp [(Reg.EP_FN_STATUS.BME 1, 0), (Reg.SL_CRING_BASE.BASE 5, 0x100000), (Reg.SL_CRING_CFG.LOG2_SIZE 5, 6)] fun e =>
    { e with msixUnmasked := [2049], msixPending := ps, cfg := e.cfg ++ [(4096 + 0x50, 0x80000000)] }).upd fun b =>
    { b with slices := if es = [] then [] else [(5, { SliceState.reset with entries := es })] }

theorem witness_FunctionEnables :
    let s := Lab.hostStopped [⟨2, 0, 0, 0, 0, 0, 0, 0, none, 1⟩] []
    let b := (s.blk.wr (Reg.EP_FN_STATUS.BME 1) 1).setCfg 1 4 (setBits (s.blk.cfg 1 4) 2 1 1)
    s.blk.fnExists 1 = true ∧ s.blk.bme 1 = false ∧ s.blk.ext.need = [] ∧ s.blk.ext.used = [] ∧ s.blk.dn.slices = [] ∧ s.blk.ep.wbWaits = [] ∧
    b.revoked 1 = false ∧ s.blk.slices.map Prod.fst = [5] ∧ s.blk.fnOf 5 = 1 ∧ s.blk.ep.msixPending = [] ∧ (s.blk.slice 5).stall = none ∧
    (Lab.hostStopped [] [2049]).blk.ep.msixPending = [2049] ∧ (Lab.hostStopped [] [2049]).blk.slices = [] := by decide +kernel

/-- The PF in D3hot, with an entry of slice 0. -/
def Lab.hostAsleep : State := (Lab.host [(Reg.EP_FN_STATUS.D3HOT 0, 1)]).upd fun b =>
  { b with slices := [(0, { SliceState.reset with entries := [⟨2, 0, 0, 0, 0, 0, 0, 0, none, 1⟩] })] }

theorem witness_FunctionEnables_asleep :
    let s := Lab.hostAsleep
    let b := (s.blk.wr (Reg.EP_FN_STATUS.D3HOT 0) 0).setCfg 0 0x44 (setBits (s.blk.cfg 0 0x44) 0 2 0)
    s.blk.rd (Reg.EP_FN_STATUS.D3HOT 0) = 1 ∧ b.revoked 0 = false ∧ s.blk.ext.need = [] ∧ s.blk.ext.used = [] ∧ s.blk.dn.slices = [] ∧
    s.blk.slices.map Prod.fst = [0] ∧ s.blk.fnOf 0 = 0 ∧ (s.blk.slice 0).stall = none := by decide +kernel

theorem witness_FunctionResets :
    let b := Lab.hostBusy.blk
    b.coh.dir = [] ∧ b.sites = [] ∧ b.pos = [] ∧ b.sec.installs = [] ∧ b.ten.resets = [] ∧ b.slices = [] ∧ b.fnExists 1 = true ∧ b.partEmpty 0 = false ∧
    b.partEmpty 3 = true ∧ b.vfEnabled = true ∧ b.numVfs = 32 ∧ Lab.base.blk.vfEnabled = false ∧ Lab.base.blk.fnExists 1 = false := by decide +kernel

/-- The link may train. -/
def Lab.linkable : State := (Lab.host []).upd fun b =>
  { b with boot := { b.boot with power := true, perst := false, preamble := false }
           ep := { b.ep with cfg := [(0x004, 0x00100006), (0x190, 4)] } }

theorem witness_FunctionResets_link :
    Lab.linkable.blk.boot.power = true ∧ Lab.linkable.blk.boot.perst = false ∧ Lab.linkable.blk.boot.preamble = false ∧
    State.reset.blk.boot.preamble = true ∧ Lab.linkable.blk.numVfs = 4 ∧ Lab.linkable.blk.vfEnabled = false := by decide +kernel

theorem witness_HostAnswers :
    Lab.hostBusy.blk.slot 7 = some Lab.hostSlot ∧ (0x2007#14).toNat % 4096 = 7 ∧ (0x2007#14).toNat / 4096 = 2 ∧ Lab.hostBusy.blk.ep.waiting = [] ∧
    (Lab.hostEp [] fun e => { e with quarantine := [Lab.quarantined true] }).blk.slot 7 = none ∧
    (Lab.hostEp [] fun e => { e with quarantine := [Lab.quarantined true] }).blk.ep.quarantine = [Lab.quarantined true] := by decide +kernel

/-- A session is open, and VF 1's TDI is in state `n`. -/
def Lab.session (n : Nat) : State := (Lab.host [(Reg.EP_FN_STATUS.TDI_STATE 1, n)]).upd fun b =>
  { b with sec := { b.sec with sessions := 1 }, ep := { b.ep with insecure := [2] } }

theorem witness_Attestation :
    let b := (Lab.session 0).blk
    b.rd Reg.MH_STATUS.READY = 1 ∧ b.sec.sessions = 1 ∧ b.fnExists 1 = true ∧ b.tdiState 1 = 0 ∧ (Lab.session 1).blk.tdiState 1 = 1 ∧
    b.rd (Reg.EP_FN_STATUS.RESETTING 1) = 0 ∧ (b.measurements 6).isSome = true ∧ State.reset.blk.rd Reg.MH_STATUS.READY = 0 := by decide +kernel

/-- The hub as device 9, port 1 in state `st` with both halves, and its link `l`; fields `fs`. -/
def Lab.rch (st : Nat) (l : ReachPort) (fs : List (Fld × Nat)) : State :=
  (Lab.set Lab.base ([(Reg.RCH_DEV.DEV_ID, 9), (Reg.RCH_STATUS.STATE 1, st), (Reg.RCH_STATUS.HALVES 1, if st = 2 then 3 else 0),
    (Reg.RCH_SLOT_STATUS.LINK_ACTIVE 1, if st = 2 then 1 else 0), (Reg.RCH_CFG.EN 1, 1), (Reg.RCH_CFG.SER_LIMIT 1, 10), (Reg.RCH_SLOT_CAP.PWR_CTRL 1, 1),
    (Reg.RCH_SLOT_CAP.ATTN_BTN 1, 1), (Reg.RCH_SLOT_CTRL.HP_INT_EN 1, 1), (Reg.RCH_SLOT_CTRL.CC_EN 1, 1), (Reg.RCH_SLOT_CTRL.VECTOR 1, 6), (Reg.RCH_SLOT_CTRL.PWR_OFF 1, 0),
    (Reg.RCH_PEER00.VALID 3, 1), (Reg.RCH_PEER08.PRI_ROUTE 3, 1), (Reg.RCH_PEER00.DEV_ID 3, 20)] ++ fs)).upd fun b =>
    { b with reach := { b.reach with ports := SMap.put (fun _ => ReachPort.reset) b.reach.ports 1 l } }

/-- A trained port with credits for both channels, and one that holds frames 4 and 5 and expects frame 8. -/
def Lab.rchCalm : ReachPort := { ReachPort.reset with trained := true, trainAt := some 0, reqCr := 64, rspCr := 64, rxNext := 8 }
def Lab.rchBusy : ReachPort := { Lab.rchCalm with held := [⟨4, [1]⟩, ⟨5, [2]⟩], txSeq := 6 }

/-- A frame of kind `kind` with SEQ `seq` and ACK `ack`, its CRC right. -/
def Lab.rframe (kind : Nat) (seq ack : BitVec 16) : ReachFrame :=
  let f : ReachFrame := ⟨seq, ack, 5, 7, [], 0, none⟩
  { f with crc := BitVec.ofNat 32 (ReachFrame.crcOf f kind) }

/-- A frame whose payload is a whole packet, a read of device 9. -/
def Lab.rsend : ReachFrame :=
  let k : RPacket := ⟨9, 20, 5, 1, 2, 6, 15, 0, 0, 1, 1, 0, 0, 0x100040, 0, []⟩
  let f : ReachFrame := ⟨8, 3, 0, 0, k.bytes, 0, none⟩
  { f with crc := BitVec.ofNat 32 (ReachFrame.crcOf f 0) }

theorem witness_ReachLinks :
    let b := (Lab.rch 1 { ReachPort.reset with trained := true, trainAt := some 3 } []).blk
    (b.rport 1).trainAt ≠ none ∧ (b.rport 1).retired ≠ 3 ∧ b.slotPowered 1 = true ∧ b.rd (Reg.RCH_STATUS.STATE 1) = Rch.TRAINING ∧ (b.rport 1).trained = true ∧
    b.rd (Reg.RCH_SLOT_STATUS.LINK_ACTIVE 1) = 0 ∧ b.rd Reg.RCH_DEV.DEV_ID = 9 ∧ (Lab.rch 2 Lab.rchCalm []).blk.rd (Reg.RCH_STATUS.STATE 1) = Rch.UP ∧
    ((Lab.rch 1 { ReachPort.reset with trainAt := some 3 } []).blk.rport 1).trained = false ∧ b.rd (Reg.RCH_CFG.SER_LIMIT 1) < (11#32).toNat ∧
    State.reset.blk.rd (Reg.RCH_STATUS.STATE 1) = Rch.DOWN ∧ (Lab.rch 3 Lab.rchCalm []).blk.rd (Reg.RCH_STATUS.STATE 1) = Rch.ISOLATED := by decide +kernel

theorem witness_ReachFrames :
    let b := (Lab.rch 2 Lab.rchCalm []).blk
    b.rchUp 1 = true ∧ (∀ n : Fin 8, SMap.get (fun _ => 0) b.fc.corruptFrames (Src.reachLane 1 n) = 0) ∧ (b.rport 1).framesSinceAck < 63 ∧
    (b.rport 1).rxNext = (8#16).toNat ∧ (b.rport 1).txq = [] ∧ (b.rport 1).txWait = [] ∧ (b.rport 1).held = [] ∧ (b.rport 1).widthChange = none ∧
    ((Lab.rch 2 Lab.rchBusy []).blk.rport 1).held.findIdx? (fun h => h.seq = (4#16).toNat) = some 0 ∧
    ((Lab.rch 2 Lab.rchBusy []).blk.rport 1).held.findIdx? (fun h => h.seq = (3#16).toNat) = none ∧ b.rd (Reg.RCH_STATUS.HALVES 1) = 3 ∧ b.rchUp 0 = false := by
  decide +kernel

theorem crc32cBits_lt (k c : Nat) (h : c < 2 ^ 32) : crc32cBits k c < 2 ^ 32 := by
  induction k generalizing c with
  | zero => exact h
  | succ k ih =>
    refine ih _ ?_
    have hs : c >>> 1 < 2 ^ 32 := by simp only [Nat.shiftRight_eq_div_pow]; omega
    split
    · exact Nat.xor_lt_two_pow hs (by decide)
    · exact hs

theorem crc32c_lt (bs : List Byte) : crc32c bs < 2 ^ 32 := by
  suffices h : ∀ (l : List Byte) (c : Nat), c < 2 ^ 32 → l.foldl (fun c b => crc32cBits 8 (c ^^^ b.toNat)) c < 2 ^ 32 from
    Nat.xor_lt_two_pow (h _ _ (by decide)) (by decide)
  intro l
  induction l with
  | nil => exact fun c h => h
  | cons a l ih => exact fun c h => ih _ (crc32cBits_lt 8 _ (Nat.xor_lt_two_pow h (by omega)))

theorem witness_ReachFrames_crc (kind : Nat) (seq ack : BitVec 16) :
    (Lab.rframe kind seq ack).fec = none ∧ (Lab.rframe kind seq ack).crc.toNat = ReachFrame.crcOf (Lab.rframe kind seq ack) kind :=
  ⟨rfl, by simpa [Lab.rframe, ReachFrame.crcOf] using crc32c_lt _⟩

/-- A read of 16 bytes of the shelf by device 20 in slice 5, at its last hop; and the same packet with a hop to go through port 0. -/
def Lab.rhdr (hop hops : Fin 31) (route : BitVec 60) (tag : BitVec 14) : ReachHdr := ⟨9, 20, 5, 2, tag, 15, route, hop, hops, 0, 0, 0x100040, 0⟩

/-- Device 20 is admitted to slice 5; ports 0 and 1 are up; a read through entry 3 and a wait wait for their answers. -/
def Lab.rchReqs (l : List ReachReq) (fs : List (Fld × Nat)) : State :=
  (Lab.rch 2 Lab.rchCalm ([(Reg.RCH_ADMIT.VALID 4, 1), (Reg.RCH_ADMIT.SRC_DEV 4, 20), (Reg.RCH_ADMIT.SLICE 4, 5), (Reg.RCH_STATUS.STATE 0, 2)] ++ fs)).upd fun b =>
    ({ b with
      reach := { b.reach with ports := SMap.put (fun _ => ReachPort.reset) b.reach.ports 0 Lab.rchCalm, reqs := l }
      ext := { b.ext with sent := l.map fun r => r.need } } : Block).modQ 5 0 fun q => { q with
        inflight := [⟨8, Lab.cmd 0x11 [0x40010000, 5, 100], 0, 1, none, false, false⟩], block := some (.wait 8) }

def Lab.rreq (tag : Nat) (late reg : Bool) : ReachReq := ⟨tag, 1, 3, false, ⟨⟨.cmd 0, some 5, 0, 1⟩, .peer 3 0x40, 8, .read, 0⟩, 0, late, reg⟩
def Lab.rwait (tag : Nat) (reg : Bool) : ReachReq := ⟨tag, 1, 3, false, ⟨⟨.cmd 0, some 5, 0, 1⟩, .peerWait 3 0x40 7 (20 * 65536 + 8), 8, .read, 0⟩, 0, false, reg⟩

theorem witness_ReachPackets :
    let s := Lab.rchReqs [Lab.rreq 6 false false, Lab.rwait 7 true] []
    s.blk.rchUp 1 = true ∧ s.blk.ext.need = [] ∧ s.blk.ext.used = [] ∧ s.blk.admitted 20 5 = true ∧ s.blk.admitted 21 5 = false ∧ s.blk.rchUp 0 = true ∧
    (RPacket.of .read (Lab.rhdr 1 1 0 6) []).dst = s.blk.rd Reg.RCH_DEV.DEV_ID ∧ s.blk.rchReq 6 = some (Lab.rreq 6 false false) ∧ s.blk.rchReq 9 = none ∧
    s.blk.ext.sent.contains (Lab.rreq 6 false false).need = true ∧ (s.blk.queue 20).block = some (.wait 8) := by decide +kernel

theorem witness_ReachPackets_request :
    let s := Lab.rchReqs [] []
    let b := s.blk.setRPort 1 { s.blk.rport 1 with owedReq := 3 }
    let r := b.rchPerform 1 { RPacket.of .read (Lab.rhdr 1 1 0 6) [] with ret := 1 }
    (r.2.1 = Code.SUCCESS ∧ r.1.ext = s.blk.ext ∧ r.1.out = s.blk.out ∧ r.1.rchUp 1 = true) ∧
    (findIdx 256 fun i => s.blk.is (Reg.RCH_RELAY00.VALID i) && decide (s.blk.rd (Reg.RCH_RELAY00.DEV_ID i) = 30)) = none := by decide +kernel

theorem witness_ReachSlots :
    let b := (Lab.rch 2 Lab.rchCalm [(Reg.RCH_SLOT_STATUS.PRESENT 1, 1)]).blk
    b.is (Reg.RCH_SLOT_STATUS.PRESENT 1) = true ∧ b.slotPowered 1 = true ∧ b.is (Reg.RCH_SLOT_CAP.PWR_CTRL 1) = true ∧ b.is (Reg.RCH_SLOT_CTRL.PWR_OFF 1) = false ∧
    b.is (Reg.RCH_SLOT_CAP.ATTN_BTN 1) = true ∧ 3 ∈ b.pathsVia 1 false ∧ (Lab.rch 2 Lab.rchCalm [(Reg.RCH_SLOT_CAP.ATTN_BTN 1, 0)]).blk.is (Reg.RCH_SLOT_CAP.ATTN_BTN 1) = false := by decide +kernel

/-- Port 1 is off, and may train once it is powered. -/
def Lab.rchOff : State := (Lab.rch 0 ReachPort.reset [(Reg.RCH_SLOT_CTRL.PWR_OFF 1, 1)]).upd fun b => { b with boot := { b.boot with pllLocked := true } }

theorem witness_ReachSlots_off :
    Lab.rchOff.blk.boot.pllLocked = true ∧ Lab.rchOff.blk.is (Reg.RCH_SLOT_CTRL.PWR_OFF 1) = true ∧ Lab.rchOff.blk.is (Reg.RCH_CFG.EN 1) = true ∧
    Lab.rchOff.blk.rd (Reg.RCH_STATUS.STATE 1) = Rch.DOWN ∧ (Lab.rchOff.blk.rport 1).retired ≠ 3 := by decide +kernel

/-- A collector with its log empty and kind 0x70 reacting as `act` with `bucket`; fields `fs`. -/
def Lab.fc (act bucket ack : Nat) (fs : List (Fld × Nat)) : State :=
  Lab.set Lab.base ([(Reg.FC_REACT.ACTION 0x70, act), (Reg.FC_REACT.BUCKET 0x70, bucket), (Reg.FC_REACT.ACK 0x70, ack), (Reg.FC_LOG_TAIL.INDEX, 4100), (Reg.FC_LOG_HEAD.INDEX, 4097)] ++ fs)

/-- The same with a record of `src` at the head of the queue. -/
def Lab.due (act bucket ack src count : Nat) (fs : List (Fld × Nat)) : State :=
  (Lab.fc act bucket ack fs).upd fun b => { b with now := 50, fc := { b.fc with inQ := [⟨src, 0x70, 7, count, 0x1234, false, false, false, 50⟩] } }

def Lab.opened (rs : List OpenRecord) (restarting : Option Nat) : State :=
  (Lab.fc 0 0 0 []).upd fun b => { b with now := 900, fc := { b.fc with opened := rs, restarting := restarting } }

def Lab.orec (idx : Option Nat) (ack done : Bool) (ws : List FWait) : OpenRecord := ⟨3, idx, ack, false, done, ws, 10⟩

/-- A queue of slice 5 homed at position 0 that cannot issue its front command. -/
def Lab.hung : State :=
  (Lab.set Lab.base [(Reg.SL_Q_STATUS.STATE 5 1, 1), (Reg.SL_Q_CFG.HOME 5 1, 0)]).upd fun b => b.modQ 5 1 fun q => { q with fetched := [Lab.cmd 0x02 []] }

theorem witness_FaultMonitors :
    State.reset.blk.fc.injectPair = none ∧ State.reset.blk.pairState 33 = 0 ∧ Lab.hung.blk.liveSlices.contains 5 = true ∧ Lab.hung.blk.home 5 1 = 0 ∧
    Lab.hung.blk.queueHangs 5 1 = true ∧ Lab.hung.blk.coreOf 0 = some 0 ∧ Lab.hung.blk.queueHangs 5 0 = false := by decide +kernel

theorem witness_WaveAndAcks :
    (Lab.opened [Lab.orec (some 4100) true false [.collector]] (some 5)).blk.fc.restarting ≠ none ∧ State.reset.blk.fc.restarting = none ∧ State.reset.blk.fc.opened = [] ∧
    State.reset.blk.fc.fatalAt = none ∧ (Lab.fc 0 0 0 [(Reg.FC_CFG.FATAL_AUTO_RESET, 1)]).blk.rd Reg.FC_CFG.FATAL_AUTO_RESET = 1 ∧ State.reset.blk.boot.power = true ∧
    State.reset.blk.boot.draining = false := by decide +kernel

/-- Core 3 holds position 2, and core 20 is a spare. -/
def Lab.spared : List (Fld × Nat) :=
  [(Reg.MH_CORE_MAP.VALID 2, 1), (Reg.MH_CORE_MAP.PHYS 2, 3), (Reg.MH_CORE_STATE.STATE 3, 2), (Reg.MH_CORE_STATE.STATE 20, 3)]

theorem witness_RecordHandling :
    let s := Lab.due 1 2 0 3 1 Lab.spared
    let b := s.blk
    let r : Record := ⟨3, 0x70, 7, 1, 0x1234, false, false, false, 50⟩
    (b.fc.inQ = [r] ∧ r.sent ≤ b.now ∧ b.fc.restarting = none ∧ b.fc.opened = [] ∧ b.fc.recoveries = [] ∧ b.fc.rootFailed = false ∧ b.dn.restarting = false ∧ r.kind ≠ Kind.SITE_LOST ∧
      b.rd Reg.FC_LOG_CFG.IRQ_EN = 0 ∧ (b.rd Reg.FC_LOG_TAIL.INDEX + 8192 - b.rd Reg.FC_LOG_HEAD.INDEX) % 8192 ≠ 4096) ∧
    FUnit.ofSource 3 = some (.core 3) ∧ b.posOf 3 = some 2 ∧ b.slicesAt 2 = [] ∧ b.spareCore 3 2 = some 20 ∧ b.posOf 7 = none ∧
    b.rd (Reg.FC_REACT.ACTION 0x70) = 1 ∧ b.rd (Reg.FC_REACT.BUCKET 0x70) = 2 ∧ b.rd (Reg.FC_BUCKET.STRUCK 3) = 0 ∧ FUnit.ofSource Src.collector = some .collector ∧
    FUnit.ofSource 0x845 = some .fatal ∧ FUnit.ofSource 0x906 = some .kept := by decide +kernel

/-- `src` struck, and under a restore test where `test`; fields `fs`. -/
def Lab.struckUnit (src : Nat) (test : Bool) (fs : List (Fld × Nat)) : State :=
  (Lab.set Lab.base ([(Reg.FC_BUCKET.STRUCK src, 1)] ++ (if test then [(Reg.FC_RESTORE.BUSY, 1)] else []) ++ fs)).upd fun b =>
    ({ b with fc := { b.fc with restore := if test then some src else none } } : Block).setBucket src [(70, 3)]

/-- Every position has its core but position 2. -/
def Lab.cores : List (Fld × Nat) :=
  (List.range 32).flatMap fun k => if k = 2 then [] else [(Reg.MH_CORE_MAP.VALID k, 1), (Reg.MH_CORE_MAP.PHYS k, k)]

theorem witness_UnitRestores :
    let b := (Lab.struckUnit 7 false []).blk
    b.rd Reg.FC_RESTORE.BUSY = 0 ∧ b.fc.restore = none ∧ FUnit.ofSource 7 = some (.core 7) ∧ b.rd (Reg.FC_BUCKET.STRUCK 7) = 1 ∧ NSet.has b.boot.fuses.bad 7 = false ∧
    b.inRecovery (.core 7) = false ∧ FUnit.ofSource 0x384 = some (.laneGroup 0 4) ∧ FUnit.ofSource 0x407 = some (.siteCore 0 7) ∧ FUnit.ofSource 0x81A = some (.reachLane 1 2) ∧
    FUnit.ofSource 0x801 = some (.site 1) := by decide +kernel

theorem witness_UnitRestores_core :
    let b := (Lab.struckUnit 7 true Lab.cores).blk
    b.fc.restore = some 7 ∧ b.coreOf 2 = none ∧ (b.posHolder 2).isSome = true ∧ (∀ j : PosNo, b.coreOf j = none → (b.posHolder j).isSome = true → 2 ≤ j) ∧
    (∀ p : PartNo, 7 ∉ (b.part p).spareNames) := by decide +kernel

theorem witness_UnitRestores_spare :
    let b := (Lab.struckUnit 7 true (Lab.cores ++ [(Reg.MH_CORE_MAP.VALID 2, 1)])).blk
    ∀ k : PosNo, b.posHolder k = none ∨ (b.coreOf k).isSome = true := by decide +kernel

/-- A data replay of slice 5 that waits in partition 0, and a CANCEL of a dispatch of slice 5 that is out on site 1. -/
def Lab.replayWaits : State := Lab.base.upd fun b =>
  let b : Block := { b with fc := { b.fc with recoveries := [⟨.dataReplay 5, 0, [], none, .waiting, 1⟩] } }
  b.setSite 1 { b.site 1 with
    tags := [(3, some ⟨.cancel 9 2, 1, false⟩)]
    disp := [(9, some { slice := 5, gen := 0, epoch := 0, ensign := 1, core := some 2, pos := 0, queue := 23, id := 0, since := 0, limitUs := 0, sent := true, cancelled := true, completed := false })] }

/-- Site 1 enrolled with cores 0 to 5, logical core 0 on physical core 2, whose unfence is unanswered. -/
def Lab.unfenced : State :=
  (Lab.set Lab.base [(Reg.ST_STATUS.STATE 1, 4), (Reg.MH_SITE_PRESENT.ENROLLED, 2), (Reg.ST_SWP_BURGEE.DATA 1 3, 0x3F), (Reg.ST_SWP_CORE_MAP.VALID 1 0, 1), (Reg.ST_SWP_CORE_MAP.PHYS 1 0, 2)]).upd fun b =>
    { b with now := 5000, fc := { b.fc with unfences := [⟨1, 0, 2, 10⟩] } }

theorem witness_RecoveriesAndInjection :
    let b := Lab.replayWaits.blk
    b.cancelsOut 5 = true ∧ b.fc.opened = [] ∧ Lab.unfenced.blk.fc.recoveries = [] ∧ Lab.unfenced.blk.fc.unfences.map (fun u => (u.site, u.phys)) = [(1, 2)] ∧
    (Lab.set Lab.base [(Reg.LC_STATUS.STATE, 1)]).blk.lc = Lc.TEST ∧ State.reset.blk.lc ≠ Lc.TEST ∧ State.reset.blk.rd Reg.FC_INJECT08.ADDR < 2 ^ 29 ∧
    FUnit.ofSource 0x45 = some (.bank 5) := by decide +kernel

/-- A hub in life-cycle state `lc`: ARG0 points into the shelf, owner 0 may sign everything for partition 0, which owns slots 1 and 3. -/
def Lab.sec (lc : Nat) (fs : List (Fld × Nat)) : State :=
  Lab.set Lab.base ([(Reg.LC_STATUS.STATE, lc), (Reg.LC_STATUS.NEXT, lc), (Reg.SEC_CMD_ARG0.PTR, 0x100000), (Reg.SL_QUOTA.HANDLES 0, 256), (Reg.SEC_SLOT_OWNER.OWNED 1, 1), (Reg.SEC_SLOT_OWNER.OWNED 3, 1),
    (Reg.SEC_SLOT_OWNER.STATE 1, 1), (Reg.SEC_OWNER30.VALID 0, 1), (Reg.SEC_OWNER30.PARTITIONS 0, 1), (Reg.SEC_OWNER30.PKG 0, 1), (Reg.SEC_OWNER30.IMPORT 0, 1), (Reg.SEC_OWNER30.DEBUG 0, 1),
    (Reg.SEC_CMD_ARG1.DST, 0x8000000000), (Reg.SEC_CMD_ARG2.LENGTH, 2)] ++ fs)

/-- The same with `m` written to the shelf where ARG0 points. -/
def Lab.secMem (lc : Nat) (fs : List (Fld × Nat)) (m : List (Nat × Byte)) : State := (Lab.sec lc fs).upd fun b =>
  { b with shelf := { b.shelf with bytes := m.foldl (fun t e => SMap.put zeroByte t (0x100000 + e.1) e.2) b.shelf.bytes } }

/-- Slice 0's ring is full and it holds handle 3 alone; journal entry 2 runs. -/
def Lab.fullRing (s : State) : State := (Lab.set s [(Reg.SL_CRING_TAIL.INDEX 0, 2 ^ (State.reset.blk.rd (Reg.SL_CRING_CFG.LOG2_SIZE 0))), (Reg.MH_JOURNAL00.STATE 2, 1)]).upd fun b =>
  { b with slices := (0, { SliceState.reset with handles := [⟨3, [], none⟩] }) :: b.slices }

theorem witness_KeySlots :
    let b := (Lab.sec 2 []).blk
    let c := b.secCmd 2 3
    b.keysLive = true ∧ b.slotState 3 = Slot.EMPTY ∧ b.ext.need = [] ∧ Sec.ptrOk (b.rd Reg.SEC_CMD_ARG0.PTR) = true ∧ b.is (Reg.SEC_SLOT_OWNER.OWNED 3) = true ∧ b.lc ≠ Lc.BLANK ∧
    c.ptrRead (c.secWho 0) 0x100000 512 = (c, Code.SUCCESS, zeros 512) ∧ b.slotState 1 ≠ Slot.EMPTY ∧ (Lab.sec 3 []).blk.keysLive = false := by decide +kernel

/-- An install into slot 3's region, whose step 5 has begun where `units` is given. -/
def Lab.install (units : Option Nat) (next digest : Nat) : Install := ⟨3, 2, 0x100000, 0x8000000000, 2, some 3, 0, units, 0, digest, [], next⟩
def Lab.installing (i : Install) (s : State) : State := (Lab.fullRing s).upd fun b => b.secInstalls [i]

theorem witness_KeySlots_clear :
    let b := (Lab.installing (Lab.install none 0 0) (Lab.sec 2 [(Reg.SEC_SLOT_OWNER.STATE 3, 1)])).blk
    b.sec.installs = [Lab.install none 0 0] ∧ b.HandleAlone 3 ∧ (∀ e ∈ b.slices, e.2.op.all (fun o => o.keySlot != 3) = true) ∧ b.slotState 3 ≠ Slot.EMPTY := by
  unfold Block.HandleAlone; decide +kernel

/-- Slice 5 runs a SAVE under migration key 3. -/
def Lab.migrating : State := (Lab.fullRing (Lab.sec 2 [(Reg.SEC_SLOT_OWNER.STATE 3, 1)])).upd fun b =>
  { b with slices := b.slices ++ [(5, { SliceState.reset with op := some ⟨false, 0x100000, 100, 3, 3, 2⟩ })] }

theorem witness_KeySlots_migration :
    let b := Lab.migrating.blk
    b.sec.installs = [] ∧ (b.slices.filter (fun e => e.2.op.any fun o => o.keySlot == 3)).length = 1 ∧ b.HandleAlone 3 ∧ (b.slice 5).op = some ⟨false, 0x100000, 100, 3, 3, 2⟩ := by
  unfold Block.HandleAlone; decide +kernel

theorem witness_Installs :
    let b := (Lab.sec 2 []).blk
    b.regionOf 0x8000000000 8192 = some (b.region 0) ∧ (b.region 0).keyMode = 1 ∧ b.is (Reg.SEC_SLOT_OWNER.OWNED (b.region 0).keySlot) = true ∧ b.keysLive = true ∧ b.lc ≠ Lc.BLANK ∧
    b.slotState (b.region 0).keySlot ≠ Slot.EMPTY ∧ b.sec.installs = [] ∧ (b.slice 0).handles.length < min 256 (b.rd (Reg.SL_QUOTA.HANDLES 0)) ∧ b.journalFree = some 0 ∧
    Sec.ptrOk (b.rd Reg.SEC_CMD_ARG0.PTR) = true := by decide +kernel

/-- Every chunk of a read answers SUCCESS with its bytes, and changes nothing. -/
def Lab.reads (b : Block) (w : Who) (cs : List (Nat × Nat × Nat)) : Bool :=
  cs.all fun c => let q := b.dla w c.1 c.2.1 .read; decide (q.1 = b ∧ q.2.1 = Code.SUCCESS ∧ q.2.2.length = c.2.1)

/-- What a read gives where every chunk of it reads without a change. -/
theorem Lab.fold_reads (b : Block) (w : Who) : ∀ (cs : List (Nat × Nat × Nat)) (acc : List Byte), Lab.reads b w cs = true →
    ∃ d, cs.foldl (fun (acc : Block × Status × List Byte) c =>
      if acc.2.1 ≠ Code.SUCCESS then acc
      else
        let q := acc.1.dla w c.1 c.2.1 .read
        (q.1, q.2.1, acc.2.2 ++ q.2.2)) (b, Code.SUCCESS, acc) = (b, Code.SUCCESS, d) ∧ d.length = acc.length + (cs.map fun c => c.2.1).sum
  | [], acc, _ => ⟨acc, rfl, by simp⟩
  | c :: cs, acc, h => by
    simp only [Lab.reads, List.all_cons, Bool.and_eq_true, decide_eq_true_eq] at h
    obtain ⟨⟨h1, h2, h3⟩, h4⟩ := h
    obtain ⟨d, hd, hl⟩ := Lab.fold_reads b w cs (acc ++ (b.dla w c.1 c.2.1 .read).2.2) h4
    refine ⟨d, ?_, ?_⟩
    · rw [← hd]; simp [h1, h2]
    · rw [hl]; simp [h3]; omega

def Lab.opening : Block := (Lab.installing (Lab.install none 0 0) (Lab.sec 2 [])).blk

theorem Lab.opening_low : Lab.reads Lab.opening (Lab.opening.secWho 0) ((chunksOf 0x100000 0xA200).take 81) = true := by decide +kernel
theorem Lab.opening_high : Lab.reads Lab.opening (Lab.opening.secWho 0) ((chunksOf 0x100000 0xA200).drop 81) = true := by decide +kernel

theorem witness_Installs_open :
    let b := Lab.opening
    (∃ d, b.ptrRead (b.secWho 0) 0x100000 0xA200 = (b, Code.SUCCESS, d) ∧ d.length = 0xA200) ∧ b.HandleAlone 3 ∧ b.ext.need = [] := by
  have h : Lab.reads Lab.opening (Lab.opening.secWho 0) (chunksOf 0x100000 0xA200) = true := by
    have e := List.take_append_drop 81 (chunksOf 0x100000 0xA200)
    rw [← e, Lab.reads, List.all_append, ← Lab.reads, ← Lab.reads, Lab.opening_low, Lab.opening_high]; rfl
  obtain ⟨d, hd, hl⟩ := Lab.fold_reads _ _ _ [] h
  refine ⟨⟨d, ?_, by rw [hl]; decide +kernel⟩, by unfold Block.HandleAlone; decide +kernel, by decide +kernel⟩
  have t : Ptr.tag 0x100000 = 0 := by decide
  have a : Ptr.addr 0x100000 = 0x100000 := by decide
  simp only [Block.ptrRead, Block.dlaRead, t, a]
  rw [hd]; rfl

theorem witness_Installs_unit :
    let b := (Lab.installing (Lab.install (some 1) 0 0) (Lab.sec 2 [])).blk
    let r := b.ptrRead (b.secWho 0) (0x100000 + 0xA200) 4096
    r.1 = b ∧ r.2.1 = Code.SUCCESS := by decide +kernel

theorem witness_Installs_rollback :
    let b := (Lab.installing (Lab.install (some 1) 1 0) (Lab.sec 2 [])).blk
    let r := b.region 0
    let place (x : Nat) : Place := Hbm.place b.hbmNd (x / 256 * 256)
    b.range 0x8000000000 = .hbm 0 ∧ b.regionAt 0 = some r ∧ r.prot = false ∧ r.base % 131072 = 0 ∧ r.size % 131072 = 0 ∧ 4096 ≤ r.base + r.size ∧
    b.regionNums.all (fun m => decide ((b.region m).base + (b.region m).size ≤ r.base) || decide (r.base + r.size ≤ (b.region m).base) || decide (b.region m = r)) = true ∧
    (∀ k < 16, b.writable (place (Hbm.lineX false r.dataX (256 * k))) = true ∧ b.chPhys (place (Hbm.lineX false r.dataX (256 * k))) ≠ b.chPhys (place (r.sealSlotX 0))) ∧
    b.writable (place (r.sealSlotX 0)) = true ∧ b.chState (place (r.sealSlotX 0)) ≠ 3 ∧ b.regionKey r (some 0) = some 7 := by decide +kernel

theorem witness_FirmwareStages :
    let b := (Lab.sec 2 []).blk
    Sec.ptrOk (b.rd Reg.SEC_CMD_ARG0.PTR) = true ∧ b.sec.stage = none ∧ b.journalFree = some 0 ∧ (b.slice 0).handles.length < min 256 (b.rd (Reg.SL_QUOTA.HANDLES 0)) := by decide +kernel

def Lab.staging (s : State) : State := (Lab.fullRing s).upd fun b => { b with sec := { b.sec with stage := some ⟨3, 2, 0x100000⟩ } }

theorem witness_FirmwareStages_done :
    let b := (Lab.staging (Lab.sec 2 [])).blk
    b.sec.stage = some ⟨3, 2, 0x100000⟩ ∧ b.HandleAlone 3 ∧ b.ext.need = [] ∧ (b.ptrRead (b.secWho 0) 0x100000 4096).1 = b ∧ (b.ptrRead (b.secWho 0) 0x100000 4096).2.1 = Code.SUCCESS := by
  unfold Block.HandleAlone; decide +kernel

/-- OTP in life-cycle state TEST or PRODUCTION, every token's digest that of eight zero words where `good`. -/
def Lab.otp (lc : Nat) (good : Bool) : Otp :=
  let d := some (Config.sha384 ((List.range 8).flatMap fun i => natLE 4 (SMap.get (fun _ => 0#32) [] i).toNat))
  let k (e : BitVec 32) : LcRows := ⟨e, e, BitVec.allOnes 32⟩
  ⟨if 1 ≤ lc then k 0xFF else LcRows.blank, if 2 ≤ lc then k 0xFF00 else LcRows.blank, LcRows.blank, 5, BitVec.allOnes 32, if good then [d, d, d, d] else [none, some 7, none, none], 2, 3⟩

theorem witness_LifeCycle :
    let s : State := { Lab.sec 1 [] with fuse := Lab.otp 1 true }
    s.blk.rd Reg.LC_STATUS.NEXT = 1 ∧ s.blk.is Reg.LC_STATUS.LOCKED = false ∧ s.blk.is Reg.LC_STATUS.COMMITTING = false ∧ s.fuse.k0.started ≠ 0 ∧ s.fuse.k1.started = 0 ∧ s.fuse.k2.started = 0 ∧
    s.blk.sec.installs = [] ∧ s.blk.sec.commit = none ∧ s.blk.sec.token = [] := by decide +kernel

theorem witness_LifeCycle_token :
    (Lab.otp 1 true).digests.getD 1 none = some (Config.sha384 ((List.range 8).flatMap fun i => natLE 4 (SMap.get (fun _ => 0) (Lab.sec 1 []).blk.sec.token i).toNat)) := rfl

theorem witness_Debug :
    let b := (Lab.sec 2 [(Reg.SEC_DEBUG.LEVEL, 2)]).blk
    let d : List Byte := (zeros 256).set 136 1
    b.lc = Lc.PRODUCTION ∧ leAt d 96 8 = b.rd Reg.MH_SERIAL.SERIAL ∧ leAt d 136 1 = 1 ∧ leAt d 104 32 = 0 ∧ (∀ i : Fin 4, b.rd (Reg.SEC_DEBUG_NONCE.WORD i) = 0) ∧
    (sliceBytes d 233 23).all (fun x => x = 0) = true ∧ b.ext.need = [] ∧ 2 ≤ b.rd Reg.SEC_DEBUG.LEVEL := by decide +kernel

theorem witness_Debug_memory :
    let b := (Lab.sec 2 [(Reg.SEC_DEBUG.LEVEL, 2)]).blk
    (b.debugMem ⟨.boot, none, 1, 104⟩ 0x100000 16 (fun _ _ => .read)).1.ext.need = [] ∧ (b.debugMem ⟨.boot, none, 1, 104⟩ 0x100000 16 (fun _ _ => .read)).2.1 = Code.SUCCESS := by decide +kernel

/-- The hub of `Lab.base` with fields `fs` and its boot state changed. -/
def Lab.boot (fs : List (Fld × Nat)) (f : BootState → BootState) : State := (Lab.set Lab.base fs).upd fun b => { b with boot := f b.boot }

/-- A main sequence whose root PLL is locked. -/
def Lab.locked (fs : List (Fld × Nat)) (f : BootState → BootState) : State :=
  Lab.boot fs fun o => f { o with preamble := false, preambleRan := true, perst := false, mainAt := some 0, pllLocked := true }

/-- A main sequence before its root PLL locks, with an image whose one register record disables site 2, and SPI NOR else erased. -/
def Lab.unlocked (fs : List (Fld × Nat)) (f : BootState → BootState) : State :=
  Lab.boot fs fun o => f { o with
    preamble := false, preambleRan := true, perst := false, mainAt := some 0
    nor := { o.nor with bytes := ([(0x16, 1), (0x17, 0), (0x18, 0), (0x19, 0), (0x7900, 0), (0x7901, 0), (0x7902, 0x20), (0x7903, 4), (0x7904, 1), (0x7905, 4), (0x7906, 0), (0x7907, 0)] ++
      (List.range 8).map fun i => (0x7908 + i, (0 : Byte))).foldl (fun m (e : Nat × Byte) => SMap.put (fun _ => 0xFF) m (0x400000 + e.1) e.2) o.nor.bytes } }

/-- A warm reset whose queues have drained: retired groups, open records, key slots, rebuilds. -/
def Lab.drained : State :=
  (Lab.boot [(Reg.FC_BUCKET.STRUCK 0x271, 1), (Reg.FC_BUCKET.STRUCK 3, 1), (Reg.ST_LANE_STATE.RETIRED 1, 3), (Reg.SEC_SLOT_OWNER.STATE 3, 2), (Reg.MH_JOURNAL00.STATE 2, 1), (Reg.FC_LOG00.PENNANT 3, 9),
    (Reg.FC_LOG_TAIL.INDEX, 4), (Reg.FC_STATUS.SINGLE, 1), (Reg.MH_BOOT_SEAL.SEAL, 1), (Reg.HM_SPARE.FREE 2, 5), (Reg.SEC_STATUS.SPDM_SESSION, 1), (Reg.SL_STATUS.GENERATION 0, 7)]
    fun o => { o with draining := true, cause := 4, preamble := false, preambleRan := true, mainAt := some 9, nor := { o.nor with bootCount := 41, defects := [(4, 77)] }, fuses := ⟨[3], []⟩ }).upd fun b =>
    { b with
      now := 700, slices := b.slices.filter fun e => e.1 = 0
      regs := b.regs.wr (Reg.SL_STATUS.STATE 5) 0
      keys := { b.keys with slot := [(3, some 12)], slice := [(0, some 5), (5, some 6)] }
      sites := [(1, { SiteState.reset with link := { LinkState.reset with pinned := some 5, rate := 3 } }), (2, { SiteState.reset with link := { LinkState.reset with rate := 3 } })]
      reach := { b.reach with ports := [(1, { ReachPort.reset with retired := 2 })] }
      hbm := { b.hbm with bytes := [(5, 7)], tags := [(1, 9)] }
      coh := { b.coh with fenced := [4] }
      fc := { b.fc with opened := [⟨3, some 4, true, false, false, [.collector], 10⟩, ⟨4, some 5, true, true, false, [], 10⟩] } }

theorem witness_DeviceResets :
    let b := Lab.drained.blk
    b.boot.power = true ∧ b.boot.draining = true ∧ b.hbm.stripes = [] ∧ (∀ n ∈ b.liveSlices, n = 0) ∧ (Lab.drained.fuse.decode 0).state.val ≠ 3 ∧ b.sec.axStaged = none ∧ b.boot.mainAt ≠ none ∧
    b.boot.nor.header 0 0 4 ≠ 0x42465A57 ∧ b.boot.nor.header 1 0 4 ≠ 0x42465A57 ∧ Lab.drained.fuse.lastStep = none ∧ State.reset.blk.boot.power = true ∧ State.reset.blk.boot.draining = false ∧
    State.reset.blk.boot.preamble = true ∧ State.reset.blk.boot.preambleRan = false ∧ State.reset.blk.boot.mainAt = none := by decide +kernel

/-- Every unit of a boot has finished, and core 3 failed its BIST. -/
def Lab.finished (fs : List (Fld × Nat)) : State :=
  Lab.locked ([(Reg.MH_STATUS.READY, 0)] ++ (List.range 36).map (fun c => (Reg.MH_CORE_STATE.STATE c, if c = 3 then 1 else 3)) ++ fs) fun o =>
    { o with coreWaves := 4, enrolWaves := 4, shelfDone := true, stacksDone := List.range 8 }

theorem witness_BringUp :
    let b := (Lab.locked [(Reg.ST_STATUS.STATE 1, 3)] fun o => { o with coreWaves := 1, enrolWaves := 1, coresTesting := [5] }).blk
    b.boot.pllLocked = true ∧ b.boot.mainAt ≠ none ∧ b.boot.shelfDone = false ∧ NSet.has b.boot.stacksDone 2 = false ∧ NSet.has b.boot.coresTesting 5 = true ∧ b.linkState 1 = Link.TRAINED ∧ b.enrolled 1 = false ∧
    bit (b.rd Reg.CO_STATUS.RECLAIM_PENDING) 1 = false ∧ b.rd Reg.HM_FE_CFG.HEIGHT = 3 ∧ b.defectPermanent (Src.stack 2) = false ∧ b.boot.resetKind = .cold ∧
    (∀ c < 32, NSet.has b.boot.fuses.bad (Src.channel 2 c) = false ∧ b.defectPermanent (Src.channel 2 c) = false) ∧
    b.frameHeld (Reg.HC_CTRL.CORE_RESET 9).off = false ∧ b.posBusy 9 = false ∧ b.lc ≠ Lc.TEST ∧ (Lab.set Lab.base [(Reg.LC_STATUS.STATE, 1)]).blk.lc = Lc.TEST := by decide +kernel

theorem witness_BringUp_root :
    let b := (Lab.unlocked [(Reg.RCH_SLOT_CTRL.PWR_OFF 1, 0), (Reg.RCH_CFG.EN 1, 1)] id).blk
    b.boot.mainAt ≠ none ∧ b.boot.pllLocked = false ∧ (b.rport 1).retired ≠ 3 ∧ b.rd (Reg.RCH_STATUS.STATE 1) = Rch.DOWN ∧ b.slotPowered 1 = true ∧ (∀ l < 8, b.defectPermanent (Src.reachLane 1 l) = false) := by decide +kernel

theorem witness_BringUp_reconcile :
    let b := (Lab.finished []).blk
    b.boot.mainAt ≠ none ∧ b.boot.pllLocked = true ∧ b.boot.reconciled = false ∧ b.boot.stacksDone.length = 8 ∧ b.boot.coresTesting = [] ∧
    (∀ n : SiteNo, b.linkState n ≠ Link.TRAINING ∧ b.linkState n ≠ Link.RECONCILING) ∧ (b.posHolder 0).isSome = true ∧ b.coreState (Core.nominal 0) = 3 := by decide +kernel

theorem witness_BringUp_shelf :
    let b := (Lab.locked [] id).blk
    (∀ p : Fin 544, NSet.has b.boot.fuses.bad (Src.bank p) = false) ∧ b.rd Reg.SH_GROUP_STATE.STRUCK = 0 ∧ b.shelf.copies = [] ∧
    (∀ lb : Fin 512, b.rd (Reg.SH_BANK_MAP.PBANK lb) = 17 * (lb / 16) + lb % 16) := by decide +kernel

/-- Sites 1 and 13 enrolled, with burgees that name MIN 20, MAX 400, INITIAL 50 and TJ_MAX 95, weight 1 and a package limit; power state `p`. -/
def Lab.powered (fs : List (Fld × Nat)) (p : SitePower) : State :=
  (Lab.set Lab.base ([(Reg.MH_SITE_PRESENT.ENROLLED, 0x2002), (Reg.ST_STATUS.STATE 1, 4), (Reg.ST_STATUS.STATE 13, 4)] ++
    ([1, 13].flatMap fun n => [(Reg.ST_SWP_BURGEE.DATA n 7, 20 + 400 * 2 ^ 12 + 50 * 2 ^ 24 + 95 * 2 ^ 36), (Reg.PW_SITE_CFG.WEIGHT n, n)]) ++
    [(Reg.PW_CFG.PKG_W, 400), (Reg.PW_CFG.HUB_W, 200)] ++ fs)).upd fun b =>
    ({ b with now := 777 } : Block).setSite 1 { b.site 1 with power := p } |>.setSite 13 { b.site 13 with power := p }

theorem witness_PowerBudgets :
    let b := (Lab.powered [] { SitePower.reset with unanswered := true, seq := 5, dip := some (true, 9) }).blk
    b.enrolled 1 = true ∧ b.enrolled 13 = true ∧ b.enrolled 2 = false ∧ (b.site 1).power.unanswered = true ∧ (b.site 13).power.dip = some (true, 9) ∧ (b.site 2).power.dip = none ∧
    (b.site 2).power.unanswered = false ∧ b.rd (Reg.PW_SITE_STATUS.MISSED 1) = 0 := by decide +kernel

theorem witness_ThermalAndI3c :
    let b := (Lab.powered [(Reg.TH_CFG.TRIP_C, 105), (Reg.ST_CFG.EN 13, 1)] { SitePower.reset with isolatedSince := some 3, coolSince := some 4 }).blk
    b.fc.injectPair = none ∧ (4 * b.rd Reg.TH_CFG.TRIP_C : Int) ≤ 600 ∧ (b.site 1).power.coolSince ≠ none ∧ (b.site 13).power.isolatedSince ≠ none ∧ b.rd (Reg.ST_CFG.EN 13) = 1 ∧
    (b.site 13).link.absent = false ∧ b.linkState 13 = Link.ENROLLED ∧ b.pairState 40 = 0 ∧ State.reset.blk.boot.preamble = true ∧ (Lab.locked [] id).blk.boot.preamble = false := by decide +kernel

/-- A part whose second transition, out of TEST, went to END_OF_LIFE. -/
def Lab.ended : Otp := { Otp.blank with k0 := ⟨0xFF, 0xFF, 0xFFFFFFFF⟩, k1 := ⟨0xFF0000, 0xFF0000, 0xFFFFFFFF⟩, uds := BitVec.allOnes 384, udsValid := BitVec.allOnes 32 }

theorem witness_OtpOnlyGains : ∃ t, Lab.ended.Within ({ State.reset with fuse := Lab.ended } : State).fuse ∧ step { State.reset with fuse := Lab.ended } = .next t :=
  ⟨_, ⟨fun k => by cases k <;> exact ⟨rfl, rfl, rfl⟩, by decide, by decide, fun _ _ h => h, le_refl _, le_refl _⟩, rfl⟩

theorem witness_EndOfLifeIsFinal : ∃ t, ({ State.reset with fuse := Lab.ended } : State).fuse.Ended ∧ step { State.reset with fuse := Lab.ended } = .next t :=
  ⟨_, Or.inl (by decide), rfl⟩

/-! ### Terms that the well-formedness check refuses, one or more for each check, beside a term that it passes -/

def Lab.memCmd (k : MemKind) : MemCmd := ⟨.manager, none, 1, 0, 0, 0, 7, k⟩
def Lab.hdrLen (len : BitVec 8) : PacketHdr := ⟨1, len, 0, 0, 0, 0, 0⟩
def Lab.siteFrame (n : Nat) : SiteFrame := ⟨0, 0, 0, false, zeros n, 0⟩
def Lab.reachFrame (n : Nat) : ReachFrame := ⟨0, 0, 0, 0, zeros n, 0, none⟩
def Lab.reachHdr (hop hops : Fin 31) : ReachHdr := ⟨1, 2, 0, 1, 0, 0, 0, hop, hops, 0, 0, 0, 0⟩
def Lab.plainTlp : IdeTlp := ⟨none, false, true, false⟩
def Lab.barWrite (n : Nat) : BarReq := ⟨0, 0, 0, .write (zeros n) false, Lab.plainTlp⟩

theorem test_wf_memCmd :
    (Instr.hbmWrite (Lab.memCmd (.write (zeros 8)))).wf = true ∧ (Instr.hbmWrite (Lab.memCmd (.write (zeros 7)))).wf = false ∧ (Instr.hbmWrite (Lab.memCmd (.add .int32 (zeros 9)))).wf = false ∧
    (Instr.hbmRead (Lab.memCmd .read) none).wf = true ∧ (Instr.hbmRead (Lab.memCmd (.write [])) none).wf = false ∧ (Instr.shelfRequest 0 none none).wf = true ∧
    (Instr.shelfRequest 0 (some (Lab.memCmd (.write []))) none).wf = false := by decide +kernel

theorem test_wf_siteFrames :
    (Instr.dataFrame 1 (Lab.siteFrame 240) false).wf = true ∧ (Instr.dataFrame 1 (Lab.siteFrame 239) false).wf = false ∧ (Instr.idleFrame 1 (Lab.siteFrame 241)).wf = false ∧
    (Instr.nakFrame 1 (Lab.siteFrame 0)).wf = false := by decide +kernel

theorem test_wf_packets :
    (Instr.wr 1 (Lab.hdrLen 16) (zeros 32)).wf = true ∧ (Instr.wr 1 (Lab.hdrLen 16) (zeros 16)).wf = false ∧ (Instr.swpAdd 1 (Lab.hdrLen 3) (zeros 15)).wf = false ∧ (Instr.rdData 1 (Lab.hdrLen 3) (zeros 17)).wf = false ∧
    (Instr.wrBlock 1 (Lab.hdrLen 0) (zeros 4112)).wf = true ∧ (Instr.wrBlock 1 (Lab.hdrLen 0) (zeros 4096)).wf = false ∧ (Instr.burgee 1 (zeros 255)).wf = false ∧ (Instr.cWb 1 (Lab.hdrLen 0) (zeros 63)).wf = false ∧
    (Instr.snpData 1 (Lab.hdrLen 0) (zeros 65)).wf = false := by decide +kernel

theorem test_wf_host :
    (Instr.bar0Access (Lab.barWrite 4096)).wf = true ∧ (Instr.bar0Access (Lab.barWrite 4097)).wf = false ∧ (Instr.bar2Access (Lab.barWrite 4097)).wf = false ∧ (Instr.bar4Access (Lab.barWrite 4097)).wf = false ∧
    (Instr.hostCompletion 0 0 0 false (zeros 4097) Lab.plainTlp).wf = false ∧ (Instr.msixUnmask 1 127).wf = true ∧ (Instr.msixUnmask 1 128).wf = false ∧ (Instr.msixUnmask 0 2047).wf = true := by decide +kernel

theorem test_wf_reach :
    (Instr.reachDataFrame 1 (Lab.reachFrame 624)).wf = true ∧ (Instr.reachDataFrame 1 (Lab.reachFrame 623)).wf = false ∧ (Instr.reachIdleFrame 1 (Lab.reachFrame 625)).wf = false ∧ (Instr.reachNakFrame 1 (Lab.reachFrame 0)).wf = false ∧
    (Instr.serWindowExpiry 1 (List.replicate 7 0)).wf = false ∧ (Instr.reachForward 1 .read (Lab.reachHdr 1 1) []).wf = true ∧ (Instr.reachForward 1 .read (Lab.reachHdr 0 1) []).wf = false ∧
    (Instr.reachRequest 1 .write (Lab.reachHdr 2 1) []).wf = false ∧ (Instr.reachResponse 1 (Lab.reachHdr 1 1) (zeros 257)).wf = false ∧ (Instr.waitNotice 1 (Lab.reachHdr 3 2)).wf = false := by decide +kernel

theorem test_wf_other :
    (Instr.sampleToken 0 0 0 (List.replicate 64 (0, 0))).wf = true ∧ (Instr.sampleToken 0 0 0 (List.replicate 65 (0, 0))).wf = false ∧ (Instr.pennant 3 0x70 0 0 0 false).wf = false ∧
    (Instr.pennant 3 0x70 0 1 0 false).wf = true ∧ (Instr.debugGrant (zeros 256)).wf = true ∧ (Instr.debugGrant (zeros 255)).wf = false := by decide +kernel

end Sys2Proof.Machine
end

section
/-! SUPPORT. What a write to a whole register does to its fields and to the bits that no field names (R4–R6, R9). -/

namespace Sys2Proof.Machine

/-! ### Bit fields -/

/-- Masking a number with a field's places. -/
theorem and_fieldMask (n lo w : Nat) : n &&& ((2 ^ w - 1) <<< lo) = bits n lo w <<< lo := by
  apply Nat.eq_of_testBit_eq
  intro i
  simp only [Nat.testBit_and, Nat.testBit_shiftLeft, Nat.testBit_two_pow_sub_one, testBit_bits]
  by_cases h : lo ≤ i
  · rw [Nat.add_sub_cancel' h, Bool.and_comm (n.testBit i), Bool.and_assoc]
  · simp [h]

/-- The places of a field that lies within the low `n` bits. -/
theorem lowMask_and_fieldMask (n lo w : Nat) (h : lo + w ≤ n) : (2 ^ n - 1) &&& ((2 ^ w - 1) <<< lo) = (2 ^ w - 1) <<< lo := by
  rw [and_fieldMask]
  congr 1
  apply Nat.eq_of_testBit_eq
  intro i
  simp only [testBit_bits, Nat.testBit_two_pow_sub_one]
  by_cases hi : i < w
  · have : lo + i < n := by omega
    simp [hi, this]
  · simp [hi]

theorem fieldMask_ne_zero (lo w : Nat) (h : 0 < w) : (2 ^ w - 1) <<< lo ≠ 0 := by
  have : 2 ≤ 2 ^ w := Nat.le_self_pow (by omega) 2
  simp only [ne_eq, Nat.shiftLeft_eq_zero_iff]
  omega

theorem bits_shiftLeft_le (n lo w : Nat) : bits n lo w <<< lo ≤ n := by
  rw [← and_fieldMask]
  exact Nat.and_le_left

/-- Taking a part of a field away leaves the field's difference. -/
theorem bits_sub_shiftLeft (n lo w c : Nat) (h : c ≤ bits n lo w) : bits (n - c <<< lo) lo w = bits n lo w - c := by
  have hle : bits n lo w <<< lo ≤ n := bits_shiftLeft_le n lo w
  have hlt : bits n lo w - c < 2 ^ w := lt_of_le_of_lt (Nat.sub_le _ _) (bits_lt n lo w)
  have hset : n - c <<< lo = setBits n lo w (bits n lo w - c) := by
    rw [setBits, Nat.mod_eq_of_lt hlt]
    simp only [Nat.shiftLeft_eq, Nat.sub_mul] at hle ⊢
    have := Nat.mul_le_mul_right (2 ^ lo) h
    omega
  rw [hset, bits_setBits_same, Nat.mod_eq_of_lt hlt]

theorem and_shiftLeft_bits (n lo w m : Nat) : n &&& (bits m lo w <<< lo) = (bits n lo w &&& bits m lo w) <<< lo := by
  rw [← and_fieldMask, Nat.and_comm m, ← Nat.and_assoc, and_fieldMask]
  apply Nat.eq_of_testBit_eq
  intro i
  simp only [Nat.testBit_and, Nat.testBit_shiftLeft, testBit_bits]
  by_cases h : lo ≤ i
  · rw [Nat.add_sub_cancel' h]
    cases decide (i - lo < w) <;> simp [Bool.and_assoc]
  · simp [h]

theorem bits_or_shiftLeft (n lo w m : Nat) : bits (n ||| (bits m lo w <<< lo)) lo w = bits n lo w ||| bits m lo w := by
  apply Nat.eq_of_testBit_eq
  intro i
  simp only [Nat.testBit_or, Nat.testBit_shiftLeft, testBit_bits]
  by_cases hi : i < w <;> simp [hi]

/-! ### Fields of the register tables -/

/-- The register's width in bits. -/
def RegSpec.width (r : RegSpec) : Nat := if r.wide then 64 else 32

/-- The limit's least value, where it has one, is a value of `w` bits. -/
def Limit.fits (w : Nat) : Limit → Bool
  | .range lo _ => decide (lo < 2 ^ w)
  | .free | .listed _ => true

/-- The field has a bit, ends within `n` bits and can hold what its limit gives. -/
def FieldSpec.fits (n : Nat) (f : FieldSpec) : Bool := decide (0 < f.w) && decide (f.lo + f.w ≤ n) && f.lim.fits f.w

/-- Two rows of a field table share no bit. -/
abbrev FieldSpec.Apart (f g : FieldSpec) : Prop := g.lo + g.w ≤ f.lo ∨ f.lo + f.w ≤ g.lo

/-- Every heading of Table IDX-2 gives its fields places of their own within the register. -/
theorem Reg.specs_fields : ∀ r ∈ Reg.specs, (∀ f ∈ r.flds, f.fits r.width = true) ∧ r.flds.Pairwise FieldSpec.Apart := by
  decide +kernel

theorem FieldSpec.fits_iff (n : Nat) (f : FieldSpec) :
    f.fits n = true ↔ 0 < f.w ∧ f.lo + f.w ≤ n ∧ f.lim.fits f.w = true := by
  simp [FieldSpec.fits, and_assoc]

/-- What a write of a field's value `new` over `old` leaves, by the field's type (Table SCP-4). -/
def FieldSpec.result (f : FieldSpec) (unsealed : Bool) (old new : Nat) : Nat :=
  match f.ty with
  | .rw => f.lim.apply old new
  | .rwl => if unsealed then f.lim.apply old new else old
  | .w1c => old - (old &&& new)
  | .w1s => old ||| new
  | .ro | .rc | .wo | .fo => old

theorem Limit.apply_lt (l : Limit) (w old new : Nat) (h : l.fits w = true) (ho : old < 2 ^ w) (hn : new < 2 ^ w) :
    l.apply old new < 2 ^ w := by
  cases l with
  | free => exact hn
  | range lo hi =>
    have hlo : lo < 2 ^ w := by simpa [Limit.fits] using h
    exact max_lt hlo (lt_of_le_of_lt (min_le_left _ _) hn)
  | listed vs =>
    simp only [Limit.apply]
    split <;> assumption

theorem FieldSpec.result_lt (f : FieldSpec) (u : Bool) (old new : Nat) (h : f.lim.fits f.w = true) (ho : old < 2 ^ f.w)
    (hn : new < 2 ^ f.w) : f.result u old new < 2 ^ f.w := by
  have hl := f.lim.apply_lt f.w old new h ho hn
  unfold FieldSpec.result
  cases f.ty with
  | rw => exact hl
  | rwl => cases u <;> assumption
  | w1c => exact lt_of_le_of_lt (Nat.sub_le _ _) ho
  | w1s => exact Nat.or_lt_two_pow ho hn
  | ro | rc | wo | fo => exact ho

/-- A write that reaches the whole field has the result of the field's type. -/
theorem FieldSpec.write_whole (f : FieldSpec) (u : Bool) (reg v n : Nat) (h : f.fits n = true) :
    f.write u reg v 0 n = f.result u (bits reg f.lo f.w) (bits v f.lo f.w) := by
  obtain ⟨hw, hn, -⟩ := (f.fits_iff n).mp h
  simp only [FieldSpec.write, FieldSpec.result, Nat.shiftLeft_zero, lowMask_and_fieldMask n f.lo f.w hn,
    if_neg (fieldMask_ne_zero f.lo f.w hw), Nat.and_assoc, Nat.and_self, Nat.sub_self, Nat.zero_add, and_fieldMask v,
    Nat.shiftLeft_shiftRight]
  cases f.ty with
  | w1c => rw [and_shiftLeft_bits, bits_sub_shiftLeft _ _ _ _ Nat.and_le_left]
  | w1s => rw [bits_or_shiftLeft]
  | rw | rwl | ro | rc | wo | fo => rfl

/-! ### The fold over a register's fields -/

/-- Bits that no field of the list names are kept. -/
theorem bits_foldl_setBits_of_apart (val : FieldSpec → Nat) (fs : List FieldSpec) (acc lo w : Nat)
    (h : ∀ f ∈ fs, lo + w ≤ f.lo ∨ f.lo + f.w ≤ lo) :
    bits (fs.foldl (fun acc f => setBits acc f.lo f.w (val f)) acc) lo w = bits acc lo w := by
  induction fs generalizing acc with
  | nil => rfl
  | cons g fs ih =>
    rw [List.foldl_cons, ih _ fun f hf => h f (List.mem_cons_of_mem g hf),
      bits_setBits_of_disjoint _ _ _ _ _ _ (h g List.mem_cons_self)]

/-- Each field of a list of fields apart takes its own value. -/
theorem bits_foldl_setBits_of_mem (val : FieldSpec → Nat) (fs : List FieldSpec) (hfs : fs.Pairwise FieldSpec.Apart) (acc : Nat)
    {f : FieldSpec} (hf : f ∈ fs) :
    bits (fs.foldl (fun acc f => setBits acc f.lo f.w (val f)) acc) f.lo f.w = val f % 2 ^ f.w := by
  induction fs generalizing acc with
  | nil => cases hf
  | cons g fs ih =>
    obtain ⟨hg, hfs⟩ := List.pairwise_cons.mp hfs
    rw [List.foldl_cons]
    rcases List.mem_cons.mp hf with rfl | hf
    · rw [bits_foldl_setBits_of_apart val fs _ _ _ fun k hk => (hg k hk).symm, bits_setBits_same]
    · exact ih hfs _ hf

/-- A write of a whole register gives each of its fields the result of its type. -/
theorem RegSpec.bits_write_of_mem {r : RegSpec} (hr : r ∈ Reg.specs) {f : FieldSpec} (hf : f ∈ r.flds) (u : Bool) (reg v : Nat) :
    bits (r.write u reg v 0 r.width) f.lo f.w = f.result u (bits reg f.lo f.w) (bits v f.lo f.w) := by
  obtain ⟨hfit, hapart⟩ := Reg.specs_fields r hr
  rw [RegSpec.write, bits_foldl_setBits_of_mem _ _ hapart _ hf, f.write_whole u reg v _ (hfit f hf)]
  exact Nat.mod_eq_of_lt (f.result_lt u _ _ ((f.fits_iff _).mp (hfit f hf)).2.2 (bits_lt _ _ _) (bits_lt _ _ _))

/-- A write keeps the bits that no field names (R6). -/
theorem RegSpec.bits_write_of_apart (r : RegSpec) (u : Bool) (reg v lo w lo' w' : Nat)
    (h : ∀ f ∈ r.flds, lo' + w' ≤ f.lo ∨ f.lo + f.w ≤ lo') : bits (r.write u reg v lo w) lo' w' = bits reg lo' w' :=
  bits_foldl_setBits_of_apart _ _ _ _ _ h

/-- Settles O2: the fields of a heading lie apart within its width, so the write's fold gives each its own result. -/
theorem registerFieldTypes : Obligations.RegisterFieldTypes := fun _ hr _ hf unsealed reg v =>
  RegSpec.bits_write_of_mem hr hf unsealed reg v

end Sys2Proof.Machine
end

section
/-! SUPPORT. REGISTER_WRITE to a plain register: the parts the access reaches, the frames and locks it does not meet, and what
it starts, which is nothing. -/

namespace Sys2Proof.Machine

/-! ### A register's own access -/

/-- Every heading's base and strides are multiples of its width, so its registers are aligned (R7). -/
theorem Reg.specs_aligned : ∀ r ∈ Reg.specs, r.width / 8 ∣ r.base ∧ r.width / 8 ∣ r.s1 ∧ r.width / 8 ∣ r.s2 := by
  decide +kernel

theorem Reg.mem_of_find {o : Nat} {r : RegSpec} (h : Reg.find o = some r) : r ∈ Reg.specs := List.mem_of_find?_eq_some h

theorem Reg.dvd_of_find {o : Nat} {r : RegSpec} (h : Reg.find o = some r) : r.width / 8 ∣ o := by
  obtain ⟨hbase, hs1, hs2⟩ := Reg.specs_aligned r (Reg.mem_of_find h)
  have hat : r.at o = true := List.find?_some (p := fun r : RegSpec => r.at o) h
  unfold RegSpec.at at hat
  split at hat
  · cases hat
  next hle =>
    simp only [Bool.and_eq_true, decide_eq_true_eq] at hat
    obtain ⟨⟨-, hmod⟩, -⟩ := hat
    have he : r.width / 8 ∣ (o - r.base) % r.s1 := hs2.trans (Nat.dvd_of_mod_eq_zero hmod)
    have hd : r.width / 8 ∣ o - r.base := (Nat.dvd_mod_iff hs1).mp he
    simpa [Nat.sub_add_cancel (Nat.le_of_not_lt hle)] using Nat.dvd_add hd hbase

/-- An access of a register's own width reaches the whole of it and no other (R8). -/
theorem Reg.parts_own {o : Nat} {r : RegSpec} (h : Reg.find o = some r) :
    Reg.parts o (if r.wide then 8 else 4) = [(o, 0, 0, r.width)] := by
  have hdvd := Reg.dvd_of_find h
  cases hw : r.wide with
  | false =>
    simp only [RegSpec.width, hw, Bool.false_eq_true, if_false] at hdvd ⊢
    have : o % 4 = 0 := by omega
    simp [Reg.parts, Reg.parts32, this, h]
  | true =>
    simp only [RegSpec.width, hw, if_true] at hdvd ⊢
    have : o % 8 = 0 := by omega
    simp [Reg.parts, this, h, hw]

theorem RegFile.write_own (rf : RegFile) (u : Bool) {o : Nat} (v : Nat) {r : RegSpec} (h : Reg.find o = some r) :
    rf.write u o (if r.wide then 8 else 4) v = rf.setWord o (r.write u (rf.word o) (bits v 0 r.width) 0 r.width) := by
  simp [RegFile.write, Reg.parts_own h, h]

theorem RegFile.write_of_no_parts (rf : RegFile) (u : Bool) {o size : Nat} (v : Nat) (h : Reg.parts o size = []) :
    rf.write u o size v = rf := by simp [RegFile.write, h]

/-- A field of a register written in its own width. -/
theorem RegFile.rd_write_own (rf : RegFile) (u : Bool) {o : Nat} (v : Nat) {r : RegSpec} (h : Reg.find o = some r)
    {f : FieldSpec} (hf : f ∈ r.flds) :
    (rf.write u o (if r.wide then 8 else 4) v).rd ⟨o, f.lo, f.w⟩ = f.result u (rf.rd ⟨o, f.lo, f.w⟩) (bits v f.lo f.w) := by
  have hr := Reg.mem_of_find h
  obtain ⟨-, hn, -⟩ := (f.fits_iff _).mp ((Reg.specs_fields r hr).1 f hf)
  have h64 : r.width ≤ 64 := by unfold RegSpec.width; split <;> decide
  have hv : bits (bits v 0 r.width) f.lo f.w = bits v f.lo f.w := by
    simpa [bits] using bits_mod_two_pow v r.width f.lo f.w hn
  simp only [RegFile.rd]
  rw [RegFile.write_own rf u v h, RegFile.word_setWord_same, bits_mod_two_pow _ _ _ _ (hn.trans h64),
    RegSpec.bits_write_of_mem hr hf, hv]

/-- A field apart from those of the register written. -/
theorem RegFile.rd_write_own_of_apart (rf : RegFile) (u : Bool) {o : Nat} (v : Nat) {r : RegSpec} (h : Reg.find o = some r)
    {g : Fld} (hg : g.lo + g.w ≤ 64) (ha : ∀ f ∈ r.flds, g.Apart ⟨o, f.lo, f.w⟩) :
    (rf.write u o (if r.wide then 8 else 4) v).rd g = rf.rd g := by
  simp only [RegFile.rd]
  rw [RegFile.write_own rf u v h, RegFile.word_setWord]
  split
  next ho =>
    rw [bits_mod_two_pow _ _ _ _ hg, RegSpec.bits_write_of_apart _ _ _ _ _ _ _ _ fun f hf => (ha f hf).resolve_left (by simp [ho]), ho]
  · rfl

/-! ### Plain registers -/

/-- Where the plain registers lie, and those of these blocks whose own tables say more. -/
theorem Reg.plain_iff (o : Nat) : Reg.plain o = true ↔
    (o < 0x1008000 ∧ o ≠ 0x18 ∧ o ≠ 0x110 ∧ o ≠ 0x180) ∨
    (0x5000000 ≤ o ∧ o < 0x6000000 ∧ ¬(o < 0x5800000 ∧ o % 0x100000 = 0x100)) ∨
    (0x6000000 ≤ o ∧ o < 0x7000000 ∧ o ≠ 0x6000030 ∧ o ≠ 0x6000034) ∨
    (0x8000000 ≤ o ∧ o < 0x9000000 ∧ o ≠ 0x8000000) ∨
    (0xf000000 ≤ o ∧ o ≠ 0xf000000 ∧ o ≠ 0xf000210 ∧ o ≠ 0xf000214) := by
  simp only [Reg.plain, Bool.or_eq_true, Bool.and_eq_true, Bool.not_eq_true', Bool.and_eq_false_iff, decide_eq_true_eq,
    decide_eq_false_iff_not, List.mem_cons, List.not_mem_nil, or_false, not_or, ne_eq, not_and_or, and_assoc, or_assoc]
  rfl

section
variable {o : Nat} (hp : Reg.plain o = true)
include hp

/-- No plain register lies in the frame of a position. -/
theorem Block.frameHeld_of_plain (b : Block) : b.frameHeld o = false := by
  have h := (Reg.plain_iff o).mp hp
  have : ¬(0x2000000 ≤ o ∧ o < 0x4000000) := by omega
  simp only [Block.frameHeld, ← Bool.decide_and, this, decide_false, Bool.false_and]

/-- No plain register is a TDI's. -/
theorem Block.tdiOf_of_plain (b : Block) : b.tdiOf o = none := by
  have h := (Reg.plain_iff o).mp hp
  simp (disch := omega) only [Block.tdiOf, if_neg]

/-- No plain register tunes a partition. -/
theorem Block.tuneParts_of_plain (b : Block) : b.tuneParts o = [] := by
  have h := (Reg.plain_iff o).mp hp
  simp (disch := omega) only [Block.tuneParts, if_neg]

theorem Block.deferred_of_plain (b : Block) : b.deferred o = false := by
  unfold Block.deferred
  split <;> simp [Block.tuneParts_of_plain hp]

/-- A plain register's own table adds nothing to the store. -/
theorem Block.regFix_of_plain (b b0 : Block) (a : RegAccess) : b.regFix b0 a o = b := by
  have hoff : Reg.MH_BOOT_SEAL.SEAL.off = 0x18 ∧ Reg.SH_FILL_BASE.BLOCK.off = 0x6000030 ∧
      Reg.SH_FILL_CTRL.COUNT.off = 0x6000034 ∧ Reg.CO_CFG.HOLD_CYC.off = 0x8000000 ∧
      Reg.XL_HOT_CFG.LOG2_SIZE.off = 0xf000210 ∧ Reg.XL_HOT_HEAD.INDEX.off = 0xf000214 := by decide
  have h := (Reg.plain_iff o).mp hp
  rw [Block.regFix]
  repeat rw [if_neg]
  all_goals omega

end

/-! ### An access to a plain register -/

/-- The access reaches no register but the one it names. -/
def RegAccess.Alone (a : RegAccess) : Prop := ∀ p ∈ Reg.parts a.off a.size, p.1 = a.off

section
variable {a : RegAccess} (ha : a.Alone)
include ha

theorem RegAccess.Alone.written {f : Fld} (hf : f.off ≠ a.off) : Reg.written f a.off a.size a.v = none := by
  have hnone : (Reg.parts a.off a.size).find? (fun p => decide (p.1 = f.off) && decide (p.2.1 ≤ f.lo)
      && decide (f.lo < p.2.1 + p.2.2.2)) = none := by
    refine List.find?_eq_none.mpr fun p hp => ?_
    have : p.1 ≠ f.off := ha p hp ▸ hf.symm
    simp [this]
  rw [Reg.written, hnone, Option.map_none]

theorem RegAccess.Alone.onSet (b : Block) {f : Fld} (hf : f.off ≠ a.off) (g : Block → Block) : b.onSet a f g = b := by
  simp [Block.onSet, RegAccess.sets, ha.written hf]

theorem RegAccess.Alone.onValue (b : Block) {f : Fld} (hf : f.off ≠ a.off) (g : Block → Nat → Block) : b.onValue a f g = b := by
  simp [Block.onValue, ha.written hf]

variable (hp : Reg.plain a.off = true)
include hp

/-- A write to a plain register starts nothing. -/
theorem Block.trigger_of_plain (b : Block) (o : Otp) : b.trigger o a = (b, o) := by
  rcases (Reg.plain_iff a.off).mp hp with h | h | h | h | h
  · by_cases hmh : a.off < 0x1000000
    · have hclear : Reg.MH_DEFECT_CTRL.CLEAR.off ≠ a.off := by simp only [Reg.MH_DEFECT_CTRL.CLEAR]; omega
      have hkey : Reg.MH_RESET_CTRL.KEY.off ≠ a.off := by simp only [Reg.MH_RESET_CTRL.KEY]; omega
      rw [Block.trigger, if_pos hmh]
      simp [ha.onSet b hclear, Block.trigReset, ha.written hkey]
    · simp (disch := omega) only [Block.trigger, Reg.SL_MGR_OP.OP, if_neg]
  · simp (disch := omega) only [Block.trigger, Reg.SL_MGR_OP.OP, if_neg]
  · have hgo : Reg.SH_FILL_CTRL.GO.off ≠ a.off := by simp only [Reg.SH_FILL_CTRL.GO]; omega
    simp (disch := omega) only [Block.trigger, if_neg, if_pos, ha.onSet b hgo]
  · simp (disch := omega) only [Block.trigger, Reg.SL_MGR_OP.OP, if_neg]
  · have hclear : Reg.XL_CFG.ACC_CLEAR.off ≠ a.off := by simp only [Reg.XL_CFG.ACC_CLEAR]; omega
    have hflush : Reg.XL_CFG.TLB_FLUSH.off ≠ a.off := by simp only [Reg.XL_CFG.TLB_FLUSH]; omega
    have hhead : Reg.XL_HOT_HEAD.INDEX.off ≠ a.off := by simp only [Reg.XL_HOT_HEAD.INDEX]; omega
    simp (disch := omega) only [Block.trigger, Reg.SL_MGR_OP.OP, if_neg, if_pos, ha.onSet b hclear, ha.onSet b hflush,
      ha.onValue b hhead]

/-- The store of a plain register is the register file's write alone. -/
theorem Block.regPut_of_plain (b : Block) :
    b.regPut a = { b with regs := b.regs.write (a.boot && !b.is Reg.MH_BOOT_SEAL.SEAL) a.off a.size a.v } := by
  have hmsix : ¬(0x1008000 ≤ a.off ∧ a.off < 0x1010000) := by
    have h := (Reg.plain_iff a.off).mp hp
    omega
  simp only [Block.regPut, Block.deferred_of_plain hp, Block.tdiOf_of_plain hp, Bool.and_false, Bool.false_eq_true, if_false,
    if_neg hmsix, Block.regStore]
  rw [List.foldl_ext _ (fun c _ => c) _ fun c p hmem => by rw [ha p hmem, Block.regFix_of_plain hp]]
  exact List.foldl_fixed _

theorem Block.regAccess_of_plain (b : Block) (o : Otp) :
    b.regAccess o a = ({ b with regs := b.regs.write (a.boot && !b.is Reg.MH_BOOT_SEAL.SEAL) a.off a.size a.v }, o) := by
  rw [Block.regAccess, Block.frameHeld_of_plain hp, Bool.and_false, if_neg Bool.false_ne_true, Block.regDo,
    Block.trigger_of_plain ha hp, Block.regPut_of_plain ha hp, ite_self]

end

theorem exec_registerWrite_of_plain (off : BitVec 28) (wide : Bool) (v : Word) (boot : Bool) (s : State)
    (hp : Reg.plain off.toNat = true) (ha : ∀ p ∈ Reg.parts off.toNat (if wide then 8 else 4), p.1 = off.toNat) :
    exec (.registerWrite off wide v boot) s = .next { s with blk := { s.blk with
      regs := s.blk.regs.write (boot && !s.blk.is Reg.MH_BOOT_SEAL.SEAL) off.toNat (if wide then 8 else 4) v.toNat } } := by
  have hacc := Block.regAccess_of_plain (a := ⟨boot, off.toNat, if wide then 8 else 4, v.toNat⟩) ha hp s.blk s.fuse
  simp only [exec_registerWrite, execRegisterWrite, State.updFuse, hacc]

/-- A write of a plain register in its own width (R4–R9, R23). -/
theorem registerWrite_own (s : State) (v : Word) (boot : Bool) (off : BitVec 28) (hp : Reg.plain off.toNat = true) {r : RegSpec}
    (hr : Reg.find off.toNat = some r) : Yields (.registerWrite off r.wide v boot) s fun t =>
      (∀ f ∈ r.flds, t.blk.rd ⟨off.toNat, f.lo, f.w⟩ = f.result (boot && !s.blk.is Reg.MH_BOOT_SEAL.SEAL)
        (s.blk.rd ⟨off.toNat, f.lo, f.w⟩) (bits v.toNat f.lo f.w)) ∧
      OnlyFields s t (r.flds.map fun f => ⟨off.toNat, f.lo, f.w⟩) := by
  refine ⟨_, exec_registerWrite_of_plain off r.wide v boot s hp (by simp [Reg.parts_own hr]), fun f hf => ?_, rfl, fun g hg ha => ?_⟩
  · exact RegFile.rd_write_own s.blk.regs _ v.toNat hr hf
  · exact RegFile.rd_write_own_of_apart s.blk.regs _ v.toNat hr hg fun f hf => ha _ (List.mem_map_of_mem hf)

/-- An access that reaches no register has no effect (R7, R8). -/
theorem registerWrite_no_register (s : State) (v : Word) (boot : Bool) (off : BitVec 28) (hp : Reg.plain off.toNat = true)
    (wide : Bool) (h : Reg.parts off.toNat (if wide then 8 else 4) = []) :
    Yields (.registerWrite off wide v boot) s fun t => OnlyFields s t [] := by
  refine ⟨_, exec_registerWrite_of_plain off wide v boot s hp (by simp [h]), ?_⟩
  rw [RegFile.write_of_no_parts _ _ _ h]
  exact ⟨rfl, .refl _ _⟩

end Sys2Proof.Machine
end

section
/-! SUPPORT. BOOT_SEAL: the structure it checks is the one before it, and what it writes. -/

namespace Sys2Proof.Machine

/-! ### What the seal's checks read -/

/-- `c` shows the seal's checks what `b` does: every register past MH_BOOT_SEAL, and bring-up's state. -/
def Block.SameStructure (b c : Block) : Prop := (∀ f : Fld, 0x20 ≤ f.off → c.rd f = b.rd f) ∧ c.boot = b.boot

section
variable {b c : Block} (h : b.SameStructure c)
include h

theorem Block.SameStructure.wr (f : Fld) (n : Nat) (hf : f.off < 0x20) : b.SameStructure (c.wr f n) :=
  ⟨fun g hg => by rw [Block.rd_wr_of_off_ne c f g n (by omega), h.1 g hg], h.2⟩

-- A field of an array stands at its base plus a multiple of its stride, and each base is past MH_BOOT_SEAL.
theorem Block.SameStructure.region : c.region = b.region := by
  funext n
  simp (disch := with_unfolding_all exact le_trans (by decide) (Nat.le_add_right _ _)) only [Block.region, Block.is, h.1]

theorem Block.SameStructure.regionNums : c.regionNums = b.regionNums := by
  simp (disch := with_unfolding_all exact le_trans (by decide) (Nat.le_add_right _ _)) only [Block.regionNums, Block.is, h.1]

theorem Block.SameStructure.regionHolder : c.regionHolder = b.regionHolder := by
  have hlayout : c.layout = b.layout := h.1 _ (by decide)
  funext n
  simp only [Block.regionHolder, Block.partWhere, Block.part, Block.partIn, hlayout, h.2]

theorem Block.SameStructure.hbmCap : c.hbmCap = b.hbmCap := by rw [Block.hbmCap, Block.hbmCap, h.1 _ (by decide)]

theorem Block.SameStructure.lineSpace : c.lineSpace = b.lineSpace := by rw [Block.lineSpace, Block.lineSpace, h.1 _ (by decide)]

theorem Block.SameStructure.regionBreach : c.regionBreach = b.regionBreach := by
  funext n
  unfold Block.regionBreach Block.reserveX
  rw [h.region, h.regionNums, h.lineSpace]

theorem Block.SameStructure.regionKeyBreach : c.regionKeyBreach = b.regionKeyBreach := by
  funext n
  simp (disch := with_unfolding_all exact le_trans (by decide) (Nat.le_add_right _ _)) only [Block.regionKeyBreach, Block.is, h.region, h.regionHolder, h.1]

theorem Block.SameStructure.regionsTile : c.regionsTile = b.regionsTile := by
  unfold Block.regionsTile
  rw [h.region, h.regionNums, h.hbmCap]

theorem Block.SameStructure.hbmSealCheck : c.hbmSealCheck = b.hbmSealCheck := by
  unfold Block.hbmSealCheck Block.regionCheck
  rw [h.regionNums, h.regionBreach, h.regionKeyBreach, h.regionsTile]

theorem Block.SameStructure.windowBreach : c.windowBreach = b.windowBreach := by
  funext n
  simp (disch := with_unfolding_all exact le_trans (by decide) (Nat.le_add_right _ _)) only [Block.windowBreach, Block.is, h.1, h.hbmCap, h.regionNums, h.region]

end

/-! ### When the checks fail -/

theorem Block.regionBreach_of_odd_base (b : Block) (n : Nat) (hprot : b.is (Reg.HM_REGION00.PROTECTED n) = true)
    (hbase : b.rd (Reg.HM_REGION08.DATA_X_BASE n) % 8 ≠ 0 ∨ b.rd (Reg.HM_REGION10.SEAL_X_BASE n) % 8 ≠ 0) :
    b.regionBreach n = true := by
  have hodd : ((b.region n).prot && (decide ((b.region n).dataX % 8 ≠ 0) || decide ((b.region n).sealX % 8 ≠ 0))) = true := by
    simpa [Block.region, hprot] using hbase
  simp only [Block.regionBreach, hodd, Bool.true_or]

/-- Where the region table passes, no valid region breaks a rule of its own and the regions tile the capacity (R38). -/
theorem Block.regions_of_hbmSealCheck {b : Block} (h : b.hbmSealCheck = none) :
    (∀ n < 64, b.is (Reg.HM_REGION00.VALID n) = true → b.regionBreach n = false) ∧ b.regionsTile = true := by
  obtain ⟨hfind, hcheck⟩ := Option.or_eq_none_iff.mp h
  refine ⟨fun n hn hv => ?_, ?_⟩
  · have hmem : n ∈ b.regionNums := List.mem_filter.mpr ⟨List.mem_range.mpr hn, hv⟩
    have := List.find?_eq_none.mp hfind n hmem
    simp_all
  · by_contra htile
    unfold Block.regionCheck at hcheck
    split at hcheck
    · cases hcheck
    · simp [htile] at hcheck

/-- The sizes of regions that tile the capacity add up to it. -/
theorem Block.sum_sizes_of_regionsTile {b : Block} (h : b.regionsTile = true) :
    (((List.range 64).filter fun n => b.is (Reg.HM_REGION00.VALID n)).map fun n => 2 ^ 21 * b.rd (Reg.HM_REGION00.DLA_SIZE n)).sum
      = b.hbmCap := by
  simp only [Block.regionsTile, Bool.and_eq_true, decide_eq_true_eq] at h
  obtain ⟨⟨htotal, -⟩, -⟩ := h
  rw [← htotal, List.foldl_map, List.sum_eq_foldl, List.foldl_map]
  simp only [Block.region, Nat.mul_comm]
  rfl

/-- R38: a protected region off its alignment, or regions that do not fill the capacity, fail the table. -/
theorem Block.hbmSealCheck_of_fault {b : Block}
    (h : (∃ n : Fin 64, b.is (Reg.HM_REGION00.VALID n) = true ∧ b.is (Reg.HM_REGION00.PROTECTED n) = true ∧
        (b.rd (Reg.HM_REGION08.DATA_X_BASE n) % 8 ≠ 0 ∨ b.rd (Reg.HM_REGION10.SEAL_X_BASE n) % 8 ≠ 0)) ∨
      (((List.range 64).filter fun n => b.is (Reg.HM_REGION00.VALID n)).map fun n =>
        2 ^ 21 * b.rd (Reg.HM_REGION00.DLA_SIZE n)).sum ≠ b.hbmCap) :
    ∃ aux, b.hbmSealCheck = some aux := by
  refine Option.ne_none_iff_exists'.mp fun hnone => ?_
  obtain ⟨hbreach, htile⟩ := Block.regions_of_hbmSealCheck hnone
  rcases h with ⟨n, hv, hprot, hbase⟩ | htotal
  · exact Bool.false_ne_true ((hbreach n n.isLt hv).symm.trans (b.regionBreach_of_odd_base n hprot hbase))
  · exact htotal (Block.sum_sizes_of_regionsTile htile)

/-- The first coherent window in breach. -/
def Block.windowFault (b : Block) : Option Nat := findIdx 16 b.windowBreach

theorem Block.windowFault_eq_none_iff (b : Block) : b.windowFault = none ↔ ∀ n : Fin 16, b.windowBreach n = false := by
  simp [Block.windowFault, findIdx, Fin.forall_iff]

/-- R197: an empty valid window is in breach. -/
theorem Block.windowFault_of_empty {b : Block}
    (h : ∃ n : Fin 16, b.rd (Reg.CO_WIN00.VALID n) = 1 ∧ b.rd (Reg.CO_WIN00.SIZE n) = 0) : ∃ n, b.windowFault = some n := by
  obtain ⟨n, hv, hs⟩ := h
  have hbreach : b.windowBreach n = true := by simp [Block.windowBreach, Block.is, hv, hs]
  refine Option.ne_none_iff_exists'.mp fun hnone => ?_
  exact Bool.false_ne_true ((b.windowFault_eq_none_iff.mp hnone n).symm.trans hbreach)

/-! ### What the seal writes -/

/-- The seal's register writes, for the outcomes of its checks. -/
def Block.sealWrites (b : Block) (windows image : Bool) : Block :=
  (((b.wr Reg.MH_BOOT_SEAL.SEAL 1).wr Reg.MH_STATUS.BOOT_SEALED 1).wr Reg.CO_STATUS.WINDOWS_VALID (b01 windows)).wr
    Reg.MH_STATUS.IMAGE_VALID (b01 image)

theorem Block.sealWrites_rd (b : Block) (w i : Bool) :
    (b.sealWrites w i).rd Reg.MH_BOOT_SEAL.SEAL = 1 ∧ (b.sealWrites w i).rd Reg.MH_STATUS.BOOT_SEALED = 1 ∧
      (b.sealWrites w i).rd Reg.CO_STATUS.WINDOWS_VALID = b01 w ∧ (b.sealWrites w i).rd Reg.MH_STATUS.IMAGE_VALID = b01 i := by
  have hb (x : Bool) : b01 x % 2 ^ 1 = b01 x := Nat.mod_eq_of_lt (b01_lt x)
  refine ⟨?_, ?_, ?_, ?_⟩ <;> unfold Block.sealWrites
  · rw [Block.rd_wr_of_off_ne, Block.rd_wr_of_off_ne, Block.rd_wr_of_off_ne, Block.rd_wr_same] <;> decide
  · rw [Block.rd_wr_of_disjoint, Block.rd_wr_of_off_ne, Block.rd_wr_same] <;> decide
  · rw [Block.rd_wr_of_off_ne _ _ _ _ (by decide), Block.rd_wr_same _ _ _ (by decide)]
    exact hb w
  · rw [Block.rd_wr_same _ _ _ (by decide)]
    exact hb i

theorem Block.sealWrites_fieldsKept (b : Block) (w i : Bool) : b.FieldsKept (b.sealWrites w i)
    [Reg.MH_BOOT_SEAL.SEAL, Reg.MH_STATUS.BOOT_SEALED, Reg.MH_STATUS.IMAGE_VALID, Reg.CO_STATUS.WINDOWS_VALID] :=
  ((((Block.FieldsKept.refl b _).wr _ 1 (by simp)).wr _ 1 (by simp)).wr _ (b01 w) (by simp)).wr _ (b01 i) (by simp)

theorem Block.bootSeal_of_sealed {b : Block} (h : b.is Reg.MH_BOOT_SEAL.SEAL = true) : b.bootSeal = b := if_pos h

/-- The first seal's register writes and what follows from the region table's check. -/
def Block.sealTable (b : Block) (table : Option Nat) : Block :=
  let b := (b.wr Reg.MH_BOOT_SEAL.SEAL 1).wr Reg.MH_STATUS.BOOT_SEALED 1
  match table with
  | some aux => ({ b with hbm := { b.hbm with disabled := true } } : Block).pennant Src.sequencer Kind.IMAGE_CHECK aux 0
  | none => b

/-- The first seal, given the outcomes of its two checks. -/
def Block.sealAs (b : Block) (table window : Option Nat) : Block :=
  let b := match window with
    | some n => ((b.sealTable table).wr Reg.CO_STATUS.WINDOWS_VALID 0).pennant Src.sequencer Kind.IMAGE_CHECK (0x100 + n) 0
    | none => (b.sealTable table).wr Reg.CO_STATUS.WINDOWS_VALID 1
  let b := b.wr Reg.MH_STATUS.IMAGE_VALID (b01 (b.boot.slot.isSome && table.isNone && window.isNone))
  { b with boot := { b.boot with lastLayout := b.boot.slot.map fun _ => (b.layout, b.rd Reg.MH_IMAGE.IMAGE_ID) } }

theorem Block.sameStructure_sealTable (b : Block) (table : Option Nat) : b.SameStructure (b.sealTable table) := by
  have hsame : b.SameStructure ((b.wr Reg.MH_BOOT_SEAL.SEAL 1).wr Reg.MH_STATUS.BOOT_SEALED 1) :=
    .wr (.wr ⟨fun _ _ => rfl, rfl⟩ _ 1 (by decide)) _ 1 (by decide)
  cases table with
  | none => exact hsame
  | some aux => exact ⟨hsame.1, hsame.2⟩

/-- The seal's writes do not bear on its checks: it acts on the outcomes they have before it. -/
theorem Block.bootSeal_of_unsealed {b : Block} (h : b.is Reg.MH_BOOT_SEAL.SEAL = false) :
    b.bootSeal = b.sealAs b.hbmSealCheck b.windowFault := by
  have htable : ((b.wr Reg.MH_BOOT_SEAL.SEAL 1).wr Reg.MH_STATUS.BOOT_SEALED 1).hbmSealCheck = b.hbmSealCheck :=
    (b.sameStructure_sealTable none).hbmSealCheck
  have hwindow (table : Option Nat) : findIdx 16 (b.sealTable table).windowBreach = b.windowFault := by
    rw [(b.sameStructure_sealTable table).windowBreach, Block.windowFault]
  rw [Block.bootSeal, if_neg (by simp [h])]
  simp only [htable, ← hwindow b.hbmSealCheck]
  cases b.hbmSealCheck <;> rfl

theorem Block.sealAs_regs (b : Block) (table window : Option Nat) :
    (b.sealAs table window).regs = (b.sealWrites window.isNone (b.boot.slot.isSome && table.isNone && window.isNone)).regs := by
  cases table <;> cases window <;> simp [Block.sealAs, Block.sealTable, Block.sealWrites, Block.wr, Block.pennant, Block.pennantN]

theorem Block.sealAs_hbm (b : Block) (table window : Option Nat) :
    (b.sealAs table window).hbm = { b.hbm with disabled := table.isSome || b.hbm.disabled } := by
  cases table <;> cases window <;> simp [Block.sealAs, Block.sealTable, Block.pennant, Block.pennantN]

theorem Block.sealAs_fc (b : Block) : (b.sealAs none none).fc = b.fc := by
  simp [Block.sealAs, Block.sealTable]

theorem Block.sealAs_frame (b : Block) (table window : Option Nat) :
    b.sealAs table window = { b with
      regs := (b.sealAs table window).regs, hbm := (b.sealAs table window).hbm, fc := (b.sealAs table window).fc
      boot := (b.sealAs table window).boot } := by
  cases table <;> cases window <;>
    simp only [Block.sealAs, Block.sealTable, Block.wr, Block.pennant, Block.pennantN]

/-- The registers after the first seal. -/
theorem Block.bootSeal_rd {b : Block} (h : b.is Reg.MH_BOOT_SEAL.SEAL = false) (f : Fld) :
    b.bootSeal.rd f =
      (b.sealWrites b.windowFault.isNone (b.boot.slot.isSome && b.hbmSealCheck.isNone && b.windowFault.isNone)).rd f := by
  rw [Block.bootSeal_of_unsealed h, Block.rd, Block.sealAs_regs, Block.rd]

/-- The seal's four registers after the first seal (R23, R38, R197). -/
theorem Block.bootSeal_status {b : Block} (h : b.is Reg.MH_BOOT_SEAL.SEAL = false) :
    b.bootSeal.rd Reg.MH_BOOT_SEAL.SEAL = 1 ∧ b.bootSeal.rd Reg.MH_STATUS.BOOT_SEALED = 1 ∧
      b.bootSeal.rd Reg.CO_STATUS.WINDOWS_VALID = b01 b.windowFault.isNone ∧
      b.bootSeal.rd Reg.MH_STATUS.IMAGE_VALID =
        b01 (b.boot.slot.isSome && b.hbmSealCheck.isNone && b.windowFault.isNone) := by
  simp only [Block.bootSeal_rd h]
  exact b.sealWrites_rd _ _

theorem Block.bootSeal_fieldsKept {b : Block} (h : b.is Reg.MH_BOOT_SEAL.SEAL = false) : b.FieldsKept b.bootSeal
    [Reg.MH_BOOT_SEAL.SEAL, Reg.MH_STATUS.BOOT_SEALED, Reg.MH_STATUS.IMAGE_VALID, Reg.CO_STATUS.WINDOWS_VALID] :=
  (b.sealWrites_fieldsKept _ _).of_regs (by rw [Block.bootSeal_of_unsealed h, Block.sealAs_regs])

theorem Block.bootSeal_hbm {b : Block} (h : b.is Reg.MH_BOOT_SEAL.SEAL = false) :
    b.bootSeal.hbm = { b.hbm with disabled := b.hbmSealCheck.isSome || b.hbm.disabled } := by
  rw [Block.bootSeal_of_unsealed h, Block.sealAs_hbm]

theorem Block.bootSeal_fc {b : Block} (h : b.is Reg.MH_BOOT_SEAL.SEAL = false) (htable : b.hbmSealCheck = none)
    (hwindow : b.windowFault = none) : b.bootSeal.fc = b.fc := by
  rw [Block.bootSeal_of_unsealed h, htable, hwindow, Block.sealAs_fc]

theorem Block.bootSeal_frame {b : Block} (h : b.is Reg.MH_BOOT_SEAL.SEAL = false) : b.bootSeal = { b with
    regs := b.bootSeal.regs, hbm := b.bootSeal.hbm, fc := b.bootSeal.fc, boot := b.bootSeal.boot } := by
  rw [Block.bootSeal_of_unsealed h]
  exact b.sealAs_frame _ _

/-- Settles O3: a plain register's write is the register file's alone, and the seal acts on its checks' outcomes. -/
theorem registerSpace : Obligations.RegisterSpace := by
  refine ⟨fun s v boot off hp => ⟨fun r hr => ?_, fun wide h => registerWrite_no_register s v boot off hp wide h⟩,
    fun s => ⟨fun h => ?_, fun h => ?_⟩⟩
  · obtain ⟨t, hexec, hfields, honly⟩ := registerWrite_own s v boot off hp hr
    refine ⟨t, hexec, fun f hf => (hfields f hf).trans ?_, honly⟩
    unfold FieldSpec.result
    cases f.ty with
    | rwl => simp
    | rw | ro | rc | w1c | w1s | wo | fo => rfl
  · rw [exec_bootSeal, execBootSeal, State.upd, Block.bootSeal_of_sealed h]
  · obtain ⟨hseal, hsealed, hwindows, himage⟩ := Block.bootSeal_status h
    have hhbm := Block.bootSeal_hbm h
    refine ⟨_, rfl, hseal, hsealed, fun hslot => ?_, fun hfault => ?_, fun htable hwins => ?_, fun hempty => ?_, ?_, ?_, ?_,
      Block.bootSeal_fieldsKept h⟩
    · simp [himage, hslot]
    · obtain ⟨aux, htable⟩ := Block.hbmSealCheck_of_fault hfault
      simp [himage, hhbm, htable]
    · have hwindow := s.blk.windowFault_eq_none_iff.mpr hwins
      simp [himage, hwindows, hhbm, htable, hwindow, Block.bootSeal_fc h htable hwindow]
    · obtain ⟨n, hwindow⟩ := Block.windowFault_of_empty hempty
      simp [himage, hwindows, hwindow]
    · simp [hhbm]
    · simp [hhbm]
    · exact congrArg (fun b => { s with blk := b }) (Block.bootSeal_frame h)

end Sys2Proof.Machine
end

section
/-! SUPPORT. Where the tag area keeps a granule's tag (R41). -/

namespace Sys2Proof.Machine

theorem Hbm.tagPlace_eq (h l : Nat) : Hbm.tagPlace h l = ⟨l / 2 / 128 % 16, 63488 * h / 16 + l / 2 / 128 / 16, l / 2 % 128⟩ := rfl

/-- Within a pseudo-channel, a line is known by its half: bit 5, which the pseudo-channel adds to bit 0, is one of the half's. -/
theorem Hbm.line_eq_of_pc {l l' : Nat} (hpc : Hbm.pc l = Hbm.pc l') (hhalf : l / 2 = l' / 2) : l = l' := by
  have hbit5 : bits l 5 1 = bits l' 5 1 := by simp only [bits, Nat.shiftRight_eq_div_pow]; omega
  rw [Hbm.pc, Hbm.pc, hbit5] at hpc
  have hbit0 : bits l 0 1 = bits l' 0 1 := Nat.xor_left_injective hpc
  simp only [bits, Nat.shiftRight_eq_div_pow] at hbit0
  omega

/-- The place of a tag gives back half its line. -/
theorem Hbm.half_eq_of_tagPlace {h l l' : Nat} (hp : Hbm.tagPlace h l = Hbm.tagPlace h l') : l / 2 = l' / 2 := by
  simp only [Hbm.tagPlace_eq, TagPlace.mk.injEq] at hp
  omega

/-- The first row of the tag area is the first past the data rows; the tags of a channel's lines fit above it. -/
theorem Hbm.tagRow_bounds (b : Block) {l : Nat} (hl : l < b.hbmLines) :
    Hbm.dramRow l < Hbm.tagRow b.hbmH ∧ Hbm.tagRow b.hbmH ≤ (Hbm.tagPlace b.hbmH l).row ∧
      (Hbm.tagPlace b.hbmH l).row < 4096 * b.hbmH := by
  simp only [Block.hbmLines, Hbm.dramRow, Hbm.tagRow, Hbm.tagPlace_eq, Block.hbmH] at hl ⊢
  omega

/-- Settles O7. -/
theorem tagPlaces : Obligations.TagPlaces :=
  ⟨Hbm.tagPlace_eq, fun _ _ _ hpc hp => Hbm.line_eq_of_pc hpc (Hbm.half_eq_of_tagPlace hp), fun b _ => Hbm.tagRow_bounds b⟩

end Sys2Proof.Machine
end

section
/-! SUPPORT. Bytes as numbers, and a granule sealed and opened under one key (R48). -/

namespace Sys2Proof.Machine

@[simp] theorem length_natLE (len n : Nat) : (natLE len n).length = len := by
  induction len generalizing n with
  | zero => rfl
  | succ len ih => simp [natLE, ih]

/-- A list of bytes is what the number it spells spells. -/
theorem natLE_leNat (bs : List Byte) : natLE bs.length (leNat bs) = bs := by
  induction bs with
  | nil => rfl
  | cons b bs ih =>
    have hlow : BitVec.ofNat 8 (b.toNat + 256 * leNat bs) = b := by
      apply BitVec.eq_of_toNat_eq
      have := b.isLt
      simp only [BitVec.toNat_ofNat]
      omega
    have hhigh : (b.toNat + 256 * leNat bs) / 256 = leNat bs := by have := b.isLt; omega
    rw [List.length_cons, leNat, natLE, hlow, hhigh, ih]

theorem leNat_natLE (len n : Nat) (h : n < 2 ^ (8 * len)) : leNat (natLE len n) = n := by
  induction len generalizing n with
  | zero => simp_all [natLE, leNat]
  | succ len ih =>
    have : n / 256 < 2 ^ (8 * len) := by rw [Nat.div_lt_iff_lt_mul (by decide)]; rwa [Nat.mul_succ, Nat.pow_add] at h
    rw [natLE, leNat, ih _ this, BitVec.toNat_ofNat]
    omega

theorem leNat_lt (bs : List Byte) : leNat bs < 2 ^ (8 * bs.length) := by
  induction bs with
  | nil => simp [leNat]
  | cons b bs ih =>
    have := b.isLt
    rw [leNat, List.length_cons, Nat.mul_succ, Nat.pow_add]
    omega

theorem sliceBytes_of_le {bs : List Byte} {o len : Nat} (h : o + len ≤ bs.length) : sliceBytes bs o len = (bs.drop o).take len := by
  have : len - (len ⊓ (bs.length - o)) = 0 := by omega
  simp [sliceBytes, this]

@[simp] theorem length_sliceBytes (bs : List Byte) (o len : Nat) : (sliceBytes bs o len).length = len := by
  simp [sliceBytes]

theorem sliceBytes_all (bs : List Byte) : sliceBytes bs 0 bs.length = bs := by
  simp [sliceBytes_of_le]

/-! ### Four lines of 64 bytes -/

/-- The concatenation of blocks of one length, cut at a block. -/
theorem sliceBytes_flatMap_range (f : Nat → List Byte) {len : Nat} (hf : ∀ i, (f i).length = len) {n i : Nat} (hi : i < n) :
    sliceBytes ((List.range n).flatMap f) (len * i) len = f i := by
  have hlen (n : Nat) : ((List.range n).flatMap f).length = len * n := by
    simp [List.length_flatMap, hf, Nat.mul_comm]
  have hcut : (List.range n).flatMap f =
      (List.range i).flatMap f ++ (f i ++ ((List.range (n - i - 1)).map (i + 1 + ·)).flatMap f) := by
    obtain ⟨k, rfl⟩ := Nat.exists_eq_add_of_lt hi
    have hk : i + k + 1 - i - 1 = k := by omega
    rw [hk, Nat.add_right_comm, List.range_add, List.range_succ]
    simp
  have hle : len * i + len ≤ ((List.range n).flatMap f).length := by
    rw [hlen, ← Nat.mul_succ]
    exact Nat.mul_le_mul_left _ hi
  rw [sliceBytes_of_le hle, hcut, ← hlen i, List.drop_left, ← hf i, List.take_left]

/-- Four lines in a row are the granule they were cut from. -/
theorem flatMap_sliceBytes (bs : List Byte) (h : bs.length = 256) :
    ((List.range 4).flatMap fun i => sliceBytes bs (64 * i) 64) = bs := by
  have hs (i : Nat) (hi : 64 * i + 64 ≤ 256) : sliceBytes bs (64 * i) 64 = (bs.drop (64 * i)).take 64 := sliceBytes_of_le (h ▸ hi)
  have hr : List.range 4 = [0, 1, 2, 3] := rfl
  have h4 : (bs.drop 192).take 64 = bs.drop 192 := List.take_of_length_le (by simp [h])
  have cut (n : Nat) : (bs.drop n).take 64 ++ bs.drop (n + 64) = bs.drop n := by
    rw [← List.drop_drop, List.take_append_drop]
  simp only [hr, List.flatMap_cons, List.flatMap_nil, List.append_nil]
  rw [hs 0 (by decide), hs 1 (by decide), hs 2 (by decide), hs 3 (by decide), Nat.mul_zero, h4, cut 128, cut 64, cut 0, List.drop_zero]

/-! ### Encryption and tags -/

theorem Hbm.natLE_line512 {bs : List Byte} (h : bs.length = 64) : natLE 64 (Hbm.line512 bs).toNat = bs := by
  rw [Hbm.line512, BitVec.toNat_ofNat, Nat.mod_eq_of_lt (by simpa [h, -Nat.reducePow] using leNat_lt bs), ← h, natLE_leNat]

theorem Hbm.line512_natLE (v : BitVec 512) : Hbm.line512 (natLE 64 v.toNat) = v := by
  rw [Hbm.line512, leNat_natLE _ _ (by simpa [-Nat.reducePow] using v.isLt), BitVec.ofNat_toNat, BitVec.setWidth_eq]

/-- What was encrypted decrypts under the same key and address. -/
theorem Hbm.decrypt_encrypt (key x : Nat) {pt : List Byte} (h : pt.length = 256) : Hbm.decrypt key x (Hbm.encrypt key x pt) = pt := by
  have hline (i : Nat) (hi : i < 4) : sliceBytes (Hbm.encrypt key x pt) (64 * i) 64 =
      natLE 64 (Config.xts key (x / 64 + i) (Hbm.line512 (sliceBytes pt (64 * i) 64))).toNat :=
    sliceBytes_flatMap_range _ (fun _ => length_natLE _ _) hi
  rw [Hbm.decrypt]
  refine Eq.trans (List.flatMap_congr fun i hi => ?_) (flatMap_sliceBytes pt h)
  rw [hline i (List.mem_range.mp hi), Hbm.line512_natLE, Equiv.symm_apply_apply, Hbm.natLE_line512 (length_sliceBytes _ _ _)]

/-- A tag is neither the one of a granule never written nor the poison tag. -/
theorem Hbm.tagOf_ne (key x : Nat) (ct : List Byte) : Hbm.tagOf key x ct ≠ 0 ∧ Hbm.tagOf key x ct ≠ Hbm.tagPoison := by
  simp only [Hbm.tagOf]
  split
  · exact ⟨by decide, by decide⟩
  next h => exact not_or.mp h

theorem Hbm.plain_sealed (key x : Nat) {pt : List Byte} (h : pt.length = 256) : (Hbm.sealed key x pt).plain key x = some pt := by
  obtain ⟨hzero, hpoison⟩ := Hbm.tagOf_ne key x (Hbm.encrypt key x pt)
  simp only [Gran.plain, Hbm.sealed, if_neg hpoison, if_neg hzero, Hbm.decrypt_encrypt key x h]

/-- Settles O8. -/
theorem hbmSealedOpens : Obligations.HbmSealedOpens := fun key x _ h =>
  ⟨Hbm.plain_sealed key x h, rfl, Hbm.tagOf_ne key x _⟩

end Sys2Proof.Machine
end

section
/-! SUPPORT. Byte maps, and a shelf bank that serves a request of one beat (R26). -/

namespace Sys2Proof.Machine

/-! ### Byte maps -/

theorem SMap.get_putBytes (m : SMap Byte) (a k : Nat) (bs : List Byte) : SMap.get zeroByte (SMap.putBytes m a bs) k =
    if a ≤ k ∧ k < a + bs.length then bs.getD (k - a) 0 else SMap.get zeroByte m k := by
  induction bs generalizing m a with
  | nil =>
    have : ¬(a ≤ k ∧ k < a) := by omega
    simp [SMap.putBytes, this]
  | cons b bs ih =>
    rw [SMap.putBytes, ih, SMap.get_put, List.length_cons]
    rcases Nat.lt_trichotomy k a with hk | rfl | hk
    · rw [if_neg (by omega), if_neg (by omega), if_neg (by omega)]
    · simp
    · rw [show k - a = (k - (a + 1)) + 1 by omega, List.getD_cons_succ]
      by_cases hb : k < a + (bs.length + 1)
      · rw [if_pos (by omega), if_pos (by omega)]
      · rw [if_neg (by omega), if_neg (by omega), if_neg (by omega)]

/-! ### A request that meets only good words -/

/-- The words of `[a, a + len)` hold neither poison nor an upset. -/
def Block.GoodWords (b : Block) (a len : Nat) : Prop :=
  ∀ wa ∈ wordsOf a len, NSet.has b.shelf.poison wa = false ∧ SMap.get (fun _ => 0) b.shelf.upset wa = 0

theorem Block.shelfCheckWord_of_good {b : Block} (rw again : Bool) (st : Status) {wa : Nat} (hp : NSet.has b.shelf.poison wa = false)
    (hu : SMap.get (fun _ => 0) b.shelf.upset wa = 0) : b.shelfCheckWord rw again st wa = (b, st) := by
  simp [Block.shelfCheckWord, hp, hu]

theorem Block.shelfCheck_of_good {b : Block} (op : MemOp) (again : Bool) {lo hi : Nat} (st : Status) (h : b.GoodWords lo (hi - lo)) :
    b.shelfCheck op again lo hi st = (b, st) := by
  unfold Block.shelfCheck
  suffices hl : ∀ l : List Nat, (∀ wa ∈ l, wa ∈ wordsOf lo (hi - lo)) → l.foldl
      (fun (acc : Block × Status) wa => acc.1.shelfCheckWord (op != .read) again acc.2 wa) (b, st) = (b, st) from
    hl _ fun wa hwa => (List.mem_filter.mp hwa).1
  intro l hl
  induction l with
  | nil => rfl
  | cons wa l ih =>
    obtain ⟨hp, hu⟩ := h wa (hl wa (by simp))
    rw [List.foldl_cons, Block.shelfCheckWord_of_good _ _ _ hp hu]
    exact ih fun w hw => hl w (by simp [hw])

/-! ### One beat -/

/-- A bank with one request serves that request. -/
theorem Bank.choose_singleton (q : BankReq) : Bank.choose [q] = some 0 := by
  by_cases hd : 0 < q.done <;> by_cases he : q.req.who.ensign = 0 <;> simp [Bank.choose, hd, he]

/-- A request not begun, within one beat of good words of a group in service. -/
structure Block.OneBeat (b : Block) (r : MemReq) : Prop where
  some : 0 < r.len
  within : r.addr % 64 + r.len ≤ 64
  group : b.groupStruck (Shelf.group r.addr) = false
  good : b.GoodWords r.addr r.len

section
variable {b : Block} {r : MemReq} (h : b.OneBeat r)
include h

theorem Block.OneBeat.bounds : max r.addr (64 * (r.addr / 64)) = r.addr ∧
    min (r.addr + r.len) (64 * (r.addr / 64) + 64) = r.addr + r.len ∧ r.addr + r.len ≤ 64 * (r.addr / 64) + 64 := by
  have := h.within
  omega

theorem Block.OneBeat.check : b.shelfCheck r.op false r.addr (r.addr + r.len) Code.SUCCESS = (b, Code.SUCCESS) :=
  Block.shelfCheck_of_good _ _ _ (by rw [Nat.add_sub_cancel_left]; exact h.good)

theorem Block.OneBeat.read (hop : r.op = .read) :
    b.shelfBeat ⟨r, 0, [], Code.SUCCESS⟩ = (b, ⟨r, 5, SMap.getBytes b.shelf.bytes r.addr r.len, Code.SUCCESS⟩) := by
  obtain ⟨hlo, hhi, hlast⟩ := h.bounds
  have hcheck := h.check
  rw [hop] at hcheck
  simp [Block.shelfBeat, hlo, hlast, h.group, hcheck, hop]

theorem Block.OneBeat.write {d : List Byte} (hop : r.op = .write d) (hd : d.length = r.len) :
    b.shelfBeat ⟨r, 0, [], Code.SUCCESS⟩ = (b.shelfStore r.addr d, ⟨r, 5, [], Code.SUCCESS⟩) := by
  obtain ⟨hlo, hhi, hlast⟩ := h.bounds
  have hcheck := h.check
  rw [hop] at hcheck
  simp only [Block.shelfBeat, Nat.add_zero, hlo, hhi, h.group, hcheck, hop, MemReq.partData]
  simp [← hd]

end

/-- A bank's step, where its one request ends with this beat. -/
theorem Block.bankServe_of_last {b c : Block} {lb : Nat} {q q' : BankReq} (hq : b.bankQueue lb = [q]) (hbeat : b.shelfBeat q = (c, q'))
    (hdone : 5 ≤ q'.done) :
    b.bankServe lb = (c.setBankQueue lb []).emit (.memResp q'.req.who q'.req.tag q'.answer.1 q'.answer.2) := by
  simp [Block.bankServe, hq, Bank.choose_singleton, hbeat, hdone]

theorem exec_shelfRequest_bare (bank : Fin 512) (s : State) :
    exec (.shelfRequest bank none none) s = .next (s.upd fun b => b.bankServe bank) := rfl

/-- Settles O4: the request's one beat is its last, and its words are good. -/
theorem shelfBeat : Obligations.ShelfBeat := by
  intro s bank r hq hlen hin hgroup hgood
  have h : s.blk.OneBeat r := ⟨hlen, hin, hgroup, hgood⟩
  refine ⟨fun hop => ⟨_, exec_shelfRequest_bare bank s, ?_⟩, fun d hop hd => ⟨_, exec_shelfRequest_bare bank s, fun a => ?_, ?_, ?_⟩⟩
  · rw [State.upd, Block.bankServe_of_last hq (h.read hop) le_rfl]
    simp [Block.setBankQueue, Block.emit, BankReq.answer, hop, SMap.getBytes, Block.shelfByte, Code.SUCCESS]
  all_goals rw [State.upd, Block.bankServe_of_last hq (h.write hop hd) le_rfl]
  · simp only [Block.shelfByte, Block.emit_shelf, Block.setBankQueue, Block.shelfStore, SMap.get_putBytes, hd]
  · simp [Block.setBankQueue, Block.shelfStore, BankReq.answer, hop, Code.SUCCESS]
  · rfl

end Sys2Proof.Machine
end

section
/-! SUPPORT. States in which a statement about the shelf or HBM fails. -/

namespace Sys2Proof.Machine

/-- What a command is said to yield holds of the state it answers. -/
theorem Yields.of_next {c : Instr} {s t : State} {p : State → Prop} (h : Yields c s p) (ht : exec c s = .next t) : p t := by
  obtain ⟨u, hu, hp⟩ := h
  rw [hu] at ht
  cases ht
  exact hp

/-! ### A fill waits for the holders of its lines (R211) -/

/-- Block 0 is being filled, and core 5 of site 3 shares its first line. -/
@[irreducible] def fillHeld : State := State.reset.upd fun b => { b with
  shelf := { b.shelf with fill := some ⟨0, 1⟩ }
  coh := { b.coh with dir := [(0, [⟨0, 0, .shr, false, [some 197, none, none, none], 0⟩])] } }

/-- Refutes O5: a fill does not end while an agent holds a line of its blocks; SHELF_FILL_DONE then has the line invalidated
first (R211), and the fill is as it was. -/
theorem not_shelfWorks : ¬ Obligations.ShelfWorks := by
  intro h
  obtain ⟨-, -, hdone⟩ := h.1 fillHeld
  obtain ⟨-, hfill, -⟩ := (hdone ⟨0, 1⟩ (by decide +kernel) (by decide)).of_next (exec_shelfFillDone _)
  exact absurd hfill (by decide +kernel)

/-! ### A region past its channels (R38, R40) -/

/-- HBM's one region has 2 MiB, and its data lies so high in the line space that its second granule is line 2^23 of channel 0
of stack 0. Slice 0 has a key and may read all memory. -/
@[irreducible] def regionPast : State := State.reset.upd fun b =>
  { [(Reg.HM_FE_SPACE.DLA_CAP_MIB, 2), (Reg.HM_REGION00.VALID 0, 1), (Reg.HM_REGION00.DLA_SIZE 0, 1),
      (Reg.HM_REGION08.DATA_X_BASE 0, 2 ^ 31 - 1), (Reg.HM_CHMAP.STATE 0 0, 1), (Reg.SL_FW_WIN08.SIZE 0 0, 2 ^ 28 - 1),
      (Reg.SL_FW_WIN08.VALID 0 0, 1), (Reg.SL_FW_WIN08.R 0 0, 1)].foldl (fun b f => b.wr f.1 f.2) b with
    keys := { b.keys with slice := [(0, some 7)] } }

/-- Slice 0's manager reads 16 bytes of that granule. -/
def readPast : MemCmd := ⟨.manager, some 0, 1, 0, 5, 0x8000000110, 15, .read⟩

/-- A read of that granule, never written, is let through and meets nothing queued. -/
theorem regionPast_reads :
    let r : MemReq := { MemReq.of readPast with op := .read }
    let b := regionPast.blk
    let p := Hbm.place b.hbmNd ((2 ^ 39 + 0x10) / 256 * 256)
    r.whole = true ∧ b.checkReq r.who r.addr .r = (b, none) ∧ b.cohWin r.addr = none ∧ b.range r.addr = .hbm 0x110 ∧
      b.hbmWhere 0x110 = some (b.region 0, 2 ^ 39 + 0x10) ∧ (b.region 0).prot = false ∧ b.regionKey (b.region 0) r.who.slice = some 7 ∧
      b.readable p = true ∧ (b.granStored p).tag = 0 ∧ b.hbm.disabled = false ∧ b.hbm.dram = [] ∧ b.hbm.pcs = [] := by decide +kernel

/-- Its place reads as line 0 of channel 1, whose log is free; half its line takes 23 bits. -/
theorem regionPast_line :
    let b := regionPast.blk
    let p := Hbm.place b.hbmNd ((2 ^ 39 + 0x10) / 256 * 256)
    Hbm.gran 0 1 0 = b.chPhys p ∧ b.rd (Reg.HM_ERR_LOG.VALID (b.rd (Reg.HM_CHMAP.PSTACK p.stack p.k))) = 0 ∧ p.line / 2 = 2 ^ 22 := by
  decide +kernel

theorem Block.rd_lt (b : Block) (f : Fld) : b.rd f < 2 ^ f.w := bits_lt _ _ _

/-- Refutes O6: HM_ERR_LOG.LP has 22 bits, so it does not show half a line past the channel's 2^23, at which a region whose
base nothing has checked (R38) may place a granule. -/
theorem not_hbmAccess : ¬ Obligations.HbmAccess := by
  intro h
  obtain ⟨hwhole, hcheck, hwin, hrange, hwhere, hprot, hkey, hreads, htag, hon, hdram, hpcs⟩ := regionPast_reads
  obtain ⟨hgran, hfree, hline⟩ := regionPast_line
  have hqueue (k : Nat) : (regionPast.blk.pc k).q.length < 64 := by rw [Block.pc, hpcs]; exact Nat.zero_lt_succ 63
  have howed (o : Owed) : regionPast.blk.stillOwed o = false := by rw [Block.stillOwed, hpcs]; rfl
  obtain ⟨-, herror⟩ := h.1 regionPast readPast hwhole hcheck hwin hon _ hrange _ _ hwhere hprot _ hkey
    hreads hdram (hqueue _) (howed _) (.inl htag)
  obtain ⟨-, hlog, -⟩ := (herror ⟨0, 1, 0, 1, 1⟩ hgran rfl rfl).of_next (exec_hbmRead _ _ _)
  obtain ⟨-, -, hlp⟩ := hlog hfree
  exact absurd (hlp.trans hline) (Block.rd_lt _ _).ne

/-! ### A stripe listed at rest -/

/-- Stripe 0 is listed, and holds nothing. -/
@[irreducible] def stripeListed : State := State.reset.upd fun b => { b with hbm := { b.hbm with stripes := [(0, Stripe.idle)] } }

/-- Refutes O9: the statement does not ask for the canonical form of the map of stripes, and the timeout of a stripe that is
listed with nothing held drops it from the list. -/
theorem not_hbmQueues : ¬ Obligations.HbmQueues := by
  intro h
  obtain ⟨-, hidle, -⟩ := h.1 stripeListed 0
  have hheld : (stripeListed.blk.stripe 0).held = [] := by decide +kernel
  have hsame : stripeListed.upd (fun b => b.flushStripe 0) = stripeListed := Host.Outcome.next.inj (hidle hheld)
  have hlist : (stripeListed.blk.flushStripe 0).hbm.stripes = stripeListed.blk.hbm.stripes :=
    congrArg (fun s => s.blk.hbm.stripes) hsame
  exact absurd hlist (by decide +kernel)

/-! ### A rebuild whose journal entry lies outside the journal -/

/-- Logical channel 8 of stack 1 is being rebuilt, its next line is the last before 64 MiB of line space, and its journal
entry's PROGRESS would be the register of HM_CHMAP that shows the channel. -/
@[irreducible] def rebuildAstray : State := State.reset.upd fun b =>
  { b.wr (Reg.HM_CHMAP.STATE 1 8) 2 with
    hbm := { b.hbm with rebuilds := [⟨1, 8, 1, 31, 1023, true, false, 8, 0x287F82, false, 0⟩] } }

/-- Its step is not held up and is not its last; after it the channel shows another state. -/
theorem rebuildAstray_steps :
    let b := rebuildAstray.blk
    let m := 1023 * b.hbmNd + 8
    b.hbm.rebuilds = [⟨1, 8, 1, 31, 1023, true, false, 8, 0x287F82, false, 0⟩] ∧ b.stripe m = Stripe.idle ∧ b.stripeBusy m = false ∧ 1023 + 1 < b.hbmLines ∧
      ∀ t, exec (.rebuildStep 1 8) rebuildAstray = .next t → t.blk.chState ⟨1, 8, 0⟩ ≠ b.chState ⟨1, 8, 0⟩ := by
  refine ⟨by decide +kernel, by decide +kernel, by decide +kernel, by decide +kernel, fun t ht => ?_⟩
  cases ht
  decide +kernel

/-- Refutes O10: the statement does not bound a rebuild's journal entry, and one past the journal's 64 lets the cursor that it
keeps at 64 MiB of line space overwrite the channel's state. -/
theorem not_hbmChannels : ¬ Obligations.HbmChannels := by
  intro h
  obtain ⟨hone, hidle, hfree, hmore, hstate⟩ := rebuildAstray_steps
  obtain ⟨hstep, -, -⟩ := (h.2 rebuildAstray).1 1 8 _ hone rfl rfl rfl
  obtain ⟨t, ht, -, hkept, -⟩ := hstep hidle hfree hmore
  exact hstate t ht hkept

end Sys2Proof.Machine
end

section
/-! SUPPORT. An image that gives a reach port a power controller (R377, R319), and the port's release at ROOT_PLL_LOCK. -/

namespace Sys2Proof.Machine

/-- SPI NOR that holds `bs` from `a`. -/
def norAt (a : Nat) (bs : List Byte) : SMap Byte := bs.zipIdx.map fun e => (a + e.2, e.1)

/-- An image in slot A of one layout, whose one register record writes RCH_SLOT_CAP of port 0 whole. -/
def slotCapImage : SMap Byte :=
  norAt 0x40000E [1] ++ norAt 0x400016 (natLE 4 1) ++ norAt 0x400900 (natLE 4 0xC000100 ++ [1, 4, 0, 0] ++ natLE 8 0x3F)

/-- A main sequence before its root PLL locks: port 0 is in use and has no power controller, and the image gives it one. -/
@[irreducible] def imagePowersPort : State := State.reset.upd fun b =>
  { (b.wr (Reg.RCH_SLOT_CAP.PWR_CTRL 0) 0).wr (Reg.RCH_CFG.EN 0) 1 with
    boot := { b.boot with
      slot := some 0, perst := false, preamble := false, preambleRan := true, mainAt := some 0
      nor := { b.boot.nor with bytes := slotCapImage } } }

/-- Before the lock the port is powered and DOWN, with no lane or half lost. -/
theorem imagePowersPort_before :
    let b := imagePowersPort.blk
    b.boot.mainAt ≠ none ∧ b.boot.pllLocked = false ∧ (∀ l < 8, b.defectPermanent (Src.reachLane 0 l) = false) ∧
      (b.rport 0).retired ≠ 3 ∧ b.rd (Reg.RCH_STATUS.STATE 0) = Rch.DOWN ∧ b.slotPowered 0 = true := by decide +kernel

/-- After it the port is still in use, and does not train. -/
theorem imagePowersPort_after :
    let b := imagePowersPort.blk.rootLock
    b.rd (Reg.RCH_CFG.EN 0) = 1 ∧ b.rd (Reg.RCH_STATUS.STATE 0) ≠ Rch.TRAINING := by decide +kernel

/-- Refutes O55: at ROOT_PLL_LOCK the image's register records come first (R377). One that gives a port a power controller
leaves its slot off by PWR_OFF's reset value, so the port, powered before, does not train. -/
theorem not_bringUp : ¬ Obligations.BringUp := by
  intro h
  obtain ⟨hmain, hpll, hlanes, hhalves, hdown, hpowered⟩ := imagePowersPort_before
  obtain ⟨hused, hstays⟩ := imagePowersPort_after
  obtain ⟨-, hlock, -⟩ := h imagePowersPort
  obtain ⟨-, -, -, -, hport, -⟩ := (hlock hmain hpll).of_next (exec_rootPllLock _)
  exact hstays (hport 0 hlanes hhalves hdown hpowered hused)

end Sys2Proof.Machine
end

section
/-! SUPPORT. Doorbells and the heads that consumers write (R58). -/

namespace Sys2Proof.Machine

/-! ### Doorbells and heads -/

/-- A difference of ring indices does not depend on how many whole turns are added to it. -/
theorem ringDiff_turns {m h : Nat} (v k : Nat) (hh : h ≤ m) : (v + m * (k + 1) - h) % m = (v + m - h) % m := by
  rw [show v + m * (k + 1) - h = v + m - h + m * k by rw [Nat.mul_succ]; omega, Nat.add_mul_mod_self_left]

/-- A ring's index, its size given by a 4-bit LOG2_SIZE, fits its register. -/
theorem ringIndex_lt {n : Nat} (v : Nat) (hn : n < 2 ^ 4) : v % 2 ^ (n + 1) < 2 ^ 17 :=
  calc v % 2 ^ (n + 1) < 2 ^ (n + 1) := Nat.mod_lt _ (Nat.two_pow_pos _)
    _ ≤ 2 ^ 16 := Nat.pow_le_pow_right Nat.two_pos hn
    _ < 2 ^ 17 := by decide

/-- A field reads the value written to it, where the value fits. -/
theorem Block.rd_wr_fits (b : Block) (f : Fld) {n : Nat} (hn : n < 2 ^ f.w) (h : (f.lo + f.w).ble 64 = true := by rfl) :
    (b.wr f n).rd f = n :=
  (Block.rd_wr_same b f n (Nat.le_of_ble_eq_true h)).trans (Nat.mod_eq_of_lt hn)

/-- A write of one field is a step of that field. -/
theorem onlyFields_wr (s : State) (f : Fld) (n : Nat) : OnlyFields s { s with blk := s.blk.wr f n } [f] :=
  ⟨rfl, (Block.FieldsKept.refl s.blk [f]).wr f n List.mem_cons_self⟩

/-- R58's test of a doorbell, without the whole turns the model adds. -/
theorem Block.doorbell_eq {b : Block} {s c : Nat} (v : Nat) (hopen : b.sliceState s = Slice.OPEN)
    (hh : b.rd (Reg.SL_Q_HEAD.INDEX s c) < 2 ^ (b.rd (Reg.SL_Q_CFG.LOG2_SIZE s c) + 1)) :
    b.doorbell s c v =
      let n := b.rd (Reg.SL_Q_CFG.LOG2_SIZE s c)
      let m := 2 ^ (n + 1)
      let h := b.rd (Reg.SL_Q_HEAD.INDEX s c)
      let d := (v % 2 ^ 17 + m - h) % m
      if d ≤ 2 ^ n ∧ (b.rd (Reg.SL_Q_TAIL.INDEX s c) + m - h) % m ≤ d then b.wr (Reg.SL_Q_TAIL.INDEX s c) (v % 2 ^ 17 % m)
      else b.wr (Reg.SL_Q_STATUS.DB_REJECT s c) 1 := by
  have hturns (x : Nat) := ringDiff_turns x (2 ^ 17 - 1) hh.le
  simp only [Block.doorbell, hopen, true_and, ← hturns]
  rfl

theorem Block.takeHead_onlyFields (s : State) (head tail : Fld) (n v : Nat) :
    OnlyFields s { s with blk := s.blk.takeHead head tail n v } [head] := by
  simp only [Block.takeHead]
  split
  · exact onlyFields_wr s head _
  · exact ⟨rfl, .refl _ _⟩

/-- R58's test of a head written to the fault log. -/
theorem Block.consumerHead_faultLog (b : Block) (v : Nat) :
    b.consumerHead .faultLog (v % 2 ^ 17) =
      let h := b.rd Reg.FC_LOG_HEAD.INDEX
      if (v % 8192 + 8192 - h) % 8192 ≤ (b.rd Reg.FC_LOG_TAIL.INDEX + 8192 - h) % 8192 then b.wr Reg.FC_LOG_HEAD.INDEX (v % 8192) else b := by
  have hh : b.rd Reg.FC_LOG_HEAD.INDEX % 8192 = b.rd Reg.FC_LOG_HEAD.INDEX := Nat.mod_eq_of_lt (Block.rd_lt _ _)
  have hv : v % 2 ^ 17 % 8192 = v % 8192 := Nat.mod_mod_of_dvd v (by decide)
  simp only [Block.consumerHead, Block.takeHead, Nat.reduceAdd, Nat.reducePow, hh] at hv ⊢
  rw [hv]

/-- Settles O11: the whole turns that the model adds before it subtracts a head do not change a difference of indices. -/
theorem doorbells : Obligations.Doorbells := by
  refine ⟨fun s slice cls v hopen => ?_, fun s v => ?_⟩
  · intro n m h t0 v' hh _
    have heq := s.blk.doorbell_eq v.toNat hopen hh
    refine ⟨fun htake => ⟨_, exec_doorbell slice cls v s, ?_⟩, fun hleave => ⟨_, exec_doorbell slice cls v s, ?_⟩⟩
    · rw [State.upd, heq, if_pos htake]
      exact ⟨Block.rd_wr_fits _ _ (ringIndex_lt _ (Block.rd_lt _ _)), onlyFields_wr s _ _⟩
    · rw [State.upd, heq, if_neg hleave]
      exact ⟨Block.rd_wr_fits _ _ Nat.one_lt_two, onlyFields_wr s _ _⟩
  · intro t0 h v'
    have heq := s.blk.consumerHead_faultLog v.toNat
    refine ⟨fun htake => ⟨_, exec_consumerHeadWrite .faultLog v s, ?_⟩, fun hleave => ?_,
      fun sl => ⟨_, exec_consumerHeadWrite (.completion sl) v s, Block.takeHead_onlyFields s _ _ _ _⟩,
      fun sl => ⟨_, exec_consumerHeadWrite (.token sl) v s, Block.takeHead_onlyFields s _ _ _ _⟩,
      ⟨_, exec_consumerHeadWrite .hot v s, Block.takeHead_onlyFields s _ _ _ _⟩⟩
    · rw [State.upd, heq, if_pos htake]
      exact ⟨Block.rd_wr_fits _ _ (Nat.mod_lt _ (by decide)), onlyFields_wr s _ _⟩
    · rw [exec_consumerHeadWrite, execConsumerHeadWrite, State.upd, heq, if_neg hleave.not_ge]

end Sys2Proof.Machine
end

section
/-! SUPPORT. Steps that may wait, and the fetch of one command (R59). -/

namespace Sys2Proof.Machine

/-! ### Queues -/

/-- One queue replaced: it holds its new state, and every other queue is as before. -/
theorem Block.q_of_queues_eq {b c : Block} {s cl : Nat} {v : QueueState} (h : c.queues = (b.setQ s cl v).queues) : c.q s cl = v := by
  rw [Block.q, Block.queue, h]
  exact SMap.get_put_same _ _ _ _

theorem Block.queuesKept_of_queues_eq {b c : Block} {s cl : Nat} {v : QueueState} (h : c.queues = (b.setQ s cl v).queues) :
    b.QueuesKept c s cl := fun k hk => by
  rw [Block.queue, h]
  exact SMap.get_put_of_ne _ _ _ hk

/-! ### Steps that may wait (assumption 5) -/

/-- A step that meets nothing missing stands, but for what it records of its accesses outside. -/
theorem Block.settle_of_done (b : Block) (f : Block → Block) (h : (f b).ext.need = []) : ∃ e, b.settle f = { f b with ext := e } := by
  have hw : ¬(f b).waiting = true := by simp [Block.waiting, h]
  exact ⟨_, if_neg hw⟩

/-- What holds after a step that meets nothing missing, whatever it records of its accesses outside. -/
theorem yields_settle {c : Instr} {s : State} {f : Block → Block} {p : State → Prop}
    (hc : exec c s = .next (s.upd fun b => b.settle f)) (hneed : (f s.blk).ext.need = [])
    (hp : ∀ e, p { s with blk := { f s.blk with ext := e } }) : Yields c s p := by
  obtain ⟨e, he⟩ := s.blk.settle_of_done f hneed
  exact ⟨_, hc, by rw [State.upd, he]; exact hp e⟩

/-! ### Fetch (R59) -/

theorem Block.fetch_of_not_mayFetch {b : Block} {s c : Nat} (h : b.mayFetch s c = false) : b.fetch s c = b := by
  simp [Block.fetch, h]

theorem Block.fetchSlots_one {b : Block} {w : Who} {p : Nat} {d : List Byte} (hp : Ptr.check p = none)
    (hd : b.ptrRead w p 64 = (b, Code.SUCCESS, d)) :
    Block.fetchSlots b w 1 p = (b, none, [(List.range 8).map fun i => leAt d (8 * i) 8]) := by
  simp [Block.fetchSlots, hp, hd]

theorem Block.logFetch_of_not_named {b : Block} {s c : Nat} (h : (b.rd (Reg.SL_MARK_CFG.QMASK s)).testBit c = false) :
    b.logFetch s c = b := by
  simp [Block.logFetch, h]

/-- Two indices of one ring that differ lie some entries apart. -/
theorem ringDiff_ne_zero {m t h : Nat} (ht : t < m) (hh : h < m) (hne : t ≠ h) : (t + m - h) % m ≠ 0 := by
  rcases lt_or_gt_of_ne hne with hlt | hgt
  · rw [Nat.mod_eq_of_lt (by omega)]
    omega
  · rw [show t + m - h = t - h + m by omega, Nat.add_mod_right, Nat.mod_eq_of_lt (by omega)]
    omega

/-- A queue that does not fetch ahead, at ring level, reads the one command at its head. -/
theorem Block.fetch_one {b : Block} {s c : Nat} (hmay : b.mayFetch s c = true) (hneed : b.ext.need = [])
    (hring : (b.q s c).stack = []) (hone : b.is (Reg.SL_Q_CFG.FETCH_AHEAD s c) = false)
    (hlog : (b.rd (Reg.SL_MARK_CFG.QMASK s)).testBit c = false) :
    let n := b.rd (Reg.SL_Q_CFG.LOG2_SIZE s c)
    let h := b.rd (Reg.SL_Q_HEAD.INDEX s c)
    let p := b.rd (Reg.SL_Q_BASE.BASE s c) + 64 * (h % 2 ^ n)
    h < 2 ^ (n + 1) → b.rd (Reg.SL_Q_TAIL.INDEX s c) < 2 ^ (n + 1) → b.rd (Reg.SL_Q_TAIL.INDEX s c) ≠ h →
    Ptr.check p = none → ∀ d, b.ptrRead (b.qWho s c) p 64 = (b, Code.SUCCESS, d) →
    b.fetch s c = (b.setQ s c { b.q s c with fetched := [⟨(List.range 8).map fun i => leAt d (8 * i) 8, h, 0, 0⟩] }).wr
      (Reg.SL_Q_HEAD.INDEX s c) ((h + 1) % 2 ^ (n + 1)) := by
  intro n h p hh ht hne hp d hd
  have hwait : b.waiting = false := by simp [Block.waiting, hneed]
  have hsome : (b.rd (Reg.SL_Q_TAIL.INDEX s c) + 2 ^ (n + 1) - h) % 2 ^ (n + 1) ≠ 0 := ringDiff_ne_zero ht hh hne
  have hslot : h % 2 ^ n < 2 ^ n := Nat.mod_lt _ (Nat.two_pow_pos n)
  have hcount : min (min 1 ((b.rd (Reg.SL_Q_TAIL.INDEX s c) + 2 ^ (n + 1) - h) % 2 ^ (n + 1))) (2 ^ n - h % 2 ^ n) = 1 := by omega
  have hoff : (Reg.SL_MARK_CFG.QMASK s).off ≠ (Reg.SL_Q_HEAD.INDEX s c).off := by
    simp only [Reg.SL_MARK_CFG.QMASK, Reg.SL_Q_HEAD.INDEX]
    omega
  have hmod : b.rd (Reg.SL_Q_HEAD.INDEX s c) % 2 ^ (b.rd (Reg.SL_Q_CFG.LOG2_SIZE s c) + 1) = h := Nat.mod_eq_of_lt hh
  unfold Block.fetch
  simp only [hmay, Bool.not_true, Bool.false_eq_true, if_false, hone, hring]
  simp only [hmod]
  rw [if_neg hsome, hcount, Block.fetchSlots_one hp hd]
  simp only [hwait, Bool.false_eq_true, if_false, List.isEmpty_cons, List.length_singleton]
  rw [Block.logFetch_of_not_named (by rw [Block.rd_wr_of_off_ne _ _ _ _ hoff]; exact hlog)]
  simp [Block.modQ, hmod, hring, h, n]

/-- Settles O12: a queue that may fetch reads one command at its ring's head, where nothing fetched before is left. -/
theorem commandFetch : Obligations.CommandFetch := by
  intro s slice cls hneed
  have hc := exec_commandFetch slice cls s
  have hw := exec_headWriteback slice cls s
  refine ⟨fun hmay => ?_, ?_, fun hp => ?_, fun hp hst hcheck htag b' st hput hneed' => ?_⟩
  · have heq : s.blk.fetch slice cls = s.blk := Block.fetch_of_not_mayFetch hmay
    exact yields_settle hc (by rw [heq]; exact hneed) fun e => by rw [heq]
  · intro b n h p hmay hring hone hh ht hne hcheck d hd hlog
    have heq := Block.fetch_one hmay hneed hring hone hlog hh ht hne hcheck d hd
    refine yields_settle hc (by rw [heq]; exact hneed) fun e => ?_
    have hq := (congrArg Block.queues heq).trans (Block.wr_queues _ _ _)
    refine ⟨congrArg QueueState.fetched (Block.q_of_queues_eq hq), ?_, by rw [heq]; rfl, Block.queuesKept_of_queues_eq hq, ?_⟩
    all_goals rw [heq]
    · exact Block.rd_wr_fits (b.setQ slice cls _) _ (ringIndex_lt _ (Block.rd_lt _ _))
    · exact (Block.FieldsKept.refl b _).wr _ _ List.mem_cons_self
  · have heq : s.blk.headWriteback slice cls = s.blk := if_pos (.inl hp)
    exact yields_settle hw (by rw [heq]; exact hneed) fun e => by rw [heq]
  · have heq : s.blk.headWriteback slice cls = b' := by
      simp [Block.headWriteback, hp, hst, hcheck, htag, hput]
    exact yields_settle hw (by rw [heq]; exact hneed') fun e => by rw [heq]

end Sys2Proof.Machine
end

section
/-! SUPPORT. Steps of one queue: its frame, its status, and queue control (R56, R84, R85). -/

namespace Sys2Proof.Machine

/-! ### Steps of one queue -/

/-- `c` differs from `b` in the state of one queue and in the fields `fs`. -/
structure Block.QueueFrame (b c : Block) (s cl : Nat) (fs : List Fld) : Prop where
  rest : c = { b with regs := c.regs, queues := c.queues }
  queues : b.QueuesKept c s cl
  fields : b.FieldsKept c fs

section
variable {b c d : Block} {s cl : Nat} {fs : List Fld}

theorem Block.QueueFrame.refl (b : Block) (s cl : Nat) (fs : List Fld) : b.QueueFrame b s cl fs := ⟨rfl, fun _ _ => rfl, .refl b fs⟩

theorem Block.QueueFrame.trans (h : b.QueueFrame c s cl fs) (k : c.QueueFrame d s cl fs) : b.QueueFrame d s cl fs where
  rest := by rw [k.rest, h.rest]
  queues n hn := (k.queues n hn).trans (h.queues n hn)
  fields := h.fields.trans k.fields

theorem Block.QueueFrame.mono {gs : List Fld} (h : b.QueueFrame c s cl fs) (hsub : ∀ f ∈ fs, f ∈ gs) : b.QueueFrame c s cl gs :=
  { h with fields := h.fields.mono hsub }

theorem Block.QueueFrame.wr (h : b.QueueFrame c s cl fs) (f : Fld) (n : Nat) (hf : f ∈ fs) : b.QueueFrame (c.wr f n) s cl fs where
  rest := by rw [h.rest]; rfl
  queues := h.queues
  fields := h.fields.wr f n hf

theorem Block.QueueFrame.modQ (h : b.QueueFrame c s cl fs) (f : QueueState → QueueState) : b.QueueFrame (c.modQ s cl f) s cl fs where
  rest := by rw [h.rest]; rfl
  queues n hn := (Block.queuesKept_of_queues_eq rfl n hn).trans (h.queues n hn)
  fields := h.fields.of_regs rfl

end

@[simp] theorem Block.q_modQ (b : Block) (s c : Nat) (f : QueueState → QueueState) : (b.modQ s c f).q s c = f (b.q s c) :=
  Block.q_of_queues_eq rfl

@[simp] theorem Block.q_wr (b : Block) (s c : Nat) (f : Fld) (n : Nat) : (b.wr f n).q s c = b.q s c := rfl

@[simp] theorem Block.rd_modQ (b : Block) (s c : Nat) (f : QueueState → QueueState) (g : Fld) : (b.modQ s c f).rd g = b.rd g := rfl

/-! ### A queue's status -/

/-- The fields that show how many commands a queue runs and how deep its lists nest. -/
def Fld.qCounts (s c : Nat) : List Fld := [Reg.SL_Q_STATUS.INFLIGHT s c, Reg.SL_Q_STATUS.DEPTH s c]

/-- A queue that stops and has no command left. -/
abbrev QueueState.Ended (q : QueueState) : Prop := q.stopping = true ∧ q.inflight = []

/-- A queue that does not stop, or still runs commands, shows its counts. -/
theorem Block.qStatus_of_stays {b : Block} {s c : Nat} (h : ¬(b.q s c).Ended) :
    b.qStatus s c = (b.wr (Reg.SL_Q_STATUS.INFLIGHT s c) (b.q s c).inflight.length).wr (Reg.SL_Q_STATUS.DEPTH s c) (b.q s c).stack.length := by
  have : ¬((b.q s c).stopping = true ∧ (b.q s c).inflight.isEmpty = true) := by simpa [QueueState.Ended] using h
  exact if_neg this

theorem Fld.state_apart_qCounts (s c : Nat) : ∀ f ∈ Fld.qCounts s c, (Reg.SL_Q_STATUS.STATE s c).Apart f := by
  simp [Fld.qCounts, Fld.Apart, Reg.SL_Q_STATUS.STATE, Reg.SL_Q_STATUS.INFLIGHT, Reg.SL_Q_STATUS.DEPTH]

theorem Block.rd_qStatus_of_stays {b : Block} {s c : Nat} (h : ¬(b.q s c).Ended) {g : Fld}
    (hg : g.lo + g.w ≤ 64) (ha : ∀ f ∈ Fld.qCounts s c, g.Apart f) : (b.qStatus s c).rd g = b.rd g := by
  rw [Block.qStatus_of_stays h]
  exact (((Block.FieldsKept.refl b (Fld.qCounts s c)).wr _ _ (by simp [Fld.qCounts])).wr _ _ (by simp [Fld.qCounts])) g hg ha

/-- A stopping queue with no command left is DISABLED (R85). -/
theorem Block.rd_qStatus_of_stopped {b : Block} {s c : Nat} (h : (b.q s c).Ended) :
    (b.qStatus s c).rd (Reg.SL_Q_STATUS.STATE s c) = Q.DISABLED := by
  unfold Block.qStatus
  simp only [h.1, h.2, List.isEmpty_nil, and_self, if_true]
  exact Block.rd_wr_fits _ _ (show 0 < 2 ^ 2 by decide)

theorem Block.qStatus_frame (b : Block) (s c : Nat) :
    b.QueueFrame (b.qStatus s c) s c (Reg.SL_Q_STATUS.STATE s c :: Fld.qCounts s c) := by
  have hcounts := ((Block.QueueFrame.refl b s c (Reg.SL_Q_STATUS.STATE s c :: Fld.qCounts s c)).wr (Reg.SL_Q_STATUS.INFLIGHT s c)
    (b.q s c).inflight.length (by simp [Fld.qCounts])).wr (Reg.SL_Q_STATUS.DEPTH s c) (b.q s c).stack.length (by simp [Fld.qCounts])
  unfold Block.qStatus
  dsimp only
  split
  · exact (hcounts.modQ _).wr _ _ (by simp)
  · exact hcounts

/-! ### Queue control (R56, R84, R85) -/

/-- The state in which a queue goes on. -/
def Block.onState (b : Block) (s c : Nat) : Nat := if b.is (Reg.SL_Q_CTRL.PAUSE s c) then Q.PAUSED else Q.RUNNING

theorem Block.onState_cases (b : Block) (s c : Nat) : b.onState s c = Q.PAUSED ∨ b.onState s c = Q.RUNNING :=
  ite_eq_or_eq _ _ _

/-- The queue goes on: it runs, or is PAUSED. -/
def Block.goOn (b : Block) (s c : Nat) : Block := (b.setQState s c (b.onState s c)).qStatus s c

theorem Block.setQState_state (b : Block) (s c : Nat) {st : Nat} (h : st < 4) : (b.setQState s c st).rd (Reg.SL_Q_STATUS.STATE s c) = st :=
  Block.rd_wr_fits b _ h

theorem Block.goOn_state {b : Block} {s c : Nat} (h : (b.q s c).stopping = false) :
    (b.goOn s c).rd (Reg.SL_Q_STATUS.STATE s c) = b.onState s c := by
  have hlt : b.onState s c < 4 := by rcases b.onState_cases s c with he | he <;> rw [he] <;> decide
  have hq : ¬((b.setQState s c (b.onState s c)).q s c).Ended := fun he => Bool.false_ne_true (h.symm.trans he.1)
  rw [Block.goOn, Block.rd_qStatus_of_stays hq (Nat.le_of_ble_eq_true rfl) (Fld.state_apart_qCounts s c), Block.setQState_state b s c hlt]

theorem Block.goOn_q {b : Block} {s c : Nat} (h : (b.q s c).stopping = false) : (b.goOn s c).q s c = b.q s c := by
  have hq : ¬((b.setQState s c (b.onState s c)).q s c).Ended := fun he => Bool.false_ne_true (h.symm.trans he.1)
  rw [Block.goOn, Block.qStatus_of_stays hq]
  rfl

theorem Block.goOn_frame (b : Block) (s c : Nat) : b.QueueFrame (b.goOn s c) s c (Reg.SL_Q_STATUS.STATE s c :: Fld.qCounts s c) :=
  ((Block.QueueFrame.refl b s c _).wr _ _ List.mem_cons_self).trans (Block.qStatus_frame _ s c)

theorem Block.leaveError_eq (b : Block) (s c : Nat) : b.leaveError s c = (b.modQ s c fun q => { q with fail := none }).goOn s c := rfl

/-! ### Setting ENABLE -/

/-- The queue with ENABLE set, before its start checks. -/
def Block.enabled (b : Block) (s c : Nat) : Block :=
  (b.wr (Reg.SL_Q_CTRL.ENABLE s c) 1).modQ s c fun q => { q with stopping := false, fail := none }

/-- A queue that starts from DISABLED has no call stack and nothing fetched. -/
def Block.emptied (b : Block) (s c : Nat) : Block :=
  if b.qState s c = Q.DISABLED then b.modQ s c fun q => { q with fetched := [], stack := [], replay := [], resume := none } else b

/-- The queue's start checks fail, or its partition is down. -/
def Block.startFails (b : Block) (s c : Nat) : Block :=
  ((b.setQState s c Q.ERROR).wr (Reg.SL_Q_STATUS.ERR_STATUS s c)
    (if b.sliceDown s then Code.FLT_PARTITION_DOWN else Code.HOIST_BAD_FIELD)).modQ s c fun q => { q with fail := some .none }

theorem Block.queueEnable_of_enabled {b : Block} {s c : Nat} (h : b.is (Reg.SL_Q_CTRL.ENABLE s c) = true) : b.queueEnable s c = b := if_pos h

theorem Block.queueEnable_of_disabled {b : Block} {s c : Nat} (h : b.is (Reg.SL_Q_CTRL.ENABLE s c) = false) :
    b.queueEnable s c = if (b.enabled s c).queueStarts s c && !(b.enabled s c).sliceDown s then ((b.enabled s c).emptied s c).goOn s c
      else (b.enabled s c).startFails s c :=
  if_neg (by simp [h])

/-- The fields that setting ENABLE writes. -/
def Fld.qEnable (s c : Nat) : List Fld :=
  [Reg.SL_Q_CTRL.ENABLE s c, Reg.SL_Q_STATUS.STATE s c, Reg.SL_Q_STATUS.ERR_STATUS s c, Reg.SL_Q_STATUS.INFLIGHT s c,
    Reg.SL_Q_STATUS.DEPTH s c]

theorem Block.enabled_frame (b : Block) (s c : Nat) : b.QueueFrame (b.enabled s c) s c (Fld.qEnable s c) :=
  ((Block.QueueFrame.refl b s c _).wr _ _ List.mem_cons_self).modQ _

theorem Block.rd_emptied (b : Block) (s c : Nat) (g : Fld) : (b.emptied s c).rd g = b.rd g := by
  unfold Block.emptied
  split <;> rfl

theorem Block.emptied_stopping (b : Block) (s c : Nat) : ((b.emptied s c).q s c).stopping = (b.q s c).stopping := by
  unfold Block.emptied
  split
  · rw [Block.q_modQ]
  · rfl

theorem Block.emptied_frame (b : Block) (s c : Nat) (fs : List Fld) : b.QueueFrame (b.emptied s c) s c fs := by
  unfold Block.emptied
  split
  · exact (Block.QueueFrame.refl b s c fs).modQ _
  · exact .refl b s c fs

/-- A queue's own control and status registers do not say whether its partition is down. -/
theorem Block.sliceDown_enabled (b : Block) (s c : Nat) : (b.enabled s c).sliceDown s = b.sliceDown s := by
  have hpart : (b.enabled s c).slicePart s = b.slicePart s :=
    Block.rd_wr_of_off_ne b _ _ 1 (by simp only [Reg.SL_CFG.PARTITION, Reg.SL_Q_CTRL.ENABLE]; omega)
  have hlt : b.slicePart s < 2 ^ 5 := Block.rd_lt _ _
  have hdown : (b.enabled s c).rd (Reg.FC_PART_STATE.DOWN (b.slicePart s)) = b.rd (Reg.FC_PART_STATE.DOWN (b.slicePart s)) :=
    Block.rd_wr_of_off_ne b _ _ 1 (by simp only [Reg.FC_PART_STATE.DOWN, Reg.SL_Q_CTRL.ENABLE]; omega)
  simp only [Block.sliceDown, hpart, Block.is_eq, hdown]

theorem Block.onState_emptied_enabled (b : Block) (s c : Nat) : ((b.enabled s c).emptied s c).onState s c = b.onState s c := by
  have hpause : ((b.enabled s c).emptied s c).rd (Reg.SL_Q_CTRL.PAUSE s c) = b.rd (Reg.SL_Q_CTRL.PAUSE s c) :=
    (Block.rd_emptied _ _ _ _).trans (Block.rd_wr_of_disjoint b _ _ 1 (Nat.le_of_ble_eq_true rfl) (.inr (.inr (Nat.le_of_ble_eq_true rfl))))
  rw [Block.onState, Block.is_eq, hpause, Block.onState, Block.is_eq]

/-- The queue with ENABLE set, started. -/
theorem Block.goOn_enabled_state (b : Block) (s c : Nat) :
    (((b.enabled s c).emptied s c).goOn s c).rd (Reg.SL_Q_STATUS.STATE s c) = b.onState s c := by
  have h : (((b.enabled s c).emptied s c).q s c).stopping = false := by
    rw [Block.emptied_stopping, Block.enabled, Block.q_modQ]
  rw [Block.goOn_state h, Block.onState_emptied_enabled]

theorem Block.startFails_state (b : Block) (s c : Nat) : (b.startFails s c).rd (Reg.SL_Q_STATUS.STATE s c) = Q.ERROR := by
  rw [Block.startFails, Block.rd_modQ, Block.rd_wr_of_disjoint, Block.setQState_state b s c (by decide)]
  · exact Nat.le_of_ble_eq_true rfl
  · exact .inr (.inl (Nat.le_of_ble_eq_true rfl))

theorem Block.startFails_status (b : Block) (s c : Nat) : (b.startFails s c).rd (Reg.SL_Q_STATUS.ERR_STATUS s c) =
    if b.sliceDown s then Code.FLT_PARTITION_DOWN else Code.HOIST_BAD_FIELD := by
  rw [Block.startFails, Block.rd_modQ]
  refine Block.rd_wr_fits _ _ ?_
  split
  · exact (by decide : Code.FLT_PARTITION_DOWN < 2 ^ 16)
  · exact (by decide : Code.HOIST_BAD_FIELD < 2 ^ 16)

theorem Block.startFails_frame (b : Block) (s c : Nat) :
    b.QueueFrame (b.startFails s c) s c [Reg.SL_Q_STATUS.STATE s c, Reg.SL_Q_STATUS.ERR_STATUS s c] :=
  (((Block.QueueFrame.refl b s c _).wr _ _ (by simp)).wr _ _ (by simp)).modQ _

/-- Whatever its start checks say, the queue runs or is in ERROR, and nothing but itself has changed. -/
theorem Block.queueEnable_frame {b : Block} {s c : Nat} (h : b.is (Reg.SL_Q_CTRL.ENABLE s c) = false) :
    b.QueueFrame (b.queueEnable s c) s c (Fld.qEnable s c) := by
  rw [Block.queueEnable_of_disabled h]
  split
  · exact ((b.enabled_frame s c).trans (Block.emptied_frame _ s c _)).trans
      ((Block.goOn_frame _ s c).mono (by simp [Fld.qEnable, Fld.qCounts]))
  · exact (b.enabled_frame s c).trans ((Block.startFails_frame _ s c).mono (by simp [Fld.qEnable]))

/-- ENABLE reads 1. -/
theorem Block.queueEnable_enable {b : Block} {s c : Nat} (h : b.is (Reg.SL_Q_CTRL.ENABLE s c) = false) :
    (b.queueEnable s c).rd (Reg.SL_Q_CTRL.ENABLE s c) = 1 := by
  have hon : (b.enabled s c).rd (Reg.SL_Q_CTRL.ENABLE s c) = 1 := Block.rd_wr_fits b _ Nat.one_lt_two
  have hbits : (Reg.SL_Q_CTRL.ENABLE s c).lo + (Reg.SL_Q_CTRL.ENABLE s c).w ≤ 64 := Nat.le_of_ble_eq_true rfl
  rw [Block.queueEnable_of_disabled h]
  split
  · refine ((Block.goOn_frame _ s c).fields _ hbits ?_).trans ((Block.rd_emptied _ s c _).trans hon)
    simp [Fld.qCounts, Fld.Apart, Reg.SL_Q_CTRL.ENABLE, Reg.SL_Q_STATUS.STATE, Reg.SL_Q_STATUS.INFLIGHT, Reg.SL_Q_STATUS.DEPTH]
  · refine ((Block.startFails_frame _ s c).fields _ hbits ?_).trans hon
    simp [Fld.Apart, Reg.SL_Q_CTRL.ENABLE, Reg.SL_Q_STATUS.STATE, Reg.SL_Q_STATUS.ERR_STATUS]

/-! ### Clearing ENABLE -/

/-- The queue with ENABLE cleared: it stops. -/
def Block.stopped (b : Block) (s c : Nat) : Block := (b.wr (Reg.SL_Q_CTRL.ENABLE s c) 0).modQ s c fun q => { q with stopping := true }

theorem Block.queueDisable_of_enabled {b : Block} {s c : Nat} (h : b.is (Reg.SL_Q_CTRL.ENABLE s c) = true) :
    b.queueDisable s c = (b.stopped s c).qStatus s c :=
  if_neg (by simp [h])

theorem Block.stopped_q (b : Block) (s c : Nat) : (b.stopped s c).q s c = { b.q s c with stopping := true } := Block.q_modQ _ s c _

theorem Block.queueDisable_frame {b : Block} {s c : Nat} (h : b.is (Reg.SL_Q_CTRL.ENABLE s c) = true) :
    b.QueueFrame (b.queueDisable s c) s c (Reg.SL_Q_CTRL.ENABLE s c :: Reg.SL_Q_STATUS.STATE s c :: Fld.qCounts s c) := by
  rw [Block.queueDisable_of_enabled h]
  exact (((Block.QueueFrame.refl b s c _).wr _ _ List.mem_cons_self).modQ _).trans
    ((Block.qStatus_frame _ s c).mono fun f hf => List.mem_cons_of_mem _ hf)

theorem Block.queueDisable_enable {b : Block} {s c : Nat} (h : b.is (Reg.SL_Q_CTRL.ENABLE s c) = true) :
    (b.queueDisable s c).rd (Reg.SL_Q_CTRL.ENABLE s c) = 0 := by
  rw [Block.queueDisable_of_enabled h]
  refine ((Block.qStatus_frame _ s c).fields _ (Nat.le_of_ble_eq_true rfl) ?_).trans (Block.rd_wr_fits b _ Nat.two_pos)
  simp [Fld.qCounts, Fld.Apart, Reg.SL_Q_CTRL.ENABLE, Reg.SL_Q_STATUS.STATE, Reg.SL_Q_STATUS.INFLIGHT, Reg.SL_Q_STATUS.DEPTH]

/-- A queue that still runs commands stops, in the state it had (R85). -/
theorem Block.queueDisable_of_running {b : Block} {s c : Nat} (h : b.is (Reg.SL_Q_CTRL.ENABLE s c) = true)
    (hrun : (b.q s c).inflight ≠ []) : ((b.queueDisable s c).q s c).stopping = true ∧
      (b.queueDisable s c).rd (Reg.SL_Q_STATUS.STATE s c) = b.rd (Reg.SL_Q_STATUS.STATE s c) := by
  have hstays : ¬((b.stopped s c).q s c).Ended := fun he => hrun (by simpa [Block.stopped_q] using he.2)
  have hkept : (b.stopped s c).rd (Reg.SL_Q_STATUS.STATE s c) = b.rd (Reg.SL_Q_STATUS.STATE s c) :=
    Block.rd_wr_of_off_ne b _ _ 0 (by simp only [Reg.SL_Q_STATUS.STATE, Reg.SL_Q_CTRL.ENABLE]; omega)
  rw [Block.queueDisable_of_enabled h]
  constructor
  · rw [Block.qStatus_of_stays hstays, Block.q_wr, Block.q_wr, Block.stopped_q]
  · rw [Block.rd_qStatus_of_stays hstays (Nat.le_of_ble_eq_true rfl) (Fld.state_apart_qCounts s c), hkept]

theorem Block.queueDisable_of_idle {b : Block} {s c : Nat} (h : b.is (Reg.SL_Q_CTRL.ENABLE s c) = true)
    (hidle : (b.q s c).inflight = []) : (b.queueDisable s c).rd (Reg.SL_Q_STATUS.STATE s c) = Q.DISABLED := by
  rw [Block.queueDisable_of_enabled h]
  exact Block.rd_qStatus_of_stopped ⟨by rw [Block.stopped_q], by rw [Block.stopped_q, hidle]⟩

/-! ### PAUSE -/

/-- PAUSE is written, and a queue in state `old` goes to `new`. -/
theorem queuePause_step (s : State) (sl c k : Nat) {old new : Nat} (hk : k < 2) (hnew : new < 4) :
    let st := Reg.SL_Q_STATUS.STATE sl c
    let b := s.blk.wr (Reg.SL_Q_CTRL.PAUSE sl c) k
    let t : State := { s with blk := if b.qState sl c = old then b.setQState sl c new else b }
    t.blk.rd (Reg.SL_Q_CTRL.PAUSE sl c) = k ∧ t.blk.rd st = (if s.blk.rd st = old then new else s.blk.rd st) ∧
      OnlyFields s t [Reg.SL_Q_CTRL.PAUSE sl c, st] := by
  intro st b t
  have hoff : st.off ≠ (Reg.SL_Q_CTRL.PAUSE sl c).off := by simp only [st, Reg.SL_Q_STATUS.STATE, Reg.SL_Q_CTRL.PAUSE]; omega
  have hpause : b.rd (Reg.SL_Q_CTRL.PAUSE sl c) = k := Block.rd_wr_fits _ _ hk
  have hstate : b.qState sl c = s.blk.rd st := Block.rd_wr_of_off_ne _ _ _ _ hoff
  have hkept : s.blk.FieldsKept b [Reg.SL_Q_CTRL.PAUSE sl c, st] := (Block.FieldsKept.refl _ _).wr _ _ List.mem_cons_self
  by_cases h : s.blk.rd st = old
  · have ht : t = { s with blk := b.setQState sl c new } := by simp only [t, hstate, if_pos h]
    rw [ht, if_pos h]
    exact ⟨(Block.rd_wr_of_off_ne _ _ _ _ hoff.symm).trans hpause, Block.setQState_state b sl c hnew, rfl,
      hkept.wr st _ (List.mem_cons_of_mem _ List.mem_cons_self)⟩
  · have ht : t = { s with blk := b } := by simp only [t, hstate, if_neg h]
    rw [ht, if_neg h]
    exact ⟨hpause, hstate, rfl, hkept⟩

/-! ### Leaving ERROR (R84) -/

theorem Block.queueSkip_of_cmd {b : Block} {s c : Nat} {cmd : FCmd} (hst : b.qState s c = Q.ERROR) (hgo : (b.q s c).stopping = false)
    (hfail : (b.q s c).fail = some (.cmd cmd)) : b.queueSkip s c = b.leaveError s c := by
  simp [Block.queueSkip, hst, hgo, hfail]

/-- A failure without a command to repeat stays. -/
theorem Block.queueRetry_queueSkip_of_none {b : Block} {s c : Nat} (hfail : (b.q s c).fail = some .none) :
    b.queueRetry s c = b ∧ b.queueSkip s c = b := by
  simp [Block.queueRetry, Block.queueSkip, hfail]

/-- A queue that leaves ERROR goes on, with no failure, and nothing but itself has changed. -/
theorem Block.leaveError_spec {b : Block} {s c : Nat} (hgo : (b.q s c).stopping = false) :
    (b.leaveError s c).q s c = { b.q s c with fail := none } ∧ (b.leaveError s c).rd (Reg.SL_Q_STATUS.STATE s c) = b.onState s c ∧
      b.QueueFrame (b.leaveError s c) s c (Reg.SL_Q_STATUS.STATE s c :: Fld.qCounts s c) := by
  have hq : ((b.modQ s c fun q => { q with fail := none }).q s c).stopping = false := by rw [Block.q_modQ]; exact hgo
  refine ⟨?_, Block.goOn_state hq, ((Block.QueueFrame.refl b s c _).modQ _).trans (Block.goOn_frame _ s c)⟩
  rw [Block.leaveError_eq, Block.goOn_q hq, Block.q_modQ]

/-- RETRY of a failed command gives the queue that command once more. -/
theorem Block.queueRetry_spec {b : Block} {s c : Nat} {cmd : FCmd} (hst : b.qState s c = Q.ERROR) (hgo : (b.q s c).stopping = false)
    (hfail : (b.q s c).fail = some (.cmd cmd)) (hlist : (b.q s c).replay = []) :
    (b.queueRetry s c).q s c = { b.q s c with fetched := cmd :: (b.q s c).fetched, log := (b.q s c).log.erase cmd, fail := none } ∧
      (b.queueRetry s c).rd (Reg.SL_Q_STATUS.STATE s c) = b.onState s c ∧
      b.QueueFrame (b.queueRetry s c) s c (Reg.SL_Q_STATUS.STATE s c :: Fld.qCounts s c) := by
  have heq : b.queueRetry s c = (b.modQ s c fun q => { q with fetched := cmd :: q.fetched, log := q.log.erase cmd }).leaveError s c := by
    simp [Block.queueRetry, hst, hgo, hfail, Block.modQ, hlist]
  rw [heq]
  obtain ⟨hq, hstate, hframe⟩ := Block.leaveError_spec (b := b.modQ s c fun q => { q with fetched := cmd :: q.fetched, log := q.log.erase cmd })
    (by rw [Block.q_modQ]; exact hgo)
  exact ⟨by rw [hq, Block.q_modQ], hstate, ((Block.QueueFrame.refl b s c _).modQ _).trans hframe⟩

theorem Fld.qCounts_subset_queue (s c : Nat) :
    ∀ f ∈ Reg.SL_Q_STATUS.STATE s c :: Fld.qCounts s c, f ∈ Reg.SL_Q_STATUS.STATE s c :: Fld.queue s c := by
  simp [Fld.qCounts, Fld.queue]

/-- QUEUE_ENABLE of a queue whose ENABLE is clear. -/
theorem queueEnable_step (s : State) {sl c : Nat} (h : s.blk.is (Reg.SL_Q_CTRL.ENABLE sl c) = false) :
    let st := Reg.SL_Q_STATUS.STATE sl c
    let t := s.upd fun b => b.queueEnable sl c
    (t.blk.rd st = Q.ERROR → t.blk.rd (Reg.SL_Q_STATUS.ERR_STATUS sl c) =
        if s.blk.sliceDown sl then Code.FLT_PARTITION_DOWN else Code.HOIST_BAD_FIELD) ∧
      (s.blk.sliceDown sl = true → t.blk.rd st = Q.ERROR) ∧ (t.blk.rd st = Q.ERROR ∨ t.blk.rd st = s.blk.onState sl c) := by
  simp only [State.upd, Block.queueEnable_of_disabled h, Block.sliceDown_enabled]
  split
  next hstarts =>
    have hup : s.blk.sliceDown sl = false := by simp_all
    have hne : s.blk.onState sl c ≠ Q.ERROR := by rcases s.blk.onState_cases sl c with he | he <;> rw [he] <;> decide
    rw [Block.goOn_enabled_state]
    exact ⟨fun he => absurd he hne, fun hdown => absurd (hup.symm.trans hdown) Bool.false_ne_true, .inr rfl⟩
  next =>
    rw [Block.startFails_status, Block.sliceDown_enabled]
    exact ⟨fun _ => rfl, fun _ => Block.startFails_state _ sl c, .inl (Block.startFails_state _ sl c)⟩

/-- The state after a step of one queue, in the terms of the statements. -/
theorem Block.QueueFrame.state {s : State} {c : Block} {sl cl : Nat} {fs : List Fld} (h : s.blk.QueueFrame c sl cl fs) :
    let t : State := { s with blk := c }
    t = { s with blk := { s.blk with regs := t.blk.regs, queues := t.blk.queues } } ∧ s.blk.QueuesKept t.blk sl cl ∧
      s.blk.FieldsKept t.blk fs :=
  ⟨congrArg (fun b => { s with blk := b }) h.rest, h.queues, h.fields⟩

/-- Settles O13: each command of queue control writes its queue and its queue's fields alone, and the state it leaves is read off
the last write of STATE. -/
theorem queueStates : Obligations.QueueStates := by
  constructor
  · intro s slice cls st
    refine ⟨fun h => ?_, fun h => ⟨_, exec_queueEnable slice cls s, ?_⟩, fun h => ⟨_, exec_queueDisable slice cls s, ?_⟩,
      ⟨_, exec_queuePause slice cls s, queuePause_step s slice cls 1 Nat.one_lt_two (by decide)⟩,
      ⟨_, exec_queueResume slice cls s, queuePause_step s slice cls 0 Nat.two_pos (by decide)⟩⟩
    · rw [exec_queueEnable, execQueueEnable, State.upd, Block.queueEnable_of_enabled h]
    · obtain ⟨herr, hdown, hstate⟩ := queueEnable_step s h
      exact ⟨Block.queueEnable_enable h, herr, hdown, hstate, (Block.queueEnable_frame h).state⟩
    · exact ⟨Block.queueDisable_enable h, Block.queueDisable_of_idle h, Block.queueDisable_of_running h, (Block.queueDisable_frame h).state⟩
  · intro s slice cls st runs hst hgo
    refine ⟨fun cmd hfail hlist => ⟨⟨_, exec_queueRetry slice cls s, ?_⟩, ⟨_, exec_queueSkip slice cls s, ?_⟩⟩, fun hfail => ?_⟩
    · obtain ⟨hq, hstate, hframe⟩ := Block.queueRetry_spec hst hgo hfail hlist
      exact ⟨(congrArg QueueState.fetched hq :), congrArg QueueState.fail hq, hstate,
        (hframe.mono (Fld.qCounts_subset_queue slice cls)).state⟩
    · obtain ⟨hq, hstate, hframe⟩ := Block.leaveError_spec hgo
      rw [State.upd, Block.queueSkip_of_cmd hst hgo hfail]
      exact ⟨(congrArg QueueState.fetched hq :), congrArg QueueState.fail hq, hstate, (hframe.mono (Fld.qCounts_subset_queue slice cls)).state⟩
    · obtain ⟨hretry, hskip⟩ := Block.queueRetry_queueSkip_of_none hfail
      rw [exec_queueRetry, exec_queueSkip, execQueueRetry, execQueueSkip, State.upd, State.upd, hretry, hskip]
      exact ⟨rfl, rfl⟩

end Sys2Proof.Machine
end

section
/-! SUPPORT. States in which a statement about queues or sync objects fails: Denob's record of an adapter copy. -/

namespace Sys2Proof.Machine

/-! ### A command at the ring index of an adapter's copy (R252) -/

/-- Slice 0 serves Denob's partition 0; the XFER at ring index 3 of the slice's queue 0 still fills adapter slot 0. -/
def adapterCopying : DnState := { DnState.reset with parts := [(0, { DnPart.reset with slots := [(0, some ⟨0, 64, 0, some 3, none⟩)] })] }

/-- Beside that copy, slice 0 is open, may write all memory and names no queue at a mark; its queue 0 runs, in state `q`. -/
@[irreducible] def besideCopy (q : QueueState) : State := State.reset.upd fun b =>
  { ([(Reg.SL_STATUS.STATE 0, Slice.OPEN), (Reg.SL_Q_STATUS.STATE 0 0, Q.RUNNING), (Reg.SL_MARK_CFG.QMASK 0, 0),
      (Reg.SL_FW_WIN08.SIZE 0 0, 2 ^ 28 - 1), (Reg.SL_FW_WIN08.VALID 0 0, 1), (Reg.SL_FW_WIN08.W 0 0, 1)].foldl
        (fun b f => b.wr f.1 f.2) b).setQ 0 0 q with
    dn := adapterCopying }

/-- A command of opcode `op` and words W2 … of `ws`, with neither signal nor entry, at that ring index. -/
def atCopy (op : Nat) (ws : List Nat) : FCmd := ⟨op :: 0 :: ws, 3, 0, 0⟩

/-- The same, issued as command 8. -/
def issuedAtCopy (op : Nat) (ws : List Nat) : CmdRec := ⟨8, atCopy op ws, 0, 1, none, false, false⟩

def fenceBesideCopy : State := besideCopy { QueueState.reset with block := some (.fence 8 0), inflight := [issuedAtCopy 0x13 []] }

theorem fenceBesideCopy_meets :
    let b := fenceBesideCopy.blk
    b.ext.need = [] ∧ (b.q 0 0).block = some (.fence 8 0) ∧ (b.q 0 0).inflight = [issuedAtCopy 0x13 []] ∧
      (issuedAtCopy 0x13 []).cmd.sigAmt = 0 ∧ (issuedAtCopy 0x13 []).cmd.cpl = false ∧ (b.q 0 0).hostDirty = none ∧
      (b.q 0 0).stopping = false := by decide +kernel

/-- Refutes O17: a command of a queue of class 0 that completes, whatever its opcode, ends the adapter copy recorded at its ring
index (R252), so that FENCE_COMPLETE of queue 0 changes Denob's slots too. -/
theorem not_queueCompletes : ¬ Obligations.QueueCompletes := by
  intro h
  obtain ⟨hneed, hblock, hinflight, hsig, hcpl, hdirty, hgo⟩ := fenceBesideCopy_meets
  obtain ⟨hfence, -⟩ := h.1 fenceBesideCopy 0 0 hneed
  obtain ⟨-, -, hrest, -⟩ := (hfence (issuedAtCopy 0x13 []) 0 hblock hinflight rfl hsig hcpl hdirty hgo).of_next (exec_fenceComplete _ _ _)
  exact absurd (congrArg (fun t => t.blk.dn) hrest) (by decide +kernel)

def markBesideCopy : State := besideCopy { QueueState.reset with fetched := [atCopy 0x12 []] }

theorem markBesideCopy_meets :
    let b := markBesideCopy.blk
    let cmd := atCopy 0x12 []
    b.Ready 0 0 cmd 0x12 ∧ bits (cmd.w 3) 17 9 ≤ 256 ∧ bits (cmd.w 3) 0 17 + bits (cmd.w 3) 17 9 ≤ 131072 ∧ (b.q 0 0).block = none ∧
      (b.slice 0).reached = [] ∧ (b.rd (Reg.SL_MARK_CFG.QMASK 0)).testBit 0 = false := by
  unfold Block.Ready
  decide +kernel

/-- Refutes O14: a MARK of queue 0 that QMASK does not name completes at issue, which ends the adapter copy recorded at its ring
index (R252). -/
theorem not_controlCommands : ¬ Obligations.ControlCommands := by
  intro h
  obtain ⟨hready, hcount, hlast, hblock, hreached, hmask⟩ := markBesideCopy_meets
  obtain ⟨-, hmark, -⟩ := h markBesideCopy 0 0 _ rfl
  obtain ⟨hunnamed, -⟩ := (hmark _ hready hcount hlast hblock hreached).of_next (exec_mark _ _ _)
  obtain ⟨-, -, hrest, -⟩ := hunnamed hmask
  exact absurd (congrArg (fun t => t.blk.dn) hrest) (by decide +kernel)

/-- WAIT of queue 0, satisfied at home 0. -/
def waitBesideCopy : State :=
  (besideCopy { QueueState.reset with block := some (.wait 8), inflight := [issuedAtCopy 0x11 []] }).upd fun b =>
    b.setWaits 0 [⟨0, 0, .queue 0 8, 0, 0, false, true⟩]

theorem waitBesideCopy_meets :
    let b := waitBesideCopy.blk
    b.ext.need = [] ∧ b.waitsAt 0 = [⟨0, 0, .queue 0 8, 0, 0, false, true⟩] ∧ (b.q 0 0).inflight = [issuedAtCopy 0x11 []] ∧
      (issuedAtCopy 0x11 []).cmd.sigAmt = 0 ∧ (issuedAtCopy 0x11 []).cmd.cpl = false := by decide +kernel

/-- Refutes O15: the WAIT of queue 0 that WAIT_RELEASE completes ends the adapter copy recorded at its ring index (R252). -/
theorem not_syncObjects : ¬ Obligations.SyncObjects := by
  intro h
  obtain ⟨hneed, hwait, hinflight, hsig, hcpl⟩ := waitBesideCopy_meets
  obtain ⟨-, -, hrelease, -⟩ := h.2.2 waitBesideCopy
  obtain ⟨-, -, hrest, -⟩ := (hrelease 0 _ 0 8 _ hneed hwait rfl rfl hinflight rfl rfl hsig hcpl).of_next (exec_waitRelease _ _)
  exact absurd (congrArg (fun t => t.blk.dn) hrest) (by decide +kernel)

/-- SIGNAL of object 0 by 1. -/
def signalBesideCopy : State :=
  besideCopy { QueueState.reset with inflight := [issuedAtCopy 0x10 [Dla.syncBase, 1]] }

theorem signalBesideCopy_meets :
    let b := signalBesideCopy.blk
    let r := issuedAtCopy 0x10 [Dla.syncBase, 1]
    b.ext.need = [] ∧ (b.q 0 0).inflight = [r] ∧ r.cmd.opcode = 0x10 ∧ r.cmd.sigAmt = 0 ∧ r.cmd.cpl = false ∧
      Ptr.isSync (r.cmd.w 2) = true ∧ Ptr.check (r.cmd.w 2) = none ∧ bit (r.cmd.w 3) 32 = false ∧ 1 ≤ bits (r.cmd.w 3) 0 32 ∧
      b.syncVal (Ptr.obj (r.cmd.w 2)) + bits (r.cmd.w 3) 0 32 < 2 ^ 64 ∧
      b.checkReq (b.mkWho (.cmd (b.home 0 0)) (some 0) r.ensign) (Ptr.addr (r.cmd.w 2)) .w = (b, none) ∧
      b.cohWin (Ptr.addr (r.cmd.w 2)) = none ∧ NSet.has b.sync.lostHomes (Sync.homeOf (Ptr.obj (r.cmd.w 2))) = false ∧
      (b.q 0 0).stopping = false := by decide +kernel

/-- Refutes O16: a SIGNAL of queue 0 completes once it is performed, which ends the adapter copy recorded at its ring index
(R252). -/
theorem not_signalAndWait : ¬ Obligations.SignalAndWait := by
  intro h
  obtain ⟨hneed, hinflight, hop, hsig, hcpl, hsync, hcheck, hreset, hone, hfits, hreq, hwin, hhome, hgo⟩ := signalBesideCopy_meets
  obtain ⟨hsignal, -⟩ := h signalBesideCopy 0 0 hneed
  obtain ⟨-, -, -, -, -, hrest⟩ := (hsignal _ hinflight hop rfl hsig hcpl hsync hcheck hreset hone hfits hreq hwin hhome hgo).of_next
    (exec_signal _ _ _)
  exact absurd (congrArg (fun t => t.blk.dn) hrest) (by decide +kernel)

end Sys2Proof.Machine
end

section
/-! SUPPORT. The record of one slot of a transfer engine (R86–R110), and the steps of a slot that wait for nothing. -/

namespace Sys2Proof.Machine

/-! ### Engines and their slots -/

theorem Block.posState_setPos_same (b : Block) (p : Nat) (v : PosState) : (b.setPos p v).posState p = v :=
  SMap.get_put_same _ _ _ _

theorem Block.posState_setPos_of_ne (b : Block) {p p' : Nat} (v : PosState) (h : p' ≠ p) :
    (b.setPos p v).posState p' = b.posState p' :=
  SMap.get_put_of_ne _ _ _ h

theorem Block.posState_of_pos_eq {b c : Block} (h : c.pos = b.pos) (p : Nat) : c.posState p = b.posState p := by
  rw [Block.posState, h, Block.posState]

theorem Block.xslot_of_pos_eq {b c : Block} (h : c.pos = b.pos) (p n : Nat) : c.xslot p n = b.xslot p n := by
  rw [Block.xslot, Block.posState_of_pos_eq h, Block.xslot]

theorem Block.setXslot_pos_of_pos_eq {b c : Block} (h : c.pos = b.pos) (p n : Nat) (v : Option XSlot) :
    (c.setXslot p n v).pos = (b.setXslot p n v).pos := by
  simp only [Block.setXslot, Block.modPos, Block.setPos, Block.posState, h]

theorem Block.xslot_setXslot_same (b : Block) (p n : Nat) (v : Option XSlot) : (b.setXslot p n v).xslot p n = v := by
  simp [Block.xslot, Block.setXslot, Block.modPos, Block.posState_setPos_same]

theorem Block.held_setXslot (b : Block) (p n : Nat) (v : Option XSlot) :
    ((b.setXslot p n v).posState p).held = (b.posState p).held := by
  simp [Block.setXslot, Block.modPos, Block.posState_setPos_same]

theorem Block.posState_setXslot_of_ne (b : Block) {p p' : Nat} (n : Nat) (v : Option XSlot) (h : p' ≠ p) :
    (b.setXslot p n v).posState p' = b.posState p' := Block.posState_setPos_of_ne b _ h

theorem Block.queue_setQueue_same (b : Block) (q : Nat) (v : QueueState) : (b.setQueue q v).queue q = v :=
  SMap.get_put_same _ _ _ _

/-! ### Frames -/

/-- `c` differs from `b` in the fields `fs`. -/
structure Block.FieldFrame (b c : Block) (fs : List Fld) : Prop where
  rest : c = { b with regs := c.regs }
  fields : b.FieldsKept c fs

theorem Block.FieldFrame.refl (b : Block) (fs : List Fld) : b.FieldFrame b fs := ⟨rfl, .refl b fs⟩

theorem Block.FieldFrame.wr {b c : Block} {fs : List Fld} (h : b.FieldFrame c fs) (f : Fld) (n : Nat) (hf : f ∈ fs) :
    b.FieldFrame (c.wr f n) fs where
  rest := by rw [h.rest]; rfl
  fields := h.fields.wr f n hf

/-- `c` differs from `b` in what it records of accesses outside. -/
def Block.ButExt (b c : Block) : Prop := c = { b with ext := c.ext }

section
variable {b c : Block} (h : b.ButExt c)
include h

theorem Block.ButExt.regs : c.regs = b.regs := by rw [h]
theorem Block.ButExt.pos : c.pos = b.pos := by rw [h]
theorem Block.ButExt.rd (f : Fld) : c.rd f = b.rd f := by rw [h]; rfl
theorem Block.ButExt.queue (k : Nat) : c.queue k = b.queue k := by rw [h]; rfl
theorem Block.ButExt.posState (p : Nat) : c.posState p = b.posState p := Block.posState_of_pos_eq h.pos p
theorem Block.ButExt.xslot (p n : Nat) : c.xslot p n = b.xslot p n := Block.xslot_of_pos_eq h.pos p n

end

/-! ### Steps that wait for nothing (assumption 5) -/

/-- A slot's step that meets nothing missing stands, but for what it records of its accesses outside. -/
theorem Block.xferSettle_of_done {b r : Block} {pos n k : Nat} {v : XSlot} {f : Block → Block} (hfault : v.fault = none)
    (hf : f (b.onLane (Xfr.lane pos n)) = r) (hneed : r.ext.need = []) : r.ButExt (b.xferSettle pos n v k f) := by
  subst hf
  have hw : (b.inLane (Xfr.lane pos n) f).waiting = false := by simp [Block.waiting, Block.inLane, hneed]
  simp only [Block.xferSettle, hw, hfault, Option.any_none, Bool.false_and, Bool.false_eq_true, if_false]
  rfl

/-- A step on a slot's lane that meets nothing missing stands, but for what it records of its accesses outside. -/
theorem Block.settle_inLane_of_done {b r : Block} {lane : Nat} {f : Block → Block} (hf : f (b.onLane lane) = r)
    (hneed : r.ext.need = []) : r.ButExt (b.settle fun b => b.inLane lane f) := by
  subst hf
  obtain ⟨e, he⟩ := b.settle_of_done (fun b => b.inLane lane f) hneed
  rw [he]
  rfl

/-- What holds after a step that meets nothing missing and makes `r`. -/
theorem yields_of_settle {c : Instr} {s : State} {r : Block} {p : State → Prop}
    (hc : ∃ f, exec c s = .next (s.upd fun b => b.settle f) ∧ f s.blk = r) (hneed : r.ext.need = [])
    (hp : ∀ b, r.ButExt b → p { s with blk := b }) : Yields c s p := by
  obtain ⟨f, hc, rfl⟩ := hc
  exact yields_settle hc hneed fun e => hp _ rfl

/-- What holds after a slot's step that meets nothing missing and makes `r`. -/
theorem yields_of_xferSettle {c : Instr} {s : State} {pos n k : Nat} {v : XSlot} {r : Block} {p : State → Prop}
    (hc : ∃ f, exec c s = .next { s with blk := s.blk.xferSettle pos n v k f } ∧ f (s.blk.onLane (Xfr.lane pos n)) = r)
    (hfault : v.fault = none) (hneed : r.ext.need = []) (hp : ∀ b, r.ButExt b → p { s with blk := b }) : Yields c s p := by
  obtain ⟨f, hc, hf⟩ := hc
  exact ⟨_, hc, hp _ (Block.xferSettle_of_done hfault hf hneed)⟩

/-! ### A slot's record and the registers that show it -/

/-- The fields that show a slot which waits for no page. -/
def Fld.xferSlot (p n : Nat) : List Fld :=
  [Reg.XF_STATUS.ACTIVE p, Reg.XF_STATUS.FAULT_WAIT p, Reg.XF_SLOT_STATE.SLICE p n, Reg.XF_SLOT_STATE.STATE p n,
    Reg.XF_SLOT_STATE.DELIVERED p n]

/-- The block as a slot's record has been put, before the registers show it: translation forgets a transfer that ends. -/
def Block.slotPut (b : Block) (p n : Nat) (v : XSlot) : Block :=
  (if v.phase = .ending then b.xlatForget fun q => decide (q.lane = Xfr.lane p n) else b).setXslot p n (some v)

theorem Block.slotPut_pos (b : Block) (p n : Nat) (v : XSlot) : (b.slotPut p n v).pos = (b.setXslot p n (some v)).pos := by
  unfold Block.slotPut
  split <;> rfl

theorem Block.slotPut_regs (b : Block) (p n : Nat) (v : XSlot) : (b.slotPut p n v).regs = b.regs := by
  unfold Block.slotPut
  split <;> rfl

section
variable (b : Block) (p n : Nat) {v : XSlot} (h : v.fault = none)
include h

theorem Block.putSlot_eq : b.putSlot p n (some v) =
    let c := b.slotPut p n v
    ((((c.wr (Reg.XF_STATUS.ACTIVE p) (setBits (c.rd (Reg.XF_STATUS.ACTIVE p)) n 1 1)).wr
      (Reg.XF_STATUS.FAULT_WAIT p) (setBits (c.rd (Reg.XF_STATUS.FAULT_WAIT p)) n 1 0)).wr (Reg.XF_SLOT_STATE.SLICE p n)
      v.job.slice).wr (Reg.XF_SLOT_STATE.STATE p n) v.stateCode).wr (Reg.XF_SLOT_STATE.DELIVERED p n) v.next := by
  simp [Block.putSlot, Block.slotPut, h]

theorem Block.putSlot_frame : (b.slotPut p n v).FieldFrame (b.putSlot p n (some v)) (Fld.xferSlot p n) := by
  have hin : ∀ f ∈ Fld.xferSlot p n, f ∈ Fld.xferSlot p n := fun _ => id
  simp only [Fld.xferSlot, List.forall_mem_cons] at hin
  obtain ⟨hact, hfw, hslice, hstate, hdel, -⟩ := hin
  rw [Block.putSlot_eq b p n h]
  exact (((((Block.FieldFrame.refl _ _).wr _ _ hact).wr _ _ hfw).wr _ _ hslice).wr _ _ hstate).wr _ _ hdel

theorem Block.putSlot_fieldsKept : b.FieldsKept (b.putSlot p n (some v)) (Fld.xferSlot p n) :=
  ((Block.FieldsKept.refl b _).of_regs (b.slotPut_regs p n v)).trans (b.putSlot_frame p n h).fields

/-- DELIVERED shows the delivered-count. -/
theorem Block.rd_putSlot_delivered : (b.putSlot p n (some v)).rd (Reg.XF_SLOT_STATE.DELIVERED p n) = v.next % 2 ^ 40 := by
  rw [Block.putSlot_eq b p n h]
  exact Block.rd_wr_same _ _ _ (show 16 + 40 ≤ 64 by decide)

theorem Block.putSlot_pos : (b.putSlot p n (some v)).pos = (b.setXslot p n (some v)).pos := by
  rw [(b.putSlot_frame p n h).rest, Block.slotPut_pos]

theorem Block.xslot_putSlot_same : (b.putSlot p n (some v)).xslot p n = some v := by
  rw [Block.xslot_of_pos_eq (b.putSlot_pos p n h), Block.xslot_setXslot_same]

theorem Block.putSlot_ext : (b.putSlot p n (some v)).ext = b.ext := by
  rw [(b.putSlot_frame p n h).rest, Block.slotPut]
  split <;> rfl

theorem Block.putSlot_need (hneed : b.ext.need = []) : (b.putSlot p n (some v)).ext.need = [] := by
  rw [Block.putSlot_ext b p n h, hneed]

theorem Block.queue_putSlot (k : Nat) : (b.putSlot p n (some v)).queue k = b.queue k := by
  rw [(b.putSlot_frame p n h).rest, Block.slotPut]
  split <;> rfl

/-- Its slots and registers alone show a transfer that goes on. -/
theorem Block.putSlot_rest_of_goes_on (hphase : v.phase ≠ .ending) : b.putSlot p n (some v) =
    { b with regs := (b.putSlot p n (some v)).regs, pos := (b.putSlot p n (some v)).pos } := by
  have hrest := (b.putSlot_frame p n h).rest
  rw [Block.slotPut, if_neg hphase] at hrest
  rw [hrest]
  rfl

/-- Translation forgets a transfer that ends. -/
theorem Block.putSlot_rest_of_ending (hphase : v.phase = .ending) : b.putSlot p n (some v) =
    { b.xlatForget fun q => decide (q.lane = Xfr.lane p n) with
      regs := (b.putSlot p n (some v)).regs, pos := (b.putSlot p n (some v)).pos } := by
  have hrest := (b.putSlot_frame p n h).rest
  rw [Block.slotPut, if_pos hphase] at hrest
  rw [hrest]
  rfl

end

/-- What a step shows that puts the record of a transfer that goes on. -/
theorem Block.ButExt.of_putSlot {b t : Block} {p n : Nat} {v : XSlot} (h : (b.putSlot p n (some v)).ButExt t) (hfault : v.fault = none)
    (hphase : v.phase ≠ .ending) :
    t.xslot p n = some v ∧ b.FieldsKept t (Fld.xferSlot p n) ∧ t = { b with regs := t.regs, pos := t.pos, ext := t.ext } :=
  ⟨(h.xslot p n).trans (b.xslot_putSlot_same p n hfault), (b.putSlot_fieldsKept p n hfault).of_regs h.regs,
    by rw [h, Block.putSlot_rest_of_goes_on b p n hfault hphase]⟩

/-! ### The end of a transfer (R110) -/

theorem Block.reportCmd_ext (b : Block) (q id : Nat) (st : Status) (cnt : Nat) : (b.reportCmd q id st cnt).ext = b.ext := rfl
theorem Block.reportCmd_regs (b : Block) (q id : Nat) (st : Status) (cnt : Nat) : (b.reportCmd q id st cnt).regs = b.regs := rfl
theorem Block.reportCmd_pos (b : Block) (q id : Nat) (st : Status) (cnt : Nat) : (b.reportCmd q id st cnt).pos = b.pos := rfl

theorem Block.inflight_reportCmd (b : Block) (q id : Nat) (st : Status) (cnt : Nat) : ((b.reportCmd q id st cnt).queue q).inflight =
    (b.queue q).inflight.map fun r => if r.id = id ∧ r.result.isNone then { r with result := some (st, cnt) } else r := by
  rw [Block.reportCmd, Block.queue_setQueue_same]

/-- A slot's record with its end to be reported. -/
def XSlot.ended (v : XSlot) : XSlot := { v with phase := .ending, fault := none }

/-- The block as a slot's transfer has ended: its command has its result. -/
def Block.slotEnded (b : Block) (p n : Nat) (v : XSlot) (st : Status) (cnt : Nat) : Block :=
  (b.putSlot p n (some v.ended)).reportCmd v.job.queue v.job.id st cnt

section
variable {b : Block} {p n cnt : Nat} {v : XSlot} {st : Status}

theorem Block.slotEnded_ext : (b.slotEnded p n v st cnt).ext = b.ext := by
  rw [Block.slotEnded, Block.reportCmd_ext, b.putSlot_ext p n rfl]

theorem Block.slotEnded_rest : b.slotEnded p n v st cnt =
    { b.xlatForget fun q => decide (q.lane = Xfr.lane p n) with
      regs := (b.slotEnded p n v st cnt).regs, pos := (b.slotEnded p n v st cnt).pos
      queues := (b.slotEnded p n v st cnt).queues } := by
  have hput := b.putSlot_rest_of_ending p n (v := v.ended) rfl rfl
  unfold Block.slotEnded
  generalize b.putSlot p n (some v.ended) = c at hput ⊢
  rw [hput]
  rfl

/-- What a step shows that ends a slot's transfer. -/
theorem Block.ButExt.of_slotEnded {t : Block} (h : (b.slotEnded p n v st cnt).ButExt t) :
    t.xslot p n = some v.ended ∧ b.FieldsKept t (Fld.xferSlot p n) ∧
      (t.queue v.job.queue).inflight = (b.queue v.job.queue).inflight.map (fun r =>
        if r.id = v.job.id ∧ r.result.isNone then { r with result := some (st, cnt) } else r) ∧
      t = { b.xlatForget (fun q => decide (q.lane = Xfr.lane p n)) with
        regs := t.regs, pos := t.pos, queues := t.queues, ext := t.ext } := by
  have hfault : v.ended.fault = none := rfl
  have hregs : t.regs = (b.putSlot p n (some v.ended)).regs := h.regs.trans (Block.reportCmd_regs _ _ _ _ _)
  have hpos : t.pos = (b.putSlot p n (some v.ended)).pos := h.pos.trans (Block.reportCmd_pos _ _ _ _ _)
  refine ⟨?_, (b.putSlot_fieldsKept p n hfault).of_regs hregs, ?_, ?_⟩
  · rw [Block.xslot_of_pos_eq hpos, b.xslot_putSlot_same p n hfault]
  · rw [h.queue, Block.slotEnded, Block.inflight_reportCmd, Block.queue_putSlot _ _ _ hfault]
  · rw [h, Block.slotEnded_rest]

end

end Sys2Proof.Machine
end

section
/-! SUPPORT. Issue of a queue's next command (R60), and of an XFER into a slot (R86). -/

namespace Sys2Proof.Machine

/-! ### Issue (R60) -/

/-- The queue as its next command is issued, `r` its record. -/
def QueueState.issue (q : QueueState) (r : CmdRec) (now : Nat) (logged : Bool) : QueueState :=
  { q.pop with
    inflight := q.inflight ++ [r], nextId := r.id + 1, lastIssue := now, log := if logged then q.log ++ [r.cmd] else q.log }

/-- ENSIGN_CLAMP shows an override that is refused (R62). -/
def Block.clamped (b : Block) (s c : Nat) (cmd : FCmd) : Block :=
  if (b.effEnsign s c cmd).2 then b.wr (Reg.SL_Q_STATUS.ENSIGN_CLAMP s c) 1 else b

/-- The block as a queue's next command is issued, before the command's own row goes on. -/
def Block.takeFront (b : Block) (s c : Nat) (cmd : FCmd) : Block :=
  let b' := b.clamped s c cmd
  (b'.modQ s c fun q => q.issue ⟨(b.q s c).nextId, cmd, b'.epoch s, (b.effEnsign s c cmd).1, none, false, false⟩ b'.now
    ((b'.rd (Reg.SL_MARK_CFG.QMASK s)).testBit c)).qStatus s c

/-- The stack comes back once the last command to be replayed is issued (R337). -/
def Block.endReplay (b : Block) (s c : Nat) : Block :=
  if (b.q s c).resume.isSome && (b.q s c).replay.isEmpty then (b.modQ s c QueueState.replayed).qStatus s c else b

/-- A next command that may be issued and passes its checks is issued, and its row goes on. -/
theorem Block.issueNext_of_passes {b : Block} {s c : Nat} {cmd : FCmd} {is' : Nat → Bool} {chk : Block → FCmd → CmdCheck}
    {run : Block → FCmd → Nat → Block} (hfront : (b.q s c).front = some cmd) (hop : is' cmd.opcode = true)
    (hmay : b.mayIssue s c cmd = true) (hcheck : Hoist.check c cmd (chk b cmd) = none) :
    b.issueNext s c is' chk run = (run (b.takeFront s c cmd) cmd (b.q s c).nextId).endReplay s c := by
  unfold Block.issueNext
  simp only [hfront, hop, hmay, hcheck, Bool.not_true, Bool.false_eq_true, or_self, if_false]
  rfl

/-- The fields that issue and the end of a replay may write. -/
def Fld.qIssue (s c : Nat) : List Fld := Reg.SL_Q_STATUS.ENSIGN_CLAMP s c :: Reg.SL_Q_STATUS.STATE s c :: Fld.qCounts s c

theorem Block.qStatus_frame_issue (b : Block) (s c : Nat) : b.QueueFrame (b.qStatus s c) s c (Fld.qIssue s c) :=
  (b.qStatus_frame s c).mono fun _ h => List.mem_cons_of_mem _ h

theorem Block.q_qStatus_of_stays {b : Block} {s c : Nat} (h : ¬(b.q s c).Ended) : (b.qStatus s c).q s c = b.q s c := by
  rw [Block.qStatus_of_stays h, Block.q_wr, Block.q_wr]

theorem QueueState.inflight_replayed (q : QueueState) : q.replayed.inflight = q.inflight := by
  unfold QueueState.replayed
  split <;> rfl

section
variable (b : Block) (s c : Nat) (cmd : FCmd)

theorem Block.takeFront_frame : b.QueueFrame (b.takeFront s c cmd) s c (Fld.qIssue s c) := by
  refine .trans (.modQ ?_ _) (Block.qStatus_frame_issue _ s c)
  unfold Block.clamped
  split
  · exact (Block.QueueFrame.refl b s c _).wr _ _ List.mem_cons_self
  · exact .refl b s c _

theorem Block.takeFront_pos : (b.takeFront s c cmd).pos = b.pos := by rw [(b.takeFront_frame s c cmd).rest]

theorem Block.takeFront_inflight : ∃ r, r.cmd = cmd ∧ ((b.takeFront s c cmd).q s c).inflight = (b.q s c).inflight ++ [r] := by
  have hclamp : (b.clamped s c cmd).q s c = b.q s c := by
    unfold Block.clamped
    split <;> rfl
  unfold Block.takeFront
  rw [Block.q_qStatus_of_stays (by simp [QueueState.issue]), Block.q_modQ, hclamp]
  exact ⟨_, rfl, rfl⟩

theorem Block.endReplay_frame : b.QueueFrame (b.endReplay s c) s c (Fld.qIssue s c) := by
  unfold Block.endReplay
  split
  · exact ((Block.QueueFrame.refl b s c _).modQ _).trans (Block.qStatus_frame_issue _ s c)
  · exact .refl b s c _

theorem Block.endReplay_pos : (b.endReplay s c).pos = b.pos := by rw [(b.endReplay_frame s c).rest]

/-- The end of a replay keeps the commands that run. -/
theorem Block.endReplay_inflight (h : (b.q s c).inflight ≠ []) : ((b.endReplay s c).q s c).inflight = (b.q s c).inflight := by
  unfold Block.endReplay
  split
  · rw [Block.q_qStatus_of_stays (by simp [QueueState.inflight_replayed, h]), Block.q_modQ, QueueState.inflight_replayed]
  · rfl

end

/-! ### Issue into a slot (R86) -/

/-- `c` differs from `b` in registers, queues and engines alone. -/
def Block.EngineStep (b c : Block) : Prop := c = { b with regs := c.regs, queues := c.queues, pos := c.pos }

theorem Block.EngineStep.trans {b c d : Block} (h : b.EngineStep c) (k : c.EngineStep d) : b.EngineStep d := by
  rw [Block.EngineStep, k, h]

theorem Block.EngineStep.ext {b c : Block} (h : b.EngineStep c) : c.ext = b.ext := by rw [h]

theorem Block.EngineStep.rest_of_butExt {b c d : Block} (h : b.EngineStep c) (k : c.ButExt d) :
    d = { b with regs := d.regs, queues := d.queues, pos := d.pos, ext := d.ext } := by
  rw [k, h]

theorem Block.QueueFrame.engineStep {b c : Block} {s cl : Nat} {fs : List Fld} (h : b.QueueFrame c s cl fs) : b.EngineStep c := by
  rw [Block.EngineStep, h.rest]

/-- The slot's record of a queue's next command, taken as an XFER. -/
def Block.xferTaken (b : Block) (s c : Nat) (cmd : FCmd) : XSlot :=
  ⟨(b.takeFront s c cmd).mkJob s c cmd (b.q s c).nextId, .desc, (b.takeFront s c cmd).rd (Reg.XF_CFG.WINDOW cmd.pos), [], 0, [],
    [], [], [], [], [], none, none⟩

/-- The block as the next XFER of a queue is issued into slot `n` of its engine. -/
def Block.xferIssued (b : Block) (s c n : Nat) (cmd : FCmd) : Block :=
  ((b.takeFront s c cmd).putSlot cmd.pos n (some (b.xferTaken s c cmd))).endReplay s c

theorem Block.xferStart_takeFront (b : Block) (s c n : Nat) (cmd : FCmd) :
    ((b.takeFront s c cmd).xferStart s c n cmd (b.q s c).nextId).endReplay s c = b.xferIssued s c n cmd := rfl

section
variable (b : Block) (s c n : Nat) (cmd : FCmd)

theorem Block.xferTaken_fault : (b.xferTaken s c cmd).fault = none := rfl

theorem Block.xferTaken_phase : (b.xferTaken s c cmd).phase = .desc := rfl

theorem Block.xferIssued_pos : (b.xferIssued s c n cmd).pos = (b.setXslot cmd.pos n (some (b.xferTaken s c cmd))).pos := by
  rw [Block.xferIssued, Block.endReplay_pos, Block.putSlot_pos _ _ _ (b.xferTaken_fault s c cmd),
    Block.setXslot_pos_of_pos_eq (b.takeFront_pos s c cmd)]

theorem Block.xslot_xferIssued : (b.xferIssued s c n cmd).xslot cmd.pos n = some (b.xferTaken s c cmd) := by
  rw [Block.xslot_of_pos_eq (b.xferIssued_pos s c n cmd), Block.xslot_setXslot_same]

theorem Block.xferIssued_engineStep : b.EngineStep (b.xferIssued s c n cmd) := by
  have htake := (b.takeFront_frame s c cmd).engineStep
  have hput := (b.takeFront s c cmd).putSlot_rest_of_goes_on cmd.pos n (b.xferTaken_fault s c cmd)
    (by rw [Block.xferTaken_phase]; exact XPhase.noConfusion)
  have hstart : (b.takeFront s c cmd).EngineStep ((b.takeFront s c cmd).putSlot cmd.pos n (some (b.xferTaken s c cmd))) := by
    rw [Block.EngineStep, hput]
  exact (htake.trans hstart).trans (Block.endReplay_frame _ s c).engineStep

theorem Block.xferIssued_queuesKept : b.QueuesKept (b.xferIssued s c n cmd) s c := fun k hk => by
  rw [Block.xferIssued, (Block.endReplay_frame _ s c).queues k hk, Block.queue_putSlot _ _ _ (b.xferTaken_fault s c cmd),
    (b.takeFront_frame s c cmd).queues k hk]

theorem Block.xferIssued_inflight : ∃ r, r.cmd = cmd ∧ ((b.xferIssued s c n cmd).q s c).inflight = (b.q s c).inflight ++ [r] := by
  obtain ⟨r, hr, hq⟩ := b.takeFront_inflight s c cmd
  have hput : ((b.takeFront s c cmd).putSlot cmd.pos n (some (b.xferTaken s c cmd))).q s c = (b.takeFront s c cmd).q s c :=
    Block.queue_putSlot _ _ _ (b.xferTaken_fault s c cmd) _
  exact ⟨r, hr, by rw [Block.xferIssued, Block.endReplay_inflight _ _ _ (by simp [hput, hq]), hput, hq]⟩

/-- Whether an engine has a slot free does not turn on the queues. -/
theorem Block.xferFree_takeFront {p : Nat} (hp : p < 32) : (b.takeFront s c cmd).xferFree p = b.xferFree p := by
  have hbelow : (Reg.XF_CFG.MAX_SLOTS p).off < 0xd000000 :=
    calc 0x2010000 + 0x100000 * p ≤ 0x2010000 + 0x100000 * 31 := Nat.add_le_add_left (Nat.mul_le_mul_left _ (Nat.le_of_lt_succ hp)) _
      _ < 0xd000000 := by decide
  have habove : ∀ f ∈ Fld.qIssue s c, 0xd000000 ≤ f.off := by
    simp only [Fld.qIssue, Fld.qCounts, Reg.SL_Q_STATUS.ENSIGN_CLAMP, Reg.SL_Q_STATUS.STATE, Reg.SL_Q_STATUS.INFLIGHT,
      Reg.SL_Q_STATUS.DEPTH, List.mem_cons, List.not_mem_nil, or_false, forall_eq_or_imp, forall_eq, and_self]
    omega
  have hrd : (b.takeFront s c cmd).rd (Reg.XF_CFG.MAX_SLOTS p) = b.rd (Reg.XF_CFG.MAX_SLOTS p) :=
    (b.takeFront_frame s c cmd).fields _ (show 0 + 4 ≤ 64 by decide) fun f hf => .inl (hbelow.trans_le (habove f hf)).ne
  simp only [Block.xferFree, Block.xferBusy, hrd, Block.xslot_of_pos_eq (b.takeFront_pos s c cmd)]
  rfl

end

end Sys2Proof.Machine
end

section
/-! SUPPORT. XFER and XFER_SLOT_START (R86). -/

namespace Sys2Proof.Machine

theorem FCmd.pos_lt (cmd : FCmd) : cmd.pos < 32 := bits_lt _ _ _

/-! ### XFER -/

section
variable {s : State} {slice : SliceNo} {cls : ClassNo} {cmd : FCmd} (hready : s.blk.Ready slice cls cmd 0x01)
  (hcheck : Hoist.check cls cmd (s.blk.xferCheck slice cmd) = none)
  (hheld : (s.blk.posState cmd.pos).held.contains (4 * slice.val + cls.val) = false)
include hready hcheck hheld

theorem exec_xfer_of_free {n : Nat} (hfree : s.blk.xferFree cmd.pos = some n) (hquota : s.blk.xferQuota cmd.pos slice = true)
    (hnext : s.blk.xferHeldNext cmd.pos = none) :
    ∃ f, exec (.xfer slice cls) s = .next (s.upd fun b => b.settle f) ∧ f s.blk = s.blk.xferIssued slice cls n cmd := by
  obtain ⟨hfront, hop, -, -, hmay, -, -, -⟩ := hready
  refine ⟨_, exec_xfer slice cls s, ?_⟩
  simp only [hfront, hop, hmay, hcheck, hheld, hfree, hquota, hnext, ne_eq, not_true_eq_false, Bool.not_true,
    Bool.false_eq_true, or_self, if_false, Option.isSome_none, Option.isSome_some, Option.isNone_none, Bool.and_self, if_true]
  rw [Block.issueNext_of_passes hfront (by simp [hop]) hmay hcheck]
  simp only [Block.xferFree_takeFront _ _ _ _ cmd.pos_lt, hfree]
  exact Block.xferStart_takeFront _ _ _ _ _

theorem exec_xfer_of_full (hfree : s.blk.xferFree cmd.pos = none) :
    ∃ f, exec (.xfer slice cls) s = .next (s.upd fun b => b.settle f) ∧ f s.blk =
      s.blk.modPos cmd.pos fun p => { p with held := p.held ++ [4 * slice.val + cls.val] } := by
  obtain ⟨hfront, hop, -, -, hmay, -, -, -⟩ := hready
  refine ⟨_, exec_xfer slice cls s, ?_⟩
  simp only [hfront, hop, hmay, hcheck, hheld, hfree, ne_eq, not_true_eq_false, Bool.not_true, Bool.false_eq_true,
    or_self, if_false, Option.isSome_none, Bool.false_and]

/-- A checked XFER takes a free slot. -/
theorem xfer_takes_slot {n : Nat} (hfree : s.blk.xferFree cmd.pos = some n) (hquota : s.blk.xferQuota cmd.pos slice = true)
    (hnext : s.blk.xferHeldNext cmd.pos = none) : Yields (.xfer slice cls) s fun t =>
      ((t.blk.xslot cmd.pos n).map fun v => (v.job.slice, v.job.id, v.job.words, v.next)) =
        some (slice.val, (s.blk.q slice cls).nextId, cmd.words, 0) ∧
      ((t.blk.xslot cmd.pos n).map fun v => v.phase) = some .desc ∧
      ((t.blk.q slice cls).inflight.map fun r => r.cmd) = [cmd] ∧ s.blk.QueuesKept t.blk slice cls ∧
      (∀ p, p ≠ cmd.pos → t.blk.posState p = s.blk.posState p) ∧
      t = { s with blk := { s.blk with regs := t.blk.regs, queues := t.blk.queues, pos := t.blk.pos, ext := t.blk.ext } } := by
  have hstep := s.blk.xferIssued_engineStep slice cls n cmd
  have hpos := s.blk.xferIssued_pos slice cls n cmd
  have hc := exec_xfer_of_free hready hcheck hheld hfree hquota hnext
  obtain ⟨-, -, -, -, -, hidle, -, hneed⟩ := hready
  obtain ⟨r, hr, hq⟩ := s.blk.xferIssued_inflight slice cls n cmd
  refine yields_of_settle hc (by rw [hstep.ext]; exact hneed) fun t ht => ?_
  have hslot := (ht.xslot cmd.pos n).trans (s.blk.xslot_xferIssued slice cls n cmd)
  refine ⟨by rw [hslot]; rfl, by rw [hslot]; rfl, ?_, fun k hk => ?_, fun p hp => ?_, ?_⟩
  · simp only [Block.q, ht.queue] at hq hidle ⊢
    rw [hq, hidle, List.nil_append, List.map_singleton, hr]
  · exact (ht.queue k).trans (s.blk.xferIssued_queuesKept slice cls n cmd k hk)
  · exact (Block.posState_of_pos_eq (ht.pos.trans hpos) p).trans (Block.posState_setXslot_of_ne _ _ _ hp)
  · exact congrArg (fun b : Block => { s with blk := b }) (hstep.rest_of_butExt ht)

/-- A checked XFER is held at issue while no slot is free. -/
theorem xfer_held_of_full (hfree : s.blk.xferFree cmd.pos = none) : Yields (.xfer slice cls) s fun t =>
    t.blk.posState cmd.pos = { s.blk.posState cmd.pos with held := (s.blk.posState cmd.pos).held ++ [4 * slice.val + cls.val] } ∧
    (∀ p, p ≠ cmd.pos → t.blk.posState p = s.blk.posState p) ∧
    t = { s with blk := { s.blk with pos := t.blk.pos, ext := t.blk.ext } } := by
  have hc := exec_xfer_of_full hready hcheck hheld hfree
  obtain ⟨-, -, -, -, -, -, -, hneed⟩ := hready
  refine yields_of_settle hc hneed fun t ht => ⟨?_, fun p hp => ?_, ?_⟩
  · exact (ht.posState _).trans (Block.posState_setPos_same _ _ _)
  · exact (ht.posState p).trans (Block.posState_setPos_of_ne _ _ hp)
  · rw [ht]
    rfl

end

/-! ### XFER_SLOT_START -/

/-- A held XFER that is next may be issued and passes its checks. -/
theorem Block.front_of_xferHeldNext {b : Block} {pos q : Nat} (h : b.xferHeldNext pos = some q) :
    ∃ cmd, (b.q (q / 4) (q % 4)).front = some cmd ∧ cmd.opcode = 0x01 ∧ cmd.pos = pos ∧ b.mayIssue (q / 4) (q % 4) cmd = true ∧
      Hoist.check (q % 4) cmd (b.xferCheck (q / 4) cmd) = none := by
  have hnext := List.find?_some h
  obtain ⟨hnext, -⟩ := Bool.and_eq_true_iff.mp hnext
  unfold Block.xferNext at hnext
  split at hnext
  next cmd hfront =>
    split at hnext
    next hgo =>
      obtain ⟨hop, hpos, hmay, hcheck⟩ := hgo
      exact ⟨cmd, hfront, hop, hpos, hmay, Option.isNone_iff_eq_none.mp hcheck⟩
    next => cases hnext
  next => cases hnext

/-- The engine with an XFER no longer held at issue. -/
def Block.unheld (b : Block) (pos q : Nat) : Block := b.modPos pos fun p => { p with held := p.held.erase q }

theorem Block.held_unheld (b : Block) (pos q : Nat) : ((b.unheld pos q).posState pos).held = (b.posState pos).held.erase q := by
  rw [Block.unheld, Block.modPos, Block.posState_setPos_same]

theorem Block.unheld_engineStep (b : Block) (pos q : Nat) : b.EngineStep (b.unheld pos q) := rfl

section
variable {s : State} {pos : PosNo}

theorem exec_xferSlotStart_of_held {n q : Nat} (hfree : s.blk.xferFree pos = some n) (hnext : s.blk.xferHeldNext pos = some q) :
    ∃ cmd, cmd.pos = pos.val ∧ ∃ f, exec (.xferSlotStart pos) s = .next (s.upd fun b => b.settle f) ∧
      f s.blk = (s.blk.unheld pos q).xferIssued (q / 4) (q % 4) n cmd := by
  obtain ⟨cmd, hfront, hop, hpos, hmay, hcheck⟩ := Block.front_of_xferHeldNext hnext
  refine ⟨cmd, hpos, _, exec_xferSlotStart pos s, ?_⟩
  simp only [hfree, hnext]
  exact Block.issueNext_of_passes (b := s.blk.unheld pos q) hfront (by simp [hop]) hmay hcheck

theorem exec_xferSlotStart_of_full (hfree : s.blk.xferFree pos = none) :
    ∃ f, exec (.xferSlotStart pos) s = .next (s.upd fun b => b.settle f) ∧ f s.blk = s.blk := by
  refine ⟨_, exec_xferSlotStart pos s, ?_⟩
  simp only [hfree]

/-- A freed slot goes to the held XFER that is next. -/
theorem xferSlotStart_takes_held (hneed : s.blk.ext.need = []) {n q : Nat} (hfree : s.blk.xferFree pos = some n)
    (hnext : s.blk.xferHeldNext pos = some q) : Yields (.xferSlotStart pos) s fun t =>
      ((t.blk.xslot pos n).map fun v => (v.job.queue, v.next)) = some (q, 0) ∧
      (t.blk.posState pos).held = (s.blk.posState pos).held.erase q ∧
      t = { s with blk := { s.blk with regs := t.blk.regs, queues := t.blk.queues, pos := t.blk.pos, ext := t.blk.ext } } := by
  obtain ⟨cmd, hcmd, hc⟩ := exec_xferSlotStart_of_held hfree hnext
  have hstep := (s.blk.unheld_engineStep pos q).trans ((s.blk.unheld pos q).xferIssued_engineStep (q / 4) (q % 4) n cmd)
  have hpos := (s.blk.unheld pos q).xferIssued_pos (q / 4) (q % 4) n cmd
  have hslot := (s.blk.unheld pos q).xslot_xferIssued (q / 4) (q % 4) n cmd
  rw [hcmd] at hpos hslot
  refine yields_of_settle hc (by rw [hstep.ext]; exact hneed) fun t ht => ⟨?_, ?_, ?_⟩
  · rw [ht.xslot, hslot]
    exact congrArg (fun k => some (k, 0)) (Nat.div_add_mod q 4)
  · show (t.posState pos).held = _
    rw [Block.posState_of_pos_eq (ht.pos.trans hpos), Block.held_setXslot, Block.held_unheld]
  · exact congrArg (fun b : Block => { s with blk := b }) (hstep.rest_of_butExt ht)

end

end Sys2Proof.Machine
end

section
/-! SUPPORT. XFER_DESC_READ and XFER_CURSOR_READ (R87, R109). -/

namespace Sys2Proof.Machine

/-! ### Early ends (R109, R110) -/

/-- XF_ERR_LOG and XF_ERR_ADDR of an engine. -/
def Fld.xferLog (pos : Nat) : List Fld :=
  [Reg.XF_ERR_LOG.STATUS pos, Reg.XF_ERR_LOG.SLICE pos, Reg.XF_ERR_LOG.PRODUCER pos, Reg.XF_ERR_LOG.SLOT pos, Reg.XF_ERR_ADDR.PTR pos,
    Reg.XF_ERR_LOG.VALID pos]

theorem Fld.mem_xferLog {pos : Nat} {g : Fld} (h : g ∈ Fld.xferLog pos) :
    g.lo + g.w ≤ 64 ∧ 0x2010240 + 0x100000 * pos ≤ g.off := by
  revert g
  simp [Fld.xferLog, Reg.XF_ERR_LOG.STATUS, Reg.XF_ERR_LOG.SLICE, Reg.XF_ERR_LOG.PRODUCER, Reg.XF_ERR_LOG.SLOT, Reg.XF_ERR_ADDR.PTR,
    Reg.XF_ERR_LOG.VALID]

theorem Fld.mem_xferSlot {pos n : Nat} {g : Fld} (h : g ∈ Fld.xferSlot pos n) (hn : n < 8) : g.off < 0x2010240 + 0x100000 * pos := by
  revert g
  simp only [Fld.xferSlot, Reg.XF_STATUS.ACTIVE, Reg.XF_STATUS.FAULT_WAIT, Reg.XF_SLOT_STATE.SLICE, Reg.XF_SLOT_STATE.STATE,
    Reg.XF_SLOT_STATE.DELIVERED, List.mem_cons, List.not_mem_nil, or_false, forall_eq_or_imp, forall_eq]
  omega

section
variable {b : Block} {pos : Nat} (n : Nat) (v : XSlot) (f : XFault) (h : b.is (Reg.XF_ERR_LOG.VALID pos) = false)
include h

/-- The log as the first failure fills it. -/
theorem Block.xferLog_first : b.xferLog pos n v f =
    (((((b.wr (Reg.XF_ERR_LOG.STATUS pos) f.status).wr (Reg.XF_ERR_LOG.SLICE pos) v.job.slice).wr (Reg.XF_ERR_LOG.PRODUCER pos)
      f.producer).wr (Reg.XF_ERR_LOG.SLOT pos) n).wr (Reg.XF_ERR_ADDR.PTR pos) f.ptr).wr (Reg.XF_ERR_LOG.VALID pos) 1 := by
  simp only [Block.xferLog, h, Bool.false_eq_true, if_false]

theorem Block.xferLog_rest : b.xferLog pos n v f = { b with regs := (b.xferLog pos n v f).regs } := by
  have hin : ∀ g ∈ Fld.xferLog pos, g ∈ Fld.xferLog pos := fun _ => id
  simp only [Fld.xferLog, List.forall_mem_cons] at hin
  obtain ⟨hst, hslice, hprod, hslot, hptr, hvalid, -⟩ := hin
  rw [Block.xferLog_first n v f h]
  exact ((((((Block.FieldFrame.refl _ _).wr _ _ hst).wr _ _ hslice).wr _ _ hprod).wr _ _ hslot).wr _ _ hptr).wr _ _ hvalid |>.rest

theorem Block.xferLog_valid : (b.xferLog pos n v f).rd (Reg.XF_ERR_LOG.VALID pos) = 1 := by
  rw [Block.xferLog_first n v f h]
  exact Block.rd_wr_fits _ _ (show 1 < 2 ^ 1 by decide)

theorem Block.xferLog_slot (hn : n < 8) : (b.xferLog pos n v f).rd (Reg.XF_ERR_LOG.SLOT pos) = n := by
  have hw : 40 + 3 ≤ 64 := by decide
  rw [Block.xferLog_first n v f h, Block.rd_wr_of_disjoint _ (Reg.XF_ERR_LOG.VALID pos) _ _ hw (.inr (.inl (by decide : 40 + 3 ≤ 43))),
    Block.rd_wr_of_off_ne _ (Reg.XF_ERR_ADDR.PTR pos) _ _ (by simp [Reg.XF_ERR_LOG.SLOT, Reg.XF_ERR_ADDR.PTR])]
  exact Block.rd_wr_fits _ _ hn

theorem Block.xferLog_status : (b.xferLog pos n v f).rd (Reg.XF_ERR_LOG.STATUS pos) = f.status % 65536 := by
  have hw : 0 + 16 ≤ 64 := by decide
  rw [Block.xferLog_first n v f h, Block.rd_wr_of_disjoint _ (Reg.XF_ERR_LOG.VALID pos) _ _ hw (.inr (.inl (by decide : 0 + 16 ≤ 43))),
    Block.rd_wr_of_off_ne _ (Reg.XF_ERR_ADDR.PTR pos) _ _ (by simp [Reg.XF_ERR_LOG.STATUS, Reg.XF_ERR_ADDR.PTR]),
    Block.rd_wr_of_disjoint _ (Reg.XF_ERR_LOG.SLOT pos) _ _ hw (.inr (.inl (by decide : 0 + 16 ≤ 40))),
    Block.rd_wr_of_disjoint _ (Reg.XF_ERR_LOG.PRODUCER pos) _ _ hw (.inr (.inl (by decide : 0 + 16 ≤ 28))),
    Block.rd_wr_of_disjoint _ (Reg.XF_ERR_LOG.SLICE pos) _ _ hw (.inr (.inl (by decide : 0 + 16 ≤ 16)))]
  exact Block.rd_wr_same _ _ _ hw

end

/-- A transfer that fails before its cursor is read leaves none: it is logged, ended and reported with a count of 0 (Table
XFR-10). -/
theorem Block.xferEnd_of_desc {b : Block} {pos n : Nat} {v : XSlot} (f : XFault) (hphase : v.phase = .desc)
    (hneed : b.ext.need = []) :
    b.xferEnd pos n v f = (b.xferLog pos n v f).slotEnded pos n v f.status 0 := by
  have hext : ({ b with ext := { b.ext with need := [] } } : Block) = b := by rw [← hneed]
  have hleave : v.leavesCursor f = false := by simp [XSlot.leavesCursor, hphase]
  unfold Block.xferEnd
  simp only [hext, hleave, Bool.false_eq_true, if_false]
  simp [hphase, Block.slotEnded, XSlot.ended]

/-! ### The descriptor -/

section
variable {s : State} {pos : PosNo} {slot : Fin 8} {v : XSlot} {b' : Block} {ds : List Byte} (hv : s.blk.xslot pos slot = some v)
  (hfault : v.fault = none) (hneed : b'.ext.need = [])

section
variable (hphase : v.phase = .desc)
  (hread : (s.blk.onLane (Xfr.lane pos slot)).xferRead (s.blk.jobWho (.xfer pos) v.job) v.descPtr (64 * v.descLen) = (b', none, ds))
include hv hneed hphase hread

theorem exec_xferDescRead_of_desc :
    ∃ f, exec (.xferDescRead pos slot) s = .next { s with blk := s.blk.xferSettle pos slot v 0 f } ∧
      (∀ d, XDesc.parse v.descLen ds = .ok d → f (s.blk.onLane (Xfr.lane pos slot)) =
        b'.putSlot pos slot (some { v with desc := ds, phase := if v.cursorPtr = 0 then .run else .cursor })) ∧
      ∀ st, XDesc.parse v.descLen ds = .error st → f (s.blk.onLane (Xfr.lane pos slot)) =
        b'.xferEnd pos slot { v with desc := ds } ⟨st, v.descPtr, 0⟩ := by
  have hw : b'.waiting = false := by simp [Block.waiting, hneed]
  refine ⟨_, by
      simp only [exec_xferDescRead, execXferDescRead, State.upd, hv, hphase, ne_eq, not_true_eq_false, if_false]
      rfl,
    fun d hparse => ?_, fun st hparse => ?_⟩
  all_goals
    rw [show (s.blk.onLane (Xfr.lane pos slot)).jobWho (.xfer pos) v.job = s.blk.jobWho (.xfer pos) v.job from rfl]
    simp only [XSlot.descLen, XSlot.descPtr, XSlot.cursorPtr] at hread hparse ⊢
    simp only [hread, hw, hparse, hphase, Bool.false_eq_true, if_false]
  rfl

include hfault

/-- A good descriptor starts the transfer, or its cursor's read. -/
theorem xferDescRead_starts {d : XDesc} (hparse : XDesc.parse v.descLen ds = .ok d) : Yields (.xferDescRead pos slot) s fun t =>
    t.blk.xslot pos slot = some { v with desc := ds, phase := if v.cursorPtr = 0 then .run else .cursor } ∧
    b'.FieldsKept t.blk (Fld.xferSlot pos slot) ∧
    t = { s with blk := { b' with regs := t.blk.regs, pos := t.blk.pos, ext := t.blk.ext } } := by
  obtain ⟨f, hc, hgood, -⟩ := exec_xferDescRead_of_desc hv hneed hphase hread
  have hgo : (if v.cursorPtr = 0 then XPhase.run else .cursor) ≠ .ending := by split <;> exact XPhase.noConfusion
  refine yields_of_xferSettle ⟨f, hc, hgood d hparse⟩ hfault
    (b'.putSlot_need pos slot (v := { v with desc := ds, phase := _ }) hfault hneed) fun t ht => ?_
  obtain ⟨hslot, hkept, hrest⟩ := ht.of_putSlot hfault hgo
  exact ⟨hslot, hkept, congrArg (fun b : Block => { s with blk := b }) hrest⟩

/-- A descriptor that fails a check ends the transfer with the check's code and a count of 0. -/
theorem xferDescRead_fails {st : Status} (hparse : XDesc.parse v.descLen ds = .error st)
    (hlog : b'.is (Reg.XF_ERR_LOG.VALID pos) = false) : Yields (.xferDescRead pos slot) s fun t =>
      ((t.blk.xslot pos slot).map fun w => w.phase) = some .ending ∧ t.blk.rd (Reg.XF_ERR_LOG.VALID pos) = 1 ∧
      t.blk.rd (Reg.XF_ERR_LOG.STATUS pos) = st % 65536 ∧ t.blk.rd (Reg.XF_ERR_LOG.SLOT pos) = slot ∧
      (∀ r ∈ (b'.queue v.job.queue).inflight, r.id = v.job.id → r.result = none →
        { r with result := some (st, 0) } ∈ (t.blk.queue v.job.queue).inflight) ∧
      t = { s with blk := { b'.xlatForget (fun q => decide (q.lane = Xfr.lane pos slot)) with
        regs := t.blk.regs, pos := t.blk.pos, queues := t.blk.queues, ext := t.blk.ext } } := by
  obtain ⟨f, hc, -, hbad⟩ := exec_xferDescRead_of_desc hv hneed hphase hread
  have hend := (hbad st hparse).trans (Block.xferEnd_of_desc _ hphase hneed)
  have hlogged := Block.xferLog_rest slot { v with desc := ds } ⟨st, v.descPtr, 0⟩ hlog
  refine yields_of_xferSettle ⟨f, hc, hend⟩ hfault (by rw [Block.slotEnded_ext, hlogged]; exact hneed) fun t ht => ?_
  obtain ⟨hslot, hkept, hq, hrest⟩ := ht.of_slotEnded
  rw [hlogged] at hq hrest
  have hrd (g : Fld) (hg : g ∈ Fld.xferLog pos) : t.rd g = (b'.xferLog pos slot { v with desc := ds } ⟨st, v.descPtr, 0⟩).rd g :=
    hkept g (Fld.mem_xferLog hg).1 fun k hk => .inl ((Fld.mem_xferSlot hk slot.isLt).trans_le (Fld.mem_xferLog hg).2).ne'
  refine ⟨by rw [hslot]; rfl, (hrd _ (by simp [Fld.xferLog])).trans (Block.xferLog_valid _ _ _ hlog),
    (hrd _ (by simp [Fld.xferLog])).trans (Block.xferLog_status _ _ _ hlog),
    (hrd _ (by simp [Fld.xferLog])).trans (Block.xferLog_slot _ _ _ hlog slot.isLt), fun r hr hid hres => ?_,
    congrArg (fun b : Block => { s with blk := b }) hrest⟩
  show _ ∈ (t.queue v.job.queue).inflight
  rw [hq]
  exact List.mem_map.mpr ⟨r, hr, if_pos ⟨hid, by rw [hres]; rfl⟩⟩

end

/-! ### The cursor -/

section
variable (hphase : v.phase = .cursor)
  (hread : (s.blk.onLane (Xfr.lane pos slot)).xferRead (s.blk.jobWho (.xfer pos) v.job) v.cursorPtr 64 = (b', none, ds)) {d : XDesc}
  (hparse : XDesc.parse v.descLen v.desc = .ok d) (hfresh : bit (leAt ds 0 8) 32 = false)
include hv hneed hphase hread hparse hfresh

theorem exec_xferCursorRead_of_fresh :
    ∃ f, exec (.xferCursorRead pos slot) s = .next { s with blk := s.blk.xferSettle pos slot v 0 f } ∧
      f (s.blk.onLane (Xfr.lane pos slot)) = b'.putSlot pos slot (some { v with phase := .run }) := by
  have hw : b'.waiting = false := by simp [Block.waiting, hneed]
  refine ⟨_, by
      simp only [exec_xferCursorRead, execXferCursorRead, State.upd, hv, hphase, ne_eq, not_true_eq_false, if_false]
      rfl, ?_⟩
  rw [show (s.blk.onLane (Xfr.lane pos slot)).jobWho (.xfer pos) v.job = s.blk.jobWho (.xfer pos) v.job from rfl]
  simp only [hread, hw, hparse, hfresh, Bool.not_false, Bool.false_eq_true, if_false, if_true]

include hfault

/-- A cursor that was not left by an early end starts the transfer where its slot stands, at block 0. -/
theorem xferCursorRead_starts : Yields (.xferCursorRead pos slot) s fun t =>
    t.blk.xslot pos slot = some { v with phase := .run } ∧ b'.FieldsKept t.blk (Fld.xferSlot pos slot) ∧
    t = { s with blk := { b' with regs := t.blk.regs, pos := t.blk.pos, ext := t.blk.ext } } := by
  have hgo : XPhase.run ≠ .ending := XPhase.noConfusion
  refine yields_of_xferSettle (exec_xferCursorRead_of_fresh hv hneed hphase hread hparse hfresh) hfault
    (b'.putSlot_need pos slot (v := { v with phase := .run }) hfault hneed) fun t ht => ?_
  obtain ⟨hslot, hkept, hrest⟩ := ht.of_putSlot hfault hgo
  exact ⟨hslot, hkept, congrArg (fun b : Block => { s with blk := b }) hrest⟩

end

end

end Sys2Proof.Machine
end

section
/-! SUPPORT. XFER_BLOCK_PREPARED and XFER_BLOCK_DELIVERED (R101, R102, R107). -/

namespace Sys2Proof.Machine

/-! ### A block prepared and performed -/

/-- A preparation changes of its slot what it stages, the blocks it has verified and its own bytes alone. -/
theorem Block.xferPrepare_slot (b : Block) (pos : Nat) (v : XSlot) (d : XDesc) (k : Nat) :
    ∃ staged verified own, (b.xferPrepare pos v d k).v = { v with staged, verified, own } := by
  unfold Block.xferPrepare
  extract_lets
  iterate 2
    split
    · exact ⟨_, _, _, rfl⟩
  extract_lets
  iterate 4
    split
    · exact ⟨_, _, _, rfl⟩
  extract_lets
  split
  · exact ⟨_, _, _, rfl⟩
  · exact ⟨_, _, _, rfl⟩

/-- A slot's record with block `k` begun: what it writes stands prepared. -/
def XReady.started (r : XReady) (k : Nat) : XSlot := { r.v with begun := SMap.put (fun _ => none) r.v.begun k (some r.begun) }

theorem XReady.begun_started (r : XReady) (k : Nat) : SMap.get (fun _ => none) (r.started k).begun k = some r.begun := by
  simp [XReady.started]

/-- A slot's record with block `k` performed (R107). -/
def XSlot.afterBlock (v : XSlot) (k : Nat) (last : Option Nat) : XSlot :=
  { v with begun := SMap.put (fun _ => none) v.begun k none, performed := NSet.insert k v.performed
           hostLast := SMap.put (fun _ => none) v.hostLast k last }

theorem XSlot.begun_afterBlock (v : XSlot) (k : Nat) (last : Option Nat) :
    SMap.get (fun _ => none) (v.afterBlock k last).begun k = none := by
  simp [XSlot.afterBlock]

/-- The last address in host memory that a block writes. -/
def XBegun.hostLast (g : XBegun) : Option Nat := ((g.writes.filter fun x => Ptr.tag x.ptr = 1).getLast?).map fun x => Ptr.addr x.ptr

/-- A block's write to host memory is its queue's to flush (R72). -/
def Block.blockWrote (b : Block) (job : Job) (g : XBegun) : Block :=
  match g.hostLast with
  | some a => b.hostWrote job.queue job.slice a
  | none => b

theorem Block.blockWrote_rest (b : Block) (job : Job) (g : XBegun) :
    b.blockWrote job g = { b with queues := (b.blockWrote job g).queues } := by
  unfold Block.blockWrote
  split <;> rfl

theorem Block.rest_of_blockWrote {b t : Block} {job : Job} {g : XBegun}
    (h : t = { b.blockWrote job g with regs := t.regs, pos := t.pos, ext := t.ext }) :
    t = { b with regs := t.regs, pos := t.pos, queues := t.queues, ext := t.ext } := by
  rw [h, Block.blockWrote_rest]

/-- A block that prepares without failure begins writing, where nothing holds it back. -/
theorem Block.xferBegin_of_prepared {b : Block} {pos n k : Nat} {v : XSlot} {d : XDesc} {r : XReady} (hfault : v.fault = none)
    (hfailed : v.failed = none) (hturn : d.ordered = true → k = v.next) (hr : (b.onLane (Xfr.lane pos n)).xferPrepare pos v d k = r)
    (hfail : r.fail = none) (hneed : r.b.ext.need = []) (hfault' : (r.started k).fault = none) :
    (r.b.putSlot pos n (some (r.started k))).ButExt (b.xferBegin pos n v d k) := by
  have hbelow : (d.ordered && !(List.range (k - v.next)).all fun i => NSet.has v.performed (v.next + i)) = false := by
    cases ho : d.ordered with
    | false => rfl
    | true => simp [hturn ho]
  have hw : r.b.waiting = false := by simp [Block.waiting, hneed]
  simp only [Block.xferBegin, hfault, hfailed, hbelow, Option.any_none, Bool.or_false, Bool.false_eq_true, if_false]
  refine Block.xferSettle_of_done hfault ?_ (r.b.putSlot_need pos n hfault' hneed)
  simp only [hr, hfail, hw, Bool.false_eq_true, if_false]
  rfl

theorem Block.xferGoOn_of_sound (b : Block) (pos n : Nat) {v : XSlot} (h : v.failed = none) :
    b.xferGoOn pos n v = b.putSlot pos n (some v) := by
  simp only [Block.xferGoOn, h]

/-- A block whose writes do not fail is performed. -/
theorem Block.xferPerform_of_written {b b' : Block} {pos n k : Nat} {v : XSlot} {d : XDesc} {g : XBegun} (hfault : v.fault = none)
    (hfailed : v.failed = none) (hwrite : (b.onLane (Xfr.lane pos n)).xferWrite pos v.job g d = (b', none))
    (hneed : b'.ext.need = []) :
    ((b'.blockWrote v.job g).putSlot pos n (some (v.afterBlock k g.hostLast))).ButExt (b.xferPerform pos n v d k g) := by
  have hw : b'.waiting = false := by simp [Block.waiting, hneed]
  have hfault' : (v.afterBlock k g.hostLast).fault = none := hfault
  refine Block.settle_inLane_of_done ?_ (by rw [Block.putSlot_ext _ _ _ hfault', Block.blockWrote_rest]; exact hneed)
  simp only [hwrite, hw, Bool.false_eq_true, if_false]
  exact Block.xferGoOn_of_sound _ _ _ hfailed

section
variable {s : State} {pos : PosNo} {slot : Fin 8} {v : XSlot} {d : XDesc} (hv : s.blk.xslot pos slot = some v)
  (hphase : v.phase = .run) (hfault : v.fault = none) (hfailed : v.failed = none) (hparse : XDesc.parse v.descLen v.desc = .ok d)

section
variable {ahead : Fin 16} (hwindow : ahead.val < v.window) (hblocks : v.next + ahead < d.blocks)
  (hnew : NSet.has v.performed (v.next + ahead) = false) (hturn : d.ordered = true → ahead.val = 0)
  (hidle : SMap.get (fun _ => none) v.begun (v.next + ahead) = none) {r : XReady}
  (hr : (s.blk.onLane (Xfr.lane pos slot)).xferPrepare pos v d (v.next + ahead) = r) (hfail : r.fail = none) (hneed : r.b.ext.need = [])

include hv hphase hparse hwindow hblocks hnew hidle in
/-- A block of the window that has not begun is prepared, and performed once it has begun. -/
theorem exec_xferBlockPrepared_of_begun {w : XSlot} {g : XBegun}
    (hw : (s.blk.xferBegin pos slot v d (v.next + ahead)).xslot pos slot = some w)
    (hg : SMap.get (fun _ => none) w.begun (v.next + ahead) = some g) :
    exec (.xferBlockPrepared pos slot ahead none) s =
      .next { s with blk := (s.blk.xferBegin pos slot v d (v.next + ahead)).xferPerform pos slot w d (v.next + ahead) g } := by
  have hdue : ¬(v.phase ≠ .run ∨ v.window ≤ ahead.val ∨ d.blocks ≤ v.next + ahead ∨
      NSet.has v.performed (v.next + ahead) = true) := by
    simp [hphase, hwindow, hblocks, hnew]
  simp only [exec_xferBlockPrepared, execXferBlockPrepared, Block.tlbParity, State.upd, hv, hparse, if_neg hdue, hidle,
    Option.isSome_none, Bool.false_eq_true, if_false, hw, hg]

include hr in
/-- A slot whose block has been prepared is the same transfer, as far as it was. -/
theorem XReady.started_kept {k : Nat} : (r.started k).job = v.job ∧ (r.started k).phase = v.phase ∧
    (r.started k).fault = v.fault ∧ (r.started k).failed = v.failed := by
  obtain ⟨_, _, _, hslot⟩ := (s.blk.onLane (Xfr.lane pos slot)).xferPrepare_slot pos v d (v.next + ahead)
  rw [hr] at hslot
  simp only [XReady.started, hslot, and_self]

include hfault hfailed hturn hr hfail hneed

theorem xslot_xferBegin_of_prepared :
    (s.blk.xferBegin pos slot v d (v.next + ahead)).xslot pos slot = some (r.started (v.next + ahead)) := by
  obtain ⟨-, -, hfault', -⟩ := XReady.started_kept hr (k := v.next + ahead)
  rw [hfault] at hfault'
  have hbegin := Block.xferBegin_of_prepared hfault hfailed (fun ho => by rw [hturn ho]; rfl) hr hfail hneed hfault'
  rw [hbegin.xslot, Block.xslot_putSlot_same _ _ _ hfault']

include hv hphase hparse hwindow hblocks hnew hidle

/-- A block of the window that prepares and writes without failure is performed. -/
theorem xferBlockPrepared_performs {b' : Block}
    (hwrite : ((s.blk.xferBegin pos slot v d (v.next + ahead)).onLane (Xfr.lane pos slot)).xferWrite pos v.job r.begun d = (b', none))
    (hneed' : b'.ext.need = []) : Yields (.xferBlockPrepared pos slot ahead none) s fun t =>
      ((t.blk.xslot pos slot).map fun w => (w.next, w.performed)) = some (r.v.next, NSet.insert (v.next + ahead) r.v.performed) ∧
      ((t.blk.xslot pos slot).map fun w => SMap.get (fun _ => none) w.begun (v.next + ahead)) = some none ∧
      t = { s with blk := { b' with regs := t.blk.regs, pos := t.blk.pos, queues := t.blk.queues, ext := t.blk.ext } } := by
  have hslot := xslot_xferBegin_of_prepared hfault hfailed hturn hr hfail hneed
  obtain ⟨hjob, hphase', hfault', hfailed'⟩ := XReady.started_kept hr (k := v.next + ahead)
  rw [hfault] at hfault'
  rw [hfailed] at hfailed'
  rw [← hjob] at hwrite
  have hgo : (r.started (v.next + ahead)).phase ≠ .ending := by rw [hphase', hphase]; exact XPhase.noConfusion
  have hperform := Block.xferPerform_of_written (k := v.next + ahead) hfault' hfailed' hwrite hneed'
  obtain ⟨hslot', -, hrest⟩ := hperform.of_putSlot hfault' hgo
  refine ⟨_, exec_xferBlockPrepared_of_begun hv hphase hparse hwindow hblocks hnew hidle hslot (r.begun_started _), ?_⟩
  refine ⟨?_, ?_, congrArg (fun b : Block => { s with blk := b }) (Block.rest_of_blockWrote hrest)⟩
  · show Option.map _ (Block.xslot _ pos slot) = _
    rw [hslot']
    rfl
  · show Option.map _ (Block.xslot _ pos slot) = _
    rw [hslot', Option.map_some, XSlot.begun_afterBlock]

end

/-! ### A block delivered -/

/-- A slot's record with its lowest block delivered. -/
def XSlot.delivered (v : XSlot) : XSlot :=
  { v with next := v.next + 1, performed := NSet.erase v.performed v.next
           hostLast := SMap.put (fun _ => none) v.hostLast v.next none }

/-- Without a cursor, a transfer whose blocks are all delivered ends and is reported (R109). -/
theorem Block.xferDone_of_no_cursor (b : Block) (pos n : Nat) {v : XSlot} (h : v.cursorPtr = 0) :
    b.xferDone pos n v = b.slotEnded pos n v Code.SUCCESS v.next := by
  simp only [Block.xferDone, Block.cursorWrite, h, if_true]
  rfl

section
variable (hprog : v.progPtr = 0) (hneed : s.blk.ext.need = []) (hdone : NSet.has v.performed v.next = true)
  (hhost : SMap.get (fun _ => none) v.hostLast v.next = none)

include hprog hfault hfailed in
/-- Without progress signals, a transfer goes on after a block, or is done with its last. -/
theorem Block.xferDeliver_of_no_progress {b : Block} {n : Nat} (blocks : Nat) (hneed : b.ext.need = []) :
    let c := b.putSlot pos n (some v.delivered)
    b.xferDeliver pos n v blocks =
      if v.next + 1 = blocks then c.xferDone pos n v.delivered else c.putSlot pos n (some v.delivered) := by
  intro c
  have hw : ¬c.waiting = true := by
    have hext : c.ext = b.ext := b.putSlot_ext pos n hfault
    simp [Block.waiting, hext, hneed]
  unfold Block.xferDeliver
  simp only [XSlot.progPtr] at hprog ⊢
  simp only [hprog, ne_eq, not_true_eq_false, decide_false, Bool.false_and, Bool.false_eq_true, if_false]
  exact (if_neg hw).trans (congrArg (ite _ _) (Block.xferGoOn_of_sound _ _ _ hfailed))

include hv hphase hfailed hparse hdone hhost in
/-- A performed block with no write to host memory to flush is delivered. -/
theorem exec_xferBlockDelivered_of_performed : exec (.xferBlockDelivered pos slot) s =
    .next { s with blk := s.blk.xferSettle pos slot v v.next fun b => b.xferDeliver pos slot v d.blocks } := by
  have hdue : ¬(v.phase ≠ .run ∨ (!NSet.has v.performed v.next) = true ∨
      (v.failed.any fun g => decide (g.1 = v.next)) = true) := by
    simp [hphase, hfailed, hdone]
  simp only [exec_xferBlockDelivered, execXferBlockDelivered, State.upd, hv, hparse, if_neg hdue, hhost]

include hv hphase hfault hfailed hparse hprog hneed hdone hhost

/-- When block D is performed, the delivered-count moves past it. -/
theorem xferBlockDelivered_goes_on (hmore : v.next + 1 ≠ d.blocks) : Yields (.xferBlockDelivered pos slot) s fun t =>
    ((t.blk.xslot pos slot).map fun w => (w.next, w.performed)) = some (v.next + 1, NSet.erase v.performed v.next) ∧
    t.blk.rd (Reg.XF_SLOT_STATE.DELIVERED pos slot) = (v.next + 1) % 2 ^ (Reg.XF_SLOT_STATE.DELIVERED pos slot).w ∧
    t = { s with blk := { s.blk with regs := t.blk.regs, pos := t.blk.pos, ext := t.blk.ext } } := by
  have hfault' : v.delivered.fault = none := hfault
  have hgo : v.delivered.phase ≠ .ending := by rw [XSlot.delivered, hphase]; exact XPhase.noConfusion
  have hdeliver := (Block.xferDeliver_of_no_progress (pos := pos) hfault hfailed hprog (b := s.blk.onLane (Xfr.lane pos slot))
    (n := slot) d.blocks hneed).trans (if_neg hmore)
  refine yields_of_xferSettle ⟨_, exec_xferBlockDelivered_of_performed hv hphase hfailed hparse hdone hhost, hdeliver⟩ hfault
    (Block.putSlot_need _ _ _ hfault' (Block.putSlot_need _ _ _ hfault' hneed)) fun t ht => ?_
  obtain ⟨hslot, -, hrest⟩ := ht.of_putSlot hfault' hgo
  rw [Block.putSlot_rest_of_goes_on _ _ _ hfault' hgo] at hrest
  exact ⟨by rw [hslot]; rfl, (ht.rd _).trans (Block.rd_putSlot_delivered _ _ _ hfault'),
    congrArg (fun b : Block => { s with blk := b }) hrest⟩

/-- After the last block the command is reported done. -/
theorem xferBlockDelivered_ends (hlast : v.next + 1 = d.blocks) (hcursor : v.cursorPtr = 0) :
    Yields (.xferBlockDelivered pos slot) s fun t =>
      ((t.blk.xslot pos slot).map fun w => (w.next, w.phase)) = some (v.next + 1, .ending) ∧
      (t.blk.queue v.job.queue).inflight = (s.blk.queue v.job.queue).inflight.map (fun r =>
        if r.id = v.job.id ∧ r.result.isNone then { r with result := some (Code.SUCCESS, d.blocks) } else r) ∧
      t = { s with blk := { s.blk.xlatForget (fun q => decide (q.lane = Xfr.lane pos slot)) with
        regs := t.blk.regs, pos := t.blk.pos, queues := t.blk.queues, ext := t.blk.ext } } := by
  have hfault' : v.delivered.fault = none := hfault
  have hgo : v.delivered.phase ≠ .ending := by rw [XSlot.delivered, hphase]; exact XPhase.noConfusion
  have hdeliver := (Block.xferDeliver_of_no_progress (pos := pos) hfault hfailed hprog (b := s.blk.onLane (Xfr.lane pos slot))
    (n := slot) d.blocks hneed).trans ((if_pos hlast).trans (Block.xferDone_of_no_cursor _ _ _ hcursor))
  refine yields_of_xferSettle ⟨_, exec_xferBlockDelivered_of_performed hv hphase hfailed hparse hdone hhost, hdeliver⟩ hfault
    (by rw [Block.slotEnded_ext]; exact Block.putSlot_need _ _ _ hfault' hneed) fun t ht => ?_
  obtain ⟨hslot, -, hq, hrest⟩ := ht.of_slotEnded
  rw [Block.queue_putSlot _ _ _ hfault'] at hq
  rw [Block.putSlot_rest_of_goes_on _ _ _ hfault' hgo] at hrest
  refine ⟨by rw [hslot]; rfl, ?_, congrArg (fun b : Block => { s with blk := b }) hrest⟩
  rw [← hlast]
  exact hq

end

end

/-- Settles O18: each step meets nothing missing, so all it leaves is its slot's record as put, with the issue before it or the
report after it. -/
theorem transfers : Obligations.Transfers := by
  refine ⟨fun s hneed => ⟨fun slice cls cmd hready hcheck hheld =>
      ⟨fun n => xfer_takes_slot hready hcheck hheld, xfer_held_of_full hready hcheck hheld⟩,
    fun pos n q => xferSlotStart_takes_held hneed, fun pos hfree => ?_⟩, fun s pos slot v hv hfault => ⟨?_, ?_⟩, ?_⟩
  · exact yields_of_settle (exec_xferSlotStart_of_full hfree) hneed fun t ht => by rw [ht]
  · exact fun hphase b' ds hread hneed => ⟨fun d hparse => xferDescRead_starts hv hfault hneed hphase hread hparse,
      fun st hparse hlog => xferDescRead_fails hv hfault hneed hphase hread hparse hlog⟩
  · exact fun hphase b' ds hread hneed d hparse hfresh => xferCursorRead_starts hv hfault hneed hphase hread hparse hfresh
  · intro s pos slot hneed v hv hphase hfault hfailed d hparse
    refine ⟨fun ahead hwindow hblocks hnew hturn hidle r hr hfail hready => ⟨?_, fun b' hwrite hneed' => ?_⟩,
      fun hdone hhost hprog => ⟨fun hmore => ?_, fun hlast hcursor => ?_⟩⟩
    · rw [xslot_xferBegin_of_prepared hfault hfailed hturn hr hfail hready, Option.map_some, XReady.begun_started]
    · exact xferBlockPrepared_performs hv hphase hfault hfailed hparse hwindow hblocks hnew hturn hidle hr hfail hready hwrite hneed'
    · exact xferBlockDelivered_goes_on hv hphase hfault hfailed hparse hprog hneed hdone hhost hmore
    · exact xferBlockDelivered_ends hv hphase hfault hfailed hparse hprog hneed hdone hhost hlast hcursor

end Sys2Proof.Machine
end

section
/-! SUPPORT. A position's kernel (R112): where its registers stand, and what an instruction that retires changes (R138). -/

namespace Sys2Proof.Machine

/-! ### A kernel's registers and its position -/

@[simp] theorem Block.vec_setVec_same (b : Block) (p : Nat) (v : VecState) : (b.setVec p v).vec p = v := by
  rw [Block.vec, Block.setVec, Block.modPos, Block.posState_setPos_same]

theorem Block.posState_setVec_same (b : Block) (p : Nat) (v : VecState) :
    (b.setVec p v).posState p = { b.posState p with vec := v } :=
  Block.posState_setPos_same _ _ _

theorem Block.posState_setVec_of_ne (b : Block) {p p' : Nat} (v : VecState) (h : p' ≠ p) :
    (b.setVec p v).posState p' = b.posState p' :=
  Block.posState_setPos_of_ne _ _ h

@[simp] theorem Block.posState_wr (b : Block) (f : Fld) (n p : Nat) : (b.wr f n).posState p = b.posState p := rfl

@[simp] theorem Block.vec_wr (b : Block) (f : Fld) (n p : Nat) : (b.wr f n).vec p = b.vec p := rfl

theorem Block.vec_of_pos_eq {b c : Block} (h : c.pos = b.pos) (p : Nat) : c.vec p = b.vec p := by
  rw [Block.vec, Block.posState_of_pos_eq h, Block.vec]

/-- A kernel that may take its next instruction runs, is loaded and waits for no access. -/
theorem VecState.ready_eq_some {v : VecState} {r : VRun} :
    v.ready = some r ↔ v.run = some r ∧ r.loading = false ∧ r.stalled = false := by
  unfold VecState.ready
  split
  next r' hrun =>
    by_cases hbusy : r'.loading = true ∨ r'.stalled = true
    · rw [if_pos hbusy]
      refine iff_of_false nofun fun ⟨heq, hload, hstall⟩ => ?_
      cases hrun.symm.trans heq
      simp [hload, hstall] at hbusy
    · rw [if_neg hbusy]
      simp only [not_or, Bool.not_eq_true] at hbusy
      exact ⟨fun heq => Option.some.inj heq ▸ ⟨hrun, hbusy⟩, fun heq => hrun.symm.trans heq.1⟩
  next hrun => simp [hrun]

/-! ### An instruction that retires (R138) -/

/-- The fields that show a retired instruction. -/
def Fld.vecRetire (p : Nat) : List Fld := [Reg.VE_RETIRED.COUNT p, Reg.VE_FLAGS.FLAGS p, Reg.VE_STATUS.PC p]

/-- The registers of a kernel whose instruction has retired with registers `v` and next PC `next`. -/
def VecState.retired (v : VecState) (r : VRun) (next : Nat) : VecState :=
  { v with pc := next, run := some { r with retired := r.retired + 1, stalled := false } }

theorem VecState.retired_of_ready {v : VecState} {r : VRun} (h : v.ready = some r) (v' : VecState) (next : Nat) :
    v'.retired r next = { v' with pc := next, run := some { r with retired := r.retired + 1 } } := by
  obtain ⟨-, -, hstall⟩ := VecState.ready_eq_some.mp h
  rw [VecState.retired, ← hstall]

section
variable {b : Block} {p next : Nat} {r : VRun} (v : VecState) (h : next < r.instrCount)
include h

theorem Block.vecRetire_eq : b.vecRetire p r v next =
    (((b.setVec p (v.retired r next)).count (Reg.VE_RETIRED.COUNT p) 1).wr (Reg.VE_FLAGS.FLAGS p) v.flags).wr
      (Reg.VE_STATUS.PC p) next :=
  if_neg (Nat.not_le.mpr h)

theorem Block.vecRetire_frame : (b.setVec p (v.retired r next)).FieldFrame (b.vecRetire p r v next) (Fld.vecRetire p) := by
  rw [Block.vecRetire_eq v h]
  exact (((Block.FieldFrame.refl _ _).wr _ _ (by simp [Fld.vecRetire])).wr _ _ (by simp [Fld.vecRetire])).wr _ _
    (by simp [Fld.vecRetire])

theorem Block.vecRetire_pos : (b.vecRetire p r v next).pos = (b.setVec p (v.retired r next)).pos := by
  rw [(Block.vecRetire_frame v h).rest]

theorem Block.vec_vecRetire : (b.vecRetire p r v next).vec p = v.retired r next := by
  rw [Block.vec_of_pos_eq (Block.vecRetire_pos v h), Block.vec_setVec_same]

theorem Block.posState_vecRetire_of_ne {p' : Nat} (hp : p' ≠ p) : (b.vecRetire p r v next).posState p' = b.posState p' := by
  rw [Block.posState_of_pos_eq (Block.vecRetire_pos v h), Block.posState_setVec_of_ne _ _ hp]

theorem Block.vecRetire_rest : b.vecRetire p r v next =
    { b with regs := (b.vecRetire p r v next).regs, pos := (b.vecRetire p r v next).pos } := by
  rw [(Block.vecRetire_frame v h).rest]
  rfl

theorem Block.rd_flags_vecRetire : (b.vecRetire p r v next).rd (Reg.VE_FLAGS.FLAGS p) = v.flags % 128 := by
  have hfit : (Reg.VE_FLAGS.FLAGS p).lo + (Reg.VE_FLAGS.FLAGS p).w ≤ 64 := show 0 + 7 ≤ 64 by decide
  have hoff : (Reg.VE_FLAGS.FLAGS p).off ≠ (Reg.VE_STATUS.PC p).off := by
    simp only [Reg.VE_FLAGS.FLAGS, Reg.VE_STATUS.PC]
    omega
  rw [Block.vecRetire_eq v h, Block.rd_wr_of_off_ne _ _ _ _ hoff]
  exact Block.rd_wr_same _ _ _ hfit

end

/-- The instruction at PC has retired once its registers are put and the next one follows. -/
theorem State.retires_of_vecRetire {s : State} {pos : Nat} {r : VRun} (v : VecState) (hready : (s.blk.vec pos).ready = some r)
    (hnext : (s.blk.vec pos).pc + 1 < r.instrCount) :
    s.Retires { s with blk := s.blk.vecRetire pos r v ((s.blk.vec pos).pc + 1) } pos r := by
  have hvec := Block.vec_vecRetire (b := s.blk) (p := pos) v hnext
  refine ⟨?_, ?_, ?_, ?_, fun p hp => Block.posState_vecRetire_of_ne v hnext hp, ?_, ?_⟩
  · rw [hvec]
    rfl
  · rw [hvec, VecState.retired_of_ready hready]
  · rw [hvec]
    exact Block.rd_flags_vecRetire v hnext
  · rw [hvec]
    exact (Block.posState_of_pos_eq (Block.vecRetire_pos v hnext) pos).trans (Block.posState_setVec_same _ _ _)
  · exact (Block.FieldsKept.of_regs (.refl _ _) rfl).trans (Block.vecRetire_frame v hnext).fields
  · exact congrArg (fun b : Block => { s with blk := b }) (Block.vecRetire_rest v hnext)

/-! ### Instructions at PC -/

/-- The instruction at PC runs in its own row. -/
theorem Block.vecAt_of_ready {b : Block} {p op : Nat} {r : VRun} {f : Block → VRun → VecState → VInstr → Block}
    (hready : (b.vec p).ready = some r) (hop : (b.vec p).instr.op = op) (hlegal : (b.vec p).legal (b.vec p).instr = true) :
    b.vecAt p op f = f b r (b.vec p) (b.vec p).instr := by
  simp [Block.vecAt, hready, hop, hlegal]

/-- What an instruction on registers alone yields: it retires, with the registers that its operation gives. -/
theorem yields_of_vecAlu {c : Instr} {s : State} {pos op : Nat} {f : VInstr → VecState → VecState} {r : VRun} {p : State → Prop}
    (hc : exec c s = .next (s.upd fun b => b.vecAlu pos op f)) (hk : s.blk.KernelAt pos op r)
    (hp : ∀ t, s.Retires t pos r →
      t.blk.vec pos = (f (s.blk.vec pos).instr (s.blk.vec pos)).retired r ((s.blk.vec pos).pc + 1) → p t) : Yields c s p := by
  obtain ⟨hready, hop, hlegal, hnext⟩ := hk
  refine ⟨_, hc, ?_⟩
  rw [State.upd, Block.vecAlu, Block.vecAt_of_ready hready hop hlegal]
  exact hp _ (State.retires_of_vecRetire _ hready hnext) (Block.vec_vecRetire _ hnext)

end Sys2Proof.Machine
end

section
/-! SUPPORT. The elements of a vector register and the bits of a mask register, as R113 lays them out and R115 writes them. -/

namespace Sys2Proof.Machine

/-! ### Elements (R113) -/

theorem VecState.vreg_lt (v : VecState) (k : Nat) : v.vreg k < 2 ^ 8192 := (SMap.get (fun _ => 0) v.v k).isLt

theorem VecState.elem_lt (v : VecState) (k w e : Nat) : v.elem k w e < 2 ^ w := bits_lt _ _ _

theorem VecState.opB_lt (v : VecState) (i : VInstr) (w e : Nat) : v.opB i w e < 2 ^ w := by
  unfold VecState.opB
  split
  · exact Nat.mod_lt _ (Nat.two_pow_pos w)
  · exact v.elem_lt _ _ _

/-- An element below the register's count of them lies within the register. -/
theorem elem_within {w e : Nat} (h : e < lanes w) : w * e + w ≤ 8192 :=
  calc w * e + w = w * (e + 1) := (Nat.mul_succ w e).symm
    _ ≤ w * lanes w := Nat.mul_le_mul_left w h
    _ ≤ 8192 := Nat.mul_div_le 8192 w

theorem VecState.vreg_setV (v : VecState) (k n j : Nat) : (v.setV k n).vreg j = if j = k then n % 2 ^ 8192 else v.vreg j := by
  rw [VecState.vreg, VecState.setV, SMap.get_put]
  split
  · rw [BitVec.toNat_ofNat]
  · rfl

theorem VecState.elem_setV_same (v : VecState) (k n : Nat) {w e : Nat} (h : e < lanes w) :
    (v.setV k n).elem k w e = bits n (w * e) w := by
  rw [VecState.elem, VecState.vreg_setV, if_pos rfl, bits_mod_two_pow _ _ _ _ (elem_within h)]

/-! ### Vector destinations (R115) -/

/-- Each element below `n` takes its own value where active, and is kept or zeroed where not. -/
theorem bits_foldl_elems (act : Nat → Bool) (z : Bool) (w n old e : Nat) (f : Nat → Nat) :
    bits ((List.range n).foldl (fun acc e =>
        if act e then setBits acc (w * e) w (f e) else if z then setBits acc (w * e) w 0 else acc) old) (w * e) w =
      if e < n then (if act e then f e % 2 ^ w else if z then 0 else bits old (w * e) w) else bits old (w * e) w := by
  induction n with
  | zero => simp
  | succ n ih =>
    rw [List.range_succ, List.foldl_append, List.foldl_cons, List.foldl_nil]
    by_cases he : e = n
    · subst he
      rw [if_neg (Nat.lt_irrefl e)] at ih
      rw [if_pos (Nat.lt_succ_self e)]
      generalize List.foldl _ _ _ = acc at ih ⊢
      split
      · exact bits_setBits_same _ _ _ _
      · split
        · rw [bits_setBits_same, Nat.zero_mod]
        · exact ih
    · have hapart : w * e + w ≤ w * n ∨ w * n + w ≤ w * e := by
        rcases Nat.lt_or_gt_of_ne he with hlt | hgt
        · exact .inl (by rw [← Nat.mul_succ]; exact Nat.mul_le_mul_left w hlt)
        · exact .inr (by rw [← Nat.mul_succ]; exact Nat.mul_le_mul_left w hgt)
      have hlt : e < n + 1 ↔ e < n := by omega
      simp only [hlt, ← ih]
      cases act n <;> cases z <;> simp [bits_setBits_of_disjoint _ _ _ _ _ _ hapart]

theorem VecState.elem_writeElems (v : VecState) (i : VInstr) (k n : Nat) (f : Nat → Nat) {w e : Nat} (h : e < lanes w) :
    (v.writeElems i k w n f).elem k w e =
      if v.active i n e then f e % 2 ^ w else if i.z = true ∧ e < n then 0 else v.elem k w e := by
  rw [VecState.writeElems, VecState.elem_setV_same _ _ _ h, bits_foldl_elems]
  by_cases he : e < n
  · simp [he, VecState.elem]
  · simp [he, VecState.elem, VecState.active]

/-! ### Element-wise instructions -/

/-- An element-wise instruction retires with the elements and flags of its operation, which only the low bits of an element
decide. -/
theorem State.elementStep_of_lanewise {s : State} {pos : PosNo} {c : Instr} {op : Nat} {F : VInstr → VecState → VecState}
    {f g : VecState → VInstr → Nat → Nat × Nat} (hc : exec c s = .next (s.upd fun b => b.vecAlu pos op F))
    (hF : ∀ i v, F i v = Vec.lanewise (g v i) i v)
    (hg : ∀ v i e, (g v i e).1 % 2 ^ vtypeW i.ty = (f v i e).1 % 2 ^ vtypeW i.ty ∧ (g v i e).2 = (f v i e).2) :
    s.ElementStep pos c op f := by
  intro r hk
  refine yields_of_vecAlu hc hk fun t ht hvec => ?_
  rw [hF] at hvec
  refine ⟨ht, ?_, fun e he => ?_, ?_⟩
  all_goals rw [hvec]
  · exact ⟨fun k hk => (VecState.vreg_setV _ _ _ _).trans (if_neg hk), rfl⟩
  · exact (VecState.elem_writeElems _ _ _ _ _ he).trans (by rw [(hg _ _ e).1])
  · exact congrArg (fun x : Nat → Nat => _ ||| VecState.flagsOf _ _ _ x) (funext fun e => (hg _ _ e).2)

end Sys2Proof.Machine
end

section
/-! SUPPORT. The element-wise arithmetic (R115, R116, R119–R121). -/

namespace Sys2Proof.Machine

/-! ### Two's complement -/

theorem signed_emod (n w : Nat) : signed n w % (2 ^ w : Nat) = ((n % 2 ^ w : Nat) : Int) := by
  have hlt : n % 2 ^ w < 2 ^ w := Nat.mod_lt _ (Nat.two_pow_pos w)
  unfold signed
  split
  · rw [← Int.natCast_mod, Nat.mod_mod]
  · rw [Int.sub_emod_right, ← Int.natCast_mod, Nat.mod_mod]

theorem signed_modEq (n w : Nat) : signed n w ≡ (n : Int) [ZMOD (2 ^ w : Nat)] :=
  (signed_emod n w).trans (Int.natCast_mod n _)

/-- The low bits of an integer are those of a natural number that it is congruent to. -/
theorem toBits_of_modEq {x : Int} {n w : Nat} (h : x ≡ (n : Int) [ZMOD (2 ^ w : Nat)]) : toBits x w = n % 2 ^ w := by
  rw [toBits, show x % (2 ^ w : Nat) = (n : Int) % (2 ^ w : Nat) from h, ← Int.natCast_mod, Int.toNat_natCast]

theorem toBits_signed (n w : Nat) : toBits (signed n w) w = n % 2 ^ w := toBits_of_modEq (signed_modEq n w)

/-- A shift amount is the same, read with its sign or without. -/
theorem signed_emod_of_dvd {b w k : Nat} (h : k ∣ 2 ^ w) : signed b w % k = ((b % k : Nat) : Int) := by
  have hdvd : (k : Int) ∣ (2 ^ w : Nat) := Int.natCast_dvd_natCast.mpr h
  exact ((signed_modEq b w).of_dvd hdvd).trans (Int.natCast_mod b k)

/-! ### The operations by type -/

/-- The model's integer operation is `fi` on the signed values, modulo 2^w. -/
def Vec.IntOp (model : Nat → Nat → Nat → Nat) (fi : Nat → Int → Int → Int) : Prop :=
  ∀ t a b, let w := vtypeW t
    a < 2 ^ w → b < 2 ^ w → model w a b % 2 ^ w = toBits (fi w (signed a w) (signed b w)) w

/-- An operation on two elements by type: floating `ff`, or integer `fi` modulo 2^w. -/
def Vec.byType (ff : FFmt → Nat → Nat → Nat × Nat) (fi : Nat → Int → Int → Int) (v : VecState) (i : VInstr) (e : Nat) : Nat × Nat :=
  match (vtype i.ty).bind EFmt.float? with
  | some g => ff g (v.elem i.va (vtypeW i.ty) e) (v.opB i (vtypeW i.ty) e)
  | none => (toBits (fi (vtypeW i.ty) (signed (v.elem i.va (vtypeW i.ty) e) (vtypeW i.ty))
      (signed (v.opB i (vtypeW i.ty) e) (vtypeW i.ty))) (vtypeW i.ty), 0)

theorem State.elementStep_of_binary {s : State} {pos : PosNo} {c : Instr} {op : Nat} {ff : FFmt → Nat → Nat → Nat × Nat}
    {model : Nat → Nat → Nat → Nat} {fi : Nat → Int → Int → Int}
    (hc : exec c s = .next (s.upd fun b => b.vecAlu pos op (Vec.binary ff model))) (hint : Vec.IntOp model fi) :
    s.ElementStep pos c op (Vec.byType ff fi) := by
  refine State.elementStep_of_lanewise hc (fun i v => rfl) fun v i e => ?_
  unfold Vec.byType
  cases (vtype i.ty).bind EFmt.float? with
  | some g => exact ⟨rfl, rfl⟩
  | none => exact ⟨by simp only [hint i.ty _ _ (v.elem_lt _ _ _) (v.opB_lt _ _ _)], rfl⟩

/-- An operation on one element is one on two that does not look at the second. -/
theorem Vec.unary_eq_binary (ff : FFmt → Nat → Nat × Nat) (model : Nat → Nat → Nat) :
    Vec.unary ff model = Vec.binary (fun g a _ => ff g a) fun w a _ => model w a := rfl

theorem State.elementStep_of_unary {s : State} {pos : PosNo} {c : Instr} {op : Nat} {ff : FFmt → Nat → Nat × Nat}
    {model : Nat → Nat → Nat} {fi : Nat → Int → Int → Int} (hc : exec c s = .next (s.upd fun b => b.vecAlu pos op (Vec.unary ff model)))
    (hint : Vec.IntOp (fun w a _ => model w a) fi) : s.ElementStep pos c op (Vec.byType (fun g a _ => ff g a) fi) :=
  State.elementStep_of_binary (by rw [hc, Vec.unary_eq_binary]) hint

/-! ### Integer operations -/

theorem Vec.intOp_of_modEq {model : Nat → Nat → Nat → Nat} {fi : Nat → Int → Int → Int}
    (h : ∀ t a b, a < 2 ^ vtypeW t → b < 2 ^ vtypeW t →
      fi (vtypeW t) (signed a (vtypeW t)) (signed b (vtypeW t)) ≡ (model (vtypeW t) a b : Int) [ZMOD (2 ^ vtypeW t : Nat)]) :
    Vec.IntOp model fi := fun t a b ha hb => (toBits_of_modEq (h t a b ha hb)).symm

theorem Vec.intOp_add : Vec.IntOp (fun _ a b => a + b) fun _ a b => a + b :=
  Vec.intOp_of_modEq fun t a b _ _ => by
    push_cast
    exact (signed_modEq a _).add (signed_modEq b _)

theorem Vec.intOp_sub : Vec.IntOp (fun w a b => a + 2 ^ w - b % 2 ^ w) fun _ a b => a - b :=
  Vec.intOp_of_modEq fun t a b _ hb => by
    have hle : b % 2 ^ vtypeW t ≤ a + 2 ^ vtypeW t := (Nat.mod_lt _ (Nat.two_pow_pos _)).le.trans (Nat.le_add_left _ _)
    rw [Nat.mod_eq_of_lt hb] at hle ⊢
    rw [Int.ofNat_sub hle]
    have h := ((signed_modEq a (vtypeW t)).sub (signed_modEq b (vtypeW t))).trans (Int.add_modEq_right (a := (a : Int) - b)).symm
    rwa [Int.natCast_add, add_sub_right_comm]

theorem Vec.intOp_mul : Vec.IntOp (fun _ a b => a * b) fun _ a b => a * b :=
  Vec.intOp_of_modEq fun t a b _ _ => by
    push_cast
    exact (signed_modEq a _).mul (signed_modEq b _)

theorem Vec.intOp_left : Vec.IntOp (fun _ a _ => a) fun _ a _ => a :=
  Vec.intOp_of_modEq fun _ a _ _ _ => signed_modEq a _

theorem Vec.intOp_right : Vec.IntOp (fun _ _ b => b) fun _ _ b => b :=
  Vec.intOp_of_modEq fun _ _ b _ _ => signed_modEq b _

theorem Vec.intOp_min : Vec.IntOp (fun w a b => if (decide (signed a w < signed b w)) != false then a else b) fun _ a b => min a b :=
  Vec.intOp_of_modEq fun t a b _ _ => by
    by_cases h : signed a (vtypeW t) < signed b (vtypeW t)
    · simpa [h, min_eq_left h.le] using signed_modEq a _
    · simpa [h, min_eq_right (not_lt.mp h)] using signed_modEq b _

theorem Vec.intOp_max : Vec.IntOp (fun w a b => if (decide (signed a w < signed b w)) != true then a else b) fun _ a b => max a b :=
  Vec.intOp_of_modEq fun t a b _ _ => by
    by_cases h : signed a (vtypeW t) < signed b (vtypeW t)
    · simpa [h, max_eq_right h.le] using signed_modEq b _
    · simpa [h, max_eq_left (not_lt.mp h)] using signed_modEq a _

/-- 2^w less a number is its negative. -/
theorem neg_signed_modEq {a w : Nat} (ha : a < 2 ^ w) : -signed a w ≡ ((2 ^ w - a % 2 ^ w : Nat) : Int) [ZMOD (2 ^ w : Nat)] := by
  rw [Nat.mod_eq_of_lt ha, Int.ofNat_sub ha.le, sub_eq_add_neg]
  exact (signed_modEq a w).neg.trans Int.add_modEq_left.symm

theorem Vec.intOp_neg : Vec.IntOp (fun w a _ => 2 ^ w - a % 2 ^ w) fun _ a _ => -a :=
  Vec.intOp_of_modEq fun _ _ _ ha _ => neg_signed_modEq ha

theorem Vec.intOp_abs : Vec.IntOp (fun w a _ => if signed a w < 0 then 2 ^ w - a % 2 ^ w else a) fun _ a _ => a.natAbs :=
  Vec.intOp_of_modEq fun t a _ ha _ => by
    by_cases h : signed a (vtypeW t) < 0
    · rw [if_pos h, Int.ofNat_natAbs_of_nonpos h.le]
      exact neg_signed_modEq ha
    · rw [if_neg h, Int.natAbs_of_nonneg (not_lt.mp h)]
      exact signed_modEq a _

/-! ### Shifts -/

theorem vtypeW_dvd (t : Nat) : vtypeW t ∣ 2 ^ vtypeW t := by
  unfold vtypeW
  split <;> decide

/-- The power of two that a shift amount stands for. -/
theorem shift_eq (t b : Nat) :
    (2 : Int) ^ (signed b (vtypeW t) % (vtypeW t : Int)).toNat = ((2 ^ (b % vtypeW t) : Nat) : Int) := by
  rw [signed_emod_of_dvd (vtypeW_dvd t), Int.toNat_natCast, Nat.cast_pow, Nat.cast_ofNat]

theorem Vec.intOp_shl : Vec.IntOp (fun w a b => a <<< (b % w)) fun w a b => a * 2 ^ (b % (w : Int)).toNat :=
  Vec.intOp_of_modEq fun t a b _ _ => by
    rw [shift_eq, Nat.shiftLeft_eq, Int.natCast_mul]
    exact (signed_modEq a _).mul_right _

theorem Vec.intOp_shr : Vec.IntOp (fun w a b => a >>> (b % w)) fun w a b => a % 2 ^ w / 2 ^ (b % (w : Int)).toNat :=
  Vec.intOp_of_modEq fun t a b ha _ => by
    have hlow : signed a (vtypeW t) % 2 ^ vtypeW t = (a : Int) := by
      have h := signed_emod a (vtypeW t)
      rwa [Nat.mod_eq_of_lt ha, Nat.cast_pow, Nat.cast_ofNat] at h
    rw [shift_eq, hlow, Nat.shiftRight_eq_div_pow, Int.natCast_div]

theorem Vec.intOp_sra :
    Vec.IntOp (fun w a b => toBits (signed a w / (2 ^ (b % w) : Nat)) w) fun w a b => a / 2 ^ (b % (w : Int)).toNat :=
  fun t a b _ _ => by
    simp only [shift_eq]
    exact Nat.mod_eq_of_lt (by
      have h : (2 ^ vtypeW t : Nat) ≠ 0 := (Nat.two_pow_pos _).ne'
      have hlt := Int.emod_lt_of_pos (signed a (vtypeW t) / (2 ^ (b % vtypeW t) : Nat)) (Int.natCast_pos.mpr (Nat.two_pow_pos (vtypeW t)))
      rw [toBits]
      omega)

/-- Settles O19: each instruction is element-wise, and its integer operation is the signed one modulo 2^w. -/
theorem vectorArithmetic : Obligations.VectorArithmetic := by
  intro s pos two fused shift
  have htwo : two = Vec.byType := rfl
  clear_value two
  subst htwo
  exact ⟨State.elementStep_of_binary (exec_add pos s) Vec.intOp_add,
    State.elementStep_of_binary (exec_sub pos s) Vec.intOp_sub, State.elementStep_of_binary (exec_mul pos s) Vec.intOp_mul,
    State.elementStep_of_lanewise (exec_fma pos s) (fun _ _ => rfl) fun _ _ _ => ⟨rfl, rfl⟩,
    State.elementStep_of_lanewise (exec_fnma pos s) (fun _ _ => rfl) fun _ _ _ => ⟨rfl, rfl⟩,
    State.elementStep_of_binary (exec_min pos s) Vec.intOp_min, State.elementStep_of_binary (exec_max pos s) Vec.intOp_max,
    State.elementStep_of_unary (exec_abs pos s) Vec.intOp_abs, State.elementStep_of_unary (exec_exp2 pos s) Vec.intOp_left,
    State.elementStep_of_unary (exec_log2 pos s) Vec.intOp_left, State.elementStep_of_unary (exec_rcp pos s) Vec.intOp_left,
    State.elementStep_of_unary (exec_rsqrt pos s) Vec.intOp_left, State.elementStep_of_binary (exec_shl pos s) Vec.intOp_shl,
    State.elementStep_of_binary (exec_shr pos s) Vec.intOp_shr, State.elementStep_of_binary (exec_sra pos s) Vec.intOp_sra,
    State.elementStep_of_unary (exec_neg pos s) Vec.intOp_neg, State.elementStep_of_binary (exec_mov pos s) Vec.intOp_right⟩

end Sys2Proof.Machine
end

section
/-! SUPPORT. A kernel's scalar registers, and the instructions whose destination is one of them (R112, R114, R118, R123, R131,
R134). -/

namespace Sys2Proof.Machine

/-! ### Scalar registers -/

theorem VecState.xreg_setX (v : VecState) (k n j : Nat) :
    (v.setX k n).xreg j = if j = 0 then 0 else if j = k then n % 2 ^ 64 else v.xreg j := by
  unfold VecState.setX VecState.xreg
  by_cases hj : j = 0
  · simp [hj]
  · by_cases hk : k = 0
    · simp [hk, hj]
    · simp only [hk, hj, if_false, SMap.get_put]
      split <;> simp

/-- A write of a scalar register changes the scalar registers alone. -/
theorem VecState.setX_rest (v : VecState) (k n : Nat) : v.setX k n = { v with x := (v.setX k n).x } := by
  unfold VecState.setX
  split <;> rfl

/-! ### Scalar instructions -/

/-- An instruction that writes xd over the registers of `g`, which have the scalar registers as they were, is a scalar step. -/
theorem State.scalarStep_of_setX {s : State} {pos : PosNo} {c : Instr} {op : Nat} {F : VInstr → VecState → VecState}
    {f : VecState → VInstr → Nat} {g : VecState → VInstr → VecState} (hc : exec c s = .next (s.upd fun b => b.vecAlu pos op F))
    (hx : ∀ v i, (g v i).x = v.x)
    (hF : ∀ v i, v.legal i = true → i.op = op → ∃ n, F i v = (g v i).setX i.xd n ∧ n % 2 ^ 64 = f v i % 2 ^ 64) :
    s.ScalarStep pos c op f g := by
  intro r hk
  have hk' := hk
  obtain ⟨-, hop, hlegal, -⟩ := hk'
  obtain ⟨n, hset, hn⟩ := hF _ _ hlegal hop
  refine yields_of_vecAlu hc hk fun t ht hvec => ?_
  rw [hset] at hvec
  refine ⟨ht, fun k => ?_, ?_⟩
  · rw [hvec]
    refine (VecState.xreg_setX _ _ _ k).trans ?_
    rw [hn, VecState.xreg, hx, ← VecState.xreg]
  · rw [hvec, VecState.setX_rest]
    rfl

/-! ### Values modulo 2^64 -/

theorem VInstr.ext64_modEq (i : VInstr) : (i.ext64 : Int) ≡ signed i.ext 32 [ZMOD (2 ^ 64 : Nat)] := by
  have hnn : 0 ≤ signed i.ext 32 % (2 ^ 64 : Nat) := Int.emod_nonneg _ (by decide)
  rw [VInstr.ext64, toBits, Int.toNat_of_nonneg hnn]
  exact Int.mod_modEq _ _

/-- The second operand of a scalar operation, as the signed number that EXT spells or the register's value. -/
theorem VecState.scalarB_modEq (v : VecState) (i : VInstr) :
    (v.scalarB i : Int) ≡ (if i.imm then signed i.ext 32 else v.xreg i.xb) [ZMOD (2 ^ 64 : Nat)] := by
  unfold VecState.scalarB
  split
  · exact i.ext64_modEq
  · exact .refl _

theorem VecState.scalarB_lt (v : VecState) (i : VInstr) : v.scalarB i < 2 ^ 64 := by
  have hext : i.ext64 < 2 ^ 64 := by
    rw [VInstr.ext64, toBits]
    omega
  have hreg : v.xreg i.xb < 2 ^ 64 := by
    unfold VecState.xreg
    split
    · decide
    · exact BitVec.isLt _
  unfold VecState.scalarB
  split <;> assumption

/-- A natural number congruent to an integer modulo 2^64 has its low bits. -/
theorem mod_eq_toBits_mod {n : Nat} {x : Int} (h : (n : Int) ≡ x [ZMOD (2 ^ 64 : Nat)]) : n % 2 ^ 64 = toBits x 64 % 2 ^ 64 := by
  rw [toBits_of_modEq h.symm, Nat.mod_mod]

/-! ### XFROMV (R131) -/

theorem isFP_eq_not_isINT {t : Nat} (h : t < 6) : isFP t = !isINT t := by
  unfold isFP isINT
  by_cases h3 : t < 3
  · simp [h3, Nat.not_le.mpr h3]
  · simp [h3, Nat.not_lt.mp h3, h]

theorem VecState.ty_lt_of_xfromv {v : VecState} {i : VInstr} (hlegal : v.legal i = true) (hop : i.op = 0x48) : i.ty < 6 := by
  simpa [VecState.legal, hop] using hlegal

/-- XFROMV writes xd; an element at or beyond N reads zero and sets PERM_OOB. -/
theorem Vec.xfromv_eq (i : VInstr) (v : VecState) :
    let w := vtypeW i.ty
    let inside : Prop := bits i.ext 0 10 < v.count w
    let a := v.elem i.va w (bits i.ext 0 10)
    Vec.xfromv i v = (if inside then v else { v with flags := v.flags ||| Flag.PERM_OOB }).setX i.xd
      (if inside then (if isFP i.ty then a else toBits (signed a w) 64) else 0) := by
  unfold Vec.xfromv
  by_cases h : bits i.ext 0 10 < v.count (vtypeW i.ty)
  · simp only [h, if_true]
  · simp only [h, if_false]
    unfold VecState.setX
    split <;> rfl

/-- Settles O21: each instruction writes xd, over registers of which SETVL, RDFLG and XFROMV alone change another. -/
theorem scalarInstructions : Obligations.ScalarInstructions := by
  intro s pos same second len n k
  refine ⟨?_, ?_, ?_, ?_, ?_, ?_, ?_, ?_, ?_, ?_, ?_, ?_, ?_⟩
  · refine State.scalarStep_of_setX (exec_setvl pos s) (fun _ _ => rfl) fun v i _ _ => ⟨len v i, ?_, rfl⟩
    show { v.setX i.xd (len v i) with vl := len v i, vew := vtypeW i.ty } = _
    unfold VecState.setX
    split <;> rfl
  · exact State.scalarStep_of_setX (exec_sli pos s) (fun _ _ => rfl) fun v i _ _ => ⟨_, rfl, rfl⟩
  · exact State.scalarStep_of_setX (exec_slih pos s) (fun _ _ => rfl) fun v i _ _ => ⟨_, rfl, rfl⟩
  · refine State.scalarStep_of_setX (exec_sadd pos s) (fun _ _ => rfl) fun v i _ _ => ⟨_, rfl, mod_eq_toBits_mod ?_⟩
    rw [Int.natCast_add]
    exact (v.scalarB_modEq i).add_left _
  · refine State.scalarStep_of_setX (exec_ssub pos s) (fun _ _ => rfl) fun v i _ _ => ⟨_, rfl, mod_eq_toBits_mod ?_⟩
    rw [Int.natCast_add, Int.ofNat_sub (v.scalarB_lt i).le, add_sub_left_comm]
    exact Int.add_modEq_left.trans ((v.scalarB_modEq i).sub_left _)
  · refine State.scalarStep_of_setX (exec_smul pos s) (fun _ _ => rfl) fun v i _ _ => ⟨_, rfl, mod_eq_toBits_mod ?_⟩
    rw [Int.natCast_mul]
    exact (v.scalarB_modEq i).mul_left _
  · exact State.scalarStep_of_setX (exec_sarg pos s) (fun _ _ => rfl) fun v i _ _ => ⟨_, rfl, rfl⟩
  · refine State.scalarStep_of_setX (exec_rdflg pos s) (fun _ _ => rfl) fun v i _ _ => ⟨v.flags, ?_, rfl⟩
    unfold Vec.rdflg VecState.setX
    cases bit i.ext 0 <;> split <;> rfl
  · exact State.scalarStep_of_setX (exec_mpopc pos s) (fun _ _ => rfl) fun v i _ _ => ⟨_, rfl, rfl⟩
  · exact State.scalarStep_of_setX (exec_mfirst pos s) (fun _ _ => rfl) fun v i _ _ => ⟨_, rfl, rfl⟩
  · refine State.scalarStep_of_setX (exec_xfromv pos s) (fun v i => by split <;> rfl) fun v i hlegal hop =>
      ⟨_, Vec.xfromv_eq i v, ?_⟩
    rw [isFP_eq_not_isINT (VecState.ty_lt_of_xfromv hlegal hop)]
    cases isINT i.ty <;> rfl
  · intro r hk
    refine yields_of_vecAlu (exec_nop pos s) hk fun t ht hvec => ⟨ht, ?_⟩
    rw [hvec, VecState.retired_of_ready hk.1]
  · intro r hk
    refine yields_of_vecAlu (exec_setseed pos s) hk fun t ht hvec => ⟨ht, ?_⟩
    rw [hvec, VecState.retired_of_ready hk.1]
    rfl

end Sys2Proof.Machine
end

section
/-! SUPPORT. A state in which a statement about moves between elements fails: VL beyond the elements of a register. -/

namespace Sys2Proof.Machine

/-- Elements past the register's 8,192 bits read zero. -/
theorem VecState.elem_of_past (v : VecState) (k : Nat) {w e : Nat} (h : 8192 ≤ w * e) : v.elem k w e = 0 := by
  have hlt : v.vreg k < 2 ^ (w * e) := (v.vreg_lt k).trans_le (Nat.pow_le_pow_right (by decide) h)
  rw [VecState.elem, bits, Nat.shiftRight_eq_div_pow, Nat.div_eq_of_lt hlt, Nat.zero_mod]

/-- Position 0 runs EXPAND v1, v2 of type INT32 under m0 (its word has TYPE 3, VD 1 and VA 2). VL is 512 of width 32, where a
register has 256 elements (R113) and SETVL would not go (R114); m0 has bit 300 alone, and element 0 of v2 is 1. -/
@[irreducible] def expandPast : State := State.reset.upd fun b => b.setVec 0 { VecState.idle with
  v := [(2, 1)], m := [(0, BitVec.ofNat 1024 (2 ^ 300))], vl := 512
  imem := [(0, BitVec.ofNat 64 (0x46 + 3 * 2 ^ 7 + 1 * 2 ^ 10 + 2 * 2 ^ 15))]
  run := some ⟨⟨0, 0, 0, 0, 0, 0, []⟩, false, 0, 20, 2, 0, false, false⟩ }

theorem expandPast_meets :
    let v := expandPast.blk.vec 0
    let i := v.instr
    expandPast.blk.KernelAt 0 0x46 ⟨⟨0, 0, 0, 0, 0, 0, []⟩, false, 0, 20, 2, 0, false, false⟩ ∧
      ((List.range (v.count (vtypeW i.ty))).filter fun e => (v.mreg i.msk).testBit e)[0]? = some 300 ∧
      8192 ≤ vtypeW i.ty * 300 ∧ v.elem i.va (vtypeW i.ty) 0 = 1 := by
  unfold Block.KernelAt
  decide +kernel

/-- Refutes O20: the statement does not bound VL, nor EXPAND's destinations by the register's elements; where VL is past them,
the first element read goes to one that is not there and reads zero. -/
theorem not_vectorMovesAndMasks : ¬ Obligations.VectorMovesAndMasks := by
  intro h
  obtain ⟨hk, hfirst, hpast, hone⟩ := expandPast_meets
  obtain ⟨-, -, -, -, -, -, -, hexpand, -⟩ := h.1 expandPast 0
  obtain ⟨t, -, -, -, -, hmoved, -⟩ := hexpand _ hk
  have hzero := VecState.elem_of_past (t.blk.vec 0) (expandPast.blk.vec 0).instr.vd hpast
  exact absurd (hzero.symm.trans ((hmoved 0 300 hfirst).trans hone)) (by decide)

end Sys2Proof.Machine
end

section
/-! SUPPORT. A state in which a statement about a kernel's loads and stores fails: a kernel that ends after its store (R139). -/

namespace Sys2Proof.Machine

/-- The run of a kernel of slice 0 that stalls on a store, and is to end once the store completes (R139). -/
def endingRun : VRun := ⟨⟨0, 0, 0, 0, 0, 0, []⟩, false, 0, 20, 2, 0, true, true⟩

/-- Position 0 runs VST v0 of type INT8 to the shelf's first byte (its word has TYPE 5, MEN and MFMT 8); m0 has bit 0 alone. Slice 0,
which has been told to end its work, may write all memory. -/
@[irreducible] def storeEnding : State := State.reset.upd fun b =>
  ([(Reg.SL_STATUS.STATE 0, Slice.OPEN), (Reg.SL_FW_WIN08.SIZE 0 0, 2 ^ 28 - 1), (Reg.SL_FW_WIN08.VALID 0 0, 1),
      (Reg.SL_FW_WIN08.W 0 0, 1)].foldl (fun b f => b.wr f.1 f.2) b).setVec 0 { VecState.idle with
    v := [(0, 7)], m := [(0, 1)], imem := [(0, BitVec.ofNat 64 (0x14 + 5 * 2 ^ 7 + 2 ^ 28 + 8 * 2 ^ 56))], run := some endingRun }

theorem storeEnding_meets :
    let b := storeEnding.blk
    let v := b.vec 0
    let x := b.vecStore 0 endingRun v v.instr
    b.ext.need = [] ∧ v.run = some endingRun ∧ v.instr.op = 0x14 ∧ x.fail = none ∧ v.pc + 1 < endingRun.instrCount ∧
      x.b.ext.need = [] ∧ x.b.shelfByte 0 = 7 := by
  decide +kernel

/-- Its store completes, and with it the kernel ends. -/
theorem storeEnding_ends {t : State} (h : exec (.vectorAccessComplete 0) storeEnding = .next t) : (t.blk.vec 0).run = none := by
  cases h
  decide +kernel

/-- Refutes O23: the statement leaves out the kernel that is to end, after its slice's reset or freeze, once the store it has issued
completes (R139); the store's access completing then ends it, where the statement has its instruction retire. -/
theorem not_vectorMemory : ¬ Obligations.VectorMemory := by
  intro h
  obtain ⟨hidle, hrun, hop, hfail, hnext, hneed, -⟩ := storeEnding_meets
  obtain ⟨-, hdone⟩ := h storeEnding 0 hidle endingRun hrun rfl (.vst 0) 0x14 Block.vecStore (by simp) (.vectorAccessComplete 0)
    (.inr ⟨rfl, rfl⟩) hop nofun
  obtain ⟨t, ht, hvec, -⟩ := (hdone _ rfl hfail hnext).1 hneed
  have hnone := storeEnding_ends ht
  rw [show t.blk.vec 0 = _ from hvec] at hnone
  cases hnone

end Sys2Proof.Machine
end

section
/-! SUPPORT. The end of a kernel (R137, R138), and the instructions that branch or end it (R117). -/

namespace Sys2Proof.Machine

/-! ### Steps of one position -/

/-- `c` differs from `b` in one position and in registers alone. -/
structure Block.PosFrame (b c : Block) (p : Nat) : Prop where
  rest : c = { b with regs := c.regs, pos := c.pos }
  others : ∀ p', p' ≠ p → c.posState p' = b.posState p'

section
variable {b c : Block} {p : Nat}

theorem Block.PosFrame.refl (b : Block) (p : Nat) : b.PosFrame b p := ⟨rfl, fun _ _ => rfl⟩

theorem Block.PosFrame.trans {d : Block} (h : b.PosFrame c p) (k : c.PosFrame d p) : b.PosFrame d p where
  rest := by rw [k.rest, h.rest]
  others p' hp := (k.others p' hp).trans (h.others p' hp)

theorem Block.PosFrame.wr (h : b.PosFrame c p) (f : Fld) (n : Nat) : b.PosFrame (c.wr f n) p where
  rest := by rw [h.rest]; rfl
  others := h.others

theorem Block.PosFrame.modPos (h : b.PosFrame c p) (f : PosState → PosState) : b.PosFrame (c.modPos p f) p where
  rest := by rw [h.rest]; rfl
  others p' hp := (Block.posState_setPos_of_ne _ _ hp).trans (h.others p' hp)

theorem Block.PosFrame.queue (h : b.PosFrame c p) (k : Nat) : c.queue k = b.queue k := by rw [h.rest]; rfl

theorem Block.PosFrame.engineStep (h : b.PosFrame c p) : b.EngineStep c := by rw [Block.EngineStep, h.rest]

end

theorem Block.posState_modPos_same (b : Block) (p : Nat) (f : PosState → PosState) : (b.modPos p f).posState p = f (b.posState p) :=
  Block.posState_setPos_same _ _ _

/-! ### Steps of one kernel -/

/-- `c` differs from `b` in one position's kernel and in the fields `fs`. -/
structure Block.VecFrame (b c : Block) (p : Nat) (fs : List Fld) : Prop extends b.PosFrame c p where
  own : c.posState p = { b.posState p with vec := c.vec p }
  fields : b.FieldsKept c fs

section
variable {b c d : Block} {p : Nat} {fs : List Fld}

theorem Block.VecFrame.refl (b : Block) (p : Nat) (fs : List Fld) : b.VecFrame b p fs := ⟨.refl b p, rfl, .refl b fs⟩

theorem Block.VecFrame.trans (h : b.VecFrame c p fs) (k : c.VecFrame d p fs) : b.VecFrame d p fs where
  toPosFrame := h.toPosFrame.trans k.toPosFrame
  own := by rw [k.own, h.own]
  fields := h.fields.trans k.fields

theorem Block.VecFrame.mono {gs : List Fld} (h : b.VecFrame c p fs) (hsub : ∀ f ∈ fs, f ∈ gs) : b.VecFrame c p gs :=
  { h with fields := h.fields.mono hsub }

theorem Block.VecFrame.wr (h : b.VecFrame c p fs) (f : Fld) (n : Nat) (hf : f ∈ fs) : b.VecFrame (c.wr f n) p fs where
  toPosFrame := h.toPosFrame.wr f n
  own := h.own
  fields := h.fields.wr f n hf

theorem Block.VecFrame.setVec (h : b.VecFrame c p fs) (v : VecState) : b.VecFrame (c.setVec p v) p fs where
  toPosFrame := h.toPosFrame.modPos _
  own := by rw [Block.posState_setVec_same, Block.vec_setVec_same, h.own]
  fields := h.fields.of_regs rfl

theorem Block.VecFrame.unitQ (h : b.VecFrame c p fs) : (c.posState p).unitQ = (b.posState p).unitQ := by rw [h.own]

end

/-! ### The unit -/

/-- With nothing waiting, the unit takes nothing. -/
theorem Block.unitNext_of_empty {b : Block} {p : Nat} (h : (b.posState p).unitQ = []) : b.unitNext p = b := by
  simp [Block.unitNext, h]

/-- The fields that show a kernel's end. -/
def Fld.vecFree (p : Nat) : List Fld :=
  [Reg.VE_STATUS.BUSY p, Reg.VE_STATUS.LOADING p, Reg.VE_FLAGS.FLAGS p, Reg.VE_BUSY_CYCLES.COUNT p]

section
variable {b : Block} {p : Nat} {r : VRun} (hrun : (b.vec p).run = some r)
include hrun

/-- The registers go before the fields show it; within R134 no kernel has run, and FLAGS stays. -/
theorem Block.vecFree_eq : b.vecFree p =
    let c := ((b.setVec p (b.vec p).discard).wr (Reg.VE_STATUS.BUSY p) 0).wr (Reg.VE_STATUS.LOADING p) 0
    (if r.loading then c else c.wr (Reg.VE_FLAGS.FLAGS p) (b.vec p).flags).count (Reg.VE_BUSY_CYCLES.COUNT p) (b.now - r.start) := by
  unfold Block.vecFree
  simp only [hrun]
  split <;> rfl

/-- What follows the two status fields. -/
theorem Block.vecFree_after_status :
    (((b.setVec p (b.vec p).discard).wr (Reg.VE_STATUS.BUSY p) 0).wr (Reg.VE_STATUS.LOADING p) 0).FieldFrame (b.vecFree p)
      [Reg.VE_FLAGS.FLAGS p, Reg.VE_BUSY_CYCLES.COUNT p] := by
  rw [Block.vecFree_eq hrun]
  refine Block.FieldFrame.wr ?_ _ _ (by simp)
  split
  · exact .refl _ _
  · exact (Block.FieldFrame.refl _ _).wr _ _ (by simp)

theorem Block.vecFree_frame : b.VecFrame (b.vecFree p) p (Fld.vecFree p) := by
  rw [Block.vecFree_eq hrun]
  have hstatus := (((Block.VecFrame.refl b p (Fld.vecFree p)).setVec (b.vec p).discard).wr (Reg.VE_STATUS.BUSY p) 0
    (by simp [Fld.vecFree])).wr (Reg.VE_STATUS.LOADING p) 0 (by simp [Fld.vecFree])
  refine Block.VecFrame.wr ?_ _ _ (by simp [Fld.vecFree])
  split
  · exact hstatus
  · exact hstatus.wr _ _ (by simp [Fld.vecFree])

theorem Block.vec_vecFree : (b.vecFree p).vec p = (b.vec p).discard := by
  have hpos : (b.vecFree p).pos = (b.setVec p (b.vec p).discard).pos := by rw [(Block.vecFree_after_status hrun).rest]; rfl
  rw [Block.vec_of_pos_eq hpos, Block.vec_setVec_same]

theorem Block.vecFree_status :
    (b.vecFree p).rd (Reg.VE_STATUS.BUSY p) = 0 ∧ (b.vecFree p).rd (Reg.VE_STATUS.LOADING p) = 0 := by
  have hbusy : (Reg.VE_STATUS.BUSY p).lo + (Reg.VE_STATUS.BUSY p).w ≤ 64 := show 0 + 1 ≤ 64 by decide
  have hload : (Reg.VE_STATUS.LOADING p).lo + (Reg.VE_STATUS.LOADING p).w ≤ 64 := show 1 + 1 ≤ 64 by decide
  have hkept := (Block.vecFree_after_status hrun).fields
  rw [hkept _ hbusy (by simp [Fld.Apart, Reg.VE_STATUS.BUSY, Reg.VE_FLAGS.FLAGS, Reg.VE_BUSY_CYCLES.COUNT]),
    hkept _ hload (by simp [Fld.Apart, Reg.VE_STATUS.LOADING, Reg.VE_FLAGS.FLAGS, Reg.VE_BUSY_CYCLES.COUNT]),
    Block.rd_wr_same _ _ _ hload,
    Block.rd_wr_of_disjoint _ _ _ _ hbusy (.inr (.inl (by simp [Reg.VE_STATUS.BUSY, Reg.VE_STATUS.LOADING]))),
    Block.rd_wr_same _ _ _ hbusy]
  exact ⟨Nat.zero_mod _, Nat.zero_mod _⟩

end

/-! ### The error log -/

/-- The fields of VE_ERR_LOG and VE_ERR_ADDR. -/
def Fld.vecLog (p : Nat) : List Fld :=
  [Reg.VE_ERR_LOG.STATUS p, Reg.VE_ERR_LOG.SLICE p, Reg.VE_ERR_LOG.PC p, Reg.VE_ERR_ADDR.PTR p, Reg.VE_ERR_LOG.VALID p,
    Reg.VE_ERR_LOG.OVERFLOW p]

section
variable (b : Block) (p slice st pc ptr : Nat)

theorem Block.vecLog_frame : b.FieldFrame (b.vecLog p slice st pc ptr) (Fld.vecLog p) := by
  have hin : ∀ g ∈ Fld.vecLog p, g ∈ Fld.vecLog p := fun _ => id
  simp only [Fld.vecLog, List.forall_mem_cons] at hin
  obtain ⟨hst, hslice, hpc, hptr, hvalid, hover, -⟩ := hin
  unfold Block.vecLog
  split
  · exact (Block.FieldFrame.refl _ _).wr _ _ hover
  · exact (((((Block.FieldFrame.refl _ _).wr _ _ hst).wr _ _ hslice).wr _ _ hpc).wr _ _ hptr).wr _ _ hvalid

/-- An empty log takes the end's status. -/
theorem Block.vecLog_first (h : b.rd (Reg.VE_ERR_LOG.VALID p) = 0) :
    (b.vecLog p slice st pc ptr).rd (Reg.VE_ERR_LOG.VALID p) = 1 ∧
      (b.vecLog p slice st pc ptr).rd (Reg.VE_ERR_LOG.STATUS p) = st % 65536 := by
  have hvalid : (Reg.VE_ERR_LOG.VALID p).lo + (Reg.VE_ERR_LOG.VALID p).w ≤ 64 := show 42 + 1 ≤ 64 by decide
  have hstatus : (Reg.VE_ERR_LOG.STATUS p).lo + (Reg.VE_ERR_LOG.STATUS p).w ≤ 64 := show 0 + 16 ≤ 64 by decide
  have hempty : b.is (Reg.VE_ERR_LOG.VALID p) = false := by rw [Block.is_eq, h]; rfl
  simp only [Block.vecLog, hempty, Bool.false_eq_true, if_false]
  refine ⟨Block.rd_wr_same _ _ _ hvalid, ?_⟩
  rw [Block.rd_wr_of_disjoint _ (Reg.VE_ERR_LOG.VALID p) _ _ hstatus (.inr (.inl (by simp [Reg.VE_ERR_LOG.STATUS, Reg.VE_ERR_LOG.VALID]))),
    Block.rd_wr_of_off_ne _ (Reg.VE_ERR_ADDR.PTR p) _ _ (by simp [Reg.VE_ERR_LOG.STATUS, Reg.VE_ERR_ADDR.PTR]),
    Block.rd_wr_of_disjoint _ (Reg.VE_ERR_LOG.PC p) _ _ hstatus (.inr (.inl (by simp [Reg.VE_ERR_LOG.STATUS, Reg.VE_ERR_LOG.PC]))),
    Block.rd_wr_of_disjoint _ (Reg.VE_ERR_LOG.SLICE p) _ _ hstatus (.inr (.inl (by simp [Reg.VE_ERR_LOG.STATUS, Reg.VE_ERR_LOG.SLICE])))]
  exact Block.rd_wr_same _ _ _ hstatus

end

/-! ### The report (R137) -/

/-- The report of a command gives it its result. -/
theorem Block.reportCmd_reported {b : Block} {j : Job} {st cnt : Nat} : b.Reported (b.reportCmd j.queue j.id st cnt) j st cnt := by
  refine ⟨?_, fun k hk => SMap.get_put_of_ne _ _ _ hk⟩
  rw [Block.reportCmd, Block.queue_setQueue_same]
  simp only [Option.isNone_iff_eq_none]

/-- The block as a kernel's end has been logged, if it is an early one. -/
def Block.vecLogged (b : Block) (p : Nat) (r : VRun) (st ptr : Nat) : Block :=
  if st = Code.SUCCESS then b else b.vecLog p r.job.slice st (b.vec p).pc ptr

theorem Block.vecLogged_frame (b : Block) (p : Nat) (r : VRun) (st ptr : Nat) : b.FieldFrame (b.vecLogged p r st ptr) (Fld.vecLog p) := by
  unfold Block.vecLogged
  split
  · exact .refl _ _
  · exact b.vecLog_frame ..

theorem Block.FieldFrame.vecFrame {b c : Block} {fs : List Fld} (h : b.FieldFrame c fs) (p : Nat) : b.VecFrame c p fs where
  rest := by rw [h.rest]
  others _ _ := by rw [h.rest]; rfl
  own := by rw [h.rest]; rfl
  fields := h.fields

theorem Block.FieldFrame.vec {b c : Block} {fs : List Fld} (h : b.FieldFrame c fs) (p : Nat) : c.vec p = b.vec p := by
  rw [h.rest]; rfl

section
variable {b : Block} {p : Nat} {r : VRun} {st cnt ptr : Nat} (hrun : (b.vec p).run = some r)
include hrun

/-- The kernel goes, its log filled, before its command has its result. -/
theorem Block.vecGone_frame : b.VecFrame ((b.vecLogged p r st ptr).vecFree p) p (Fld.vecLog p ++ Fld.vecFree p) := by
  have hlog := b.vecLogged_frame p r st ptr
  have hfree := Block.vecFree_frame (b := b.vecLogged p r st ptr) (p := p) (by rw [hlog.vec]; exact hrun)
  exact ((hlog.vecFrame p).mono fun _ => List.mem_append_left _).trans (hfree.mono fun _ => List.mem_append_right _)

/-- With no command waiting for the unit, the report is all that follows a kernel. -/
theorem Block.vecReport_of_empty (hq : (b.posState p).unitQ = []) :
    b.vecReport p r st cnt ptr = ((b.vecLogged p r st ptr).vecFree p).reportCmd r.job.queue r.job.id st cnt := by
  refine Block.unitNext_of_empty ?_
  rw [Block.posState_of_pos_eq (Block.reportCmd_pos _ _ _ _ _)]
  exact (Block.vecGone_frame hrun).unitQ.trans hq

theorem Block.vecReport_ext (hq : (b.posState p).unitQ = []) : (b.vecReport p r st cnt ptr).ext = b.ext := by
  rw [Block.vecReport_of_empty hrun hq, Block.reportCmd_ext, (Block.vecGone_frame hrun).rest]

end

/-- A kernel whose end is reported has ended. -/
theorem State.kernelEnds_of_vecReport {s : State} {a b t : Block} {pos st cnt ptr : Nat} {r : VRun} {fs : List Fld}
    (ha : s.blk.ButExt a) (hb : a.VecFrame b pos fs)
    (hvalid : b.rd (Reg.VE_ERR_LOG.VALID pos) = a.rd (Reg.VE_ERR_LOG.VALID pos))
    (hrun : (b.vec pos).run = some r) (hsame : (b.vec pos).discard = (a.vec pos).discard)
    (hq : (a.posState pos).unitQ = []) (ht : (b.vecReport pos r st cnt ptr).ButExt t) :
    s.KernelEnds { s with blk := t } pos r st cnt := by
  rw [Block.vecReport_of_empty hrun (hb.unitQ.trans hq)] at ht
  have hlog := b.vecLogged_frame pos r st ptr
  have hrun' : ((b.vecLogged pos r st ptr).vec pos).run = some r := by rw [hlog.vec]; exact hrun
  have hgone := Block.vecGone_frame (st := st) (ptr := ptr) hrun
  generalize hc : (b.vecLogged pos r st ptr).vecFree pos = c at ht hgone
  have hpos : t.pos = c.pos := ht.pos.trans (Block.reportCmd_pos _ _ _ _ _)
  have hregs : t.regs = c.regs := ht.regs.trans (Block.reportCmd_regs _ _ _ _ _)
  have hrd (f : Fld) : t.rd f = c.rd f := by rw [Block.rd, hregs, Block.rd]
  have hvec : t.vec pos = (s.blk.vec pos).discard := by
    rw [Block.vec_of_pos_eq hpos, ← hc, Block.vec_vecFree hrun', hlog.vec, hsame, Block.vec_of_pos_eq ha.pos]
  obtain ⟨hbusy, hload⟩ := Block.vecFree_status hrun'
  rw [hc] at hbusy hload
  refine ⟨hvec, (hrd _).trans hbusy, (hrd _).trans hload, ⟨?_, fun k hk => ?_⟩, ?_, fun p hp => ?_, fun hst hempty => ?_, ?_⟩
  · rw [ht.queue, Block.reportCmd_reported.1, hgone.queue, hb.queue, ha.queue]
  · rw [ht.queue, Block.reportCmd_reported.2 k hk, hgone.queue, hb.queue, ha.queue]
  · show t.posState pos = { s.blk.posState pos with vec := t.vec pos }
    rw [Block.posState_of_pos_eq hpos, hgone.own, hb.own, ha.posState, Block.vec_of_pos_eq hpos]
  · exact (Block.posState_of_pos_eq hpos p).trans ((hgone.others p hp).trans ((hb.others p hp).trans (ha.posState p)))
  · have hlogged := b.vecLog_first pos r.job.slice st (b.vec pos).pc ptr (hvalid.trans ((ha.rd _).trans hempty))
    have hkept := (Block.vecFree_frame hrun').fields
    rw [hc, Block.vecLogged, if_neg hst] at hkept
    have happart (f : Fld) (hoff : f.off = 0x2020040 + 0x100000 * pos) : ∀ g ∈ Fld.vecFree pos, f.Apart g := by
      simp [Fld.vecFree, Fld.Apart, hoff, Reg.VE_STATUS.BUSY, Reg.VE_STATUS.LOADING, Reg.VE_FLAGS.FLAGS, Reg.VE_BUSY_CYCLES.COUNT]
    refine ⟨((hrd _).trans (hkept _ ?_ (happart _ rfl))).trans hlogged.1, ((hrd _).trans (hkept _ ?_ (happart _ rfl))).trans hlogged.2⟩
    · exact (by decide : 42 + 1 ≤ 64)
    · exact (by decide : 0 + 16 ≤ 64)
  · refine congrArg (fun b : Block => { s with blk := b }) ?_
    rw [ht, Block.reportCmd, hgone.rest, hb.rest, ha]
    rfl

end Sys2Proof.Machine
end

section
/-! SUPPORT. JMP, DBNZ, END, FORBIDDEN_INSTRUCTION and VEXEC_TIMEOUT (R117, R137, R138). -/

namespace Sys2Proof.Machine

theorem VecState.legal_of_control {v : VecState} {i : VInstr} (h : i.op = 0x01 ∨ i.op = 0x02 ∨ i.op = 0x03) : v.legal i = true := by
  rcases h with h | h | h <;> simp [VecState.legal, h]

/-- The kernel of `pos`, of run `r`, has gone on at `target` with registers `v`, and nothing changes but its position and fields. -/
def State.JumpsTo (s t : State) (pos : PosNo) (r : VRun) (v : VecState) (target : Nat) : Prop :=
  t.blk.vec pos = { v with pc := target, run := some { r with retired := r.retired + 1 } } ∧
    (∀ p : PosNo, p ≠ pos → t.blk.posState p = s.blk.posState p) ∧
    t = { s with blk := { s.blk with regs := t.blk.regs, pos := t.blk.pos } }

section
variable {s : State} {pos : PosNo} {r : VRun} (hready : (s.blk.vec pos).ready = some r)
include hready

/-- What an instruction's own row yields. -/
theorem yields_of_vecAt {c : Instr} {op : Nat} {f : Block → VRun → VecState → VInstr → Block} {p : State → Prop}
    (hc : exec c s = .next (s.upd fun b => b.vecAt pos op f)) (hop : (s.blk.vec pos).instr.op = op)
    (hlegal : (s.blk.vec pos).legal (s.blk.vec pos).instr = true)
    (hp : p { s with blk := f s.blk r (s.blk.vec pos) (s.blk.vec pos).instr }) : Yields c s p :=
  ⟨_, hc, by rw [State.upd, Block.vecAt_of_ready hready hop hlegal]; exact hp⟩

section
variable (hq : (s.blk.posState pos).unitQ = [])
include hq

/-- An early end at an instruction reports the count of R137. -/
theorem State.kernelEnds_of_vecFail (st ptr : Nat) :
    s.KernelEnds { s with blk := s.blk.vecFail pos r st ptr } pos r st ((s.blk.vec pos).countOf r.retired) := by
  obtain ⟨hrun, -, -⟩ := VecState.ready_eq_some.mp hready
  have ha : s.blk.ButExt { s.blk with ext := { s.blk.ext with need := [] } } := rfl
  exact State.kernelEnds_of_vecReport ha (.refl _ pos []) rfl hrun rfl hq rfl

/-- END counts as retired. -/
theorem State.kernelEnds_of_end :
    let cnt := (s.blk.vec pos).countOf (r.retired + 1)
    s.KernelEnds { s with blk := (s.blk.count (Reg.VE_RETIRED.COUNT pos) 1).vecReport pos r Code.SUCCESS cnt 0 } pos r Code.SUCCESS
      cnt := by
  obtain ⟨hrun, -, -⟩ := VecState.ready_eq_some.mp hready
  have hb := (Block.VecFrame.refl s.blk pos [Reg.VE_RETIRED.COUNT pos]).wr (Reg.VE_RETIRED.COUNT pos)
    (satAdd 64 (s.blk.rd (Reg.VE_RETIRED.COUNT pos)) 1) List.mem_cons_self
  exact State.kernelEnds_of_vecReport (show s.blk.ButExt s.blk from rfl) hb
    (Block.rd_wr_of_off_ne _ _ _ _ (by simp [Reg.VE_RETIRED.COUNT, Reg.VE_ERR_LOG.VALID])) hrun rfl hq rfl

end

/-- A branch within the image goes to its target. -/
theorem State.jumpsTo_of_vecJump {target : Nat} (v : VecState) (h : target < r.instrCount) :
    s.JumpsTo { s with blk := s.blk.vecJump pos r v target } pos r v target := by
  rw [Block.vecJump, if_neg (Nat.not_le.mpr h)]
  exact ⟨(Block.vec_vecRetire v h).trans (VecState.retired_of_ready hready v target),
    fun p hp => Block.posState_vecRetire_of_ne v h (Fin.val_ne_of_ne hp),
    congrArg (fun b : Block => { s with blk := b }) (Block.vecRetire_rest v h)⟩

/-! ### DBNZ -/

section
variable (hop : (s.blk.vec pos).instr.op = 0x03) (hx : (s.blk.vec pos).instr.xa ≠ 0)
include hop hx

/-- DBNZ counts its register down, and branches while it is not 0. -/
theorem yields_of_dbnz {p : State → Prop}
    (hp : let v := s.blk.vec pos
      let next := (v.xreg v.instr.xa + (2 ^ 64 - 1)) % 2 ^ 64
      p { s with blk := if next ≠ 0 then s.blk.vecJump pos r (v.setX v.instr.xa next) (bits v.instr.ext 0 14)
        else s.blk.vecRetire pos r (v.setX v.instr.xa next) (v.pc + 1) }) : Yields (.dbnz pos) s p := by
  refine yields_of_vecAt hready (exec_dbnz pos s) hop (VecState.legal_of_control (.inr (.inr hop))) ?_
  have hset (v : VecState) (k n : Nat) : v.setX k (n % 2 ^ 64) = v.setX k n := by
    rw [VecState.setX, VecState.setX, show BitVec.ofNat 64 (n % 2 ^ 64) = BitVec.ofNat 64 n from
      BitVec.eq_of_toNat_eq (by simp only [BitVec.toNat_ofNat, Nat.mod_mod])]
  dsimp only
  rw [VecState.xreg_setX, if_neg hx, if_pos rfl]
  simpa only [hset] using hp

theorem dbnz_branches (hnext : ((s.blk.vec pos).xreg (s.blk.vec pos).instr.xa + (2 ^ 64 - 1)) % 2 ^ 64 ≠ 0)
    (hin : bits (s.blk.vec pos).instr.ext 0 14 < r.instrCount) : Yields (.dbnz pos) s fun t =>
      let v := s.blk.vec pos
      s.JumpsTo t pos r (v.setX v.instr.xa ((v.xreg v.instr.xa + (2 ^ 64 - 1)) % 2 ^ 64)) (bits v.instr.ext 0 14) := by
  refine yields_of_dbnz hready hop hx ?_
  dsimp only
  rw [if_pos hnext]
  exact State.jumpsTo_of_vecJump hready _ hin

theorem dbnz_goes_on (hnext : ((s.blk.vec pos).xreg (s.blk.vec pos).instr.xa + (2 ^ 64 - 1)) % 2 ^ 64 = 0)
    (hin : (s.blk.vec pos).pc + 1 < r.instrCount) : Yields (.dbnz pos) s fun t =>
      (t.blk.vec pos).xreg (s.blk.vec pos).instr.xa = 0 ∧ s.Retires t pos r := by
  refine yields_of_dbnz hready hop hx ?_
  dsimp only
  rw [if_neg (not_not.mpr hnext), hnext]
  refine ⟨?_, State.retires_of_vecRetire _ hready hin⟩
  rw [Block.vec_vecRetire _ hin]
  exact (VecState.xreg_setX _ _ _ _).trans (by rw [if_neg hx, if_pos rfl, Nat.zero_mod])

end

/-! ### JMP, END and early ends -/

theorem jmp_branches (hop : (s.blk.vec pos).instr.op = 0x02) (hin : bits (s.blk.vec pos).instr.ext 0 14 < r.instrCount) :
    Yields (.jmp pos) s fun t => s.JumpsTo t pos r (s.blk.vec pos) (bits (s.blk.vec pos).instr.ext 0 14) :=
  yields_of_vecAt hready (exec_jmp pos s) hop (VecState.legal_of_control (.inr (.inl hop)))
    (State.jumpsTo_of_vecJump hready (s.blk.vec pos) hin)

section
variable (hq : (s.blk.posState pos).unitQ = [])
include hq

theorem jmp_ends (hop : (s.blk.vec pos).instr.op = 0x02) (hout : r.instrCount ≤ bits (s.blk.vec pos).instr.ext 0 14) :
    Yields (.jmp pos) s fun t => s.KernelEnds t pos r Code.VEXEC_PC_RANGE ((s.blk.vec pos).countOf r.retired) := by
  refine yields_of_vecAt hready (exec_jmp pos s) hop (VecState.legal_of_control (.inr (.inl hop))) ?_
  rw [Block.vecJump, if_pos hout]
  exact State.kernelEnds_of_vecFail hready hq _ _

theorem endKernel_ends (hop : (s.blk.vec pos).instr.op = 0x01) : Yields (.endKernel pos) s fun t =>
    s.KernelEnds t pos r Code.SUCCESS ((s.blk.vec pos).countOf (r.retired + 1)) :=
  yields_of_vecAt hready (exec_endKernel pos s) hop (VecState.legal_of_control (.inl hop)) (State.kernelEnds_of_end hready hq)

theorem forbiddenInstruction_ends (hbad : (s.blk.vec pos).legal (s.blk.vec pos).instr = false) :
    Yields (.forbiddenInstruction pos) s fun t =>
      s.KernelEnds t pos r Code.VEXEC_BAD_INSTR ((s.blk.vec pos).countOf r.retired) := by
  refine ⟨_, exec_forbiddenInstruction pos s, ?_⟩
  simp only [State.upd, hready, hbad, Bool.false_eq_true, if_false]
  exact State.kernelEnds_of_vecFail hready hq _ _

theorem vexecTimeout_ends : Yields (.vexecTimeout pos) s fun t =>
    s.KernelEnds t pos r Code.VEXEC_TIMEOUT ((s.blk.vec pos).countOf r.retired) := by
  refine ⟨_, exec_vexecTimeout pos s, ?_⟩
  simp only [State.upd, hready]
  exact State.kernelEnds_of_vecFail hready hq _ _

end

end

end Sys2Proof.Machine
end

section
/-! SUPPORT. VEXEC and REDUCE at issue (R134, R145): a checked command takes the free unit. -/

namespace Sys2Proof.Machine

/-! ### The unit takes a command -/

/-- The unit's position as the command `j` has been queued and taken. -/
def Block.unitTaken (b : Block) (p : Nat) (j : Job) : Block :=
  (b.modPos p fun s => { s with unitQ := s.unitQ ++ [j] }).modPos p fun s => { s with unitQ := s.unitQ.erase j, lastQ := j.queue }

theorem Block.unitTaken_frame (b : Block) (p : Nat) (j : Job) : b.PosFrame (b.unitTaken p j) p :=
  ((Block.PosFrame.refl b p).modPos _).modPos _

/-- A command issued to a unit that is free and has no other waiting starts. -/
theorem Block.unitIssue_of_free {b : Block} {p : Nat} {j : Job} (hq : (b.posState p).unitQ = []) (hrun : (b.vec p).run = none)
    (hred : (b.posState p).red = none) : b.unitIssue p j = (b.unitTaken p j).unitStart p j := by
  have hrun' : (b.posState p).vec.run = none := hrun
  simp [Block.unitIssue, Block.unitNext, Block.unitTaken, Block.posState_modPos_same, hq, hrun', hred]

section
variable (b : Block) (p : Nat) {j : Job}

theorem Block.unitStart_frame : b.PosFrame (b.unitStart p j) p := by
  unfold Block.unitStart
  split
  · exact (((((Block.PosFrame.refl b p).modPos _).wr _ _).wr _ _).wr _ _).wr _ _
  · exact ((((Block.PosFrame.refl b p).modPos _).wr _ _).wr _ _).wr _ _

section
variable (hop : j.opcode = 0x02)
include hop

theorem Block.unitStart_vexec : b.unitStart p j =
    ((((b.setVec p { b.vec p with run := some ⟨j, true, b.now, b.rd (Reg.VE_CFG.MAX_CYCLES_LOG2 p), 0, 0, false, false⟩ }).wr
      (Reg.VE_STATUS.BUSY p) 1).wr (Reg.VE_STATUS.LOADING p) 1).wr (Reg.VE_STATUS.SLICE p) j.slice).wr (Reg.VE_STATUS.PC p) 0 :=
  if_pos hop

theorem Block.run_unitStart_vexec : ((b.unitStart p j).vec p).run =
    some ⟨j, true, b.now, b.rd (Reg.VE_CFG.MAX_CYCLES_LOG2 p), 0, 0, false, false⟩ := by
  simp only [Block.unitStart_vexec b p hop, Block.vec_wr, Block.vec_setVec_same]

theorem Block.status_unitStart_vexec :
    (b.unitStart p j).rd (Reg.VE_STATUS.BUSY p) = 1 ∧ (b.unitStart p j).rd (Reg.VE_STATUS.LOADING p) = 1 := by
  have hbusy : (Reg.VE_STATUS.BUSY p).lo + (Reg.VE_STATUS.BUSY p).w ≤ 64 := show 0 + 1 ≤ 64 by decide
  have hload : (Reg.VE_STATUS.LOADING p).lo + (Reg.VE_STATUS.LOADING p).w ≤ 64 := show 1 + 1 ≤ 64 by decide
  have hafter (c : Block) (f : Fld) (n : Nat) (hf : f.lo + f.w ≤ 64) (hlow : f.lo + f.w ≤ 16) :
      ((c.wr (Reg.VE_STATUS.SLICE p) n).wr (Reg.VE_STATUS.PC p) 0).rd f = c.rd f := by
    rw [Block.rd_wr_of_disjoint _ _ _ _ hf (.inr (.inl (hlow.trans (by decide : 16 ≤ 32)))),
      Block.rd_wr_of_disjoint _ _ _ _ hf (.inr (.inl hlow))]
  rw [Block.unitStart_vexec b p hop, hafter _ _ _ hbusy (by decide : 0 + 1 ≤ 16), hafter _ _ _ hload (by decide : 1 + 1 ≤ 16),
    Block.rd_wr_of_disjoint _ (Reg.VE_STATUS.LOADING p) _ _ hbusy (.inr (.inl (by decide : 0 + 1 ≤ 1)))]
  exact ⟨Block.rd_wr_same _ _ _ hbusy, Block.rd_wr_same _ _ _ hload⟩

end

section
variable (hop : j.opcode = 0x03)
include hop

theorem Block.unitStart_reduce : ∃ acc, b.unitStart p j =
    (((b.modPos p fun s => { s with red := some ⟨j, 0, 0, acc, 0⟩ }).wr (Reg.RD_STATUS.REDUCE_BUSY p) 1).wr (Reg.RD_STATUS.SLICE p)
      j.slice).wr (Reg.RD_STATUS.ROWS p) 0 :=
  ⟨_, if_neg (by rw [hop]; decide)⟩

theorem Block.red_unitStart_reduce : ∃ acc, ((b.unitStart p j).posState p).red = some ⟨j, 0, 0, acc, 0⟩ := by
  obtain ⟨acc, heq⟩ := Block.unitStart_reduce b p hop
  exact ⟨acc, by simp only [heq, Block.posState_wr, Block.posState_modPos_same]⟩

theorem Block.busy_unitStart_reduce : (b.unitStart p j).rd (Reg.RD_STATUS.REDUCE_BUSY p) = 1 := by
  have hbusy : (Reg.RD_STATUS.REDUCE_BUSY p).lo + (Reg.RD_STATUS.REDUCE_BUSY p).w ≤ 64 := show 0 + 1 ≤ 64 by decide
  obtain ⟨acc, heq⟩ := Block.unitStart_reduce b p hop
  rw [heq, Block.rd_wr_of_disjoint _ (Reg.RD_STATUS.ROWS p) _ _ hbusy (.inr (.inl (by decide : 0 + 1 ≤ 32))),
    Block.rd_wr_of_disjoint _ (Reg.RD_STATUS.SLICE p) _ _ hbusy (.inr (.inl (by decide : 0 + 1 ≤ 16)))]
  exact Block.rd_wr_same _ _ _ hbusy

end

end

/-! ### Issue -/

/-- The next command of a queue has been issued to its position's unit as job `j`; no other position and no other queue changes. -/
def State.UnitIssued (s t : State) (slice : SliceNo) (cls : ClassNo) (cmd : FCmd) (j : Job) : Prop :=
  j.slice = slice.val ∧ j.queue = 4 * slice.val + cls.val ∧ j.id = (s.blk.q slice cls).nextId ∧ j.words = cmd.words ∧
    ((t.blk.q slice cls).inflight.map fun r => r.cmd) = [cmd] ∧ s.blk.QueuesKept t.blk slice cls ∧
    (∀ p, p ≠ cmd.pos → t.blk.posState p = s.blk.posState p) ∧
    t = { s with blk := { s.blk with regs := t.blk.regs, queues := t.blk.queues, pos := t.blk.pos, ext := t.blk.ext } }

/-- The registers below the queues' are none that issue writes. -/
theorem Fld.apart_qIssue {g : Fld} (s c : Nat) (h : g.off < 0xd000000) : ∀ f ∈ Fld.qIssue s c, g.Apart f := by
  have habove : ∀ f ∈ Fld.qIssue s c, 0xd000000 ≤ f.off := by
    simp only [Fld.qIssue, Fld.qCounts, Reg.SL_Q_STATUS.ENSIGN_CLAMP, Reg.SL_Q_STATUS.STATE, Reg.SL_Q_STATUS.INFLIGHT,
      Reg.SL_Q_STATUS.DEPTH, List.mem_cons, List.not_mem_nil, or_false, forall_eq_or_imp, forall_eq, and_self]
    omega
  exact fun f hf => .inl (h.trans_le (habove f hf)).ne

section
variable {s : State} {slice : SliceNo} {cls : ClassNo} {cmd : FCmd} {op : Nat} (hready : s.blk.Ready slice cls cmd op)
  (hq : (s.blk.posState cmd.pos).unitQ = []) (hrun : (s.blk.vec cmd.pos).run = none) (hred : (s.blk.posState cmd.pos).red = none)
include hready hq hrun hred

/-- A checked command issued to a free unit starts there. -/
theorem yields_of_unitIssue {c : Instr} {is' : Nat → Bool} {chk : Block → FCmd → CmdCheck} {p : State → Prop}
    (hc : exec c s = .next (s.upd fun b => b.settle fun b => b.issueNext slice cls is' chk fun b cmd id =>
      b.unitIssue cmd.pos (b.mkJob slice cls cmd id)))
    (his : is' op = true) (hcheck : Hoist.check cls cmd (chk s.blk cmd) = none)
    (hp : ∀ (b t : Block) (j : Job), j.opcode = op → s.UnitIssued { s with blk := t } slice cls cmd j →
      t.pos = (b.unitStart cmd.pos j).pos →
      (∀ g : Fld, g.lo + g.w ≤ 64 → g.off < 0xd000000 → t.rd g = (b.unitStart cmd.pos j).rd g) → p { s with blk := t }) :
    Yields c s p := by
  obtain ⟨hfront, hop, -, -, hmay, hidle, -, hneed⟩ := hready
  have hissue := Block.issueNext_of_passes (run := fun b cmd id => b.unitIssue cmd.pos (b.mkJob slice cls cmd id)) hfront
    (hop.symm ▸ his) hmay hcheck
  obtain ⟨rec, hrec, hinflight⟩ := s.blk.takeFront_inflight slice cls cmd
  have htake := s.blk.takeFront_frame slice cls cmd
  have hpos := s.blk.takeFront_pos slice cls cmd
  generalize s.blk.takeFront slice cls cmd = b₁ at hissue hinflight htake hpos
  have hjob : (b₁.mkJob slice cls cmd (s.blk.q slice cls).nextId).opcode = op := hop
  rw [Block.unitIssue_of_free (by rw [Block.posState_of_pos_eq hpos]; exact hq) (by rw [Block.vec_of_pos_eq hpos]; exact hrun)
    (by rw [Block.posState_of_pos_eq hpos]; exact hred)] at hissue
  generalize hj : b₁.mkJob slice cls cmd (s.blk.q slice cls).nextId = j at hissue hjob
  have hunit := (b₁.unitTaken_frame cmd.pos j).trans ((b₁.unitTaken cmd.pos j).unitStart_frame cmd.pos (j := j))
  generalize hb₂ : (b₁.unitTaken cmd.pos j).unitStart cmd.pos j = b₂ at hissue hunit
  have hend := b₂.endReplay_frame slice cls
  have hstep := (htake.engineStep.trans hunit.engineStep).trans hend.engineStep
  have hq₂ : (b₂.q slice cls).inflight = [rec] := by
    rw [Block.q, hunit.queue]
    exact hinflight.trans (by rw [hidle, List.nil_append])
  refine yields_of_settle ⟨_, hc, hissue⟩ (by rw [hstep.ext]; exact hneed) fun t ht => ?_
  have htpos : t.pos = b₂.pos := ht.pos.trans (b₂.endReplay_pos slice cls)
  refine hp (b₁.unitTaken cmd.pos j) t j hjob ?_ (by rw [hb₂]; exact htpos) fun g hg hlow => ?_
  · refine ⟨by rw [← hj]; rfl, by rw [← hj]; rfl, by rw [← hj]; rfl, by rw [← hj]; rfl, ?_, fun k hk => ?_, fun p' hp' => ?_, ?_⟩
    · show ((t.q slice cls).inflight.map fun r => r.cmd) = [cmd]
      rw [Block.q, ht.queue, ← Block.q, b₂.endReplay_inflight slice cls (by simp [hq₂]), hq₂, List.map_singleton, hrec]
    · exact (ht.queue k).trans ((hend.queues k hk).trans ((hunit.queue k).trans (htake.queues k hk)))
    · exact (Block.posState_of_pos_eq htpos p').trans ((hunit.others p' hp').trans (Block.posState_of_pos_eq hpos p'))
    · exact congrArg (fun b : Block => { s with blk := b }) (hstep.rest_of_butExt ht)
  · rw [hb₂, ht.rd, hend.fields g hg (Fld.apart_qIssue slice cls hlow)]

end

/-- The registers of every position's engines lie below the queues'. -/
theorem FCmd.off_lt (cmd : FCmd) {o : Nat} (h : o < 0x3000000) : o + 0x100000 * cmd.pos < 0xd000000 := by
  have := cmd.pos_lt
  omega

section
variable {s : State} {slice : SliceNo} {cls : ClassNo} {cmd : FCmd} (hq : (s.blk.posState cmd.pos).unitQ = [])
  (hrun : (s.blk.vec cmd.pos).run = none) (hred : (s.blk.posState cmd.pos).red = none)
include hq hrun hred

theorem vexec_takes_unit (hready : s.blk.Ready slice cls cmd 0x02)
    (hcheck : Hoist.check cls cmd (s.blk.vexecCheck slice cmd) = none) : Yields (.vexec slice cls) s fun t =>
      t.blk.rd (Reg.VE_STATUS.BUSY cmd.pos) = 1 ∧ t.blk.rd (Reg.VE_STATUS.LOADING cmd.pos) = 1 ∧
      ∃ r, (t.blk.vec cmd.pos).run = some r ∧ s.UnitIssued t slice cls cmd r.job ∧ r.loading = true ∧ r.retired = 0 := by
  refine yields_of_unitIssue hready hq hrun hred (exec_vexec slice cls s) (decide_eq_true rfl) hcheck fun b t j hop hissued hpos hrd => ?_
  obtain ⟨hbusy, hload⟩ := b.status_unitStart_vexec cmd.pos hop
  have hrun := (congrArg VecState.run (Block.vec_of_pos_eq hpos cmd.pos)).trans (b.run_unitStart_vexec cmd.pos hop)
  refine ⟨(hrd _ ?_ (cmd.off_lt (by decide))).trans hbusy, (hrd _ ?_ (cmd.off_lt (by decide))).trans hload, _, hrun, hissued, rfl, rfl⟩
  · exact (by decide : 0 + 1 ≤ 64)
  · exact (by decide : 1 + 1 ≤ 64)

theorem reduce_takes_unit (hready : s.blk.Ready slice cls cmd 0x03)
    (hcheck : Hoist.check cls cmd (s.blk.reduceCheck slice cmd) = none) : Yields (.reduce slice cls) s fun t =>
      t.blk.rd (Reg.RD_STATUS.REDUCE_BUSY cmd.pos) = 1 ∧
      ∃ r, (t.blk.posState cmd.pos).red = some r ∧ s.UnitIssued t slice cls cmd r.job ∧ r.row = 0 ∧ r.col = 0 := by
  refine yields_of_unitIssue hready hq hrun hred (exec_reduce slice cls s) (decide_eq_true rfl) hcheck fun b t j hop hissued hpos hrd => ?_
  obtain ⟨acc, hacc⟩ := b.red_unitStart_reduce cmd.pos hop
  have hred := (congrArg PosState.red (Block.posState_of_pos_eq hpos cmd.pos)).trans hacc
  refine ⟨(hrd _ ?_ (cmd.off_lt (by decide))).trans (b.busy_unitStart_reduce cmd.pos hop), _, hred, hissued, rfl, rfl⟩
  exact (by decide : 0 + 1 ≤ 64)

end

end Sys2Proof.Machine
end

section
/-! SUPPORT. The memories that a kernel's image and argument block fill (R134). -/

namespace Sys2Proof.Machine

/-! ### Words of a byte list -/

theorem sliceBytes_eq_map (bs : List Byte) (o len : Nat) : sliceBytes bs o len = (List.range len).map fun i => bs.getD (o + i) 0 := by
  apply List.ext_getElem (by simp)
  intro i hi _
  rw [length_sliceBytes] at hi
  by_cases h : o + i < bs.length
  · have hin : i < ((bs.drop o).take len).length := by simp; omega
    simp [sliceBytes, List.getElem_append_left hin, h]
  · have hout : ((bs.drop o).take len).length ≤ i := by simp; omega
    simp [sliceBytes, List.getElem_append_right hout, h]

/-- A part of a part is a part of the whole. -/
theorem sliceBytes_sliceBytes {bs : List Byte} {n o len : Nat} (h : o + len ≤ n) :
    sliceBytes (sliceBytes bs 0 n) o len = sliceBytes bs o len := by
  rw [sliceBytes_eq_map, sliceBytes_eq_map bs o len]
  refine List.map_congr_left fun i hi => ?_
  have hin : o + i < n := by have := List.mem_range.mp hi; omega
  simp [sliceBytes_eq_map, hin]

theorem leAt_lt (bs : List Byte) (o : Nat) : leAt bs o 8 < 2 ^ 64 := by
  have h := leNat_lt (sliceBytes bs o 8)
  rwa [length_sliceBytes] at h

theorem leAt_nil (o : Nat) : leAt [] o 8 = 0 := by
  simp [leAt, sliceBytes, List.replicate, leNat]

/-- A word map holds the words of its bytes. -/
theorem wordMap_get (ds : List Byte) (n k : Nat) :
    (SMap.get (fun _ => 0) (wordMap ds n) k).toNat = if k < n then leAt ds (8 * k) 8 else 0 := by
  have hfold (l : List Nat) : SMap.get (fun _ => 0) (l.foldr (fun i (m : SMap Word) =>
      let w := BitVec.ofNat 64 (leAt ds (8 * i) 8); if w = 0 then m else (i, w) :: m) []) k =
        if k ∈ l then BitVec.ofNat 64 (leAt ds (8 * k) 8) else 0 := by
    induction l with
    | nil => rfl
    | cons i l ih =>
      rw [List.foldr_cons]
      by_cases hk : k = i
      · subst hk
        by_cases hw : BitVec.ofNat 64 (leAt ds (8 * k) 8) = 0
        · simp only [hw, if_true, List.mem_cons_self, ih]
          split <;> rfl
        · simp only [hw, if_false, SMap.get, if_true, List.mem_cons_self]
      · have hmem : k ∈ i :: l ↔ k ∈ l := by simp [hk]
        simp only [hmem]
        split
        · exact ih
        · simpa only [SMap.get, hk, if_false] using ih
  rw [wordMap, hfold]
  simp only [List.mem_range]
  split
  · rw [BitVec.toNat_ofNat, Nat.mod_eq_of_lt (leAt_lt ds _)]
  · rfl

/-! ### x1 to x15 -/

/-- The scalar registers from x1 on, filled from the words of a map. -/
theorem get_argRegs (am : SMap Word) (n k : Nat) :
    SMap.get (fun _ => 0) ((List.range n).foldl (fun (m : SMap Word) i =>
      SMap.put (fun _ => 0) m (i + 1) (SMap.get (fun _ => 0) am i)) []) k =
      if k = 0 ∨ n < k then 0 else SMap.get (fun _ => 0) am (k - 1) := by
  induction n with
  | zero => rw [if_pos (Nat.eq_zero_or_pos k), List.range_zero, List.foldl_nil, SMap.get_nil]
  | succ n ih =>
    rw [List.range_succ, List.foldl_append, List.foldl_cons, List.foldl_nil, SMap.get_put, ih]
    by_cases hk : k = n + 1
    · simp [hk]
    · have hlast : k = 0 ∨ n < k ↔ k = 0 ∨ n + 1 < k := by omega
      simp only [hk, if_false, hlast]

/-- The registers of step 5 of R134: the image stays, x1 to x15 hold the first argument words, and every other is clear. -/
def VecState.begun (v : VecState) (r : VRun) (n : Nat) (args : List Byte) : VecState :=
  let am := wordMap (sliceBytes args 0 1024) 128
  { v.discard with
    amem := am
    x := (List.range 15).foldl (fun m i => SMap.put (fun _ => 0) m (i + 1) (SMap.get (fun _ => 0) am i)) []
    pc := bits (r.job.w 4) 16 16
    run := some { r with loading := false, instrCount := n } }

theorem VecState.clear_begun (v : VecState) (r : VRun) (n : Nat) (args : List Byte) (k : Nat) :
    (v.begun r n args).vreg k = 0 ∧ (v.begun r n args).mreg k = 0 ∧ (v.begun r n args).getAcc k = Acc.cleared := by
  simp [VecState.begun, VecState.discard, VecState.idle, VecState.vreg, VecState.mreg, VecState.getAcc]

theorem VecState.xreg_begun (v : VecState) (r : VRun) (n : Nat) (args : List Byte) (k : Nat) :
    (v.begun r n args).xreg k = if k = 0 ∨ 15 < k then 0 else leAt args (8 * (k - 1)) 8 := by
  by_cases hk : k = 0 ∨ 15 < k
  · rw [if_pos hk, VecState.xreg, VecState.begun, get_argRegs, if_pos hk]
    split <;> rfl
  · have hone : k ≠ 0 := fun h => hk (.inl h)
    have hword : 8 * (k - 1) + 8 ≤ 1024 := by omega
    have hlow : k - 1 < 128 := by omega
    rw [if_neg hk, VecState.xreg, if_neg hone, VecState.begun, get_argRegs, if_neg hk, wordMap_get, if_pos hlow, leAt,
      sliceBytes_sliceBytes hword, ← leAt]

end Sys2Proof.Machine
end

section
/-! SUPPORT. VEXEC_IMAGE_LOADED (R134, R135): the start of a kernel, or its end within R134. -/

namespace Sys2Proof.Machine

/-! ### The start (R134, steps 4 to 6) -/

/-- The block as a kernel starts. -/
def Block.vecBegun (b : Block) (p : Nat) (r : VRun) (n : Nat) (args : List Byte) : Block :=
  (((b.setVec p ((b.vec p).begun r n args)).wr (Reg.VE_STATUS.LOADING p) 0).wr (Reg.VE_FLAGS.FLAGS p) 0).wr (Reg.VE_STATUS.PC p)
    (bits (r.job.w 4) 16 16)

/-- The bytes of the argument block. -/
def Job.argLen (j : Job) : Nat := if j.w 3 = 0 then 0 else bits (j.w 4) 0 11

theorem Block.vecBegin_of_read {b b₂ : Block} {p n : Nat} {r : VRun} {args : List Byte}
    (hread : b.vecImageRead p r (r.job.w 3) r.job.argLen = (b₂, true, args)) (hneed : b₂.ext.need = []) :
    b.vecBegin p r n = b₂.vecBegun p r n args := by
  have hwait : b₂.waiting = false := by simp [Block.waiting, hneed]
  rw [Job.argLen] at hread
  simp only [Block.vecBegin, hread, hwait, Bool.false_eq_true, if_false]
  rfl

theorem Block.vecBegun_frame (b : Block) (p : Nat) (r : VRun) (n : Nat) (args : List Byte) : b.PosFrame (b.vecBegun p r n args) p :=
  ((((Block.PosFrame.refl b p).modPos _).wr _ _).wr _ _).wr _ _

theorem Block.vec_vecBegun (b : Block) (p : Nat) (r : VRun) (n : Nat) (args : List Byte) :
    (b.vecBegun p r n args).vec p = (b.vec p).begun r n args := by
  simp only [Block.vecBegun, Block.vec_wr, Block.vec_setVec_same]

/-- The kernel of `pos` has started at ENTRY with `n` instructions: x1 to x15 are the words of `args`, every other register is zero, and
`t` differs from `b` in no other position and in no memory. -/
def State.KernelStarts (s t : State) (b : Block) (pos : PosNo) (r : VRun) (n : Nat) (args : List Byte) : Prop :=
  (t.blk.vec pos).run = some { r with loading := false, instrCount := n } ∧ (t.blk.vec pos).pc = bits (r.job.w 4) 16 16 ∧
    (∀ k, (t.blk.vec pos).vreg k = 0 ∧ (t.blk.vec pos).mreg k = 0 ∧ (t.blk.vec pos).getAcc k = Acc.cleared) ∧
    (∀ k, (t.blk.vec pos).xreg k = if k = 0 ∨ 15 < k then 0 else leAt args (8 * (k - 1)) 8) ∧
    (t.blk.vec pos).vl = 256 ∧ (t.blk.vec pos).vew = 32 ∧ (t.blk.vec pos).flags = 0 ∧ (t.blk.vec pos).seed = 0 ∧
    (∀ p : PosNo, p ≠ pos → t.blk.posState p = b.posState p) ∧
    t = { s with blk := { b with regs := t.blk.regs, pos := t.blk.pos, ext := t.blk.ext } }

theorem State.kernelStarts_of_vecBegun {s : State} {b b₂ t : Block} {pos : PosNo} {n : Nat} {r : VRun}
    {args : List Byte} (hb : b.PosFrame b₂ pos) (ht : (b₂.vecBegun pos r n args).ButExt t) :
    s.KernelStarts { s with blk := t } b pos r n args := by
  have hvec : t.vec pos = (b₂.vec pos).begun r n args := (Block.vec_of_pos_eq ht.pos pos).trans (b₂.vec_vecBegun pos r n args)
  have hframe := hb.trans (b₂.vecBegun_frame pos r n args)
  refine ⟨by rw [hvec]; rfl, by rw [hvec]; rfl, fun k => by rw [hvec]; exact VecState.clear_begun _ r n args k, fun k => ?_,
    by rw [hvec]; rfl, by rw [hvec]; rfl, by rw [hvec]; rfl, by rw [hvec]; rfl,
    fun p hp => (ht.posState p).trans (hframe.others p (Fin.val_ne_of_ne hp)), ?_⟩
  · rw [hvec]
    exact (b₂.vec pos).xreg_begun r n args k
  · refine congrArg (fun b : Block => { s with blk := b }) ?_
    rw [ht, hframe.rest]

/-! ### The image (R134, steps 1 to 3) -/

/-- The block as an image of `n` instructions has been read. -/
def Block.vecKept (b : Block) (p kp n : Nat) (ds : List Byte) (res : Resident) : Block :=
  ((b.setVec p { b.vec p with imem := wordMap ds n, resident := some res }).wr (Reg.VE_RESIDENT.PTR p) kp).count
    (Reg.VE_IMAGE_LOADS.COUNT p) 1

theorem Block.vecKept_frame (b : Block) (p kp n : Nat) (ds : List Byte) (res : Resident) : b.PosFrame (b.vecKept p kp n ds res) p :=
  (((Block.PosFrame.refl b p).modPos _).wr _ _).wr _ _

theorem Block.vec_vecKept (b : Block) (p kp n : Nat) (ds : List Byte) (res : Resident) :
    (b.vecKept p kp n ds res).vec p = { b.vec p with imem := wordMap ds n, resident := some res } := by
  rw [Block.vecKept, Block.count_eq, Block.vec_wr, Block.vec_wr, Block.vec_setVec_same]

/-- VE_RESIDENT shows the image's pointer as its kernel starts. -/
theorem Block.resident_vecBegun_vecKept (b : Block) (p kp n : Nat) (ds : List Byte) (res : Resident) (r : VRun) (args : List Byte) :
    ((b.vecKept p kp n ds res).vecBegun p r n args).rd (Reg.VE_RESIDENT.PTR p) = kp % 2 ^ 64 := by
  have hfit : (Reg.VE_RESIDENT.PTR p).lo + (Reg.VE_RESIDENT.PTR p).w ≤ 64 := show 0 + 64 ≤ 64 by decide
  have hset (c : Block) (v : VecState) (f : Fld) : (c.setVec p v).rd f = c.rd f := rfl
  rw [Block.vecBegun, Block.rd_wr_of_off_ne _ _ _ _ (by simp [Reg.VE_RESIDENT.PTR, Reg.VE_STATUS.PC]),
    Block.rd_wr_of_off_ne _ _ _ _ (by simp [Reg.VE_RESIDENT.PTR, Reg.VE_FLAGS.FLAGS]),
    Block.rd_wr_of_off_ne _ _ _ _ (by simp [Reg.VE_RESIDENT.PTR, Reg.VE_STATUS.LOADING]), hset, Block.vecKept, Block.count_eq,
    Block.rd_wr_of_off_ne _ _ _ _ (by simp [Reg.VE_RESIDENT.PTR, Reg.VE_IMAGE_LOADS.COUNT])]
  exact Block.rd_wr_same _ _ _ hfit

section
variable {b b₁ : Block} {p n : Nat} {r : VRun} {hd : List Byte} (halign : r.job.w 2 % 64 = 0)
  (hread : b.vecImageRead p r (r.job.w 2) 64 = (b₁, true, hd)) (hneed : b₁.ext.need = []) (hmagic : leAt hd 0 4 = 0x4B565A57)
  (hversion : leAt hd 4 2 = 1) (hn : n = leAt hd 8 4) (hmax : n ≤ 16384) (hentry : bits (r.job.w 4) 16 16 < n)
include halign hread hneed hmagic hversion hn hmax hentry

/-- A good header's image is the resident one, or is read. -/
theorem Block.vecLoadImage_of_header {res : Resident} (hres : res = ⟨r.job.w 2, hd, r.job.slice, r.job.gen, n⟩) :
    ((b₁.vec p).resident = some res → b.vecLoadImage p r = b₁.vecBegin p r n) ∧
    ((b₁.vec p).resident ≠ some res → ∀ ip, Ptr.add (r.job.w 2) 64 = some ip → ∀ b₂ ds,
      b₁.vecImageRead p r ip (8 * n) = (b₂, true, ds) → b₂.ext.need = [] → crc32c ds = leAt hd 12 4 →
      b.vecLoadImage p r = (b₂.vecKept p (r.job.w 2) n ds res).vecBegin p r n) := by
  have hwait : b₁.waiting = false := by simp [Block.waiting, hneed]
  have hgood : ¬(leAt hd 0 4 ≠ 0x4B565A57 ∨ leAt hd 4 2 ≠ 1 ∨ n = 0 ∨ 16384 < n) := by omega
  have hin : ¬n ≤ bits (r.job.w 4) 16 16 := Nat.not_le.mpr hentry
  subst hres
  refine ⟨fun hsame => ?_, fun hother ip hip b₂ ds hds hneed₂ hcrc => ?_⟩
  · simp only [Block.vecLoadImage, halign, ne_eq, not_true_eq_false, if_false, hread, hwait, Bool.false_eq_true, ← hn]
    rw [if_neg hgood, if_neg hin, if_pos hsame]
  · have hwait₂ : b₂.waiting = false := by simp [Block.waiting, hneed₂]
    simp only [Block.vecLoadImage, halign, ne_eq, not_true_eq_false, if_false, hread, hwait, Bool.false_eq_true, ← hn]
    rw [if_neg hgood, if_neg hin, if_neg hother, hip]
    simp only [hds, hwait₂, Bool.false_eq_true, hcrc, not_true_eq_false, if_false]
    rfl

end

/-! ### VEXEC_IMAGE_LOADED -/

section
variable {s : State} {pos : PosNo} {r : VRun} (hrun : (s.blk.vec pos).run = some r) (hload : r.loading = true)
include hrun hload

theorem exec_vexecImageLoaded_of_loading :
    ∃ f, exec (.vexecImageLoaded pos) s = .next (s.upd fun b => b.settle f) ∧ f s.blk = s.blk.vecLoadImage pos r :=
  ⟨_, exec_vexecImageLoaded pos s, by simp only [hrun, hload, if_true]⟩

/-- A pointer out of alignment ends the command with a count of 0. -/
theorem vexecImageLoaded_ends (halign : r.job.w 2 % 64 ≠ 0) (hq : (s.blk.posState pos).unitQ = []) :
    Yields (.vexecImageLoaded pos) s fun t => s.KernelEnds t pos r Code.VEXEC_BAD_IMAGE 0 := by
  obtain ⟨f, hc, hf⟩ := exec_vexecImageLoaded_of_loading hrun hload
  rw [Block.vecLoadImage, if_pos halign, Block.vecLoadFail] at hf
  have ha : s.blk.ButExt { s.blk with ext := { s.blk.ext with need := [] } } := rfl
  generalize hidle : ({ s.blk with ext := { s.blk.ext with need := [] } } : Block) = a at hf ha
  have hb := (Block.VecFrame.refl a pos []).setVec { a.vec pos with pc := 0 }
  have hrun' : ((a.setVec pos { a.vec pos with pc := 0 }).vec pos).run = some r := by
    rw [Block.vec_setVec_same]
    exact (congrArg VecState.run (Block.vec_of_pos_eq ha.pos pos)).trans hrun
  have hq' : (a.posState pos).unitQ = [] := by rw [ha.posState]; exact hq
  have hsame : ((a.setVec pos { a.vec pos with pc := 0 }).vec pos).discard = (a.vec pos).discard := by
    rw [Block.vec_setVec_same]
    rfl
  refine yields_of_settle ⟨f, hc, hf⟩ ?_ fun t ht => State.kernelEnds_of_vecReport ha hb rfl hrun' hsame hq' ht
  rw [Block.vecReport_ext hrun' (hb.unitQ.trans hq'), ← hidle]
  rfl

section
variable (halign : r.job.w 2 % 64 = 0) {b₁ : Block} {hd : List Byte}
  (hread : s.blk.vecImageRead pos r (r.job.w 2) 64 = (b₁, true, hd)) (hneed : b₁.ext.need = []) (hmagic : leAt hd 0 4 = 0x4B565A57)
  (hversion : leAt hd 4 2 = 1) {n : Nat} (hn : n = leAt hd 8 4) (hmax : n ≤ 16384) (hentry : bits (r.job.w 4) 16 16 < n)
  {res : Resident} (hres : res = ⟨r.job.w 2, hd, r.job.slice, r.job.gen, n⟩)
include halign hread hneed hmagic hversion hn hmax hentry hres

/-- A kernel of the resident image starts with its argument block. -/
theorem vexecImageLoaded_starts_resident (hsame : (b₁.vec pos).resident = some res) {b₂ : Block} {args : List Byte}
    (hargs : b₁.vecImageRead pos r (r.job.w 3) r.job.argLen = (b₂, true, args)) (hneed₂ : b₂.ext.need = []) :
    Yields (.vexecImageLoaded pos) s fun t =>
      (t.blk.vec pos).imem = (b₂.vec pos).imem ∧ (t.blk.vec pos).resident = (b₂.vec pos).resident ∧
      s.KernelStarts t b₂ pos r n args := by
  obtain ⟨f, hc, hf⟩ := exec_vexecImageLoaded_of_loading hrun hload
  rw [(Block.vecLoadImage_of_header halign hread hneed hmagic hversion hn hmax hentry hres).1 hsame,
    Block.vecBegin_of_read hargs hneed₂] at hf
  refine yields_of_settle ⟨f, hc, hf⟩ (by rw [(b₂.vecBegun_frame ..).rest]; exact hneed₂) fun t ht => ?_
  have hvec : t.vec pos = (b₂.vec pos).begun r n args := (Block.vec_of_pos_eq ht.pos pos).trans (b₂.vec_vecBegun pos r n args)
  exact ⟨(congrArg VecState.imem hvec).trans rfl, (congrArg VecState.resident hvec).trans rfl, State.kernelStarts_of_vecBegun (.refl _ _) ht⟩

/-- An image that is read with its CRC is kept, and its kernel starts. -/
theorem vexecImageLoaded_starts_read (hother : (b₁.vec pos).resident ≠ some res) {ip : Nat} (hip : Ptr.add (r.job.w 2) 64 = some ip)
    {b₂ : Block} {ds : List Byte} (hds : b₁.vecImageRead pos r ip (8 * n) = (b₂, true, ds)) (hneed₂ : b₂.ext.need = [])
    (hcrc : crc32c ds = leAt hd 12 4) (hargs : r.job.argLen = 0) (hptr : Ptr.check (r.job.w 3) = none) :
    Yields (.vexecImageLoaded pos) s fun t =>
      (∀ k, (SMap.get (fun _ => 0) (t.blk.vec pos).imem k).toNat = if k < n then leAt ds (8 * k) 8 else 0) ∧
      (t.blk.vec pos).resident = some res ∧ t.blk.rd (Reg.VE_RESIDENT.PTR pos) = r.job.w 2 % 2 ^ 64 ∧
      s.KernelStarts t b₂ pos r n [] := by
  obtain ⟨f, hc, hf⟩ := exec_vexecImageLoaded_of_loading hrun hload
  have hkept := b₂.vecKept_frame pos (r.job.w 2) n ds res
  have hnone (b : Block) : b.vecImageRead pos r (r.job.w 3) r.job.argLen = (b, true, []) := by
    simp [Block.vecImageRead, hptr, hargs]
  have hneed₃ : (b₂.vecKept pos (r.job.w 2) n ds res).ext.need = [] := by rw [hkept.rest]; exact hneed₂
  rw [(Block.vecLoadImage_of_header halign hread hneed hmagic hversion hn hmax hentry hres).2 hother ip hip b₂ ds hds hneed₂ hcrc,
    Block.vecBegin_of_read (hnone _) hneed₃] at hf
  refine yields_of_settle ⟨f, hc, hf⟩ (by rw [(Block.vecBegun_frame ..).rest]; exact hneed₃) fun t ht => ?_
  have hvec := (Block.vec_of_pos_eq ht.pos pos).trans (Block.vec_vecBegun _ pos r n [])
  rw [Block.vec_vecKept] at hvec
  exact ⟨fun k => (congrArg (fun v : VecState => (SMap.get (fun _ => 0) v.imem k).toNat) hvec).trans (wordMap_get ds n k),
    congrArg VecState.resident hvec, (ht.rd _).trans (b₂.resident_vecBegun_vecKept ..), State.kernelStarts_of_vecBegun hkept ht⟩

end

end

/-- Settles O22: a kernel that runs branches or ends by its instruction, and a command issued to the free unit starts there; a
VEXEC's kernel starts once its image is resident or read. -/
theorem kernels : Obligations.Kernels := by
  refine ⟨fun s pos r hready hq _ => ⟨jmp_branches hready, jmp_ends hready hq, fun hop hx => dbnz_branches hready hop hx,
    fun hop hx => dbnz_goes_on hready hop hx, endKernel_ends hready hq, forbiddenInstruction_ends hready hq,
    vexecTimeout_ends hready hq⟩, fun s _ => ⟨fun slice cls cmd op hready hq hrun hred => ⟨?_, ?_⟩, fun pos r hrun hload => ⟨?_, ?_⟩⟩⟩
  · rintro rfl hcheck
    exact vexec_takes_unit hq hrun hred hready hcheck
  · rintro rfl hcheck
    exact reduce_takes_unit hq hrun hred hready hcheck
  · exact fun halign hq _ => vexecImageLoaded_ends hrun hload halign hq
  · intro halign b₁ hd hread hneed hmagic hversion n hn hmax hentry
    refine ⟨fun hsame b₂ args hargs hneed₂ _ => ?_, fun hother ip hip b₂ ds hds hneed₂ hcrc hargs hptr _ => ?_⟩
    · exact vexecImageLoaded_starts_resident hrun hload halign hread hneed hmagic hversion hn hmax hentry rfl hsame hargs hneed₂
    · exact vexecImageLoaded_starts_read hrun hload halign hread hneed hmagic hversion hn hmax hentry rfl hother hip hds hneed₂ hcrc
        hargs hptr

end Sys2Proof.Machine
end

section
/-! SUPPORT. A state in which a statement about COLLECT fails: a home whose waits are listed twice. -/

namespace Sys2Proof.Machine

/-- The COLLECT of queue 0 at position 0, in its wait for its children; its member's object is object 0. -/
def waitingColl : CollRun := ⟨⟨0, 0, 0, 0, 0, 0, []⟩, 1000, 0, 0, [], .children, 0⟩

/-- Its wait, not met, at home 0. -/
def waitingCollWait : SyncWait := ⟨0, 5, .collect 0 0 0, 0, 0, false, false⟩

/-- Position 0 runs that COLLECT alone. The waits of home 0 are listed twice: its wait, and, where a lookup does not come, one of
queue 1. -/
@[irreducible] def waitsTwice : State := State.reset.upd fun b =>
  { b.modPos 0 fun p => { p with colls := [waitingColl] } with
    sync := { b.sync with waits := [(0, [waitingCollWait]), (0, [⟨0, 5, .queue 1 0, 0, 0, false, false⟩])] } }

theorem waitsTwice_meets :
    let b := waitsTwice.blk
    b.ext.need = [] ∧ (b.posState 0).colls = [waitingColl] ∧
      b.waitsAt (Sync.homeOf (waitingColl.member waitingColl.self).sync) = [waitingCollWait] := by
  decide +kernel

/-- Refutes O25: the statement does not ask for the canonical form of the map of waits. Where a home is listed twice, COLLECT_TIMEOUT
drops the COLLECT's wait with its whole entry, and the home then holds the waits listed behind it. -/
theorem not_collect : ¬ Obligations.Collect := by
  intro h
  obtain ⟨hneed, hcolls, hwaits⟩ := waitsTwice_meets
  obtain ⟨-, htimeout, -⟩ := (h waitsTwice hneed).2 0 waitingColl hcolls (.inl rfl) waitingCollWait hwaits rfl
  obtain ⟨-, hgone, -⟩ := (htimeout rfl).of_next (exec_collectTimeout _ _ _)
  exact absurd hgone (by decide +kernel)

end Sys2Proof.Machine
end

section
/-! SUPPORT. What an access leaves as it is: the state of every position. -/

namespace Sys2Proof.Machine

/-- A fold that carries a block beside its answer. -/
theorem foldl_pos {α β : Type} (l : List α) (f : Block × β → α → Block × β) (h : ∀ acc a, (f acc a).1.pos = acc.1.pos)
    (b : Block) (x : β) : (l.foldl f (b, x)).1.pos = b.pos := foldl_keeps (fun acc : Block × β => acc.1.pos) l f h (b, x)

section
variable (b : Block)

/-! ### Fields and needs -/

@[simp] theorem Block.wr_foldl_pos (l : List (Fld × Nat)) : (l.foldl (fun acc f => acc.wr f.1 f.2) b).pos = b.pos :=
  foldl_keeps Block.pos l (fun acc f => acc.wr f.1 f.2) (fun _ _ => rfl) b

@[simp] theorem Block.capture_pos (v o : Fld) (l : List (Fld × Nat)) : (b.capture v o l).pos = b.pos := by
  unfold Block.capture
  split <;> simp

@[simp] theorem Block.want_pos (n : Need) : (b.want n).pos = b.pos := by
  unfold Block.want
  split <;> rfl

/-! ### The shelf -/

@[simp] theorem Block.shelfCorrect_pos (word : Nat) (rewrite : Bool) : (b.shelfCorrect word rewrite).pos = b.pos := by
  simp [Block.shelfCorrect, Block.fresh, Block.cePennant]

@[simp] theorem Block.shelfPoisonFound_pos (word : Nat) : (b.shelfPoisonFound word).pos = b.pos := by
  simp [Block.shelfPoisonFound, Block.fresh, Block.pennant, Block.pennantN]

@[simp] theorem Block.shelfCheckWord_pos (r a : Bool) (st : Status) (wa : Nat) : (b.shelfCheckWord r a st wa).1.pos = b.pos := by
  simp only [Block.shelfCheckWord]
  grind [Block.shelfCorrect_pos, Block.shelfPoisonFound_pos]

@[simp] theorem Block.shelfCheck_pos (op : MemOp) (a : Bool) (lo hi : Nat) (st : Status) : (b.shelfCheck op a lo hi st).1.pos = b.pos :=
  foldl_keeps (fun acc : Block × Status => acc.1.pos) _ _ (fun _ _ => Block.shelfCheckWord_pos ..) (b, st)

@[simp] theorem Block.shelfStore_pos (a : Nat) (d : List Byte) : (b.shelfStore a d).pos = b.pos := rfl

@[simp] theorem Block.shelfBeat_pos (q : BankReq) : (b.shelfBeat q).1.pos = b.pos := by
  unfold Block.shelfBeat
  grind [Block.shelfCheck_pos, Block.shelfStore_pos]

@[simp] theorem Block.setBankQueue_pos (lb : Nat) (q : List BankReq) : (b.setBankQueue lb q).pos = b.pos := rfl

@[simp] theorem Block.bankServe_pos (lb : Nat) : (b.bankServe lb).pos = b.pos := by
  unfold Block.bankServe
  grind [Block.shelfBeat_pos, Block.setBankQueue_pos, Block.emit_pos]

theorem Block.bankClear_pos (k : Nat) (lb lo len : Nat) : (Block.bankClear k b lb lo len).pos = b.pos := by
  induction k generalizing b with
  | zero => rfl
  | succ k ih =>
    unfold Block.bankClear
    split
    · rw [ih, Block.bankServe_pos]
    · rfl

@[simp] theorem Block.shelfClear_pos (lo len : Nat) : (b.shelfClear lo len).pos = b.pos :=
  foldl_keeps Block.pos _ _ (fun _ _ => Block.bankClear_pos ..) b

theorem Block.shelfRun_pos (k : Nat) (q : BankReq) : (Block.shelfRun k b q).1.pos = b.pos := by
  induction k generalizing b q with
  | zero => rfl
  | succ k ih =>
    unfold Block.shelfRun
    split
    · rfl
    · rw [ih, Block.shelfBeat_pos]

@[simp] theorem Block.shelfAccess_pos (r : MemReq) : (b.shelfAccess r).1.pos = b.pos := by
  simp [Block.shelfAccess, Block.shelfRun_pos]

/-! ### HBM -/
@[simp] theorem Block.noteRead_pos (x : Nat) (m : Option Nat) : (b.noteRead x m).pos = b.pos := by
  unfold Block.noteRead
  split
  · split <;> rfl
  · rfl

@[simp] theorem Block.noteWrite_pos (x : Nat) (m : Option Nat) : (b.noteWrite x m).pos = b.pos := rfl
@[simp] theorem Block.granPut_pos (p : Place) (g : Gran) : (b.granPut p g).pos = b.pos := rfl
@[simp] theorem Block.setLost_pos (m : Nat) (v : Bool) : (b.setLost m v).pos = b.pos := rfl
@[simp] theorem Block.hbmCount_pos (p : Place) (k : Nat) : (b.hbmCount p k).pos = b.pos := rfl
@[simp] theorem Block.hbmPennant_pos (p : Place) (k x : Nat) : (b.hbmPennant p k x).pos = b.pos := rfl
@[simp] theorem Block.hbmLog_pos (p : Place) (k : Nat) (r : Bool) : (b.hbmLog p k r).pos = b.pos := b.capture_pos ..

@[simp] theorem Block.noteOthers_pos (m : Nat) (p : Place) : (b.noteOthers m p).pos = b.pos :=
  foldl_keeps Block.pos _ _ (fun _ _ => Block.noteRead_pos ..) b

@[simp] theorem Block.takeStackErr_pos (p : Place) : (b.takeStackErr p).1.pos = b.pos := by
  unfold Block.takeStackErr
  grind

@[simp] theorem Block.attempt_pos (p : Place) (x : Nat) (key : Option Nat) : (b.attempt p x key).1.pos = b.pos := by
  unfold Block.attempt
  grind [Block.takeStackErr_pos, Block.hbmCount_pos, Block.dramNote]

@[simp] theorem Block.granRead_pos (prot : Bool) (km : Nat) (key : Option Nat) (x : Nat) :
    (b.granRead prot km key x).1.pos = b.pos := by
  have hlog (c : Block) (p : Place) (k l : Nat) (rec : Bool) : ((c.hbmLog p k rec).hbmPennant p l x).pos = c.pos := c.hbmLog_pos ..
  unfold Block.granRead
  extract_lets p m tagOk poisonOr
  split
  · split
    · rfl
    · split
      · rfl
      · simp only [apply_ite Prod.fst, apply_ite Block.pos, hlog, Block.hbmCount_pos, ite_self]
        exact b.noteOthers_pos m p
  · dsimp only
    split
    · simp only [apply_ite Block.pos, Block.hbmLog_pos, Block.attempt_pos, ite_self]
    · split
      · simp only [apply_ite Block.pos, hlog, Block.hbmCount_pos, Block.attempt_pos, ite_self]
      · split <;>
          simp only [apply_ite Prod.fst, apply_ite Block.pos, hlog, Block.hbmCount_pos, Block.attempt_pos, ite_self,
            Block.noteOthers_pos, Block.granPut_pos, Block.noteWrite_pos]

@[simp] theorem Block.memberPut_pos (m x : Nat) (g : Gran) : (b.memberPut m x g).pos = b.pos := by
  simp only [Block.memberPut, apply_ite Block.pos, Block.noteWrite_pos, Block.granPut_pos, ite_self]

@[simp] theorem Block.granReplace_pos (prot : Bool) (x : Nat) (g : Gran) : (b.granReplace prot x g).1.pos = b.pos := by
  unfold Block.granReplace
  grind [Block.memberPut_pos, Block.setLost_pos, Block.noteOthers_pos, Block.noteRead_pos, Block.granPut_pos, Block.noteWrite_pos]

@[simp] theorem Block.granWrite_pos (prot : Bool) (km key x n : Nat) (f : List Byte → List Byte) (whole : Bool) :
    (b.granWrite prot km key x n f whole).1.pos = b.pos := by
  unfold Block.granWrite
  grind [Block.granReplace_pos, Block.granRead_pos]

@[simp] theorem Block.hbmSetSeals_pos (r : Region) (key i : Nat) (sls : List Nat) : (b.hbmSetSeals r key i sls).1.pos = b.pos := by
  unfold Block.hbmSetSeals
  refine foldl_pos _ _ (fun acc j => ?_) b _
  dsimp only
  rw [Block.granWrite_pos]

@[simp] theorem Block.hbmAccess_pos (sl : Option Nat) (o len : Nat) (op : MemOp) : (b.hbmAccess sl o len op).1.pos = b.pos := by
  unfold Block.hbmAccess Block.hbmSetSeal
  extract_lets zero
  split
  · rfl
  · split
    · rfl
    · split
      · rfl
      · extract_lets d x noSeal
        have hseal (q : Block × Status) : (noSeal q).1.pos = q.1.pos := by
          simp only [noSeal, apply_ite Prod.fst, apply_ite Block.pos, Block.hbmSetSeals_pos, ite_self]
        split
        · have hread := b.granRead_pos
          split
          · grind
          · split <;> grind
        · rw [hseal, Block.granWrite_pos]
        · rw [hseal, Block.granWrite_pos]

@[simp] theorem Block.setPc_pos (k : Nat) (v : PseudoChannel) : (b.setPc k v).pos = b.pos := rfl
@[simp] theorem Block.setStripe_pos (k : Nat) (v : Stripe) : (b.setStripe k v).pos = b.pos := rfl

@[simp] theorem Block.enqueue_pos (d : Dram) (e : Nat) (os : List Owed) : (b.enqueue d e os).pos = b.pos := by
  unfold Block.enqueue
  grind [Block.setPc_pos]

@[simp] theorem Block.release_pos (os : List Owed) : (b.release os).pos = b.pos :=
  foldl_keeps Block.pos _ _ (fun b o => by split <;> rfl) b

@[simp] theorem Block.dramPost_pos (e : Nat) (os : List Owed) : (b.dramPost e os).pos = b.pos :=
  (Block.release_pos ..).trans (foldl_keeps Block.pos _ _ (fun _ _ => Block.enqueue_pos ..) b.dramDrop)

@[simp] theorem Block.hbmPerform_pos (o : Nat) (r : MemReq) : (b.hbmPerform o r).pos = b.pos :=
  (Block.dramPost_pos ..).trans (b.hbmAccess_pos ..)

@[simp] theorem Block.flushStripe_pos (m : Nat) : (b.flushStripe m).pos = b.pos :=
  foldl_keeps Block.pos _ _ (fun _ _ => Block.hbmPerform_pos ..) (b.setStripe m _)

@[simp] theorem Block.flushFor_pos (o len : Nat) : (b.flushFor o len).pos = b.pos := by
  refine foldl_keeps Block.pos _ _ (fun b a => ?_) b
  grind [Block.flushStripe_pos]

@[simp] theorem Block.issueDram_pos (k : Nat) : (b.issueDram k).pos = b.pos := by
  unfold Block.issueDram
  grind [Block.release_pos, Block.setPc_pos]

theorem Block.dramServe_pos (n k : Nat) (all : Bool) : (Block.dramServe n b k all).pos = b.pos := by
  induction n generalizing b with
  | zero => rfl
  | succ n ih =>
    unfold Block.dramServe
    split
    · rw [ih, Block.issueDram_pos]
    · rfl

@[simp] theorem Block.dramRun_pos (e : Nat) : (b.dramRun e).pos = b.pos :=
  (foldl_keeps Block.pos _ _ (fun _ _ => Block.dramServe_pos ..) _).trans (b.dramPost_pos ..)

theorem Block.heldAt_pos {slice : Option Nat} {off len : Nat} {q : Block × Status × List Byte}
    (h : b.heldAt slice off len = some q) : q.1.pos = b.pos := by
  unfold Block.heldAt Block.heldRead at h
  grind [Block.hbmCount_pos]

theorem Block.hbmEngine_pos (w : Who) (lanes : List Nat) (len : Nat) (op : MemOp) (act : Block → Block × Status × List Byte)
    (h : (act b).1.pos = b.pos) : (b.hbmEngine w lanes len op act).1.pos = b.pos := by
  unfold Block.hbmEngine failWith
  grind [Block.dramRun_pos, Block.want_pos]

@[simp] theorem Block.hbmRequest_pos (w : Who) (o len : Nat) (op : MemOp) :
    (b.hbmRequest w o len op).1.pos = b.pos := by
  unfold Block.hbmRequest
  grind [Block.hbmEngine_pos, Block.flushFor_pos, Block.hbmAccess_pos, Block.heldAt_pos]

/-! ### Objects, registers and accesses outside -/
@[simp] theorem Block.satisfy_pos (o : Nat) : (b.satisfy o).pos = b.pos := rfl
@[simp] theorem Block.setSync_pos (o v : Nat) : (b.setSync o v).pos = b.pos := rfl
@[simp] theorem Block.pennant_pos (s k x a : Nat) : (b.pennant s k x a).pos = b.pos := rfl

@[simp] theorem Block.syncSignal_pos (o a s : Nat) : (b.syncSignal o a s).1.pos = b.pos := by
  unfold Block.syncSignal
  grind [Block.satisfy_pos, Block.setSync_pos, Block.pennant_pos]

@[simp] theorem Block.syncAccess_pos (s a len : Nat) (op : MemOp) : (b.syncAccess s a len op).1.pos = b.pos := by
  unfold Block.syncAccess Block.syncReset
  grind [Block.syncSignal_pos, Block.setSync_pos]

@[simp] theorem Block.external_pos (n : ExtNeed) : (b.external n).1.pos = b.pos := by
  unfold Block.external
  grind [Block.want_pos]

@[simp] theorem Block.checkReq_pos (w : Who) (a : Nat) (rt : Right) : (b.checkReq w a rt).1.pos = b.pos := by
  unfold Block.checkReq Block.refuse Block.pennantN
  grind

@[simp] theorem Block.cohLookups_pos (a len : Nat) : (b.cohLookups a len).pos = b.pos := by
  unfold Block.cohLookups
  split <;> rfl

@[simp] theorem Block.regGet_pos (o s : Nat) (c : Bool) : (b.regGet o s c).1.pos = b.pos := by
  unfold Block.regGet
  grind

@[simp] theorem Block.regWait_pos (w : RegWait) : (b.regWait w).pos = b.pos := rfl
@[simp] theorem Block.perform_pos (w : Who) (a len : Nat) (op : MemOp) : (b.perform w a len op).1.pos = b.pos := by
  simp only [Block.perform, failWith]
  split
  · exact foldl_keeps Block.pos _ _ (fun c l => c.want_pos (.line l (op != .read))) b
  · have hlook := b.cohLookups_pos a len
    split
    · rw [Block.shelfAccess_pos, hlook]
    · rw [Block.syncAccess_pos, hlook]
    · rw [Block.hbmRequest_pos, hlook]
    · rw [Block.external_pos, hlook]
    · split
      · split
        · rw [Block.want_pos, hlook]
        · have hget := (b.cohLookups a len).regGet_pos (a - Dla.regBase) len true
          rcases hr : (b.cohLookups a len).regGet (a - Dla.regBase) len true with ⟨c, n⟩
          rw [hr] at hget
          exact hget.trans hlook
      · exact hlook
      · exact hlook
    · exact hlook

/-! ### The DLA path -/

@[simp] theorem Block.dla_pos (w : Who) (a len : Nat) (op : MemOp) : (b.dla w a len op).1.pos = b.pos := by
  have hcheck := b.checkReq_pos w a op.right
  unfold Block.dla failWith
  split
  · exact b.external_pos _
  · split
    · next h => rw [h] at hcheck; exact hcheck
    · next h => rw [h] at hcheck; rw [Block.perform_pos]; exact hcheck

@[simp] theorem Block.dlaRead_pos (w : Who) (a len : Nat) : (b.dlaRead w a len).1.pos = b.pos := by
  have hfold := foldl_pos (chunksOf a len) (fun (acc : Block × Status × List Byte) c =>
    if acc.2.1 ≠ Code.SUCCESS then acc
    else
      let q := acc.1.dla w c.1 c.2.1 .read
      (q.1, q.2.1, acc.2.2 ++ q.2.2)) (fun acc c => by split <;> simp) b (Code.SUCCESS, [])
  unfold Block.dlaRead
  dsimp only
  split <;> exact hfold

@[simp] theorem Block.dlaWrite_pos (w : Who) (a : Nat) (d : List Byte) : (b.dlaWrite w a d).1.pos = b.pos := by
  unfold Block.dlaWrite
  refine foldl_pos _ _ (fun acc c => ?_) b _
  split
  · rfl
  · exact Block.dla_pos ..

/-! ### Host memory -/

@[simp] theorem Block.setL1_pos (p : Nat) (l : List TlbEntry) : (b.setL1 p l).pos = b.pos := rfl
@[simp] theorem Block.setL2_pos (p : Nat) (l : List TlbEntry) : (b.setL2 p l).pos = b.pos := rfl

/-- XL_FAULT_LOG captures the first failure, as the other error logs do. -/
theorem Block.xlatFault_eq_capture (p : PageNeed) (cause access : Nat) : b.xlatFault p cause access =
    b.capture Reg.XL_FAULT_LOG.VALID Reg.XL_FAULT_LOG.OVERFLOW
      [(Reg.XL_FAULT_LOG.CAUSE, cause), (Reg.XL_FAULT_LOG.UNIT, p.unit.code),
        (Reg.XL_FAULT_LOG.POS, if p.unit = .denob then 0 else p.pos), (Reg.XL_FAULT_LOG.SLICE, p.slice),
        (Reg.XL_FAULT_LOG.ACCESS, access), (Reg.XL_FAULT_ADDR.PTR, 2 ^ 60 + p.va)] := rfl

@[simp] theorem Block.xlatFault_pos (p : PageNeed) (cause access : Nat) : (b.xlatFault p cause access).pos = b.pos := by
  rw [Block.xlatFault_eq_capture, Block.capture_pos]

@[simp] theorem Block.tlbScrub_pos (p : PageNeed) (fn pasid : Nat) : (b.tlbScrub p fn pasid).pos = b.pos := by
  unfold Block.tlbScrub
  extract_lets bad drop c
  have hdrop (c : Block) (l : List TlbEntry) (put : Block → List TlbEntry → Block) (hput : ∀ l, (put c l).pos = c.pos) :
      (drop c l put).pos = c.pos := by
    simp only [drop, apply_ite Block.pos, Block.count_pos, hput, ite_self]
  have hc : c.pos = b.pos := hdrop b (b.l1 p.l1) (fun b l => b.setL1 p.l1 l) fun _ => rfl
  split
  · exact hc
  · exact (foldl_keeps Block.pos _ _ (fun c k => hdrop c (c.l2set k) (fun b l => b.setL2 k l) fun _ => rfl) c).trans hc

@[simp] theorem Block.tlbLookup_pos (p : PageNeed) (fn pasid : Nat) : (b.tlbLookup p fn pasid).1.pos = b.pos := by
  unfold Block.tlbLookup
  grind [Block.tlbScrub_pos, Block.setL1_pos, Block.setL2_pos, Block.count_pos]

@[simp] theorem Block.translate_pos (p : PageNeed) : (b.translate p).1.pos = b.pos := by
  unfold Block.translate
  grind [Block.tlbLookup_pos, Block.xlatFault_pos, Block.want_pos]

@[simp] theorem Block.hotRecord_pos (c : AccCounter) : (b.hotRecord c).pos = b.pos := by
  simp only [Block.hotRecord, apply_ite Block.pos, Block.count_pos, Block.wr_pos, Block.perform_pos, ite_self]

@[simp] theorem Block.countHost_pos (s v n : Nat) : (b.countHost s v n).pos = b.pos := by
  simp only [Block.countHost, apply_ite Block.pos, Block.hotRecord_pos, ite_self]

@[simp] theorem Block.translateAll_pos (u : XUnit) (p s : Nat) (pri : Bool) (va len : Nat) (wr : Bool) :
    (b.translateAll u p s pri va len wr).1.pos = b.pos := by
  unfold Block.translateAll
  refine foldl_pos _ _ (fun acc c => ?_) b _
  grind [Block.translate_pos]

@[simp] theorem Block.hostRead_pos (w : Who) (u : XUnit) (p s : Nat) (pri : Bool) (va len : Nat) :
    (b.hostRead w u p s pri va len).1.pos = b.pos := by
  have hall := b.translateAll_pos u p s pri va len false
  unfold Block.hostRead Block.hostReadAs
  split
  · next h => rw [h] at hall; exact hall
  · next c h =>
    rw [h] at hall
    split
    · exact hall
    · split
      · exact hall
      · refine (foldl_pos _ _ (fun acc k => ?_) c _).trans hall
        split
        · rfl
        · simp

theorem Block.hostWriteOut_pos (k fn pasid : Nat) (tr : Bool) (pa : Nat) (d : List Byte) (ro : Bool) :
    (Block.hostWriteOut k b fn pasid tr pa d ro).pos = b.pos := by
  induction k generalizing b pa d with
  | zero => rfl
  | succ k ih =>
    unfold Block.hostWriteOut
    split
    · rfl
    · exact ih ..

@[simp] theorem Block.hostWrite_pos (u : XUnit) (p s : Nat) (pri : Bool) (va : Nat) (d : List Byte) (ro : Bool) :
    (b.hostWrite u p s pri va d ro).1.pos = b.pos := by
  have hall := b.translateAll_pos u p s pri va d.length true
  unfold Block.hostWrite
  dsimp only
  split
  · next h => rw [h] at hall; exact hall
  · next c h =>
    rw [h] at hall
    split
    · exact hall
    · split
      · exact hall
      · refine (foldl_keeps Block.pos _ _ (fun c k => ?_) c).trans hall
        grind [Block.translate_pos, Block.hostWriteOut_pos, Block.countHost_pos]

/-! ### Pointers -/

theorem Block.ptrRead_pos (w : Who) (p len : Nat) : (b.ptrRead w p len).1.pos = b.pos := by
  unfold Block.ptrRead
  dsimp only
  split
  · exact b.dlaRead_pos ..
  · exact b.hostRead_pos ..
  · split
    · rfl
    · refine foldl_pos _ _ (fun acc c => ?_) b _
      split
      · rfl
      · exact Block.external_pos ..

theorem Block.ptrWrite_pos (w : Who) (pri ro : Bool) (p : Nat) (d : List Byte) : (b.ptrWrite w pri ro p d).1.pos = b.pos := by
  unfold Block.ptrWrite
  dsimp only
  split
  · exact b.dlaWrite_pos ..
  · exact b.hostWrite_pos ..
  · split
    · rfl
    · refine foldl_pos _ _ (fun acc c => ?_) b _
      split
      · rfl
      · exact Block.external_pos ..

end

end Sys2Proof.Machine
end

section
/-! SUPPORT. The instructions on accumulators: what each writes, in an accumulator, in xd or in a pair of vector registers. -/

namespace Sys2Proof.Machine

/-! ### Accumulators -/

theorem VecState.getAcc_setAcc (v : VecState) (k : Nat) (a : Acc) (j : Nat) :
    (v.setAcc k a).getAcc j = if j = k then a else v.getAcc j := SMap.get_put ..

/-- An instruction that writes its accumulator and its flags is a step on that accumulator. -/
theorem State.accStep_of_setAcc {s : State} {pos : PosNo} {c : Instr} {op : Nat} {F : VInstr → VecState → VecState}
    {f : VecState → VInstr → Acc × Nat} (hc : exec c s = .next (s.upd fun b => b.vecAlu pos op F))
    (hF : ∀ v i, v.legal i = true → i.op = op → F i v = (v.setAcc i.acc (f v i).1).orFlags (f v i).2) :
    s.AccStep pos c op f := by
  intro r hk
  have hk' := hk
  obtain ⟨-, hop, hlegal, -⟩ := hk'
  refine yields_of_vecAlu hc hk fun t ht hvec => ?_
  rw [hF _ _ hlegal hop] at hvec
  refine ⟨ht, fun k => ?_, ?_⟩
  · rw [hvec]
    exact VecState.getAcc_setAcc ..
  · rw [hvec]
    rfl

/-- An instruction that sets no flag is such a step too. -/
theorem VecState.orFlags_zero (v : VecState) : v.orFlags 0 = v := by
  rw [VecState.orFlags, Nat.or_zero]

/-! ### RSUM of class INT (R142) -/

theorem VecState.isINT_of_rsum {v : VecState} {i : VInstr} (hlegal : v.legal i = true) (hop : i.op = 0x62)
    (hint : (v.getAcc i.acc).isInt = true) : isINT i.ty = true := by
  simp only [VecState.legal, hop, hint, if_true, Bool.and_eq_true] at hlegal
  exact hlegal.2

theorem isFP_of_isINT {t : Nat} (h : isINT t = true) : isFP t = false := by
  rw [isINT, Bool.and_eq_true, decide_eq_true_eq] at h
  exact decide_eq_false (Nat.not_lt.mpr h.1)

theorem vtypeW_cases (t : Nat) : vtypeW t = 32 ∨ vtypeW t = 16 ∨ vtypeW t = 8 := by
  unfold vtypeW
  split <;> simp

/-- Sign extension to 32 bits keeps an element's value. -/
theorem signed_toBits_signed (a t : Nat) : signed (toBits (signed a (vtypeW t)) 32) 32 = signed a (vtypeW t) := by
  unfold signed toBits
  rcases vtypeW_cases t with h | h | h <;> rw [h] <;> split_ifs <;> omega

theorem Vec.signed_fed {i : VInstr} (v : VecState) (h : isINT i.ty = true) :
    (Vec.fed i v).map (fun p => signed p.2 32) =
      ((List.range (v.count (vtypeW i.ty))).filter fun e => v.active i (v.count (vtypeW i.ty)) e).map fun e =>
        signed (v.elem i.va (vtypeW i.ty) e) (vtypeW i.ty) := by
  simp only [Vec.fed, isFP_of_isINT h, List.map_map, Function.comp_def, Bool.false_eq_true, if_false, signed_toBits_signed]

theorem Acc.addSums_of_isInt {a : Acc} (h : a.isInt = true) (size : Nat) (fed : Fed) :
    a.addSums size fed = ({ a with
      sum := toBits (a.sum + (fed.map fun p => signed p.2 32).sum) 64
      sumsq := toBits (a.sumsq + ((fed.map fun p => signed p.2 32).map fun x => x * x).sum) 64 }, 0) := by
  simp only [Acc.addSums, h, if_true, ← List.sum_eq_foldl]

/-! ### Top-k lists (R143, R144) -/

theorem Acc.length_top_topFeed (a : Acc) (base : Nat) (fed : Fed) : (a.topFeed base fed).1.top.length = a.k := by
  simp [Acc.topFeed]

theorem Acc.length_top_merge (a b : Acc) : (a.merge b).1.top.length = a.k := by
  simp [Acc.merge]

/-! ### RFACT (R141) -/

theorem VecState.setX_orFlags (v : VecState) (k n f : Nat) :
    (v.setX k n).orFlags f = ({ v with flags := v.flags ||| f } : VecState).setX k n := by
  unfold VecState.setX VecState.orFlags
  split <;> rfl

theorem Acc.fact_fst (a : Acc) : a.fact.1 =
    if a.mPrev = a.m then 0x3F800000 else if a.mPrev = 0xFF800000 then 0
    else (FFmt.fp32.trans .exp2 (FFmt.fp32.sub a.mPrev a.m).1).1 := by
  rw [show (0xFF800000 : Nat) = fp32NegInf from rfl, Acc.fact]
  split
  · rfl
  · split <;> rfl

/-! ### RGETK (R143) -/

/-- A list put into the elements from `k` on, each with its own. -/
theorem bits_foldl_zipIdx {α : Type} (l : List α) (g : α → Nat) (w k old e : Nat) :
    bits ((l.zipIdx k).foldl (fun n p => setBits n (w * p.2) w (g p.1)) old) (w * e) w =
      if h : k ≤ e ∧ e < k + l.length then g (l[e - k]'(by omega)) % 2 ^ w else bits old (w * e) w := by
  induction l generalizing k old with
  | nil => simp
  | cons x l ih =>
    rw [List.zipIdx_cons, List.foldl_cons, ih]
    by_cases hlater : k + 1 ≤ e ∧ e < k + 1 + l.length
    · have hall : k ≤ e ∧ e < k + (x :: l).length := by
        rw [List.length_cons]
        omega
      rw [dif_pos hlater, dif_pos hall]
      rw [List.getElem_cons, dif_neg (by omega)]
      rfl
    · rw [dif_neg hlater]
      by_cases hfirst : e = k
      · subst hfirst
        simp
      · have hall : ¬(k ≤ e ∧ e < k + (x :: l).length) := by
          rw [List.length_cons]
          omega
        rw [dif_neg hall]
        refine bits_setBits_of_disjoint _ _ _ _ _ _ ?_
        rcases Nat.lt_or_gt_of_ne hfirst with hlt | hgt
        · exact .inl (Nat.mul_succ w e ▸ Nat.mul_le_mul_left w hlt)
        · exact .inr (Nat.mul_succ w k ▸ Nat.mul_le_mul_left w hgt)

/-- An element of a register into which a list of entries is put. -/
theorem VecState.elem_of_vreg {v v' : VecState} {k : Nat} {l : List (Nat × Nat)} {g : Nat × Nat → Nat}
    (h : v'.vreg k = (l.zipIdx.foldl (fun n p => setBits n (32 * p.2) 32 (g p.1)) (v.vreg k)) % 2 ^ 8192) {e : Nat} (he : e < 256) :
    v'.elem k 32 e = if h : e < l.length then g l[e] % 2 ^ 32 else v.elem k 32 e := by
  rw [VecState.elem, h, bits_mod_two_pow _ _ _ _ (by omega), bits_foldl_zipIdx]
  simp [VecState.elem]

theorem Vec.vreg_rgetk (i : VInstr) (v : VecState) (k : Nat) : (Vec.rgetk i v).vreg k =
    if k = i.vd + 1 then
      (v.getAcc i.acc).top.zipIdx.foldl (fun n p => setBits n (32 * p.2) 32 p.1.2) (v.vreg (i.vd + 1)) % 2 ^ 8192
    else if k = i.vd then
      (v.getAcc i.acc).top.zipIdx.foldl (fun n p => setBits n (32 * p.2) 32 p.1.1) (v.vreg i.vd) % 2 ^ 8192
    else v.vreg k := by
  rw [Vec.rgetk, VecState.vreg_setV, VecState.vreg_setV]

theorem rgetk_reads {s : State} {pos : PosNo} {r : VRun} (hk : s.blk.KernelAt pos 0x6B r) : Yields (.rgetk pos) s fun t =>
    let v := s.blk.vec pos
    let v' := t.blk.vec pos
    let i := v.instr
    let top := (v.getAcc i.acc).top
    s.Retires t pos r ∧
      (∀ e, e < 256 → v'.elem i.vd 32 e = if h : e < top.length then top[e].1 % 2 ^ 32 else v.elem i.vd 32 e) ∧
      (∀ e, e < 256 → v'.elem (i.vd + 1) 32 e = if h : e < top.length then top[e].2 % 2 ^ 32 else v.elem (i.vd + 1) 32 e) ∧
      (∀ k, k ≠ i.vd → k ≠ i.vd + 1 → v'.vreg k = v.vreg k) ∧ v' = { v with v := v'.v, pc := v'.pc, run := v'.run } := by
  refine yields_of_vecAlu (exec_rgetk pos s) hk fun t ht hvec => ?_
  have hvreg (k : Nat) : (t.blk.vec pos).vreg k = (Vec.rgetk (s.blk.vec pos).instr (s.blk.vec pos)).vreg k :=
    (congrArg (fun v : VecState => v.vreg k) hvec :)
  refine ⟨ht, fun e he => ?_, fun e he => ?_, fun k hvd hvd' => ?_, ?_⟩
  · refine VecState.elem_of_vreg (g := Prod.fst) ?_ he
    rw [hvreg, Vec.vreg_rgetk, if_neg (by omega), if_pos rfl]
  · refine VecState.elem_of_vreg (g := Prod.snd) ?_ he
    rw [hvreg, Vec.vreg_rgetk, if_pos rfl]
  · rw [hvreg, Vec.vreg_rgetk, if_neg hvd', if_neg hvd]
  · rw [hvec]
    rfl

/-! ### The steps on accumulators -/

section
variable (s : State) (pos : PosNo)

theorem rclr_accStep : s.AccStep pos (.rclr pos) 0x60 fun _ i => (Acc.clear (isINT i.ty) (bits i.ext 0 7), 0) :=
  State.accStep_of_setAcc (exec_rclr pos s) fun _ _ _ _ => (VecState.orFlags_zero _).symm

theorem rnorm_accStep : s.AccStep pos (.rnorm pos) 0x61 fun v i =>
    (v.getAcc i.acc).norm i.ext (lanes (vtypeW i.ty)) (Vec.fed i v) :=
  State.accStep_of_setAcc (exec_rnorm pos s) fun _ _ _ _ => rfl

theorem rsum_accStep : s.AccStep pos (.rsum pos) 0x62 fun v i =>
    let a := v.getAcc i.acc
    let xs := ((List.range (v.count (vtypeW i.ty))).filter fun e => v.active i (v.count (vtypeW i.ty)) e).map fun e =>
      signed (v.elem i.va (vtypeW i.ty) e) (vtypeW i.ty)
    if a.isInt then
      ({ a with sum := toBits (a.sum + xs.sum) 64, sumsq := toBits (a.sumsq + (xs.map fun x => x * x).sum) 64 }, 0)
    else a.addSums (lanes (vtypeW i.ty)) (Vec.fed i v) := by
  refine State.accStep_of_setAcc (exec_rsum pos s) fun v i hlegal hop => ?_
  dsimp only [Vec.rsum]
  split
  next hint => rw [Acc.addSums_of_isInt hint, Vec.signed_fed v (VecState.isINT_of_rsum hlegal hop hint)]
  next => rfl

theorem rtopk_accStep : s.AccStep pos (.rtopk pos) 0x63 fun v i =>
    (v.getAcc i.acc).topFeed (v.xreg i.xb % 2 ^ 32) (Vec.fed i v) :=
  State.accStep_of_setAcc (exec_rtopk pos s) fun _ _ _ _ => rfl

theorem rmerge_accStep : s.AccStep pos (.rmerge pos) 0x64 fun v i => (v.getAcc i.acc).merge (v.getAcc (bits i.ext 0 2)) :=
  State.accStep_of_setAcc (exec_rmerge pos s) fun _ _ _ _ => rfl

theorem rsetn_accStep : s.AccStep pos (.rsetn pos) 0x6D fun v i =>
    ({ v.getAcc i.acc with m := v.xreg i.xa % 2 ^ 32, s := v.xreg i.xa / 2 ^ 32, mPrev := v.xreg i.xa % 2 ^ 32 }, 0) :=
  State.accStep_of_setAcc (exec_rsetn pos s) fun _ _ _ _ => (VecState.orFlags_zero _).symm

theorem rfact_scalarStep : s.ScalarStep pos (.rfact pos) 0x6C (fun v i => (v.getAcc i.acc).fact.1)
    (fun v i => { v with flags := v.flags ||| (v.getAcc i.acc).fact.2 }) :=
  State.scalarStep_of_setX (exec_rfact pos s) (fun _ _ => rfl) fun v _ _ _ => ⟨_, v.setX_orFlags _ _ _, rfl⟩

end

/-- What a step does to its accumulator, where its operation keeps `p`. -/
theorem State.AccStep.kept {s : State} {pos : PosNo} {c : Instr} {op : Nat} {f : VecState → VInstr → Acc × Nat} {r : VRun}
    {p : Acc → Acc → Prop} (h : s.AccStep pos c op f) (hk : s.blk.KernelAt pos (s.blk.vec pos).instr.op r)
    (hop : (s.blk.vec pos).instr.op = op) (hp : ∀ v i, p (v.getAcc i.acc) (f v i).1) : Yields c s fun t =>
      p ((s.blk.vec pos).getAcc (s.blk.vec pos).instr.acc) ((t.blk.vec pos).getAcc (s.blk.vec pos).instr.acc) := by
  obtain ⟨t, ht, -, hacc, -⟩ := h r (hop ▸ hk)
  have hown := (hacc _).trans (if_pos rfl)
  exact ⟨t, ht, show p _ _ from hown ▸ hp _ _⟩

/-- The accumulator `a1` keeps the class and K of `a0`; NORM and RMERGE note the old maximum, RTOPK and RMERGE fill the list. -/
def Acc.FedFrom (pos : PosNo) (c : Instr) (a0 a1 : Acc) : Prop :=
  (c ≠ .rtopk pos → a1.mPrev = a0.m) ∧ (c ≠ .rnorm pos → a1.top.length = a0.k) ∧ a1.k = a0.k ∧ a1.isInt = a0.isInt

theorem feeds_fedFrom {s : State} {pos : PosNo} {c : Instr} {r : VRun} (hk : s.blk.KernelAt pos (s.blk.vec pos).instr.op r)
    (hop : c = .rnorm pos ∧ (s.blk.vec pos).instr.op = 0x61 ∨ c = .rtopk pos ∧ (s.blk.vec pos).instr.op = 0x63 ∨
      c = .rmerge pos ∧ (s.blk.vec pos).instr.op = 0x64) : Yields c s fun t =>
    Acc.FedFrom pos c ((s.blk.vec pos).getAcc (s.blk.vec pos).instr.acc) ((t.blk.vec pos).getAcc (s.blk.vec pos).instr.acc) := by
  rcases hop with ⟨rfl, hop⟩ | ⟨rfl, hop⟩ | ⟨rfl, hop⟩
  · exact (rnorm_accStep s pos).kept hk hop fun _ _ => ⟨fun _ => rfl, fun h => absurd rfl h, rfl, rfl⟩
  · exact (rtopk_accStep s pos).kept hk hop fun _ _ => ⟨fun h => absurd rfl h, fun _ => Acc.length_top_topFeed .., rfl, rfl⟩
  · exact (rmerge_accStep s pos).kept hk hop fun _ _ => ⟨fun _ => rfl, fun _ => Acc.length_top_merge .., rfl, rfl⟩

end Sys2Proof.Machine
end

section
/-! SUPPORT. REDUCE_CHUNK (R145, R146): the end of a REDUCE, and what a chunk that is read leads to. -/

namespace Sys2Proof.Machine

/-! ### The end of a REDUCE -/

/-- The fields of RD_ERR_LOG and RD_ERR_ADDR. -/
def Fld.redLog (p : Nat) : List Fld :=
  [Reg.RD_ERR_LOG.STATUS p, Reg.RD_ERR_LOG.SLICE p, Reg.RD_ERR_LOG.MEMBER p, Reg.RD_ERR_LOG.COLLECT p, Reg.RD_ERR_ADDR.PTR p,
    Reg.RD_ERR_LOG.VALID p, Reg.RD_ERR_LOG.OVERFLOW p]

theorem Block.redLog_frame (b : Block) (p slice st member collect ptr : Nat) :
    b.FieldFrame (b.redLog p slice st member collect ptr) (Fld.redLog p) := by
  have hin : ∀ g ∈ Fld.redLog p, g ∈ Fld.redLog p := fun _ => id
  simp only [Fld.redLog, List.forall_mem_cons] at hin
  obtain ⟨hst, hslice, hmember, hcollect, hptr, hvalid, hover, -⟩ := hin
  unfold Block.redLog
  split
  · exact (Block.FieldFrame.refl _ _).wr _ _ hover
  · exact ((((((Block.FieldFrame.refl _ _).wr _ _ hst).wr _ _ hslice).wr _ _ hmember).wr _ _ hcollect).wr _ _ hptr).wr _ _ hvalid

/-- The block as a REDUCE's end has been logged, if it is an early one. -/
def Block.redLogged (b : Block) (p : Nat) (r : RedRun) (st ptr : Nat) : Block :=
  if st = Code.SUCCESS then b else b.redLog p r.job.slice st 0 0 ptr

theorem Block.redLogged_frame (b : Block) (p : Nat) (r : RedRun) (st ptr : Nat) : b.FieldFrame (b.redLogged p r st ptr) (Fld.redLog p) := by
  unfold Block.redLogged
  split
  · exact .refl _ _
  · exact b.redLog_frame ..

theorem Block.posState_redFree (b : Block) (p : Nat) : (b.redFree p).posState p = { b.posState p with red := none } :=
  (Block.posState_of_pos_eq (Block.wr_pos ..) p).trans (Block.posState_modPos_same ..)

theorem Block.redFree_rest (b : Block) (p : Nat) : b.redFree p = { b with regs := (b.redFree p).regs, pos := (b.redFree p).pos } := rfl

theorem Block.redFree_busy (b : Block) (p : Nat) : (b.redFree p).rd (Reg.RD_STATUS.REDUCE_BUSY p) = 0 :=
  Block.rd_wr_same _ _ _ (show 0 + 1 ≤ 64 by decide)

/-- The REDUCE of `pos`, of run `r`, has ended with `st`, the rows completed and the flags (R146): the unit is free, and `b'`
differs from `b` in no memory. -/
def Block.ReduceEnds (b b' : Block) (pos : Nat) (r : RedRun) (st : Nat) : Prop :=
  (b'.posState pos).red = none ∧ b'.rd (Reg.RD_STATUS.REDUCE_BUSY pos) = 0 ∧
    b.Reported b' r.job st (r.row % 2 ^ 32 + r.flags % 128 * 2 ^ 32) ∧
    b' = { b with regs := b'.regs, pos := b'.pos, queues := b'.queues, ext := b'.ext }

/-- The block as a REDUCE's command has its result. -/
def Block.redReported (b : Block) (p : Nat) (r : RedRun) (st ptr : Nat) : Block :=
  ((({ b with ext := { b.ext with need := [] } } : Block).redLogged p r st ptr).redFree p).reportCmd r.job.queue r.job.id st
    (r.row % 2 ^ 32 + r.flags % 128 * 2 ^ 32)

theorem Block.redEnd_eq (b : Block) (p : Nat) (r : RedRun) (st ptr : Nat) :
    b.redEnd p r st ptr = (b.redReported p r st ptr).unitNext p := rfl

section
variable {b : Block} {p : Nat} (r : RedRun) (st ptr : Nat) (hq : (b.posState p).unitQ = [])
include hq

/-- With no command waiting for the unit, the report is all that follows a REDUCE. -/
theorem Block.redEnd_of_empty : b.redEnd p r st ptr = b.redReported p r st ptr := by
  rw [Block.redEnd_eq]
  refine Block.unitNext_of_empty ?_
  rw [Block.redReported, Block.posState_of_pos_eq (Block.reportCmd_pos ..), Block.posState_redFree, (Block.redLogged_frame ..).rest]
  exact hq

theorem Block.redEnd_need : (b.redEnd p r st ptr).ext.need = [] := by
  rw [Block.redEnd_of_empty r st ptr hq, Block.redReported, Block.reportCmd_ext, Block.redFree_rest, (Block.redLogged_frame ..).rest]

theorem Block.redEnd_ends {t : Block} (ht : (b.redEnd p r st ptr).ButExt t) : b.ReduceEnds t p r st := by
  rw [Block.redEnd_of_empty r st ptr hq, Block.redReported] at ht
  have hlog := (Block.redLogged_frame ({ b with ext := { b.ext with need := [] } } : Block) p r st ptr).rest
  generalize Block.redLogged _ p r st ptr = c at ht hlog
  have hpos : t.pos = (c.redFree p).pos := ht.pos.trans (Block.reportCmd_pos ..)
  have hqueue (k : Nat) : (c.redFree p).queue k = b.queue k := by
    rw [Block.redFree_rest, hlog]
    rfl
  refine ⟨?_, ?_, ⟨?_, fun k hk => ?_⟩, ?_⟩
  · rw [Block.posState_of_pos_eq hpos, Block.posState_redFree]
  · rw [ht.rd, Block.rd, Block.reportCmd_regs]
    exact c.redFree_busy p
  · rw [ht.queue, Block.reportCmd_reported.1, hqueue]
  · rw [ht.queue, Block.reportCmd_reported.2 k hk, hqueue]
  · rw [ht, Block.reportCmd, Block.redFree_rest, hlog]
    rfl

end

theorem Red.size_eq (op k : Nat) : Red.size op (if op = 4 then 1 else k) = if op = 3 then 16 else if op = 5 then 8 * k else 8 := by
  unfold Red.size
  split
  · rfl
  · rfl
  next h3 h5 => rw [if_neg h3, if_neg h5]

/-! ### A chunk (R146) -/

/-- The run once `n` elements have been fed: the accumulator is `a`, and the feed's flags are `fl`. -/
def RedRun.fed (r : RedRun) (a : Acc) (fl n : Nat) : RedRun := { r with acc := a, flags := r.flags ||| fl, col := r.col + n }

/-- The run at the start of its next row. -/
def RedRun.nextRow (r : RedRun) : RedRun :=
  { r with row := r.row + 1, col := 0
           acc := Acc.clear (decide (6 ≤ Red.fmt (r.job.w 4))) (if Red.op (r.job.w 4) = 4 then 1 else Red.k (r.job.w 4)) }

/-- The block as the fields show `n` rows completed. -/
def Block.rowDone (b : Block) (p n : Nat) : Block := (b.count (Reg.RD_ROWS.COUNT p) 1).wr (Reg.RD_STATUS.ROWS p) n

theorem Block.rowDone_frame (b : Block) (p n : Nat) : b.FieldFrame (b.rowDone p n) [Reg.RD_ROWS.COUNT p, Reg.RD_STATUS.ROWS p] :=
  ((Block.FieldFrame.refl b _).wr _ _ (by simp)).wr _ _ (by simp)

/-- What a REDUCE's chunk is: its format, its source and what is read there. -/
def Block.ChunkRead (b b1 : Block) (p : Nat) (r : RedRun) (f : EFmt) (sp st : Nat) (ds : List Byte) : Prop :=
  EFmt.ofCode (Red.fmt (r.job.w 4)) = some f ∧
    Ptr.add (r.job.w 2) (r.row * bits (r.job.w 5) 32 32 + r.col * (f.bits / 8) : Nat) = some sp ∧
    b.ptrRead (b.jobWho (.red p) r.job) sp (min 256 (Red.count (r.job.w 4) - r.col) * (f.bits / 8)) = (b1, st, ds)

section
variable {b b1 : Block} {p : Nat} {r : RedRun} {f : EFmt} {sp st : Nat} {ds : List Byte} (h : b.ChunkRead b1 p r f sp st ds)
include h

theorem Block.pos_of_chunkRead : b1.pos = b.pos := by
  obtain ⟨-, -, hread⟩ := h
  have hpos := b.ptrRead_pos (b.jobWho (.red p) r.job) sp (min 256 (Red.count (r.job.w 4) - r.col) * (f.bits / 8))
  rwa [hread] at hpos

theorem Block.reduceChunk_of_failed (hst : st ≠ Code.SUCCESS) : b.reduceChunk p r = b1.redEnd p r (Red.code st) sp := by
  obtain ⟨hfmt, hsource, hread⟩ := h
  simp only [Block.reduceChunk, hfmt, Option.getD_some, hsource, hread, hst, ne_eq, not_false_eq_true, if_true]

variable (hst : st = Code.SUCCESS) (hneed : b1.ext.need = []) {a : Acc} {fl : Nat}
  (hfeed : Red.feed (Red.op (r.job.w 4)) r.col r.acc (Red.fed f ds (min 256 (Red.count (r.job.w 4) - r.col))) = (a, fl))
include hst hneed hfeed

theorem Block.reduceChunk_of_more (hmore : 256 < Red.count (r.job.w 4) - r.col) :
    b.reduceChunk p r = b1.modPos p fun q => { q with red := some (r.fed a fl 256) } := by
  have hmin : min 256 (Red.count (r.job.w 4) - r.col) = 256 := Nat.min_eq_left hmore.le
  have hcol : r.col + 256 < Red.count (r.job.w 4) := Nat.add_lt_of_lt_sub' hmore
  obtain ⟨hfmt, hsource, hread⟩ := h
  rw [hmin] at hfeed hread
  simp only [Block.reduceChunk, hfmt, Option.getD_some, hsource, hmin, hread, hst, ne_eq, not_true_eq_false, if_false,
    Block.waiting, hneed, List.isEmpty_nil, Bool.not_true, Bool.false_eq_true, hfeed, hcol, if_true, RedRun.fed]

theorem Block.reduceChunk_of_row (hlast : Red.count (r.job.w 4) - r.col ≤ 256)
    {dp : Nat} (hdp : Ptr.add (r.job.w 3) (r.row * (if Red.op (r.job.w 4) = 3 then 16
      else if Red.op (r.job.w 4) = 5 then 8 * Red.k (r.job.w 4) else 8) : Nat) = some dp) (htag : Ptr.tag dp = 0)
    {b2 : Block} (hwrite : b1.ptrWrite (b.jobWho (.red p) r.job) true false dp (Red.result (Red.op (r.job.w 4)) a) = (b2, Code.SUCCESS))
    (hneed₂ : b2.ext.need = []) {r' : RedRun} (hr' : r' = (r.fed a fl (Red.count (r.job.w 4) - r.col)).nextRow) :
    b.reduceChunk p r = if r.row + 1 < bits (r.job.w 5) 0 32
      then (b2.rowDone p (r.row + 1)).modPos p fun q => { q with red := some r' }
      else (b2.rowDone p (r.row + 1)).redEnd p r' Code.SUCCESS 0 := by
  have hmin : min 256 (Red.count (r.job.w 4) - r.col) = Red.count (r.job.w 4) - r.col := Nat.min_eq_right hlast
  have hcol : ¬r.col + (Red.count (r.job.w 4) - r.col) < Red.count (r.job.w 4) := by omega
  have hhost : ¬Ptr.tag dp = 1 := by omega
  obtain ⟨hfmt, hsource, hread⟩ := h
  rw [hmin] at hfeed hread
  rw [← Red.size_eq] at hdp
  simp only [Block.reduceChunk, hfmt, Option.getD_some, hsource, hmin, hread, hst, ne_eq, not_true_eq_false, if_false,
    Block.waiting, hneed, List.isEmpty_nil, Bool.not_true, Bool.false_eq_true, hfeed, hcol, hdp, hwrite, hneed₂, hhost, hr',
    RedRun.fed, RedRun.nextRow, Block.rowDone] <;> rfl

end

/-! ### REDUCE_CHUNK -/

theorem yields_of_reduceChunk {s : State} {pos : PosNo} {r : RedRun} (hred : (s.blk.posState pos).red = some r) {b : Block}
    (hb : s.blk.reduceChunk pos r = b) (hneed : b.ext.need = []) {p : State → Prop}
    (hp : ∀ t, b.ButExt t → p { s with blk := t }) : Yields (.reduceChunk pos) s p :=
  yields_of_settle ⟨_, exec_reduceChunk pos s, by simp only [hred]; exact hb⟩ hneed hp

section
variable {s : State} {pos : PosNo} {r : RedRun} (hred : (s.blk.posState pos).red = some r)
  (hq : (s.blk.posState pos).unitQ = []) {b1 : Block} {f : EFmt} {sp st : Nat} {ds : List Byte}
  (h : s.blk.ChunkRead b1 pos r f sp st ds)
include hred hq h

theorem reduceChunk_fails (hst : st ≠ Code.SUCCESS) :
    Yields (.reduceChunk pos) s fun t => ∃ c, t = { s with blk := c } ∧ b1.ReduceEnds c pos r (Red.code st) := by
  have hq₁ : (b1.posState pos).unitQ = [] := by rw [Block.posState_of_pos_eq (Block.pos_of_chunkRead h), hq]
  exact yields_of_reduceChunk hred (Block.reduceChunk_of_failed h hst) (Block.redEnd_need _ _ _ hq₁) fun t ht =>
    ⟨t, rfl, Block.redEnd_ends _ _ _ hq₁ ht⟩

variable (hst : st = Code.SUCCESS) (hneed : b1.ext.need = []) {a : Acc} {fl : Nat}
  (hfeed : Red.feed (Red.op (r.job.w 4)) r.col r.acc (Red.fed f ds (min 256 (Red.count (r.job.w 4) - r.col))) = (a, fl))
include hst hneed hfeed

omit hq in
theorem reduceChunk_goes_on (hmore : 256 < Red.count (r.job.w 4) - r.col) : Yields (.reduceChunk pos) s fun t =>
    (t.blk.posState pos).red = some (r.fed a fl 256) ∧ t = { s with blk := { b1 with pos := t.blk.pos, ext := t.blk.ext } } := by
  refine yields_of_reduceChunk hred (Block.reduceChunk_of_more h hst hneed hfeed hmore) hneed fun t ht => ⟨?_, ?_⟩
  · exact congrArg PosState.red ((ht.posState pos).trans (Block.posState_modPos_same ..))
  · rw [ht]
    rfl

section
variable (hlast : Red.count (r.job.w 4) - r.col ≤ 256) {dp : Nat}
  (hdp : Ptr.add (r.job.w 3) (r.row * (if Red.op (r.job.w 4) = 3 then 16
    else if Red.op (r.job.w 4) = 5 then 8 * Red.k (r.job.w 4) else 8) : Nat) = some dp) (htag : Ptr.tag dp = 0) {b2 : Block}
  (hwrite : b1.ptrWrite (s.blk.jobWho (.red pos) r.job) true false dp (Red.result (Red.op (r.job.w 4)) a) = (b2, Code.SUCCESS))
  (hneed₂ : b2.ext.need = [])
include hlast hdp htag hwrite hneed₂

omit hq in
theorem reduceChunk_next_row (hrow : r.row + 1 < bits (r.job.w 5) 0 32) : Yields (.reduceChunk pos) s fun t =>
    ((t.blk.posState pos).red.map fun q => (q.row, q.col, q.flags, q.job)) = some (r.row + 1, 0, r.flags ||| fl, r.job) ∧
      t = { s with blk := { b2 with regs := t.blk.regs, pos := t.blk.pos, ext := t.blk.ext } } := by
  have hchunk := Block.reduceChunk_of_row h hst hneed hfeed hlast hdp htag hwrite hneed₂ rfl
  rw [if_pos hrow] at hchunk
  have hdone := (b2.rowDone_frame pos (r.row + 1)).rest
  generalize b2.rowDone pos (r.row + 1) = c at hchunk hdone
  refine yields_of_reduceChunk hred hchunk ?_ fun t ht => ⟨?_, ?_⟩
  · rw [hdone]
    exact hneed₂
  · rw [show (t.posState pos).red = _ from congrArg PosState.red ((ht.posState pos).trans (Block.posState_modPos_same ..))]
    rfl
  · rw [ht, hdone]
    rfl

theorem reduceChunk_last_row (hrow : r.row + 1 = bits (r.job.w 5) 0 32) : Yields (.reduceChunk pos) s fun t =>
    ∃ c, t = { s with blk := c } ∧
      b2.ReduceEnds c pos (r.fed a fl (Red.count (r.job.w 4) - r.col)).nextRow Code.SUCCESS := by
  have hchunk := Block.reduceChunk_of_row h hst hneed hfeed hlast hdp htag hwrite hneed₂ rfl
  rw [if_neg (by omega)] at hchunk
  have hdone := (b2.rowDone_frame pos (r.row + 1)).rest
  generalize b2.rowDone pos (r.row + 1) = c at hchunk hdone
  have hpos₂ : b2.pos = s.blk.pos := by
    have hpos := b1.ptrWrite_pos (s.blk.jobWho (.red pos) r.job) true false dp (Red.result (Red.op (r.job.w 4)) a)
    rw [hwrite] at hpos
    exact hpos.trans (Block.pos_of_chunkRead h)
  have hq₂ : (c.posState pos).unitQ = [] := by
    rw [Block.posState_of_pos_eq ((congrArg Block.pos hdone).trans hpos₂), hq]
  refine yields_of_reduceChunk hred hchunk (Block.redEnd_need _ _ _ hq₂) fun t ht => ⟨t, rfl, ?_⟩
  obtain ⟨hfree, hbusy, ⟨hown, hothers⟩, hrest⟩ := Block.redEnd_ends _ _ _ hq₂ ht
  rw [hdone] at hown hothers hrest
  exact ⟨hfree, hbusy, ⟨hown, hothers⟩, hrest⟩

end

end

/-- Settles O24: an instruction's accumulator, xd or pair of registers has its operation's result; a chunk that is read is fed, and the
last chunk of a row, or a failed read, has what follows it. -/
theorem reductions : Obligations.Reductions := by
  constructor
  · intro s pos
    refine ⟨rclr_accStep s pos, rnorm_accStep s pos, rsum_accStep s pos, rtopk_accStep s pos,
      rmerge_accStep s pos, rsetn_accStep s pos, ?_, ?_, ?_, ?_, fun c _ r => feeds_fedFrom, fun r => rgetk_reads⟩
    · exact State.scalarStep_of_setX (exec_rgetn pos s) (fun _ _ => rfl) fun _ _ _ _ => ⟨_, rfl, rfl⟩
    · exact State.scalarStep_of_setX (exec_rgets pos s) (fun _ _ => rfl) fun _ _ _ _ => ⟨_, rfl, rfl⟩
    · exact State.scalarStep_of_setX (exec_rgetq pos s) (fun _ _ => rfl) fun _ _ _ _ => ⟨_, rfl, rfl⟩
    · simpa only [Acc.fact_fst] using rfact_scalarStep s pos
  · intro s pos r hneed hred hq _ f hf sp hsp op left n size b1 st ds hread hneed₁
    have h : s.blk.ChunkRead b1 pos r f sp st ds := ⟨hf, hsp, hread⟩
    refine ⟨fun hst a fl hfeed => ⟨fun hmore => ?_, fun _ hlast dp hdp htag b2 hwrite hneed₂ => ⟨fun hrow => ?_, fun hrow => ?_⟩⟩,
      fun hst => ?_⟩
    · exact reduceChunk_goes_on hred h hst hneed₁ hfeed hmore
    · exact reduceChunk_next_row hred h hst hneed₁ hfeed hlast hdp htag hwrite hneed₂ hrow
    · obtain ⟨t, ht, c, rfl, hends⟩ := reduceChunk_last_row hred hq h hst hneed₁ hfeed hlast hdp htag hwrite hneed₂ hrow
      obtain ⟨hfree, hbusy, hreported, hrest⟩ := hends
      exact ⟨_, ht, hfree, hbusy, hreported, congrArg (fun b : Block => { s with blk := b }) hrest⟩
    · obtain ⟨t, ht, c, rfl, hends⟩ := reduceChunk_fails hred hq h hst
      obtain ⟨hfree, -, hreported, hrest⟩ := hends
      exact ⟨_, ht, hfree, hreported, congrArg (fun b : Block => { s with blk := b }) hrest⟩

end Sys2Proof.Machine
end

section
/-! SUPPORT. Updates of one site: its record and its link as written, the steps that change one site, the collector and what
is sent, and how such steps compose (07). -/

namespace Sys2Proof.Machine

/-! ### A site's record -/

@[simp] theorem Block.site_setSite_same (b : Block) (n : Nat) (v : SiteState) : (b.setSite n v).site n = v :=
  SMap.get_put_same ..

theorem Block.site_setSite_of_ne (b : Block) {n k : Nat} (v : SiteState) (h : k ≠ n) : (b.setSite n v).site k = b.site k :=
  SMap.get_put_of_ne _ _ v h

@[simp] theorem Block.site_modLink_same (b : Block) (n : Nat) (f : LinkState → LinkState) :
    (b.modLink n f).site n = { b.site n with link := f (b.site n).link } := Block.site_setSite_same ..

section
variable (b : Block) (n : Nat)

@[simp] theorem Block.site_wr (f : Fld) (v k : Nat) : (b.wr f v).site k = b.site k := rfl
@[simp] theorem Block.site_count (f : Fld) (v k : Nat) : (b.count f v).site k = b.site k := rfl
@[simp] theorem Block.site_setLink (s st k : Nat) : (b.setLink s st).site k = b.site k := rfl
@[simp] theorem Block.site_emit (o : Out) (k : Nat) : (b.emit o).site k = b.site k := rfl
@[simp] theorem Block.site_pennant (s k x a j : Nat) : (b.pennant s k x a).site j = b.site j := rfl
@[simp] theorem Block.modLink_fc (f : LinkState → LinkState) : (b.modLink n f).fc = b.fc := rfl
@[simp] theorem Block.modLink_out (f : LinkState → LinkState) : (b.modLink n f).out = b.out := rfl
@[simp] theorem Block.modLink_now (f : LinkState → LinkState) : (b.modLink n f).now = b.now := rfl
@[simp] theorem Block.rd_modLink (f : LinkState → LinkState) (g : Fld) : (b.modLink n f).rd g = b.rd g := rfl
@[simp] theorem Block.linkState_modLink (f : LinkState → LinkState) (k : Nat) : (b.modLink n f).linkState k = b.linkState k := rfl
@[simp] theorem Block.rd_pennant (s k x a : Nat) (g : Fld) : (b.pennant s k x a).rd g = b.rd g := rfl
@[simp] theorem Block.pennant_out (s k x a : Nat) : (b.pennant s k x a).out = b.out := rfl
@[simp] theorem Block.pennant_sites (s k x a : Nat) : (b.pennant s k x a).sites = b.sites := rfl
@[simp] theorem Block.pennant_now (s k x a : Nat) : (b.pennant s k x a).now = b.now := rfl

end

/-! ### Several outputs -/

/-- `os` has been sent. -/
def Block.emits (b : Block) (os : List Out) : Block := { b with out := b.out ++ os }

@[simp] theorem Block.site_emits (b : Block) (os : List Out) (k : Nat) : (b.emits os).site k = b.site k := rfl

@[simp] theorem Block.emits_emit (b : Block) (o : Out) (os : List Out) : (b.emit o).emits os = b.emits (o :: os) := by
  simp [Block.emits, Block.emit]

theorem Block.foldl_emit {α : Type} (g : α → Out) (l : List α) (b : Block) :
    l.foldl (fun b a => b.emit (g a)) b = b.emits (l.map g) := by
  induction l generalizing b with
  | nil => simp [Block.emits]
  | cons a l ih => exact (ih _).trans (b.emits_emit _ _)

/-! ### Pennants -/

/-- A pennant's effect on the collector is decided by the collector and the clock. -/
theorem Block.pennant_fc_of_eq {b c : Block} (s k x a : Nat) (hfc : c.fc = b.fc) (hnow : c.now = b.now) :
    (c.pennant s k x a).fc = (b.pennant s k x a).fc := by
  simp only [Block.pennant, Block.pennantN, hfc, hnow]

/-! ### Fields beside one that is written -/

theorem Block.rd_of_regs {b c : Block} (h : c.regs = b.regs) (f : Fld) : c.rd f = b.rd f := by
  rw [Block.rd, Block.rd, h]

theorem Block.rd_wr_of_apart (b : Block) (f g : Fld) (n : Nat) (hg : g.lo + g.w ≤ 64) (h : g.Apart f) : (b.wr f n).rd g = b.rd g :=
  Block.rd_wr_of_disjoint b f g n hg h

/-- A field written with what it holds leaves every field as it is. -/
theorem Block.rd_wr_rd (b : Block) (f g : Fld) : (b.wr f (b.rd f)).rd g = b.rd g := by
  have hword : (b.regs.wr f (b.regs.rd f)).word g.off = b.regs.word g.off := by
    rw [RegFile.wr, RegFile.word_setWord]
    split
    · next h =>
      have hself : setBits (b.regs.word f.off) f.lo f.w (b.regs.rd f) = b.regs.word f.off := by
        apply Nat.eq_of_testBit_eq
        intro i
        rw [testBit_setBits, RegFile.rd, testBit_bits]
        split
        · next hi =>
          have hlt : i - f.lo < f.w := by omega
          have hpos : f.lo + (i - f.lo) = i := by omega
          simp [hlt, hpos]
        · rfl
      rw [hself, h, Nat.mod_eq_of_lt (RegFile.word_lt _ _)]
    · rfl
  simp only [Block.rd, Block.wr, RegFile.rd] at hword ⊢
  rw [hword]

theorem Block.FieldsKept.wr_rd {b c : Block} {fs : List Fld} (h : b.FieldsKept c fs) (f : Fld) : b.FieldsKept (c.wr f (c.rd f)) fs :=
  fun g w a => (c.rd_wr_rd f g).trans (h g w a)

/-- A count that saturates at its field's width is what the field then reads. -/
theorem Block.rd_count_same (b : Block) (f : Fld) (n : Nat) (h : f.lo + f.w ≤ 64) : (b.count f n).rd f = satAdd f.w (b.rd f) n := by
  have hlt : satAdd f.w (b.rd f) n < 2 ^ f.w := by
    have := Nat.two_pow_pos f.w
    unfold satAdd
    omega
  rw [Block.count_eq, Block.rd_wr_same _ _ _ h, Nat.mod_eq_of_lt hlt]

/-- A command that changes the block alone yields what holds of the changed block. -/
theorem yields_of_upd {c : Instr} {s : State} {g : Block → Block} {d : Block} {p : State → Prop}
    (hexec : exec c s = .next (s.upd g)) (hd : g s.blk = d) (hp : p { s with blk := d }) : Yields c s p :=
  ⟨s.upd g, hexec, by subst hd; exact hp⟩

theorem Yields.mono {c : Instr} {s : State} {p q : State → Prop} (h : Yields c s p) (hpq : ∀ t, p t → q t) : Yields c s q :=
  h.imp fun t ⟨ht, hp⟩ => ⟨ht, hpq t hp⟩

/-! ### Steps of one site -/

/-- `c` differs from `b` in site `n`, the collector, what is sent, and the fields `fs`. -/
structure Block.SiteOnly (b c : Block) (n : Nat) (fs : List Fld) : Prop where
  rest : c = { b with regs := c.regs, sites := c.sites, fc := c.fc, out := c.out }
  sites : b.SitesKept c n
  fields : b.FieldsKept c fs

namespace Block.SiteOnly

variable {b c d : Block} {n : Nat} {fs : List Fld}

theorem refl (b : Block) (n : Nat) (fs : List Fld) : b.SiteOnly b n fs := ⟨rfl, fun _ _ => rfl, .refl b fs⟩

theorem trans (h : b.SiteOnly c n fs) (k : c.SiteOnly d n fs) : b.SiteOnly d n fs :=
  ⟨k.rest.trans (by rw [h.rest]), fun i hi => (k.sites i hi).trans (h.sites i hi), h.fields.trans k.fields⟩

theorem mono {gs : List Fld} (h : b.SiteOnly c n fs) (hsub : ∀ f ∈ fs, f ∈ gs) : b.SiteOnly c n gs :=
  ⟨h.rest, h.sites, h.fields.mono hsub⟩

theorem wr (h : b.SiteOnly c n fs) (f : Fld) (v : Nat) (hf : f ∈ fs) : b.SiteOnly (c.wr f v) n fs :=
  h.trans ⟨rfl, fun _ _ => rfl, (FieldsKept.refl c fs).wr f v hf⟩

theorem wr_rd (h : b.SiteOnly c n fs) (f : Fld) : b.SiteOnly (c.wr f (c.rd f)) n fs :=
  h.trans ⟨rfl, fun _ _ => rfl, (FieldsKept.refl c fs).wr_rd f⟩

theorem count (h : b.SiteOnly c n fs) (f : Fld) (v : Nat) (hf : f ∈ fs) : b.SiteOnly (c.count f v) n fs := h.wr f _ hf

theorem setSite (h : b.SiteOnly c n fs) (v : SiteState) : b.SiteOnly (c.setSite n v) n fs :=
  h.trans ⟨rfl, fun _ hk => c.site_setSite_of_ne v hk, fun _ _ _ => rfl⟩

theorem modLink (h : b.SiteOnly c n fs) (f : LinkState → LinkState) : b.SiteOnly (c.modLink n f) n fs := h.setSite _

theorem emit (h : b.SiteOnly c n fs) (o : Out) : b.SiteOnly (c.emit o) n fs := h.trans ⟨rfl, fun _ _ => rfl, fun _ _ _ => rfl⟩

theorem emits (h : b.SiteOnly c n fs) (os : List Out) : b.SiteOnly (c.emits os) n fs :=
  h.trans ⟨rfl, fun _ _ => rfl, fun _ _ _ => rfl⟩

theorem pennant (h : b.SiteOnly c n fs) (s k x a : Nat) : b.SiteOnly (c.pennant s k x a) n fs :=
  h.trans ⟨rfl, fun _ _ => rfl, fun _ _ _ => rfl⟩

theorem sideband (h : b.SiteOnly c n fs) (op d0 d1 : Nat) : b.SiteOnly (c.sideband n op d0 d1) n fs := by
  unfold Block.sideband
  exact (h.emit _).modLink _

theorem foldl {α : Type} (h : b.SiteOnly c n fs) (l : List α) (step : Block → α → Block)
    (hstep : ∀ (b : Block) a, a ∈ l → b.SiteOnly (step b a) n fs) : b.SiteOnly (l.foldl step c) n fs := by
  induction l generalizing c with
  | nil => exact h
  | cons a l ih => exact ih (h.trans (hstep c a (by simp))) fun b x hx => hstep b x (by simp [hx])

theorem now (h : b.SiteOnly c n fs) : c.now = b.now := by rw [h.rest]

theorem rd (h : b.SiteOnly c n fs) {g : Fld} (hg : g.lo + g.w ≤ 64) (hapart : ∀ f ∈ fs, g.Apart f) : c.rd g = b.rd g :=
  h.fields g hg hapart

/-- A command that steps one site's block steps one site of the state. -/
theorem step {s : State} (h : s.blk.SiteOnly c n fs) : s.SiteStep { s with blk := c } n :=
  ⟨congrArg (fun b : Block => { s with blk := b }) h.rest, h.sites⟩

end Block.SiteOnly

end Sys2Proof.Machine
end
section
/-! SUPPORT. The frames of a stacked link (R158–R160): what one that arrives with a good or a bad CRC leads to, and what is
sent in answer. -/

namespace Sys2Proof.Machine

/-! ### Frames out -/

theorem Frame.body_ack_mod (kind seq a : Nat) (v : Bool) (pl : List Byte) :
    Frame.body kind seq (a % 4096) v pl = Frame.body kind seq a v pl := by
  simp [Frame.body]

/-- The frame that link `l` of site `n` sends on lane group `g`: it returns the last SEQ received in order. -/
def LinkState.frame (l : LinkState) (n g kind seq : Nat) (pl : List Byte) : Out :=
  .frame n g (withCrc16 (Frame.body kind seq l.lastGood l.rxAny pl))

section
variable (b : Block) (n g kind seq : Nat) (pl : List Byte)

theorem Block.putFrame_eq : b.putFrame n g kind seq pl = (b.emit ((b.site n).link.frame n g kind seq pl)).modLink n fun l =>
    { l with framesSinceAck := 0, ackAt := b.now } := by
  simp only [LinkState.frame, LinkState.lastGood, Frame.body_ack_mod]
  rfl

@[simp] theorem Block.putFrame_out : (b.putFrame n g kind seq pl).out = b.out ++ [(b.site n).link.frame n g kind seq pl] := by
  rw [Block.putFrame_eq]
  rfl

@[simp] theorem Block.link_putFrame :
    ((b.putFrame n g kind seq pl).site n).link = { (b.site n).link with framesSinceAck := 0, ackAt := b.now } := by
  simp [Block.putFrame_eq]

@[simp] theorem Block.frameGroup_putFrame (k : Nat) : (b.putFrame n g kind seq pl).frameGroup n k = b.frameGroup n k := rfl

theorem Block.putFrame_siteOnly : b.SiteOnly (b.putFrame n g kind seq pl) n [] := by
  rw [Block.putFrame_eq]
  exact ((Block.SiteOnly.refl b n []).emit _).modLink _

end

/-- Nothing new may be sent on a link: nothing waits, the frames held are all that may be, or a width change runs. -/
def LinkState.Stuck (l : LinkState) : Prop := l.txWait = [] ∨ 1024 ≤ l.held.length ∨ l.widthChange ≠ none

theorem Block.sendFrames_of_stuck {b : Block} {n : Nat} (h : (b.site n).link.Stuck) (k : Nat) : Block.sendFrames k b n = b := by
  cases k with
  | zero => rfl
  | succ k => exact if_pos (by simpa [LinkState.Stuck, Option.isSome_iff_ne_none] using h)

theorem Block.takeAck_of_invalid {b : Block} {n : Nat} (h : (b.site n).link.Stuck) (a : Nat) : b.takeAck n a false = b :=
  Block.sendFrames_of_stuck h 1024

/-! ### A frame that arrives -/

theorem Block.corrupts_of_clear {b : Block} {src : Nat} (h : SMap.get (fun _ => 0) b.fc.corruptFrames src = 0) :
    b.corrupts src = (b, false) := if_pos h

/-- The link has received one frame more. -/
def LinkState.seen (l : LinkState) : LinkState := { l with framesSinceAck := l.framesSinceAck + 1 }

theorem Block.frameSeen_of_few {b : Block} {n : Nat} (h : (b.site n).link.framesSinceAck < 63) :
    b.frameSeen n = b.modLink n LinkState.seen := if_neg (by simp; omega)

section
variable {b : Block} {n : Nat} {f : SiteFrame} (hstacked : n < 12) (hup : b.linkUp n = true)
  (hclear : SMap.get (fun _ => 0) b.fc.corruptFrames (Src.laneGroup n f.group) = 0)
include hstacked hup hclear

theorem Block.frameIn_of_good {kind : Nat} (hcrc : f.crc.toNat = SiteFrame.crcOf f kind) (hkind : kind ≠ 3) (good : Block → Block) :
    b.frameIn n f kind good = (good b).frameSeen n := by
  simp [Block.frameIn, Site.stacked, hstacked, hup, Block.corrupts_of_clear hclear, hcrc, hkind]

theorem Block.frameIn_of_bad {kind : Nat} (hbad : kind = 3 ∨ f.crc.toNat ≠ SiteFrame.crcOf f kind) (good : Block → Block) :
    b.frameIn n f kind good = (b.badFrame n f.group f.seq.toNat (decide (kind = 0) || decide (kind = 3))).frameSeen n := by
  have hfails : (decide (f.crc.toNat ≠ SiteFrame.crcOf f kind) || decide (kind = 3)) = true := by
    rcases hbad with h | h <;> simp [h]
  simp only [Block.frameIn, Site.stacked, hstacked, hup, Block.corrupts_of_clear hclear, Bool.false_or, hfails]
  rfl

end

/-! ### Acknowledgements -/

/-- An answer carries 240 open bytes. -/
abbrev Block.spent (b : Block) (k : Nat) : Block := { b with free := b.free + k }

section
variable (b : Block) (n : Nat)

theorem Block.sendNak_eq : b.sendNak n = (((b.spent 240).putFrame n (b.frameGroup n 0) 2 0 (b.freshBytes 240).2).count
    (Reg.ST_REPLAY.COUNT n) 1).modLink n fun l => { l with nakAt := some b.now } := rfl

theorem Block.sendNak_siteOnly : (b.spent 240).SiteOnly (b.sendNak n) n [Reg.ST_REPLAY.COUNT n] := by
  rw [Block.sendNak_eq]
  exact (((Block.putFrame_siteOnly ..).mono (by simp)).count _ _ (by simp)).modLink _

theorem Block.sendNak_out : (b.sendNak n).out = b.out ++ [(b.site n).link.frame n (b.frameGroup n 0) 2 0 (b.freshBytes 240).2] := by
  simp [Block.sendNak_eq]
  rfl

theorem Block.link_sendNak :
    ((b.sendNak n).site n).link = { (b.site n).link with framesSinceAck := 0, ackAt := b.now, nakAt := some b.now } := by
  simp only [Block.sendNak_eq, Block.site_modLink_same, Block.site_count, Block.link_putFrame]
  rfl

end

/-! ### A bad CRC -/

/-- A lane group's error adds to its site's count; its event, of which a microsecond has one, to its group's and to the
collector. -/
theorem Block.laneError_eq (b : Block) (n g : Nat) : b.laneError n g =
    if SMap.get (fun _ => 0) (b.site n).link.eventAt g ≠ 0 ∧ b.now + 1 < SMap.get (fun _ => 0) (b.site n).link.eventAt g + 1600 then
      b.count (Reg.ST_CRC_ERR.COUNT n) 1
    else
      let c := (b.count (Reg.ST_CRC_ERR.COUNT n) 1).modLink n fun l =>
        { l with eventAt := SMap.put (fun _ => 0) l.eventAt g (b.now + 1) }
      let v := c.rd (Reg.ST_GROUP_ERR.COUNT n)
      (c.wr (Reg.ST_GROUP_ERR.COUNT n) (setBits v (8 * g) 8 (min 255 (bits v (8 * g) 8 + 1)))).pennant (Src.laneGroup n g)
        Kind.LANE_EVENT 0 0 := rfl

theorem Block.laneError_siteOnly (b : Block) (n g : Nat) :
    b.SiteOnly (b.laneError n g) n [Reg.ST_CRC_ERR.COUNT n, Reg.ST_GROUP_ERR.COUNT n] := by
  have hcount := (Block.SiteOnly.refl b n [Reg.ST_CRC_ERR.COUNT n, Reg.ST_GROUP_ERR.COUNT n]).count (Reg.ST_CRC_ERR.COUNT n) 1 (by simp)
  rw [Block.laneError_eq]
  split
  · exact hcount
  · exact ((hcount.modLink _).wr _ _ (by simp)).pennant _ _ _ _

theorem Block.laneError_out (b : Block) (n g : Nat) : (b.laneError n g).out = b.out := by
  rw [Block.laneError_eq]
  split <;> rfl

theorem Block.rd_laneError (b : Block) (n g : Nat) :
    (b.laneError n g).rd (Reg.ST_CRC_ERR.COUNT n) = satAdd 32 (b.rd (Reg.ST_CRC_ERR.COUNT n)) 1 := by
  have hcount : (b.count (Reg.ST_CRC_ERR.COUNT n) 1).rd (Reg.ST_CRC_ERR.COUNT n) = satAdd 32 (b.rd (Reg.ST_CRC_ERR.COUNT n)) 1 :=
    Block.rd_count_same _ _ _ (by decide : 0 + 32 ≤ 64)
  rw [Block.laneError_eq]
  split
  · exact hcount
  · refine Eq.trans ?_ hcount
    exact Block.rd_wr_of_off_ne _ _ _ _ (by simp [Reg.ST_CRC_ERR.COUNT, Reg.ST_GROUP_ERR.COUNT])

/-- A link after a bad frame and before its NAK: an error's time and the count of failed sends have changed alone. -/
def LinkState.Notes (l l' : LinkState) : Prop := l' = { l with eventAt := l'.eventAt, sendFails := l'.sendFails }

theorem Block.link_laneError (b : Block) (n g : Nat) : (b.site n).link.Notes ((b.laneError n g).site n).link := by
  rw [Block.laneError_eq]
  split
  · rfl
  · simp [LinkState.Notes]

/-- The part of `badFrame` before the NAK (R160, rule 5). -/
def Block.frameNoted (b : Block) (n g seq : Nat) (data : Bool) : Block :=
  let b := b.laneError n g
  if data && decide (seq = (b.site n).link.rxNext) then
    let k := (b.site n).link.sendFails + 1
    let b := b.modLink n fun l => { l with sendFails := if 8 ≤ k then 0 else k }
    if 8 ≤ k then b.laneFail n g else b
  else b

theorem Block.badFrame_eq (b : Block) (n g seq : Nat) (data : Bool) : b.badFrame n g seq data = (b.frameNoted n g seq data).wantNak n := rfl

section
variable (b : Block) (n g seq : Nat) (data : Bool)

theorem Block.frameNoted_siteOnly :
    b.SiteOnly (b.frameNoted n g seq data) n [Reg.ST_CRC_ERR.COUNT n, Reg.ST_GROUP_ERR.COUNT n] := by
  have h := b.laneError_siteOnly n g
  unfold Block.frameNoted
  dsimp only
  split
  · split
    · exact (h.modLink _).pennant _ _ _ _
    · exact h.modLink _
  · exact h

theorem Block.frameNoted_regs : (b.frameNoted n g seq data).regs = (b.laneError n g).regs := by
  unfold Block.frameNoted
  dsimp only
  split
  · split <;> rfl
  · rfl

theorem Block.frameNoted_out : (b.frameNoted n g seq data).out = b.out := by
  refine Eq.trans ?_ (b.laneError_out n g)
  unfold Block.frameNoted
  dsimp only
  split
  · split <;> rfl
  · rfl

theorem Block.link_frameNoted : (b.site n).link.Notes ((b.frameNoted n g seq data).site n).link := by
  have h := b.link_laneError n g
  unfold Block.frameNoted
  dsimp only
  unfold LinkState.Notes at h ⊢
  split
  · split
    · simp only [Block.laneFail, Block.site_pennant, Block.site_modLink_same]
      rw [h]
    · simp only [Block.site_modLink_same]
      rw [h]
  · exact h

end

end Sys2Proof.Machine
end
section
/-! SUPPORT. DATA_FRAME, IDLE_FRAME, NAK_FRAME, ACK_TIMER and NAK_RESEND on a stacked link that is up (R158–R160). -/

namespace Sys2Proof.Machine

/-! ### The answer to a bad frame -/

theorem Block.SiteOnly.spent {b c : Block} {n : Nat} {fs : List Fld} (h : b.SiteOnly c n fs) (k : Nat) :
    (b.spent k).SiteOnly (c.spent k) n fs :=
  ⟨congrArg (fun d : Block => d.spent k) h.rest, h.sites, h.fields⟩

theorem Block.SiteOnly.frameGroup {b c : Block} {n : Nat} {fs : List Fld} (h : b.SiteOnly c n fs)
    (hapart : ∀ f ∈ fs, (Reg.ST_STATUS.WIDTH_SET n).Apart f) (k : Nat) : c.frameGroup n k = b.frameGroup n k := by
  simp only [Block.frameGroup, h.rd (g := Reg.ST_STATUS.WIDTH_SET n) (by decide : 8 + 8 ≤ 64) hapart]

/-- The open values that the answer to a bad frame takes: a NAK's, unless one is out. -/
def LinkState.nakSpends (l : LinkState) : Nat := if l.nakAt = none then 240 else 0

section
variable (b : Block) (n g seq : Nat) (data : Bool)

theorem Block.badFrame_of_unasked (h : (b.site n).link.nakAt = none) :
    b.badFrame n g seq data = (b.frameNoted n g seq data).sendNak n := by
  have hnak := b.link_frameNoted n g seq data
  rw [Block.badFrame_eq, Block.wantNak, if_neg]
  rw [hnak]
  simp [h]

theorem Block.badFrame_of_asked (h : (b.site n).link.nakAt ≠ none) : b.badFrame n g seq data = b.frameNoted n g seq data := by
  have hnak := b.link_frameNoted n g seq data
  rw [Block.badFrame_eq, Block.wantNak, if_pos]
  rw [hnak]
  exact Option.isSome_iff_ne_none.mpr h

theorem Block.badFrame_siteOnly : (b.spent (b.site n).link.nakSpends).SiteOnly (b.badFrame n g seq data) n
    [Reg.ST_CRC_ERR.COUNT n, Reg.ST_GROUP_ERR.COUNT n, Reg.ST_REPLAY.COUNT n] := by
  have hnoted := (b.frameNoted_siteOnly n g seq data).mono
    (gs := [Reg.ST_CRC_ERR.COUNT n, Reg.ST_GROUP_ERR.COUNT n, Reg.ST_REPLAY.COUNT n]) (by simp)
  by_cases h : (b.site n).link.nakAt = none
  · rw [b.badFrame_of_unasked n g seq data h, LinkState.nakSpends, if_pos h]
    exact (hnoted.spent 240).trans ((Block.sendNak_siteOnly ..).mono (by simp))
  · rw [b.badFrame_of_asked n g seq data h, LinkState.nakSpends, if_neg h]
    exact hnoted

theorem Block.badFrame_out : (b.badFrame n g seq data).out = if (b.site n).link.nakAt = none then
    b.out ++ [(b.site n).link.frame n (b.frameGroup n 0) 2 0 (b.freshBytes 240).2] else b.out := by
  have hout := b.frameNoted_out n g seq data
  have hnoted := b.frameNoted_siteOnly n g seq data
  split
  · next h =>
    have hgroup := hnoted.frameGroup (by simp [Fld.Apart, Reg.ST_STATUS.WIDTH_SET, Reg.ST_CRC_ERR.COUNT, Reg.ST_GROUP_ERR.COUNT]) 0
    have hfresh : ((b.frameNoted n g seq data).freshBytes 240).2 = (b.freshBytes 240).2 := by
      rw [hnoted.rest]
      rfl
    rw [b.badFrame_of_unasked n g seq data h, Block.sendNak_out, hout, hgroup, hfresh, b.link_frameNoted n g seq data]
    rfl
  · next h => rw [b.badFrame_of_asked n g seq data h, hout]

theorem Block.rd_badFrame :
    (b.badFrame n g seq data).rd (Reg.ST_CRC_ERR.COUNT n) = satAdd 32 (b.rd (Reg.ST_CRC_ERR.COUNT n)) 1 := by
  have hnoted : (b.frameNoted n g seq data).rd (Reg.ST_CRC_ERR.COUNT n) = satAdd 32 (b.rd (Reg.ST_CRC_ERR.COUNT n)) 1 := by
    rw [← Block.rd_laneError b n g, Block.rd, Block.frameNoted_regs, Block.rd]
  by_cases h : (b.site n).link.nakAt = none
  · rw [b.badFrame_of_unasked n g seq data h, ← hnoted]
    exact (Block.sendNak_siteOnly _ n).rd (by decide : 0 + 32 ≤ 64) (by simp [Fld.Apart, Reg.ST_CRC_ERR.COUNT, Reg.ST_REPLAY.COUNT])
  · rw [b.badFrame_of_asked n g seq data h, hnoted]

/-- A bad frame leaves what its link expects and what it holds; its NAK restarts the count of frames to be acknowledged. -/
theorem Block.link_badFrame : ((b.badFrame n g seq data).site n).link.rxNext = (b.site n).link.rxNext ∧
    ((b.badFrame n g seq data).site n).link.held = (b.site n).link.held ∧
    ((b.badFrame n g seq data).site n).link.framesSinceAck ≤ (b.site n).link.framesSinceAck := by
  have hlink := b.link_frameNoted n g seq data
  by_cases h : (b.site n).link.nakAt = none
  · rw [b.badFrame_of_unasked n g seq data h, Block.link_sendNak, hlink]
    simp
  · rw [b.badFrame_of_asked n g seq data h, hlink]
    simp

end

/-! ### A good DATA frame -/

/-- What has been received once the next payload `pl` is taken in order: its bytes, and the packets that they complete. -/
def Block.delivered (b : Block) (n : Nat) (pl : List Byte) : Block :=
  let r := Packet.split 16 ((b.site n).link.rxBytes ++ pl)
  (b.emits (.payload n pl :: (r.1.filter fun p => p.op ≠ 0).map (Out.received n))).modLink n fun l => { l with
    rxNext := (l.rxNext + 1) % 4096, rxAny := true, nakAt := none, sendFails := 0, rxBytes := r.2 }

theorem Block.delivered_siteOnly (b : Block) (n : Nat) (pl : List Byte) : b.SiteOnly (b.delivered n pl) n [] := by
  unfold Block.delivered
  exact ((Block.SiteOnly.refl b n []).emits _).modLink _

theorem Block.dataFrame_of_expected {b : Block} {n : Nat} (hstuck : (b.site n).link.Stuck) (ack : Nat) (pl : List Byte) :
    b.dataFrame n (b.site n).link.rxNext ack false pl = b.delivered n pl := by
  rw [Block.dataFrame, Block.takeAck_of_invalid hstuck, if_pos rfl]
  dsimp only
  rw [Block.foldl_emit, Block.emits_emit]
  rfl

theorem Block.dataFrame_of_repeat {b : Block} {n seq : Nat} (hstuck : (b.site n).link.Stuck) (hseq : seq ≠ (b.site n).link.rxNext)
    (hany : (b.site n).link.rxAny = true) (hold : ((b.site n).link.rxNext + 4095 - seq) % 4096 < 2048) (ack : Nat) (pl : List Byte) :
    b.dataFrame n seq ack false pl = b := by
  rw [Block.dataFrame, Block.takeAck_of_invalid hstuck, if_neg hseq, if_pos (by simp [hany, hold])]

/-! ### Frames sent again -/

/-- `c` is `b` after the frames `hs` have gone again on the link of site `n`, in order. -/
structure Block.Resends (b c : Block) (n : Nat) (hs : List Frame) : Prop where
  only : b.SiteOnly c n []
  regs : c.regs = b.regs
  fc : c.fc = b.fc
  out : c.out = b.out ++ hs.map fun h => (b.site n).link.frame n (b.frameGroup n h.seq) 0 h.seq h.payload
  link : (c.site n).link = { (b.site n).link with
    framesSinceAck := (c.site n).link.framesSinceAck, ackAt := (c.site n).link.ackAt, nakSeq := (c.site n).link.nakSeq
    nakCount := (c.site n).link.nakCount }
  few : (c.site n).link.framesSinceAck ≤ (b.site n).link.framesSinceAck

theorem Block.Resends.refl (b : Block) (n : Nat) : b.Resends b n [] := ⟨.refl b n [], rfl, rfl, by simp, rfl, Nat.le_refl _⟩

theorem Block.Resends.of_putFrame {b c : Block} {n : Nat} {h : Frame} {hs : List Frame}
    (k : (b.putFrame n (b.frameGroup n h.seq) 0 h.seq h.payload).Resends c n hs) : b.Resends c n (h :: hs) where
  only := (Block.putFrame_siteOnly ..).trans k.only
  regs := k.regs
  fc := k.fc
  out := by
    rw [k.out, Block.link_putFrame]
    simp [LinkState.frame, LinkState.lastGood]
  link := by rw [k.link, Block.link_putFrame]
  few := k.few.trans (by simp)

theorem Block.foldl_putFrame_resends (n : Nat) (hs : List Frame) (b : Block) :
    b.Resends (hs.foldl (fun b f => b.putFrame n (b.frameGroup n f.seq) 0 f.seq f.payload) b) n hs := by
  induction hs generalizing b with
  | nil => exact .refl b n
  | cons h hs ih => exact .of_putFrame (ih _)

theorem Block.resendHeld_resends {b : Block} {n : Nat} (hstuck : (b.site n).link.Stuck) :
    b.Resends (b.resendHeld n) n (b.site n).link.held := by
  have h := Block.foldl_putFrame_resends n (b.site n).link.held b
  rwa [Block.resendHeld, Block.sendFrames_of_stuck]
  rw [h.link]
  exact hstuck

/-- What the site's NAKs ask for may be noted before. -/
theorem Block.Resends.of_noted {b c : Block} {n seq k : Nat} {hs : List Frame}
    (h : (b.modLink n fun l => { l with nakSeq := seq, nakCount := k }).Resends c n hs) : b.Resends c n hs where
  only := ((Block.SiteOnly.refl b n []).modLink _).trans h.only
  regs := h.regs
  fc := h.fc
  out := by
    rw [h.out, Block.site_modLink_same]
    rfl
  link := by rw [h.link, Block.site_modLink_same]
  few := h.few.trans (by simp)

theorem Block.nakFrame_resends {b : Block} {n : Nat} (hstuck : (b.site n).link.Stuck) (ack : Nat)
    (hchange : (b.site n).link.widthChange = none) (hnaks : (b.site n).link.nakCount < 7) :
    b.Resends (b.nakFrame n ack false) n (b.site n).link.held := by
  cases hheld : (b.site n).link.held with
  | nil =>
    have hnone : b.nakFrame n ack false = b := by
      simp only [Block.nakFrame, Block.releaseHeld, hheld]
      exact Block.sendFrames_of_stuck hstuck 1024
    rw [hnone]
    exact .refl b n
  | cons f fs =>
    have hrelease : b.releaseHeld n ack false = b := rfl
    have hgo : ∃ k, b.nakFrame n ack false = (b.modLink n fun l => { l with nakSeq := f.seq, nakCount := k }).resendHeld n := by
      simp only [Block.nakFrame, hrelease, hheld, hchange, Option.isSome_none, Bool.false_eq_true, if_false]
      generalize hk : (if (b.site n).link.nakCount ≠ 0 ∧ (b.site n).link.nakSeq = f.seq then (b.site n).link.nakCount + 1 else 1) = k
      have hfew : ¬ 8 ≤ k := by
        subst hk
        split <;> omega
      exact ⟨k, by simp only [hfew, if_false]⟩
    obtain ⟨k, hk⟩ := hgo
    have hresent := Block.resendHeld_resends (b := b.modLink n fun l => { l with nakSeq := f.seq, nakCount := k }) (n := n)
      (by simpa [LinkState.Stuck] using hstuck)
    rw [hk, ← hheld]
    simpa using hresent.of_noted

/-! ### Frames that arrive -/

section
variable {s : State} {site : SiteNo} {f : SiteFrame} (hstacked : site.val < 12) (hup : s.blk.linkUp site = true)
  (hclear : SMap.get (fun _ => 0) s.blk.fc.corruptFrames (Src.laneGroup site f.group) = 0)
  (hfew : (s.blk.site site).link.framesSinceAck < 63)
include hstacked hup hclear

/-- A frame whose CRC is right takes its effect and is counted towards the next ACK. -/
theorem frameIn_seen {kind : Nat} (hcrc : f.crc.toNat = SiteFrame.crcOf f kind) (hkind : kind ≠ 3) {good : Block → Block}
    {c : Block} (hgood : good s.blk = c) (hc : (c.site site).link.framesSinceAck < 63) :
    s.blk.frameIn site f kind good = c.modLink site LinkState.seen := by
  rw [Block.frameIn_of_good hstacked hup hclear hcrc hkind, hgood, Block.frameSeen_of_few hc]

include hfew

theorem dataFrame_of_bad {k3 : Bool} (hbad : k3 = true ∨ f.crc.toNat ≠ SiteFrame.crcOf f 0) : Yields (.dataFrame site f k3) s fun t =>
    (t.blk.site site).link.rxNext = (s.blk.site site).link.rxNext ∧ (t.blk.site site).link.held = (s.blk.site site).link.held ∧
    t.blk.rd (Reg.ST_CRC_ERR.COUNT site) = satAdd 32 (s.blk.rd (Reg.ST_CRC_ERR.COUNT site)) 1 ∧
    t.blk.out = (if (s.blk.site site).link.nakAt = none then
      s.blk.out ++ [(s.blk.site site).link.frame site (s.blk.frameGroup site 0) 2 0 (s.blk.freshBytes 240).2] else s.blk.out) ∧
    (s.spends (s.blk.site site).link.nakSpends).SiteStep t site := by
  have hkind : (if k3 then 3 else 0) = 3 ∨ f.crc.toNat ≠ SiteFrame.crcOf f (if k3 then 3 else 0) := by
    cases k3
    · simpa using hbad
    · simp
  obtain ⟨hnext, hheld, hseen⟩ := s.blk.link_badFrame site f.group f.seq.toNat
    (decide ((if k3 then 3 else 0) = 0) || decide ((if k3 then 3 else 0) = 3))
  refine yields_of_upd rfl ((Block.frameIn_of_bad hstacked hup hclear hkind _).trans (Block.frameSeen_of_few (by omega))) ⟨?_, ?_, ?_, ?_, ?_⟩
  · simpa [LinkState.seen] using hnext
  · simpa [LinkState.seen] using hheld
  · exact Block.rd_badFrame ..
  · exact Block.badFrame_out ..
  · exact ((Block.badFrame_siteOnly ..).modLink _).step (s := s.spends _)

theorem dataFrame_of_expected (hstuck : (s.blk.site site).link.Stuck) (hcrc : f.crc.toNat = SiteFrame.crcOf f 0)
    (hack : f.ackValid = false) (hseq : f.seq.toNat = (s.blk.site site).link.rxNext) : Yields (.dataFrame site f false) s fun t =>
      let l := (s.blk.site site).link
      let got := Packet.split 16 (l.rxBytes ++ sliceBytes f.payload 0 240)
      t.blk.out = s.blk.out ++ .payload site (sliceBytes f.payload 0 240) ::
        (got.1.filter fun p => p.op ≠ 0).map (Out.received site) ∧
      (t.blk.site site).link = { l with
        rxNext := (l.rxNext + 1) % 4096, rxAny := true, nakAt := none, sendFails := 0, rxBytes := got.2
        framesSinceAck := l.framesSinceAck + 1 } ∧
      s.SiteStep t site ∧ t.blk.regs = s.blk.regs ∧ t.blk.fc = s.blk.fc := by
  have hgood : s.blk.dataFrame site f.seq.toNat f.ack.toNat f.ackValid (sliceBytes f.payload 0 240) =
      s.blk.delivered site (sliceBytes f.payload 0 240) := by
    rw [hack, hseq, Block.dataFrame_of_expected hstuck]
  have hseen : ((s.blk.delivered site (sliceBytes f.payload 0 240)).site site).link.framesSinceAck < 63 := by
    simpa [Block.delivered] using hfew
  refine yields_of_upd rfl (frameIn_seen hstacked hup hclear hcrc (by decide) hgood hseen)
    ⟨rfl, ?_, ((Block.delivered_siteOnly ..).modLink _).step, rfl, rfl⟩
  simp [Block.delivered, LinkState.seen]

theorem dataFrame_of_repeat (hstuck : (s.blk.site site).link.Stuck) (hcrc : f.crc.toNat = SiteFrame.crcOf f 0)
    (hack : f.ackValid = false) (hseq : f.seq.toNat ≠ (s.blk.site site).link.rxNext) (hany : (s.blk.site site).link.rxAny = true)
    (hold : ((s.blk.site site).link.rxNext + 4095 - f.seq.toNat) % 4096 < 2048) : Yields (.dataFrame site f false) s fun t =>
      t.blk.out = s.blk.out ∧ (t.blk.site site).link = (s.blk.site site).link.seen ∧
      s.SiteStep t site ∧ t.blk.regs = s.blk.regs ∧ t.blk.fc = s.blk.fc := by
  have hgood : s.blk.dataFrame site f.seq.toNat f.ack.toNat f.ackValid (sliceBytes f.payload 0 240) = s.blk := by
    rw [hack, Block.dataFrame_of_repeat hstuck hseq hany hold]
  exact yields_of_upd rfl (frameIn_seen hstacked hup hclear hcrc (by decide) hgood hfew)
    ⟨rfl, by simp, ((Block.SiteOnly.refl _ _ []).modLink _).step, rfl, rfl⟩

theorem idleFrame_releases (hcrc : f.crc.toNat = SiteFrame.crcOf f 1) {n : Nat}
    (hfind : ((s.blk.site site).link.held.findIdx? fun h => h.seq = f.ack.toNat) = some n) (hack : f.ackValid = true)
    (hwait : (s.blk.site site).link.txWait = []) : Yields (.idleFrame site f) s fun t =>
      let l := (s.blk.site site).link
      (t.blk.site site).link = { l with held := l.held.drop (n + 1), nakCount := 0, framesSinceAck := l.framesSinceAck + 1 } ∧
      s.SiteStep t site ∧ t.blk.regs = s.blk.regs ∧ t.blk.fc = s.blk.fc ∧ t.blk.out = s.blk.out := by
  have hgood : s.blk.takeAck site f.ack.toNat f.ackValid =
      s.blk.modLink site fun l => { l with held := l.held.drop (n + 1), nakCount := 0 } := by
    simp only [Block.takeAck, Block.releaseHeld, hack, hfind]
    exact Block.sendFrames_of_stuck (.inl (by simpa using hwait)) 1024
  refine yields_of_upd rfl (frameIn_seen hstacked hup hclear hcrc (by decide) hgood (by simpa using hfew))
    ⟨?_, (((Block.SiteOnly.refl _ _ []).modLink _).modLink _).step, rfl, rfl, rfl⟩
  simp [LinkState.seen]

theorem nakFrame_resends (hstuck : (s.blk.site site).link.Stuck) (hcrc : f.crc.toNat = SiteFrame.crcOf f 2) (hack : f.ackValid = false)
    (hchange : (s.blk.site site).link.widthChange = none) (hnaks : (s.blk.site site).link.nakCount < 7) :
    Yields (.nakFrame site f) s fun t =>
      (t.blk.site site).link.held = (s.blk.site site).link.held ∧ (t.blk.site site).link.rxNext = (s.blk.site site).link.rxNext ∧
      t.blk.out = s.blk.out ++ (s.blk.site site).link.held.map (fun h =>
        (s.blk.site site).link.frame site (s.blk.frameGroup site h.seq) 0 h.seq h.payload) ∧
      s.SiteStep t site ∧ t.blk.regs = s.blk.regs ∧ t.blk.fc = s.blk.fc := by
  have hsent := Block.nakFrame_resends hstuck f.ack.toNat hchange hnaks
  have hfew' := hsent.few
  refine yields_of_upd rfl (frameIn_seen hstacked hup hclear hcrc (by decide) (by rw [hack]) (by omega))
    ⟨?_, ?_, hsent.out, (hsent.only.modLink _).step, hsent.regs, hsent.fc⟩ <;>
  · rw [Block.site_modLink_same, hsent.link]
    rfl

end

/-! ### Answers sent by themselves -/

section
variable {s : State} {site : SiteNo} (hup : s.blk.linkUp site = true)
include hup

theorem ackTimer_sends (hstacked : site.val < 12) (hany : (s.blk.site site).link.rxAny = true) : Yields (.ackTimer site) s fun t =>
    t.blk.out = s.blk.out ++ [(s.blk.site site).link.frame site (s.blk.frameGroup site 0) 1 0 (s.blk.freshBytes 240).2] ∧
    (t.blk.site site).link = { (s.blk.site site).link with framesSinceAck := 0, ackAt := s.blk.now } ∧
    (s.spends 240).SiteStep t site ∧ t.blk.regs = s.blk.regs ∧ t.blk.fc = s.blk.fc := by
  refine yields_of_upd rfl (if_pos (by simp [Site.stacked, hstacked, hup, hany])) ⟨?_, ?_, ?_, rfl, rfl⟩
  · exact Block.putFrame_out ..
  · exact Block.link_putFrame ..
  · exact (Block.putFrame_siteOnly ..).step (s := s.spends 240)

theorem nakResend_sends (hasked : (s.blk.site site).link.nakAt ≠ none) : Yields (.nakResend site) s fun t =>
    t.blk.out = s.blk.out ++ [(s.blk.site site).link.frame site (s.blk.frameGroup site 0) 2 0 (s.blk.freshBytes 240).2] ∧
    (t.blk.site site).link.nakAt = some s.blk.now ∧ (s.spends 240).SiteStep t site ∧
    t.blk.fc = s.blk.fc ∧ s.blk.FieldsKept t.blk [Reg.ST_REPLAY.COUNT site] := by
  refine yields_of_upd rfl (if_pos (by simp [hup, Option.isSome_iff_ne_none, hasked])) ⟨?_, ?_, ?_, rfl, ?_⟩
  · exact Block.sendNak_out ..
  · rw [Block.link_sendNak]
  · exact (Block.sendNak_siteOnly ..).step (s := s.spends 240)
  · exact (Block.sendNak_siteOnly ..).fields

end

end Sys2Proof.Machine
end
section
/-! SUPPORT. The modules of a lateral link (R161): the Flits that wait for one, the halves that a lost one retires, and
ADAPTER_CRC_ERROR, MODULE_ACTIVE_STATE_CHANGE and MODULE_RETURN_TIMEOUT. -/

namespace Sys2Proof.Machine

/-! ### Flits -/

/-- `c` is `b` after Flits have been given to the modules of site `n`: none is added to those that wait for a module that is up. -/
structure Block.FlitsMoved (b c : Block) (n : Nat) : Prop where
  only : b.SiteOnly c n []
  regs : c.regs = b.regs
  fc : c.fc = b.fc
  down : (c.site n).link.moduleDown = (b.site n).link.moduleDown
  wait : ∀ m, SMap.get (fun _ => 0) (b.site n).link.moduleDown m = 0 →
    SMap.get (fun _ => []) (c.site n).link.flitWait m = SMap.get (fun _ => []) (b.site n).link.flitWait m

theorem Block.FlitsMoved.refl (b : Block) (n : Nat) : b.FlitsMoved b n := ⟨.refl b n [], rfl, rfl, rfl, fun _ _ => rfl⟩

theorem Block.FlitsMoved.trans {b c d : Block} {n : Nat} (h : b.FlitsMoved c n) (k : c.FlitsMoved d n) : b.FlitsMoved d n where
  only := h.only.trans k.only
  regs := k.regs.trans h.regs
  fc := k.fc.trans h.fc
  down := k.down.trans h.down
  wait m hm := (k.wait m (by rw [h.down, hm])).trans (h.wait m hm)

theorem Block.putFlit_moved (b : Block) (n : Nat) (pl : List Byte) : b.FlitsMoved (b.putFlit n pl) n := by
  unfold Block.putFlit
  extract_lets l ms m c due
  have hlink : (c.site n).link = { l with flitNext := l.flitNext + 1 } := by simp [c, l]
  have honly : b.SiteOnly c n [] := (Block.SiteOnly.refl b n []).modLink _
  have hc : b.FlitsMoved c n := ⟨honly, rfl, rfl, by rw [hlink], fun _ _ => by rw [hlink]⟩
  split
  · next hdown =>
    refine hc.trans ⟨(Block.SiteOnly.refl c n []).modLink _, rfl, rfl, by simp, fun k hk => ?_⟩
    have hne : k ≠ m := by
      rintro rfl
      rw [hlink] at hk
      simp [LinkState.isDown, hk] at hdown
    simp [hne]
  · exact hc.trans ⟨(Block.SiteOnly.refl c n []).emit _, rfl, rfl, rfl, fun _ _ => rfl⟩

theorem Block.foldl_putFlit_moved (n : Nat) (fs : List (List Byte)) (b : Block) :
    b.FlitsMoved (fs.foldl (fun b f => b.putFlit n f) b) n := by
  induction fs generalizing b with
  | nil => exact .refl b n
  | cons f fs ih => exact (b.putFlit_moved n f).trans (ih _)

/-- `c` is `b` after the Flits that waited for module `m`, which is up, have been sent. -/
structure Block.ModuleBack (b c : Block) (n m : Nat) : Prop where
  only : b.SiteOnly c n []
  regs : c.regs = b.regs
  fc : c.fc = b.fc
  down : (c.site n).link.moduleDown = (b.site n).link.moduleDown
  wait : SMap.get (fun _ => []) (c.site n).link.flitWait m = []
  out : SMap.get (fun _ => []) (b.site n).link.flitWait m = [] ∨ (b.modules n).contains m →
    c.out = b.out ++ (SMap.get (fun _ => []) (b.site n).link.flitWait m).map (Out.flit n m)

theorem Block.moduleBack_back {b : Block} {n m : Nat} (hup : SMap.get (fun _ => 0) (b.site n).link.moduleDown m = 0) :
    b.ModuleBack (b.moduleBack n m) n m := by
  have hclear : b.SiteOnly (b.modLink n fun l => { l with flitWait := SMap.put (fun _ => []) l.flitWait m [] }) n [] :=
    (Block.SiteOnly.refl b n []).modLink _
  unfold Block.moduleBack Block.releaseFlits
  split
  · rw [Block.foldl_emit]
    exact ⟨hclear.emits _, rfl, rfl, by simp, by simp, fun _ => rfl⟩
  · next hoff =>
    have hmoved := Block.foldl_putFlit_moved n (SMap.get (fun _ => []) (b.site n).link.flitWait m)
      (b.modLink n fun l => { l with flitWait := SMap.put (fun _ => []) l.flitWait m [] })
    refine ⟨hclear.trans hmoved.only, hmoved.regs, hmoved.fc, hmoved.down.trans (by simp), ?_, ?_⟩
    · rw [hmoved.wait m (by simpa using hup)]
      simp
    · rintro (hnone | hon)
      · simp [hnone]
      · exact absurd hon hoff

/-! ### A half that is retired -/

theorem Site.activeSet_lateral {n : Nat} (h : 12 ≤ n) (g : Nat) : Site.activeSet n g = g % 256 := by
  simp [Site.activeSet, Site.stacked, Nat.not_lt.mpr h]

theorem Block.unretired_lateral {n : Nat} (h : 12 ≤ n) (b : Block) : b.unretired n = 255 - b.rd (Reg.ST_LANE_STATE.RETIRED n) % 256 := by
  simp only [Block.unretired, Site.stacked, Nat.not_lt.mpr h, decide_false, Bool.false_eq_true, if_false]
  rw [Nat.and_two_pow_sub_one_eq_mod _ 8]

theorem setBits_one_eq_or {r g : Nat} (h : r.testBit g = false) : setBits r g 1 1 = r ||| 2 ^ g := by
  apply Nat.eq_of_testBit_eq
  intro i
  rw [testBit_setBits, Nat.testBit_or, Nat.testBit_two_pow]
  by_cases hi : i = g
  · subst hi
    simp
  · have hout : ¬(g ≤ i ∧ i < g + 1) := by omega
    rw [if_neg hout]
    simp [Ne.symm hi]

/-- `c` is `b` after lane group `g` of lateral site `n` has been retired, if it was not before, with its pennant. -/
structure Block.HalfOff (b c : Block) (n g : Nat) : Prop where
  only : b.SiteOnly c n [Reg.ST_LANE_STATE.RETIRED n, Reg.ST_STATUS.WIDTH_SET n, Reg.FC_BUCKET.STRUCK (Src.laneGroup n g)]
  sites : c.sites = b.sites
  out : c.out = b.out
  retired : c.rd (Reg.ST_LANE_STATE.RETIRED n) = b.rd (Reg.ST_LANE_STATE.RETIRED n) ||| 2 ^ g
  fc : c.fc = if (b.rd (Reg.ST_LANE_STATE.RETIRED n)).testBit g then b.fc
    else (b.pennant (Src.laneGroup n g) Kind.LANE_FAIL 0 0).fc
  same : (b.rd (Reg.ST_LANE_STATE.RETIRED n)).testBit g = true → c = b
  width : (b.rd (Reg.ST_LANE_STATE.RETIRED n)).testBit g = false → b.linkState n ≠ Link.WIDTH_CHANGE →
    c.rd (Reg.ST_STATUS.WIDTH_SET n) = 255 - c.rd (Reg.ST_LANE_STATE.RETIRED n)

theorem Block.retired_lt (b : Block) (n : Nat) : b.rd (Reg.ST_LANE_STATE.RETIRED n) < 256 := b.rd_lt _

theorem Block.narrow_lateral {b : Block} {n : Nat} (hlat : 12 ≤ n) (hup : b.linkUp n = true)
    (hleft : b.rd (Reg.ST_LANE_STATE.RETIRED n) ≠ 255) : b.narrow n =
      if b.linkState n = Link.WIDTH_CHANGE ∨ 255 - b.rd (Reg.ST_LANE_STATE.RETIRED n) = b.rd (Reg.ST_STATUS.WIDTH_SET n) then b
      else b.wr (Reg.ST_STATUS.WIDTH_SET n) (255 - b.rd (Reg.ST_LANE_STATE.RETIRED n)) := by
  have hlt := b.retired_lt n
  have hnew : Site.activeSet n (b.unretired n) = 255 - b.rd (Reg.ST_LANE_STATE.RETIRED n) := by
    rw [Site.activeSet_lateral hlat, Block.unretired_lateral hlat]
    omega
  have hsome : 255 - b.rd (Reg.ST_LANE_STATE.RETIRED n) ≠ 0 := by omega
  simp [Block.narrow, hnew, hsome, hup, Site.stacked, Nat.not_lt.mpr hlat]

/-- The two registers that mark a group as retired. -/
def Block.markRetired (b : Block) (n g : Nat) : Block :=
  (b.wr (Reg.ST_LANE_STATE.RETIRED n) (b.rd (Reg.ST_LANE_STATE.RETIRED n) ||| 2 ^ g)).wr (Reg.FC_BUCKET.STRUCK (Src.laneGroup n g)) 1

theorem Fld.apart_struck (f : Fld) (src : Nat) (h : f.off < 0x9020000) : f.Apart (Reg.FC_BUCKET.STRUCK src) :=
  .inl (by simp [Reg.FC_BUCKET.STRUCK]; omega)

section
variable {n g : Nat} (b : Block)

theorem Block.rd_markRetired_of_site {f : Fld} (hf : f.lo + f.w ≤ 64) (hsite : f.off < 0x9020000)
    (hapart : f.Apart (Reg.ST_LANE_STATE.RETIRED n)) : (b.markRetired n g).rd f = b.rd f := by
  rw [Block.markRetired, Block.rd_wr_of_apart _ _ _ _ hf (Fld.apart_struck f _ hsite), Block.rd_wr_of_apart _ _ _ _ hf hapart]

theorem Block.rd_markRetired (hn : n < 16) (hg : g < 8) : (b.markRetired n g).rd (Reg.ST_LANE_STATE.RETIRED n) = b.rd (Reg.ST_LANE_STATE.RETIRED n) ||| 2 ^ g := by
  have hlt : b.rd (Reg.ST_LANE_STATE.RETIRED n) ||| 2 ^ g < 2 ^ 8 :=
    Nat.or_lt_two_pow (b.retired_lt n) (Nat.pow_lt_pow_right (by decide) hg)
  rw [Block.markRetired, Block.rd_wr_of_apart _ _ _ _ (by decide : 0 + 8 ≤ 64)
    (Fld.apart_struck _ _ (by simp [Reg.ST_LANE_STATE.RETIRED]; omega)), Block.rd_wr_same _ _ _ (by decide : 0 + 8 ≤ 64)]
  exact Nat.mod_eq_of_lt hlt

end

section
variable {b : Block} {n g : Nat} (hlat : 12 ≤ n) (hn : n < 16) (hg : g < 8) (hup : b.linkUp n = true)
  (hrecon : (b.site n).link.recon = none) (hleft : b.rd (Reg.ST_LANE_STATE.RETIRED n) ||| 2 ^ g ≠ 255)
include hlat hn hg hup hrecon hleft

theorem Block.retireGroup_lateral (hon : (b.rd (Reg.ST_LANE_STATE.RETIRED n)).testBit g = false) : b.retireGroup n g =
    if b.linkState n = Link.WIDTH_CHANGE ∨
        255 - (b.rd (Reg.ST_LANE_STATE.RETIRED n) ||| 2 ^ g) = b.rd (Reg.ST_STATUS.WIDTH_SET n) then b.markRetired n g
    else (b.markRetired n g).wr (Reg.ST_STATUS.WIDTH_SET n) (255 - (b.rd (Reg.ST_LANE_STATE.RETIRED n) ||| 2 ^ g)) := by
  have hretired := b.rd_markRetired hn hg
  have hstate : (b.markRetired n g).linkState n = b.linkState n := b.rd_markRetired_of_site (by decide : 0 + 4 ≤ 64)
    (by simp [Reg.ST_STATUS.STATE]; omega) (by simp [Fld.Apart, Reg.ST_STATUS.STATE, Reg.ST_LANE_STATE.RETIRED])
  have hwidth : (b.markRetired n g).rd (Reg.ST_STATUS.WIDTH_SET n) = b.rd (Reg.ST_STATUS.WIDTH_SET n) :=
    b.rd_markRetired_of_site (by decide : 8 + 8 ≤ 64)
      (by simp [Reg.ST_STATUS.WIDTH_SET]; omega) (by simp [Fld.Apart, Reg.ST_STATUS.WIDTH_SET, Reg.ST_LANE_STATE.RETIRED])
  have hup' : (b.markRetired n g).linkUp n = true := by
    rw [Block.linkUp, hstate]
    exact hup
  have hgroup : b.retireGroup n g = (b.markRetired n g).narrow n := by
    simp [Block.retireGroup, hon, setBits_one_eq_or hon, hrecon, Block.markRetired]
  rw [hgroup, Block.narrow_lateral hlat hup' (by rwa [hretired]), hretired, hstate, hwidth]

theorem Block.halfOff : b.HalfOff (if (b.rd (Reg.ST_LANE_STATE.RETIRED n)).testBit g then b else (b.retireGroup n g).laneFail n g) n g := by
  cases hon : (b.rd (Reg.ST_LANE_STATE.RETIRED n)).testBit g with
  | true =>
    have hsame : b.rd (Reg.ST_LANE_STATE.RETIRED n) ||| 2 ^ g = b.rd (Reg.ST_LANE_STATE.RETIRED n) := by
      apply Nat.eq_of_testBit_eq
      intro i
      rw [Nat.testBit_or, Nat.testBit_two_pow]
      by_cases hi : g = i
      · simp [← hi, hon]
      · simp [hi]
    exact ⟨.refl b n _, rfl, rfl, hsame.symm, by rw [hon]; rfl, fun _ => rfl, fun h => by simp [hon] at h⟩
  | false =>
    have hmark : b.SiteOnly (b.markRetired n g) n
        [Reg.ST_LANE_STATE.RETIRED n, Reg.ST_STATUS.WIDTH_SET n, Reg.FC_BUCKET.STRUCK (Src.laneGroup n g)] :=
      ((Block.SiteOnly.refl b n _).wr _ _ (by simp)).wr _ _ (by simp)
    have hretired := b.rd_markRetired hn hg
    rw [if_neg (by simp), Block.retireGroup_lateral hlat hn hg hup hrecon hleft hon]
    split
    · next hkeep =>
      refine ⟨hmark.pennant _ _ _ _, by simp [Block.laneFail, Block.markRetired], by simp [Block.laneFail, Block.markRetired],
        (Block.rd_pennant ..).trans hretired, ?_,
        fun h => by simp [hon] at h, fun _ hchange => ?_⟩
      · rw [hon, if_neg Bool.false_ne_true]
        exact Block.pennant_fc_of_eq _ _ _ _ (by simp [Block.markRetired]) (by simp [Block.markRetired])
      · have hwidth : (b.markRetired n g).rd (Reg.ST_STATUS.WIDTH_SET n) = b.rd (Reg.ST_STATUS.WIDTH_SET n) :=
          b.rd_markRetired_of_site (by decide : 8 + 8 ≤ 64) (by simp [Reg.ST_STATUS.WIDTH_SET]; omega)
            (by simp [Fld.Apart, Reg.ST_STATUS.WIDTH_SET, Reg.ST_LANE_STATE.RETIRED])
        rw [Block.laneFail, Block.rd_pennant, Block.rd_pennant, hwidth, hretired]
        exact (hkeep.resolve_left hchange).symm
    · have hretired' : ((b.markRetired n g).wr (Reg.ST_STATUS.WIDTH_SET n) (255 - (b.rd (Reg.ST_LANE_STATE.RETIRED n) ||| 2 ^ g))).rd
          (Reg.ST_LANE_STATE.RETIRED n) = b.rd (Reg.ST_LANE_STATE.RETIRED n) ||| 2 ^ g := by
        rw [Block.rd_wr_of_off_ne _ _ _ _ (by simp [Reg.ST_LANE_STATE.RETIRED, Reg.ST_STATUS.WIDTH_SET]), hretired]
      refine ⟨(hmark.wr _ _ (by simp)).pennant _ _ _ _, by simp [Block.laneFail, Block.markRetired],
        by simp [Block.laneFail, Block.markRetired], (Block.rd_pennant ..).trans hretired', ?_, fun h => by simp [hon] at h, fun _ _ => ?_⟩
      · rw [hon, if_neg Bool.false_ne_true]
        exact Block.pennant_fc_of_eq _ _ _ _ (by simp [Block.markRetired]) (by simp [Block.markRetired])
      · rw [Block.laneFail, Block.rd_pennant, Block.rd_pennant, hretired', Block.rd_wr_same _ _ _ (by decide : 8 + 8 ≤ 64)]
        exact Nat.mod_eq_of_lt (by simp [Reg.ST_STATUS.WIDTH_SET]; omega)

end

end Sys2Proof.Machine
end
section
/-! SUPPORT. ADAPTER_CRC_ERROR, MODULE_ACTIVE_STATE_CHANGE and MODULE_RETURN_TIMEOUT on a lateral link that is up (R161). -/

namespace Sys2Proof.Machine

section
variable {s : State} {site : SiteNo} (hlat : 12 ≤ site.val) (hup : s.blk.linkUp site = true)
include hlat hup

/-! ### Adapter errors -/

theorem adapterCrcError_raises (md : Fin 4) (n : Fin 256) (hfirst : SMap.get (fun _ => 0) (s.blk.site site).link.eventAt (2 * md.val) = 0) :
    Yields (.adapterCrcError site md n) s fun t =>
      t.blk.rd (Reg.ST_REPLAY.COUNT site) = satAdd 32 (s.blk.rd (Reg.ST_REPLAY.COUNT site)) n ∧
      t.blk.rd (Reg.ST_CRC_ERR.COUNT site) = satAdd 32 (s.blk.rd (Reg.ST_CRC_ERR.COUNT site)) 1 ∧
      s.blk.Raised t.blk (Src.laneGroup site (2 * md.val)) Kind.LANE_EVENT 0 0 ∧ s.SiteStep t site ∧ t.blk.out = s.blk.out ∧
      s.blk.FieldsKept t.blk [Reg.ST_REPLAY.COUNT site, Reg.ST_CRC_ERR.COUNT site, Reg.ST_GROUP_ERR.COUNT site] := by
  have hcounted : s.blk.SiteOnly (s.blk.count (Reg.ST_REPLAY.COUNT site) n) site
      [Reg.ST_REPLAY.COUNT site, Reg.ST_CRC_ERR.COUNT site, Reg.ST_GROUP_ERR.COUNT site] := (Block.SiteOnly.refl ..).count _ _ (by simp)
  have herror := (s.blk.count (Reg.ST_REPLAY.COUNT site) n).laneError_siteOnly site (2 * md.val)
  have honly := hcounted.trans (herror.mono (by simp))
  refine yields_of_upd rfl (if_neg (by simp [Site.stacked, hup]; omega)) ⟨?_, ?_, ?_, honly.step, Block.laneError_out .., honly.fields⟩
  · rw [herror.rd (by decide : 0 + 32 ≤ 64) (by simp [Fld.Apart, Reg.ST_REPLAY.COUNT, Reg.ST_CRC_ERR.COUNT, Reg.ST_GROUP_ERR.COUNT]),
      Block.rd_count_same _ _ _ (by decide : 0 + 32 ≤ 64)]
    rfl
  · rw [Block.rd_laneError, Block.count_eq, Block.rd_wr_of_off_ne _ _ _ _ (by simp [Reg.ST_REPLAY.COUNT, Reg.ST_CRC_ERR.COUNT])]
  · rw [Block.Raised, Block.laneError_eq, if_neg (by simp [hfirst])]
    exact Block.pennant_fc_of_eq _ _ _ _ (by simp) (by simp)

theorem adapterCrcError_joins (md : Fin 4) (n : Fin 256) (hlast : SMap.get (fun _ => 0) (s.blk.site site).link.eventAt (2 * md.val) ≠ 0)
    (hrecent : s.blk.now + 1 < SMap.get (fun _ => 0) (s.blk.site site).link.eventAt (2 * md.val) + 1600) :
    Yields (.adapterCrcError site md n) s fun t =>
      t.blk.rd (Reg.ST_CRC_ERR.COUNT site) = satAdd 32 (s.blk.rd (Reg.ST_CRC_ERR.COUNT site)) 1 ∧
      OnlyFields s t [Reg.ST_REPLAY.COUNT site, Reg.ST_CRC_ERR.COUNT site] := by
  have hjoins : (s.blk.count (Reg.ST_REPLAY.COUNT site) n).laneError site (2 * md.val) =
      (s.blk.count (Reg.ST_REPLAY.COUNT site) n).count (Reg.ST_CRC_ERR.COUNT site) 1 := by
    rw [Block.laneError_eq, if_pos ⟨by simpa using hlast, by simpa using hrecent⟩]
  refine yields_of_upd rfl ((if_neg (by simp [Site.stacked, hup]; omega)).trans hjoins) ⟨?_, rfl, ?_⟩
  · rw [Block.rd_count_same _ _ _ (by decide : 0 + 32 ≤ 64), Block.count_eq,
      Block.rd_wr_of_off_ne _ _ _ _ (by simp [Reg.ST_REPLAY.COUNT, Reg.ST_CRC_ERR.COUNT])]
    rfl
  · exact ((Block.FieldsKept.refl _ _).count _ _ (by simp)).count _ _ (by simp)

/-! ### Modules that leave and return -/

theorem moduleActiveStateChange_leaves (md : Fin 4) (rep : Fin 16) : Yields (.moduleActiveStateChange site md false rep none) s fun t =>
    SMap.get (fun _ => 0) (t.blk.site site).link.moduleDown md = s.blk.now + 1 ∧ s.SiteStep t site ∧
    t.blk.regs = s.blk.regs ∧ t.blk.fc = s.blk.fc ∧ t.blk.out = s.blk.out := by
  have hgo : s.blk.moduleState site md false rep none = s.blk.moduleRetrain site md := by
    simp [Block.moduleState, Site.stacked, Nat.not_lt.mpr hlat, hup]
  refine yields_of_upd rfl hgo ⟨?_, ((Block.SiteOnly.refl _ _ []).modLink _).step, rfl, rfl, rfl⟩
  simp [Block.moduleRetrain]

theorem moduleActiveStateChange_returns (md : Fin 4) (rep : Fin 16)
    (hdown : SMap.get (fun _ => 0) (s.blk.site site).link.moduleDown md ≠ 0) :
    let flits := SMap.get (fun _ => []) (s.blk.site site).link.flitWait md
    Yields (.moduleActiveStateChange site md true rep none) s fun t =>
      SMap.get (fun _ => 0) (t.blk.site site).link.moduleDown md = 0 ∧
      bits (t.blk.rd (Reg.ST_LANE_STATE.REPAIRED site)) (4 * md) 4 = rep ∧ s.SiteStep t site ∧ t.blk.fc = s.blk.fc ∧
      (flits = [] ∨ (s.blk.modules site).contains md.val → t.blk.out = s.blk.out ++ flits.map (Out.flit site md)) ∧
      SMap.get (fun _ => []) (t.blk.site site).link.flitWait md = [] ∧ s.blk.FieldsKept t.blk [Reg.ST_LANE_STATE.REPAIRED site] := by
  intro flits
  let shown : Block := (s.blk.modLink site fun l => { l with moduleDown := SMap.put (fun _ => 0) l.moduleDown md 0 }).wr
    (Reg.ST_LANE_STATE.REPAIRED site) (setBits (s.blk.rd (Reg.ST_LANE_STATE.REPAIRED site)) (4 * md) 4 rep)
  have hgo : s.blk.moduleState site md true rep none = shown.moduleBack site md := by
    simp [Block.moduleState, Site.stacked, Nat.not_lt.mpr hlat, hup, hdown, shown]
  have hshown : s.blk.SiteOnly shown site [Reg.ST_LANE_STATE.REPAIRED site] :=
    ((Block.SiteOnly.refl ..).modLink _).wr _ _ (by simp)
  have hback := Block.moduleBack_back (b := shown) (n := site) (m := md) (by simp [shown])
  have honly := hshown.trans (hback.only.mono (by simp))
  have hmodules : shown.modules site = s.blk.modules site := by
    simp only [Block.modules, hshown.rd (g := Reg.ST_STATUS.WIDTH_SET site) (by decide : 8 + 8 ≤ 64)
      (by simp [Fld.Apart, Reg.ST_STATUS.WIDTH_SET, Reg.ST_LANE_STATE.REPAIRED])]
  refine yields_of_upd rfl hgo ⟨?_, ?_, honly.step, hback.fc.trans (by simp [shown]), ?_, hback.wait, honly.fields⟩
  · rw [hback.down]
    simp [shown]
  · have hrep : shown.rd (Reg.ST_LANE_STATE.REPAIRED site) =
        setBits (s.blk.rd (Reg.ST_LANE_STATE.REPAIRED site)) (4 * md) 4 rep % 2 ^ 16 := Block.rd_wr_same _ _ _ (by decide : 16 + 16 ≤ 64)
    rw [Block.rd, hback.regs, ← Block.rd, hrep, bits_mod_two_pow _ _ _ _ (by omega), bits_setBits_same]
    exact Nat.mod_eq_of_lt rep.isLt
  · intro hsends
    have hflits : SMap.get (fun _ => []) (shown.site site).link.flitWait md = flits := by simp [shown, flits]
    rw [hback.out (by rwa [hflits, hmodules]), hflits]
    simp [shown]

/-! ### A module that does not return -/

/-- Half `h` of module `m` is retired, if it was not before, with its pennant. -/
def Block.retireHalf (b : Block) (n m h : Nat) : Block :=
  if (b.rd (Reg.ST_LANE_STATE.RETIRED n)).testBit (2 * m + h) then b else (b.retireGroup n (2 * m + h)).laneFail n (2 * m + h)

omit hlat hup in
theorem Block.retireHalves_both (b : Block) (n m : Nat) : b.retireHalves n m 3 = (b.retireHalf n m 0).retireHalf n m 1 := rfl

omit hlat hup in
theorem or_halves (md : Fin 4) (r : Nat) : r ||| 2 ^ (2 * md.val + 0) ||| 2 ^ (2 * md.val + 1) = r ||| 3 * 2 ^ (2 * md.val) := by
  have h : ∀ md : Fin 4, 2 ^ (2 * md.val + 0) ||| 2 ^ (2 * md.val + 1) = 3 * 2 ^ (2 * md.val) := by decide
  rw [Nat.or_assoc, h]

omit hlat hup in
theorem or_halves_lt (md : Fin 4) {r : Nat} (hr : r < 256) : r ||| 3 * 2 ^ (2 * md.val) < 256 := by
  have h : ∀ md : Fin 4, 3 * 2 ^ (2 * md.val) < 2 ^ 8 := by decide
  exact Nat.or_lt_two_pow (n := 8) hr (h md)

omit hlat hup in
theorem Block.retireHalves_lateral {b : Block} {n : Nat} (hlat : 12 ≤ n) (hn : n < 16) (hup : b.linkUp n = true)
    (hrecon : (b.site n).link.recon = none) (md : Fin 4)
    (hleft : b.rd (Reg.ST_LANE_STATE.RETIRED n) ||| 3 * 2 ^ (2 * md.val) ≠ 255) :
    ∃ c, b.HalfOff c n (2 * md.val + 0) ∧ c.HalfOff (b.retireHalves n md 3) n (2 * md.val + 1) := by
  have hfirst : b.HalfOff (b.retireHalf n md 0) n (2 * md.val + 0) := by
    refine Block.halfOff hlat hn (by omega) hup hrecon fun h => hleft ?_
    have hfull : ∀ md : Fin 4, 255 ||| 2 ^ (2 * md.val + 1) = 255 := by decide
    rw [← or_halves, h, hfull]
  refine ⟨_, hfirst, ?_⟩
  rw [Block.retireHalves_both]
  refine Block.halfOff hlat hn (by omega) ?_ ?_ ?_
  · have hstate : (b.retireHalf n md 0).linkState n = b.linkState n := hfirst.only.rd (by decide : 0 + 4 ≤ 64) (by
      simp [Fld.Apart, Reg.ST_STATUS.STATE, Reg.ST_LANE_STATE.RETIRED, Reg.ST_STATUS.WIDTH_SET, Reg.FC_BUCKET.STRUCK])
    rw [Block.linkUp, hstate]
    exact hup
  · rw [Block.site, hfirst.sites]
    exact hrecon
  · rw [hfirst.retired, or_halves]
    exact hleft

omit hlat hup in
/-- A pennant for each of two events that `p` does not rule out. -/
theorem foldl_pennants (b : Block) (p : Nat → Bool) (src : Nat → Nat) (k : Nat) :
    ((List.range 2).filter fun h => !p h).foldl (fun b h => b.pennant (src h) k 0 0) b =
      if p 1 then (if p 0 then b else b.pennant (src 0) k 0 0)
      else (if p 0 then b else b.pennant (src 0) k 0 0).pennant (src 1) k 0 0 := by
  have hrange : List.range 2 = [0, 1] := rfl
  cases h0 : p 0 <;> cases h1 : p 1 <;> simp [hrange, h0, h1]

theorem moduleReturnTimeout_retires (md : Fin 4) (hdown : SMap.get (fun _ => 0) (s.blk.site site).link.moduleDown md ≠ 0)
    (hrecon : (s.blk.site site).link.recon = none) :
    let flits := SMap.get (fun _ => []) (s.blk.site site).link.flitWait md
    let left := s.blk.rd (Reg.ST_LANE_STATE.RETIRED site) ||| 3 * 2 ^ (2 * md.val)
    left % 256 ≠ 255 → Yields (.moduleReturnTimeout site md) s fun t =>
      t.blk.rd (Reg.ST_LANE_STATE.RETIRED site) = left ∧
      (t.blk.rd (Reg.ST_LANE_STATE.RETIRED site) ≠ s.blk.rd (Reg.ST_LANE_STATE.RETIRED site) →
        s.blk.linkState site ≠ Link.WIDTH_CHANGE → t.blk.rd (Reg.ST_STATUS.WIDTH_SET site) = 255 - left % 256) ∧
      t.blk.fc = (((List.range 2).filter fun h => !(s.blk.rd (Reg.ST_LANE_STATE.RETIRED site)).testBit (2 * md + h)).foldl
        (fun b h => b.pennant (Src.laneGroup site (2 * md + h)) Kind.LANE_FAIL 0 0) s.blk).fc ∧
      s.blk.FieldsKept t.blk [Reg.ST_LANE_STATE.RETIRED site, Reg.ST_STATUS.WIDTH_SET site,
        Reg.FC_BUCKET.STRUCK (Src.laneGroup site (2 * md)), Reg.FC_BUCKET.STRUCK (Src.laneGroup site (2 * md + 1))] ∧
      s.SiteStep t site ∧ (flits = [] → t.blk.out = s.blk.out) := by
  intro flits left hleft
  have hlt : left < 256 := or_halves_lt md (s.blk.retired_lt site)
  rw [Nat.mod_eq_of_lt hlt] at hleft ⊢
  let up : Block := s.blk.modLink site fun l => { l with moduleDown := SMap.put (fun _ => 0) l.moduleDown md 0 }
  obtain ⟨c, hone, htwo⟩ := Block.retireHalves_lateral (b := up) hlat site.isLt hup (by simpa [up] using hrecon) md hleft
  have hretired : (up.retireHalves site md 3).rd (Reg.ST_LANE_STATE.RETIRED site) = left := by
    rw [htwo.retired, hone.retired, or_halves]
    rfl
  have hsites : (up.retireHalves site md 3).sites = up.sites := htwo.sites.trans hone.sites
  have hlink : (up.retireHalves site md 3).site site = up.site site := by rw [Block.site, hsites]; rfl
  have hback := Block.moduleBack_back (b := up.retireHalves site md 3) (n := site) (m := md) (by simp [hlink, up])
  have hup' : s.blk.SiteOnly up site [Reg.ST_LANE_STATE.RETIRED site, Reg.ST_STATUS.WIDTH_SET site,
        Reg.FC_BUCKET.STRUCK (Src.laneGroup site (2 * md)), Reg.FC_BUCKET.STRUCK (Src.laneGroup site (2 * md + 1))] :=
    (Block.SiteOnly.refl ..).modLink _
  have honly := hup'.trans ((hone.only.mono (by simp)).trans ((htwo.only.mono (by simp)).trans (hback.only.mono (by simp))))
  refine yields_of_upd rfl (if_neg hdown) ⟨?_, ?_, ?_, honly.fields, honly.step, fun hnone => ?_⟩
  · exact (Block.rd_of_regs hback.regs _).trans hretired
  · intro hne hchange
    have hstate : c.linkState site = s.blk.linkState site := hone.only.rd (by decide : 0 + 4 ≤ 64) (by
      simp [Fld.Apart, Reg.ST_STATUS.STATE, Reg.ST_LANE_STATE.RETIRED, Reg.ST_STATUS.WIDTH_SET, Reg.FC_BUCKET.STRUCK])
    rw [Block.rd_of_regs hback.regs] at hne ⊢
    rw [hretired] at hne
    cases hon : (c.rd (Reg.ST_LANE_STATE.RETIRED site)).testBit (2 * md.val + 1) with
    | false => rw [htwo.width hon (by rwa [hstate]), hretired]
    | true =>
      rw [htwo.same hon] at hretired ⊢
      cases hon' : (up.rd (Reg.ST_LANE_STATE.RETIRED site)).testBit (2 * md.val + 0) with
      | false => rw [hone.width hon' hchange, hretired]
      | true =>
        rw [hone.same hon'] at hretired
        exact absurd hretired.symm hne
  · have hbit : (c.rd (Reg.ST_LANE_STATE.RETIRED site)).testBit (2 * md.val + 1) =
        (s.blk.rd (Reg.ST_LANE_STATE.RETIRED site)).testBit (2 * md.val + 1) := by
      rw [hone.retired, Nat.testBit_or, Nat.testBit_two_pow]
      simp [up]
    rw [hback.fc, htwo.fc, hbit, foldl_pennants]
    have hfirst : c.fc = (if (s.blk.rd (Reg.ST_LANE_STATE.RETIRED site)).testBit (2 * md.val + 0) then s.blk
        else s.blk.pennant (Src.laneGroup site (2 * md.val + 0)) Kind.LANE_FAIL 0 0).fc := by
      rw [apply_ite Block.fc]
      exact hone.fc
    split
    · exact hfirst
    · refine Block.pennant_fc_of_eq _ _ _ _ hfirst (hone.only.now.trans ?_)
      split <;> rfl
  · rw [hback.out (.inl (by simpa [hlink, up] using hnone)), htwo.out, hone.out]
    simp [hlink, up, flits] at hnone ⊢
    exact hnone

end

/-! ### Stacked frames and lateral modules settled -/

/-- Settles O26: a frame's effect on a stacked link that is up is read off the block it leaves, and a lateral module's events are
one error, a return, or two halves retired in turn. That a module's errors are those of its lane group 2m is the model's choice
(assumption 66). -/
theorem siteLinks : Obligations.SiteLinks := by
  constructor
  · intro s site hstacked hup l last fill wire nak stuck
    refine ⟨fun f hclear hfew hstuck => ⟨fun hcrc hack => ⟨fun hseq => ?_, fun hseq hany hold => ?_⟩, fun k3 hbad => ?_,
      fun hcrc n hfind hack hwait => ?_, fun hcrc hack hchange hnaks => ?_⟩, fun hany => ?_, fun hasked => ?_⟩
    · exact dataFrame_of_expected hstacked hup hclear hfew hstuck hcrc hack hseq
    · exact dataFrame_of_repeat hstacked hup hclear hfew hstuck hcrc hack hseq hany hold
    · exact dataFrame_of_bad hstacked hup hclear hfew hbad
    · exact idleFrame_releases hstacked hup hclear hfew hcrc hfind hack hwait
    · exact nakFrame_resends hstacked hup hclear hfew hstuck hcrc hack hchange hnaks
    · exact ackTimer_sends hup hstacked hany
    · exact nakResend_sends hup hasked
  · intro s site hlat hup l
    refine ⟨fun md n => ⟨adapterCrcError_raises hlat hup md n, adapterCrcError_joins hlat hup md n⟩, fun md =>
      ⟨moduleActiveStateChange_leaves hlat hup md, moduleActiveStateChange_returns hlat hup md,
        moduleReturnTimeout_retires hlat hup md⟩⟩

end Sys2Proof.Machine
end
section
/-! SUPPORT. The training of a site's link (R156, R157, R163–R166): what its operations leave, each as a step of the one site. -/

namespace Sys2Proof.Machine

/-! ### Sideband messages, link states and clocks -/

section
variable (b : Block) (n : Nat)

@[simp] theorem Block.sideband_out (op d0 d1 : Nat) :
    (b.sideband n op d0 d1).out = b.out ++ [.sideband n (Sideband.wire op (b.site n).link.sbTag d0 d1)] := rfl
@[simp] theorem Block.sideband_fc (op d0 d1 : Nat) : (b.sideband n op d0 d1).fc = b.fc := rfl
@[simp] theorem Block.sideband_now (op d0 d1 : Nat) : (b.sideband n op d0 d1).now = b.now := rfl
@[simp] theorem Block.rd_sideband (op d0 d1 : Nat) (f : Fld) : (b.sideband n op d0 d1).rd f = b.rd f := rfl
@[simp] theorem Block.linkState_sideband (op d0 d1 k : Nat) : (b.sideband n op d0 d1).linkState k = b.linkState k := rfl

/-- A message that expects no reply is not kept. -/
theorem Block.link_sideband {op : Nat} (h : Sideband.reply op = none) (d0 d1 : Nat) :
    ((b.sideband n op d0 d1).site n).link = { (b.site n).link with sbTag := ((b.site n).link.sbTag + 1) % 256 } := by
  unfold Block.sideband
  simp [h]

@[simp] theorem Block.setLink_out (st : Nat) : (b.setLink n st).out = b.out := rfl
@[simp] theorem Block.setLink_fc (st : Nat) : (b.setLink n st).fc = b.fc := rfl
@[simp] theorem Block.setLink_now (st : Nat) : (b.setLink n st).now = b.now := rfl

theorem Block.linkState_setLink {st : Nat} (h : st < 16) : (b.setLink n st).linkState n = st :=
  (Block.rd_wr_same _ _ _ (by decide : 0 + 4 ≤ 64)).trans (Nat.mod_eq_of_lt h)

@[simp] theorem Block.siteClocks_out : (b.siteClocks n).out = b.out := rfl
@[simp] theorem Block.siteClocks_fc : (b.siteClocks n).fc = b.fc := rfl
@[simp] theorem Block.rd_siteClocks (f : Fld) : (b.siteClocks n).rd f = b.rd f := rfl
@[simp] theorem Block.linkState_siteClocks (k : Nat) : (b.siteClocks n).linkState k = b.linkState k := rfl

@[simp] theorem Block.link_siteClocks : ((b.siteClocks n).site n).link = { (b.site n).link with
    clocksRun := b.is (Reg.ST_CFG.EN n) && !(b.site n).link.absent && (!b.is (Reg.ST_CTRL.CLK_HOLD n) || b.enrolled n) } := by
  unfold Block.siteClocks
  rw [Block.site_modLink_same]

@[simp] theorem Block.sendHello_out :
    (b.sendHello n).out = b.out ++ [.sideband n (Sideband.wire 0x01 (b.site n).link.sbTag 1 0)] := by
  simp [Block.sendHello]
@[simp] theorem Block.sendHello_fc : (b.sendHello n).fc = b.fc := rfl
@[simp] theorem Block.linkState_sendHello (k : Nat) : (b.sendHello n).linkState k = b.linkState k := rfl

theorem Block.link_sendHello : ((b.sendHello n).site n).link =
    { (b.site n).link with helloAt := b.now, sbTag := ((b.site n).link.sbTag + 1) % 256 } := by
  rw [Block.sendHello, Block.link_sideband _ _ rfl]
  simp

end

namespace Block.SiteOnly

variable {b c : Block} {n : Nat} {fs : List Fld}

theorem setLink (h : b.SiteOnly c n fs) (st : Nat) (hst : Reg.ST_STATUS.STATE n ∈ fs) : b.SiteOnly (c.setLink n st) n fs :=
  h.wr _ _ hst

theorem siteClocks (h : b.SiteOnly c n fs) : b.SiteOnly (c.siteClocks n) n fs := h.modLink _

theorem sendHello (h : b.SiteOnly c n fs) : b.SiteOnly (c.sendHello n) n fs := (h.modLink _).sideband _ _ _

theorem propose (h : b.SiteOnly c n fs) (r : Recon) (hst : Reg.ST_STATUS.STATE n ∈ fs) : b.SiteOnly (c.propose n r) n fs :=
  ((h.modLink _).setLink _ hst).sideband _ _ _

end Block.SiteOnly

/-! ### Training starts (Table SIT-5, Table SIT-7) -/

/-- `t` is `s` after the training of site `n` has started: SRST_L is high, and LINK_HELLO has gone out. -/
def State.StartsTraining (s t : State) (n : Nat) : Prop :=
  t.blk.linkState n = Link.TRAINING ∧ (t.blk.site n).link.srstLow = false ∧
    (t.blk.site n).link.trainAt = (if (s.blk.site n).link.srstLow then some s.blk.now else (s.blk.site n).link.trainAt) ∧
    s.SiteStep t n ∧ t.blk.fc = s.blk.fc ∧ t.blk.out = s.blk.out ++ [.sideband n (Sideband.wire 0x01 0 1 0)] ∧
    s.blk.FieldsKept t.blk [Reg.ST_STATUS.STATE n]

theorem Block.startTraining_siteOnly (b : Block) (n : Nat) : b.SiteOnly (b.startTraining n) n [Reg.ST_STATUS.STATE n] := by
  unfold Block.startTraining
  exact ((((Block.SiteOnly.refl b n _).setLink _ (by simp)).modLink _).siteClocks).sendHello

section
variable (b : Block) (n : Nat)

theorem Block.linkState_startTraining : (b.startTraining n).linkState n = Link.TRAINING := by
  unfold Block.startTraining
  rw [Block.linkState_sendHello, Block.linkState_siteClocks, Block.linkState_modLink, Block.linkState_setLink _ _ (by decide)]

theorem Block.link_startTraining : ((b.startTraining n).site n).link.srstLow = false ∧
    ((b.startTraining n).site n).link.trainAt =
      (if (b.site n).link.srstLow then some b.now else (b.site n).link.trainAt) := by
  unfold Block.startTraining
  rw [Block.link_sendHello]
  cases h : (b.site n).link.srstLow <;> simp [h]

@[simp] theorem Block.startTraining_fc : (b.startTraining n).fc = b.fc := by
  unfold Block.startTraining
  simp

theorem Block.startTraining_out : (b.startTraining n).out = b.out ++ [.sideband n (Sideband.wire 0x01 0 1 0)] := by
  unfold Block.startTraining
  simp [LinkState.dropped, LinkState.reset]

end

theorem State.startsTraining (s : State) (n : Nat) : s.StartsTraining { s with blk := s.blk.startTraining n } n := by
  have honly := s.blk.startTraining_siteOnly n
  obtain ⟨hlow, htrain⟩ := s.blk.link_startTraining n
  unfold State.StartsTraining
  dsimp only
  exact ⟨s.blk.linkState_startTraining n, hlow, htrain, honly.step, s.blk.startTraining_fc n, s.blk.startTraining_out n, honly.fields⟩

section
variable {s : State} {site : SiteNo}

theorem siteRetrain_starts (hst : s.blk.linkState site = Link.LOST ∨ s.blk.linkState site = Link.OFF)
    (hen : s.blk.rd (Reg.ST_CFG.EN site) = 1) (hpresent : (s.blk.site site).link.absent = false) :
    Yields (.siteRetrain site) s (s.StartsTraining · site) :=
  yields_of_upd rfl (if_pos ⟨hst, by simp [Block.is, hen], by simp [hpresent]⟩) (s.startsTraining site)

theorem siteResetRelease_starts (hst : s.blk.linkState site = Link.RESETTING) :
    Yields (.siteResetRelease site) s (s.StartsTraining · site) :=
  yields_of_upd rfl (if_pos hst) (s.startsTraining site)

theorem linkHello_heard (hst : s.blk.linkState site = Link.TRAINING) : Yields (.linkHello site) s fun t =>
    (t.blk.site site).link = { (s.blk.site site).link with hello := true, heartbeatAt := s.blk.now } ∧ s.SiteStep t site ∧
    t.blk.regs = s.blk.regs ∧ t.blk.fc = s.blk.fc ∧ t.blk.out = s.blk.out :=
  yields_of_upd rfl (if_pos hst) ⟨by rw [Block.site_modLink_same], ((Block.SiteOnly.refl _ _ []).modLink _).step, rfl, rfl, rfl⟩

theorem linkHello_retrains (hst : s.blk.linkState site = Link.LOST) (hauto : s.blk.rd (Reg.ST_CFG.AUTO_RETRAIN site) = 1)
    (hen : s.blk.rd (Reg.ST_CFG.EN site) = 1) :
    Yields (.linkHello site) s fun t => s.StartsTraining t site ∧ (t.blk.site site).link.hello = true := by
  have hgo : s.blk.linkHello site = (s.blk.startTraining site).modLink site fun l =>
      { l with hello := true, heartbeatAt := (s.blk.startTraining site).now } := by
    simp [Block.linkHello, hst, Block.is, hauto, hen, Link.LOST, Link.TRAINING]
  have honly := (s.blk.startTraining_siteOnly site).modLink fun l =>
      { l with hello := true, heartbeatAt := (s.blk.startTraining site).now }
  obtain ⟨hlow, htrain⟩ := s.blk.link_startTraining site
  refine yields_of_upd rfl hgo ⟨⟨?_, ?_, ?_, honly.step, ?_, ?_, honly.fields⟩, ?_⟩
  · rw [Block.linkState_modLink, Block.linkState_startTraining]
  · simpa using hlow
  · simpa using htrain
  · rw [Block.modLink_fc, Block.startTraining_fc]
  · rw [Block.modLink_out, Block.startTraining_out]
  · simp

theorem linkHello_idle (hst : s.blk.linkState site = Link.LOST) (hauto : s.blk.rd (Reg.ST_CFG.AUTO_RETRAIN site) = 0) :
    exec (.linkHello site) s = .next s := by
  have hgo : s.blk.linkHello site = s.blk := by
    simp [Block.linkHello, hst, Block.is, hauto, Link.LOST, Link.TRAINING]
  rw [exec_linkHello, execLinkHello, State.upd, hgo]

/-! ### A site that is not present, its reset and its clocks -/

theorem siteTrainTimeout_idle (h : (s.blk.site site).link.trainAt = none) : exec (.siteTrainTimeout site) s = .next s := by
  have hgo : (if (s.blk.site site).link.trainAt.isSome then s.blk.siteAbsent site else s.blk) = s.blk := by simp [h]
  rw [exec_siteTrainTimeout, execSiteTrainTimeout, State.upd, hgo]

theorem testBit_setBits_one (v n x : Nat) : (setBits v n 1 x).testBit n = x.testBit 0 := by
  simp [testBit_setBits]

theorem testBit_setBits_one_of_ne (v x : Nat) {n k : Nat} (h : k ≠ n) : (setBits v n 1 x).testBit k = v.testBit k := by
  rw [testBit_setBits, if_neg (by omega)]

theorem siteTrainTimeout_absent (h : (s.blk.site site).link.trainAt ≠ none) : Yields (.siteTrainTimeout site) s fun t =>
    t.blk.linkState site = Link.OFF ∧ (t.blk.rd Reg.MH_SITE_PRESENT.PRESENT).testBit site = false ∧
    (t.blk.site site).link.absent = true ∧ (t.blk.site site).link.srstLow = true ∧
    (t.blk.site site).link.clocksRun = false ∧ s.SiteStep t site ∧ t.blk.fc = s.blk.fc ∧ t.blk.out = s.blk.out ∧
    s.blk.FieldsKept t.blk [Reg.ST_STATUS.STATE site, Reg.MH_SITE_PRESENT.PRESENT] := by
  have honly : s.blk.SiteOnly (s.blk.siteAbsent site) site [Reg.ST_STATUS.STATE site, Reg.MH_SITE_PRESENT.PRESENT] := by
    unfold Block.siteAbsent
    exact ((((Block.SiteOnly.refl s.blk site _).setLink _ (by simp)).wr _ _ (by simp)).modLink _).siteClocks
  refine yields_of_upd rfl (if_pos (Option.isSome_iff_ne_none.mpr h)) ⟨?_, ?_, ?_, ?_, ?_, honly.step, rfl, rfl, honly.fields⟩
  · unfold Block.siteAbsent
    rw [Block.linkState_siteClocks, Block.linkState_modLink, Block.linkState, Block.rd_wr_of_off_ne, ← Block.linkState,
      Block.linkState_setLink _ _ (by decide)]
    simp [Reg.ST_STATUS.STATE, Reg.MH_SITE_PRESENT.PRESENT]
    omega
  · unfold Block.siteAbsent
    rw [Block.rd_siteClocks, Block.rd_modLink, Block.rd_wr_same _ _ _ (by decide : 0 + 16 ≤ 64), Nat.testBit_mod_two_pow,
      testBit_setBits_one]
    simp
  · simp [Block.siteAbsent]
  · simp [Block.siteAbsent]
  · simp [Block.siteAbsent]

theorem clkHold_holds (on : Bool) : Yields (.clkHold site on) s fun t =>
    t.blk.rd (Reg.ST_CTRL.CLK_HOLD site) = b01 on ∧
    (t.blk.site site).link = { (s.blk.site site).link with
      clocksRun := s.blk.is (Reg.ST_CFG.EN site) && !(s.blk.site site).link.absent && (!on || s.blk.enrolled site) } ∧
    s.SiteStep t site ∧ t.blk.fc = s.blk.fc ∧ t.blk.out = s.blk.out ∧ s.blk.FieldsKept t.blk [Reg.ST_CTRL.CLK_HOLD site] := by
  have honly : s.blk.SiteOnly (s.blk.clkHold site on) site [Reg.ST_CTRL.CLK_HOLD site] :=
    ((Block.SiteOnly.refl s.blk site _).wr _ _ (by simp)).siteClocks
  have hhold : (s.blk.wr (Reg.ST_CTRL.CLK_HOLD site) (b01 on)).rd (Reg.ST_CTRL.CLK_HOLD site) = b01 on :=
    (Block.rd_wr_same _ _ _ (by decide : 2 + 1 ≤ 64)).trans (Nat.mod_eq_of_lt (b01_lt on))
  refine yields_of_upd rfl rfl ⟨hhold, ?_, honly.step, rfl, rfl, honly.fields⟩
  have hen : (s.blk.wr (Reg.ST_CTRL.CLK_HOLD site) (b01 on)).is (Reg.ST_CFG.EN site) = s.blk.is (Reg.ST_CFG.EN site) := by
    rw [Block.is_eq, Block.is_eq, Block.rd_wr_of_off_ne _ _ _ _ (by simp [Reg.ST_CTRL.CLK_HOLD, Reg.ST_CFG.EN])]
  have henrolled : (s.blk.wr (Reg.ST_CTRL.CLK_HOLD site) (b01 on)).enrolled site = s.blk.enrolled site := by
    rw [Block.enrolled, Block.enrolled, Block.rd_wr_of_off_ne _ _ _ _
      (by simp [Reg.ST_CTRL.CLK_HOLD, Reg.MH_SITE_PRESENT.ENROLLED]; omega)]
  have hon : (s.blk.wr (Reg.ST_CTRL.CLK_HOLD site) (b01 on)).is (Reg.ST_CTRL.CLK_HOLD site) = on := by
    rw [Block.is_eq, hhold]
    cases on <;> rfl
  rw [Block.clkHold, Block.link_siteClocks, hen, henrolled, hon]
  rfl

end

end Sys2Proof.Machine
end
section
/-! SUPPORT. Reconciliation of a site's widths (R163, R164) and the end of its training (R156, R157). -/

namespace Sys2Proof.Machine

/-! ### Proposals -/

section
variable (b : Block) (n : Nat) (r : Recon)

/-- The groups that the hub proposes for a reconciliation `r` (R163). -/
def Block.hubGroups : Nat :=
  ((b.site n).link.passed &&& b.unretired n) - ((b.site n).link.passed &&& b.unretired n &&& r.failed)

theorem Block.propose_eq : b.propose n r = ((b.modLink n fun l => { l with recon := some { r with hubSet := some (b.hubGroups n r), since := b.now } }).setLink n
    Link.RECONCILING).sideband n 0x03 (b.hubGroups n r + 256 * r.attempt) 0 := rfl

@[simp] theorem Block.propose_out : (b.propose n r).out =
    b.out ++ [.sideband n (Sideband.wire 0x03 (b.site n).link.sbTag (b.hubGroups n r + 256 * r.attempt) 0)] := by
  simp [Block.propose_eq]

@[simp] theorem Block.propose_fc : (b.propose n r).fc = b.fc := by
  simp [Block.propose_eq]

theorem Block.link_propose : ((b.propose n r).site n).link = { (b.site n).link with
    recon := some { r with hubSet := some (b.hubGroups n r), since := b.now }, sbTag := ((b.site n).link.sbTag + 1) % 256 } := by
  rw [Block.propose_eq, Block.link_sideband _ _ rfl]
  simp

theorem Block.linkState_propose : (b.propose n r).linkState n = Link.RECONCILING := by
  rw [Block.propose_eq, Block.linkState_sideband, Block.linkState_setLink _ _ (by decide)]

theorem Block.rd_propose {f : Fld} (hf : f.lo + f.w ≤ 64) (h : f.Apart (Reg.ST_STATUS.STATE n)) : (b.propose n r).rd f = b.rd f := by
  rw [Block.propose_eq, Block.rd_sideband, Block.setLink, Block.rd_wr_of_apart _ _ _ _ hf h, Block.rd_modLink]

/-- A proposal of a link that reconciles already changes no field. -/
theorem Block.propose_siteOnly_of_reconciling (h : b.linkState n = Link.RECONCILING) : b.SiteOnly (b.propose n r) n [] := by
  rw [Block.propose_eq]
  refine Block.SiteOnly.sideband ?_ _ _ _
  have hmod : b.SiteOnly (b.modLink n fun l => { l with recon := some { r with hubSet := some (b.hubGroups n r), since := b.now } }) n [] :=
    (Block.SiteOnly.refl b n []).modLink _
  have hsame := hmod.wr_rd (Reg.ST_STATUS.STATE n)
  rwa [Block.rd_modLink, ← Block.linkState, h] at hsame

theorem Block.hubGroups_of_none (h : r.failed = 0) : b.hubGroups n r = (b.site n).link.passed &&& b.unretired n := by
  simp [Block.hubGroups, h]

end

/-! ### An attempt that fails -/

section
variable {b : Block} {n : Nat} (r : Recon) (failed : Nat)

theorem Block.unretired_wr_of_off_ne (b : Block) (n : Nat) (f : Fld) (v : Nat) (h : f.Apart (Reg.ST_LANE_STATE.RETIRED n)) :
    (b.wr f v).unretired n = b.unretired n := by
  have h' : (Reg.ST_LANE_STATE.RETIRED n).Apart f := by
    unfold Fld.Apart at h ⊢
    omega
  simp only [Block.unretired, Block.rd_wr_of_apart b f _ v (by decide : 0 + 8 ≤ 64) h']

/-- The attempt after `r`, of which `failed` groups failed. -/
def Recon.again (r : Recon) (failed now : Nat) : Recon :=
  ⟨r.attempt + 1, none, none, none, none, r.failed ||| failed, r.hubSet.getD r.lastHub, r.siteSet.getD r.lastSite, now⟩

theorem Block.failAttempt_of_few (h : b.rd (Reg.ST_STATUS.RECON_FAILS n) < 2) : b.failAttempt n r failed =
    (b.wr (Reg.ST_STATUS.RECON_FAILS n) (b.rd (Reg.ST_STATUS.RECON_FAILS n) + 1)).propose n (r.again failed b.now) := by
  have hmin : min (b.rd (Reg.ST_STATUS.RECON_FAILS n) + 1) 3 = b.rd (Reg.ST_STATUS.RECON_FAILS n) + 1 := by omega
  have hfew : ¬ 3 ≤ b.rd (Reg.ST_STATUS.RECON_FAILS n) + 1 := by omega
  simp only [Block.failAttempt, hmin, hfew, if_false, Recon.again, Block.wr_now]

/-- What an attempt that fails leaves: it is counted, and the hub proposes again. -/
structure Block.TriesAgain (b c : Block) (n : Nat) (r : Recon) (failed : Nat) : Prop where
  fails : c.rd (Reg.ST_STATUS.RECON_FAILS n) = b.rd (Reg.ST_STATUS.RECON_FAILS n) + 1
  state : c.linkState n = Link.RECONCILING
  recon : (c.site n).link.recon = some { r.again failed b.now with hubSet := some (b.hubGroups n (r.again failed b.now)), since := b.now }
  only : b.SiteOnly c n [Reg.ST_STATUS.RECON_FAILS n, Reg.ST_STATUS.STATE n]
  kept : b.linkState n = Link.RECONCILING → b.FieldsKept c [Reg.ST_STATUS.RECON_FAILS n]
  fc : c.fc = b.fc
  out : c.out = b.out ++ [.sideband n (Sideband.wire 0x03 (b.site n).link.sbTag
    (b.hubGroups n (r.again failed b.now) + 256 * (r.attempt + 1)) 0)]

theorem Block.failAttempt_again (h : b.rd (Reg.ST_STATUS.RECON_FAILS n) < 2) : b.TriesAgain (b.failAttempt n r failed) n r failed := by
  rw [Block.failAttempt_of_few r failed h]
  let c := b.wr (Reg.ST_STATUS.RECON_FAILS n) (b.rd (Reg.ST_STATUS.RECON_FAILS n) + 1)
  have hgroups : c.hubGroups n (r.again failed b.now) = b.hubGroups n (r.again failed b.now) := by
    simp only [c, Block.hubGroups, Block.site_wr, Block.unretired_wr_of_off_ne b n _ _
      (by simp [Fld.Apart, Reg.ST_STATUS.RECON_FAILS, Reg.ST_LANE_STATE.RETIRED] : (Reg.ST_STATUS.RECON_FAILS n).Apart _)]
  have hcount : b.SiteOnly c n [Reg.ST_STATUS.RECON_FAILS n] := (Block.SiteOnly.refl ..).wr _ _ (by simp)
  have hstate : c.linkState n = b.linkState n := hcount.rd (by decide : 0 + 4 ≤ 64)
    (by simp [Fld.Apart, Reg.ST_STATUS.STATE, Reg.ST_STATUS.RECON_FAILS])
  refine ⟨?_, c.linkState_propose n _, ?_, ?_, fun hrec => ?_, (c.propose_fc n _).trans (Block.wr_fc ..), ?_⟩
  · rw [Block.rd_propose _ _ _ (by decide : 19 + 2 ≤ 64) (by simp [Fld.Apart, Reg.ST_STATUS.STATE, Reg.ST_STATUS.RECON_FAILS]),
      Block.rd_wr_same _ _ _ (by decide : 19 + 2 ≤ 64)]
    exact Nat.mod_eq_of_lt (by simp [Reg.ST_STATUS.RECON_FAILS] at h ⊢; omega)
  · rw [Block.link_propose, hgroups]
    simp only [Block.wr_now]
  · exact (hcount.mono (by simp)).propose _ (by simp)
  · exact (hcount.trans ((c.propose_siteOnly_of_reconciling n _ (hstate.trans hrec)).mono (by simp))).fields
  · rw [Block.propose_out, hgroups]
    simp only [Block.site_wr, Block.wr_out, Recon.again]

end

/-! ### The link is up -/

/-- A reconciliation that found no group failing, or one after the boot, retires none. -/
theorem Block.groupsFail_of_none {b : Block} {n mask : Nat} (h : b.rd Reg.MH_STATUS.READY = 1 ∨ mask = 0) :
    b.groupsFail n mask = b ∨
      b.groupsFail n mask = b.wr (Reg.ST_LANE_STATE.RETIRED n) (b.rd (Reg.ST_LANE_STATE.RETIRED n)) := by
  by_cases hready : b.is Reg.MH_STATUS.READY = true
  · exact .inl (if_pos hready)
  · have hmask : mask = 0 := h.resolve_left fun h => hready (by simp [Block.is, h])
    have hnone : bitList 0 8 = [] := by decide
    refine .inr ?_
    simp [Block.groupsFail, hready, hmask, hnone, Block.bootLanes]

/-- The registers of a link that is up at `set`. -/
def Block.atWidth (b : Block) (n set rate repaired : Nat) : Block :=
  ((((b.setLink n Link.TRAINED).wr (Reg.ST_STATUS.WIDTH_SET n) set).wr (Reg.ST_STATUS.RATE n) rate).wr
    (Reg.ST_LANE_STATE.REPAIRED n) repaired).wr (Reg.ST_STATUS.RECON_FAILS n) 0

/-- A site whose link is up is present. -/
def Block.trained (b : Block) (n set rate repaired : Nat) : Block :=
  let c := b.atWidth n set rate repaired
  (c.wr Reg.MH_SITE_PRESENT.PRESENT (setBits (c.rd Reg.MH_SITE_PRESENT.PRESENT) n 1 1)).modLink n fun l =>
    { l with recon := none, trainAt := none, ackAt := b.now }

section
variable (b : Block) (n set rate repaired : Nat)

theorem Block.siteLinkUp_eq : b.siteLinkUp n set repaired = (b.groupsFail n (b.groupsFailing n)).trained n set
    (if Site.stacked n then 0 else ((b.groupsFail n (b.groupsFailing n)).site n).link.rate) (if Site.stacked n then 0 else repaired) := by
  simp only [Block.siteLinkUp, Block.trained, Block.atWidth, Block.site_wr, Block.site_setLink, Block.wr_now, Block.setLink_now]

/-- The fields that the end of a training writes. -/
def Reg.trainedFields (n : Nat) : List Fld := [Reg.ST_STATUS.STATE n, Reg.ST_STATUS.WIDTH_SET n, Reg.ST_STATUS.RATE n,
  Reg.ST_LANE_STATE.REPAIRED n, Reg.ST_STATUS.RECON_FAILS n, Reg.MH_SITE_PRESENT.PRESENT]

theorem Block.trained_siteOnly : b.SiteOnly (b.trained n set rate repaired) n (Reg.trainedFields n) := by
  unfold Block.trained Block.atWidth
  refine Block.SiteOnly.modLink (Block.SiteOnly.wr ?_ _ _ (by simp [Reg.trainedFields])) _
  refine Block.SiteOnly.wr (Block.SiteOnly.wr (Block.SiteOnly.wr (Block.SiteOnly.wr ?_ _ _ ?_) _ _ ?_) _ _ ?_) _ _ ?_
  · exact (Block.SiteOnly.refl b n _).setLink _ (by simp [Reg.trainedFields])
  all_goals simp [Reg.trainedFields]

theorem Block.rd_trained {g : Fld} (hg : g.off ≠ Reg.MH_SITE_PRESENT.PRESENT.off) :
    (b.trained n set rate repaired).rd g = (b.atWidth n set rate repaired).rd g := by
  unfold Block.trained
  rw [Block.rd_modLink, Block.rd_wr_of_off_ne _ _ _ _ hg]

theorem Block.linkState_atWidth : (b.atWidth n set rate repaired).linkState n = Link.TRAINED := by
  unfold Block.atWidth Block.setLink Block.linkState
  rw [Block.rd_wr_of_apart, Block.rd_wr_of_apart, Block.rd_wr_of_apart, Block.rd_wr_of_apart, Block.rd_wr_same] <;>
    simp [Fld.Apart, Reg.ST_STATUS.STATE, Reg.ST_STATUS.WIDTH_SET, Reg.ST_STATUS.RATE, Reg.ST_LANE_STATE.REPAIRED,
      Reg.ST_STATUS.RECON_FAILS, Link.TRAINED]

theorem Block.width_atWidth : (b.atWidth n set rate repaired).rd (Reg.ST_STATUS.WIDTH_SET n) = set % 256 := by
  unfold Block.atWidth
  rw [Block.rd_wr_of_apart, Block.rd_wr_of_apart, Block.rd_wr_of_apart, Block.rd_wr_same] <;>
    simp [Fld.Apart, Reg.ST_STATUS.WIDTH_SET, Reg.ST_STATUS.RATE, Reg.ST_LANE_STATE.REPAIRED, Reg.ST_STATUS.RECON_FAILS]

theorem Block.rate_atWidth : (b.atWidth n set rate repaired).rd (Reg.ST_STATUS.RATE n) = rate % 2 ^ (Reg.ST_STATUS.RATE n).w := by
  unfold Block.atWidth
  rw [Block.rd_wr_of_apart, Block.rd_wr_of_apart, Block.rd_wr_same] <;>
    simp [Fld.Apart, Reg.ST_STATUS.RATE, Reg.ST_LANE_STATE.REPAIRED, Reg.ST_STATUS.RECON_FAILS]

theorem Block.fails_atWidth : (b.atWidth n set rate repaired).rd (Reg.ST_STATUS.RECON_FAILS n) = 0 :=
  (Block.rd_wr_same _ _ _ (by decide : 19 + 2 ≤ 64)).trans (Nat.zero_mod _)

end

theorem Block.present_trained (b : Block) {n : Nat} (hn : n < 16) (set rate repaired : Nat) :
    ((b.trained n set rate repaired).rd Reg.MH_SITE_PRESENT.PRESENT).testBit n = true := by
  unfold Block.trained
  dsimp only
  rw [Block.rd_modLink, Block.rd_wr_same _ _ _ (by decide : 0 + 16 ≤ 64), Nat.testBit_mod_two_pow, testBit_setBits_one]
  simp [Reg.MH_SITE_PRESENT.PRESENT, hn]

/-- What the end of a training at the agreed set leaves. -/
structure Block.Trained (b c : Block) (n set : Nat) : Prop where
  state : c.linkState n = Link.TRAINED
  width : c.rd (Reg.ST_STATUS.WIDTH_SET n) = set
  fails : c.rd (Reg.ST_STATUS.RECON_FAILS n) = 0
  present : (c.rd Reg.MH_SITE_PRESENT.PRESENT).testBit n = true
  rate : c.rd (Reg.ST_STATUS.RATE n) = if n < 12 then 0 else (b.site n).link.rate % 2 ^ (Reg.ST_STATUS.RATE n).w
  recon : (c.site n).link.recon = none
  only : b.SiteOnly c n (Reg.trainedFields n)
  fc : c.fc = b.fc
  out : c.out = b.out

theorem Block.trained_of {b : Block} {n set : Nat} (hn : n < 16) (hset : set < 256) (repaired : Nat) :
    b.Trained (b.trained n set (if Site.stacked n then 0 else (b.site n).link.rate) repaired) n set := by
  have hoff (g : Fld) (h : 0x4000000 ≤ g.off) : g.off ≠ Reg.MH_SITE_PRESENT.PRESENT.off := by
    simp only [Reg.MH_SITE_PRESENT.PRESENT]
    omega
  refine ⟨?_, ?_, ?_, b.present_trained hn .., ?_, ?_, b.trained_siteOnly .., ?_, ?_⟩
  · exact (b.rd_trained _ _ _ _ (hoff _ (by simp [Reg.ST_STATUS.STATE]; omega))).trans (b.linkState_atWidth ..)
  · rw [b.rd_trained _ _ _ _ (hoff _ (by simp [Reg.ST_STATUS.WIDTH_SET]; omega)), Block.width_atWidth]
    exact Nat.mod_eq_of_lt hset
  · rw [b.rd_trained _ _ _ _ (hoff _ (by simp [Reg.ST_STATUS.RECON_FAILS]; omega)), Block.fails_atWidth]
  · rw [b.rd_trained _ _ _ _ (hoff _ (by simp [Reg.ST_STATUS.RATE]; omega)), Block.rate_atWidth]
    by_cases h : n < 12 <;> simp [Site.stacked, h]
  all_goals simp [Block.trained, Block.atWidth]

/-- The link comes up at `set` where no group fails at boot. -/
theorem Block.siteLinkUp_trained {b : Block} {n set : Nat} (hn : n < 16) (hset : set < 256) (repaired : Nat)
    (h : b.rd Reg.MH_STATUS.READY = 1 ∨ b.groupsFailing n = 0) : b.Trained (b.siteLinkUp n set repaired) n set := by
  rw [Block.siteLinkUp_eq]
  rcases Block.groupsFail_of_none (n := n) h with hb | hb
  · rw [hb]
    exact Block.trained_of hn hset _
  · have hsame := (Block.SiteOnly.refl b n (Reg.trainedFields n)).wr_rd (Reg.ST_LANE_STATE.RETIRED n)
    rw [hb]
    have htrained := Block.trained_of (b := b.wr (Reg.ST_LANE_STATE.RETIRED n) (b.rd (Reg.ST_LANE_STATE.RETIRED n))) hn hset
      (if Site.stacked n then 0 else repaired)
    exact { htrained with
      only := hsame.trans htrained.only
      fc := htrained.fc.trans (Block.wr_fc ..)
      out := htrained.out.trans (Block.wr_out ..) }

end Sys2Proof.Machine
end
section
/-! SUPPORT. What the memory, the sites' links and the coherence home leave as it is when they work on their own: the queues, the
waits on objects, every field that is not one of their counts and logs, and the pins of the links. -/

namespace Sys2Proof.Machine

/-! ### The fields they write -/

/-- The counts and logs of the shelf, HBM, the coherence home and the packets sent. -/
def Fld.ownWritten : List Fld :=
  [Reg.SH_ECC_CE_COUNT.COUNT, Reg.SH_ECC_UE_COUNT.COUNT, Reg.SH_ECC_LOG.VALID, Reg.SH_ECC_LOG.OVERFLOW, Reg.SH_ECC_LOG.ADDR,
    Reg.SH_ECC_LOG.PBANK, Reg.SH_ECC_LOG.SYNDROME, Reg.SH_ECC_LOG.UE, Reg.CO_ERR_LOG.VALID, Reg.CO_ERR_LOG.OVERFLOW,
    Reg.CO_ERR_LOG.KIND, Reg.CO_ERR_LOG.AGENT, Reg.CO_ERR_ADDR.DLA, Reg.CO_RECLAIM_LOG.POISONED, Reg.CO_RECLAIM_LOG.RECOVERED,
    Reg.CO_STATUS.TRACKERS, Reg.CO_SNOOPS.COUNT, Reg.CO_BUNTING.COUNT, Reg.CO_NACKS.COUNT, Reg.CO_VICTIMS.COUNT] ++
  ((List.range 8).flatMap fun st => [Reg.HM_ERR_CE.COUNT st, Reg.HM_ERR_UE.COUNT st, Reg.HM_ERR_MAC.COUNT st,
    Reg.HM_ERR_LOG.VALID st, Reg.HM_ERR_LOG.OVERFLOW st, Reg.HM_ERR_LOG.PCH st, Reg.HM_ERR_LOG.PC st, Reg.HM_ERR_LOG.LP st,
    Reg.HM_ERR_LOG.KIND st, Reg.HM_ERR_LOG.RECOVERED st]) ++
  (List.range 16).map fun s => Reg.ST_SWP_PKT_TX.COUNT s

/-- A field beside all of those. -/
def Fld.Quiet (g : Fld) : Prop := g.lo + g.w ≤ 64 ∧ ∀ f ∈ Fld.ownWritten, g.Apart f

/-- What the memory, the links and the coherence home leave as it is. -/
def Block.still (b : Block) : SMap QueueState × SyncState × ({ g : Fld // g.Quiet } → Nat) × (Nat → Option Nat) :=
  (b.queues, b.sync, fun g => b.rd g.1, fun k => (b.site k).link.pinned)

@[simp] theorem Block.still_mem (b : Block) (shelf : ShelfState) (hbm : HbmState) (fc : FaultState) (coh : CohState) (free : Nat)
    (out : List Out) : Block.still { b with shelf := shelf, hbm := hbm, fc := fc, coh := coh, free := free, out := out } = b.still := rfl

section
variable (b : Block)

theorem Block.still_wr {f : Fld} (hf : f ∈ Fld.ownWritten) (v : Nat) : (b.wr f v).still = b.still := by
  have hrd : (fun g : { g : Fld // g.Quiet } => (b.wr f v).rd g.1) = fun g => b.rd g.1 :=
    funext fun g => b.rd_wr_of_apart f g.1 v g.2.1 (g.2.2 f hf)
  exact congrArg (fun r => (b.queues, b.sync, r, fun k => (b.site k).link.pinned)) hrd

theorem Block.still_count {f : Fld} (hf : f ∈ Fld.ownWritten) (v : Nat) : (b.count f v).still = b.still := b.still_wr hf _

theorem Block.still_setSite (k : Nat) (v : SiteState) (hv : v.link.pinned = (b.site k).link.pinned) :
    (b.setSite k v).still = b.still := by
  have hpin : (fun j => ((b.setSite k v).site j).link.pinned) = fun j => (b.site j).link.pinned := by
    funext j
    by_cases hj : j = k
    · rw [hj, Block.site_setSite_same, hv]
    · rw [b.site_setSite_of_ne v hj]
  exact congrArg (fun r => (b.queues, b.sync, (fun g : { g : Fld // g.Quiet } => b.rd g.1), r)) hpin

theorem Block.still_modLink (k : Nat) (f : LinkState → LinkState) (hf : (f (b.site k).link).pinned = (b.site k).link.pinned) :
    (b.modLink k f).still = b.still := b.still_setSite k _ hf

@[simp] theorem Block.still_emit (o : Out) : (b.emit o).still = b.still := rfl
@[simp] theorem Block.still_pennant (s k x a : Nat) : (b.pennant s k x a).still = b.still := rfl
@[simp] theorem Block.still_fresh : b.fresh.1.still = b.still := rfl

theorem Block.still_capture {valid overflow : Fld} {l : List (Fld × Nat)} (hv : valid ∈ Fld.ownWritten)
    (ho : overflow ∈ Fld.ownWritten) (hl : ∀ e ∈ l, e.1 ∈ Fld.ownWritten) : (b.capture valid overflow l).still = b.still := by
  have hall (c : Block) : (l.foldl (fun acc f => acc.wr f.1 f.2) c).still = c.still := by
    induction l generalizing c with
    | nil => rfl
    | cons e l ih => exact (ih (fun e he => hl e (by simp [he])) _).trans (c.still_wr (hl e (by simp)) _)
  unfold Block.capture
  split
  · exact b.still_wr ho 1
  · rw [Block.still_wr _ hv, hall]

theorem Fld.mem_ownWritten_of_stack {f : Fld} {st : Nat} (hst : st < 8) (hf : f ∈ [Reg.HM_ERR_CE.COUNT st, Reg.HM_ERR_UE.COUNT st,
    Reg.HM_ERR_MAC.COUNT st, Reg.HM_ERR_LOG.VALID st, Reg.HM_ERR_LOG.OVERFLOW st, Reg.HM_ERR_LOG.PCH st, Reg.HM_ERR_LOG.PC st,
    Reg.HM_ERR_LOG.LP st, Reg.HM_ERR_LOG.KIND st, Reg.HM_ERR_LOG.RECOVERED st]) : f ∈ Fld.ownWritten := by
  unfold Fld.ownWritten
  exact List.mem_append_left _ (List.mem_append_right _ (List.mem_flatMap.mpr ⟨st, List.mem_range.mpr hst, hf⟩))

theorem Fld.mem_ownWritten_of_site {s : Nat} (hs : s < 16) : Reg.ST_SWP_PKT_TX.COUNT s ∈ Fld.ownWritten := by
  unfold Fld.ownWritten
  exact List.mem_append_right _ (List.mem_map.mpr ⟨s, List.mem_range.mpr hs, rfl⟩)

/-- A fold that carries a block beside its answer. -/
theorem foldl_still {α β : Type} (l : List α) (f : Block × β → α → Block × β) (h : ∀ acc a, (f acc a).1.still = acc.1.still)
    (b : Block) (x : β) : (l.foldl f (b, x)).1.still = b.still := foldl_keeps (fun acc : Block × β => acc.1.still) l f h (b, x)

/-! ### The shelf -/

@[simp] theorem Block.still_cePennant (pb wa : Nat) : (b.cePennant pb wa).still = b.still := rfl

/-- What SH_ECC_LOG captures. -/
theorem Block.still_shelfLog (wa pb syn ue : Nat) : (b.capture Reg.SH_ECC_LOG.VALID Reg.SH_ECC_LOG.OVERFLOW
    [(Reg.SH_ECC_LOG.ADDR, wa), (Reg.SH_ECC_LOG.PBANK, pb), (Reg.SH_ECC_LOG.SYNDROME, syn), (Reg.SH_ECC_LOG.UE, ue)]).still = b.still :=
  b.still_capture (by simp [Fld.ownWritten]) (by simp [Fld.ownWritten]) (by simp [Fld.ownWritten])

@[simp] theorem Block.still_shelfCorrect (word : Nat) (rewrite : Bool) : (b.shelfCorrect word rewrite).still = b.still := by
  simp only [Block.shelfCorrect, Block.still_mem, Block.still_cePennant, Block.still_shelfLog, Block.still_fresh]
  exact b.still_count (by simp [Fld.ownWritten]) 1

@[simp] theorem Block.still_shelfPoisonFound (word : Nat) : (b.shelfPoisonFound word).still = b.still := by
  simp only [Block.shelfPoisonFound, Block.still_mem, Block.still_pennant, Block.still_shelfLog, Block.still_fresh]
  exact b.still_count (by simp [Fld.ownWritten]) 1

@[simp] theorem Block.still_shelfCheckWord (r a : Bool) (st : Status) (wa : Nat) : (b.shelfCheckWord r a st wa).1.still = b.still := by
  simp only [Block.shelfCheckWord]
  grind [Block.still_shelfCorrect, Block.still_shelfPoisonFound]

@[simp] theorem Block.still_shelfCheck (op : MemOp) (a : Bool) (lo hi : Nat) (st : Status) : (b.shelfCheck op a lo hi st).1.still = b.still :=
  foldl_keeps (fun acc : Block × Status => acc.1.still) _ _ (fun _ _ => Block.still_shelfCheckWord ..) (b, st)

@[simp] theorem Block.still_shelfStore (a : Nat) (d : List Byte) : (b.shelfStore a d).still = b.still := rfl

@[simp] theorem Block.still_shelfBeat (q : BankReq) : (b.shelfBeat q).1.still = b.still := by
  unfold Block.shelfBeat
  grind [Block.still_shelfCheck, Block.still_shelfStore]

@[simp] theorem Block.still_setBankQueue (lb : Nat) (q : List BankReq) : (b.setBankQueue lb q).still = b.still := rfl

@[simp] theorem Block.still_bankServe (lb : Nat) : (b.bankServe lb).still = b.still := by
  unfold Block.bankServe
  grind [Block.still_shelfBeat, Block.still_setBankQueue, Block.still_emit]

theorem Block.still_bankClear (k : Nat) (lb lo len : Nat) : (Block.bankClear k b lb lo len).still = b.still := by
  induction k generalizing b with
  | zero => rfl
  | succ k ih =>
    unfold Block.bankClear
    split
    · rw [ih, Block.still_bankServe]
    · rfl

@[simp] theorem Block.still_shelfClear (lo len : Nat) : (b.shelfClear lo len).still = b.still :=
  foldl_keeps Block.still _ _ (fun _ _ => Block.still_bankClear ..) b

theorem Block.still_shelfRun (k : Nat) (q : BankReq) : (Block.shelfRun k b q).1.still = b.still := by
  induction k generalizing b q with
  | zero => rfl
  | succ k ih =>
    unfold Block.shelfRun
    split
    · rfl
    · rw [ih, Block.still_shelfBeat]

@[simp] theorem Block.still_shelfAccess (r : MemReq) : (b.shelfAccess r).1.still = b.still := by
  simp [Block.shelfAccess, Block.still_shelfRun]

@[simp] theorem Block.still_shelfPoisonRange (a len : Nat) : (b.shelfPoisonRange a len).still = b.still := b.still_shelfClear a len

/-! ### HBM -/

@[simp] theorem Block.still_noteRead (x : Nat) (m : Option Nat) : (b.noteRead x m).still = b.still := by
  unfold Block.noteRead
  split
  · split <;> rfl
  · rfl

@[simp] theorem Block.still_noteWrite (x : Nat) (m : Option Nat) : (b.noteWrite x m).still = b.still := rfl
@[simp] theorem Block.still_granPut (p : Place) (g : Gran) : (b.granPut p g).still = b.still := rfl
@[simp] theorem Block.still_setLost (m : Nat) (v : Bool) : (b.setLost m v).still = b.still := rfl
@[simp] theorem Block.still_hbmPennant (p : Place) (k x : Nat) : (b.hbmPennant p k x).still = b.still := rfl

/-- A map of channels names one of eight stacks. -/
theorem Block.rd_pstack_lt (p : Place) : b.rd (Reg.HM_CHMAP.PSTACK p.stack p.k) < 8 := b.rd_lt _

@[simp] theorem Block.still_hbmCount (p : Place) (k : Nat) : (b.hbmCount p k).still = b.still := by
  unfold Block.hbmCount
  refine b.still_count (Fld.mem_ownWritten_of_stack (b.rd_pstack_lt p) ?_) 1
  split
  · simp
  · split <;> simp

@[simp] theorem Block.still_hbmLog (p : Place) (k : Nat) (r : Bool) : (b.hbmLog p k r).still = b.still := by
  have hown := fun {f : Fld} => Fld.mem_ownWritten_of_stack (f := f) (b.rd_pstack_lt p)
  refine b.still_capture (hown (by simp)) (hown (by simp)) fun e he => hown ?_
  simp only [List.mem_cons, List.not_mem_nil, or_false] at he
  rcases he with rfl | rfl | rfl | rfl | rfl <;> simp

@[simp] theorem Block.still_noteOthers (m : Nat) (p : Place) : (b.noteOthers m p).still = b.still :=
  foldl_keeps Block.still _ _ (fun _ _ => Block.still_noteRead ..) b

@[simp] theorem Block.still_dramNote (d : Dram) : (b.dramNote d).still = b.still := rfl

@[simp] theorem Block.still_takeStackErr (p : Place) : (b.takeStackErr p).1.still = b.still := by
  unfold Block.takeStackErr
  dsimp only
  split <;> rfl

@[simp] theorem Block.still_attempt (p : Place) (x : Nat) (key : Option Nat) : (b.attempt p x key).1.still = b.still := by
  unfold Block.attempt
  grind [Block.still_takeStackErr, Block.still_hbmCount, Block.still_dramNote]

@[simp] theorem Block.still_granRead (prot : Bool) (km : Nat) (key : Option Nat) (x : Nat) :
    (b.granRead prot km key x).1.still = b.still := by
  unfold Block.granRead
  extract_lets p m tagOk poisonOr
  split
  · split
    · rfl
    · split
      · rfl
      · simp only [apply_ite Prod.fst, apply_ite Block.still, Block.still_hbmPennant, Block.still_hbmLog, Block.still_hbmCount, ite_self]
        exact b.still_noteOthers m p
  · dsimp only
    split
    · simp only [apply_ite Block.still, Block.still_hbmLog, Block.still_attempt, ite_self]
    · split
      · simp only [apply_ite Block.still, Block.still_hbmPennant, Block.still_hbmLog, Block.still_hbmCount, Block.still_attempt, ite_self]
      · split <;>
          simp only [apply_ite Prod.fst, apply_ite Block.still, Block.still_hbmPennant, Block.still_hbmLog, Block.still_hbmCount,
            Block.still_attempt, ite_self, Block.still_noteOthers, Block.still_granPut, Block.still_noteWrite]

@[simp] theorem Block.still_memberPut (m x : Nat) (g : Gran) : (b.memberPut m x g).still = b.still := by
  simp only [Block.memberPut, apply_ite Block.still, Block.still_noteWrite, Block.still_granPut, ite_self]

@[simp] theorem Block.still_granReplace (prot : Bool) (x : Nat) (g : Gran) : (b.granReplace prot x g).1.still = b.still := by
  unfold Block.granReplace
  grind [Block.still_memberPut, Block.still_setLost, Block.still_noteOthers, Block.still_noteRead, Block.still_granPut, Block.still_noteWrite]

@[simp] theorem Block.still_granPoison (prot : Bool) (x : Nat) : (b.granPoison prot x).still = b.still := b.still_granReplace ..

@[simp] theorem Block.still_granWrite (prot : Bool) (km key x n : Nat) (f : List Byte → List Byte) (whole : Bool) :
    (b.granWrite prot km key x n f whole).1.still = b.still := by
  unfold Block.granWrite
  grind [Block.still_granReplace, Block.still_granRead]

@[simp] theorem Block.still_hbmSetSeals (r : Region) (key i : Nat) (sls : List Nat) : (b.hbmSetSeals r key i sls).1.still = b.still := by
  unfold Block.hbmSetSeals
  refine foldl_still _ _ (fun acc j => ?_) b _
  dsimp only
  rw [Block.still_granWrite]

@[simp] theorem Block.still_hbmAccess (sl : Option Nat) (o len : Nat) (op : MemOp) : (b.hbmAccess sl o len op).1.still = b.still := by
  unfold Block.hbmAccess Block.hbmSetSeal
  extract_lets zero
  split
  · rfl
  · split
    · rfl
    · split
      · rfl
      · extract_lets d x noSeal
        have hseal (q : Block × Status) : (noSeal q).1.still = q.1.still := by
          simp only [noSeal, apply_ite Prod.fst, apply_ite Block.still, Block.still_hbmSetSeals, ite_self]
        split
        · have hread := b.still_granRead
          split
          · grind
          · split <;> grind
        · rw [hseal, Block.still_granWrite]
        · rw [hseal, Block.still_granWrite]

@[simp] theorem Block.still_hbmPoisonAt (o : Nat) : (b.hbmPoisonAt o).still = b.still := by
  unfold Block.hbmPoisonAt
  split
  · rfl
  · exact b.still_granPoison ..

@[simp] theorem Block.still_setPc (k : Nat) (v : PseudoChannel) : (b.setPc k v).still = b.still := rfl

@[simp] theorem Block.still_enqueue (d : Dram) (e : Nat) (os : List Owed) : (b.enqueue d e os).still = b.still := by
  unfold Block.enqueue
  grind [Block.still_setPc]

@[simp] theorem Block.still_release (os : List Owed) : (b.release os).still = b.still :=
  foldl_keeps Block.still _ _ (fun b o => by split <;> rfl) b

@[simp] theorem Block.still_dramPost (e : Nat) (os : List Owed) : (b.dramPost e os).still = b.still :=
  (Block.still_release ..).trans (foldl_keeps Block.still _ _ (fun _ _ => Block.still_enqueue ..) b.dramDrop)

@[simp] theorem Block.still_hbmPerform (o : Nat) (r : MemReq) : (b.hbmPerform o r).still = b.still :=
  (Block.still_dramPost ..).trans (b.still_hbmAccess ..)

@[simp] theorem Block.still_flushStripe (m : Nat) : (b.flushStripe m).still = b.still :=
  foldl_keeps Block.still _ _ (fun _ _ => Block.still_hbmPerform ..) (b.setStripe m _)

@[simp] theorem Block.still_flushFor (o len : Nat) : (b.flushFor o len).still = b.still := by
  refine foldl_keeps Block.still _ _ (fun b a => ?_) b
  grind [Block.still_flushStripe]

theorem Block.still_heldAt {slice : Option Nat} {off len : Nat} {q : Block × Status × List Byte}
    (h : b.heldAt slice off len = some q) : q.1.still = b.still := by
  unfold Block.heldAt Block.heldRead at h
  grind [Block.still_hbmCount]

end

end Sys2Proof.Machine
end
section
/-! SUPPORT. What the sending of packets and the coherence home leave as it is (08, 09). -/

namespace Sys2Proof.Machine

section
variable (b : Block)

/-! ### Packets out -/

@[simp] theorem Block.still_putFrame (n g kind seq : Nat) (pl : List Byte) : (b.putFrame n g kind seq pl).still = b.still := by
  rw [Block.putFrame_eq, Block.still_modLink _ _ _ rfl, Block.still_emit]

theorem Block.still_sendFrames (k n : Nat) : (Block.sendFrames k b n).still = b.still := by
  induction k generalizing b with
  | zero => rfl
  | succ k ih =>
    unfold Block.sendFrames
    dsimp only
    split
    · rfl
    · rw [ih, Block.still_modLink _ _ _ rfl, Block.still_putFrame]

@[simp] theorem Block.still_putFlit (n : Nat) (pl : List Byte) : (b.putFlit n pl).still = b.still := by
  unfold Block.putFlit
  dsimp only
  split
  · rw [Block.still_modLink _ _ _ rfl, Block.still_modLink _ _ _ rfl]
  · rw [Block.still_emit, Block.still_modLink _ _ _ rfl]

theorem Block.still_sendFlits (k n : Nat) : (Block.sendFlits k b n).still = b.still := by
  induction k generalizing b with
  | zero => rfl
  | succ k ih =>
    unfold Block.sendFlits
    dsimp only
    split
    · rfl
    · rw [ih, Block.still_putFlit, Block.still_modLink _ _ _ rfl]

theorem Block.still_putPacket {n : Nat} (hn : n < 16) (p : Packet) : (b.putPacket n p).still = b.still := by
  unfold Block.putPacket
  extract_lets c₁ c₂ v c₃ c₄
  have h₂ : c₂.still = b.still := by
    simp only [c₂, c₁, apply_ite Block.still, Block.still_count _ (Fld.mem_ownWritten_of_site hn), Block.still_emit, ite_self]
  have h₃ : c₃.still = b.still := by
    simp only [c₃]
    split
    · exact h₂
    · split
      · refine (Block.still_setSite _ _ _ ?_).trans h₂
        rfl
      · exact h₂
  have h₄ : c₄.still = b.still := (c₃.still_modLink _ _ rfl).trans h₃
  split
  · rw [Block.still_sendFrames, h₄]
  · rw [Block.still_sendFlits, h₄]

theorem Block.still_send {n : Nat} (hn : n < 16) (p : Packet) : (b.send n p).still = b.still := by
  unfold Block.send
  dsimp only
  split
  · rfl
  · split
    · exact (Block.still_putPacket _ hn p).trans (b.still_setSite _ _ rfl)
    · exact b.still_setSite _ _ rfl

theorem Block.still_hubRequest {n : Nat} (hn : n < 16) (u : TagUse) (p : Packet) : (b.hubRequest n u p).still = b.still := by
  unfold Block.hubRequest
  dsimp only
  split
  · rw [Block.still_send _ hn]
    exact b.still_setSite _ _ rfl
  · exact b.still_setSite _ _ rfl

/-- An enrolled site is one of sixteen. -/
theorem Block.lt_of_enrolled {n : Nat} (h : b.enrolled n = true) : n < 16 := by
  refine Nat.lt_of_not_le fun hn => ?_
  have hlt : b.rd Reg.MH_SITE_PRESENT.ENROLLED < 2 ^ n := Nat.lt_of_lt_of_le (b.rd_lt _) (Nat.pow_le_pow_right (by decide) hn)
  rw [Block.enrolled, Nat.testBit_lt_two_pow hlt] at h
  exact absurd h (by decide)

/-! ### The directory and memory -/

@[simp] theorem Block.still_dirPut (e : DirEntry) : (b.dirPut e).still = b.still := rfl
@[simp] theorem Block.still_dirDrop (line : Nat) : (b.dirDrop line).still = b.still := rfl
@[simp] theorem Block.still_setTxn (t : Txn) : (b.setTxn t).still = b.still := rfl
@[simp] theorem Block.still_unreserve (m : CMsg) : (b.unreserve m).still = b.still := rfl

@[simp] theorem Coh.still_hbm (o : Nat) (op : MemOp) : (Coh.hbm b o op).1.still = b.still := by
  have hperform (c : Block) : ((c.hbmAccess none o 64 op).1.dramPost Coh.who.ensign []).still = c.still := by
    rw [Block.still_dramPost, Block.still_hbmAccess]
  unfold Coh.hbm
  split
  · next q h => exact b.still_heldAt h
  · refine (hperform _).trans ?_
    split
    · rfl
    · exact b.still_flushFor o 64

@[simp] theorem Block.still_lineRead (line : Nat) : (b.lineRead line).1.still = b.still := by
  unfold Block.lineRead
  split
  · exact b.still_shelfAccess _
  · exact Coh.still_hbm b _ _
  · rfl

@[simp] theorem Block.still_lineWrite (line : Nat) (d : List Byte) : (b.lineWrite line d).1.still = b.still := by
  unfold Block.lineWrite
  split
  · exact b.still_shelfAccess _
  · exact Coh.still_hbm b _ _
  · rfl

@[simp] theorem Block.still_linePoison (line : Nat) : (b.linePoison line).still = b.still := by
  unfold Block.linePoison
  split
  · exact b.still_shelfPoisonRange ..
  · rw [Block.still_dramPost, Block.still_hbmPoisonAt]
  · rfl

@[simp] theorem Block.still_cohLog (kind agent line : Nat) : (b.cohLog kind agent line).still = b.still := by
  unfold Block.cohLog
  split
  · exact b.still_wr (by simp [Fld.ownWritten]) _
  · simp only [Block.still_wr _ (show Reg.CO_ERR_LOG.VALID ∈ Fld.ownWritten by simp [Fld.ownWritten]),
      Block.still_wr _ (show Reg.CO_ERR_ADDR.DLA ∈ Fld.ownWritten by simp [Fld.ownWritten]),
      Block.still_wr _ (show Reg.CO_ERR_LOG.AGENT ∈ Fld.ownWritten by simp [Fld.ownWritten]),
      Block.still_wr _ (show Reg.CO_ERR_LOG.KIND ∈ Fld.ownWritten by simp [Fld.ownWritten])]

@[simp] theorem Block.still_lineLost (line agent : Nat) : (b.lineLost line agent).still = b.still := by
  unfold Block.lineLost
  dsimp only
  rw [Block.still_pennant, Block.still_cohLog, Block.still_count _ (by simp [Fld.ownWritten]), Block.still_dirDrop,
    Block.still_linePoison]

/-! ### Transactions -/

@[simp] theorem Block.still_trackers : b.trackers.still = b.still := b.still_wr (by simp [Fld.ownWritten]) _

@[simp] theorem Block.still_snoop (line agent : Nat) (op : SnpOp) (attr : Nat) : (b.snoop line agent op attr).1.still = b.still := by
  unfold Block.snoop
  dsimp only
  split
  · rfl
  · next h =>
    have hn : agent / 64 < 16 := b.lt_of_enrolled (by simpa using h)
    exact (Block.still_hubRequest _ hn _ _).trans (b.still_count (by simp [Fld.ownWritten]) 1)

/-- Several snoops, with what they have out. -/
theorem foldl_snoop_still {α : Type} (l : List α) (line : Nat) (agent : α → Nat) (op : α → SnpOp) (attr : α → Nat)
    (b : Block) (os : List SnpOut) : (l.foldl (fun (acc : Block × List SnpOut) s =>
      let q := acc.1.snoop line (agent s) (op s) (attr s)
      match q.2 with
      | some o => (q.1, acc.2 ++ [o])
      | none => (q.1, acc.2)) (b, os)).1.still = b.still := by
  refine foldl_still _ _ (fun acc a => ?_) b os
  dsimp only
  split <;> exact Block.still_snoop ..

@[simp] theorem Block.still_openTxn (line : Nat) (kind : TxnKind) (snps : List (Nat × SnpOp × Nat)) :
    (b.openTxn line kind snps).still = b.still := by
  unfold Block.openTxn
  dsimp only
  rw [Block.still_trackers, Block.still_setTxn]
  exact foldl_snoop_still snps line (fun s => s.1) (fun s => s.2.1) (fun s => s.2.2) _ _

@[simp] theorem Block.still_dropTxn (line : Nat) : (b.dropTxn line).still = b.still := Block.still_trackers _

@[simp] theorem Block.still_answerAgent (m : CMsg) (op attr status : Nat) (d : List Byte) :
    (b.answerAgent m op attr status d).still = b.still := by
  unfold Block.answerAgent
  extract_lets n st c
  have hc : c.still = b.still := b.still_setSite _ _ rfl
  split
  · next h => rw [Block.still_send _ (c.lt_of_enrolled h), hc]
  · exact hc

@[simp] theorem Block.still_wbAnswer (m : CMsg) (st : Status) : (b.wbAnswer m st).still = b.still := by
  unfold Block.wbAnswer
  dsimp only
  rw [Block.still_answerAgent]
  split <;> rfl

@[simp] theorem Block.still_ackWb (t : Txn) (st : Status) : (b.ackWb t st).still = b.still := by
  unfold Block.ackWb
  split
  · rfl
  · exact b.still_wbAnswer ..

@[simp] theorem Block.still_startUncached (line : Nat) : (b.startUncached line).still = b.still := by
  unfold Block.startUncached
  grind [Block.still_openTxn, Block.still_mem]

@[simp] theorem Block.still_closeTxn (t : Txn) : (b.closeTxn t).still = b.still := by
  unfold Block.closeTxn
  dsimp only
  rw [Block.still_startUncached]
  split
  · split
    · exact b.still_dropTxn _
    · exact b.still_dropTxn _
  · exact b.still_dropTxn _

@[simp] theorem Block.still_holdTxn (t : Txn) : (b.holdTxn t).still = b.still := by
  simp only [Block.holdTxn, apply_ite Block.still, Block.still_closeTxn, Block.still_setTxn, ite_self]

@[simp] theorem Block.still_newEntry (line : Nat) (st : DirState) (r : Nat) : (b.newEntry line st r).still = b.still := by
  unfold Block.newEntry
  split
  · rfl
  · split <;> rfl

@[simp] theorem Block.still_addHolder (e : DirEntry) (r : Nat) : (b.addHolder e r).still = b.still := by
  unfold Block.addHolder
  dsimp only
  rw [Block.still_dirPut]
  split
  · exact b.still_count (by simp [Fld.ownWritten]) 1
  · rfl

theorem Block.still_grantMem (t : Txn) (m : CMsg) (attr : Nat) {next : Block → Block} (hnext : ∀ b : Block, (next b).still = b.still) :
    (b.grantMem t m attr next).still = b.still := by
  have hread := b.still_lineRead m.line
  unfold Block.grantMem
  split
  next c st d h =>
    rw [h] at hread
    simp only [apply_ite Block.still, Block.still_holdTxn, Block.still_answerAgent, hnext, ite_self]
    exact hread

@[simp] theorem Block.still_grantInv (t : Txn) (m : CMsg) : (b.grantInv t m).still = b.still := by
  unfold Block.grantInv
  split <;> exact b.still_grantMem t m _ fun c => c.still_newEntry ..

@[simp] theorem Block.still_writeDirty (t : Txn) : (b.writeDirty t).1.still = b.still := by
  unfold Block.writeDirty
  split
  · split
    · exact b.still_lineWrite ..
    · rfl
  · rfl

@[simp] theorem Block.still_dropRequest (t : Txn) (m : CMsg) : (b.dropRequest t m).still = b.still := by
  unfold Block.dropRequest
  split
  · simp
  · dsimp only
    split
    · simp
    · split <;> simp only [apply_ite Block.still, Block.still_ackWb, Block.still_closeTxn, Block.still_dirDrop, Block.still_dirPut,
        Block.still_writeDirty, ite_self]
    · split <;> simp
    · simp only [apply_ite Block.still, Block.still_ackWb, Block.still_closeTxn, Block.still_dirDrop, Block.still_writeDirty, ite_self]

@[simp] theorem Block.still_finishRequest (t : Txn) (m : CMsg) : (b.finishRequest t m).still = b.still := by
  unfold Block.finishRequest
  extract_lets r grantData
  have hgrant (attr : Nat) (c : Block) : (grantData attr c).still = c.still := by simp only [grantData, Block.still_holdTxn, Block.still_answerAgent]
  split
  · exact b.still_grantInv t m
  · extract_lets e upg
    split
    · split
      · exact b.still_grantMem t m _ fun c => c.still_addHolder ..
      · split
        · simp
        · exact b.still_grantMem t m _ fun c => c.still_newEntry ..
    · split
      · split
        · simp
        · exact b.still_grantMem t m _ fun _ => rfl
        · exact b.still_grantMem t m _ fun _ => rfl
      · split
        · exact b.still_grantInv t m
        · split <;> simp [hgrant]
    · split
      · simp [hgrant]
      · split <;> simp [hgrant]

@[simp] theorem Block.still_finishUncached (t : Txn) (w : Bool) : (b.finishUncached t w).still = b.still := by
  unfold Block.finishUncached
  dsimp only
  rw [Block.still_ackWb]
  split
  · simp
  · split
    · simp
    · simp only [apply_ite Block.still, Block.still_closeTxn, Block.still_dirDrop, Block.still_dirPut, Block.still_writeDirty, ite_self]

@[simp] theorem Block.still_startRequest (m : CMsg) : (b.startRequest m).still = b.still := by
  unfold Block.startRequest
  extract_lets c e snps d
  have hd : d.still = b.still := by simp only [d, c, Block.still_openTxn, Block.still_unreserve]
  split
  · exact hd
  · simp only [apply_ite Block.still, Block.still_setTxn, Block.still_finishRequest, ite_self, hd]

@[simp] theorem Block.still_nack (m : CMsg) (hint : Nat) : (b.nack m hint).still = b.still := by
  have hcount := b.still_count (show Reg.CO_NACKS.COUNT ∈ Fld.ownWritten by simp [Fld.ownWritten]) 1
  unfold Block.nack
  dsimp only
  rw [Block.still_answerAgent]
  split
  · simp only [apply_ite Block.still, Block.still_setTxn, ite_self, hcount]
  · exact hcount

@[simp] theorem Block.still_startQueued (next : Option CMsg) : (b.startQueued next).still = b.still := by
  unfold Block.startQueued
  split
  · rfl
  · split
    · rfl
    · simp only [apply_ite Block.still, Block.still_nack, Block.still_dropTxn, Block.still_startRequest, ite_self]

@[simp] theorem Block.still_endLost (t : Txn) (a : Nat) : (b.endLost t a).still = b.still := by
  unfold Block.endLost
  dsimp only
  split <;> simp

/-! ### Transactions that go on -/

theorem Block.still_advance (t : Txn) : (b.advance t).still = b.still := by
  unfold Block.advance
  split
  · rfl
  · split
    · next a _ =>
      split
      · extract_lets others r t'
        have hr : r.1.still = b.still := foldl_snoop_still others t.line (fun x => x) (fun _ => .inv) (fun _ => 0) b []
        simp only [apply_ite Block.still, Block.still_endLost, Block.still_setTxn, ite_self, hr]
      · exact b.still_endLost ..
    · split
      · rfl
      · simp only [apply_ite Block.still, Block.still_ackWb, Block.still_finishRequest, Block.still_dropRequest, ite_self]
      · exact b.still_finishUncached ..
      · simp only [Block.still_startQueued, Block.still_ackWb, Block.still_closeTxn,
          Block.still_count _ (show Reg.CO_VICTIMS.COUNT ∈ Fld.ownWritten by simp [Fld.ownWritten]), Block.still_dirDrop,
          Block.still_writeDirty]
      · have hcount (c : Block) := c.still_count (show Reg.CO_RECLAIM_LOG.RECOVERED ∈ Fld.ownWritten by simp [Fld.ownWritten]) 1
        split
        · dsimp only
          split <;> simp [hcount]
        · split
          · simp
          · dsimp only
            split <;> simp

theorem Block.still_advanceAll (k line : Nat) : (Block.advanceAll k b line).still = b.still := by
  induction k generalizing b with
  | zero => rfl
  | succ k ih =>
    unfold Block.advanceAll
    split
    · rfl
    · simp only [apply_ite Block.still, ih, Block.still_advance, ite_self]

@[simp] theorem Block.still_snoopAnswered (line agent : Nat) (noCopy timedOut : Bool) :
    (b.snoopAnswered line agent noCopy timedOut).still = b.still := by
  unfold Block.snoopAnswered
  split
  · rfl
  · split
    · rfl
    · dsimp only
      split <;> rw [Block.still_advanceAll, Block.still_setTxn]

@[simp] theorem Block.still_discardRequest (t : Txn) (n : Nat) : (b.discardRequest t n).still = b.still := by
  unfold Block.discardRequest
  split
  · simp only [apply_ite Block.still, Block.still_closeTxn, Block.still_trackers, Block.still_setTxn, ite_self]
  · simp only [apply_ite Block.still, Block.still_startUncached, Block.still_dropTxn, ite_self]
  · rfl

/-! ### The agents of a dead site (R215) -/

/-- RECLAIM_PENDING names the site, and RECLAIM_ACTIVE is set. -/
def Block.reclaims (b : Block) (n : Nat) : Block :=
  (b.wr Reg.CO_STATUS.RECLAIM_PENDING (setBits (b.rd Reg.CO_STATUS.RECLAIM_PENDING) n 1 1)).wr Reg.CO_STATUS.RECLAIM_ACTIVE 1

/-- The reclaim's scan starts, and the reservations of the site's agents end. -/
def Block.scans (b : Block) (n : Nat) : Block :=
  { b with coh := { b.coh with scan := some 0, reserved := b.coh.reserved.filter fun r => r.agent / 64 ≠ n } }

theorem Block.still_agentsDead (n : Nat) : (b.agentsDead n).still = (b.reclaims n).still := by
  unfold Block.agentsDead
  refine (foldl_keeps Block.still _ _ (fun c line => ?_) _).trans (Block.still_mem ..)
  split
  · rfl
  · next t _ =>
    rw [Block.still_advanceAll, foldl_keeps Block.still _ _ (fun _ _ => Block.still_snoopAnswered ..), Block.still_discardRequest]

theorem Block.agentsDead_of_closed (h : b.coh.txns = []) (n : Nat) : b.agentsDead n = (b.reclaims n).scans n := by
  have hlines : (b.reclaims n).coh.txns = [] := h
  unfold Block.agentsDead
  show List.foldl _ _ (List.map _ (b.reclaims n).coh.txns) = _
  rw [hlines]
  rfl

end

end Sys2Proof.Machine
end
section
/-! SUPPORT. The commands of a reconciliation (R163) and of the end of a training (R156, R157). -/

namespace Sys2Proof.Machine

/-! ### The hub's receive test -/

section
variable (b : Block) (n passed rates : Nat)

/-- The groups that the hub proposes first: those that passed its test, run at a rate they may run at, and are not retired. -/
def Block.firstGroups : Nat := passed &&& b.ratedGroups n rates &&& b.unretired n

theorem Block.tested_siteOnly : b.SiteOnly (b.tested n passed rates) n [] := by
  unfold Block.tested
  exact (Block.SiteOnly.refl b n []).modLink _

theorem Block.link_tested : ((b.tested n passed rates).site n).link = { (b.site n).link with
    passed := passed &&& b.ratedGroups n rates, rate := b.lowestRate n rates (b.firstGroups n passed rates) } := by
  unfold Block.tested
  rw [Block.site_modLink_same]
  rfl

theorem Block.hubGroups_tested {r : Recon} (h : r.failed = 0) :
    (b.tested n passed rates).hubGroups n r = b.firstGroups n passed rates := by
  rw [Block.hubGroups_of_none _ _ _ h, Block.link_tested]
  rfl

/-- The hub's first proposal. -/
def Recon.first (now : Nat) : Recon := ⟨1, none, none, none, none, 0, 0, 0, now⟩

/-- That attempt once the hub has proposed `hub`. -/
def Recon.proposed (hub now : Nat) : Recon := ⟨1, some hub, none, none, none, 0, 0, 0, now⟩

@[simp] theorem Recon.hubSet_proposed (hub now : Nat) : (Recon.proposed hub now).hubSet = some hub := rfl

/-- The hub has taken the site's proposal `set` and agrees to `agreed`. -/
def LinkState.agreeing (l : LinkState) (set agreed now : Nat) : LinkState :=
  { l with recon := l.recon.map fun c => { c with siteSet := some set, hubAgree := some agreed, since := now } }

/-- The hub has tested its lanes and proposed. -/
abbrev Block.opened : Block := (b.tested n passed rates).propose n (.first b.now)

theorem Block.opened_siteOnly : b.SiteOnly (b.opened n passed rates) n [Reg.ST_STATUS.STATE n] :=
  ((b.tested_siteOnly n passed rates).mono (by simp)).propose _ (by simp)

theorem Block.link_opened : ((b.opened n passed rates).site n).link = { (b.site n).link with
    passed := passed &&& b.ratedGroups n rates, rate := b.lowestRate n rates (b.firstGroups n passed rates)
    recon := some (.proposed (b.firstGroups n passed rates) b.now)
    sbTag := ((b.site n).link.sbTag + 1) % 256 } := by
  rw [Block.link_propose, Block.hubGroups_tested _ _ _ _ rfl, Block.link_tested]
  rfl

theorem Block.linkState_opened : (b.opened n passed rates).linkState n = Link.RECONCILING := Block.linkState_propose ..

theorem Block.opened_out : (b.opened n passed rates).out =
    b.out ++ [.sideband n (Sideband.wire 0x03 (b.site n).link.sbTag (b.firstGroups n passed rates + 256) 0)] := by
  rw [Block.propose_out, Block.hubGroups_tested _ _ _ _ rfl, Block.link_tested]
  rfl

theorem Block.opened_fc : (b.opened n passed rates).fc = b.fc := by
  rw [Block.propose_fc]
  rfl

/-- The lanes not retired are decided by a field that the proposal leaves. -/
theorem Block.unretired_opened : (b.opened n passed rates).unretired n = b.unretired n := by
  have h := (b.opened_siteOnly n passed rates).rd (g := Reg.ST_LANE_STATE.RETIRED n) (by decide : 0 + 8 ≤ 64)
    (by simp [Fld.Apart, Reg.ST_LANE_STATE.RETIRED, Reg.ST_STATUS.STATE])
  simp only [Block.unretired, h]

end

section
variable {s : State} {site : SiteNo}

/-! ### SITE_TRAINED -/

section
variable {c : Recon} {h a : Nat} (hrecon : (s.blk.site site).link.recon = some c) (hfree : (s.blk.site site).link.pinned = none)
  (hst : s.blk.linkState site = Link.RECONCILING) (hhub : c.hubAgree = some h) (hsite : c.siteAgree = some a)
  (rates : BitVec 8) (rep : BitVec 16)
include hrecon hfree hst hhub hsite

theorem siteTrained_trains (hset : h < 256) (hgood : s.blk.rd Reg.MH_STATUS.READY = 1 ∨ s.blk.groupsFailing site = 0) :
    Yields (.siteTrained site rates rep 0) s fun t => s.blk.Trained t.blk site h ∧ s.SiteStep t site := by
  have hgo : s.blk.siteTrained site rates.toNat rep.toNat (0 : BitVec 8).toNat = s.blk.siteLinkUp site h rep.toNat := by
    simp [Block.siteTrained, hfree, hrecon, hhub, hsite, hst]
  have htrained := Block.siteLinkUp_trained site.isLt hset rep.toNat hgood
  exact yields_of_upd rfl hgo ⟨htrained, htrained.only.step⟩

theorem siteTrained_again {bad : BitVec 8} (hbad : bad ≠ 0) (hfew : s.blk.rd (Reg.ST_STATUS.RECON_FAILS site) < 2) :
    Yields (.siteTrained site rates rep bad) s fun t => s.blk.TriesAgain t.blk site c bad.toNat ∧ s.SiteStep t site := by
  have hne : bad.toNat ≠ 0 := fun h0 => hbad (BitVec.eq_of_toNat_eq h0)
  have hgo : s.blk.siteTrained site rates.toNat rep.toNat bad.toNat = s.blk.failAttempt site c bad.toNat := by
    simp [Block.siteTrained, hfree, hrecon, hhub, hsite, hst, hne]
  have hagain := Block.failAttempt_again c bad.toNat hfew
  exact yields_of_upd rfl hgo ⟨hagain, hagain.only.step⟩

end

/-! ### RECON_TIMEOUT, WIDTH_PROPOSE and WIDTH_AGREE -/

section
variable (hst : s.blk.linkState site = Link.TRAINING) (hhello : (s.blk.site site).link.hello = true)
  (hfree : (s.blk.site site).link.pinned = none) (hnone : (s.blk.site site).link.recon = none)
include hst hhello hfree hnone

theorem reconTimeout_first (hfew : s.blk.rd (Reg.ST_STATUS.RECON_FAILS site) < 2) (passed rates : BitVec 8) :
    Yields (.reconTimeout ⟨site, passed, rates⟩) s fun t => t.blk.linkState site = Link.RECONCILING ∧
      t.blk.rd (Reg.ST_STATUS.RECON_FAILS site) = s.blk.rd (Reg.ST_STATUS.RECON_FAILS site) + 1 ∧
      ((t.blk.site site).link.recon.map fun r => (r.attempt, r.hubSet, r.siteSet)) =
        some (2, some (s.blk.firstGroups site passed.toNat rates.toNat), none) ∧
      s.SiteStep t site ∧ t.blk.fc = s.blk.fc := by
  have hlink := s.blk.link_opened site passed.toNat rates.toNat
  have honly := s.blk.opened_siteOnly site passed.toNat rates.toNat
  have hgroups : (s.blk.opened site passed.toNat rates.toNat).hubGroups site ((Recon.proposed
      (s.blk.firstGroups site passed.toNat rates.toNat) s.blk.now).again 0 (s.blk.opened site passed.toNat rates.toNat).now) =
        s.blk.firstGroups site passed.toNat rates.toNat := by
    rw [Block.hubGroups_of_none _ _ _ (by simp [Recon.again, Recon.proposed]), hlink, Block.unretired_opened]
    rfl
  have hfails : (s.blk.opened site passed.toNat rates.toNat).rd (Reg.ST_STATUS.RECON_FAILS site) =
      s.blk.rd (Reg.ST_STATUS.RECON_FAILS site) :=
    honly.rd (by decide : 19 + 2 ≤ 64) (by simp [Fld.Apart, Reg.ST_STATUS.STATE, Reg.ST_STATUS.RECON_FAILS])
  have hgo : s.blk.reconTimeout site passed.toNat rates.toNat = (s.blk.opened site passed.toNat rates.toNat).failAttempt site
      (Recon.proposed (s.blk.firstGroups site passed.toNat rates.toNat) s.blk.now) 0 := by
    unfold Block.reconTimeout
    dsimp only
    rw [if_pos ⟨hst, hhello, by simp [hfree], by simp [hnone]⟩]
    change (match ((s.blk.opened site passed.toNat rates.toNat).site site).link.recon with
      | some c => if (s.blk.opened site passed.toNat rates.toNat).linkState site = Link.RECONCILING ∧ c.siteAgree.isNone then
          (s.blk.opened site passed.toNat rates.toNat).failAttempt site c 0 else s.blk.opened site passed.toNat rates.toNat
      | none => s.blk.opened site passed.toNat rates.toNat) = _
    rw [hlink]
    exact if_pos ⟨Block.linkState_opened .., rfl⟩
  have hagain := Block.failAttempt_again (b := s.blk.opened site passed.toNat rates.toNat) (n := site)
    (Recon.proposed (s.blk.firstGroups site passed.toNat rates.toNat) s.blk.now) 0
    (by rw [hfails]; exact hfew)
  refine yields_of_upd rfl hgo ⟨hagain.state, hagain.fails.trans (by rw [hfails]), ?_,
    ((honly.mono (by simp)).trans hagain.only).step, hagain.fc.trans (s.blk.opened_fc ..)⟩
  dsimp only
  rw [hagain.recon, hgroups]
  rfl

theorem widthPropose_agrees (set passed rates : BitVec 8) {a : Fin 4} (ha : a.val = 1)
    (hagreed : Site.activeSet site (s.blk.firstGroups site passed.toNat rates.toNat &&& set.toNat) ≠ 0) :
    Yields (.widthPropose site set a ⟨passed, rates⟩) s fun t =>
      let hub := s.blk.firstGroups site passed.toNat rates.toNat
      let agreed := Site.activeSet site (hub &&& set.toNat)
      t.blk.linkState site = Link.RECONCILING ∧
      ((t.blk.site site).link.recon.map fun r => (r.hubSet, r.siteSet, r.hubAgree)) = some (some hub, some set.toNat, some agreed) ∧
      t.blk.out = s.blk.out ++ [.sideband site (Sideband.wire 0x03 (s.blk.site site).link.sbTag (hub + 256) 0),
        .sideband site (Sideband.wire 0x04 (((s.blk.site site).link.sbTag + 1) % 256) (agreed + 256) 0)] ∧
      (t.blk.site site).link.rate = s.blk.lowestRate site rates.toNat hub ∧
      s.SiteStep t site ∧ t.blk.fc = s.blk.fc ∧ s.blk.FieldsKept t.blk [Reg.ST_STATUS.STATE site] := by
  have hlink := s.blk.link_opened site passed.toNat rates.toNat
  have hgo : s.blk.widthPropose site set.toNat a passed.toNat rates.toNat =
      ((s.blk.opened site passed.toNat rates.toNat).modLink site fun l => l.agreeing set.toNat
        (Site.activeSet site (s.blk.firstGroups site passed.toNat rates.toNat &&& set.toNat))
        (s.blk.opened site passed.toNat rates.toNat).now).sideband site 0x04
          (Site.activeSet site (s.blk.firstGroups site passed.toNat rates.toNat &&& set.toNat) + 256) 0 := by
    have hopen : (s.blk.tested site passed.toNat rates.toNat).propose site ⟨1, none, none, none, none, 0, 0, 0, s.blk.now⟩ =
        s.blk.opened site passed.toNat rates.toNat := rfl
    unfold Block.widthPropose
    simp [hst, hhello, hfree, hnone, ha, hopen, hlink, hagreed, LinkState.agreeing]
  have honly := ((s.blk.opened_siteOnly site passed.toNat rates.toNat).modLink fun l => l.agreeing set.toNat
    (Site.activeSet site (s.blk.firstGroups site passed.toNat rates.toNat &&& set.toNat))
    (s.blk.opened site passed.toNat rates.toNat).now).sideband 0x04 (Site.activeSet site (s.blk.firstGroups site passed.toNat rates.toNat &&& set.toNat) + 256) 0
  refine yields_of_upd rfl hgo ⟨?_, ?_, ?_, ?_, honly.step, ?_, honly.fields⟩
  · rw [Block.linkState_sideband, Block.linkState_modLink, Block.linkState_opened]
  · dsimp only
    rw [Block.link_sideband _ _ rfl, Block.site_modLink_same, hlink]
    rfl
  · rw [Block.sideband_out, Block.modLink_out, Block.opened_out, Block.site_modLink_same, hlink]
    simp [LinkState.agreeing]
  · dsimp only
    rw [Block.link_sideband _ _ rfl, Block.site_modLink_same, hlink]
    rfl
  · rw [Block.sideband_fc, Block.modLink_fc, Block.opened_fc]

end

theorem widthAgree_agrees {c : Recon} {h : Nat} {a : Fin 4} {set : BitVec 8} (hrecon : (s.blk.site site).link.recon = some c)
    (hhub : c.hubAgree = some h) (hsite : c.siteAgree = none) (ha : a.val = c.attempt) (hset : set.toNat = h) :
    Yields (.widthAgree site set a) s fun t =>
      (t.blk.site site).link = { (s.blk.site site).link with recon := some { c with siteAgree := some h } } ∧ s.SiteStep t site ∧
      t.blk.regs = s.blk.regs ∧ t.blk.fc = s.blk.fc ∧ t.blk.out = s.blk.out := by
  have hgo : s.blk.widthAgree site set.toNat a =
      s.blk.modLink site fun l => { l with recon := some { c with siteAgree := some h } } := by
    simp [Block.widthAgree, hrecon, hhub, hsite, ha, hset]
  exact yields_of_upd rfl hgo ⟨by rw [Block.site_modLink_same], ((Block.SiteOnly.refl _ _ []).modLink _).step, rfl, rfl, rfl⟩

/-! ### A reset of a site that is lost already (Table SIT-7) -/

/-- HALFMAST's causes are fields of the site's own. -/
theorem Block.SiteOnly.hmCause {b c : Block} {n : Nat} {fs : List Fld} (h : b.SiteOnly c n fs) (i : Nat) (on : Bool)
    (hcause : Reg.PW_SITE_STATUS.HM_CAUSE n ∈ fs) (hmast : Reg.PW_SITE_STATUS.HALFMAST n ∈ fs) :
    b.SiteOnly (c.hmCause n i on) n fs := by
  unfold Block.hmCause
  split
  · exact h
  · exact (h.wr _ _ hcause).wr _ _ hmast

theorem Block.hmCause_rest (b : Block) (n i : Nat) (on : Bool) :
    (b.hmCause n i on).sites = b.sites ∧ (b.hmCause n i on).fc = b.fc ∧ (b.hmCause n i on).out = b.out := by
  unfold Block.hmCause
  split
  · exact ⟨rfl, rfl, rfl⟩
  · simp [Block.wr]

theorem siteReset_of_lost (hst : s.blk.linkState site = Link.LOST) (hen : s.blk.rd (Reg.ST_CFG.EN site) = 1)
    (hpresent : (s.blk.site site).link.absent = false) : Yields (.siteReset site) s fun t =>
      t.blk.linkState site = Link.RESETTING ∧
      (t.blk.site site).link = { (s.blk.site site).link with srstLow := true, srstAt := s.blk.now, trainAt := none } ∧
      s.SiteStep t site ∧ t.blk.fc = s.blk.fc ∧ t.blk.out = s.blk.out := by
  let c := (s.blk.setLink site Link.RESETTING).modLink site fun l => { l with srstLow := true, srstAt := s.blk.now, trainAt := none }
  have hgo : s.blk.siteReset site 5 = c.hmCause site 3 true := by
    have hlost : s.blk.loseSite site 5 = s.blk := if_pos (.inr (.inl hst))
    simp [Block.siteReset, Block.is, hen, hpresent, hlost, c]
  have honly : s.blk.SiteOnly c site [Reg.ST_STATUS.STATE site] := ((Block.SiteOnly.refl ..).setLink _ (by simp)).modLink _
  obtain ⟨hsites, hfc, hout⟩ := c.hmCause_rest site 3 true
  have hcause := (Block.SiteOnly.refl c site [Reg.PW_SITE_STATUS.HM_CAUSE site, Reg.PW_SITE_STATUS.HALFMAST site]).hmCause 3 true
    (by simp) (by simp)
  refine yields_of_upd rfl hgo ⟨?_, ?_, ?_, ?_, ?_⟩
  · have hsame : (c.hmCause site 3 true).linkState site = c.linkState site := hcause.rd (by decide : 0 + 4 ≤ 64)
      (by simp [Fld.Apart, Reg.ST_STATUS.STATE, Reg.PW_SITE_STATUS.HM_CAUSE, Reg.PW_SITE_STATUS.HALFMAST])
    exact hsame.trans (by rw [Block.linkState_modLink, Block.linkState_setLink _ _ (by decide)])
  · simp only [Block.site, hsites]
    exact congrArg SiteState.link (Block.site_modLink_same ..)
  · exact ((honly.mono (by simp)).trans (hcause.mono (by simp))).step
      (fs := [Reg.ST_STATUS.STATE site, Reg.PW_SITE_STATUS.HM_CAUSE site, Reg.PW_SITE_STATUS.HALFMAST site])
  · rw [hfc, Block.modLink_fc, Block.setLink_fc]
  · rw [hout, Block.modLink_out, Block.setLink_out]

end

end Sys2Proof.Machine
end
section
/-! SUPPORT. The loss of a site (R169): what completes, what is cleared, and what it leaves as it is. -/

namespace Sys2Proof.Machine

/-! ### What is outstanding completes with SITE_LOST -/

theorem Block.queue_setQueue_of_ne (b : Block) {q k : Nat} (v : QueueState) (h : k ≠ q) : (b.setQueue q v).queue k = b.queue k :=
  SMap.get_put_of_ne _ _ v h

/-- A report leaves every record that has its result, and those of other commands. -/
theorem Block.mem_reportCmd_of_kept {b : Block} {q k id : Nat} {r : CmdRec} (st : Status) (n : Nat) (hr : r ∈ (b.queue q).inflight)
    (hkept : r.result ≠ none ∨ ¬ (k = q ∧ id = r.id)) : r ∈ ((b.reportCmd k id st n).queue q).inflight := by
  by_cases hq : k = q
  · subst hq
    rw [Block.inflight_reportCmd]
    refine List.mem_map.mpr ⟨r, hr, if_neg fun ⟨hid, hnone⟩ => ?_⟩
    rcases hkept with h | h
    · exact h (Option.isNone_iff_eq_none.mp hnone)
    · exact h ⟨rfl, hid.symm⟩
  · rw [Block.reportCmd, Block.queue_setQueue_of_ne _ _ fun h => hq h.symm]
    exact hr

/-- A report gives its result to the record that has none. -/
theorem Block.mem_reportCmd_of_reported {b : Block} {q : Nat} {r : CmdRec} (st : Status) (n : Nat) (hr : r ∈ (b.queue q).inflight)
    (hnone : r.result = none) : { r with result := some (st, n) } ∈ ((b.reportCmd q r.id st n).queue q).inflight := by
  rw [Block.inflight_reportCmd]
  exact List.mem_map.mpr ⟨r, hr, if_pos ⟨rfl, by simp [hnone]⟩⟩

/-- Each dispatch of `ds` has been reported lost. -/
def Block.reportLost (b : Block) (ds : List Dispatch) : Block := ds.foldl (fun b d => b.reportCmd d.queue d.id Code.SITE_LOST 0) b

theorem Block.mem_reportLost_of_done {q : Nat} {r : CmdRec} (hdone : r.result ≠ none) (ds : List Dispatch) {b : Block}
    (hr : r ∈ (b.queue q).inflight) : r ∈ ((b.reportLost ds).queue q).inflight := by
  induction ds generalizing b with
  | nil => exact hr
  | cons d ds ih => exact ih (Block.mem_reportCmd_of_kept _ _ hr (.inl hdone))

theorem Block.mem_reportLost {q : Nat} {r : CmdRec} (hnone : r.result = none) {ds : List Dispatch}
    (hds : ∃ d ∈ ds, d.queue = q ∧ d.id = r.id) {b : Block} (hr : r ∈ (b.queue q).inflight) :
    { r with result := some (Code.SITE_LOST, 0) } ∈ ((b.reportLost ds).queue q).inflight := by
  induction ds generalizing b with
  | nil => simp at hds
  | cons d ds ih =>
    by_cases hd : d.queue = q ∧ d.id = r.id
    · refine Block.mem_reportLost_of_done (by simp) ds ?_
      dsimp only
      rw [hd.1, hd.2]
      exact Block.mem_reportCmd_of_reported Code.SITE_LOST 0 hr hnone
    · have hrest : ∃ d ∈ ds, d.queue = q ∧ d.id = r.id := by
        obtain ⟨x, hx, hq⟩ := hds
        rcases List.mem_cons.mp hx with rfl | hx
        · exact absurd hq hd
        · exact ⟨x, hx, hq⟩
      exact ih hrest (Block.mem_reportCmd_of_kept _ _ hr (.inr hd))

theorem Block.reportLost_rest (ds : List Dispatch) (b : Block) : b.reportLost ds = { b with queues := (b.reportLost ds).queues } := by
  induction ds generalizing b with
  | nil => rfl
  | cons d ds ih => exact ih (b.reportCmd d.queue d.id Code.SITE_LOST 0)

theorem Block.foldl_extDone_rest (ws : List ExtNeed) (b : Block) : (ws.foldl (fun b n => b.extDone n Code.SITE_LOST []) b) =
    { b with ext := (ws.foldl (fun b n => b.extDone n Code.SITE_LOST []) b).ext } := by
  induction ws generalizing b with
  | nil => rfl
  | cons w ws ih => exact ih (b.extDone w Code.SITE_LOST [])

/-- The dispatches that a site has outstanding. -/
def SiteState.dispatched (v : SiteState) : List Dispatch := v.disp.filterMap fun e => match e.2 with
  | some d => if d.cancelled then none else some d
  | none => none

theorem SiteState.mem_dispatched {v : SiteState} {q id : Nat}
    (h : (v.disp.any fun e => e.2.any fun d => !d.cancelled && decide (d.queue = q) && decide (d.id = id)) = true) :
    ∃ d ∈ v.dispatched, d.queue = q ∧ d.id = id := by
  obtain ⟨e, he, hd⟩ := List.any_eq_true.mp h
  obtain ⟨d, hsome⟩ : ∃ d, e.2 = some d := by
    cases he : e.2 with
    | none => simp [he] at hd
    | some d => exact ⟨d, rfl⟩
  simp only [hsome, Option.any_some, Bool.and_eq_true, Bool.not_eq_true', decide_eq_true_eq] at hd
  obtain ⟨⟨hlive, hq⟩, hid⟩ := hd
  exact ⟨d, List.mem_filterMap.mpr ⟨e, he, by simp [hsome, hlive]⟩, hq, hid⟩

theorem Block.loseRequests_eq (b : Block) (n : Nat) : ∃ ws : List ExtNeed, (b.loseRequests n).1 =
    (ws.foldl (fun b n => b.extDone n Code.SITE_LOST []) b).reportLost (b.site n).dispatched := ⟨_, rfl⟩

/-- What is outstanding to a site ends in the queues and outside. -/
theorem Block.loseRequests_rest (b : Block) (n : Nat) :
    (b.loseRequests n).1 = { b with queues := (b.loseRequests n).1.queues, ext := (b.loseRequests n).1.ext } := by
  obtain ⟨ws, h⟩ := b.loseRequests_eq n
  rw [h, Block.reportLost_rest, Block.foldl_extDone_rest]

theorem Block.mem_loseRequests {b : Block} {n q : Nat} {r : CmdRec} (hr : r ∈ (b.queue q).inflight) (hnone : r.result = none)
    (h : ((b.site n).disp.any fun e => e.2.any fun d => !d.cancelled && decide (d.queue = q) && decide (d.id = r.id)) = true) :
    { r with result := some (Code.SITE_LOST, 0) } ∈ ((b.loseRequests n).1.queue q).inflight := by
  obtain ⟨ws, heq⟩ := b.loseRequests_eq n
  rw [heq]
  refine Block.mem_reportLost hnone (SiteState.mem_dispatched h) ?_
  rw [Block.foldl_extDone_rest]
  exact hr

/-! ### What is dropped before the site's agents die, and what is cleared after -/

/-- The link is LOST, no wait of the site stands, and it is not enrolled. -/
def Block.downed (b : Block) (n : Nat) : Block :=
  let c := (b.setLink n Link.LOST).dropWaits fun w => match w with
    | .site x _ _ _ => decide (x = n)
    | _ => false
  c.wr Reg.MH_SITE_PRESENT.ENROLLED (setBits (c.rd Reg.MH_SITE_PRESENT.ENROLLED) n 1 0)

/-- The record of a lost site. -/
def SiteState.lost (v : SiteState) : SiteState :=
  { v with
    link := v.link.dropped, credits := Credits.none, tags := [], siteTags := []
    begun := v.begun.map fun x => { x with lost := true }
    disp := [], enrol := .idle, txq := [], owed := []
    fencedCores := [], power := { SitePower.reset with coolSince := v.power.coolSince } }

/-- The site is cleared; its power state starts anew, and HALFMAST is driven. -/
def Block.cleared (b : Block) (n : Nat) : Block :=
  let c := (((b.setSite n (b.site n).lost).wr (Reg.PW_SITE_STATUS.MISSED n) 0).wr (Reg.PW_SITE_STATUS.DIPPED n) 0).dipAuto
  let d := { c with fc := { c.fc with unfences := c.fc.unfences.filter fun u => u.site ≠ n } }
  (d.siteClocks n).hmCause n 3 true

/-- The loss is logged, with the requests that it ended, and raises a pennant. -/
def Block.lossLogged (b : Block) (n cause lost : Nat) : Block :=
  ((b.count (Reg.ST_LOSS_LOG.LOSSES n) 1).capture (Reg.ST_LOSS_LOG.VALID n) (Reg.ST_LOSS_LOG.OVERFLOW n)
    [(Reg.ST_LOSS_LOG.CAUSE n, cause), (Reg.ST_LOSS_LOG.LOST_REQ n, min lost 65535)]).pennant (Src.site n) Kind.SITE_LOST cause 0

theorem Block.loseSite_eq {b : Block} {n cause : Nat}
    (h : ¬ (b.linkState n = Link.OFF ∨ b.linkState n = Link.LOST ∨ b.linkState n = Link.RESETTING)) : b.loseSite n cause =
      ((((b.loseRequests n).1.downed n).agentsDead n).cleared n).lossLogged n cause (b.loseRequests n).2 := by
  simp only [Block.loseSite, h, if_false, Block.lossLogged]
  congr 3

theorem Block.downed_rest (b : Block) (n : Nat) : b.downed n = { b with regs := (b.downed n).regs, sync := (b.downed n).sync } := by
  simp [Block.downed, Block.dropWaits, Block.setLink, Block.wr]

theorem Block.downed_fields (b : Block) (n : Nat) :
    b.FieldsKept (b.downed n) [Reg.ST_STATUS.STATE n, Reg.MH_SITE_PRESENT.ENROLLED] := by
  unfold Block.downed
  refine Block.FieldsKept.wr (Block.FieldsKept.of_regs ((Block.FieldsKept.refl b _).wr (Reg.ST_STATUS.STATE n) Link.LOST (by simp)) rfl) _ _ (by simp)

/-- No wait of the site stands. -/
theorem Block.waits_downed (b : Block) (n : Nat) :
    ∀ e ∈ (b.downed n).sync.waits, ∀ w ∈ e.2, ∀ x c d, w.who ≠ .site n x c d := by
  intro e he w hw x c d hwho
  obtain ⟨e', -, hsome⟩ := List.mem_filterMap.mp he
  simp only at hsome
  split at hsome
  · exact absurd hsome (by simp)
  · obtain rfl := Option.some.inj hsome
    simp [hwho] at hw

theorem Block.linkState_downed (b : Block) {n : Nat} : (b.downed n).linkState n = Link.LOST := by
  unfold Block.downed Block.linkState
  dsimp only
  rw [Block.rd_wr_of_off_ne _ _ _ _ (by simp [Reg.ST_STATUS.STATE, Reg.MH_SITE_PRESENT.ENROLLED]; omega)]
  exact b.linkState_setLink n (by decide)

theorem Block.enrolled_downed (b : Block) {n : Nat} (k : Nat) : ((b.downed n).rd Reg.MH_SITE_PRESENT.ENROLLED).testBit k =
    (decide (k ≠ n) && (b.rd Reg.MH_SITE_PRESENT.ENROLLED).testBit k) := by
  have hkept : (b.setLink n Link.LOST).rd Reg.MH_SITE_PRESENT.ENROLLED = b.rd Reg.MH_SITE_PRESENT.ENROLLED :=
    Block.rd_wr_of_off_ne _ _ _ _ (by simp [Reg.ST_STATUS.STATE, Reg.MH_SITE_PRESENT.ENROLLED]; omega)
  have hlt : (b.rd Reg.MH_SITE_PRESENT.ENROLLED).testBit k = true → k < 16 := b.lt_of_enrolled
  unfold Block.downed
  dsimp only
  rw [Block.rd_wr_same _ _ _ (by decide : 16 + 16 ≤ 64), Nat.testBit_mod_two_pow]
  change (decide (k < 16) && (setBits ((b.setLink n Link.LOST).rd Reg.MH_SITE_PRESENT.ENROLLED) n 1 0).testBit k) = _
  rw [hkept]
  by_cases hk : k = n
  · simp [hk, testBit_setBits_one]
  · rw [testBit_setBits_one_of_ne _ _ hk]
    cases hbit : (b.rd Reg.MH_SITE_PRESENT.ENROLLED).testBit k with
    | false => simp
    | true => simp [hk, hlt hbit]

end Sys2Proof.Machine
end
section
/-! SUPPORT. A site that is lost (R169): what holds once its agents are dead, its record is cleared and its loss is logged. -/

namespace Sys2Proof.Machine

/-! ### What the death of the site's agents leaves (R215) -/

theorem Fld.off_of_ownWritten {f : Fld} (hf : f ∈ Fld.ownWritten) : 0x5000000 ≤ f.off ∨ f.off % 0x100000 = 0x188 := by
  unfold Fld.ownWritten at hf
  rcases List.mem_append.mp hf with hf | hf
  · rcases List.mem_append.mp hf with hf | hf
    · have hall : ∀ f ∈ [Reg.SH_ECC_CE_COUNT.COUNT, Reg.SH_ECC_UE_COUNT.COUNT, Reg.SH_ECC_LOG.VALID, Reg.SH_ECC_LOG.OVERFLOW,
          Reg.SH_ECC_LOG.ADDR, Reg.SH_ECC_LOG.PBANK, Reg.SH_ECC_LOG.SYNDROME, Reg.SH_ECC_LOG.UE, Reg.CO_ERR_LOG.VALID,
          Reg.CO_ERR_LOG.OVERFLOW, Reg.CO_ERR_LOG.KIND, Reg.CO_ERR_LOG.AGENT, Reg.CO_ERR_ADDR.DLA, Reg.CO_RECLAIM_LOG.POISONED,
          Reg.CO_RECLAIM_LOG.RECOVERED, Reg.CO_STATUS.TRACKERS, Reg.CO_SNOOPS.COUNT, Reg.CO_BUNTING.COUNT, Reg.CO_NACKS.COUNT,
          Reg.CO_VICTIMS.COUNT], 0x5000000 ≤ f.off := by decide
      exact .inl (hall f hf)
    · obtain ⟨st, -, hst⟩ := List.mem_flatMap.mp hf
      simp only [List.mem_cons, List.not_mem_nil, or_false] at hst
      rcases hst with rfl | rfl | rfl | rfl | rfl | rfl | rfl | rfl | rfl | rfl <;> exact .inl (Nat.le_trans (by decide) (Nat.le_add_right _ _))
  · obtain ⟨s, -, rfl⟩ := List.mem_map.mp hf
    right
    simp only [Reg.ST_SWP_PKT_TX.COUNT]
    omega

theorem Fld.quiet_of_off {g : Fld} (hw : g.lo + g.w ≤ 64) (hoff : g.off < 0x5000000 ∧ g.off % 0x100000 ≠ 0x188) : g.Quiet :=
  ⟨hw, fun f hf => .inl fun heq => by
    have := Fld.off_of_ownWritten hf
    omega⟩

theorem Fld.quiet_reclaimPending : Reg.CO_STATUS.RECLAIM_PENDING.Quiet := by
  unfold Fld.Quiet Fld.Apart
  decide +kernel

theorem Fld.quiet_enrolled : Reg.MH_SITE_PRESENT.ENROLLED.Quiet := Fld.quiet_of_off (by decide) (by decide)

section
variable {n : Nat} (hn : n < 16)
include hn

theorem Fld.quiet_status : (Reg.ST_STATUS.STATE n).Quiet ∧ (Reg.ST_STATUS.PINNED n).Quiet ∧ (Reg.ST_STATUS.RECON_FAILS n).Quiet := by
  have hoff : 0x4000010 + 0x100000 * n < 0x5000000 ∧ (0x4000010 + 0x100000 * n) % 0x100000 ≠ 0x188 := by omega
  exact ⟨Fld.quiet_of_off (by decide : 0 + 4 ≤ 64) hoff, Fld.quiet_of_off (by decide : 18 + 1 ≤ 64) hoff,
    Fld.quiet_of_off (by decide : 19 + 2 ≤ 64) hoff⟩

theorem Fld.quiet_lossValid : (Reg.ST_LOSS_LOG.VALID n).Quiet :=
  Fld.quiet_of_off (by decide : 4 + 1 ≤ 64) (by simp only [Reg.ST_LOSS_LOG.VALID]; omega)

end

section
variable {b c : Block} (h : c.still = b.still)
include h

theorem Block.rd_of_still {g : Fld} (hg : g.Quiet) : c.rd g = b.rd g :=
  congrFun (congrArg (fun x => x.2.2.1) h) ⟨g, hg⟩

theorem Block.queue_of_still (q : Nat) : c.queue q = b.queue q := by
  have hq : c.queues = b.queues := congrArg (fun x => x.1) h
  rw [Block.queue, Block.queue, hq]

theorem Block.sync_of_still : c.sync = b.sync := congrArg (fun x => x.2.1) h

theorem Block.pinned_of_still (k : Nat) : (c.site k).link.pinned = (b.site k).link.pinned :=
  congrFun (congrArg (fun x => x.2.2.2) h) k

end

theorem Block.reclaims_fields (b : Block) (n : Nat) :
    b.FieldsKept (b.reclaims n) [Reg.CO_STATUS.RECLAIM_PENDING, Reg.CO_STATUS.RECLAIM_ACTIVE] :=
  ((Block.FieldsKept.refl b _).wr _ _ (by simp)).wr _ _ (by simp)

@[simp] theorem Block.site_reclaims (b : Block) (n k : Nat) : (b.reclaims n).site k = b.site k := by
  rw [Block.reclaims, Block.site_wr, Block.site_wr]

theorem Block.rd_agentsDead (b : Block) (n : Nat) {g : Fld} (hg : g.Quiet) (hpending : g.Apart Reg.CO_STATUS.RECLAIM_PENDING)
    (hactive : g.Apart Reg.CO_STATUS.RECLAIM_ACTIVE) : (b.agentsDead n).rd g = b.rd g :=
  (Block.rd_of_still (b.still_agentsDead n) hg).trans (b.reclaims_fields n g hg.1 (by simp [hpending, hactive]))

theorem Block.pending_agentsDead (b : Block) {n : Nat} (hn : n < 16) :
    ((b.agentsDead n).rd Reg.CO_STATUS.RECLAIM_PENDING).testBit n = true := by
  rw [Block.rd_of_still (b.still_agentsDead n) Fld.quiet_reclaimPending, Block.reclaims,
    Block.rd_wr_of_apart _ _ _ _ (by decide) (by unfold Fld.Apart; decide), Block.rd_wr_same _ _ _ (by decide), Nat.testBit_mod_two_pow,
    testBit_setBits_one]
  simp [Reg.CO_STATUS.RECLAIM_PENDING, hn]

/-! ### The record is cleared -/

/-- The fields of a site's power state that its loss clears. -/
def Reg.clearedFields (n : Nat) : List Fld := [Reg.PW_SITE_STATUS.MISSED n, Reg.PW_SITE_STATUS.DIPPED n, Reg.PW_SITE_STATUS.HM_CAUSE n,
  Reg.PW_SITE_STATUS.HALFMAST n, Reg.PW_STATUS.DIP_AUTO]

section
variable (b : Block) (n : Nat)

theorem Block.SiteOnly.unfences {b c : Block} {n : Nat} {fs : List Fld} (h : b.SiteOnly c n fs) (fc : FaultState) :
    b.SiteOnly { c with fc := fc } n fs :=
  h.trans ⟨rfl, fun _ _ => rfl, fun _ _ _ => rfl⟩

theorem Block.cleared_siteOnly : b.SiteOnly (b.cleared n) n (Reg.clearedFields n) := by
  unfold Block.cleared Block.dipAuto
  refine Block.SiteOnly.hmCause (Block.SiteOnly.siteClocks (Block.SiteOnly.unfences (Block.SiteOnly.wr ?_ _ _ ?_) _)) 3 true ?_ ?_
  · refine (((Block.SiteOnly.refl b n _).setSite _).wr _ _ ?_).wr _ _ ?_
    all_goals simp [Reg.clearedFields]
  all_goals simp [Reg.clearedFields]

theorem Block.site_of_sites {b c : Block} (h : c.sites = b.sites) (k : Nat) : c.site k = b.site k := by
  rw [Block.site, h, Block.site]

/-- No tag, no dispatch and no packet of the site is left; its pin stays. -/
theorem Block.site_cleared : ((b.cleared n).site n).tags = [] ∧ ((b.cleared n).site n).disp = [] ∧ ((b.cleared n).site n).txq = [] ∧
    ((b.cleared n).site n).link.pinned = (b.site n).link.pinned := by
  unfold Block.cleared
  extract_lets c _ d
  have hd : d.site n = (b.site n).lost := by
    have hsites : d.sites = c.sites := by simp only [d]
    rw [Block.site_of_sites hsites]
    simp [c, Block.dipAuto]
  rw [Block.site_of_sites ((d.siteClocks n).hmCause_rest n 3 true).1, Block.siteClocks, Block.site_modLink_same, hd]
  exact ⟨rfl, rfl, rfl, rfl⟩

end

/-! ### The loss is logged -/

/-- The fields of a site's loss log. -/
def Reg.lossLogFields (n : Nat) : List Fld := [Reg.ST_LOSS_LOG.LOSSES n, Reg.ST_LOSS_LOG.VALID n, Reg.ST_LOSS_LOG.OVERFLOW n,
  Reg.ST_LOSS_LOG.CAUSE n, Reg.ST_LOSS_LOG.LOST_REQ n]

section
variable (b : Block) (n cause lost : Nat)

theorem Block.lossLogged_siteOnly : b.SiteOnly (b.lossLogged n cause lost) n (Reg.lossLogFields n) := by
  unfold Block.lossLogged Block.capture
  refine Block.SiteOnly.pennant ?_ _ _ _ _
  have hcount := (Block.SiteOnly.refl b n (Reg.lossLogFields n)).count (Reg.ST_LOSS_LOG.LOSSES n) 1 (by simp [Reg.lossLogFields])
  split
  · exact hcount.wr _ _ (by simp [Reg.lossLogFields])
  · exact ((hcount.wr _ _ (by simp [Reg.lossLogFields])).wr _ _ (by simp [Reg.lossLogFields])).wr _ _ (by simp [Reg.lossLogFields])

@[simp] theorem Block.site_lossLogged (k : Nat) : (b.lossLogged n cause lost).site k = b.site k := by
  unfold Block.lossLogged Block.capture
  rw [Block.site_pennant]
  split <;> simp

/-- The first loss is the one that the log holds. -/
theorem Block.rd_lossLogged (h : b.rd (Reg.ST_LOSS_LOG.VALID n) = 0) (hcause : cause < 16) :
    (b.lossLogged n cause lost).rd (Reg.ST_LOSS_LOG.VALID n) = 1 ∧ (b.lossLogged n cause lost).rd (Reg.ST_LOSS_LOG.CAUSE n) = cause := by
  have hvalid : (b.count (Reg.ST_LOSS_LOG.LOSSES n) 1).is (Reg.ST_LOSS_LOG.VALID n) = false := by
    rw [Block.is_eq, Block.count, Block.rd_wr_of_apart _ _ _ _ (by decide : 4 + 1 ≤ 64)
      (by simp [Fld.Apart, Reg.ST_LOSS_LOG.VALID, Reg.ST_LOSS_LOG.LOSSES]), h]
    rfl
  unfold Block.lossLogged Block.capture
  rw [if_neg (by simp [hvalid])]
  rw [Block.rd_pennant, Block.rd_pennant]
  refine ⟨(Block.rd_wr_same _ _ _ (by decide : 4 + 1 ≤ 64)).trans rfl, ?_⟩
  rw [Block.rd_wr_of_apart _ _ _ _ (by decide : 0 + 4 ≤ 64)
    (by simp [Fld.Apart, Reg.ST_LOSS_LOG.VALID, Reg.ST_LOSS_LOG.CAUSE])]
  simp only [List.foldl_cons, List.foldl_nil]
  rw [Block.rd_wr_of_apart _ _ _ _ (by decide : 0 + 4 ≤ 64) (by simp [Fld.Apart, Reg.ST_LOSS_LOG.LOST_REQ, Reg.ST_LOSS_LOG.CAUSE]),
    Block.rd_wr_same _ _ _ (by decide : 0 + 4 ≤ 64)]
  exact Nat.mod_eq_of_lt hcause

end

/-! ### The loss as a whole -/

/-- The fields that the loss of a site writes, beside the coherence home's own. -/
def Reg.lossFields (n : Nat) : List Fld := [Reg.ST_STATUS.STATE n, Reg.MH_SITE_PRESENT.ENROLLED, Reg.CO_STATUS.RECLAIM_PENDING,
  Reg.CO_STATUS.RECLAIM_ACTIVE, Reg.PW_SITE_STATUS.MISSED n, Reg.PW_SITE_STATUS.DIPPED n, Reg.PW_SITE_STATUS.HM_CAUSE n,
  Reg.PW_SITE_STATUS.HALFMAST n, Reg.ST_LOSS_LOG.LOSSES n, Reg.ST_LOSS_LOG.VALID n, Reg.ST_LOSS_LOG.OVERFLOW n,
  Reg.ST_LOSS_LOG.CAUSE n, Reg.ST_LOSS_LOG.LOST_REQ n, Reg.PW_STATUS.DIP_AUTO]

/-- A link that is up or coming up. -/
def Block.Losable (b : Block) (n : Nat) : Prop :=
  ¬ (b.linkState n = Link.OFF ∨ b.linkState n = Link.LOST ∨ b.linkState n = Link.RESETTING)

/-- The site is down: what it had outstanding has completed, its link is LOST, it waits for nothing and is not enrolled. -/
abbrev Block.taken (b : Block) (n : Nat) : Block := (b.loseRequests n).1.downed n

/-- The clearing and the log together. -/
theorem Block.ended_siteOnly (b : Block) (n cause lost : Nat) :
    b.SiteOnly ((b.cleared n).lossLogged n cause lost) n (Reg.clearedFields n ++ Reg.lossLogFields n) :=
  ((b.cleared_siteOnly n).mono fun _ hf => List.mem_append_left _ hf).trans
    ((Block.lossLogged_siteOnly ..).mono fun _ hf => List.mem_append_right _ hf)

theorem Block.taken_rest (b : Block) (n : Nat) :
    b.taken n = { b with regs := (b.taken n).regs, sync := (b.taken n).sync, queues := (b.taken n).queues, ext := (b.taken n).ext } := by
  rw [Block.taken, Block.downed_rest, Block.loseRequests_rest]

theorem Block.site_taken (b : Block) (n k : Nat) : (b.taken n).site k = b.site k := by
  have hsites := congrArg Block.sites (b.taken_rest n)
  dsimp only at hsites
  exact Block.site_of_sites hsites k

theorem Block.taken_fields (b : Block) (n : Nat) :
    b.FieldsKept (b.taken n) [Reg.ST_STATUS.STATE n, Reg.MH_SITE_PRESENT.ENROLLED] := by
  refine Block.FieldsKept.trans ?_ (Block.downed_fields _ n)
  rw [Block.loseRequests_rest]
  exact fun _ _ _ => rfl

section
variable {b : Block} {n : Nat} (hn : n < 16) (cause : Nat)

/-- A field that the coherence home does not write, beside those of the loss, reads as before, whether the site is lost or was. -/
theorem Block.rd_loseSite {g : Fld} (hg : g.Quiet) (hapart : ∀ f ∈ Reg.lossFields n, g.Apart f) : (b.loseSite n cause).rd g = b.rd g := by
  by_cases h : b.Losable n
  · rw [Block.loseSite_eq h]
    have hends := (Block.ended_siteOnly ((b.taken n).agentsDead n) n cause (b.loseRequests n).2).rd hg.1
      fun f hf => hapart f (by simp [Reg.lossFields, Reg.clearedFields, Reg.lossLogFields] at hf ⊢; tauto)
    have hdead := (b.taken n).rd_agentsDead n hg (hapart _ (by simp [Reg.lossFields])) (hapart _ (by simp [Reg.lossFields]))
    have htaken := b.taken_fields n g hg.1 fun f hf => hapart f (by simp [Reg.lossFields] at hf ⊢; tauto)
    exact hends.trans (hdead.trans htaken)
  · rw [Block.loseSite, if_pos (not_not.mp h)]

/-- The pin stays. -/
theorem Block.pinned_loseSite : ((b.loseSite n cause).site n).link.pinned = (b.site n).link.pinned := by
  by_cases h : b.Losable n
  · obtain ⟨-, -, -, hpin⟩ := Block.site_cleared ((b.taken n).agentsDead n) n
    rw [Block.loseSite_eq h, Block.site_lossLogged, hpin, Block.pinned_of_still ((b.taken n).still_agentsDead n) n,
      Block.site_reclaims, Block.site_taken]
  · rw [Block.loseSite, if_pos (not_not.mp h)]

end

end Sys2Proof.Machine
end
section
/-! SUPPORT. The commands by which a site is lost (R169), the third failure of a reconciliation (R164), and the notes and
heartbeats of the sideband (R167, R168). -/

namespace Sys2Proof.Machine

/-! ### What a loss shows -/

/-- `c` is `b` after the loss of site `n`. -/
structure Block.LosesSite (b c : Block) (n cause : Nat) : Prop where
  state : c.linkState n = Link.LOST
  enrolled : c.enrolled n = false
  others : ∀ k, k ≠ n → (c.rd Reg.MH_SITE_PRESENT.ENROLLED).testBit k = (b.rd Reg.MH_SITE_PRESENT.ENROLLED).testBit k
  logged : b.rd (Reg.ST_LOSS_LOG.VALID n) = 0 →
    c.rd (Reg.ST_LOSS_LOG.VALID n) = 1 ∧ c.rd (Reg.ST_LOSS_LOG.CAUSE n) = cause
  tags : (c.site n).tags = []
  disp : (c.site n).disp = []
  txq : (c.site n).txq = []
  inflight : ∀ q r, r ∈ (b.queue q).inflight → r.result = none →
    ((b.site n).disp.any fun e => e.2.any fun d => !d.cancelled && decide (d.queue = q) && decide (d.id = r.id)) = true →
    { r with result := some (Code.SITE_LOST, 0) } ∈ (c.queue q).inflight
  waits : ∀ e ∈ c.sync.waits, ∀ w ∈ e.2, ∀ x y z, w.who ≠ .site n x y z
  pending : (c.rd Reg.CO_STATUS.RECLAIM_PENDING).testBit n = true
  closed : b.coh.txns = [] → c.shelf = b.shelf ∧ c.hbm = b.hbm ∧ b.SitesKept c n ∧ b.FieldsKept c (Reg.lossFields n)

section
variable {b : Block} {n : Nat}

theorem Block.ended_rest (b : Block) (n cause lost : Nat) :
    ((b.cleared n).lossLogged n cause lost).queues = b.queues ∧ ((b.cleared n).lossLogged n cause lost).sync = b.sync ∧
    ((b.cleared n).lossLogged n cause lost).shelf = b.shelf ∧ ((b.cleared n).lossLogged n cause lost).hbm = b.hbm := by
  rw [(b.ended_siteOnly n cause lost).rest]
  exact ⟨rfl, rfl, rfl, rfl⟩

theorem Reg.off_of_clearedFields {f : Fld} (hf : f ∈ Reg.clearedFields n) : 0xb000000 ≤ f.off := by
  simp only [Reg.clearedFields, List.mem_cons, List.not_mem_nil, or_false] at hf
  rcases hf with rfl | rfl | rfl | rfl | rfl <;>
    simp only [Reg.PW_SITE_STATUS.MISSED, Reg.PW_SITE_STATUS.DIPPED, Reg.PW_SITE_STATUS.HM_CAUSE, Reg.PW_SITE_STATUS.HALFMAST,
      Reg.PW_STATUS.DIP_AUTO] <;> omega

theorem Reg.off_of_lossLogFields {f : Fld} (hf : f ∈ Reg.lossLogFields n) : f.off = 0x4000020 + 0x100000 * n := by
  simp only [Reg.lossLogFields, List.mem_cons, List.not_mem_nil, or_false] at hf
  rcases hf with rfl | rfl | rfl | rfl | rfl <;> rfl

/-- A field of another register than the power state's and the loss log's is not touched by the loss's end. -/
theorem Block.rd_ended (b : Block) (cause lost : Nat) {g : Fld} (hg : g.lo + g.w ≤ 64)
    (hoff : g.off < 0xb000000 ∧ g.off ≠ 0x4000020 + 0x100000 * n) : ((b.cleared n).lossLogged n cause lost).rd g = b.rd g := by
  refine (b.ended_siteOnly n cause lost).rd hg fun f hf => .inl ?_
  rcases List.mem_append.mp hf with hf | hf
  · have := Reg.off_of_clearedFields hf
    omega
  · have := Reg.off_of_lossLogFields hf
    omega

/-- A field of another register than CO_STATUS is not touched by what the loss of a site starts in the coherence home. -/
theorem Block.rd_agentsDead_of_off (b : Block) {g : Fld} (hg : g.Quiet) (hoff : g.off ≠ 0x8000010) : (b.agentsDead n).rd g = b.rd g :=
  b.rd_agentsDead n hg (.inl hoff) (.inl hoff)

theorem Block.rd_loseRequests (b : Block) (n : Nat) (g : Fld) : (b.loseRequests n).1.rd g = b.rd g := by
  have hregs := congrArg Block.regs (b.loseRequests_rest n)
  dsimp only at hregs
  exact Block.rd_of_regs hregs g

theorem Block.coh_taken (b : Block) (n : Nat) : (b.taken n).coh = b.coh ∧ (b.taken n).shelf = b.shelf ∧ (b.taken n).hbm = b.hbm := by
  rw [b.taken_rest n]
  exact ⟨rfl, rfl, rfl⟩

theorem Block.scans_rest (b : Block) (n : Nat) : ((b.reclaims n).scans n).shelf = b.shelf ∧ ((b.reclaims n).scans n).hbm = b.hbm ∧
    ((b.reclaims n).scans n).sites = b.sites ∧ ((b.reclaims n).scans n).regs = (b.reclaims n).regs := by
  simp [Block.scans, Block.reclaims, Block.wr]

/-- With no line open the coherence home does nothing more. -/
theorem Block.closed_loses (h : b.coh.txns = []) (cause lost : Nat) :
    let c := (((b.taken n).agentsDead n).cleared n).lossLogged n cause lost
    c.shelf = b.shelf ∧ c.hbm = b.hbm ∧ b.SitesKept c n ∧ b.FieldsKept c (Reg.lossFields n) := by
  obtain ⟨hcoh, htshelf, hthbm⟩ := b.coh_taken n
  have hdead : (b.taken n).agentsDead n = ((b.taken n).reclaims n).scans n := Block.agentsDead_of_closed _ (by rw [hcoh, h]) n
  obtain ⟨-, -, hshelf, hhbm⟩ := (((b.taken n).reclaims n).scans n).ended_rest n cause lost
  obtain ⟨hsshelf, hshbm, hssites, hsregs⟩ := (b.taken n).scans_rest n
  have hends := (((b.taken n).reclaims n).scans n).ended_siteOnly n cause lost
  rw [hdead]
  refine ⟨?_, ?_, fun k hk => ?_, ?_⟩
  · rw [hshelf, hsshelf, htshelf]
  · rw [hhbm, hshbm, hthbm]
  · exact (hends.sites k hk).trans ((Block.site_of_sites hssites k).trans (b.site_taken n k))
  · refine (((b.taken_fields n).mono ?_).trans ((((b.taken n).reclaims_fields n).of_regs hsregs).mono ?_)).trans (hends.fields.mono ?_)
    · simp [Reg.lossFields]
    · simp [Reg.lossFields]
    · simp [Reg.lossFields, Reg.clearedFields, Reg.lossLogFields]

theorem Block.queue_of_queues {b c : Block} (h : c.queues = b.queues) (q : Nat) : c.queue q = b.queue q := by
  rw [Block.queue, h, Block.queue]

theorem Block.queue_taken (b : Block) (n q : Nat) : (b.taken n).queue q = (b.loseRequests n).1.queue q := by
  have hqueues := congrArg Block.queues (Block.downed_rest (b.loseRequests n).1 n)
  dsimp only at hqueues
  exact Block.queue_of_queues hqueues q

theorem Block.reclaims_rest (b : Block) (n : Nat) : (b.reclaims n).queues = b.queues ∧ (b.reclaims n).sync = b.sync := by
  simp [Block.reclaims, Block.wr]

theorem Block.loseSite_loses (hn : n < 16) (h : b.Losable n) {cause : Nat} (hcause : cause < 16) :
    b.LosesSite (b.loseSite n cause) n cause := by
  obtain ⟨hqueues, hsync, -, -⟩ := ((b.taken n).agentsDead n).ended_rest n cause (b.loseRequests n).2
  obtain ⟨htags, hdisp, htxq, -⟩ := ((b.taken n).agentsDead n).site_cleared n
  obtain ⟨hrqueues, hrsync⟩ := (b.taken n).reclaims_rest n
  have hstill := (b.taken n).still_agentsDead n
  rw [Block.loseSite_eq h]
  have henrolled (k : Nat) : (((((b.taken n).agentsDead n).cleared n).lossLogged n cause (b.loseRequests n).2).rd
      Reg.MH_SITE_PRESENT.ENROLLED).testBit k = (decide (k ≠ n) && (b.rd Reg.MH_SITE_PRESENT.ENROLLED).testBit k) := by
    rw [Block.rd_ended _ _ _ Fld.quiet_enrolled.1 (by simp only [Reg.MH_SITE_PRESENT.ENROLLED]; omega),
      Block.rd_agentsDead_of_off _ Fld.quiet_enrolled (by decide), Block.enrolled_downed, Block.rd_loseRequests]
  have hvalid : (((b.taken n).agentsDead n).cleared n).rd (Reg.ST_LOSS_LOG.VALID n) = b.rd (Reg.ST_LOSS_LOG.VALID n) := by
    rw [(Block.cleared_siteOnly _ n).rd (by decide : 4 + 1 ≤ 64) fun f hf => .inl (by
        have := Reg.off_of_clearedFields hf
        simp only [Reg.ST_LOSS_LOG.VALID]
        omega),
      Block.rd_agentsDead_of_off _ (Fld.quiet_lossValid hn) (by simp only [Reg.ST_LOSS_LOG.VALID]; omega)]
    exact b.taken_fields n _ (by decide : 4 + 1 ≤ 64)
      (by simp [Fld.Apart, Reg.ST_LOSS_LOG.VALID, Reg.ST_STATUS.STATE, Reg.MH_SITE_PRESENT.ENROLLED])
  refine ⟨?_, ?_, fun k hk => ?_, fun h0 => Block.rd_lossLogged _ n cause _ (hvalid.trans h0) hcause, ?_, ?_, ?_,
    fun q r hr hnone hout => ?_, ?_, ?_, fun hclosed => Block.closed_loses hclosed _ _⟩
  · have hoff : (Reg.ST_STATUS.STATE n).off < 0xb000000 ∧ (Reg.ST_STATUS.STATE n).off ≠ 0x4000020 + 0x100000 * n := by
      simp only [Reg.ST_STATUS.STATE]
      omega
    rw [Block.linkState, Block.rd_ended _ _ _ (by decide : 0 + 4 ≤ 64) hoff, Block.rd_agentsDead_of_off _ (Fld.quiet_status hn).1
      (by simp only [Reg.ST_STATUS.STATE]; omega)]
    exact Block.linkState_downed _
  · exact (henrolled n).trans (by simp)
  · exact (henrolled k).trans (by simp [hk])
  · rw [Block.site_lossLogged, htags]
  · rw [Block.site_lossLogged, hdisp]
  · rw [Block.site_lossLogged, htxq]
  · rw [Block.queue_of_queues hqueues, Block.queue_of_still hstill, Block.queue_of_queues hrqueues, Block.queue_taken]
    exact Block.mem_loseRequests hr hnone hout
  · rw [hsync, Block.sync_of_still hstill, hrsync]
    exact Block.waits_downed _ n
  · rw [Block.rd_ended _ _ _ Fld.quiet_reclaimPending.1 (by simp only [Reg.CO_STATUS.RECLAIM_PENDING]; omega)]
    exact Block.pending_agentsDead _ hn

end

end Sys2Proof.Machine
end
section
/-! SUPPORT. The commands by which a site is lost (R169), the third failure of a reconciliation (R164), and what the sideband
brings besides (R162, R167, R168). -/

namespace Sys2Proof.Machine

section
variable {s : State} {site : SiteNo}

/-! ### Commands that lose the site -/

/-- A command that loses a site yields what the loss shows; nothing beside the block changes. -/
theorem yields_loses {c : Instr} {g : Block → Block} {cause : Nat} (hexec : exec c s = .next (s.upd g))
    (hg : g s.blk = s.blk.loseSite site cause) (hlosable : s.blk.Losable site) (hcause : cause < 16) :
    Yields c s fun t => s.blk.LosesSite t.blk site cause ∧ t.fuse = s.fuse ∧ t.pending = s.pending :=
  yields_of_upd hexec hg ⟨Block.loseSite_loses site.isLt hlosable hcause, rfl, rfl⟩

section
variable (hst : s.blk.linkState site = Link.TRAINED ∨ s.blk.linkState site = Link.ENROLLED ∨ s.blk.linkState site = Link.WIDTH_CHANGE)
include hst

theorem losable_of_up : s.blk.Losable site := by
  unfold Block.Losable
  rcases hst with h | h | h <;> rw [h] <;> decide

theorem resetNote_loses : Yields (.resetNote site) s fun t =>
    s.blk.LosesSite t.blk site 4 ∧ t.fuse = s.fuse ∧ t.pending = s.pending :=
  yields_loses rfl rfl (losable_of_up hst) (by decide)

theorem heartbeatTimeout_loses (hhello : (s.blk.site site).link.hello = true) : Yields (.heartbeatTimeout site) s fun t =>
    s.blk.LosesSite t.blk site 1 ∧ t.fuse = s.fuse ∧ t.pending = s.pending :=
  yields_loses rfl (if_pos hhello) (losable_of_up hst) (by decide)

/-- The loss of every clock is the loss of every active one. -/
theorem clockLoss_loses : Yields (.clockLoss site 0xFF) s fun t =>
    s.blk.LosesSite t.blk site 2 ∧ t.fuse = s.fuse ∧ t.pending = s.pending := by
  have hup : s.blk.linkUp site = true := by
    unfold Block.linkUp
    rcases hst with h | h | h <;> rw [h] <;> decide
  have hwidth : s.blk.rd (Reg.ST_STATUS.WIDTH_SET site) < 2 ^ 8 := s.blk.rd_lt _
  have hall : s.blk.rd (Reg.ST_STATUS.WIDTH_SET site) &&& 255 = s.blk.rd (Reg.ST_STATUS.WIDTH_SET site) := by
    rw [show 255 = 2 ^ 8 - 1 from rfl, Nat.and_two_pow_sub_one_of_lt_two_pow hwidth]
  have hgo : s.blk.clockLoss site 255 = s.blk.loseSite site 2 := by
    simp [Block.clockLoss, hup, hall]
  exact yields_loses rfl hgo (losable_of_up hst) (by decide)

theorem sidebandResend_loses (hsends : ((s.blk.site site).link.waits.head?.map fun w => w.sends) = some 4) :
    Yields (.sidebandResend site) s fun t =>
      s.blk.LosesSite t.blk site 7 ∧ t.fuse = s.fuse ∧ t.pending = s.pending := by
  have hgo : s.blk.sidebandResend site = s.blk.loseSite site 7 := by
    cases hwaits : (s.blk.site site).link.waits with
    | nil => simp [hwaits] at hsends
    | cons w ws =>
      have hw : w.sends = 4 := by simpa [hwaits] using hsends
      simp [Block.sidebandResend, hwaits, hw]
  exact yields_loses rfl hgo (losable_of_up hst) (by decide)

end

theorem resetNote_idle (hst : s.blk.linkState site = Link.LOST ∨ s.blk.linkState site = Link.OFF) :
    exec (.resetNote site) s = .next s := by
  have hgo : s.blk.loseSite site 4 = s.blk := if_pos (hst.symm.imp_right .inl)
  rw [exec_resetNote, execResetNote, State.upd, hgo]

/-! ### The third failure (R164) -/

/-- The site's width is pinned, and WIDTH_PIN goes out. -/
def Block.pins (b : Block) (n pin : Nat) : Block :=
  ((((b.wr (Reg.ST_STATUS.RECON_FAILS n) 3).modLink n fun l => { l with pinned := some pin, recon := none }).wr
    (Reg.ST_STATUS.PINNED n) 1).sideband n 0x05 pin 0).pennant (Src.site n) Kind.WIDTH_PINNED 0 0

section
variable (b : Block) (n pin : Nat)

theorem Block.pins_siteOnly : b.SiteOnly (b.pins n pin) n [Reg.ST_STATUS.RECON_FAILS n, Reg.ST_STATUS.PINNED n] := by
  unfold Block.pins
  exact (((((Block.SiteOnly.refl b n _).wr _ _ (by simp)).modLink _).wr _ _ (by simp)).sideband _ _ _).pennant _ _ _ _

theorem Block.rd_pins : (b.pins n pin).rd (Reg.ST_STATUS.RECON_FAILS n) = 3 ∧ (b.pins n pin).rd (Reg.ST_STATUS.PINNED n) = 1 := by
  unfold Block.pins
  rw [Block.rd_pennant, Block.rd_pennant, Block.rd_sideband, Block.rd_sideband]
  refine ⟨?_, (Block.rd_wr_same _ _ _ (by decide : 18 + 1 ≤ 64)).trans rfl⟩
  rw [Block.rd_wr_of_apart _ _ _ _ (by decide : 19 + 2 ≤ 64) (by simp [Fld.Apart, Reg.ST_STATUS.RECON_FAILS, Reg.ST_STATUS.PINNED]),
    Block.rd_modLink]
  exact (Block.rd_wr_same _ _ _ (by decide : 19 + 2 ≤ 64)).trans rfl

theorem Block.pinned_pins : ((b.pins n pin).site n).link.pinned = some pin := by
  rw [Block.pins, Block.site_pennant, Block.link_sideband _ _ rfl]
  dsimp only
  rw [Block.site_wr, Block.site_modLink_same]

theorem Block.pins_out : (b.pins n pin).out = b.out ++ [.sideband n (Sideband.wire 0x05 (b.site n).link.sbTag pin 0)] := by
  rw [Block.pins, Block.pennant_out, Block.sideband_out, Block.wr_out, Block.modLink_out, Block.wr_out, Block.site_wr,
    Block.site_modLink_same, Block.site_wr]

theorem Block.pins_raised : b.Raised (b.pins n pin) (Src.site n) Kind.WIDTH_PINNED 0 0 := by
  rw [Block.Raised, Block.pins]
  refine Block.pennant_fc_of_eq _ _ _ _ ?_ ?_
  · rw [Block.sideband_fc, Block.wr_fc, Block.modLink_fc, Block.wr_fc]
  · rw [Block.sideband_now, Block.wr_now, Block.modLink_now, Block.wr_now]

/-- The width that the last two proposals of an attempt pin, less the groups that failed. -/
def Recon.pinSet (r : Recon) (n : Nat) : Nat :=
  let both := r.hubSet.getD r.lastHub &&& r.siteSet.getD r.lastSite
  Site.activeSet n (both - (both &&& r.failed))

theorem Block.failAttempt_of_third (r : Recon) (h : b.rd (Reg.ST_STATUS.RECON_FAILS n) = 2) :
    b.failAttempt n r 0 = if r.pinSet n = 0 then (b.pins n (r.pinSet n)).loseSite n 3 else b.pins n (r.pinSet n) := by
  unfold Recon.pinSet
  simp [Block.failAttempt, Block.pins, h]

end

/-- The counts and pins of a site's link are apart from what its loss writes. -/
theorem Reg.apart_lossFields {n : Nat} (hn : n < 16) {g : Fld} (hoff : g.off = 0x4000010 + 0x100000 * n) (hlo : 4 ≤ g.lo) :
    ∀ f ∈ Reg.lossFields n, g.Apart f := by
  intro f hf
  have hcases : f = Reg.ST_STATUS.STATE n ∨ g.off ≠ f.off := by
    simp only [Reg.lossFields, List.mem_cons, List.not_mem_nil, or_false] at hf
    rcases hf with rfl | rfl | rfl | rfl | rfl | rfl | rfl | rfl | rfl | rfl | rfl | rfl | rfl | rfl
    · exact .inl rfl
    all_goals
      right
      simp only [hoff, Reg.MH_SITE_PRESENT.ENROLLED, Reg.CO_STATUS.RECLAIM_PENDING, Reg.CO_STATUS.RECLAIM_ACTIVE,
        Reg.PW_SITE_STATUS.MISSED, Reg.PW_SITE_STATUS.DIPPED, Reg.PW_SITE_STATUS.HM_CAUSE, Reg.PW_SITE_STATUS.HALFMAST,
        Reg.ST_LOSS_LOG.LOSSES, Reg.ST_LOSS_LOG.VALID, Reg.ST_LOSS_LOG.OVERFLOW, Reg.ST_LOSS_LOG.CAUSE, Reg.ST_LOSS_LOG.LOST_REQ,
        Reg.PW_STATUS.DIP_AUTO]
      omega
  rcases hcases with rfl | h
  · exact .inr (.inr hlo)
  · exact .inl h

theorem reconTimeout_pins {c : Recon} (hrecon : (s.blk.site site).link.recon = some c) (hst : s.blk.linkState site = Link.RECONCILING)
    (hsite : c.siteAgree = none) (hfails : s.blk.rd (Reg.ST_STATUS.RECON_FAILS site) = 2) (passed rates : BitVec 8) :
    Yields (.reconTimeout ⟨site, passed, rates⟩) s fun t =>
      t.blk.rd (Reg.ST_STATUS.RECON_FAILS site) = 3 ∧ t.blk.rd (Reg.ST_STATUS.PINNED site) = 1 ∧
      (t.blk.site site).link.pinned = some (c.pinSet site) ∧
      (c.pinSet site ≠ 0 → s.blk.Raised t.blk (Src.site site) Kind.WIDTH_PINNED 0 0 ∧
        t.blk.out = s.blk.out ++ [.sideband site (Sideband.wire 0x05 (s.blk.site site).link.sbTag (c.pinSet site) 0)] ∧ s.SiteStep t site) := by
  have hgo : s.blk.reconTimeout site passed.toNat rates.toNat =
      if c.pinSet site = 0 then (s.blk.pins site (c.pinSet site)).loseSite site 3 else s.blk.pins site (c.pinSet site) := by
    rw [← s.blk.failAttempt_of_third site c hfails]
    simp [Block.reconTimeout, hst, hrecon, Link.RECONCILING, Link.TRAINING, hsite]
  obtain ⟨hrfails, hrpinned⟩ := s.blk.rd_pins site (c.pinSet site)
  obtain ⟨-, hqpinned, hqfails⟩ := Fld.quiet_status site.isLt
  refine yields_of_upd rfl hgo ?_
  dsimp only
  by_cases hpin : c.pinSet site = 0
  · rw [if_pos hpin]
    refine ⟨?_, ?_, ?_, fun h => absurd hpin h⟩
    · rw [Block.rd_loseSite _ hqfails (Reg.apart_lossFields site.isLt rfl (by decide : 4 ≤ 19)), hrfails]
    · rw [Block.rd_loseSite _ hqpinned (Reg.apart_lossFields site.isLt rfl (by decide : 4 ≤ 18)), hrpinned]
    · rw [Block.pinned_loseSite, Block.pinned_pins]
  · rw [if_neg hpin]
    exact ⟨hrfails, hrpinned, Block.pinned_pins .., fun _ => ⟨Block.pins_raised .., Block.pins_out .., (Block.pins_siteOnly ..).step⟩⟩

/-! ### The sideband (R167, R168) -/

theorem sidebandResend_resends {w : SbWait} {ws : List SbWait} (hwaits : (s.blk.site site).link.waits = w :: ws) (hfew : w.sends < 4) :
    Yields (.sidebandResend site) s fun t =>
      t.blk.out = s.blk.out ++ [.sideband site (Sideband.wire w.op w.tag w.data0 w.data1)] ∧
      (t.blk.site site).link = { (s.blk.site site).link with waits := { w with sends := w.sends + 1, since := s.blk.now } :: ws } ∧
      s.SiteStep t site ∧ t.blk.regs = s.blk.regs ∧ t.blk.fc = s.blk.fc := by
  have hgo : s.blk.sidebandResend site = (s.blk.emit (.sideband site (Sideband.wire w.op w.tag w.data0 w.data1))).modLink site fun l =>
      { l with waits := { w with sends := w.sends + 1, since := s.blk.now } :: ws } := by
    simp only [Block.sidebandResend, hwaits, Nat.not_le.mpr hfew, if_false]
    rfl
  refine yields_of_upd rfl hgo ⟨rfl, ?_, (((Block.SiteOnly.refl _ _ []).emit _).modLink _).step, rfl, rfl⟩
  rw [Block.site_modLink_same, Block.site_emit]

theorem heartbeatSend_sends (hhello : (s.blk.site site).link.hello = true) : Yields (.heartbeatSend site) s fun t =>
    t.blk.out = s.blk.out ++ [.sideband site (Sideband.wire 0x02 (s.blk.site site).link.sbTag (s.blk.site site).link.hbSeq 0)] ∧
    (t.blk.site site).link = { (s.blk.site site).link with
      sbTag := ((s.blk.site site).link.sbTag + 1) % 256, hbSeq := ((s.blk.site site).link.hbSeq + 1) % 2 ^ 32, hbSentAt := s.blk.now } ∧
    s.SiteStep t site ∧ t.blk.regs = s.blk.regs ∧ t.blk.fc = s.blk.fc := by
  refine yields_of_upd rfl (if_pos hhello) ⟨rfl, ?_, (((Block.SiteOnly.refl _ _ []).sideband _ _ _).modLink _).step, rfl, rfl⟩
  rw [Block.site_modLink_same]
  dsimp only
  rw [Block.link_sideband _ _ rfl]

theorem heartbeat_heard (hhello : (s.blk.site site).link.hello = true) : Yields (.heartbeat site) s fun t =>
    (t.blk.site site).link = { (s.blk.site site).link with heartbeatAt := s.blk.now } ∧ s.SiteStep t site ∧
    t.blk.regs = s.blk.regs ∧ t.blk.fc = s.blk.fc ∧ t.blk.out = s.blk.out :=
  yields_of_upd rfl (if_pos hhello) ⟨by rw [Block.site_modLink_same], ((Block.SiteOnly.refl _ _ []).modLink _).step, rfl, rfl, rfl⟩

/-- A command that raises one pennant changes the collector alone. -/
theorem yields_raised {c : Instr} {g : Block → Block} {src k aux a : Nat} (hexec : exec c s = .next (s.upd g))
    (hg : g s.blk = s.blk.pennant src k aux a) :
    Yields c s fun t => s.blk.Raised t.blk src k aux a ∧ t = { s with blk := { s.blk with fc := t.blk.fc } } :=
  yields_of_upd hexec hg ⟨rfl, rfl⟩

theorem sidebandInvalid_of_valid {msg : BitVec 128} (h : Sideband.valid msg.toNat = true) :
    exec (.sidebandInvalid ⟨site, msg⟩) s = .next s := by
  have hgo : (if Sideband.valid msg.toNat then s.blk else s.blk.count (Reg.ST_SB_ERR.COUNT site) 1) = s.blk := if_pos h
  rw [exec_sidebandInvalid, execSidebandInvalid, State.upd, hgo]

theorem sidebandInvalid_counts {msg : BitVec 128} (h : Sideband.valid msg.toNat = false) : Yields (.sidebandInvalid ⟨site, msg⟩) s fun t =>
    t.blk.rd (Reg.ST_SB_ERR.COUNT site) = satAdd (Reg.ST_SB_ERR.COUNT site).w (s.blk.rd (Reg.ST_SB_ERR.COUNT site)) 1 ∧
    OnlyFields s t [Reg.ST_SB_ERR.COUNT site] :=
  yields_of_upd rfl (if_neg (by simp [h])) ⟨Block.rd_count_same _ _ _ (by simp [Reg.ST_SB_ERR.COUNT]), rfl,
    (Block.FieldsKept.refl _ _).count _ _ (by simp)⟩

/-! ### WIDTH_ACK (R162) -/

/-- The link runs again, at the width `new`. -/
def Block.widened (b : Block) (n new : Nat) : Block :=
  ((b.modLink n fun l => { l with widthChange := none, waits := l.waits.filter fun w => w.op ≠ 6 }).wr (Reg.ST_STATUS.WIDTH_SET n) new).setLink n
    (if b.enrolled n then Link.ENROLLED else Link.TRAINED)

section
variable (b : Block) (n new : Nat)

theorem Block.widened_siteOnly : b.SiteOnly (b.widened n new) n [Reg.ST_STATUS.STATE n, Reg.ST_STATUS.WIDTH_SET n] := by
  unfold Block.widened
  exact (((Block.SiteOnly.refl b n _).modLink _).wr _ _ (by simp)).setLink _ (by simp)

theorem Block.link_widened : ((b.widened n new).site n).link =
    { (b.site n).link with widthChange := none, waits := (b.site n).link.waits.filter fun w => w.op ≠ 6 } := by
  simp [Block.widened]

@[simp] theorem Block.widened_out : (b.widened n new).out = b.out := by
  simp [Block.widened]

@[simp] theorem Block.widened_fc : (b.widened n new).fc = b.fc := by
  simp [Block.widened]

theorem Block.linkState_widened : (b.widened n new).linkState n = if b.enrolled n then Link.ENROLLED else Link.TRAINED := by
  unfold Block.widened
  exact Block.linkState_setLink _ _ (by split <;> decide)

theorem Block.width_widened (h : new < 256) : (b.widened n new).rd (Reg.ST_STATUS.WIDTH_SET n) = new := by
  unfold Block.widened Block.setLink
  rw [Block.rd_wr_of_apart _ _ _ _ (by decide : 8 + 8 ≤ 64) (by simp [Fld.Apart, Reg.ST_STATUS.STATE, Reg.ST_STATUS.WIDTH_SET]),
    Block.rd_wr_same _ _ _ (by decide : 8 + 8 ≤ 64)]
  exact Nat.mod_eq_of_lt h

theorem Block.unretired_widened : (b.widened n new).unretired n = b.unretired n := by
  have h := (b.widened_siteOnly n new).rd (g := Reg.ST_LANE_STATE.RETIRED n) (by decide : 0 + 8 ≤ 64)
    (by simp [Fld.Apart, Reg.ST_LANE_STATE.RETIRED, Reg.ST_STATUS.STATE, Reg.ST_STATUS.WIDTH_SET])
  simp only [Block.unretired, h]

end

/-- The lane group of a frame is decided by the width in force. -/
theorem Block.frameGroup_of_regs {b c : Block} (h : c.regs = b.regs) (n k : Nat) : c.frameGroup n k = b.frameGroup n k := by
  simp only [Block.frameGroup, Block.rd_of_regs h]

/-- A frame that the link does not hold is covered by no ACK. -/
theorem Block.releaseHeld_of_none {b : Block} {n last : Nat} (h : ((b.site n).link.held.all fun f => decide (f.seq ≠ last)) = true) :
    b.releaseHeld n last true = b := by
  have hnone : ((b.site n).link.held.findIdx? fun f => f.seq = last) = none := by
    rw [List.findIdx?_eq_none_iff]
    intro f hf
    have := List.all_eq_true.mp h f hf
    simpa using this
  simp only [Block.releaseHeld, hnone]

/-- A width that is in force is not changed. -/
theorem Block.narrow_of_same {b : Block} {n : Nat} (hset : Site.activeSet n (b.unretired n) ≠ 0)
    (h : Site.activeSet n (b.unretired n) = b.rd (Reg.ST_STATUS.WIDTH_SET n)) : b.narrow n = b := by
  rw [Block.narrow, if_neg hset, if_pos (.inr (.inr h))]

theorem widthAck_completes {new : Nat} (hchange : (s.blk.site site).link.widthChange = some new) (last : BitVec 12) (tag : BitVec 8)
    (hlt : new < 16) (hwait : (s.blk.site site).link.txWait = [])
    (hnew : new = Site.activeSet site (s.blk.unretired site)) (hne : new ≠ 0)
    (hheld : ((s.blk.site site).link.held.all fun f => decide (f.seq ≠ last.toNat)) = true)
    (hwaits : ((s.blk.site site).link.waits.any fun w => decide (w.op = 6) && decide (w.tag = tag.toNat)) = true) :
    Yields (.widthAck site ⟨tag, last⟩) s fun t =>
      t.blk.rd (Reg.ST_STATUS.WIDTH_SET site) = new ∧
      t.blk.linkState site = (if s.blk.enrolled site then Link.ENROLLED else Link.TRAINED) ∧
      (t.blk.site site).link.widthChange = none ∧ (t.blk.site site).link.held = (s.blk.site site).link.held ∧
      t.blk.out = s.blk.out ++ (s.blk.site site).link.held.map (fun f => .frame site (t.blk.frameGroup site f.seq)
        (withCrc16 (Frame.body 0 f.seq (((s.blk.site site).link.rxNext + 4095) % 4096) (s.blk.site site).link.rxAny f.payload))) ∧
      s.SiteStep t site ∧ t.blk.fc = s.blk.fc ∧
      s.blk.FieldsKept t.blk [Reg.ST_STATUS.STATE site, Reg.ST_STATUS.WIDTH_SET site] := by
  have hlink := s.blk.link_widened site new
  have hwide := s.blk.widened_siteOnly site new
  have hsent := Block.resendHeld_resends (b := s.blk.widened site new) (n := site) (.inl (by rw [hlink]; exact hwait))
  have hwidth : ((s.blk.widened site new).resendHeld site).rd (Reg.ST_STATUS.WIDTH_SET site) = new :=
    (Block.rd_of_regs hsent.regs _).trans (s.blk.width_widened site new (by omega))
  have hunretired : ((s.blk.widened site new).resendHeld site).unretired site = s.blk.unretired site := by
    rw [← s.blk.unretired_widened site new, Block.unretired, Block.rd_of_regs hsent.regs, Block.unretired]
  have hgo : s.blk.widthAck site last.toNat tag.toNat = (s.blk.widened site new).resendHeld site := by
    have henrolled : ((s.blk.modLink site fun l => { l with widthChange := none, waits := l.waits.filter fun w => w.op ≠ 6 }).wr
        (Reg.ST_STATUS.WIDTH_SET site) new).enrolled site = s.blk.enrolled site := by
      rw [Block.enrolled, Block.rd_wr_of_off_ne _ _ _ _ (by simp [Reg.ST_STATUS.WIDTH_SET, Reg.MH_SITE_PRESENT.ENROLLED]; omega),
        Block.rd_modLink, Block.enrolled]
    have hrelease : (s.blk.widened site new).releaseHeld site last.toNat true = s.blk.widened site new :=
      Block.releaseHeld_of_none (by rw [hlink]; exact hheld)
    have hnarrow : ((s.blk.widened site new).resendHeld site).narrow site = (s.blk.widened site new).resendHeld site :=
      Block.narrow_of_same (by rw [hunretired, ← hnew]; exact hne) (by rw [hunretired, ← hnew, hwidth])
    simp only [Block.widthAck, hchange, hwaits, Bool.not_true, Bool.false_eq_true, if_false, henrolled]
    exact (congrArg (fun b : Block => (b.resendHeld site).narrow site) hrelease).trans hnarrow
  refine yields_of_upd rfl hgo ⟨hwidth, ?_, ?_, ?_, ?_, ((hwide.trans (hsent.only.mono (by simp)))).step, ?_,
    (hwide.trans (hsent.only.mono (by simp))).fields⟩
  · exact (Block.rd_of_regs hsent.regs _).trans (s.blk.linkState_widened site new)
  · rw [hsent.link, hlink]
  · rw [hsent.link, hlink]
  · rw [hsent.out, hlink, Block.widened_out]
    congr 1
    refine List.map_congr_left fun f _ => ?_
    rw [Block.frameGroup_of_regs hsent.regs]
    rfl
  · rw [hsent.fc, Block.widened_fc]

end

end Sys2Proof.Machine
end
section
/-! SUPPORT. A site's training, resets and loss (R156–R171). -/

namespace Sys2Proof.Machine

/-- Settles O27: each command's clause is the rule of that command; a loss holds for any open lines, since what the coherence home
does when the site's agents die leaves the queues, the waits, the links' pins and every field that is not one of its counts and logs.
The proposal that RECON_TIMEOUT takes from the hub's own receive test (assumption 66) and the AUX of ERR_NOTE and PROTO_NOTE
(assumption 26) are the model's choices. -/
theorem siteStates : Obligations.SiteStates := by
  refine ⟨fun s site => ?_, fun s site => ?_⟩
  · refine ⟨fun c h a rates rep hrecon hfree hst hhub hsite hset => ⟨fun hgood => ?_, fun bad hbad hfew => ?_⟩,
      fun c hrecon hst hsite hfails => reconTimeout_pins hrecon hst hsite hfails,
      fun passed rates hst hhello hfree hnone hfew => reconTimeout_first hst hhello hfree hnone hfew passed rates,
      fun set passed rates a hst hhello hfree hnone ha hagreed =>
        widthPropose_agrees hst hhello hfree hnone set passed rates ha hagreed,
      fun c h a set hrecon hhub hsite ha hset => widthAgree_agrees hrecon hhub hsite ha hset,
      siteTrainTimeout_idle, siteTrainTimeout_absent, linkHello_heard, linkHello_retrains, linkHello_idle, siteRetrain_starts,
      siteResetRelease_starts, siteReset_of_lost, clkHold_holds⟩
    · exact (siteTrained_trains hrecon hfree hst hhub hsite rates rep hset hgood).mono fun t ⟨ht, hstep⟩ =>
        ⟨ht.state, ht.width, ht.fails, ht.present, ht.rate, ht.recon, hstep, ht.fc, ht.out, ht.only.fields⟩
    · exact (siteTrained_again hrecon hfree hst hhub hsite rates rep hbad hfew).mono fun t ⟨ht, hstep⟩ =>
        ⟨ht.fails, by rw [ht.recon]; rfl, hstep, ht.fc, ht.out, ht.kept hst⟩
  · refine ⟨fun c cause hc hst hhello hsends => ?_, resetNote_idle, fun w ws hwaits hfew => sidebandResend_resends hwaits hfew,
      heartbeatSend_sends, heartbeat_heard, fun hhello kind who op addr tag phys c src k aux a hc => ?_,
      fun msg => sidebandInvalid_of_valid, fun msg => sidebandInvalid_counts,
      fun new hchange last tag hlt _ hwait hnew hne hheld hwaits =>
        widthAck_completes hchange last tag hlt hwait hnew hne hheld hwaits⟩
    · have hloses : Yields c s fun t => s.blk.LosesSite t.blk site cause ∧ t.fuse = s.fuse ∧ t.pending = s.pending := by
        simp only [List.mem_cons, Prod.mk.injEq, List.not_mem_nil, or_false] at hc
        rcases hc with ⟨rfl, rfl⟩ | ⟨rfl, rfl⟩ | ⟨rfl, rfl⟩ | ⟨rfl, rfl⟩
        · exact resetNote_loses hst
        · exact heartbeatTimeout_loses hst hhello
        · exact clockLoss_loses hst
        · exact sidebandResend_loses hst (hsends rfl)
      exact hloses.mono fun t ⟨ht, hfuse, hpending⟩ => ⟨ht.state, ht.enrolled, ht.others, ht.logged, ht.tags, ht.disp, ht.txq,
        ht.inflight, ht.waits, ht.pending, ht.closed, hfuse, hpending⟩
    · simp only [List.mem_cons, Prod.mk.injEq, List.not_mem_nil, or_false] at hc
      rcases hc with ⟨rfl, rfl, rfl, rfl, rfl⟩ | ⟨rfl, rfl, rfl, rfl, rfl⟩ | ⟨rfl, rfl, rfl, rfl, rfl⟩
      · exact yields_raised (exec_errNote ..) (if_pos hhello)
      · exact yields_raised (exec_coreFail ..) (if_pos hhello)
      · exact yields_raised (exec_protoNote ..) (if_pos hhello)

end Sys2Proof.Machine
end

section
/-! SUPPORT. Packets sent to a site (R172–R176): what a packet put on a link leads to, and when one is sent at once. -/

namespace Sys2Proof.Machine

/-! ### What has been sent to a site -/

/-- The packet that an output is to site `n`, if it is one. -/
def Out.toSite (n : Nat) : Out → Option Packet
  | .packet k p => if k = n then some p else none
  | _ => none

/-- Only packets for site `n` were sent, `ps`; of its record only the link has changed. -/
structure Block.Sends (b c : Block) (n : Nat) (ps : List Packet) : Prop where
  only : b.SiteOnly c n [Reg.ST_SWP_PKT_TX.COUNT n]
  fc : c.fc = b.fc
  site : c.site n = { b.site n with link := (c.site n).link }
  out : ∃ os, c.out = b.out ++ os ∧ os.filterMap (Out.toSite n) = ps

namespace Block.Sends

variable {b c d : Block} {n : Nat} {ps qs : List Packet}

theorem refl (b : Block) (n : Nat) : b.Sends b n [] := ⟨.refl b n _, rfl, rfl, [], (List.append_nil _).symm, rfl⟩

theorem trans (h : b.Sends c n ps) (k : c.Sends d n qs) : b.Sends d n (ps ++ qs) where
  only := h.only.trans k.only
  fc := k.fc.trans h.fc
  site := k.site.trans (by rw [h.site])
  out := by
    obtain ⟨os, hos, rfl⟩ := h.out
    obtain ⟨os', hos', rfl⟩ := k.out
    exact ⟨os ++ os', by rw [hos', hos, List.append_assoc], List.filterMap_append⟩

theorem emit (h : b.Sends c n ps) (o : Out) : b.Sends (c.emit o) n (ps ++ (o.toSite n).toList) :=
  h.trans ⟨(Block.SiteOnly.refl c n _).emit o, rfl, rfl, [o], rfl, by cases ho : o.toSite n <;> simp [ho]⟩

theorem emit_other (h : b.Sends c n ps) {o : Out} (ho : o.toSite n = none) : b.Sends (c.emit o) n ps := by
  simpa [ho] using h.emit o

theorem modLink (h : b.Sends c n ps) (f : LinkState → LinkState) : b.Sends (c.modLink n f) n ps := by
  simpa using h.trans (qs := []) ⟨(Block.SiteOnly.refl c n _).modLink f, rfl, by rw [Block.site_modLink_same], [],
    (List.append_nil _).symm, rfl⟩

theorem count (h : b.Sends c n ps) (k : Nat) : b.Sends (c.count (Reg.ST_SWP_PKT_TX.COUNT n) k) n ps :=
  { h with only := h.only.count _ k (by simp) }

theorem packetsTo (h : b.Sends c n ps) : b.packetsTo c n = ps := by
  obtain ⟨os, hos, rfl⟩ := h.out
  rw [Block.packetsTo, hos, List.drop_left]
  rfl

theorem rd (h : b.Sends c n ps) {g : Fld} (hg : g.lo + g.w ≤ 64) (hoff : g.off ≠ 0x4000188 + 0x100000 * n) : c.rd g = b.rd g :=
  h.only.rd hg (by simpa [Fld.Apart, Reg.ST_SWP_PKT_TX.COUNT] using .inl hoff)

theorem rest (h : b.Sends c n ps) : c = { b with regs := c.regs, sites := c.sites, out := c.out } :=
  h.only.rest.trans (by rw [h.fc])

theorem linkState (h : b.Sends c n ps) (k : Nat) : c.linkState k = b.linkState k :=
  h.rd (show 0 + 4 ≤ 64 by decide) (show 0x4000010 + 0x100000 * k ≠ _ by omega)

theorem linkUp (h : b.Sends c n ps) (k : Nat) : c.linkUp k = b.linkUp k := by rw [Block.linkUp, h.linkState, Block.linkUp]

end Block.Sends

/-! ### A packet on the link -/

theorem Block.Sends.sendFrames {b c : Block} {n : Nat} {ps : List Packet} (h : b.Sends c n ps) (k : Nat) :
    b.Sends (Block.sendFrames k c n) n ps := by
  induction k generalizing c with
  | zero => exact h
  | succ k ih =>
    unfold Block.sendFrames
    dsimp only
    split
    · exact h
    · rw [Block.putFrame_eq]
      exact ih (((h.emit_other rfl).modLink _).modLink _)

theorem Block.Sends.putFlit {b c : Block} {n : Nat} {ps : List Packet} (h : b.Sends c n ps) (pl : List Byte) :
    b.Sends (c.putFlit n pl) n ps := by
  unfold Block.putFlit
  dsimp only
  split
  · exact (h.modLink _).modLink _
  · exact (h.modLink _).emit_other rfl

theorem Block.Sends.sendFlits {b c : Block} {n : Nat} {ps : List Packet} (h : b.Sends c n ps) (k : Nat) :
    b.Sends (Block.sendFlits k c n) n ps := by
  induction k generalizing c with
  | zero => exact h
  | succ k ih =>
    unfold Block.sendFlits
    dsimp only
    split
    · exact h
    · exact ih ((h.modLink _).putFlit _)

/-- A packet's bytes go out as its link's frames or Flits. -/
theorem Block.Sends.streamed {b c : Block} {n : Nat} {ps : List Packet} (h : b.Sends c n ps) (bs : List Byte) :
    b.Sends (if Site.stacked n then Block.sendFrames 32 (c.modLink n fun l => { l with txWait := l.txWait ++ bs }) n
      else Block.sendFlits 80 (c.modLink n fun l => { l with txWait := l.txWait ++ bs }) n) n ps := by
  split
  · exact (h.modLink _).sendFrames 32
  · exact (h.modLink _).sendFlits 80

theorem Block.putPacket_sends (b : Block) (n : Nat) {p : Packet} (hnop : p.op ≠ 0) (hop : p.op ≠ 0x20) :
    b.Sends (b.putPacket n p) n [p] := by
  have hcount := ((Block.Sends.refl b n).emit (.packet n p)).count 1
  simp only [Out.toSite, if_true, List.nil_append, Option.toList_some] at hcount
  simpa only [Block.putPacket, hnop, hop, if_false, if_true, ne_eq, not_false_eq_true] using hcount.streamed p.bytes

/-- The packet of a DISPATCH makes its context live (R178). -/
theorem Block.putPacket_dispatch {b : Block} {n : Nat} {p : Packet} {d : Dispatch} (hop : p.op = 0x20) (hd : b.dispatchOf n p.tag = some d) :
    (b.setDispatch n p.tag (some { d with sent := true, since := b.now })).Sends (b.putPacket n p) n [p] := by
  have hcount := ((Block.Sends.refl (b.setDispatch n p.tag (some { d with sent := true, since := b.now })) n).emit (.packet n p)).count 1
  simp only [Out.toSite, if_true, List.nil_append, Option.toList_some] at hcount
  have hget : SMap.get (fun _ => none) (((b.emit (.packet n p)).count (Reg.ST_SWP_PKT_TX.COUNT n) 1).site n).disp p.tag = some d := hd
  simp only [Block.putPacket, hop, hget, if_false, ne_eq, not_true_eq_false, (by decide : (0x20 : Nat) ≠ 0)]
  exact hcount.streamed p.bytes

/-! ### Packets that are sent at once -/

/-- A packet whose credits are in hand, with none before it, is put on a link that is up. -/
theorem Block.send_of_idle {b : Block} {n : Nat} {p : Packet} (hup : b.linkUp n = true) (hidle : (b.site n).txq = [])
    (hallow : (b.site n).credits.allow p = true) :
    b.send n p = (b.setSite n { b.site n with credits := (b.site n).credits.spend p }).putPacket n p := by
  simp [Block.send, hup, hidle, hallow]

/-- The packets that need no credit. -/
theorem Packet.free_of_rsp {p : Packet} (h : 0x40 ≤ p.op) (c : Credits) : c.allow p = true ∧ c.spend p = c ∧ p.isRequest = false := by
  have hchan : p.chan = .rsp ∨ p.chan = .free := by
    unfold Packet.chan
    split
    · exact .inr rfl
    · simp [show ¬p.op < 0x28 by omega, show ¬p.op < 0x38 by omega, show ¬p.op < 0x40 by omega]
  rcases hchan with hc | hc <;> simp [Credits.allow, Credits.spend, Packet.isRequest, hc]

/-- A record written as it is changes no site. -/
theorem Block.Sends.of_setSite_self {b c : Block} {n : Nat} {ps : List Packet} (h : (b.setSite n (b.site n)).Sends c n ps) : b.Sends c n ps := by
  simpa using (show b.Sends (b.setSite n (b.site n)) n [] from
    ⟨(Block.SiteOnly.refl b n _).setSite _, rfl, by rw [Block.site_setSite_same], [], (List.append_nil _).symm, rfl⟩).trans h

/-- A response to a site that nothing else waits for goes out at once. -/
theorem Block.send_rsp {b : Block} {n : Nat} {p : Packet} (hup : b.linkUp n = true) (hidle : (b.site n).txq = []) (hop : 0x40 ≤ p.op) :
    b.Sends (b.send n p) n [p] := by
  obtain ⟨hallow, hspend, -⟩ := Packet.free_of_rsp hop (b.site n).credits
  rw [Block.send_of_idle hup hidle hallow, hspend]
  exact .of_setSite_self (Block.putPacket_sends _ n (by omega) (by omega))

end Sys2Proof.Machine
end

section
/-! SUPPORT. Enrolment (R179–R181): a burgee that is good or fails a check, and a request that goes unanswered. -/

namespace Sys2Proof.Machine

/-! ### The partitions' states (R343) -/

/-- `c` differs from `b` in the collector's partition states and MH_STATUS. -/
structure Block.ShowsParts (b c : Block) : Prop where
  rest : c = { b with regs := c.regs }
  rd : ∀ g : Fld, g.off < 0x9000400 → g.off ≠ 0x10 → c.rd g = b.rd g

namespace Block.ShowsParts

variable {b c d : Block}

theorem refl (b : Block) : b.ShowsParts b := ⟨rfl, fun _ _ _ => rfl⟩

theorem trans (h : b.ShowsParts c) (k : c.ShowsParts d) : b.ShowsParts d :=
  ⟨k.rest.trans (by rw [h.rest]), fun g hlow hst => (k.rd g hlow hst).trans (h.rd g hlow hst)⟩

theorem wr (h : b.ShowsParts c) {f : Fld} (hf : 0x9000400 ≤ f.off ∨ f.off = 0x10) (v : Nat) : b.ShowsParts (c.wr f v) :=
  h.trans ⟨rfl, fun g hlow hst => Block.rd_wr_of_off_ne _ _ _ _ (by omega)⟩

end Block.ShowsParts

theorem Block.partState_shows (b : Block) (p : Nat) : b.ShowsParts (b.partState p) := by
  have hpart {f : Fld} (hf : f.off = 0x9000400 + 0x8 * p) : 0x9000400 ≤ f.off ∨ f.off = 0x10 := .inl (by omega)
  exact (((((((Block.ShowsParts.refl b).wr (hpart rfl) _).wr (hpart rfl) _).wr (hpart rfl) _).wr (hpart rfl) _).wr (hpart rfl) _).wr
    (hpart rfl) _).wr (hpart rfl) _

theorem Block.partStates_shows (b : Block) : b.ShowsParts b.partStates := by
  refine .wr ?_ (.inr rfl) _
  generalize List.range 32 = ps
  suffices h : ∀ c : Block, c.ShowsParts (ps.foldl (fun b p => if (b.part p).names then b.partState p else b) c) from h b
  induction ps with
  | nil => exact .refl
  | cons p ps ih =>
    intro c
    refine .trans ?_ (ih _)
    dsimp only
    split
    · exact c.partState_shows p
    · exact .refl c

/-! ### What a good burgee leaves (R179, R181) -/

/-- ST_SWP_BURGEE holds the record. -/
def Block.keepsBurgee (b : Block) (n : Nat) (d : List Byte) : Block :=
  (List.range 32).foldl (fun b k => b.wr (Reg.ST_SWP_BURGEE.DATA n k) (leAt d (8 * k) 8)) b

/-- The map's entry of logical core `c`. -/
def Block.mapsCore (b : Block) (n : Nat) (cs : List Nat) (c : Nat) : Block :=
  match cs[c]? with
  | some p => (b.wr (Reg.ST_SWP_CORE_MAP.PHYS n c) p).wr (Reg.ST_SWP_CORE_MAP.VALID n c) 1
  | none => (b.wr (Reg.ST_SWP_CORE_MAP.PHYS n c) 0).wr (Reg.ST_SWP_CORE_MAP.VALID n c) 0

/-- Logical cores are mapped to the physical ones of `cs`, in order. -/
def Block.mapsCores (b : Block) (n : Nat) (cs : List Nat) : Block := (List.range 64).foldl (fun b c => b.mapsCore n cs c) b

/-- The credits that a burgee and the hub grant each other (R176). -/
def Credits.ofBurgee (d : List Byte) : Credits :=
  ⟨leAt d 0x2C 2, leAt d 0x2E 2, (if bits (leAt d 0x20 1) 0 7 = 0 then 0 else leAt d 0x30 2), 256, 1024, 128, 128⟩

/-- The site's record, status and bit of ENROLLED once its burgee `d` is accepted, `cs` its mapped cores. -/
def Block.enters (b : Block) (n : Nat) (d : List Byte) (cs : List Nat) : Block :=
  let b := b.setSite n { b.site n with
    enrol := .idle, credits := .ofBurgee d, fencedCores := (List.range 64).filter fun p => !cs.contains p }
  (b.wr (Reg.ST_SWP_ENROL.LAST_STATUS n) 0).wr Reg.MH_SITE_PRESENT.ENROLLED
    (setBits ((b.wr (Reg.ST_SWP_ENROL.LAST_STATUS n) 0).rd Reg.MH_SITE_PRESENT.ENROLLED) n 1 1)

/-- What an accepted burgee leaves before the link's state and the answer. -/
def Block.accepts (b : Block) (n : Nat) (d : List Byte) (cs : List Nat) : Block :=
  ((b.keepsBurgee n d).mapsCores n cs).enters n d cs

theorem Block.enters_calm (b : Block) (n : Nat) (d : List Byte) (cs : List Nat) :
    (b.enters n d cs).fc = b.fc ∧ (b.enters n d cs).out = b.out := by
  rw [Block.enters, Block.wr_fc, Block.wr_fc, Block.wr_out, Block.wr_out]
  exact ⟨rfl, rfl⟩

theorem Block.burgee_of_good {b : Block} {n : Nat} {d : List Byte} (hasked : (b.site n).enrol ≠ .idle)
    (hgood : b.burgeeCheck n d = Code.SUCCESS) :
    let cs := b.mappedCores n (leAt d 0x18 8)
    let c := b.accepts n d cs
    b.burgee n d = ((if c.linkState n = Link.TRAINED then c.setLink n Link.ENROLLED else c).siteClocks n).enrolResult n 0
      (cs.map fun c => 2 ^ c).sum := by
  have hgo : ¬b.burgeeCheck n d ≠ 0 := not_not_intro hgood
  unfold Block.burgee
  split
  next h => exact absurd h hasked
  next => exact if_neg hgo

theorem Block.burgee_of_bad {b : Block} {n : Nat} {d : List Byte} (hasked : (b.site n).enrol ≠ .idle)
    (hbad : b.burgeeCheck n d ≠ Code.SUCCESS) :
    b.burgee n d = (b.enrolResult n (b.burgeeCheck n d) 0).enrolFail n (b.burgeeCheck n d) := by
  unfold Block.burgee
  split
  next h => exact absurd h hasked
  next => exact if_pos hbad

/-- The fields that an accepted burgee sets. -/
def Reg.acceptFields (n : Nat) : List Fld :=
  (List.range 32).map (Reg.ST_SWP_BURGEE.DATA n) ++
    (List.range 64).flatMap (fun c => [Reg.ST_SWP_CORE_MAP.PHYS n c, Reg.ST_SWP_CORE_MAP.VALID n c]) ++
    [Reg.ST_SWP_ENROL.LAST_STATUS n, Reg.MH_SITE_PRESENT.ENROLLED]

theorem Reg.mapFields_mem {n c : Nat} (hc : c < 64) {f : Fld} (hf : f ∈ [Reg.ST_SWP_CORE_MAP.PHYS n c, Reg.ST_SWP_CORE_MAP.VALID n c]) :
    f ∈ Reg.acceptFields n :=
  List.mem_append_left _ (List.mem_append_right _ (List.mem_flatMap.mpr ⟨c, List.mem_range.mpr hc, hf⟩))

theorem Block.FieldFrame.trans {b c d : Block} {fs : List Fld} (h : b.FieldFrame c fs) (k : c.FieldFrame d fs) : b.FieldFrame d fs :=
  ⟨k.rest.trans (by rw [h.rest]), h.fields.trans k.fields⟩

theorem Block.FieldFrame.foldl {α : Type} {fs : List Fld} (l : List α) (step : Block → α → Block)
    (hstep : ∀ (b : Block) a, a ∈ l → b.FieldFrame (step b a) fs) (b : Block) : b.FieldFrame (l.foldl step b) fs := by
  induction l generalizing b with
  | nil => exact .refl b fs
  | cons a l ih => exact (hstep b a (by simp)).trans (ih (fun c x hx => hstep c x (by simp [hx])) (step b a))

theorem Block.FieldFrame.sites {b c : Block} {fs : List Fld} (h : b.FieldFrame c fs) : c.sites = b.sites := by rw [h.rest]

theorem Block.FieldFrame.siteOnly {b c : Block} {fs : List Fld} (h : b.FieldFrame c fs) (n : Nat) : b.SiteOnly c n fs :=
  ⟨by rw [h.rest], fun k _ => Block.site_of_sites h.sites k, h.fields⟩

/-- The burgee's record and its map are written as registers alone. -/
theorem Block.registers_frame (b : Block) (n : Nat) (d : List Byte) (cs : List Nat) :
    b.FieldFrame ((b.keepsBurgee n d).mapsCores n cs) (Reg.acceptFields n) := by
  refine .trans (.foldl _ _ (fun c _ hk => (Block.FieldFrame.refl c _).wr _ _ ?_) b) (.foldl _ _ (fun c k hk => ?_) _)
  · exact List.mem_append_left _ (List.mem_append_left _ (List.mem_map_of_mem hk))
  · have hmem {f : Fld} := Reg.mapFields_mem (n := n) (f := f) (List.mem_range.mp hk)
    unfold Block.mapsCore
    split <;> exact ((Block.FieldFrame.refl c _).wr _ _ (hmem (by simp))).wr _ _ (hmem (by simp))

theorem Block.siteCoreMap_eq (b : Block) (n c : Nat) : b.siteCoreMap n c =
    if b.rd (Reg.ST_SWP_CORE_MAP.VALID n c) ≠ 0 then some (b.rd (Reg.ST_SWP_CORE_MAP.PHYS n c)) else none := by
  simp [Block.siteCoreMap, Block.is]

theorem Reg.mapPhys_fits (n c : Nat) : (Reg.ST_SWP_CORE_MAP.PHYS n c).lo + (Reg.ST_SWP_CORE_MAP.PHYS n c).w ≤ 64 :=
  show 8 * (c % 8) + 6 ≤ 64 by omega

theorem Reg.mapValid_fits (n c : Nat) : (Reg.ST_SWP_CORE_MAP.VALID n c).lo + (Reg.ST_SWP_CORE_MAP.VALID n c).w ≤ 64 :=
  show 8 * (c % 8) + 7 + 1 ≤ 64 by omega

/-- Fields of two logical cores lie in other registers or in other bytes. -/
theorem Reg.mapFields_apart {n j c : Nat} (hj : j ≠ c) : ∀ f ∈ [Reg.ST_SWP_CORE_MAP.PHYS n c, Reg.ST_SWP_CORE_MAP.VALID n c],
    (Reg.ST_SWP_CORE_MAP.PHYS n j).Apart f ∧ (Reg.ST_SWP_CORE_MAP.VALID n j).Apart f := by
  by_cases hq : j / 8 = c / 8
  · have hr : 8 * (j % 8) + 8 ≤ 8 * (c % 8) ∨ 8 * (c % 8) + 8 ≤ 8 * (j % 8) := by omega
    simp only [List.mem_cons, List.not_mem_nil, or_false, forall_eq_or_imp, forall_eq, Fld.Apart]
    simp only [Reg.ST_SWP_CORE_MAP.PHYS, Reg.ST_SWP_CORE_MAP.VALID]
    refine ⟨⟨.inr ?_, .inr ?_⟩, ⟨.inr ?_, .inr ?_⟩⟩ <;> omega
  · have hoff : 0x4000140 + 0x100000 * n + 8 * (j / 8) ≠ 0x4000140 + 0x100000 * n + 8 * (c / 8) := by omega
    simp only [List.mem_cons, List.not_mem_nil, or_false, forall_eq_or_imp, forall_eq, Fld.Apart]
    exact ⟨⟨.inl hoff, .inl hoff⟩, ⟨.inl hoff, .inl hoff⟩⟩

/-- The map's entry of one logical core is written, and no other. -/
theorem Block.siteCoreMap_wr (b : Block) (n c j p v : Nat) (hp : p < 64) (hv : v < 2) :
    ((b.wr (Reg.ST_SWP_CORE_MAP.PHYS n c) p).wr (Reg.ST_SWP_CORE_MAP.VALID n c) v).siteCoreMap n j =
      if j = c then (if v ≠ 0 then some p else none) else b.siteCoreMap n j := by
  rw [Block.siteCoreMap_eq]
  by_cases hj : j = c
  · subst hj
    have hsame : (Reg.ST_SWP_CORE_MAP.PHYS n j).Apart (Reg.ST_SWP_CORE_MAP.VALID n j) :=
      .inr (.inl (show 8 * (j % 8) + 6 ≤ 8 * (j % 8) + 7 by omega))
    rw [if_pos rfl, Block.rd_wr_same _ _ _ (Reg.mapValid_fits n j), Block.rd_wr_of_apart _ _ _ _ (Reg.mapPhys_fits n j) hsame,
      Block.rd_wr_same _ _ _ (Reg.mapPhys_fits n j), show v % 2 ^ (Reg.ST_SWP_CORE_MAP.VALID n j).w = v from Nat.mod_eq_of_lt hv,
      show p % 2 ^ (Reg.ST_SWP_CORE_MAP.PHYS n j).w = p from Nat.mod_eq_of_lt hp]
  · obtain ⟨hpp, hvp⟩ := Reg.mapFields_apart (n := n) hj (Reg.ST_SWP_CORE_MAP.PHYS n c) (by simp)
    obtain ⟨hpv, hvv⟩ := Reg.mapFields_apart (n := n) hj (Reg.ST_SWP_CORE_MAP.VALID n c) (by simp)
    rw [if_neg hj, Block.rd_wr_of_apart _ _ _ _ (Reg.mapValid_fits n j) hvv, Block.rd_wr_of_apart _ _ _ _ (Reg.mapValid_fits n j) hvp,
      Block.rd_wr_of_apart _ _ _ _ (Reg.mapPhys_fits n j) hpv, Block.rd_wr_of_apart _ _ _ _ (Reg.mapPhys_fits n j) hpp,
      ← Block.siteCoreMap_eq]

theorem Block.siteCoreMap_mapsCore (b : Block) (n : Nat) {cs : List Nat} (hcs : ∀ p ∈ cs, p < 64) (c j : Nat) :
    (b.mapsCore n cs c).siteCoreMap n j = if j = c then cs[c]? else b.siteCoreMap n j := by
  unfold Block.mapsCore
  split
  next p hp => rw [b.siteCoreMap_wr n c j p 1 (hcs p (List.mem_of_getElem? hp)) (by decide), hp]; rfl
  next hp => rw [b.siteCoreMap_wr n c j 0 0 (by decide) (by decide), hp]; rfl

/-- Logical cores in turn take the physical cores of the list. -/
theorem Block.siteCoreMap_mapsCores (b : Block) (n : Nat) {cs : List Nat} (hcs : ∀ p ∈ cs, p < 64) {j : Nat} (hj : j < 64) :
    (b.mapsCores n cs).siteCoreMap n j = cs[j]? := by
  suffices h : ∀ m, ((List.range m).foldl (fun b c => b.mapsCore n cs c) b).siteCoreMap n j =
      if j < m then cs[j]? else b.siteCoreMap n j from (h 64).trans (if_pos hj)
  intro m
  induction m with
  | zero => rfl
  | succ m ih =>
    rw [List.range_succ, List.foldl_append, List.foldl_cons, List.foldl_nil, Block.siteCoreMap_mapsCore _ _ hcs, ih]
    by_cases hjm : j = m
    · simp [hjm]
    · simp [hjm, show j < m + 1 ↔ j < m by omega]

theorem Block.mappedCores_lt {b : Block} {n good : Nat} : ∀ p ∈ b.mappedCores n good, p < 64 := fun _ hp =>
  List.mem_range.mp (List.mem_filter.mp (List.mem_of_mem_take hp)).1

/-- Every field that acceptance sets lies beside the link's state and the count of packets sent. -/
theorem Reg.acceptFields_off {n : Nat} {f : Fld} (hf : f ∈ Reg.acceptFields n) : f.off = 0x20 ∨ 0x4000108 + 0x100000 * n ≤ f.off := by
  simp only [Reg.acceptFields, List.mem_append, List.mem_map, List.mem_flatMap, List.mem_cons, List.not_mem_nil, or_false] at hf
  rcases hf with (⟨k, -, rfl⟩ | ⟨c, -, rfl | rfl⟩) | rfl | rfl
  · exact .inr (show 0x4000108 + 0x100000 * n ≤ 0x4000200 + 0x100000 * n + 8 * k by omega)
  · exact .inr (show 0x4000108 + 0x100000 * n ≤ 0x4000140 + 0x100000 * n + 8 * (c / 8) by omega)
  · exact .inr (show 0x4000108 + 0x100000 * n ≤ 0x4000140 + 0x100000 * n + 8 * (c / 8) by omega)
  · exact .inr (Nat.le_refl _)
  · exact .inl rfl

section
variable (b : Block) {n : Nat} (d : List Byte) (cs : List Nat)

theorem Block.accepts_siteOnly : b.SiteOnly (b.accepts n d cs) n (Reg.acceptFields n) := by
  have hlast {f : Fld} (hf : f ∈ [Reg.ST_SWP_ENROL.LAST_STATUS n, Reg.MH_SITE_PRESENT.ENROLLED]) : f ∈ Reg.acceptFields n :=
    List.mem_append_right _ hf
  exact ((((b.registers_frame n d cs).siteOnly n).setSite _).wr _ _ (hlast (by simp))).wr _ _ (hlast (by simp))

theorem Block.site_accepts : (b.accepts n d cs).site n = { b.site n with
    enrol := .idle, credits := .ofBurgee d, fencedCores := (List.range 64).filter fun p => !cs.contains p } := by
  unfold Block.accepts Block.enters
  dsimp only
  rw [Block.site_wr, Block.site_wr, Block.site_setSite_same, Block.site_of_sites (b.registers_frame n d cs).sites]

theorem Block.accepts_calm : (b.accepts n d cs).fc = b.fc ∧ (b.accepts n d cs).out = b.out := by
  obtain ⟨hfc, hout⟩ := ((b.keepsBurgee n d).mapsCores n cs).enters_calm n d cs
  rw [Block.accepts, hfc, hout, (b.registers_frame n d cs).rest]
  exact ⟨rfl, rfl⟩

theorem Block.linkState_accepts : (b.accepts n d cs).linkState n = b.linkState n := by
  refine (b.accepts_siteOnly d cs).rd (show 0 + 4 ≤ 64 by decide) fun f hf => .inl ?_
  have := Reg.acceptFields_off hf
  simp only [Reg.ST_STATUS.STATE]
  omega

theorem Block.enrolled_accepts (hn : n < 16) : (b.accepts n d cs).enrolled n = true := by
  unfold Block.enrolled Block.accepts Block.enters
  dsimp only
  rw [Block.rd_wr_same _ _ _ (by decide), show (2 : Nat) ^ (Reg.MH_SITE_PRESENT.ENROLLED).w = 2 ^ 16 from rfl, Nat.testBit_mod_two_pow,
    testBit_setBits_one]
  simp [hn]

theorem Block.status_accepts : (b.accepts n d cs).rd (Reg.ST_SWP_ENROL.LAST_STATUS n) = 0 := by
  unfold Block.accepts Block.enters
  dsimp only
  rw [Block.rd_wr_of_off_ne _ _ _ _ (by simp only [Reg.ST_SWP_ENROL.LAST_STATUS, Reg.MH_SITE_PRESENT.ENROLLED]; omega),
    Block.rd_wr_same _ _ _ (show 0 + 16 ≤ 64 by decide), Nat.zero_mod]

theorem Block.siteCoreMap_of_rd {b c : Block} {n j : Nat}
    (h : ∀ g : Fld, g.lo + g.w ≤ 64 → g.off = 0x4000140 + 0x100000 * n + 8 * (j / 8) → c.rd g = b.rd g) :
    c.siteCoreMap n j = b.siteCoreMap n j := by
  rw [Block.siteCoreMap_eq, h _ (Reg.mapValid_fits n j) rfl, h _ (Reg.mapPhys_fits n j) rfl, ← Block.siteCoreMap_eq]

theorem Block.siteCoreMap_accepts (hcs : ∀ p ∈ cs, p < 64) {j : Nat} (hj : j < 64) : (b.accepts n d cs).siteCoreMap n j = cs[j]? := by
  refine (Block.siteCoreMap_of_rd fun g _ hg => ?_).trans (Block.siteCoreMap_mapsCores (b.keepsBurgee n d) n hcs hj)
  unfold Block.accepts Block.enters
  dsimp only
  rw [Block.rd_wr_of_off_ne _ _ _ _ (by simp only [Reg.MH_SITE_PRESENT.ENROLLED]; omega),
    Block.rd_wr_of_off_ne _ _ _ _ (by simp only [Reg.ST_SWP_ENROL.LAST_STATUS]; omega)]
  rfl

end

/-- ENROL_RESULT of an enrolled site: its mapped cores and the hub's credits (Table SWP-5). -/
def Packet.enrolled (cs : List Nat) : Packet := ⟨0x2A, 1, 0, 0, 0, 0, 0, 0, 0,
  natLE 8 ((cs.map fun c => 2 ^ c).sum) ++ natLE 2 256 ++ natLE 2 1024 ++ natLE 2 128 ++ natLE 2 128⟩

theorem Block.enrolResult_success (b : Block) (n : Nat) (cs : List Nat) :
    b.Sends (b.enrolResult n 0 (cs.map fun c => 2 ^ c).sum) n [.enrolled cs] :=
  b.putPacket_sends n (p := .enrolled cs) (show (0x2A : Nat) ≠ 0 by decide) (show (0x2A : Nat) ≠ 0x20 by decide)

theorem Block.enrolResult_fail (b : Block) (n : Nat) {st : Status} (hst : st ≠ Code.SUCCESS) :
    b.Sends (b.enrolResult n st 0) n [⟨0x2A, 1, 0, 0, 0, 0, 0, 0, st, zeros 16⟩] := by
  rw [Block.enrolResult, if_neg (show ¬st = 0 from hst)]
  exact b.putPacket_sends n (show (0x2A : Nat) ≠ 0 by decide) (show (0x2A : Nat) ≠ 0x20 by decide)

/-- What a good burgee leaves. -/
structure Block.Enrols (b c : Block) (n : Nat) (d : List Byte) (cs : List Nat) : Prop where
  rest : c = { b with regs := c.regs, sites := c.sites, out := c.out }
  sites : b.SitesKept c n
  link : c.linkState n = Link.ENROLLED
  enrolled : c.enrolled n = true
  status : c.rd (Reg.ST_SWP_ENROL.LAST_STATUS n) = 0
  enrol : (c.site n).enrol = .idle
  credits : (c.site n).credits = .ofBurgee d
  fenced : (c.site n).fencedCores = (List.range 64).filter fun p => !cs.contains p
  map : ∀ j, j < 64 → c.siteCoreMap n j = cs[j]?
  packets : b.packetsTo c n = [.enrolled cs]

theorem Block.packetsTo_of_out {b b' c c' : Block} (n : Nat) (hb : b'.out = b.out) (hc : c'.out = c.out) :
    b'.packetsTo c' n = b.packetsTo c n := by
  rw [Block.packetsTo, hb, hc, Block.packetsTo]

theorem Block.burgee_enrols {b : Block} {n : Nat} {d : List Byte} (hn : n < 16) (hasked : (b.site n).enrol ≠ .idle)
    (hlink : b.linkState n = Link.TRAINED) (hgood : b.burgeeCheck n d = Code.SUCCESS) :
    b.Enrols (b.burgee n d) n d (b.mappedCores n (leAt d 0x18 8)) := by
  rw [Block.burgee_of_good hasked hgood]
  generalize hcs : b.mappedCores n (leAt d 0x18 8) = cs
  have hlt : ∀ p ∈ cs, p < 64 := hcs ▸ Block.mappedCores_lt
  rw [if_pos ((b.linkState_accepts d cs).trans hlink)]
  have honly := b.accepts_siteOnly d cs (n := n)
  have hsite := b.site_accepts d cs (n := n)
  have henrolled := b.enrolled_accepts d cs hn
  have hstatus := b.status_accepts d cs (n := n)
  have hmap := fun j => b.siteCoreMap_accepts d cs hlt (n := n) (j := j)
  obtain ⟨hfc, hout⟩ := b.accepts_calm d cs (n := n)
  generalize b.accepts n d cs = c at *
  have hclocks : ((c.setLink n Link.ENROLLED).siteClocks n).site n = { c.site n with
      link := (((c.setLink n Link.ENROLLED).siteClocks n).site n).link } := by
    rw [Block.siteClocks, Block.site_modLink_same, Block.site_setLink]
  have hrd (g : Fld) (hoff : g.off ≠ 0x4000010 + 0x100000 * n) :
      ((c.setLink n Link.ENROLLED).siteClocks n).rd g = c.rd g := Block.rd_wr_of_off_ne _ _ _ _ hoff
  have hstep : c.SiteOnly ((c.setLink n Link.ENROLLED).siteClocks n) n [Reg.ST_STATUS.STATE n] :=
    ((Block.SiteOnly.refl c n _).setLink _ (by simp)).siteClocks
  have hsends := ((c.setLink n Link.ENROLLED).siteClocks n).enrolResult_success n cs
  have hst : ((c.setLink n Link.ENROLLED).siteClocks n).linkState n = Link.ENROLLED :=
    (Block.linkState_siteClocks ..).trans (c.linkState_setLink n (by decide))
  have hcalm : ((c.setLink n Link.ENROLLED).siteClocks n).fc = c.fc ∧ ((c.setLink n Link.ENROLLED).siteClocks n).out = c.out := ⟨rfl, rfl⟩
  generalize (c.setLink n Link.ENROLLED).siteClocks n = c₁ at *
  generalize c₁.enrolResult n 0 _ = e at *
  have hrec : e.site n = { c.site n with link := (e.site n).link } := hsends.site.trans (by rw [hclocks])
  rw [hsite] at hrec
  exact {
    rest := by rw [hsends.rest, hstep.rest, honly.rest, hcalm.1, hfc]
    sites := fun k hk => (hsends.only.sites k hk).trans ((hstep.sites k hk).trans (honly.sites k hk))
    link := (hsends.linkState n).trans hst
    enrolled := by
      rw [Block.enrolled, hsends.rd (by decide) (by simp only [Reg.MH_SITE_PRESENT.ENROLLED]; omega),
        hrd _ (by simp only [Reg.MH_SITE_PRESENT.ENROLLED]; omega)]
      exact henrolled
    status := by
      rw [hsends.rd (show 0 + 16 ≤ 64 by decide) (by simp only [Reg.ST_SWP_ENROL.LAST_STATUS]; omega),
        hrd _ (by simp only [Reg.ST_SWP_ENROL.LAST_STATUS]; omega), hstatus]
    enrol := by rw [hrec]
    credits := by rw [hrec]
    fenced := by rw [hrec]
    map := fun j hj => (Block.siteCoreMap_of_rd fun g hg hoff => by rw [hsends.rd hg (by omega), hrd _ (by omega)]).trans (hmap j hj)
    packets := (Block.packetsTo_of_out n (hcalm.2.trans hout).symm rfl).trans hsends.packetsTo }

end Sys2Proof.Machine
end

section
/-! SUPPORT. BURGEE and ENROL_TIMEOUT as commands (R179–R181). -/

namespace Sys2Proof.Machine

theorem Block.rd_count_rx (b : Block) (n : Nat) {g : Fld} (hg : g.off ≠ 0x4000180 + 0x100000 * n) :
    (b.count (Reg.ST_SWP_PKT_RX.COUNT n) 1).rd g = b.rd g :=
  (congrArg (fun c : Block => c.rd g) (b.count_eq _ _)).trans (Block.rd_wr_of_off_ne _ _ _ _ hg)

theorem Block.enrolled_count_rx (b : Block) (n k : Nat) : (b.count (Reg.ST_SWP_PKT_RX.COUNT n) 1).enrolled k = b.enrolled k := by
  rw [Block.enrolled, b.rd_count_rx n (show 0x20 ≠ 0x4000180 + 0x100000 * n by omega), Block.enrolled]

/-- Before enrolment a burgee is counted and served. -/
theorem Block.accept_burgee {b : Block} {n : Nat} {p : Packet} (hup : b.linkUp n = true) (hnew : b.enrolled n = false)
    (hop : p.op = 0x29) (hunits : p.units = 16) : b.accept n p = (b.count (Reg.ST_SWP_PKT_RX.COUNT n) 1, true) := by
  simp [Block.accept, hup, hop, hunits, b.enrolled_count_rx, hnew]

theorem Block.packetIn_burgee {b : Block} {n : Nat} {data : List Byte} (run : Block → Block) (hlink : b.linkState n = Link.TRAINED)
    (hnew : b.enrolled n = false) : b.packetIn n (Packet.of 0x29 ⟨0, 0, 0, 0, 0, 0, 0⟩ data) run =
      run (b.count (Reg.ST_SWP_PKT_RX.COUNT n) 1) := by
  have hup : b.linkUp n = true := by simp [Block.linkUp, hlink]
  rw [Block.packetIn, Block.accept_burgee hup hnew rfl rfl]
  rfl

theorem leAt_sliceBytes {bs : List Byte} {n o len : Nat} (h : o + len ≤ n) : leAt (sliceBytes bs 0 n) o len = leAt bs o len := by
  rw [leAt, sliceBytes_sliceBytes h, leAt]

section
variable {b c : Block} {n : Nat} (h : ∀ {g : Fld}, g.off ≠ 0x4000180 + 0x100000 * n → c.rd g = b.rd g)
include h

theorem Block.burgeeCheck_of_rd (d : List Byte) : c.burgeeCheck n d = b.burgeeCheck n d := by
  have hallow {g : Fld} (hg : g.off = 0x4000110 + 0x100000 * n) : c.rd g = b.rd g := h (by omega)
  rw [Block.burgeeCheck, Block.is, hallow rfl, hallow rfl, hallow rfl, Block.burgeeCheck, Block.is]

theorem Block.mappedCores_of_rd (good : Nat) : c.mappedCores n good = b.mappedCores n good := by
  have hcores : c.rd (Reg.ST_SWP_CFG.ACTIVE_CORES n) = b.rd (Reg.ST_SWP_CFG.ACTIVE_CORES n) :=
    h (show 0x4000100 + 0x100000 * n ≠ 0x4000180 + 0x100000 * n by omega)
  rw [Block.mappedCores, hcores, Block.mappedCores]

end

/-- R180's verdicts. -/
theorem Block.burgeeCheck_verdict (b : Block) (n : Nat) (d : List Byte) :
    b.burgeeCheck n d = Code.SUCCESS ∨ b.burgeeCheck n d = Code.SWP_BURGEE_BAD ∨ b.burgeeCheck n d = Code.SWP_BURGEE_MISMATCH := by
  unfold Block.burgeeCheck
  dsimp only
  split
  · exact .inr (.inl rfl)
  · split
    · exact .inr (.inr rfl)
    · exact .inl rfl

/-- A status of 16 bits is read back. -/
theorem Block.enrolFail_status (b : Block) (n : Nat) {st : Status} (hst : st < 2 ^ 16) :
    (b.enrolFail n st).rd (Reg.ST_SWP_ENROL.LAST_STATUS n) = st :=
  (Block.rd_wr_same _ _ _ (show 0 + 16 ≤ 64 by decide)).trans (Nat.mod_eq_of_lt hst)

theorem Block.enrolFail_siteOnly (b : Block) (n st : Nat) : b.SiteOnly (b.enrolFail n st) n [Reg.ST_SWP_ENROL.LAST_STATUS n] :=
  (((Block.SiteOnly.refl b n _).setSite _).wr _ _ (by simp)).pennant ..

theorem Block.enrolFail_rd (b : Block) (n st : Nat) {g : Fld} (hg : g.off ≠ 0x4000108 + 0x100000 * n) :
    (b.enrolFail n st).rd g = b.rd g :=
  Block.rd_wr_of_off_ne (b.setSite n { b.site n with enrol := .idle }) _ _ _ hg

/-- The pennant of a failed enrolment. -/
theorem Block.enrolFail_raised (b : Block) (n st : Nat) : b.Raised (b.enrolFail n st) (Src.site n) Kind.ENROL_FAIL st 0 :=
  Block.pennant_fc_of_eq _ _ _ _ rfl rfl

theorem Block.enrolFail_out (b : Block) (n st : Nat) : (b.enrolFail n st).out = b.out := rfl

theorem Block.site_enrolFail (b : Block) (n st : Nat) : (b.enrolFail n st).site n = { b.site n with enrol := .idle } := by
  rw [Block.enrolFail, Block.site_pennant, Block.site_wr, Block.site_setSite_same]

/-- What a burgee that fails a check leaves. -/
structure Block.Refuses (b c : Block) (n : Nat) (st : Status) : Prop where
  rest : c = { b with regs := c.regs, sites := c.sites, out := c.out, fc := c.fc }
  sites : b.SitesKept c n
  status : c.rd (Reg.ST_SWP_ENROL.LAST_STATUS n) = st
  rd : ∀ g : Fld, g.lo + g.w ≤ 64 → g.off < 0x9000400 → g.off ∉ [0x10, 0x4000108 + 0x100000 * n, 0x4000180 + 0x100000 * n,
    0x4000188 + 0x100000 * n] → c.rd g = b.rd g
  packets : b.packetsTo c n = [⟨0x2A, 1, 0, 0, 0, 0, 0, 0, st, zeros 16⟩]

section
variable {b c : Block} {n : Nat} {st : Status} (h : b.Refuses c n st)
include h

/-- The registers of a site's protocol above the counts of packets are kept. -/
theorem Block.Refuses.rd_protocol {g : Fld} (hg : g.lo + g.w ≤ 64) (hlow : 0x4000108 + 0x100000 * n < g.off) (hhigh : g.off < 0x9000400)
    (hcounts : g.off ≠ 0x4000180 + 0x100000 * n ∧ g.off ≠ 0x4000188 + 0x100000 * n) : c.rd g = b.rd g := by
  obtain ⟨hrx, htx⟩ := hcounts
  refine h.rd g hg hhigh ?_
  simp only [List.mem_cons, List.not_mem_nil, or_false, not_or]
  exact ⟨by omega, by omega, hrx, htx⟩

theorem Block.Refuses.linkState (hn : n < 16) : c.linkState n = b.linkState n := by
  refine h.rd _ (show 0 + 4 ≤ 64 by decide) (show 0x4000010 + 0x100000 * n < 0x9000400 by omega) ?_
  simp only [Reg.ST_STATUS.STATE, List.mem_cons, List.not_mem_nil, or_false, not_or]
  omega

theorem Block.Refuses.enrolled (k : Nat) : c.enrolled k = b.enrolled k := by
  have hmask : c.rd Reg.MH_SITE_PRESENT.ENROLLED = b.rd Reg.MH_SITE_PRESENT.ENROLLED := by
    refine h.rd _ (by decide) (by decide) ?_
    simp only [Reg.MH_SITE_PRESENT.ENROLLED, List.mem_cons, List.not_mem_nil, or_false, not_or]
    omega
  rw [Block.enrolled, hmask, Block.enrolled]

theorem Block.Refuses.siteCoreMap (hn : n < 16) {j : Nat} (hj : j < 64) : c.siteCoreMap n j = b.siteCoreMap n j :=
  Block.siteCoreMap_of_rd fun g hg hoff => h.rd_protocol hg (by omega) (by omega) ⟨by omega, by omega⟩

theorem Block.Refuses.burgee (hn : n < 16) {k : Nat} (hk : k < 32) :
    c.rd (Reg.ST_SWP_BURGEE.DATA n k) = b.rd (Reg.ST_SWP_BURGEE.DATA n k) := by
  have hoff : (Reg.ST_SWP_BURGEE.DATA n k).off = 0x4000200 + 0x100000 * n + 0x8 * k := rfl
  exact h.rd_protocol (show 0 + 64 ≤ 64 by decide) (by omega) (by omega) ⟨by omega, by omega⟩

end

theorem Block.burgee_refuses {b : Block} {n : Nat} {d : List Byte} (hasked : (b.site n).enrol ≠ .idle)
    (hbad : b.burgeeCheck n d ≠ Code.SUCCESS) : b.Refuses (b.burgee n d) n (b.burgeeCheck n d) := by
  rw [Block.burgee_of_bad hasked hbad]
  have hlt : b.burgeeCheck n d < 2 ^ 16 := by
    rcases b.burgeeCheck_verdict n d with h | h | h <;> rw [h] <;> decide
  have hsends := b.enrolResult_fail n hbad
  generalize b.burgeeCheck n d = st at *
  generalize b.enrolResult n st 0 = c at *
  have hfail := c.enrolFail_siteOnly n st
  exact {
    rest := by rw [hfail.rest, hsends.rest]
    sites := fun k hk => (hfail.sites k hk).trans (hsends.only.sites k hk)
    status := c.enrolFail_status n hlt
    rd := fun g hg _ hoff => by
      simp only [List.mem_cons, List.not_mem_nil, or_false, not_or] at hoff
      obtain ⟨-, hst, -, htx⟩ := hoff
      exact (c.enrolFail_rd n st hst).trans (hsends.rd hg htx)
    packets := (Block.packetsTo_of_out n rfl (c.enrolFail_out n st)).trans hsends.packetsTo }

/-! ### The count before and the partitions' states after -/

section
variable {b c d : Block} {n : Nat}

theorem Block.ShowsParts.out (h : b.ShowsParts c) : c.out = b.out := by rw [h.rest]

theorem Block.ShowsParts.sites (h : b.ShowsParts c) (k : Nat) : c.site k = b.site k := Block.site_of_sites (by rw [h.rest]) k

theorem Block.Enrols.received {bs : List Byte} {cs : List Nat} (hn : n < 16)
    (h : (b.count (Reg.ST_SWP_PKT_RX.COUNT n) 1).Enrols c n bs cs) (hshows : c.ShowsParts d) : b.Enrols d n bs cs where
  rest := by rw [hshows.rest, h.rest]; rfl
  sites := fun k hk => (hshows.sites k).trans (h.sites k hk)
  link := (hshows.rd _ (show 0x4000010 + 0x100000 * n < 0x9000400 by omega) (show 0x4000010 + 0x100000 * n ≠ 0x10 by omega)).trans h.link
  enrolled := by
    rw [Block.enrolled, hshows.rd _ (show 0x20 < 0x9000400 by decide) (show 0x20 ≠ 0x10 by decide)]
    exact h.enrolled
  status := (hshows.rd _ (show 0x4000108 + 0x100000 * n < 0x9000400 by omega) (show 0x4000108 + 0x100000 * n ≠ 0x10 by omega)).trans
    h.status
  enrol := by rw [hshows.sites, h.enrol]
  credits := by rw [hshows.sites, h.credits]
  fenced := by rw [hshows.sites, h.fenced]
  map := fun j hj => (Block.siteCoreMap_of_rd fun g _ hoff => hshows.rd g (by omega) (by omega)).trans (h.map j hj)
  packets := (Block.packetsTo_of_out n rfl hshows.out).trans h.packets

theorem Block.Refuses.received {st : Status} (hn : n < 16) (h : (b.count (Reg.ST_SWP_PKT_RX.COUNT n) 1).Refuses c n st)
    (hshows : c.ShowsParts d) : b.Refuses d n st where
  rest := by rw [hshows.rest, h.rest]; rfl
  sites := fun k hk => (hshows.sites k).trans (h.sites k hk)
  status := (hshows.rd _ (show 0x4000108 + 0x100000 * n < 0x9000400 by omega) (show 0x4000108 + 0x100000 * n ≠ 0x10 by omega)).trans
    h.status
  rd := fun g hg hlow hoff => by
    have hrx := h.rd g hg hlow hoff
    simp only [List.mem_cons, List.not_mem_nil, or_false, not_or] at hoff
    obtain ⟨h10, -, hcount, -⟩ := hoff
    rw [hshows.rd g hlow h10, hrx, b.rd_count_rx n hcount]
  packets := (Block.packetsTo_of_out n rfl hshows.out).trans h.packets

end

/-! ### The commands -/

/-- A good burgee enrols its site (R179, R181). -/
theorem burgee_accepted {s : State} {site : SiteNo} {data : List Byte} (hlink : s.blk.linkState site = Link.TRAINED)
    (hnew : s.blk.enrolled site = false) (hasked : (s.blk.site site).enrol ≠ .idle)
    (hgood : s.blk.burgeeCheck site (sliceBytes data 0 256) = Code.SUCCESS) :
    Yields (.burgee site data) s fun t => t = { s with blk := t.blk } ∧ s.blk.Enrols t.blk site (sliceBytes data 0 256)
      (s.blk.mappedCores site (leAt data 0x18 8)) := by
  have hrx {g : Fld} := s.blk.rd_count_rx site (g := g)
  have henrols := Block.burgee_enrols (b := s.blk.count (Reg.ST_SWP_PKT_RX.COUNT site) 1) (d := sliceBytes data 0 256) site.isLt hasked
    ((hrx (show 0x4000010 + 0x100000 * site.val ≠ 0x4000180 + 0x100000 * site.val by omega)).trans hlink)
    ((Block.burgeeCheck_of_rd hrx _).trans hgood)
  rw [Block.mappedCores_of_rd hrx, leAt_sliceBytes (by decide)] at henrols
  exact yields_of_upd (exec_burgee ..) (congrArg Block.partStates (Block.packetIn_burgee _ hlink hnew)) ⟨rfl, henrols.received site.isLt (Block.partStates_shows _)⟩

/-- A burgee that fails a check leaves burgee and map (R180). -/
theorem burgee_refused {s : State} {site : SiteNo} {data : List Byte} (hlink : s.blk.linkState site = Link.TRAINED)
    (hnew : s.blk.enrolled site = false) (hasked : (s.blk.site site).enrol ≠ .idle)
    (hbad : s.blk.burgeeCheck site (sliceBytes data 0 256) ≠ Code.SUCCESS) :
    Yields (.burgee site data) s fun t => t = { s with blk := t.blk } ∧ s.blk.Refuses t.blk site
      (s.blk.burgeeCheck site (sliceBytes data 0 256)) := by
  have hcheck := Block.burgeeCheck_of_rd (s.blk.rd_count_rx site) (sliceBytes data 0 256)
  have hrefuses := Block.burgee_refuses (b := s.blk.count (Reg.ST_SWP_PKT_RX.COUNT site) 1) (d := sliceBytes data 0 256) hasked
    (by rwa [hcheck])
  rw [hcheck] at hrefuses
  exact yields_of_upd (exec_burgee ..) (congrArg Block.partStates (Block.packetIn_burgee _ hlink hnew)) ⟨rfl, hrefuses.received site.isLt (Block.partStates_shows _)⟩

/-- The credits of a burgee are those of its record's first 256 bytes. -/
theorem Credits.ofBurgee_record (data : List Byte) : Credits.ofBurgee (sliceBytes data 0 256) = .ofBurgee data := by
  simp only [Credits.ofBurgee]
  rw [leAt_sliceBytes (by decide), leAt_sliceBytes (by decide), leAt_sliceBytes (by decide), leAt_sliceBytes (by decide)]

/-! ### A request that goes unanswered -/

/-- ENROL_REQ (Table SWP-4). -/
theorem Block.enrolReq_sends (b : Block) (n : Nat) :
    b.Sends (b.enrolReq n) n [⟨0x28, 1, 0, 0, 0, 0, 0, 0, 0, natLE 16 (1 + 2 ^ 16 * n)⟩] :=
  b.putPacket_sends n (show (0x28 : Nat) ≠ 0 by decide) (show (0x28 : Nat) ≠ 0x20 by decide)

/-- ENROL_REQ is sent again. -/
theorem enrolTimeout_again {s : State} {site : SiteNo} {n at' : Nat} (hasked : (s.blk.site site).enrol = .asked n at') (hn : n < 3) :
    Yields (.enrolTimeout site) s fun t => (t.blk.site site).enrol = .asked (n + 1) s.blk.now ∧
      s.blk.packetsTo t.blk site = [⟨0x28, 1, 0, 0, 0, 0, 0, 0, 0, natLE 16 (1 + 2 ^ 16 * site)⟩] ∧ s.SiteStep t site := by
  let c := s.blk.setSite site { s.blk.site site with enrol := .asked (n + 1) s.blk.now }
  have hsends := c.enrolReq_sends site
  have honly := ((Block.SiteOnly.refl s.blk site [Reg.ST_SWP_PKT_TX.COUNT site]).setSite _).trans hsends.only
  have hresult : s.blk.enrolTimeout site = c.enrolReq site := by simp [Block.enrolTimeout, hasked, hn, c]
  refine yields_of_upd (exec_enrolTimeout ..) hresult ⟨?_, hsends.packetsTo, honly.step⟩
  rw [hsends.site, Block.site_setSite_same]

theorem Block.enrolTimeout_of_last {b : Block} {n k at' : Nat} (hasked : (b.site n).enrol = .asked k at') (hk : 3 ≤ k) :
    b.enrolTimeout n = b.enrolFail n Code.SWP_ENROL_TIMEOUT := by
  unfold Block.enrolTimeout
  rw [hasked]
  exact if_neg (Nat.not_lt.mpr hk)

/-- The third request that is not answered fails the enrolment. -/
theorem enrolTimeout_last {s : State} {site : SiteNo} {n at' : Nat} (hasked : (s.blk.site site).enrol = .asked n at') (hn : 3 ≤ n) :
    Yields (.enrolTimeout site) s fun t =>
      (t.blk.site site).enrol = .idle ∧ t.blk.rd (Reg.ST_SWP_ENROL.LAST_STATUS site) = Code.SWP_ENROL_TIMEOUT ∧
      s.blk.Raised t.blk (Src.site site) Kind.ENROL_FAIL Code.SWP_ENROL_TIMEOUT 0 ∧ s.SiteStep t site ∧
      t.blk.linkState site = s.blk.linkState site := by
  refine yields_of_upd (exec_enrolTimeout ..) (Block.enrolTimeout_of_last hasked hn) ⟨?_, Block.enrolFail_status _ _ (by decide), Block.enrolFail_raised ..,
    (Block.enrolFail_siteOnly ..).step, Block.enrolFail_rd _ _ _ (show 0x4000010 + 0x100000 * site.val ≠ 0x4000108 + 0x100000 * site.val by omega)⟩
  rw [Block.site_enrolFail]

end Sys2Proof.Machine
end

section
/-! SUPPORT. DISPATCH as a command (R188): what issue leaves as it was, the packet it sends, and how it ends where it is refused. -/

namespace Sys2Proof.Machine

/-! ### What issue keeps -/

/-- Issue and the end of a replay write one register. -/
theorem Fld.qIssue_off {s c : Nat} {f : Fld} (hf : f ∈ Fld.qIssue s c) : f.off = 0xd00011c + 0x1000 * s + 0x40 * c := by
  simp only [Fld.qIssue, Fld.qCounts, List.mem_cons, List.not_mem_nil, or_false] at hf
  rcases hf with rfl | rfl | rfl | rfl <;> rfl

section
variable {b c : Block} {sl cl : Nat} (h : b.QueueFrame c sl cl (Fld.qIssue sl cl))
include h

theorem Block.QueueFrame.rd {g : Fld} (hg : g.lo + g.w ≤ 64) (hoff : g.off ≠ 0xd00011c + 0x1000 * sl + 0x40 * cl) : c.rd g = b.rd g :=
  h.fields g hg fun _ hf => .inl fun heq => hoff (heq.trans (Fld.qIssue_off hf))

theorem Block.QueueFrame.site (k : Nat) : c.site k = b.site k := Block.site_of_sites (by rw [h.rest]) k

theorem Block.QueueFrame.holdsSite (s k : Nat) : c.holdsSite s k = b.holdsSite s k := by
  have hslice : c.slicePart s = b.slicePart s := h.rd (show 20 + 5 ≤ 64 by decide) (show 0xd000000 + 0x1000 * s ≠ _ by omega)
  have hlayout : c.layout = b.layout := h.rd (by decide) (by simp only [Reg.MH_IMAGE.LAYOUT]; omega)
  have hboot : c.boot = b.boot := by rw [h.rest]
  rw [Block.holdsSite, hslice, Block.part, Block.partIn, hlayout, hboot, Block.holdsSite, Block.part, Block.partIn]

theorem Block.QueueFrame.siteCoreMap (n j : Nat) : c.siteCoreMap n j = b.siteCoreMap n j :=
  Block.siteCoreMap_of_rd fun g hg hoff => h.rd hg (by omega)

theorem Block.QueueFrame.dispatchStatus (s : Nat) (cmd : FCmd) : c.dispatchStatus s cmd = b.dispatchStatus s cmd := by
  have henrolled (n : Nat) : c.enrolled n = b.enrolled n := by
    rw [Block.enrolled, h.rd (by decide) (by simp only [Reg.MH_SITE_PRESENT.ENROLLED]; omega), Block.enrolled]
  have hany (n : Nat) : c.anyOk n = b.anyOk n := by
    rw [Block.anyOk, h.rd (show 0 + 64 ≤ 64 by decide) (by simp only [Reg.ST_SWP_BURGEE.DATA]; omega), Block.anyOk]
  rw [Block.dispatchStatus, henrolled, h.holdsSite, h.siteCoreMap, hany, Block.dispatchStatus]

end

/-! ### DISPATCH waits -/

/-- An issued DISPATCH is refused by its status, or sends its packet under the lowest free tag. -/
def Block.dispatched (b : Block) (sl c : Nat) (cmd : FCmd) (id : Nat) : Block :=
  match b.dispatchStatus sl cmd with
  | some st => b.completeCmd sl c id st 0
  | none => match b.dispatchTag (bits (cmd.w 2) 0 4) with
    | some t => b.sendDispatch sl c cmd id t
    | none => b

/-- A DISPATCH for which no tag is free, or whose core is fenced. -/
def Block.DispatchStuck (b : Block) (sl : Nat) (cmd : FCmd) : Prop :=
  cmd.opcode = 0x05 ∧ (b.dispatchStatus sl cmd).isNone ∧ ((b.dispatchTag (bits (cmd.w 2) 0 4)).isNone ∨ b.dispatchFenced cmd)

/-- DISPATCH of a queue whose next command is `cmd`. -/
theorem exec_dispatch_of_front {s : State} {slice : SliceNo} {cls : ClassNo} {cmd : FCmd} (hfront : (s.blk.q slice cls).front = some cmd) :
    ∃ f, exec (.dispatch slice cls) s = .next (s.upd fun b => b.settle f) ∧
      (s.blk.DispatchStuck slice cmd → f s.blk = s.blk) ∧
      (¬s.blk.DispatchStuck slice cmd → f s.blk = s.blk.issueNext slice cls (· = 0x05) (fun _ c => Hoist.dispatchCheck c)
        fun b cmd id => b.dispatched slice cls cmd id) := by
  refine ⟨_, exec_dispatch slice cls s, fun h => ?_, fun h => ?_⟩
  · simp only [hfront]
    exact if_pos h
  · simp only [hfront]
    refine (if_neg h).trans (congrArg (s.blk.issueNext slice cls _ _) ?_)
    funext b cmd id
    unfold Block.dispatched
    generalize b.dispatchStatus slice cmd = refusal
    generalize b.dispatchTag (bits (cmd.w 2) 0 4) = tag
    cases refusal with
    | some st => rfl
    | none => cases tag <;> rfl

section
variable {s : State} {slice : SliceNo} {cls : ClassNo} {cmd : FCmd} (hready : s.blk.Ready slice cls cmd 0x05)
include hready

/-- A DISPATCH with no free tag, or for a core that is fenced, is not issued. -/
theorem dispatch_waits (hok : s.blk.dispatchStatus slice cmd = none)
    (hstuck : s.blk.freeTag (bits (cmd.w 2) 0 4) 4095 = none ∨ s.blk.dispatchFenced cmd = true) :
    Yields (.dispatch slice cls) s fun t => t = { s with blk := { s.blk with ext := t.blk.ext } } := by
  obtain ⟨hfront, hop, -, -, -, -, -, hneed⟩ := hready
  have hwaits : s.blk.DispatchStuck slice cmd :=
    ⟨hop, by rw [hok]; rfl, hstuck.imp_left fun h => by rw [Block.dispatchTag, h]; rfl⟩
  obtain ⟨f, hexec, hf, -⟩ := exec_dispatch_of_front hfront
  exact yields_of_settle ⟨f, hexec, hf hwaits⟩ hneed fun t ht => congrArg (fun b : Block => { s with blk := b }) ht

/-- Any other DISPATCH is issued and goes on. -/
theorem dispatch_issues (hcheck : Hoist.check cls cmd (Hoist.dispatchCheck cmd) = none) (hgo : ¬s.blk.DispatchStuck slice cmd)
    {p : State → Prop} {r : Block}
    (hr : (s.blk.takeFront slice cls cmd).dispatched slice cls cmd (s.blk.q slice cls).nextId = r)
    (hneed : (r.endReplay slice cls).ext.need = [])
    (hp : ∀ t, (r.endReplay slice cls).ButExt t → p { s with blk := t }) : Yields (.dispatch slice cls) s p := by
  obtain ⟨hfront, hop, -, -, hmay, -, -, -⟩ := hready
  obtain ⟨f, hexec, -, hf⟩ := exec_dispatch_of_front hfront
  have hissue := Block.issueNext_of_passes (is' := (· = 0x05)) (chk := fun _ c => Hoist.dispatchCheck c)
    (run := fun b cmd id => b.dispatched slice cls cmd id) hfront (decide_eq_true hop) hmay hcheck
  rw [hr] at hissue
  exact yields_of_settle ⟨f, hexec, (hf hgo).trans hissue⟩ hneed hp

end

end Sys2Proof.Machine
end

section
/-! SUPPORT. How a DISPATCH that is issued goes on: its packet is sent, or its status ends it (R188). -/

namespace Sys2Proof.Machine

/-! ### The queue once its next command is issued -/

section
variable (b : Block) (s c : Nat) (cmd : FCmd)

theorem Block.q_clamped : (b.clamped s c cmd).q s c = b.q s c := by
  unfold Block.clamped
  split <;> rfl

theorem Block.q_takeFront : ∃ r now logged, r.id = (b.q s c).nextId ∧ r.cmd = cmd ∧ r.posting = false ∧
    (b.takeFront s c cmd).q s c = (b.q s c).issue r now logged := by
  unfold Block.takeFront
  rw [Block.q_qStatus_of_stays (by simp [QueueState.issue]), Block.q_modQ, Block.q_clamped]
  exact ⟨_, _, _, rfl, rfl, rfl, rfl⟩

theorem QueueState.resume_issue (q : QueueState) (r : CmdRec) (now : Nat) (logged : Bool) : (q.issue r now logged).resume = q.resume := by
  unfold QueueState.issue QueueState.pop
  split <;> rfl

theorem Block.resume_takeFront : ((b.takeFront s c cmd).q s c).resume = (b.q s c).resume := by
  obtain ⟨r, now, logged, -, -, -, hq⟩ := b.q_takeFront s c cmd
  rw [hq, QueueState.resume_issue]

theorem Block.qState_takeFront : (b.takeFront s c cmd).qState s c = b.qState s c := by
  have hw : (Reg.SL_Q_STATUS.STATE s c).lo + (Reg.SL_Q_STATUS.STATE s c).w ≤ 64 := show 0 + 2 ≤ 64 by decide
  have hclamp : (b.clamped s c cmd).rd (Reg.SL_Q_STATUS.STATE s c) = b.rd (Reg.SL_Q_STATUS.STATE s c) := by
    unfold Block.clamped
    split
    · exact Block.rd_wr_of_apart _ _ _ _ hw (.inr (.inl (show 0 + 2 ≤ 3 by decide)))
    · rfl
  unfold Block.takeFront Block.qState
  rw [Block.rd_qStatus_of_stays (by simp [QueueState.issue]) hw (Fld.state_apart_qCounts s c), Block.rd_modQ, hclamp]

theorem Block.endReplay_of_no_resume {b : Block} (h : (b.q s c).resume = none) : b.endReplay s c = b := by
  rw [Block.endReplay, h]
  rfl

end

/-! ### The packet of a DISPATCH -/

/-- The credits of a request with two units of data. -/
theorem Credits.allow_dispatch {c : Credits} {p : Packet} (hop : p.op = 0x20) (hunits : p.units = 2) (hreq : 1 ≤ c.hubReqH) (hdata : 1 ≤ c.hubReqD) :
    c.allow p = true ∧ c.spend p = { c with hubReqH := c.hubReqH - 1, hubReqD := c.hubReqD - 1 } := by
  have hchan : p.chan = .req := by simp [Packet.chan, hop]
  have hcredits : p.dataCredits = 1 := by rw [Packet.dataCredits, hunits]; rfl
  simp [Credits.allow, Credits.spend, hchan, hcredits, hreq, hdata]

/-- The record of a DISPATCH whose packet has been sent at time `now`. -/
def Dispatch.sentAt (d : Dispatch) (now : Nat) : Dispatch := { d with sent := true, since := now }

theorem Block.dispatchOf_setDispatch_same (b : Block) (n t : Nat) (d : Option Dispatch) : (b.setDispatch n t d).dispatchOf n t = d := by
  rw [Block.dispatchOf, Block.setDispatch, Block.site_setSite_same]
  exact SMap.get_put_same ..

/-- What sending a DISPATCH leads to. -/
structure Block.Dispatches (b c : Block) (n t : Nat) (d : Dispatch) (p : Packet) : Prop where
  rest : c = { b with regs := c.regs, sites := c.sites, out := c.out }
  sites : b.SitesKept c n
  record : ∃ since, c.dispatchOf n t = some (d.sentAt since)
  credits : (c.site n).credits = { (b.site n).credits with
    hubReqH := (b.site n).credits.hubReqH - 1, hubReqD := (b.site n).credits.hubReqD - 1 }
  packets : b.packetsTo c n = [p]

theorem Block.Sends.dispatches {b b' c : Block} {n : Nat} {p : Packet} {d : Dispatch} {now : Nat} (h : (b'.setDispatch n p.tag (some (d.sentAt now))).Sends c n [p])
    (hb : b' = { b with sites := b'.sites }) (hsites : b.SitesKept b' n) (hcredits : (b'.site n).credits = { (b.site n).credits with
      hubReqH := (b.site n).credits.hubReqH - 1, hubReqD := (b.site n).credits.hubReqD - 1 }) : b.Dispatches c n p.tag d p where
  rest := by rw [h.rest, hb]; rfl
  sites k hk := (h.only.sites k hk).trans ((Block.site_setSite_of_ne _ _ hk).trans (hsites k hk))
  record := ⟨now, by
    have hrec : c.dispatchOf n p.tag = (b'.setDispatch n p.tag (some (d.sentAt now))).dispatchOf n p.tag := by
      rw [Block.dispatchOf, h.site, Block.dispatchOf]
    rw [hrec, Block.dispatchOf_setDispatch_same]⟩
  credits := by rw [h.site, Block.setDispatch, Block.site_setSite_same, hcredits]
  packets := (Block.packetsTo_of_out n (by rw [hb]; rfl) rfl).trans h.packetsTo

/-- A DISPATCH to a site that nothing else waits for goes out at once. -/
theorem Block.send_dispatch {b : Block} {n : Nat} {p : Packet} {d : Dispatch} (hup : b.linkUp n = true) (hidle : (b.site n).txq = [])
    (hop : p.op = 0x20) (hunits : p.units = 2) (hreq : 1 ≤ (b.site n).credits.hubReqH) (hdata : 1 ≤ (b.site n).credits.hubReqD)
    (hd : b.dispatchOf n p.tag = some d) : b.Dispatches (b.send n p) n p.tag d p := by
  obtain ⟨hallow, hspend⟩ := Credits.allow_dispatch hop hunits hreq hdata
  rw [Block.send_of_idle hup hidle hallow, hspend]
  refine Block.Sends.dispatches (now := b.now) (Block.putPacket_dispatch (d := d) hop ?_) rfl (fun k hk => b.site_setSite_of_ne _ hk) ?_
  · rw [Block.dispatchOf, Block.site_setSite_same]
    exact hd
  · rw [Block.site_setSite_same]

/-- Tag `t` of site `n` carries the context of `d`. -/
def Block.withContext (b : Block) (n t : Nat) (d : Dispatch) : Block := (b.setTag n t (some ⟨.dispatch, b.now, false⟩)).setDispatch n t (some d)

section
variable (b : Block) (n t : Nat) (d : Dispatch)

theorem Block.withContext_rest : b.withContext n t d = { b with sites := (b.withContext n t d).sites } := rfl

theorem Block.withContext_sites : b.SitesKept (b.withContext n t d) n := fun _ hk =>
  (Block.site_setSite_of_ne _ _ hk).trans (b.site_setSite_of_ne _ hk)

theorem Block.site_withContext : ((b.withContext n t d).site n).txq = (b.site n).txq ∧ ((b.withContext n t d).site n).credits = (b.site n).credits := by
  rw [Block.withContext, Block.setDispatch, Block.site_setSite_same, Block.setTag, Block.site_setSite_same]
  exact ⟨rfl, rfl⟩

end

/-- The packet of a DISPATCH (R188). -/
def Packet.dispatch (cmd : FCmd) (t epoch : Nat) (core : Option Nat) : Packet :=
  ⟨0x20, 2, t, 0, core.getD 0, t, b01 (bit (cmd.w 2) 10), Ptr.addr (cmd.w 3), epoch,
    natLE 8 (cmd.w 4) ++ natLE 8 (cmd.w 5) ++ natLE 8 (cmd.w 6) ++ zeros 8⟩

/-- The core that a DISPATCH names. -/
def Block.dispatchCore (b : Block) (cmd : FCmd) : Option Nat :=
  if bit (cmd.w 2) 10 then none else b.siteCoreMap (bits (cmd.w 2) 0 4) (bits (cmd.w 2) 4 6)

theorem Block.sendDispatch_eq (b : Block) (sl c : Nat) (cmd : FCmd) (id t : Nat) :
    ∃ d : Dispatch, d.slice = sl ∧ d.core = b.dispatchCore cmd ∧ d.queue = 4 * sl + c ∧ d.id = id ∧ d.cancelled = false ∧
      b.sendDispatch sl c cmd id t = (b.withContext (bits (cmd.w 2) 0 4) t d).send (bits (cmd.w 2) 0 4)
        (.dispatch cmd t (b.epoch sl) (b.dispatchCore cmd)) := ⟨_, rfl, rfl, rfl, rfl, rfl, rfl⟩

theorem Block.sendDispatch_dispatches {b : Block} {sl c : Nat} {cmd : FCmd} {id t : Nat} (hidle : (b.site (bits (cmd.w 2) 0 4)).txq = [])
    (hup : b.linkUp (bits (cmd.w 2) 0 4) = true) (hreq : 1 ≤ (b.site (bits (cmd.w 2) 0 4)).credits.hubReqH)
    (hdata : 1 ≤ (b.site (bits (cmd.w 2) 0 4)).credits.hubReqD) :
    ∃ d : Dispatch, d.slice = sl ∧ d.core = b.dispatchCore cmd ∧ d.queue = 4 * sl + c ∧ d.id = id ∧ d.cancelled = false ∧
      b.Dispatches (b.sendDispatch sl c cmd id t) (bits (cmd.w 2) 0 4) t d (.dispatch cmd t (b.epoch sl) (b.dispatchCore cmd)) := by
  obtain ⟨d, hslice, hcore, hqueue, hid, hlive, heq⟩ := b.sendDispatch_eq sl c cmd id t
  refine ⟨d, hslice, hcore, hqueue, hid, hlive, ?_⟩
  rw [heq]
  generalize bits (cmd.w 2) 0 4 = n at *
  obtain ⟨htxq, hcredits⟩ := b.site_withContext n t d
  have hd : (b.withContext n t d).dispatchOf n t = some d := Block.dispatchOf_setDispatch_same ..
  have hsends := Block.send_dispatch (b := b.withContext n t d) (n := n) (p := .dispatch cmd t (b.epoch sl) (b.dispatchCore cmd)) (d := d) hup
    (by rw [htxq, hidle]) rfl rfl (by rw [hcredits]; exact hreq) (by rw [hcredits]; exact hdata) hd
  have hrest := b.withContext_rest n t d
  exact {
    rest := by rw [hsends.rest, hrest]
    sites := fun k hk => (hsends.sites k hk).trans (b.withContext_sites n t d k hk)
    record := hsends.record
    credits := by rw [hsends.credits, hcredits]
    packets := (Block.packetsTo_of_out n rfl rfl).trans hsends.packets }

end Sys2Proof.Machine
end

section
/-! SUPPORT. DISPATCH sent and refused, as a command (R188). -/

namespace Sys2Proof.Machine

theorem Block.ButExt.out {b c : Block} (h : b.ButExt c) : c.out = b.out := by rw [h]

theorem Block.ButExt.site {b c : Block} (h : b.ButExt c) (k : Nat) : c.site k = b.site k := Block.site_of_sites (by rw [h]) k

/-- What issue keeps lets a DISPATCH name the same core. -/
theorem Block.QueueFrame.dispatchCore {b c : Block} {sl cl : Nat} (h : b.QueueFrame c sl cl (Fld.qIssue sl cl)) (cmd : FCmd) :
    c.dispatchCore cmd = b.dispatchCore cmd := by
  rw [Block.dispatchCore, h.siteCoreMap, Block.dispatchCore]

theorem Block.QueueFrame.epoch {b c : Block} {sl cl : Nat} (h : b.QueueFrame c sl cl (Fld.qIssue sl cl)) : c.epoch sl = b.epoch sl :=
  h.rd (show 32 + 12 ≤ 64 by decide) (show 0xd000248 + 0x1000 * sl ≠ 0xd00011c + 0x1000 * sl + 0x40 * cl by omega)

theorem Block.QueueFrame.linkUp {b c : Block} {sl cl : Nat} (h : b.QueueFrame c sl cl (Fld.qIssue sl cl)) (n : Nat) : c.linkUp n = b.linkUp n := by
  have hstate : c.linkState n = b.linkState n := h.rd (show 0 + 4 ≤ 64 by decide) (show 0x4000010 + 0x100000 * n ≠ _ by omega)
  rw [Block.linkUp, hstate, Block.linkUp]

theorem Block.QueueFrame.out {b c : Block} {sl cl : Nat} {fs : List Fld} (h : b.QueueFrame c sl cl fs) : c.out = b.out := by rw [h.rest]

theorem Block.QueueFrame.freeTag {b c : Block} {sl cl : Nat} (h : b.QueueFrame c sl cl (Fld.qIssue sl cl)) (n m : Nat) :
    c.freeTag n m = b.freeTag n m := by
  rw [Block.freeTag, h.site, Block.freeTag]

/-! ### A command that ends in error while the completion ring is full (R64, R82, R84) -/

theorem Block.postEntries_of_full {b : Block} {s : Nat} {e : CEntry} {es : List CEntry} (k : Nat) (hes : (b.slice s).entries = e :: es)
    (he : e.kind ≠ 1) (hfull : b.cringFull s = true) : Block.postEntries (k + 1) b s = b.wr (Reg.SL_CRING_STATUS.FULL s) 1 := by
  unfold Block.postEntries
  simp only [hes, he, hfull, false_and, if_false, if_true]

@[simp] theorem Block.slice_modSlice (b : Block) (s : Nat) (f : SliceState → SliceState) : (b.modSlice s f).slice s = f (b.slice s) :=
  SMap.get_put_same ..

/-- An entry that finds the ring full waits. -/
theorem Block.addEntry_of_full {b : Block} {s : Nat} {e : CEntry} (hes : (b.slice s).entries = []) (he : e.kind ≠ 1)
    (hfull : b.cringFull s = true) :
    b.addEntry s e = (b.modSlice s fun v => { v with entries := v.entries ++ [e] }).wr (Reg.SL_CRING_STATUS.FULL s) 1 := by
  unfold Block.addEntry
  exact Block.postEntries_of_full _ (by rw [Block.slice_modSlice, hes]; rfl) he hfull

theorem Block.cringFull_of_rd {b c : Block} {s : Nat}
    (h : ∀ g : Fld, g.lo + g.w ≤ 64 → 0xd000200 + 0x1000 * s ≤ g.off → g.off < 0xd000218 + 0x1000 * s → c.rd g = b.rd g) :
    c.cringFull s = b.cringFull s := by
  have hsize := h (Reg.SL_CRING_CFG.LOG2_SIZE s) (show 0 + 4 ≤ 64 by decide) (show 0xd000200 + 0x1000 * s ≤ 0xd000208 + 0x1000 * s by omega)
    (show 0xd000208 + 0x1000 * s < 0xd000218 + 0x1000 * s by omega)
  have htail := h (Reg.SL_CRING_TAIL.INDEX s) (show 0 + 17 ≤ 64 by decide) (show 0xd000200 + 0x1000 * s ≤ 0xd000214 + 0x1000 * s by omega)
    (show 0xd000214 + 0x1000 * s < 0xd000218 + 0x1000 * s by omega)
  have hhead := h (Reg.SL_CRING_HEAD.INDEX s) (show 0 + 17 ≤ 64 by decide) (show 0xd000200 + 0x1000 * s ≤ 0xd000210 + 0x1000 * s by omega)
    (show 0xd000210 + 0x1000 * s < 0xd000218 + 0x1000 * s by omega)
  rw [Block.cringFull, hsize, htail, hhead, Block.cringFull]

/-- Queue `cl` of slice `s` has entered ERROR with `st`, and nothing else but registers has changed. -/
structure Block.Fails (b c : Block) (s cl : Nat) (st : Status) : Prop where
  rest : c = { b with regs := c.regs, queues := c.queues }
  state : c.qState s cl = Q.ERROR
  status : c.rd (Reg.SL_Q_STATUS.ERR_STATUS s cl) = st
  rd : ∀ g : Fld, g.lo + g.w ≤ 64 → g.off ≠ 0xd00011c + 0x1000 * s + 0x40 * cl → g.off ≠ 0xd000120 + 0x1000 * s + 0x40 * cl → c.rd g = b.rd g
  resume : (c.q s cl).resume = (b.q s cl).resume

/-- The fields that show a queue's failure. -/
def Fld.qFail (s c : Nat) : List Fld :=
  [Reg.SL_Q_STATUS.STATE s c, Reg.SL_Q_STATUS.ERR_STATUS s c, Reg.SL_Q_ERR.INDEX s c, Reg.SL_Q_ERR.LIST_INDEX s c, Reg.SL_Q_ERR.DEPTH s c]

theorem Block.queueError_of_runs {b : Block} {s c : Nat} (cmd : FCmd) (f : QFail) (st : Status) (hstate : b.qState s c ≠ Q.ERROR) :
    b.queueError s c cmd f st = (((((b.modQ s c fun q => { q with fail := some f }).wr (Reg.SL_Q_STATUS.STATE s c) Q.ERROR).wr
      (Reg.SL_Q_STATUS.ERR_STATUS s c) st).wr (Reg.SL_Q_ERR.INDEX s c) cmd.ring).wr (Reg.SL_Q_ERR.LIST_INDEX s c) cmd.listIdx).wr
      (Reg.SL_Q_ERR.DEPTH s c) cmd.depth := if_neg hstate

theorem Block.queueError_frame {b : Block} {s c : Nat} (cmd : FCmd) (f : QFail) (st : Status) (hstate : b.qState s c ≠ Q.ERROR) :
    b.QueueFrame (b.queueError s c cmd f st) s c (Fld.qFail s c) := by
  have hin : ∀ f ∈ Fld.qFail s c, f ∈ Fld.qFail s c := fun _ => id
  simp only [Fld.qFail, List.forall_mem_cons] at hin
  obtain ⟨hst, herr, hindex, hlist, hdepth, -⟩ := hin
  rw [Block.queueError_of_runs cmd f st hstate]
  exact ((((((Block.QueueFrame.refl b s c _).modQ _).wr _ _ hst).wr _ _ herr).wr _ _ hindex).wr _ _ hlist).wr _ _ hdepth

theorem Block.queueError_fails {b : Block} {s c : Nat} {st : Status} (cmd : FCmd) (f : QFail) (hstate : b.qState s c ≠ Q.ERROR)
    (hst : st < 2 ^ 16) : b.Fails (b.queueError s c cmd f st) s c st := by
  have hframe := b.queueError_frame cmd f st hstate
  have hlate (c' : Block) (v w x : Nat) {g : Fld} (hoff : g.off = 0xd00011c + 0x1000 * s + 0x40 * c) :
      (((c'.wr (Reg.SL_Q_ERR.INDEX s c) v).wr (Reg.SL_Q_ERR.LIST_INDEX s c) w).wr (Reg.SL_Q_ERR.DEPTH s c) x).rd g = c'.rd g := by
    have hne : g.off ≠ 0xd000120 + 0x1000 * s + 0x40 * c := by omega
    rw [Block.rd_wr_of_off_ne _ _ _ _ hne, Block.rd_wr_of_off_ne _ _ _ _ hne, Block.rd_wr_of_off_ne _ _ _ _ hne]
  exact {
    rest := hframe.rest
    state := by
      rw [Block.qState, Block.queueError_of_runs cmd f st hstate, hlate _ _ _ _ rfl,
        Block.rd_wr_of_apart _ _ _ _ (show 0 + 2 ≤ 64 by decide) (.inr (.inl (show 0 + 2 ≤ 16 by decide)))]
      exact Block.setQState_state _ _ _ (by decide)
    status := by
      rw [Block.queueError_of_runs cmd f st hstate, hlate _ _ _ _ rfl, Block.rd_wr_same _ _ _ (show 16 + 16 ≤ 64 by decide)]
      exact Nat.mod_eq_of_lt hst
    rd := fun g hg hst herr => hframe.fields g hg fun f hf => by
      simp only [Fld.qFail, List.mem_cons, List.not_mem_nil, or_false] at hf
      rcases hf with rfl | rfl | rfl | rfl | rfl
      exacts [.inl hst, .inl hst, .inl herr, .inl herr, .inl herr]
    resume := by
      rw [Block.queueError_of_runs cmd f st hstate]
      simp only [Block.q_wr, Block.q_modQ] }

/-- A command has ended with `st`: its queue is in ERROR, and its entry waits for room in the ring. -/
structure Block.Refused (b c : Block) (s cl : Nat) (st : Status) : Prop where
  rest : c = { b with regs := c.regs, queues := c.queues, slices := c.slices }
  state : c.qState s cl = Q.ERROR
  status : c.rd (Reg.SL_Q_STATUS.ERR_STATUS s cl) = st
  entry : ((c.slice s).entries.map fun e => (e.kind, e.status)) = [(3, st)]
  resume : (c.q s cl).resume = (b.q s cl).resume

theorem Block.Fails.refused {b c : Block} {s cl : Nat} {st : Status} {e : CEntry} (h : b.Fails c s cl st) (f : QueueState → QueueState)
    (hf : ∀ q, (f q).resume = q.resume) (hes : (b.slice s).entries = []) (hfull : b.cringFull s = true) (hkind : e.kind = 3)
    (hstatus : e.status = st) : b.Refused ((c.modQ s cl f).addEntry s e) s cl st := by
  have hfull' : (c.modQ s cl f).cringFull s = true :=
    (Block.cringFull_of_rd fun g hg hlow hhigh => h.rd g hg (by omega) (by omega)).trans hfull
  have hslice : (c.modQ s cl f).slice s = b.slice s := by rw [Block.slice, Block.slice, h.rest]; rfl
  rw [Block.addEntry_of_full (by rw [hslice, hes]) (by rw [hkind]; decide) hfull']
  have hne : 0xd00011c + 0x1000 * s + 0x40 * cl ≠ 0xd000218 + 0x1000 * s := by omega
  exact {
    rest := by rw [h.rest]; rfl
    state := (Block.rd_wr_of_off_ne _ _ _ _ hne).trans h.state
    status := (Block.rd_wr_of_off_ne _ _ _ _ hne).trans h.status
    entry := by
      show ((((c.modQ s cl f).modSlice s fun v => { v with entries := v.entries ++ [e] }).slice s).entries.map fun e => (e.kind, e.status)) = _
      rw [Block.slice_modSlice, hslice, hes]
      simp [hkind, hstatus]
    resume := (show (((c.modQ s cl f).q s cl).resume) = _ by rw [Block.q_modQ, hf]).trans h.resume }

/-- A command that fails at issue, in a queue above class 0. -/
theorem Block.completeCmd_refused {b : Block} {s c id : Nat} {r : CmdRec} {st : Status} (hc : c ≠ 0)
    (hfind : ((b.q s c).inflight.find? fun r => r.id = id) = some r) (hposting : r.posting = false)
    (hst : st ≠ Code.SUCCESS ∧ st < 2 ^ 16) (hstate : b.qState s c ≠ Q.ERROR) (hfull : b.cringFull s = true)
    (hes : (b.slice s).entries = []) : b.Refused (b.completeCmd s c id st 0) s c st := by
  obtain ⟨hbad, hlt⟩ := hst
  have hsignal : b.completionSignal s c r st = (b, st) := if_neg fun h => hbad h.1
  let free : QueueState → QueueState := fun q => { q with
    block := match q.block with
      | some k => if k.id = r.id then none else some k
      | none => none }
  have hfails : (b.modQ s c free).Fails _ s c st := Block.queueError_fails r.cmd (.cmd r.cmd) hstate hlt
  have hfree : ((b.modQ s c free).q s c).resume = (b.q s c).resume := by rw [Block.q_modQ]
  have hrefused : (b.modQ s c free).Refused (b.completeCmd s c id st 0) s c st := by
    unfold Block.completeCmd
    simp only [hfind, hposting, Bool.false_eq_true, if_false, hsignal]
    unfold Block.completeRec
    simp only [hbad, hc, ne_eq, not_false_eq_true, if_true, if_false, false_and]
    exact hfails.refused _ (fun _ => rfl) hes hfull rfl rfl
  exact { hrefused with rest := by rw [hrefused.rest]; rfl, resume := hrefused.resume.trans hfree }

theorem Block.QueueFrame.cringFull {b c : Block} {sl cl : Nat} (h : b.QueueFrame c sl cl (Fld.qIssue sl cl)) :
    c.cringFull sl = b.cringFull sl :=
  Block.cringFull_of_rd fun g hg hlow hhigh => h.rd hg (by omega)

/-- R188's refusals. -/
theorem Block.dispatchStatus_code {b : Block} {s : Nat} {cmd : FCmd} {st : Status} (h : b.dispatchStatus s cmd = some st) :
    st ≠ Code.SUCCESS ∧ st < 2 ^ 16 := by
  have hcodes : st ∈ [Code.SITE_NOT_ENROLLED, Code.SWP_SITE_DENIED, Code.SWP_NO_SUCH_CORE] := by
    unfold Block.dispatchStatus at h
    dsimp only at h
    split at h
    · simp [Option.some.inj h]
    · split at h
      · simp [← Option.some.inj h]
      · split at h
        · simp [← Option.some.inj h]
        · exact absurd h (by simp)
  simp only [List.mem_cons, List.not_mem_nil, or_false] at hcodes
  rcases hcodes with rfl | rfl | rfl <;> decide

/-- Only a queue of class 3 accepts DISPATCH. -/
theorem dispatch_class {s : State} {slice : SliceNo} {cls : ClassNo} {cmd : FCmd} (hready : s.blk.Ready slice cls cmd 0x05)
    (hcheck : Hoist.check cls cmd (Hoist.dispatchCheck cmd) = none) : cls.val ≠ 0 := by
  obtain ⟨-, hop, -⟩ := hready
  intro hzero
  simp [Hoist.check, hop, hzero, Hoist.listed, Hoist.accepts] at hcheck

section
variable {s : State} {slice : SliceNo} {cls : ClassNo} {cmd : FCmd} (hready : s.blk.Ready slice cls cmd 0x05)
  (hcheck : Hoist.check cls cmd (Hoist.dispatchCheck cmd) = none)
include hready hcheck

/-- A DISPATCH that passes R188's checks sends one packet. -/
theorem dispatch_sends (hok : s.blk.dispatchStatus slice cmd = none) (hfenced : s.blk.dispatchFenced cmd = false)
    (hidle : (s.blk.site (bits (cmd.w 2) 0 4)).txq = []) (hup : s.blk.linkUp (bits (cmd.w 2) 0 4) = true)
    (hreq : 1 ≤ (s.blk.site (bits (cmd.w 2) 0 4)).credits.hubReqH) (hdata : 1 ≤ (s.blk.site (bits (cmd.w 2) 0 4)).credits.hubReqD) {n : Nat}
    (htag : s.blk.freeTag (bits (cmd.w 2) 0 4) 4095 = some n) : Yields (.dispatch slice cls) s fun t =>
      s.blk.packetsTo t.blk (bits (cmd.w 2) 0 4) = [.dispatch cmd n (s.blk.epoch slice) (s.blk.dispatchCore cmd)] ∧
      ((t.blk.dispatchOf (bits (cmd.w 2) 0 4) n).map fun d => (d.slice, d.core, d.queue, d.id, d.cancelled)) =
        some (slice.val, s.blk.dispatchCore cmd, 4 * slice.val + cls.val, (s.blk.q slice cls).nextId, false) ∧
      (t.blk.site (bits (cmd.w 2) 0 4)).credits = { (s.blk.site (bits (cmd.w 2) 0 4)).credits with
        hubReqH := (s.blk.site (bits (cmd.w 2) 0 4)).credits.hubReqH - 1
        hubReqD := (s.blk.site (bits (cmd.w 2) 0 4)).credits.hubReqD - 1 } ∧
      ((t.blk.q slice cls).inflight.map fun r => r.cmd) = [cmd] ∧ s.blk.QueuesKept t.blk slice cls ∧
      s.blk.SitesKept t.blk (bits (cmd.w 2) 0 4) ∧
      t = { s with blk := { s.blk with
        regs := t.blk.regs, queues := t.blk.queues, sites := t.blk.sites, out := t.blk.out, ext := t.blk.ext } } := by
  have hgo : ¬s.blk.DispatchStuck slice cmd := by
    rintro ⟨-, -, hstuck⟩
    simp [Block.dispatchTag, htag, hfenced] at hstuck
  have hissues {p : State → Prop} := dispatch_issues (p := p) hready hcheck hgo rfl
  obtain ⟨-, -, -, -, -, hnone, hresume, hneed⟩ := hready
  have htake := s.blk.takeFront_frame slice cls cmd
  obtain ⟨r, now, logged, -, hrcmd, -, hq⟩ := s.blk.q_takeFront slice cls cmd
  have hnoresume := (s.blk.resume_takeFront slice cls cmd).trans hresume
  generalize s.blk.takeFront slice cls cmd = b₁ at *
  have hsent : b₁.dispatched slice cls cmd (s.blk.q slice cls).nextId = b₁.sendDispatch slice cls cmd (s.blk.q slice cls).nextId n := by
    rw [Block.dispatched, htake.dispatchStatus, hok, Block.dispatchTag, htake.freeTag, htag]
  obtain ⟨d, hslice, hcore, hqueue, hid, hlive, hd⟩ := b₁.sendDispatch_dispatches (sl := slice) (c := cls) (cmd := cmd)
    (id := (s.blk.q slice cls).nextId) (t := n) (by rw [htake.site, hidle]) (by rw [htake.linkUp, hup]) (by rw [htake.site]; exact hreq)
    (by rw [htake.site]; exact hdata)
  rw [hsent] at hissues
  rw [htake.dispatchCore, htake.epoch] at hd
  generalize b₁.sendDispatch slice cls cmd (s.blk.q slice cls).nextId n = b₂ at *
  have hq₂ : b₂.q slice cls = b₁.q slice cls := by rw [hd.rest]; rfl
  rw [Block.endReplay_of_no_resume _ _ (by rw [hq₂, hnoresume])] at hissues
  have hneed₂ : b₂.ext.need = [] := by rw [hd.rest, htake.rest]; exact hneed
  refine hissues hneed₂ fun t ht => ⟨?_, ?_, ?_, ?_, ?_, ?_, ?_⟩
  · exact (Block.packetsTo_of_out _ htake.out.symm ht.out).trans hd.packets
  · obtain ⟨since, hrec⟩ := hd.record
    rw [Block.dispatchOf, ht.site, ← Block.dispatchOf, hrec]
    simp only [Option.map_some, Dispatch.sentAt, hslice, hcore, hqueue, hid, hlive, htake.dispatchCore]
  · rw [ht.site, hd.credits, htake.site]
  · rw [show t.q slice cls = b₂.q slice cls from ht.queue _, hq₂, hq]
    simp [QueueState.issue, hnone, hrcmd]
  · exact fun k hk => (ht.queue k).trans ((by rw [hd.rest]; rfl : b₂.queue k = b₁.queue k).trans (htake.queues k hk))
  · exact fun k hk => (ht.site k).trans ((hd.sites k hk).trans (htake.site k))
  · have hrest : t = { s.blk with regs := t.regs, queues := t.queues, sites := t.sites, out := t.out, ext := t.ext } := by
      rw [ht, hd.rest, htake.rest]
    exact congrArg (fun b : Block => { s with blk := b }) hrest

/-- What a refused DISPATCH leaves. -/
theorem dispatch_refused {st : Status} (hst : s.blk.dispatchStatus slice cmd = some st) (hfull : s.blk.cringFull slice = true)
    (hentries : (s.blk.slice slice).entries = []) (hstate : s.blk.qState slice cls ≠ Q.ERROR) : Yields (.dispatch slice cls) s fun t =>
      t.blk.qState slice cls = Q.ERROR ∧ t.blk.rd (Reg.SL_Q_STATUS.ERR_STATUS slice cls) = st ∧
      ((t.blk.slice slice).entries.map fun e => (e.kind, e.status)) = [(3, st)] ∧ t.blk.sites = s.blk.sites ∧
      t = { s with blk := { s.blk with regs := t.blk.regs, queues := t.blk.queues, slices := t.blk.slices, ext := t.blk.ext } } := by
  have hgo : ¬s.blk.DispatchStuck slice cmd := by
    rintro ⟨-, hnone, -⟩
    simp [hst] at hnone
  have hissues {p : State → Prop} := dispatch_issues (p := p) hready hcheck hgo rfl
  have hcls := dispatch_class hready hcheck
  obtain ⟨-, -, -, -, -, hnone, hresume, hneed⟩ := hready
  have htake := s.blk.takeFront_frame slice cls cmd
  obtain ⟨r, now, logged, hid, -, hposting, hq⟩ := s.blk.q_takeFront slice cls cmd
  have hqstate := (s.blk.qState_takeFront slice cls cmd)
  have hnoresume := (s.blk.resume_takeFront slice cls cmd).trans hresume
  generalize s.blk.takeFront slice cls cmd = b₁ at *
  have hone : (b₁.q slice cls).inflight = [r] := by rw [hq]; simp [QueueState.issue, hnone]
  have hcode := s.blk.dispatchStatus_code hst
  have hended : b₁.Refused (b₁.dispatched slice cls cmd (s.blk.q slice cls).nextId) slice cls st := by
    rw [Block.dispatched, htake.dispatchStatus, hst]
    exact Block.completeCmd_refused hcls (by rw [hone]; simp [hid]) hposting hcode (by rwa [hqstate])
      (by rw [htake.cringFull, hfull]) (by rw [Block.slice, htake.rest]; exact hentries)
  generalize b₁.dispatched slice cls cmd (s.blk.q slice cls).nextId = b₂ at *
  rw [Block.endReplay_of_no_resume _ _ (by rw [hended.resume, hnoresume])] at hissues
  refine hissues (by rw [hended.rest, htake.rest]; exact hneed) fun t ht => ⟨?_, ?_, ?_, ?_, ?_⟩
  · exact (ht.rd _).trans hended.state
  · exact (ht.rd _).trans hended.status
  · exact (by rw [Block.slice, ht]; rfl : ((t.slice slice).entries.map fun e => (e.kind, e.status)) = _).trans hended.entry
  · show t.sites = s.blk.sites
    rw [ht, hended.rest, htake.rest]
  · have hrest : t = { s.blk with regs := t.regs, queues := t.queues, slices := t.slices, ext := t.ext } := by
      rw [ht, hended.rest, htake.rest]
    exact congrArg (fun b : Block => { s with blk := b }) hrest

end

/-! ### The obligation -/

/-- Settles O29, from the three steps apart: `burgee_accepted` and `burgee_refused` for a burgee, `enrolTimeout_again` and
`enrolTimeout_last` for a request that goes unanswered, and `dispatch_refused`, `dispatch_sends` and `dispatch_waits` for DISPATCH.
That a DISPATCH with no free tag or for a fenced core waits is the model's choice (assumptions 37 and 66). -/
theorem enrolAndDispatch : Obligations.EnrolAndDispatch := by
  unfold Obligations.EnrolAndDispatch
  intro s
  refine ⟨fun site data hlink hnew hasked => ⟨fun hgood => ?_, ?_⟩, fun site n at' hasked => ⟨fun hn => ?_, fun hn => ?_⟩,
    fun slice cls cmd hready hcheck _ _ => ⟨fun st hst hfull hentries hstate => ?_, ?_, fun hok hstuck => ?_⟩⟩
  · refine (burgee_accepted hlink hnew hasked hgood).mono ?_
    rintro t ⟨ht, henrols⟩
    have hrest : t.blk = { s.blk with regs := t.blk.regs, sites := t.blk.sites, out := t.blk.out, fc := t.blk.fc } := by
      rw [henrols.rest]
    exact ⟨henrols.link, henrols.enrolled, henrols.status, henrols.enrol, fun c => henrols.map c c.isLt, henrols.fenced,
      henrols.credits.trans (Credits.ofBurgee_record data), henrols.packets,
      ht.trans (congrArg (fun b : Block => { s with blk := b }) hrest), henrols.sites⟩
  · rintro _ rfl hbad
    refine (burgee_refused hlink hnew hasked hbad).mono ?_
    rintro t ⟨ht, hrefuses⟩
    have hrest : t.blk = { s.blk with regs := t.blk.regs, sites := t.blk.sites, out := t.blk.out, fc := t.blk.fc } := by
      rw [hrefuses.rest]
    exact ⟨(hrefuses.linkState site.isLt).trans hlink, (hrefuses.enrolled site).trans hnew, hrefuses.status,
      fun c => hrefuses.siteCoreMap site.isLt c.isLt, fun k => hrefuses.burgee site.isLt k.isLt, hrefuses.packets,
      ht.trans (congrArg (fun b : Block => { s with blk := b }) hrest), hrefuses.sites⟩
  · exact enrolTimeout_again hasked hn
  · exact enrolTimeout_last hasked hn
  · exact dispatch_refused hready hcheck hst hfull hentries hstate
  · intro hok hfenced hidle hup hreq hdata n htag
    exact dispatch_sends hready hcheck hok hfenced hidle hup hreq hdata htag
  · exact dispatch_waits hready hok hstuck

end Sys2Proof.Machine
end

section
/-! SUPPORT. Answers from a site to the hub's requests (R177, R189, R190, R192, R196). -/

namespace Sys2Proof.Machine

/-! ### A packet that is no request -/

/-- The channels whose packets need no credit. -/
def Packet.Free (p : Packet) : Prop := p.chan = .rsp ∨ p.chan = .free

section
variable {p : Packet} (hfree : p.Free)
include hfree

theorem Packet.Free.spend (c : Credits) : c.siteAllow p = true ∧ c.siteSpend p = c ∧ p.isRequest = false := by
  rcases hfree with h | h <;> simp [Credits.siteAllow, Credits.siteSpend, Packet.isRequest, h]

/-- An answer that is listed is counted and heard. -/
theorem Block.accept_free {b : Block} {n : Nat} (hlink : b.linkState n = Link.ENROLLED) (henrolled : b.enrolled n = true) (hnop : p.op ≠ 0)
    (hburgee : p.op ≠ 0x29) (hunits : Swp.units p.op p.len = some p.units) : b.accept n p = (b.heard n p, true) := by
  have hup : b.linkUp n = true := by simp [Block.linkUp, hlink]
  obtain ⟨hallow, hspend, hrequest⟩ := hfree.spend (b.site n).credits
  simp [Block.accept, Block.heard, hup, hnop, hburgee, b.enrolled_count_rx, henrolled, hunits, hallow, hspend, hrequest]

theorem Block.giveCredits_free (b : Block) (n : Nat) : b.giveCredits n p = b := by
  rcases hfree with h | h <;> simp [Block.giveCredits, h]

theorem Block.site_heard_free (b : Block) (n k : Nat) : (b.heard n p).site k = b.site k := by
  obtain ⟨-, hspend, hrequest⟩ := hfree.spend ((b.count (Reg.ST_SWP_PKT_RX.COUNT n) 1).site n).credits
  unfold Block.heard
  dsimp only
  rw [hspend, hrequest]
  by_cases hk : k = n
  · rw [hk, Block.site_setSite_same]
    rfl
  · rw [Block.site_setSite_of_ne _ _ hk]
    rfl

end

theorem Block.heard_rest (b : Block) (n : Nat) (p : Packet) : b.heard n p = { b with regs := (b.heard n p).regs, sites := (b.heard n p).sites } := rfl

theorem Block.heard_fields (b : Block) (n : Nat) (p : Packet) : b.FieldsKept (b.heard n p) [Reg.ST_SWP_PKT_RX.COUNT n] :=
  (Block.FieldsKept.refl b _).count _ _ (by simp)

/-- `c` is `b` after a packet of site `n` that is no request has been received. -/
structure Block.Received (b c : Block) (n : Nat) : Prop where
  rest : c = { b with regs := c.regs, sites := c.sites }
  site : ∀ k, c.site k = b.site k
  fields : b.FieldsKept c [Reg.ST_SWP_PKT_RX.COUNT n]

/-- A packet that is no request is served at once. -/
theorem Block.packetIn_free {b : Block} {n : Nat} {p : Packet} (run : Block → Block) (hfree : p.Free) (hlink : b.linkState n = Link.ENROLLED)
    (henrolled : b.enrolled n = true) (hnop : p.op ≠ 0) (hburgee : p.op ≠ 0x29) (hunits : Swp.units p.op p.len = some p.units) :
    ∃ c, b.Received c n ∧ b.packetIn n p run = run c := by
  refine ⟨b.heard n p, ⟨b.heard_rest n p, Block.site_heard_free hfree b n, b.heard_fields n p⟩, ?_⟩
  rw [Block.packetIn, Block.accept_free hfree hlink henrolled hnop hburgee hunits]
  exact Block.giveCredits_free hfree _ n

namespace Block.Received

variable {b c : Block} {n : Nat} (h : b.Received c n)
include h

theorem tag (k t : Nat) : c.tag k t = b.tag k t := by rw [Block.tag, h.site, Block.tag]
theorem dispatchOf (k t : Nat) : c.dispatchOf k t = b.dispatchOf k t := by rw [Block.dispatchOf, h.site, Block.dispatchOf]
theorem fc : c.fc = b.fc := by rw [h.rest]
theorem now : c.now = b.now := by rw [h.rest]
theorem out : c.out = b.out := by rw [h.rest]
theorem ext : c.ext = b.ext := by rw [h.rest]
theorem queue (k : Nat) : c.queue k = b.queue k := by rw [Block.queue, h.rest]; rfl

theorem gen (k : Nat) : c.gen k = b.gen k :=
  h.fields _ (show 16 + 16 ≤ 64 by decide) (by
    simp only [Fld.Apart, Reg.SL_STATUS.GENERATION, Reg.ST_SWP_PKT_RX.COUNT, List.mem_singleton, forall_eq]
    omega)

theorem linkState : c.linkState n = b.linkState n :=
  h.fields _ (show 0 + 4 ≤ 64 by decide) (by
    simpa [Fld.Apart] using .inl (show 0x4000010 + 0x100000 * n ≠ 0x4000180 + 0x100000 * n by omega))

end Block.Received

/-! ### Tags of the hub's requests -/

section
variable (b : Block) (n t : Nat) (u : Option HubTag)

@[simp] theorem Block.tag_setTag_same : (b.setTag n t u).tag n t = u := by
  rw [Block.tag, Block.setTag, Block.site_setSite_same]
  exact SMap.get_put_same ..

theorem Block.tag_setTag_of_ne {k : Nat} (h : k ≠ t) : (b.setTag n t u).tag n k = b.tag n k := by
  rw [Block.tag, Block.setTag, Block.site_setSite_same]
  exact SMap.get_put_of_ne _ _ _ h

theorem Block.setTag_sites : b.SitesKept (b.setTag n t u) n := fun _ hk => b.site_setSite_of_ne _ hk

theorem Block.setTag_rest : b.setTag n t u = { b with sites := (b.setTag n t u).sites } := rfl

end

/-- `c` differs from `b` in that tag `t` of site `n` is free. -/
structure Block.Frees (b c : Block) (n t : Nat) : Prop where
  rest : c = { b with sites := c.sites }
  tag : c.tag n t = none
  tags : ∀ k, k ≠ t → c.tag n k = b.tag n k
  sites : b.SitesKept c n

/-- A tag that no request waits for is only freed. -/
theorem Block.freeTagOf_idle {b : Block} {n : Nat} (howed : (b.site n).owed = []) (t : Nat) : b.Frees (b.freeTagOf n t) n t := by
  have howed' : ((b.setTag n t none).site n).owed = [] := by rw [Block.setTag, Block.site_setSite_same]; exact howed
  have hfree : b.freeTagOf n t = b.setTag n t none := by simp [Block.freeTagOf, howed']
  rw [hfree]
  exact ⟨b.setTag_rest n t none, b.tag_setTag_same n t none, fun k hk => b.tag_setTag_of_ne n t none hk, b.setTag_sites n t none⟩

/-! ### A response that its request expects -/

theorem Block.response_of_live {b : Block} {n : Nat} {p : Packet} {u : TagUse} {at' : Nat} {good : Block → HubTag → Option Block}
    (hu : b.tag n p.tag = some ⟨u, at', false⟩) :
    b.response n p good = (good b ⟨u, at', false⟩).getD (b.wrongKind n p u) := by
  unfold Block.response
  rw [hu]
  dsimp only
  cases good b ⟨u, at', false⟩ <;> rfl

/-- A request to the outside that was sent alone has its answer. -/
theorem Block.extDone_alone {b : Block} {n : ExtNeed} (hsent : b.ext.sent = [n]) (st : Status) (ds : List Byte) :
    b.extDone n st ds = { b with ext := { b.ext with sent := [], done := b.ext.done ++ [⟨n, st, ds⟩] } } := by
  simp [Block.extDone, hsent]

/-- The record of a foreign status that names nothing changes the collector alone. -/
theorem Block.unspecified_rest (b : Block) (src st : Nat) : b.unspecified src st = { b with fc := (b.unspecified src st).fc } := by
  unfold Block.unspecified
  split <;> rfl

/-- What a window request's end leaves: its tag is free, and its requester has `st` and `ds`. -/
structure Block.WindowEnds (b c : Block) (n t : Nat) (x : ExtNeed) (st : Status) (ds : List Byte) : Prop where
  rest : c = { b with sites := c.sites, ext := { b.ext with sent := [], done := b.ext.done ++ [⟨x, st, ds⟩] } }
  tag : c.tag n t = none
  tags : ∀ k, k ≠ t → c.tag n k = b.tag n k
  sites : b.SitesKept c n

theorem Block.windowEnds {b : Block} {n t : Nat} {x : ExtNeed} (howed : (b.site n).owed = []) (hsent : b.ext.sent = [x]) (st : Status)
    (ds : List Byte) : b.WindowEnds ((b.freeTagOf n t).extDone x st ds) n t x st ds := by
  have hfrees := Block.freeTagOf_idle howed t
  generalize b.freeTagOf n t = c at hfrees ⊢
  have hext : c.ext = b.ext := by rw [hfrees.rest]
  rw [Block.extDone_alone (by rw [hext, hsent]), hext]
  exact ⟨by rw [hfrees.rest], hfrees.tag, hfrees.tags, hfrees.sites⟩

theorem Block.resp_of_window {b : Block} {n : Nat} {p : Packet} {x : ExtNeed} {at' : Nat} (hu : b.tag n p.tag = some ⟨.window x, at', false⟩)
    (hst : x.op ≠ .read ∨ p.param ≠ 0) :
    b.resp n p = ((b.unspecified (Src.site n) p.param).freeTagOf n p.tag).extDone x (Swp.windowStatus p.param) [] := by
  have hzero : (if p.param = 0 then 0 else Swp.windowStatus p.param) = Swp.windowStatus p.param := by
    split
    next h => rw [h]; rfl
    next => rfl
  rw [Block.resp, Block.response_of_live hu]
  cases hx : x.op with
  | read => simp [hx, hst.resolve_left fun h => h hx]
  | _ => simp [hx, hzero]

section
variable {b : Block} {n : Nat} {p : Packet} {x : ExtNeed} {at' : Nat} (howed : (b.site n).owed = []) (hsent : b.ext.sent = [x])
  (hu : b.tag n p.tag = some ⟨.window x, at', false⟩)
include howed hsent hu

/-- Data ends a read of a window. -/
theorem Block.rdData_window (hop : x.op = .read) : b.WindowEnds (b.rdData n p) n p.tag x Code.SUCCESS (sliceBytes p.data 0 x.len) := by
  rw [Block.rdData, Block.response_of_live hu]
  simp only [hop, Option.getD_some]
  exact Block.windowEnds howed hsent _ _

/-- Data for a request that is no read is a breach. -/
theorem Block.rdData_window_breach (hop : x.op ≠ .read) :
    (b.swpBreach n p).WindowEnds (b.rdData n p) n p.tag x Code.SWP_BAD_PACKET [] := by
  have hnone : b.rdData n p = ((b.swpBreach n p).freeTagOf n p.tag).extDone x Code.SWP_BAD_PACKET [] := by
    rw [Block.rdData, Block.response_of_live hu]
    cases hx : x.op with
    | read => exact absurd hx hop
    | _ => simp [hx, Block.wrongKind]
  have hsites : (b.swpBreach n p).site n = b.site n := b.site_pennant ..
  rw [hnone]
  exact Block.windowEnds (b := b.swpBreach n p) (by rw [hsites, howed]) hsent _ _

/-- A status ends a window request; success does not end a read. -/
theorem Block.resp_window (hst : x.op ≠ .read ∨ p.param ≠ 0) : (b.unspecified (Src.site n) p.param).WindowEnds (b.resp n p) n p.tag x
    (if p.param / 256 ≤ 0x13 then p.param else Code.SWP_WINDOW_ERROR) [] := by
  have hstatus : Swp.windowStatus p.param = if p.param / 256 ≤ 0x13 then p.param else Code.SWP_WINDOW_ERROR := by
    simp [Swp.windowStatus, Status.listed]
  have hrest := b.unspecified_rest (Src.site n) p.param
  rw [Block.resp_of_window hu hst, ← hstatus]
  refine Block.windowEnds ?_ ?_ _ _
  · rw [Block.site_of_sites (by rw [hrest])]
    exact howed
  · rw [hrest]
    exact hsent

end

end Sys2Proof.Machine
end

section
/-! SUPPORT. The end of dispatches, late answers and requests without an answer (R177, R186, R189, R190, R192). -/

namespace Sys2Proof.Machine

/-! ### What an answer may end -/

/-- `c` differs from `b` in registers and the collector, whose queue is as before. -/
structure Block.ShowsFaults (b c : Block) : Prop where
  rest : c = { b with regs := c.regs, fc := c.fc }
  inQ : c.fc.inQ = b.fc.inQ

namespace Block.ShowsFaults

variable {b c d : Block}

theorem refl (b : Block) : b.ShowsFaults b := ⟨rfl, rfl⟩

theorem trans (h : b.ShowsFaults c) (k : c.ShowsFaults d) : b.ShowsFaults d := ⟨k.rest.trans (by rw [h.rest]), k.inQ.trans h.inQ⟩

theorem wr (h : b.ShowsFaults c) (f : Fld) (v : Nat) : b.ShowsFaults (c.wr f v) := h.trans ⟨rfl, rfl⟩

theorem collector (h : b.ShowsFaults c) {fc : FaultState} (hq : fc.inQ = c.fc.inQ) : b.ShowsFaults { c with fc := fc } := h.trans ⟨rfl, hq⟩

theorem foldl {α : Type} (h : b.ShowsFaults c) (l : List α) (step : Block → α → Block) (hstep : ∀ (b : Block) a, b.ShowsFaults (step b a)) :
    b.ShowsFaults (l.foldl step c) := by
  induction l generalizing c with
  | nil => exact h
  | cons a l ih => exact ih (h.trans (hstep c a))

end Block.ShowsFaults

theorem Block.fcStatus_shows (b : Block) : b.ShowsFaults b.fcStatus := by
  unfold Block.fcStatus
  refine .collector (.foldl ?_ _ _ fun b p => (Block.ShowsFaults.refl b).wr _ _) rfl
  refine .wr (.wr (.wr (.wr (.wr (.collector (.refl b) ?_) _ _) _ _) _ _) _ _) _ _
  rfl

/-- With no record open and no recovery running, an answer ends neither. -/
theorem Block.answered_shows {b : Block} (hopened : b.fc.opened = []) (hrecoveries : b.fc.recoveries = []) : b.ShowsFaults b.answered := by
  have hsettled : b.answered = ({ b with fc := { b.fc with opened := [] } } : Block).fcStatus := by
    simp [Block.answered, Block.recoveriesAdvance, hrecoveries, Block.recordsSettle, hopened]
  rw [hsettled]
  exact ((Block.ShowsFaults.refl b).collector (fc := { b.fc with opened := [] }) rfl).trans (Block.fcStatus_shows _)

/-! ### The end of a dispatch -/

/-- What a dispatch's end leaves: its context and tag are free, and its command has `st` and `cnt` unless nothing is to be heard of it. -/
structure Block.DispatchEnds (b c : Block) (n t : Nat) (d : Dispatch) (st cnt : Nat) : Prop where
  rest : c = { b with sites := c.sites, queues := c.queues }
  tag : c.tag n t = none
  tags : ∀ k, k ≠ t → c.tag n k = b.tag n k
  sites : b.SitesKept c n
  context : c.dispatchOf n t = none
  quiet : d.cancelled = true ∨ b.gen d.slice ≠ d.gen → c.queues = b.queues
  reported : d.cancelled = false → b.gen d.slice = d.gen → b.Reported c ⟨d.slice, d.gen, d.epoch, d.queue, d.id, d.ensign, []⟩ st cnt

section
variable (b : Block) (n t : Nat) (d : Option Dispatch)

@[simp] theorem Block.tag_setDispatch (k : Nat) : (b.setDispatch n t d).tag n k = b.tag n k := by
  rw [Block.tag, Block.setDispatch, Block.site_setSite_same, Block.tag]

theorem Block.dispatchOf_setTag (u : Option HubTag) (k m : Nat) : (b.setTag n k u).dispatchOf n m = b.dispatchOf n m := by
  rw [Block.dispatchOf, Block.setTag, Block.site_setSite_same, Block.dispatchOf]

theorem Block.setDispatch_sites : b.SitesKept (b.setDispatch n t d) n := fun _ hk => b.site_setSite_of_ne _ hk

theorem Block.owed_setDispatch : ((b.setDispatch n t d).site n).owed = (b.site n).owed := by
  rw [Block.setDispatch, Block.site_setSite_same]

end

theorem Block.freeTagOf_of_idle {b : Block} {n : Nat} (howed : (b.site n).owed = []) (t : Nat) : b.freeTagOf n t = b.setTag n t none := by
  have howed' : ((b.setTag n t none).site n).owed = [] := by rw [Block.setTag, Block.site_setSite_same]; exact howed
  simp [Block.freeTagOf, howed']

theorem Block.dispatchDone_ends {b : Block} {n t : Nat} {d : Dispatch} (hd : b.dispatchOf n t = some d) (howed : (b.site n).owed = [])
    (st cnt : Nat) : b.DispatchEnds (b.dispatchDone n t st cnt) n t d st cnt := by
  have howed' : ((b.setDispatch n t none).site n).owed = [] := (b.owed_setDispatch n t none).trans howed
  have hfrees := Block.freeTagOf_idle howed' t
  have hfree := Block.freeTagOf_of_idle howed' t
  have hdone : b.dispatchDone n t st cnt = if d.cancelled = true ∨ ((b.setDispatch n t none).freeTagOf n t).gen d.slice ≠ d.gen then
      (b.setDispatch n t none).freeTagOf n t else ((b.setDispatch n t none).freeTagOf n t).reportCmd d.queue d.id st cnt := by
    unfold Block.dispatchDone
    rw [hd]
  have hcontext : ((b.setDispatch n t none).freeTagOf n t).dispatchOf n t = none := by
    rw [hfree, Block.dispatchOf_setTag, Block.dispatchOf_setDispatch_same]
  have hrest : (b.setDispatch n t none).freeTagOf n t = { b with sites := ((b.setDispatch n t none).freeTagOf n t).sites } := by
    rw [hfrees.rest]
    rfl
  have htags := fun k hk => (hfrees.tags k hk).trans (b.tag_setDispatch n t none k)
  have hsites : b.SitesKept ((b.setDispatch n t none).freeTagOf n t) n :=
    fun k hk => (hfrees.sites k hk).trans (b.setDispatch_sites n t none k hk)
  have htag := hfrees.tag
  generalize (b.setDispatch n t none).freeTagOf n t = c at *
  have hgen : c.gen d.slice = b.gen d.slice := by rw [Block.gen, hrest]; rfl
  have hqueue (k : Nat) : c.queue k = b.queue k := by rw [Block.queue, hrest]; rfl
  rw [hdone, hgen]
  split
  next hquiet =>
    refine ⟨by rw [hrest], htag, htags, hsites, hcontext, fun _ => by rw [hrest], fun hlive hsame => ?_⟩
    rcases hquiet with h | h
    · exact absurd h (by simp [hlive])
    · exact absurd hsame h
  next hloud =>
    obtain ⟨hlive, hsame⟩ := not_or.mp hloud
    have hreported := Block.reportCmd_reported (b := c) (j := ⟨d.slice, d.gen, d.epoch, d.queue, d.id, d.ensign, []⟩) (st := st) (cnt := cnt)
    exact {
      rest := by rw [Block.reportCmd, Block.setQueue, hrest]
      tag := htag
      tags := htags
      sites := hsites
      context := hcontext
      quiet := fun h => absurd h hloud
      reported := fun _ _ => ⟨by rw [hreported.1, hqueue], fun k hk => (hreported.2 k hk).trans (hqueue k)⟩ }

/-- DONE ends its dispatch: an unlisted status and a success from a fenced core are failures (R189). -/
theorem Block.done_ends {b : Block} {n : Nat} {p : Packet} {d : Dispatch} {at' : Nat} (hu : b.tag n p.tag = some ⟨.dispatch, at', false⟩)
    (hd : b.dispatchOf n p.tag = some d) (howed : (b.site n).owed = []) :
    (b.unspecified (Src.site n) p.param).DispatchEnds (b.done n p) n p.tag d
      (if 0x13 < p.param / 256 ∨ p.param = 0 ∧ NSet.has (b.site n).fencedCores p.core = true then Code.SWP_WORK_FAILED else p.param)
      (leAt p.data 0 8) := by
  have hrest := b.unspecified_rest (Src.site n) p.param
  have hbad : (if (!Status.listed p.param || (decide (p.param = 0) && NSet.has (b.site n).fencedCores p.core)) = true then
      Code.SWP_WORK_FAILED else p.param) =
      if 0x13 < p.param / 256 ∨ p.param = 0 ∧ NSet.has (b.site n).fencedCores p.core = true then Code.SWP_WORK_FAILED else p.param := by
    simp [Status.listed]
  have hdone : b.done n p = (b.unspecified (Src.site n) p.param).dispatchDone n p.tag
      (if 0x13 < p.param / 256 ∨ p.param = 0 ∧ NSet.has (b.site n).fencedCores p.core = true then Code.SWP_WORK_FAILED else p.param)
      (leAt p.data 0 8) := by
    rw [Block.done, Block.response_of_live hu, ← hbad]
    rfl
  rw [hdone]
  refine Block.dispatchDone_ends ?_ ?_ _ _
  · rw [Block.dispatchOf, Block.site_of_sites (by rw [hrest])]
    exact hd
  · rw [Block.site_of_sites (by rw [hrest])]
    exact howed

/-! ### The low bytes of a number -/

theorem take_natLE (k len n : Nat) : (natLE (k + len) n).take k = natLE k n := by
  induction k generalizing n with
  | zero => simp [natLE]
  | succ k ih => rw [Nat.succ_add, natLE, List.take_succ_cons, ih, natLE]

/-- The first word of 16 bytes that hold a word. -/
theorem leAt_natLE_word (w : Word) : leAt (natLE 16 w.toNat) 0 8 = w.toNat := by
  rw [leAt, sliceBytes_of_le (by simp), List.drop_zero, take_natLE 8 8, leNat_natLE 8 _ w.isLt]

/-! ### Late answers -/

/-- An answer under a tag that is not in use is only counted. -/
theorem Block.rdData_late {b : Block} {n : Nat} {p : Packet} (hu : b.tag n p.tag = none) :
    b.rdData n p = b.count (Reg.ST_SWP_LATE_RSP.COUNT n) 1 := by
  simp [Block.rdData, Block.response, Block.lateRsp, hu]

end Sys2Proof.Machine
end

section
/-! SUPPORT. Requests that waited for a tag, CANCEL, CREDIT and a site's waits that end (R175–R177, R186, R190). -/

namespace Sys2Proof.Machine

/-! ### Any packet -/

/-- The same record written again hides nothing that was sent. -/
theorem Block.Sends.of_self {b c : Block} {n : Nat} {ps : List Packet} (h : b.Sends c n ps) : (b.setSite n (b.site n)).Sends c n ps := by
  have hback : (b.setSite n (b.site n)).Sends b n [] :=
    ⟨⟨rfl, fun _ hk => (b.site_setSite_of_ne _ hk).symm, fun _ _ _ => rfl⟩, rfl, by rw [Block.site_setSite_same], [],
      (List.append_nil _).symm, rfl⟩
  simpa using hback.trans h

/-- A packet that starts no context. -/
theorem Block.putPacket_plain {b : Block} {n : Nat} {p : Packet} (hplain : p.op = 0x20 → b.dispatchOf n p.tag = none) :
    b.Sends (b.putPacket n p) n [p] := by
  have hput := (Block.Sends.refl b n).emit (.packet n p)
  simp only [Out.toSite, if_true, List.nil_append, Option.toList_some] at hput
  by_cases hnop : p.op = 0
  · simpa only [Block.putPacket, hnop, if_true, ne_eq, (by decide : ¬(0 : Nat) = 0x20), not_false_eq_true] using hput.streamed p.bytes
  by_cases hop : p.op = 0x20
  · have hget : SMap.get (fun _ => none) (((b.emit (.packet n p)).count (Reg.ST_SWP_PKT_TX.COUNT n) 1).site n).disp p.tag = none := hplain hop
    simpa only [Block.putPacket, hop, hget, if_false, ne_eq, not_true_eq_false, (by decide : ¬(0x20 : Nat) = 0)] using
      (hput.count 1).streamed p.bytes
  · exact b.putPacket_sends n hnop hop

/-- Whatever its opcode, a packet changes at most the contexts of its site before it is put on the link. -/
theorem Block.putPacket_any (b : Block) (n : Nat) (p : Packet) :
    ∃ disp, (b.setSite n { b.site n with disp := disp }).Sends (b.putPacket n p) n [p] := by
  by_cases hop : p.op = 0x20
  · cases hd : b.dispatchOf n p.tag with
    | some d => exact ⟨_, Block.putPacket_dispatch hop hd⟩
    | none => exact ⟨(b.site n).disp, .of_self (Block.putPacket_plain fun _ => hd)⟩
  · exact ⟨(b.site n).disp, .of_self (Block.putPacket_plain fun h => absurd h hop)⟩

/-! ### Steps of one site's record -/

/-- `c` differs from `b` in the record of site `n`. -/
structure Block.RecordOnly (b c : Block) (n : Nat) : Prop where
  rest : c = { b with sites := c.sites }
  sites : b.SitesKept c n

namespace Block.RecordOnly

variable {b c : Block} {n : Nat}

theorem refl (b : Block) (n : Nat) : b.RecordOnly b n := ⟨rfl, fun _ _ => rfl⟩

theorem setSite (h : b.RecordOnly c n) (v : SiteState) : b.RecordOnly (c.setSite n v) n :=
  ⟨by rw [h.rest]; rfl, fun k hk => (c.site_setSite_of_ne v hk).trans (h.sites k hk)⟩

theorem setTag (h : b.RecordOnly c n) (t : Nat) (u : Option HubTag) : b.RecordOnly (c.setTag n t u) n := h.setSite _

theorem setDispatch (h : b.RecordOnly c n) (t : Nat) (d : Option Dispatch) : b.RecordOnly (c.setDispatch n t d) n := h.setSite _

/-- What is sent after the record has changed. -/
theorem sends (h : b.RecordOnly c n) {d : Block} {ps : List Packet} (hs : c.Sends d n ps) :
    d = { b with regs := d.regs, sites := d.sites, out := d.out } ∧ b.SitesKept d n ∧ b.packetsTo d n = ps :=
  ⟨hs.rest.trans (by rw [h.rest]), fun k hk => (hs.only.sites k hk).trans (h.sites k hk),
    (Block.packetsTo_of_out n (by rw [h.rest]) rfl).trans hs.packetsTo⟩

theorem linkUp (h : b.RecordOnly c n) (k : Nat) : c.linkUp k = b.linkUp k := by rw [h.rest]; rfl

end Block.RecordOnly

theorem Block.freeTag_of_tags {b c : Block} {n : Nat} (h : (c.site n).tags = (b.site n).tags) (m : Nat) : c.freeTag n m = b.freeTag n m := by
  rw [Block.freeTag, h, Block.freeTag]

/-! ### The request that waited for a tag -/

/-- The one index that a test picks. -/
theorem findIdx_only {n t : Nat} {p : Nat → Bool} (ht : t < n) (hp : p t = true) (hothers : ∀ k, k < n → k ≠ t → p k = false) :
    findIdx n p = some t := by
  unfold findIdx
  cases hfind : (List.range n).find? p with
  | none => exact absurd hp (by simpa using List.find?_eq_none.mp hfind t (List.mem_range.mpr ht))
  | some k =>
    have hk := List.mem_range.mp (List.mem_of_find?_eq_some hfind)
    by_cases hkt : k = t
    · rw [hkt]
    · exact absurd (List.find?_some hfind) (by simp [hothers k hk hkt])

@[simp] theorem Block.setTag_now (b : Block) (n t : Nat) (u : Option HubTag) : (b.setTag n t u).now = b.now := rfl

/-- With every tag in use, one that is freed is the lowest free one. -/
theorem Block.freeTag_setTag {b : Block} {n t m : Nat} (ht : t < m) (hused : b.freeTag n m = none) :
    (b.setTag n t none).freeTag n m = some t := by
  refine findIdx_only ht (decide_eq_true (b.tag_setTag_same n t none)) fun k hk hkt => decide_eq_false ?_
  have hin : b.tag n k ≠ none := by
    simpa [Block.tag] using List.find?_eq_none.mp hused k (List.mem_range.mpr hk)
  exact fun h => hin ((b.tag_setTag_of_ne n t none hkt).symm.trans h)

/-- What the request that waited longest leaves as it takes a tag that is free again. -/
structure Block.TakesTag (b c : Block) (n t : Nat) (r : HubReq) (rs : List HubReq) : Prop where
  rest : c = { b with regs := c.regs, sites := c.sites, out := c.out }
  tag : c.tag n t = some ⟨r.use, b.now, false⟩
  owed : (c.site n).owed = rs
  packets : b.packetsTo c n = [{ r.packet with tag := t }]
  sites : b.SitesKept c n

theorem Block.freeTagOf_owed {b : Block} {n t : Nat} {r : HubReq} {rs : List HubReq} (ht : t < 4096) (howed : (b.site n).owed = r :: rs)
    (hused : b.freeTag n 4096 = none) (hup : b.linkUp n = true) (hidle : (b.site n).txq = [])
    (hallow : (b.site n).credits.allow r.packet = true) : b.TakesTag (b.freeTagOf n t) n t r rs := by
  have hfreed : (b.setTag n t none).site n = { b.site n with tags := ((b.setTag n t none).site n).tags } := by
    rw [Block.setTag, Block.site_setSite_same]
  have hfree : b.freeTagOf n t = (((b.setTag n t none).setSite n { (b.setTag n t none).site n with owed := rs }).setTag n t
      (some ⟨r.use, b.now, false⟩)).send n { r.packet with tag := t } := by
    have howed' : ((b.setTag n t none).site n).owed = r :: rs := by rw [hfreed, howed]
    unfold Block.freeTagOf
    simp only [howed', Block.freeTag_setTag ht hused, Block.setTag_now]
  generalize hc : ((b.setTag n t none).setSite n { (b.setTag n t none).site n with owed := rs }).setTag n t
      (some ⟨r.use, b.now, false⟩) = c at hfree
  have hsite : c.site n = { b.site n with owed := rs, tags := (c.site n).tags } := by
    rw [← hc, Block.setTag, Block.site_setSite_same, Block.site_setSite_same, hfreed]
  have htag : c.tag n t = some ⟨r.use, b.now, false⟩ := by rw [← hc, Block.tag_setTag_same]
  have hrecord : b.RecordOnly c n := hc ▸ (((Block.RecordOnly.refl b n).setTag t none).setSite _).setTag t _
  rw [hfree, Block.send_of_idle (by rw [hrecord.linkUp, hup]) (by rw [hsite, hidle]) (by rw [hsite]; exact hallow)]
  have hspent := hrecord.setSite { c.site n with credits := (c.site n).credits.spend { r.packet with tag := t } }
  have hspentSite := c.site_setSite_same n { c.site n with credits := (c.site n).credits.spend { r.packet with tag := t } }
  generalize c.setSite n { c.site n with credits := (c.site n).credits.spend { r.packet with tag := t } } = c' at *
  obtain ⟨disp, hsends⟩ := c'.putPacket_any n { r.packet with tag := t }
  generalize c'.putPacket n { r.packet with tag := t } = e at hsends
  obtain ⟨hrest, hsites, hpackets⟩ := (hspent.setSite _).sends hsends
  have hsend := hsends.site
  rw [Block.site_setSite_same, hspentSite] at hsend
  exact {
    rest := hrest
    tag := by rw [Block.tag, hsend]; exact htag
    owed := by rw [hsend, hsite]
    packets := hpackets
    sites := hsites }

/-! ### CANCEL (R190) -/

/-- The CANCEL packet of context `t`. -/
def Packet.cancel (t : Nat) : Packet := ⟨0x21, 0, 0, 0, 0, t, 0, 0, 0, []⟩

/-- CANCEL needs a request's header credit and no data credit. -/
theorem Credits.allow_cancel {c : Credits} (hreq : c.hubReqH ≠ 0) (t k : Nat) : c.allow { Packet.cancel t with tag := k } = true := by
  simp [Credits.allow, Packet.chan, Packet.dataCredits, Packet.cancel, ceilDiv, Nat.one_le_iff_ne_zero, hreq]

/-- With no wait in the sync range, none of a site ends. -/
theorem Block.endSiteWaits_of_none {b : Block} (hwaits : b.sync.waits = []) (n st : Nat) (q : SyncWait → Bool) : b.endSiteWaits n st q = b := by
  have hsync : { b.sync with waits := [] } = b.sync := by rw [← hwaits]
  simp [Block.endSiteWaits, Block.dropWaits, hwaits, hsync]

/-- A live context that nothing waits for is cancelled by a request of the hub. -/
theorem Block.cancelDispatch_of_live {b : Block} {n t : Nat} {d : Dispatch} (hd : b.dispatchOf n t = some d) (hlive : d.cancelled = false)
    (hwaits : b.sync.waits = []) : b.cancelDispatch n t =
      (b.setDispatch n t (some { d with cancelled := true })).hubRequest n (.cancel t (d.core.getD 0)) (.cancel t) := by
  have hwaits' : (b.setDispatch n t (some { d with cancelled := true })).sync.waits = [] := hwaits
  unfold Block.cancelDispatch
  rw [hd]
  simp only [hlive, Bool.false_eq_true, if_false]
  rw [Block.endSiteWaits_of_none hwaits', Packet.cancel]

/-- What a CANCEL leaves. -/
structure Block.Cancels (b c : Block) (n t k : Nat) (d : Dispatch) : Prop where
  rest : c = { b with regs := c.regs, sites := c.sites, out := c.out }
  sites : b.SitesKept c n
  context : c.dispatchOf n t = some { d with cancelled := true }
  tag : c.tag n k = some ⟨.cancel t (d.core.getD 0), b.now, false⟩
  packets : b.packetsTo c n = [{ Packet.cancel t with tag := k }]

theorem Block.cancelDispatch_sends {b : Block} {n t k : Nat} {d : Dispatch} (hd : b.dispatchOf n t = some d) (hlive : d.cancelled = false)
    (hwaits : b.sync.waits = []) (howed : (b.site n).owed = []) (hup : b.linkUp n = true) (hidle : (b.site n).txq = [])
    (hreq : (b.site n).credits.hubReqH ≠ 0) (hk : b.freeTag n 4096 = some k) : b.Cancels (b.cancelDispatch n t) n t k d := by
  let c := b.setDispatch n t (some { d with cancelled := true })
  have hc : c.site n = { b.site n with disp := (c.site n).disp } := by simp only [c, Block.setDispatch, Block.site_setSite_same]
  have hsend : b.cancelDispatch n t = (c.setTag n k (some ⟨.cancel t (d.core.getD 0), c.now, false⟩)).send n { Packet.cancel t with tag := k } := by
    have hfree : c.freeTag n 4096 = some k := (Block.freeTag_of_tags (by rw [hc]) _).trans hk
    have hnone : (c.site n).owed = [] := by rw [hc, howed]
    rw [Block.cancelDispatch_of_live hd hlive hwaits]
    show c.hubRequest n _ _ = _
    unfold Block.hubRequest
    simp only [hnone, hfree]
  have hrecord : b.RecordOnly c n := (Block.RecordOnly.refl b n).setDispatch t _
  have hcontext : c.dispatchOf n t = some { d with cancelled := true } := Block.dispatchOf_setDispatch_same ..
  have hnow : c.now = b.now := rfl
  generalize c = c at *
  rw [hnow] at hsend
  have htagged := hrecord.setTag k (some ⟨.cancel t (d.core.getD 0), b.now, false⟩)
  have htag := c.tag_setTag_same n k (some ⟨.cancel t (d.core.getD 0), b.now, false⟩)
  have hcontext' := (c.dispatchOf_setTag n (some ⟨.cancel t (d.core.getD 0), b.now, false⟩) k t).trans hcontext
  have hsite : (c.setTag n k (some ⟨.cancel t (d.core.getD 0), b.now, false⟩)).site n = { c.site n with
      tags := ((c.setTag n k (some ⟨.cancel t (d.core.getD 0), b.now, false⟩)).site n).tags } := by
    rw [Block.setTag, Block.site_setSite_same]
  generalize c.setTag n k (some ⟨.cancel t (d.core.getD 0), b.now, false⟩) = e at *
  have hidle' : (e.site n).txq = [] := by rw [hsite, hc, hidle]
  have hreq' : (e.site n).credits.hubReqH ≠ 0 := by rw [hsite, hc]; exact hreq
  rw [hsend, Block.send_of_idle ((htagged.linkUp n).trans hup) hidle' (Credits.allow_cancel hreq' t k)]
  have hspent := htagged.setSite { e.site n with credits := (e.site n).credits.spend { Packet.cancel t with tag := k } }
  have hspentSite := e.site_setSite_same n { e.site n with credits := (e.site n).credits.spend { Packet.cancel t with tag := k } }
  generalize e.setSite n { e.site n with credits := (e.site n).credits.spend { Packet.cancel t with tag := k } } = e' at *
  have hsends := e'.putPacket_sends n (p := { Packet.cancel t with tag := k }) (show (0x21 : Nat) ≠ 0 by decide)
    (show (0x21 : Nat) ≠ 0x20 by decide)
  obtain ⟨hrest, hsites, hpackets⟩ := hspent.sends hsends
  have hfinal := hsends.site
  rw [hspentSite] at hfinal
  exact ⟨hrest, hsites, by rw [Block.dispatchOf, hfinal]; exact hcontext', by rw [Block.tag, hfinal]; exact htag, hpackets⟩

/-! ### CREDIT (R176) -/

/-- Credits that come while nothing waits to be sent. -/
theorem Block.takeCredits_idle {b : Block} {n : Nat} (hidle : (b.site n).txq = []) (rq rd sn : Nat) :
    b.RecordOnly (b.takeCredits n rq rd sn) n ∧ ((b.takeCredits n rq rd sn).site n).credits = { (b.site n).credits with
      hubReqH := (b.site n).credits.hubReqH + rq, hubReqD := (b.site n).credits.hubReqD + rd
      hubSnpH := (b.site n).credits.hubSnpH + sn } := by
  unfold Block.takeCredits Block.sendWaiting
  dsimp only
  rw [Block.site_setSite_same]
  simp only [hidle, List.foldl_nil]
  exact ⟨((Block.RecordOnly.refl b n).setSite _).setSite _, by rw [Block.site_setSite_same]⟩

/-! ### A site's wait that runs out (R186) -/

/-- What a site's only wait leaves as it ends with `st`. -/
structure Block.WaitEnds (b c : Block) (n t : Nat) (st : Status) : Prop where
  rest : c = { b with regs := c.regs, sites := c.sites, out := c.out, sync := { b.sync with waits := [] } }
  sites : b.SitesKept c n
  packets : b.packetsTo c n = [Packet.short 0x41 t 0 0 st]
  tag : NSet.has (c.site n).siteTags t = false

theorem Block.siteResp_answers {b : Block} {n : Nat} (hup : b.linkUp n = true) (hidle : (b.site n).txq = []) (t st : Nat) :
    (b.setSite n { b.site n with siteTags := NSet.erase (b.site n).siteTags t }).Sends (b.siteResp n t st) n [Packet.short 0x41 t 0 0 st] :=
  Block.send_rsp (b := b.setSite n { b.site n with siteTags := NSet.erase (b.site n).siteTags t }) hup
    (by rw [Block.site_setSite_same, hidle]) (show 0x40 ≤ 0x41 by decide)

/-- The site's wait that alone is left ends. -/
theorem Block.endSiteWaits_of_one {b : Block} {n t core ctx k : Nat} {w : SyncWait} {st : Status} {q : SyncWait → Bool}
    (hwaits : b.sync.waits = [(k, [w])]) (hwho : w.who = .site n t core ctx) (hq : q w = true) (hup : b.linkUp n = true)
    (hidle : (b.site n).txq = []) : b.WaitEnds (b.endSiteWaits n st q) n t st := by
  have hend : b.endSiteWaits n st q = ({ b with sync := { b.sync with waits := [] } } : Block).siteResp n t st := by
    simp [Block.endSiteWaits, Block.dropWaits, hwaits, hwho, hq]
  rw [hend]
  have hsends := Block.siteResp_answers (b := { b with sync := { b.sync with waits := [] } }) hup hidle t st
  generalize ({ b with sync := { b.sync with waits := [] } } : Block).siteResp n t st = c at *
  have hsite := hsends.site
  rw [Block.site_setSite_same] at hsite
  exact {
    rest := by rw [hsends.rest]; rfl
    sites := fun i hi => (hsends.only.sites i hi).trans (Block.site_setSite_of_ne _ _ hi)
    packets := (Block.packetsTo_of_out n rfl rfl).trans hsends.packetsTo
    tag := by rw [hsite]; simp }

end Sys2Proof.Machine
end

section
/-! SUPPORT. The commands by which a site answers the hub (R177, R186, R189, R190, R192, R196). -/

namespace Sys2Proof.Machine

/-! ### A packet that is no request, as a command -/

section
variable {s : State} {site : SiteNo} (hlink : s.blk.linkState site = Link.ENROLLED) (henrolled : s.blk.enrolled site = true)
include hlink henrolled

/-- A command that takes in a listed packet, no request, yields what holds of the block once it is served. -/
theorem yields_of_packetIn {c : Instr} {p : Packet} {run g : Block → Block} {q : State → Prop}
    (hexec : exec c s = .next (s.upd fun b => g (b.packetIn site p run))) (hfree : p.Free) (hnop : p.op ≠ 0) (hburgee : p.op ≠ 0x29)
    (hunits : Swp.units p.op p.len = some p.units) (hq : ∀ b, s.blk.Received b site → q { s with blk := g (run b) }) : Yields c s q := by
  obtain ⟨b, hb, hrun⟩ := Block.packetIn_free run hfree hlink henrolled hnop hburgee hunits
  exact yields_of_upd hexec (congrArg g hrun) (hq b hb)

variable {h : PacketHdr} {data : List Byte} {q : State → Prop}

theorem yields_of_rdData (hq : ∀ b, s.blk.Received b site → q { s with blk := b.rdData site (Packet.of 0x40 h data) }) :
    Yields (.rdData site h data) s q :=
  yields_of_packetIn (g := id) hlink henrolled (exec_rdData ..) (.inl rfl) (show (0x40 : Nat) ≠ 0 by decide) (show (0x40 : Nat) ≠ 0x29 by decide) rfl hq

theorem yields_of_resp (hq : ∀ b, s.blk.Received b site → q { s with blk := (b.resp site (Packet.of 0x41 h [])).answered }) :
    Yields (.resp site h) s q :=
  yields_of_packetIn (g := Block.answered) hlink henrolled (exec_resp ..) (.inl rfl) (show (0x41 : Nat) ≠ 0 by decide)
    (show (0x41 : Nat) ≠ 0x29 by decide) rfl hq

theorem yields_of_done {count : Word}
    (hq : ∀ b, s.blk.Received b site → q { s with blk := (b.done site (Packet.of 0x48 h (natLE 16 count.toNat))).answered }) :
    Yields (.done site h count) s q :=
  yields_of_packetIn (g := Block.answered) hlink henrolled (exec_done ..) (.inl rfl) (show (0x48 : Nat) ≠ 0 by decide)
    (show (0x48 : Nat) ≠ 0x29 by decide) rfl hq

theorem yields_of_credit {rq rd sn : BitVec 8} (hq : ∀ b, s.blk.Received b site → q { s with blk := b.takeCredits site rq.toNat rd.toNat sn.toNat }) :
    Yields (.credit site rq rd sn) s q :=
  yields_of_packetIn (g := id) hlink henrolled (exec_credit ..) (.inr rfl) (show (0x7F : Nat) ≠ 0 by decide) (show (0x7F : Nat) ≠ 0x29 by decide) rfl hq

end

/-! ### Window requests (R192, R196) -/

/-- A tag of the hub's is free again, and no other has changed. -/
def State.Freed (s t : State) (n tag : Nat) : Prop :=
  t.blk.tag n tag = none ∧ (∀ k, k ≠ tag → t.blk.tag n k = s.blk.tag n k) ∧ s.blk.SitesKept t.blk n

/-- A window request has ended with `st` and `ds`. -/
def State.WindowDone (s t : State) (site : SiteNo) (tag : Nat) (n : ExtNeed) (st : Nat) (ds : List Byte) : Prop :=
  s.Freed t site tag ∧ t.blk.ext = { s.blk.ext with sent := [], done := s.blk.ext.done ++ [⟨n, st, ds⟩] } ∧
    t = { s with blk := { s.blk with regs := t.blk.regs, sites := t.blk.sites, ext := t.blk.ext, fc := t.blk.fc } }

/-- A window request that ends in what was received ends in the state. -/
theorem Block.Received.windowDone {s : State} {site : SiteNo} {b b' c d : Block} {t : Nat} {n : ExtNeed} {st : Nat} {ds : List Byte}
    (hb : s.blk.Received b site) (hb' : b' = { b with fc := b'.fc }) (hends : b'.WindowEnds c site t n st ds) (hd : c.ShowsFaults d) :
    s.WindowDone { s with blk := d } site t n st ds := by
  have hsite (k : Nat) : d.site k = c.site k := Block.site_of_sites (by rw [hd.rest]) k
  have htag (k : Nat) : d.tag site k = c.tag site k := by rw [Block.tag, hsite, Block.tag]
  have hb's (k : Nat) : b'.site k = s.blk.site k := (Block.site_of_sites (by rw [hb']) k).trans (hb.site k)
  refine ⟨⟨(htag t).trans hends.tag, fun k hk => ?_, fun k hk => (hsite k).trans ((hends.sites k hk).trans (hb's k))⟩, ?_, ?_⟩
  · show d.tag site k = _
    rw [htag, hends.tags k hk, Block.tag, hb's, Block.tag]
  · show d.ext = _
    have hext : b'.ext = s.blk.ext := by rw [hb', hb.rest]
    rw [hd.rest, hends.rest, ← hext]
  · have hrest : d = { s.blk with regs := d.regs, sites := d.sites, ext := d.ext, fc := d.fc } := by
      rw [hd.rest, hends.rest, hb', hb.rest]
    exact congrArg (fun b : Block => { s with blk := b }) hrest

/-- A pennant opens no record and starts no recovery. -/
theorem Block.pennant_records (b : Block) (src k aux a : Nat) :
    (b.pennant src k aux a).fc.opened = b.fc.opened ∧ (b.pennant src k aux a).fc.recoveries = b.fc.recoveries := by
  unfold Block.pennant Block.pennantN FaultState.pennant
  dsimp only
  split <;> exact ⟨rfl, rfl⟩

theorem Block.unspecified_records (b : Block) (src st : Nat) :
    (b.unspecified src st).fc.opened = b.fc.opened ∧ (b.unspecified src st).fc.recoveries = b.fc.recoveries := by
  unfold Block.unspecified
  split
  · exact b.pennant_records ..
  · exact ⟨rfl, rfl⟩

section
variable {s : State} {site : SiteNo} {h : PacketHdr} (hlink : s.blk.linkState site = Link.ENROLLED) (henrolled : s.blk.enrolled site = true)

section
variable {n : ExtNeed} {at' : Nat} (hu : s.blk.tag site h.tag.toNat = some ⟨.window n, at', false⟩) (hsent : s.blk.ext.sent = [n])
include hu hsent

/-- A window request that is not answered in time ends; its tag stays in use (R192). -/
theorem windowReqTimeout_ends : Yields (.windowReqTimeout site h.tag) s fun t =>
    t.blk.tag site h.tag.toNat = some ⟨.window n, at', true⟩ ∧
    t.blk.ext = { s.blk.ext with sent := [], done := s.blk.ext.done ++ [⟨n, Code.SWP_RESP_TIMEOUT, []⟩] } ∧
    t = { s with blk := { s.blk with sites := t.blk.sites, ext := t.blk.ext } } ∧ s.blk.SitesKept t.blk site := by
  let b := s.blk.setTag site h.tag.toNat (some ⟨.window n, at', true⟩)
  refine yields_of_upd (exec_windowReqTimeout ..) (d := b.extDone n Code.SWP_RESP_TIMEOUT []) (by simp [hu, b]) ?_
  have htag : b.tag site h.tag.toNat = some ⟨.window n, at', true⟩ := s.blk.tag_setTag_same ..
  have hrecord : s.blk.RecordOnly b site := (Block.RecordOnly.refl s.blk site).setTag ..
  generalize b = b at *
  have hext : b.ext = s.blk.ext := by rw [hrecord.rest]
  rw [Block.extDone_alone (by rw [hext, hsent]), hext]
  have hrest : ({ b with ext := { s.blk.ext with sent := [], done := s.blk.ext.done ++ [⟨n, Code.SWP_RESP_TIMEOUT, []⟩] } } : Block) =
      { s.blk with sites := b.sites, ext := { s.blk.ext with sent := [], done := s.blk.ext.done ++ [⟨n, Code.SWP_RESP_TIMEOUT, []⟩] } } := by
    rw [hrecord.rest]
  exact ⟨htag, rfl, congrArg (fun b : Block => { s with blk := b }) hrest, hrecord.sites⟩

variable (howed : (s.blk.site site).owed = [])
include howed hlink henrolled

/-- Data ends a read of a window (R192). -/
theorem rdData_ends {data : List Byte} (hop : n.op = .read) : Yields (.rdData site h data) s fun t =>
    s.WindowDone t site h.tag.toNat n Code.SUCCESS (sliceBytes data 0 n.len) ∧
    s.blk.FieldsKept t.blk [Reg.ST_SWP_PKT_RX.COUNT site] ∧ t.blk.fc = s.blk.fc :=
  yields_of_rdData hlink henrolled fun b hb => by
    have hends := Block.rdData_window (p := Packet.of 0x40 h data) (by rw [hb.site, howed]) (by rw [hb.ext, hsent]) ((hb.tag ..).trans hu) hop
    refine ⟨hb.windowDone rfl hends (.refl _), hb.fields.of_regs ?_, ?_⟩
    · rw [hends.rest]
    · show (b.rdData site (Packet.of 0x40 h data)).fc = _
      rw [hends.rest]
      exact hb.fc

/-- Data for a request that is no read ends it as a bad packet, and names the site (R196). -/
theorem rdData_breaches {data : List Byte} (hop : n.op ≠ .read) : Yields (.rdData site h data) s fun t =>
    s.WindowDone t site h.tag.toNat n Code.SWP_BAD_PACKET [] ∧ s.blk.FieldsKept t.blk [Reg.ST_SWP_PKT_RX.COUNT site] ∧
    s.blk.Raised t.blk (Src.site site) Kind.SWP_BREACH h.tag.toNat 0x40 :=
  yields_of_rdData hlink henrolled fun b hb => by
    have hends := Block.rdData_window_breach (p := Packet.of 0x40 h data) (by rw [hb.site, howed]) (by rw [hb.ext, hsent])
      ((hb.tag ..).trans hu) hop
    refine ⟨hb.windowDone rfl hends (.refl _), hb.fields.of_regs ?_, ?_⟩
    · rw [hends.rest]
      rfl
    · show (b.rdData site (Packet.of 0x40 h data)).fc = _
      rw [hends.rest]
      exact Block.pennant_fc_of_eq _ _ _ _ hb.fc hb.now

variable (hopened : s.blk.fc.opened = []) (hrecoveries : s.blk.fc.recoveries = [])
include hopened hrecoveries

/-- A status ends a window request (R192). -/
theorem resp_ends (hst : n.op ≠ .read ∨ h.param ≠ 0) : Yields (.resp site h) s fun t =>
    s.WindowDone t site h.tag.toNat n (if h.param.toNat / 256 ≤ 0x13 then h.param.toNat else Code.SWP_WINDOW_ERROR) [] :=
  yields_of_resp hlink henrolled fun b hb => by
    have hends := Block.resp_window (p := Packet.of 0x41 h []) (by rw [hb.site, howed]) (by rw [hb.ext, hsent]) ((hb.tag ..).trans hu)
      (hst.imp_right fun hne hzero => hne (BitVec.eq_of_toNat_eq hzero))
    have hfc : (b.resp site (Packet.of 0x41 h [])).fc = (b.unspecified (Src.site site) (Packet.of 0x41 h []).param).fc := by rw [hends.rest]
    obtain ⟨ho, hr⟩ := b.unspecified_records (Src.site site) (Packet.of 0x41 h []).param
    exact hb.windowDone (b.unspecified_rest ..) hends
      (Block.answered_shows (by rw [hfc, ho, hb.fc, hopened]) (by rw [hfc, hr, hb.fc, hrecoveries]))

end

end

end Sys2Proof.Machine
end

section
/-! SUPPORT. The rest of the answers: a tag's next request, late answers, dispatches, CANCEL, CREDIT and waits (R176, R177, R186,
R189, R190). -/

namespace Sys2Proof.Machine

section
variable {s : State} {site : SiteNo} {h : PacketHdr} (hlink : s.blk.linkState site = Link.ENROLLED) (henrolled : s.blk.enrolled site = true)
include hlink henrolled

/-- An answer for which no request waits is only counted (R177). -/
theorem rdData_late {data : List Byte} (hu : s.blk.tag site h.tag.toNat = none) : Yields (.rdData site h data) s fun t =>
    t.blk.rd (Reg.ST_SWP_LATE_RSP.COUNT site) = satAdd (Reg.ST_SWP_LATE_RSP.COUNT site).w (s.blk.rd (Reg.ST_SWP_LATE_RSP.COUNT site)) 1 ∧
    s.blk.FieldsKept t.blk [Reg.ST_SWP_PKT_RX.COUNT site, Reg.ST_SWP_LATE_RSP.COUNT site] ∧
    (∀ k, t.blk.tag site k = s.blk.tag site k) ∧
    t = { s with blk := { s.blk with regs := t.blk.regs, sites := t.blk.sites } } ∧ s.blk.SitesKept t.blk site :=
  yields_of_rdData hlink henrolled fun b hb => by
    have hwide : (Reg.ST_SWP_LATE_RSP.COUNT site).lo + (Reg.ST_SWP_LATE_RSP.COUNT site).w ≤ 64 := by
      simp [Reg.ST_SWP_LATE_RSP.COUNT]
    have hrd : b.rd (Reg.ST_SWP_LATE_RSP.COUNT site) = s.blk.rd (Reg.ST_SWP_LATE_RSP.COUNT site) :=
      hb.fields _ hwide (by simp [Fld.Apart, Reg.ST_SWP_LATE_RSP.COUNT, Reg.ST_SWP_PKT_RX.COUNT])
    rw [Block.rdData_late (p := Packet.of 0x40 h data) ((hb.tag ..).trans hu)]
    have hrest : b.count (Reg.ST_SWP_LATE_RSP.COUNT site) 1 = { s.blk with
        regs := (b.count (Reg.ST_SWP_LATE_RSP.COUNT site) 1).regs, sites := (b.count (Reg.ST_SWP_LATE_RSP.COUNT site) 1).sites } := by
      rw [hb.rest]
      rfl
    exact ⟨(b.rd_count_same _ 1 hwide).trans (by rw [hrd]), (hb.fields.mono (by simp)).count _ _ (by simp), fun k => hb.tag site k,
      congrArg (fun b : Block => { s with blk := b }) hrest, fun k _ => hb.site k⟩

section
variable (hopened : s.blk.fc.opened = []) (hrecoveries : s.blk.fc.recoveries = [])
include hopened hrecoveries

/-- The request that waited longest for a tag takes the one that an answer frees (R177). -/
theorem resp_hands_on {n : ExtNeed} {at' : Nat} (hu : s.blk.tag site h.tag.toNat = some ⟨.window n, at', false⟩)
    (hused : s.blk.freeTag site 4096 = none) (hidle : (s.blk.site site).txq = []) {r : HubReq} (hr : (s.blk.site site).owed.head? = some r)
    (hallow : (s.blk.site site).credits.allow r.packet = true) (hne : h.param ≠ 0) : Yields (.resp site h) s fun t =>
      t.blk.tag site h.tag.toNat = some ⟨r.use, s.blk.now, false⟩ ∧ (t.blk.site site).owed = (s.blk.site site).owed.drop 1 ∧
      s.blk.packetsTo t.blk site = [{ r.packet with tag := h.tag.toNat }] ∧ s.blk.SitesKept t.blk site :=
  yields_of_resp hlink henrolled fun b hb => by
    have hresp := Block.resp_of_window (p := Packet.of 0x41 h []) ((hb.tag ..).trans hu)
      (.inr fun hzero => hne (BitVec.eq_of_toNat_eq hzero))
    obtain ⟨ho, hrec⟩ := b.unspecified_records (Src.site site) (Packet.of 0x41 h []).param
    have hrest := b.unspecified_rest (Src.site site) (Packet.of 0x41 h []).param
    have hup : b.linkUp site = true := by simp [Block.linkUp, hb.linkState, hlink]
    obtain ⟨rs, hrs⟩ := List.head?_eq_some_iff.mp hr
    generalize b.unspecified (Src.site site) (Packet.of 0x41 h []).param = c at *
    have hsite (k : Nat) : c.site k = s.blk.site k := (Block.site_of_sites (by rw [hrest]) k).trans (hb.site k)
    have htakes := Block.freeTagOf_owed (b := c) h.tag.isLt (by rw [hsite, hrs]) ((Block.freeTag_of_tags (by rw [hsite]) _).trans hused)
      ((show c.linkUp site = b.linkUp site by rw [hrest]; rfl).trans hup) (by rw [hsite, hidle]) (by rw [hsite]; exact hallow)
    have hkept : (b.resp site (Packet.of 0x41 h [])).fc = (c.freeTagOf site h.tag.toNat).fc ∧
        (b.resp site (Packet.of 0x41 h [])).sites = (c.freeTagOf site h.tag.toNat).sites ∧
        (b.resp site (Packet.of 0x41 h [])).out = (c.freeTagOf site h.tag.toNat).out := by
      rw [hresp]
      exact ⟨rfl, rfl, rfl⟩
    obtain ⟨hfc, hsites, hout⟩ := hkept
    generalize b.resp site (Packet.of 0x41 h []) = e at *
    generalize c.freeTagOf site h.tag.toNat = f at *
    have hcfc : e.fc = c.fc := by rw [hfc, htakes.rest]
    have hanswered := Block.answered_shows (b := e) (by rw [hcfc, ho, hb.fc, hopened]) (by rw [hcfc, hrec, hb.fc, hrecoveries])
    generalize e.answered = e' at *
    have hanswer (k : Nat) : e'.site k = f.site k := (Block.site_of_sites (by rw [hanswered.rest]) k).trans (Block.site_of_sites hsites k)
    have hsent : e'.out = f.out := (show e'.out = e.out by rw [hanswered.rest]).trans hout
    refine ⟨?_, ?_, ?_, fun k hk => (hanswer k).trans ((htakes.sites k hk).trans (hsite k))⟩
    · show e'.tag _ _ = _
      rw [Block.tag, hanswer, ← Block.tag, htakes.tag, hrest, hb.now]
    · show (e'.site _).owed = _
      rw [hanswer, htakes.owed, hrs, List.drop_one, List.tail_cons]
    · exact (Block.packetsTo_of_out _ (by rw [hrest, hb.out]) hsent).trans htakes.packets

section
variable {at' : Nat} {d : Dispatch} (hu : s.blk.tag site h.tag.toNat = some ⟨.dispatch, at', false⟩)
  (hd : s.blk.dispatchOf site h.tag.toNat = some d) (howed : (s.blk.site site).owed = [])
include hu hd howed

/-- DONE ends its dispatch (R189). -/
theorem done_ends {count : Word} : Yields (.done site h count) s fun t =>
    s.Freed t site h.tag.toNat ∧ t.blk.dispatchOf site h.tag.toNat = none ∧
    (d.cancelled = true ∨ s.blk.gen d.slice ≠ d.gen → t.blk.queues = s.blk.queues) ∧
    (d.cancelled = false → s.blk.gen d.slice = d.gen → s.blk.Reported t.blk ⟨d.slice, d.gen, d.epoch, d.queue, d.id, d.ensign, []⟩
      (if 0x13 < h.param.toNat / 256 ∨ h.param = 0 ∧ NSet.has (s.blk.site site).fencedCores h.core then Code.SWP_WORK_FAILED
        else h.param.toNat) count.toNat) ∧
    t = { s with blk := { s.blk with regs := t.blk.regs, sites := t.blk.sites, queues := t.blk.queues, fc := t.blk.fc } } :=
  yields_of_done hlink henrolled fun b hb => by
    have hends := Block.done_ends (p := Packet.of 0x48 h (natLE 16 count.toNat)) ((hb.tag ..).trans hu) ((hb.dispatchOf ..).trans hd)
      (by rw [hb.site, howed])
    obtain ⟨ho, hrec⟩ := b.unspecified_records (Src.site site) (Packet.of 0x48 h (natLE 16 count.toNat)).param
    have hrest := b.unspecified_rest (Src.site site) (Packet.of 0x48 h (natLE 16 count.toNat)).param
    generalize b.unspecified (Src.site site) (Packet.of 0x48 h (natLE 16 count.toNat)).param = c at *
    generalize b.done site (Packet.of 0x48 h (natLE 16 count.toNat)) = e at *
    have hfc : e.fc = c.fc := by rw [hends.rest]
    have hanswered := Block.answered_shows (b := e) (by rw [hfc, ho, hb.fc, hopened]) (by rw [hfc, hrec, hb.fc, hrecoveries])
    generalize e.answered = e' at *
    have hsite (k : Nat) : c.site k = s.blk.site k := (Block.site_of_sites (by rw [hrest]) k).trans (hb.site k)
    have hanswer (k : Nat) : e'.site k = e.site k := Block.site_of_sites (by rw [hanswered.rest]) k
    have hgen : c.gen d.slice = s.blk.gen d.slice := by
      rw [← hb.gen, hrest]
      rfl
    have hqueues : c.queues = s.blk.queues := by rw [hrest, hb.rest]
    refine ⟨⟨?_, fun k hk => ?_, fun k hk => (hanswer k).trans ((hends.sites k hk).trans (hsite k))⟩, ?_, fun hquiet => ?_, fun hlive hsame => ?_, ?_⟩
    · show e'.tag _ _ = _
      rw [Block.tag, hanswer]
      exact hends.tag
    · show e'.tag _ _ = _
      rw [Block.tag, hanswer, ← Block.tag, hends.tags k hk, Block.tag, hsite, Block.tag]
    · show e'.dispatchOf _ _ = _
      rw [Block.dispatchOf, hanswer]
      exact hends.context
    · show e'.queues = _
      rw [hanswered.rest]
      exact (hends.quiet (by rwa [hgen])).trans hqueues
    · obtain ⟨hqueue, hothers⟩ := hends.reported hlive (by rwa [hgen])
      have hc (k : Nat) : c.queue k = s.blk.queue k := by rw [Block.queue, hqueues, Block.queue]
      have he (k : Nat) : e'.queue k = e.queue k := by rw [Block.queue, hanswered.rest, Block.queue]
      have hword : leAt (Packet.of 0x48 h (natLE 16 count.toNat)).data 0 8 = count.toNat := leAt_natLE_word count
      have hzero : (Packet.of 0x48 h (natLE 16 count.toNat)).param = 0 ↔ h.param = 0 :=
        ⟨fun hz => BitVec.eq_of_toNat_eq hz, congrArg BitVec.toNat⟩
      refine ⟨?_, fun k hk => (he k).trans ((hothers k hk).trans (hc k))⟩
      show e'.queue _ = _
      rw [he, hqueue, hc, hword, hb.site]
      simp only [hzero]
      rfl
    · have hall : e' = { s.blk with regs := e'.regs, sites := e'.sites, queues := e'.queues, fc := e'.fc } := by
        rw [hanswered.rest, hends.rest, hrest, hb.rest]
      exact congrArg (fun b : Block => { s with blk := b }) hall

end

end

end

/-! ### Requests that are not answered in time, credits and waits -/

section
variable {s : State} {site : SiteNo}

/-- A dispatch that is not done in time is reported and cancelled (R190). -/
theorem dispatchTimeout_cancels {tag : BitVec 12} {d : Dispatch} {c : Nat} (hlink : s.blk.linkState site = Link.ENROLLED)
    (hd : s.blk.dispatchOf site tag.toNat = some d) (howed : (s.blk.site site).owed = []) (hlive : d.cancelled = false)
    (hidle : (s.blk.site site).txq = []) (hreq : (s.blk.site site).credits.hubReqH ≠ 0) (hwaits : s.blk.sync.waits = [])
    (hc : s.blk.freeTag site 4096 = some c) : Yields (.dispatchTimeout site tag) s fun t =>
      t.blk.dispatchOf site tag.toNat = some { d with cancelled := true } ∧
      s.blk.Reported t.blk ⟨d.slice, d.gen, d.epoch, d.queue, d.id, d.ensign, []⟩ Code.SWP_DISPATCH_TIMEOUT 0 ∧
      t.blk.tag site c = some ⟨.cancel tag.toNat (d.core.getD 0), s.blk.now, false⟩ ∧
      s.blk.packetsTo t.blk site = [{ Packet.cancel tag.toNat with tag := c }] ∧ s.blk.SitesKept t.blk site ∧
      t = { s with blk := { s.blk with
        regs := t.blk.regs, queues := t.blk.queues, sites := t.blk.sites, sync := t.blk.sync, out := t.blk.out } } := by
  have hup : s.blk.linkUp site = true := by simp [Block.linkUp, hlink]
  let j : Job := ⟨d.slice, d.gen, d.epoch, d.queue, d.id, d.ensign, []⟩
  have hcancels := Block.cancelDispatch_sends (b := s.blk.reportCmd d.queue d.id Code.SWP_DISPATCH_TIMEOUT 0) hd hlive hwaits howed hup hidle hreq hc
  obtain ⟨hqueue, hothers⟩ := Block.reportCmd_reported (b := s.blk) (j := j) (st := Code.SWP_DISPATCH_TIMEOUT) (cnt := 0)
  refine yields_of_upd (exec_dispatchTimeout ..)
    (d := (s.blk.reportCmd d.queue d.id Code.SWP_DISPATCH_TIMEOUT 0).cancelDispatch site tag.toNat) (by simp [hd, hlive]) ?_
  have hsame (k : Nat) : ((s.blk.reportCmd d.queue d.id Code.SWP_DISPATCH_TIMEOUT 0).cancelDispatch site tag.toNat).queue k =
      (s.blk.reportCmd d.queue d.id Code.SWP_DISPATCH_TIMEOUT 0).queue k := by
    rw [Block.queue, hcancels.rest, Block.queue]
  generalize (s.blk.reportCmd d.queue d.id Code.SWP_DISPATCH_TIMEOUT 0).cancelDispatch site tag.toNat = e at *
  have hrest : e = { s.blk with regs := e.regs, queues := e.queues, sites := e.sites, sync := e.sync, out := e.out } := by
    rw [hcancels.rest]
    rfl
  exact ⟨hcancels.context, ⟨(hsame _).trans hqueue, fun k hk => (hsame k).trans (hothers k hk)⟩, hcancels.tag, hcancels.packets,
    hcancels.sites, congrArg (fun b : Block => { s with blk := b }) hrest⟩

/-- A dispatch that was cancelled is left alone (R190). -/
theorem dispatchTimeout_of_cancelled {tag : BitVec 12} {d : Dispatch} (hd : s.blk.dispatchOf site tag.toNat = some d) (hcancelled : d.cancelled = true) :
    exec (.dispatchTimeout site tag) s = .next s := by
  rw [exec_dispatchTimeout, execDispatchTimeout, State.upd]
  simp [hd, hcancelled]

/-- A CANCEL that is not answered in time names the core; its tag stays in use (R190). -/
theorem cancelTimeout_raises {tag : BitVec 12} {ctx phys at' : Nat} (hopened : s.blk.fc.opened = []) (hrecoveries : s.blk.fc.recoveries = [])
    (hu : s.blk.tag site tag.toNat = some ⟨.cancel ctx phys, at', false⟩) : Yields (.cancelTimeout site tag) s fun t =>
      t.blk.tag site tag.toNat = some ⟨.cancel ctx phys, at', true⟩ ∧ s.blk.SitesKept t.blk site ∧
      (s.blk.pennant (Src.siteCore site phys) Kind.SITE_CORE_UNRESPONSIVE 0 0).fc.inQ = t.blk.fc.inQ ∧
      t = { s with blk := { s.blk with regs := t.blk.regs, sites := t.blk.sites, fc := t.blk.fc } } := by
  let b := (s.blk.setTag site tag.toNat (some ⟨.cancel ctx phys, at', true⟩)).pennant (Src.siteCore site phys) Kind.SITE_CORE_UNRESPONSIVE 0 0
  refine yields_of_upd (exec_cancelTimeout ..) (d := b.answered) (by simp [hu, b]) ?_
  have hrecord := (Block.RecordOnly.refl s.blk site).setTag tag.toNat (some ⟨.cancel ctx phys, at', true⟩)
  have htag := s.blk.tag_setTag_same site tag.toNat (some ⟨.cancel ctx phys, at', true⟩)
  obtain ⟨ho, hr⟩ := (s.blk.setTag site tag.toNat (some ⟨.cancel ctx phys, at', true⟩)).pennant_records (Src.siteCore site phys)
    Kind.SITE_CORE_UNRESPONSIVE 0 0
  have hraised : b.fc = (s.blk.pennant (Src.siteCore site phys) Kind.SITE_CORE_UNRESPONSIVE 0 0).fc := Block.pennant_fc_of_eq _ _ _ _ rfl rfl
  have hb : b = { s.blk.setTag site tag.toNat (some ⟨.cancel ctx phys, at', true⟩) with fc := b.fc } := rfl
  have hanswered := Block.answered_shows (b := b) (ho.trans hopened) (hr.trans hrecoveries)
  generalize b = b at *
  generalize s.blk.setTag site tag.toNat (some ⟨.cancel ctx phys, at', true⟩) = c at *
  generalize b.answered = e at *
  have hsite (k : Nat) : e.site k = c.site k := Block.site_of_sites (by rw [hanswered.rest, hb]) k
  have hrest : e = { s.blk with regs := e.regs, sites := e.sites, fc := e.fc } := by
    rw [hanswered.rest, hb, hrecord.rest]
  refine ⟨?_, fun k hk => (hsite k).trans (hrecord.sites k hk), ?_, congrArg (fun b : Block => { s with blk := b }) hrest⟩
  · show e.tag _ _ = _
    rw [Block.tag, hsite]
    exact htag
  · rw [← hraised]
    exact hanswered.inQ.symm

/-- CREDIT returns credits to the hub (R176). -/
theorem credit_taken (hlink : s.blk.linkState site = Link.ENROLLED) (henrolled : s.blk.enrolled site = true) (rq rd sn : BitVec 8)
    (hidle : (s.blk.site site).txq = []) : Yields (.credit site rq rd sn) s fun t =>
      (t.blk.site site).credits = { (s.blk.site site).credits with
        hubReqH := (s.blk.site site).credits.hubReqH + rq.toNat, hubReqD := (s.blk.site site).credits.hubReqD + rd.toNat
        hubSnpH := (s.blk.site site).credits.hubSnpH + sn.toNat } ∧
      t = { s with blk := { s.blk with regs := t.blk.regs, sites := t.blk.sites } } ∧ s.blk.SitesKept t.blk site ∧
      s.blk.FieldsKept t.blk [Reg.ST_SWP_PKT_RX.COUNT site] :=
  yields_of_credit hlink henrolled fun b hb => by
    obtain ⟨hrecord, hcredits⟩ := Block.takeCredits_idle (b := b) (n := site) (by rw [hb.site, hidle]) rq.toNat rd.toNat sn.toNat
    generalize b.takeCredits site rq.toNat rd.toNat sn.toNat = c at *
    have hrest : c = { s.blk with regs := c.regs, sites := c.sites } := by rw [hrecord.rest, hb.rest]
    exact ⟨hcredits.trans (by rw [hb.site]), congrArg (fun b : Block => { s with blk := b }) hrest,
      fun k hk => (hrecord.sites k hk).trans (hb.site k), hb.fields.of_regs (by rw [hrecord.rest])⟩

/-- A site's wait that runs out is answered (R186). -/
theorem siteWaitTimeout_answers {tag : BitVec 12} {w : SyncWait} {k core ctx : Nat} (hlink : s.blk.linkState site = Link.ENROLLED)
    (hwaits : s.blk.sync.waits = [(k, [w])]) (hwho : w.who = .site site tag.toNat core ctx) (hopen : w.satisfied = false) (hlimit : w.limitUs ≠ 0)
    (hidle : (s.blk.site site).txq = []) : Yields (.siteWaitTimeout site tag) s fun t =>
      t.blk.sync.waits = [] ∧ t.blk.sync.vals = s.blk.sync.vals ∧
      s.blk.packetsTo t.blk site = [Packet.short 0x41 tag.toNat 0 0 Code.SYNC_WAIT_TIMEOUT] ∧
      NSet.has (t.blk.site site).siteTags tag.toNat = false ∧ s.blk.SitesKept t.blk site ∧
      t = { s with blk := { s.blk with regs := t.blk.regs, sites := t.blk.sites, sync := t.blk.sync, out := t.blk.out } } := by
  have hup : s.blk.linkUp site = true := by simp [Block.linkUp, hlink]
  have hends := Block.endSiteWaits_of_one (st := Code.SYNC_WAIT_TIMEOUT) (q := fun w => !w.satisfied && decide (w.limitUs ≠ 0) &&
    (match w.who with
      | .site _ t _ _ => decide (t = tag.toNat)
      | _ => false)) hwaits hwho (by simp [hopen, hlimit, hwho]) hup hidle
  refine yields_of_upd (exec_siteWaitTimeout ..) rfl ?_
  generalize s.blk.endSiteWaits site Code.SYNC_WAIT_TIMEOUT _ = c at *
  have hsync : c.sync = { s.blk.sync with waits := [] } := by rw [hends.rest]
  have hrest : c = { s.blk with regs := c.regs, sites := c.sites, sync := c.sync, out := c.out } := by rw [hends.rest]
  exact ⟨by rw [hsync], by rw [hsync], hends.packets, hends.tag, hends.sites, congrArg (fun b : Block => { s with blk := b }) hrest⟩

end

end Sys2Proof.Machine
end

section
/-! SUPPORT. The memory works beside the sites and the boot path: what it does depends on neither and changes neither. First the
operations they share, then the shelf (02, R24–R35). -/

namespace Sys2Proof.Machine

/-- `b` beside the sites and the boot state of `c`. -/
def Block.aside (b c : Block) : Block := { b with sites := c.sites, boot := c.boot }

/-- The same of a block that is carried with an answer. -/
def Block.asideFst {α : Type} (c : Block) (q : Block × α) : Block × α := (q.1.aside c, q.2)

@[simp] theorem Block.asideFst_fst {α : Type} (c : Block) (q : Block × α) : (c.asideFst q).1 = q.1.aside c := rfl
@[simp] theorem Block.asideFst_snd {α : Type} (c : Block) (q : Block × α) : (c.asideFst q).2 = q.2 := rfl
@[simp] theorem Block.asideFst_mk {α : Type} (c b : Block) (x : α) : c.asideFst (b, x) = (b.aside c, x) := rfl

section
variable (b c : Block)

@[simp] theorem Block.rd_aside (f : Fld) : (b.aside c).rd f = b.rd f := rfl
@[simp] theorem Block.is_aside (f : Fld) : (b.aside c).is f = b.is f := rfl
@[simp] theorem Block.shelf_aside : (b.aside c).shelf = b.shelf := rfl
@[simp] theorem Block.hbm_aside : (b.aside c).hbm = b.hbm := rfl
@[simp] theorem Block.ext_aside : (b.aside c).ext = b.ext := rfl
@[simp] theorem Block.sync_aside : (b.aside c).sync = b.sync := rfl
@[simp] theorem Block.now_aside : (b.aside c).now = b.now := rfl

@[simp] theorem Block.aside_wr (f : Fld) (v : Nat) : (b.aside c).wr f v = (b.wr f v).aside c := rfl
@[simp] theorem Block.aside_count (f : Fld) (v : Nat) : (b.aside c).count f v = (b.count f v).aside c := rfl
@[simp] theorem Block.aside_emit (o : Out) : (b.aside c).emit o = (b.emit o).aside c := rfl
@[simp] theorem Block.aside_fresh : (b.aside c).fresh = c.asideFst b.fresh := rfl
@[simp] theorem Block.aside_pennant (s k x a : Nat) : (b.aside c).pennant s k x a = (b.pennant s k x a).aside c := rfl

theorem Block.ite_aside (p : Prop) [Decidable p] (b b' c : Block) :
    (if p then b.aside c else b'.aside c) = (if p then b else b').aside c := (apply_ite (fun b : Block => b.aside c) p b b').symm

theorem Block.ite_asideFst {α : Type} (p : Prop) [Decidable p] (c : Block) (q q' : Block × α) :
    (if p then c.asideFst q else c.asideFst q') = c.asideFst (if p then q else q') := (apply_ite c.asideFst p q q').symm

@[simp] theorem Block.aside_capture (valid overflow : Fld) (l : List (Fld × Nat)) :
    (b.aside c).capture valid overflow l = (b.capture valid overflow l).aside c := by
  have hall : l.foldl (fun acc f => acc.wr f.1 f.2) (b.aside c) = (l.foldl (fun acc f => acc.wr f.1 f.2) b).aside c :=
    List.foldl_hom (fun b : Block => b.aside c) fun b f => b.aside_wr c f.1 f.2
  simp only [Block.capture, hall, Block.is_aside, Block.aside_wr, apply_ite (fun b : Block => b.aside c)]

/-- A fold over a block. -/
theorem foldl_aside {α : Type} (l : List α) (f : Block → α → Block) (h : ∀ b a, f (b.aside c) a = (f b a).aside c) :
    l.foldl f (b.aside c) = (l.foldl f b).aside c := List.foldl_hom (fun b : Block => b.aside c) h

/-- A fold that carries a block beside its answer. -/
theorem foldl_asideFst {α β : Type} (l : List α) (f : Block × β → α → Block × β) (h : ∀ q a, f (c.asideFst q) a = c.asideFst (f q a))
    (q : Block × β) : l.foldl f (c.asideFst q) = c.asideFst (l.foldl f q) := List.foldl_hom c.asideFst h

/-! ### The shelf -/

@[simp] theorem Block.aside_shelfPhys (a : Nat) : (b.aside c).shelfPhys a = b.shelfPhys a := rfl
@[simp] theorem Block.aside_groupStruck (g : Nat) : (b.aside c).groupStruck g = b.groupStruck g := rfl
@[simp] theorem Block.aside_bankQueue (lb : Nat) : (b.aside c).bankQueue lb = b.bankQueue lb := rfl
@[simp] theorem Block.aside_cePennant (pb wa : Nat) : (b.aside c).cePennant pb wa = (b.cePennant pb wa).aside c := rfl
@[simp] theorem Block.aside_shelfStore (a : Nat) (d : List Byte) : (b.aside c).shelfStore a d = (b.shelfStore a d).aside c := rfl

@[simp] theorem Block.aside_setBankQueue (lb : Nat) (q : List BankReq) :
    (b.aside c).setBankQueue lb q = (b.setBankQueue lb q).aside c := rfl

@[simp] theorem Block.aside_shelfCorrect (wa : Nat) (rewrites : Bool) :
    (b.aside c).shelfCorrect wa rewrites = (b.shelfCorrect wa rewrites).aside c := by
  simp only [Block.shelfCorrect, Block.aside_count, Block.aside_fresh, Block.asideFst_fst, Block.asideFst_snd, Block.aside_capture,
    Block.aside_cePennant, Block.aside_shelfPhys, Block.shelf_aside]
  rfl

@[simp] theorem Block.aside_shelfPoisonFound (wa : Nat) : (b.aside c).shelfPoisonFound wa = (b.shelfPoisonFound wa).aside c := by
  simp only [Block.shelfPoisonFound, Block.aside_count, Block.aside_fresh, Block.asideFst_fst, Block.asideFst_snd, Block.aside_capture,
    Block.aside_pennant, Block.aside_shelfPhys, Block.shelf_aside]
  rfl

@[simp] theorem Block.aside_shelfCheckWord (rewrites again : Bool) (st : Status) (wa : Nat) :
    (b.aside c).shelfCheckWord rewrites again st wa = c.asideFst (b.shelfCheckWord rewrites again st wa) := by
  simp only [Block.shelfCheckWord, Block.aside_shelfCorrect, Block.aside_shelfPoisonFound, Block.shelf_aside, apply_ite c.asideFst,
    Block.asideFst_mk]

@[simp] theorem Block.aside_shelfCheck (op : MemOp) (again : Bool) (lo hi : Nat) (st : Status) :
    (b.aside c).shelfCheck op again lo hi st = c.asideFst (b.shelfCheck op again lo hi st) :=
  foldl_asideFst c _ _ (fun q _ => q.1.aside_shelfCheckWord c ..) (b, st)

@[simp] theorem Block.aside_shelfBeat (q : BankReq) : (b.aside c).shelfBeat q = c.asideFst (b.shelfBeat q) := by
  simp only [Block.shelfBeat, Block.aside_groupStruck, Block.aside_shelfCheck, ← apply_ite c.asideFst, Block.asideFst_fst,
    Block.asideFst_snd, Block.shelf_aside, Block.aside_shelfStore]
  split
  · rfl
  · cases q.req.op <;> grind [Block.asideFst]

@[simp] theorem Block.aside_bankServe (lb : Nat) : (b.aside c).bankServe lb = (b.bankServe lb).aside c := by
  unfold Block.bankServe
  simp only [Block.aside_bankQueue, Block.aside_shelfBeat]
  split
  · rfl
  · split
    · rfl
    · next r _ =>
      rcases b.shelfBeat r with ⟨b1, r1⟩
      by_cases hdone : 5 ≤ r1.done <;> simp [hdone]

@[simp] theorem Block.aside_bankClear (k lb lo len : Nat) :
    Block.bankClear k (b.aside c) lb lo len = (Block.bankClear k b lb lo len).aside c := by
  induction k generalizing b with
  | zero => rfl
  | succ k ih => simp only [Block.bankClear, Block.aside_bankQueue, Block.aside_bankServe, ih, apply_ite (fun b : Block => b.aside c)]

@[simp] theorem Block.aside_shelfClear (lo len : Nat) : (b.aside c).shelfClear lo len = (b.shelfClear lo len).aside c :=
  foldl_aside b c _ _ fun b e => b.aside_bankClear c _ e.1 lo len

@[simp] theorem Block.aside_shelfRun (k : Nat) (q : BankReq) :
    Block.shelfRun k (b.aside c) q = c.asideFst (Block.shelfRun k b q) := by
  induction k generalizing b q with
  | zero => rfl
  | succ k ih => simp only [Block.shelfRun, Block.aside_shelfBeat, Block.asideFst_fst, Block.asideFst_snd, ih, apply_ite c.asideFst,
      Block.asideFst_mk]

@[simp] theorem Block.aside_shelfAccess (r : MemReq) : (b.aside c).shelfAccess r = c.asideFst (b.shelfAccess r) := by
  simp only [Block.shelfAccess, Block.aside_shelfClear, Block.aside_shelfRun, Block.asideFst_fst, Block.asideFst_snd, Block.asideFst_mk]

@[simp] theorem Block.aside_shelfWriteBlock (a : Nat) (data : List Byte) (sl : Nat) :
    (b.aside c).shelfWriteBlock a data sl = c.asideFst (b.shelfWriteBlock a data sl) := by
  simp only [Block.shelfWriteBlock, Block.aside_groupStruck, Block.aside_shelfClear, Block.aside_shelfStore, Block.shelf_aside]
  split <;> rfl

end

end Sys2Proof.Machine
end

section
/-! SUPPORT. HBM works beside the sites and the boot path (02, R36–R54). -/

namespace Sys2Proof.Machine

section
variable (b c : Block)

/-! ### What it reads of itself -/

@[simp] theorem Block.aside_hbmNd : (b.aside c).hbmNd = b.hbmNd := rfl
@[simp] theorem Block.aside_chPhys (p : Place) : (b.aside c).chPhys p = b.chPhys p := rfl
@[simp] theorem Block.aside_chState (p : Place) : (b.aside c).chState p = b.chState p := rfl
@[simp] theorem Block.aside_readable : (b.aside c).readable = b.readable := rfl
@[simp] theorem Block.aside_writable (p : Place) : (b.aside c).writable p = b.writable p := rfl
@[simp] theorem Block.aside_granStored : (b.aside c).granStored = b.granStored := rfl
@[simp] theorem Block.aside_stripePlaces (m : Nat) : (b.aside c).stripePlaces m = b.stripePlaces m := rfl
@[simp] theorem Block.aside_rebuilt (m : Nat) (p : Place) : (b.aside c).rebuilt m p = b.rebuilt m p := rfl
@[simp] theorem Block.aside_regionAt (o : Nat) : (b.aside c).regionAt o = b.regionAt o := rfl
@[simp] theorem Block.aside_regionKey (r : Region) (sl : Option Nat) : (b.aside c).regionKey r sl = b.regionKey r sl := rfl
@[simp] theorem Block.aside_hbmWhere (o : Nat) : (b.aside c).hbmWhere o = b.hbmWhere o := rfl
@[simp] theorem Block.aside_pcOf (x : Nat) : (b.aside c).pcOf x = b.pcOf x := rfl
@[simp] theorem Block.aside_pc (k : Nat) : (b.aside c).pc k = b.pc k := rfl
@[simp] theorem Block.aside_dramHeld (x : Nat) : (b.aside c).dramHeld x = b.dramHeld x := rfl
@[simp] theorem Block.aside_stripe (m : Nat) : (b.aside c).stripe m = b.stripe m := rfl
@[simp] theorem Block.aside_stillOwed (o : Owed) : (b.aside c).stillOwed o = b.stillOwed o := rfl
@[simp] theorem Block.aside_stripeStatus (m x : Nat) : (b.aside c).stripeStatus m x = b.stripeStatus m x := rfl
@[simp] theorem Block.aside_lockWaits (g : Option Nat) (m : Nat) : (b.aside c).lockWaits g m = b.lockWaits g m := rfl
@[simp] theorem Block.aside_writeLocks (o len : Nat) : (b.aside c).writeLocks o len = b.writeLocks o len := rfl

/-! ### Granules -/

@[simp] theorem Block.aside_granPut (p : Place) (g : Gran) : (b.aside c).granPut p g = (b.granPut p g).aside c := rfl
@[simp] theorem Block.aside_dramNote (d : Dram) : (b.aside c).dramNote d = (b.dramNote d).aside c := rfl
@[simp] theorem Block.aside_dramDrop : (b.aside c).dramDrop = b.dramDrop.aside c := rfl
@[simp] theorem Block.aside_noteWrite (x : Nat) (m : Option Nat) : (b.aside c).noteWrite x m = (b.noteWrite x m).aside c := rfl
@[simp] theorem Block.aside_setLost (m : Nat) (v : Bool) : (b.aside c).setLost m v = (b.setLost m v).aside c := rfl
@[simp] theorem Block.aside_setPc (k : Nat) (v : PseudoChannel) : (b.aside c).setPc k v = (b.setPc k v).aside c := rfl
@[simp] theorem Block.aside_hbmCount (p : Place) (k : Nat) : (b.aside c).hbmCount p k = (b.hbmCount p k).aside c := rfl
@[simp] theorem Block.aside_hbmPennant (p : Place) (k x : Nat) : (b.aside c).hbmPennant p k x = (b.hbmPennant p k x).aside c := rfl
@[simp] theorem Block.aside_hbmLog (p : Place) (k : Nat) (r : Bool) : (b.aside c).hbmLog p k r = (b.hbmLog p k r).aside c :=
  b.aside_capture c ..

@[simp] theorem Block.aside_noteRead (x : Nat) (m : Option Nat) : (b.aside c).noteRead x m = (b.noteRead x m).aside c := by
  unfold Block.noteRead
  simp only [Block.hbm_aside, Block.aside_dramNote]
  split
  · split <;> rfl
  · rfl

@[simp] theorem Block.aside_noteOthers (m : Nat) (p : Place) : (b.aside c).noteOthers m p = (b.noteOthers m p).aside c :=
  foldl_aside b c _ _ fun b x => b.aside_noteRead c x (some m)

@[simp] theorem Block.aside_takeStackErr (p : Place) : (b.aside c).takeStackErr p = c.asideFst (b.takeStackErr p) := by
  simp only [Block.takeStackErr, Block.hbm_aside, Block.aside_chPhys, apply_ite c.asideFst, Block.asideFst_mk]
  rfl

@[simp] theorem Block.aside_attempt (p : Place) (x : Nat) (key : Option Nat) :
    (b.aside c).attempt p x key = c.asideFst (b.attempt p x key) := by
  simp only [Block.attempt, Block.aside_dramNote, Block.aside_takeStackErr, Block.asideFst_fst, Block.asideFst_snd,
    Block.aside_granStored, Block.aside_hbmCount, Block.asideFst_mk, apply_ite (fun b : Block => b.aside c)]

@[simp] theorem Block.aside_granRead (prot : Bool) (km : Nat) (key : Option Nat) (x : Nat) :
    (b.aside c).granRead prot km key x = c.asideFst (b.granRead prot km key x) := by
  simp only [Block.granRead, Block.aside_hbmNd, Block.aside_readable, Block.aside_rebuilt, Block.aside_attempt, Block.asideFst_fst,
    Block.asideFst_snd, Block.aside_noteOthers, Block.aside_hbmCount, Block.aside_hbmLog, Block.aside_hbmPennant,
    Block.aside_granStored, Block.aside_granPut, Block.aside_noteWrite, Block.ite_aside, ← Block.asideFst_mk, Block.ite_asideFst]
  split
  · split
    · rfl
    · split <;> rfl
  · split
    · rfl
    · split
      · rfl
      · split <;> grind

@[simp] theorem Block.aside_memberPut (m x : Nat) (g : Gran) : (b.aside c).memberPut m x g = (b.memberPut m x g).aside c := by
  simp only [Block.memberPut, Block.aside_hbmNd, Block.aside_writable, Block.aside_granPut, Block.aside_noteWrite,
    apply_ite (fun b : Block => b.aside c)]
  rfl

@[simp] theorem Block.aside_granReplace (prot : Bool) (x : Nat) (g : Gran) :
    (b.aside c).granReplace prot x g = c.asideFst (b.granReplace prot x g) := by
  cases prot
  · by_cases hwritable : b.writable (Hbm.place b.hbmNd x) <;> simp [Block.granReplace, hwritable]
  · unfold Block.granReplace
    dsimp -zeta only [Block.aside_hbmNd]
    extract_lets p m xp pp old note
    have hold (b1 : Block) (q : Place) : old (b1.aside c) q = old b1 q := rfl
    have hnote (b1 : Block) (y : Nat) (q : Place) : note (b1.aside c) y q = (note b1 y q).aside c := by
      simp only [note, Block.aside_readable, Block.aside_noteRead, Block.aside_noteOthers, Block.ite_aside]
    clear_value old note
    simp only [Block.hbm_aside, Block.aside_stripePlaces, Block.aside_readable, hold]
    cases hlost : NSet.has b.hbm.lost m && (b.stripePlaces m).all b.readable
    · rcases hp : old b p with - | o
      · by_cases hwritable : b.writable p <;> simp [hwritable]
      · rcases hpar : old b pp with - | g <;> simp +zetaDelta [hold, hpar, hnote]
    · simp +zetaDelta

end

end Sys2Proof.Machine
end

section
/-! SUPPORT. Whole accesses to HBM and its queues, beside the sites and the boot path (02, R43–R50). -/

namespace Sys2Proof.Machine

section
variable (b c : Block)

/-! ### Accesses -/

@[simp] theorem Block.aside_stripePut (m : Nat) (grans : List (Nat × Gran)) :
    (b.aside c).stripePut m grans = (b.stripePut m grans).aside c := by
  have hall : grans.foldl (fun b g => b.memberPut m g.1 g.2) (b.aside c) = (grans.foldl (fun b g => b.memberPut m g.1 g.2) b).aside c :=
    foldl_aside b c _ _ fun b g => b.aside_memberPut c m g.1 g.2
  simp only [Block.stripePut, hall, Block.aside_memberPut, Block.aside_setLost]

@[simp] theorem Block.aside_granWrite (prot : Bool) (km key x n : Nat) (f : List Byte → List Byte) (whole : Bool) :
    (b.aside c).granWrite prot km key x n f whole = c.asideFst (b.granWrite prot km key x n f whole) := by
  simp only [Block.granWrite, Block.aside_granReplace, Block.aside_hbmNd, Block.aside_chState, Block.aside_granRead]
  split
  · rfl
  · split
    · rfl
    · rcases b.granRead prot km (some key) (x / 256 * 256) with ⟨b1, st | g⟩
      · rfl
      · cases hg : g.plain key (x / 256 * 256) <;> simp [hg]

@[simp] theorem Block.aside_hbmSeal (r : Region) (key d : Nat) : (b.aside c).hbmSeal r key d = c.asideFst (b.hbmSeal r key d) := by
  simp only [Block.hbmSeal, Block.aside_granRead]
  rcases b.granRead r.prot r.keyMode (some key) _ with ⟨b1, st | g⟩
  · rfl
  · cases hg : g.plain key (r.sealSlotX (d / 4096) / 256 * 256) <;> simp [hg]

@[simp] theorem Block.aside_hbmSetSeals (r : Region) (key i : Nat) (sls : List Nat) :
    (b.aside c).hbmSetSeals r key i sls = c.asideFst (b.hbmSetSeals r key i sls) := by
  refine foldl_asideFst c _ _ (fun q j => ?_) (b, _)
  simp only [Block.asideFst_fst, Block.asideFst_snd, Block.aside_granWrite, Block.asideFst_mk]

@[simp] theorem Block.aside_hbmSetSeal (r : Region) (key d sl : Nat) :
    (b.aside c).hbmSetSeal r key d sl = c.asideFst (b.hbmSetSeal r key d sl) := b.aside_hbmSetSeals c ..

@[simp] theorem Block.aside_hbmAccess (sl : Option Nat) (o len : Nat) (op : MemOp) :
    (b.aside c).hbmAccess sl o len op = c.asideFst (b.hbmAccess sl o len op) := by
  unfold Block.hbmAccess
  simp only [Block.hbm_aside, Block.aside_regionAt, Block.aside_regionKey, Block.aside_granRead, Block.aside_granWrite]
  split
  · rfl
  · rcases b.regionAt o with - | r
    · rfl
    · cases hkey : b.regionKey r sl with
      | none => simp only [hkey]; rfl
      | some key =>
        simp only [hkey]
        cases op with
        | read =>
          dsimp only
          generalize Hbm.lineX r.prot r.dataX (o - r.base) / 256 * 256 = y
          rcases b.granRead r.prot r.keyMode (some key) y with ⟨b1, st | g⟩
          · rfl
          · cases hg : g.plain key y <;> simp [hg]
        | write data =>
          dsimp only
          generalize b.granWrite r.prot r.keyMode key _ len _ true = q
          by_cases hq : q.2 = Code.SUCCESS <;> simp [hq]
        | add f data =>
          dsimp only
          generalize b.granWrite r.prot r.keyMode key _ len _ false = q
          by_cases hq : q.2 = Code.SUCCESS <;> simp [hq]

@[simp] theorem Block.aside_hbmSealAt (sl : Option Nat) (o : Nat) : (b.aside c).hbmSealAt sl o = c.asideFst (b.hbmSealAt sl o) := by
  simp only [Block.hbmSealAt, Block.aside_regionAt, Block.aside_regionKey, Block.aside_hbmSeal]
  split
  · rfl
  · split <;> rfl

/-- A block's granules written one after another. -/
theorem Block.aside_granWrites (prot : Bool) (km key : Nat) (gs : List (Nat × List Byte)) (q : Block × Status) :
    let write (acc : Block × Status) (g : Nat × List Byte) : Block × Status :=
      let w := acc.1.granWrite prot km key g.1 256 (fun _ => g.2) true
      (w.1, if acc.2 = Code.SUCCESS then w.2 else acc.2)
    gs.foldl write (c.asideFst q) = c.asideFst (gs.foldl write q) := by
  intro write
  refine foldl_asideFst c _ _ (fun q g => ?_) q
  simp only [write, Block.asideFst_fst, Block.asideFst_snd, Block.aside_granWrite, Block.asideFst_mk]

@[simp] theorem Block.aside_hbmWriteBlock (sl : Option Nat) (o : Nat) (data : List Byte) (v : Nat) :
    (b.aside c).hbmWriteBlock sl o data v = c.asideFst (b.hbmWriteBlock sl o data v) := by
  unfold Block.hbmWriteBlock
  simp only [Block.hbm_aside, Block.aside_regionAt, Block.aside_regionKey]
  split
  · rfl
  · rcases b.regionAt o with - | r
    · rfl
    · cases hkey : b.regionKey r sl with
      | none => simp only [hkey]; rfl
      | some key =>
        simp only [hkey]
        rw [← Block.asideFst_mk c b Code.SUCCESS, foldl_asideFst c]
        · rcases List.foldl _ (b, Code.SUCCESS) _ with ⟨b1, st⟩
          by_cases hst : st = Code.SUCCESS <;> simp [hst]
        · intro q m
          simp only [Block.asideFst_fst, Block.asideFst_snd, Block.aside_stripePut, Block.aside_stripeStatus]
          split
          · rfl
          · rw [← Block.asideFst_mk c q.1 Code.SUCCESS, Block.aside_granWrites]
            rfl

/-! ### Queues -/

@[simp] theorem Block.aside_enqueue (d : Dram) (e : Nat) (os : List Owed) : (b.aside c).enqueue d e os = (b.enqueue d e os).aside c := by
  simp only [Block.enqueue, Block.aside_pcOf, Block.aside_pc, Block.aside_dramHeld, Block.aside_setPc, Block.now_aside]
  exact Block.ite_aside ..

@[simp] theorem Block.aside_release (os : List Owed) : (b.aside c).release os = (b.release os).aside c :=
  foldl_aside b c _ _ fun b o => by
    simp only [Block.aside_stillOwed, Block.aside_emit]
    exact Block.ite_aside ..

@[simp] theorem Block.aside_dramPost (e : Nat) (os : List Owed) : (b.aside c).dramPost e os = (b.dramPost e os).aside c := by
  simp only [Block.dramPost, Block.dramQueue, Block.hbm_aside, Block.aside_dramDrop]
  rw [foldl_aside b.dramDrop c _ _ fun b d => b.aside_enqueue c d .., Block.aside_release]

@[simp] theorem Block.aside_hbmPerform (o : Nat) (r : MemReq) : (b.aside c).hbmPerform o r = (b.hbmPerform o r).aside c := by
  simp only [Block.hbmPerform, Block.aside_hbmAccess, Block.asideFst_fst, Block.asideFst_snd, Block.aside_dramPost]

@[simp] theorem Block.aside_flushStripe (m : Nat) : (b.aside c).flushStripe m = (b.flushStripe m).aside c :=
  foldl_aside (b.setStripe m { b.stripe m with held := [] }) c _ _ fun b r => b.aside_hbmPerform c _ r

@[simp] theorem Block.aside_flushFor (o len : Nat) : (b.aside c).flushFor o len = (b.flushFor o len).aside c := by
  refine foldl_aside b c _ _ fun b a => ?_
  simp only [Block.aside_hbmWhere, Block.aside_stripe, Block.aside_flushStripe]
  split
  · split <;> rfl
  · rfl

@[simp] theorem Block.aside_heldRead (g : Region) (x key a len : Nat) :
    (b.aside c).heldRead g x key a len = (b.heldRead g x key a len).map c.asideFst := by
  simp only [Block.heldRead, Block.aside_regionKey, Block.aside_stripe, Block.aside_hbmNd, Block.aside_hbmCount]
  split
  · rfl
  · next q _ => by_cases hkey : b.regionKey g q.who.slice = some key <;> simp [hkey]

@[simp] theorem Block.aside_heldAt (sl : Option Nat) (o len : Nat) :
    (b.aside c).heldAt sl o len = (b.heldAt sl o len).map c.asideFst := by
  by_cases hdisabled : b.hbm.disabled
  · simp [Block.heldAt, hdisabled]
  · simp only [Block.heldAt, Block.hbm_aside, hdisabled, Block.aside_hbmWhere, Block.aside_regionKey, Block.aside_heldRead]
    rcases b.hbmWhere o with - | ⟨g, x⟩
    · rfl
    · cases hkey : b.regionKey g sl <;> simp [hkey]

@[simp] theorem Block.aside_issueDram (k : Nat) : (b.aside c).issueDram k = (b.issueDram k).aside c := by
  simp only [Block.issueDram, Block.aside_pc, Block.rd_aside, Block.now_aside, Block.aside_setPc, Block.aside_release]
  split
  · rfl
  · split
    · rfl
    · split <;> rfl

@[simp] theorem Block.aside_dramServe (n k : Nat) (all : Bool) :
    Block.dramServe n (b.aside c) k all = (Block.dramServe n b k all).aside c := by
  induction n generalizing b with
  | zero => rfl
  | succ n ih =>
    simp only [Block.dramServe, Block.aside_pc, Block.aside_issueDram, ih]
    exact Block.ite_aside ..

@[simp] theorem Block.aside_dramRun (e : Nat) : (b.aside c).dramRun e = (b.dramRun e).aside c := by
  simp only [Block.dramRun, Block.hbm_aside, Block.aside_dramPost]
  refine foldl_aside _ c _ _ fun b d => ?_
  simp only [Block.aside_pcOf, Block.aside_pc, Block.aside_dramServe]

end

end Sys2Proof.Machine
end

section
/-! SUPPORT. The path of a request works beside the sites, where the agent may not reach the register space (02, R13–R17). -/

namespace Sys2Proof.Machine

section
variable (b c : Block)

/-! ### What a step finds missing, and sync objects -/

@[simp] theorem Block.aside_want (n : Need) : (b.aside c).want n = (b.want n).aside c := by
  simp only [Block.want, Block.ext_aside]
  exact Block.ite_aside _ b { b with ext := { b.ext with need := b.ext.need ++ [n] } } c

@[simp] theorem aside_failWith (st : Status) (len : Nat) (op : MemOp) :
    failWith (b.aside c) st len op = c.asideFst (failWith b st len op) := rfl

@[simp] theorem Block.aside_external (n : ExtNeed) : (b.aside c).external n = c.asideFst (b.external n) := by
  have hnth : (b.aside c).extNth n = b.extNth n := rfl
  simp only [Block.external, hnth, Block.ext_aside, Block.aside_want]
  split <;> rfl

@[simp] theorem Block.aside_syncSignal (obj amt src : Nat) : (b.aside c).syncSignal obj amt src = c.asideFst (b.syncSignal obj amt src) := by
  have hval : (b.aside c).syncVal obj = b.syncVal obj := rfl
  have hsrc (k : Nat) : (b.aside c).srcPos k = b.srcPos k := rfl
  simp only [Block.syncSignal, Block.sync_aside, hval, hsrc, Block.aside_pennant, Block.ite_aside]
  split <;> rfl

@[simp] theorem Block.aside_setSync (obj v : Nat) : (b.aside c).setSync obj v = (b.setSync obj v).aside c := rfl

@[simp] theorem Block.aside_syncReset (obj : Nat) : (b.aside c).syncReset obj = c.asideFst (b.syncReset obj) := by
  by_cases hlost : NSet.has b.sync.lostHomes (Sync.homeOf obj) <;> simp [Block.syncReset, hlost]

@[simp] theorem Block.aside_syncAccess (src a len : Nat) (op : MemOp) :
    (b.aside c).syncAccess src a len op = c.asideFst (b.syncAccess src a len op) := by
  have hval (obj : Nat) : (b.aside c).syncVal obj = b.syncVal obj := rfl
  by_cases hbad : len ≠ 8 ∨ a % 8 ≠ 0
  · cases op <;> (unfold Block.syncAccess; simp [hbad])
  · unfold Block.syncAccess
    cases op with
    | read =>
      by_cases hlost : NSet.has b.sync.lostHomes (Sync.homeOf ((a - Dla.syncBase) / 8)) <;> simp [hbad, hlost, hval]
    | write d =>
      by_cases htop : (leNat d).testBit 63
      · simp [hbad, htop]
      · by_cases hamount : 1 ≤ leNat d ∧ leNat d < 2 ^ 32
        · simp only [hbad, htop, hamount, Block.aside_syncSignal]
          rfl
        · simp only [hbad, htop, hamount]
          rfl
    | add f d => simp [hbad]

/-! ### Engines at HBM -/

theorem Block.aside_hbmEngine (w : Who) (locks : List Nat) (len : Nat) (op : MemOp) {act : Block → Block × Status × List Byte}
    (hact : act (b.aside c) = c.asideFst (act b)) :
    (b.aside c).hbmEngine w locks len op act = c.asideFst (b.hbmEngine w locks len op act) := by
  simp only [Block.hbmEngine, Block.aside_lockWaits, Block.aside_stripe, hact, Block.asideFst_fst, Block.asideFst_snd, Block.hbm_aside,
    Block.aside_dramHeld, Block.aside_pcOf, Block.aside_dramRun, Block.aside_want, aside_failWith]
  split
  · rfl
  · split <;> rfl

/-- A request that is no read of a region flushes the stripes it touches first. -/
theorem Block.hbmRequest_of_flush {w : Who} {o len : Nat} {op : MemOp} (h : op = .read → b.hbmWhere o = none) :
    b.hbmRequest w o len op = (b.flushFor o len).hbmEngine w (b.writeLocks o len) len op fun b => b.hbmAccess w.slice o len op := by
  cases op with
  | read => simp only [Block.hbmRequest, h rfl]
  | write d => rfl
  | add f d => rfl

/-- A read of a region takes its data from a held write, or from the granule. -/
theorem Block.hbmRequest_read {w : Who} {o len : Nat} {g : Region} {x : Nat} (h : b.hbmWhere o = some (g, x)) :
    b.hbmRequest w o len .read = (b.heldAt w.slice o len).getD (b.hbmEngine w
      (if g.prot && !b.readable (Hbm.place b.hbmNd x) then [x / 2048] else []) len .read fun b => b.hbmAccess w.slice o len .read) := by
  simp only [Block.hbmRequest, h]
  cases b.heldAt w.slice o len <;> rfl

@[simp] theorem Block.aside_hbmRequest (w : Who) (o len : Nat) (op : MemOp) :
    (b.aside c).hbmRequest w o len op = c.asideFst (b.hbmRequest w o len op) := by
  by_cases hread : op = .read → b.hbmWhere o = none
  · rw [Block.hbmRequest_of_flush b hread, Block.hbmRequest_of_flush (b.aside c) hread, Block.aside_flushFor, Block.aside_writeLocks,
      Block.aside_hbmEngine _ c _ _ _ _ (Block.aside_hbmAccess _ c ..)]
  · obtain ⟨rfl, hwhere⟩ := not_forall.mp hread
    obtain ⟨⟨g, x⟩, hx⟩ := Option.ne_none_iff_exists'.mp hwhere
    rw [Block.hbmRequest_read b hx, Block.hbmRequest_read (b.aside c) hx, Block.aside_heldAt, Block.aside_readable, Block.aside_hbmNd,
      Block.aside_hbmEngine _ c _ _ _ _ (Block.aside_hbmAccess _ c ..)]
    cases b.heldAt w.slice o len <;> rfl

/-! ### One request -/

@[simp] theorem Block.aside_range (a : Nat) : (b.aside c).range a = b.range a := rfl
@[simp] theorem Block.aside_cohNeeds (a len : Nat) (write : Bool) : (b.aside c).cohNeeds a len write = b.cohNeeds a len write := rfl
@[simp] theorem Block.aside_sourceOf (w : Who) : (b.aside c).sourceOf w = b.sourceOf w := rfl
@[simp] theorem Block.aside_windowDone (w : Who) (a len : Nat) (op : MemOp) :
    (b.aside c).windowDone w a len op = b.windowDone w a len op := rfl
@[simp] theorem Block.aside_refuse (w : Who) (kind a : Nat) : (b.aside c).refuse w kind a = (b.refuse w kind a).aside c := rfl

@[simp] theorem Block.aside_cohLookups (a len : Nat) : (b.aside c).cohLookups a len = (b.cohLookups a len).aside c := by
  have hwin : (b.aside c).cohWin a = b.cohWin a := rfl
  simp only [Block.cohLookups, hwin, Block.aside_count]
  exact Block.ite_aside ..

theorem Block.aside_wants (ls : List Nat) (write : Bool) :
    ls.foldl (fun b l => b.want (.line l write)) (b.aside c) = (ls.foldl (fun b l => b.want (.line l write)) b).aside c :=
  foldl_aside b c _ _ fun b _ => b.aside_want c _

/-- The addresses of the register space are fixed. -/
theorem Block.range_eq_regs {a : Nat} (h : b.range a = .regs) : c.range a = .regs := by
  unfold Block.range at h ⊢
  by_cases hshelf : a < 2 ^ 29
  · rw [if_pos hshelf] at h
    cases h
  rw [if_neg hshelf] at h ⊢
  by_cases hsync : Dla.syncBase ≤ a ∧ a < Dla.syncBase + 2 ^ 20
  · rw [if_pos hsync] at h
    cases h
  rw [if_neg hsync] at h ⊢
  by_cases hregs : Dla.regBase ≤ a ∧ a < Dla.regBase + 2 ^ 28
  · rw [if_pos hregs]
  rw [if_neg hregs] at h
  split at h
  · dsimp only at h
    split at h <;> cases h
  · split at h
    · split at h <;> cases h
    · cases h

/-- A request that passed its checks, not to the register space. -/
theorem Block.aside_perform {w : Who} {a : Nat} (len : Nat) (op : MemOp) (h : b.range a ≠ .regs) :
    (b.aside c).perform w a len op = c.asideFst (b.perform w a len op) := by
  simp only [Block.perform, Block.aside_cohNeeds, Block.aside_wants, aside_failWith, Block.aside_cohLookups, Block.aside_range,
    Block.aside_shelfAccess, Block.aside_syncAccess, Block.aside_sourceOf, Block.aside_hbmRequest, Block.aside_external]
  split
  · rfl
  · cases hrange : (b.cohLookups a len).range a with
    | regs => exact absurd ((b.cohLookups a len).range_eq_regs b hrange) h
    | _ => rfl

theorem Block.aside_shelfSeal (k : Nat) : (b.aside c).shelfSeal k = b.shelfSeal k := rfl

theorem Block.aside_placeBlock (w : Who) (a : Nat) (data : List Byte) (sl : Nat) :
    (b.aside c).placeBlock w a data sl = c.asideFst (b.placeBlock w a data sl) := by
  simp only [Block.placeBlock, Block.aside_cohNeeds, Block.aside_wants, Block.aside_cohLookups, Block.aside_range,
    Block.aside_shelfWriteBlock]
  split
  · rfl
  · cases (b.cohLookups a 4096).range a with
    | hbm o =>
      dsimp only
      rw [Block.aside_flushFor, Block.aside_writeLocks, Block.aside_hbmEngine]
      · rfl
      · simp only [Block.aside_hbmWriteBlock]
        rfl
    | _ => rfl

theorem Block.aside_dlaSeal (w : Who) (a : Nat) : (b.aside c).dlaSeal w a = c.asideFst (b.dlaSeal w a) := by
  simp only [Block.dlaSeal, Block.aside_range, Block.aside_shelfSeal]
  cases b.range a with
  | hbm o =>
    dsimp only
    rw [Block.aside_hbmEngine]
    · rfl
    · simp only [Block.aside_hbmSealAt]
      rcases b.hbmSealAt w.slice o with ⟨b1, st | v⟩ <;> rfl
  | _ => rfl

end

/-! ### Checked requests: the firewall reads the boot state -/

section
variable {b c : Block} {w : Who}

theorem Block.aside_checkReq (hboot : b.boot = c.boot) (a : Nat) (rt : Right) :
    (b.aside c).checkReq w a rt = c.asideFst (b.checkReq w a rt) := by
  have hzero : (b.aside c).zeroised a = b.zeroised a := rfl
  have hfirewall : (b.aside c).firewall w.slice ((b.aside c).reqPart w) a rt = b.firewall w.slice (b.reqPart w) a rt := by
    rw [show b.aside c = { b with sites := c.sites } by rw [Block.aside, ← hboot]]
    rfl
  simp only [Block.checkReq, Block.aside_range, hzero, hfirewall, Block.aside_refuse]
  cases b.range a with
  | unmapped => rfl
  | regs => cases w.agent.mayReg <;> rfl
  | _ => cases b.zeroised a <;> cases b.firewall w.slice (b.reqPart w) a rt <;> rfl

theorem Block.checkReq_boot (a : Nat) (rt : Right) : (b.checkReq w a rt).1.boot = b.boot :=
  congrArg (fun q : Block × Option Status => q.1.boot) (Block.aside_checkReq (b := b) (c := b) rfl a rt)

/-- A request to the register space is turned away where its agent may not reach it (R17). -/
theorem Block.range_ne_regs_of_checkReq (hreg : w.agent.mayReg = false) {a : Nat} {rt : Right} {b1 : Block}
    (h : b.checkReq w a rt = (b1, none)) : b1.range a ≠ .regs := by
  intro hrange
  have hregs := b1.range_eq_regs b hrange
  simp [Block.checkReq, hregs, hreg] at h

theorem Block.aside_dla (hreg : w.agent.mayReg = false) (hboot : b.boot = c.boot) (a len : Nat) (op : MemOp) :
    (b.aside c).dla w a len op = c.asideFst (b.dla w a len op) := by
  simp only [Block.dla, Block.aside_windowDone, Block.aside_external, Block.aside_checkReq hboot]
  split
  · rfl
  · rcases hcheck : b.checkReq w a op.right with ⟨b1, st | -⟩
    · exact b1.aside_perform c len op (Block.range_ne_regs_of_checkReq hreg hcheck)
    · rfl

theorem Block.dla_boot (hreg : w.agent.mayReg = false) (a len : Nat) (op : MemOp) : (b.dla w a len op).1.boot = b.boot :=
  congrArg (fun q : Block × Status × List Byte => q.1.boot) (Block.aside_dla (b := b) (c := b) hreg rfl a len op)

/-- A fold that carries a block beside its answer, over steps that keep the boot state. -/
theorem foldl_asideFst_of_boot {α β : Type} (l : List α) (f : Block × β → α → Block × β)
    (h : ∀ q a, q.1.boot = c.boot → f (c.asideFst q) a = c.asideFst (f q a) ∧ (f q a).1.boot = c.boot) {q : Block × β}
    (hq : q.1.boot = c.boot) : l.foldl f (c.asideFst q) = c.asideFst (l.foldl f q) := by
  induction l generalizing q with
  | nil => rfl
  | cons a l ih =>
    obtain ⟨hstep, hboot⟩ := h q a hq
    rw [List.foldl_cons, hstep, ih hboot, List.foldl_cons]

theorem Block.aside_checkBlock (hboot : b.boot = c.boot) (a : Nat) (rt : Right) :
    (b.aside c).checkBlock w a rt = c.asideFst (b.checkBlock w a rt) := by
  refine foldl_asideFst_of_boot _ _ (fun q i hq => ?_) (q := (b, none)) hboot
  rcases q with ⟨b1, - | st⟩
  · exact ⟨Block.aside_checkReq hq _ rt, (Block.checkReq_boot _ rt).trans hq⟩
  · exact ⟨rfl, hq⟩

/-- A write of a block: its checks, then the block. -/
theorem Block.dlaWriteBlock_of_check {a : Nat} {b1 : Block} {o : Option Status} (h : b.checkBlock w a .w = (b1, o)) (data : List Byte)
    (sl : Nat) : b.dlaWriteBlock w a data sl = o.elim (b1.placeBlock w a data sl) fun st => (b1, st) := by
  unfold Block.checkBlock at h
  unfold Block.dlaWriteBlock
  rw [h]
  cases o <;> rfl

theorem Block.aside_dlaWriteBlock (hboot : b.boot = c.boot) (a : Nat) (data : List Byte) (sl : Nat) :
    (b.aside c).dlaWriteBlock w a data sl = c.asideFst (b.dlaWriteBlock w a data sl) := by
  have hcheck := Block.aside_checkBlock (w := w) hboot a .w
  rcases hq : b.checkBlock w a .w with ⟨b1, o⟩
  rw [hq] at hcheck
  rw [Block.dlaWriteBlock_of_check hq, Block.dlaWriteBlock_of_check hcheck]
  cases o with
  | none => exact b1.aside_placeBlock c w a data sl
  | some st => rfl

/-- One request of a read of any length. -/
def Block.readPiece (w : Who) (acc : Block × Status × List Byte) (p : Nat × Nat × Nat) : Block × Status × List Byte :=
  if acc.2.1 ≠ Code.SUCCESS then acc
  else
    let q := acc.1.dla w p.1 p.2.1 .read
    (q.1, q.2.1, acc.2.2 ++ q.2.2)

theorem Block.dlaRead_eq_pieces (b : Block) (w : Who) (a len : Nat) :
    let r := (chunksOf a len).foldl (Block.readPiece w) (b, Code.SUCCESS, [])
    b.dlaRead w a len = if r.2.1 = Code.SUCCESS then r else (r.1, r.2.1, zeros len) := rfl

theorem Block.aside_readPiece (hreg : w.agent.mayReg = false) {q : Block × Status × List Byte} (hq : q.1.boot = c.boot)
    (p : Nat × Nat × Nat) :
    Block.readPiece w (c.asideFst q) p = c.asideFst (Block.readPiece w q p) ∧ (Block.readPiece w q p).1.boot = c.boot := by
  by_cases hst : q.2.1 = Code.SUCCESS
  · simp [Block.readPiece, hst, Block.aside_dla hreg hq, Block.dla_boot hreg, hq]
  · simp [Block.readPiece, hst, hq]

theorem Block.aside_dlaRead (hreg : w.agent.mayReg = false) (hboot : b.boot = c.boot) (a len : Nat) :
    (b.aside c).dlaRead w a len = c.asideFst (b.dlaRead w a len) := by
  have hpieces := foldl_asideFst_of_boot (chunksOf a len) (Block.readPiece w) (fun q p hq => Block.aside_readPiece hreg hq p)
    (q := (b, Code.SUCCESS, [])) hboot
  rw [Block.asideFst_mk] at hpieces
  rw [Block.dlaRead_eq_pieces, Block.dlaRead_eq_pieces, hpieces]
  generalize List.foldl (Block.readPiece w) _ _ = q
  by_cases hq : q.2.1 = Code.SUCCESS <;> simp [hq]

theorem Block.aside_dlaReadBlock (hreg : w.agent.mayReg = false) (hboot : b.boot = c.boot) (a : Nat) :
    (b.aside c).dlaReadBlock w a = c.asideFst (b.dlaReadBlock w a) := by
  simp only [Block.dlaReadBlock, Block.aside_dlaRead hreg hboot, Block.asideFst_fst, Block.asideFst_snd, Block.aside_dlaSeal]
  generalize b.dlaRead w a 4096 = q
  by_cases hq : q.2.1 = Code.SUCCESS <;> simp [hq]

end

end Sys2Proof.Machine
end

section
/-! SUPPORT. The fields that no request to the memory changes: all but the counts and logs of the shelf, HBM and the lookups. -/

namespace Sys2Proof.Machine

/-- A field beside all that a request to the memory writes. -/
def Fld.Steady (g : Fld) : Prop := g.Quiet ∧ g.Apart Reg.CO_LOOKUPS.COUNT

/-- What every request to the memory leaves as it is. -/
def Block.steady (b : Block) : { g : Fld // g.Steady } → Nat := fun g => b.rd g.1

theorem Block.steady_of_still {b c : Block} (h : c.still = b.still) : c.steady = b.steady :=
  funext fun g => congrFun (congrArg (fun q => q.2.2.1) h) ⟨g.1, g.2.1⟩

theorem Block.rd_of_steady {b c : Block} (h : c.steady = b.steady) {g : Fld} (hg : g.Steady) : c.rd g = b.rd g := congrFun h ⟨g, hg⟩

section
variable (b : Block)

/-! ### Blocks and queues -/

@[simp] theorem Block.still_shelfWriteBlock (a : Nat) (data : List Byte) (sl : Nat) : (b.shelfWriteBlock a data sl).1.still = b.still := by
  have hset (c : Block) (v : ShelfState) : Block.still { c with shelf := v } = c.still := rfl
  unfold Block.shelfWriteBlock
  split
  · rfl
  · dsimp only
    rw [hset, Block.still_shelfStore, Block.still_shelfClear]

@[simp] theorem Block.still_stripePut (m : Nat) (grans : List (Nat × Gran)) : (b.stripePut m grans).still = b.still := by
  unfold Block.stripePut
  rw [Block.still_setLost, Block.still_memberPut]
  refine foldl_keeps Block.still _ _ (fun b g => ?_) b
  exact b.still_memberPut ..

@[simp] theorem Block.still_hbmSealAt (sl : Option Nat) (o : Nat) : (b.hbmSealAt sl o).1.still = b.still := by
  unfold Block.hbmSealAt Block.hbmSeal
  grind [Block.still_granRead]

@[simp] theorem Block.still_hbmWriteBlock (sl : Option Nat) (o : Nat) (data : List Byte) (v : Nat) :
    (b.hbmWriteBlock sl o data v).1.still = b.still := by
  unfold Block.hbmWriteBlock
  split
  · rfl
  · split
    · rfl
    · split
      · rfl
      · dsimp only
        generalize hq : List.foldl _ (b, Code.SUCCESS) _ = q
        have hstill : q.1.still = b.still := by
          rw [← hq]
          refine foldl_still _ _ (fun acc m => ?_) b _
          dsimp only
          split
          · exact Block.still_stripePut ..
          · refine foldl_still _ _ (fun acc g => ?_) acc.1 _
            exact Block.still_granWrite ..
        split
        · exact hstill
        · exact (Block.still_hbmSetSeals ..).trans hstill

@[simp] theorem Block.still_issueDram (k : Nat) : (b.issueDram k).still = b.still := by
  unfold Block.issueDram
  grind [Block.still_release, Block.still_setPc]

theorem Block.still_dramServe (n k : Nat) (all : Bool) : (Block.dramServe n b k all).still = b.still := by
  induction n generalizing b with
  | zero => rfl
  | succ n ih =>
    unfold Block.dramServe
    split
    · rw [ih, Block.still_issueDram]
    · rfl

@[simp] theorem Block.still_dramRun (e : Nat) : (b.dramRun e).still = b.still :=
  (foldl_keeps Block.still _ _ (fun _ _ => Block.still_dramServe ..) _).trans (b.still_dramPost ..)

@[simp] theorem Block.still_want (n : Need) : (b.want n).still = b.still := by
  unfold Block.want
  split <;> rfl

theorem Block.still_hbmEngine (w : Who) (locks : List Nat) (len : Nat) (op : MemOp) {act : Block → Block × Status × List Byte}
    (h : (act b).1.still = b.still) : (b.hbmEngine w locks len op act).1.still = b.still := by
  unfold Block.hbmEngine failWith
  grind [Block.still_dramRun, Block.still_want]

@[simp] theorem Block.still_hbmRequest (w : Who) (o len : Nat) (op : MemOp) : (b.hbmRequest w o len op).1.still = b.still := by
  unfold Block.hbmRequest
  grind [Block.still_hbmEngine, Block.still_flushFor, Block.still_hbmAccess, Block.still_heldAt]

/-! ### Requests -/

@[simp] theorem Block.still_external (n : ExtNeed) : (b.external n).1.still = b.still := by
  unfold Block.external
  dsimp only
  split
  · rfl
  · exact b.still_want _

@[simp] theorem Block.still_checkReq (w : Who) (a : Nat) (rt : Right) : (b.checkReq w a rt).1.still = b.still := by
  have hrefuse (k : Nat) : (b.refuse w k a).still = b.still := rfl
  unfold Block.checkReq
  grind

@[simp] theorem Block.steady_cohLookups (a len : Nat) : (b.cohLookups a len).steady = b.steady := by
  unfold Block.cohLookups
  split
  · rfl
  · exact funext fun g => b.rd_wr_of_apart Reg.CO_LOOKUPS.COUNT g.1 _ g.2.1.1 g.2.2

@[simp] theorem Block.steady_syncAccess (s a len : Nat) (op : MemOp) : (b.syncAccess s a len op).1.steady = b.steady := by
  have hsignal (o n k : Nat) : (b.syncSignal o n k).1.steady = b.steady := by
    unfold Block.syncSignal
    dsimp only
    split
    · rfl
    · split <;> rfl
  have hreset (o : Nat) : (b.syncReset o).1.steady = b.steady := by
    unfold Block.syncReset
    split <;> rfl
  unfold Block.syncAccess
  grind

theorem Block.still_wants (ls : List Nat) (write : Bool) : (ls.foldl (fun b l => b.want (.line l write)) b).still = b.still :=
  foldl_keeps Block.still _ _ (fun c _ => c.still_want _) b

theorem Block.steady_perform {w : Who} {a : Nat} (len : Nat) (op : MemOp) (h : b.range a ≠ .regs) :
    (b.perform w a len op).1.steady = b.steady := by
  have hlook := b.steady_cohLookups a len
  simp only [Block.perform, failWith]
  split
  · exact Block.steady_of_still (b.still_wants _ _)
  · split
    · exact (Block.steady_of_still (Block.still_shelfAccess ..)).trans hlook
    · exact (Block.steady_syncAccess ..).trans hlook
    · exact (Block.steady_of_still (Block.still_hbmRequest ..)).trans hlook
    · exact (Block.steady_of_still (Block.still_external ..)).trans hlook
    · next hrange => exact absurd ((b.cohLookups a len).range_eq_regs b hrange) h
    · exact hlook

theorem Block.steady_placeBlock (w : Who) (a : Nat) (data : List Byte) (sl : Nat) :
    (b.placeBlock w a data sl).1.steady = b.steady := by
  have hlook := b.steady_cohLookups a 4096
  simp only [Block.placeBlock]
  split
  · exact Block.steady_of_still (b.still_wants _ _)
  · split
    · exact (Block.steady_of_still (Block.still_shelfWriteBlock ..)).trans hlook
    · refine (Block.steady_of_still (Block.still_hbmEngine _ _ _ _ _ (Block.still_hbmWriteBlock ..))).trans ?_
      exact (Block.steady_of_still (Block.still_flushFor ..)).trans hlook
    · exact hlook

@[simp] theorem Block.still_dlaSeal (w : Who) (a : Nat) : (b.dlaSeal w a).1.still = b.still := by
  unfold Block.dlaSeal
  split
  · rfl
  · refine Block.still_hbmEngine _ _ _ _ _ ?_
    have hseal := b.still_hbmSealAt w.slice
    grind
  · rfl

end

section
variable {b : Block} {w : Who} (hreg : w.agent.mayReg = false)
include hreg

theorem Block.steady_dla (a len : Nat) (op : MemOp) : (b.dla w a len op).1.steady = b.steady := by
  have hcheck := b.still_checkReq w a op.right
  unfold Block.dla failWith
  split
  · exact Block.steady_of_still (b.still_external _)
  · rcases hq : b.checkReq w a op.right with ⟨b1, - | st⟩ <;> rw [hq] at hcheck
    · exact (b1.steady_perform len op (Block.range_ne_regs_of_checkReq hreg hq)).trans (Block.steady_of_still hcheck)
    · exact Block.steady_of_still hcheck

theorem Block.steady_readPiece (q : Block × Status × List Byte) (p : Nat × Nat × Nat) :
    (Block.readPiece w q p).1.steady = q.1.steady := by
  unfold Block.readPiece
  split
  · rfl
  · exact Block.steady_dla hreg ..

theorem Block.steady_dlaRead (a len : Nat) : (b.dlaRead w a len).1.steady = b.steady := by
  have hpieces := foldl_keeps (fun q : Block × Status × List Byte => q.1.steady) (chunksOf a len) _ (Block.steady_readPiece hreg)
    (b, Code.SUCCESS, [])
  rw [Block.dlaRead_eq_pieces]
  split <;> exact hpieces

theorem Block.steady_dlaReadBlock (a : Nat) : (b.dlaReadBlock w a).1.steady = b.steady := by
  unfold Block.dlaReadBlock
  dsimp only
  split
  · exact Block.steady_dlaRead hreg ..
  · exact (Block.steady_of_still (Block.still_dlaSeal ..)).trans (Block.steady_dlaRead hreg ..)

end

theorem Block.still_checkBlock (b : Block) (w : Who) (a : Nat) (rt : Right) : (b.checkBlock w a rt).1.still = b.still := by
  unfold Block.checkBlock
  refine foldl_still _ _ (fun q i => ?_) b _
  split
  · rfl
  · exact Block.still_checkReq ..

end Sys2Proof.Machine
end

section
/-! SUPPORT. A request of a site is received, served and answered (R174, R176, R182–R186). -/

namespace Sys2Proof.Machine

/-! ### What is received -/

theorem NSet.erase_insert {t : Nat} {s : NSet} (h : NSet.has s t = false) : NSet.erase (NSet.insert t s) t = s := by
  have hself {s : NSet} (h : NSet.has s t = false) : NSet.erase s t = s := by
    refine List.filter_eq_self.mpr fun x hx => ?_
    have hne : x ≠ t := fun hxt => by simp [NSet.has, ← hxt, hx] at h
    simpa using hne
  induction s with
  | nil => simp [NSet.insert, NSet.erase]
  | cons x s ih =>
    have hx : t ≠ x := fun hxt => by simp [NSet.has, hxt] at h
    have hs : NSet.has s t = false := by
      simp only [NSet.has, List.contains_cons, Bool.or_eq_false_iff] at h ⊢
      exact h.2
    have hrest := ih hs
    have hkeep : (x != t) = true := by simpa using hx.symm
    unfold NSet.insert
    split
    · have hall := hself h
      simpa [NSet.erase] using hall
    · unfold NSet.erase at hrest ⊢
      rw [List.filter_cons, if_pos hkeep, hrest]

/-- A request on channel REQ whose UNITS are those of its opcode. -/
structure Packet.Asks (p : Packet) : Prop where
  chan : p.chan = .req
  nop : p.op ≠ 0
  burgee : p.op ≠ 0x29
  units : Swp.units p.op p.len = some p.units

/-- The opcodes of the requests of this family. -/
theorem Packet.asks_of {op : Nat} (hop : op ∈ [1, 2, 3, 4, 5, 6]) (h : PacketHdr) (data : List Byte) : (Packet.of op h data).Asks := by
  simp only [List.mem_cons, List.not_mem_nil, or_false] at hop
  rcases hop with rfl | rfl | rfl | rfl | rfl | rfl <;> constructor <;> simp [Packet.of, Packet.chan, Swp.units]

theorem Packet.Asks.isRequest {p : Packet} (h : p.Asks) : p.isRequest = true := by simp [Packet.isRequest, h.chan]

/-- Credits that a request consumed and that are returned. -/
theorem Packet.Asks.spend_give {p : Packet} (h : p.Asks) {c : Credits} (hallow : c.siteAllow p = true) :
    { c.siteSpend p with siteReqH := (c.siteSpend p).siteReqH + 1, siteReqD := (c.siteSpend p).siteReqD + p.dataCredits } = c := by
  simp only [Credits.siteAllow, Credits.siteSpend, h.chan, Bool.and_eq_true, decide_eq_true_eq] at hallow ⊢
  obtain ⟨hhead, hdata⟩ := hallow
  rw [Nat.sub_add_cancel hhead, Nat.sub_add_cancel hdata]

/-- `c` is `h`, its sites listed in whatever way. -/
structure Block.Stands (h c : Block) : Prop where
  rest : c = h.aside c
  boot : h.boot = c.boot
  site : ∀ k, c.site k = h.site k

namespace Block.Stands

variable {h c : Block}

theorem setSite (hs : h.Stands c) {n : Nat} {v : SiteState} (hv : v = h.site n) : h.Stands (c.setSite n v) where
  rest := by rw [hs.rest]; rfl
  boot := hs.boot
  site k := by
    by_cases hk : k = n
    · rw [hk, Block.site_setSite_same, hv]
    · rw [Block.site_setSite_of_ne _ _ hk, hs.site]

/-- A record that is changed for a while. -/
theorem setSite_twice (hs : h.Stands c) {n : Nat} (u : SiteState) {v : SiteState} (hv : v = h.site n) :
    h.Stands ((c.setSite n u).setSite n v) where
  rest := by rw [hs.rest]; rfl
  boot := hs.boot
  site k := by
    by_cases hk : k = n
    · rw [hk, Block.site_setSite_same, hv]
    · rw [Block.site_setSite_of_ne _ _ hk, Block.site_setSite_of_ne _ _ hk, hs.site]

/-- A record that is written in two steps. -/
theorem of_two (b : Block) (n : Nat) (u v : SiteState) : (b.setSite n v).Stands ((b.setSite n u).setSite n v) where
  rest := rfl
  boot := rfl
  site k := by
    by_cases hk : k = n
    · rw [hk, Block.site_setSite_same, Block.site_setSite_same]
    · simp only [Block.site_setSite_of_ne _ _ hk]

theorem rd (hs : h.Stands c) (f : Fld) : c.rd f = h.rd f := by rw [hs.rest]; rfl

end Block.Stands

section
variable {b : Block} {n : Nat} {p : Packet} (hasks : p.Asks) (hears : b.Hears n p)
include hasks hears

/-- The request is taken in. -/
theorem Block.accept_of_hears : ∃ c, (b.heard n p).Stands c ∧ b.accept n p = (c, true) := by
  obtain ⟨hlink, henrolled, hallow, htag, -⟩ := hears
  have hup : b.linkUp n = true := by simp [Block.linkUp, hlink]
  have hsite : (b.count (Reg.ST_SWP_PKT_RX.COUNT n) 1).site n = b.site n := rfl
  refine ⟨_, Block.Stands.of_two _ n { b.site n with credits := (b.site n).credits.siteSpend p } _, ?_⟩
  simp [Block.accept, hup, hasks.nop, hasks.burgee, b.enrolled_count_rx, henrolled, hasks.units, hsite, hallow, hasks.isRequest, htag]

end

end Sys2Proof.Machine
end

section
/-! SUPPORT. What serving a site's request leads to: an answer, its tag free again and its credits returned (R174, R176). -/

namespace Sys2Proof.Machine

/-! ### One answer and the credits -/

/-- Tag `t` of site `n` is free again and the site has been sent `a`. -/
def Block.Replies (b c : Block) (n t : Nat) (a : Packet) : Prop :=
  (b.setSite n { b.site n with siteTags := NSet.erase (b.site n).siteTags t }).Sends c n [a]

/-- The record of a site whose credits for `p` come back. -/
def SiteState.repaid (v : SiteState) (p : Packet) : SiteState :=
  { v with credits := { v.credits with siteReqH := v.credits.siteReqH + 1, siteReqD := v.credits.siteReqD + p.dataCredits } }

theorem Block.giveCredits_of_asks {p : Packet} (hasks : p.Asks) (b : Block) (n : Nat) :
    (b.setSite n ((b.site n).repaid p)).Sends (b.giveCredits n p) n [p.creditOf] := by
  have hgive : b.giveCredits n p = (b.setSite n ((b.site n).repaid p)).putPacket n p.creditOf := by
    simp only [Block.giveCredits, hasks.chan]
    rfl
  rw [hgive]
  exact Block.putPacket_sends _ n (p := p.creditOf) (show (0x7F : Nat) ≠ 0 by decide) (show (0x7F : Nat) ≠ 0x20 by decide)

theorem Block.siteResp_replies {b : Block} {n : Nat} (hup : b.linkUp n = true) (hidle : (b.site n).txq = []) (t st : Nat) :
    b.Replies (b.siteResp n t st) n t (Packet.short 0x41 t 0 0 st) := Block.siteResp_answers hup hidle t st

theorem Block.siteData_replies {b : Block} {n : Nat} (hup : b.linkUp n = true) (hidle : (b.site n).txq = []) {op : Nat} (hop : 0x40 ≤ op)
    (t len : Nat) (data : List Byte) : b.Replies (b.siteData n op t len data) n t
      ⟨op, ceilDiv data.length 16, t, len, 0, 0, 0, 0, 0, sliceBytes data 0 (16 * ceilDiv data.length 16)⟩ :=
  Block.send_rsp (b := b.setSite n { b.site n with siteTags := NSet.erase (b.site n).siteTags t }) hup
    (by rw [Block.site_setSite_same, hidle]) hop

/-- What the answer to a request and the return of its credits leave. -/
structure Block.Answered (b c : Block) (n : Nat) (p a : Packet) : Prop where
  rest : c = { b with regs := c.regs, sites := c.sites, out := c.out }
  packets : b.packetsTo c n = [a, p.creditOf]
  sites : b.SitesKept c n
  tags : (c.site n).siteTags = NSet.erase (b.site n).siteTags p.tag
  credits : (c.site n).credits = ((b.site n).repaid p).credits
  fields : b.FieldsKept c [Reg.ST_SWP_PKT_TX.COUNT n]

theorem Block.Replies.answered {b c : Block} {n : Nat} {p a : Packet} (hasks : p.Asks) (h : b.Replies c n p.tag a) :
    b.Answered (c.giveCredits n p) n p a := by
  have hgive := c.giveCredits_of_asks hasks n
  unfold Block.Replies at h
  have hsite := h.site
  rw [Block.site_setSite_same] at hsite
  have hfinal := hgive.site
  rw [Block.site_setSite_same] at hfinal
  have hpaid := (Block.RecordOnly.refl c n).setSite ((c.site n).repaid p)
  have hfreed := (Block.RecordOnly.refl b n).setSite { b.site n with siteTags := NSet.erase (b.site n).siteTags p.tag }
  obtain ⟨hrest, hsites, hpackets⟩ := hfreed.sends h
  obtain ⟨hrest', hsites', hpackets'⟩ := hpaid.sends hgive
  exact {
    rest := by rw [hrest', hrest]
    packets := by
      obtain ⟨os, hos, ha⟩ := h.out
      obtain ⟨os', hos', ha'⟩ := hgive.out
      have hout : (c.giveCredits n p).out = b.out ++ (os ++ os') := by
        rw [hos', show (c.setSite n ((c.site n).repaid p)).out = c.out from rfl, hos, List.append_assoc]
        rfl
      have hpacketsTo : b.packetsTo (c.giveCredits n p) n = (os ++ os').filterMap (Out.toSite n) := by
        rw [Block.packetsTo, hout, List.drop_left]
        rfl
      rw [hpacketsTo, List.filterMap_append, ha, ha']
      rfl
    sites := fun k hk => (hsites' k hk).trans (hsites k hk)
    tags := by rw [hfinal, SiteState.repaid, hsite]
    credits := by rw [hfinal, SiteState.repaid, hsite]; rfl
    fields := fun g hg hf => (hgive.only.fields g hg hf).trans (h.only.fields g hg hf) }

/-! ### A request that is served -/

theorem Block.begun_none_of_hears {b : Block} {n : Nat} {p : Packet} (hears : b.Hears n p) :
    ((b.site n).begun.find? fun x => x.packet = p) = none := by
  obtain ⟨-, -, -, -, -, -, hbegun⟩ := hears
  refine List.find?_eq_none.mpr fun x hx => ?_
  have hne := List.all_eq_true.mp hbegun x hx
  simpa using hne

/-- The tags and credits of the site in the state in which the request is served. -/
theorem Block.site_heard_of_asks {p : Packet} (hasks : p.Asks) (b : Block) (n : Nat) : (b.heard n p).site n = { b.site n with
    credits := (b.site n).credits.siteSpend p, siteTags := NSet.insert p.tag (b.site n).siteTags } := by
  unfold Block.heard
  rw [Block.site_setSite_same, if_pos hasks.isRequest]
  rfl

section
variable {b : Block} {n : Nat} {p : Packet} (hasks : p.Asks) (hears : b.Hears n p)
include hasks hears

/-- The request is served beside a record of it that is gone again when it ends. -/
theorem Block.serve_of_hears (run : Block → Block) : ∃ (c d : Block) (f : Block → Block), (b.heard n p).Stands c ∧ b.serve n p run = d.settle f ∧
    f d = (run c).giveCredits n p := by
  obtain ⟨c, hstands, haccept⟩ := Block.accept_of_hears hasks hears
  let x : Begun := ⟨p, c.dispatchOf n p.ctx, false⟩
  refine ⟨(c.setSite n { c.site n with begun := (c.site n).begun ++ [x] }).setSite n (c.site n),
    c.setSite n { c.site n with begun := (c.site n).begun ++ [x] }, fun b => b.finishBegun n x run,
    hstands.setSite_twice _ (hstands.site n), ?_, ?_⟩
  · unfold Block.serve
    rw [Block.begun_none_of_hears hears, haccept]
  · have hbegun : (c.site n).begun = (b.site n).begun := by
      rw [hstands.site, Block.heard, Block.site_setSite_same]
      rfl
    have hkeep : ((c.site n).begun ++ [x]).filter (fun y => y ≠ x) = (c.site n).begun := by
      rw [List.filter_append]
      obtain ⟨-, -, -, -, -, -, hothers⟩ := hears
      have hself : (c.site n).begun.filter (fun y => y ≠ x) = (c.site n).begun := by
        refine List.filter_eq_self.mpr fun y hy => ?_
        have hne := List.all_eq_true.mp hothers y (hbegun ▸ hy)
        simp only [decide_eq_true_eq] at hne ⊢
        exact fun hyx => hne (congrArg Begun.packet hyx)
      rw [hself]
      simp
    simp only [Block.finishBegun, Block.site_setSite_same, hkeep]
    rfl

theorem Block.tags_heard_of_hears : NSet.erase ((b.heard n p).site n).siteTags p.tag = (b.site n).siteTags := by
  obtain ⟨-, -, -, htag, -⟩ := hears
  rw [Block.site_heard_of_asks hasks]
  exact NSet.erase_insert htag

theorem Block.credits_heard_of_hears : (((b.heard n p).site n).repaid p).credits = (b.site n).credits := by
  obtain ⟨-, -, hallow, -⟩ := hears
  rw [Block.site_heard_of_asks hasks]
  exact hasks.spend_give hallow

end

section
variable {s : State} {c : Instr} {n : Nat} {p a : Packet} {b : Block} {run : Block → Block} (hasks : p.Asks)
  (hears : s.blk.Hears n p) (hb : b.aside (s.blk.heard n p) = b)
include hasks hears hb

/-- What is answered beside another list of the sites is answered. -/
theorem State.answers_of_answered {d e : Block} (hs : (s.blk.heard n p).Stands d) (h : (b.aside d).Answered e n p a) (x : ExtState) :
    s.Answers { s with blk := { e with ext := x } } n b p a := by
  have hsite (k : Nat) : (b.aside d).site k = (s.blk.heard n p).site k := hs.site k
  have hboot : b.boot = d.boot := (congrArg Block.boot hb).symm.trans hs.boot
  refine ⟨?_, ?_, ?_, fun k hk => ?_, h.fields, ?_⟩
  · exact (Block.packetsTo_of_out n rfl rfl).trans h.packets
  · rw [← Block.tags_heard_of_hears hasks hears, ← hsite]
    exact h.tags
  · rw [← Block.credits_heard_of_hears hasks hears, ← hsite]
    exact h.credits
  · have hkept : (b.aside (s.blk.heard n p)).site k = b.site k := by rw [hb]
    exact (h.sites k hk).trans ((hsite k).trans hkept)
  · have hrest : e = { b with regs := e.regs, sites := e.sites, out := e.out } := by rw [h.rest, Block.aside, ← hboot]
    rw [hrest]

variable (hrun : ∀ d, (s.blk.heard n p).Stands d → (b.aside d).Replies (run d) n p.tag a)
include hrun

/-- A request whose service, whatever the list of its sites, replies `a` in `b` is answered with `a`. -/
theorem answers_of_serve (hexec : exec c s = .next (s.upd fun b => b.serve n p run)) (hneed : b.ext.need = []) :
    Yields c s fun t => s.Answers t n b p a := by
  obtain ⟨d, e, f, hs, hserve, hf⟩ := Block.serve_of_hears hasks hears run
  have hanswered := (hrun d hs).answered hasks
  rw [← hf] at hanswered
  obtain ⟨x, hx⟩ := e.settle_of_done f (by rw [hanswered.rest]; exact hneed)
  exact yields_of_upd hexec (hserve.trans hx) (State.answers_of_answered hasks hears hb hs hanswered x)

/-- The same of a request that is served at once. -/
theorem answers_of_packetIn (hexec : exec c s = .next (s.upd fun b => b.packetIn n p run)) : Yields c s fun t => s.Answers t n b p a := by
  obtain ⟨d, hs, haccept⟩ := Block.accept_of_hears hasks hears
  have hanswered := (hrun d hs).answered hasks
  have hin : s.blk.packetIn n p run = (run d).giveCredits n p := by
    rw [Block.packetIn, haccept]
  exact yields_of_upd hexec hin (State.answers_of_answered hasks hears hb hs hanswered _)

end

end Sys2Proof.Machine
end

section
/-! SUPPORT. The checks of a request come out as before after accesses to the memory, and after a packet has been received
(02, R13, R15, R263). -/

namespace Sys2Proof.Machine

/-! ### Fields that stay -/

theorem Fld.bound_of_ownWritten {f : Fld} (hf : f ∈ Fld.ownWritten) : f.off < 0x9000000 ∧ f.off % 0x100000 < 0x80000 := by
  have hall : ∀ f ∈ Fld.ownWritten, f.off < 0x9000000 ∧ f.off % 0x100000 < 0x80000 := by decide +kernel
  exact hall f hf

theorem Fld.steady_of_off {g : Fld} (hw : g.lo + g.w ≤ 64) (hoff : g.off < 0x5000000 ∧ g.off % 0x100000 ≠ 0x188 ∨ 0x9000000 ≤ g.off ∨
    0x80000 ≤ g.off % 0x100000) : g.Steady := by
  refine ⟨⟨hw, fun f hf => .inl fun heq => ?_⟩, .inl fun heq => ?_⟩
  · have hown := Fld.off_of_ownWritten hf
    have hbound := Fld.bound_of_ownWritten hf
    omega
  · simp only [Reg.CO_LOOKUPS.COUNT] at heq
    omega

theorem Block.linkState_of_steady {b c : Block} (h : c.steady = b.steady) {n : Nat} (hn : n < 16) : c.linkState n = b.linkState n :=
  Block.rd_of_steady h (Fld.steady_of_off (g := Reg.ST_STATUS.STATE n) (by decide : 0 + 4 ≤ 64)
    (.inl (by simp only [Reg.ST_STATUS.STATE]; omega)))

/-! ### The checks -/

theorem Block.regionAt_of_steady {b c : Block} (h : c.steady = b.steady) (o : Nat) : c.regionAt o = b.regionAt o := by
  have hrd {g : Fld} (hw : g.lo + g.w ≤ 64) {n k : Nat} (hn : n < 64) (hk : k < 0x20) (hg : g.off = 0x5081000 + 0x20 * n + k) :
      c.rd g = b.rd g := Block.rd_of_steady h (Fld.steady_of_off hw (.inr (.inr (by omega))))
  have hnums : c.regionNums = b.regionNums := by
    refine List.filter_congr fun n hn => ?_
    simp only [Block.is, hrd (g := Reg.HM_REGION00.VALID n) (by decide : 36 + 1 ≤ 64) (List.mem_range.mp hn) (by decide : 0 < 0x20) rfl]
  have hregion (n : Nat) (hn : n ∈ b.regionNums) : c.region n = b.region n := by
    have hn' := List.mem_range.mp (List.mem_of_mem_filter hn)
    simp only [Block.region, Block.is, hrd (g := Reg.HM_REGION00.DLA_BASE n) (by decide : 0 + 18 ≤ 64) hn' (by decide : 0 < 0x20) rfl,
      hrd (g := Reg.HM_REGION00.DLA_SIZE n) (by decide : 18 + 18 ≤ 64) hn' (by decide : 0 < 0x20) rfl,
      hrd (g := Reg.HM_REGION00.PROTECTED n) (by decide : 37 + 1 ≤ 64) hn' (by decide : 0 < 0x20) rfl,
      hrd (g := Reg.HM_REGION00.KEY_MODE n) (by decide : 38 + 1 ≤ 64) hn' (by decide : 0 < 0x20) rfl,
      hrd (g := Reg.HM_REGION00.KEY_SLOT n) (by decide : 39 + 12 ≤ 64) hn' (by decide : 0 < 0x20) rfl,
      hrd (g := Reg.HM_REGION08.DATA_X_BASE n) (by decide : 0 + 31 ≤ 64) hn' (by decide : 8 < 0x20) (by simp only [Reg.HM_REGION08.DATA_X_BASE]; omega),
      hrd (g := Reg.HM_REGION10.SEAL_X_BASE n) (by decide : 0 + 31 ≤ 64) hn' (by decide : 16 < 0x20) (by simp only [Reg.HM_REGION10.SEAL_X_BASE]; omega)]
  rw [Block.regionAt, hnums, List.map_congr_left hregion, Block.regionAt]

theorem Block.firewall_of_steady {b c : Block} (h : c.steady = b.steady) (hboot : c.boot = b.boot) {a : Nat} (hrange : c.range a = b.range a)
    (w : Who) (rt : Right) : c.firewall w.slice (c.reqPart w) a rt = b.firewall w.slice (b.reqPart w) a rt := by
  have hslice {g : Fld} (hw : g.lo + g.w ≤ 64) (hg : 0x9000000 ≤ g.off) : c.rd g = b.rd g :=
    Block.rd_of_steady h (Fld.steady_of_off hw (.inr (.inl hg)))
  have hlayout : c.layout = b.layout := Block.rd_of_steady h (Fld.steady_of_off (g := Reg.MH_IMAGE.LAYOUT) (by decide) (.inl (by decide)))
  have hpart (p : Nat) : c.part p = b.part p := by rw [Block.part, Block.partIn, hlayout, hboot, Block.part, Block.partIn]
  have hholder (s : Nat) : c.siteHolder s = b.siteHolder s := by simp only [Block.siteHolder, Block.partWhere, hpart]
  have hslicePart (s : Nat) : c.slicePart s = b.slicePart s :=
    hslice (g := Reg.SL_CFG.PARTITION s) (by decide : 20 + 5 ≤ 64) (by simp only [Reg.SL_CFG.PARTITION]; omega)
  have hreq : c.reqPart w = b.reqPart w := by simp only [Block.reqPart, hslicePart, hholder]
  have hholds (p : Nat) : c.partHolds p a = b.partHolds p a := by
    simp only [Block.partHolds, hrange, hpart, Block.regionAt_of_steady h]
  have hwin (s k : Nat) : c.rd (Reg.SL_FW_WIN00.BASE s k) = b.rd (Reg.SL_FW_WIN00.BASE s k) ∧
      c.rd (Reg.SL_FW_WIN08.SIZE s k) = b.rd (Reg.SL_FW_WIN08.SIZE s k) ∧ c.is (Reg.SL_FW_WIN08.VALID s k) = b.is (Reg.SL_FW_WIN08.VALID s k) ∧
      c.is (Reg.SL_FW_WIN08.R s k) = b.is (Reg.SL_FW_WIN08.R s k) ∧ c.is (Reg.SL_FW_WIN08.W s k) = b.is (Reg.SL_FW_WIN08.W s k) ∧
      c.is (Reg.SL_FW_WIN08.A s k) = b.is (Reg.SL_FW_WIN08.A s k) := by
    have hoff : 0x9000000 ≤ 0xd000040 + 0x1000 * s + 0x10 * k ∧ 0x9000000 ≤ 0xd000048 + 0x1000 * s + 0x10 * k := by omega
    simp only [Block.is, hslice (g := Reg.SL_FW_WIN00.BASE s k) (by decide : 12 + 36 ≤ 64) hoff.1,
      hslice (g := Reg.SL_FW_WIN08.SIZE s k) (by decide : 0 + 36 ≤ 64) hoff.2,
      hslice (g := Reg.SL_FW_WIN08.VALID s k) (by decide : 39 + 1 ≤ 64) hoff.2,
      hslice (g := Reg.SL_FW_WIN08.R s k) (by decide : 36 + 1 ≤ 64) hoff.2,
      hslice (g := Reg.SL_FW_WIN08.W s k) (by decide : 37 + 1 ≤ 64) hoff.2,
      hslice (g := Reg.SL_FW_WIN08.A s k) (by decide : 38 + 1 ≤ 64) hoff.2, and_self]
  have hwins (s : Nat) : c.winsAt s a = b.winsAt s a := by
    refine List.filter_congr fun k _ => ?_
    obtain ⟨hbase, hsize, hvalid, -⟩ := hwin s k
    simp only [hbase, hsize, hvalid]
  have hrights (s k : Nat) := (hwin s k).2.2.2
  rw [hreq]
  cases rt <;> simp only [Block.firewall, hholds, hwins, fun s k => (hrights s k).1, fun s k => (hrights s k).2.1, fun s k => (hrights s k).2.2]

/-- Whether a request may go on. -/
theorem Block.checkReq_verdict {b c : Block} (h : c.steady = b.steady) (hboot : c.boot = b.boot) {a : Nat} (hrange : c.range a = b.range a)
    (w : Who) (rt : Right) : (c.checkReq w a rt).2 = (b.checkReq w a rt).2 := by
  have hlc {g : Fld} (hw : g.lo + g.w ≤ 64) (hg : 0x9000000 ≤ g.off) : c.rd g = b.rd g :=
    Block.rd_of_steady h (Fld.steady_of_off hw (.inr (.inl hg)))
  have hzero : c.zeroised a = b.zeroised a := by
    simp only [Block.zeroised, hrange, hlc (g := Reg.LC_STATUS.STATE) (by decide) (by decide),
      hlc (g := Reg.LC_STATUS.NEXT) (by decide) (by decide)]
  have hwall := Block.firewall_of_steady h hboot hrange w rt
  unfold Block.checkReq
  rw [hrange, hzero, hwall]
  cases b.range a with
  | unmapped => rfl
  | regs => cases w.agent.mayReg <;> rfl
  | _ => cases b.zeroised a <;> cases b.firewall w.slice (b.reqPart w) a rt <;> rfl

/-- A request that may go on changes nothing before it does. -/
theorem Block.checkReq_pass {b c : Block} {w : Who} {a : Nat} {rt : Right} (h : b.checkReq w a rt = (c, none)) : c = b := by
  unfold Block.checkReq at h
  split at h
  · cases h
  · split at h <;> cases h
    rfl
  · split at h
    · cases h
    · split at h <;> cases h
      rfl

/-- The check of one request of a block. -/
def Block.checkPiece (w : Who) (a : Nat) (rt : Right) (acc : Block × Option Status) (i : Nat) : Block × Option Status :=
  match acc.2 with
  | some _ => acc
  | none => acc.1.checkReq w (a + 256 * i) rt

theorem Block.checkBlock_eq_pieces (b : Block) (w : Who) (a : Nat) (rt : Right) :
    b.checkBlock w a rt = (List.range 16).foldl (Block.checkPiece w a rt) (b, none) := rfl

section
variable {b : Block} {w : Who} {a : Nat} {rt : Right}

theorem Block.checkPieces_stop (l : List Nat) (st : Status) : l.foldl (Block.checkPiece w a rt) (b, some st) = (b, some st) := by
  induction l with
  | nil => rfl
  | cons i l ih => exact ih

theorem Block.checkPieces_pass {l : List Nat} {c : Block} (h : l.foldl (Block.checkPiece w a rt) (b, none) = (c, none)) : c = b := by
  induction l with
  | nil => exact (congrArg Prod.fst h).symm
  | cons i l ih =>
    rw [List.foldl_cons, show Block.checkPiece w a rt (b, none) i = b.checkReq w (a + 256 * i) rt from rfl] at h
    rcases hcheck : b.checkReq w (a + 256 * i) rt with ⟨b1, - | st⟩ <;> rw [hcheck] at h
    · rw [Block.checkReq_pass hcheck] at h
      exact ih h
    · rw [Block.checkPieces_stop] at h
      cases h

theorem Block.checkPieces_of_pass {l : List Nat} (h : ∀ i ∈ l, (b.checkReq w (a + 256 * i) rt).2 = none) :
    l.foldl (Block.checkPiece w a rt) (b, none) = (b, none) := by
  induction l with
  | nil => rfl
  | cons i l ih =>
    have hi := h i (by simp)
    rw [List.foldl_cons, show Block.checkPiece w a rt (b, none) i = b.checkReq w (a + 256 * i) rt from rfl]
    rcases hcheck : b.checkReq w (a + 256 * i) rt with ⟨b1, o⟩
    rw [hcheck] at hi
    obtain rfl : o = none := hi
    rw [Block.checkReq_pass hcheck]
    exact ih fun k hk => h k (by simp [hk])

/-- The same of the checks of a block. -/
theorem Block.checkBlock_pass {c : Block} (h : b.checkBlock w a rt = (c, none)) : c = b :=
  Block.checkPieces_pass ((b.checkBlock_eq_pieces w a rt).symm.trans h)

theorem Block.checkBlock_of_pass (h : ∀ i, i < 16 → (b.checkReq w (a + 256 * i) rt).2 = none) : b.checkBlock w a rt = (b, none) :=
  (b.checkBlock_eq_pieces w a rt).trans (Block.checkPieces_of_pass fun i hi => h i (List.mem_range.mp hi))

end

end Sys2Proof.Machine
end

section
/-! SUPPORT. A site's request at the memory: what it asks is asked as it was received, and what comes of it is answered (R182–R185). -/

namespace Sys2Proof.Machine

/-! ### A request as it was received -/

/-- The requester that a context gives. -/
theorem Block.swpWho_mayReg {b : Block} {n core ctx : Nat} {w : Who} {o : Option Dispatch} (h : b.swpWho n core ctx = .ok (w, o)) :
    w.agent.mayReg = false := by
  unfold Block.swpWho at h
  split at h
  · cases h
    rfl
  · split at h
    · cases h
    · split at h
      · cases h
      · split at h
        · cases h
        · split at h <;> cases h
          rfl

section
variable {b : Block} {n : Nat} {p : Packet}

theorem Block.need_of_hears (hears : b.Hears n p) : (b.heard n p).ext.need = [] := by
  obtain ⟨-, -, -, -, -, hneed, -⟩ := hears
  exact hneed

theorem Block.rd_heard {g : Fld} (hg : g.off ≠ 0x4000180 + 0x100000 * n) : (b.heard n p).rd g = b.rd g := b.rd_count_rx n hg

theorem Block.linkState_heard (k : Nat) : (b.heard n p).linkState k = b.linkState k :=
  Block.rd_heard (show 0x4000010 + 0x100000 * k ≠ 0x4000180 + 0x100000 * n by omega)

theorem Block.range_heard (a : Nat) : (b.heard n p).range a = b.range a := by
  have hcap : (b.heard n p).hbmCap = b.hbmCap := by
    rw [Block.hbmCap, Block.rd_heard (show 0x5080008 ≠ 0x4000180 + 0x100000 * n by omega), Block.hbmCap]
  have henrolled (k : Nat) : (b.heard n p).enrolled k = b.enrolled k := by
    rw [Block.enrolled, Block.rd_heard (show 0x20 ≠ 0x4000180 + 0x100000 * n by omega), Block.enrolled]
  have hsize (k : Nat) : (b.heard n p).windowSize k = b.windowSize k := by
    rw [Block.windowSize, Block.rd_heard (show 0x4000200 + 0x100000 * k + 0x8 * 4 ≠ 0x4000180 + 0x100000 * n by omega), Block.windowSize]
  simp only [Block.range, hcap, henrolled, hsize]
  rfl

theorem Block.dispatchOf_heard (t : Nat) : (b.heard n p).dispatchOf n t = b.dispatchOf n t := by
  unfold Block.heard Block.dispatchOf
  rw [Block.site_setSite_same]
  rfl

theorem Block.txq_heard : ((b.heard n p).site n).txq = (b.site n).txq := by
  unfold Block.heard
  rw [Block.site_setSite_same]
  rfl

variable {d : Block} (hs : (b.heard n p).Stands d)
include hs

theorem Block.Stands.range_heard (a : Nat) : d.range a = b.range a := by rw [hs.rest, Block.aside_range, Block.range_heard]

theorem Block.Stands.sealable_heard (a : Nat) : d.sealable a = b.sealable a := by rw [Block.sealable, hs.range_heard, Block.sealable]

theorem Block.Stands.ownWindow_heard (a : Nat) : d.ownWindow n a = b.ownWindow n a := by rw [Block.ownWindow, hs.range_heard, Block.ownWindow]

theorem Block.Stands.swpWho_heard (core ctx : Nat) : d.swpWho n core ctx = b.swpWho n core ctx := by
  have hdispatch : d.dispatchOf n ctx = b.dispatchOf n ctx := by
    rw [Block.dispatchOf, hs.site, ← Block.dispatchOf, Block.dispatchOf_heard]
  have hensign : d.rd (Reg.ST_SWP_CFG.SITE_ENSIGN n) = b.rd (Reg.ST_SWP_CFG.SITE_ENSIGN n) :=
    (hs.rd _).trans (Block.rd_heard (show 0x4000100 + 0x100000 * n ≠ 0x4000180 + 0x100000 * n by omega))
  unfold Block.swpWho
  rw [hdispatch, hensign]
  rfl

end

/-! ### What comes of it -/

/-- `c` is `b` after accesses to the memory. -/
structure Block.Worked (b c : Block) : Prop where
  rest : c.aside b = c
  steady : c.steady = b.steady

namespace Block.Worked

variable {b c d : Block}

theorem refl (b : Block) : b.Worked b := ⟨rfl, rfl⟩

theorem boot (h : b.Worked c) : c.boot = b.boot := (congrArg Block.boot h.rest).symm

theorem trans (h : b.Worked c) (k : c.Worked d) : b.Worked d where
  rest := by
    rw [← k.rest, ← h.rest]
    rfl
  steady := k.steady.trans h.steady

theorem dla {w : Who} (hreg : w.agent.mayReg = false) (a len : Nat) (op : MemOp) : b.Worked (b.dla w a len op).1 :=
  ⟨(congrArg Prod.fst (Block.aside_dla (b := b) (c := b) hreg rfl a len op)).symm, Block.steady_dla hreg a len op⟩

theorem perform {w : Who} {a : Nat} (h : b.range a ≠ .regs) (len : Nat) (op : MemOp) : b.Worked (b.perform w a len op).1 :=
  ⟨(congrArg Prod.fst (b.aside_perform b len op h)).symm, b.steady_perform len op h⟩

theorem dlaWriteBlock {w : Who} (a : Nat) (data : List Byte) (sl : Nat) : b.Worked (b.dlaWriteBlock w a data sl).1 where
  rest := (congrArg Prod.fst (Block.aside_dlaWriteBlock (b := b) (c := b) rfl a data sl)).symm
  steady := by
    have hcheck := b.still_checkBlock w a .w
    rcases hq : b.checkBlock w a .w with ⟨b1, - | st⟩ <;> rw [hq] at hcheck
    · rw [Block.dlaWriteBlock_of_check hq]
      exact (b1.steady_placeBlock w a data sl).trans (Block.steady_of_still hcheck)
    · rw [Block.dlaWriteBlock_of_check hq]
      exact Block.steady_of_still hcheck

theorem dlaReadBlock {w : Who} (hreg : w.agent.mayReg = false) (a : Nat) : b.Worked (b.dlaReadBlock w a).1 :=
  ⟨(congrArg Prod.fst (Block.aside_dlaReadBlock (b := b) (c := b) hreg rfl a)).symm, Block.steady_dlaReadBlock hreg a⟩

end Block.Worked

section
variable {s : State} {n : Nat} {p : Packet} (hn : n < 16) (hears : s.blk.Hears n p) {b : Block} (hb : (s.blk.heard n p).Worked b)
include hn hears hb

/-- The link is up and idle still. -/
theorem Block.Worked.ready {d : Block} (hs : (s.blk.heard n p).Stands d) :
    (b.aside d).linkUp n = true ∧ ((b.aside d).site n).txq = [] := by
  obtain ⟨hlink, -, -, -, hidle, -⟩ := hears
  have hstate : (b.aside d).linkState n = Link.ENROLLED :=
    (Block.linkState_of_steady hb.steady hn).trans ((Block.linkState_heard n).trans hlink)
  have hsite : (b.aside d).site n = (s.blk.heard n p).site n := hs.site n
  exact ⟨by simp [Block.linkUp, hstate], by rw [hsite, Block.txq_heard, hidle]⟩

/-- A request that ends with a status replies it. -/
theorem Block.Worked.replies_resp {d : Block} (hs : (s.blk.heard n p).Stands d) (st : Status) :
    (b.aside d).Replies ((b.aside d).siteResp n p.tag st) n p.tag (Packet.short 0x41 p.tag 0 0 st) := by
  obtain ⟨hup, hidle⟩ := hb.ready hn hears hs
  exact Block.siteResp_replies hup hidle p.tag st

/-- A request that ends with data replies them. -/
theorem Block.Worked.replies_data {d : Block} (hs : (s.blk.heard n p).Stands d) {op : Nat} (hop : 0x40 ≤ op) (len : Nat)
    (ds : List Byte) : (b.aside d).Replies ((b.aside d).siteData n op p.tag len ds) n p.tag
      ⟨op, ceilDiv ds.length 16, p.tag, len, 0, 0, 0, 0, 0, sliceBytes ds 0 (16 * ceilDiv ds.length 16)⟩ := by
  obtain ⟨hup, hidle⟩ := hb.ready hn hears hs
  exact Block.siteData_replies hup hidle hop p.tag len ds

variable {c : Instr} {run : Block → Block} (hexec : exec c s = .next (s.upd fun b => b.serve n p run)) (hasks : p.Asks)
  (hneed : b.ext.need = [])
include hexec hasks hneed

/-- A request whose service ends with a status is answered with it. -/
theorem answers_resp {st : Status} (hrun : ∀ d, (s.blk.heard n p).Stands d → run d = (b.aside d).siteResp n p.tag st) :
    Yields c s fun t => s.Answers t n b p (Packet.short 0x41 p.tag 0 0 st) :=
  answers_of_serve hasks hears hb.rest (hexec := hexec) (hneed := hneed) fun d hs => by
    rw [hrun d hs]
    exact hb.replies_resp hn hears hs st

/-- A request whose service ends with data is answered with them. -/
theorem answers_data {op len : Nat} (hop : 0x40 ≤ op) {ds : List Byte}
    (hrun : ∀ d, (s.blk.heard n p).Stands d → run d = (b.aside d).siteData n op p.tag len ds) :
    Yields c s fun t => s.Answers t n b p
      ⟨op, ceilDiv ds.length 16, p.tag, len, 0, 0, 0, 0, 0, sliceBytes ds 0 (16 * ceilDiv ds.length 16)⟩ :=
  answers_of_serve hasks hears hb.rest (hexec := hexec) (hneed := hneed) fun d hs => by
    rw [hrun d hs]
    exact hb.replies_data hn hears hs hop len ds

end

end Sys2Proof.Machine
end

section
/-! SUPPORT. RD, WR and ADD, and the requests that make no access (R174, R178, R182, R183). -/

namespace Sys2Proof.Machine

section
variable {b : Block} {n : Nat} {p : Packet}

/-! ### The checks of R182 -/

theorem Block.swpServe_context {st : Status} (hwho : b.swpWho n p.core p.ctx = .error st) (run : Block → Who → Block) :
    b.swpServe n p run = b.siteResp n p.tag st := by
  unfold Block.swpServe
  rw [hwho]

theorem Block.swpBlocks_context {st : Status} (hwho : b.swpWho n p.core p.ctx = .error st) :
    b.swpWriteBlock n p = b.siteResp n p.tag st ∧ b.swpReadBlock n p = b.siteResp n p.tag st ∧
      b.swpSyncWait n p = b.siteResp n p.tag st := by
  unfold Block.swpWriteBlock Block.swpReadBlock Block.swpSyncWait
  rw [hwho]
  exact ⟨rfl, rfl, rfl⟩

variable {w : Who} {o : Option Dispatch} (hwho : b.swpWho n p.core p.ctx = .ok (w, o)) (run : Block → Who → Block)
include hwho

theorem Block.swpServe_crossing (hcross : 256 < p.addr % 256 + p.len + 1) :
    b.swpServe n p run = b.siteResp n p.tag Code.SWP_BAD_PACKET := by
  unfold Block.swpServe
  rw [hwho]
  exact if_pos hcross

theorem Block.swpServe_ownWindow (hwithin : ¬256 < p.addr % 256 + p.len + 1) (hown : b.ownWindow n p.addr = true) :
    b.swpServe n p run = b.siteResp n p.tag Code.SWP_OWN_WINDOW := by
  unfold Block.swpServe
  rw [hwho]
  exact (if_neg hwithin).trans (if_pos hown)

theorem Block.swpServe_of_checked (hwithin : ¬256 < p.addr % 256 + p.len + 1) (hown : b.ownWindow n p.addr = false) :
    b.swpServe n p run = run b w := by
  unfold Block.swpServe
  rw [hwho]
  exact (if_neg hwithin).trans (if_neg (by simp [hown]))

end

/-! ### Requests that make no access -/

/-- The commands whose requests R182 checks, each with its packet and what it runs. -/
theorem swpServe_commands {site : SiteNo} {h : PacketHdr} {data : List Byte} {c : Instr} {p : Packet}
    (hc : (c, p) ∈ ([(.rd site h, Packet.of 0x01 h []), (.wr site h data, Packet.of 0x02 h data),
      (.swpAdd site h data, Packet.of 0x04 h data)] : List (Instr × Packet))) (s : State) :
    p.Asks ∧ p.tag = h.tag.toNat ∧ p.core = h.core ∧ p.ctx = h.ctx.toNat ∧ p.addr = h.addr.toNat ∧ p.len = h.len.toNat ∧
      ∃ run, exec c s = .next (s.upd fun b => b.serve site p fun b => b.swpServe site p run) := by
  simp only [List.mem_cons, Prod.mk.injEq, List.not_mem_nil, or_false] at hc
  rcases hc with ⟨rfl, rfl⟩ | ⟨rfl, rfl⟩ | ⟨rfl, rfl⟩
  · exact ⟨Packet.asks_of (by decide) h _, rfl, rfl, rfl, rfl, rfl, _, rfl⟩
  · exact ⟨Packet.asks_of (by decide) h _, rfl, rfl, rfl, rfl, rfl, _, rfl⟩
  · exact ⟨Packet.asks_of (by decide) h _, rfl, rfl, rfl, rfl, rfl, _, rfl⟩

section
variable {s : State} {site : SiteNo} {h : PacketHdr} {data : List Byte} {c : Instr} {p : Packet} {w : Who} {o : Option Dispatch}

theorem request_turned_away (hc : (c, p) ∈ ([(.rd site h, Packet.of 0x01 h []), (.wr site h data, Packet.of 0x02 h data),
      (.swpAdd site h data, Packet.of 0x04 h data)] : List (Instr × Packet))) (hears : s.blk.Hears site p)
    (hwho : s.blk.swpWho site h.core h.ctx.toNat = .ok (w, o)) :
    (256 < h.addr.toNat % 256 + (h.len.toNat + 1) →
      Yields c s fun t => s.Answers t site (s.blk.heard site p) p (Packet.short 0x41 h.tag.toNat 0 0 Code.SWP_BAD_PACKET)) ∧
    (h.addr.toNat % 256 + (h.len.toNat + 1) ≤ 256 → s.blk.ownWindow site h.addr.toNat = true →
      Yields c s fun t => s.Answers t site (s.blk.heard site p) p (Packet.short 0x41 h.tag.toNat 0 0 Code.SWP_OWN_WINDOW)) := by
  obtain ⟨hasks, htag, hcore, hctx, haddr, hlen, run, hexec⟩ := swpServe_commands hc s
  have hneed : (s.blk.heard site p).ext.need = [] := Block.need_of_hears hears
  rw [← htag, ← haddr, ← hlen]
  rw [← hcore, ← hctx] at hwho
  refine ⟨fun hcross => ?_, fun hwithin hown => ?_⟩
  · refine answers_resp site.isLt hears (.refl _) hexec hasks hneed fun d hs => ?_
    exact (Block.swpServe_crossing ((hs.swpWho_heard _ _).trans hwho) run hcross).trans (by rw [← hs.rest])
  · refine answers_resp site.isLt hears (.refl _) hexec hasks hneed fun d hs => ?_
    refine (Block.swpServe_ownWindow ((hs.swpWho_heard _ _).trans hwho) run (by omega) ?_).trans (by rw [← hs.rest])
    rw [hs.ownWindow_heard, hown]

/-- A context that is not live (R178). -/
theorem context_turned_away {st : Status} (hwho : s.blk.swpWho site h.core h.ctx.toNat = .error st)
    (hc : (c, p) ∈ ([(.rd site h, Packet.of 0x01 h []), (.wr site h data, Packet.of 0x02 h data),
      (.wrBlock site h data, Packet.of 0x03 h data), (.swpAdd site h data, Packet.of 0x04 h data),
      (.rdBlock site h, Packet.of 0x05 h []), (.syncWait site h 0, Packet.of 0x06 h (natLE 16 0))] : List (Instr × Packet)))
    (hears : s.blk.Hears site p) :
    Yields c s fun t => s.Answers t site (s.blk.heard site p) p (Packet.short 0x41 h.tag.toNat 0 0 st) := by
  have hneed : (s.blk.heard site p).ext.need = [] := Block.need_of_hears hears
  have hworked := Block.Worked.refl (s.blk.heard site p)
  have hwho' {d : Block} (hs : (s.blk.heard site p).Stands d) : d.swpWho site h.core h.ctx.toNat = .error st :=
    (hs.swpWho_heard _ _).trans hwho
  simp only [List.mem_cons, Prod.mk.injEq, List.not_mem_nil, or_false] at hc
  rcases hc with ⟨rfl, rfl⟩ | ⟨rfl, rfl⟩ | ⟨rfl, rfl⟩ | ⟨rfl, rfl⟩ | ⟨rfl, rfl⟩ | ⟨rfl, rfl⟩
  · exact answers_resp site.isLt hears hworked (exec_rd ..) (Packet.asks_of (by decide) h _) hneed fun d hs =>
      (Block.swpServe_context (hwho' hs) _).trans (by rw [← hs.rest])
  · exact answers_resp site.isLt hears hworked (exec_wr ..) (Packet.asks_of (by decide) h _) hneed fun d hs =>
      (Block.swpServe_context (hwho' hs) _).trans (by rw [← hs.rest])
  · exact answers_resp site.isLt hears hworked (exec_wrBlock ..) (Packet.asks_of (by decide) h _) hneed fun d hs =>
      (Block.swpBlocks_context (hwho' hs)).1.trans (by rw [← hs.rest])
  · exact answers_resp site.isLt hears hworked (exec_swpAdd ..) (Packet.asks_of (by decide) h _) hneed fun d hs =>
      (Block.swpServe_context (hwho' hs) _).trans (by rw [← hs.rest])
  · exact answers_resp site.isLt hears hworked (exec_rdBlock ..) (Packet.asks_of (by decide) h _) hneed fun d hs =>
      (Block.swpBlocks_context (hwho' hs)).2.1.trans (by rw [← hs.rest])
  · refine answers_of_packetIn (run := fun b => b.swpSyncWait site (Packet.of 0x06 h (natLE 16 0))) (Packet.asks_of (by decide) h _)
      hears rfl (hexec := exec_syncWait ..) fun d hs => ?_
    have hreply := hworked.replies_resp site.isLt hears hs st
    rw [← hs.rest] at hreply ⊢
    obtain ⟨-, -, hsync⟩ := Block.swpBlocks_context (p := Packet.of 0x06 h (natLE 16 0)) (hwho' hs)
    exact hsync ▸ hreply

end

end Sys2Proof.Machine
end

section
/-! SUPPORT. RD, WR and ADD at the memory (R182, R183). -/

namespace Sys2Proof.Machine

/-- What an access comes to does not depend on how the sites are listed. -/
theorem Block.Stands.dla {h d b : Block} (hs : h.Stands d) {w : Who} (hreg : w.agent.mayReg = false) {a len : Nat} {op : MemOp} {st : Status}
    {ds : List Byte} (hdla : h.dla w a len op = (b, st, ds)) : d.dla w a len op = (b.aside d, st, ds) := by
  have haside := Block.aside_dla (b := h) (c := d) hreg hs.boot a len op
  rw [← hs.rest, hdla] at haside
  exact haside

theorem Block.Stands.checkReq {h d b : Block} (hs : h.Stands d) {w : Who} {a : Nat} {rt : Right} {o : Option Status}
    (hcheck : h.checkReq w a rt = (b, o)) : d.checkReq w a rt = (b.aside d, o) := by
  have haside := Block.aside_checkReq (b := h) (c := d) (w := w) hs.boot a rt
  rw [← hs.rest, hcheck] at haside
  exact haside

section
variable {s : State} {site : SiteNo} {h : PacketHdr} {w : Who} {o : Option Dispatch} {b : Block} {st : Status} {ds : List Byte}
  (hwho : s.blk.swpWho site h.core h.ctx.toNat = .ok (w, o)) (hwithin : h.addr.toNat % 256 + (h.len.toNat + 1) ≤ 256)
  (hown : s.blk.ownWindow site h.addr.toNat = false)
include hwho hwithin hown

/-- A request of this context runs. -/
theorem Block.Stands.swpServe_heard {op : Nat} {data : List Byte} {d : Block} (hs : (s.blk.heard site (Packet.of op h data)).Stands d)
    (run : Block → Who → Block) : d.swpServe site (Packet.of op h data) run = run d w :=
  Block.swpServe_of_checked (p := Packet.of op h data) ((hs.swpWho_heard _ _).trans hwho) run (by simp only [Packet.of]; omega)
    ((hs.ownWindow_heard _).trans hown)

theorem rd_answered (hears : s.blk.Hears site (Packet.of 0x01 h []))
    (hdla : (s.blk.heard site (Packet.of 0x01 h [])).dla w h.addr.toNat (h.len.toNat + 1) .read = (b, st, ds)) (hneed : b.ext.need = []) :
    Yields (.rd site h) s fun t => s.Answers t site b (Packet.of 0x01 h []) (if st = Code.SUCCESS then
      ⟨0x40, ceilDiv ds.length 16, h.tag.toNat, h.len.toNat, 0, 0, 0, 0, 0, sliceBytes ds 0 (16 * ceilDiv ds.length 16)⟩
      else Packet.short 0x41 h.tag.toNat 0 0 st) := by
  have hreg := Block.swpWho_mayReg hwho
  have hworked : (s.blk.heard site (Packet.of 0x01 h [])).Worked b := by
    have hdone := Block.Worked.dla (b := s.blk.heard site (Packet.of 0x01 h [])) hreg h.addr.toNat (h.len.toNat + 1) .read
    rwa [hdla] at hdone
  have hrun {d : Block} (hs : (s.blk.heard site (Packet.of 0x01 h [])).Stands d) : d.swpRead site (Packet.of 0x01 h []) =
      if st = Code.SUCCESS then (b.aside d).siteData site 0x40 h.tag.toNat h.len.toNat ds else (b.aside d).siteResp site h.tag.toNat st := by
    rw [Block.swpRead, hs.swpServe_heard hwho hwithin hown]
    dsimp only [Packet.of]
    rw [hs.dla hreg hdla]
  by_cases hst : st = Code.SUCCESS
  · rw [if_pos hst]
    exact answers_data site.isLt hears hworked (exec_rd ..) (Packet.asks_of (by decide) h _) hneed (by decide : 0x40 ≤ 0x40)
      fun d hs => (hrun hs).trans (if_pos hst)
  · rw [if_neg hst]
    exact answers_resp site.isLt hears hworked (exec_rd ..) (Packet.asks_of (by decide) h _) hneed fun d hs => (hrun hs).trans (if_neg hst)

theorem wr_answered {data : List Byte} (hears : s.blk.Hears site (Packet.of 0x02 h data))
    (hdla : (s.blk.heard site (Packet.of 0x02 h data)).dla w h.addr.toNat (h.len.toNat + 1) (.write (sliceBytes data 0 (h.len.toNat + 1))) =
      (b, st, ds)) (hneed : b.ext.need = []) : Yields (.wr site h data) s fun t =>
        s.Answers t site b (Packet.of 0x02 h data) (Packet.short 0x41 h.tag.toNat 0 0 st) := by
  have hreg := Block.swpWho_mayReg hwho
  have hworked : (s.blk.heard site (Packet.of 0x02 h data)).Worked b := by
    have hdone := Block.Worked.dla (b := s.blk.heard site (Packet.of 0x02 h data)) hreg h.addr.toNat (h.len.toNat + 1)
      (.write (sliceBytes data 0 (h.len.toNat + 1)))
    rwa [hdla] at hdone
  refine answers_resp site.isLt hears hworked (exec_wr ..) (Packet.asks_of (by decide) h _) hneed fun d hs => ?_
  rw [Block.swpWrite, hs.swpServe_heard hwho hwithin hown]
  dsimp only [Packet.of]
  rw [hs.dla hreg hdla]

section
variable {data : List Byte} (hears : s.blk.Hears site (Packet.of 0x04 h data)) {b1 : Block}
  (hcheck : (s.blk.heard site (Packet.of 0x04 h data)).checkReq w h.addr.toNat .a = (b1, none))
include hears hcheck

theorem swpAdd_answered (hfits : s.blk.sealable h.addr.toNat ∧ h.addr.toNat % (Swp.addFmt h.attr.toNat).bytes = 0 ∧
      (h.len.toNat + 1) % (Swp.addFmt h.attr.toNat).bytes = 0)
    (hperform : b1.perform w h.addr.toNat (h.len.toNat + 1)
      (.add (Swp.addFmt h.attr.toNat) (sliceBytes data 0 (h.len.toNat + 1))) = (b, st, ds)) (hneed : b.ext.need = []) :
    Yields (.swpAdd site h data) s fun t =>
      s.Answers t site b (Packet.of 0x04 h data) (Packet.short 0x41 h.tag.toNat 0 0 st) := by
  have hreg := Block.swpWho_mayReg hwho
  have hregs := Block.range_ne_regs_of_checkReq hreg hcheck
  have hpass := Block.checkReq_pass hcheck
  subst hpass
  have hworked : (s.blk.heard site (Packet.of 0x04 h data)).Worked b := by
    have hdone := Block.Worked.perform (w := w) hregs (h.len.toNat + 1)
      (.add (Swp.addFmt h.attr.toNat) (sliceBytes data 0 (h.len.toNat + 1)))
    rwa [hperform] at hdone
  obtain ⟨hsealable, haligned, hwhole⟩ := hfits
  refine answers_resp site.isLt hears hworked (exec_swpAdd ..) (Packet.asks_of (by decide) h _) hneed fun d hs => ?_
  have hadd := Block.aside_perform _ d (w := w) (h.len.toNat + 1)
    (.add (Swp.addFmt h.attr.toNat) (sliceBytes data 0 (h.len.toNat + 1))) hregs
  rw [hperform, ← hs.rest] at hadd
  have hchecked := hs.checkReq hcheck
  rw [← hs.rest] at hchecked
  rw [Block.swpAdd, hs.swpServe_heard hwho hwithin hown]
  dsimp only [Packet.of]
  rw [hchecked]
  dsimp only
  have hsealable' : d.sealable h.addr.toNat = true := (hs.sealable_heard _).trans hsealable
  refine (if_neg (by simp [hsealable', haligned, hwhole])).trans ?_
  rw [hadd]
  rfl

theorem swpAdd_refused (hfits : ¬(s.blk.sealable h.addr.toNat ∧ h.addr.toNat % (Swp.addFmt h.attr.toNat).bytes = 0 ∧
      (h.len.toNat + 1) % (Swp.addFmt h.attr.toNat).bytes = 0)) : Yields (.swpAdd site h data) s fun t =>
    s.Answers t site b1 (Packet.of 0x04 h data) (Packet.short 0x41 h.tag.toNat 0 0 Code.SWP_NOT_ADDABLE) := by
  have hpass := Block.checkReq_pass hcheck
  subst hpass
  refine answers_resp site.isLt hears (.refl _) (exec_swpAdd ..) (Packet.asks_of (by decide) h _) (Block.need_of_hears hears)
    fun d hs => ?_
  have hchecked := hs.checkReq hcheck
  rw [← hs.rest] at hchecked
  have hunfit : (!d.sealable h.addr.toNat) = true ∨ h.addr.toNat % (Swp.addFmt h.attr.toNat).bytes ≠ 0 ∨
      (h.len.toNat + 1) % (Swp.addFmt h.attr.toNat).bytes ≠ 0 := by
    rw [not_and_or, not_and_or] at hfits
    simpa [hs.sealable_heard] using hfits
  rw [Block.swpAdd, hs.swpServe_heard hwho hwithin hown]
  dsimp only [Packet.of]
  rw [hchecked]
  dsimp only
  refine (if_pos hunfit).trans ?_
  exact congrArg (fun b : Block => b.siteResp site h.tag.toNat Code.SWP_NOT_ADDABLE) hs.rest

end

end

end Sys2Proof.Machine
end

section
/-! SUPPORT. A block that is read whole passed the check of each of its requests (R31, R42, R185). -/

namespace Sys2Proof.Machine

/-! ### A block lies in one memory -/

theorem Block.sealable_iff {b : Block} {a : Nat} : b.sealable a = true ↔ b.range a = .shelf ∨ ∃ o, b.range a = .hbm o := by
  unfold Block.sealable
  cases b.range a <;> simp

/-- A site's window holds no block that may carry a seal. -/
theorem Block.ownWindow_of_sealable {b : Block} {n a : Nat} (h : b.sealable a = true) : b.ownWindow n a = false := by
  rcases Block.sealable_iff.mp h with hrange | ⟨o, hrange⟩ <;> simp [Block.ownWindow, hrange]

section
variable {b : Block} {a : Nat}

theorem Block.range_of_shelf (h : a < 2 ^ 29) : b.range a = .shelf := if_pos h

/-- HBM's space holds HBM below its capacity. -/
theorem Block.range_of_hbm (hlo : Dla.hbmBase ≤ a) (hhi : a < Dla.hbmBase + 2 ^ 39) :
    b.range a = if a - Dla.hbmBase < b.hbmCap && !b.hbm.disabled then .hbm (a - Dla.hbmBase) else .unmapped := by
  unfold Block.range
  rw [if_neg (by simp only [Dla.hbmBase] at hlo; omega), if_neg (by simp only [Dla.hbmBase, Dla.syncBase] at hlo ⊢; omega),
    if_neg (by simp only [Dla.hbmBase, Dla.regBase] at hlo ⊢; omega), if_pos ⟨hlo, hhi⟩]

/-- What range lies where. -/
theorem Block.range_sealable (h : b.sealable a = true) : a < 2 ^ 29 ∨
    (Dla.hbmBase ≤ a ∧ a < Dla.hbmBase + 2 ^ 39 ∧ a - Dla.hbmBase < b.hbmCap ∧ b.hbm.disabled = false) := by
  by_cases hshelf : a < 2 ^ 29
  · exact .inl hshelf
  right
  by_cases hhbm : Dla.hbmBase ≤ a ∧ a < Dla.hbmBase + 2 ^ 39
  · obtain ⟨hlo, hhi⟩ := hhbm
    rw [Block.sealable, Block.range_of_hbm hlo hhi] at h
    by_cases hin : (decide (a - Dla.hbmBase < b.hbmCap) && !b.hbm.disabled) = true
    · simp only [Bool.and_eq_true, decide_eq_true_eq, Bool.not_eq_true'] at hin
      exact ⟨hlo, hhi, hin.1, hin.2⟩
    · rw [if_neg hin] at h
      cases h
  · exfalso
    unfold Block.sealable Block.range at h
    rw [if_neg hshelf] at h
    by_cases hsync : Dla.syncBase ≤ a ∧ a < Dla.syncBase + 2 ^ 20
    · rw [if_pos hsync] at h
      cases h
    by_cases hregs : Dla.regBase ≤ a ∧ a < Dla.regBase + 2 ^ 28
    · rw [if_neg hsync, if_pos hregs] at h
      cases h
    rw [if_neg hsync, if_neg hregs, if_neg hhbm] at h
    cases hwindow : Dla.window a with
    | none =>
      rw [hwindow] at h
      cases h
    | some q =>
      rw [hwindow] at h
      dsimp only at h
      by_cases hin : (b.enrolled q.1 && decide (q.2 < b.windowSize q.1)) = true
      · rw [if_pos hin] at h
        cases h
      · rw [if_neg hin] at h
        cases h

/-- HBM's capacity is a whole number of blocks. -/
theorem Block.hbmCap_blocks (b : Block) : b.hbmCap % 4096 = 0 := by
  unfold Block.hbmCap
  omega

/-- The requests of a block that may carry a seal stay in its memory. -/
theorem Block.range_of_block (h : b.sealable a = true) (haligned : a % 4096 = 0) {i : Nat} (hi : i < 16) :
    Dla.window (a + 256 * i) = none ∧ ∀ c : Block, c.range (a + 256 * i) ≠ .unmapped → c.range (a + 256 * i) = b.range (a + 256 * i) := by
  rcases Block.range_sealable h with hshelf | ⟨hlo, hhi, hcap, hdisabled⟩
  · refine ⟨if_neg (by simp only [Dla.windowBase]; omega), fun c _ => ?_⟩
    rw [Block.range_of_shelf (by omega), Block.range_of_shelf (by omega)]
  · have hlo' : Dla.hbmBase ≤ a + 256 * i := by omega
    have hhi' : a + 256 * i < Dla.hbmBase + 2 ^ 39 := by
      simp only [Dla.hbmBase] at hlo hhi ⊢
      omega
    have hcap' : a + 256 * i - Dla.hbmBase < b.hbmCap := by
      have hblocks := b.hbmCap_blocks
      have hbase : Dla.hbmBase % 4096 = 0 := by decide
      generalize Dla.hbmBase = base at *
      generalize b.hbmCap = cap at *
      omega
    refine ⟨if_neg (by simp only [Dla.windowBase, Dla.hbmBase] at hhi ⊢; omega), fun c hmapped => ?_⟩
    have hb := Block.range_of_hbm (b := b) hlo' hhi'
    rw [if_pos (by simp [hcap', hdisabled])] at hb
    rw [hb]
    rw [Block.range_of_hbm hlo' hhi'] at hmapped ⊢
    by_cases hin : (decide (a + 256 * i - Dla.hbmBase < c.hbmCap) && !c.hbm.disabled) = true
    · exact if_pos hin
    · exact absurd (if_neg hin) hmapped

/-! ### A read that succeeds was checked -/

theorem Block.firewall_status {slice part : Option Nat} {rt : Right} {st : Status} (h : b.firewall slice part a rt = some st) :
    st ≠ Code.SUCCESS := by
  unfold Block.firewall at h
  extract_lets stage at h
  clear_value stage
  have hcode {q : Prop} [Decidable q] {c : Status} (hc : c ≠ Code.SUCCESS) (h : (if q then none else some c) = some st) :
      st ≠ Code.SUCCESS := by
    by_cases hq : q
    · rw [if_pos hq] at h
      cases h
    · rw [if_neg hq] at h
      cases h
      exact hc
  cases slice with
  | none => exact hcode (by decide) h
  | some k =>
    dsimp only at h
    by_cases hpart : k ≠ 0 ∧ (!stage) = true
    · rw [if_pos hpart] at h
      cases h
      decide
    rw [if_neg hpart] at h
    by_cases hwins : (b.winsAt k a).isEmpty
    · rw [if_pos hwins] at h
      cases h
      decide
    rw [if_neg hwins] at h
    exact hcode (by decide) h

/-- No request is turned away with SUCCESS. -/
theorem Block.checkReq_status {w : Who} {rt : Right} {st : Status} (h : (b.checkReq w a rt).2 = some st) : st ≠ Code.SUCCESS := by
  unfold Block.checkReq at h
  split at h
  · cases h
    decide
  · split at h <;> cases h
    decide
  · split at h
    · cases h
      decide
    · split at h
      · next hwall =>
        cases h
        exact Block.firewall_status hwall
      · cases h

/-- A request that passes its checks is to something. -/
theorem Block.range_of_pass {w : Who} {rt : Right} (h : (b.checkReq w a rt).2 = none) : b.range a ≠ .unmapped := by
  intro hrange
  simp [Block.checkReq, hrange] at h

theorem Block.checkReq_of_read {w : Who} {len : Nat} (hwindow : Dla.window a = none) (h : (b.dla w a len .read).2.1 = Code.SUCCESS) :
    (b.checkReq w a .r).2 = none := by
  have hdone : b.windowDone w a len .read = none := by
    unfold Block.windowDone
    rw [hwindow]
  unfold Block.dla at h
  rw [hdone] at h
  dsimp only [MemOp.right] at h
  rcases hcheck : b.checkReq w a .r with ⟨b1, - | st⟩
  · rfl
  · rw [hcheck] at h
    exact absurd h (Block.checkReq_status (congrArg Prod.snd hcheck))

end

/-- The pieces of a length of whole chunks from a chunk's start. -/
theorem chunks_aligned {m k a : Nat} (off : Nat) (hk : m ≤ k) (ha : a % 256 = 0) :
    chunks k a (256 * m) off = (List.range m).map fun i => (a + 256 * i, 256, off + 256 * i) := by
  induction m generalizing k a off with
  | zero => cases k <;> rfl
  | succ m ih =>
    obtain ⟨k, rfl⟩ := Nat.exists_eq_add_of_le' hk
    have hlen : min (256 * (m + 1)) (256 - a % 256) = 256 := by omega
    have hrest : 256 * (m + 1) - 256 = 256 * m := by omega
    rw [show k + (m + 1) = (k + m) + 1 from rfl, chunks, if_neg (by omega)]
    dsimp only
    rw [hlen, hrest, ih (off + 256) (by omega) (by omega), List.range_succ_eq_map]
    simp only [List.map_cons, List.map_map, Nat.mul_zero, Nat.add_zero]
    refine congrArg _ (List.map_congr_left fun i _ => ?_)
    simp only [Function.comp, Nat.mul_succ, Prod.mk.injEq, true_and]
    omega

section
variable {b : Block} {w : Who} (hreg : w.agent.mayReg = false)
include hreg

/-- Each piece of a read that succeeds was read, beside what the pieces before it left. -/
theorem Block.readPieces_success {l : List (Nat × Nat × Nat)} {q : Block × Status × List Byte}
    (h : (l.foldl (Block.readPiece w) q).2.1 = Code.SUCCESS) : q.2.1 = Code.SUCCESS ∧
      ∀ x ∈ l, ∃ c : Block, c.steady = q.1.steady ∧ c.boot = q.1.boot ∧ (c.dla w x.1 x.2.1 .read).2.1 = Code.SUCCESS := by
  induction l generalizing q with
  | nil => exact ⟨h, fun x hx => absurd hx (by simp)⟩
  | cons y l ih =>
    obtain ⟨hhead, htail⟩ := ih h
    by_cases hq : q.2.1 = Code.SUCCESS
    · have hpiece : Block.readPiece w q y = ((q.1.dla w y.1 y.2.1 .read).1, (q.1.dla w y.1 y.2.1 .read).2.1,
          q.2.2 ++ (q.1.dla w y.1 y.2.1 .read).2.2) := by simp [Block.readPiece, hq]
      refine ⟨hq, fun x hx => ?_⟩
      rcases List.mem_cons.mp hx with rfl | hx
      · exact ⟨q.1, rfl, rfl, by rw [hpiece] at hhead; exact hhead⟩
      · obtain ⟨c, hsteady, hboot, hdla⟩ := htail x hx
        rw [hpiece] at hsteady hboot
        exact ⟨c, hsteady.trans (Block.steady_dla hreg ..), hboot.trans (Block.dla_boot hreg ..), hdla⟩
    · have hstop : Block.readPiece w q y = q := by simp [Block.readPiece, hq]
      rw [hstop] at hhead
      exact absurd hhead hq

/-- A block that may carry a seal and is read whole passes its checks. -/
theorem Block.checkBlock_of_read {a : Nat} (hsealable : b.sealable a = true) (haligned : a % 4096 = 0)
    (h : (b.dlaReadBlock w a).2.1 = Code.SUCCESS) : b.checkBlock w a .r = (b, none) := by
  have hread : (b.dlaRead w a 4096).2.1 = Code.SUCCESS := by
    by_contra hfail
    unfold Block.dlaReadBlock at h
    rw [if_pos hfail] at h
    exact hfail h
  have hpieces : ((chunksOf a 4096).foldl (Block.readPiece w) (b, Code.SUCCESS, [])).2.1 = Code.SUCCESS := by
    by_contra hfail
    rw [Block.dlaRead_eq_pieces, if_neg hfail] at hread
    exact hfail hread
  have hchunks : chunksOf a 4096 = (List.range 16).map fun i => (a + 256 * i, 256, 0 + 256 * i) :=
    chunks_aligned (m := 16) (k := 18) 0 (by decide) (by omega)
  rw [hchunks] at hpieces
  obtain ⟨-, hall⟩ := Block.readPieces_success hreg hpieces
  refine Block.checkBlock_of_pass fun i hi => ?_
  obtain ⟨c, hsteady, hboot, hdla⟩ := hall (a + 256 * i, 256, 0 + 256 * i) (List.mem_map.mpr ⟨i, List.mem_range.mpr hi, rfl⟩)
  obtain ⟨hwindow, hrange⟩ := Block.range_of_block hsealable haligned hi
  have hpass := Block.checkReq_of_read hwindow hdla
  exact (Block.checkReq_verdict hsteady hboot (hrange c (Block.range_of_pass hpass)) w .r).symm.trans hpass

end

end Sys2Proof.Machine
end

section
/-! SUPPORT. WR_BLOCK, RD_BLOCK and SYNC_WAIT, and packets of no listed opcode (R174, R184–R186). -/

namespace Sys2Proof.Machine

theorem Block.Stands.checkBlock {h d b : Block} (hs : h.Stands d) {w : Who} {a : Nat} {rt : Right} {o : Option Status}
    (hcheck : h.checkBlock w a rt = (b, o)) : d.checkBlock w a rt = (b.aside d, o) := by
  have haside := Block.aside_checkBlock (b := h) (c := d) (w := w) hs.boot a rt
  rw [← hs.rest, hcheck] at haside
  exact haside

section
variable {s : State} {site : SiteNo} {h : PacketHdr} {w : Who} (haligned : h.addr.toNat % 4096 = 0)
  (hsealable : s.blk.sealable h.addr.toNat = true)
include haligned hsealable

/-! ### Blocks -/

/-- A block of a live dispatch whose seal the hub makes is written, and the outcome answered. -/
theorem wrBlock_answered {data : List Byte} {e : Dispatch} {b1 b : Block} {st : Status}
    (hwho : s.blk.swpWho site h.core h.ctx.toNat = .ok (w, some e)) (hmake : h.attr.toNat.testBit 0 = true)
    (hears : s.blk.Hears site (Packet.of 0x03 h data))
    (hcheck : (s.blk.heard site (Packet.of 0x03 h data)).checkBlock w h.addr.toNat .w = (b1, none))
    (hwrite : b1.dlaWriteBlock w h.addr.toNat (sliceBytes data 0 4096)
      (Seal.make (sliceBytes data 0 4096) (0x400 + 64 * site + h.core) e.epoch 0 (bit (leAt data 4096 8) 62)) = (b, st))
    (hneed : b.ext.need = []) : Yields (.wrBlock site h data) s fun t =>
      s.Answers t site b (Packet.of 0x03 h data) (Packet.short 0x41 h.tag.toNat 0 0 st) := by
  have hpass := Block.checkBlock_pass hcheck
  subst hpass
  have hworked : (s.blk.heard site (Packet.of 0x03 h data)).Worked b := by
    have hdone := Block.Worked.dlaWriteBlock (b := s.blk.heard site (Packet.of 0x03 h data)) (w := w) h.addr.toNat (sliceBytes data 0 4096)
      (Seal.make (sliceBytes data 0 4096) (0x400 + 64 * site + h.core) e.epoch 0 (bit (leAt data 4096 8) 62))
    rwa [hwrite] at hdone
  refine answers_resp site.isLt hears hworked (exec_wrBlock ..) (Packet.asks_of (by decide) h _) hneed fun d hs => ?_
  have hwritten := Block.aside_dlaWriteBlock (w := w) hs.boot h.addr.toNat (sliceBytes data 0 4096)
    (Seal.make (sliceBytes data 0 4096) (0x400 + 64 * site + h.core) e.epoch 0 (bit (leAt data 4096 8) 62))
  rw [hwrite, ← hs.rest] at hwritten
  have hchecked := hs.checkBlock hcheck
  rw [← hs.rest] at hchecked
  have hwho' : d.swpWho site h.core h.ctx.toNat = .ok (w, some e) := (hs.swpWho_heard _ _).trans hwho
  have hsealable' : d.sealable h.addr.toNat = true := (hs.sealable_heard _).trans hsealable
  unfold Block.swpWriteBlock
  dsimp only [Packet.of]
  rw [hwho']
  refine (if_neg (by simp [haligned, hsealable'])).trans ?_
  rw [hchecked]
  dsimp only
  rw [hmake, hwritten]
  rfl

/-- A block is read and answered with its seal. -/
theorem rdBlock_answered {o : Option Dispatch} (hwho : s.blk.swpWho site h.core h.ctx.toNat = .ok (w, o))
    (hverify : h.attr.toNat.testBit 0 = false) (hears : s.blk.Hears site (Packet.of 0x05 h [])) {q : Block × Status × List Byte × Nat}
    (hq : q = (s.blk.heard site (Packet.of 0x05 h [])).dlaReadBlock w h.addr.toNat) (hst : q.2.1 = Code.SUCCESS)
    (hneed : q.1.ext.need = []) (hlen : q.2.2.1.length = 4096) : Yields (.rdBlock site h) s fun t =>
      s.Answers t site q.1 (Packet.of 0x05 h []) ⟨0x44, 257, h.tag.toNat, 0, 0, 0, 0, 0, 0,
        q.2.2.1 ++ natLE 8 (if Seal.present q.2.2.2 then q.2.2.2 else 0) ++ zeros 8⟩ := by
  have hreg := Block.swpWho_mayReg hwho
  have hworked : (s.blk.heard site (Packet.of 0x05 h [])).Worked q.1 := hq ▸ Block.Worked.dlaReadBlock hreg h.addr.toNat
  have hsealable' : (s.blk.heard site (Packet.of 0x05 h [])).sealable h.addr.toNat = true := by
    rw [Block.sealable, Block.range_heard, ← Block.sealable, hsealable]
  have hcheck := Block.checkBlock_of_read hreg hsealable' haligned (by rw [← hq, hst])
  have hdata : (q.2.2.1 ++ natLE 8 (if Seal.present q.2.2.2 then q.2.2.2 else 0) ++ zeros 8).length = 4112 := by
    simp [hlen, zeros]
  generalize hds : q.2.2.1 ++ natLE 8 (if Seal.present q.2.2.2 then q.2.2.2 else 0) ++ zeros 8 = ds at *
  have hanswer := answers_data site.isLt hears hworked (exec_rdBlock site h s) (Packet.asks_of (by decide) h _) hneed
    (op := 0x44) (len := 0) (ds := ds) (by decide) fun d hs => by
      have hread := Block.aside_dlaReadBlock (w := w) hreg hs.boot h.addr.toNat
      rw [← hq, ← hs.rest] at hread
      have hchecked := hs.checkBlock hcheck
      rw [← hs.rest] at hchecked
      have hwho' : d.swpWho site h.core h.ctx.toNat = .ok (w, o) := (hs.swpWho_heard _ _).trans hwho
      have hsealed : d.sealable h.addr.toNat = true := (hs.sealable_heard _).trans hsealable
      have hown : d.ownWindow site h.addr.toNat = false := Block.ownWindow_of_sealable hsealed
      unfold Block.swpReadBlock
      dsimp only [Packet.of]
      rw [hwho']
      refine (if_neg (by simp [haligned])).trans ((if_neg (by simp [hown])).trans ?_)
      rw [hchecked]
      refine (if_neg (by simp [hsealed])).trans ?_
      rw [hread]
      refine (if_neg (by simp [hst])).trans ?_
      simp only [hverify, Bool.false_eq_true, if_false]
      exact congrArg (fun ds => (q.1.aside d).siteData site 0x44 h.tag.toNat 0 ds) hds
  have hwhole : sliceBytes ds 0 (16 * ceilDiv ds.length 16) = ds := by
    rw [hdata, show 16 * ceilDiv 4112 16 = 4112 by decide, ← hdata, sliceBytes_all]
  rw [hwhole, hdata] at hanswer
  exact hanswer

end

/-! ### SYNC_WAIT -/

/-- A wait on an object whose home serves joins those of the home. -/
theorem Block.syncWait_registers {b : Block} {obj : Nat} (hhome : NSet.has b.sync.lostHomes (Sync.homeOf obj) = false) (target : Nat)
    (who : Waiter) (limit : Nat) : ∃ x : SyncWait, (x.obj, x.target, x.who, x.limitUs) = (obj, target, who, limit) ∧
      b.syncWait obj target who limit = (b.setWaits (Sync.homeOf obj) (b.waitsAt (Sync.homeOf obj) ++ [x]), Code.SUCCESS) := by
  unfold Block.syncWait
  rw [if_neg (by simp [hhome])]
  exact ⟨_, rfl, rfl⟩

@[simp] theorem Block.waitsAt_setWaits (b : Block) (k : Nat) (ws : List SyncWait) : (b.setWaits k ws).waitsAt k = ws :=
  SMap.get_put_same ..

section
variable {s : State} {site : SiteNo} {h : PacketHdr} {w : Who} {o : Option Dispatch} {target : Word} {p : Packet} {b1 : Block}
  (hp : p = Packet.of 0x06 h (natLE 16 target.toNat)) (hwho : s.blk.swpWho site h.core h.ctx.toNat = .ok (w, o))
  (hears : s.blk.Hears site p) (hrange : s.blk.range h.addr.toNat = .sync) (haligned : h.addr.toNat % 8 = 0)
  (hcheck : (s.blk.heard site p).checkReq w h.addr.toNat .r = (b1, none))
  (hhome : NSet.has s.blk.sync.lostHomes (Sync.homeOf ((h.addr.toNat - Dla.syncBase) / 8)) = false)

include hp hwho hrange haligned hcheck hhome in
/-- SYNC_WAIT registers its wait at the home of its object. -/
theorem Block.Stands.swpSyncWait {d : Block} (hs : (s.blk.heard site p).Stands d) :
    let obj := (h.addr.toNat - Dla.syncBase) / 8
    ∃ x : SyncWait, (x.obj, x.target, x.who, x.limitUs) =
        (obj, target.toNat, .site site h.tag.toNat h.core h.ctx.toNat, h.param.toNat) ∧
      d.swpSyncWait site p = d.setWaits (Sync.homeOf obj) (s.blk.waitsAt (Sync.homeOf obj) ++ [x]) := by
  intro obj
  obtain ⟨x, hx, hwait⟩ := Block.syncWait_registers (b := d) (obj := obj) (by rw [hs.rest]; exact hhome) target.toNat
    (.site site h.tag.toNat h.core h.ctx.toNat) h.param.toNat
  have hwaits : d.waitsAt (Sync.homeOf obj) = s.blk.waitsAt (Sync.homeOf obj) := by rw [hs.rest]; rfl
  have hchecked := hs.checkReq hcheck
  rw [Block.checkReq_pass hcheck, ← hs.rest] at hchecked
  have hwho' : d.swpWho site h.core h.ctx.toNat = .ok (w, o) := (hs.swpWho_heard _ _).trans hwho
  have hsync : d.range h.addr.toNat = .sync := (hs.range_heard _).trans hrange
  rw [hwaits] at hwait
  refine ⟨x, hx, ?_⟩
  rw [hp]
  unfold Block.swpSyncWait
  dsimp only [Packet.of]
  rw [hwho']
  refine (if_neg (by simp [hsync, haligned])).trans ?_
  rw [hchecked]
  dsimp only
  rw [leAt_natLE_word, hwait]
  exact if_pos rfl

include hp hwho hears hrange haligned hcheck hhome in
/-- A request to wait whose checks pass is registered; its tag stays in use. -/
theorem syncWait_registered :
    let obj := (h.addr.toNat - Dla.syncBase) / 8
    Yields (.syncWait site h target) s fun t =>
      ((t.blk.waitsAt (Sync.homeOf obj)).drop (s.blk.waitsAt (Sync.homeOf obj)).length).map (fun x => (x.obj, x.target, x.who, x.limitUs)) =
        [(obj, target.toNat, .site site h.tag.toNat h.core h.ctx.toNat, h.param.toNat)] ∧
      NSet.has (t.blk.site site).siteTags h.tag.toNat = true ∧ b1.packetsTo t.blk site = [p.creditOf] ∧
      (t.blk.site site).credits = (s.blk.site site).credits ∧
      t = { s with blk := { b1 with
        regs := t.blk.regs, sites := t.blk.sites, sync := t.blk.sync, out := t.blk.out, ext := t.blk.ext } } := by
  intro obj
  have hasks : p.Asks := hp ▸ Packet.asks_of (by decide) h _
  have htag : p.tag = h.tag.toNat := by rw [hp]; rfl
  obtain ⟨d, hs, haccept⟩ := Block.accept_of_hears hasks hears
  obtain ⟨x, hx, hrun⟩ := hs.swpSyncWait hp hwho hrange haligned hcheck hhome
  have hpass := Block.checkReq_pass hcheck
  subst hpass
  have hexec : exec (.syncWait site h target) s = .next (s.upd fun b => b.packetIn site p fun b => b.swpSyncWait site p) := by
    rw [hp]
    rfl
  have hin : s.blk.packetIn site p (fun b => b.swpSyncWait site p) = (d.swpSyncWait site p).giveCredits site p := by
    rw [Block.packetIn, haccept]
  have hget : (d.swpSyncWait site p).waitsAt (Sync.homeOf obj) = s.blk.waitsAt (Sync.homeOf obj) ++ [x] := by
    rw [hrun, Block.waitsAt_setWaits]
  have hrest : d.swpSyncWait site p = { s.blk.heard site p with sites := d.sites, sync := (d.swpSyncWait site p).sync } := by
    rw [hrun, hs.rest, Block.aside, ← hs.boot]
    rfl
  have hsite : (d.swpSyncWait site p).site site = (s.blk.heard site p).site site := by
    rw [hrun]
    exact hs.site site
  generalize d.swpSyncWait site p = r at *
  have hpaid := (Block.RecordOnly.refl r site).setSite ((r.site site).repaid p)
  have hsends := r.giveCredits_of_asks hasks site
  obtain ⟨hend, -, hpackets⟩ := hpaid.sends hsends
  have hfinal := hsends.site
  rw [Block.site_setSite_same, hsite] at hfinal
  generalize r.giveCredits site p = e at *
  refine yields_of_upd hexec hin ⟨?_, ?_, ?_, ?_, ?_⟩
  · have hwaits : e.waitsAt (Sync.homeOf obj) = s.blk.waitsAt (Sync.homeOf obj) ++ [x] := by rw [← hget, hend]; rfl
    rw [hwaits, List.drop_left]
    exact congrArg (fun y => [y]) hx
  · rw [hfinal, ← htag]
    show NSet.has ((s.blk.heard site p).site site).siteTags p.tag = true
    rw [Block.site_heard_of_asks hasks]
    simp [NSet.has_insert]
  · exact (Block.packetsTo_of_out site (by rw [hrest]) rfl).trans hpackets
  · rw [hfinal]
    exact Block.credits_heard_of_hears hasks hears
  · have hblk : e = { s.blk.heard site p with regs := e.regs, sites := e.sites, sync := e.sync, out := e.out, ext := e.ext } := by
      rw [hend, hrest]
    exact congrArg (fun b : Block => { s with blk := b }) hblk

end

end Sys2Proof.Machine
end

section
/-! SUPPORT. A packet of no listed opcode (R174): counted, captured and reported. -/

namespace Sys2Proof.Machine

/-- The first error sets VALID beside what is captured. -/
theorem Block.capture_first {b : Block} {valid : Fld} (h : b.rd valid = 0) (overflow : Fld) (l : List (Fld × Nat)) :
    b.capture valid overflow l = (l.foldl (fun acc f => acc.wr f.1 f.2) b).wr valid 1 := if_neg (by simp [Block.is, h])

/-- The block that has counted and captured packet `p` of site `n`. -/
def Block.protoError (b : Block) (n : Nat) (p : Packet) : Block :=
  ((((((b.count (Reg.ST_SWP_PKT_RX.COUNT n) 1).count (Reg.ST_SWP_PROTO_ERR.COUNT n) 1).wr (Reg.ST_SWP_ERR_LOG.OPCODE n) p.op).wr
    (Reg.ST_SWP_ERR_LOG.TAG n) p.tag).wr (Reg.ST_SWP_ERR_LOG.STATUS n) 0).wr (Reg.ST_SWP_ERR_LOG.CORE n) p.core).wr
    (Reg.ST_SWP_ERR_LOG.VALID n) 1

/-- The fields that a first packet in error writes (R174). -/
def Reg.protoErrorFields (n : Nat) : List Fld :=
  [Reg.ST_SWP_PKT_RX.COUNT n, Reg.ST_SWP_PROTO_ERR.COUNT n, Reg.ST_SWP_ERR_LOG.VALID n, Reg.ST_SWP_ERR_LOG.OPCODE n, Reg.ST_SWP_ERR_LOG.TAG n,
    Reg.ST_SWP_ERR_LOG.STATUS n, Reg.ST_SWP_ERR_LOG.CORE n]

theorem Block.FieldFrame.count {b c : Block} {fs : List Fld} (h : b.FieldFrame c fs) (f : Fld) (n : Nat) (hf : f ∈ fs) :
    b.FieldFrame (c.count f n) fs := h.wr f _ hf

section
variable (b : Block) (n : Nat) (p : Packet)

theorem Block.protoError_count : (b.protoError n p).rd (Reg.ST_SWP_PROTO_ERR.COUNT n) =
    satAdd (Reg.ST_SWP_PROTO_ERR.COUNT n).w (b.rd (Reg.ST_SWP_PROTO_ERR.COUNT n)) 1 := by
  have hlog {g : Fld} (hg : g.off = 0x40001a0 + 0x100000 * n) (c : Block) (v : Nat) :
      (c.wr g v).rd (Reg.ST_SWP_PROTO_ERR.COUNT n) = c.rd (Reg.ST_SWP_PROTO_ERR.COUNT n) :=
    Block.rd_wr_of_off_ne _ _ _ _ (by simp only [Reg.ST_SWP_PROTO_ERR.COUNT, hg]; omega)
  unfold Block.protoError
  rw [hlog rfl, hlog rfl, hlog rfl, hlog rfl, hlog rfl, Block.rd_count_same _ _ _ (by decide : 0 + 32 ≤ 64),
    Block.rd_count_rx _ _ (by simp only [Reg.ST_SWP_PROTO_ERR.COUNT]; omega)]

theorem Block.protoError_valid : (b.protoError n p).rd (Reg.ST_SWP_ERR_LOG.VALID n) = 1 :=
  Block.rd_wr_same _ _ _ (by decide : 42 + 1 ≤ 64)

theorem Block.protoError_opcode (hop : p.op < 256) : (b.protoError n p).rd (Reg.ST_SWP_ERR_LOG.OPCODE n) = p.op := by
  unfold Block.protoError
  rw [Block.rd_wr_of_apart, Block.rd_wr_of_apart, Block.rd_wr_of_apart, Block.rd_wr_of_apart, Block.rd_wr_same]
  · exact Nat.mod_eq_of_lt hop
  all_goals simp [Fld.Apart, Reg.ST_SWP_ERR_LOG.OPCODE, Reg.ST_SWP_ERR_LOG.TAG, Reg.ST_SWP_ERR_LOG.STATUS, Reg.ST_SWP_ERR_LOG.CORE,
    Reg.ST_SWP_ERR_LOG.VALID]

theorem Block.protoError_tag (htag : p.tag < 4096) : (b.protoError n p).rd (Reg.ST_SWP_ERR_LOG.TAG n) = p.tag := by
  unfold Block.protoError
  rw [Block.rd_wr_of_apart, Block.rd_wr_of_apart, Block.rd_wr_of_apart, Block.rd_wr_same]
  · exact Nat.mod_eq_of_lt htag
  all_goals simp [Fld.Apart, Reg.ST_SWP_ERR_LOG.TAG, Reg.ST_SWP_ERR_LOG.STATUS, Reg.ST_SWP_ERR_LOG.CORE, Reg.ST_SWP_ERR_LOG.VALID]

theorem Block.protoError_frame : b.FieldFrame (b.protoError n p) (Reg.protoErrorFields n) := by
  have hcounted := ((Block.FieldFrame.refl b (Reg.protoErrorFields n)).count (Reg.ST_SWP_PKT_RX.COUNT n) 1 (by simp [Reg.protoErrorFields])).count
    (Reg.ST_SWP_PROTO_ERR.COUNT n) 1 (by simp [Reg.protoErrorFields])
  exact ((((hcounted.wr (Reg.ST_SWP_ERR_LOG.OPCODE n) p.op (by simp [Reg.protoErrorFields])).wr (Reg.ST_SWP_ERR_LOG.TAG n) p.tag
    (by simp [Reg.protoErrorFields])).wr (Reg.ST_SWP_ERR_LOG.STATUS n) 0 (by simp [Reg.protoErrorFields])).wr (Reg.ST_SWP_ERR_LOG.CORE n) p.core
    (by simp [Reg.protoErrorFields])).wr (Reg.ST_SWP_ERR_LOG.VALID n) 1 (by simp [Reg.protoErrorFields])

end

/-- `c` is `b` with a packet of site `n`, opcode `op` and tag `tag` counted and captured as the first error. -/
structure Block.Captures (b c : Block) (n op tag : Nat) : Prop where
  count : c.rd (Reg.ST_SWP_PROTO_ERR.COUNT n) = satAdd (Reg.ST_SWP_PROTO_ERR.COUNT n).w (b.rd (Reg.ST_SWP_PROTO_ERR.COUNT n)) 1
  valid : c.rd (Reg.ST_SWP_ERR_LOG.VALID n) = 1
  opcode : c.rd (Reg.ST_SWP_ERR_LOG.OPCODE n) = op
  tag : c.rd (Reg.ST_SWP_ERR_LOG.TAG n) = tag
  frame : b.FieldFrame c (Reg.protoErrorFields n)

theorem Block.protoError_captures (b : Block) (n : Nat) {p : Packet} (hop : p.op < 256) (htag : p.tag < 4096) :
    b.Captures (b.protoError n p) n p.op p.tag :=
  ⟨b.protoError_count n p, b.protoError_valid n p, b.protoError_opcode n p hop, b.protoError_tag n p htag, b.protoError_frame n p⟩

/-- A response of no listed opcode is turned away and not answered. -/
theorem Block.packetIn_unlisted {b : Block} {n : Nat} {p : Packet} (hlink : b.linkState n = Link.ENROLLED) (henrolled : b.enrolled n = true)
    (hunits : Swp.units p.op p.len = none) (hop : 0x40 ≤ p.op) (hvalid : b.rd (Reg.ST_SWP_ERR_LOG.VALID n) = 0) (run : Block → Block) :
    b.packetIn n p run = (b.protoError n p).swpBreach n p := by
  have hup : b.linkUp n = true := by simp [Block.linkUp, hlink]
  obtain ⟨-, -, hrequest⟩ := Packet.free_of_rsp hop (b.site n).credits
  have hvalid' : ((b.count (Reg.ST_SWP_PKT_RX.COUNT n) 1).count (Reg.ST_SWP_PROTO_ERR.COUNT n) 1).rd (Reg.ST_SWP_ERR_LOG.VALID n) = 0 := by
    rw [Block.count_eq, Block.rd_wr_of_off_ne, Block.rd_count_rx, hvalid]
    all_goals simp only [Reg.ST_SWP_ERR_LOG.VALID, Reg.ST_SWP_PROTO_ERR.COUNT, ne_eq]; omega
  have hbad : (b.count (Reg.ST_SWP_PKT_RX.COUNT n) 1).badPacket n p = (b.protoError n p).swpBreach n p := by
    unfold Block.badPacket
    simp only [hrequest, Block.capture_first hvalid']
    rfl
  have haccept : b.accept n p = ((b.count (Reg.ST_SWP_PKT_RX.COUNT n) 1).badPacket n p, false) := by
    simp [Block.accept, hup, show p.op ≠ 0 by omega, show p.op ≠ 0x29 by omega, b.enrolled_count_rx, henrolled, hunits]
  rw [Block.packetIn, haccept, hbad]

theorem Block.swpBreach_rest {b c : Block} (h : c = { b with regs := c.regs }) (n : Nat) (p : Packet) :
    c.swpBreach n p = { b with regs := c.regs, fc := (c.swpBreach n p).fc } :=
  congrArg (fun d : Block => { d with fc := (c.swpBreach n p).fc }) h

/-- What a packet of no listed opcode leaves is captured and then reported. -/
theorem Block.packetIn_captures {b : Block} {n : Nat} {p : Packet} (hlink : b.linkState n = Link.ENROLLED) (henrolled : b.enrolled n = true)
    (hunits : Swp.units p.op p.len = none) (hop : 0x40 ≤ p.op) (hop' : p.op < 256) (htag : p.tag < 4096)
    (hvalid : b.rd (Reg.ST_SWP_ERR_LOG.VALID n) = 0) (run : Block → Block) :
    ∃ c, b.Captures c n p.op p.tag ∧ b.packetIn n p run = c.swpBreach n p :=
  ⟨_, b.protoError_captures n hop' htag, Block.packetIn_unlisted hlink henrolled hunits hop hvalid run⟩

/-- The packet that an unlisted opcode arrives as. -/
def Packet.unlisted (op : Nat) (units : Nat) (h : PacketHdr) : Packet := { Packet.of op h [] with units := units }

theorem exec_unlistedPacket_of_unlisted {site : SiteNo} {op : BitVec 8} (units : Fin 512) {h : PacketHdr} (s : State)
    (hunits : Swp.units op.toNat h.len.toNat = none) :
    exec (.unlistedPacket site op units h) s = .next (s.upd fun b => b.packetIn site (Packet.unlisted op.toNat units h) id) := by
  have hbad : Swp.units (Packet.unlisted op.toNat units h).op (Packet.unlisted op.toNat units h).len = none := hunits
  change Host.Outcome.next (s.upd fun b =>
    if (match Swp.units (Packet.unlisted op.toNat units h).op (Packet.unlisted op.toNat units h).len with
      | none => true
      | some u => decide (u ≠ (Packet.unlisted op.toNat units h).units) || !(b.site site).credits.siteAllow (Packet.unlisted op.toNat units h)) then
      b.packetIn site (Packet.unlisted op.toNat units h) id else b) = _
  rw [hbad]
  rfl

theorem unlistedPacket_reported {s : State} {site : SiteNo} {op : BitVec 8} (units : Fin 512) {h : PacketHdr}
    (hlink : s.blk.linkState site = Link.ENROLLED) (henrolled : s.blk.enrolled site = true)
    (hunits : Swp.units op.toNat h.len.toNat = none) (hop : 0x40 ≤ op.toNat) (hvalid : s.blk.rd (Reg.ST_SWP_ERR_LOG.VALID site) = 0) :
    Yields (.unlistedPacket site op units h) s fun t =>
      t.blk.rd (Reg.ST_SWP_PROTO_ERR.COUNT site) = satAdd (Reg.ST_SWP_PROTO_ERR.COUNT site).w (s.blk.rd (Reg.ST_SWP_PROTO_ERR.COUNT site)) 1 ∧
      t.blk.rd (Reg.ST_SWP_ERR_LOG.VALID site) = 1 ∧ t.blk.rd (Reg.ST_SWP_ERR_LOG.OPCODE site) = op.toNat ∧
      t.blk.rd (Reg.ST_SWP_ERR_LOG.TAG site) = h.tag.toNat ∧
      s.blk.Raised t.blk (Src.site site) Kind.SWP_BREACH h.tag.toNat op.toNat ∧
      t = { s with blk := { s.blk with regs := t.blk.regs, fc := t.blk.fc } } ∧
      s.blk.FieldsKept t.blk [Reg.ST_SWP_PKT_RX.COUNT site, Reg.ST_SWP_PROTO_ERR.COUNT site, Reg.ST_SWP_ERR_LOG.VALID site,
        Reg.ST_SWP_ERR_LOG.OPCODE site, Reg.ST_SWP_ERR_LOG.TAG site, Reg.ST_SWP_ERR_LOG.STATUS site,
        Reg.ST_SWP_ERR_LOG.CORE site] := by
  obtain ⟨c, hc, hin⟩ := Block.packetIn_captures (p := Packet.unlisted op.toNat units h) hlink henrolled hunits hop op.isLt h.tag.isLt hvalid id
  refine yields_of_upd (exec_unlistedPacket_of_unlisted units s hunits) hin ⟨hc.count, hc.valid, hc.opcode, hc.tag, ?_, ?_, hc.frame.fields⟩
  · exact Block.pennant_fc_of_eq _ _ _ _ (by rw [hc.frame.rest]) (by rw [hc.frame.rest])
  · exact congrArg (fun d : Block => { s with blk := d }) (Block.swpBreach_rest hc.frame.rest site _)

end Sys2Proof.Machine
end

section
/-! Family 08_site_protocol.md: what a site asks and answers (O28). -/

namespace Sys2Proof.Machine

/-- Settles O28 (R174, R176–R178, R182–R186, R189, R190, R192, R196). The order crossing, own window, firewall, and an ADD taken as a write for the
crossing, are the model's choice (assumption 38). A site's request is traced through receipt, the access of the memory system and one answer with its
credits; an answer to the hub through the tag that it frees. -/
theorem sitePackets : Obligations.SitePackets := by
  unfold Obligations.SitePackets
  refine ⟨fun s site h => ⟨fun w d hwho => ⟨fun hwithin hown => ⟨?rd, ?wr, ?add⟩, fun data c p hc hears => request_turned_away hc hears hwho,
      ?wrBlock, ?rdBlock, ?syncWait⟩,
    fun st hwho data c p hc hears => context_turned_away hwho hc hears,
    fun op units hlink henrolled hunits hop hvalid => unlistedPacket_reported units hlink henrolled hunits hop hvalid⟩,
    fun s site h hlink henrolled hopened hrecoveries => ⟨fun n at' hu hsent howed => ⟨fun data hop => rdData_ends hlink henrolled hu hsent howed hop,
        fun data hop => rdData_breaches hlink henrolled hu hsent howed hop,
        fun hst => resp_ends hlink henrolled hu hsent howed hopened hrecoveries hst, windowReqTimeout_ends hu hsent⟩,
      fun n at' hu hused hidle r hr hallow hne => resp_hands_on hlink henrolled hopened hrecoveries hu hused hidle hr hallow hne,
      fun hu data => rdData_late hlink henrolled hu,
      fun at' d hu hd howed => ⟨fun count => done_ends hlink henrolled hopened hrecoveries hu hd howed,
        fun hlive hidle hreq hwaits c hc => dispatchTimeout_cancels hlink hd howed hlive hidle hreq hwaits hc,
        fun hcancelled => dispatchTimeout_of_cancelled hd hcancelled⟩,
      fun ctx phys at' hu => cancelTimeout_raises hopened hrecoveries hu, fun rq rd sn hidle => credit_taken hlink henrolled rq rd sn hidle,
      fun w k hwaits core ctx hwho hopen hlimit hidle => siteWaitTimeout_answers hlink hwaits hwho hopen hlimit hidle⟩⟩
  case rd =>
    rintro p rfl hears b st ds hdla hneed
    exact rd_answered hwho hwithin hown hears hdla hneed
  case wr =>
    rintro data p rfl hears b st ds hdla hneed
    exact wr_answered hwho hwithin hown hears hdla hneed
  case add =>
    rintro data p rfl hears b1 hcheck
    exact ⟨fun hfits b st ds hperform hneed => swpAdd_answered hwho hwithin hown hears hcheck hfits hperform hneed,
      fun hfits => swpAdd_refused hwho hwithin hown hears hcheck hfits⟩
  case wrBlock =>
    rintro data p rfl hears haligned hsealable hmake e rfl b1 hcheck b st hwrite hneed
    exact wrBlock_answered haligned hsealable hwho hmake hears hcheck hwrite hneed
  case rdBlock =>
    rintro p rfl hears haligned hsealable hverify q hq hst hneed hlen
    exact rdBlock_answered haligned hsealable hwho hverify hears hq hst hneed hlen
  case syncWait =>
    intro target p hp hears hrange haligned b1 hcheck obj hhome
    exact syncWait_registered hp hwho hears hrange haligned hcheck hhome

end Sys2Proof.Machine
end
